-- ==== Sys2Proof/Word.lean ====
section
/-! DEFINITION. The plain types of the model: bytes, words, exact times. -/

namespace Sys2Proof

/-- One byte of a byte image. -/
abbrev Byte := BitVec 8

/-- A byte image, first byte at the lowest offset. -/
abbrev Bytes := List Byte

/-- A Keystone time in fraction units of 2^-16 tick (00 R7): ticks × 65,536 + fraction. -/
abbrev KTime := Nat

/-- One tick in fraction units (00 R7). -/
abbrev tick : Nat := 65536

/-- A sparse table: key and value pairs, keys strictly rising, no entry equal to the default. -/
abbrev Tab (α : Type) := List (Nat × α)

end Sys2Proof
end

