-- ==== Sys2Proof/Config.lean ====
section
/-! DEFINITION. What one device fixes, and the free values: constants without a body, so that no proof can rest on
a value the spec leaves open (notes/assumptions/4.md). -/

namespace Sys2Proof.Config

/-- A free value: what the spec leaves undefined or random, one for each step of the counter State.free. -/
opaque freeNat : Nat → Nat

/-- A free register value of width w (09 R266: registers that PSDACC leaves undefined). -/
opaque freeBits (w : Nat) : Nat → BitVec w

/-- The fused and boot-time values of read-only objects (18 Table 18-6 defaults "fused" and "boot"; 14 net.mac base). -/
opaque fuse : Nat → Nat

/-- Whether the LFSR of the LO modulator shifts towards its high end (02 R59 does not say). -/
opaque lfsrUp : Bool

/-- The bit of that LFSR that is added as dither (02 R59 does not say). -/
opaque ditherTap : Fin 32

/-- Bytes of signatures and ephemeral keys, which come from the random bit generator (18 R481). -/
opaque signature : Nat → Bytes → Bytes

/-- The leakage allowance L in units of 62.5 mA at a reading in units of 0.25 °C (17 R453: a fused table). -/
opaque leakage : Int → Nat

/-- The 56 result bytes of a vendor library program (09 R265 states what they mean, not their exact arithmetic), as a
function of the program number, the parameters and the presented samples. -/
opaque libraryResult : Nat → Bytes → List Int → Bytes

/-- Instructions that a vendor library program executes on a record. -/
opaque libraryInstructions : Nat → Bytes → List Int → Nat

/-- Bytes bound for memory that the output abutments of the Deck hold before they are full; one write always fits (01 R20 gives no size). -/
opaque outputRoom : Nat

/-- Refresh commands that a channel may postpone (10 R279 leaves the number to JESD79-5). -/
opaque postponeMax : Nat

/-- The greatest rate of the trigger log in bytes per second (10 R290 charges it; no rule states it). -/
opaque trigLogRate : Nat

/-- The greatest rate of the completion entries of the enabled contexts, in bytes per second (10 R290 charges it; no rule states it). -/
opaque completionRate : List Nat → Nat

end Sys2Proof.Config
end

