-- ==== Sys2Proof/Machine/Keys.lean ====
section
/-! DEFINITION. The keys of the dictionary objects: index × 256 + subindex (13 R350, Table 13-5). One name per row
of the chapters' object tables; n is the unit (or the pier, lane, sensor) the row repeats for. -/

namespace Sys2Proof.Machine.Key

def statusGapCount : Nat := 0x101001
def statusGapLast : Nat := 0x101002
def abutmentLag (n : Nat) : Nat := 0x101201 + n
def abutmentPeak (n : Nat) : Nat := 0x101211 + n
def abutmentClear : Nat := 0x101221
def statusPromise : Nat := 0x101401
def ksNow : Nat := 0x140001
def ksState : Nat := 0x140002
def ksOffset : Nat := 0x140003
def ksSlewRate : Nat := 0x140004
def ksSlewRemaining : Nat := 0x140005
def ksStep : Nat := 0x140006
def ksLoad : Nat := 0x140007
def ksHoldoverCount : Nat := 0x140008
def sysrefPeriod : Nat := 0x140101
def sysrefPhase : Nat := 0x140102
def sysrefMode : Nat := 0x140103
def sysrefLast : Nat := 0x140104
def sysrefError : Nat := 0x140105
def sysrefMisses : Nat := 0x140106
def ppsLast : Nat := 0x140201
def ppsEdge : Nat := 0x140202
def ppsCount : Nat := 0x140203
def taiSource : Nat := 0x140301
def taiState : Nat := 0x140302
def taiAnchorK : Nat := 0x140303
def taiAnchorSec : Nat := 0x140304
def taiAnchorPs : Nat := 0x140305
def taiRate : Nat := 0x140306
def taiSeconds : Nat := 0x140307
def taiSteps : Nat := 0x140308
def loEnable : Nat := 0x140401
def loDivider : Nat := 0x140402
def loWord : Nat := 0x140403
def loDither : Nat := 0x140404
def loSeed : Nat := 0x140405
def loState : Nat := 0x140406
def loMuteStart : Nat := 0x140407
def loMuteEnd : Nat := 0x140408
def loRampMode : Nat := 0x140409
def loRampCount : Nat := 0x14040A
def loRampPeriod : Nat := 0x14040B
def loRampSegment : Nat := 0x14040C
def loRelock : Nat := 0x14040D
def loRampTable : Nat := 0x140501
def lanepllState (n : Nat) : Nat := 0x140601 + n
def pierRate (n : Nat) : Nat := 0x150001 + n
def pierState (n : Nat) : Nat := 0x150101 + n
def pierRecoveries (n : Nat) : Nat := 0x150111 + n
def pierRestart (n : Nat) : Nat := 0x150201 + n
def laneEq : Nat := 0x150301
def laneState (n : Nat) : Nat := 0x150401 + n
def laneCrcErrors (n : Nat) : Nat := 0x150501 + n
def laneShErrors (n : Nat) : Nat := 0x150601 + n
def linkEnable (n : Nat) : Nat := 0x158001 + 256 * n
def linkL (n : Nat) : Nat := 0x158002 + 256 * n
def linkM (n : Nat) : Nat := 0x158003 + 256 * n
def linkF (n : Nat) : Nat := 0x158004 + 256 * n
def linkS (n : Nat) : Nat := 0x158005 + 256 * n
def linkN (n : Nat) : Nat := 0x158006 + 256 * n
def linkNp (n : Nat) : Nat := 0x158007 + 256 * n
def linkCs (n : Nat) : Nat := 0x158008 + 256 * n
def linkE (n : Nat) : Nat := 0x158009 + 256 * n
def linkHd (n : Nat) : Nat := 0x15800A + 256 * n
def linkLanes (n : Nat) : Nat := 0x15800B + 256 * n
def linkRbd (n : Nat) : Nat := 0x15800C + 256 * n
def linkLatency (n : Nat) : Nat := 0x15800D + 256 * n
def linkState (n : Nat) : Nat := 0x15800E + 256 * n
def linkArrivalMin (n : Nat) : Nat := 0x15800F + 256 * n
def linkArrivalMax (n : Nat) : Nat := 0x158010 + 256 * n
def linkArrivalClear (n : Nat) : Nat := 0x158011 + 256 * n
def linkErrors (n : Nat) : Nat := 0x158012 + 256 * n
def linkReleaseErrors (n : Nat) : Nat := 0x158013 + 256 * n
def portEnable (n : Nat) : Nat := 0x200001 + 256 * n
def portLink (n : Nat) : Nat := 0x200002 + 256 * n
def portKind (n : Nat) : Nat := 0x200003 + 256 * n
def portConvI (n : Nat) : Nat := 0x200004 + 256 * n
def portConvQ (n : Nat) : Nat := 0x200005 + 256 * n
def portDelayInt (n : Nat) : Nat := 0x200006 + 256 * n
def portDelayFrac (n : Nat) : Nat := 0x200007 + 256 * n
def portRate (n : Nat) : Nat := 0x200008 + 256 * n
def portWidth (n : Nat) : Nat := 0x200009 + 256 * n
def portOverloadCount (n : Nat) : Nat := 0x20000A + 256 * n
def portGapSeq (n : Nat) : Nat := 0x20000B + 256 * n
def feMode (n : Nat) : Nat := 0x240001 + 256 * n
def fePreset (n : Nat) : Nat := 0x240002 + 256 * n
def feDecim (n : Nat) : Nat := 0x240003 + 256 * n
def feNcoEnable (n : Nat) : Nat := 0x240004 + 256 * n
def feNcoFreq (n : Nat) : Nat := 0x240005 + 256 * n
def feNcoPhase (n : Nat) : Nat := 0x240006 + 256 * n
def feFirSource (n : Nat) : Nat := 0x240007 + 256 * n
def feFirTaps (n : Nat) : Nat := 0x240008 + 256 * n
def feFirBankA (n : Nat) : Nat := 0x240009 + 256 * n
def feFirBankB (n : Nat) : Nat := 0x24000A + 256 * n
def feFadeLen (n : Nat) : Nat := 0x24000B + 256 * n
def feFadeState (n : Nat) : Nat := 0x24000C + 256 * n
def feFadeEnd (n : Nat) : Nat := 0x24000D + 256 * n
def feSyncEnable (n : Nat) : Nat := 0x24000E + 256 * n
def feSettleBind (n : Nat) : Nat := 0x24000F + 256 * n
def feFillKeep (n : Nat) : Nat := 0x240010 + 256 * n
def feEdgeStage (n : Nat) : Nat := 0x240011 + 256 * n
def feEdgeQuantity (n : Nat) : Nat := 0x240012 + 256 * n
def feEdgeLevel (n : Nat) : Nat := 0x240013 + 256 * n
def feEdgeHyst (n : Nat) : Nat := 0x240014 + 256 * n
def feEdgeSlope (n : Nat) : Nat := 0x240015 + 256 * n
def feEdgeDead (n : Nat) : Nat := 0x240016 + 256 * n
def feEdgePins (n : Nat) : Nat := 0x240017 + 256 * n
def feEdgeWidth (n : Nat) : Nat := 0x240018 + 256 * n
def feEdgeCount (n : Nat) : Nat := 0x240019 + 256 * n
def feEdgeLast (n : Nat) : Nat := 0x24001A + 256 * n
def feRate (n : Nat) : Nat := 0x24001B + 256 * n
def feGdelay (n : Nat) : Nat := 0x24001C + 256 * n
def feFill (n : Nat) : Nat := 0x24001D + 256 * n
def feSatCount (n : Nat) : Nat := 0x24001E + 256 * n
def feFillEnd (n : Nat) : Nat := 0x24001F + 256 * n
def syncNow : Nat := 0x140701
def syncPinEnable : Nat := 0x140702
def syncPinLead : Nat := 0x140703
def syncLast : Nat := 0x140704
def syncCount : Nat := 0x140705
def syncPinIgnored : Nat := 0x140706
def viewEnable (n : Nat) : Nat := 0x280001 + 256 * n
def viewPortFirst (n : Nat) : Nat := 0x280002 + 256 * n
def viewPortCount (n : Nat) : Nat := 0x280003 + 256 * n
def viewSize (n : Nat) : Nat := 0x280004 + 256 * n
def viewHop (n : Nat) : Nat := 0x280005 + 256 * n
def viewOffset (n : Nat) : Nat := 0x280006 + 256 * n
def viewWindow (n : Nat) : Nat := 0x280007 + 256 * n
def viewWindowParam (n : Nat) : Nat := 0x280008 + 256 * n
def viewWindowUser (n : Nat) : Nat := 0x280009 + 256 * n
def viewWindowTable (n : Nat) : Nat := 0x28000A + 256 * n
def viewWindowSum (n : Nat) : Nat := 0x28000B + 256 * n
def viewEnbw (n : Nat) : Nat := 0x28000C + 256 * n
def viewFormat (n : Nat) : Nat := 0x28000D + 256 * n
def viewDetector (n : Nat) : Nat := 0x28000E + 256 * n
def viewBinFirst (n : Nat) : Nat := 0x28000F + 256 * n
def viewBinCount (n : Nat) : Nat := 0x280010 + 256 * n
def viewBinDecim (n : Nat) : Nat := 0x280011 + 256 * n
def viewTimeDecim (n : Nat) : Nat := 0x280012 + 256 * n
def viewEpoch (n : Nat) : Nat := 0x280013 + 256 * n
def viewFrames (n : Nat) : Nat := 0x280014 + 256 * n
def viewGaps (n : Nat) : Nat := 0x280015 + 256 * n
def viewClipCount (n : Nat) : Nat := 0x280016 + 256 * n
def viewCost (n : Nat) : Nat := 0x280017 + 256 * n
def viewPoi (n : Nat) : Nat := 0x280018 + 256 * n
def viewSuspended (n : Nat) : Nat := 0x280019 + 256 * n
def viewLast (n : Nat) : Nat := 0x28001A + 256 * n
def girderState (n : Nat) : Nat := 0x101801 + n
def girderFaults (n : Nat) : Nat := 0x101901 + n
def deckGirdersService : Nat := 0x101A01
def deckSparesFree : Nat := 0x101A02
def deckLoad : Nat := 0x101A03
def deckLimit : Nat := 0x101A04
def deckSramUsed : Nat := 0x101A05
def girderRetire (n : Nat) : Nat := 0x101B01 + n
def densEnable (n : Nat) : Nat := 0x2A0001 + 256 * n
def xpEnable (n : Nat) : Nat := 0x2B0001 + 256 * n
def intEnable (n : Nat) : Nat := 0x2D0001 + 256 * n
def densView (n : Nat) : Nat := 0x2A0002 + 256 * n
def xpView (n : Nat) : Nat := 0x2B0002 + 256 * n
def intView (n : Nat) : Nat := 0x2D0002 + 256 * n
def densPort (n : Nat) : Nat := 0x2A0003 + 256 * n
def xpPort (n : Nat) : Nat := 0x2B0003 + 256 * n
def intPort (n : Nat) : Nat := 0x2D0003 + 256 * n
def densDumpStart (n : Nat) : Nat := 0x2A0004 + 256 * n
def xpDumpStart (n : Nat) : Nat := 0x2B0004 + 256 * n
def intDumpStart (n : Nat) : Nat := 0x2D0004 + 256 * n
def densDumpInterval (n : Nat) : Nat := 0x2A0005 + 256 * n
def xpDumpInterval (n : Nat) : Nat := 0x2B0005 + 256 * n
def intDumpInterval (n : Nat) : Nat := 0x2D0005 + 256 * n
def densReject (n : Nat) : Nat := 0x2A0006 + 256 * n
def xpReject (n : Nat) : Nat := 0x2B0006 + 256 * n
def intReject (n : Nat) : Nat := 0x2D0006 + 256 * n
def densRingBase (n : Nat) : Nat := 0x2A0007 + 256 * n
def xpRingBase (n : Nat) : Nat := 0x2B0007 + 256 * n
def intRingBase (n : Nat) : Nat := 0x2D0007 + 256 * n
def densRingSize (n : Nat) : Nat := 0x2A0008 + 256 * n
def xpRingSize (n : Nat) : Nat := 0x2B0008 + 256 * n
def intRingSize (n : Nat) : Nat := 0x2D0008 + 256 * n
def densRingWptr (n : Nat) : Nat := 0x2A0009 + 256 * n
def xpRingWptr (n : Nat) : Nat := 0x2B0009 + 256 * n
def intRingWptr (n : Nat) : Nat := 0x2D0009 + 256 * n
def densDumps (n : Nat) : Nat := 0x2A000A + 256 * n
def xpDumps (n : Nat) : Nat := 0x2B000A + 256 * n
def intDumps (n : Nat) : Nat := 0x2D000A + 256 * n
def densFramesRejected (n : Nat) : Nat := 0x2A000B + 256 * n
def xpFramesRejected (n : Nat) : Nat := 0x2B000B + 256 * n
def intFramesRejected (n : Nat) : Nat := 0x2D000B + 256 * n
def densSaturations (n : Nat) : Nat := 0x2A000C + 256 * n
def xpSaturations (n : Nat) : Nat := 0x2B000C + 256 * n
def intSaturations (n : Nat) : Nat := 0x2D000C + 256 * n
def densClear (n : Nat) : Nat := 0x2A000D + 256 * n
def xpClear (n : Nat) : Nat := 0x2B000D + 256 * n
def intClear (n : Nat) : Nat := 0x2D000D + 256 * n
def densMode (n : Nat) : Nat := 0x2A0010 + 256 * n
def densColDecim (n : Nat) : Nat := 0x2A0011 + 256 * n
def densRows (n : Nat) : Nat := 0x2A0012 + 256 * n
def densTop (n : Nat) : Nat := 0x2A0013 + 256 * n
def densStep (n : Nat) : Nat := 0x2A0014 + 256 * n
def densDecayInterval (n : Nat) : Nat := 0x2A0015 + 256 * n
def densDecayFactor (n : Nat) : Nat := 0x2A0016 + 256 * n
def densImage (n : Nat) : Nat := 0x2A0017 + 256 * n
def densClip (n : Nat) : Nat := 0x2A0018 + 256 * n
def densCols (n : Nat) : Nat := 0x2A0019 + 256 * n
def xpViewY (n : Nat) : Nat := 0x2B0010 + 256 * n
def xpPortY (n : Nat) : Nat := 0x2B0011 + 256 * n
def xpChanDecim (n : Nat) : Nat := 0x2B0012 + 256 * n
def xpShift (n : Nat) : Nat := 0x2B0013 + 256 * n
def xpUnpaired (n : Nat) : Nat := 0x2B0014 + 256 * n
def intSw (n : Nat) : Nat := 0x2D0010 + 256 * n
def intGuard (n : Nat) : Nat := 0x2D0011 + 256 * n
def intChanDecim (n : Nat) : Nat := 0x2D0012 + 256 * n
def intShift (n : Nat) : Nat := 0x2D0013 + 256 * n
def intBlanked (n : Nat) : Nat := 0x2D0014 + 256 * n
def spgEnable (n : Nat) : Nat := 0x2A4001 + 256 * n
def spgView (n : Nat) : Nat := 0x2A4002 + 256 * n
def spgPort (n : Nat) : Nat := 0x2A4003 + 256 * n
def spgRows (n : Nat) : Nat := 0x2A4004 + 256 * n
def spgImage (n : Nat) : Nat := 0x2A4005 + 256 * n
def spgHeader (n : Nat) : Nat := 0x2A4006 + 256 * n
def spgSeq (n : Nat) : Nat := 0x2A4007 + 256 * n
def spgPoints (n : Nat) : Nat := 0x2A4008 + 256 * n
def spgPitch (n : Nat) : Nat := 0x2A4009 + 256 * n
def fectlLevel : Nat := 0x360001
def fectlTable : Nat := 0x360002
def fectlCount : Nat := 0x360003
def fectlMode : Nat := 0x360004
def fectlPeriod : Nat := 0x360005
def swEnable (n : Nat) : Nat := 0x361001 + 256 * n
def swStart (n : Nat) : Nat := 0x361002 + 256 * n
def swPeriod (n : Nat) : Nat := 0x361003 + 256 * n
def swPhases (n : Nat) : Nat := 0x361004 + 256 * n
def swBound1 (n : Nat) : Nat := 0x361005 + 256 * n
def swBound2 (n : Nat) : Nat := 0x361006 + 256 * n
def swBound3 (n : Nat) : Nat := 0x361007 + 256 * n
def swLevels (n : Nat) : Nat := 0x361008 + 256 * n
def swPhase (n : Nat) : Nat := 0x361009 + 256 * n
def prodDensSram : Nat := 0x101C01
def prodDensLoad : Nat := 0x101C02
def prodAccSram : Nat := 0x101C03
def prodAccLoad : Nat := 0x101C04
def maskEnable (n : Nat) : Nat := 0x340001 + 256 * n
def maskView (n : Nat) : Nat := 0x340002 + 256 * n
def maskPort (n : Nat) : Nat := 0x340003 + 256 * n
def maskPoints (n : Nat) : Nat := 0x340004 + 256 * n
def maskTable (n : Nat) : Nat := 0x340005 + 256 * n
def maskK (n : Nat) : Nat := 0x340006 + 256 * n
def maskM (n : Nat) : Nat := 0x340007 + 256 * n
def maskJ (n : Nat) : Nat := 0x340008 + 256 * n
def maskHyst (n : Nat) : Nat := 0x340009 + 256 * n
def maskRearm (n : Nat) : Nat := 0x34000A + 256 * n
def maskReject (n : Nat) : Nat := 0x34000B + 256 * n
def maskPins (n : Nat) : Nat := 0x34000C + 256 * n
def maskState (n : Nat) : Nat := 0x34000D + 256 * n
def maskHistory (n : Nat) : Nat := 0x34000E + 256 * n
def maskSpectra (n : Nat) : Nat := 0x34000F + 256 * n
def maskRejected (n : Nat) : Nat := 0x340010 + 256 * n
def maskEvents (n : Nat) : Nat := 0x340011 + 256 * n
def maskLast (n : Nat) : Nat := 0x340012 + 256 * n
def occEnable (n : Nat) : Nat := 0x2A0020 + 256 * n
def occColFirst (n : Nat) : Nat := 0x2A0021 + 256 * n
def occColCount (n : Nat) : Nat := 0x2A0022 + 256 * n
def occRowFirst (n : Nat) : Nat := 0x2A0023 + 256 * n
def occRowCount (n : Nat) : Nat := 0x2A0024 + 256 * n
def occCount (n : Nat) : Nat := 0x2A0025 + 256 * n
def occRearm (n : Nat) : Nat := 0x2A0026 + 256 * n
def occPins (n : Nat) : Nat := 0x2A0027 + 256 * n
def occState (n : Nat) : Nat := 0x2A0028 + 256 * n
def occSum (n : Nat) : Nat := 0x2A0029 + 256 * n
def occEvents (n : Nat) : Nat := 0x2A002A + 256 * n
def occLast (n : Nat) : Nat := 0x2A002B + 256 * n
def trigEvents : Nat := 0x101D01
def trigLate : Nat := 0x101D02
def trigStale : Nat := 0x101D03
def trigiEdge (n : Nat) : Nat := 0x362001 + 256 * n
def trigiDelay (n : Nat) : Nat := 0x362002 + 256 * n
def trigiDead (n : Nat) : Nat := 0x362003 + 256 * n
def trigiPins (n : Nat) : Nat := 0x362004 + 256 * n
def trigiCount (n : Nat) : Nat := 0x362005 + 256 * n
def trigiLast (n : Nat) : Nat := 0x362006 + 256 * n
def trigiLevel (n : Nat) : Nat := 0x362007 + 256 * n
def trigoWidth (n : Nat) : Nat := 0x362801 + 256 * n
def trigoCount (n : Nat) : Nat := 0x362802 + 256 * n
def trigCmd (n : Nat) : Nat := 0x363001 + n
def trigCmdPins : Nat := 0x363011
def trigMonPins (n : Nat) : Nat := 0x363012 + n
def trigLogEnable : Nat := 0x363101
def trigLogKinds : Nat := 0x363102
def trigLogBase : Nat := 0x363103
def trigLogSize : Nat := 0x363104
def trigLogWptr : Nat := 0x363105
def rtrigTimeout : Nat := 0x363106
def rtrigPublish (n : Nat) : Nat := 0x364001 + 256 * n
def rtrigScope (n : Nat) : Nat := 0x364002 + 256 * n
def rtrigFrom (n : Nat) : Nat := 0x364003 + 256 * n
def rtrigPins (n : Nat) : Nat := 0x364004 + 256 * n
def rtrigState (n : Nat) : Nat := 0x364005 + 256 * n
def rtrigWatermark (n : Nat) : Nat := 0x364006 + 256 * n
def rtrigEvents (n : Nat) : Nat := 0x364007 + 256 * n
def rtrigForeign (n : Nat) : Nat := 0x364008 + 256 * n
def rtrigLate (n : Nat) : Nat := 0x364009 + 256 * n
def ctxEnable (n : Nat) : Nat := 0x300001 + 256 * n
def ctxExpr (n : Nat) : Nat := 0x300002 + 256 * n
def ctxMode (n : Nat) : Nat := 0x300003 + 256 * n
def ctxPre (n : Nat) : Nat := 0x300004 + 256 * n
def ctxPost (n : Nat) : Nat := 0x300005 + 256 * n
def ctxExtend (n : Nat) : Nat := 0x300006 + 256 * n
def ctxRecMax (n : Nat) : Nat := 0x300007 + 256 * n
def ctxHoldoffMode (n : Nat) : Nat := 0x300008 + 256 * n
def ctxHoldoff (n : Nat) : Nat := 0x300009 + 256 * n
def ctxCapture (n : Nat) : Nat := 0x30000A + 256 * n
def ctxDestKind (n : Nat) : Nat := 0x30000B + 256 * n
def ctxDestNum (n : Nat) : Nat := 0x30000C + 256 * n
def ctxMeasProg (n : Nat) : Nat := 0x30000D + 256 * n
def ctxMeasEntry (n : Nat) : Nat := 0x30000E + 256 * n
def ctxMeasParams (n : Nat) : Nat := 0x30000F + 256 * n
def ctxMeasBudget (n : Nat) : Nat := 0x300010 + 256 * n
def ctxArm (n : Nat) : Nat := 0x300011 + 256 * n
def ctxAbort (n : Nat) : Nat := 0x300012 + 256 * n
def ctxState (n : Nat) : Nat := 0x300013 + 256 * n
def ctxGen (n : Nat) : Nat := 0x300014 + 256 * n
def ctxRecords (n : Nat) : Nat := 0x300015 + 256 * n
def ctxCompleted (n : Nat) : Nat := 0x300016 + 256 * n
def ctxRetriggers (n : Nat) : Nat := 0x300017 + 256 * n
def ctxIgnored (n : Nat) : Nat := 0x300018 + 256 * n
def ctxAborts (n : Nat) : Nat := 0x300019 + 256 * n
def ctxLast (n : Nat) : Nat := 0x30001A + 256 * n
def acqStageBase : Nat := 0x19F001
def acqStageSize : Nat := 0x19F002
def acqStageUsed : Nat := 0x19F003
def acqDoneBase : Nat := 0x19F004
def acqDoneSize : Nat := 0x19F005
def acqDoneWptr : Nat := 0x19F006
def acqOpen : Nat := 0x19F007
def acqMissing : Nat := 0x19F008
def trImage (n : Nat) : Nat := 0x350001 + 256 * n
def trLoaded (n : Nat) : Nat := 0x350002 + 256 * n
def trDigest (n : Nat) : Nat := 0x350003 + 256 * n
def trClear (n : Nat) : Nat := 0x350004 + 256 * n
def trRecords (n : Nat) : Nat := 0x350005 + 256 * n
def trFaults (n : Nat) : Nat := 0x350006 + 256 * n
def trBudgets (n : Nat) : Nat := 0x350007 + 256 * n
def trFaultCause (n : Nat) : Nat := 0x350008 + 256 * n
def trFaultPc (n : Nat) : Nat := 0x350009 + 256 * n
def trCoreState (n : Nat) : Nat := 0x101E01 + n
def trCoreInstr (n : Nat) : Nat := 0x101F01 + n
def trQueue : Nat := 0x102001
def trLibVersion : Nat := 0x102002
def memGrain : Nat := 0x190001
def memFixedSize : Nat := 0x190002
def memSize : Nat := 0x190003
def memLanes : Nat := 0x190004
def memService : Nat := 0x190005
def memSpeed : Nat := 0x190006
def memSpeedReq : Nat := 0x190007
def memAgeLimit1 : Nat := 0x190008
def memAgeLimit2 : Nat := 0x190009
def memAgeLimit3 : Nat := 0x19000A
def memSrIdle : Nat := 0x19000B
def memRtLoad : Nat := 0x19000C
def memRtLimit : Nat := 0x19000D
def memRingAvail : Nat := 0x19000E
def memFreezes : Nat := 0x19000F
def memLostWrites : Nat := 0x190010
def memLostReads : Nat := 0x190011
def memRedirected : Nat := 0x190012
def memchState (n : Nat) : Nat := 0x198001 + 256 * n
def memchLane (n : Nat) : Nat := 0x198002 + 256 * n
def memchDimms (n : Nat) : Nat := 0x198003 + 256 * n
def memchRanks (n : Nat) : Nat := 0x198004 + 256 * n
def memchCeCount (n : Nat) : Nat := 0x198005 + 256 * n
def memchCrcRetries (n : Nat) : Nat := 0x198006 + 256 * n
def memchDiag (n : Nat) : Nat := 0x198007 + 256 * n
def memchRetrain (n : Nat) : Nat := 0x198008 + 256 * n
def memchTrainResult (n : Nat) : Nat := 0x198009 + 256 * n
def memchTrainTime (n : Nat) : Nat := 0x19800A + 256 * n
def memchPanicCount (n : Nat) : Nat := 0x19800B + 256 * n
def memchPromoted (n : Nat) : Nat := 0x19800C + 256 * n
def memchInorder (n : Nat) : Nat := 0x19800D + 256 * n
def memchSrEntries (n : Nat) : Nat := 0x19800E + 256 * n
def memchTemp (n : Nat) : Nat := 0x19800F + 256 * n
def ringSlabs : Nat := 0x191001
def ringSlabsNow : Nat := 0x191002
def ringResizeState : Nat := 0x191003
def ringSelectRaw : Nat := 0x191004
def ringSelectFe : Nat := 0x191005
def ringFlush : Nat := 0x191006
def ringRate : Nat := 0x191007
def ringHorizon : Nat := 0x191008
def ringWraps : Nat := 0x191009
def ringBlocksLost : Nat := 0x19100A
def ringUsable : Nat := 0x19100B
def ringHeld : Nat := 0x191101
def recBifurcation : Nat := 0x1A0001
def recSegBytes : Nat := 0x1A0002
def recWritten : Nat := 0x1A0003
def recSegments : Nat := 0x1A0004
def recDropped : Nat := 0x1A0005
def recSignQueue : Nat := 0x1A0006
def recDriveState (n : Nat) : Nat := 0x1A0801 + 256 * n
def recDriveWidth (n : Nat) : Nat := 0x1A0802 + 256 * n
def recDriveModel (n : Nat) : Nat := 0x1A0803 + 256 * n
def recDriveErrors (n : Nat) : Nat := 0x1A0804 + 256 * n
def recDriveRestart (n : Nat) : Nat := 0x1A0805 + 256 * n
def recNsEnable (n : Nat) : Nat := 0x1A1001 + 256 * n
def recNsDrive (n : Nat) : Nat := 0x1A1002 + 256 * n
def recNsNsid (n : Nat) : Nat := 0x1A1003 + 256 * n
def recNsFirst (n : Nat) : Nat := 0x1A1004 + 256 * n
def recNsLbas (n : Nat) : Nat := 0x1A1005 + 256 * n
def recNsMode (n : Nat) : Nat := 0x1A1006 + 256 * n
def recNsFormat (n : Nat) : Nat := 0x1A1007 + 256 * n
def recNsClose (n : Nat) : Nat := 0x1A1008 + 256 * n
def recNsState (n : Nat) : Nat := 0x1A1009 + 256 * n
def recNsAppend (n : Nat) : Nat := 0x1A100A + 256 * n
def recNsLap (n : Nat) : Nat := 0x1A100B + 256 * n
def recNsRead (n : Nat) : Nat := 0x1A100C + 256 * n
def recNsReadState (n : Nat) : Nat := 0x1A100D + 256 * n
def mvEnable (n : Nat) : Nat := 0x1B0001 + 256 * n
def mvDescBase (n : Nat) : Nat := 0x1B0002 + 256 * n
def mvDescHost (n : Nat) : Nat := 0x1B0003 + 256 * n
def mvDescCount (n : Nat) : Nat := 0x1B0004 + 256 * n
def mvRetry (n : Nat) : Nat := 0x1B0005 + 256 * n
def mvStartSource (n : Nat) : Nat := 0x1B0006 + 256 * n
def mvEvtTargets (n : Nat) : Nat := 0x1B0007 + 256 * n
def mvStartOverruns (n : Nat) : Nat := 0x1B0008 + 256 * n
def mvBytes (n : Nat) : Nat := 0x1B0009 + 256 * n
def mvRetries (n : Nat) : Nat := 0x1B000A + 256 * n
def mvHalts (n : Nat) : Nat := 0x1B000B + 256 * n
def hrEnable (n : Nat) : Nat := 0x1B4001 + 256 * n
def hrBase (n : Nat) : Nat := 0x1B4002 + 256 * n
def hrSize (n : Nat) : Nat := 0x1B4003 + 256 * n
def hrSource (n : Nat) : Nat := 0x1B4004 + 256 * n
def hrView (n : Nat) : Nat := 0x1B4005 + 256 * n
def hrPort (n : Nat) : Nat := 0x1B4006 + 256 * n
def hrMode (n : Nat) : Nat := 0x1B4007 + 256 * n
def hrVector (n : Nat) : Nat := 0x1B4008 + 256 * n
def hrEntries (n : Nat) : Nat := 0x1B4009 + 256 * n
def hrPublishErrors (n : Nat) : Nat := 0x1B400A + 256 * n
def idVendor : Nat := 0x100001
def idPart : Nat := 0x100002
def idRevision : Nat := 0x100003
def idDictVersion : Nat := 0x100004
def boardId : Nat := 0x100005
def boardLock : Nat := 0x100006
def ppIdle : Nat := 0x172001
def ppSessions : Nat := 0x172002
def ppAcks : Nat := 0x172003
def ppStale : Nat := 0x172004
def ppAuthFail : Nat := 0x172005
def ppBusy : Nat := 0x172006
def ppDropped : Nat := 0x172007
def ppKeysLock : Nat := 0x172008
def ppKey (n : Nat) : Nat := 0x172101 + 256 * n
def ppRole (n : Nat) : Nat := 0x172102 + 256 * n
def ppSessState (n : Nat) : Nat := 0x173001 + 256 * n
def ppSessSlot (n : Nat) : Nat := 0x173002 + 256 * n
def ppSessEpoch (n : Nat) : Nat := 0x173003 + 256 * n
def ppSessTid (n : Nat) : Nat := 0x173004 + 256 * n
def ppSessClose (n : Nat) : Nat := 0x173005 + 256 * n
def netMode (n : Nat) : Nat := 0x170801 + n
def netFec25 (n : Nat) : Nat := 0x170803 + n
def netAn (n : Nat) : Nat := 0x170805 + n
def netEq : Nat := 0x170807
def netMac (n : Nat) : Nat := 0x170001 + 256 * n
def netIpv4 (n : Nat) : Nat := 0x170002 + 256 * n
def netIpv6 (n : Nat) : Nat := 0x170003 + 256 * n
def netVlan (n : Nat) : Nat := 0x170004 + 256 * n
def netMtu (n : Nat) : Nat := 0x170005 + 256 * n
def netState (n : Nat) : Nat := 0x170006 + 256 * n
def netRxDropped (n : Nat) : Nat := 0x170007 + 256 * n
def netTxDropped (n : Nat) : Nat := 0x170008 + 256 * n
def ptpDomain : Nat := 0x170A01
def ptpTransport : Nat := 0x170A02
def ptpLane : Nat := 0x170A03
def ptpAsym : Nat := 0x170A04
def ptpMaster : Nat := 0x170A05
def ptpOffset : Nat := 0x170A06
def ptpPath : Nat := 0x170A07
def vrtCtxInterval : Nat := 0x170C01
def spanNode : Nat := 0x160001
def spanX : Nat := 0x160002
def spanY : Nat := 0x160003
def spanCount : Nat := 0x160004
def spanState : Nat := 0x160005
def spanAnchor : Nat := 0x160006
def spanLost : Nat := 0x160007
def spanSyncRelay : Nat := 0x160008
def spanSyncAccept : Nat := 0x160009
def spanSyncLate : Nat := 0x16000A
def trussRate : Nat := 0x16000B
def trussSleepIdle : Nat := 0x16000C
def trussStandby : Nat := 0x16000D
def spanFwdPending : Nat := 0x16000E
def trussEq : Nat := 0x160101
def trussState (n : Nat) : Nat := 0x160801 + 256 * n
def trussNeighbour (n : Nat) : Nat := 0x160802 + 256 * n
def trussLanes (n : Nat) : Nat := 0x160803 + 256 * n
def trussMap (n : Nat) : Nat := 0x160804 + 256 * n
def trussLaneState (n : Nat) : Nat := 0x160805 + 256 * n
def trussFrameCrc (n : Nat) : Nat := 0x160806 + 256 * n
def trussReplays (n : Nat) : Nat := 0x160807 + 256 * n
def trussFailovers (n : Nat) : Nat := 0x160808 + 256 * n
def trussRestart (n : Nat) : Nat := 0x160809 + 256 * n
def mergeEnable (n : Nat) : Nat := 0x164001 + 256 * n
def mergeKind (n : Nat) : Nat := 0x164002 + 256 * n
def mergeProduct (n : Nat) : Nat := 0x164003 + 256 * n
def mergeRoot (n : Nat) : Nat := 0x164004 + 256 * n
def mergeMembers (n : Nat) : Nat := 0x164005 + 256 * n
def mergeRingBase (n : Nat) : Nat := 0x164006 + 256 * n
def mergeRingSize (n : Nat) : Nat := 0x164007 + 256 * n
def mergeRingWptr (n : Nat) : Nat := 0x164008 + 256 * n
def mergeRecords (n : Nat) : Nat := 0x164009 + 256 * n
def mergeIncomplete (n : Nat) : Nat := 0x16400A + 256 * n
def mergeMismatch (n : Nat) : Nat := 0x16400B + 256 * n
def dispEnable (n : Nat) : Nat := 0x180001 + 256 * n
def dispLinkRate (n : Nat) : Nat := 0x180002 + 256 * n
def dispLinkLanes (n : Nat) : Nat := 0x180003 + 256 * n
def dispBpc (n : Nat) : Nat := 0x180004 + 256 * n
def dispPclk (n : Nat) : Nat := 0x180005 + 256 * n
def dispHActive (n : Nat) : Nat := 0x180006 + 256 * n
def dispHFront (n : Nat) : Nat := 0x180007 + 256 * n
def dispHSync (n : Nat) : Nat := 0x180008 + 256 * n
def dispHBack (n : Nat) : Nat := 0x180009 + 256 * n
def dispVActive (n : Nat) : Nat := 0x18000A + 256 * n
def dispVFront (n : Nat) : Nat := 0x18000B + 256 * n
def dispVSync (n : Nat) : Nat := 0x18000C + 256 * n
def dispVBack (n : Nat) : Nat := 0x18000D + 256 * n
def dispSyncPol (n : Nat) : Nat := 0x18000E + 256 * n
def dispBackground (n : Nat) : Nat := 0x18000F + 256 * n
def dispFlip (n : Nat) : Nat := 0x180010 + 256 * n
def dispState (n : Nat) : Nat := 0x180011 + 256 * n
def dispFrame (n : Nat) : Nat := 0x180012 + 256 * n
def dispFence (n : Nat) : Nat := 0x180013 + 256 * n
def dispFlipFrame (n : Nat) : Nat := 0x180014 + 256 * n
def dispFlipTime (n : Nat) : Nat := 0x180015 + 256 * n
def dispFlips (n : Nat) : Nat := 0x180016 + 256 * n
def dispFlipMerged (n : Nat) : Nat := 0x180017 + 256 * n
def dispAborted (n : Nat) : Nat := 0x180018 + 256 * n
def dispBlocked (n : Nat) : Nat := 0x180019 + 256 * n
def dispLost (n : Nat) : Nat := 0x18001A + 256 * n
def dispEdid (n : Nat) : Nat := 0x18001B + 256 * n
def layEnable (n : Nat) : Nat := 0x180801 + 256 * n
def layBase0 (n : Nat) : Nat := 0x180802 + 256 * n
def layBase1 (n : Nat) : Nat := 0x180803 + 256 * n
def layDbuf (n : Nat) : Nat := 0x180804 + 256 * n
def layPitch (n : Nat) : Nat := 0x180805 + 256 * n
def laySrcW (n : Nat) : Nat := 0x180806 + 256 * n
def laySrcH (n : Nat) : Nat := 0x180807 + 256 * n
def layDstX (n : Nat) : Nat := 0x180808 + 256 * n
def layDstY (n : Nat) : Nat := 0x180809 + 256 * n
def layDstW (n : Nat) : Nat := 0x18080A + 256 * n
def layDstH (n : Nat) : Nat := 0x18080B + 256 * n
def layOffset (n : Nat) : Nat := 0x18080C + 256 * n
def layGain (n : Nat) : Nat := 0x18080D + 256 * n
def layFollow (n : Nat) : Nat := 0x18080E + 256 * n
def layStart (n : Nat) : Nat := 0x18080F + 256 * n
def laySelect (n : Nat) : Nat := 0x180810 + 256 * n
def tolBudget : Nat := 0x120001
def tolVop : Nat := 0x120002
def tolVset : Nat := 0x120003
def tolVdd : Nat := 0x120004
def tolIdd : Nat := 0x120005
def tolEff : Nat := 0x120006
def tolLeak : Nat := 0x120007
def tolTokens : Nat := 0x120008
def tolBoost : Nat := 0x120009
def tolBoosts : Nat := 0x12000A
def tolThermLimit : Nat := 0x12000B
def tolTempMax : Nat := 0x12000C
def tolDerate : Nat := 0x12000D
def tolAvsState : Nat := 0x12000E
def tolAvsErrors : Nat := 0x12000F
def tolTemp (n : Nat) : Nat := 0x120101 + n
def calFull : Nat := 0x130001
def calState : Nat := 0x130002
def calFails : Nat := 0x130003
def calStale : Nat := 0x130004
def calPeriod (n : Nat) : Nat := 0x131001 + 256 * n
def calRun (n : Nat) : Nat := 0x131002 + 256 * n
def calLast (n : Nat) : Nat := 0x131003 + 256 * n
def calUnitFails (n : Nat) : Nat := 0x131004 + 256 * n
def calStaleItems (n : Nat) : Nat := 0x131005 + 256 * n
def calItem (n : Nat) : Nat := 0x131006 + 256 * n
def monSource : Nat := 0x134001
def monSeq : Nat := 0x134002
def monTimerStart : Nat := 0x134003
def monTimerPeriod : Nat := 0x134004
def monSw : Nat := 0x134005
def monSwPhase : Nat := 0x134006
def monDelay : Nat := 0x134007
def monState : Nat := 0x134008
def monConversions : Nat := 0x134009
def monOverruns : Nat := 0x13400A
def monValue (n : Nat) : Nat := 0x135001 + 256 * n
def monTime (n : Nat) : Nat := 0x135002 + 256 * n
def cmpEnable (n : Nat) : Nat := 0x136001 + 256 * n
def cmpInput (n : Nat) : Nat := 0x136002 + 256 * n
def cmpLow (n : Nat) : Nat := 0x136003 + 256 * n
def cmpHigh (n : Nat) : Nat := 0x136004 + 256 * n
def cmpState (n : Nat) : Nat := 0x136005 + 256 * n
def cmpEvents (n : Nat) : Nat := 0x136006 + 256 * n
def secRootHash : Nat := 0x110001
def secSvn : Nat := 0x110002
def secSvnLeft : Nat := 0x110003
def secDevKey : Nat := 0x110004
def secDevKeyid : Nat := 0x110005
def secDevCert : Nat := 0x110006
def secCaCert : Nat := 0x110007
def secOwnerKey : Nat := 0x110008
def secOwnerHash : Nat := 0x110009
def secCfgDigest : Nat := 0x11000A
def secMaskSig : Nat := 0x11000B
def fwActive : Nat := 0x111001
def fwVersion : Nat := 0x111002
def fwSvn : Nat := 0x111003
def fwStage1Version : Nat := 0x111004
def fwBootStatus : Nat := 0x111005
def fwLoad : Nat := 0x111006
def fwLoadState : Nat := 0x111007
def fwLoadResult : Nat := 0x111008
def fwSwap : Nat := 0x111009
def fwSwapState : Nat := 0x11100A
def fwSwapResult : Nat := 0x11100B
def fwHandover : Nat := 0x11100C
def fwConfirm : Nat := 0x11100D
def attNonce : Nat := 0x112001
def attState : Nat := 0x112002
def attReport : Nat := 0x112003
def scrubPeriod : Nat := 0x113001
def scrubPasses : Nat := 0x113002
def svcSramCe : Nat := 0x113003
def svcSramUe : Nat := 0x113004
def svcOvertemp : Nat := 0x113005
def suStage : Nat := 0x100201
def suStageTime : Nat := 0x100202
def suBoard : Nat := 0x100203
def suBoardError : Nat := 0x100204
def suElapsed : Nat := 0x100205
def vrtEnable (n : Nat) : Nat := 0x171001 + 16 * n
def vrtSource (n : Nat) : Nat := 0x171002 + 16 * n
def vrtView (n : Nat) : Nat := 0x171003 + 16 * n
def vrtPort (n : Nat) : Nat := 0x171004 + 16 * n
def vrtInterface (n : Nat) : Nat := 0x171005 + 16 * n
def vrtDstMac (n : Nat) : Nat := 0x171006 + 16 * n
def vrtDstIp (n : Nat) : Nat := 0x171007 + 16 * n
def vrtDstUdp (n : Nat) : Nat := 0x171008 + 16 * n
def vrtSrcUdp (n : Nat) : Nat := 0x171009 + 16 * n
def vrtPayload (n : Nat) : Nat := 0x17100A + 16 * n
def vrtRate (n : Nat) : Nat := 0x17100B + 16 * n
def vrtCtx (n : Nat) : Nat := 0x17100C + 16 * n
def vrtRefLevel (n : Nat) : Nat := 0x17100D + 16 * n
def vrtPackets (n : Nat) : Nat := 0x17100E + 16 * n
def vrtDropped (n : Nat) : Nat := 0x17100F + 16 * n
def mvCounter (n : Nat) : Nat := 0x1B3001 + n
def dispLut (n : Nat) : Nat := 0x181001 + 256 * n

end Sys2Proof.Machine.Key
end

