-- ==== Sys2Proof/Machine/Dict.lean ====
section
/-! DEFINITION. The object dictionary: types, rights, defaults and fixed ranges of every object (13 R350 to R355,
Tables 13-1, 13-2, 13-5), one row per row of the chapters' object tables. Values are natural numbers: two's complement
for signed types, the little-endian number of the byte image for STR, BLOB and RECORD. -/

namespace Sys2Proof.Machine

/-- Object types (13 Table 13-1); cmd is type 0x00. -/
inductive ObjTy where
  | cmd | bool | u8 | u16 | u32 | u64 | i16 | i32 | i64 | f32 | time80 | str | blob | record
  deriving DecidableEq, Repr

/-- Access rights (13 Table 13-2). -/
inductive Access where
  | ro | rw | wo | rwl | wo1 | cmd
  deriving DecidableEq, Repr

/-- A default: a number, or a value that needs a computation (notes/assumptions/6.md, 7.md). -/
inductive Dflt where
  | num (n : Nat)
  | fused
  | maskNoLimits
  | calPeriod
  | macBase
  deriving DecidableEq, Repr

/-- A fixed range of values (01 R34 step 5): stated by constants alone. -/
inductive Range where
  | any
  | span (lo hi : Int)
  | spanPlus (lo hi extra : Int)
  | members (vs : List Int)
  | pow2 (lo hi : Nat)
  | step (lo hi by' : Nat)
  | spans (l : List (Int × Int))
  deriving DecidableEq, Repr

/-- One row of an object table: first index, number of indexes, first subindex, number of subindexes, step of the
subindex, type, length in bytes (the maximum for STR and tr.image), access, default, fixed range. -/
structure ObjRow where
  ix : Nat
  ixs : Nat
  sub : Nat
  subs : Nat
  stride : Nat
  ty : ObjTy
  len : Nat
  acc : Access
  dflt : Dflt
  rng : Range
  deriving DecidableEq, Repr

def rowsIdentity : List ObjRow := [
  ⟨0x1010, 1, 0x1, 1, 1, .u64, 8, .ro, .num 0, .any⟩,  -- status.gap.count (01 T1-5)
  ⟨0x1010, 1, 0x2, 1, 1, .record, 32, .ro, .num 0, .any⟩,  -- status.gap.last (01 T1-5)
  ⟨0x1012, 1, 0x1, 16, 1, .u32, 4, .ro, .num 0, .any⟩,  -- abutment.lag (01 T1-5)
  ⟨0x1012, 1, 0x11, 16, 1, .u32, 4, .ro, .num 0, .any⟩,  -- abutment.peak (01 T1-5)
  ⟨0x1012, 1, 0x21, 1, 1, .cmd, 0, .cmd, .num 0, .any⟩,  -- abutment.clear (01 T1-5)
  ⟨0x1014, 1, 0x1, 1, 1, .u32, 4, .ro, .num 0, .any⟩,  -- status.promise (01 T1-5)
  ⟨0x1018, 1, 0x1, 68, 1, .u8, 1, .ro, .num 0, .any⟩,  -- girder.state (05 T5-7)
  ⟨0x1019, 1, 0x1, 68, 1, .u32, 4, .ro, .num 0, .any⟩,  -- girder.faults (05 T5-7)
  ⟨0x101A, 1, 0x1, 1, 1, .u8, 1, .ro, .num 0x40, .any⟩,  -- deck.girders.service (05 T5-7)
  ⟨0x101A, 1, 0x2, 1, 1, .u8, 1, .ro, .num 0x4, .any⟩,  -- deck.spares.free (05 T5-7)
  ⟨0x101A, 1, 0x3, 1, 1, .u32, 4, .ro, .num 0, .any⟩,  -- deck.load (05 T5-7)
  ⟨0x101A, 1, 0x4, 1, 1, .u32, 4, .ro, .num 0x395F800, .any⟩,  -- deck.limit (05 T5-7)
  ⟨0x101A, 1, 0x5, 1, 1, .u32, 4, .ro, .num 0, .any⟩,  -- deck.sram.used (05 T5-7)
  ⟨0x101B, 1, 0x1, 68, 1, .cmd, 0, .cmd, .num 0, .any⟩,  -- girder.retire (05 T5-7)
  ⟨0x101C, 1, 0x1, 1, 1, .u32, 4, .ro, .num 0, .any⟩,  -- prod.dens.sram (06 T6-10)
  ⟨0x101C, 1, 0x2, 1, 1, .u32, 4, .ro, .num 0, .any⟩,  -- prod.dens.load (06 T6-10)
  ⟨0x101C, 1, 0x3, 1, 1, .u32, 4, .ro, .num 0, .any⟩,  -- prod.acc.sram (06 T6-10)
  ⟨0x101C, 1, 0x4, 1, 1, .u32, 4, .ro, .num 0, .any⟩,  -- prod.acc.load (06 T6-10)
  ⟨0x101D, 1, 0x1, 1, 1, .u64, 8, .ro, .num 0, .any⟩,  -- trig.events (07 T7-11)
  ⟨0x101D, 1, 0x2, 1, 1, .u64, 8, .ro, .num 0, .any⟩,  -- trig.late (07 T7-11)
  ⟨0x101D, 1, 0x3, 1, 1, .u8, 1, .ro, .num 0, .any⟩,  -- trig.stale (07 T7-11)
  ⟨0x101E, 1, 0x1, 32, 1, .u8, 1, .ro, .num 0, .any⟩,  -- tr.core.state (09 T9-15)
  ⟨0x101F, 1, 0x1, 32, 1, .u64, 8, .ro, .num 0, .any⟩,  -- tr.core.instr (09 T9-15)
  ⟨0x1020, 1, 0x1, 1, 1, .u32, 4, .ro, .num 0, .any⟩,  -- tr.queue (09 T9-15)
  ⟨0x1020, 1, 0x2, 1, 1, .u32, 4, .ro, .num 0x10000, .any⟩,  -- tr.lib.version (09 T9-15)
  ⟨0x1000, 1, 0x1, 1, 1, .str, 64, .ro, .num 0x656C6C656F736C4F, .any⟩,  -- id.vendor (13 T13-6)
  ⟨0x1000, 1, 0x2, 1, 1, .str, 64, .ro, .num 0x3538462D343230312D33564D, .any⟩,  -- id.part (13 T13-6)
  ⟨0x1000, 1, 0x3, 1, 1, .u8, 1, .ro, .num 0x1, .any⟩,  -- id.revision (13 T13-6)
  ⟨0x1000, 1, 0x4, 1, 1, .u32, 4, .ro, .num 0x10000, .any⟩,  -- id.dict.version (13 T13-6)
  ⟨0x1000, 1, 0x5, 1, 1, .str, 64, .rwl, .num 0, .any⟩,  -- board.id (13 T13-6)
  ⟨0x1000, 1, 0x6, 1, 1, .cmd, 0, .cmd, .num 0, .any⟩,  -- board.lock (13 T13-6)
  ⟨0x1002, 1, 0x1, 1, 1, .u8, 1, .ro, .num 0, .any⟩,  -- su.stage (19 T19-6)
  ⟨0x1002, 1, 0x2, 1, 1, .time80, 10, .ro, .num 0, .any⟩,  -- su.stage.time (19 T19-6)
  ⟨0x1002, 1, 0x3, 1, 1, .u8, 1, .ro, .num 0, .any⟩,  -- su.board (19 T19-6)
  ⟨0x1002, 1, 0x4, 1, 1, .u32, 4, .ro, .num 0, .any⟩,  -- su.board.error (19 T19-6)
  ⟨0x1002, 1, 0x5, 1, 1, .u32, 4, .ro, .num 0, .any⟩  -- su.elapsed (19 T19-6)
  ]

def rowsSecurity : List ObjRow := [
  ⟨0x1100, 1, 0x1, 1, 1, .blob, 48, .ro, .fused, .any⟩,  -- sec.root.hash (18 T18-6)
  ⟨0x1100, 1, 0x2, 1, 1, .u8, 1, .ro, .fused, .any⟩,  -- sec.svn (18 T18-6)
  ⟨0x1100, 1, 0x3, 1, 1, .u8, 1, .ro, .fused, .any⟩,  -- sec.svn.left (18 T18-6)
  ⟨0x1100, 1, 0x4, 1, 1, .blob, 97, .ro, .fused, .any⟩,  -- sec.dev.key (18 T18-6)
  ⟨0x1100, 1, 0x5, 1, 1, .blob, 48, .ro, .fused, .any⟩,  -- sec.dev.keyid (18 T18-6)
  ⟨0x1100, 1, 0x6, 1, 1, .blob, 1024, .ro, .fused, .any⟩,  -- sec.dev.cert (18 T18-6)
  ⟨0x1100, 1, 0x7, 1, 1, .blob, 1024, .ro, .fused, .any⟩,  -- sec.ca.cert (18 T18-6)
  ⟨0x1100, 1, 0x8, 1, 1, .blob, 97, .wo1, .num 0, .any⟩,  -- sec.owner.key (18 T18-6)
  ⟨0x1100, 1, 0x9, 1, 1, .blob, 48, .ro, .num 0, .any⟩,  -- sec.owner.hash (18 T18-6)
  ⟨0x1100, 1, 0xA, 1, 1, .blob, 48, .ro, .num 0, .any⟩,  -- sec.cfg.digest (18 T18-6)
  ⟨0x1100, 1, 0xB, 1, 1, .blob, 24576, .rw, .num 0, .any⟩,  -- sec.mask.sig (18 T18-6)
  ⟨0x1110, 1, 0x1, 1, 1, .u8, 1, .ro, .num 0, .any⟩,  -- fw.active (18 T18-6)
  ⟨0x1110, 1, 0x2, 1, 1, .u32, 4, .ro, .num 0, .any⟩,  -- fw.version (18 T18-6)
  ⟨0x1110, 1, 0x3, 1, 1, .u8, 1, .ro, .num 0, .any⟩,  -- fw.svn (18 T18-6)
  ⟨0x1110, 1, 0x4, 1, 1, .u32, 4, .ro, .num 0, .any⟩,  -- fw.stage1.version (18 T18-6)
  ⟨0x1110, 1, 0x5, 1, 1, .u8, 1, .ro, .num 0, .any⟩,  -- fw.boot.status (18 T18-6)
  ⟨0x1110, 1, 0x6, 1, 1, .blob, 16, .wo, .num 0, .any⟩,  -- fw.load (18 T18-6)
  ⟨0x1110, 1, 0x7, 1, 1, .u8, 1, .ro, .num 0, .any⟩,  -- fw.load.state (18 T18-6)
  ⟨0x1110, 1, 0x8, 1, 1, .u8, 1, .ro, .num 0, .any⟩,  -- fw.load.result (18 T18-6)
  ⟨0x1110, 1, 0x9, 1, 1, .cmd, 0, .cmd, .num 0, .any⟩,  -- fw.swap (18 T18-6)
  ⟨0x1110, 1, 0xA, 1, 1, .u8, 1, .ro, .num 0, .any⟩,  -- fw.swap.state (18 T18-6)
  ⟨0x1110, 1, 0xB, 1, 1, .u8, 1, .ro, .num 0, .any⟩,  -- fw.swap.result (18 T18-6)
  ⟨0x1110, 1, 0xC, 1, 1, .u32, 4, .ro, .num 0, .any⟩,  -- fw.handover (18 T18-6)
  ⟨0x1110, 1, 0xD, 1, 1, .cmd, 0, .cmd, .num 0, .any⟩,  -- fw.confirm (18 T18-6)
  ⟨0x1120, 1, 0x1, 1, 1, .blob, 32, .wo, .num 0, .any⟩,  -- att.nonce (18 T18-6)
  ⟨0x1120, 1, 0x2, 1, 1, .u8, 1, .ro, .num 0, .any⟩,  -- att.state (18 T18-6)
  ⟨0x1120, 1, 0x3, 1, 1, .record, 496, .ro, .num 0, .any⟩,  -- att.report (18 T18-6)
  ⟨0x1130, 1, 0x1, 1, 1, .u32, 4, .rw, .num 0x15180, .span 3600 604800⟩,  -- scrub.period (18 T18-6)
  ⟨0x1130, 1, 0x2, 1, 1, .u64, 8, .ro, .num 0, .any⟩,  -- scrub.passes (18 T18-6)
  ⟨0x1130, 1, 0x3, 1, 1, .u64, 8, .ro, .num 0, .any⟩,  -- svc.sram.ce (18 T18-6)
  ⟨0x1130, 1, 0x4, 1, 1, .u64, 8, .ro, .num 0, .any⟩,  -- svc.sram.ue (18 T18-6)
  ⟨0x1130, 1, 0x5, 1, 1, .u64, 8, .ro, .num 0, .any⟩  -- svc.overtemp (18 T18-6)
  ]

def rowsTollhouse : List ObjRow := [
  ⟨0x1200, 1, 0x1, 1, 1, .u16, 2, .rw, .num 0xDC, .span 120 260⟩,  -- tol.budget (17 T17-5)
  ⟨0x1200, 1, 0x2, 1, 1, .u16, 2, .ro, .num 0, .any⟩,  -- tol.vop (17 T17-5)
  ⟨0x1200, 1, 0x3, 1, 1, .u16, 2, .ro, .num 0, .any⟩,  -- tol.vset (17 T17-5)
  ⟨0x1200, 1, 0x4, 1, 1, .u16, 2, .ro, .num 0, .any⟩,  -- tol.vdd (17 T17-5)
  ⟨0x1200, 1, 0x5, 1, 1, .u32, 4, .ro, .num 0, .any⟩,  -- tol.idd (17 T17-5)
  ⟨0x1200, 1, 0x6, 1, 1, .u16, 2, .ro, .num 0, .any⟩,  -- tol.eff (17 T17-5)
  ⟨0x1200, 1, 0x7, 1, 1, .u16, 2, .ro, .num 0, .any⟩,  -- tol.leak (17 T17-5)
  ⟨0x1200, 1, 0x8, 1, 1, .u32, 4, .ro, .num 0, .any⟩,  -- tol.tokens (17 T17-5)
  ⟨0x1200, 1, 0x9, 1, 1, .u8, 1, .ro, .num 0, .any⟩,  -- tol.boost (17 T17-5)
  ⟨0x1200, 1, 0xA, 1, 1, .u64, 8, .ro, .num 0, .any⟩,  -- tol.boosts (17 T17-5)
  ⟨0x1200, 1, 0xB, 1, 1, .u8, 1, .rw, .num 0x69, .span 85 110⟩,  -- tol.therm.limit (17 T17-5)
  ⟨0x1200, 1, 0xC, 1, 1, .i16, 2, .ro, .num 0, .any⟩,  -- tol.temp.max (17 T17-5)
  ⟨0x1200, 1, 0xD, 1, 1, .u8, 1, .ro, .num 0, .any⟩,  -- tol.derate (17 T17-5)
  ⟨0x1200, 1, 0xE, 1, 1, .u8, 1, .ro, .num 0, .any⟩,  -- tol.avs.state (17 T17-5)
  ⟨0x1200, 1, 0xF, 1, 1, .u32, 4, .ro, .num 0, .any⟩,  -- tol.avs.errors (17 T17-5)
  ⟨0x1201, 1, 0x1, 24, 1, .i16, 2, .ro, .num 0, .any⟩  -- tol.temp (17 T17-5)
  ]

def rowsCalMon : List ObjRow := [
  ⟨0x1300, 1, 0x1, 1, 1, .cmd, 0, .cmd, .num 0, .any⟩,  -- cal.full (17 T17-6)
  ⟨0x1300, 1, 0x2, 1, 1, .u8, 1, .ro, .num 0, .any⟩,  -- cal.state (17 T17-6)
  ⟨0x1300, 1, 0x3, 1, 1, .u64, 8, .ro, .num 0, .any⟩,  -- cal.fails (17 T17-6)
  ⟨0x1300, 1, 0x4, 1, 1, .u8, 1, .ro, .num 0, .any⟩,  -- cal.stale (17 T17-6)
  ⟨0x1310, 6, 0x1, 1, 1, .u64, 8, .rw, .calPeriod, .span 400000000 17592186044416⟩,  -- cal.period (17 T17-6)
  ⟨0x1310, 6, 0x2, 1, 1, .cmd, 0, .cmd, .num 0, .any⟩,  -- cal.run (17 T17-6)
  ⟨0x1310, 6, 0x3, 1, 1, .time80, 10, .ro, .num 0, .any⟩,  -- cal.last (17 T17-6)
  ⟨0x1310, 6, 0x4, 1, 1, .u32, 4, .ro, .num 0, .any⟩,  -- cal.unit.fails (17 T17-6)
  ⟨0x1310, 6, 0x5, 1, 1, .u32, 4, .ro, .num 0, .any⟩,  -- cal.stale.items (17 T17-6)
  ⟨0x1310, 6, 0x6, 1, 1, .u16, 2, .ro, .num 0xFFFF, .any⟩,  -- cal.item (17 T17-6)
  ⟨0x1340, 1, 0x1, 1, 1, .u8, 1, .rw, .num 0, .span 0 2⟩,  -- mon.source (17 T17-7)
  ⟨0x1340, 1, 0x2, 1, 1, .blob, 16, .rw, .num 0xFFFFFFFFFFFFFFFFFFFFFFFFFFFFFF00, .any⟩,  -- mon.seq (17 T17-7)
  ⟨0x1340, 1, 0x3, 1, 1, .u64, 8, .rw, .num 0, .any⟩,  -- mon.timer.start (17 T17-7)
  ⟨0x1340, 1, 0x4, 1, 1, .u32, 4, .rw, .num 0x61A80, .span 4 4294967295⟩,  -- mon.timer.period (17 T17-7)
  ⟨0x1340, 1, 0x5, 1, 1, .u8, 1, .rw, .num 0, .span 0 7⟩,  -- mon.sw (17 T17-7)
  ⟨0x1340, 1, 0x6, 1, 1, .u8, 1, .rw, .num 0xFF, .spanPlus 0 3 255⟩,  -- mon.sw.phase (17 T17-7)
  ⟨0x1340, 1, 0x7, 1, 1, .u16, 2, .rw, .num 0, .any⟩,  -- mon.delay (17 T17-7)
  ⟨0x1340, 1, 0x8, 1, 1, .u8, 1, .ro, .num 0, .any⟩,  -- mon.state (17 T17-7)
  ⟨0x1340, 1, 0x9, 1, 1, .u64, 8, .ro, .num 0, .any⟩,  -- mon.conversions (17 T17-7)
  ⟨0x1340, 1, 0xA, 1, 1, .u64, 8, .ro, .num 0, .any⟩,  -- mon.overruns (17 T17-7)
  ⟨0x1350, 16, 0x1, 1, 1, .u32, 4, .ro, .num 0, .any⟩,  -- mon.value (17 T17-7)
  ⟨0x1350, 16, 0x2, 1, 1, .time80, 10, .ro, .num 0, .any⟩,  -- mon.time (17 T17-7)
  ⟨0x1360, 16, 0x1, 1, 1, .bool, 1, .rw, .num 0, .any⟩,  -- cmp.enable (17 T17-7)
  ⟨0x1360, 16, 0x2, 1, 1, .u8, 1, .rw, .num 0, .span 0 15⟩,  -- cmp.input (17 T17-7)
  ⟨0x1360, 16, 0x3, 1, 1, .u16, 2, .rw, .num 0, .span 0 4095⟩,  -- cmp.low (17 T17-7)
  ⟨0x1360, 16, 0x4, 1, 1, .u16, 2, .rw, .num 0xFFF, .span 0 4095⟩,  -- cmp.high (17 T17-7)
  ⟨0x1360, 16, 0x5, 1, 1, .u8, 1, .ro, .num 0, .any⟩,  -- cmp.state (17 T17-7)
  ⟨0x1360, 16, 0x6, 1, 1, .u64, 8, .ro, .num 0, .any⟩  -- cmp.events (17 T17-7)
  ]

def rowsTimebase0 : List ObjRow := [
  ⟨0x1400, 1, 0x1, 1, 1, .time80, 10, .ro, .num 0, .any⟩,  -- ks.now (02 T2-5)
  ⟨0x1400, 1, 0x2, 1, 1, .u8, 1, .ro, .num 0, .any⟩,  -- ks.state (02 T2-5)
  ⟨0x1400, 1, 0x3, 1, 1, .i64, 8, .ro, .num 0, .any⟩,  -- ks.offset (02 T2-5)
  ⟨0x1400, 1, 0x4, 1, 1, .u16, 2, .rw, .num 0x3E8, .span 0 1000⟩,  -- ks.slew.rate (02 T2-5)
  ⟨0x1400, 1, 0x5, 1, 1, .i64, 8, .ro, .num 0, .any⟩,  -- ks.slew.remaining (02 T2-5)
  ⟨0x1400, 1, 0x6, 1, 1, .i64, 8, .rw, .num 0, .span 1 72057594037927936⟩,  -- ks.step (02 T2-5)
  ⟨0x1400, 1, 0x7, 1, 1, .time80, 10, .wo, .num 0, .any⟩,  -- ks.load (02 T2-5)
  ⟨0x1400, 1, 0x8, 1, 1, .u32, 4, .ro, .num 0, .any⟩,  -- ks.holdover.count (02 T2-5)
  ⟨0x1401, 1, 0x1, 1, 1, .u32, 4, .rw, .num 0x1000, .span 16 16777216⟩,  -- sysref.period (02 T2-5)
  ⟨0x1401, 1, 0x2, 1, 1, .u32, 4, .rw, .num 0, .any⟩,  -- sysref.phase (02 T2-5)
  ⟨0x1401, 1, 0x3, 1, 1, .u8, 1, .rw, .num 0, .span 0 2⟩,  -- sysref.mode (02 T2-5)
  ⟨0x1401, 1, 0x4, 1, 1, .time80, 10, .ro, .num 0, .any⟩,  -- sysref.last (02 T2-5)
  ⟨0x1401, 1, 0x5, 1, 1, .i32, 4, .ro, .num 0, .any⟩,  -- sysref.error (02 T2-5)
  ⟨0x1401, 1, 0x6, 1, 1, .u32, 4, .ro, .num 0, .any⟩,  -- sysref.misses (02 T2-5)
  ⟨0x1402, 1, 0x1, 1, 1, .time80, 10, .ro, .num 0, .any⟩,  -- pps.last (02 T2-5)
  ⟨0x1402, 1, 0x2, 1, 1, .u8, 1, .rw, .num 0, .span 0 1⟩,  -- pps.edge (02 T2-5)
  ⟨0x1402, 1, 0x3, 1, 1, .u32, 4, .ro, .num 0, .any⟩,  -- pps.count (02 T2-5)
  ⟨0x1403, 1, 0x1, 1, 1, .u8, 1, .rw, .num 0, .span 0 4⟩,  -- tai.source (02 T2-5)
  ⟨0x1403, 1, 0x2, 1, 1, .u8, 1, .ro, .num 0, .any⟩,  -- tai.state (02 T2-5)
  ⟨0x1403, 1, 0x3, 1, 1, .time80, 10, .ro, .num 0, .any⟩,  -- tai.anchor.k (02 T2-5)
  ⟨0x1403, 1, 0x4, 1, 1, .u64, 8, .ro, .num 0, .any⟩,  -- tai.anchor.sec (02 T2-5)
  ⟨0x1403, 1, 0x5, 1, 1, .u64, 8, .ro, .num 0, .any⟩,  -- tai.anchor.ps (02 T2-5)
  ⟨0x1403, 1, 0x6, 1, 1, .i32, 4, .rw, .num 0, .span (-200000000) (200000000)⟩,  -- tai.rate (02 T2-5)
  ⟨0x1403, 1, 0x7, 1, 1, .u64, 8, .wo, .num 0, .any⟩,  -- tai.seconds (02 T2-5)
  ⟨0x1403, 1, 0x8, 1, 1, .u32, 4, .ro, .num 0, .any⟩,  -- tai.steps (02 T2-5)
  ⟨0x1404, 1, 0x1, 1, 1, .bool, 1, .rw, .num 0, .any⟩,  -- lo.enable (02 T2-5)
  ⟨0x1404, 1, 0x2, 1, 1, .u16, 2, .rw, .num 0x4, .step 2 640 2⟩,  -- lo.divider (02 T2-5)
  ⟨0x1404, 1, 0x3, 1, 1, .u64, 8, .rw, .num 0x1860000000, .span 68719476736 137438953471⟩,  -- lo.word (02 T2-5)
  ⟨0x1404, 1, 0x4, 1, 1, .bool, 1, .rw, .num 0x1, .any⟩,  -- lo.dither (02 T2-5)
  ⟨0x1404, 1, 0x5, 1, 1, .u32, 4, .rw, .num 0x1, .span 1 4294967295⟩,  -- lo.seed (02 T2-5)
  ⟨0x1404, 1, 0x6, 1, 1, .u8, 1, .ro, .num 0, .any⟩,  -- lo.state (02 T2-5)
  ⟨0x1404, 1, 0x7, 1, 1, .time80, 10, .ro, .num 0, .any⟩,  -- lo.mute.start (02 T2-5)
  ⟨0x1404, 1, 0x8, 1, 1, .time80, 10, .ro, .num 0, .any⟩,  -- lo.mute.end (02 T2-5)
  ⟨0x1404, 1, 0x9, 1, 1, .u8, 1, .rw, .num 0, .span 0 2⟩,  -- lo.ramp.mode (02 T2-5)
  ⟨0x1404, 1, 0xA, 1, 1, .u16, 2, .rw, .num 0x1, .span 1 256⟩,  -- lo.ramp.count (02 T2-5)
  ⟨0x1404, 1, 0xB, 1, 1, .u64, 8, .rw, .num 0, .any⟩,  -- lo.ramp.period (02 T2-5)
  ⟨0x1404, 1, 0xC, 1, 1, .u16, 2, .ro, .num 0, .any⟩,  -- lo.ramp.segment (02 T2-5)
  ⟨0x1404, 1, 0xD, 1, 1, .cmd, 0, .cmd, .num 0, .any⟩,  -- lo.relock (02 T2-5)
  ⟨0x1405, 1, 0x1, 1, 1, .blob, 6144, .rw, .num 0, .any⟩,  -- lo.ramp.table (02 T2-5)
  ⟨0x1406, 1, 0x1, 24, 1, .u8, 1, .ro, .num 0, .any⟩  -- lanepll.state (02 T2-5)
  ]

def rowsTimebase1 : List ObjRow := [
  ⟨0x1407, 1, 0x1, 1, 1, .cmd, 0, .cmd, .num 0, .any⟩,  -- sync.now (04 T4-7)
  ⟨0x1407, 1, 0x2, 1, 1, .bool, 1, .rw, .num 0, .any⟩,  -- sync.pin.enable (04 T4-7)
  ⟨0x1407, 1, 0x3, 1, 1, .u32, 4, .rw, .num 0x1000, .span 4000 4294967295⟩,  -- sync.pin.lead (04 T4-7)
  ⟨0x1407, 1, 0x4, 1, 1, .time80, 10, .ro, .num 0, .any⟩,  -- sync.last (04 T4-7)
  ⟨0x1407, 1, 0x5, 1, 1, .u32, 4, .ro, .num 0, .any⟩,  -- sync.count (04 T4-7)
  ⟨0x1407, 1, 0x6, 1, 1, .u32, 4, .ro, .num 0, .any⟩  -- sync.pin.ignored (04 T4-7)
  ]

def rowsTimebase : List ObjRow := rowsTimebase0 ++ rowsTimebase1

def rowsIngest : List ObjRow := [
  ⟨0x1500, 1, 0x1, 16, 1, .u32, 4, .rw, .num 0x1896402, .span 6000000 25781250⟩,  -- pier.rate (03 T3-7)
  ⟨0x1501, 1, 0x1, 16, 1, .u8, 1, .ro, .num 0, .any⟩,  -- pier.state (03 T3-7)
  ⟨0x1501, 1, 0x11, 16, 1, .u32, 4, .ro, .num 0, .any⟩,  -- pier.recoveries (03 T3-7)
  ⟨0x1502, 1, 0x1, 16, 1, .cmd, 0, .cmd, .num 0, .any⟩,  -- pier.restart (03 T3-7)
  ⟨0x1503, 1, 0x1, 1, 1, .blob, 512, .rw, .num 0, .any⟩,  -- lane.eq (03 T3-7)
  ⟨0x1504, 1, 0x1, 128, 1, .u8, 1, .ro, .num 0, .any⟩,  -- lane.state (03 T3-7)
  ⟨0x1505, 1, 0x1, 128, 1, .u32, 4, .ro, .num 0, .any⟩,  -- lane.crc.errors (03 T3-7)
  ⟨0x1506, 1, 0x1, 128, 1, .u32, 4, .ro, .num 0, .any⟩,  -- lane.sh.errors (03 T3-7)
  ⟨0x1580, 128, 0x1, 1, 1, .bool, 1, .rw, .num 0, .any⟩,  -- link.enable (03 T3-8)
  ⟨0x1580, 128, 0x2, 1, 1, .u8, 1, .rw, .num 0x1, .span 1 16⟩,  -- link.l (03 T3-8)
  ⟨0x1580, 128, 0x3, 1, 1, .u8, 1, .rw, .num 0x1, .span 1 64⟩,  -- link.m (03 T3-8)
  ⟨0x1580, 128, 0x4, 1, 1, .u16, 2, .rw, .num 0x1, .span 1 256⟩,  -- link.f (03 T3-8)
  ⟨0x1580, 128, 0x5, 1, 1, .u8, 1, .rw, .num 0x1, .span 1 32⟩,  -- link.s (03 T3-8)
  ⟨0x1580, 128, 0x6, 1, 1, .u8, 1, .rw, .num 0x10, .span 7 16⟩,  -- link.n (03 T3-8)
  ⟨0x1580, 128, 0x7, 1, 1, .u8, 1, .rw, .num 0x10, .members [8, 12, 16]⟩,  -- link.np (03 T3-8)
  ⟨0x1580, 128, 0x8, 1, 1, .u8, 1, .rw, .num 0, .span 0 3⟩,  -- link.cs (03 T3-8)
  ⟨0x1580, 128, 0x9, 1, 1, .u16, 2, .rw, .num 0x1, .span 1 256⟩,  -- link.e (03 T3-8)
  ⟨0x1580, 128, 0xA, 1, 1, .bool, 1, .rw, .num 0, .any⟩,  -- link.hd (03 T3-8)
  ⟨0x1580, 128, 0xB, 1, 1, .blob, 16, .rw, .num 0, .any⟩,  -- link.lanes (03 T3-8)
  ⟨0x1580, 128, 0xC, 1, 1, .u32, 4, .rw, .num 0, .any⟩,  -- link.rbd (03 T3-8)
  ⟨0x1580, 128, 0xD, 1, 1, .i64, 8, .rw, .num 0, .any⟩,  -- link.latency (03 T3-8)
  ⟨0x1580, 128, 0xE, 1, 1, .u8, 1, .ro, .num 0, .any⟩,  -- link.state (03 T3-8)
  ⟨0x1580, 128, 0xF, 1, 1, .i64, 8, .ro, .num 0, .any⟩,  -- link.arrival.min (03 T3-8)
  ⟨0x1580, 128, 0x10, 1, 1, .i64, 8, .ro, .num 0, .any⟩,  -- link.arrival.max (03 T3-8)
  ⟨0x1580, 128, 0x11, 1, 1, .cmd, 0, .cmd, .num 0, .any⟩,  -- link.arrival.clear (03 T3-8)
  ⟨0x1580, 128, 0x12, 1, 1, .u32, 4, .ro, .num 0, .any⟩,  -- link.errors (03 T3-8)
  ⟨0x1580, 128, 0x13, 1, 1, .u32, 4, .ro, .num 0, .any⟩  -- link.release.errors (03 T3-8)
  ]

def rowsTruss : List ObjRow := [
  ⟨0x1600, 1, 0x1, 1, 1, .u16, 2, .ro, .num 0, .any⟩,  -- span.node (15 T15-10)
  ⟨0x1600, 1, 0x2, 1, 1, .u8, 1, .ro, .num 0, .any⟩,  -- span.x (15 T15-10)
  ⟨0x1600, 1, 0x3, 1, 1, .u8, 1, .ro, .num 0, .any⟩,  -- span.y (15 T15-10)
  ⟨0x1600, 1, 0x4, 1, 1, .u8, 1, .ro, .num 0, .any⟩,  -- span.count (15 T15-10)
  ⟨0x1600, 1, 0x5, 1, 1, .u8, 1, .ro, .num 0, .any⟩,  -- span.state (15 T15-10)
  ⟨0x1600, 1, 0x6, 1, 1, .bool, 1, .ro, .num 0, .any⟩,  -- span.anchor (15 T15-10)
  ⟨0x1600, 1, 0x7, 1, 1, .blob, 64, .ro, .num 0, .any⟩,  -- span.lost (15 T15-10)
  ⟨0x1600, 1, 0x8, 1, 1, .bool, 1, .rw, .num 0, .any⟩,  -- span.sync.relay (15 T15-10)
  ⟨0x1600, 1, 0x9, 1, 1, .bool, 1, .rw, .num 0x1, .any⟩,  -- span.sync.accept (15 T15-10)
  ⟨0x1600, 1, 0xA, 1, 1, .u32, 4, .ro, .num 0, .any⟩,  -- span.sync.late (15 T15-10)
  ⟨0x1600, 1, 0xB, 1, 1, .u8, 1, .rw, .num 0, .span 0 1⟩,  -- truss.rate (15 T15-10)
  ⟨0x1600, 1, 0xC, 1, 1, .u16, 2, .rw, .num 0xFA0, .spanPlus 400 65535 0⟩,  -- truss.sleep.idle (15 T15-10)
  ⟨0x1600, 1, 0xD, 1, 1, .bool, 1, .rw, .num 0, .any⟩,  -- truss.standby (15 T15-10)
  ⟨0x1600, 1, 0xE, 1, 1, .u32, 4, .ro, .num 0, .any⟩,  -- span.fwd.pending (15 T15-10)
  ⟨0x1601, 1, 0x1, 1, 1, .blob, 160, .rw, .num 0, .any⟩,  -- truss.eq (15 T15-10)
  ⟨0x1608, 4, 0x1, 1, 1, .u8, 1, .ro, .num 0, .any⟩,  -- truss.state (15 T15-11)
  ⟨0x1608, 4, 0x2, 1, 1, .u16, 2, .ro, .num 0xFFFF, .any⟩,  -- truss.neighbour (15 T15-11)
  ⟨0x1608, 4, 0x3, 1, 1, .u8, 1, .ro, .num 0, .any⟩,  -- truss.lanes (15 T15-11)
  ⟨0x1608, 4, 0x4, 1, 1, .blob, 4, .ro, .num 0xFFFFFFFF, .any⟩,  -- truss.map (15 T15-11)
  ⟨0x1608, 4, 0x5, 1, 1, .blob, 5, .ro, .num 0, .any⟩,  -- truss.lane.state (15 T15-11)
  ⟨0x1608, 4, 0x6, 1, 1, .u64, 8, .ro, .num 0, .any⟩,  -- truss.frame.crc (15 T15-11)
  ⟨0x1608, 4, 0x7, 1, 1, .u64, 8, .ro, .num 0, .any⟩,  -- truss.replays (15 T15-11)
  ⟨0x1608, 4, 0x8, 1, 1, .u32, 4, .ro, .num 0, .any⟩,  -- truss.failovers (15 T15-11)
  ⟨0x1608, 4, 0x9, 1, 1, .cmd, 0, .cmd, .num 0, .any⟩,  -- truss.restart (15 T15-11)
  ⟨0x1640, 32, 0x1, 1, 1, .bool, 1, .rw, .num 0, .any⟩,  -- merge.enable (15 T15-12)
  ⟨0x1640, 32, 0x2, 1, 1, .u8, 1, .rw, .num 0x1, .span 1 3⟩,  -- merge.kind (15 T15-12)
  ⟨0x1640, 32, 0x3, 1, 1, .u16, 2, .rw, .num 0, .any⟩,  -- merge.product (15 T15-12)
  ⟨0x1640, 32, 0x4, 1, 1, .u16, 2, .rw, .num 0, .any⟩,  -- merge.root (15 T15-12)
  ⟨0x1640, 32, 0x5, 1, 1, .blob, 64, .rw, .num 0, .any⟩,  -- merge.members (15 T15-12)
  ⟨0x1640, 32, 0x6, 1, 1, .u64, 8, .rw, .num 0, .step 0 18446744073709547520 4096⟩,  -- merge.ring.base (15 T15-12)
  ⟨0x1640, 32, 0x7, 1, 1, .u64, 8, .rw, .num 0, .any⟩,  -- merge.ring.size (15 T15-12)
  ⟨0x1640, 32, 0x8, 1, 1, .u64, 8, .ro, .num 0, .any⟩,  -- merge.ring.wptr (15 T15-12)
  ⟨0x1640, 32, 0x9, 1, 1, .u64, 8, .ro, .num 0, .any⟩,  -- merge.records (15 T15-12)
  ⟨0x1640, 32, 0xA, 1, 1, .u64, 8, .ro, .num 0, .any⟩,  -- merge.incomplete (15 T15-12)
  ⟨0x1640, 32, 0xB, 1, 1, .u64, 8, .ro, .num 0, .any⟩  -- merge.mismatch (15 T15-12)
  ]

def rowsNetwork : List ObjRow := [
  ⟨0x1708, 1, 0x1, 2, 1, .u8, 1, .rw, .num 0, .span 0 3⟩,  -- net.mode (14 T14-5)
  ⟨0x1708, 1, 0x3, 2, 1, .u8, 1, .rw, .num 0x1, .span 0 1⟩,  -- net.fec25 (14 T14-5)
  ⟨0x1708, 1, 0x5, 2, 1, .bool, 1, .rw, .num 0x1, .any⟩,  -- net.an (14 T14-5)
  ⟨0x1708, 1, 0x7, 1, 1, .blob, 32, .rw, .num 0, .any⟩,  -- net.eq (14 T14-5)
  ⟨0x1700, 8, 0x1, 1, 1, .u64, 8, .rw, .macBase, .span 0 281474976710655⟩,  -- net.mac (14 T14-5)
  ⟨0x1700, 8, 0x2, 1, 1, .u32, 4, .rw, .num 0, .any⟩,  -- net.ipv4 (14 T14-5)
  ⟨0x1700, 8, 0x3, 1, 1, .blob, 16, .rw, .num 0, .any⟩,  -- net.ipv6 (14 T14-5)
  ⟨0x1700, 8, 0x4, 1, 1, .u16, 2, .rw, .num 0, .span 0 4094⟩,  -- net.vlan (14 T14-5)
  ⟨0x1700, 8, 0x5, 1, 1, .u16, 2, .rw, .num 0x5DC, .span 1500 9000⟩,  -- net.mtu (14 T14-5)
  ⟨0x1700, 8, 0x6, 1, 1, .u8, 1, .ro, .num 0, .any⟩,  -- net.state (14 T14-5)
  ⟨0x1700, 8, 0x7, 1, 1, .u64, 8, .ro, .num 0, .any⟩,  -- net.rx.dropped (14 T14-5)
  ⟨0x1700, 8, 0x8, 1, 1, .u64, 8, .ro, .num 0, .any⟩,  -- net.tx.dropped (14 T14-5)
  ⟨0x170A, 1, 0x1, 1, 1, .u8, 1, .rw, .num 0, .any⟩,  -- ptp.domain (14 T14-5)
  ⟨0x170A, 1, 0x2, 1, 1, .u8, 1, .rw, .num 0, .span 0 2⟩,  -- ptp.transport (14 T14-5)
  ⟨0x170A, 1, 0x3, 1, 1, .u8, 1, .rw, .num 0, .span 0 3⟩,  -- ptp.lane (14 T14-5)
  ⟨0x170A, 1, 0x4, 1, 1, .i32, 4, .rw, .num 0, .any⟩,  -- ptp.asym (14 T14-5)
  ⟨0x170A, 1, 0x5, 1, 1, .blob, 10, .ro, .num 0, .any⟩,  -- ptp.master (14 T14-5)
  ⟨0x170A, 1, 0x6, 1, 1, .i64, 8, .ro, .num 0, .any⟩,  -- ptp.offset (14 T14-5)
  ⟨0x170A, 1, 0x7, 1, 1, .i64, 8, .ro, .num 0, .any⟩,  -- ptp.path (14 T14-5)
  ⟨0x170C, 1, 0x1, 1, 1, .u32, 4, .rw, .num 0x17D78400, .span 400000 4000000000⟩,  -- vrt.ctx.interval (14 T14-5)
  ⟨0x1710, 16, 0x1, 16, 16, .bool, 1, .rw, .num 0, .any⟩,  -- vrt.enable (14 T14-6)
  ⟨0x1710, 16, 0x2, 16, 16, .u8, 1, .rw, .num 0x1, .span 1 3⟩,  -- vrt.source (14 T14-6)
  ⟨0x1710, 16, 0x3, 16, 16, .u16, 2, .rw, .num 0, .span 0 511⟩,  -- vrt.view (14 T14-6)
  ⟨0x1710, 16, 0x4, 16, 16, .u16, 2, .rw, .num 0xFFFF, .spanPlus 0 1023 65535⟩,  -- vrt.port (14 T14-6)
  ⟨0x1710, 16, 0x5, 16, 16, .u8, 1, .rw, .num 0, .span 0 7⟩,  -- vrt.interface (14 T14-6)
  ⟨0x1710, 16, 0x6, 16, 16, .u64, 8, .rw, .num 0, .span 0 281474976710655⟩,  -- vrt.dst.mac (14 T14-6)
  ⟨0x1710, 16, 0x7, 16, 16, .blob, 16, .rw, .num 0, .any⟩,  -- vrt.dst.ip (14 T14-6)
  ⟨0x1710, 16, 0x8, 16, 16, .u16, 2, .rw, .num 0, .span 1 65535⟩,  -- vrt.dst.udp (14 T14-6)
  ⟨0x1710, 16, 0x9, 16, 16, .u16, 2, .rw, .num 0, .span 1 65535⟩,  -- vrt.src.udp (14 T14-6)
  ⟨0x1710, 16, 0xA, 16, 16, .u16, 2, .rw, .num 0x400, .step 64 8896 64⟩,  -- vrt.payload (14 T14-6)
  ⟨0x1710, 16, 0xB, 16, 16, .u32, 4, .rw, .num 0x3E8, .span 1 100000⟩,  -- vrt.rate (14 T14-6)
  ⟨0x1710, 16, 0xC, 16, 16, .bool, 1, .rw, .num 0x1, .any⟩,  -- vrt.ctx (14 T14-6)
  ⟨0x1710, 16, 0xD, 16, 16, .i16, 2, .rw, .num 0, .any⟩,  -- vrt.ref.level (14 T14-6)
  ⟨0x1710, 16, 0xE, 16, 16, .u64, 8, .ro, .num 0, .any⟩,  -- vrt.packets (14 T14-6)
  ⟨0x1710, 16, 0xF, 16, 16, .u64, 8, .ro, .num 0, .any⟩  -- vrt.dropped (14 T14-6)
  ]

def rowsPelpin : List ObjRow := [
  ⟨0x1720, 1, 0x1, 1, 1, .u64, 8, .rw, .num 0xEE6B2800, .span 40000000 1099511627776⟩,  -- pp.idle (13 T13-11)
  ⟨0x1720, 1, 0x2, 1, 1, .u8, 1, .ro, .num 0, .any⟩,  -- pp.sessions (13 T13-11)
  ⟨0x1720, 1, 0x3, 1, 1, .u64, 8, .ro, .num 0, .any⟩,  -- pp.acks (13 T13-11)
  ⟨0x1720, 1, 0x4, 1, 1, .u64, 8, .ro, .num 0, .any⟩,  -- pp.stale (13 T13-11)
  ⟨0x1720, 1, 0x5, 1, 1, .u64, 8, .ro, .num 0, .any⟩,  -- pp.auth.fail (13 T13-11)
  ⟨0x1720, 1, 0x6, 1, 1, .u64, 8, .ro, .num 0, .any⟩,  -- pp.busy (13 T13-11)
  ⟨0x1720, 1, 0x7, 1, 1, .u64, 8, .ro, .num 0, .any⟩,  -- pp.dropped (13 T13-11)
  ⟨0x1720, 1, 0x8, 1, 1, .cmd, 0, .cmd, .num 0, .any⟩,  -- pp.keys.lock (13 T13-11)
  ⟨0x1721, 8, 0x1, 1, 1, .blob, 97, .rwl, .num 0, .any⟩,  -- pp.key (13 T13-11)
  ⟨0x1721, 8, 0x2, 1, 1, .u8, 1, .rwl, .num 0, .span 0 1⟩,  -- pp.role (13 T13-11)
  ⟨0x1731, 16, 0x1, 1, 1, .u8, 1, .ro, .num 0, .any⟩,  -- pp.sess.state (13 T13-11)
  ⟨0x1731, 16, 0x2, 1, 1, .u8, 1, .ro, .num 0, .any⟩,  -- pp.sess.slot (13 T13-11)
  ⟨0x1731, 16, 0x3, 1, 1, .u8, 1, .ro, .num 0, .any⟩,  -- pp.sess.epoch (13 T13-11)
  ⟨0x1731, 16, 0x4, 1, 1, .u16, 2, .ro, .num 0, .any⟩,  -- pp.sess.tid (13 T13-11)
  ⟨0x1731, 16, 0x5, 1, 1, .cmd, 0, .cmd, .num 0, .any⟩  -- pp.sess.close (13 T13-11)
  ]

def rowsDisplay0 : List ObjRow := [
  ⟨0x1800, 2, 0x1, 1, 1, .bool, 1, .rw, .num 0, .any⟩,  -- disp.enable (16 T16-3)
  ⟨0x1800, 2, 0x2, 1, 1, .u8, 1, .rw, .num 0x3, .span 0 3⟩,  -- disp.link.rate (16 T16-3)
  ⟨0x1800, 2, 0x3, 1, 1, .u8, 1, .rw, .num 0x4, .members [1, 2, 4]⟩,  -- disp.link.lanes (16 T16-3)
  ⟨0x1800, 2, 0x4, 1, 1, .u8, 1, .rw, .num 0xA, .members [8, 10]⟩,  -- disp.bpc (16 T16-3)
  ⟨0x1800, 2, 0x5, 1, 1, .u32, 4, .rw, .num 0x1F267680, .span 0 600000000⟩,  -- disp.pclk (16 T16-3)
  ⟨0x1800, 2, 0x6, 1, 1, .u16, 2, .rw, .num 0xF00, .span 0 3840⟩,  -- disp.h.active (16 T16-3)
  ⟨0x1800, 2, 0x7, 1, 1, .u16, 2, .rw, .num 0x8, .span 1 65535⟩,  -- disp.h.front (16 T16-3)
  ⟨0x1800, 2, 0x8, 1, 1, .u16, 2, .rw, .num 0x20, .span 1 65535⟩,  -- disp.h.sync (16 T16-3)
  ⟨0x1800, 2, 0x9, 1, 1, .u16, 2, .rw, .num 0x28, .span 1 65535⟩,  -- disp.h.back (16 T16-3)
  ⟨0x1800, 2, 0xA, 1, 1, .u16, 2, .rw, .num 0x870, .span 0 2160⟩,  -- disp.v.active (16 T16-3)
  ⟨0x1800, 2, 0xB, 1, 1, .u16, 2, .rw, .num 0x30, .span 1 65535⟩,  -- disp.v.front (16 T16-3)
  ⟨0x1800, 2, 0xC, 1, 1, .u16, 2, .rw, .num 0x8, .span 1 65535⟩,  -- disp.v.sync (16 T16-3)
  ⟨0x1800, 2, 0xD, 1, 1, .u16, 2, .rw, .num 0x6, .span 1 65535⟩,  -- disp.v.back (16 T16-3)
  ⟨0x1800, 2, 0xE, 1, 1, .u8, 1, .rw, .num 0, .any⟩,  -- disp.sync.pol (16 T16-3)
  ⟨0x1800, 2, 0xF, 1, 1, .u32, 4, .rw, .num 0, .any⟩,  -- disp.background (16 T16-3)
  ⟨0x1800, 2, 0x10, 1, 1, .cmd, 0, .cmd, .num 0, .any⟩,  -- disp.flip (16 T16-3)
  ⟨0x1800, 2, 0x11, 1, 1, .u8, 1, .ro, .num 0, .any⟩,  -- disp.state (16 T16-3)
  ⟨0x1800, 2, 0x12, 1, 1, .u64, 8, .ro, .num 0, .any⟩,  -- disp.frame (16 T16-3)
  ⟨0x1800, 2, 0x13, 1, 1, .u64, 8, .ro, .num 0, .any⟩,  -- disp.fence (16 T16-3)
  ⟨0x1800, 2, 0x14, 1, 1, .u64, 8, .ro, .num 0, .any⟩,  -- disp.flip.frame (16 T16-3)
  ⟨0x1800, 2, 0x15, 1, 1, .time80, 10, .ro, .num 0, .any⟩,  -- disp.flip.time (16 T16-3)
  ⟨0x1800, 2, 0x16, 1, 1, .u64, 8, .ro, .num 0, .any⟩,  -- disp.flips (16 T16-3)
  ⟨0x1800, 2, 0x17, 1, 1, .u64, 8, .ro, .num 0, .any⟩,  -- disp.flip.merged (16 T16-3)
  ⟨0x1800, 2, 0x18, 1, 1, .u64, 8, .ro, .num 0, .any⟩,  -- disp.aborted (16 T16-3)
  ⟨0x1800, 2, 0x19, 1, 1, .u64, 8, .ro, .num 0, .any⟩,  -- disp.blocked (16 T16-3)
  ⟨0x1800, 2, 0x1A, 1, 1, .u64, 8, .ro, .num 0, .any⟩,  -- disp.lost (16 T16-3)
  ⟨0x1800, 2, 0x1B, 1, 1, .blob, 512, .ro, .num 0, .any⟩,  -- disp.edid (16 T16-3)
  ⟨0x1808, 8, 0x1, 1, 1, .bool, 1, .rw, .num 0, .any⟩,  -- lay.enable (16 T16-4)
  ⟨0x1808, 8, 0x2, 1, 1, .u64, 8, .rw, .num 0, .step 0 18446744073709551552 64⟩,  -- lay.base0 (16 T16-4)
  ⟨0x1808, 8, 0x3, 1, 1, .u64, 8, .rw, .num 0, .step 0 18446744073709551552 64⟩,  -- lay.base1 (16 T16-4)
  ⟨0x1808, 8, 0x4, 1, 1, .bool, 1, .rw, .num 0, .any⟩,  -- lay.dbuf (16 T16-4)
  ⟨0x1808, 8, 0x5, 1, 1, .u32, 4, .rw, .num 0, .any⟩,  -- lay.pitch (16 T16-4)
  ⟨0x1808, 8, 0x6, 1, 1, .u16, 2, .rw, .num 0, .any⟩,  -- lay.src.w (16 T16-4)
  ⟨0x1808, 8, 0x7, 1, 1, .u16, 2, .rw, .num 0, .any⟩,  -- lay.src.h (16 T16-4)
  ⟨0x1808, 8, 0x8, 1, 1, .u16, 2, .rw, .num 0, .any⟩,  -- lay.dst.x (16 T16-4)
  ⟨0x1808, 8, 0x9, 1, 1, .u16, 2, .rw, .num 0, .any⟩,  -- lay.dst.y (16 T16-4)
  ⟨0x1808, 8, 0xA, 1, 1, .u16, 2, .rw, .num 0, .any⟩,  -- lay.dst.w (16 T16-4)
  ⟨0x1808, 8, 0xB, 1, 1, .u16, 2, .rw, .num 0, .any⟩,  -- lay.dst.h (16 T16-4)
  ⟨0x1808, 8, 0xC, 1, 1, .i32, 4, .rw, .num 0, .any⟩,  -- lay.offset (16 T16-4)
  ⟨0x1808, 8, 0xD, 1, 1, .u32, 4, .rw, .num 0x10000, .any⟩  -- lay.gain (16 T16-4)
  ]

def rowsDisplay1 : List ObjRow := [
  ⟨0x1808, 8, 0xE, 1, 1, .u16, 2, .rw, .num 0xFFFF, .any⟩,  -- lay.follow (16 T16-4)
  ⟨0x1808, 8, 0xF, 1, 1, .u32, 4, .rw, .num 0, .any⟩,  -- lay.start (16 T16-4)
  ⟨0x1808, 8, 0x10, 1, 1, .u8, 1, .ro, .num 0, .any⟩,  -- lay.select (16 T16-4)
  ⟨0x1810, 4, 0x1, 1, 1, .blob, 4096, .rw, .num 0, .any⟩  -- disp.lut (16 text)
  ]

def rowsDisplay : List ObjRow := rowsDisplay0 ++ rowsDisplay1

def rowsMemory0 : List ObjRow := [
  ⟨0x19F0, 1, 0x1, 1, 1, .u64, 8, .rw, .num 0, .step 0 18446744073709547520 4096⟩,  -- acq.stage.base (08 T8-10)
  ⟨0x19F0, 1, 0x2, 1, 1, .u64, 8, .rw, .num 0, .any⟩,  -- acq.stage.size (08 T8-10)
  ⟨0x19F0, 1, 0x3, 1, 1, .u64, 8, .ro, .num 0, .any⟩,  -- acq.stage.used (08 T8-10)
  ⟨0x19F0, 1, 0x4, 1, 1, .u64, 8, .rw, .num 0, .step 0 18446744073709547520 4096⟩,  -- acq.done.base (08 T8-10)
  ⟨0x19F0, 1, 0x5, 1, 1, .u64, 8, .rw, .num 0, .any⟩,  -- acq.done.size (08 T8-10)
  ⟨0x19F0, 1, 0x6, 1, 1, .u64, 8, .ro, .num 0, .any⟩,  -- acq.done.wptr (08 T8-10)
  ⟨0x19F0, 1, 0x7, 1, 1, .u32, 4, .ro, .num 0, .any⟩,  -- acq.open (08 T8-10)
  ⟨0x19F0, 1, 0x8, 1, 1, .u64, 8, .ro, .num 0, .any⟩,  -- acq.missing (08 T8-10)
  ⟨0x1900, 1, 0x1, 1, 1, .u32, 4, .rw, .num 0x1000, .pow2 256 65536⟩,  -- mem.grain (10 T10-7)
  ⟨0x1900, 1, 0x2, 1, 1, .u64, 8, .rw, .num 0, .any⟩,  -- mem.fixed.size (10 T10-7)
  ⟨0x1900, 1, 0x3, 1, 1, .u64, 8, .ro, .num 0, .any⟩,  -- mem.size (10 T10-7)
  ⟨0x1900, 1, 0x4, 1, 1, .u8, 1, .ro, .num 0, .any⟩,  -- mem.lanes (10 T10-7)
  ⟨0x1900, 1, 0x5, 1, 1, .u8, 1, .ro, .num 0, .any⟩,  -- mem.service (10 T10-7)
  ⟨0x1900, 1, 0x6, 1, 1, .u16, 2, .ro, .num 0, .any⟩,  -- mem.speed (10 T10-7)
  ⟨0x1900, 1, 0x7, 1, 1, .u16, 2, .rw, .num 0, .any⟩,  -- mem.speed.req (10 T10-7)
  ⟨0x1900, 1, 0x8, 1, 1, .u32, 4, .rw, .num 0x9C40, .span 400 4000000⟩,  -- mem.age.limit1 (10 T10-7)
  ⟨0x1900, 1, 0x9, 1, 1, .u32, 4, .rw, .num 0x4E20, .span 400 4000000⟩,  -- mem.age.limit2 (10 T10-7)
  ⟨0x1900, 1, 0xA, 1, 1, .u32, 4, .rw, .num 0x61A80, .span 400 4000000⟩,  -- mem.age.limit3 (10 T10-7)
  ⟨0x1900, 1, 0xB, 1, 1, .u16, 2, .rw, .num 0x3E8, .span 1 65535⟩,  -- mem.sr.idle (10 T10-7)
  ⟨0x1900, 1, 0xC, 1, 1, .u64, 8, .ro, .num 0, .any⟩,  -- mem.rt.load (10 T10-7)
  ⟨0x1900, 1, 0xD, 1, 1, .u64, 8, .ro, .num 0, .any⟩,  -- mem.rt.limit (10 T10-7)
  ⟨0x1900, 1, 0xE, 1, 1, .u64, 8, .ro, .num 0, .any⟩,  -- mem.ring.avail (10 T10-7)
  ⟨0x1900, 1, 0xF, 1, 1, .u8, 1, .ro, .num 0, .any⟩,  -- mem.freezes (10 T10-7)
  ⟨0x1900, 1, 0x10, 1, 1, .u64, 8, .ro, .num 0, .any⟩,  -- mem.lost.writes (10 T10-7)
  ⟨0x1900, 1, 0x11, 1, 1, .u64, 8, .ro, .num 0, .any⟩,  -- mem.lost.reads (10 T10-7)
  ⟨0x1900, 1, 0x12, 1, 1, .u32, 4, .ro, .num 0, .any⟩,  -- mem.redirected (10 T10-7)
  ⟨0x1980, 16, 0x1, 1, 1, .u8, 1, .ro, .num 0, .any⟩,  -- memch.state (10 T10-8)
  ⟨0x1980, 16, 0x2, 1, 1, .u8, 1, .ro, .num 0xFF, .any⟩,  -- memch.lane (10 T10-8)
  ⟨0x1980, 16, 0x3, 1, 1, .u8, 1, .ro, .num 0, .any⟩,  -- memch.dimms (10 T10-8)
  ⟨0x1980, 16, 0x4, 1, 1, .u8, 1, .ro, .num 0, .any⟩,  -- memch.ranks (10 T10-8)
  ⟨0x1980, 16, 0x5, 1, 1, .u64, 8, .ro, .num 0, .any⟩,  -- memch.ce.count (10 T10-8)
  ⟨0x1980, 16, 0x6, 1, 1, .u64, 8, .ro, .num 0, .any⟩,  -- memch.crc.retries (10 T10-8)
  ⟨0x1980, 16, 0x7, 1, 1, .record, 48, .ro, .num 0, .any⟩,  -- memch.diag (10 T10-8)
  ⟨0x1980, 16, 0x8, 1, 1, .cmd, 0, .cmd, .num 0, .any⟩,  -- memch.retrain (10 T10-8)
  ⟨0x1980, 16, 0x9, 1, 1, .u8, 1, .ro, .num 0, .any⟩,  -- memch.train.result (10 T10-8)
  ⟨0x1980, 16, 0xA, 1, 1, .u32, 4, .ro, .num 0, .any⟩,  -- memch.train.time (10 T10-8)
  ⟨0x1980, 16, 0xB, 1, 1, .u64, 8, .ro, .num 0, .any⟩,  -- memch.panic.count (10 T10-8)
  ⟨0x1980, 16, 0xC, 1, 1, .u64, 8, .ro, .num 0, .any⟩,  -- memch.promoted (10 T10-8)
  ⟨0x1980, 16, 0xD, 1, 1, .u64, 8, .ro, .num 0, .any⟩,  -- memch.inorder (10 T10-8)
  ⟨0x1980, 16, 0xE, 1, 1, .u64, 8, .ro, .num 0, .any⟩  -- memch.sr.entries (10 T10-8)
  ]

def rowsMemory1 : List ObjRow := [
  ⟨0x1980, 16, 0xF, 1, 1, .i16, 2, .ro, .num 0, .any⟩,  -- memch.temp (10 T10-8)
  ⟨0x1910, 1, 0x1, 1, 1, .u32, 4, .rw, .num 0, .any⟩,  -- ring.slabs (11 T11-5)
  ⟨0x1910, 1, 0x2, 1, 1, .u32, 4, .ro, .num 0, .any⟩,  -- ring.slabs.now (11 T11-5)
  ⟨0x1910, 1, 0x3, 1, 1, .u8, 1, .ro, .num 0, .any⟩,  -- ring.resize.state (11 T11-5)
  ⟨0x1910, 1, 0x4, 1, 1, .blob, 128, .rw, .num 0, .any⟩,  -- ring.select.raw (11 T11-5)
  ⟨0x1910, 1, 0x5, 1, 1, .blob, 128, .rw, .num 0, .any⟩,  -- ring.select.fe (11 T11-5)
  ⟨0x1910, 1, 0x6, 1, 1, .u32, 4, .rw, .num 0x9C40, .span 400 4000000⟩,  -- ring.flush (11 T11-5)
  ⟨0x1910, 1, 0x7, 1, 1, .u64, 8, .ro, .num 0, .any⟩,  -- ring.rate (11 T11-5)
  ⟨0x1910, 1, 0x8, 1, 1, .u64, 8, .ro, .num 0, .any⟩,  -- ring.horizon (11 T11-5)
  ⟨0x1910, 1, 0x9, 1, 1, .u64, 8, .ro, .num 0, .any⟩,  -- ring.wraps (11 T11-5)
  ⟨0x1910, 1, 0xA, 1, 1, .u64, 8, .ro, .num 0, .any⟩,  -- ring.blocks.lost (11 T11-5)
  ⟨0x1910, 1, 0xB, 1, 1, .u32, 4, .ro, .num 0, .any⟩,  -- ring.usable (11 T11-5)
  ⟨0x1911, 1, 0x1, 1, 1, .blob, 20480, .ro, .num 0, .any⟩  -- ring.held (11 T11-5)
  ]

def rowsMemory : List ObjRow := rowsMemory0 ++ rowsMemory1

def rowsRecorder : List ObjRow := [
  ⟨0x1A00, 1, 0x1, 1, 1, .u8, 1, .rw, .num 0, .span 0 2⟩,  -- rec.bifurcation (11 T11-6)
  ⟨0x1A00, 1, 0x2, 1, 1, .u64, 8, .rw, .num 0x40000000, .span 67108864 1099511627776⟩,  -- rec.seg.bytes (11 T11-6)
  ⟨0x1A00, 1, 0x3, 1, 1, .u64, 8, .ro, .num 0, .any⟩,  -- rec.written (11 T11-6)
  ⟨0x1A00, 1, 0x4, 1, 1, .u64, 8, .ro, .num 0, .any⟩,  -- rec.segments (11 T11-6)
  ⟨0x1A00, 1, 0x5, 1, 1, .u64, 8, .ro, .num 0, .any⟩,  -- rec.dropped (11 T11-6)
  ⟨0x1A00, 1, 0x6, 1, 1, .u8, 1, .ro, .num 0, .any⟩,  -- rec.sign.queue (11 T11-6)
  ⟨0x1A08, 4, 0x1, 1, 1, .u8, 1, .ro, .num 0, .any⟩,  -- rec.drive.state (11 T11-6)
  ⟨0x1A08, 4, 0x2, 1, 1, .u8, 1, .ro, .num 0, .any⟩,  -- rec.drive.width (11 T11-6)
  ⟨0x1A08, 4, 0x3, 1, 1, .str, 40, .ro, .num 0, .any⟩,  -- rec.drive.model (11 T11-6)
  ⟨0x1A08, 4, 0x4, 1, 1, .u64, 8, .ro, .num 0, .any⟩,  -- rec.drive.errors (11 T11-6)
  ⟨0x1A08, 4, 0x5, 1, 1, .cmd, 0, .cmd, .num 0, .any⟩,  -- rec.drive.restart (11 T11-6)
  ⟨0x1A10, 16, 0x1, 1, 1, .bool, 1, .rw, .num 0, .any⟩,  -- rec.ns.enable (11 T11-6)
  ⟨0x1A10, 16, 0x2, 1, 1, .u8, 1, .rw, .num 0, .span 0 3⟩,  -- rec.ns.drive (11 T11-6)
  ⟨0x1A10, 16, 0x3, 1, 1, .u32, 4, .rw, .num 0x1, .any⟩,  -- rec.ns.nsid (11 T11-6)
  ⟨0x1A10, 16, 0x4, 1, 1, .u64, 8, .rw, .num 0, .any⟩,  -- rec.ns.first (11 T11-6)
  ⟨0x1A10, 16, 0x5, 1, 1, .u64, 8, .rw, .num 0, .span 65536 18446744073709551615⟩,  -- rec.ns.lbas (11 T11-6)
  ⟨0x1A10, 16, 0x6, 1, 1, .u8, 1, .rw, .num 0, .span 0 1⟩,  -- rec.ns.mode (11 T11-6)
  ⟨0x1A10, 16, 0x7, 1, 1, .cmd, 0, .cmd, .num 0, .any⟩,  -- rec.ns.format (11 T11-6)
  ⟨0x1A10, 16, 0x8, 1, 1, .cmd, 0, .cmd, .num 0, .any⟩,  -- rec.ns.close (11 T11-6)
  ⟨0x1A10, 16, 0x9, 1, 1, .u8, 1, .ro, .num 0, .any⟩,  -- rec.ns.state (11 T11-6)
  ⟨0x1A10, 16, 0xA, 1, 1, .u64, 8, .ro, .num 0, .any⟩,  -- rec.ns.append (11 T11-6)
  ⟨0x1A10, 16, 0xB, 1, 1, .u32, 4, .ro, .num 0, .any⟩,  -- rec.ns.lap (11 T11-6)
  ⟨0x1A10, 16, 0xC, 1, 1, .blob, 24, .wo, .num 0, .any⟩,  -- rec.ns.read (11 T11-6)
  ⟨0x1A10, 16, 0xD, 1, 1, .u8, 1, .ro, .num 0, .any⟩  -- rec.ns.read.state (11 T11-6)
  ]

def rowsMovers : List ObjRow := [
  ⟨0x1B00, 16, 0x1, 1, 1, .bool, 1, .rw, .num 0, .any⟩,  -- mv.enable (12 T12-16)
  ⟨0x1B00, 16, 0x2, 1, 1, .u64, 8, .rw, .num 0, .step 0 18446744073709551552 64⟩,  -- mv.desc.base (12 T12-16)
  ⟨0x1B00, 16, 0x3, 1, 1, .bool, 1, .rw, .num 0, .any⟩,  -- mv.desc.host (12 T12-16)
  ⟨0x1B00, 16, 0x4, 1, 1, .u32, 4, .rw, .num 0x2, .span 2 65536⟩,  -- mv.desc.count (12 T12-16)
  ⟨0x1B00, 16, 0x5, 1, 1, .u8, 1, .rw, .num 0x3, .span 0 15⟩,  -- mv.retry (12 T12-16)
  ⟨0x1B00, 16, 0x6, 1, 1, .u16, 2, .rw, .num 0, .spans [(0, 0), (0x1000, 0x103F), (0x2000, 0x203F), (0x3000, 0x31FF), (0x4000, 0x40FF), (0x5000, 0x500F), (0x6000, 0x6000)]⟩,  -- mv.start.source (12 T12-16)
  ⟨0x1B00, 16, 0x7, 1, 1, .blob, 8, .rw, .num 0, .any⟩,  -- mv.evt.targets (12 T12-16)
  ⟨0x1B00, 16, 0x8, 1, 1, .u64, 8, .ro, .num 0, .any⟩,  -- mv.start.overruns (12 T12-16)
  ⟨0x1B00, 16, 0x9, 1, 1, .u64, 8, .ro, .num 0, .any⟩,  -- mv.bytes (12 T12-16)
  ⟨0x1B00, 16, 0xA, 1, 1, .u64, 8, .ro, .num 0, .any⟩,  -- mv.retries (12 T12-16)
  ⟨0x1B00, 16, 0xB, 1, 1, .u32, 4, .ro, .num 0, .any⟩,  -- mv.halts (12 T12-16)
  ⟨0x1B40, 64, 0x1, 1, 1, .bool, 1, .rw, .num 0, .any⟩,  -- hr.enable (12 T12-17)
  ⟨0x1B40, 64, 0x2, 1, 1, .u64, 8, .rw, .num 0, .step 0 18446744073709547520 4096⟩,  -- hr.base (12 T12-17)
  ⟨0x1B40, 64, 0x3, 1, 1, .u32, 4, .rw, .num 0x10000, .step 65536 2147483648 4096⟩,  -- hr.size (12 T12-17)
  ⟨0x1B40, 64, 0x4, 1, 1, .u8, 1, .rw, .num 0, .span 0 2⟩,  -- hr.source (12 T12-17)
  ⟨0x1B40, 64, 0x5, 1, 1, .u16, 2, .rw, .num 0, .span 0 511⟩,  -- hr.view (12 T12-17)
  ⟨0x1B40, 64, 0x6, 1, 1, .u16, 2, .rw, .num 0xFFFF, .spanPlus 0 1023 65535⟩,  -- hr.port (12 T12-17)
  ⟨0x1B40, 64, 0x7, 1, 1, .u8, 1, .rw, .num 0, .span 0 1⟩,  -- hr.mode (12 T12-17)
  ⟨0x1B40, 64, 0x8, 1, 1, .u8, 1, .rw, .num 0xFF, .spanPlus 0 63 255⟩,  -- hr.vector (12 T12-17)
  ⟨0x1B40, 64, 0x9, 1, 1, .u64, 8, .ro, .num 0, .any⟩,  -- hr.entries (12 T12-17)
  ⟨0x1B40, 64, 0xA, 1, 1, .u64, 8, .ro, .num 0, .any⟩,  -- hr.publish.errors (12 T12-17)
  ⟨0x1B30, 1, 0x1, 16, 1, .u64, 8, .ro, .num 0, .any⟩  -- mv.counter (12 text)
  ]

def rowsPorts : List ObjRow := [
  ⟨0x2000, 1024, 0x1, 1, 1, .bool, 1, .rw, .num 0, .any⟩,  -- port.enable (03 T3-9)
  ⟨0x2000, 1024, 0x2, 1, 1, .u8, 1, .rw, .num 0, .span 0 127⟩,  -- port.link (03 T3-9)
  ⟨0x2000, 1024, 0x3, 1, 1, .u8, 1, .rw, .num 0, .span 0 1⟩,  -- port.kind (03 T3-9)
  ⟨0x2000, 1024, 0x4, 1, 1, .u8, 1, .rw, .num 0, .any⟩,  -- port.conv.i (03 T3-9)
  ⟨0x2000, 1024, 0x5, 1, 1, .u8, 1, .rw, .num 0x1, .any⟩,  -- port.conv.q (03 T3-9)
  ⟨0x2000, 1024, 0x6, 1, 1, .u16, 2, .rw, .num 0, .span 0 4095⟩,  -- port.delay.int (03 T3-9)
  ⟨0x2000, 1024, 0x7, 1, 1, .u8, 1, .rw, .num 0, .span 0 63⟩,  -- port.delay.frac (03 T3-9)
  ⟨0x2000, 1024, 0x8, 1, 1, .u64, 8, .ro, .num 0, .any⟩,  -- port.rate (03 T3-9)
  ⟨0x2000, 1024, 0x9, 1, 1, .u8, 1, .ro, .num 0, .any⟩,  -- port.width (03 T3-9)
  ⟨0x2000, 1024, 0xA, 1, 1, .u64, 8, .ro, .num 0, .any⟩,  -- port.overload.count (03 T3-9)
  ⟨0x2000, 1024, 0xB, 1, 1, .u32, 4, .ro, .num 0, .any⟩  -- port.gap.seq (03 T3-9)
  ]

def rowsFrontEnds : List ObjRow := [
  ⟨0x2400, 1024, 0x1, 1, 1, .u8, 1, .rw, .num 0, .span 0 1⟩,  -- fe.mode (04 T4-6)
  ⟨0x2400, 1024, 0x2, 1, 1, .u8, 1, .rw, .num 0x1, .span 0 3⟩,  -- fe.preset (04 T4-6)
  ⟨0x2400, 1024, 0x3, 1, 1, .u32, 4, .rw, .num 0x1, .span 1 16777216⟩,  -- fe.decim (04 T4-6)
  ⟨0x2400, 1024, 0x4, 1, 1, .bool, 1, .rw, .num 0, .any⟩,  -- fe.nco.enable (04 T4-6)
  ⟨0x2400, 1024, 0x5, 1, 1, .u64, 8, .rw, .num 0, .span 0 281474976710655⟩,  -- fe.nco.freq (04 T4-6)
  ⟨0x2400, 1024, 0x6, 1, 1, .u32, 4, .rw, .num 0, .span 0 1048575⟩,  -- fe.nco.phase (04 T4-6)
  ⟨0x2400, 1024, 0x7, 1, 1, .u8, 1, .rw, .num 0, .span 0 2⟩,  -- fe.fir.source (04 T4-6)
  ⟨0x2400, 1024, 0x8, 1, 1, .u16, 2, .rw, .num 0x1, .step 1 1023 2⟩,  -- fe.fir.taps (04 T4-6)
  ⟨0x2400, 1024, 0x9, 1, 1, .blob, 4096, .rw, .num 0, .any⟩,  -- fe.fir.bank.a (04 T4-6)
  ⟨0x2400, 1024, 0xA, 1, 1, .blob, 4096, .rw, .num 0, .any⟩,  -- fe.fir.bank.b (04 T4-6)
  ⟨0x2400, 1024, 0xB, 1, 1, .u32, 4, .rw, .num 0x400, .pow2 64 65536⟩,  -- fe.fade.len (04 T4-6)
  ⟨0x2400, 1024, 0xC, 1, 1, .u8, 1, .ro, .num 0, .any⟩,  -- fe.fade.state (04 T4-6)
  ⟨0x2400, 1024, 0xD, 1, 1, .time80, 10, .ro, .num 0, .any⟩,  -- fe.fade.end (04 T4-6)
  ⟨0x2400, 1024, 0xE, 1, 1, .bool, 1, .rw, .num 0x1, .any⟩,  -- fe.sync.enable (04 T4-6)
  ⟨0x2400, 1024, 0xF, 1, 1, .u64, 8, .rw, .num 0, .span 0 1099511627775⟩,  -- fe.settle.bind (04 T4-6)
  ⟨0x2400, 1024, 0x10, 1, 1, .bool, 1, .rw, .num 0, .any⟩,  -- fe.fill.keep (04 T4-6)
  ⟨0x2400, 1024, 0x11, 1, 1, .u8, 1, .rw, .num 0, .span 0 2⟩,  -- fe.edge.stage (04 T4-6)
  ⟨0x2400, 1024, 0x12, 1, 1, .u8, 1, .rw, .num 0, .span 0 1⟩,  -- fe.edge.quantity (04 T4-6)
  ⟨0x2400, 1024, 0x13, 1, 1, .i16, 2, .rw, .num 0, .any⟩,  -- fe.edge.level (04 T4-6)
  ⟨0x2400, 1024, 0x14, 1, 1, .u16, 2, .rw, .num 0, .any⟩,  -- fe.edge.hyst (04 T4-6)
  ⟨0x2400, 1024, 0x15, 1, 1, .u8, 1, .rw, .num 0, .span 0 2⟩,  -- fe.edge.slope (04 T4-6)
  ⟨0x2400, 1024, 0x16, 1, 1, .u16, 2, .rw, .num 0x10, .span 16 65535⟩,  -- fe.edge.dead (04 T4-6)
  ⟨0x2400, 1024, 0x17, 1, 1, .u8, 1, .rw, .num 0, .any⟩,  -- fe.edge.pins (04 T4-6)
  ⟨0x2400, 1024, 0x18, 1, 1, .u16, 2, .rw, .num 0x8, .span 1 65535⟩,  -- fe.edge.width (04 T4-6)
  ⟨0x2400, 1024, 0x19, 1, 1, .u64, 8, .ro, .num 0, .any⟩,  -- fe.edge.count (04 T4-6)
  ⟨0x2400, 1024, 0x1A, 1, 1, .time80, 10, .ro, .num 0, .any⟩,  -- fe.edge.last (04 T4-6)
  ⟨0x2400, 1024, 0x1B, 1, 1, .u64, 8, .ro, .num 0, .any⟩,  -- fe.rate (04 T4-6)
  ⟨0x2400, 1024, 0x1C, 1, 1, .u64, 8, .ro, .num 0, .any⟩,  -- fe.gdelay (04 T4-6)
  ⟨0x2400, 1024, 0x1D, 1, 1, .u32, 4, .ro, .num 0, .any⟩,  -- fe.fill (04 T4-6)
  ⟨0x2400, 1024, 0x1E, 1, 1, .u64, 8, .ro, .num 0, .any⟩,  -- fe.sat.count (04 T4-6)
  ⟨0x2400, 1024, 0x1F, 1, 1, .time80, 10, .ro, .num 0, .any⟩  -- fe.fill.end (04 T4-6)
  ]

def rowsViews : List ObjRow := [
  ⟨0x2800, 512, 0x1, 1, 1, .bool, 1, .rw, .num 0, .any⟩,  -- view.enable (05 T5-6)
  ⟨0x2800, 512, 0x2, 1, 1, .u16, 2, .rw, .num 0, .span 0 1023⟩,  -- view.port.first (05 T5-6)
  ⟨0x2800, 512, 0x3, 1, 1, .u8, 1, .rw, .num 0x1, .span 1 64⟩,  -- view.port.count (05 T5-6)
  ⟨0x2800, 512, 0x4, 1, 1, .u32, 4, .rw, .num 0x400, .pow2 16 1048576⟩,  -- view.size (05 T5-6)
  ⟨0x2800, 512, 0x5, 1, 1, .u32, 4, .rw, .num 0x400, .span 1 1048576⟩,  -- view.hop (05 T5-6)
  ⟨0x2800, 512, 0x6, 1, 1, .u32, 4, .rw, .num 0, .any⟩,  -- view.offset (05 T5-6)
  ⟨0x2800, 512, 0x7, 1, 1, .u8, 1, .rw, .num 0x1, .span 0 6⟩,  -- view.window (05 T5-6)
  ⟨0x2800, 512, 0x8, 1, 1, .u32, 4, .rw, .num 0, .any⟩,  -- view.window.param (05 T5-6)
  ⟨0x2800, 512, 0x9, 1, 1, .blob, 262144, .rw, .num 0, .any⟩,  -- view.window.user (05 T5-6)
  ⟨0x2800, 512, 0xA, 1, 1, .blob, 262144, .ro, .num 0, .any⟩,  -- view.window.table (05 T5-6)
  ⟨0x2800, 512, 0xB, 1, 1, .i64, 8, .ro, .num 0, .any⟩,  -- view.window.sum (05 T5-6)
  ⟨0x2800, 512, 0xC, 1, 1, .u32, 4, .ro, .num 0, .any⟩,  -- view.enbw (05 T5-6)
  ⟨0x2800, 512, 0xD, 1, 1, .u8, 1, .rw, .num 0, .span 0 2⟩,  -- view.format (05 T5-6)
  ⟨0x2800, 512, 0xE, 1, 1, .u8, 1, .rw, .num 0, .span 0 4⟩,  -- view.detector (05 T5-6)
  ⟨0x2800, 512, 0xF, 1, 1, .u32, 4, .rw, .num 0, .any⟩,  -- view.bin.first (05 T5-6)
  ⟨0x2800, 512, 0x10, 1, 1, .u32, 4, .rw, .num 0x400, .span 1 1048576⟩,  -- view.bin.count (05 T5-6)
  ⟨0x2800, 512, 0x11, 1, 1, .u32, 4, .rw, .num 0x1, .span 1 65536⟩,  -- view.bin.decim (05 T5-6)
  ⟨0x2800, 512, 0x12, 1, 1, .u32, 4, .rw, .num 0x1, .span 1 16777216⟩,  -- view.time.decim (05 T5-6)
  ⟨0x2800, 512, 0x13, 1, 1, .u8, 1, .ro, .num 0, .any⟩,  -- view.epoch (05 T5-6)
  ⟨0x2800, 512, 0x14, 1, 1, .u64, 8, .ro, .num 0, .any⟩,  -- view.frames (05 T5-6)
  ⟨0x2800, 512, 0x15, 1, 1, .u64, 8, .ro, .num 0, .any⟩,  -- view.gaps (05 T5-6)
  ⟨0x2800, 512, 0x16, 1, 1, .u64, 8, .ro, .num 0, .any⟩,  -- view.clip.count (05 T5-6)
  ⟨0x2800, 512, 0x17, 1, 1, .u32, 4, .ro, .num 0, .any⟩,  -- view.cost (05 T5-6)
  ⟨0x2800, 512, 0x18, 1, 1, .u64, 8, .ro, .num 0, .any⟩,  -- view.poi (05 T5-6)
  ⟨0x2800, 512, 0x19, 1, 1, .bool, 1, .ro, .num 0, .any⟩,  -- view.suspended (05 T5-6)
  ⟨0x2800, 512, 0x1A, 1, 1, .time80, 10, .ro, .num 0, .any⟩  -- view.last (05 T5-6)
  ]

def rowsDensity : List ObjRow := [
  ⟨0x2A00, 64, 0x1, 1, 1, .bool, 1, .rw, .num 0, .any⟩,  -- dens.enable (06 T6-6)
  ⟨0x2A00, 64, 0x2, 1, 1, .u16, 2, .rw, .num 0, .span 0 511⟩,  -- dens.view (06 T6-6)
  ⟨0x2A00, 64, 0x3, 1, 1, .u16, 2, .rw, .num 0, .span 0 1023⟩,  -- dens.port (06 T6-6)
  ⟨0x2A00, 64, 0x4, 1, 1, .u64, 8, .rw, .num 0, .any⟩,  -- dens.dump.start (06 T6-6)
  ⟨0x2A00, 64, 0x5, 1, 1, .u64, 8, .rw, .num 0x17D78400, .span 400 281474976710656⟩,  -- dens.dump.interval (06 T6-6)
  ⟨0x2A00, 64, 0x6, 1, 1, .u8, 1, .rw, .num 0x4, .step 0 30 2⟩,  -- dens.reject (06 T6-6)
  ⟨0x2A00, 64, 0x7, 1, 1, .u64, 8, .rw, .num 0, .step 0 18446744073709547520 4096⟩,  -- dens.ring.base (06 T6-6)
  ⟨0x2A00, 64, 0x8, 1, 1, .u64, 8, .rw, .num 0, .any⟩,  -- dens.ring.size (06 T6-6)
  ⟨0x2A00, 64, 0x9, 1, 1, .u64, 8, .ro, .num 0, .any⟩,  -- dens.ring.wptr (06 T6-6)
  ⟨0x2A00, 64, 0xA, 1, 1, .u64, 8, .ro, .num 0, .any⟩,  -- dens.dumps (06 T6-6)
  ⟨0x2A00, 64, 0xB, 1, 1, .u64, 8, .ro, .num 0, .any⟩,  -- dens.frames.rejected (06 T6-6)
  ⟨0x2A00, 64, 0xC, 1, 1, .u64, 8, .ro, .num 0, .any⟩,  -- dens.saturations (06 T6-6)
  ⟨0x2A00, 64, 0xD, 1, 1, .cmd, 0, .cmd, .num 0, .any⟩,  -- dens.clear (06 T6-6)
  ⟨0x2A00, 64, 0x10, 1, 1, .u8, 1, .rw, .num 0, .span 0 1⟩,  -- dens.mode (06 T6-7)
  ⟨0x2A00, 64, 0x11, 1, 1, .u16, 2, .rw, .num 0x1, .any⟩,  -- dens.col.decim (06 T6-7)
  ⟨0x2A00, 64, 0x12, 1, 1, .u16, 2, .rw, .num 0x100, .span 1 1024⟩,  -- dens.rows (06 T6-7)
  ⟨0x2A00, 64, 0x13, 1, 1, .i16, 2, .rw, .num 0, .any⟩,  -- dens.top (06 T6-7)
  ⟨0x2A00, 64, 0x14, 1, 1, .u16, 2, .rw, .num 0x80, .span 1 32767⟩,  -- dens.step (06 T6-7)
  ⟨0x2A00, 64, 0x15, 1, 1, .u64, 8, .rw, .num 0, .spanPlus 400 281474976710656 0⟩,  -- dens.decay.interval (06 T6-7)
  ⟨0x2A00, 64, 0x16, 1, 1, .u32, 4, .rw, .num 0x10000, .span 0 65536⟩,  -- dens.decay.factor (06 T6-7)
  ⟨0x2A00, 64, 0x17, 1, 1, .u64, 8, .rw, .num 0, .any⟩,  -- dens.image (06 T6-7)
  ⟨0x2A00, 64, 0x18, 1, 1, .u64, 8, .ro, .num 0, .any⟩,  -- dens.clip (06 T6-7)
  ⟨0x2A00, 64, 0x19, 1, 1, .u16, 2, .ro, .num 0, .any⟩,  -- dens.cols (06 T6-7)
  ⟨0x2A00, 64, 0x20, 1, 1, .bool, 1, .rw, .num 0, .any⟩,  -- occ.enable (07 T7-10)
  ⟨0x2A00, 64, 0x21, 1, 1, .u16, 2, .rw, .num 0, .any⟩,  -- occ.col.first (07 T7-10)
  ⟨0x2A00, 64, 0x22, 1, 1, .u16, 2, .rw, .num 0x1, .span 1 4096⟩,  -- occ.col.count (07 T7-10)
  ⟨0x2A00, 64, 0x23, 1, 1, .u16, 2, .rw, .num 0, .any⟩,  -- occ.row.first (07 T7-10)
  ⟨0x2A00, 64, 0x24, 1, 1, .u16, 2, .rw, .num 0x1, .span 1 1024⟩,  -- occ.row.count (07 T7-10)
  ⟨0x2A00, 64, 0x25, 1, 1, .u32, 4, .rw, .num 0x1, .span 1 4294967295⟩,  -- occ.count (07 T7-10)
  ⟨0x2A00, 64, 0x26, 1, 1, .u32, 4, .rw, .num 0, .any⟩,  -- occ.rearm (07 T7-10)
  ⟨0x2A00, 64, 0x27, 1, 1, .u8, 1, .rw, .num 0, .any⟩,  -- occ.pins (07 T7-10)
  ⟨0x2A00, 64, 0x28, 1, 1, .u8, 1, .ro, .num 0, .any⟩,  -- occ.state (07 T7-10)
  ⟨0x2A00, 64, 0x29, 1, 1, .u64, 8, .ro, .num 0, .any⟩,  -- occ.sum (07 T7-10)
  ⟨0x2A00, 64, 0x2A, 1, 1, .u64, 8, .ro, .num 0, .any⟩,  -- occ.events (07 T7-10)
  ⟨0x2A00, 64, 0x2B, 1, 1, .time80, 10, .ro, .num 0, .any⟩  -- occ.last (07 T7-10)
  ]

def rowsSpectrograms : List ObjRow := [
  ⟨0x2A40, 64, 0x1, 1, 1, .bool, 1, .rw, .num 0, .any⟩,  -- spg.enable (06 T6-8)
  ⟨0x2A40, 64, 0x2, 1, 1, .u16, 2, .rw, .num 0, .span 0 511⟩,  -- spg.view (06 T6-8)
  ⟨0x2A40, 64, 0x3, 1, 1, .u16, 2, .rw, .num 0, .span 0 1023⟩,  -- spg.port (06 T6-8)
  ⟨0x2A40, 64, 0x4, 1, 1, .u32, 4, .rw, .num 0x400, .span 1 65536⟩,  -- spg.rows (06 T6-8)
  ⟨0x2A40, 64, 0x5, 1, 1, .u64, 8, .rw, .num 0, .step 0 18446744073709547520 4096⟩,  -- spg.image (06 T6-8)
  ⟨0x2A40, 64, 0x6, 1, 1, .u64, 8, .rw, .num 0, .step 0 18446744073709551552 64⟩,  -- spg.header (06 T6-8)
  ⟨0x2A40, 64, 0x7, 1, 1, .u64, 8, .ro, .num 0, .any⟩,  -- spg.seq (06 T6-8)
  ⟨0x2A40, 64, 0x8, 1, 1, .u32, 4, .ro, .num 0, .any⟩,  -- spg.points (06 T6-8)
  ⟨0x2A40, 64, 0x9, 1, 1, .u32, 4, .ro, .num 0, .any⟩  -- spg.pitch (06 T6-8)
  ]

def rowsCrossPower : List ObjRow := [
  ⟨0x2B00, 512, 0x1, 1, 1, .bool, 1, .rw, .num 0, .any⟩,  -- xp.enable (06 T6-6)
  ⟨0x2B00, 512, 0x2, 1, 1, .u16, 2, .rw, .num 0, .span 0 511⟩,  -- xp.view (06 T6-6)
  ⟨0x2B00, 512, 0x3, 1, 1, .u16, 2, .rw, .num 0, .span 0 1023⟩,  -- xp.port (06 T6-6)
  ⟨0x2B00, 512, 0x4, 1, 1, .u64, 8, .rw, .num 0, .any⟩,  -- xp.dump.start (06 T6-6)
  ⟨0x2B00, 512, 0x5, 1, 1, .u64, 8, .rw, .num 0x17D78400, .span 400 281474976710656⟩,  -- xp.dump.interval (06 T6-6)
  ⟨0x2B00, 512, 0x6, 1, 1, .u8, 1, .rw, .num 0x4, .step 0 30 2⟩,  -- xp.reject (06 T6-6)
  ⟨0x2B00, 512, 0x7, 1, 1, .u64, 8, .rw, .num 0, .step 0 18446744073709547520 4096⟩,  -- xp.ring.base (06 T6-6)
  ⟨0x2B00, 512, 0x8, 1, 1, .u64, 8, .rw, .num 0, .any⟩,  -- xp.ring.size (06 T6-6)
  ⟨0x2B00, 512, 0x9, 1, 1, .u64, 8, .ro, .num 0, .any⟩,  -- xp.ring.wptr (06 T6-6)
  ⟨0x2B00, 512, 0xA, 1, 1, .u64, 8, .ro, .num 0, .any⟩,  -- xp.dumps (06 T6-6)
  ⟨0x2B00, 512, 0xB, 1, 1, .u64, 8, .ro, .num 0, .any⟩,  -- xp.frames.rejected (06 T6-6)
  ⟨0x2B00, 512, 0xC, 1, 1, .u64, 8, .ro, .num 0, .any⟩,  -- xp.saturations (06 T6-6)
  ⟨0x2B00, 512, 0xD, 1, 1, .cmd, 0, .cmd, .num 0, .any⟩,  -- xp.clear (06 T6-6)
  ⟨0x2B00, 512, 0x10, 1, 1, .u16, 2, .rw, .num 0, .span 0 511⟩,  -- xp.view.y (06 T6-7)
  ⟨0x2B00, 512, 0x11, 1, 1, .u16, 2, .rw, .num 0, .span 0 1023⟩,  -- xp.port.y (06 T6-7)
  ⟨0x2B00, 512, 0x12, 1, 1, .u32, 4, .rw, .num 0x1, .span 1 65536⟩,  -- xp.chan.decim (06 T6-7)
  ⟨0x2B00, 512, 0x13, 1, 1, .u8, 1, .rw, .num 0, .span 0 127⟩,  -- xp.shift (06 T6-7)
  ⟨0x2B00, 512, 0x14, 1, 1, .u64, 8, .ro, .num 0, .any⟩  -- xp.unpaired (06 T6-7)
  ]

def rowsIntegrators : List ObjRow := [
  ⟨0x2D00, 256, 0x1, 1, 1, .bool, 1, .rw, .num 0, .any⟩,  -- int.enable (06 T6-6)
  ⟨0x2D00, 256, 0x2, 1, 1, .u16, 2, .rw, .num 0, .span 0 511⟩,  -- int.view (06 T6-6)
  ⟨0x2D00, 256, 0x3, 1, 1, .u16, 2, .rw, .num 0, .span 0 1023⟩,  -- int.port (06 T6-6)
  ⟨0x2D00, 256, 0x4, 1, 1, .u64, 8, .rw, .num 0, .any⟩,  -- int.dump.start (06 T6-6)
  ⟨0x2D00, 256, 0x5, 1, 1, .u64, 8, .rw, .num 0x17D78400, .span 400 281474976710656⟩,  -- int.dump.interval (06 T6-6)
  ⟨0x2D00, 256, 0x6, 1, 1, .u8, 1, .rw, .num 0x4, .step 0 30 2⟩,  -- int.reject (06 T6-6)
  ⟨0x2D00, 256, 0x7, 1, 1, .u64, 8, .rw, .num 0, .step 0 18446744073709547520 4096⟩,  -- int.ring.base (06 T6-6)
  ⟨0x2D00, 256, 0x8, 1, 1, .u64, 8, .rw, .num 0, .any⟩,  -- int.ring.size (06 T6-6)
  ⟨0x2D00, 256, 0x9, 1, 1, .u64, 8, .ro, .num 0, .any⟩,  -- int.ring.wptr (06 T6-6)
  ⟨0x2D00, 256, 0xA, 1, 1, .u64, 8, .ro, .num 0, .any⟩,  -- int.dumps (06 T6-6)
  ⟨0x2D00, 256, 0xB, 1, 1, .u64, 8, .ro, .num 0, .any⟩,  -- int.frames.rejected (06 T6-6)
  ⟨0x2D00, 256, 0xC, 1, 1, .u64, 8, .ro, .num 0, .any⟩,  -- int.saturations (06 T6-6)
  ⟨0x2D00, 256, 0xD, 1, 1, .cmd, 0, .cmd, .num 0, .any⟩,  -- int.clear (06 T6-6)
  ⟨0x2D00, 256, 0x10, 1, 1, .u8, 1, .rw, .num 0xFF, .spanPlus 0 7 255⟩,  -- int.sw (06 T6-7)
  ⟨0x2D00, 256, 0x11, 1, 1, .u32, 4, .rw, .num 0, .any⟩,  -- int.guard (06 T6-7)
  ⟨0x2D00, 256, 0x12, 1, 1, .u32, 4, .rw, .num 0x1, .span 1 65536⟩,  -- int.chan.decim (06 T6-7)
  ⟨0x2D00, 256, 0x13, 1, 1, .u8, 1, .rw, .num 0, .span 0 127⟩,  -- int.shift (06 T6-7)
  ⟨0x2D00, 256, 0x14, 1, 1, .u64, 8, .ro, .num 0, .any⟩  -- int.blanked (06 T6-7)
  ]

def rowsContexts : List ObjRow := [
  ⟨0x3000, 1024, 0x1, 1, 1, .bool, 1, .rw, .num 0, .any⟩,  -- ctx.enable (08 T8-9)
  ⟨0x3000, 1024, 0x2, 1, 1, .blob, 128, .rw, .num 0, .any⟩,  -- ctx.expr (08 T8-9)
  ⟨0x3000, 1024, 0x3, 1, 1, .u8, 1, .rw, .num 0, .span 0 1⟩,  -- ctx.mode (08 T8-9)
  ⟨0x3000, 1024, 0x4, 1, 1, .u64, 8, .rw, .num 0, .span 0 17592186044416⟩,  -- ctx.pre (08 T8-9)
  ⟨0x3000, 1024, 0x5, 1, 1, .u64, 8, .rw, .num 0x61A80, .span 1 17592186044416⟩,  -- ctx.post (08 T8-9)
  ⟨0x3000, 1024, 0x6, 1, 1, .bool, 1, .rw, .num 0, .any⟩,  -- ctx.extend (08 T8-9)
  ⟨0x3000, 1024, 0x7, 1, 1, .u64, 8, .rw, .num 0x61A80, .any⟩,  -- ctx.rec.max (08 T8-9)
  ⟨0x3000, 1024, 0x8, 1, 1, .u8, 1, .rw, .num 0, .span 0 1⟩,  -- ctx.holdoff.mode (08 T8-9)
  ⟨0x3000, 1024, 0x9, 1, 1, .u64, 8, .rw, .num 0, .any⟩,  -- ctx.holdoff (08 T8-9)
  ⟨0x3000, 1024, 0xA, 1, 1, .blob, 64, .rw, .num 0, .any⟩,  -- ctx.capture (08 T8-9)
  ⟨0x3000, 1024, 0xB, 1, 1, .u8, 1, .rw, .num 0, .span 0 3⟩,  -- ctx.dest.kind (08 T8-9)
  ⟨0x3000, 1024, 0xC, 1, 1, .u16, 2, .rw, .num 0, .any⟩,  -- ctx.dest.num (08 T8-9)
  ⟨0x3000, 1024, 0xD, 1, 1, .u16, 2, .rw, .num 0xFFFF, .spans [(1, 8), (0x8000, 0x801F), (0xFFFF, 0xFFFF)]⟩,  -- ctx.meas.prog (08 T8-9)
  ⟨0x3000, 1024, 0xE, 1, 1, .u8, 1, .rw, .num 0, .span 0 15⟩,  -- ctx.meas.entry (08 T8-9)
  ⟨0x3000, 1024, 0xF, 1, 1, .blob, 256, .rw, .num 0, .any⟩,  -- ctx.meas.params (08 T8-9)
  ⟨0x3000, 1024, 0x10, 1, 1, .u32, 4, .rw, .num 0xF4240, .span 1 4294967295⟩,  -- ctx.meas.budget (08 T8-9)
  ⟨0x3000, 1024, 0x11, 1, 1, .cmd, 0, .cmd, .num 0, .any⟩,  -- ctx.arm (08 T8-9)
  ⟨0x3000, 1024, 0x12, 1, 1, .cmd, 0, .cmd, .num 0, .any⟩,  -- ctx.abort (08 T8-9)
  ⟨0x3000, 1024, 0x13, 1, 1, .u8, 1, .ro, .num 0, .any⟩,  -- ctx.state (08 T8-9)
  ⟨0x3000, 1024, 0x14, 1, 1, .u8, 1, .ro, .num 0, .any⟩,  -- ctx.gen (08 T8-9)
  ⟨0x3000, 1024, 0x15, 1, 1, .u64, 8, .ro, .num 0, .any⟩,  -- ctx.records (08 T8-9)
  ⟨0x3000, 1024, 0x16, 1, 1, .u64, 8, .ro, .num 0, .any⟩,  -- ctx.completed (08 T8-9)
  ⟨0x3000, 1024, 0x17, 1, 1, .u64, 8, .ro, .num 0, .any⟩,  -- ctx.retriggers (08 T8-9)
  ⟨0x3000, 1024, 0x18, 1, 1, .u64, 8, .ro, .num 0, .any⟩,  -- ctx.ignored (08 T8-9)
  ⟨0x3000, 1024, 0x19, 1, 1, .u32, 4, .ro, .num 0, .any⟩,  -- ctx.aborts (08 T8-9)
  ⟨0x3000, 1024, 0x1A, 1, 1, .time80, 10, .ro, .num 0, .any⟩  -- ctx.last (08 T8-9)
  ]

def rowsMasks : List ObjRow := [
  ⟨0x3400, 256, 0x1, 1, 1, .bool, 1, .rw, .num 0, .any⟩,  -- mask.enable (07 T7-9)
  ⟨0x3400, 256, 0x2, 1, 1, .u16, 2, .rw, .num 0, .span 0 511⟩,  -- mask.view (07 T7-9)
  ⟨0x3400, 256, 0x3, 1, 1, .u16, 2, .rw, .num 0, .span 0 1023⟩,  -- mask.port (07 T7-9)
  ⟨0x3400, 256, 0x4, 1, 1, .u32, 4, .rw, .num 0x1, .span 1 65536⟩,  -- mask.points (07 T7-9)
  ⟨0x3400, 256, 0x5, 1, 1, .blob, 262144, .rw, .maskNoLimits, .any⟩,  -- mask.table (07 T7-9)
  ⟨0x3400, 256, 0x6, 1, 1, .u32, 4, .rw, .num 0x1, .span 1 4294967295⟩,  -- mask.k (07 T7-9)
  ⟨0x3400, 256, 0x7, 1, 1, .u8, 1, .rw, .num 0x1, .span 1 255⟩,  -- mask.m (07 T7-9)
  ⟨0x3400, 256, 0x8, 1, 1, .u8, 1, .rw, .num 0x1, .span 1 64⟩,  -- mask.j (07 T7-9)
  ⟨0x3400, 256, 0x9, 1, 1, .u16, 2, .rw, .num 0, .span 0 32767⟩,  -- mask.hyst (07 T7-9)
  ⟨0x3400, 256, 0xA, 1, 1, .u8, 1, .rw, .num 0x1, .span 1 64⟩,  -- mask.rearm (07 T7-9)
  ⟨0x3400, 256, 0xB, 1, 1, .u8, 1, .rw, .num 0x4, .step 0 30 2⟩,  -- mask.reject (07 T7-9)
  ⟨0x3400, 256, 0xC, 1, 1, .u8, 1, .rw, .num 0, .any⟩,  -- mask.pins (07 T7-9)
  ⟨0x3400, 256, 0xD, 1, 1, .u8, 1, .ro, .num 0, .any⟩,  -- mask.state (07 T7-9)
  ⟨0x3400, 256, 0xE, 1, 1, .u64, 8, .ro, .num 0, .any⟩,  -- mask.history (07 T7-9)
  ⟨0x3400, 256, 0xF, 1, 1, .u64, 8, .ro, .num 0, .any⟩,  -- mask.spectra (07 T7-9)
  ⟨0x3400, 256, 0x10, 1, 1, .u64, 8, .ro, .num 0, .any⟩,  -- mask.rejected (07 T7-9)
  ⟨0x3400, 256, 0x11, 1, 1, .u64, 8, .ro, .num 0, .any⟩,  -- mask.events (07 T7-9)
  ⟨0x3400, 256, 0x12, 1, 1, .time80, 10, .ro, .num 0, .any⟩  -- mask.last (07 T7-9)
  ]

def rowsTrestle : List ObjRow := [
  ⟨0x3500, 32, 0x1, 1, 1, .blob, 295096, .rw, .num 0, .any⟩,  -- tr.image (09 T9-14)
  ⟨0x3500, 32, 0x2, 1, 1, .bool, 1, .ro, .num 0, .any⟩,  -- tr.loaded (09 T9-14)
  ⟨0x3500, 32, 0x3, 1, 1, .blob, 48, .ro, .num 0, .any⟩,  -- tr.digest (09 T9-14)
  ⟨0x3500, 32, 0x4, 1, 1, .cmd, 0, .cmd, .num 0, .any⟩,  -- tr.clear (09 T9-14)
  ⟨0x3500, 32, 0x5, 1, 1, .u64, 8, .ro, .num 0, .any⟩,  -- tr.records (09 T9-14)
  ⟨0x3500, 32, 0x6, 1, 1, .u64, 8, .ro, .num 0, .any⟩,  -- tr.faults (09 T9-14)
  ⟨0x3500, 32, 0x7, 1, 1, .u64, 8, .ro, .num 0, .any⟩,  -- tr.budgets (09 T9-14)
  ⟨0x3500, 32, 0x8, 1, 1, .u16, 2, .ro, .num 0, .any⟩,  -- tr.fault.cause (09 T9-14)
  ⟨0x3500, 32, 0x9, 1, 1, .u16, 2, .ro, .num 0, .any⟩  -- tr.fault.pc (09 T9-14)
  ]

def rowsPins0 : List ObjRow := [
  ⟨0x3600, 1, 0x1, 1, 1, .u32, 4, .rw, .num 0, .any⟩,  -- fectl.level (06 T6-9)
  ⟨0x3600, 1, 0x2, 1, 1, .blob, 65536, .rw, .num 0, .any⟩,  -- fectl.table (06 T6-9)
  ⟨0x3600, 1, 0x3, 1, 1, .u16, 2, .rw, .num 0, .span 0 4096⟩,  -- fectl.count (06 T6-9)
  ⟨0x3600, 1, 0x4, 1, 1, .u8, 1, .rw, .num 0, .span 0 1⟩,  -- fectl.mode (06 T6-9)
  ⟨0x3600, 1, 0x5, 1, 1, .u64, 8, .rw, .num 0, .any⟩,  -- fectl.period (06 T6-9)
  ⟨0x3610, 8, 0x1, 1, 1, .bool, 1, .rw, .num 0, .any⟩,  -- sw.enable (06 T6-9)
  ⟨0x3610, 8, 0x2, 1, 1, .u64, 8, .rw, .num 0, .any⟩,  -- sw.start (06 T6-9)
  ⟨0x3610, 8, 0x3, 1, 1, .u32, 4, .rw, .num 0x61A80, .span 2 4294967295⟩,  -- sw.period (06 T6-9)
  ⟨0x3610, 8, 0x4, 1, 1, .u8, 1, .rw, .num 0x2, .span 1 4⟩,  -- sw.phases (06 T6-9)
  ⟨0x3610, 8, 0x5, 1, 1, .u32, 4, .rw, .num 0x30D40, .any⟩,  -- sw.bound1 (06 T6-9)
  ⟨0x3610, 8, 0x6, 1, 1, .u32, 4, .rw, .num 0, .any⟩,  -- sw.bound2 (06 T6-9)
  ⟨0x3610, 8, 0x7, 1, 1, .u32, 4, .rw, .num 0, .any⟩,  -- sw.bound3 (06 T6-9)
  ⟨0x3610, 8, 0x8, 1, 1, .u8, 1, .rw, .num 0x2, .any⟩,  -- sw.levels (06 T6-9)
  ⟨0x3610, 8, 0x9, 1, 1, .u8, 1, .ro, .num 0xFF, .any⟩,  -- sw.phase (06 T6-9)
  ⟨0x3620, 8, 0x1, 1, 1, .u8, 1, .rw, .num 0, .span 0 3⟩,  -- trigi.edge (07 T7-11)
  ⟨0x3620, 8, 0x2, 1, 1, .i32, 4, .rw, .num 0, .any⟩,  -- trigi.delay (07 T7-11)
  ⟨0x3620, 8, 0x3, 1, 1, .u16, 2, .rw, .num 0x4, .span 1 65535⟩,  -- trigi.dead (07 T7-11)
  ⟨0x3620, 8, 0x4, 1, 1, .u8, 1, .rw, .num 0, .any⟩,  -- trigi.pins (07 T7-11)
  ⟨0x3620, 8, 0x5, 1, 1, .u64, 8, .ro, .num 0, .any⟩,  -- trigi.count (07 T7-11)
  ⟨0x3620, 8, 0x6, 1, 1, .time80, 10, .ro, .num 0, .any⟩,  -- trigi.last (07 T7-11)
  ⟨0x3620, 8, 0x7, 1, 1, .bool, 1, .ro, .num 0, .any⟩,  -- trigi.level (07 T7-11)
  ⟨0x3628, 8, 0x1, 1, 1, .u16, 2, .rw, .num 0x8, .span 1 65535⟩,  -- trigo.width (07 T7-11)
  ⟨0x3628, 8, 0x2, 1, 1, .u64, 8, .ro, .num 0, .any⟩,  -- trigo.count (07 T7-11)
  ⟨0x3630, 1, 0x1, 16, 1, .cmd, 0, .cmd, .num 0, .any⟩,  -- trig.cmd (07 T7-11)
  ⟨0x3630, 1, 0x11, 1, 1, .u8, 1, .rw, .num 0, .any⟩,  -- trig.cmd.pins (07 T7-11)
  ⟨0x3630, 1, 0x12, 16, 1, .u8, 1, .rw, .num 0, .any⟩,  -- trig.mon.pins (07 T7-11)
  ⟨0x3631, 1, 0x1, 1, 1, .bool, 1, .rw, .num 0, .any⟩,  -- trig.log.enable (07 T7-11)
  ⟨0x3631, 1, 0x2, 1, 1, .u8, 1, .rw, .num 0x7E, .span 0 127⟩,  -- trig.log.kinds (07 T7-11)
  ⟨0x3631, 1, 0x3, 1, 1, .u64, 8, .rw, .num 0, .step 0 18446744073709547520 4096⟩,  -- trig.log.base (07 T7-11)
  ⟨0x3631, 1, 0x4, 1, 1, .u64, 8, .rw, .num 0, .any⟩,  -- trig.log.size (07 T7-11)
  ⟨0x3631, 1, 0x5, 1, 1, .u64, 8, .ro, .num 0, .any⟩,  -- trig.log.wptr (07 T7-11)
  ⟨0x3631, 1, 0x6, 1, 1, .u32, 4, .rw, .num 0xFA0, .span 400 4000000⟩,  -- rtrig.timeout (07 T7-11)
  ⟨0x3640, 64, 0x1, 1, 1, .u16, 2, .rw, .num 0, .spans [(0, 0), (0x1000, 0x13FF), (0x2000, 0x20FF), (0x3000, 0x303F), (0x4000, 0x400F), (0x5000, 0x5007), (0x7000, 0x700F)]⟩,  -- rtrig.publish (07 T7-11)
  ⟨0x3640, 64, 0x2, 1, 1, .u8, 1, .rw, .num 0, .span 0 1⟩,  -- rtrig.scope (07 T7-11)
  ⟨0x3640, 64, 0x3, 1, 1, .u16, 2, .rw, .num 0xFFFF, .any⟩,  -- rtrig.from (07 T7-11)
  ⟨0x3640, 64, 0x4, 1, 1, .u8, 1, .rw, .num 0, .any⟩,  -- rtrig.pins (07 T7-11)
  ⟨0x3640, 64, 0x5, 1, 1, .u8, 1, .ro, .num 0, .any⟩,  -- rtrig.state (07 T7-11)
  ⟨0x3640, 64, 0x6, 1, 1, .time80, 10, .ro, .num 0, .any⟩,  -- rtrig.watermark (07 T7-11)
  ⟨0x3640, 64, 0x7, 1, 1, .u64, 8, .ro, .num 0, .any⟩,  -- rtrig.events (07 T7-11)
  ⟨0x3640, 64, 0x8, 1, 1, .u64, 8, .ro, .num 0, .any⟩  -- rtrig.foreign (07 T7-11)
  ]

def rowsPins1 : List ObjRow := [
  ⟨0x3640, 64, 0x9, 1, 1, .u64, 8, .ro, .num 0, .any⟩  -- rtrig.late (07 T7-11)
  ]

def rowsPins : List ObjRow := rowsPins0 ++ rowsPins1

/-- The rows of the range an index lies in (13 Table 13-5). -/
def rowsAt (ix : Nat) : List ObjRow :=
  if 0x1000 ≤ ix ∧ ix ≤ 0x10FF then rowsIdentity else
  if 0x1100 ≤ ix ∧ ix ≤ 0x11FF then rowsSecurity else
  if 0x1200 ≤ ix ∧ ix ≤ 0x12FF then rowsTollhouse else
  if 0x1300 ≤ ix ∧ ix ≤ 0x13FF then rowsCalMon else
  if 0x1400 ≤ ix ∧ ix ≤ 0x14FF then rowsTimebase else
  if 0x1500 ≤ ix ∧ ix ≤ 0x15FF then rowsIngest else
  if 0x1600 ≤ ix ∧ ix ≤ 0x16FF then rowsTruss else
  if 0x1700 ≤ ix ∧ ix ≤ 0x171F then rowsNetwork else
  if 0x1720 ≤ ix ∧ ix ≤ 0x174F then rowsPelpin else
  if 0x1800 ≤ ix ∧ ix ≤ 0x18FF then rowsDisplay else
  if 0x1900 ≤ ix ∧ ix ≤ 0x19FF then rowsMemory else
  if 0x1A00 ≤ ix ∧ ix ≤ 0x1AFF then rowsRecorder else
  if 0x1B00 ≤ ix ∧ ix ≤ 0x1BFF then rowsMovers else
  if 0x2000 ≤ ix ∧ ix ≤ 0x23FF then rowsPorts else
  if 0x2400 ≤ ix ∧ ix ≤ 0x27FF then rowsFrontEnds else
  if 0x2800 ≤ ix ∧ ix ≤ 0x29FF then rowsViews else
  if 0x2A00 ≤ ix ∧ ix ≤ 0x2A3F then rowsDensity else
  if 0x2A40 ≤ ix ∧ ix ≤ 0x2A7F then rowsSpectrograms else
  if 0x2B00 ≤ ix ∧ ix ≤ 0x2CFF then rowsCrossPower else
  if 0x2D00 ≤ ix ∧ ix ≤ 0x2DFF then rowsIntegrators else
  if 0x3000 ≤ ix ∧ ix ≤ 0x33FF then rowsContexts else
  if 0x3400 ≤ ix ∧ ix ≤ 0x34FF then rowsMasks else
  if 0x3500 ≤ ix ∧ ix ≤ 0x351F then rowsTrestle else
  if 0x3600 ≤ ix ∧ ix ≤ 0x36FF then rowsPins else
  []

/-- Does the row hold the object of index ix and subindex sb? -/
def ObjRow.holds (r : ObjRow) (ix sb : Nat) : Bool :=
  r.ix ≤ ix && ix < r.ix + r.ixs && r.sub ≤ sb && sb < r.sub + r.subs * r.stride && (sb - r.sub) % r.stride == 0

/-- The row of an object key, where the object is implemented (13 R350). Layer indexes 4h + 3 are not implemented
(16: a head has layers 0 to 2). -/
def rowOf (k : Nat) : Option ObjRow :=
  let ix := k / 256
  if ix = 0x180B ∨ ix = 0x180F then none else (rowsAt ix).find? (·.holds ix (k % 256))

/-- Is any object implemented at this index (13 R350)? -/
def indexImplemented (ix : Nat) : Bool :=
  ix != 0x180B && ix != 0x180F && (rowsAt ix).any fun r => r.ix ≤ ix && ix < r.ix + r.ixs

/-- The highest subindex implemented at an index, the value of its subindex 0x00 (13 R350). -/
def highestSub (ix : Nat) : Nat :=
  ((rowsAt ix).filter fun r => r.ix ≤ ix && ix < r.ix + r.ixs).foldl (fun m r => max m (r.sub + (r.subs - 1) * r.stride)) 0

/-- mask.table's default: every entry UPPER 32,767 and LOWER −32,768 (07 Table 7-6), bytes FF 7F 00 80 repeated. -/
def maskNoLimits : Nat := 0x80007FFF * ((2 ^ (32 * 65536) - 1) / (2 ^ 32 - 1))

/-- Default calibration periods of units 0 to 5 (17 Table 17-1). -/
def calPeriodDefault (unit : Nat) : Nat :=
  if unit = 0 then 40000000000 else if unit = 3 then 400000000 else 4000000000

/-- The default value of an object (13 R350, R354). Where a table gives none the default is 0 (DESIGN CHOICE,
notes/assumptions/6.md); "fused" values are constants of Config (notes/assumptions/7.md). -/
def defaultOf (k : Nat) : Nat :=
  match rowOf k with
  | none => 0
  | some r =>
    match r.dflt with
    | .num n => n
    | .fused => Config.fuse k % 2 ^ (8 * r.len)
    | .maskNoLimits => maskNoLimits
    | .calPeriod => calPeriodDefault (k / 256 - 0x1310)
    | .macBase => (Config.fuse 0x170001 + (k / 256 - 0x1700)) % 2 ^ 48

/-- The length in bytes of an object's type (13 Table 13-1). -/
def lenOf (k : Nat) : Nat :=
  match rowOf k with
  | some r => r.len
  | none => 0

/-- Is the type signed? -/
def ObjTy.signed : ObjTy → Bool
  | .i16 | .i32 | .i64 => true
  | _ => false

/-- The integer that a w-bit two's complement number stands for. -/
def toSigned (w v : Nat) : Int :=
  if v < 2 ^ (w - 1) then (v : Int) else (v : Int) - 2 ^ w

/-- The w-bit two's complement number of an integer. -/
def ofSigned (w : Nat) (i : Int) : Nat := (i % 2 ^ w).toNat

/-- Is a value inside a fixed range (01 R34 step 5)? -/
def Range.ok (r : Range) (v : Int) : Bool :=
  match r with
  | .any => true
  | .span lo hi => decide (lo ≤ v ∧ v ≤ hi)
  | .spanPlus lo hi extra => decide ((lo ≤ v ∧ v ≤ hi) ∨ v = extra)
  | .members vs => vs.contains v
  | .pow2 lo hi => (List.range 64).any fun i => decide (v = 2 ^ i ∧ (lo : Int) ≤ v ∧ v ≤ hi)
  | .step lo hi st => decide ((lo : Int) ≤ v ∧ v ≤ hi ∧ (v - lo) % st = 0)
  | .spans l => l.any fun x => decide (x.1 ≤ v ∧ v ≤ x.2)

end Sys2Proof.Machine
end

