-- ==== Sys2Proof/Syntax.lean ====
section
/-! DEFINITION. The commands: one constructor per row of spec/opcode_table.json, in the table's order. Operands name the
unit that acts and carry what the outside world supplies (measured offsets, received bytes, analog results). -/

namespace Sys2Proof

/-- The kinds of product builder with a dump interval (06 Table 6-1): density maps, cross-power pairs and integrators. -/
inductive BuilderKind where
  | dens
  | xp
  | int
  deriving DecidableEq, Repr

/-- The number of a kind in a record header (06 Table 6-2). -/
def BuilderKind.code : BuilderKind → Nat
  | .dens => 1
  | .xp => 2
  | .int => 3

/-- How many builders of a kind there are (06 Table 6-1). -/
def BuilderKind.count : BuilderKind → Nat
  | .dens => 64
  | .xp => 512
  | .int => 256

/-- The end markers that a multiblock carries: that of a multiblock, and that of an extended multiblock (03 R87). -/
structure EndMarkers where
  multiblock : Bool
  extended : Bool
  deriving DecidableEq, Repr

/-- A refresh of a channel, and the highest temperature that its DIMMs report with it (10 R279, Table 10-8). -/
structure RefreshDue where
  chan : Fin 16
  temp : BitVec 16
  deriving DecidableEq, Repr

/-- The end of start-up calibration: the items, by unit and number, whose sets failed, and the memory channels found populated (17 R464; 10 R288). -/
structure StartupCalibration where
  failed : List (Fin 6 × Fin 128)
  populated : BitVec 16
  deriving DecidableEq, Repr

/-- How a DRAM read ended (10 R281, R283). The syndrome bytes are those of Table 10-5. -/
inductive ReadEnd where
  | clean
  | corrected
  | uncorrectable (syndrome : Nat)
  deriving DecidableEq, Repr

/-- What training found on one memory channel (10 R269, R288, R289): DIMMs, ranks, capacity in bytes, a working setting, duration in ticks. -/
structure ChanReport where
  chan : Fin 16
  dimms : Nat
  ranks : Nat
  capacity : Nat
  works : Bool
  ticks : Nat
  temp : BitVec 16
  deriving DecidableEq, Repr

/-- The strap pins of 15 R400. -/
structure Straps where
  spanId : Fin 8
  nodeId : Fin 64
  spanX : Fin 8
  spanY : Fin 8
  spanCount : Fin 8
  deriving DecidableEq, Repr

/-- A source address of a received UDP request (13 R362, 14 R383). -/
structure NetAddr where
  mac : Nat
  ip : Nat
  udp : Nat
  deriving DecidableEq, Repr

/-- A PTP message after its checks (14 R384, R385). Times are Keystone times of the message timestamp point;
master times are TAI picoseconds. -/
inductive PtpMsg where
  | announce (master : Nat) (best : Bool)
  | sync (twoStep : Bool) (masterPs : Nat) (rx : KTime) (interval : Nat)
  | followUp (masterPs : Nat)
  | delayResp (masterPs : Nat)
  deriving DecidableEq, Repr

/-- What a place of the flash holds: whether its image is well formed and its key, signature and hash are right, and its header fields (18 R477). -/
structure FlashImage where
  authentic : Bool
  svn : Nat
  version : Nat
  hash : Nat
  deriving DecidableEq, Repr

/-- What the boot steps of 18 R478 read of the flash: the stage 1 copies, the firmware slots, and the boot record with its MAGIC and CRC (18 Table 18-1). -/
structure BootReport where
  copy0 : FlashImage
  copy1 : FlashImage
  slotA : FlashImage
  slotB : FlashImage
  recordOk : Bool
  recordActive : Fin 2
  recordSeq : Nat
  deriving DecidableEq, Repr

/-- What a host reset was (12 R323). -/
inductive HostResetKind where
  | flr | hot | linkLoss
  deriving DecidableEq, Repr

/-- The commands of the block, one per row of the operation table. -/
inductive Instr where
  -- rim, keystone
  | commitTakesEffect
  | linksCleanRestore
  | abutmentClear
  | boostRemoval
  | refclkLoss
  | refclkValid (offset : Int)
  | sysrefEdge
  | ppsEdge (rising : Bool) (pos : Fin 64)
  | ksLoad (v : Nat)
  | slewComplete
  | taiHoldover
  | lanePllLoss (pll : Fin 24)
  | loRelock
  | loLockConfirmed
  | loLockTimeout
  | loLockLoss
  | loRampSegment
  -- ingest
  | laneMultiblockRx (lane : Fin 128) (badHeaders : BitVec 32) (crcBad : Bool) (markers : EndMarkers) (octets : Bytes)
  | cdrLossOfLock (lane : Fin 128)
  | linkRelease (link : Fin 128)
  | pierRecoveryResume (pier : Fin 16)
  | pierFailedMarker (pier : Fin 16)
  | pierRestart (pier : Fin 16)
  | linkArrivalClear (link : Fin 128)
  -- front end
  | feInputSample (port : Fin 1024)
  | syncReset
  | syncNow
  | syncLEdge
  | trigoPulseEnd (pin : Fin 8)
  -- deck
  | frameDispatch (view : Fin 512) (port : Fin 1024) (girders : List (Fin 68))
  | frameComplete (girder : Fin 68) (checkOk : Bool) (memoryUe : Bool)
  | girderTimeout (girder : Fin 68)
  | spareReady (girder : Fin 68)
  | girderRetire (girder : Fin 68)
  -- products
  | productFrame (kind : BuilderKind) (n : Fin kind.count)
  | productRecordAcked (kind : BuilderKind) (n : Fin kind.count)
  | productClear (kind : BuilderKind) (n : Fin kind.count)
  | spectrogramTrace (n : Fin 64)
  | spectrogramRowAcked (n : Fin 64)
  | swBoundary (n : Fin 8)
  | fectlEvent
  -- triggers
  | maskSpectrum (m : Fin 256)
  | trigiEdge (n : Fin 8) (rising : Bool) (pos : Fin 64)
  | trigCmd (c : Fin 16)
  | rtrigWatermarkSend
  | rtrigStale (c : Fin 64)
  | exprEvent (ctx : Fin 1024)
  | ctxSettledAdvance (ctx : Fin 1024)
  | ctxArm (ctx : Fin 1024)
  | ctxAbort (ctx : Fin 1024)
  | trigLogEvent
  | trigLogAcked
  -- records
  | stagingSpaceGrant
  | extractBlockReturn (ctx : Fin 1024) (record : Nat)
  | trestleDispatch (core : Fin 32)
  | blockDelivered (core : Fin 32)
  | budgetExhausted (core : Fin 32)
  | recordDelivered (ctx : Fin 1024) (record : Nat)
  | completionEntryAcked
  | trClear (slot : Fin 32)
  -- trestle instructions: the core that executes, then the fields of Table 9-6
  | nop (core : Fin 32)
  | halt (core : Fin 32)
  | trap (core : Fin 32) (code : BitVec 8)
  | sync (core : Fin 32)
  | rete (core : Fin 32)
  | br (core : Fin 32) (cond : Fin 16) (target : BitVec 15)
  | call (core : Fin 32) (target : BitVec 15)
  | ret (core : Fin 32)
  | loop (core : Fin 32) (count : BitVec 16) (last : BitVec 15)
  | loopr (core : Fin 32) (ra : Fin 16) (last : BitVec 15)
  | movi (core : Fin 32) (rd : Fin 16) (imm : BitVec 24)
  | ld (core : Fin 32) (rd : Fin 16) (an : Fin 8) (off : BitVec 16) (mod : Fin 4)
  | st (core : Fin 32) (rd : Fin 16) (an : Fin 8) (off : BitVec 16) (mod : Fin 4)
  | lea (core : Fin 32) (ad : Fin 8) (an : Fin 8) (off : BitVec 16)
  | mvda (core : Fin 32) (ad : Fin 8) (ra : Fin 16)
  | mvad (core : Fin 32) (rd : Fin 16) (an : Fin 8)
  | add (core : Fin 32) (sat : Bool) (rd ra rb : Fin 16)
  | sub (core : Fin 32) (sat : Bool) (rd ra rb : Fin 16)
  | addi (core : Fin 32) (sat : Bool) (rd ra : Fin 16) (imm : BitVec 24)
  | neg (core : Fin 32) (sat : Bool) (rd ra : Fin 16)
  | abs (core : Fin 32) (sat : Bool) (rd ra : Fin 16)
  | mul (core : Fin 32) (sat : Bool) (rd ra rb : Fin 16)
  | shl (core : Fin 32) (sat : Bool) (rd ra : Fin 16) (n : BitVec 7)
  | asr (core : Fin 32) (sat : Bool) (rd ra : Fin 16) (n : BitVec 7)
  | min (core : Fin 32) (rd ra rb : Fin 16)
  | max (core : Fin 32) (rd ra rb : Fin 16)
  | cmp (core : Fin 32) (ra rb : Fin 16)
  | cmpi (core : Fin 32) (ra : Fin 16) (imm : BitVec 24)
  | and (core : Fin 32) (rd ra rb : Fin 16)
  | or (core : Fin 32) (rd ra rb : Fin 16)
  | xor (core : Fin 32) (rd ra rb : Fin 16)
  | lsr (core : Fin 32) (rd ra : Fin 16) (n : BitVec 7)
  | mpy (core : Fin 32) (sat : Bool) (ax : Fin 4) (ra rb : Fin 16)
  | mac (core : Fin 32) (sat : Bool) (ax : Fin 4) (ra rb : Fin 16)
  | msu (core : Fin 32) (sat : Bool) (ax : Fin 4) (ra rb : Fin 16)
  | adda (core : Fin 32) (sat : Bool) (ax ay : Fin 4)
  | suba (core : Fin 32) (sat : Bool) (ax ay : Fin 4)
  | clra (core : Fin 32) (ax : Fin 4)
  | ldac (core : Fin 32) (sat : Bool) (ax : Fin 4) (ra : Fin 16) (n : BitVec 7)
  | sha (core : Fin 32) (sat : Bool) (ax : Fin 4) (n : BitVec 7)
  | rnd (core : Fin 32) (sat : Bool) (rd : Fin 16) (ay : Fin 4) (n : BitVec 7)
  | mfa (core : Fin 32) (rd : Fin 16) (ay : Fin 4) (p : BitVec 7)
  | mta (core : Fin 32) (ax : Fin 4) (ra : Fin 16) (p : BitVec 7)
  | cmpa (core : Fin 32) (ax ay : Fin 4)
  | norm (core : Fin 32) (rd : Fin 16) (ay : Fin 4)
  | mula (core : Fin 32) (sat : Bool) (ax ay : Fin 4) (rb : Fin 16)
  | mfs (core : Fin 32) (rd : Fin 16) (imm : BitVec 24)
  | mff (core : Fin 32) (rd : Fin 16)
  | clrf (core : Fin 32) (imm : BitVec 24)
  | reservedOpcode (core : Fin 32)
  -- memory
  | bankSchedule (chan : Fin 16) (bank : Fin 256)
  | memReadComplete (chan : Fin 16) (result : ReadEnd)
  | rcdAlert (chan : Fin 16)
  | writeCrcError (chan : Fin 16)
  | remapComplete
  | refresh (due : RefreshDue)
  | selfRefreshEntry (chan : Fin 16)
  | selfRefreshExit (chan : Fin 16)
  | scrubRead (chan : Fin 16)
  | memSpeedReq (rate : Nat)
  | memchRetrain (chan : Fin 16)
  | trainingComplete (report : List ChanReport)
  -- ring and recorder
  | ringFlush (port : Fin 1024) (fe : Bool)
  | ringBlockWritten (port : Fin 1024) (fe : Bool)
  | ringSlabs (slabs : Nat)
  | nvmeWriteComplete (drive : Fin 4) (ok : Bool)
  | nvmeLinkLoss (drive : Fin 4)
  | manifestSigned
  | recDriveRestart (drive : Fin 4)
  | recNsFormat (ns : Fin 16)
  | recNsClose (ns : Fin 16)
  | recNsRead (ns : Fin 16) (offset count addr : Nat)
  | recNsReadDone (ns : Fin 16) (ok : Bool)
  -- host interface
  | accClear (byteEnables : BitVec 4) (value : BitVec 32)
  | registerWrite (bar2 : Bool) (offset : Nat) (byteEnables : BitVec 4) (value : BitVec 32)
  | apBaseWrite (byteEnables : BitVec 4) (value : BitVec 32)
  | apMoveDone
  | mboxSelWrite (byteEnables : BitVec 4) (value : BitVec 32)
  | mboxSnapshotDone
  | dcRead (bulk : Bool)
  | writeNow (bulk : Bool)
  | groupOpen
  | groupAdd (bulk : Bool)
  | groupCommit
  | groupDiscard
  | msixMessage (vector : Fin 64)
  | apertureAccess (write : Bool) (offset : Nat) (byteEnables : BitVec 4) (data : Bytes)
  | hostInterfaceReset (kind : HostResetKind)
  | hrEntryAcked (n : Fin 64)
  | hrRptrWrite (n : Fin 64) (byteEnables : BitVec 4) (value : BitVec 32)
  | mvTailWrite (m : Fin 16) (byteEnables : BitVec 4) (value : BitVec 32)
  | mvRun (m : Fin 16) (byteEnables : BitVec 4) (run : Bool)
  | mvResume (m : Fin 16) (byteEnables : BitVec 4)
  | mvSkip (m : Fin 16) (byteEnables : BitVec 4)
  | moverDescFetched (m : Fin 16) (readOk : Bool) (hostData : Bytes) (indexOk : Bool) (indexData : Bytes)
  | moverBurstDone (m : Fin 16) (readOk : Bool) (hostData : Bytes)
  | moverBarrierDone (m : Fin 16) (flushOk : Bool)
  -- Pelpin
  | pelpinRequestRx (iface : Fin 8) (src : NetAddr) (payload : Bytes)
  | pelpinRead
  | pelpinWrite
  | pelpinCommit
  | subscribe
  | bulkStage
  | bulkRead
  | bulkClear
  | open1
  | open3
  | close
  | notify (session : Fin 16) (sub : Fin 64)
  | sessionIdleTimeout (session : Fin 16)
  | open3Timeout (session : Fin 16)
  | groupAssemblyTimeout (session : Fin 16) (group : Fin 2)
  | boardLock
  | ppKeysLock
  | ppSessClose (session : Fin 16)
  -- network
  | ethFrameRx (iface : Fin 8) (fcsOk : Bool) (frame : Bytes)
  | netLinkUp (port : Fin 2)
  | netLinkLoss (iface : Fin 8)
  | vrtPacketSend (iface : Fin 8)
  | vrtContextPeriodic (stream : Fin 256)
  | ptpEventRx (port : Fin 2) (msg : PtpMsg)
  | ptpDelayReq
  -- truss
  | trussPacketRx (port : Fin 4) (cls : Fin 3) (seq : BitVec 8) (packet : Bytes)
  | trussAckTimeout (port : Fin 4) (cls : Fin 3)
  | trussLaneFail (port : Fin 4) (lane : Fin 5)
  | trussSpareJoin (port : Fin 4)
  | trussSleep (port : Fin 4) (lane : Fin 5)
  | trussWake (port : Fin 4) (lane : Fin 5)
  | trussRestart (port : Fin 4)
  | hpdEdge (head : Fin 2) (edid : Bytes)
  | dpTrainingRetry (head : Fin 2)
  | latchPoint (head : Fin 2)
  | displayFrameStart (head : Fin 2)
  | dispFlip (head : Fin 2)
  | scanoutUnderrun (head : Fin 2)
  -- power, calibration, monitor
  | tollhouseSlot (requests : List (Fin 256 × Nat)) (avsOk : Bool) (dieMv : Nat) (reading : Option (Nat × Nat)) (railsOk : Bool)
  | tempRead (readings : List Int)
  | derateStep
  | calItemStart
  | calItemDone (codes : List Nat)
  | calAgeTimeout (calUnit : Fin 6) (item : Fin 128)
  | calFull
  | calRun (calUnit : Fin 6)
  | monStartEvent
  | monConversion (input : Int)
  | monCodeReady
  -- security
  | fwLoad (addr len : Nat)
  | fwLoadChecked
  | fwLoadVerified (ok : Bool)
  | fwSwap
  | fwPrepareDone (ok : Bool)
  | fwHandoverDone
  | fwHandoverTimeout
  | fwConfirm
  | attNonce (nonce : Bytes)
  | attReportReady
  | secOwnerKey (key : Bytes)
  | configScrub (corrected : Nat) (uncorrectable : Nat)
  | configRestoreDone
  | ueExcursionEnd
  -- start-up
  | powerOnReset
  | perstRelease (straps : Straps)
  | bootDone (report : BootReport) (board : Bytes)
  | startupCalibrationDone (report : StartupCalibration)
  | linksStageEnd
  | pcieLinkUp
  | configurationRequest (busMaster : Option Bool) (d3hot : Option Bool)
  | hpdLow (head : Fin 2)
  | displayLinkTrained (head : Fin 2) (ok : Bool)
  | nvmeDriveReady (drive : Fin 4) (width : Nat) (model : Bytes) (nsids : List (Nat × Nat × Bool)) (labels : List (Fin 16 × Nat × Nat))
  | drvPerstRelease (drive : Fin 4)
  | trussAlignBlock (port : Fin 4) (lane : Fin 5) (frame : BitVec 16) (crcOk : Bool)
  | scanoutPanic (head : Fin 2)
  deriving DecidableEq, Repr

end Sys2Proof
end

