-- ==== Sys2Proof/Machine/State.lean ====
section
/-! DEFINITION. The state of the block: plain data. -/

namespace Sys2Proof.Machine

/-- No command stops the block with a fault: errors are result codes, captures, traps, freezes, halts and markers (INVENTORY.md, Faults). -/
inductive Fault where
  /-- Never raised: kept so that the type of faults is not empty. Safe. -/
  | unused
  deriving DecidableEq, Repr

/-- Refusals. -/
inductive Refusal where
  /-- Raised by a dispatch arm whose command has no meaning yet. Safe: the block stops where the hardware goes on. -/
  | notModelled (mnemonic : String)
  deriving DecidableEq, Repr

/-- What leaves the device, in order (the model's own record of its outputs). -/
inductive Emission where
  /-- A gap or degraded marker, 32 bytes as a little-endian number (01 Table 1-7). -/
  | marker (image : Nat)
  /-- An MSI-X message of a vector (12 R332). -/
  | msix (vector addr data : Nat)
  /-- Completion data of an aperture read (12 R334). -/
  | aperture (data : Bytes)
  /-- A write of bytes to host memory by a mover (12 R342). -/
  | hostWrite (addr : Nat) (data : Bytes)
  /-- A packet sent on a truss port: class, SEQ, bytes (15 R407 to R409). -/
  | truss (port cls seq : Nat) (packet : Bytes)
  /-- A UDP datagram sent by an interface to an address (13 R362; 14 R383, R385). -/
  | udp (iface mac ip dst src : Nat) (payload : Bytes)
  /-- A whole Ethernet frame sent by an interface: ARP, Neighbor Discovery and echo replies, PTP over IEEE 802.3 (14 R381, R384). -/
  | frame (iface : Nat) (bytes : Bytes)
  /-- An NVMe Write to a drive: NSID, first LBA, bytes (11 R307). -/
  | nvme (drive nsid lba : Nat) (data : Bytes)
  /-- An NVMe Read of a drive: NSID, first LBA, LBAs (11 R307, R320). -/
  | nvmeRead (drive nsid lba count : Nat)
  /-- The active pixels of a frame sent by a display head, row by row, 10 or 8 bits for each of R, G, B in bits [29:20], [19:10], [9:0] (16 R432 to R435). -/
  | video (head frame : Nat) (pixels : List Nat)
  deriving DecidableEq, Repr

/-- A commit group accepted and pending (01 R33 to R35): its T and its writes (object key, value) in group order. -/
structure Group where
  t : KTime
  writes : List (Nat × Nat)
  deriving DecidableEq, Repr

/-- A write as a requester carries it, before its checks (13 R352, R366): object key, type code, value as the object's byte image. -/
structure RawWrite where
  key : Nat
  ty : Nat
  value : Bytes
  deriving DecidableEq, Repr

/-- A Pelpin request in the queue (13 R371, R376; 15 R421): its session, or the anchor and the ID it came with over the truss; the role it
acts with; header fields; the interface and address it came from; the Keystone time of the tick edge after it was received; its body. -/
structure PpRequest where
  session : Nat
  origin : Option (Nat × Nat) := none
  role : Nat
  op : Nat
  last : Bool
  bad : Bool := false
  epoch : Nat := 0
  tid : Nat := 0
  node : Nat := 0xFFFF
  iface : Nat := 0
  src : NetAddr := ⟨0, 0, 0⟩
  at' : KTime := 0
  body : Bytes
  deriving DecidableEq, Repr

/-- Who issued a memory request (10 Table 10-3). -/
inductive Owner where
  | ringWriter (stream block : Nat)
  | scanout (head layer : Nat)
  | extract (ctx record : Nat)
  | staging (ctx record : Nat)
  | delivery (ctx record : Nat)
  | trestle (core : Nat)
  | product (kind n : Nat)
  | viewRecord (ring : Nat)
  | spectrogram (s : Nat)
  | trigLog
  | completion
  | merge (g : Nat)
  | hostRing (n : Nat)
  | aperture (tag : Nat)
  | mover (m serial : Nat)
  | firmware
  | peeked
  | nsRead (ns : Nat)
  | scrub
  | writeBack
  | abandoned
  deriving DecidableEq, Repr

/-- A memory request of at most one 64-byte burst (10 R276 to R278). mask says which bytes a write takes; an empty one takes all. -/
structure MemReq where
  id : Nat
  owner : Owner
  cls : Nat
  write : Bool
  addr : Nat
  len : Nat
  data : Bytes
  arrival : Nat
  promoted : Bool
  mask : List Bool := []
  deriving DecidableEq, Repr

/-- One channel controller (10 R276 to R289). openRow holds row + 1 of each bank with an open row; inOrder holds, for each
bank queue in in-order mode, the id of the read that caused it; issued holds reads sent to the DRAM, oldest first; kept holds the requests that stood in
the queues at the freeze (R284). -/
structure MemChan where
  queue : List MemReq := []
  issued : List MemReq := []
  openRow : Tab Nat := []
  inOrder : Tab Nat := []
  postponed : Nat := 0
  lastRequest : Nat := 0
  lastWrite : Option MemReq := none
  crcTries : Nat := 0
  kept : List MemReq := []
  scrubNext : Nat := 0
  srExitFrom : Nat := 0
  diagTraining : Bool := false
  deriving DecidableEq, Repr

/-- The memory controller and the DRAM it serves (10). cells is the contents by DRAM byte address; an address not listed reads 0
(notes/assumptions/5.md). remaps holds the frozen lanes whose remap is not complete, with the tick of the freeze, oldest first. -/
structure Mem where
  cells : List Host.Cell := []
  chans : Tab MemChan := []
  nextId : Nat := 0
  capacity : Nat := 0
  redirect : Tab Nat := []
  frozenLanes : List Nat := []
  remaps : List (Nat × Nat) := []
  waiting : List MemReq := []
  arrived : List (Owner × Nat × Bytes × Bool) := []
  lostWrites : List (Owner × Nat) := []
  panic : Tab Nat := []
  speedReq : Option Nat := none
  retraining : Bool := false
  deriving DecidableEq, Repr

/-- An aperture read that DRAM has not answered (12 R334): its tag, DRAM address, length, byte enables and dword. -/
structure ApertureRead where
  tag : Nat
  addr : Nat
  len : Nat
  be : Nat
  dword : Nat
  deriving DecidableEq, Repr

/-- The PCIe endpoint's registers and windows (12 Tables 12-2 to 12-11). mboxAt is the Keystone time of the tick edge after the read that the
mailbox serves was received (02 R44). -/
structure Pcie where
  linkUp : Bool := false
  busMaster : Bool := false
  d3hot : Bool := false
  accErr : Bool := false
  accAddr : Nat := 0
  accInfo : Nat := 0
  apReg : Nat := 0
  apBase : Nat := 0
  apBusy : Bool := false
  mboxSel : Nat := 0
  mboxBusy : Bool := false
  mboxStat : Nat := 0
  mboxData : Nat := 0
  mboxAt : KTime := 0
  dcCtrl : Nat := 0
  dcIndex : Nat := 0
  dcOffset : Nat := 0
  dcLen : Nat := 0
  dcData : Nat := 0
  dcTime : Nat := 0
  dcBusy : Bool := false
  dcStat : Nat := 0
  groupOpen : Bool := false
  reads : List ApertureRead := []
  deriving DecidableEq, Repr

/-- The rest of the endpoint: the open group, the bulk window, events and MSI-X (12 R330 to R333). -/
structure PcieEvents where
  groupT : KTime := 0
  group : List RawWrite := []
  bulk : List Host.Cell := []
  evtEnable : Nat := 0
  intGap : Nat := 0x190
  evtVec : Tab Nat := []
  evtCount : Tab Nat := []
  msixTable : Tab Nat := []
  pendingVec : Tab Nat := []
  lastMessage : Tab Nat := []
  deriving DecidableEq, Repr

/-- A third-order MASH 1-1-1 modulator (02 R59): accumulators, carries kept for the differences, LFSR, instantaneous divide. -/
structure Mash where
  acc1 : Nat := 0
  acc2 : Nat := 0
  acc3 : Nat := 0
  c2 : Int := 0
  c3 : Int := 0
  c3z : Int := 0
  lfsr : Nat := 1
  divide : Int := 0
  deriving DecidableEq, Repr

/-- A lane PLL while it is on (02 R56, R57): N × 2^32 + F, post-divider, rate error in parts per 10^12, modulator. -/
structure Pll where
  word : Nat := 0
  divider : Nat := 1
  error : Int := 0
  mash : Mash := {}
  deriving DecidableEq, Repr

/-- The Keystone's own state beside its objects (02 R45 to R57). plls holds the lane PLLs that are on, in the order of R56. slewPart holds slewing below one fraction unit, in units of 10^-9. -/
structure Ks where
  load : Option Nat := none
  loadDue : Bool := false
  deviations : Nat := 0
  lastDeviation : Int := 0
  alignArmed : Bool := false
  slewPart : Nat := 0
  syncedAt : Nat := 0
  syncInterval : Nat := 400000000
  secondsFresh : Bool := false
  syncRx : Option KTime := none
  syncTx : Nat := 0
  delayReqAt : Option KTime := none
  offsetMs : Int := 0
  plls : Tab Pll := []
  deriving DecidableEq, Repr

/-- The LO steering synthesiser (02 R58 to R64): start of the acquisition, modulator, ramp accumulator, active segment and the repeat
advance. -/
structure Lo where
  acquiredFrom : Nat := 0
  mash : Mash := {}
  ramp : Nat := 0
  segment : Option Nat := none
  advance : Nat := 0
  deriving DecidableEq, Repr

/-- The degraded causes of samples from a time on (01 R31; 02 R48; 17 R462): whether the Keystone is outside LOCKED, whether results are out of
conditions, the stale ingest lanes (bit n holds lane n) and whether the timebase delay line is stale (bit 128). -/
structure Causes where
  from' : KTime
  hold : Bool
  cond : Bool
  stale : Nat
  deriving DecidableEq, Repr

/-- The operating conditions of 20 R517, each true while it holds, the end of a data-memory excursion (18 R491), and the changes of the degraded
causes, newest first. -/
structure Conditions where
  supplies : Bool := false
  temperature : Bool := false
  timebase : Bool := false
  excursionUntil : Option Nat := none
  linkErrorAt : Nat := 0
  log : List Causes := []
  deriving DecidableEq, Repr

/-- An exact time in fraction units: the fraction n / d (02 R43). -/
structure Exact where
  n : Int := 0
  d : Nat := 1
  deriving DecidableEq, Repr

/-- A complete extended multiblock in a lane buffer: its octets, whether a multiblock of it is in error, when it completed (03 R76 to R78). -/
structure Emb where
  octets : Bytes
  bad : Bool
  at' : KTime
  deriving DecidableEq, Repr

/-- An ingest lane (03 R68, R73, R76, R78, R87): complete extended multiblocks not released, the one being received, the error history of 16
multiblocks and of 64 sync headers (newest first), valid headers in a row, extended multiblocks in a row with a marker fault, the last 58
payload bits as received, and the LEMC index that an extended multiblock missed with the multiblocks it still lacks. -/
structure Lane where
  buffer : List Emb := []
  part : Bytes := []
  partBlocks : Nat := 0
  partBad : Bool := false
  partMarker : Bool := false
  errors : List Bool := []
  headers : List Bool := []
  validRun : Nat := 0
  markerRun : Nat := 0
  history : Nat := 0
  late : Option (Nat × Nat) := none
  deriving DecidableEq, Repr

/-- A released extended multiblock (03 R87, R88): its LEMC index, its octets by lane, the lowest lane known to be in error, and the lanes whose next
multiblock has not yet told the CRC result of its last multiblock. -/
structure Released where
  edge : Nat
  octets : List Bytes
  bad : Option Nat
  lanes : List Nat
  deriving DecidableEq, Repr

/-- The gap run of a link (03 R88, R90, R522): cause, pier, whether a recovery is part of it, and the T of the bring-up that it covers. -/
structure LinkGap where
  cause : Nat
  pier : Nat
  mixed : Bool
  upFrom : Option KTime := none
  deriving DecidableEq, Repr

/-- A link's deframer (03 R76, R88, R506, R522): the LEMC index of the next release, from which index and for which pier extended multiblocks are
lost, the time from which release may resume, failed attempts of a bring-up of its own, the gap run, the released extended multiblock that waits for
CRC results, whether it has released since enable, whether an arrival was measured, and the LEMC index and frame that the pin route comes to. -/
structure Link where
  next : Nat := 0
  lostFrom : Option Nat := none
  lostPier : Nat := 0
  resumeAt : Option KTime := none
  attempts : Nat := 0
  gap : Option LinkGap := none
  waiting : Option Released := none
  released : Bool := false
  measured : Bool := false
  pinEdge : Nat := 0
  pinFrame : Nat := 0
  deriving DecidableEq, Repr

/-- A pier's recovery (03 R89, R91): e_f of the running attempt, failed attempts, the sample time up to which a FAILED pier has issued
markers, and the links that have passed the running attempt or need none. -/
structure Pier where
  ef : KTime := 0
  attempts : Nat := 0
  markedTo : KTime := 0
  passed : List Nat := []
  deriving DecidableEq, Repr

/-- One position of a port's input stream in the ingest abutment: a sample, or count positions of a gap (01 R27, R29). deg holds the
degraded causes of the sample: bit 0 CAL_STALE, bit 1 TIME_HOLDOVER, bit 2 OUT_OF_CONDITIONS. step is the sample period in units of 1 / d, w the width W, era the T of the enable that the sample belongs to, pier the pier
that carries it. ended marks the end of the stream of a port that has been disabled (03 R80). -/
structure Item where
  t : Exact := {}
  step : Nat := 0
  i : Int := 0
  q : Int := 0
  overload : Bool := false
  deg : Nat := 0
  calPier : Nat := 0xFF
  gap : Option (Nat × Nat) := none
  count : Nat := 1
  ended : Bool := false
  w : Nat := 16
  era : KTime := 0
  pier : Nat := 0
  deriving DecidableEq, Repr

/-- The ingest abutment of a pier (01 R19, R23, R27): newest stored time, whether it drops input, the dropped intervals, newest first (from, and the
time from which it stores again), its lag and boost requests. -/
structure Abutment where
  newest : KTime := 0
  dropping : Bool := false
  dropped : List (KTime × Option KTime) := []
  lagRequest : Bool := false
  boostRequest : Bool := false
  deriving DecidableEq, Repr

/-- A run of affected samples of one stream for one cause: first time, count, pier (01 R30). -/
structure Run where
  first : KTime := 0
  count : Nat := 0
  pier : Nat := 0xFF
  deriving DecidableEq, Repr

/-- A block of the look-back ring in the directory (11 R296 to R299): its slab and place, kind, flags, cause, positions and, while it is
open, its data. unwritten until memory has acknowledged it. -/
structure Block where
  seq : Nat := 0
  slab : Nat := 0
  place : Nat := 0
  alloc : Nat := 0
  gap : Bool := false
  flags : Nat := 0
  cause : Nat := 0
  first : Exact := {}
  step : Nat := 0
  index : Nat := 0
  count : Nat := 0
  data : Bytes := []
  openedAt : Nat := 0
  written : Bool := false
  deriving DecidableEq, Repr

/-- Positions of a stream that the ring does not hold: first time, step, count, cause (11 R298, R303). -/
structure NotHeld where
  first : Exact
  step : Nat
  count : Nat
  cause : Nat
  deriving DecidableEq, Repr

/-- A ring stream (11 R294 to R302). nextTime is the first position not yet taken, ended that none follows; again is the T of a selection or enable
that waits for the end of the one before; recount that the next position is the first of its selection; grid the exact time and the step of the
position after the last taken. -/
structure RingStream where
  format : Nat := 0
  pier : Nat := 0
  positions : Nat := 0
  seq : Nat := 0
  slab : Option Nat := none
  place : Nat := 0
  openBlock : Option Block := none
  blocks : List Block := []
  notHeld : List NotHeld := []
  nextTime : Option KTime := none
  ended : Bool := false
  again : Option KTime := none
  recount : Bool := false
  grid : Option (Exact × Nat) := none
  deriving DecidableEq, Repr

/-- A slab's allocation number, and the stream that holds it plus one (11 R299). -/
structure Slab where
  alloc : Nat := 0
  owner : Nat := 0
  deriving DecidableEq, Repr

/-- The look-back ring (11): streams by port, and by 1,024 + port for front-end streams. -/
structure Ring where
  next : Nat := 0
  slabs : Tab Slab := []
  streams : Tab RingStream := []
  resize : Option Nat := none
  deriving DecidableEq, Repr

/-- A run of samples of a raw stream that the Deck does not get: first time, count, cause and pier (03 R88, R90). -/
structure LostRun where
  first : KTime := 0
  count : Nat := 0
  cause : Nat := 0
  pier : Nat := 0
  deriving DecidableEq, Repr

/-- The ingest rim (03). queues hold what the Deck has not taken, by port; runs are the raw streams' degraded runs, by 4 × port + cause; lost the
raw streams' gap runs and overEras the enables (T) whose streams have ended, by port. -/
structure Ingest where
  lanes : Tab Lane := []
  links : Tab Link := []
  piers : Tab Pier := []
  abutments : Tab Abutment := []
  queues : Tab (List Item) := []
  runs : Tab Run := []
  lost : Tab LostRun := []
  overEras : Tab (List KTime) := []
  deriving DecidableEq, Repr

/-- A trigger event (07 Table 7-2). -/
structure Event where
  time : KTime
  source : Nat
  node : Nat
  seq : Nat
  flags : Nat
  qual : Nat
  origin : Nat
  d0 : Nat
  d1 : Nat
  missed : List Nat := []
  deriving DecidableEq, Repr

/-- A pulse of a driver on a TRIGO pin, high from the wall tick start until the wall tick stop (04 R102). -/
structure Pulse where
  driver : Nat
  pin : Nat
  start : Nat
  stop : Nat
  deriving DecidableEq, Repr

/-- Trigger events delivered so far and the count of each source; watermarks of the sources that keep one; LATE events waiting
for the log and the log's cursor (07 R185 to R190, R210, R215). Watermarks are kept plus one; none is zero. -/
structure Trig where
  events : List Event := []
  counts : Tab Nat := []
  marks : Tab Nat := []
  pulses : List Pulse := []
  logCursor : Option Event := none
  logUnacked : Nat := 0
  lastEdge : Tab Nat := []
  remoteAt : Tab Nat := []
  published : Tab Nat := []
  sentAt : Nat := 0
  sentMark : KTime := 0
  pinLevels : Tab Nat := []
  lateLog : List Event := []
  deriving DecidableEq, Repr

/-- One edge detector: armed, and samples since its firing (04 R98). -/
structure Detector where
  armed : Bool := false
  since : Nat := 65535
  deriving DecidableEq, Repr

/-- The pin route of a port: its detectors, the samples it delays, the settings it last saw, and the enable (T) its samples belong to (04 R100). -/
structure PinComparator where
  rise : Detector := {}
  fall : Detector := {}
  held : List (Int × Int) := []
  cfg : List Nat := []
  resetSeen : KTime := 0
  era : Option KTime := none
  deriving DecidableEq, Repr

/-- A sample inside the front end: value, flags, gap, degraded causes, and the least and greatest counts of switch changes (a) and of
retunes (m) among the samples it was computed from (04 R96, R114, R119). -/
structure Smp where
  i : Int := 0
  q : Int := 0
  overload : Bool := false
  settling : Bool := false
  gap : Option (Nat × Nat) := none
  deg : Nat := 0
  calPier : Nat := 0xFF
  aLo : Nat := 0
  aHi : Nat := 0
  mLo : Nat := 0
  mHi : Nat := 0
  deriving DecidableEq, Repr

/-- A filter's delay line, newest first, and the samples it has taken since the last reset (04 R108). -/
structure Line where
  hist : List Smp := []
  count : Nat := 0
  deriving DecidableEq, Repr

/-- A front-end output position kept for the views: epoch of the reset it counts from and that reset's event time, its number in it, its time, value, flags (bit 0
overload, bit 1 settling, bit 2 filling), gap, degraded causes and the pier of a stale lane, and the place in the stream of the port start it follows (04 R96,
R111, R119, R523). -/
structure FeOut where
  epoch : Nat
  te : KTime
  n : Nat
  t : KTime
  i : Int := 0
  q : Int := 0
  flags : Nat := 0
  gap : Option (Nat × Nat) := none
  deg : Nat := 0
  calPier : Nat := 0xFF
  first : Nat := 0
  deriving DecidableEq, Repr

/-- A cross-fade in progress: the bank that ends, the outputs done, L, and the time of the newest mixer-input sample of its last output (04 R121). -/
structure Fade where
  old : Nat
  done : Nat
  len : Nat
  stop : KTime
  deriving DecidableEq, Repr

/-- A cross-fade accepted and pending: port, T, and the time of the newest mixer-input sample of its last output (04 R121). -/
structure FadePlan where
  port : Nat
  t : KTime
  stop : KTime
  deriving DecidableEq, Repr

/-- The aligner and grid of a port's front end, with the event time of the last reset, the time of the last grid position, and the place in the output
stream of the port start (04 R117, R523; 03 R84). -/
structure FeGrid where
  started : Bool := false
  inputs : List Item := []
  delay : Nat × Nat := (0, 0)
  settleLeft : Nat := 0
  n : Nat := 0
  anchor : Exact := {}
  step : Nat := 0
  epoch : Nat := 0
  resetSeen : KTime := 0
  edgeCfg : List Nat := []
  te : KTime := 0
  prev : KTime := 0
  first : Nat := 0
  deriving DecidableEq, Repr

/-- A port's front end (04). -/
structure Fe where
  grid : FeGrid := {}
  p : Nat := 0
  mixedAt : KTime := 0
  switches : Nat := 0
  retunes : Nat := 0
  conv : Line := {}
  cascade : List Line := []
  fir : Line := {}
  boxSum : Int × Int := (0, 0)
  boxAcc : Smp := {}
  mixed : Nat := 0
  out : Nat := 0
  source : Nat := 0
  fade : Option Fade := none
  rawRise : Detector := {}
  rawFall : Detector := {}
  outRise : Detector := {}
  outFall : Detector := {}
  gapRun : Option (KTime × Nat × Nat × Nat) := none
  deriving DecidableEq, Repr

/-- The front ends: by port, their outputs (oldest first) and degraded runs by 4 × port + cause; the synchronising resets scheduled and
done (Ts); changes of bindable outputs (bit of fe.settle.bind, time); fades accepted and pending; port starts (port, time) (04 R114
to R122, R523). -/
structure FrontEnds where
  ports : Tab Fe := []
  outs : Tab (List FeOut) := []
  runs : Tab Run := []
  pins : Tab PinComparator := []
  resets : List (KTime × Bool) := []
  lastPinTs : KTime := 0
  changes : List (Nat × KTime) := []
  fades : List FadePlan := []
  starts : List (Nat × KTime) := []
  deriving DecidableEq, Repr

/-- One calibration item (17 R459 to R462): codes in force, set waiting for its point of application, due and last application in wall
ticks, failures in a row. -/
structure CalItem where
  codes : List Nat := []
  waiting : Option (List Nat) := none
  due : Nat := 0
  applied : Nat := 0
  fails : Nat := 0
  stale : Bool := false
  deriving DecidableEq, Repr

/-- The calibration engine (17): items by 256 × unit + item; the item in progress; the items left of a full run. -/
structure Calibration where
  items : Tab CalItem := []
  running : Option (Nat × Nat) := none
  full : Option (List (Nat × Nat)) := none
  startedAt : Nat := 0
  deriving DecidableEq, Repr

/-- A run of the gap list of a stream block: first index, length, KIND, CAUSE (08 R239). -/
structure GapRun where
  first : Nat
  count : Nat
  kind : Nat
  cause : Nat
  deriving DecidableEq, Repr

/-- One captured stream of a record (08 R228, R238; 11 R301): port and stream, format, the next position of the window with its step, the
time of the first, positions taken, their bytes, runs of the gap list, flags, and the block whose read is in flight. -/
structure RecStream where
  port : Nat
  fe : Bool
  format : Nat := 0
  next : Option (Exact × Nat) := none
  first : KTime := 0
  count : Nat := 0
  data : Bytes := []
  runs : List GapRun := []
  flags : Nat := 0
  reading : Option Block := none
  deriving DecidableEq, Repr

/-- A record (08 R225, R231, R237): identity, state (0 CAPTURING, 1 MEASURING, 2 DELIVERING, 3 COMPLETE), trigger, window, whether END is
fixed, flags of the descriptor, streams, staging space (address, bytes), MSTATUS and results, whether its program waits for a core, whether
it is placed at its destination, LOCATION. -/
structure Record where
  ctx : Nat := 0
  number : Nat := 0
  gen : Nat := 0
  state : Nat := 0
  trigger : KTime := 0
  start : KTime := 0
  stop : KTime := 0
  fixed : Bool := false
  flags : Nat := 0
  streams : List RecStream := []
  stage : Option (Nat × Nat) := none
  mstatus : Nat := 1
  results : Bytes := []
  running : Bool := false
  placed : Bool := false
  acked : Bool := false
  location : Nat := 0
  deriving DecidableEq, Repr

/-- An acquisition context (08 R221 to R226; 07 R213): the T of each generation start and of each arming; the start of the generation being
processed; events of its expression: last accepted of each term (time, flags), completion of each stage; the last event taken; the point
passed plus one; the open record's number; from, rearm, left, stopped. -/
structure Ctx where
  gens : List KTime := []
  arms : List KTime := []
  gen : KTime := 0
  genNo : Nat := 0
  terms : Tab (KTime × Nat) := []
  stages : Tab KTime := []
  fired : Option KTime := none
  taken : Option Event := none
  passed : KTime := 0
  openRec : Option Nat := none
  from' : KTime := 0
  rearm : KTime := 0
  left : Nat := 0
  stopped : Bool := false
  deriving DecidableEq, Repr

/-- The acquisition contexts and their records (08), oldest first; completion entries written: offset of the next, number since reset, those
in flight (offset). -/
structure Acq where
  ctxs : Tab Ctx := []
  records : List Record := []
  doneNext : Nat := 0
  doneSeq : Nat := 0
  doneUnacked : List Nat := []
  deriving DecidableEq, Repr

/-- A result of a trestle instruction not yet visible (09 R251): the position from which it is seen, the register (bank, kind 0 data, 1 flag
word Z N V, 2 sticky bit set, 3 sticky bits cleared; number) and its value. -/
structure LateWrite where
  at' : Nat
  kind : Nat
  reg : Nat
  value : Nat
  deriving DecidableEq, Repr

/-- A trestle core (09 R243 to R261): the record it runs, the program slot or library number, registers of both banks (data by 16 × bank +
n, address by 8 × bank + n, Z N V by bank), accumulators, sticky flags in the layout of MFF, PC, bank, instructions executed, results not
yet visible, a transfer after delay slots (slots left, target), a loop (first, last, iterations left), data memory words, events entered,
whether END is entered, the return address of SYNC, blocks in place, whether it waits in SYNC. -/
structure Core where
  record : Option (Nat × Nat) := none
  prog : Nat := 0
  d : Tab Nat := []
  a : Tab Nat := []
  flags : Tab Nat := []
  acc : Tab Nat := []
  sticky : Nat := 0
  pc : Nat := 0
  bank : Nat := 0
  pos : Nat := 0
  late : List LateWrite := []
  transfer : Option (Nat × Nat) := none
  loop : Option (Nat × Nat × Nat) := none
  mem : Tab Nat := []
  events : Nat := 0
  ended : Bool := false
  ret : Nat := 0
  inPlace : Nat := 0
  waiting : Bool := false
  deriving DecidableEq, Repr

/-- An entry of a host ring written and not yet acknowledged: its offset, bytes, and the context and record it carries, if any (12 R336). -/
structure RingEntry where
  offset : Nat
  bytes : Nat
  record : Option (Nat × Nat) := none
  deriving DecidableEq, Repr

/-- A host ring (12 R335 to R337): HR_WPTR, HR_RPTR, the offset where the next entry is placed, entries placed, the entries in flight. -/
structure HostRing where
  wptr : Nat := 0
  rptr : Nat := 0
  place : Nat := 0
  placed : Nat := 0
  waiting : Bool := false
  unacked : List RingEntry := []
  deriving DecidableEq, Repr

/-- A queued VITA 49.2 packet (14 R388 to R394): Stream ID, Class ID low half, record flags in the order of Table 5-3 with MISSING as bit
6, whether the S bit is set, whether it is a context packet and its change bit, the time K, and its bytes (payload, or context fields). -/
structure VrtPacket where
  sid : Nat
  cls : Nat
  flags : Nat
  spectral : Bool
  context : Bool := false
  change : Bool := false
  k : KTime
  body : Bytes
  deriving DecidableEq, Repr

/-- What a stream remembers of a Stream ID (14 R390, R394): packet count, described values last sent, time of the last record, overload
count at the last context packet, and the port whose samples it counts. -/
structure VrtId where
  sid : Nat
  count : Nat := 0
  sent : Option (List Nat) := none
  last : KTime := 0
  ovl : Nat := 0
  port : Nat := 0
  flags : Nat := 0
  deriving DecidableEq, Repr

/-- A VITA 49.2 stream (14 R395, R396). credit is the token bucket in units of 1/3,200 byte at the wall tick creditAt. -/
structure VrtStream where
  queue : List VrtPacket := []
  credit : Nat := 0
  creditAt : Nat := 0
  ids : List VrtId := []
  ctxAt : Nat := 0
  deriving DecidableEq, Repr

/-- The streams, and the stream each interface served last (14 R395); the sequence number of the next Delay_Req (14 R384). -/
structure Net where
  streams : Tab VrtStream := []
  served : Tab Nat := []
  ptpSeq : Nat := 0
  deriving DecidableEq, Repr

/-- A frame of a view on a port in the buffer of the view (05 R128, R131, R132, R150): skip for one not formed (true: not produced while
suspended); its index, time, epoch and first sample's place in
the output stream, its size, the gap it stands for, the girders that run it, its flags, and its result once computed: block exponent and
selected bins. -/
structure Frame where
  k : Nat
  t : KTime
  epoch : Nat
  start : Nat := 0
  size : Nat := 0
  flags : Nat := 0
  gap : Option (Nat × Nat) := none
  skip : Option Bool := none
  deg : Nat := 0
  calPier : Nat := 0xFF
  girders : List Nat := []
  failedOn : List Nat := []
  startedAt : Nat := 0
  done : Bool := false
  e : Nat := 0
  bins : List (Int × Int) := []
  sw : Int := 0
  deriving DecidableEq, Repr

/-- A trace group in progress (05 R144): settings, first index, time, epoch, end index, frames computed, flags, the time of
the latest frame index. -/
structure TraceGroup where
  cfg : List Nat
  k : Nat
  t : KTime
  epoch : Nat
  stop : Nat
  frames : List Frame := []
  flags : Nat := 0
  gap : Bool := false
  last : KTime := 0
  deriving DecidableEq, Repr

/-- A trace delivered: its first frame index and time, the time of its last frame, how many frames it was computed from (05 R142, R144; 06 Table 6-2). -/
structure Trace where
  k : Nat
  t : KTime
  stop : KTime := 0
  count : Nat := 0
  epoch : Nat
  flags : Nat
  words : List Int
  deriving DecidableEq, Repr

/-- A view on one port (05 R131 to R133, R144; 01 R32): its grid (anchor's place in the output stream, event time, front-end epoch, N, H,
o), the next index, frames not delivered, frames and traces delivered, the trace group, the gap run (cause, pier, first, count), the
degraded runs by cause, and
frames not produced while suspended (first time, count). -/
structure ViewPort where
  started : Bool := false
  anchor : Nat := 0
  te : KTime := 0
  feEpoch : Nat := 0
  size : Nat := 0
  hop : Nat := 0
  offset : Nat := 0
  epoch : Nat := 0
  k : Nat := 0
  active : Bool := false
  frames : List Frame := []
  delivered : List Frame := []
  traces : List Trace := []
  groupStart : Nat := 0
  group : Option TraceGroup := none
  run : Option (Nat × Nat × KTime × Nat) := none
  degRuns : Tab Run := []
  skipped : Option (KTime × Nat) := none
  deriving DecidableEq, Repr

/-- The views (05): by 1,024 × view + port; by view: the event times of resets and starts of its ports that have acted, the events before the latest load of the
Keystone count, and the times of suspension ends. -/
structure Views where
  ports : Tab ViewPort := []
  events : Tab (List KTime) := []
  passed : Tab Nat := []
  resumed : Tab KTime := []
  deriving DecidableEq, Repr

/-- A girder (05 R150, R151): whether it is coming in and not ready for frames, the tick of its last check failure plus one. -/
structure Girder where
  coming : Bool := false
  failedAt : Nat := 0
  deriving DecidableEq, Repr

/-- The Tollhouse (17 R448 to R458): the derating limit D, ticks of the last derating step, of the last time at or above the limit and of
the last boost request, retries of a failed transaction, slots in a row outside and inside for the deck supply and for the fixed rails,
readings in a row at 115 °C by sensor, the starting stage, the grants of the last slot by stage, slots counted, raised budgets whose
groups are accepted and pending, the tick count of the last slot plus one, whether a reading is to be retried, whether boost steps are being removed. -/
structure Toll where
  limit : Nat := 260
  stepAt : Nat := 0
  hotAt : Nat := 0
  boostAt : Nat := 0
  retries : Nat := 0
  vOut : Nat := 0
  vIn : Nat := 0
  railOut : Nat := 0
  railIn : Nat := 0
  vOk : Bool := false
  railsOk : Bool := false
  hot : Tab Nat := []
  start : Nat := 0
  grants : Tab Nat := []
  slots : Nat := 0
  raise : List (KTime × Nat) := []
  slotAt : Nat := 0
  readDue : Bool := false
  removing : Bool := false
  deriving DecidableEq, Repr

/-- A packet kept until it is acknowledged (15 R409). -/
structure TrussKept where
  seq : Nat
  packet : Bytes
  deriving DecidableEq, Repr

/-- One class in one direction pair of a link (15 R409): next SEQ, packets kept, packets that wait for room, SEQ last delivered, tick of the
last ACK or of the oldest packet kept. -/
structure TrussClass where
  next : Nat := 0
  kept : List TrussKept := []
  waiting : List Bytes := []
  delivered : Nat := 255
  ackAt : Nat := 0
  deriving DecidableEq, Repr

/-- A receiving lane of a truss port (15 R405, R416, R417): consecutive frames aligned, last frame number, whether the frame before
failed its CRC (16 frames, newest first), frames since bring-up that failed to align, tick of its last ALIGN. -/
structure TrussLane where
  aligned : Nat := 0
  frame : Nat := 0
  crcs : List Bool := []
  tries : Nat := 0
  alignAt : Nat := 0
  deriving DecidableEq, Repr

/-- A truss port (15): its classes and lanes, the spare on its way in, rate and equalisation taken at its bring-up, tick of the last data
block. -/
structure TrussPort where
  cls : Tab TrussClass := []
  lanes : Tab TrussLane := []
  joining : Option Nat := none
  rate : Nat := 0
  eq : Nat := 0
  dataAt : Nat := 0
  startedAt : Nat := 0
  deriving DecidableEq, Repr

/-- A request forwarded to another device (15 R421): the REQUEST's ID, target, body, and the Pelpin request that waits for it. -/
structure Forward where
  id : Nat
  node : Nat
  body : Bytes
  request : PpRequest
  deriving DecidableEq, Repr

/-- A group broadcast whose results are awaited (15 R422): ID, nodes still to answer, answers so far (node, code, index), the Pelpin
request. -/
structure Broadcast where
  id : Nat
  nodes : List Nat
  answers : List (Nat × Nat × Nat)
  request : PpRequest
  deriving DecidableEq, Repr

/-- Member records gathered at the root for one START (15 R423). -/
structure MergeSlot where
  start : KTime
  records : List (Nat × Bytes)
  deriving DecidableEq, Repr

/-- A merge group at its root (15 R423, R424): slots; START and node of each record that was missing where a merged record was written without it;
records written and not acknowledged, the offset of the next record. -/
structure Merge where
  slots : List MergeSlot := []
  missed : List (KTime × Nat) := []
  unacked : List (Nat × Nat) := []
  next : Nat := 0
  deriving DecidableEq, Repr

/-- The spans (15): ports, bodies being assembled (origin, kind, ID), requests and groups in flight, responses kept (anchor, ID, body),
merges. -/
structure Span where
  ports : Tab TrussPort := []
  nextId : Nat := 0
  bodies : List (Nat × Nat × Nat × Bytes) := []
  forwards : List Forward := []
  groups : List Broadcast := []
  kept : List (Nat × Nat × Bytes) := []
  merges : Tab Merge := []
  deriving DecidableEq, Repr

/-- A dump record written and not yet acknowledged: base and offset of its bytes, their number, the write pointer after it, and the enable
it belongs to (06 R163; 10 R525). -/
structure ProductRecord where
  base : Nat
  offset : Nat
  bytes : Nat
  next : Nat
  era : KTime
  deriving DecidableEq, Repr

/-- A density map, cross-power pair or integrator (06 R159 to R179): whether it runs and since which enable; the interval in progress (start,
PARTIAL, flags, saturation, frames); records written since enable and the offset of the next; the streams' next frame times; the time from
which closes are still to act, plus zero; decay boundaries still to apply from decayFrom; the plane or the sums by cell, frame counts by
phase, blanked frames; the settings of R168 that clear the plane when they change; records in flight. -/
structure Product where
  on : Bool := false
  era : KTime := 0
  start : KTime := 0
  part : Bool := false
  flags : Nat := 0
  sat : Bool := false
  frames : Nat := 0
  written : Nat := 0
  place : Nat := 0
  nextX : KTime := 0
  nextY : KTime := 0
  closedTo : KTime := 0
  decayFrom : KTime := 0
  cells : Tab Int := []
  counts : Tab Nat := []
  blanked : Nat := 0
  geo : List Nat := []
  occAt : KTime := 0
  unacked : List ProductRecord := []
  deriving DecidableEq, Repr

/-- A row of a spectrogram in flight (06 R171): the enable it belongs to, its trace number, row address, header address and row bytes. -/
structure SpectroRow where
  era : KTime
  trace : Nat
  row : Nat
  header : Nat
  pitch : Nat
  deriving DecidableEq, Repr

/-- A spectrogram (06 R170, R171): the enable of the latest trace taken, the time from which traces are still to be taken, traces taken since that enable,
and rows in flight. -/
structure Spectro where
  era : KTime := 0
  next : KTime := 0
  taken : Nat := 0
  unacked : List SpectroRow := []
  deriving DecidableEq, Repr

/-- Products (06): builders by 1,024 × kind + number (kinds 1 density, 2 pair, 3 integrator), spectrograms, levels of the pins SW0 to SW7,
the next entry of the front-end-control table and the repeat advance, and the Keystone steps taken (T, T + D). -/
structure Products where
  items : Tab Product := []
  spectros : Tab Spectro := []
  swPins : Nat := 0
  fectlNext : Nat := 0
  fectlAdvance : Nat := 0
  steps : List (KTime × KTime) := []
  deriving DecidableEq, Repr

/-- A mask (07 R192 to R199): the next frame time, the epoch of the last frame taken, the time of the last spectrum entered plus one, the
entered spectra held (hit, flags), newest first, and the clear count. -/
structure Mask where
  next : KTime := 0
  epoch : Nat := 0
  seen : KTime := 0
  history : List (Bool × Nat) := []
  clear : Nat := 0
  deriving DecidableEq, Repr

/-- A mover channel (12 R338 to R347): MV_CTRL.RUN, MV_STATE (STATE, CAUSE, CODE, RETRIES), MV_HEAD, MV_TAIL, MV_POS, MV_ELEM, MV_DONE, the
descriptor and the index table being worked on, bytes done of the current element, whether the channel is to be DISABLED after its burst, the
bursts (element, offset) to be repeated under BARRIER, the retries that bursts already written have used, how far the current fetch has come (phase), the
descriptor fetched, and the descriptor's own number, which its requests carry. -/
structure Mover where
  run : Bool := false
  state : Nat := 0
  cause : Nat := 0
  code : Nat := 0
  retries : Nat := 0
  head : Nat := 0
  tail : Nat := 0
  pos : Nat := 0
  elem : Nat := 0
  done : Nat := 0
  desc : Option Bytes := none
  index : Bytes := []
  inElem : Nat := 0
  stopping : Bool := false
  redo : List (Nat × Nat) := []
  tries : List ((Nat × Nat) × Nat) := []
  phase : Nat := 0
  fetched : Bytes := []
  serial : Nat := 0
  deriving DecidableEq, Repr

/-- An NVMe Write issued to a drive (11 R307, R309, R311, R312): kind 0 record item, 1 manifest item, 2 pad item, 3 label; namespace, first
LBA, bytes; the context and record or segment number it carries; attempts that failed. -/
structure DriveWrite where
  kind : Nat
  ns : Nat
  lba : Nat
  data : Bytes
  ctx : Nat := 0
  number : Nat := 0
  tries : Nat := 0
  deriving DecidableEq, Repr

/-- A drive (11 R306 to R310): Writes not completed, oldest first; the wall tick of a restart plus one; the NVMe namespaces it holds (NSID,
LBAs, supported format). -/
structure Drive where
  writes : List DriveWrite := []
  restartAt : Nat := 0
  nsids : List (Nat × Nat × Bool) := []
  deriving DecidableEq, Repr

/-- A segment (11 R314 to R317): stage 0 open, 1 waiting to be signed, 2 with its manifest item being written; the generation counted since
reset; record items, offset of the last, places of its items (offset, LBAs); leaf hashes; TRIGGER of the first and last records. -/
structure Segment where
  id : Nat
  stage : Nat := 0
  ns : Nat
  ctx : Nat
  genNo : Nat
  index : Nat
  first : Nat
  last : Nat
  bytes : Nat := 0
  items : Nat := 0
  prev : Nat := 0
  places : List (Nat × Nat) := []
  leaves : List Bytes := []
  kstart : KTime
  kend : KTime
  trigger : KTime
  manifest : Bytes := []
  deriving DecidableEq, Repr

/-- What a drive holds in an LBA range, as the block wrote it. -/
structure Stored where
  drive : Nat
  nsid : Nat
  lba : Nat
  data : Bytes
  deriving DecidableEq, Repr

/-- The recorder (11 R306 to R319): drives; T of the format of each formatted namespace plus one; segments whose manifest is not written, in
order of opening, or of closing once closed; CHAIN by 16 × context + namespace (marked bytes); generation and next SEGIDX by context;
closes asked for (namespace, T); reads in progress by namespace; what the drives hold, newest first; namespaces that failed and have not been
formatted since (R309). -/
structure Recorder where
  drives : Tab Drive := []
  formatted : Tab Nat := []
  segments : List Segment := []
  nextId : Nat := 0
  chains : Tab Nat := []
  counts : Tab (Nat × Nat) := []
  closes : List (Nat × KTime) := []
  reads : Tab (Nat × Nat × Nat) := []
  stored : List Stored := []
  failed : List Nat := []
  deriving DecidableEq, Repr

/-- A display head (16): the level of HPD and the sink's EDID, the tick of the last training attempt that failed, the buffer selects of the
pending and the active set, the active layers' objects, the start row sampled at the last latch point, whether a flip was requested since, whether a
frame is before its latch point, whether the last latch point was a flip, the pixel at which the frame was aborted, the
bursts not fetched yet (line, layer, address) and the tick at which the frame started (10 R275). -/
structure Head where
  hpd : Bool := false
  sink : Bytes := []
  retryAt : Nat := 0
  pend : List Nat := [0, 0, 0]
  active : List (List Nat) := []
  sel : List Nat := [0, 0, 0]
  start : Nat := 0
  asked : Bool := false
  inFrame : Bool := false
  flipped : Bool := false
  abortAt : Option Nat := none
  todo : List (Nat × Nat × Nat) := []
  since : Nat := 0
  deriving DecidableEq, Repr

/-- A sequence of the monitor converter (17 R466, R467): its first edge in ticks, its inputs, conversions made. -/
structure MonRun where
  start : Nat
  seq : List Nat
  next : Nat := 0
  deriving DecidableEq, Repr

/-- A conversion whose code is not ready (17 R465): edge in ticks, input, code, OVR, SETTLING, STALE. -/
structure MonCode where
  edge : Nat
  input : Nat
  code : Nat
  ovr : Bool
  settling : Bool
  stale : Bool
  deriving DecidableEq, Repr

/-- The monitor converter (17 R465 to R471): sequences running or completed last, whether a start is latched, codes not ready, the last two
conversions (edge, OVR; newest first), the tick count from which start events are still to be taken, the first edge after the last item, and by comparator the edge of the last
conversion compared plus one with its side. -/
structure Monitor where
  runs : List MonRun := []
  latched : Bool := false
  codes : List MonCode := []
  last : List (Nat × Bool) := []
  from' : Nat := 0
  idleFrom : Nat := 0
  sides : Tab (Nat × Nat) := []
  deriving DecidableEq, Repr

/-- An image as its header names it (18 Table 18-2). -/
structure Image where
  version : Nat := 0
  svn : Nat := 0
  hash : Nat := 0
  deriving DecidableEq, Repr

/-- Firmware and attestation (18): the images that run and that booted, the SVNs of the stage 1 copies, the load in progress (address, length),
its image and KIND, the verified image, SEQ of the boot record, the tick at which the handover began, the report being built and the segments whose manifests the
signer serves before it; whether the configuration memories are being restored and the tick of their last scrub; the locks of R355; and what the block itself has written to the
flash: the images by place (stage 1 copies 0 and 1, slots 2 and 3) and ACTIVE of the boot record. -/
structure Security where
  firmware : Image := {}
  stage1 : Image := {}
  svns : Nat × Nat := (0, 0)
  load : Option (Nat × Nat) := none
  loading : Image := {}
  loadKind : Nat := 0
  verified : Image := {}
  bootSeq : Nat := 0
  swapAt : Nat := 0
  report : Bytes := []
  signAfter : List Nat := []
  restoring : Bool := false
  scrubAt : Nat := 0
  boardLock : Bool := false
  keysLock : Bool := false
  flash : Tab (Option Image) := []
  record : Option Nat := none
  deriving DecidableEq, Repr

/-- Start-up (19): whether PERST_L is released and its tick, whether booting stopped, ticks with a reading above 95 °C not yet a whole second and the tick of the
last reading. -/
structure Startup where
  released : Bool := false
  releaseAt : Nat := 0
  stopped : Bool := false
  overTicks : Nat := 0
  readAt : Nat := 0
  deriving DecidableEq, Repr

/-- A staged slot of a session (13 R367): TOTAL, and the staged bytes plus one by offset. -/
structure SlotBuf where
  total : Nat := 0
  cells : Tab Nat := []
  deriving DecidableEq, Repr

/-- A group being assembled from COMMIT parts (13 R372): GROUP, the next PART, SCOPE, T, writes, the tick of part 0. -/
structure PpGroup where
  group : Nat
  part : Nat
  scope : Nat
  t : KTime
  writes : List RawWrite
  since : Nat
  deriving DecidableEq, Repr

/-- A subscription (13 R377): object, MODE, INTERVAL, the value last sent, the tick of the last NOTIFY, SEQ of the next. -/
structure PpSub where
  key : Nat
  mode : Nat
  interval : Nat
  sent : Option Nat
  at' : Nat
  seq : Nat := 0
  deriving DecidableEq, Repr

/-- A TID of the replay window (13 R374): the number, and the stored response once there is one (code, last flag, body). -/
structure PpTid where
  tid : Nat
  response : Option (Nat × Bytes) := none
  deriving DecidableEq, Repr

/-- A Pelpin session (13 R369 to R377): role, keys, whether the epoch window has begun, window, slots, groups, subscriptions by number, ticks of
OPEN2 and of the last valid request, the hash h of the handshake, and the interface and address of its requester. -/
structure Session where
  role : Nat := 0
  keyIn : Bytes := []
  keyOut : Bytes := []
  begun : Bool := false
  window : List PpTid := []
  slots : Tab SlotBuf := []
  groups : List PpGroup := []
  subs : List (Nat × PpSub) := []
  openedAt : Nat := 0
  validAt : Nat := 0
  hash : Bytes := []
  iface : Nat := 0
  addr : NetAddr := ⟨0, 0, 0⟩
  deriving DecidableEq, Repr

/-- Pelpin (13): sessions by number, requests in the order of the queue (R357, R376). -/
structure Pelpin where
  sessions : Tab Session := []
  queue : List PpRequest := []
  deriving DecidableEq, Repr

/-- The state. -/
structure State where
  /-- Commands waiting, first in, first out. -/
  pending : List Instr
  /-- The model's own counter of free values drawn. -/
  free : Nat
  /-- Rim clock edges since power-on reset (the model's wall clock, one per tick). -/
  wall : Nat
  /-- Keystone time (00 R7). -/
  time : KTime
  /-- The objects of the dictionary that differ from their defaults (13 R350). -/
  dict : Tab Nat
  /-- Commits applied, oldest first: T, object, value before (01 R33, Table 1-9). -/
  undo : List (KTime × Nat × Nat)
  /-- Pending commit groups in order of acceptance (01 R34, R35). -/
  groups : List Group
  /-- Commands of commit groups due to act at their T: object, T (01 R33). -/
  due : List (Nat × KTime)
  /-- Code of the last immediate operation (13 R359). -/
  result : Nat
  /-- What has left the device. -/
  outbox : List Emission
  mem : Mem
  pcie : Pcie
  pev : PcieEvents
  ks : Ks
  lo : Lo
  cond : Conditions
  ing : Ingest
  ring : Ring
  trig : Trig
  fes : FrontEnds
  cal : Calibration
  acq : Acq
  span : Span
  hrs : Tab HostRing
  net : Net
  views : Views
  girders : Tab Girder
  toll : Toll
  prods : Products
  masks : Tab Mask
  movers : Tab Mover
  cores : Tab Core
  recd : Recorder
  heads : Tab Head
  mon : Monitor
  sec : Security
  start : Startup
  pel : Pelpin
  deriving DecidableEq, Repr

/-! Updates of one field each; their lemmas are in Laws/State.lean. -/

def State.withPending (s : State) (x : List Instr) : State := { s with pending := x }
def State.withFree (s : State) (x : Nat) : State := { s with free := x }
def State.withWall (s : State) (x : Nat) : State := { s with wall := x }
def State.withTime (s : State) (x : KTime) : State := { s with time := x }
def State.withDict (s : State) (x : Tab Nat) : State := { s with dict := x }
def State.withUndo (s : State) (x : List (KTime × Nat × Nat)) : State := { s with undo := x }
def State.withGroups (s : State) (x : List Group) : State := { s with groups := x }
def State.withDue (s : State) (x : List (Nat × KTime)) : State := { s with due := x }
def State.withResult (s : State) (x : Nat) : State := { s with result := x }
def State.withOutbox (s : State) (x : List Emission) : State := { s with outbox := x }
def State.withMem (s : State) (x : Mem) : State := { s with mem := x }
def State.withPcie (s : State) (x : Pcie) : State := { s with pcie := x }
def State.withPev (s : State) (x : PcieEvents) : State := { s with pev := x }
def State.withKs (s : State) (x : Ks) : State := { s with ks := x }
def State.withLo (s : State) (x : Lo) : State := { s with lo := x }
def State.withCond (s : State) (x : Conditions) : State := { s with cond := x }
def State.withIng (s : State) (x : Ingest) : State := { s with ing := x }
def State.withRing (s : State) (x : Ring) : State := { s with ring := x }
def State.withTrig (s : State) (x : Trig) : State := { s with trig := x }
def State.withFes (s : State) (x : FrontEnds) : State := { s with fes := x }
def State.withCal (s : State) (x : Calibration) : State := { s with cal := x }
def State.withAcq (s : State) (x : Acq) : State := { s with acq := x }
def State.withSpan (s : State) (x : Span) : State := { s with span := x }
def State.withHrs (s : State) (x : Tab HostRing) : State := { s with hrs := x }
def State.withNet (s : State) (x : Net) : State := { s with net := x }
def State.withViews (s : State) (x : Views) : State := { s with views := x }
def State.withGirders (s : State) (x : Tab Girder) : State := { s with girders := x }
def State.withToll (s : State) (x : Toll) : State := { s with toll := x }
def State.withProds (s : State) (x : Products) : State := { s with prods := x }
def State.withMasks (s : State) (x : Tab Mask) : State := { s with masks := x }
def State.withMovers (s : State) (x : Tab Mover) : State := { s with movers := x }
def State.withCores (s : State) (x : Tab Core) : State := { s with cores := x }
def State.withRecd (s : State) (x : Recorder) : State := { s with recd := x }
def State.withHeads (s : State) (x : Tab Head) : State := { s with heads := x }
def State.withMon (s : State) (x : Monitor) : State := { s with mon := x }
def State.withSec (s : State) (x : Security) : State := { s with sec := x }
def State.withStart (s : State) (x : Startup) : State := { s with start := x }
def State.withPel (s : State) (x : Pelpin) : State := { s with pel := x }

/-- The block right after power-on reset (19 R497; 13 R354). -/
def State.reset : State :=
  { pending := [], free := 0, wall := 0, time := 0, dict := [], undo := [], groups := [], due := [], result := 0, outbox := [], mem := {}, pcie := {}, pev := {},
    ks := {}, lo := {}, cond := {}, ing := {}, ring := {}, trig := {}, fes := {}, cal := {}, acq := {}, span := {}, hrs := [], net := {}, views := {}, girders := [], toll := {}, prods := {}, masks := [], movers := [], cores := [], recd := {}, heads := [], mon := {}, sec := {}, start := {}, pel := {} }

end Sys2Proof.Machine
end

