-- ==== Sys2Proof/Machine/Ops.lean ====
section
/-! DEFINITION. The named operations that every family shares: sparse tables, byte images, objects, events, markers and
the promise bits. -/

namespace Sys2Proof.Machine

/-! ### Sparse tables in canonical form -/

/-- The entry of a key, or the default. -/
def tabGet {α : Type} (d : α) : Tab α → Nat → α
  | [], _ => d
  | (k', v) :: t, k => if k = k' then v else tabGet d t k

/-- Puts an entry before the first one with a greater key. -/
def tabInsert {α : Type} (k : Nat) (v : α) : Tab α → Tab α
  | [] => [(k, v)]
  | (k', v') :: t => if k < k' then (k, v) :: (k', v') :: t else (k', v') :: tabInsert k v t

/-- Sets an entry, keeping keys rising and holding no entry equal to the default. -/
def tabSet {α : Type} [DecidableEq α] (d : α) (t : Tab α) (k : Nat) (v : α) : Tab α :=
  let rest := t.filter fun e => e.1 != k
  if v = d then rest else tabInsert k v rest

/-- Changes one entry. -/
def tabUpd {α : Type} [DecidableEq α] (d : α) (t : Tab α) (k : Nat) (f : α → α) : Tab α :=
  tabSet d t k (f (tabGet d t k))

/-- Canonical form: keys strictly rising, no entry equal to the default. -/
def tabWf {α : Type} [DecidableEq α] (d : α) : Tab α → Bool
  | [] => true
  | [(_, v)] => decide (v ≠ d)
  | (k, v) :: (k', v') :: t => decide (v ≠ d) && decide (k < k') && tabWf d ((k', v') :: t)

/-! ### Byte images -/

/-- The n-byte little-endian image of a number (00 R5). -/
def natLE : Nat → Nat → Bytes
  | 0, _ => []
  | n + 1, v => BitVec.ofNat 8 v :: natLE n (v / 256)

/-- The number of a little-endian image. -/
def leNat : Bytes → Nat
  | [] => 0
  | b :: t => b.toNat + 256 * leNat t

/-- The n-byte image of a number, most significant byte first (00 R5, Pelpin and VITA 49.2). -/
def natBE (n v : Nat) : Bytes := (natLE n v).reverse

/-- The number of a most-significant-first image. -/
def beNat (b : Bytes) : Nat := leNat b.reverse

/-- n bytes of an image held as a little-endian number, from offset off. -/
def fieldAt (v off n : Nat) : Nat := (v >>> (8 * off)) % 256 ^ n

/-- Replaces n bytes of an image held as a number. -/
def setFieldAt (v off n x : Nat) : Nat :=
  v - fieldAt v off n * 256 ^ off + (x % 256 ^ n) * 256 ^ off

/-- Bit b of a number. -/
def bit (v b : Nat) : Bool := Nat.testBit v b

/-- Sets bit b of a number. -/
def setBit (v b : Nat) (x : Bool) : Nat :=
  if bit v b then (if x then v else v - 2 ^ b) else (if x then v + 2 ^ b else v)

/-- 1 for true. -/
def b2n (b : Bool) : Nat := if b then 1 else 0

/-- A multiple of 64 not below n (12 R336 padding). -/
def pad64 (n : Nat) : Nat := (n + 63) / 64 * 64

/-- Zero bytes. -/
def zeros (n : Nat) : Bytes := List.replicate n 0

/-- Pads an image with zero bytes up to n bytes. -/
def padTo (n : Nat) (b : Bytes) : Bytes := b ++ zeros (n - b.length)

/-- Division rounding up. -/
def cdiv (a b : Nat) : Nat := (a + b - 1) / b

/-! ### Objects -/

namespace State

/-- The value of an object now. -/
def obj (s : State) (k : Nat) : Nat := tabGet (defaultOf k) s.dict k

/-- The value of a signed object. -/
def objI (s : State) (k : Nat) : Int := toSigned (8 * lenOf k) (s.obj k)

/-- The value of a BOOL object. -/
def flag (s : State) (k : Nat) : Bool := s.obj k != 0

/-- Sets an object; the value is held in the object's length. -/
def setObj (s : State) (k v : Nat) : State :=
  s.withDict (tabSet (defaultOf k) s.dict k (v % 256 ^ lenOf k))

/-- Sets a signed object. -/
def setObjI (s : State) (k : Nat) (v : Int) : State := s.setObj k (ofSigned (8 * lenOf k) v)

/-- Adds to a counter, which wraps at its width. -/
def addObj (s : State) (k n : Nat) : State := s.setObj k (s.obj k + n)

/-- Counts one. -/
def bump (s : State) (k : Nat) : State := s.addObj k 1

/-- The whole ticks of Keystone time (00 R7). -/
def ticks (s : State) : Nat := s.time / tick

/-- Values of an object that T-changes recorded: the value before the first change with T after t. -/
def undoAt (k t : Nat) : List (KTime × Nat × Nat) → Option Nat
  | [] => none
  | (T, k', old) :: r => if k' = k ∧ t < T then some old else undoAt k t r

/-- The last write of an object by pending groups with T at or before t, in ascending T. -/
def pendingAt (gs : List Group) (k t : Nat) : Option (KTime × Nat) :=
  gs.foldl (fun best g =>
    if g.t ≤ t then
      match g.writes.find? (fun w => w.1 == k) with
      | some w => match best with
        | some (bt, bv) => if bt < g.t then some (g.t, w.2) else some (bt, bv)
        | none => some (g.t, w.2)
      | none => best
    else best) none

/-- The value of an object in force for an application unit that starts at time t (01 R33, Table 1-9). -/
def objAt (s : State) (k t : Nat) : Nat :=
  match undoAt k t s.undo with
  | some v => v
  | none => match pendingAt s.groups k t with
    | some (_, v) => v
    | none => s.obj k

/-- A BOOL object in force at time t. -/
def flagAt (s : State) (k t : Nat) : Bool := s.objAt k t != 0

/-- A signed object in force at time t. -/
def objIAt (s : State) (k t : Nat) : Int := toSigned (8 * lenOf k) (s.objAt k t)

/-- Draws a free value below n (notes/assumptions/4.md). -/
def drawNat (s : State) (n : Nat) : Nat × State :=
  (Config.freeNat s.free % n, (s.withFree (s.free + 1)))

/-- Sends something out of the device. -/
def emit (s : State) (e : Emission) : State := s.withOutbox (s.outbox ++ [e])

/-! ### Events and vectors (12 R331) -/

/-- Makes a vector pending. -/
def pendVector (s : State) (v : Nat) : State :=
  s.withPev { s.pev with pendingVec := tabSet 0 s.pev.pendingVec v 1 }

/-- The vector of event source n: byte n mod 4 of EVT_VEC(n / 4), bits [5:0]. -/
def eventVector (s : State) (n : Nat) : Nat := fieldAt (tabGet 0 s.pev.evtVec (n / 4)) (n % 4) 1 % 64

/-- An event of source n: counted, and its vector becomes pending where the source is enabled (12 R331). -/
def raiseEvent (s : State) (n : Nat) : State :=
  let s1 := s.withPev { s.pev with evtCount := tabUpd 0 s.pev.evtCount n (fun c => (c + 1) % 2 ^ 32) }
  if bit s1.pev.evtEnable n then s1.pendVector (s1.eventVector n) else s1

/-! ### The promise (01 R17) -/

/-- Writes status.promise with HOLDS, the AND of bits [3:0]; a change of any bit is an event of source 1 (12 Table 12-9). -/
def putPromise (s : State) (v : Nat) : State :=
  let v' := setBit v 4 (bit v 0 && bit v 1 && bit v 2 && bit v 3)
  if v' = s.obj Key.statusPromise then s else (s.setObj Key.statusPromise v').raiseEvent 1

/-- Sets one bit of status.promise. -/
def setPromise (s : State) (b : Nat) (x : Bool) : State := s.putPromise (setBit (s.obj Key.statusPromise) b x)

/-! ### Markers (01 R28 to R31) -/

/-- Cause codes of 01 Table 1-8. -/
def causeAbutmentFull : Nat := 0x01
def causeLinkError : Nat := 0x02
def causePierRecovery : Nat := 0x03
def causeViewSuspended : Nat := 0x04
def causeMemoryLoss : Nat := 0x05
def causeCalStale : Nat := 0x21
def causeHoldover : Nat := 0x22
def causeConditions : Nat := 0x23

/-- The 32-byte image of a marker (01 Table 1-7). -/
def markerImage (cause port pier stream node first view count seq : Nat) : Nat :=
  leNat (natLE 1 (if cause < 0x20 then 1 else 2) ++ natLE 1 cause ++ natLE 2 port ++ natLE 1 pier ++ natLE 1 stream ++
    natLE 2 node ++ natLE 10 first ++ natLE 2 view ++ natLE 8 count ++ natLE 4 seq)

/-- Issues one marker: SEQ of the port, status.gap.last, status.gap.count, the gap event and the stream's copy (01 R28, R30). -/
def issueMarker (s : State) (cause port pier stream first view count : Nat) : State :=
  let s1 := s.bump (Key.portGapSeq port)
  let img := markerImage cause port pier stream (s1.obj Key.spanNode) first view count (s1.obj (Key.portGapSeq port))
  ((((s1.setObj Key.statusGapLast img).bump Key.statusGapCount).raiseEvent 2).emit (.marker img))

end State

/-! ### Access errors (12 R326) -/

/-- Captures an access error: the dword offset, the window, the byte enables and the cause; COUNT saturates. -/
def State.accessError (s : State) (cause bar bytes dword : Nat) : State :=
  let p := s.pcie
  let cnt := min 65535 (fieldAt p.accInfo 2 2 + 1)
  let p' := if p.accErr then { p with accInfo := setFieldAt p.accInfo 2 2 cnt }
    else { p with accErr := true, accAddr := dword, accInfo := cause + 16 * bar + 256 * (bytes % 16) + 65536 * cnt }
  (s.withPcie p').raiseEvent 0

/-- Result codes (13 Table 13-4). -/
abbrev Code := Nat

namespace Res
def done : Code := 0x00
def noObject : Code := 0x01
def noSubindex : Code := 0x02
def access : Code := 0x03
def locked : Code := 0x04
def type : Code := 0x05
def range : Code := 0x06
def busy : Code := 0x07
def capacity : Code := 0x08
def power : Code := 0x09
def state : Code := 0x0A
def overlap : Code := 0x0B
def deferred : Code := 0x0C
def staleId : Code := 0x0D
def auth : Code := 0x0E
def already : Code := 0x0F
def frozen : Code := 0x10
def unsupported : Code := 0x11
def tooLate : Code := 0x12
end Res

/-- Has start-up reached READY or IN_SERVICE (19 Table 19-3)? -/
def State.ready (s : State) : Bool := s.obj Key.suStage == 4 || s.obj Key.suStage == 5

/-- Has the thermal trip acted: no tokens are granted and the Deck stops (17 R458)? -/
def State.deckStopped (s : State) : Bool := s.obj Key.tolDerate == 3

/-- An operation that acts on receipt (13 R356): before READY it returns STATE (19 R504); a code other than DONE or DEFERRED leaves
every object unchanged (13 R359). The code stays in result. -/
def State.onReceipt (s : State) (f : State → Code × State) : Code × State :=
  if s.ready then f s else (Res.state, s)

/-- Runs an operation that acts on receipt as a command of its own. -/
def State.act (s : State) (f : State → Code × State) : State :=
  let r := s.onReceipt f
  r.2.withResult r.1

end Sys2Proof.Machine
end

