-- ==== Sys2Proof/Machine/Operands.lean ====
section
/-! DEFINITION. Trestle cores: instruction words and their fields, and the operand forms: registers of the bank in force, accumulators, data
memory (09 R245, R251, R257, R258). -/

namespace Sys2Proof.Machine

/-! ### Instruction words (09 Table 9-5) -/

/-- The field of a number at a bit position. -/
def fld (v pos : Nat) : Nat := v * 2 ^ pos

/-- The bits an opcode uses, of bits 41 to 0; none for a reserved opcode (09 Table 9-6). -/
def fieldMask (op : Nat) : Option Nat :=
  let sb := fld 1 41
  let rd := fld 15 37
  let ad := fld 7 37
  let ra := fld 15 33
  let an := fld 7 33
  let rb := fld 15 29
  let ax := fld 3 27
  let ay := fld 3 25
  let imm := 2 ^ 24 - 1
  let target := 2 ^ 15 - 1
  let n := 127
  match op with
  | 0x00 => some 0 | 0x01 => some 0 | 0x02 => some 255 | 0x03 => some 0 | 0x04 => some 0
  | 0x05 => some (rd + target) | 0x06 => some target | 0x07 => some 0
  | 0x08 => some (fld (2 ^ 16 - 1) 25 + target) | 0x09 => some (ra + target)
  | 0x0A => some (rd + imm) | 0x0B => some (rd + an + (2 ^ 18 - 1)) | 0x0C => some (rd + an + (2 ^ 18 - 1))
  | 0x0D => some (ad + an + (2 ^ 16 - 1)) | 0x0E => some (ad + ra) | 0x0F => some (rd + an)
  | 0x10 => some (sb + rd + ra + rb) | 0x11 => some (sb + rd + ra + rb) | 0x12 => some (sb + rd + ra + imm)
  | 0x13 => some (sb + rd + ra) | 0x14 => some (sb + rd + ra) | 0x15 => some (sb + rd + ra + rb)
  | 0x16 => some (sb + rd + ra + n) | 0x17 => some (sb + rd + ra + n)
  | 0x18 => some (rd + ra + rb) | 0x19 => some (rd + ra + rb) | 0x1A => some (ra + rb) | 0x1B => some (ra + imm)
  | 0x1C => some (rd + ra + rb) | 0x1D => some (rd + ra + rb) | 0x1E => some (rd + ra + rb) | 0x1F => some (rd + ra + n)
  | 0x20 => some (sb + ax + ra + rb) | 0x21 => some (sb + ax + ra + rb) | 0x22 => some (sb + ax + ra + rb)
  | 0x23 => some (sb + ax + ay) | 0x24 => some (sb + ax + ay) | 0x25 => some ax | 0x26 => some (sb + ax + ra + n)
  | 0x27 => some (sb + ax + n) | 0x28 => some (sb + rd + ay + n) | 0x29 => some (rd + ay + n) | 0x2A => some (ax + ra + n)
  | 0x2B => some (ax + ay) | 0x2C => some (rd + ay) | 0x2D => some (sb + ax + ay + rb) | 0x2E => some (rd + imm)
  | 0x2F => some rd | 0x30 => some imm
  | _ => none

/-- Is a word the encoding of an instruction: an opcode of Table 9-6, and zero in every field it does not use (09 R257)? -/
def wordEncodes (w : Nat) : Bool :=
  match fieldMask (w / 2 ^ 42) with
  | some m => w % 2 ^ 42 ||| m == m
  | none => false

/-- Encodings by shape (09 Tables 9-5, 9-6). -/
def encPlain (op : Nat) : Nat := fld op 42
def encImm (op imm : Nat) : Nat := fld op 42 + imm
def encBr (cond target : Nat) : Nat := fld 0x05 42 + fld cond 37 + target
def encLoop (count last : Nat) : Nat := fld 0x08 42 + fld count 25 + last
def encMem (op rd an off mod : Nat) : Nat := fld op 42 + fld rd 37 + fld an 33 + fld mod 16 + off
def encData (op : Nat) (sat : Bool) (rd ra rb imm : Nat) : Nat := fld op 42 + fld (b2n sat) 41 + fld rd 37 + fld ra 33 + fld rb 29 + imm
def encAcc (op : Nat) (sat : Bool) (ax ay ra rb imm : Nat) : Nat := fld op 42 + fld (b2n sat) 41 + fld ra 33 + fld rb 29 + fld ax 27 + fld ay 25 + imm

/-! ### Registers -/

namespace Core

/-- A data register of the bank in force, as 24 bits, and as its two's complement value. -/
def dreg (c : Core) (n : Nat) : Nat := tabGet 0 c.d (16 * c.bank + n)
def dval (c : Core) (n : Nat) : Int := toSigned 24 (c.dreg n)
/-- An address register of the bank in force. -/
def areg (c : Core) (n : Nat) : Nat := tabGet 0 c.a (8 * c.bank + n)
def putA (c : Core) (n v : Nat) : Core := { c with a := tabSet 0 c.a (8 * c.bank + n) (v % 65536) }
/-- An accumulator, as 56 bits, and as its two's complement value. -/
def areg56 (c : Core) (n : Nat) : Nat := tabGet 0 c.acc n
def aval (c : Core) (n : Nat) : Int := toSigned 56 (c.areg56 n)
def putAcc (c : Core) (n v : Nat) : Core := { c with acc := tabSet 0 c.acc n (v % 2 ^ 56) }
/-- Z, N and V of the bank in force: bits 0, 1 and 2. -/
def zflag (c : Core) : Bool := bit (tabGet 0 c.flags c.bank) 0
def nflag (c : Core) : Bool := bit (tabGet 0 c.flags c.bank) 1
def vflag (c : Core) : Bool := bit (tabGet 0 c.flags c.bank) 2
/-- A word of data memory. -/
def word (c : Core) (a : Nat) : Nat := tabGet 0 c.mem (a % 65536)
def putWord (c : Core) (a v : Nat) : Core := { c with mem := tabSet 0 c.mem (a % 65536) (v % 2 ^ 24) }

/-! ### Results seen later (09 R251) -/

/-- A result takes its place. -/
def land (c : Core) (w : LateWrite) : Core :=
  match w.kind with
  | 0 => { c with d := tabSet 0 c.d w.reg w.value }
  | 1 => { c with flags := tabSet 0 c.flags w.reg w.value }
  | 2 => { c with sticky := c.sticky ||| w.value }
  | _ => { c with sticky := c.sticky &&& ((2 ^ 24 - 1) ^^^ w.value) }

/-- The results that the instruction at the present position sees take their places. -/
def settle (c : Core) : Core :=
  ((c.late.filter fun w => w.at' ≤ c.pos).foldl land { c with late := c.late.filter fun w => c.pos < w.at' })

/-- Every pending result takes its place (09 R251: SYNC, RETE and HALT). -/
def flush (c : Core) : Core := c.late.foldl land { c with late := [] }

/-- A result of this instruction that is seen three positions on. -/
def later (c : Core) (kind reg value : Nat) : Core := { c with late := c.late ++ [{ at' := c.pos + 3, kind := kind, reg := reg, value := value }] }

/-- Writes a data register of the bank in force. -/
def putD (c : Core) (n v : Nat) : Core := c.later 0 (16 * c.bank + n) (v % 2 ^ 24)

/-- Writes Z, N and V. -/
def putFlags (c : Core) (z n v : Bool) : Core := c.later 1 c.bank (b2n z + 2 * b2n n + 4 * b2n v)

end Core

/-- The address of an address register and a signed offset, modulo 2^16 (09 R258). -/
def effective (base off : Nat) : Nat := (((base : Int) + toSigned 16 off) % 65536).toNat

/-- What a post-modification adds (09 Table 9-5). -/
def postMod (mod : Nat) : Int := if mod = 1 then 1 else if mod = 2 then 2 else if mod = 3 then -2 else 0

end Sys2Proof.Machine
end

