-- ==== Sys2Proof/Decode.lean ====
section
/-! DEFINITION. Commands that a word of the operation table's bits spells: no row of the table gives bits. The instruction words of the
trestle cores, to an instruction and back (09 Tables 9-5, 9-6). -/

namespace Sys2Proof

open Machine

/-- The operation table gives its rows neither a mask nor fields, so no word spells a command. -/
def decodeTableWord (_nbits _w : Nat) : Option Instr := none

/-! ### Trestle instruction words -/

/-- The core and the 48-bit word of a trestle instruction (09 Tables 9-5, 9-6). -/
def trestleWord : Instr → Option (Fin 32 × Nat)
  | .nop k => some (k, encPlain 0x00)
  | .halt k => some (k, encPlain 0x01)
  | .trap k code => some (k, encImm 0x02 code.toNat)
  | .sync k => some (k, encPlain 0x03)
  | .rete k => some (k, encPlain 0x04)
  | .br k cond target => some (k, encBr cond.val target.toNat)
  | .call k target => some (k, encImm 0x06 target.toNat)
  | .ret k => some (k, encPlain 0x07)
  | .loop k count last => some (k, encLoop count.toNat last.toNat)
  | .loopr k ra last => some (k, encData 0x09 false 0 ra.val 0 last.toNat)
  | .movi k rd imm => some (k, encData 0x0A false rd.val 0 0 imm.toNat)
  | .ld k rd an off mod => some (k, encMem 0x0B rd.val an.val off.toNat mod.val)
  | .st k rd an off mod => some (k, encMem 0x0C rd.val an.val off.toNat mod.val)
  | .lea k ad an off => some (k, encMem 0x0D ad.val an.val off.toNat 0)
  | .mvda k ad ra => some (k, encData 0x0E false ad.val ra.val 0 0)
  | .mvad k rd an => some (k, encData 0x0F false rd.val an.val 0 0)
  | .add k sat rd ra rb => some (k, encData 0x10 sat rd.val ra.val rb.val 0)
  | .sub k sat rd ra rb => some (k, encData 0x11 sat rd.val ra.val rb.val 0)
  | .addi k sat rd ra imm => some (k, encData 0x12 sat rd.val ra.val 0 imm.toNat)
  | .neg k sat rd ra => some (k, encData 0x13 sat rd.val ra.val 0 0)
  | .abs k sat rd ra => some (k, encData 0x14 sat rd.val ra.val 0 0)
  | .mul k sat rd ra rb => some (k, encData 0x15 sat rd.val ra.val rb.val 0)
  | .shl k sat rd ra n => some (k, encData 0x16 sat rd.val ra.val 0 n.toNat)
  | .asr k sat rd ra n => some (k, encData 0x17 sat rd.val ra.val 0 n.toNat)
  | .min k rd ra rb => some (k, encData 0x18 false rd.val ra.val rb.val 0)
  | .max k rd ra rb => some (k, encData 0x19 false rd.val ra.val rb.val 0)
  | .cmp k ra rb => some (k, encData 0x1A false 0 ra.val rb.val 0)
  | .cmpi k ra imm => some (k, encData 0x1B false 0 ra.val 0 imm.toNat)
  | .and k rd ra rb => some (k, encData 0x1C false rd.val ra.val rb.val 0)
  | .or k rd ra rb => some (k, encData 0x1D false rd.val ra.val rb.val 0)
  | .xor k rd ra rb => some (k, encData 0x1E false rd.val ra.val rb.val 0)
  | .lsr k rd ra n => some (k, encData 0x1F false rd.val ra.val 0 n.toNat)
  | .mpy k sat ax ra rb => some (k, encAcc 0x20 sat ax.val 0 ra.val rb.val 0)
  | .mac k sat ax ra rb => some (k, encAcc 0x21 sat ax.val 0 ra.val rb.val 0)
  | .msu k sat ax ra rb => some (k, encAcc 0x22 sat ax.val 0 ra.val rb.val 0)
  | .adda k sat ax ay => some (k, encAcc 0x23 sat ax.val ay.val 0 0 0)
  | .suba k sat ax ay => some (k, encAcc 0x24 sat ax.val ay.val 0 0 0)
  | .clra k ax => some (k, encAcc 0x25 false ax.val 0 0 0 0)
  | .ldac k sat ax ra n => some (k, encAcc 0x26 sat ax.val 0 ra.val 0 n.toNat)
  | .sha k sat ax n => some (k, encAcc 0x27 sat ax.val 0 0 0 n.toNat)
  | .rnd k sat rd ay n => some (k, encAcc 0x28 sat 0 ay.val 0 0 n.toNat + fld rd.val 37)
  | .mfa k rd ay p => some (k, encAcc 0x29 false 0 ay.val 0 0 p.toNat + fld rd.val 37)
  | .mta k ax ra p => some (k, encAcc 0x2A false ax.val 0 ra.val 0 p.toNat)
  | .cmpa k ax ay => some (k, encAcc 0x2B false ax.val ay.val 0 0 0)
  | .norm k rd ay => some (k, encAcc 0x2C false 0 ay.val 0 0 0 + fld rd.val 37)
  | .mula k sat ax ay rb => some (k, encAcc 0x2D sat ax.val ay.val 0 rb.val 0)
  | .mfs k rd imm => some (k, encData 0x2E false rd.val 0 0 imm.toNat)
  | .mff k rd => some (k, encData 0x2F false rd.val 0 0 0)
  | .clrf k imm => some (k, encImm 0x30 imm.toNat)
  | _ => none

/-- A register number of an instruction word. -/
def reg4 (w pos : Nat) : Fin 16 := Fin.ofNat 16 (w / 2 ^ pos)
def reg3 (w pos : Nat) : Fin 8 := Fin.ofNat 8 (w / 2 ^ pos)
def reg2 (w pos : Nat) : Fin 4 := Fin.ofNat 4 (w / 2 ^ pos)

/-- The trestle instruction that a word of program memory holds: none where it encodes no instruction (09 R257, R258). -/
def trestleDecode (k : Fin 32) (w : Nat) : Option Instr :=
  if wordEncodes w then
    let sat := bit w 41
    let rd := reg4 w 37
    let ra := reg4 w 33
    let rb := reg4 w 29
    let ax := reg2 w 27
    let ay := reg2 w 25
    let imm := BitVec.ofNat 24 w
    let off := BitVec.ofNat 16 w
    let target := BitVec.ofNat 15 w
    let n := BitVec.ofNat 7 w
    match w / 2 ^ 42 with
    | 0x00 => some (.nop k)
    | 0x01 => some (.halt k)
    | 0x02 => some (.trap k (BitVec.ofNat 8 w))
    | 0x03 => some (.sync k)
    | 0x04 => some (.rete k)
    | 0x05 => some (.br k rd target)
    | 0x06 => some (.call k target)
    | 0x07 => some (.ret k)
    | 0x08 => some (.loop k (BitVec.ofNat 16 (w / 2 ^ 25)) target)
    | 0x09 => some (.loopr k ra target)
    | 0x0A => some (.movi k rd imm)
    | 0x0B => some (.ld k rd (reg3 w 33) off (reg2 w 16))
    | 0x0C => some (.st k rd (reg3 w 33) off (reg2 w 16))
    | 0x0D => some (.lea k (reg3 w 37) (reg3 w 33) off)
    | 0x0E => some (.mvda k (reg3 w 37) ra)
    | 0x0F => some (.mvad k rd (reg3 w 33))
    | 0x10 => some (.add k sat rd ra rb)
    | 0x11 => some (.sub k sat rd ra rb)
    | 0x12 => some (.addi k sat rd ra imm)
    | 0x13 => some (.neg k sat rd ra)
    | 0x14 => some (.abs k sat rd ra)
    | 0x15 => some (.mul k sat rd ra rb)
    | 0x16 => some (.shl k sat rd ra n)
    | 0x17 => some (.asr k sat rd ra n)
    | 0x18 => some (.min k rd ra rb)
    | 0x19 => some (.max k rd ra rb)
    | 0x1A => some (.cmp k ra rb)
    | 0x1B => some (.cmpi k ra imm)
    | 0x1C => some (.and k rd ra rb)
    | 0x1D => some (.or k rd ra rb)
    | 0x1E => some (.xor k rd ra rb)
    | 0x1F => some (.lsr k rd ra n)
    | 0x20 => some (.mpy k sat ax ra rb)
    | 0x21 => some (.mac k sat ax ra rb)
    | 0x22 => some (.msu k sat ax ra rb)
    | 0x23 => some (.adda k sat ax ay)
    | 0x24 => some (.suba k sat ax ay)
    | 0x25 => some (.clra k ax)
    | 0x26 => some (.ldac k sat ax ra n)
    | 0x27 => some (.sha k sat ax n)
    | 0x28 => some (.rnd k sat rd ay n)
    | 0x29 => some (.mfa k rd ay n)
    | 0x2A => some (.mta k ax ra n)
    | 0x2B => some (.cmpa k ax ay)
    | 0x2C => some (.norm k rd ay)
    | 0x2D => some (.mula k sat ax ay rb)
    | 0x2E => some (.mfs k rd imm)
    | 0x2F => some (.mff k rd)
    | 0x30 => some (.clrf k imm)
    | _ => none
  else none

end Sys2Proof
end

