-- ==== Sys2Proof/Machine/CalOps.lean ====
section
/-! DEFINITION. Calibration items: staleness, and the application of a set of codes at its point (17 R461, R462, Table 17-1). -/

namespace Sys2Proof.Machine.State

def calItem (s : State) (unit item : Nat) : CalItem := tabGet {} s.cal.items (256 * unit + item)
def putCalItem (s : State) (unit item : Nat) (x : CalItem) : State := s.withCal { s.cal with items := tabSet {} s.cal.items (256 * unit + item) x }

/-- Is the item stale (17 R462)? -/
def calStale (s : State) (unit item : Nat) : Bool := (s.calItem unit item).stale

/-- The degraded causes in force now (01 R31; 02 R48; 17 R462): a time outside LOCKED, and results out of conditions unless the absence of REFCLK is
the only reason. -/
def causesNow (s : State) : Causes :=
  { from' := s.time, hold := s.obj Key.ksState == 2 || s.obj Key.ksState == 3,
    cond := !bit (s.obj Key.statusPromise) 2 && (!s.cond.supplies || !s.cond.temperature || s.cond.excursionUntil.isSome),
    stale := (s.cal.items.filter fun e => e.1 / 256 == 1 && e.2.stale).foldl (fun m e => m ||| 2 ^ (e.1 % 256)) (if s.calStale 3 0 then 2 ^ 128 else 0) }

/-- The degraded cause of a result produced now: OUT_OF_CONDITIONS while IN_CONDITIONS is 0, as bit 2 (01 R16, Table 1-8). -/
def degradedNow (s : State) : Nat := if s.causesNow.cond then 4 else 0

/-- The degraded causes in force at a sample time; before any change, those of power-on reset. -/
def causesAt (s : State) (t : KTime) : Causes := (s.cond.log.find? fun c => c.from' ≤ t).getD { from' := 0, hold := false, cond := true, stale := 0 }

/-- Notes a change of the degraded causes, from the coming edge on. -/
def noteCauses (s : State) : State :=
  let c := s.causesNow
  let o := s.causesAt s.time
  if c.hold = o.hold ∧ c.cond = o.cond ∧ c.stale = o.stale then s else s.withCond { s.cond with log := c :: s.cond.log }

/-- cal.stale.items and cal.stale of a unit (17 Table 17-4). -/
def refreshStale (s : State) (unit : Nat) : State :=
  let n := (s.cal.items.filter fun e => e.1 / 256 == unit && e.2.stale).length
  ((s.setObj (Key.calStaleItems unit) n).setObj Key.calStale (setBit (s.obj Key.calStale) unit (n != 0))).noteCauses

/-- Applies the waiting set of an item, whole and in one step: it stops being stale, and event source 10 counts (17 R461, R462). -/
def applyCal (s : State) (unit item : Nat) : State :=
  let x := s.calItem unit item
  match x.waiting with
  | none => s
  | some codes =>
    let s1 := s.putCalItem unit item { x with codes := codes, waiting := none, applied := s.wall, fails := 0, stale := false }
    ((s1.setObj (Key.calLast unit) s.time).refreshStale unit).raiseEvent 10

/-- At a release edge of a link the waiting sets of its lanes apply (17 Table 17-1). -/
def applyLaneCodes (s : State) (lanes : List Nat) : State := lanes.foldl (fun x n => x.applyCal 1 n) s

/-- Codes per item, bits per code and change limit of a unit (17 Table 17-1). -/
def calShape (unit : Nat) : Nat × Nat × Nat := [(32, 6, 6), (4, 7, 3), (4, 7, 3), (1, 10, 8), (2, 10, 24), (1, 8, 4)].getD unit (0, 0, 0)

/-- Does a new set of codes pass the checks of R461? The change limit is left out at start-up, in a full calibration and in pier recovery. -/
def calPasses (unit : Nat) (old codes : List Nat) (limited : Bool) : Bool :=
  let (n, bits, limit) := calShape unit
  codes.length == n && codes.all (fun c => decide (2 ≤ c ∧ c + 3 ≤ 2 ^ bits)) &&
    (!limited || (codes.zip old).all fun p => decide (p.1 ≤ p.2 + limit ∧ p.2 ≤ p.1 + limit))

/-- An item becomes stale (17 R462). -/
def calStaleNow (s : State) (unit item : Nat) : State := (s.putCalItem unit item { s.calItem unit item with stale := true }).refreshStale unit

/-- A new set of codes: it waits for its point of application, or fails, and the third failure in a row makes the item stale (17 R461, R462). -/
def offerSet (s : State) (unit item : Nat) (codes : List Nat) (limited : Bool) : State :=
  let x := s.calItem unit item
  if calPasses unit x.codes codes limited then s.putCalItem unit item { x with waiting := some codes }
  else
    let s1 := (((s.putCalItem unit item { x with fails := x.fails + 1 }).bump Key.calFails).bump (Key.calUnitFails unit)).raiseEvent 10
    if 3 ≤ x.fails + 1 then s1.calStaleNow unit item else s1

/-- n codes as the measurement gives them: free values of the width of the unit's codes (17 R459; notes/assumptions/4.md). -/
def drawCodes (s : State) (bits : Nat) : Nat → List Nat × State
  | 0 => ([], s)
  | n + 1 =>
    let (c, s1) := s.drawNat (2 ^ bits)
    let (r, s2) := drawCodes s1 bits n
    (c :: r, s2)

/-- Pier recovery calibrates the ingest lanes of its pier, without the change limit (17 R461, R464). -/
def calibratePier (s : State) (p : Nat) : State :=
  (List.range 8).foldl (fun x i => let (codes, y) := x.drawCodes 7 4; y.offerSet 1 (8 * p + i) codes false) s

end Sys2Proof.Machine.State
end

