-- ==== Sys2Proof/Machine/Rules.lean ====
section
/-! DEFINITION. What every refusal rule of 01 R34 is written with: the values a group leaves in force at its T, and rules taken in order. -/

namespace Sys2Proof.Machine

/-- The value the group writes to an object; the last write of the object counts. -/
def Group.write? (g : Group) (k : Nat) : Option Nat :=
  (g.writes.reverse.find? fun w => w.1 == k).map (·.2)

/-- Does the group write the object? -/
def Group.has (g : Group) (k : Nat) : Bool := g.writes.any fun w => w.1 == k

/-- Does the group write an object of index ix? -/
def Group.hasIndex (g : Group) (ix : Nat) : Bool := g.writes.any fun w => w.1 / 256 == ix

/-- Does the group write a subindex from lo to hi of index ix? -/
def Group.hasSubs (g : Group) (ix lo hi : Nat) : Bool :=
  g.writes.any fun w => w.1 / 256 == ix && lo ≤ w.1 % 256 && w.1 % 256 ≤ hi

/-- Does the group write an object at an index from lo to hi? -/
def Group.hasRange (g : Group) (lo hi : Nat) : Bool := g.writes.any fun w => lo ≤ w.1 / 256 && w.1 / 256 ≤ hi

/-- The value of an object that the whole group leaves in force at T (01 R34). -/
def State.staged (s : State) (g : Group) (k : Nat) : Nat :=
  match g.write? k with
  | some v => v
  | none => s.objAt k g.t

/-- A BOOL object that the group leaves in force at T. -/
def State.stagedFlag (s : State) (g : Group) (k : Nat) : Bool := s.staged g k != 0

/-- A signed object that the group leaves in force at T. -/
def State.stagedI (s : State) (g : Group) (k : Nat) : Int := toSigned (8 * lenOf k) (s.staged g k)

/-- The value in force at T without the group. -/
def State.before (s : State) (g : Group) (k : Nat) : Nat := s.objAt k g.t

/-- A rule: refused with the code when the case holds. -/
def refuse (case : Bool) (c : Code) : Option Code := if case then some c else none

/-- Rules in order: the first that refuses. -/
def firstOf : List (Option Code) → Option Code
  | [] => none
  | some c :: _ => some c
  | none :: r => firstOf r

/-- A rule judged for each unit in order. -/
def eachOf {α : Type} (l : List α) (f : α → Option Code) : Option Code :=
  match l with
  | [] => none
  | a :: r => match f a with
    | some c => some c
    | none => eachOf r f

/-- The units of n whose flag object (key of unit u) the group leaves at 1. -/
def State.stagedUnits (s : State) (g : Group) (n : Nat) (key : Nat → Nat) : List Nat :=
  (List.range n).filter fun u => s.stagedFlag g (key u)

/-- Units of an index range that the group writes, each once, ascending. -/
def Group.units (g : Group) (base n : Nat) : List Nat := (List.range n).filter fun u => g.hasIndex (base + u)

/-- The units of a range whose flag object (subindex 01 of each index) is set now, read from the dictionary's entries alone. -/
def State.enabledUnits (s : State) (base n : Nat) : List Nat :=
  (s.dict.filter fun e => base * 256 ≤ e.1 && e.1 < (base + n) * 256 && e.1 % 256 == 1 && e.2 != 0).map fun e => e.1 / 256 - base

end Sys2Proof.Machine
end

