-- ==== Sys2Proof/Machine/Clock.lean ====
section
/-! DEFINITION. The clock: what one tick of the rim does (02 R42, R45, R47, R59, R60), and the Keystone and LO operations that
commands share. -/

namespace Sys2Proof.Machine

namespace State

/-- Keystone states (02 Table 2-2). -/
def ksLocking : Nat := 0
def ksLocked : Nat := 1
def ksHoldover : Nat := 2
def ksSlewing : Nat := 3

/-- IN_CONDITIONS is the AND of the operating conditions (20 R517) and of no excursion (18 R491). -/
def refreshConditions (s : State) : State :=
  (s.setPromise 2 (s.cond.supplies && s.cond.temperature && s.cond.timebase && s.cond.excursionUntil.isNone)).noteCauses

/-- Enters a Keystone state: an event of source 8, and the timebase condition of 20 R517. -/
def enterKs (s : State) (st : Nat) : State :=
  if s.obj Key.ksState = st then s else
  let s1 := (s.setObj Key.ksState st).raiseEvent 8
  (s1.withCond { s1.cond with timebase := st == ksLocked || st == ksSlewing }).refreshConditions

/-- Records the offset and what is left to slew (02 R46). -/
def setOffset (s : State) (off : Int) : State :=
  (s.setObjI Key.ksOffset off).setObjI Key.ksSlewRemaining off

/-- Slewing begins, or LOCKED below 64 fraction units (02 Table 2-3). -/
def slewFrom (s : State) (off : Int) : State :=
  if off.natAbs < 64 then (s.setOffset off).enterKs ksLocked else (s.setOffset off).enterKs ksSlewing

/-- What one tick adds to Keystone time: one tick, plus or minus the slew (02 R45, R47). -/
def keystoneTick (s : State) : State :=
  let st := s.obj Key.ksState
  if st = ksLocking then s
  else if st = ksSlewing then
    let p := s.ks.slewPart + s.obj Key.ksSlewRate * tick
    let off := s.objI Key.ksSlewRemaining
    let u := min (p / 1000000000) off.natAbs
    let d : Int := if 0 ≤ off then u else -u
    let s1 := (s.withKs { s.ks with slewPart := p % 1000000000 }).withTime (((s.time : Int) + tick + d).toNat % 2 ^ 80)
    s1.setOffset (off - d)
  else s.withTime ((s.time + tick) % 2 ^ 80)

/-! ### LO steering synthesiser -/

/-- A segment of the profile: START, initial accumulator, SLOPE (02 R60). DESIGN CHOICE: the accumulator has 53 bits and the field 64; bits 63:53 of the
field are dropped, here and in the range check (notes/assumptions/161.md). -/
def rampStart (table i : Nat) : Nat := fieldAt table (24 * i) 8
def rampInitial (table i : Nat) : Nat := fieldAt table (24 * i + 8) 8 % 2 ^ 53
def rampSlope (table i : Nat) : Int := toSigned 64 (fieldAt table (24 * i + 16) 8)

/-- The word fed to the modulator: bits [52:16] of the ramp accumulator while a segment of a profile is active, else lo.word (02 R58, R60). DESIGN
CHOICE: between the T of a profile and its first START the spec names no word, and the model feeds lo.word (notes/assumptions/162.md). -/
def loWord (s : State) : Nat :=
  if s.obj Key.loRampMode = 0 ∨ s.lo.segment = none then s.obj Key.loWord else s.lo.ramp / 65536 % 2 ^ 37

/-- The sum of some bits of a register. -/
def tapSum (l : Nat) (taps : List Nat) : Nat := taps.foldl (fun a b => a + b2n (bit l b)) 0 % 2

/-- One step of the LFSR of x^32 + x^22 + x^2 + x + 1 (02 R59). Which way the register shifts is not stated: a free constant of the device
(notes/assumptions/12.md). -/
def lfsrStep (l : Nat) : Nat :=
  if Config.lfsrUp then (l * 2 + tapSum l [31, 21, 1, 0]) % 2 ^ 32 else l % 2 ^ 32 / 2 + 2 ^ 31 * tapSum l [22, 2, 1, 0]

/-- The pseudorandom bit of the LFSR; which of its bits it is is not stated: a free constant of the device (notes/assumptions/12.md). -/
def lfsrBit (l : Nat) : Nat := b2n (bit l Config.ditherTap.val)

/-- One tick of the third-order MASH 1-1-1 modulator with a word N × 2^32 + F (02 R59). -/
def mashStep (w : Nat) (dither : Bool) (l : Mash) : Mash :=
  let t1 := l.acc1 + w % 2 ^ 32 + (if dither then lfsrBit l.lfsr else 0)
  let t2 := l.acc2 + t1 % 2 ^ 32
  let t3 := l.acc3 + t2 % 2 ^ 32
  let k2 : Int := (t2 / 2 ^ 32 : Nat)
  let k3 : Int := (t3 / 2 ^ 32 : Nat)
  { acc1 := t1 % 2 ^ 32, acc2 := t2 % 2 ^ 32, acc3 := t3 % 2 ^ 32, c2 := k2, c3 := k3, c3z := l.c3, lfsr := lfsrStep l.lfsr,
    divide := (w / 2 ^ 32 + t1 / 2 ^ 32 : Nat) + (k2 - l.c2) + (k3 - 2 * l.c3 + l.c3z) }

/-- One tick of the LO's modulator (02 R59). -/
def mashTick (s : State) : State := s.withLo { s.lo with mash := mashStep s.loWord (s.flag Key.loDither) s.lo.mash }

/-- One tick of the ramp: the slope of the active segment is added; a single profile holds in its last segment (02 R60, R61;
notes/assumptions/13.md). -/
def rampTick (s : State) : State :=
  match s.lo.segment with
  | none => s
  | some i =>
    if s.obj Key.loRampMode = 0 ∨ (s.obj Key.loRampMode = 1 ∧ s.obj Key.loRampCount ≤ i + 1) then s else
    s.withLo { s.lo with ramp := (((s.lo.ramp : Int) + rampSlope (s.obj Key.loRampTable) i) % 2 ^ 53).toNat }

/-- The ramp generator's and the synthesiser's work at one tick; the generator follows its profile whether or not LOREF is enabled. -/
def loTick (s : State) : State := if s.obj Key.loState = 0 then s.rampTick else s.rampTick.mashTick

/-- Acquisition starts: the modulator restarts from the seed and, unless it is muted already, the mute starts (02 R59, R63). -/
def loAcquire (s : State) : State :=
  let muted := s.obj Key.loState = 1 ∨ s.obj Key.loState = 3
  let s1 := s.withLo { s.lo with acquiredFrom := s.wall, mash := { lfsr := s.obj Key.loSeed } }
  let s2 := s1.setObj Key.loState 1
  if muted then s2 else ((s2.setObj Key.loMuteStart s.time).setObj Key.loMuteEnd 0).raiseEvent 9

/-- The segment of the committed profile that is active at tick k, its START with the repeat advance, and that advance: the last segment whose
START has come; a repeating profile counts on in whole periods from its first START (02 R61). None before the first START. -/
def segmentAt (s : State) (k : Nat) : Option (Nat × Nat × Nat) :=
  let table := s.obj Key.loRampTable
  let period := s.obj Key.loRampPeriod
  let first := rampStart table 0
  if s.obj Key.loRampMode = 0 ∨ k < first then none else
  let adv := if s.obj Key.loRampMode = 2 ∧ 0 < period then (k - first) / period * period else 0
  let i := ((List.range (s.obj Key.loRampCount)).filter fun i => rampStart table i + adv ≤ k).getLastD 0
  some (i, rampStart table i + adv, adv)

/-- Takes the segment active at tick k, if it is not the one running or if a step has moved the time: the accumulator becomes its initial value plus
SLOPE times the ticks elapsed since its START; a single profile holds in its last segment (02 R61; notes/assumptions/13.md). -/
def rampTo (s : State) (k : Nat) (stepped : Bool) : State :=
  match s.segmentAt k with
  | none => s
  | some (i, st, adv) =>
    if !stepped ∧ s.lo.segment = some i ∧ s.lo.advance = adv then s else
    let table := s.obj Key.loRampTable
    let held := s.obj Key.loRampMode = 1 ∧ s.obj Key.loRampCount ≤ i + 1
    let v : Int := if held then rampInitial table i else rampInitial table i + rampSlope table i * (k - st : Nat)
    (s.withLo { s.lo with segment := some i, advance := adv, ramp := (v % 2 ^ 53).toNat }).setObj Key.loRampSegment i

/-! ### Lane PLLs (02 R56, R57) -/

/-- The smallest post-divider that puts the VCO, at rate × divider, from 12.0 to 26.0 GHz; the rate in kBd. -/
def pllDivider (rate : Nat) : Option Nat := [1, 2, 4, 8].find? fun d => decide (12000000 ≤ rate * d ∧ rate * d ≤ 26000000)

/-- N × 2^32 + F of a lane PLL: rate × divider / 400 MHz rounded to the nearest 2^-32. -/
def pllWord (rate : Nat) : Nat := (2 * (rate * (pllDivider rate).getD 1) * 2 ^ 32 + 400000) / 800000

/-- The resulting rate error in parts per 10^12. -/
def pllError (rate : Nat) : Int :=
  ((pllWord rate * 400000 : Int) - rate * (pllDivider rate).getD 1 * 2 ^ 32) * 1000000000000 / (rate * (pllDivider rate).getD 1 * 2 ^ 32 : Int)

/-- A lane PLL starts to lock at a rate in kBd: its modulator runs with dither off from seed 1. No object shows the rate error: it is held with the
PLL (notes/assumptions/163.md). -/
def startPll (s : State) (n rate : Nat) : State :=
  (s.withKs { s.ks with plls := tabSet {} s.ks.plls n { word := pllWord rate, divider := (pllDivider rate).getD 1, error := pllError rate } }).setObj (Key.lanepllState n) 1

/-- A lane PLL is locked. -/
def lockPll (s : State) (n : Nat) : State := s.setObj (Key.lanepllState n) 2

/-- A lane PLL is off. -/
def stopPll (s : State) (n : Nat) : State := (s.withKs { s.ks with plls := tabSet {} s.ks.plls n {} }).setObj (Key.lanepllState n) 0

/-- One tick of the modulators of the lane PLLs that are on. -/
def pllTick (s : State) : State := s.withKs { s.ks with plls := s.ks.plls.map fun e => (e.1, { e.2 with mash := mashStep e.2.word false e.2.mash }) }

end State

/-- One tick of the rim clock with no command waiting: wall time and Keystone time pass and the LO modulator runs
(notes/assumptions/1.md, 2.md). -/
def tickEdge (s : State) : State :=
  let s1 := s.withWall (s.wall + 1)
  (s1.loTick.pllTick).keystoneTick

end Sys2Proof.Machine
end

