-- ==== Sys2Proof/Machine/Digest.lean ====
section
/-! DEFINITION. Check values over byte images: the CRC-32 of 15 R405 and SHA-384 (13 R351, 18 R475). -/

namespace Sys2Proof.Machine

/-! ### CRC-32 of IEEE 802.3 (15 R405): reflected polynomial, starts from all ones, inverted at the end -/

/-- One bit of the CRC register. -/
def crcShift (c : BitVec 32) : BitVec 32 := if c.getLsbD 0 then (c >>> 1) ^^^ 0xEDB88320#32 else c >>> 1

/-- One byte into the CRC register. -/
def crcByte (c : BitVec 32) (b : Byte) : BitVec 32 :=
  let x := c ^^^ (b.setWidth 32)
  crcShift (crcShift (crcShift (crcShift (crcShift (crcShift (crcShift (crcShift x)))))))

/-- The CRC-32 of bytes. -/
def crc32 (b : Bytes) : Nat := (~~~(b.foldl crcByte 0xFFFFFFFF#32)).toNat

/-! ### SHA-384 (named in 13 R351, 18 R475)

A compression is written over two histories of 64-bit words, newest first: the four last words of the upper half of
the working state and the four last of the lower half. A round adds one word to each. The constants are computed from
what the standard says they are, the first 64 fraction bits of roots of primes. -/

/-- A number has no divisor from 2 up to `d`. -/
def noDivisor (n : Nat) : Nat → Bool
  | 0 => true
  | d + 1 => (d == 0 || n % (d + 1) != 0) && noDivisor n d

/-- The primes below 410: the first eighty. -/
def smallPrimes : List Nat := (List.range 410).filter fun n => 2 ≤ n && noDivisor n (min 20 (n - 1))

/-- The largest r below 2^bits with r^k at most `x`, found from the top bit down. -/
def rootBelow (k x : Nat) : Nat → Nat → Nat
  | 0, r => r
  | b + 1, r => rootBelow k x b (if (r + 2 ^ b) ^ k ≤ x then r + 2 ^ b else r)

/-- The first 64 bits of the fraction of the k-th root of a number below 2^12. -/
def rootFraction (k p : Nat) : Nat := rootBelow k (p * 2 ^ (64 * k)) 72 0 % 2 ^ 64

/-- The round constants: cube roots of the first eighty primes. -/
def roundWords : List Nat := smallPrimes.map (rootFraction 3)

/-- The starting histories: square roots of the ninth to the sixteenth prime. -/
def startWords : List Nat := (smallPrimes.drop 8).take 8 |>.map (rootFraction 2)

/-- The exclusive or of a 64-bit word rolled right by each of the amounts. -/
def rolled (x : Nat) (amounts : List Nat) : Nat := amounts.foldl (fun acc n => acc ^^^ ((x + x * 2 ^ 64) / 2 ^ n % 2 ^ 64)) 0

/-- Where the selector's bit is 1 the first word's bit, elsewhere the second's. -/
def bitSelect (sel x y : Nat) : Nat := (sel &&& x) ||| (y - (sel &&& y))

/-- One round with its constant and message word already added up: each history gains its new word. -/
def mixRound (h : List Nat × List Nat) (kw : Nat) : List Nat × List Nat :=
  let up := h.1.getD 0 0
  let lo := h.2.getD 0 0
  let pour := h.2.getD 3 0 + rolled lo [14, 18, 41] + bitSelect lo (h.2.getD 1 0) (h.2.getD 2 0) + kw
  let most := bitSelect (h.1.getD 1 0 ^^^ h.1.getD 2 0) up (h.1.getD 1 0)
  (((pour + rolled up [28, 34, 39] + most) % 2 ^ 64) :: h.1.take 3, ((h.1.getD 3 0 + pour) % 2 ^ 64) :: h.2.take 3)

/-- The message word that follows sixteen others, of which the list holds the newest first. -/
def nextWord (w : List Nat) : Nat :=
  (w.getD 15 0 + (rolled (w.getD 14 0) [1, 8] ^^^ (w.getD 14 0 / 2 ^ 7)) + w.getD 6 0 +
    (rolled (w.getD 1 0) [19, 61] ^^^ (w.getD 1 0 / 2 ^ 6))) % 2 ^ 64

/-- The rounds over the constants left, with the sixteen message words to come, newest first. -/
def mixRounds : List Nat → List Nat → List Nat × List Nat → List Nat × List Nat
  | [], _, h => h
  | c :: cs, w, h => mixRounds cs (nextWord w :: w.take 15) (mixRound h (c + w.getD 15 0))

/-- One 128-byte block into the chaining words. -/
def digestBlock (v : List Nat) (block : Bytes) : List Nat :=
  let words := (List.range 16).map fun i => beNat ((block.drop (120 - 8 * i)).take 8)
  let r := mixRounds roundWords words (v.take 4, v.drop 4)
  List.zipWith (fun x y => (x + y) % 2 ^ 64) v (r.1 ++ r.2)

/-- Cuts bytes into n blocks of k. -/
def chunks (k : Nat) : Nat → Bytes → List Bytes
  | 0, _ => []
  | n + 1, b => b.take k :: chunks k n (b.drop k)

/-- The SHA-384 digest, 48 bytes. -/
def sha384 (m : Bytes) : Bytes :=
  let total := cdiv (m.length + 17) 128 * 128
  let padded := m ++ [0x80] ++ zeros (total - m.length - 17) ++ natBE 16 (8 * m.length)
  (((chunks 128 (total / 128) padded).foldl digestBlock startWords).take 6).flatMap (natBE 8)

end Sys2Proof.Machine
end

