-- ==== Sys2Proof/Machine/Curve.lean ====
section
/-! DEFINITION. P-384: points, and the check of ECDSA signatures with SHA-384 (FIPS 186-4; 09 R263, 13 R369, 18 R477, R484). -/

namespace Sys2Proof.Machine

/-- The field prime 2^384 − 2^128 − 2^96 + 2^32 − 1, the group order and the coefficient b of P-384. -/
def p384 : Nat := 2 ^ 384 - 2 ^ 128 - 2 ^ 96 + 2 ^ 32 - 1
def n384 : Nat := 0xFFFFFFFFFFFFFFFFFFFFFFFFFFFFFFFFFFFFFFFFFFFFFFFFC7634D81F4372DDF581A0DB248B0A77AECEC196ACCC52973
def b384 : Nat := 0xB3312FA7E23EE7E4988E056BE3F82D19181D9C6EFE8141120314088F5013875AC656398D8A2ED19D2A85C8EDD3EC2AEF

/-- The base point. -/
def g384 : Nat × Nat :=
  (0xAA87CA22BE8B05378EB1C71EF320AD746E1D3B628BA79B9859F741E082542A385502F25DBF55296C3A545E3872760AB7,
   0x3617DE4A96262C6F5D9E98BF9292DC29F8F41DBD289A147CE9DA3113B5F0B8C00A60B1CE1D7E819D7A431D7C90EA0E5F)

/-- Is a pair of coordinates a point of the curve? -/
def onCurve (q : Nat × Nat) : Bool :=
  decide (q.1 < p384 ∧ q.2 < p384) && (q.2 * q.2) % p384 == (q.1 * q.1 * q.1 + (p384 - 3) * q.1 + b384) % p384

/-- b^e modulo m, by the bits of e from the highest of fuel. -/
def powMod (m b e : Nat) : Nat :=
  (List.range 384).foldl (fun r i => if bit e (383 - i) then r * r % m * b % m else r * r % m) 1

/-- The inverse modulo a prime. -/
def invMod (m x : Nat) : Nat := powMod m (x % m) (m - 2)

/-- Sum of points; none is the point at infinity. -/
def addPoint : Option (Nat × Nat) → Option (Nat × Nat) → Option (Nat × Nat)
  | none, q => q
  | p, none => p
  | some (x1, y1), some (x2, y2) =>
    if x1 = x2 ∧ (y1 + y2) % p384 = 0 then none else
    let l := if x1 = x2 then (3 * x1 * x1 + p384 - 3) * invMod p384 (2 * y1) % p384
      else (y2 + p384 - y1) * invMod p384 (x2 + p384 - x1) % p384
    let x3 := (l * l + 2 * p384 - x1 - x2) % p384
    some (x3, (l * (x1 + p384 - x3) + p384 - y1) % p384)

/-- k times a point. -/
def mulPoint (k : Nat) (q : Nat × Nat) : Option (Nat × Nat) :=
  (List.range 384).foldl (fun r i =>
    let r2 := addPoint r r
    if bit k (383 - i) then addPoint r2 (some q) else r2) none

/-- The point of a 97-byte uncompressed form beginning 0x04. -/
def pointOf (b : Bytes) : Option (Nat × Nat) :=
  let q := (beNat ((b.drop 1).take 48), beNat ((b.drop 49).take 48))
  if b.length = 97 ∧ b.headD 0 = 4 ∧ onCurve q then some q else none

/-- Does a signature (r then s, 48 bytes each, most significant byte first) of a message verify with a key? -/
def verifySig (key msg sig : Bytes) : Bool :=
  match pointOf key with
  | none => false
  | some q =>
    let r := beNat (sig.take 48)
    let t := beNat ((sig.drop 48).take 48)
    if sig.length ≠ 96 ∨ r = 0 ∨ n384 ≤ r ∨ t = 0 ∨ n384 ≤ t then false else
    let w := invMod n384 t
    let h := beNat (sha384 msg)
    match addPoint (mulPoint (h * w % n384) g384) (mulPoint (r * w % n384) q) with
    | none => false
    | some (x, _) => x % n384 == r

end Sys2Proof.Machine
end

