-- ==== Sys2Proof/Machine/Flags.lean ====
section
/-! DEFINITION. Trestle arithmetic: results out of range saturate or wrap, with V and the sticky flags; Z and N follow the value written (09
R254 to R256). -/

namespace Sys2Proof.Machine

/-- Is an exact result inside a two's complement range of w bits? -/
def inWidth (w : Nat) (x : Int) : Bool := decide (-(2 : Int) ^ (w - 1) ≤ x ∧ x < (2 : Int) ^ (w - 1))

/-- The value written for an exact result: clamped with S, modulo 2^w without (09 R254). -/
def narrowed (w : Nat) (sat : Bool) (x : Int) : Int :=
  if inWidth w x then x
  else if sat then (if x < 0 then -(2 : Int) ^ (w - 1) else (2 : Int) ^ (w - 1) - 1)
  else toSigned w (ofSigned w x)

namespace Core

/-- The sticky flag of a result out of range: DSAT or DWRAP, OVn or GVn, as its MFF bit (09 R254, Table 9-6). -/
def stickyOut (c : Core) (out : Bool) (bitNo : Nat) : Core := if out then c.later 2 0 (2 ^ bitNo) else c

/-- An arithmetic result into a data register. -/
def arith (c : Core) (sat : Bool) (rd : Nat) (x : Int) : Core :=
  let out := !inWidth 24 x
  let v := narrowed 24 sat x
  ((c.putD rd (ofSigned 24 v)).putFlags (v == 0) (v < 0) out).stickyOut out (if sat then 8 else 9)

/-- An arithmetic result into an accumulator. -/
def arithAcc (c : Core) (sat : Bool) (ax : Nat) (x : Int) : Core :=
  let out := !inWidth 56 x
  let v := narrowed 56 sat x
  ((c.putAcc ax (ofSigned 56 v)).putFlags (v == 0) (v < 0) out).stickyOut out ((if sat then 16 else 20) + ax)

/-- A compare: Z and N of the exact difference, V clear (09 Table 9-6). -/
def compare (c : Core) (x : Int) : Core := c.putFlags (x == 0) (x < 0) false

end Core

/-- The leading bits of a 56-bit value equal to its top bit, less one (09 Table 9-6, NORM). -/
def leadingSigns (v : Nat) : Nat := (((List.range 56).map fun i => bit v (55 - i)).takeWhile (· == bit v 55)).length - 1

end Sys2Proof.Machine
end

