-- ==== Sys2Proof/Machine/ConfigDigest.lean ====
section
/-! DEFINITION. The byte images and wire forms of object values (13 R351), the objects that act on receipt (13 R356), and the digest of the
configuration (18 R482). -/

namespace Sys2Proof.Machine

/-- The code of a type (13 Table 13-1). -/
def ObjTy.code : ObjTy → Nat
  | .cmd => 0 | .bool => 1 | .u8 => 2 | .u16 => 3 | .u32 => 4 | .u64 => 5 | .i16 => 6 | .i32 => 7 | .i64 => 8 | .f32 => 9
  | .time80 => 10 | .str => 11 | .blob => 12 | .record => 13

/-- Is a value of the type sent as a byte image (13 R351)? -/
def ObjTy.image : ObjTy → Bool
  | .str | .blob | .record => true
  | _ => false

/-- The type of an object. -/
def tyOf (k : Nat) : ObjTy := match rowOf k with | some r => r.ty | none => .cmd

/-- The access right of an object. -/
def accessOf (k : Nat) : Access := match rowOf k with | some r => r.acc | none => .ro

/-- Bytes that a number needs. -/
def byteLen (v : Nat) : Nat := if v = 0 then 0 else Nat.log2 v / 8 + 1

/-- Is the object a tr.image, whose value has a length of its own (13 R352)? -/
def isImage (k : Nat) : Bool := decide (0x3500 * 256 ≤ k) && decide (k < 0x3520 * 256) && k % 256 == 1

/-- The number that holds bytes of a length of their own: a final byte 1 marks the end; no bytes are 0. -/
def marked (b : Bytes) : Nat := if b.isEmpty then 0 else leNat (b ++ [1])

/-- The bytes of a marked number. -/
def unmarked (v : Nat) : Bytes := natLE (byteLen v - 1) v

/-- The byte image of a value (13 R351): a STR without padding, a tr.image in its own length. -/
def valueBytes (k v : Nat) : Bytes :=
  if isImage k then unmarked v
  else if tyOf k = .str then natLE (byteLen v) v
  else natLE (lenOf k) v

/-- The reserved fields of an object's byte image: offset and length (07 Table 7-6; 09 Table 9-11; 15 Table 15-6). -/
def reservedFields (k : Nat) : List (Nat × Nat) :=
  if isImage k then [(22, 42)]
  else if 0x3000 ≤ k / 256 ∧ k / 256 < 0x3400 ∧ k % 256 = 2 then (List.range 8).map fun j => (16 * j + 12, 4)
  else if k = Key.trussEq then (List.range 20).map fun e => (8 * e + 7, 1)
  else []

/-- A byte image with a field set to zero. -/
def blankField (b : Bytes) (f : Nat × Nat) : Bytes := b.take f.1 ++ zeros (min f.2 (b.length - f.1)) ++ b.drop (f.1 + f.2)

/-- The value that a byte image stands for: what is written to its reserved fields is ignored, and they hold zero (00 R6; notes/assumptions/157.md). -/
def valueOf (k : Nat) (b : Bytes) : Nat :=
  let c := (reservedFields k).foldl blankField b
  if isImage k then marked c else leNat c

/-- The Pelpin wire form of a value: scalars and TIME80 most significant byte first (13 R351). -/
def wireBytes' (k v : Nat) : Bytes := if (tyOf k).image then valueBytes k v else (valueBytes k v).reverse

/-- The value that a Pelpin wire form stands for. -/
def wireValue (k : Nat) (b : Bytes) : Nat := if (tyOf k).image then valueOf k b else beNat b

/-- The objects that act on receipt (13 Table 13-3). -/
def actsOnReceipt (k : Nat) : Bool :=
  let ix := k / 256
  let sb := k % 256
  let at' (lo n s : Nat) : Bool := decide (lo ≤ ix) && decide (ix < lo + n) && sb == s
  at' 0x1400 1 0x07 || at' 0x1012 1 0x21 || (ix == 0x101B && decide (1 ≤ sb ∧ sb ≤ 0x44)) || (ix == 0x1502 && decide (1 ≤ sb ∧ sb ≤ 0x10)) ||
  at' 0x1580 128 0x11 || at' 0x1900 1 0x07 || at' 0x1980 16 0x08 || at' 0x1910 1 0x01 || at' 0x1A08 4 0x05 || at' 0x1A10 16 0x0C ||
  at' 0x3000 1024 0x12 || at' 0x1000 1 0x06 || at' 0x1720 1 0x08 || at' 0x1731 16 0x05 || at' 0x1100 1 0x08 || at' 0x1110 1 0x06 ||
  at' 0x1110 1 0x09 || at' 0x1110 1 0x0D || at' 0x1120 1 0x01 || at' 0x1608 4 0x09

/-- The keys of the objects that the digest takes, in ascending index, then subindex (18 R482). -/
def digestKeys : List Nat :=
  ((List.range 0x3700).drop 0x1000).flatMap fun ix =>
    if !indexImplemented ix then [] else
    ((List.range 255).map fun sb => ix * 256 + sb + 1).filter fun k =>
      match rowOf k with
      | some r => (r.acc == .rw || r.acc == .rwl) && !actsOnReceipt k
      | none => false

/-- What one object adds to the digest (18 R482). -/
def digestItem (k v : Nat) : Bytes :=
  let ty := tyOf k
  let body := if ty == .blob || ty == .record then sha384 (valueBytes k v) else wireBytes' k v
  natBE 2 (k / 256) ++ natBE 1 (k % 256) ++ natBE 1 ty.code ++ natBE 2 body.length ++ body

/-- cfgdigest(t) (18 R482). -/
def State.cfgDigest (s : State) (t : KTime) : Bytes := sha384 (digestKeys.flatMap fun k => digestItem k (s.objAt k t))

end Sys2Proof.Machine
end

