-- ==== Sys2Proof/Machine/Keystone.lean ====
section
/-! DEFINITION. The Keystone timebase and the LO steering synthesiser: commands, group rules and commit effects (02). -/

namespace Sys2Proof.Machine

/-- The outcome of a command that always goes on. -/
abbrev Out := Host.Outcome State Fault Refusal

namespace State

/-- Is any port enabled (02 R51)? -/
def anyPort (s : State) : Bool := !(s.enabledUnits 0x2000 1024).isEmpty

/-- The tick count a SYSREF edge is resolved to: a LOCKED Keystone may stand up to 64 units behind its tick (02 Table 2-3). -/
def edgeTick (s : State) : Nat := (s.time + 64) / tick

/-- The offset of a returning reference, within half a tick, or within half a period with SYSREF in mode 2 (02 R50). -/
def wrapOffset (s : State) (off : Int) : Int :=
  let m : Int := if s.obj Key.sysrefMode = 2 then s.obj Key.sysrefPeriod * tick else tick
  (off + m / 2) % m - m / 2

/-- The deviation of an edge in ticks: expected count minus observed count, nearest to zero (02 R46, R49; notes/assumptions/14.md). -/
def sysrefDeviation (s : State) (c : Nat) : Int :=
  let p : Int := s.obj Key.sysrefPeriod
  let d : Int := (s.obj Key.sysrefPhase - c) % p
  if p / 2 < d then d - p else d

/-- A deviating or matching edge in mode 2 (02 R49, Table 2-3). -/
def monitorSysref (s : State) (c : Nat) : State :=
  let d := s.sysrefDeviation c
  if d = 0 then (s.withKs { s.ks with deviations := 0, lastDeviation := 0 }) else
  let s1 := (s.bump Key.sysrefMisses).setObjI Key.sysrefError d
  let n := if s.ks.lastDeviation = d then s.ks.deviations + 1 else 1
  let s2 := s1.withKs { s1.ks with deviations := n, lastDeviation := d }
  if 4 ≤ n ∧ s2.obj Key.ksState = ksLocked then
    (s2.withKs { s2.ks with deviations := 0, lastDeviation := 0 }).slewFrom (d * tick)
  else s2

/-- TAI in picoseconds of a Keystone time under the mapping (02 R54): one fraction unit is 2,500 / 65,536 ps. -/
def taiPs (s : State) (k : KTime) : Int :=
  let a : Int := s.obj Key.taiAnchorSec * 1000000000000 + s.obj Key.taiAnchorPs
  let dk : Int := (k : Int) - s.obj Key.taiAnchorK
  a + dk * 2500 * (1000000000000 + s.objI Key.taiRate) / (65536 * 1000000000000)

/-- Sets the anchor: Ka and A (02 R54). -/
def setAnchor (s : State) (k : KTime) (ps : Int) : State :=
  ((s.setObj Key.taiAnchorK k).setObj Key.taiAnchorSec (ps / 1000000000000).toNat).setObj Key.taiAnchorPs (ps % 1000000000000).toNat

/-- Enters a TAI state: an event of source 8 (12 Table 12-9). -/
def enterTai (s : State) (st : Nat) : State :=
  if s.obj Key.taiState = st then s else (s.setObj Key.taiState st).raiseEvent 8

/-- The servo takes a measured pair of Keystone time and TAI (02 R55): it steps A in ACQUIRING or beyond 1 ms; otherwise the mapping
goes on from its own value and the rate changes towards the offset by a free amount of at most 100 ppm (notes/assumptions/15.md). -/
def taiMeasure (s : State) (k : KTime) (ps : Int) : State :=
  let off := ps - s.taiPs k
  let s0 := s.withKs { s.ks with syncedAt := s.wall }
  if s.obj Key.taiState ≤ 1 ∨ (s.obj Key.taiState = 2 ∨ s.obj Key.taiState = 3) ∧ 1000000000 < off.natAbs then
    ((s0.setAnchor k ps).bump Key.taiSteps).enterTai 2
  else
    let (d, s1) := s0.drawNat 100000001
    let change : Int := if off = 0 then 0 else if 0 < off then d else -d
    let rate := max (-200000000) (min 200000000 (s.objI Key.taiRate + change))
    (((s1.setAnchor k (s.taiPs k)).setObjI Key.taiRate rate).enterTai 2)

/-- A write of ks.load (02 R51): the cases in order, else the load is armed. -/
def immKsLoad (v : Nat) (s : State) : Code × State :=
  if s.obj Key.ksState ≠ ksLocked ∨ s.anyPort then (Res.state, s)
  else if s.obj Key.sysrefMode = 0 then (Res.state, s)
  else if v % tick ≠ 0 then (Res.range, s)
  else if v / tick % s.obj Key.sysrefPeriod ≠ s.obj Key.sysrefPhase then (Res.range, s)
  else (Res.deferred, (s.withKs { s.ks with load := some v, loadDue := false }).setObj Key.ksLoad v)

/-- The lock is confirmed: the output is released and the mute ends (02 R63). -/
def loConfirm (s : State) : State :=
  ((s.setObj Key.loState 2).setObj Key.loMuteEnd s.time).raiseEvent 9

end State

/-- REFCLK absent for 16 oscillator periods or off by more than 200 ppm: HOLDOVER (02 R45, Table 2-3). -/
def execRefclkLoss (s : State) : Out :=
  if s.obj Key.ksState = State.ksLocked ∨ s.obj Key.ksState = State.ksSlewing then
    .next (((s.setOffset 0).bump Key.ksHoldoverCount).enterKs State.ksHoldover)
  else .next s

/-- REFCLK valid for 400,000 ticks: from LOCKING with the phase error below 64 units the count starts at 0; from HOLDOVER the
measured offset decides (02 R45, R50). DESIGN CHOICE: a command between two ticks belongs to the coming edge, whose count is in time, so that the count
is 0 at the next edge and ks.now reads the coming edge; only an edge on PPS_IN, which carries its place within a tick, is stamped after the count that time
holds (notes/assumptions/159.md). -/
def execRefclkValid (offset : Int) (s : State) : Out :=
  if s.obj Key.ksState = State.ksLocking then
    if offset.natAbs < 64 then .next (((s.withTime 0)).enterKs State.ksLocked) else .next s
  else if s.obj Key.ksState = State.ksHoldover then .next (s.slewFrom (s.wrapOffset offset))
  else .next s

/-- What a load to V does beside the count: what was in force stays in force, in the new count, and cursors and watermarks start again (02 R51;
notes/assumptions/160.md). No port is enabled. -/
def State.rebase (s : State) (old new : KTime) : State :=
  let inForce (l : List KTime) : List KTime := l.map fun t => if t ≤ old then 0 else t
  let s1 := (s.withUndo []).withFes { s.fes with resets := s.fes.resets.filter fun r => !r.2, changes := [], starts := [], lastPinTs := 0 }
  let s1 := s1.withViews { s1.views with events := [], passed := (List.range 512).foldl (fun m v => tabSet 0 m v (s.obj (Key.viewEpoch v))) s1.views.passed }
  let s2 := s1.withAcq { s1.acq with ctxs := s1.acq.ctxs.map fun e => (e.1, { e.2 with gens := inForce e.2.gens, arms := inForce e.2.arms, terms := [], stages := [], fired := none, taken := none, passed := 0, from' := 0, rearm := 0, gen := 0 }) }
  let s2 := s2.withTrig { s2.trig with events := [], marks := [], lastEdge := [], logCursor := none, sentMark := 0, remoteAt := s2.trig.remoteAt.map fun e => (e.1, new + 1) }
  s2.withCond { s2.cond with log := (s2.cond.log.take 1).map fun c => { c with from' := 0 } }

/-- A SYSREF edge: a due load gives it Keystone time V; it is time-stamped; mode 1 takes the phase from the first edge after its
write and mode 2 monitors (02 R49, R51). -/
def execSysrefEdge (s : State) : Out :=
  let s1 := match s.ks.load with
    | some v => if s.ks.loadDue then (((s.rebase s.time (v % 2 ^ 80)).withTime (v % 2 ^ 80)).withKs { s.ks with load := none, loadDue := false }) else s
    | none => s
  let c := s1.edgeTick
  let s2 := s1.setObj Key.sysrefLast (c * tick)
  if s2.obj Key.sysrefMode = 1 then
    if s2.ks.alignArmed then
      .next (((s2.withKs { s2.ks with alignArmed := false })).setObj Key.sysrefPhase (c % s2.obj Key.sysrefPeriod))
    else .next s2
  else if s2.obj Key.sysrefMode = 2 then .next (s2.monitorSysref c)
  else .next s2

/-- A PPS_IN edge on the committed slope: time-stamped to 1,024 units, makes an armed load due and anchors the mapping in source 3
(02 R51, R54, Table 2-5). -/
def execPpsEdge (rising : Bool) (pos : Fin 64) (s : State) : Out :=
  if rising != (s.obj Key.ppsEdge == 0) then .next s else
  let k := s.ticks * tick + pos.val * 1024
  let s1 := (s.setObj Key.ppsLast k).bump Key.ppsCount
  let s2 := if s1.ks.load.isSome then (s1.withKs { s1.ks with loadDue := true }) else s1
  if s2.obj Key.taiSource ≠ 3 then .next s2 else
  let s3 := s2.withKs { s2.ks with syncInterval := 400000000 }
  if s3.ks.secondsFresh then
    .next (((s3.withKs { s3.ks with secondsFresh := false })).taiMeasure k (s3.obj Key.taiSeconds * 1000000000000))
  else if s3.obj Key.taiState < 2 then .next s3
  else .next (s3.taiMeasure k ((s3.taiPs k + 500000000000) / 1000000000000 * 1000000000000))

/-- The command ks.load (02 R51). -/
def execKsLoad (v : Nat) (s : State) : Out :=
  if 2 ^ 80 ≤ v then .next (s.withResult Res.type) else .next (s.act (State.immKsLoad v))

/-- Slewing has brought the offset below 64 units: LOCKED (02 R45, R47). -/
def execSlewComplete (s : State) : Out :=
  if s.obj Key.ksState = State.ksSlewing ∧ (s.objI Key.ksSlewRemaining).natAbs < 64 then .next (s.enterKs State.ksLocked) else .next s

/-- Three synchronisation intervals missed: HOLDOVER, and the rate is frozen (02 R55). -/
def execTaiHoldover (s : State) : Out :=
  let src := s.obj Key.taiSource
  if s.obj Key.taiState = 2 ∧ 1 ≤ src ∧ src ≤ 3 ∧ s.ks.syncedAt + 3 * s.ks.syncInterval ≤ s.wall then .next (s.enterTai 3) else .next s

/-- The due command lo.relock restarts acquisition and the modulator (02 R59, R63, R64). -/
def execLoRelock (s : State) : Out :=
  if s.due.any (fun d => d.1 == Key.loRelock) then
    let s1 := s.withDue (s.due.filter (fun d => d.1 != Key.loRelock))
    if s1.obj Key.loState = 0 then .next s1 else .next s1.loAcquire
  else .next s

/-- 25,600 consecutive ticks in the lock window: the output is released (02 R63); later than 4,000,000 ticks after the start of acquisition the
synthesiser has FAILED (02 R64). -/
def execLoLockConfirmed (s : State) : Out :=
  if s.obj Key.loState ≠ 1 ∨ s.wall < s.lo.acquiredFrom + 25600 then .next s
  else if s.lo.acquiredFrom + 4000000 < s.wall then .next (s.setObj Key.loState 3)
  else .next s.loConfirm

/-- No lock within 4,000,000 ticks: FAILED, muted (02 R64). -/
def execLoLockTimeout (s : State) : Out :=
  if s.obj Key.loState = 1 ∧ s.lo.acquiredFrom + 4000000 ≤ s.wall then .next (s.setObj Key.loState 3) else .next s

/-- Loss of lock: muted, acquisition starts again (02 R63). -/
def execLoLockLoss (s : State) : Out :=
  if s.obj Key.loState = 2 then .next s.loAcquire else .next s

/-- A segment's START has come (02 R61). -/
def execLoRampSegment (s : State) : Out := .next (s.rampTo s.ticks false)

/-! ### Group rules of chapter 02 -/

/-- W and D leave the output from 10 MHz to 3.2 GHz and the VCO from 6.4 to 12.8 GHz (02 R58). -/
def loInRange (w d : Nat) : Bool :=
  2 ^ 36 ≤ w && w ≤ 2 ^ 37 && 10 * d * 2 ^ 32 ≤ 400 * w && 400 * w ≤ 3200 * d * 2 ^ 32

/-- Does the path of segment i, up to the START that ends it, stay in range (02 R62)? -/
def rampPathOk (table cnt mode period d i : Nat) : Bool :=
  let stop : Int := if i + 1 < cnt then (rampEnd (i + 1)) else if mode = 2 then rampEnd 0 + period else rampEnd i
  let first : Int := State.rampInitial table i
  let last := first + State.rampSlope table i * (stop - rampEnd i)
  let ok (v : Int) := decide (0 ≤ v) && loInRange (v.toNat / 65536) d
  ok first && (if i + 1 < cnt ∨ mode = 2 then ok last else true)
where
  rampEnd (j : Nat) : Int := State.rampStart table j

/-- The refusals of R52, tai.rate, R58, R61 and R62, in the order of the chapter. -/
def rulesTimebase (s : State) (g : Group) : Option Code :=
  if !g.hasRange 0x1400 0x1405 then none else
  let v := s.staged g
  let step := g.write? Key.ksStep
  let d := s.stagedI g Key.ksStep
  let prof := g.has Key.loRampMode || g.has Key.loRampCount || g.has Key.loRampPeriod || g.has Key.loRampTable
  let mode := v Key.loRampMode
  let cnt := v Key.loRampCount
  let table := v Key.loRampTable
  let starts := (List.range cnt).map (State.rampStart table)
  let on := prof && mode != 0
  let paths := (List.range cnt).all fun i => rampPathOk table cnt mode (v Key.loRampPeriod) (v Key.loDivider) i
  firstOf [
    refuse (step.isSome && v Key.sysrefMode == 2 && (d / tick - s.objI Key.ksSlewRemaining / tick) % (v Key.sysrefPeriod : Int) != 0) Res.range,
    refuse (step.isSome && (s.obj Key.ksState == State.ksLocking || s.obj Key.ksState == State.ksHoldover)) Res.state,
    refuse (g.has Key.taiRate && v Key.taiSource != 4) Res.access,
    refuse ((g.has Key.loWord || g.has Key.loDivider) && !loInRange (v Key.loWord) (v Key.loDivider)) Res.range,
    refuse (g.has Key.loDivider && !prof && mode != 0 && !paths) Res.range,
    refuse (on && starts.any (fun st => st * tick < g.t)) Res.tooLate,
    refuse (on && !(starts.zip starts.tail).all (fun p => p.1 < p.2)) Res.range,
    refuse (on && !paths) Res.range,
    refuse (on && mode == 2 && v Key.loRampPeriod ≤ starts.getLast?.getD 0 - starts.head?.getD 0) Res.range]

/-! ### Commit effects of chapter 02 -/

/-- The synthesiser at a commit: enable, disable, a change of D, and a new profile (02 R61, R63). old is the value of an object before
the commit. -/
def commitLo (s : State) (g : Group) (old : Nat → Nat) : State :=
  let prof := g.has Key.loRampMode || g.has Key.loRampCount || g.has Key.loRampPeriod || g.has Key.loRampTable
  let s1 := if prof then
      s.withLo { s.lo with ramp := (if s.lo.segment = none ∨ old Key.loRampMode = 0 then old Key.loWord * 65536 else s.lo.ramp), segment := none, advance := 0 }
    else s
  let on := s1.flag Key.loEnable
  let was := old Key.loEnable != 0
  if on && !was then s1.loAcquire
  else if !on && was then s1.setObj Key.loState 0
  else if on && s1.obj Key.loDivider != old Key.loDivider then s1.loAcquire
  else s1

/-- TAI at a commit: source 0 is UNMAPPED, sources 1 to 3 acquire, source 4 takes tai.seconds at T (02 R54). DESIGN CHOICE: the spec names ACQUIRING
and no way into or out of it; the model enters it at a commit that changes tai.source to 1, 2 or 3 and leaves it for MAPPED at the first measurement
(notes/assumptions/164.md). -/
def commitTai (s : State) (g : Group) (old : Nat → Nat) : State :=
  let src := s.obj Key.taiSource
  let fresh := g.has Key.taiSeconds
  let s1 := if src ≠ old Key.taiSource then s.enterTai (if src = 0 then 0 else 1) else s
  let s2 := if fresh then (s1.withKs { s1.ks with secondsFresh := true }) else s1
  if src = 4 ∧ fresh then ((s2.setAnchor g.t (s2.obj Key.taiSeconds * 1000000000000)).bump Key.taiSteps).enterTai 2 else s2

/-- A step by d at T: Keystone time jumps and what is left of the offset is slewed (02 R52; notes/assumptions/16.md). -/
def State.stepTime (s : State) (T d : Nat) : State :=
  let s1 := (s.withTime ((s.time + d) % 2 ^ 80)).withProds { s.prods with steps := s.prods.steps ++ [(T, T + d)] }
  if s1.obj Key.ksState = State.ksSlewing then s1.slewFrom (s1.objI Key.ksSlewRemaining - d) else s1

/-- sysref.mode 1 written: the first edge after it sets the phase (02 R49). -/
def commitSysref (s : State) (g : Group) : State :=
  if g.has Key.sysrefMode then (s.withKs { s.ks with alignArmed := s.obj Key.sysrefMode == 1, deviations := 0, lastDeviation := 0 }) else s

end Sys2Proof.Machine
end

