-- ==== Sys2Proof/Machine/MemOps.lean ====
section
/-! DEFINITION. DRAM: the address map, requests and their queues, loss at a frozen channel (10 R271 to R278, R284 to R286). -/

namespace Sys2Proof.Machine

/-! ### DRAM contents -/

/-- What an address that the contents do not list reads as (notes/assumptions/5.md). -/
def unlisted : Byte := 0

/-- The byte at a DRAM address. -/
def Mem.byte (m : Mem) (a : Nat) : Byte := tabGet unlisted m.cells a

/-- Bytes from an address. -/
def Mem.bytes (m : Mem) (a n : Nat) : Bytes := (List.range n).map fun i => m.byte (a + i)

/-- Writes bytes from an address. -/
def writeCells (cells : List Host.Cell) (a : Nat) : Bytes → List Host.Cell
  | [] => cells
  | b :: r => writeCells (tabSet unlisted cells a b) (a + 1) r

/-- Writes the bytes that a mask takes from an address on; where the mask has ended every byte is taken. -/
def writeMasked (cells : List Host.Cell) (a : Nat) : List Bool → Bytes → List Host.Cell
  | _, [] => cells
  | [], d => writeCells cells a d
  | m :: ms, b :: r => writeMasked (if m then tabSet unlisted cells a b else cells) (a + 1) ms r

/-- Stores the bytes of a write request. -/
def MemReq.store (r : MemReq) (cells : List Host.Cell) : List Host.Cell := writeMasked cells r.addr r.mask r.data

/-- Canonical contents: addresses strictly rising, no entry equal to what an unlisted address reads as. -/
def Mem.wf (m : Mem) : Bool := tabWf unlisted m.cells

namespace State

def putMem (s : State) (m : Mem) : State := s.withMem m
def memChan (s : State) (k : Nat) : MemChan := tabGet {} s.mem.chans k
def putMemChan (s : State) (k : Nat) (c : MemChan) : State := s.withMem { s.mem with chans := tabSet {} s.mem.chans k c }

/-! ### Address map (10 R271 to R273) -/

def grain (s : State) : Nat := s.obj Key.memGrain
def lanes0 (s : State) : Nat := s.obj Key.memLanes
def memSize (s : State) : Nat := s.obj Key.memSize

end State

/-- Does an extent lie in the fixed region of a configuration (10 R273)? Before memory has trained its size is unknown, and board data is not judged against it
(notes/assumptions/178.md). -/
def fixedHolds (v : Nat → Nat) (a n : Nat) : Bool :=
  if v Key.memFixedSize = 0 then v Key.memSize == 0 || decide (a + n ≤ v Key.memSize) else decide (a + n ≤ v Key.memFixedSize)

namespace State

/-- The end of the fixed region: the whole space while mem.fixed.size is 0 (10 R273). -/
def fixedEnd (s : State) : Nat := if s.obj Key.memFixedSize = 0 then s.memSize else s.obj Key.memFixedSize

/-- Does an extent lie in the fixed region (10 R273)? -/
def inFixed (s : State) (a n : Nat) : Bool := a + n ≤ s.fixedEnd

/-- The chunk that holds an address, after redirection (10 R271, R286). -/
def chunkOf (s : State) (a : Nat) : Nat :=
  let c := a / s.grain
  match tabGet 0 s.mem.redirect c with
  | 0 => c
  | t + 1 => t

/-- The channel of a lane (10 R271). -/
def chanOfLane (s : State) (lane : Nat) : Option Nat :=
  (List.range 16).find? fun k => s.obj (Key.memchLane k) == lane

/-- The channel that an address lies on. -/
def chanOf (s : State) (a : Nat) : Option Nat :=
  if s.lanes0 = 0 then none else s.chanOfLane (s.chunkOf a % s.lanes0)

/-- The channel offset of an address (10 R271). -/
def chanOffset (s : State) (a : Nat) : Nat := s.chunkOf a / s.lanes0 * s.grain + a % s.grain

/-- The location of a channel offset: subchannel, bank group, bank, column, rank, DIMM, row; the fields above an absent rank or DIMM bit
move down (10 Table 10-2). -/
def location (s : State) (k o : Nat) : Nat × Nat × Nat × Nat × Nat × Nat × Nat :=
  let two := s.obj (Key.memchRanks k) == 2
  let dd := s.obj (Key.memchDimms k) == 2
  let hi := o >>> 19
  let rank := if two then hi % 2 else 0
  let hi2 := if two then hi / 2 else hi
  let dimm := if dd then hi2 % 2 else 0
  let row := if dd then hi2 / 2 else hi2
  ((o >>> 6) % 2, (o >>> 7) % 8, (o >>> 10) % 4, (o >>> 12) % 128 * 16, rank, dimm, row % 65536)

/-- The bank queue of an address on its channel: subchannel, bank group, bank, rank and DIMM as one number. -/
def bankOf (s : State) (k a : Nat) : Nat :=
  let (sc, bg, b, _, r, d, _) := s.location k (s.chanOffset a)
  sc + 2 * bg + 16 * b + 64 * r + 128 * d

/-- The DRAM row of an address. -/
def rowAt (s : State) (k a : Nat) : Nat :=
  let (_, _, _, _, _, _, row) := s.location k (s.chanOffset a)
  row

/-- Does a request to an address of a frozen channel wait: is the remap of its chunk's lane not complete (10 R286)? -/
def remapWaits (s : State) (a : Nat) : Bool :=
  s.obj Key.memFixedSize != 0 && decide (a < s.fixedEnd) && s.mem.remaps.any fun e => e.1 == s.chunkOf a % s.lanes0

/-- Does an address lie on a frozen channel, or on none? -/
def onFrozen (s : State) (a : Nat) : Bool := match s.chanOf a with
  | none => true
  | some k => s.obj (Key.memchState k) == 5

/-- Is a request to an address lost (10 R285, R286)? -/
def lostAt (s : State) (a : Nat) : Bool := s.onFrozen a && !s.remapWaits a

/-! ### Loss (10 R285) -/

/-- Is the request's descriptor the one that its mover channel works on? -/
def moverAtWork (s : State) (m serial : Nat) : Bool :=
  let x := tabGet ({} : Mover) s.movers m
  x.desc.isSome && x.serial == serial

/-- A write acknowledged as lost: a ring writer is told, and its loss gives markers; every other loss is counted, and a mover is told of those of the
descriptor in progress (10 R285; 12 R343, R344). -/
def loseWrite (s : State) (r : MemReq) : State :=
  let told := s.withMem { s.mem with lostWrites := s.mem.lostWrites ++ [(r.owner, r.addr)] }
  match r.owner with
  | .ringWriter .. => told
  | .mover m n => (if s.moverAtWork m n then told else s).bump Key.memLostWrites
  | _ => s.bump Key.memLostWrites

/-- A read that completes with zero data and a loss indication; a ring read's loss makes its samples missing and a PCIe read's is captured, every other one is
counted (10 R285; 12 R334). -/
def loseRead (s : State) (r : MemReq) : State :=
  let told := s.withMem { s.mem with arrived := s.mem.arrived ++ [(r.owner, r.addr, zeros r.len, true)] }
  match r.owner with
  | .extract .. | .aperture _ => told
  | .abandoned => s
  | .scrub | .peeked => s.bump Key.memLostReads
  | _ => told.bump Key.memLostReads

/-- A request lost on a frozen channel. -/
def loseReq (s : State) (r : MemReq) : State := if r.write then s.loseWrite r else s.loseRead r

/-! ### Requests -/

/-- Puts a request of one burst into its channel's queue (10 R276, R277, R281). A request to a frozen channel waits while its chunk's new
target is pending, and is lost otherwise (10 R285, R286). -/
def enqueue (s : State) (owner : Owner) (cls : Nat) (write : Bool) (addr len : Nat) (data : Bytes) (mask : List Bool := []) : State :=
  let r : MemReq := { id := s.mem.nextId, owner := owner, cls := cls, write := write, addr := addr, len := len, data := data, arrival := s.wall, promoted := false, mask := mask }
  let s0 := s.withMem { s.mem with nextId := s.mem.nextId + 1 }
  match s0.chanOf addr with
  | none => s0.loseReq r
  | some k =>
    if s0.obj (Key.memchState k) = 5 then
      if s0.remapWaits addr then
        s0.withMem { s0.mem with waiting := s0.mem.waiting ++ [r] }
      else s0.loseReq r
    else
      let c := s0.memChan k
      let b := s0.bankOf k addr
      let row := s0.rowAt k addr
      let q := if write then c.queue.filter fun x => !(x.owner == .writeBack && x.addr / 64 == addr / 64) else c.queue
      let clash := !write && q.any fun x => x.write && s0.bankOf k x.addr == b && s0.rowAt k x.addr == row
      let enters := clash && tabGet 0 c.inOrder b == 0
      let s1 := s0.putMemChan k { c with queue := q ++ [r], lastRequest := s0.wall, inOrder := if enters then tabSet 0 c.inOrder b (r.id + 1) else c.inOrder }
      if enters then s1.bump (Key.memchInorder k) else s1

/-- Does a request come from a stage of the Deck, or from a builder behind it, over an output abutment (01 R9, R18)? -/
def deckOwner : Owner → Bool
  | .staging .. | .trestle _ | .product .. | .viewRecord _ | .spectrogram _ | .trigLog | .completion => true
  | _ => false

/-- Bytes of the Deck that wait for memory. -/
def outputHeld (s : State) : Nat :=
  let bytes (l : List MemReq) : Nat := l.foldl (fun a r => if r.write && deckOwner r.owner then a + r.len else a) 0
  s.mem.chans.foldl (fun a e => a + bytes e.2.queue) (bytes s.mem.waiting)

/-- Do the output abutments hold the Deck: are they full of data bound for memory (01 R20; notes/assumptions/171.md)? -/
def outputFull (s : State) : Bool := decide (0 < s.outputHeld) && decide (Config.outputRoom ≤ s.outputHeld)

/-- Does the Deck wait: has the thermal trip stopped it, or is an output abutment full? -/
def deckHeld (s : State) : Bool := s.deckStopped || s.outputFull

/-- The pieces of an extent that lie in one 64-byte burst each: address and length. -/
def bursts (a n : Nat) : List (Nat × Nat) :=
  if n = 0 then [] else
  (List.range ((a + n - 1) / 64 - a / 64 + 1)).map fun i =>
    let lo := max a ((a / 64 + i) * 64)
    let hi := min (a + n) ((a / 64 + i + 1) * 64)
    (lo, hi - lo)

/-- Writes bytes to DRAM: one request for each burst. -/
def memWrite (s : State) (owner : Owner) (cls a : Nat) (data : Bytes) : State :=
  (bursts a data.length).foldl (fun x (lo, n) => x.enqueue owner cls true lo n ((data.drop (lo - a)).take n)) s

/-- Reads bytes of DRAM: one request for each burst. -/
def memRead (s : State) (owner : Owner) (cls a n : Nat) : State :=
  (bursts a n).foldl (fun x (lo, m) => x.enqueue owner cls false lo m []) s

/-- Requests of an owner not yet issued, waiting for a remap, or read and not yet returned. -/
def outstanding (s : State) (o : Owner) : Bool :=
  s.mem.waiting.any (fun r => r.owner == o) || s.mem.chans.any fun (_, c) => c.queue.any (fun r => r.owner == o) || c.issued.any (fun r => r.owner == o)

/-- Requests of an owner for an extent not yet acknowledged. -/
def outstandingIn (s : State) (o : Owner) (a n : Nat) : Bool :=
  let hits (r : MemReq) : Bool := r.owner == o && a ≤ r.addr && r.addr < a + n
  s.mem.waiting.any hits || s.mem.chans.any fun (_, c) => c.queue.any hits || c.issued.any hits

/-- Takes the data that an owner's reads from address a on returned: n bytes, and whether any of them was lost. -/
def takeRead (s : State) (o : Owner) (a n : Nat) : (Bytes × Bool) × State :=
  let mine := s.mem.arrived.filter fun e => e.1 == o && a ≤ e.2.1 && e.2.1 < a + n
  let cells := mine.foldl (fun cs e => writeCells cs e.2.1 e.2.2.1) []
  let data := (List.range n).map fun i => tabGet unlisted cells (a + i)
  ((data, mine.any fun e => e.2.2.2), (s.withMem { s.mem with arrived := s.mem.arrived.filter fun e => !(e.1 == o && a ≤ e.2.1 && e.2.1 < a + n) }))

/-- Does an owner have reads that have not returned? -/
def readsOutstanding (s : State) (p : Owner → Bool) : Bool :=
  let hits (r : MemReq) : Bool := !r.write && p r.owner
  s.mem.waiting.any hits || s.mem.chans.any fun (_, c) => c.queue.any hits || c.issued.any hits

/-- What the memory would return to a read accepted now: the contents with every accepted write that waits (10 R278); zero where the read is lost, and where its
chunk's remap is not complete, since the chunk then reads as zero until it is written (10 R285, R286). -/
def memPeek (s : State) (a n : Nat) : Bytes :=
  let waiting := (s.mem.chans.flatMap fun (_, c) => c.queue.filter (·.write)) ++ s.mem.waiting.filter (·.write)
  let cells := waiting.foldl (fun cs r => r.store cs) s.mem.cells
  let fresh := (s.mem.waiting.filter (·.write)).foldl (fun cs r => r.store cs) []
  (bursts a n).flatMap fun (lo, m) => (List.range m).map fun i =>
    if s.lostAt lo then 0 else tabGet unlisted (if s.onFrozen lo then fresh else cells) (lo + i)

/-- Would a read of an extent lose bytes on a frozen channel (10 R285)? -/
def readLost (s : State) (a n : Nat) : Bool := (bursts a n).any fun b => s.lostAt b.1

/-- A read whose data its requester takes as accepted (notes/assumptions/177.md): the bytes, whether any of them is lost, and the requests in their queues. -/
def memTake (s : State) (cls a n : Nat) : (Bytes × Bool) × State := ((s.memPeek a n, s.readLost a n), s.memRead .peeked cls a n)

/-- In-order mode of a bank whose queue holds the requests given: the read that causes it next, one that matches the row of an earlier write (10 R277). -/
def stillInOrder (s : State) (k : Nat) (mine : List MemReq) : Option Nat :=
  (mine.zipIdx.find? fun (r, i) => !r.write && (mine.take i).any fun w => w.write && s.rowAt k w.addr == s.rowAt k r.addr).map fun e => e.1.id

/-- The in-order modes of a channel's banks once its queue has become q: a mode whose read has left goes on only for another such read (10 R277). -/
def inOrderAfter (s : State) (k : Nat) (q : List MemReq) (modes : Tab Nat) : Tab Nat :=
  modes.foldl (fun t (b, m) => if q.any fun r => r.id + 1 == m then t else
    tabSet 0 t b (match s.stillInOrder k (q.filter fun r => s.bankOf k r.addr == b) with | some i => i + 1 | none => 0)) modes

/-- Abandons the reads of requesters: those that wait leave their queues, and one already sent to the DRAM returns to nobody. -/
def abandonReads (s : State) (p : Owner → Bool) : State :=
  let hit (r : MemReq) : Bool := !r.write && p r.owner
  let chans := s.mem.chans.map fun (k, c) =>
    let q := c.queue.filter fun r => !hit r
    (k, { c with queue := q, issued := c.issued.map (fun r => if hit r then { r with owner := .abandoned } else r), inOrder := s.inOrderAfter k q c.inOrder })
  s.withMem { s.mem with chans := chans, waiting := s.mem.waiting.filter fun r => !hit r }

/-- Drops the data that has come for requesters. -/
def dropArrived (s : State) (p : Owner → Bool) : State := s.withMem { s.mem with arrived := s.mem.arrived.filter fun e => !p e.1 }

/-- Aperture reads whose data has come complete; one that lost data completes with zeros and captures CAUSE 5 (12 R334). -/
def finishAperture (s : State) : State :=
  s.pcie.reads.foldl (fun y r =>
    if y.outstanding (.aperture r.tag) then y else
    let ((data, lost), y1) := y.takeRead (.aperture r.tag) r.addr r.len
    let y2 := y1.withPcie { y1.pcie with reads := y1.pcie.reads.filter fun x => x.tag != r.tag }
    if lost then (y2.accessError 5 2 r.be r.dword).emit (.aperture (zeros r.len)) else y2.emit (.aperture data)) s

/-! ### Panic lines (10 R275): ports 0 to 15 are ring writers, 16 and 17 the display heads -/

def panicRaised (s : State) (port : Nat) : Bool := tabGet 0 s.mem.panic port != 0

/-- Raises or withdraws a panic line; with the last one withdrawn every channel issues its postponed refreshes (10 R279). -/
def setPanic (s : State) (port : Nat) (on : Bool) : State :=
  let p := tabSet 0 s.mem.panic port (b2n on)
  s.withMem { s.mem with panic := p, chans := if p.isEmpty && !s.mem.panic.isEmpty then s.mem.chans.map fun (k, c) => (k, { c with postponed := 0 }) else s.mem.chans }
def anyPanic (s : State) : Bool := !s.mem.panic.isEmpty

/-! ### Redirection (10 R286) -/

/-- Is the ring-region chunk withdrawn: on a frozen lane, or taken as a target? -/
def withdrawn (s : State) (c : Nat) : Bool :=
  s.mem.frozenLanes.contains (c % s.lanes0) || s.mem.redirect.any fun e => e.2 == c + 1

/-- The highest chunk at or below c on no frozen lane. -/
def targetFrom (frozen : List Nat) (n0 : Nat) : Nat → Nat → Nat
  | 0, c => c
  | fuel + 1, c => if frozen.contains (c % n0) then targetFrom frozen n0 fuel (c - 1) else c

/-- Gives each chunk in turn the highest target not yet taken. -/
def assignTargets (frozen : List Nat) (n0 : Nat) : List Nat → Nat → Tab Nat → Tab Nat
  | [], _, t => t
  | c :: r, cur, t =>
    let g := targetFrom frozen n0 n0 cur
    assignTargets frozen n0 r (g - 1) (tabSet 0 t c (g + 1))

/-- Remaps the fixed-region chunks that the frozen lane held: new targets in descending order for the chunks in ascending order; their
contents read as zero until written (10 R286). -/
def remapLane (s : State) (lane : Nat) : State :=
  if s.obj Key.memFixedSize = 0 ∨ s.lanes0 = 0 then s else
  let g := s.grain
  let f := s.obj Key.memFixedSize / g
  let total := s.memSize / g
  let frozen := s.mem.frozenLanes
  let need := (List.range f).filter fun c => s.chunkOf (c * g) % s.lanes0 == lane
  let top := s.mem.redirect.foldl (fun m e => min m (e.2 - 1)) total
  let red := assignTargets frozen s.lanes0 need (top - 1) s.mem.redirect
  s.withMem { s.mem with redirect := red, cells := s.mem.cells.filter fun e => !need.contains (e.1 / g) }

/-- Where the bytes that stand in DRAM lie once mem.grain has become g: each stays at its lane and channel offset, under another address (10 R271;
notes/assumptions/179.md). -/
def regrainedCells (s : State) (g : Nat) : List Host.Cell :=
  let n0 := s.lanes0
  s.mem.cells.foldl (fun t (a, b) =>
    let c := s.chunkOf a
    let o := c / n0 * s.grain + a % s.grain
    tabSet unlisted t ((o / g * n0 + c % n0) * g + o % g) b) []

/-- Drops the redirections of chunks that no longer lie in the fixed region. -/
def trimRedirect (s : State) : State :=
  s.withMem { s.mem with redirect := s.mem.redirect.filter fun e => decide (e.1 * s.grain < s.obj Key.memFixedSize) }

/-- mem.ring.avail and mem.redirected (10 R286, Table 10-7). -/
def refreshRingAvail (s : State) : State :=
  if s.obj Key.memFixedSize = 0 ∨ s.lanes0 = 0 then (s.setObj Key.memRingAvail 0).setObj Key.memRedirected 0 else
  let g := s.grain
  let ring := (s.memSize - s.obj Key.memFixedSize) / g
  let lost := s.mem.frozenLanes.length * (ring / s.lanes0)
  (s.setObj Key.memRingAvail (g * (ring - lost - s.mem.redirect.length))).setObj Key.memRedirected s.mem.redirect.length

end State

end Sys2Proof.Machine
end

