-- ==== Sys2Proof/Machine/RecordQueries.lean ====
section
/-! DEFINITION. Questions about the records that other chapters ask (08 R231). -/

namespace Sys2Proof.Machine.State

/-- Is any record in CAPTURING (08 Table 8-3)? -/
def anyCapturing (s : State) : Bool := s.acq.records.any fun r => r.state == 0

def ctx (s : State) (c : Nat) : Ctx := tabGet {} s.acq.ctxs c
def putCtx (s : State) (c : Nat) (x : Ctx) : State := s.withAcq { s.acq with ctxs := tabSet {} s.acq.ctxs c x }

/-- Changes one record. -/
def updRecord (s : State) (r : Record) : State :=
  s.withAcq { s.acq with records := s.acq.records.map fun y => if y.ctx = r.ctx ∧ y.number = r.number then r else y }

/-- A record by context and number. -/
def record? (s : State) (c n : Nat) : Option Record := s.acq.records.find? fun r => r.ctx == c && r.number == n

end Sys2Proof.Machine.State
end

