-- ==== Sys2Proof/Machine/RingOps.lean ====
section
/-! DEFINITION. The look-back ring: slabs, blocks, the writers and the directory (11 R293 to R305). -/

namespace Sys2Proof.Machine

/-- A time moved by a number of units of 1 / d. -/
def Exact.plus (t : Exact) (x : Int) : Exact := { t with n := t.n + x }

/-- The first of the times t, t + step, … that is at or after T when truncated. -/
def Exact.indexFrom (t : Exact) (step : Nat) (T : KTime) : Nat := cdiv ((T : Int) * t.d - t.n).toNat step

/-- The places inside 0 to n at which a run of n is cut, ascending, each once. -/
def insertCut (x : Nat) : List Nat → List Nat
  | [] => [x]
  | y :: r => if x < y then x :: y :: r else if x = y then y :: r else y :: insertCut x r

/-- Pieces (first index, count) between ascending cuts, from a place on up to n. -/
def piecesFrom (n : Nat) : Nat → List Nat → List (Nat × Nat)
  | a, [] => if a < n then [(a, n - a)] else []
  | a, c :: r => if a < c ∧ c < n then (a, c - a) :: piecesFrom n c r else piecesFrom n a r

/-- A run of n cut at places. -/
def piecesOf (n : Nat) (cuts : List Nat) : List (Nat × Nat) := piecesFrom n 0 (cuts.foldr insertCut [])

/-- One position of a ring stream: its exact time, step, value bytes ([] where it holds no value), flags of 08 Table 8-5 and marker cause. -/
structure Position where
  t : Exact
  step : Nat
  value : Bytes
  flags : Nat
  cause : Nat
  deriving DecidableEq, Repr

/-- The bytes of one sample of a format (08 Table 8-6). -/
def formatBytes (f : Nat) : Nat := if f = 0 then 1 else if f = 1 then 2 else if f = 2 then 2 else if f = 3 then 4 else 8

/-- W of a port by N' (03 Table 3-3). -/
def widthOf (np : Nat) : Nat := if np = 8 then 8 else 16

/-- The format of a raw stream by kind and width (03 Table 3-3; 08 Table 8-6). -/
def rawFormat (kind width : Nat) : Nat := if kind = 1 then (if width = 8 then 2 else 3) else (if width = 8 then 0 else 1)

/-- The bytes of a raw sample: I, then Q of a complex sample (08 R238). -/
def rawBytes (f : Nat) (i q : Int) : Bytes :=
  if f = 0 then natLE 1 (ofSigned 8 i) else if f = 1 then natLE 2 (ofSigned 16 i)
  else if f = 2 then natLE 1 (ofSigned 8 i) ++ natLE 1 (ofSigned 8 q) else natLE 2 (ofSigned 16 i) ++ natLE 2 (ofSigned 16 q)

/-- The 64-byte header of a block (11 Table 11-1). -/
def blockHeader (port stream format : Nat) (b : Block) : Bytes :=
  padTo 64 (natLE 2 port ++ natLE 1 stream ++ natLE 1 format ++ natLE 1 (b2n b.gap) ++ natLE 1 b.flags ++ natLE 1 b.cause ++ [0] ++
    natLE 10 (b.first.n / b.first.d).toNat ++ [0, 0] ++ natLE 8 b.index ++ natLE 8 b.count ++ natLE 4 b.seq ++ natLE 4 b.alloc)

namespace State

def ringStream (s : State) (id : Nat) : RingStream := tabGet {} s.ring.streams id
def putRingStream (s : State) (id : Nat) (x : RingStream) : State := s.withRing { s.ring with streams := tabSet {} s.ring.streams id x }

/-- Is the stream selected at a time (11 R294)? -/
def selectedAt (s : State) (id t : Nat) : Bool :=
  if id < 1024 then bit (s.objAt Key.ringSelectRaw t) id else bit (s.objAt Key.ringSelectFe t) (id - 1024)

/-- The DRAM address of a block (11 R293). -/
def blockAddr (s : State) (slab place : Nat) : Nat := s.obj Key.memFixedSize + 4194304 * slab + 4096 * place

/-- Does a block touch a withdrawn chunk (11 R293)? -/
def blockUnusable (s : State) (slab place : Nat) : Bool :=
  if s.mem.frozenLanes.isEmpty then false else
  let a := s.blockAddr slab place
  let g := s.grain
  (List.range ((a + 4095) / g - a / g + 1)).any fun i => s.withdrawn (a / g + i)

/-- The first usable place of a slab at or after a place. -/
def usablePlace (s : State) (slab : Nat) : Nat → Nat → Option Nat
  | 0, _ => none
  | fuel + 1, p => if 1024 ≤ p then none else if s.blockUnusable slab p then usablePlace s slab fuel (p + 1) else some p

/-- Retires a slab: its blocks are no longer held, and its stream takes another for its next block (11 R299). -/
def retireSlab (s : State) (k : Nat) : State :=
  match (tabGet ({} : Slab) s.ring.slabs k).owner with
  | 0 => s
  | o + 1 =>
    let st := s.ringStream o
    let s1 := s.putRingStream o { st with blocks := st.blocks.filter (fun b => b.slab != k), slab := if st.slab = some k then none else st.slab }
    s1.withRing { s1.ring with slabs := tabUpd ({} : Slab) s1.ring.slabs k fun (x : Slab) => { x with owner := 0 } }

/-- At a wrap with no record in CAPTURING a pending resize retires every slab of the old ring (11 R305). -/
def applyResize (s : State) : State :=
  match s.ring.resize with
  | none => s
  | some n =>
    if s.anyCapturing then s else
    let s1 := (List.range (s.obj Key.ringSlabsNow)).foldl (fun x k => x.retireSlab k) s
    let s2 := s1.withRing { s1.ring with resize := none, next := 0, streams := s1.ring.streams.map fun (e : Nat × RingStream) => (e.1, { e.2 with slab := none }) }
    ((s2.setObj Key.ringSlabsNow n).setObj Key.ringResizeState 0)

/-- Takes the next slab for a stream, with a wrap after the last (11 R299). -/
def takeSlab (s : State) (id : Nat) : State :=
  let wrap := s.obj Key.ringSlabsNow ≤ s.ring.next
  let s1 := if wrap then (((s.withRing { s.ring with next := 0 })).bump Key.ringWraps).applyResize else s
  if s1.obj Key.ringSlabsNow = 0 then s1 else
  let k := s1.ring.next
  let s2 := s1.retireSlab ((k + 2048) % max 1 (s1.obj Key.ringSlabsNow))
  let s3 := s2.withRing { s2.ring with next := k + 1, slabs := tabUpd ({} : Slab) s2.ring.slabs k fun (x : Slab) => { alloc := (x.alloc + 1) % 2 ^ 32, owner := id + 1 } }
  s3.putRingStream id { s3.ringStream id with slab := some k, place := 0 }

/-- A place for a new block of a stream: in its slab, or in the next slabs with a usable block; none while there are no slabs. -/
def placeBlock (s : State) (id : Nat) : Nat → Option (Nat × Nat) × State
  | 0 => (none, s)
  | fuel + 1 =>
    if s.obj Key.ringSlabsNow = 0 then (none, s) else
    let st := s.ringStream id
    match st.slab with
    | some k =>
      match s.usablePlace k 1024 st.place with
      | some p => (some (k, p), s.putRingStream id { st with place := p + 1 })
      | none => placeBlock (s.takeSlab id) id fuel
    | none => placeBlock (s.takeSlab id) id fuel

/-- Bytes held by a pier's writer: blocks not yet acknowledged and open blocks (10 Table 10-4). -/
def writerHeld (s : State) (pier : Nat) : Nat :=
  s.ring.streams.foldl (fun a (_, st) =>
    if st.pier != pier then a else
    a + 4096 * (st.blocks.filter fun b => !b.written).length + (match st.openBlock with | some b => b.data.length | none => 0)) 0

/-- The writer's panic line with its hysteresis (10 R275, Table 10-4). -/
def refreshWriterPanic (s : State) (pier : Nat) : State :=
  let h := s.writerHeld pier
  if 131072 ≤ h then s.setPanic pier true else if h < 65536 then s.setPanic pier false else s

/-- May a block of a stream still be written where it was placed: is its slab still the stream's, and the place usable (11 R293, R299)? -/
def placeStands (s : State) (id : Nat) (b : Block) : Bool :=
  let k := tabGet ({} : Slab) s.ring.slabs b.slab
  k.owner == id + 1 && k.alloc == b.alloc && !s.blockUnusable b.slab b.place

/-- A closed block where it is to be written: its own place, or another when its slab was retired or its place withdrawn since it was opened (11
R293, R299, R305). none: there is no place for it. -/
def settleBlock (s : State) (id : Nat) (b : Block) : Option Block × State :=
  if s.placeStands id b then (some b, s) else
  let (pl, s1) := s.placeBlock id 4096
  (pl.map fun x => { b with slab := x.1, place := x.2, alloc := (tabGet ({} : Slab) s1.ring.slabs x.1).alloc }, s1)

/-- Records positions of a stream as not held (11 R298, R303). -/
def loseBlock (s : State) (id cause : Nat) (b : Block) : State :=
  s.putRingStream id { s.ringStream id with notHeld := (s.ringStream id).notHeld ++ [{ first := b.first, step := b.step, count := b.count, cause := cause }] }

/-- Closes the open block of a stream and writes it, or discards it when the writer's buffer overflows (11 R297, R298). -/
def closeBlock (s : State) (id : Nat) : State :=
  let st := s.ringStream id
  match st.openBlock with
  | none => s
  | some b0 =>
    let s0 := s.putRingStream id { st with openBlock := none }
    if 262144 < s0.writerHeld st.pier + 4096 then (s0.bump Key.ringBlocksLost).loseBlock id 0 b0
    else match s0.settleBlock id b0 with
    | (none, s1) => s1.loseBlock id 0 b0
    | (some b, s1) =>
      let s2 := s1.putRingStream id { s1.ringStream id with blocks := (s1.ringStream id).blocks ++ [{ b with data := [] }] }
      let img := padTo 4096 (blockHeader (id % 1024) (id / 1024) st.format b ++ b.data)
      (s2.memWrite (.ringWriter id b.seq) 0 (s2.blockAddr b.slab b.place) img).refreshWriterPanic st.pier

/-- Opens a block at a position. -/
def openBlockAt (s : State) (id : Nat) (gap : Bool) (p : Position) : State :=
  let (pl, s1) := s.placeBlock id 4096
  match pl with
  | none => s1
  | some (k, place) =>
    let st := s1.ringStream id
    s1.putRingStream id { st with seq := (st.seq + 1) % 2 ^ 32, openBlock := some { seq := st.seq, slab := k, place := place, alloc := (tabGet ({} : Slab) s1.ring.slabs k).alloc, gap := gap, cause := p.cause, first := p.t, step := p.step, index := st.positions, openedAt := s1.wall } }

/-- Does a position continue a block: same status, room, and the time that the block gives its next position (11 R296, R297)? -/
def continues (b : Block) (p : Position) : Bool :=
  b.gap == p.value.isEmpty && b.cause == p.cause && (b.gap || b.data.length + p.value.length ≤ 4032) &&
    b.first.d == p.t.d && b.step == p.step && b.first.n + (b.count * b.step : Nat) == p.t.n

/-- Appends positions of one status to a stream: n positions from p on, without a value when p.value is empty; a data position is one
(11 R296 to R298). -/
def ringAppend (s : State) (id : Nat) (p : Position) (n : Nat) : State :=
  let gap := p.value.isEmpty
  let st0 := s.ringStream id
  let s := if st0.recount then (s.closeBlock id).putRingStream id { (s.closeBlock id).ringStream id with recount := false, positions := 0 } else s
  let same := match (s.ringStream id).openBlock with
    | some b => continues b p
    | none => false
  let s1 := if same then s else (s.closeBlock id).openBlockAt id gap p
  let st1 := s1.ringStream id
  let next : Exact := { p.t with n := p.t.n + n * p.step }
  let st2 := { st1 with positions := st1.positions + n, nextTime := some (next.n / next.d).toNat, ended := false, grid := some (next, p.step) }
  match st1.openBlock with
  | none => s1.putRingStream id st2
  | some b => s1.putRingStream id { st2 with openBlock := some { b with count := b.count + n, flags := b.flags ||| p.flags, data := b.data ++ p.value } }

/-- Ends a stream: its open block is closed and no position follows, unless it has been selected or enabled again (11 R294, R302). -/
def endStream (s : State) (id : Nat) : State :=
  if (s.ringStream id).nextTime.isNone then s else
  let s1 := s.closeBlock id
  let x := s1.ringStream id
  s1.putRingStream id (match x.again with
    | some T => { x with nextTime := some T, again := none }
    | none => { x with ended := true })

/-- A position of a stream that is not selected, at or after the stream's next: the stream has ended, and its next selection counts its positions
anew (11 R294, R296, R302). -/
def passUnselected (s : State) (id : Nat) (t : KTime) : State :=
  match (s.ringStream id).nextTime with
  | some n => if !(s.ringStream id).ended && decide (n ≤ t) then
      let s1 := s.endStream id
      s1.putRingStream id { s1.ringStream id with recount := true }
    else s
  | none => s

/-- A stream starts at T: at once, or when the one before has passed its last position (11 R294, R302). -/
def startStream (s : State) (id T : Nat) (fresh : Bool) : State :=
  let x := s.ringStream id
  if x.nextTime.isSome && !x.ended then s.putRingStream id { x with again := some T }
  else s.putRingStream id { x with nextTime := some T, ended := false, recount := x.recount || fresh }

/-- Can a raw position of a port matter to the ring: is a raw stream selected, now, before or by a pending group, or the port's not ended? -/
def rawNeeded (s : State) (port : Nat) : Bool :=
  s.obj Key.ringSelectRaw != 0 || (s.groups.any fun g => g.writes.any fun w => w.1 == Key.ringSelectRaw) || (s.undo.any fun e => e.2.1 == Key.ringSelectRaw) ||
    ((s.ringStream port).nextTime.isSome && !(s.ringStream port).ended)

/-- The raw tap: released samples (time, I, Q, overload, degraded causes) of a selected raw stream go to the pier's writer with the cause of the marker
that covers them: LINK_ERROR for those of a multiblock in error, else a degraded cause (01 R9; 03 R88; 11 R298). -/
def rawTap (s : State) (pier port step format : Nat) (samples : List (Exact × Int × Int × Bool × Nat)) (bad : Bool) : State :=
  if !s.rawNeeded port then s else
  samples.foldl (fun x (t, i, q, ov, deg) =>
    if !x.selectedAt port (t.n / t.d).toNat then x.passUnselected port (t.n / t.d).toNat else
    let cause := if bad then causeLinkError else if bit deg 0 then causeCalStale else if bit deg 1 then causeHoldover else if bit deg 2 then causeConditions else 0
    let x1 := x.putRingStream port { x.ringStream port with format := format, pier := pier }
    x1.ringAppend port { t := t, step := step, value := rawBytes format i q, flags := b2n bad + 2 * b2n (deg != 0) + 8 * b2n ov, cause := cause } 1) s

/-- The times at which groups write an object. -/
def writesOf (s : State) (k : Nat) : List KTime :=
  s.undo.filterMap (fun u => if u.2.1 = k then some u.1 else none) ++ s.groups.filterMap fun g => if g.writes.any (fun w => w.1 == k) then some g.t else none

/-- Positions of a raw stream that hold no value, cut where a selection takes effect (11 R294, R298). -/
def rawGap (s : State) (pier port step format : Nat) (t : Exact) (n cause : Nat) : State :=
  if !s.rawNeeded port then s else
  (piecesOf n ((s.writesOf Key.ringSelectRaw).map fun T => t.indexFrom step T)).foldl (fun x (a, m) =>
    let u := t.plus (a * step : Nat)
    if x.selectedAt port (u.n / u.d).toNat then
      let x1 := x.putRingStream port { x.ringStream port with format := format, pier := pier }
      x1.ringAppend port { t := u, step := step, value := [], flags := 1, cause := cause } m
    else x.passUnselected port (u.n / u.d).toNat) s

/-- The commit point C of a stream; none is unbounded (11 R302). -/
def commitPoint (s : State) (id : Nat) : Option KTime :=
  let st := s.ringStream id
  match (st.blocks.find? fun b => !b.written) with
  | some b => some (b.first.n / b.first.d).toNat
  | none => match st.openBlock with
    | some b => some (b.first.n / b.first.d).toNat
    | none => if st.ended then none else st.nextTime

/-- Memory has acknowledged the oldest unwritten block of a stream: its positions are written, or lost at a freeze, which gives a
MEMORY_LOSS marker (10 R285; 11 R302). -/
def blockWritten (s : State) (id : Nat) : State :=
  let st := s.ringStream id
  match st.blocks.find? fun b => !b.written with
  | none => s
  | some b =>
    let o := Owner.ringWriter id b.seq
    if s.outstanding o then s else
    let lost := s.mem.lostWrites.any fun x => x.1 == o
    let s1 := s.withMem { s.mem with lostWrites := s.mem.lostWrites.filter fun x => x.1 != o }
    if lost then
      let s2 := s1.putRingStream id { st with blocks := st.blocks.filter (fun x => x.seq != b.seq), notHeld := st.notHeld ++ [{ first := b.first, step := b.step, count := b.count, cause := causeMemoryLoss }] }
      (s2.issueMarker causeMemoryLoss (id % 1024) 0xFF (id / 1024) (b.first.n / b.first.d).toNat 0xFFFF b.count).refreshWriterPanic st.pier
    else (s1.putRingStream id { st with blocks := st.blocks.map fun x => if x.seq = b.seq then { x with written := true } else x }).refreshWriterPanic st.pier

/-- ring.held: the time of the oldest held sample of each stream: of its first block that is written and holds samples (11 R300). -/
def heldImage (s : State) : Nat :=
  leNat ((List.range 2048).flatMap fun id => natLE 10 (match (s.ringStream id).blocks.find? fun b => b.written && !b.gap with
    | some b => (b.first.n / b.first.d).toNat
    | none => 0))

/-- U, the usable blocks of the S slabs (11 R300). -/
def usableBlocks (s : State) : Nat :=
  let n := s.obj Key.ringSlabsNow
  if s.mem.frozenLanes.isEmpty then n * 1024 else
  (List.range n).foldl (fun a k => a + ((List.range 1024).filter fun p => !s.blockUnusable k p).length) 0

/-- The selected streams. -/
def selectedStreams (s : State) : List Nat := (List.range 2048).filter fun id => s.selectedAt id s.time

end State

end Sys2Proof.Machine
end

