-- ==== Sys2Proof/Machine/RecordFormat.lean ====
section
/-! DEFINITION. The record format: descriptor, stream blocks, gap lists (08 R237 to R239). -/

namespace Sys2Proof.Machine

/-- The gap list as it is stored: at most 256 entries, the 256th covering the rest (08 R239). -/
def gapList (x : RecStream) : List GapRun :=
  if x.runs.length ≤ 256 then x.runs else
  match x.runs.drop 255 with
  | g :: _ => x.runs.take 255 ++ [{ first := g.first, count := x.count - g.first, kind := 2, cause := 0 }]
  | [] => x.runs

/-- A gap-list entry, 24 bytes. -/
def gapEntry (g : GapRun) : Bytes := natLE 8 g.first ++ natLE 8 g.count ++ natLE 1 g.kind ++ natLE 1 g.cause ++ zeros 6

/-- A gap list's bytes. -/
def gapBytes (x : RecStream) : Bytes := (gapList x).flatMap gapEntry

/-- The 32-byte header of a stream block (08 Table 8-6). -/
def streamHeader (x : RecStream) : Bytes :=
  natLE 2 x.port ++ natLE 1 (b2n x.fe) ++ natLE 1 x.format ++ natLE 2 (gapList x).length ++ natLE 2 x.flags ++ natLE 10 x.first ++ [0, 0] ++
    natLE 8 x.count ++ zeros 4

/-- A stream block (08 R238). -/
def streamBlock' (x : RecStream) : Bytes := streamHeader x ++ padTo (cdiv x.data.length 8 * 8) x.data ++ gapBytes x

/-- The stream blocks of a record. -/
def recordBlocks (r : Record) : Bytes := r.streams.flatMap streamBlock'

/-- The 64-byte descriptor (08 Table 8-5). -/
def recordDescriptor (node : Nat) (r : Record) (mstatus location : Nat) : Bytes :=
  natLE 2 r.ctx ++ natLE 1 r.gen ++ natLE 1 r.flags ++ natLE 2 node ++ natLE 1 r.streams.length ++ natLE 1 mstatus ++ natLE 8 r.number ++
    natLE 10 r.trigger ++ natLE 10 r.start ++ natLE 10 r.stop ++ [0, 0] ++ natLE 8 (recordBlocks r).length ++ natLE 8 location

/-- The record with a LOCATION. -/
def State.recordImage (s : State) (r : Record) (location : Nat) : Bytes :=
  recordDescriptor (s.obj Key.spanNode) r r.mstatus location ++ recordBlocks r

/-- Streams with the samples that an image of their record holds, from the offset of their first block on. -/
def stagedStreams (img : Bytes) : Nat → List RecStream → List RecStream
  | _, [] => []
  | off, x :: l => { x with data := (img.drop (off + 32)).take x.data.length } :: stagedStreams img (off + (streamBlock' x).length) l

/-- A record as a core or a destination reads it from its staging space, in class 1: samples lost at a freeze are zero (10 R274, R285; notes/assumptions/177.md). -/
def State.stagedRecord (s : State) (r : Record) : Record × State :=
  match r.stage with
  | none => (r, s)
  | some (a, _) =>
    let ((img, _), s1) := s.memTake 1 a (64 + (recordBlocks r).length)
    ({ r with streams := stagedStreams img 64 r.streams }, s1)

end Sys2Proof.Machine
end

