-- ==== Sys2Proof/Machine/Recorder.lean ====
section
/-! DEFINITION. The recorder: drives, namespaces, the log, segments and manifests (11 R306 to R320). -/

namespace Sys2Proof.Machine

/-- LOCATION of a record that is not stored (11 R312). -/
def notStored : Nat := 0xFFFFFFFFFFFFFFFF

/-- The largest power of two below n, for n above 1. -/
def splitPoint (n : Nat) : Nat := 2 ^ Nat.log2 (n - 1)

/-- The Merkle tree hash of RFC 6962 over leaf hashes, with SHA-384 (11 R316). -/
def merkle : Nat → List Bytes → Bytes
  | 0, _ => []
  | _ + 1, [] => sha384 []
  | _ + 1, [x] => x
  | fuel + 1, l => sha384 (1 :: (merkle fuel (l.take (splitPoint l.length)) ++ merkle fuel (l.drop (splitPoint l.length))))

/-- The leaf hashes of a record with LOCATION zero: chunks of 1,048,576 bytes (11 R316). -/
def recordLeaves (record : Bytes) : List Bytes :=
  (chunks 1048576 (cdiv record.length 1048576) record).map fun c => sha384 (0 :: c)

/-- The LBAs of an item of a payload length (11 R312). -/
def itemLbas (len : Nat) : Nat := cdiv (64 + len) 4096

/-- An item: header, payload, zero bytes to the next LBA (11 R312, Table 11-3). -/
def itemBytes (itype ns ctx gen lap seg item prev : Nat) (payload : Bytes) : Bytes :=
  padTo (4096 * itemLbas payload.length) (natLE 4 0x43564931 ++ natLE 1 itype ++ natLE 1 ns ++ natLE 2 ctx ++ natLE 1 gen ++ zeros 3 ++ natLE 4 lap ++
    natLE 8 seg ++ natLE 8 item ++ natLE 8 payload.length ++ natLE 8 prev ++ zeros 16 ++ payload)

namespace State

def drive (s : State) (d : Nat) : Drive := tabGet {} s.recd.drives d
def putDrive (s : State) (d : Nat) (x : Drive) : State := s.withRecd { s.recd with drives := tabSet {} s.recd.drives d x }
def putSegments (s : State) (l : List Segment) : State :=
  (s.withRecd { s.recd with segments := l }).setObj Key.recSignQueue (l.filter fun (x : Segment) => x.stage == 1).length
/-- Changes one segment. -/
def updSegment (s : State) (x : Segment) : State := s.putSegments (s.recd.segments.map fun y => if y.id = x.id then x else y)

/-- Issues a Write to the drive of a namespace (11 R307). -/
def nvmeWrite (s : State) (w : DriveWrite) : State :=
  let d := s.obj (Key.recNsDrive w.ns)
  (s.putDrive d { s.drive d with writes := (s.drive d).writes ++ [w] }).emit (.nvme d (s.obj (Key.recNsNsid w.ns)) w.lba w.data)

/-- The label of a namespace (11 Table 11-2). -/
def labelBytes (s : State) (n : Nat) : Bytes :=
  padTo 4096 (natLE 4 0x43564C31 ++ natLE 2 1 ++ natLE 1 n ++ [0] ++ natLE 8 (s.obj (Key.recNsLbas n)) ++ natLE 8 (s.obj (Key.recNsAppend n)) ++
    natLE 4 (s.obj (Key.recNsLap n)) ++ natLE 2 (s.obj Key.spanNode) ++ [0, 0] ++ natLE 10 (tabGet 0 s.recd.formatted n - 1) ++ zeros 6 ++
    natLE 48 (s.obj Key.secDevKeyid))

/-- Writes the label at offset 0 (11 R311). -/
def writeLabel (s : State) (n : Nat) : State := s.nvmeWrite { kind := 3, ns := n, lba := s.obj (Key.recNsFirst n), data := s.labelBytes n }

/-- May n LBAs from an offset be written: no item of a segment whose manifest is not written lies there (11 R313). -/
def placeFree (s : State) (ns off n : Nat) : Bool :=
  s.recd.segments.all fun x => x.ns != ns || x.places.all fun p => decide (p.1 + p.2 ≤ off ∨ off + n ≤ p.1)

/-- Places an item of n LBAs at APPEND, wrapping with a pad item in wrap mode (11 R312, R313). -/
def placeItem (s : State) (ns n : Nat) : Option (Nat × State) :=
  let app := s.obj (Key.recNsAppend ns)
  let lbas := s.obj (Key.recNsLbas ns)
  let wraps := s.obj (Key.recNsMode ns) == 1
  let take (y : State) (off : Nat) : Nat × State := (off, y.setObj (Key.recNsAppend ns) (off + n))
  if app + n ≤ lbas then (if !wraps || s.placeFree ns app n then some (take s app) else none)
  else if wraps ∧ 1 + n ≤ lbas ∧ s.placeFree ns 1 n ∧ s.placeFree ns app (lbas - app) then
    let pad := itemBytes 3 ns 0 0 (s.obj (Key.recNsLap ns)) 0 0 notStored (zeros (4096 * (lbas - app) - 64))
    let s1 := if app < lbas then s.nvmeWrite { kind := 2, ns := ns, lba := s.obj (Key.recNsFirst ns) + app, data := pad } else s
    some (take (s1.bump (Key.recNsLap ns)) 1)
  else none

/-- Bytes 0 to 287 of a segment's manifest (11 R317, Table 11-4). -/
def manifestBody (s : State) (x : Segment) (cause : Nat) (start : Bool) (root chain : Bytes) : Bytes :=
  let tai := s.obj Key.taiState
  let ps := (s.taiPs x.kstart).toNat
  natLE 4 0x43564D31 ++ natLE 2 1 ++ natLE 1 cause ++ natLE 1 (b2n start) ++ natLE 2 x.ctx ++ natLE 1 (x.genNo % 256) ++ natLE 1 x.ns ++
    natLE 2 (s.obj Key.spanNode) ++ [0, 0] ++ natLE 8 x.index ++ natLE 8 x.first ++ natLE 8 x.last ++ natLE 8 x.bytes ++ natLE 8 x.leaves.length ++
    natLE 10 x.kstart ++ natLE 10 x.kend ++ natLE 8 (if tai = 0 then 0 else ps / 1000000000000) ++ natLE 8 (if tai = 0 then 0 else ps % 1000000000000) ++
    natLE 1 tai ++ zeros 3 ++ s.cfgDigest x.trigger ++ root ++ chain ++ natLE 48 (s.obj Key.secDevKeyid)

/-- Closes a segment with a cause: ROOT, CHAIN and the manifest, which waits for the signer (11 R315 to R317). -/
def closeSegment (s : State) (x : Segment) (cause : Nat) : State :=
  let key := 16 * x.ctx + x.ns
  let prev := tabGet 0 s.recd.chains key
  let root := merkle x.leaves.length.succ x.leaves
  let chain := sha384 ((if prev = 0 then zeros 48 else unmarked prev) ++ root)
  let y := { x with stage := 1, manifest := s.manifestBody x cause (prev == 0) root chain }
  let s1 := s.withRecd { s.recd with chains := tabSet 0 s.recd.chains key (marked chain) }
  s1.putSegments ((s1.recd.segments.filter fun z => z.id != x.id) ++ [y])

/-- Closes the open segments of a namespace (11 R313). -/
def closeNamespace (s : State) (ns cause : Nat) : State :=
  (s.recd.segments.filter fun x => x.ns == ns && x.stage == 0).foldl (fun y x => y.closeSegment x cause) s

/-- The namespace becomes FULL: its open segments close with CAUSE 4 (11 R313). -/
def fillNamespace (s : State) (ns : Nat) : State := (s.setObj (Key.recNsState ns) 2).closeNamespace ns 4

/-- The generation of a record counted since reset (08 R225, R227). -/
def genNoOf (s : State) (r : Record) : Nat :=
  let now := (s.ctx r.ctx).genNo
  now - (now + 256 - r.gen % 256) % 256

/-- The namespace of a record bound for the recorder (08 R236). -/
def recNsOf (s : State) (r : Record) : Option Nat :=
  if s.objAt (Key.ctxDestKind r.ctx) r.trigger = 1 then some (s.objAt (Key.ctxDestNum r.ctx) r.trigger) else none

/-- The cause with which a segment is to close now, if any: its generation has ended and its records are COMPLETE, or a close at T has every
record before T in it (11 R315). -/
def closeCause (s : State) (x : Segment) : Option Nat :=
  let mine := s.acq.records.filter fun r => r.ctx == x.ctx && r.state != 3
  if x.stage ≠ 0 then none
  else if s.recd.closes.any (fun e => e.1 == x.ns && decide (x.trigger < e.2 ∧ e.2 ≤ (s.ctx x.ctx).passed) && !(mine.any fun r => !r.placed && decide (r.trigger < e.2))) then some 3
  else if x.genNo < (s.ctx x.ctx).genNo ∧ !(mine.any fun r => r.gen == x.genNo % 256 && (s.recNsOf r).isSome) then some 2
  else none

/-- Closes every segment that is to close now. -/
def closeDue (s : State) : State :=
  s.recd.segments.foldl (fun y x => match y.closeCause x with
    | some c => y.closeSegment x c
    | none => y) s

/-- A record bound for the recorder completes unstored (11 R309, R313). -/
def dropRecord (s : State) (r : Record) : State :=
  (s.updRecord { r with placed := true, acked := true, location := notStored }).bump Key.recDropped

/-- Starts a segment for a record (11 R314). -/
def openSegment (s : State) (r : Record) (ns : Nat) : Segment × State :=
  let g := s.genNoOf r
  let (g0, n0) := tabGet (0, 0) s.recd.counts r.ctx
  let idx := if g0 = g then n0 else 0
  let x : Segment := { id := s.recd.nextId, ns := ns, ctx := r.ctx, genNo := g, index := idx, first := r.number, last := r.number, kstart := r.start, kend := r.stop, trigger := r.trigger }
  (x, (s.withRecd { s.recd with nextId := s.recd.nextId + 1, segments := s.recd.segments ++ [x], counts := tabSet (0, 0) s.recd.counts r.ctx (g, idx + 1) }))

/-- Writes a record to its namespace as the next item of its segment (11 R312 to R316, R318). -/
def recordToDrive (s : State) (r : Record) (ns : Nat) : State :=
  if s.obj (Key.recNsState ns) ≠ 1 then s.dropRecord r
  else if 64 ≤ (s.recd.segments.filter fun x => x.stage == 1).length then s
  else
    let s0 := s.closeDue
    let len := (s0.recordImage r 0).length
    match s0.placeItem ns (itemLbas len) with
    | none => (s0.fillNamespace ns).dropRecord r
    | some (off, s1) =>
      let (r, s1) := s1.stagedRecord r
      let g := s1.genNoOf r
      let (x, s2) := match s1.recd.segments.find? fun x => x.stage == 0 && x.ns == ns && x.ctx == r.ctx && x.genNo == g with
        | some x => (x, s1)
        | none => s1.openSegment r ns
      let prev := if x.items = 0 then notStored else x.prev
      let item := itemBytes 1 ns r.ctx r.gen (s2.obj (Key.recNsLap ns)) x.index x.items prev (s2.recordImage r off)
      let y := { x with last := r.number, bytes := x.bytes + len, items := x.items + 1, prev := off, places := x.places ++ [(off, itemLbas len)], leaves := x.leaves ++ recordLeaves (s2.recordImage r 0), kstart := min x.kstart r.start, kend := max x.kend r.stop }
      let s3 := ((s2.updSegment y).nvmeWrite { kind := 0, ns := ns, lba := s2.obj (Key.recNsFirst ns) + off, data := item, ctx := r.ctx, number := r.number }).updRecord { r with placed := true, location := off }
      if s3.obj Key.recSegBytes ≤ y.bytes then s3.closeSegment y 1 else s3

/-- The namespaces of a drive that are not off. -/
def driveSpaces (s : State) (d : Nat) : List Nat :=
  (List.range 16).filter fun n => s.obj (Key.recNsDrive n) == d && s.obj (Key.recNsState n) != 0

/-- A drive becomes FAILED with its namespaces: their waiting records complete unstored, their segments are abandoned, their reads fail (11
R309; 12 Table 12-9). -/
def failDrive (s : State) (d : Nat) : State :=
  let spaces := s.driveSpaces d
  let s1 := ((s.setObj (Key.recDriveState d) 3).putDrive d { s.drive d with writes := [] }).raiseEvent 14
  let s1 := s1.withRecd { s1.recd with failed := s1.recd.failed ++ (List.range 16).filter fun n => s.obj (Key.recNsDrive n) == d && !s.recd.failed.contains n }
  let s2 := spaces.foldl (fun y n => y.setObj (Key.recNsState n) 3) s1
  let s3 := s2.putSegments (s2.recd.segments.filter fun x => !spaces.contains x.ns)
  let s4 := (s3.acq.records.filter fun r => !r.acked && r.placed && r.state == 2 && (match s3.recNsOf r with | some n => spaces.contains n | none => false)).foldl dropRecord s3
  (List.range 16).foldl (fun y n =>
    if y.obj (Key.recNsDrive n) = d ∧ y.obj (Key.recNsReadState n) = 1 then (y.withRecd { y.recd with reads := tabSet (0, 0, 0) y.recd.reads n (0, 0, 0) }).setObj (Key.recNsReadState n) 3 else y) s4

/-- One byte that a drive holds at a byte address of an NVMe namespace; what the block did not write is free (notes/assumptions/4.md). -/
def storedByte (s : State) (drive nsid lba i : Nat) : Nat :=
  match s.recd.stored.find? fun x => x.drive == drive && x.nsid == nsid && decide (x.lba ≤ lba) && decide ((lba - x.lba) * 4096 < x.data.length) with
  | some x => (x.data.getD ((lba - x.lba) * 4096 + i) 0).toNat
  | none => Config.freeNat (s.free + 4096 * lba + i) % 256

end State

/-- A Write completes: a record item acknowledges its record, a manifest item is counted and the label rewritten; an error is retried up to
3 times, and then the drive is FAILED (11 R309, R311, R318). -/
def execNvmeWriteComplete (drive : Fin 4) (ok : Bool) (s : State) : Out :=
  let d := drive.val
  let x := s.drive d
  match x.writes with
  | [] => .next s
  | w :: rest =>
    if !ok then
      let s1 := s.bump (Key.recDriveErrors d)
      if 3 ≤ w.tries then .next (s1.failDrive d)
      else .next ((s1.putDrive d { x with writes := { w with tries := w.tries + 1 } :: rest }).emit (.nvme d (s.obj (Key.recNsNsid w.ns)) w.lba w.data))
    else
      let s1 := s.putDrive d { x with writes := rest }
      let s2 := s1.withRecd { s1.recd with stored := { drive := d, nsid := s.obj (Key.recNsNsid w.ns), lba := w.lba, data := w.data } :: s1.recd.stored }
      let s3 := if w.kind = 3 then s2 else s2.addObj Key.recWritten w.data.length
      if w.kind = 0 then
        .next (match s3.record? w.ctx w.number with
          | some r => s3.updRecord { r with acked := true }
          | none => s3)
      else if w.kind = 1 then
        .next ((((s3.putSegments (s3.recd.segments.filter fun y => y.id != w.number)).bump Key.recSegments).raiseEvent 14).writeLabel w.ns)
      else .next s3

/-- The link of a drive is lost (11 R309). -/
def execNvmeLinkLoss (drive : Fin 4) (s : State) : Out :=
  if s.obj (Key.recDriveState drive.val) = 0 ∨ s.obj (Key.recDriveState drive.val) = 3 then .next s else .next (s.failDrive drive.val)

/-- The signer completes the oldest waiting manifest, whose item follows in the log (11 R317, R318). -/
def execManifestSigned (s : State) : Out :=
  match s.recd.segments.find? fun x => x.stage == 1 with
  | none => .next s
  | some x =>
    let sig := padTo 96 ((Config.signature s.free x.manifest).take 96)
    let s1 := s.withFree (s.free + 1)
    match s1.placeItem x.ns (itemLbas 384) with
    | none => .next ((s1.setObj (Key.recNsState x.ns) 2).putSegments (s1.recd.segments.filter fun y => y.id != x.id) |>.closeNamespace x.ns 4)
    | some (off, s2) =>
      let item := itemBytes 2 x.ns x.ctx (x.genNo % 256) (s2.obj (Key.recNsLap x.ns)) x.index x.items (if x.items = 0 then notStored else x.prev) (x.manifest ++ sig)
      .next ((s2.updSegment { x with stage := 2, places := x.places ++ [(off, itemLbas 384)], manifest := x.manifest ++ sig }).nvmeWrite
        { kind := 1, ns := x.ns, lba := s2.obj (Key.recNsFirst x.ns) + off, data := item, number := x.id })

/-- rec.drive.restart: a FAILED drive is brought up again (11 R309). -/
def immRecDriveRestart (d : Nat) (s : State) : Code × State :=
  if s.obj (Key.recDriveState d) ≠ 3 then (Res.state, s)
  else (Res.done, (s.setObj (Key.recDriveState d) 1).putDrive d { s.drive d with restartAt := s.wall + 1, writes := [] })

def execRecDriveRestart (drive : Fin 4) (s : State) : Out := .next (s.act (immRecDriveRestart drive.val))

/-- 400,000 ticks after a restart DRV_PERST_L of the drive is released and its link trains (19 R508; Table 20-7). -/
def execDrvPerstRelease (drive : Fin 4) (s : State) : Out :=
  let x := s.drive drive.val
  if x.restartAt = 0 ∨ s.wall < x.restartAt - 1 + 400000 then .next s else .next (s.putDrive drive.val { x with restartAt := 0 })

/-- The lanes of a drive's link (11 R306). -/
def linkLanes (split : Nat) : Nat := 16 / 2 ^ split

/-- An enabled namespace that was off becomes ready with its drive, unless it has failed and not been formatted since (11 R309; 19 R502). -/
def State.spaceReady (s : State) (n : Nat) : State :=
  if s.flag (Key.recNsEnable n) ∧ s.obj (Key.recNsState n) = 0 ∧ s.obj (Key.recDriveState (s.obj (Key.recNsDrive n))) = 2 ∧ !s.recd.failed.contains n then
    s.setObj (Key.recNsState n) 1 else s

/-- A drive is ready after link training and its admin set-up, which waits for a HANDOVER to end (18 R487): its NVMe namespaces are known, and its formatted namespaces resume at their
labels; its enabled namespaces become ready; a link negotiates no more lanes than the split gives it (11 R306, R307, R311; 19 R502). -/
def execNvmeDriveReady (drive : Fin 4) (width : Nat) (model : Bytes) (nsids : List (Nat × Nat × Bool)) (labels : List (Fin 16 × Nat × Nat)) (s : State) : Out :=
  let d := drive.val
  let x := s.drive d
  if s.obj (Key.recDriveState d) ≠ 1 ∨ x.restartAt ≠ 0 ∨ s.obj Key.fwSwapState = 2 then .next s else
  let s1 := (((s.setObj (Key.recDriveState d) 2).setObj (Key.recDriveWidth d) (min width (linkLanes (s.obj Key.recBifurcation)))).setObj (Key.recDriveModel d) (leNat (model.take 40))).putDrive d { x with nsids := nsids }
  let s2 := labels.foldl (fun y (n, app, lap) =>
    if tabGet 0 y.recd.formatted n.val ≠ 0 then y else
    let (f, y1) := y.drawNat (2 ^ 80)
    let y2 := y1.withRecd { y1.recd with formatted := tabSet 0 y1.recd.formatted n.val (f + 1) }
    (y2.setObj (Key.recNsAppend n.val) app).setObj (Key.recNsLap n.val) lap) s1
  .next ((List.range 16).foldl (fun y n => if y.obj (Key.recNsDrive n) = d then y.spaceReady n else y) s2)

/-- The due command rec.ns.format: a fresh label; every open segment of the namespace is abandoned (11 R311, R316). -/
def execRecNsFormat (ns : Fin 16) (s : State) : Out :=
  let n := ns.val
  match s.due.find? fun e => e.1 == Key.recNsFormat n with
  | none => .next s
  | some (_, T) =>
    let s1 := s.withDue (s.due.filter fun e => e.1 != Key.recNsFormat n)
    let s2 := s1.putSegments (s1.recd.segments.filter fun x => !(x.ns == n && x.stage == 0))
    let s3 := s2.withRecd { s2.recd with formatted := tabSet 0 s2.recd.formatted n (T + 1), failed := s2.recd.failed.filter (· != n), chains := s2.recd.chains.filter fun e => e.1 % 16 != n }
    let s4 := (s3.setObj (Key.recNsAppend n) 1).setObj (Key.recNsLap n) 0
    .next (((if s4.obj (Key.recNsState n) = 1 then s4 else s4.setObj (Key.recNsState n) 0).spaceReady n).writeLabel n)

/-- The due command rec.ns.close: the open segments of the namespace close after their last record before T (11 R315). -/
def execRecNsClose (ns : Fin 16) (s : State) : Out :=
  let n := ns.val
  let mine := s.due.filter fun e => e.1 == Key.recNsClose n
  let s1 := s.withDue (s.due.filter fun e => e.1 != Key.recNsClose n)
  .next ((s1.withRecd { s1.recd with closes := s1.recd.closes ++ mine.map fun (e : Nat × KTime) => (n, e.2) }) : State).closeDue

/-- rec.ns.read: 24 bytes of offset, LBA count and DRAM address (11 R320, Table 11-6). -/
def immRecNsRead (n offset count addr : Nat) (s : State) : Code × State :=
  if s.obj (Key.recNsReadState n) = 1 then (Res.busy, s)
  else if count = 0 ∨ 65536 < count ∨ s.obj (Key.recNsLbas n) < offset + count ∨ !s.inFixed addr (4096 * count) then (Res.range, s)
  else (Res.done, (s.withRecd { s.recd with reads := tabSet (0, 0, 0) s.recd.reads n (offset, count, addr) }).setObj (Key.recNsReadState n) 1 |>.emit
    (.nvmeRead (s.obj (Key.recNsDrive n)) (s.obj (Key.recNsNsid n)) (s.obj (Key.recNsFirst n) + offset) count))

def execRecNsRead (ns : Fin 16) (offset count addr : Nat) (s : State) : Out := .next (s.act (immRecNsRead ns.val offset count addr))

/-- A namespace read completes, its data written to DRAM in class 3, or fails (11 R320; 10 Table 10-3). -/
def execRecNsReadDone (ns : Fin 16) (ok : Bool) (s : State) : Out :=
  let n := ns.val
  if s.obj (Key.recNsReadState n) ≠ 1 then .next s else
  let (offset, count, addr) := tabGet (0, 0, 0) s.recd.reads n
  let s0 := s.withRecd { s.recd with reads := tabSet (0, 0, 0) s.recd.reads n (0, 0, 0) }
  if !ok ∨ s.obj (Key.recDriveState (s.obj (Key.recNsDrive n))) ≠ 2 then .next (s0.setObj (Key.recNsReadState n) 3) else
  let lba := s.obj (Key.recNsFirst n) + offset
  let data : Bytes := (List.range (4096 * count)).map fun i => BitVec.ofNat 8 (s.storedByte (s.obj (Key.recNsDrive n)) (s.obj (Key.recNsNsid n)) (lba + i / 4096) (i % 4096))
  .next (((s0.withFree (s0.free + 1)).memWrite (.nsRead n) 3 addr data).setObj (Key.recNsReadState n) 2)

/-- A split of the root port's lanes brings its drives up; a namespace enabled becomes ready, or FAILED on a FAILED drive or while it has failed and not been
formatted since; disabled, it is off (11 R306, R309, R310, Table 11-6). -/
def commitRecorder (s : State) (g : Group) (old : Nat → Nat) : State :=
  let s1 := if g.has Key.recBifurcation ∧ old Key.recBifurcation ≠ s.obj Key.recBifurcation then
      (List.range 4).foldl (fun y d => ((y.setObj (Key.recDriveState d) (b2n (decide (d < 2 ^ y.obj Key.recBifurcation)))).setObj (Key.recDriveWidth d) 0).putDrive d {}) s
    else s
  (List.range 16).foldl (fun y n =>
    if !g.has (Key.recNsEnable n) then y
    else if !y.flag (Key.recNsEnable n) then y.setObj (Key.recNsState n) 0
    else if old (Key.recNsEnable n) != 0 then y
    else if y.obj (Key.recDriveState (y.obj (Key.recNsDrive n))) ≠ 3 ∧ !y.recd.failed.contains n then y.spaceReady n
    else (y.withRecd { y.recd with failed := y.recd.failed.filter (· != n) ++ [n] }).setObj (Key.recNsState n) 3) s1

/-- The refusals of the recorder's groups (11 R306, R309, R310; 13 R358). -/
def rulesRecorder (s : State) (g : Group) : Option Code :=
  let v := s.staged g
  let on (n : Nat) : Bool := v (Key.recNsEnable n) != 0
  let touched := (List.range 16).filter fun n => g.hasIndex (0x1A10 + n)
  firstOf [
    refuse (g.has Key.recBifurcation && (List.range 16).any fun n => on n || s.before g (Key.recNsEnable n) != 0) Res.state,
    eachOf touched fun n =>
      let d := v (Key.recNsDrive n)
      let space := (s.drive d).nsids.find? fun x => x.1 == v (Key.recNsNsid n)
      let formats := g.has (Key.recNsFormat n)
      let geometry := on n || formats
      let written := g.hasSubs (0x1A10 + n) 2 5
      firstOf [
        refuse (formats && s.obj (Key.recDriveState d) == 3) Res.frozen,
        refuse (on n && !formats && tabGet 0 s.recd.formatted n == 0) Res.state,
        refuse ((geometry || written) && (match space with
          | some (_, lbas, okFmt) => !okFmt || decide (lbas < v (Key.recNsFirst n) + v (Key.recNsLbas n))
          | none => geometry || s.obj (Key.recDriveState d) == 2)) Res.range,
        refuse ((geometry || written) && (List.range 16).any fun m => m != n && on m && v (Key.recNsDrive m) == d && v (Key.recNsNsid m) == v (Key.recNsNsid n) &&
          decide (v (Key.recNsFirst n) < v (Key.recNsFirst m) + v (Key.recNsLbas m) ∧ v (Key.recNsFirst m) < v (Key.recNsFirst n) + v (Key.recNsLbas n))) Res.overlap]]

end Sys2Proof.Machine
end

