-- ==== Sys2Proof/Machine/Fixed.lean ====
section
/-! DEFINITION. Real functions of the spec's coefficient formulas, computed in fixed point with 160 fraction bits: π, sine, cosine,
sinc, the modified Bessel function I0 and the roundings (03 R85; 04 R105, R108, R110; 05 Table 5-1). -/

namespace Sys2Proof.Machine

/-- Fraction bits of the fixed-point reals. -/
def fxBits : Nat := 160

/-- One. -/
def fxOne : Int := 2 ^ fxBits

/-- The product of two fixed-point reals. -/
def fxMul (a b : Int) : Int := a * b / fxOne

/-- The quotient of two fixed-point reals. -/
def fxDiv (a b : Int) : Int := a * fxOne / b

/-- The fixed-point real of a fraction. -/
def fxOf (n : Int) (d : Nat) : Int := n * fxOne / d

/-- arctan(1 / k) by its series. -/
def fxArctanInv (k : Int) : Int :=
  ((List.range 120).foldl (fun (acc : Int × Int) i =>
    let term := acc.2 / (2 * i + 1)
    (if i % 2 = 0 then acc.1 + term else acc.1 - term, acc.2 / (k * k))) (0, fxOne / k)).1

/-- π by Machin's formula. -/
def fxPi : Int := 4 * (4 * fxArctanInv 5 - fxArctanInv 239)

/-- cos x and sin x of an angle from 0 to π/4, by their series. -/
def fxCosSinSmall (x : Int) : Int × Int :=
  let x2 := fxMul x x
  let r := (List.range 26).foldl (fun (a : Int × Int × Int × Int) i =>
    let (c, s, tc, ts) := a
    let k : Int := 2 * i
    (c + tc, s + ts, -(fxMul tc x2) / ((k + 1) * (k + 2)), -(fxMul ts x2) / ((k + 2) * (k + 3)))) (0, 0, fxOne, x)
  (r.1, r.2.1)

/-- cos and sin of 2π × n / d, for 0 ≤ n < d, reduced by quadrants and about π/4. -/
def fxTurn (n d : Nat) : Int × Int :=
  let q := 4 * n / d
  let r := 4 * n % d
  let (c, s) :=
    if 2 * r ≤ d then fxCosSinSmall (fxPi * r / (2 * d : Nat))
    else let (a, b) := fxCosSinSmall (fxPi * (d - r : Nat) / (2 * d : Nat)); (b, a)
  if q % 4 = 0 then (c, s) else if q % 4 = 1 then (-s, c) else if q % 4 = 2 then (-c, -s) else (s, -c)

/-- sin(πx) / (πx) of x = n / d. -/
def fxSinc (n : Int) (d : Nat) : Int :=
  if n = 0 then fxOne else
  let m := n.natAbs % (2 * d)
  let s := (fxTurn m (2 * d)).2
  fxDiv s (fxPi * n.natAbs / d)

/-- I0 as a function of z = (x/2)^2: the sum of z^k / (k!)^2. -/
def fxBessel (z : Int) : Int :=
  ((List.range 90).foldl (fun (a : Int × Int) k => (a.1 + a.2, fxMul a.2 z / ((k + 1) * (k + 1)))) (0, fxOne)).1

/-- I0(β sqrt(1 − y²)) / I0(β), with β = bn / bd and y = yn / yd. -/
def fxKaiser (bn bd : Nat) (yn : Int) (yd : Nat) : Int :=
  let b2 : Int := fxOf (bn * bn : Nat) (4 * bd * bd)
  let rest : Int := (yd * yd : Nat) - yn * yn
  fxDiv (fxBessel (b2 * rest / (yd * yd : Nat))) (fxBessel b2)

/-- Rounds a fixed-point real to the nearest integer, half away from zero. -/
def fxRound (x : Int) : Int :=
  if 0 ≤ x then (2 * x + fxOne) / (2 * fxOne) else -((2 * (-x) + fxOne) / (2 * fxOne))

/-- n / d rounded to the nearest integer, half to even. -/
def roundHalfEven (n : Int) (d : Nat) : Int :=
  let q := n / d
  let r := n % d
  if 2 * r < d then q else if (d : Int) < 2 * r then q + 1 else if q % 2 = 0 then q else q + 1

/-- n / d rounded to the nearest integer, half away from zero. -/
def roundHalfAway (n : Int) (d : Nat) : Int :=
  if 0 ≤ n then (2 * n + d) / (2 * d) else -((2 * (-n) + d) / (2 * d))

/-- The integer square root, by bits from the highest of fuel. -/
def natSqrt (n : Nat) : Nat :=
  (List.range 256).foldl (fun r i =>
    let b := 2 ^ (255 - i)
    if (r + b) * (r + b) ≤ n then r + b else r) 0

/-- The square root of a fixed-point real that is not negative. -/
def fxSqrt (x : Int) : Int := natSqrt (x.toNat * 2 ^ fxBits)

end Sys2Proof.Machine
end

