-- ==== Sys2Proof/Machine/Filters.lean ====
section
/-! DEFINITION. The front end's filters: aligner and preset coefficients, the delay-line stages, the mixer and the chain built from K
(03 R84, R85; 04 R104 to R113). -/

namespace Sys2Proof.Machine

/-- Clamps to a w-bit two's complement value; true where it clamped. -/
def clampBits (w : Nat) (v : Int) : Int × Bool :=
  if v < -(2 ^ (w - 1)) then (-(2 ^ (w - 1)), true) else if 2 ^ (w - 1) - 1 < v then (2 ^ (w - 1) - 1, true) else (v, false)

/-! ### Aligner (03 R84, R85) -/

/-- c[φ][m] before the sum is corrected. -/
def alignerRaw (phi : Nat) (m : Int) : Int :=
  let n := 64 * m - phi
  let y2 : Int := n * n
  if (1024 * 1024 : Int) < y2 then 0 else fxRound (2 ^ 17 * fxMul (fxSinc n 64) (fxKaiser 7 1 n 1024))

/-- The 32 coefficients of a phase, m from −15 to 16; they sum to 2^17. -/
def alignerCoeffs (phi : Nat) : List Int :=
  if phi = 0 then (List.range 32).map fun i => if i = 15 then 2 ^ 17 else 0 else
  let raw := (List.range 32).map fun i => alignerRaw phi ((i : Int) - 15)
  let fix := 2 ^ 17 - raw.foldl (· + ·) 0
  let at' := if 32 ≤ phi then 16 else 15
  raw.zipIdx.map fun (c, i) => if i = at' then c + fix else c

/-! ### Preset filters (04 Table 4-2, R110) -/

/-- Kaiser β in thousandths. -/
def presetBeta (preset : Nat) : Nat := if preset = 0 then 6755 else if preset = 1 then 8959 else if preset = 2 then 11163 else 13367
/-- Conversion half-band taps T_c. -/
def convTaps (preset : Nat) : Nat := if preset = 0 then 47 else if preset = 1 then 59 else if preset = 2 then 75 else 87
/-- Cascade half-band taps T_h. -/
def halfTaps (preset : Nat) : Nat := if preset = 0 then 19 else if preset = 1 then 23 else if preset = 2 then 27 else 31
/-- t_p. -/
def presetTp (preset : Nat) : Nat := if preset = 0 then 22 else if preset = 1 then 30 else if preset = 2 then 36 else 44
/-- T_f of the preset's final FIR. -/
def firTaps (preset kf : Nat) : Nat := if kf = 1 then 1 else presetTp preset * kf + 1

/-- The coefficients of a preset filter of t taps, decimating by r; they sum to 2^24 (04 R110). -/
def presetCoeffs (preset t r : Nat) : List Int :=
  if t = 1 then [2 ^ 24] else
  let half : Int := ((t - 1) / 2 : Nat)
  let raw := (List.range t).map fun u =>
    let i : Int := u - half
    fxRound (2 ^ 24 * fxMul (fxSinc i r) (fxKaiser (presetBeta preset) 1000 (2 * i) (t - 1)) / r)
  let fix := 2 ^ 24 - raw.foldl (· + ·) 0
  raw.zipIdx.map fun (c, u) => if (u : Int) = half then c + fix else c

/-- A bank's first t coefficients: 24-bit values in 4-byte entries (04 R120). -/
def bankCoeffs (img t : Nat) : List Int :=
  (List.range t).map fun u =>
    let v : Nat := (img >>> (32 * u)) % 2 ^ 24
    if v < 2 ^ 23 then (v : Int) else (v : Int) - 2 ^ 24

/-! ### The chain from K (04 R107, R111 to R113) -/

/-- K = m × 2^v with m odd: (m, v), for K up to 2^24. -/
def oddPart : Nat → Nat → Nat → Nat × Nat
  | 0, k, v => (k, v)
  | fuel + 1, k, v => if k % 2 = 0 ∧ k ≠ 0 then oddPart fuel (k / 2) (v + 1) else (k, v)

/-- The front end's fixed settings: mode, preset, K, bank taps, whether a bank is the source, whether the port is real. -/
structure FeCfg where
  mode : Nat
  preset : Nat
  k : Nat
  taps : Nat
  bank : Bool
  real : Bool
  deriving DecidableEq, Repr

def FeCfg.v (c : FeCfg) : Nat := (oddPart 32 c.k 0).2
def FeCfg.m (c : FeCfg) : Nat := (oddPart 32 c.k 0).1
/-- Half-band stages b. -/
def FeCfg.b (c : FeCfg) : Nat := if c.mode = 1 then 0 else c.v - 1
/-- Decimation of the final FIR. -/
def FeCfg.kf (c : FeCfg) : Nat := if c.mode = 1 then c.k else if c.v = 0 then c.m else 2 * c.m
/-- Taps of the final stage. -/
def FeCfg.tf (c : FeCfg) : Nat := if c.mode = 1 then c.k else if c.bank then c.taps else firTaps c.preset c.kf
/-- The preset of the conversion stage: Fast in single-cycle settling. -/
def FeCfg.convPreset (c : FeCfg) : Nat := if c.mode = 1 then 0 else c.preset
def FeCfg.hc (c : FeCfg) : Nat := (convTaps c.convPreset - 1) / 2
def FeCfg.h (c : FeCfg) : Nat := (halfTaps c.preset - 1) / 2

/-- Twice G, in mixer-input samples (04 R111). -/
def FeCfg.delay2 (c : FeCfg) : Nat := (if c.real then c.hc else 0) + 2 * c.h * (2 ^ c.b - 1) + (c.tf - 1) * 2 ^ c.b

/-- F (04 R112). -/
def FeCfg.fill (c : FeCfg) : Nat :=
  let c0 := if c.real then c.hc else 0
  let cb := (List.range c.b).foldl (fun x _ => (x + 2 * c.h + 1) / 2) c0
  (cb + c.tf - 1 + c.kf - 1) / c.kf

/-! ### Delay-line stages -/

/-- The coefficients paired with the samples they meet, newest first; a sample from before the reset is zero and not listed. -/
def usedPairs (coeffs : List Int) (hist : List Smp) : List (Int × Smp) := (coeffs.zip hist).filter fun x => x.1 != 0

/-- Flags, gap, degraded causes and change counts of an output computed from the used samples (04 R96, R114, R119). -/
def combine (used : List (Int × Smp)) : Smp :=
  match used with
  | [] => {}
  | (_, a) :: r => r.foldl (fun (o : Smp) x =>
      { o with overload := o.overload || x.2.overload, settling := o.settling || x.2.settling, gap := (x.2.gap.orElse fun _ => o.gap),
               deg := o.deg ||| x.2.deg, calPier := if o.calPier = 0xFF then x.2.calPier else o.calPier, aLo := min o.aLo x.2.aLo, aHi := max o.aHi x.2.aHi, mLo := min o.mLo x.2.mLo, mHi := max o.mHi x.2.mHi })
      { a with i := 0, q := 0 }

/-- The filter sum of a delay line, divided by 2^sh, rounded half to even and saturated to 24 bits; the number of values saturated
(04 R104, R108). -/
def firOutput (coeffs : List Int) (sh : Nat) (hist : List Smp) : Smp × Nat :=
  let used := usedPairs coeffs hist
  let o := combine used
  let (i, si) := clampBits 24 (roundHalfEven (used.foldl (fun a x => a + x.1 * x.2.i) 0) (2 ^ sh))
  let (q, sq) := clampBits 24 (roundHalfEven (used.foldl (fun a x => a + x.1 * x.2.q) 0) (2 ^ sh))
  let sat := (if si then 1 else 0) + (if sq then 1 else 0)
  ({ o with i := i, q := q, overload := o.overload || si || sq }, if o.gap.isSome then 0 else sat)

/-- A line takes a sample, keeping t of them. -/
def Line.push (l : Line) (t : Nat) (x : Smp) : Line := { hist := (x :: l.hist).take t, count := l.count + 1 }

/-- A stage of decimation r takes a sample; it gives an output at input indexes that are multiples of r (04 R108). -/
def stageStep (coeffs : List Int) (sh r : Nat) (l : Line) (x : Smp) : Line × Option Smp × Nat :=
  let l1 := l.push coeffs.length x
  if l.count % r = 0 then
    let (o, n) := firOutput coeffs sh l1.hist
    (l1, some o, n)
  else (l1, none, 0)

/-- The half-band cascade takes a sample (04 R107). -/
def cascadeStep (coeffs : List Int) : List Line → Smp → List Line × Option Smp × Nat
  | [], x => ([], some x, 0)
  | l :: r, x =>
    match stageStep coeffs 24 2 l x with
    | (l1, none, n) => (l1 :: r, none, n)
    | (l1, some o, n) =>
      let (r1, y, m) := cascadeStep coeffs r o
      (l1 :: r1, y, n + m)

/-- The mixer (04 R105): one mixer-input sample against the accumulator p; the number of values clamped. -/
def mix (p po : Nat) (x : Smp) : Smp × Nat :=
  let a := (p / 2 ^ 28 + po) % 2 ^ 20
  let (cs, sn) := fxTurn a (2 ^ 20)
  let c := fxRound ((2 ^ 17 - 1) * cs)
  let s := fxRound ((2 ^ 17 - 1) * sn)
  let (yi, bi) := clampBits 24 (roundHalfEven (x.i * c + x.q * s) (2 ^ 17))
  let (yq, bq) := clampBits 24 (roundHalfEven (x.q * c - x.i * s) (2 ^ 17))
  ({ x with i := yi, q := yq, overload := x.overload || bi || bq }, if x.gap.isSome then 0 else (if bi then 1 else 0) + (if bq then 1 else 0))

/-- (−j)^n times a real sample (04 R104). -/
def rotate (n : Nat) (x : Smp) : Smp :=
  if n % 4 = 0 then { x with q := 0 } else if n % 4 = 1 then { x with i := 0, q := -x.i } else if n % 4 = 2 then { x with i := -x.i, q := 0 } else { x with i := 0, q := x.i }

end Sys2Proof.Machine
end

