-- ==== Sys2Proof/Machine/TrussOps.lean ====
section
/-! DEFINITION. Truss packets and routes: what every sender of a packet shares (15 R400, R407 to R413). -/

namespace Sys2Proof.Machine

/-- The payload of a trigger or control packet of n blocks: content, zero bytes, CRC-32 (15 R407). -/
def messageBytes (n : Nat) (content : Bytes) : Bytes :=
  let body := padTo (6 * n - 5) content
  body ++ natBE 4 (crc32 body)

/-- The payload of a data packet: header, body part, zero bytes up to 8-byte blocks, CRC-32 (15 R408), after its destination (DSTART). -/
def dataBytes (dest origin kind : Nat) (last : Bool) (id offset : Nat) (part : Bytes) : Bytes :=
  let head := natBE 2 origin ++ natBE 1 kind ++ natBE 1 (b2n last) ++ natBE 4 id ++ natBE 4 offset ++ zeros 4
  let total := max 16 (cdiv (16 + part.length + 4) 8 * 8)
  let body := padTo (total - 4) (head ++ part)
  natBE 2 dest ++ body ++ natBE 4 (crc32 body)

namespace State

def trussPort (s : State) (p : Nat) : TrussPort := tabGet {} s.span.ports p
def putTrussPort (s : State) (p : Nat) (x : TrussPort) : State := s.withSpan { s.span with ports := tabSet {} s.span.ports p x }
def trussClass (s : State) (p c : Nat) : TrussClass := tabGet {} (s.trussPort p).cls c
def putTrussClass (s : State) (p c : Nat) (x : TrussClass) : State :=
  s.putTrussPort p { s.trussPort p with cls := tabSet {} (s.trussPort p).cls c x }

/-- Does the port carry traffic (15 R416, R420)? -/
def trussUp (s : State) (p : Nat) : Bool := s.obj (Key.trussState p) == 2 || s.obj (Key.trussState p) == 3

/-- Sends waiting packets of a class while fewer than 64 are kept (15 R409). -/
def trussPump (s : State) (p c : Nat) : Nat → State
  | 0 => s
  | fuel + 1 =>
    let x := s.trussClass p c
    match x.waiting with
    | [] => s
    | b :: r =>
      if 64 ≤ x.kept.length then s else
      let s1 := s.putTrussClass p c { x with next := (x.next + 1) % 256, kept := x.kept ++ [⟨x.next, b⟩], waiting := r, ackAt := if x.kept.isEmpty then s.wall else x.ackAt }
      trussPump (s1.emit (.truss p c x.next b)) p c fuel

/-- Queues a packet on a port: numbered and kept until acknowledged (15 R409). On a port in training it waits, delayed and not lost (15 R415); a port that is
off, DOWN or MISWIRED carries none (15 R416, R419, R420). -/
def trussSend (s : State) (p c : Nat) (packet : Bytes) : State :=
  let x := s.trussClass p c
  if s.obj (Key.trussState p) = 1 then s.putTrussClass p c { x with waiting := x.waiting ++ [packet] } else
  if !s.trussUp p then s else
  let s1 := if c = 2 then s.putTrussPort p { s.trussPort p with dataAt := s.wall } else s
  (s1.putTrussClass p c { x with waiting := x.waiting ++ [packet] }).trussPump p c 64

/-! ### Geometry (15 R400, R401) and routes (15 R410) -/

def nodeX (n : Nat) : Nat := n % 8
def nodeRow (n : Nat) : Nat := n % 64 / 8
def nodeSpan (n : Nat) : Nat := n / 64 % 8
/-- The global row of a node. -/
def globalRow (s : State) (n : Nat) : Nat := nodeSpan n * s.obj Key.spanY + nodeRow n
/-- Is the address a node of the system? -/
def isNode (s : State) (n : Nat) : Bool :=
  n < 512 && nodeX n < s.obj Key.spanX && nodeRow n < s.obj Key.spanY && nodeSpan n < s.obj Key.spanCount
/-- The node at a column and a global row. -/
def nodeAt (s : State) (x row : Nat) : Nat := row / max 1 (s.obj Key.spanY) * 64 + row % max 1 (s.obj Key.spanY) * 8 + x

/-- Steps around a ring of n from a to b in the rising direction. -/
def ringUp (n a b : Nat) : Nat := (b + n - a % max 1 n) % max 1 n

/-- The port toward a node, none at the node itself (15 R410, unicast). -/
def unicastPort (s : State) (dest : Nat) : Option Nat :=
  let me := s.obj Key.spanNode
  let x := s.obj Key.spanX
  let h := s.obj Key.spanY * s.obj Key.spanCount
  let dx := ringUp x (nodeX me) (nodeX dest)
  let dy := ringUp h (s.globalRow me) (s.globalRow dest)
  if dx ≠ 0 then (if 2 * dx ≤ x then some 0 else some 1)
  else if dy ≠ 0 then (if 2 * dy ≤ h then some 2 else some 3)
  else none

/-- The column ports of a broadcast at distance d travelled in the column, by direction. system: the ring of all rows. -/
def columnPorts (s : State) (system up down : Bool) (origin : Nat) : List Nat :=
  let me := s.obj Key.spanNode
  let h := s.obj Key.spanY * s.obj Key.spanCount
  let dUp := ringUp h (s.globalRow origin) (s.globalRow me)
  let dDown := ringUp h (s.globalRow me) (s.globalRow origin)
  if system || s.obj Key.spanCount == 1 then
    (if up && dUp < h / 2 then [2] else []) ++ (if down && dDown < cdiv h 2 - 1 then [3] else [])
  else
    (if up && nodeRow me + 1 < s.obj Key.spanY then [2] else []) ++ (if down && 0 < nodeRow me then [3] else [])

/-- The ports to which a broadcast of an origin goes on from here, by the port it came in on, none at its origin (15 R410). -/
def broadcastPorts (s : State) (system : Bool) (origin : Nat) (from' : Option Nat) : List Nat :=
  let me := s.obj Key.spanNode
  let x := s.obj Key.spanX
  let right := ringUp x (nodeX origin) (nodeX me)
  let left := ringUp x (nodeX me) (nodeX origin)
  let goRight := if right < x / 2 then [0] else []
  let goLeft := if left < cdiv x 2 - 1 then [1] else []
  match from' with
  | none => goRight ++ goLeft ++ s.columnPorts system true true origin
  | some 1 => goRight ++ s.columnPorts system true true origin
  | some 0 => goLeft ++ s.columnPorts system true true origin
  | some 3 => s.columnPorts system true false origin
  | some _ => s.columnPorts system false true origin

/-- Broadcasts a packet of class c that this node originates. -/
def trussBroadcast (s : State) (c : Nat) (system : Bool) (packet : Bytes) : State :=
  (s.broadcastPorts system (s.obj Key.spanNode) none).foldl (fun x p => x.trussSend p c packet) s

/-- A data body to a destination, in parts of ascending OFFSET (15 R408). The part length fills at most 16,384 blocks. -/
def dataParts (dest origin kind id : Nat) : Nat → Nat → Bytes → List Bytes
  | 0, _, _ => []
  | fuel + 1, off, b =>
    if b.length ≤ 131052 then [dataBytes dest origin kind true id off b]
    else dataBytes dest origin kind false id off (b.take 131052) :: dataParts dest origin kind id fuel (off + 131052) (b.drop 131052)

/-- Sends a data body of this node: unicast toward a node, or broadcast with destination 0xFFFE or 0xFFFF (15 R408, R410). -/
def sendData (s : State) (dest kind id : Nat) (body : Bytes) : State :=
  let parts := dataParts dest (s.obj Key.spanNode) kind id 4096 0 body
  if dest = 0xFFFE ∨ dest = 0xFFFF then parts.foldl (fun x b => x.trussBroadcast 2 (dest == 0xFFFF) b) s
  else match s.unicastPort dest with
    | some p => parts.foldl (fun x b => x.trussSend p 2 b) s
    | none => s

/-- Does span.lost mark a node (15 R420)? -/
def nodeLost (s : State) (n : Nat) : Bool := bit (s.obj Key.spanLost) n

/-- A reset taken from SYNC_L or sync.now is relayed as a SYNC packet of system scope while span.sync.relay is 1 (15 R413). -/
def relaySync (s : State) (ts : KTime) : State :=
  if !s.flag Key.spanSyncRelay then s else
  s.trussBroadcast 0 true (messageBytes 4 (natBE 1 3 ++ natBE 1 1 ++ natBE 2 (s.obj Key.spanNode) ++ natBE 10 ts))

end State

end Sys2Proof.Machine
end

