-- ==== Sys2Proof/Machine/TrigOps.lean ====
section
/-! DEFINITION. Trigger events, watermarks and the TRIGO pins: what every trigger source shares (07 R185 to R190, R211; 04 R102). -/

namespace Sys2Proof.Machine

/-- The 32-byte image of a trigger event (07 Table 7-2). -/
def Event.image (e : Event) : Bytes :=
  natLE 2 e.source ++ natLE 1 e.flags ++ natLE 1 e.qual ++ natLE 2 e.node ++ natLE 2 e.origin ++ natLE 10 e.time ++ [0, 0] ++
    natLE 4 e.d0 ++ natLE 4 e.d1 ++ natLE 4 e.seq

/-- Ascending TIME, then SOURCE, NODE and SEQ (07 R187). -/
def Event.before (a b : Event) : Bool :=
  a.time < b.time || (a.time == b.time && (a.source < b.source || (a.source == b.source && (a.node < b.node || (a.node == b.node && a.seq < b.seq)))))

namespace State

/-- Is the pin high at a wall tick: does any driver's pulse run then (04 R102; 07 R211)? -/
def pinHigh (s : State) (pin at' : Nat) : Bool := s.trig.pulses.any fun p => p.pin == pin && decide (p.start ≤ at' ∧ at' < p.stop)

/-- One pin of a driver's pulse that starts at a wall tick: it ends width ticks after this start, and never sooner; a rise from low is counted
(04 R102; Table 7-9). -/
def pulsePin (s : State) (driver width at' pin : Nat) : State :=
  let mine := s.trig.pulses.find? fun p => p.driver == driver && p.pin == pin && decide (at' < p.stop)
  let rest := s.trig.pulses.filter fun p => !(p.driver == driver && p.pin == pin)
  let s1 := s.withTrig { s.trig with pulses := rest ++ [{ driver := driver, pin := pin, start := (mine.map (·.start)).getD at', stop := at' + width }] }
  if s.pinHigh pin at' then s1 else s1.bump (Key.trigoCount pin)

/-- A driver starts a pulse at a wall tick on each pin of a set. width gives each pin's width. -/
def pulseFrom (s : State) (driver pins at' : Nat) (width : Nat → Nat) : State :=
  (List.range 8).foldl (fun x n => if bit pins n then x.pulsePin driver (width n) at' n else x) s

/-- A driver starts a pulse now on each pin of a set. -/
def pulse (s : State) (driver pins : Nat) (width : Nat → Nat) : State := s.pulseFrom driver pins s.wall width

/-- A driver whose pulses have the width of each pin's trigo.width, in force at the Keystone time at which the pulse starts (07 R211; 01 Table 1-9). -/
def pulseNow (s : State) (driver pins : Nat) : State := s.pulse driver pins fun n => s.objAt (Key.trigoWidth n) s.time

/-- The watermark of a source; zero before its first (07 R188). -/
def watermark (s : State) (source : Nat) : KTime := tabGet 0 s.trig.marks source

/-- A source's watermark reaches t. -/
def setWatermark (s : State) (source : Nat) (t : KTime) : State :=
  s.withTrig { s.trig with marks := tabUpd 0 s.trig.marks source (max t) }

/-! ### Remote channels (07 R207 to R210; 15 R412) -/

/-- The source code of a term of an expression (07 Table 7-6). -/
def termSource (expr j : Nat) : Nat := fieldAt expr (16 * j) 2

/-- The terms in use: up to the first whose SOURCE is 0 (07 R212). -/
def termsUsed (expr : Nat) : List Nat := (List.range 8).takeWhile fun j => termSource expr j != 0

/-- The contexts that combine a source at a time that they have passed already (07 R210). -/
def lateContexts (s : State) (source t : Nat) : List Nat :=
  (s.acq.ctxs.filter fun e => s.flagAt (Key.ctxEnable e.1) t && (termsUsed (s.objAt (Key.ctxExpr e.1) t)).any (fun j => termSource (s.objAt (Key.ctxExpr e.1) t) j == source) &&
    decide (t < e.2.passed)).map (·.1)

/-- The trigger log among the consumers that an event has missed; a context stands under its number. -/
def logConsumer : Nat := 1024

/-- Has the trigger log passed a time at which it selects this kind? -/
def lateLog (s : State) (kind t : Nat) : Bool :=
  s.flagAt Key.trigLogEnable t && bit (s.objAt Key.trigLogKinds t) (kind - 1) && (match s.trig.logCursor with | some c => decide (t ≤ c.time) | none => false)

/-- An accepted event of channel c, named with its publisher's source code, becomes an event of this device. A consumer that has passed its
TIME gets it LATE and does not combine it (07 R208, R210). -/
def remoteEvent (s : State) (c : Nat) (e : Event) : State :=
  let log := s.lateLog 6 e.time
  let missed := s.lateContexts (0x6000 + c) e.time ++ (if log then [logConsumer] else [])
  let r : Event := { e with source := 0x6000 + c, origin := e.source, missed := missed }
  let n := missed.length
  let s1 := s.withTrig { s.trig with events := s.trig.events ++ [r], lateLog := if log then s.trig.lateLog ++ [{ r with flags := r.flags ||| 32 }] else s.trig.lateLog }
  ((((s1.bump (Key.rtrigEvents c)).addObj (Key.rtrigLate c) n).addObj Key.trigLate n).pulseNow r.source (s.objAt (Key.rtrigPins c) s.time))

/-- An EVENT packet of a channel, with the scope in force at its TIME (15 Table 15-3; 01 Table 1-9). -/
def eventPacket (s : State) (c : Nat) (e : Event) : Bytes :=
  messageBytes 7 (natBE 1 1 ++ natBE 1 (s.objAt (Key.rtrigScope c) e.time) ++ natBE 2 (s.obj Key.spanNode) ++ natBE 1 c ++ e.image)

/-- An event of a local source is sent on every channel that publishes it; a channel that names this device delivers it here (07 R207,
R208). -/
def publish (s : State) (e : Event) : State :=
  ((List.range 64).filter fun c => s.objAt (Key.rtrigPublish c) e.time == e.source).foldl (fun x c =>
    let y := x.trussBroadcast 0 (x.objAt (Key.rtrigScope c) e.time == 1) (x.eventPacket c e)
    if y.objAt (Key.rtrigFrom c) e.time = y.obj Key.spanNode then y.remoteEvent c e else y) s

/-- Delivers an event of a local source: SEQ counts the events of the source, trig.events counts them all, and the event is published
(07 R185, R186, R207). -/
def raiseTrigger (s : State) (source time flags qual d0 d1 : Nat) : State :=
  let n := tabGet 0 s.trig.counts source
  let e : Event := { time := time, source := source, node := s.obj Key.spanNode, seq := n % 2 ^ 32, flags := flags, qual := qual, origin := 0, d0 := d0, d1 := d1 }
  (((s.withTrig { s.trig with events := s.trig.events ++ [e], counts := tabSet 0 s.trig.counts source (n + 1) })).bump Key.trigEvents).publish e

end State

end Sys2Proof.Machine
end

