-- ==== Sys2Proof/Machine/EdgeTest.lean ====
section
/-! DEFINITION. The edge test of a port, shared by the decision route and the pin route (04 R98, R100 to R102). -/

namespace Sys2Proof.Machine

/-- The settings of an edge test (04 Table 4-6). -/
structure EdgeCfg where
  stage : Nat
  quantity : Nat
  level : Int
  hyst : Int
  slope : Nat
  dead : Nat
  pins : Nat
  width : Nat
  deriving DecidableEq, Repr

/-- The fe.edge objects of port p in force at time t. -/
def State.edgeCfg (s : State) (p t : Nat) : EdgeCfg :=
  { stage := s.objAt (Key.feEdgeStage p) t, quantity := s.objAt (Key.feEdgeQuantity p) t, level := s.objIAt (Key.feEdgeLevel p) t,
    hyst := s.objAt (Key.feEdgeHyst p) t, slope := s.objAt (Key.feEdgeSlope p) t, dead := s.objAt (Key.feEdgeDead p) t,
    pins := s.objAt (Key.feEdgePins p) t, width := s.objAt (Key.feEdgeWidth p) t }

/-- The settings as numbers, to see a change of any fe.edge object. -/
def EdgeCfg.key (c : EdgeCfg) : List Nat :=
  [c.stage, c.quantity, ofSigned 16 c.level, c.hyst.toNat, c.slope, c.dead, c.pins, c.width]

/-- The quantity tested: I, or the magnitude I² + Q² (04 R98). -/
def EdgeCfg.value (c : EdgeCfg) (i q : Int) : Int := if c.quantity = 0 then i else i * i + q * q

/-- One sample of the rising detector: whether it fires, and its new state (04 R98). -/
def riseStep (c : EdgeCfg) (v : Int) (d : Detector) : Bool × Detector :=
  let fire := if c.quantity = 0 then c.level else c.level * c.level
  let rearm := if c.quantity = 0 then c.level - c.hyst else (c.level - c.hyst) * (c.level - c.hyst)
  if d.armed && decide (fire ≤ v) then (true, { armed := false, since := 0 }) else
  let n := d.since + 1
  (false, { armed := d.armed || (decide (v < rearm) && c.dead ≤ n), since := n })

/-- One sample of the falling detector (04 R98). -/
def fallStep (c : EdgeCfg) (v : Int) (d : Detector) : Bool × Detector :=
  let fire := if c.quantity = 0 then c.level else c.level * c.level
  let rearm := if c.quantity = 0 then c.level + c.hyst else (c.level + c.hyst) * (c.level + c.hyst)
  if d.armed && decide (v ≤ fire) then (true, { armed := false, since := 0 }) else
  let n := d.since + 1
  (false, { armed := d.armed || (decide (rearm < v) && c.dead ≤ n), since := n })

/-- A detector as it starts: unarmed with since = dead (04 R98). -/
def EdgeCfg.fresh (c : EdgeCfg) : Detector := { armed := false, since := c.dead }

namespace State

def pinComparator (s : State) (p : Nat) : PinComparator := tabGet {} s.fes.pins p
def putPinComparator (s : State) (p : Nat) (x : PinComparator) : State := s.withFes { s.fes with pins := tabSet {} s.fes.pins p x }

/-- The Ts of the last synchronising reset scheduled at or before a time (04 R115). -/
def lastReset (s : State) (t : KTime) : KTime := (s.fes.resets.filter fun r => r.1 ≤ t).foldl (fun m r => max m r.1) 0

/-- The settings whose change resets the port alone (04 R118), at time t. -/
def resetSettings (s : State) (p t : Nat) : List Nat :=
  [s.objAt (Key.feMode p) t, s.objAt (Key.fePreset p) t, s.objAt (Key.feDecim p) t, s.objAt (Key.feFirTaps p) t, b2n (s.objAt (Key.feFirSource p) t != 0)]

/-- The synchronising resets that act on port p at its first aligned sample at t, where those up to time a have acted (04 R115, R117). -/
def resetsIn (s : State) (p a t : Nat) : List KTime :=
  (s.fes.resets.map (·.1)).filter fun T => decide (a < T ∧ T ≤ t) && s.flagAt (Key.feSyncEnable p) T

/-- The times of the commits that reset port p alone, after a and up to t (04 R118). -/
def resetCommits (s : State) (p a t : Nat) : List KTime :=
  ([Key.feMode p, Key.fePreset p, Key.feDecim p, Key.feFirTaps p, Key.feFirSource p].flatMap fun k => s.writesOf k).filter fun T =>
    decide (a < T ∧ T ≤ t) && s.resetSettings p T != s.resetSettings p (T - 1)

/-- The driver number of a port's pin route; other drivers have their source code (07 R211). -/
def pinDriver (p : Nat) : Nat := 0x10000 + p

/-- One sample of the pin route of port p, which is w bits wide and belongs to the enable at era: it tests the sample port.delay.int before it, with
detectors of its own that restart with those of the decision route, and a firing starts a pulse on each selected pin at a wall tick; it never gives a trigger event (04
R100 to R102). A sample before the first of the enable counts as 0, as in the aligner. -/
def pinSample (s : State) (p : Nat) (t : KTime) (w : Nat) (era : KTime) (at' : Nat) (i q : Int) : State :=
  let c := s.edgeCfg p t
  let k := s.pinComparator p
  let cfg := c.key ++ s.resetSettings p t
  let last := s.lastReset t
  let new := k.era != some era
  let restart := new || k.cfg != cfg || !(s.resetsIn p k.resetSeen t).isEmpty
  let sh : Int := if w = 8 then 256 else 1
  let held := ((i * sh, q * sh) :: (if new then [] else k.held)).take 4096
  let k0 : PinComparator := { rise := if restart then c.fresh else k.rise, fall := if restart then c.fresh else k.fall, cfg := cfg, resetSeen := max k.resetSeen last, era := some era, held := held }
  if c.stage ≠ 1 then s.putPinComparator p k0 else
  let x := held.getD (s.objAt (Key.portDelayInt p) t) (0, 0)
  let v := c.value x.1 x.2
  let (fr, rise) := if c.slope = 1 then (false, k0.rise) else riseStep c v k0.rise
  let (ff, fall) := if c.slope = 0 then (false, k0.fall) else fallStep c v k0.fall
  let s1 := s.putPinComparator p { k0 with rise := rise, fall := fall }
  if fr || ff then s1.pulseFrom (pinDriver p) c.pins at' fun _ => c.width else s1

end State

end Sys2Proof.Machine
end

