-- ==== Sys2Proof/Machine/Ingest.lean ====
section
/-! DEFINITION. Ingest lanes, links, piers and the ingest abutments (03; 01 R18 to R28). -/

namespace Sys2Proof.Machine

/-! ### Link geometry (03 R69 to R79) -/

/-- The parameters of a link in force. -/
structure LinkCfg where
  l : Nat
  m : Nat
  f : Nat
  s : Nat
  n : Nat
  np : Nat
  cs : Nat
  e : Nat
  lanes : List Nat
  rbd : Nat
  latency : Int
  rate : Nat
  phase : Nat
  deriving DecidableEq, Repr

/-- Byte i of link.lanes names the ingest lane of logical lane i (03 R71). -/
def lanesOf (img l : Nat) : List Nat := (List.range l).map fun i => fieldAt img i 1

/-- The parameters of link k. -/
def State.link (s : State) (k : Nat) : LinkCfg :=
  let l := s.obj (Key.linkL k)
  let lanes := lanesOf (s.obj (Key.linkLanes k)) l
  { l := l, m := s.obj (Key.linkM k), f := s.obj (Key.linkF k), s := s.obj (Key.linkS k), n := s.obj (Key.linkN k),
    np := s.obj (Key.linkNp k), cs := s.obj (Key.linkCs k), e := s.obj (Key.linkE k), lanes := lanes,
    rbd := s.obj (Key.linkRbd k), latency := s.objI (Key.linkLatency k),
    rate := s.obj (Key.pierRate (lanes.headD 0 / 8)), phase := s.obj Key.sysrefPhase }

/-- Pe = period / rate ticks: E × 2,112 × 400 MHz over the baud rate, the rate in kBd (03 R72). -/
def LinkCfg.period (c : LinkCfg) : Nat := c.e * 844800000

/-- ns, samples of each converter in an extended multiblock (03 R79). -/
def LinkCfg.ns (c : LinkCfg) : Nat := c.s * c.e * 256 / c.f

/-- The first LEMC edge at or after time zero, in units of 1 / rate tick (03 R75). -/
def LinkCfg.base (c : LinkCfg) : Nat := c.phase * c.rate % c.period

/-- e_k, truncated once to a fraction unit (03 R75). -/
def LinkCfg.edge (c : LinkCfg) (k : Nat) : KTime := 65536 * (c.base + k * c.period) / c.rate

/-- The least index k with e_k at or after a time. -/
def LinkCfg.edgeFrom (c : LinkCfg) (t : KTime) : Nat := cdiv (t * c.rate - 65536 * c.base) (65536 * c.period)

/-- R_k = e_k + link.rbd (03 R76). -/
def LinkCfg.release (c : LinkCfg) (k : Nat) : KTime := c.edge k + c.rbd * tick

/-- The denominator of the link's exact sample times. -/
def LinkCfg.den (c : LinkCfg) : Nat := c.rate * c.ns

/-- The sample period in units of 1 / den (03 R79). -/
def LinkCfg.step (c : LinkCfg) : Nat := 65536 * c.period

/-- The exact time of sample i of the extended multiblock of e_k (03 R79). -/
def LinkCfg.sampleTime (c : LinkCfg) (k i : Nat) : Exact :=
  { n := (65536 * (c.base + k * c.period) * c.ns + i * c.step : Nat) - c.latency * (c.rate * c.ns : Nat), d := c.den }

/-- R_k for any integer k (03 R76, R78). -/
def LinkCfg.releaseI (c : LinkCfg) (k : Int) : Int := (65536 * ((c.base : Int) + k * c.period)) / (c.rate : Int) + (c.rbd * tick : Nat)

/-- An exact time truncated once to a fraction unit (02 R43). -/
def Exact.floor (t : Exact) : KTime := (t.n / t.d).toNat

/-- Octets as a lane carries them and after the self-synchronising descrambler of the 64b/66b link layer, x^58 + x^39 + 1, most significant bit of an
octet first, with the 58 bits before them; and the last 58 bits (03 R68; notes/assumptions/166.md). -/
def descramble (history : Nat) (octets : Bytes) : Bytes × Nat :=
  let n := 8 * octets.length
  let all := history * 2 ^ n + beNat octets
  (natBE octets.length ((all ^^^ (all >>> 39) ^^^ (all >>> 58)) % 2 ^ n), all % 2 ^ 58)

/-- A frame of a link: the F octets of each logical lane in order, as one number, first octet most significant (03 R70;
notes/assumptions/17.md). -/
def frameRow (c : LinkCfg) (embs : List Bytes) (f : Nat) : Nat :=
  beNat (embs.flatMap fun b => (b.drop (f * c.f)).take c.f)

/-- The sample container of a converter's sample j in a frame: value in W bits, and its over-range bit (03 R70, R82, R83). -/
def container (c : LinkCfg) (row conv j : Nat) : Int × Bool :=
  let total := 8 * c.l * c.f
  let off := (conv * c.s + j) * c.np
  let raw := (row >>> (total - off - c.np)) % 2 ^ c.np
  let v := toSigned c.n (raw >>> (c.np - c.n)) * 2 ^ (widthOf c.np - c.n)
  (v, c.cs != 0 && bit raw (c.np - c.n - 1))

/-- The samples of a converter in frames of an extended multiblock, in order. -/
def converterSamples (c : LinkCfg) (embs : List Bytes) (frames : List Nat) (conv : Nat) : List (Int × Bool) :=
  frames.flatMap fun f =>
    let row := frameRow c embs f
    (List.range c.s).map fun j => container c row conv j

/-- The samples of a port of a kind in frames: a real port takes one converter, a complex port two of one link (03 R80, R83). -/
def portSamples (c : LinkCfg) (embs : List Bytes) (frames : List Nat) (kind convI convQ : Nat) : List (Int × Int × Bool) :=
  let i := converterSamples c embs frames convI
  if kind = 1 then (i.zip (converterSamples c embs frames convQ)).map fun (a, b) => (a.1, b.1, a.2 || b.2)
  else i.map fun a => (a.1, 0, a.2)

/-- The frames of an extended multiblock of a lane. -/
def LinkCfg.frames (c : LinkCfg) : Nat := c.e * 256 / c.f

/-- The degraded causes of a sample on lanes, and the pier of CAL_STALE: 0xFF for the timebase delay line, else that of the lowest stale lane
(01 R31; 02 R48; 17 R462). -/
def Causes.on (c : Causes) (lanes : List Nat) : Nat × Nat :=
  let mine := lanes.filter fun n => bit c.stale n
  (b2n (!mine.isEmpty || bit c.stale 128) + 2 * b2n c.hold + 4 * b2n c.cond,
    if bit c.stale 128 then 0xFF else match mine with | [] => 0xFF | n :: r => r.foldl min n / 8)

namespace State

def laneSt (s : State) (n : Nat) : Lane := tabGet {} s.ing.lanes n
def putLane (s : State) (n : Nat) (x : Lane) : State := s.withIng { s.ing with lanes := tabSet {} s.ing.lanes n x }
def linkSt (s : State) (k : Nat) : Link := tabGet {} s.ing.links k
def putLink (s : State) (k : Nat) (x : Link) : State := s.withIng { s.ing with links := tabSet {} s.ing.links k x }
def pierSt (s : State) (p : Nat) : Pier := tabGet {} s.ing.piers p
def putPier (s : State) (p : Nat) (x : Pier) : State := s.withIng { s.ing with piers := tabSet {} s.ing.piers p x }
def abutment (s : State) (p : Nat) : Abutment := tabGet {} s.ing.abutments p
def putAbutment (s : State) (p : Nat) (x : Abutment) : State := s.withIng { s.ing with abutments := tabSet {} s.ing.abutments p x }
def queue (s : State) (p : Nat) : List Item := tabGet [] s.ing.queues p
def putQueue (s : State) (p : Nat) (x : List Item) : State := s.withIng { s.ing with queues := tabSet [] s.ing.queues p x }
def lostRun (s : State) (p : Nat) : LostRun := tabGet {} s.ing.lost p
def putLostRun (s : State) (p : Nat) (x : LostRun) : State := s.withIng { s.ing with lost := tabSet {} s.ing.lost p x }

/-- Enabled links. -/
def linksOn (s : State) : List Nat := s.enabledUnits 0x1580 128

/-- The enabled link that a lane belongs to, with its logical lane number (03 R71). -/
def linkOfLane (s : State) (n : Nat) : Option Nat := s.linksOn.find? fun k => (s.link k).lanes.contains n

/-- Enabled links with a lane in a pier. -/
def linksOfPier (s : State) (p : Nat) : List Nat := s.linksOn.filter fun k => (s.link k).lanes.any fun n => n / 8 == p

/-- The piers that hold lanes of a link. -/
def pierList (c : LinkCfg) : List Nat := (c.lanes.map (· / 8)).eraseDups

/-- The pier whose abutment and ring writer take a link's samples: the pier of logical lane 0 (notes/assumptions/18.md). -/
def pierOfLink (s : State) (k : Nat) : Nat := (s.link k).lanes.headD 0 / 8

/-- The pier of a port as it is bound now. -/
def pierOfPort (s : State) (p : Nat) : Nat := s.pierOfLink (s.obj (Key.portLink p))

/-- W of a port at time t (03 Table 3-3). -/
def portW (s : State) (p t : Nat) : Nat := widthOf (s.obj (Key.linkNp (s.objAt (Key.portLink p) t)))

/-! ### Ports at their sample times (01 R33, Table 1-9; 03 R80) -/

/-- Ports with any entry of their own, now, before or by a pending group. -/
def knownPorts (s : State) : List Nat :=
  let known := s.dict.map (·.1) ++ s.undo.map (fun u => u.2.1) ++ s.groups.flatMap fun g => g.writes.map (·.1)
  ((known.filter fun e => 0x200000 ≤ e && e < 0x240000).map fun e => e / 256 - 0x2000).eraseDups

/-- The times at which port p is enabled (on) or disabled. -/
def portTurns (s : State) (p : Nat) (on : Bool) : List KTime :=
  (s.writesOf (Key.portEnable p)).filter fun T => 0 < T && s.flagAt (Key.portEnable p) T == on && s.flagAt (Key.portEnable p) (T - 1) != on

/-- The T of the enable that a sample at time t belongs to. -/
def portEra (s : State) (p t : Nat) : KTime := ((s.portTurns p true).filter fun T => T ≤ t).foldl max 0

/-- Does a sample of link k at time t belong to port p? -/
def portHas (s : State) (p k t : Nat) : Bool := s.flagAt (Key.portEnable p) t && s.objAt (Key.portLink p) t == k

/-- The pieces (first index, count) of a run of n samples of link k from t0 on that belong to port p, cut wherever an object of the port that shapes
them changes. Samples before time zero are none. up: the samples of a bring-up at T belong to the ports enabled at T, also those timed before T
(03 R522). -/
def portPieces (s : State) (p k : Nat) (t0 : Exact) (step n : Nat) (up : Option KTime) : List (Nat × Nat) :=
  let keys := [Key.portEnable p, Key.portLink p, Key.portKind p, Key.portConvI p, Key.portConvQ p]
  let cuts := (0 :: keys.flatMap fun key => s.writesOf key).map fun T => t0.indexFrom step T
  (piecesOf n cuts).filter fun (a, _) =>
    let t := t0.plus (a * step : Nat)
    decide (0 ≤ t.n) && (match up with
      | none => s.portHas p k t.floor
      | some T => s.portHas p k T && s.portHas p k (max t.floor T) && s.portEra p (max t.floor T) == s.portEra p T)

/-! ### Promise bits and link errors -/

/-- A link error was reported (01 R17; 03 R87). -/
def linkError (s : State) : State :=
  (s.withCond { s.cond with linkErrorAt := s.wall }).setPromise 1 false

/-! ### Abutments (01 R18 to R27) -/

/-- Slack in fraction units: the time in which the pier's enabled lanes carry 2,560,000 bytes of payload (01 R18, R19). -/
def slack (s : State) (p : Nat) : Nat :=
  let lanes := (s.linksOfPier p).foldl (fun a k => a + ((s.link k).lanes.filter fun n => n / 8 == p).length) 0
  let n := if lanes = 0 then 8 else lanes
  20480000 * 66 * 400000 * 65536 / (n * s.obj (Key.pierRate p) * 64)

/-- The oldest sample time that the Deck has not taken from a pier. -/
def oldest (s : State) (p : Nat) : Option KTime :=
  s.ing.queues.foldl (fun best (_, items) =>
    match items.find? (fun it => it.pier == p && it.gap.isNone && !it.ended) with
    | none => best
    | some it => match best with
      | none => some it.t.floor
      | some b => some (min b it.t.floor)) none

/-- The sample time from a to b that an abutment holds: without the intervals that it dropped (01 R19, R27; notes/assumptions/167.md). -/
def heldTime (a : Abutment) (lo hi : KTime) : Nat :=
  a.dropped.foldl (fun x d => x - (min hi (d.2.getD hi) - max lo d.1)) (hi - lo)

/-- The occupancy of an abutment in fraction units of sample time (01 R19). -/
def occupancy (s : State) (p : Nat) : Nat :=
  match s.oldest p with
  | none => 0
  | some o => heldTime (s.abutment p) o (s.abutment p).newest

/-- The lag in ticks (01 R19). -/
def lag (s : State) (p : Nat) : Nat := (s.occupancy p - 1024 * tick) / tick

/-- Lag and boost requests at a lag (01 R22, R23). -/
def abutRequests (a : Abutment) (lg : Nat) : Abutment :=
  if lg = 0 then { a with lagRequest := false, boostRequest := false }
  else { a with lagRequest := a.lagRequest || decide (4096 < lg), boostRequest := a.boostRequest || decide (16384 < lg) }

/-- A dropping abutment stores again once its occupancy is at most 20,480 ticks (01 R27). -/
def abutRefill (a : Abutment) (occ : Nat) (now : KTime) : Abutment :=
  match a.dropped with
  | (d, none) :: r => if a.dropping && decide (occ ≤ 20480 * tick) then { a with dropped := (d, some (max d now)) :: r } else a
  | _ => a

/-- Brings an abutment's objects and requests, the last time a boost request was raised, and LAG and GAP_ACTIVE, up to date (01 R17, R22, R23, R27). -/
def refreshAbutment (s : State) (p : Nat) : State :=
  let a := abutRefill (abutRequests (s.abutment p) (s.lag p)) (s.occupancy p) s.time
  let s0 := if (s.abutment p).boostRequest || a.boostRequest then (s.withToll { s.toll with boostAt := s.wall }) else s
  let s1 := ((s0.putAbutment p a).setObj (Key.abutmentLag p) (s.lag p)).setObj (Key.abutmentPeak p) (max (s.lag p) (s.obj (Key.abutmentPeak p)))
  let anyLag := (List.range 16).any fun i => s1.obj (Key.abutmentLag i) != 0
  let anyDrop := (List.range 16).any fun i => (s1.abutment i).dropping
  (s1.setPromise 8 anyLag).setPromise 10 anyDrop

/-- Does l end where it comes, in the same enable and with the same cause of a gap? -/
def joins (l it : Item) : Bool :=
  l.gap.isSome && (l.gap.map (·.1)) == (it.gap.map (·.1)) && l.era == it.era && l.pier == it.pier && l.t.d == it.t.d && l.t.n + (l.count * l.step : Nat) == it.t.n

/-- Puts an item behind those of its enable and of earlier ones; gap positions join a gap of the same cause that ends there. -/
def pushItem (s : State) (port : Nat) (it : Item) : State :=
  let q := s.queue port
  let a := q.takeWhile fun x => x.era ≤ it.era
  let b := q.drop a.length
  match a.getLast? with
  | some l => if joins l it then s.putQueue port (a.dropLast ++ { l with count := l.count + it.count, gap := it.gap } :: b) else s.putQueue port (a ++ it :: b)
  | none => s.putQueue port (it :: b)

/-- Is time t in an interval of input that the abutment drops, the same for every port of the pier (01 R27)? -/
def drops (a : Abutment) (t : KTime) : Bool :=
  a.dropped.any fun d => decide (d.1 ≤ t) && (match d.2 with | some f => decide (t < f) | none => true)

/-- What a sample at time t does to its pier's abutment: one that is full starts to drop, one that has room stores again (01 R27). -/
def abutTake (s : State) (pier : Nat) (t : KTime) : Abutment :=
  let a := s.abutment pier
  if a.dropping then
    if drops a t then a else { a with dropping := match a.dropped with | (d, _) :: _ => decide (t < d) | [] => false }
  else match s.oldest pier with
    | some o => if s.slack pier ≤ heldTime a o t ∧ a.newest < t then { a with dropping := true, dropped := (t, none) :: a.dropped } else a
    | none => a

/-- Stores one sample in its pier's abutment, or drops it while the abutment is full (01 R27). -/
def storeSample (s : State) (port : Nat) (it : Item) : State :=
  let a := s.abutTake it.pier it.t.floor
  if drops a it.t.floor then (s.putAbutment it.pier a).pushItem port { it with gap := some (causeAbutmentFull, it.pier) }
  else (s.putAbutment it.pier { a with newest := max a.newest it.t.floor }).pushItem port it

/-! ### Runs of the raw streams (01 R28 to R31; 03 R88, R90, R91) -/

/-- The cause of degraded bit b. -/
def degCause (b : Nat) : Nat := 0x21 + b

/-- A run of a stream at one more sample: it grows while the cause and its pier last, and its marker is issued when it ends (01 R30). -/
def runStep (s : State) (get : State → Run) (put : State → Run → State) (on : Bool) (t : KTime) (pier cause port stream : Nat)
    (view : Nat := 0xFFFF) : State :=
  let r := get s
  let s1 := if r.count ≠ 0 ∧ (!on ∨ r.pier ≠ pier) then (put s {}).issueMarker cause port r.pier stream r.first view r.count else s
  if !on then s1
  else if (get s1).count = 0 then put s1 { first := t, count := 1, pier := pier } else put s1 { r with count := r.count + 1 }

/-- The raw stream's degraded runs at one more sample. -/
def rawRuns (s : State) (port : Nat) (deg calPier : Nat) (t : KTime) : State :=
  (List.range 3).foldl (fun x b =>
    x.runStep (fun y => tabGet {} y.ing.runs (4 * port + b)) (fun y r => (y.withIng { y.ing with runs := tabSet {} y.ing.runs (4 * port + b) r }))
      (bit deg b) t (if b = 0 then calPier else 0xFF) (degCause b) port 0) s

/-- Issues the gap marker of a port's raw stream for its run of lost samples. -/
def endLost (s : State) (port : Nat) : State :=
  let r := s.lostRun port
  if r.count = 0 then s else (s.putLostRun port {}).issueMarker r.cause port r.pier 0 r.first 0xFFFF r.count

/-- n more lost samples of a port from t on; the run of a FAILED pier gives a marker for each 400,000,000 ticks (03 R91). -/
def lose (s : State) (port : Nat) (g : LinkGap) (t : Exact) (step : Nat) : Nat → Nat → State
  | 0, _ => s
  | fuel + 1, n =>
    let r := s.lostRun port
    let first := if r.count = 0 then t.floor else r.first
    let m := if s.obj (Key.pierState g.pier) = 4 then min n (t.indexFrom step (first + 400000000 * tick)) else n
    let full := s.obj (Key.pierState g.pier) == 4 && decide (first + 400000000 * tick ≤ (t.plus (m * step : Nat)).floor)
    let s1 := s.putLostRun port { first := first, count := r.count + m, cause := g.cause, pier := g.pier }
    let s2 := if full then s1.endLost port else s1
    if m < n then lose s2 port g (t.plus (m * step : Nat)) step fuel (n - m) else s2

/-- Has the stream of a port begun and not come to its end? -/
def portLive (s : State) (port : Nat) : Bool :=
  match (s.queue port).getLast? with
  | some l => !l.ended
  | none => !(tabGet ({} : Fe) s.fes.ports port).grid.inputs.isEmpty

/-- Ends the stream of one enable of a port behind its last sample: its raw runs end here, and the front end ends it when the Deck comes to its end
(03 R80). -/
def endEra (s : State) (port : Nat) (era : KTime) : State :=
  let done := tabGet [] s.ing.overEras port
  if done.contains era then s else
  let s1 := s.withIng { s.ing with overEras := tabSet [] s.ing.overEras port (era :: done) }
  (((s1.rawRuns port 0 0xFF 0).endLost port).endStream port).pushItem port { ended := true, count := 0, era := era }

/-- Ends the streams of the ports of a link that are disabled at or before a time: what the link releases or loses next is later (03 R80). -/
def endPorts (s : State) (k : Nat) (upTo : KTime) : State :=
  s.knownPorts.foldl (fun x p =>
    ((x.portTurns p false).filter fun T => T ≤ upTo && x.objAt (Key.portLink p) (T - 1) == k).foldl (fun y T => y.endEra p (y.portEra p (T - 1))) x) s

/-! ### Release -/

/-- Loses the extended multiblocks of LEMC indexes from first to stop − 1: gap positions for every port of the link (03 R88, R90). raw: the raw stream
has no samples of them either. -/
def loseEdges (s : State) (k first stop : Nat) (raw : Bool) : State :=
  let c := s.link k
  let t0 := c.sampleTime first 0
  let s1 := match (s.linkSt k).gap with
    | none => s
    | some g => s.knownPorts.foldl (fun x p => (x.portPieces p k t0 c.step ((stop - first) * c.ns) g.upFrom).foldl (fun y (a, n) =>
        let t := t0.plus (a * c.step : Nat)
        let w := widthOf c.np
        let y1 := if raw then y.rawGap (y.pierOfLink k) p c.step (rawFormat (y.objAt (Key.portKind p) t.floor) w) t n g.cause else y
        (y1.lose p g t c.step (2 + n * c.step / (t.d * 400000000 * tick)) n).pushItem p
          { t := t, step := c.step, gap := some (g.cause, g.pier), count := n, w := w, era := y.portEra p (max t.floor (g.upFrom.getD 0)), pier := y.pierOfLink k }) x) s
  if stop ≤ first then s else s1.endPorts k (c.sampleTime stop 0).floor

/-- The samples of a port in an extended multiblock, piece by piece: the format, and each sample with its index (01 R9, R10; 03 R80, R83). -/
def portBlock (s : State) (k edge p : Nat) (c : LinkCfg) (octets : List Bytes) : List (Nat × List (Nat × Item)) :=
  let t0 := c.sampleTime edge 0
  (s.portPieces p k t0 c.step c.ns none).map fun (a, n) =>
    let t := (t0.plus (a * c.step : Nat)).floor
    let kind := s.objAt (Key.portKind p) t
    let v := portSamples c octets (List.range c.frames) kind (s.objAt (Key.portConvI p) t) (s.objAt (Key.portConvQ p) t)
    (rawFormat kind (widthOf c.np), ((v.drop a).take n).zipIdx.map fun (x, j) =>
      let ti := t0.plus ((a + j) * c.step : Nat)
      let d := (s.causesAt ti.floor).on c.lanes
      (a + j, { t := ti, step := c.step, i := x.1, q := x.2.1, overload := x.2.2, deg := d.1, calPier := d.2, w := widthOf c.np, era := s.portEra p t, pier := s.pierOfLink k }))

/-- The raw side of a port's samples: overloads counted, degraded runs, and the tap to the ring (01 R9; 03 R83, R88). -/
def rawBlock (s : State) (p : Nat) (c : LinkCfg) (bad : Bool) (b : Nat × List (Nat × Item)) : State :=
  let items := b.2.map (·.2)
  let s1 := s.rawTap ((items.head?.map (·.pier)).getD 0) p c.step b.1 (items.map fun it => (it.t, it.i, it.q, it.overload, it.deg)) bad
  items.foldl (fun x it => (if it.overload then x.bump (Key.portOverloadCount p) else x).rawRuns p it.deg it.calPier it.t.floor) s1

/-- The gap run of a link with one more extended multiblock in error, which lane n shows: the pier of the lowest-numbered such lane of the run, unless
a recovery is part of it (01 R31; 03 R88, R90). -/
def badRun (g : Option LinkGap) (n : Nat) : LinkGap :=
  match g with
  | some x => if x.mixed then x else { x with pier := min x.pier (n / 8) }
  | none => { cause := causeLinkError, pier := n / 8, mixed := false }

/-- A released extended multiblock whose multiblocks are all judged: its samples pass the raw tap, and those of a clean one go to the Deck, port by
port at each sample (03 R80, R88). lost: pier recovery loses it (R89). -/
def finishEdge (s : State) (k : Nat) (w : Released) (lost : Bool) : State :=
  let c := s.link k
  let bad := w.bad.isSome || lost
  let s1 := match w.bad with
    | some n => (s.bump (Key.linkErrors k)).putLink k { s.linkSt k with gap := some (badRun (s.linkSt k).gap n) }
    | none => s
  let s2 := if bad then s1.loseEdges k w.edge (w.edge + 1) false else s1.putLink k { s1.linkSt k with gap := none }
  let blocks := (s.knownPorts.map fun p => (p, s.portBlock k w.edge p c w.octets)).filter fun b => !b.2.isEmpty
  let s3 := blocks.foldl (fun x (p, b) => b.foldl (fun y z => y.rawBlock p c bad z) (if bad then x else x.endLost p)) s2
  let s4 := if bad then s3 else (List.range c.ns).foldl (fun x i => blocks.foldl (fun y (p, b) =>
    match (b.flatMap (·.2)).find? fun z => z.1 == i with
    | some z => y.storeSample p z.2
    | none => y) x) s3
  (s4.endPorts k (c.sampleTime (w.edge + 1) 0).floor).refreshAbutment (s4.pierOfLink k)

/-- Finishes the released extended multiblock of a link with what is known of it. -/
def finishWaiting (s : State) (k : Nat) (lost : Bool) : State :=
  match (s.linkSt k).waiting with
  | none => s
  | some w => (s.putLink k { s.linkSt k with waiting := none }).finishEdge k w lost

/-- A lane tells the CRC result of the last multiblock of the extended multiblock released last (03 R87, Table 3-4). -/
def crcOfReleased (s : State) (k n : Nat) (bad : Bool) : State :=
  match (s.linkSt k).waiting with
  | none => s
  | some w =>
    if !w.lanes.contains n then s else
    let w1 := { w with lanes := w.lanes.filter (· != n), bad := if bad then some (min n (w.bad.getD n)) else w.bad }
    let s1 := s.putLink k { s.linkSt k with waiting := some w1 }
    if w1.lanes.isEmpty then s1.finishWaiting k false else s1

/-- The lowest-numbered lane of the link with a multiblock in error. -/
def badLane (s : State) (c : LinkCfg) : Option Nat :=
  (c.lanes.filter fun n => ((s.laneSt n).buffer.head?.map (·.bad)).getD false).foldl
    (fun b n => match b with | none => some n | some m => some (min m n)) none

/-- Does every lane of the link hold exactly one complete extended multiblock (03 R77)? -/
def oneEach (s : State) (c : LinkCfg) : Bool := c.lanes.all fun n => (s.laneSt n).buffer.length == 1

/-- Is every lane of the link aligned? -/
def allAligned (s : State) (c : LinkCfg) : Bool := c.lanes.all fun n => s.obj (Key.laneState n) == 3

/-- One completion time of an extended multiblock of index k, measured from R_(k−1) (03 R78). -/
def measure (s : State) (k : Nat) (c : LinkCfg) (edge : Nat) (at' : KTime) : State :=
  let t : Int := (at' : Int) - c.releaseI ((edge : Int) - 1)
  if (s.linkSt k).measured then
    (s.setObjI (Key.linkArrivalMin k) (min t (s.objI (Key.linkArrivalMin k)))).setObjI (Key.linkArrivalMax k) (max t (s.objI (Key.linkArrivalMax k)))
  else ((s.setObjI (Key.linkArrivalMin k) t).setObjI (Key.linkArrivalMax k) t).putLink k { s.linkSt k with measured := true }

/-- Measures the extended multiblocks that the lanes hold: the first is due at R_k, the next at the edges after it (03 R78). -/
def measureArrival (s : State) (k edge : Nat) (c : LinkCfg) : State :=
  c.lanes.foldl (fun x n => (x.laneSt n).buffer.zipIdx.foldl (fun y (e, j) => y.measure k c (edge + j) e.at') x) s

/-- At a release error the extended multiblock that a lane lacks is still measured when it completes (03 R78). -/
def noteLate (s : State) (edge : Nat) (c : LinkCfg) : State :=
  c.lanes.foldl (fun x n =>
    let l := x.laneSt n
    if l.buffer.isEmpty ∧ x.obj (Key.laneState n) = 3 then x.putLane n { l with late := some (edge, c.e - l.partBlocks) } else x) s

/-- Discards what the lanes of a link have completed: data of a link that does not release (03 R89). -/
def discardLanes (s : State) (c : LinkCfg) : State :=
  c.lanes.foldl (fun x n => x.putLane n { x.laneSt n with buffer := [] }) s

/-- Start-up reaches IN_SERVICE once every enabled link has released (19 R501). -/
def enterService (s : State) : State :=
  if s.obj Key.suStage = 4 ∧ s.linksOn ≠ [] ∧ s.linksOn.all (fun k => (s.linkSt k).released) then
    ((s.setObj Key.suStage 5).setObj Key.suStageTime s.time).raiseEvent 15
  else s

/-- The piers of a link come into service with its first release. -/
def piersInService (s : State) (c : LinkCfg) : State :=
  (pierList c).foldl (fun x p => if x.obj (Key.pierState p) = 1 then (x.setObj (Key.pierState p) 2).lockPll p else x) s

/-- A pier whose links have all passed is in service again: its lane PLL is locked and its lanes are calibrated (03 R89; 17 R461). -/
def pierDone (s : State) (p : Nat) : State :=
  if s.obj (Key.pierState p) = 3 ∧ (s.linksOfPier p).all (fun k => (s.pierSt p).passed.contains k) then
    ((s.setObj (Key.pierState p) 2).lockPll p).calibratePier p
  else s

/-- A link has passed the running attempt of a pier. -/
def passPier (s : State) (k p : Nat) : State :=
  if s.obj (Key.pierState p) = 3 then (s.putPier p { s.pierSt p with passed := k :: (s.pierSt p).passed }).pierDone p else s

/-- Releases the extended multiblock of LEMC index edge on a link whose lanes each hold exactly one: it is finished when the CRC results of its last
multiblocks are known (03 R76, R79, R87, R88). draining: the link is to lose what follows. -/
def releaseEdge (s : State) (k edge : Nat) (draining : Bool) : State :=
  let c := s.link k
  let w : Released := { edge := edge, octets := c.lanes.map fun n => ((s.laneSt n).buffer.head?.map (·.octets)).getD [], bad := s.badLane c,
                        lanes := c.lanes.filter fun n => (s.laneSt n).partBlocks == 0 }
  let s1 := (s.measureArrival k edge c).finishWaiting k false
  let s2 := c.lanes.foldl (fun x n => x.putLane n { x.laneSt n with buffer := (x.laneSt n).buffer.drop 1 }) s1
  let l := s2.linkSt k
  let s3 := if draining then s2.putLink k { l with next := edge + 1, waiting := some w }
    else (s2.putLink k { l with next := edge + 1, waiting := some w, lostFrom := none, resumeAt := none, attempts := 0, released := true }).setObj (Key.linkState k) 2
  let s4 := (s3.piersInService c).applyLaneCodes c.lanes
  (if w.lanes.isEmpty then s4.finishWaiting k false else s4).enterService

/-! ### Pier recovery (03 R89 to R91) -/

/-- A lane begins again at CDR lock. -/
def restartLane (s : State) (n : Nat) : State :=
  (s.putLane n { history := (s.laneSt n).history, late := (s.laneSt n).late }).setObj (Key.laneState n) 1

/-- The lanes of a link in a pier. -/
def lanesIn (s : State) (p k : Nat) : List Nat := (s.link k).lanes.filter fun n => n / 8 == p

/-- Has the link come to the extended multiblocks that it loses? -/
def linkLost (s : State) (k : Nat) : Bool :=
  s.obj (Key.linkState k) == 3 && (match (s.linkSt k).lostFrom with | some f => decide (f ≤ (s.linkSt k).next) | none => true)

/-- Does the link still release what lies before e_f? -/
def linkDrains (s : State) (k : Nat) : Bool := s.obj (Key.linkState k) == 3 && !s.linkLost k

/-- Restarts the lanes of a link in its recovering piers; what the link has released is finished. -/
def restartLanes (s : State) (k : Nat) : State :=
  ((s.link k).lanes.filter fun n => s.obj (Key.pierState (n / 8)) == 3).foldl restartLane (s.finishWaiting k false)

/-- A link loses its extended multiblocks from LEMC index e on, or from the one released last that is not yet finished: it releases none of them, and
its lanes in recovering piers restart when it comes to them (03 R89). -/
def loseLink (s : State) (k p e : Nat) : State :=
  if s.obj (Key.linkState k) = 1 ∨ s.linkLost k then s else
  let l := s.linkSt k
  let held := (l.waiting.map fun w => decide (e ≤ w.edge)).getD false
  let s1 := if held then (s.putLink k { l with gap := some (match l.gap with | some g => { g with mixed := true } | none => { cause := causePierRecovery, pier := p, mixed := true }) }).finishWaiting k true else s
  let from' := max l.next e
  let nearer := match l.lostFrom with | some f => decide (from' < f) | none => true
  let s2 := if nearer then s1.putLink k { s1.linkSt k with lostFrom := some from', lostPier := p } else s1
  let s3 := s2.setObj (Key.linkState k) 3
  if s3.linkLost k then s3.restartLanes k else s3

/-- A pier begins an attempt at e_f: every link with a lane in it loses its extended multiblocks from the first edge at or after e_f, and every lane of
those links in the pier restarts (03 R89, R91). -/
def beginAttempt (s : State) (p : Nat) (ef : KTime) : State :=
  let ks := s.linksOfPier p
  let s1 := (s.putPier p { s.pierSt p with ef := ef, passed := ks.filter fun k => s.obj (Key.linkState k) == 1 }).bump (Key.pierRecoveries p)
  let s2 := if s1.obj (Key.lanepllState p) = 3 then s1.startPll p (s1.obj (Key.pierRate p)) else s1
  ks.foldl (fun x k =>
    if x.linkLost k ∨ x.obj (Key.linkState k) = 1 then (x.lanesIn p k).foldl restartLane x else x.loseLink k p ((x.link k).edgeFrom ef)) s2

/-- A pier in service begins recovering at e_f; a pier in start-up only relocks a lost lane PLL (03 R89). -/
def startRecovery (s : State) (p : Nat) (ef : KTime) : State :=
  let st := s.obj (Key.pierState p)
  if st = 2 then ((s.linkError.setObj (Key.pierState p) 3).putPier p { markedTo := ef }).beginAttempt p ef
  else if st = 1 ∧ s.obj (Key.lanepllState p) = 3 then s.linkError.startPll p (s.obj (Key.pierRate p))
  else s.linkError

/-- An event on lane n of link k that calls for recovery from LEMC index e on: the pier of the lane recovers, and the link loses what follows also where the pier
was recovering or FAILED already (03 R87, R89). -/
def laneFails (s : State) (n k e : Nat) : State :=
  let s1 := s.setObj (Key.laneState n) 4
  (s1.startRecovery (n / 8) ((s.link k).edge e)).loseLink k (n / 8) e

/-- A release error of a link at its next edge: what arrived is measured, and every pier that holds a lane of the link recovers (03 R77, R78;
notes/assumptions/168.md: which pier recovers where the link spans two). -/
def releaseFails (s : State) (k edge : Nat) : State :=
  let c := s.link k
  let s1 := ((s.measureArrival k edge c).noteLate edge c).bump (Key.linkReleaseErrors k)
  ((pierList c).foldl (fun x p => x.startRecovery p (c.edge edge)) s1).loseLink k (c.lanes.headD 0 / 8) edge

/-- A release edge of a link that passes without a release: what the lanes hold is discarded, and a link in recovery loses the extended multiblock (03 R89, R90). -/
def passEdge (s : State) (k edge : Nat) : State :=
  let l := s.linkSt k
  let s0 := if s.obj (Key.linkState k) ≠ 3 then s else
    s.putLink k { l with gap := some (match l.gap with | some g => { g with mixed := true } | none => { cause := causePierRecovery, pier := l.lostPier, mixed := true }) }
  let s1 := (s0.loseEdges k edge (edge + 1) true).discardLanes (s.link k)
  s1.putLink k { s1.linkSt k with next := edge + 1 }

/-- The next attempt of a link's own bring-up begins at the edge that failed; after 8 its piers are FAILED, and the other links of them go on (03 R91, R506, R522;
notes/assumptions/19.md). -/
def bringUpFails (s : State) (k edge : Nat) : State :=
  let c := s.link k
  let s1 := c.lanes.foldl (fun x n => x.restartLane n) (s.passEdge k edge)
  let l := s1.linkSt k
  if 8 ≤ l.attempts + 1 then
    ((pierList c).foldl (fun x p => (x.setObj (Key.pierState p) 4).putPier p { x.pierSt p with markedTo := ((l.gap.bind (·.upFrom)).getD (c.edge edge)) }) s1).putLink k { l with attempts := 8, resumeAt := none }
  else s1.putLink k { l with attempts := l.attempts + 1, resumeAt := some (c.edge edge + 720000 * tick) }

/-- The LEMC index at which a link may resume in a pier's running attempt (03 R89). -/
def resumeIndex (s : State) (p k : Nat) : Nat := (s.link k).edgeFrom ((s.pierSt p).ef + 720000 * tick)

/-- Does a recovering pier judge the link at LEMC index e? -/
def awaits (s : State) (p k e : Nat) : Bool :=
  s.obj (Key.pierState p) == 3 && !(s.pierSt p).passed.contains k && decide (s.resumeIndex p k ≤ e)

/-- The links of a pier whose resume edge has come (03 R89). -/
def resumeDue (s : State) (p : Nat) : List Nat :=
  (s.linksOfPier p).filter fun k => s.linkLost k && s.awaits p k (s.linkSt k).next && decide ((s.link k).release (s.linkSt k).next ≤ s.time)

/-- Does a link wait for another pier that recovers or has failed? -/
def otherRecovers (s : State) (p k : Nat) : Bool :=
  (pierList (s.link k)).any fun q => q != p && ((s.obj (Key.pierState q) == 3 && !(s.pierSt q).passed.contains k) || s.obj (Key.pierState q) == 4)

/-- Do the lanes of the pier's links, but for those in a bring-up of their own, and the link itself meet R89 at its resume edge? -/
def resumePasses (s : State) (p k : Nat) : Bool :=
  ((s.linksOfPier p).filter fun j => s.obj (Key.linkState j) != 1).all (fun j => (s.lanesIn p j).all fun n => s.obj (Key.laneState n) == 3) &&
    (s.otherRecovers p k || (s.allAligned (s.link k) && s.oneEach (s.link k)))

end State

/-! ### Commands -/

/-- After 400,000 ticks without a link error, and with no lane of an enabled link in pier recovery, LINKS_CLEAN returns to 1 (01 R17; 03 R87). A
FAILED pier counts as one in recovery (notes/assumptions/158.md). -/
def execLinksCleanRestore (s : State) : Out :=
  let recovering := s.linksOn.any fun k => (s.link k).lanes.any fun n => s.obj (Key.pierState (n / 8)) == 3 || s.obj (Key.pierState (n / 8)) == 4
  if s.cond.linkErrorAt + 400000 ≤ s.wall ∧ !recovering then .next (s.setPromise 1 true) else .next s

/-- abutment.clear: every abutment.peak becomes the current lag of its pier (01 R22). -/
def immAbutmentClear (s : State) : Code × State :=
  (Res.done, (List.range 16).foldl (fun x p => x.setObj (Key.abutmentPeak p) (x.obj (Key.abutmentLag p))) s)

/-- The command abutment.clear. -/
def execAbutmentClear (s : State) : Out := .next (s.act immAbutmentClear)

/-- The LEMC edge to which an extended multiblock now being received on a lane is, or would be, assigned: the complete ones that wait come before it (03 R89). -/
def State.rxEdge (s : State) (lane k : Nat) : Nat := (s.linkSt k).next + (s.laneSt lane).buffer.length

/-- An aligned lane is told whether the multiblock before the one now received was in error: part of the extended multiblock in reception, the last of one
that waits in the buffer, or the last of one released (03 R87, Table 3-4). -/
def State.crcResult (s : State) (n k : Nat) (bad : Bool) : State :=
  let l := s.laneSt n
  if l.partBlocks ≠ 0 then s.putLane n { l with partBad := l.partBad || bad }
  else match l.buffer.getLast? with
    | some e => s.putLane n { l with buffer := l.buffer.dropLast ++ [{ e with bad := e.bad || bad }] }
    | none => s.crcOfReleased k n bad

/-- A multiblock in reception on an aligned lane: the extended multiblock it completes goes to the lane buffer, which holds 4 (03 R76). -/
def State.receiveBlock (s : State) (n k : Nat) (bad : Bool) (markers : EndMarkers) (octets : Bytes) : State :=
  let c := s.link k
  let l := s.laneSt n
  let markerOk := markers.multiblock && (markers.extended == decide (l.partBlocks + 1 = c.e))
  let l1 := { l with part := l.part ++ octets, partBlocks := l.partBlocks + 1, partBad := l.partBad || bad, partMarker := l.partMarker || !markerOk }
  if l1.partBlocks < c.e then s.putLane n l1 else
  let emb : Emb := { octets := l1.part, bad := l1.partBad, at' := s.time }
  s.putLane n { l1 with buffer := (if l1.buffer.length < 4 then l1.buffer ++ [emb] else l1.buffer), part := [], partBlocks := 0, partBad := false, partMarker := false, markerRun := (if l1.partMarker then l1.markerRun + 1 else 0) }

/-- The octets of the extended multiblock of LEMC index e that a lane of the link has received. -/
def State.octetsOf (s : State) (k n e : Nat) : Bytes :=
  let l := s.laneSt n
  match l.buffer[e - (s.linkSt k).next]? with
  | some b => b.octets
  | none => if e = (s.linkSt k).next + l.buffer.length then l.part else []

/-- Ticks from the reception of a frame's last bit on a lane to the end of the multiblock that holds it; a block is 66 bits (03 R67; 04 R101). -/
def LinkCfg.since (c : LinkCfg) (f : Nat) : Nat := (31 - ((f + 1) * c.f - 1) % 256 / 8) * 26400000 / c.rate

/-- The pin route takes the frames that every lane of the link has now decoded, the newest by the multiblock now received (04 R100, R101; notes/assumptions/20.md). -/
def State.pinFrames (s : State) (k : Nat) : State :=
  let c := s.link k
  let l := s.linkSt k
  let e := max l.pinEdge l.next
  let from' := if e = l.pinEdge then l.pinFrame else 0
  let embs := c.lanes.map fun n => s.octetsOf k n e
  let done := (embs.map fun b => b.length / c.f).foldl min c.frames
  let s1 := s.putLink k (if done = c.frames then { l with pinEdge := e + 1, pinFrame := 0 } else { l with pinEdge := e, pinFrame := done })
  (List.range done).foldl (fun x f => if f < from' then x else
    s.knownPorts.foldl (fun y p =>
      (List.range c.s).foldl (fun z j =>
        let t := c.sampleTime e (f * c.s + j)
        if 0 ≤ t.n ∧ z.portHas p k t.floor then
          match (portSamples c embs [f] (z.objAt (Key.portKind p) t.floor) (z.objAt (Key.portConvI p) t.floor) (z.objAt (Key.portConvQ p) t.floor))[j]? with
          | some v => z.pinSample p t.floor (widthOf c.np) (z.portEra p t.floor) (z.wall - c.since f) v.1 v.2.1
          | none => z
        else z) y) x) s1

/-- The extended multiblock that a lane missed at a release error completes (03 R78). -/
def State.lateBlock (s : State) (n k : Nat) : State :=
  match (s.laneSt n).late with
  | none => s
  | some (e, m) => if 1 < m then s.putLane n { s.laneSt n with late := some (e, m - 1) }
    else (s.putLane n { s.laneSt n with late := none }).measure k (s.link k) e s.time

/-- A multiblock of an aligned lane: the events of Table 3-4, in the order in which they are seen, start pier recovery; a lane of a link in an attempt of its own
or of its pier stays in error until the attempt ends (03 R76, R87, R91). before: four multiblocks in error, the fourth the one before this. -/
def State.alignedBlock (s : State) (n k : Nat) (crcBad before cdr four nbad : Bool) (markers : EndMarkers) (octets : Bytes) : State :=
  let c := s.link k
  let last := (s.laneSt n).partBlocks == 0
  let prev := if last then s.rxEdge n k - 1 else s.rxEdge n k
  let s1 := s.crcResult n k crcBad
  let s2 := (if before then s1.laneFails n k prev else s1)
  if s2.obj (Key.laneState n) = 1 then s2 else
  let edge := s2.rxEdge n k
  let s3 := s2.receiveBlock n k nbad markers octets
  if (s3.obj (Key.laneState n)) = 4 then s3
  else if cdr || decide (2 ≤ (s3.laneSt n).markerRun) then s3.laneFails n k (s3.linkSt k).next
  else if four then s3.laneFails n k edge
  else if c.lanes.all (fun m => s3.obj (Key.laneState m) == 3) then s3.pinFrames k else s3

/-- A lane receives a multiblock: 32 sync headers, the CRC-12 result of the multiblock before it, the end markers it carries and its 256 octets as the lane carries
them (03 R68, R73, R74, R76, R87; notes/assumptions/166.md, 169.md). Whichever event of Table 3-4 is detected first starts pier recovery. -/
def execLaneMultiblockRx (lane : Fin 128) (badHeaders : BitVec 32) (crcBad : Bool) (markers : EndMarkers) (octets : Bytes) (s : State) : Out :=
  let n := lane.val
  match s.linkOfLane n with
  | none => .next s
  | some k =>
    let hs := (List.range 32).map fun i => bit badHeaders.toNat i
    let nbad := (hs.filter id).length
    let s1 := s.addObj (Key.laneShErrors n) nbad
    let s2 := if crcBad then s1.bump (Key.laneCrcErrors n) else s1
    let s3 := (if crcBad || nbad != 0 then s2.linkError else s2).lateBlock n k
    let l := s3.laneSt n
    let inverted := fieldAt (s.obj Key.laneEq) (4 * n + 3) 1 % 2 == 1
    let (data, history) := descramble l.history (octets.map fun b => if inverted then ~~~b else b)
    let runs := hs.scanl (fun r b => if b then 0 else r + 1) l.validRun
    let all := hs.reverse ++ l.headers
    let told := match l.errors with | [] => [] | b :: r => (b || crcBad) :: r
    let errs := ((nbad != 0) :: told).take 16
    let four (x : List Bool) := decide (4 ≤ (x.filter id).length)
    let before := crcBad && !(l.errors.headD true) && four told
    let cdr := (List.range 32).any fun i => 16 ≤ (((all.drop i).take 64).filter id).length
    let st := s3.obj (Key.laneState n)
    let l1 : Lane := { l with validRun := runs.getLastD 0, headers := all.take 64, errors := errs, history := history }
    let s4 := s3.putLane n l1
    if st = 1 then .next (if runs.any (1024 ≤ ·) then s4.setObj (Key.laneState n) 2 else s4)
    else if st = 2 then
      .next (if cdr then s4.setObj (Key.laneState n) 1
        else if markers.multiblock ∧ markers.extended ∧ nbad = 0 then (s4.setObj (Key.laneState n) 3).putLane n { validRun := l1.validRun, headers := l1.headers, errors := [false], history := history, late := l1.late } else s4)
    else if st = 3 ∨ (st = 4 ∧ s4.linkDrains k) then .next (s4.alignedBlock n k crcBad (before && st == 3) cdr (nbad != 0 && four errs) (nbad != 0) markers data)
    else .next s4

/-- A lane's CDR loses lock by its phase detector: a lane not yet aligned locks again; an aligned one is in error and its pier recovers (03 R73, R87, R89). -/
def execCdrLossOfLock (lane : Fin 128) (s : State) : Out :=
  match s.linkOfLane lane.val with
  | none => .next s
  | some k =>
    let st := s.obj (Key.laneState lane.val)
    if st = 1 ∨ st = 4 then .next s.linkError
    else if st = 2 then .next (s.linkError.restartLane lane.val)
    else .next (s.laneFails lane.val k (s.linkSt k).next)

/-- At a release edge (03 R76, R77): a releasing link releases, or reports a release error and its piers recover; a starting link releases
at the first edge its bring-up allows, when every lane is aligned; other edges pass, but for one at which a recovering pier judges the link. -/
def execLinkRelease (link : Fin 128) (s : State) : Out :=
  let k := link.val
  let c := s.link k
  let l := s.linkSt k
  let edge := l.next
  if !s.flag (Key.linkEnable k) ∨ s.time < c.release edge then .next s else
  let st := s.obj (Key.linkState k)
  if st = 2 ∨ s.linkDrains k then
    if s.oneEach c then
      let s1 := s.releaseEdge k edge (st == 3)
      .next (if st = 3 ∧ s1.linkLost k then s1.restartLanes k else s1)
    else .next (s.releaseFails k edge)
  else if st = 1 then
    match l.resumeAt with
    | none => .next (s.passEdge k edge)
    | some r =>
      if c.edge edge < r then .next (s.passEdge k edge)
      else if s.allAligned c ∧ s.oneEach c then .next ((State.pierList c).foldl (fun x p => x.passPier k p) (s.releaseEdge k edge false))
      else .next (s.bringUpFails k edge)
  else if (State.pierList c).any fun p => s.awaits p k edge then .next s
  else .next (s.passEdge k edge)

/-- At the resume edge of links of a recovering pier (03 R89, R91): release resumes on them when every lane of the pier's links is aligned and they
pass R77; otherwise the attempt fails, and the eighth failure leaves the pier FAILED. A link whose other pier still recovers waits for it. The pier is in service when its
links have all passed. -/
def execPierRecoveryResume (pier : Fin 16) (s : State) : Out :=
  let p := pier.val
  let due := s.resumeDue p
  if due.isEmpty then .next s else
  if due.all fun k => s.resumePasses p k then
    .next (due.foldl (fun x k => (if x.otherRecovers p k then x else x.releaseEdge k (x.linkSt k).next false).passPier k p) s.linkError)
  else
    let a := s.pierSt p
    let edge := due.foldl (fun m k => max m ((s.link k).edge (s.linkSt k).next)) 0
    let s1 := due.foldl (fun x k => x.passEdge k (x.linkSt k).next) s
    let s2 := (s1.putPier p { a with attempts := a.attempts + 1 }).beginAttempt p edge
    .next (if 8 ≤ a.attempts + 1 then (s2.setObj (Key.pierState p) 4).setObj (Key.pierRecoveries p) (s.obj (Key.pierRecoveries p)) else s2)

/-- A FAILED pier issues one PIER_RECOVERY marker per port and stream for each 400,000,000 ticks of lost input (03 R91): its links that do not release lose
what lies before, which gives the raw markers, and the gap positions that give the front-end stream its own. -/
def execPierFailedMarker (pier : Fin 16) (s : State) : Out :=
  let p := pier.val
  let a := s.pierSt p
  let stop := a.markedTo + 400000000 * tick
  if s.obj (Key.pierState p) ≠ 4 ∨ s.time < stop then .next s else
  let s1 := ((s.linksOfPier p).filter fun k => s.obj (Key.linkState k) != 2).foldl (fun x k =>
    let e := max (x.linkSt k).next ((x.link k).edgeFrom stop)
    let x1 := x.loseEdges k (x.linkSt k).next e true
    x1.putLink k { x1.linkSt k with next := e }) s
  .next (s1.putPier p { a with markedTo := stop })

/-- pier.restart: a FAILED pier returns to RECOVERING with no failed attempt; STATE in any other state (03 R91). Links of the pier that release go on, and a
bring-up that failed begins again. -/
def immPierRestart (p : Nat) (s : State) : Code × State :=
  if s.obj (Key.pierState p) ≠ 4 then (Res.state, s) else
  let ks := s.linksOfPier p
  let s := if s.obj (Key.lanepllState p) = 3 then s.startPll p (s.obj (Key.pierRate p)) else s
  let s1 := ((s.setObj (Key.pierState p) 3).putPier p { s.pierSt p with ef := s.time, attempts := 0, passed := ks.filter fun k => s.obj (Key.linkState k) == 2 }).bump (Key.pierRecoveries p)
  (Res.done, (ks.filter fun k => s.obj (Key.linkState k) != 2).foldl (fun x k =>
    let x1 := (x.lanesIn p k).foldl State.restartLane x
    if x1.obj (Key.linkState k) = 1 then x1.putLink k { x1.linkSt k with attempts := 0, resumeAt := some (s.time + 720000 * tick) } else x1) s1)

/-- The command pier.restart. -/
def execPierRestart (pier : Fin 16) (s : State) : Out := .next (s.act (immPierRestart pier.val))

/-- link.arrival.clear: both arrival measurements restart (03 R78). -/
def immLinkArrivalClear (k : Nat) (s : State) : Code × State :=
  (Res.done, (((s.setObj (Key.linkArrivalMin k) 0).setObj (Key.linkArrivalMax k) 0).putLink k { s.linkSt k with measured := false }))

/-- The command link.arrival.clear. -/
def execLinkArrivalClear (link : Fin 128) (s : State) : Out := .next (s.act (immLinkArrivalClear link.val))

/-! ### Commit effects of chapter 03 -/

/-- A link enabled at T (03 R522; 19 R506): its lanes begin at CDR lock; release may start at the first edge at or after T + 720,000 ticks,
and, where a pier of it is in service, the lost samples from the first edge at or after T are a PIER_RECOVERY gap. -/
def enableLink (s : State) (k : Nat) (T : KTime) : State :=
  let c := s.link k
  let busy := c.lanes.any fun n => s.obj (Key.pierState (n / 8)) == 2
  let s1 := c.lanes.foldl (fun x n => (x.putLane n {}).setObj (Key.laneState n) 1) s
  let s2 := (State.pierList c).foldl (fun x p =>
    if x.obj (Key.pierState p) = 0 then (x.setObj (Key.pierState p) 1).startPll p (x.obj (Key.pierRate p))
    else x.putPier p { x.pierSt p with passed := k :: (x.pierSt p).passed }) s1
  (s2.putLink k { next := c.edgeFrom T, resumeAt := some (T + 720000 * tick),
                  gap := if busy then some { cause := State.causePierRecovery, pier := c.lanes.headD 0 / 8, mixed := true, upFrom := some T } else none }).setObj (Key.linkState k) 1

/-- A link disabled: its ports' streams end with what it has released, its lanes are unused, and a pier without an enabled link is off. -/
def disableLink (s : State) (k : Nat) : State :=
  let c := s.link k
  let busy := c.lanes.any fun n => s.obj (Key.pierState (n / 8)) == 3 || s.obj (Key.pierState (n / 8)) == 4
  let s0 := (((if busy then s.linkError else s).finishWaiting k false).endPorts k s.time)
  let s1 := (c.lanes.foldl (fun x n => (x.putLane n {}).setObj (Key.laneState n) 0) s0).putLink k {}
  (State.pierList c).foldl (fun x p => if (x.linksOfPier p).isEmpty then ((x.setObj (Key.pierState p) 0).stopPll p).putPier p {} else x.pierDone p) (s1.setObj (Key.linkState k) 0)

/-- The reported rate, 400,000,000,000 × ns × rate / period in units of 0.001 S/s, rounded to nearest (03 Table 3-9). -/
def LinkCfg.rateMilli (c : LinkCfg) : Nat := (2 * 400000000000 * c.ns * c.rate + c.period) / (2 * c.period)

/-- The ports and links that a group enables or disables at T. -/
def commitIngest (s : State) (g : Group) (old : Nat → Nat) : State :=
  let s1 := (g.units 0x1580 128).foldl (fun x k =>
    let now := x.flag (Key.linkEnable k)
    let was := old (Key.linkEnable k) != 0
    if now && !was then enableLink x k g.t else if !now && was then disableLink x k else x) s
  (g.units 0x2000 1024).foldl (fun x p =>
    let now := x.flag (Key.portEnable p)
    let was := old (Key.portEnable p) != 0
    if now && !was then
      let c := x.link (x.obj (Key.portLink p))
      (x.setObj (Key.portRate p) c.rateMilli).setObj (Key.portWidth p) (widthOf c.np)
    else if !now && was then x.setObj (Key.portWidth p) 0
    else x) s1

/-- After a Keystone step, the release edges in the skipped interval do not occur (02 R53). -/
def State.skipEdges (s : State) : State :=
  s.linksOn.foldl (fun x k =>
    let c := x.link k
    let e := max (c.edgeFrom (x.time - c.rbd * tick)) (c.edgeFrom ((x.time : Int) + c.latency).toNat)
    x.putLink k { x.linkSt k with next := max e (x.linkSt k).next }) s

/-! ### Group rules of chapter 03 (R74, Table 3-6) -/

/-- Link parameters within Table 3-1 and R69. -/
def linkParamsOk (v : Nat → Nat) (k : Nat) : Bool :=
  let l := v (Key.linkL k); let m := v (Key.linkM k); let f := v (Key.linkF k); let s := v (Key.linkS k)
  let n := v (Key.linkN k); let np := v (Key.linkNp k); let cs := v (Key.linkCs k); let e := v (Key.linkE k)
  1 ≤ l && l ≤ 16 && 1 ≤ m && m ≤ 64 && 1 ≤ f && f ≤ 256 && 1 ≤ s && s ≤ 32 && 7 ≤ n && n ≤ 16 &&
  (np == 8 || np == 12 || np == 16) && cs ≤ 3 && 1 ≤ e && e ≤ 256 && m * s * np == 8 * f * l && e * 256 % f == 0 && n + cs ≤ np

/-- link.rbd at most 4 × Pe (03 R76). -/
def linkRbdOk (v : Nat → Nat) (k : Nat) : Bool :=
  v (Key.linkRbd k) * v (Key.pierRate (lanesOf (v (Key.linkLanes k)) 1 |>.headD 0 |> (· / 8))) ≤ 4 * v (Key.linkE k) * 844800000

/-- Lanes distinct, below 128, in one pier or two adjacent piers of one rate (03 R71). -/
def linkLanesOk (v : Nat → Nat) (k : Nat) : Bool :=
  let ls := lanesOf (v (Key.linkLanes k)) (v (Key.linkL k))
  let ps := ls.map (· / 8)
  let lo := ps.foldl min 16
  let hi := ps.foldl max 0
  ls.all (· < 128) && ls.Nodup && hi ≤ lo + 1 && v (Key.pierRate lo) == v (Key.pierRate hi)

/-- An equalisation entry within its fields (03 Table 3-2). -/
def eqEntryOk (img n : Nat) : Bool :=
  let t := toSigned 8 (fieldAt img (4 * n + 2) 1)
  fieldAt img (4 * n) 1 ≤ 31 && fieldAt img (4 * n + 1) 1 ≤ 15 && decide (-32 ≤ t ∧ t ≤ 31) && fieldAt img (4 * n + 3) 1 ≤ 1

/-- Rate of a port in samples per second against R81: ns × 400,000,000 × rate / period at most the limit. -/
def portRateOk (v : Nat → Nat) (k kind : Nat) : Bool :=
  let c := v (Key.linkE k) * 844800000
  let ns := v (Key.linkS k) * v (Key.linkE k) * 256 / v (Key.linkF k)
  let rate := v (Key.pierRate (fieldAt (v (Key.linkLanes k)) 0 1 / 8))
  400000000 * ns * rate ≤ (if kind = 1 then 12500000000 else 25000000000) * c

/-- The refusals of R74 and Table 3-6, row by row. The rows on lanes, converter numbers and port rates, which Table 3-6 states without a condition, are judged for the links
and ports enabled at T (notes/assumptions/175.md). -/
def rulesIngest (s : State) (g : Group) : Option Code :=
  if !(g.hasRange 0x1500 0x15FF || g.hasRange 0x2000 0x23FF || g.hasIndex 0x1401) then none else
  let v := s.staged g
  let old := s.before g
  let linksW := g.units 0x1580 128
  let portsW := g.units 0x2000 1024
  let on (k : Nat) := old (Key.linkEnable k) != 0
  let allLinks := (List.range 128).filter fun k => s.stagedFlag g (Key.linkEnable k)
  let allPorts := ((s.knownPorts ++ portsW).eraseDups).filter fun p => s.stagedFlag g (Key.portEnable p)
  let linkWas := (List.range 128).filter on
  let eqNew := v Key.laneEq
  let eqOld := old Key.laneEq
  let changed := (List.range 128).filter fun n => fieldAt eqNew (4 * n) 4 != fieldAt eqOld (4 * n) 4
  let busyPier (p : Nat) := linkWas.any fun k => (lanesOf (old (Key.linkLanes k)) (old (Key.linkL k))).any fun n => n / 8 == p
  let lanesIn (k : Nat) := lanesOf (v (Key.linkLanes k)) (v (Key.linkL k))
  let conv (p : Nat) := if v (Key.portKind p) = 1 then [v (Key.portConvI p), v (Key.portConvQ p)] else [v (Key.portConvI p)]
  firstOf [
    refuse (g.has Key.laneEq && changed.any (fun n => busyPier (n / 8))) Res.state,
    refuse (g.has Key.laneEq && changed.any (fun n => !eqEntryOk eqNew n)) Res.range,
    eachOf linksW (fun k => refuse (g.hasSubs (0x1580 + k) 2 13 && on k) Res.state),
    eachOf (List.range 16) (fun p => refuse (g.has (Key.pierRate p) && busyPier p) Res.state),
    eachOf allLinks (fun k => refuse ((g.has (Key.linkEnable k) || g.has Key.sysrefMode) && v Key.sysrefMode == 0) Res.state),
    eachOf allPorts (fun p => refuse (!s.stagedFlag g (Key.linkEnable (v (Key.portLink p)))) Res.state),
    eachOf portsW (fun p => refuse (g.hasSubs (0x2000 + p) 2 5 && old (Key.portEnable p) != 0) Res.state),
    eachOf linksW (fun k => refuse (!linkParamsOk v k && (g.hasSubs (0x1580 + k) 2 10 || s.stagedFlag g (Key.linkEnable k))) Res.range),
    eachOf ((List.range 128).filter fun k => allLinks.contains k || g.hasSubs (0x1580 + k) 2 12) (fun k => refuse (!linkRbdOk v k) Res.range),
    eachOf allLinks (fun k => refuse (!linkLanesOk v k) Res.range),
    eachOf allLinks (fun k => refuse (v Key.sysrefPeriod * v (Key.pierRate (fieldAt (v (Key.linkLanes k)) 0 1 / 8)) % (v (Key.linkE k) * 844800000) != 0) Res.range),
    eachOf allPorts (fun p => refuse ((conv p).any (fun c => v (Key.linkM (v (Key.portLink p))) ≤ c) || !(conv p).Nodup) Res.range),
    eachOf allPorts (fun p => refuse (!portRateOk v (v (Key.portLink p)) (v (Key.portKind p))) Res.range),
    eachOf allLinks (fun k => refuse (allLinks.any (fun j => j != k && (lanesIn j).any (fun n => (lanesIn k).contains n))) Res.overlap),
    eachOf allPorts (fun p => refuse (allPorts.any (fun r => r != p && v (Key.portLink r) == v (Key.portLink p) && (conv r).any (fun c => (conv p).contains c))) Res.overlap)]

end Sys2Proof.Machine
end

