-- ==== Sys2Proof/Machine/Switching.lean ====
section
/-! DEFINITION. The committed schedules of the switching outputs (06 R175, R176, R178), and the changes of bound outputs (04 R114). -/

namespace Sys2Proof.Machine

/-- The least multiple of 4 not below a tick count: a conversion edge (17 R465). -/
def monEdge (t : Nat) : Nat := (t + 3) / 4 * 4

namespace State

/-- Every write of an accepted group: its T and object. -/
def allWrites (s : State) : List (KTime × Nat) := s.undo.map (fun e => (e.1, e.2.1)) ++ s.groups.flatMap fun g => g.writes.map fun w => (g.t, w.1)

/-- The first T after t of a group that writes an object of switching output n. -/
def swNextWrite (s : State) (n t : Nat) : Option KTime :=
  (s.allWrites.filter fun w => w.2 / 256 == 0x3610 + n && t < w.1).foldl (fun a w => match a with | none => some w.1 | some b => some (min b w.1)) none

/-- The phase of switching output n at time t by its committed schedule, with the start and the end of the occurrence; none before S_w and
while it is off (06 R175, R176). The end is none when nothing ends the occurrence. -/
def swPhaseAt (s : State) (n t : Nat) : Option (Nat × KTime × Option KTime) :=
  let st := s.objAt (Key.swStart n) t * tick
  if !s.flagAt (Key.swEnable n) t || decide (t < st) then none else
  let cut := s.swNextWrite n t
  let p := s.objAt (Key.swPhases n) t
  let pw := max 1 (s.objAt (Key.swPeriod n) t) * tick
  let bounds := (0 :: [s.objAt (Key.swBound1 n) t, s.objAt (Key.swBound2 n) t, s.objAt (Key.swBound3 n) t].take (p - 1)).map (· * tick)
  if p ≤ 1 then some (0, st, cut) else
  let r := (t - st) % pw
  let base := t - r
  let phi := (bounds.filter fun b => b ≤ r).length - 1
  let stop := base + (bounds.getD (phi + 1) pw)
  some (phi, base + bounds.getD phi 0, some (match cut with | some c => min c stop | none => stop))

/-- The next time after t at which the schedule of an output may change its phase. -/
def swNextTime (s : State) (n t : Nat) : Option KTime :=
  match s.swPhaseAt n t with
  | some (_, _, e) => e
  | none =>
    let st := s.objAt (Key.swStart n) t * tick
    if s.flagAt (Key.swEnable n) t ∧ t < st then some (match s.swNextWrite n t with | some w => min w st | none => st) else s.swNextWrite n t

/-- Does the phase of switching output n, by its committed schedule, change after t and up to stop (04 R114; 06 R176)? -/
def swChanged (s : State) (n stop : Nat) : Nat → Nat → Bool
  | 0, _ => false
  | fuel + 1, t => match s.swNextTime n t with
    | none => false
    | some x => if stop < x ∨ x ≤ t then false
      else if (s.swPhaseAt n x).map (·.1) ≠ (s.swPhaseAt n t).map (·.1) then true
      else swChanged s n stop fuel x

/-- The pins FECTL[31:0] take new levels at a time: each change counts for the settling rule (04 R114; 06 R180). -/
def setFectl (s : State) (old v T : Nat) : State :=
  let bits := (List.range 32).filter fun b => bit old b != bit v b
  (s.withFes { s.fes with changes := s.fes.changes ++ bits.map fun b => (b, T) }).setObj Key.fectlLevel v

/-! ### Start events (17 R467) -/

/-- The first entry of the selected phase at or after a tick, over at most n occurrences of the schedule. -/
def swEvent (s : State) (sw phase : Nat) : Nat → Nat → Option Nat
  | 0, _ => none
  | n + 1, f =>
    match s.swPhaseAt sw (f * tick) with
    | none =>
      let st := s.objAt (Key.swStart sw) (f * tick)
      if s.flagAt (Key.swEnable sw) (f * tick) ∧ f < st then swEvent s sw phase n st else none
    | some (phi, st, stop) =>
      if st = f * tick ∧ (phase = 0xFF ∨ phase = phi) then some f
      else match stop with
        | some e => if f < e / tick then swEvent s sw phase n (e / tick) else none
        | none => none

/-- The next start event at or after a tick. -/
def nextStart (s : State) (f : Nat) : Option Nat :=
  let t := f * tick
  match s.objAt Key.monSource t with
  | 1 =>
    let st := s.objAt Key.monTimerStart t
    let p := max 1 (s.objAt Key.monTimerPeriod t)
    some (if f ≤ st then st else st + (f - st + p - 1) / p * p)
  | 2 => s.swEvent (s.objAt Key.monSw t) (s.objAt Key.monSwPhase t) 8 f
  | _ => none

end State

end Sys2Proof.Machine
end

