-- ==== Sys2Proof/Machine/FrontEnd.lean ====
section
/-! DEFINITION. The port front end: aligner, edge trigger, down-conversion, flags, resets, cross-fades, and its group rules (04; 03 R84,
R86). -/

namespace Sys2Proof.Machine

namespace State

def fe (s : State) (p : Nat) : Fe := tabGet {} s.fes.ports p
def putFe (s : State) (p : Nat) (x : Fe) : State := s.withFes { s.fes with ports := tabSet {} s.fes.ports p x }
def feOuts (s : State) (p : Nat) : List FeOut := tabGet [] s.fes.outs p
def pushFeOut (s : State) (p : Nat) (x : FeOut) : State := s.withFes { s.fes with outs := tabSet [] s.fes.outs p (s.feOuts p ++ [x]) }

/-- The settings of a front end in force at time t. -/
def feCfg (s : State) (p t : Nat) : FeCfg :=
  { mode := s.objAt (Key.feMode p) t, preset := s.objAt (Key.fePreset p) t, k := s.objAt (Key.feDecim p) t, taps := s.objAt (Key.feFirTaps p) t,
    bank := s.objAt (Key.feFirSource p) t != 0, real := s.objAt (Key.portKind p) t == 0 }

/-- One mixer-input sample period in units of 1 / d. -/
def mixerStep (c : FeCfg) (step : Nat) : Nat := if c.real then 2 * step else step

/-- The corrected time of an output whose newest mixer-input sample is at t: t minus G mixer-input periods, truncated once (04 R111). -/
def corrected (c : FeCfg) (step : Nat) (t : Exact) : KTime :=
  ((2 * t.n - (c.delay2 * mixerStep c step : Nat)) / (2 * t.d : Nat)).toNat

/-- fe.fade.end of a fade at T: the time of the newest mixer-input sample of output n0 + L − 1 (04 R121); all ones while the port has
not started. -/
def fadeEnd (s : State) (p : Nat) (T : KTime) : KTime :=
  let f := s.fe p
  if !f.grid.started then 2 ^ 80 - 1 else
  let c := s.feCfg p T
  let st := c.k * mixerStep c f.grid.step
  let need : Int := (T : Int) * f.grid.anchor.d - f.grid.anchor.n
  let n0 := cdiv need.toNat st
  let len := s.objAt (Key.feFadeLen p) T
  ((f.grid.anchor.n + ((n0 + len - 1) * st : Nat)) / f.grid.anchor.d).toNat

/-- The pending fades of a port. -/
def fadesOf (s : State) (p : Nat) : List FadePlan := s.fes.fades.filter fun z => z.port == p

/-- fe.fade.state and fe.fade.end: of the running fade, else of the first pending one (04 R121). -/
def showFade (s : State) (p : Nat) : State :=
  match (s.fe p).fade, (s.fadesOf p).foldl (fun (b : Option FadePlan) z => match b with | some y => if y.t ≤ z.t then b else some z | none => some z) none with
  | some d, _ => (s.setObj (Key.feFadeState p) 2).setObj (Key.feFadeEnd p) d.stop
  | none, some z => (s.setObj (Key.feFadeState p) 1).setObj (Key.feFadeEnd p) z.stop
  | none, none => s.setObj (Key.feFadeState p) 0

/-- Pending fades of a port with T at or before a time run no more; the others end as the port's grid now says (04 R121, R122). -/
def replanFades (s : State) (p : Nat) (t : KTime) : State :=
  let keep := s.fes.fades.filter fun z => z.port != p || decide (t < z.t)
  (s.withFes { s.fes with fades := keep.map fun z => if z.port = p then { z with stop := s.fadeEnd p z.t } else z }).showFade p

/-! ### Anchor events of the views (05 R133) -/

/-- Is port p in the block of view v at time t (05 R130)? -/
def viewHas (s : State) (v p t : Nat) : Bool :=
  s.objAt (Key.viewPortFirst v) t ≤ p && p < s.objAt (Key.viewPortFirst v) t + s.objAt (Key.viewPortCount v) t

/-- The times of the commits that change N, H or o of a view (05 R131), those of pending groups among them. -/
def viewCommits (s : State) (v : Nat) : List KTime :=
  let ks := [Key.viewSize v, Key.viewHop v, Key.viewOffset v]
  (ks.flatMap fun k => s.writesOf k).filter fun T => ks.any fun k => s.objAt k T != s.objAt k (T - 1)

/-- The epoch of a view at a time: its anchor events up to then, each Keystone time once (05 R133; notes/assumptions/85.md). -/
def viewEpochAt (s : State) (v t : Nat) : Nat :=
  (tabGet 0 s.views.passed v + (((tabGet [] s.views.events v ++ s.viewCommits v).filter fun T => T ≤ t).eraseDups).length) % 256

/-- A reset or a start of a port, whose event time is te, is an anchor event of every view whose block holds the port at te. -/
def noteAnchor (s : State) (p te : Nat) : State :=
  ((List.range 512).filter fun v => s.viewHas v p te && !(tabGet [] s.views.events v).contains te).foldl (fun x v =>
    let y := x.withViews { x.views with events := tabSet [] x.views.events v (tabGet [] x.views.events v ++ [te]) }
    y.setObj (Key.viewEpoch v) (y.viewEpochAt v (max te y.time))) s

/-! ### Aligner -/

/-- The aligned sample at grid position j, the input 16 positions before the newest (03 R84, R86; notes/assumptions/21.md): its value, and
whether the position is a gap. Inputs before the first of the port's stream count as 0 and set no flag (notes/assumptions/172.md). -/
def alignedSample (inputs : List Item) (d phi : Nat) : Option (Item × Bool) :=
  match inputs[16]? with
  | none => none
  | some base =>
    let w := base.w
    let pairs := ((alignerCoeffs phi).zipIdx.filterMap fun (c, i) => if c = 0 then none else (inputs[d + 1 + i]?).map fun x => (c, x))
    let gap := (pairs.reverse.findSome? fun x => x.2.gap)
    let (yi, si) := clampBits w (roundHalfEven (pairs.foldl (fun a x => a + x.1 * x.2.i) 0) (2 ^ 17))
    let (yq, sq) := clampBits w (roundHalfEven (pairs.foldl (fun a x => a + x.1 * x.2.q) 0) (2 ^ 17))
    let deg := pairs.foldl (fun a x => a ||| x.2.deg) 0
    let cp := pairs.foldl (fun a x => if a = 0xFF then x.2.calPier else a) 0xFF
    some ({ base with i := yi, q := yq, overload := si || sq || pairs.any (fun x => x.2.overload), deg := deg, calPier := cp, gap := gap, count := 1 }, gap.isSome)

/-- Have the streams of the enables before an item's come to their end (03 R80)? -/
def eraClear (s : State) (p : Nat) (era : KTime) : Bool :=
  (s.portTurns p true).all fun T => decide (era ≤ T) || (tabGet [] s.ing.overEras p).contains T

/-- The first input of a port's stream, with a gap shortened by one position; none while the stream of an earlier enable has not ended. -/
def takeItem (s : State) (p : Nat) : Option Item × State :=
  match s.queue p with
  | [] => (none, s)
  | it :: r =>
    if !s.eraClear p it.era then (none, s)
    else if it.gap.isSome ∧ 1 < it.count then
      (some { it with count := 1 }, s.putQueue p ({ it with count := it.count - 1, t := it.t.plus it.step } :: r))
    else (some { it with count := 1 }, s.putQueue p r)

/-! ### Reset (04 R117, R523) -/

/-- The front end's reset at the aligned sample at t: state discarded, grid and NCO anchored, detectors unarmed, fade ended, fe.fill.end
recorded; the ring's front-end stream starts a new block (11 R297). -/
def resetFe (s : State) (p : Nat) (t : Exact) (step : Nat) (te : KTime) : State :=
  let f := s.fe p
  let c := s.feCfg p t.floor
  let e := s.edgeCfg p t.floor
  let newest := t.plus (c.fill * c.k * mixerStep c step : Nat)
  let f1 : Fe := { f with
    grid := { f.grid with started := true, n := 0, anchor := t, step := step, epoch := f.grid.epoch + 1, te := te }
    p := 0, mixedAt := t.floor, conv := {}, cascade := List.replicate c.b {}, fir := {}, boxSum := (0, 0), boxAcc := {}, mixed := 0, out := 0,
    source := s.objAt (Key.feFirSource p) t.floor, fade := none, rawRise := e.fresh, rawFall := e.fresh, outRise := e.fresh, outFall := e.fresh }
  let s1 := (s.closeBlock (1024 + p)).putFe p f1
  let s2 := s1.setObj (Key.feFillEnd p) (corrected c step newest)
  let unstarted := !f.grid.started && (s.fadesOf p).any fun z => decide (z.t ≤ t.floor)
  let s3 := s2.replanFades p t.floor
  if unstarted ∧ (s3.fadesOf p).isEmpty then s3.setObj (Key.feFadeEnd p) ((s.fadesOf p).foldl (fun m z => max m z.t) 0) else s3

/-! ### Edge test, decision route (04 R98, R99, R103) -/

/-- Delivers a firing: the event, its count and time; at the filtered stage the selected pins pulse (04 R99, R103). -/
def edgeFire (s : State) (p t flags qual : Nat) (v : Int) (c : EdgeCfg) : State :=
  let s1 := ((s.raiseTrigger (0x1000 + p) t flags qual (ofSigned 32 v) c.stage).bump (Key.feEdgeCount p)).setObj (Key.feEdgeLast p) t
  if c.stage = 2 then s1.pulse (pinDriver p) c.pins fun _ => c.width else s1

/-- One tested sample of a stage: both detectors, then the watermark (04 R98; 07 Table 7-3). -/
def edgeSample (s : State) (p t flags : Nat) (i q : Int) (c : EdgeCfg) (rise fall : Detector) : (Detector × Detector) × State :=
  let v := c.value i q
  let (fr, r1) := if c.slope = 1 then (false, rise) else riseStep c v rise
  let (ff, f1) := if c.slope = 0 then (false, fall) else fallStep c v fall
  let s1 := if fr then s.edgeFire p t flags 0 v c else s
  let s2 := if ff then s1.edgeFire p t flags 1 v c else s1
  ((r1, f1), s2.setWatermark (0x1000 + p) t)

/-- The raw stage of the edge test at an aligned sample (04 R98). -/
def rawEdge (s : State) (p : Nat) (it : Item) (settling : Bool) : State :=
  let t := it.t.floor
  let c := s.edgeCfg p t
  let f := s.fe p
  let f0 := if f.grid.edgeCfg = c.key then f else { f with grid := { f.grid with edgeCfg := c.key }, rawRise := c.fresh, rawFall := c.fresh, outRise := c.fresh, outFall := c.fresh }
  if c.stage ≠ 1 then s.putFe p f0 else
  if it.gap.isSome then (s.putFe p { f0 with rawRise := c.fresh, rawFall := c.fresh }).setWatermark (0x1000 + p) t else
  let sh : Int := if it.w = 8 then 256 else 1
  let flags := 2 * b2n (it.deg != 0 || s.degradedNow != 0) + 4 * b2n settling + 8 * b2n it.overload
  let ((r, l), s1) := s.edgeSample p t flags (it.i * sh) (it.q * sh) c f0.rawRise f0.rawFall
  s1.putFe p { f0 with rawRise := r, rawFall := l }

/-- A 24-bit value as the filtered-stage test takes it (04 R98). -/
def edgeScale (y : Int) : Int := (clampBits 16 (y / 128)).1

/-! ### Outputs -/

/-- The degraded runs of the front-end stream at one more position. -/
def feRuns (s : State) (port deg calPier t : Nat) : State :=
  (List.range 3).foldl (fun x b =>
    x.runStep (fun y => tabGet {} y.fes.runs (4 * port + b)) (fun y r => (y.withFes { y.fes with runs := tabSet {} y.fes.runs (4 * port + b) r }))
      (bit deg b) t (if b = 0 then calPier else 0xFF) (degCause b) port 1) s

/-- Ends the run of outputs not produced: one gap marker of stream 1 (04 R119). -/
def endGapRun (s : State) (p : Nat) : State :=
  match (s.fe p).gapRun with
  | none => s
  | some (first, n, cause, pier) => (s.issueMarker cause p pier 1 first 0xFFFF n).putFe p { s.fe p with gapRun := none }

/-- The front end comes to the end of a port's stream: its runs and any fade end, and the next sample is a port start (03 R80; 04 R523). The 16 last grid
positions, which the aligner still holds, are not output (notes/assumptions/173.md). -/
def endFe (s : State) (p : Nat) : State :=
  let s1 := ((s.endGapRun p).feRuns p 0 0xFF 0).endStream (1024 + p)
  (s1.putFe p { grid := { epoch := (s1.fe p).grid.epoch } }).replanFades p s.time

/-- One more output not produced. The run of a FAILED pier is split at each 400,000,000 ticks (03 R91). -/
def gapOutput (s : State) (p t cause pier : Nat) : State :=
  let s0 := match (s.fe p).gapRun with
    | some (first, _, 3, pr) => if s.obj (Key.pierState pr) = 4 ∧ first + 400000000 * tick ≤ t then s.endGapRun p else s
    | _ => s
  let f := s0.fe p
  s0.putFe p { f with gapRun := some (match f.gapRun with | some (a, n, c, q) => (a, n + 1, c, if c = cause then pier else q) | none => (t, 1, cause, pier)) }

/-- The front-end stream's position for the ring (11 R294, R298; 08 R238). -/
def feTap (s : State) (p step : Nat) (t : Exact) (o : Option (Int × Int)) (flags deg cause : Nat) : State :=
  let id := 1024 + p
  if !s.selectedAt id t.floor then s.passUnselected id t.floor else
  let s1 := s.putRingStream id { s.ringStream id with format := 4, pier := ((s.fe p).grid.inputs.head?.map (·.pier)).getD (s.pierOfPort p) }
  match o with
  | some (i, q) =>
    let c := if bit deg 0 then causeCalStale else if bit deg 1 then causeHoldover else if bit deg 2 then causeConditions else 0
    let img := natLE 3 (ofSigned 24 i) ++ natLE 3 (ofSigned 24 q) ++ natLE 1 flags ++ [0]
    let fl := 2 * b2n (deg != 0) + 4 * b2n (bit flags 1) + 8 * b2n (bit flags 0) + 16 * b2n (bit flags 2)
    s1.ringAppend id { t := t, step := step, value := img, flags := fl, cause := c } 1
  | none => s1.ringAppend id { t := t, step := step, value := [], flags := 1, cause := cause } 1

/-- Delivers output n of the port, computed with the newest mixer-input sample at t: its time, flags, edge test, ring and view streams
(04 R96 to R99, R111, R112, R119). The settings are those in force at t, the newest input sample (01 Table 1-9). -/
def deliver (s : State) (p : Nat) (t : Exact) (o : Smp) : State :=
  let f := s.fe p
  let c := s.feCfg p t.floor
  let st := f.grid.step
  let n := f.out
  let ct := corrected c st t
  let ext : Exact := { n := 2 * t.n - (c.delay2 * mixerStep c st : Nat), d := 2 * t.d }
  let ostep := 2 * c.k * mixerStep c st
  let s0 := s.putFe p { f with out := n + 1 }
  let e := s0.edgeCfg p t.floor
  match o.gap with
  | some (cause, pier) =>
    let s1 := (s0.gapOutput p ct cause pier).feRuns p 0 0xFF ct
    let s2 := s1.feTap p ostep ext none 0 0 cause
    let s3 := s2.pushFeOut p { epoch := f.grid.epoch, te := f.grid.te, n := n, t := ct, gap := some (cause, pier), first := f.grid.first }
    if e.stage = 2 then (s3.putFe p { s3.fe p with outRise := e.fresh, outFall := e.fresh }).setWatermark (0x1000 + p) ct else s3
  | none =>
    let fill := decide (n < c.fill)
    let settle := o.settling || o.aLo != o.aHi || o.mLo != o.mHi
    let deg := o.deg ||| s0.degradedNow
    let flags := b2n o.overload + 2 * b2n settle + 4 * b2n fill
    let withheld := fill && !s0.flagAt (Key.feFillKeep p) t.floor
    let s1 := (s0.endGapRun p).feRuns p deg o.calPier ct
    let s2 := s1.feTap p ostep ext (some (o.i, o.q)) flags deg 0
    let s3 := s2.pushFeOut p { epoch := f.grid.epoch, te := f.grid.te, n := n, t := ct, i := o.i, q := o.q, flags := flags + 8 * b2n withheld, deg := deg, calPier := o.calPier, first := f.grid.first }
    if e.stage ≠ 2 then s3
    else if withheld then s3.setWatermark (0x1000 + p) ct
    else
      let g := s3.fe p
      let ((r, l), s4) := s3.edgeSample p ct (2 * b2n (deg != 0) + 4 * b2n settle + 8 * b2n o.overload + 16 * b2n fill) (edgeScale o.i) (edgeScale o.q) e g.outRise g.outFall
      s4.putFe p { s4.fe p with outRise := r, outFall := l }

/-- The coefficients of the final FIR for a source at time t (04 R110, R120). -/
def finalCoeffs (s : State) (p t src : Nat) (c : FeCfg) : List Int :=
  if src = 1 then bankCoeffs (s.objAt (Key.feFirBankA p) t) c.taps
  else if src = 2 then bankCoeffs (s.objAt (Key.feFirBankB p) t) c.taps
  else presetCoeffs c.preset c.tf c.kf

/-- The output of the final FIR, through a cross-fade where one runs or starts at this output (04 R121). -/
def finalOutput (s : State) (p : Nat) (t : KTime) (c : FeCfg) (hist : List Smp) : (Smp × Nat) × State :=
  let f := s.fe p
  let src := s.objAt (Key.feFirSource p) t
  let starts := src != f.source && src != 0 && f.source != 0
  let T := match (s.fadesOf p).find? fun z => z.t ≤ t with | some z => z.t | none => t
  let fade := if starts then some { old := f.source, done := 0, len := s.objAt (Key.feFadeLen p) T, stop := s.fadeEnd p T : Fade } else f.fade
  let (y, ny) := firOutput (s.finalCoeffs p t src c) 24 hist
  match fade with
  | none => ((y, ny), s.putFe p { f with source := src })
  | some d =>
    let (x, nx) := firOutput (s.finalCoeffs p t d.old c) 24 hist
    let l := d.len
    let mixIn (a b : Int) : Int := roundHalfEven (a * (l - 1 - d.done : Nat) + b * (d.done + 1 : Nat)) l
    let o : Smp := { y with i := mixIn x.i y.i, q := mixIn x.q y.q, overload := x.overload || y.overload, settling := x.settling || y.settling, gap := y.gap.orElse fun _ => x.gap,
                            aLo := min x.aLo y.aLo, aHi := max x.aHi y.aHi, mLo := min x.mLo y.mLo, mHi := max x.mHi y.mHi, deg := x.deg ||| y.deg }
    let last := l ≤ d.done + 1
    let s1 := s.putFe p { f with source := src, fade := if last then none else some { d with done := d.done + 1 } }
    ((o, nx + ny), if starts then s1.replanFades p T else if last then s1.showFade p else s1)

/-- A mixer-output sample goes through the decimation chain or the boxcar (04 R108, R113). -/
def decimate (s : State) (p : Nat) (t : Exact) (c : FeCfg) (x : Smp) : State :=
  let f := s.fe p
  if c.mode = 1 then
    let acc := if f.mixed = 0 ∨ f.mixed % c.k = 1 ∨ c.k = 1 then { x with i := 0, q := 0 } else combine [(1, f.boxAcc), (1, x)]
    let old := if f.mixed = 0 ∨ f.mixed % c.k = 1 ∨ c.k = 1 then (0, 0) else f.boxSum
    let sum := (old.1 + x.i, old.2 + x.q)
    let s1 := s.putFe p { f with mixed := f.mixed + 1, boxSum := sum, boxAcc := acc }
    if f.mixed % c.k = 0 then s1.deliver p t { acc with i := roundHalfEven sum.1 c.k, q := roundHalfEven sum.2 c.k } else s1
  else
    let (cas, y, n) := cascadeStep (presetCoeffs c.preset (halfTaps c.preset) 2) f.cascade x
    let s1 := (s.putFe p { f with cascade := cas, mixed := f.mixed + 1 }).addObj (Key.feSatCount p) n
    match y with
    | none => s1
    | some z =>
      let f1 := s1.fe p
      let fir := f1.fir.push c.tf z
      let s2 := s1.putFe p { f1 with fir := fir }
      if f1.fir.count % c.kf ≠ 0 then s2 else
      let ((o, m), s3) := s2.finalOutput p t.floor c fir.hist
      (s3.addObj (Key.feSatCount p) m).deliver p t o

/-- A mixer-input sample: retunes are counted, the NCO turns it, and the accumulator advances also in a gap (04 R105, R106, R114). -/
def mixStep (s : State) (p : Nat) (t : Exact) (c : FeCfg) (x : Smp) : State :=
  let f := s.fe p
  let fw := s.objAt (Key.feNcoFreq p) t.floor
  let po := s.objAt (Key.feNcoPhase p) t.floor
  let tuned := (s.writesOf (Key.feNcoFreq p) ++ s.writesOf (Key.feNcoPhase p)).any fun T => decide (f.mixedAt < T ∧ T ≤ t.floor)
  let r := if f.mixed ≠ 0 ∧ tuned then f.retunes + 1 else f.retunes
  let x1 := { x with mLo := r, mHi := r }
  let (y, n) := if s.flagAt (Key.feNcoEnable p) t.floor then mix f.p po x1 else (x1, 0)
  let s1 := (s.putFe p { f with p := (f.p + fw) % 2 ^ 48, mixedAt := t.floor, retunes := r }).addObj (Key.feSatCount p) n
  s1.decimate p t c y

/-- A sample scaled as it enters the mixer or the conversion stage (04 R95). -/
def scaleIn (c : FeCfg) (it : Item) : Smp :=
  let narrow := it.w == 8
  let g : Int := if c.real then (if narrow then 256 else 1) else (if narrow then 32768 else 128)
  { i := it.i * g, q := it.q * g, overload := it.overload, gap := it.gap, deg := it.deg, calPier := it.calPier }

/-- A port starts: the start is noted, with the place of its first output (04 R523). -/
def startFe (s : State) (p : Nat) (t : KTime) : State :=
  let s1 := s.withFes { s.fes with starts := s.fes.starts ++ [(p, t)] }
  s1.putFe p { s1.fe p with grid := { (s1.fe p).grid with first := (s1.feOuts p).length } }

/-- One aligned sample through the front end, with the reset that acts at it; before a port's first sample, the positions of a gap are counted
for its marker only (04 R94, R104, R114, R117, R118, R523; 03 R522). -/
def feAligned (s : State) (p : Nat) (it : Item) (settling : Bool) : State :=
  let t := it.t.floor
  let f := s.fe p
  let c := s.feCfg p t
  let events := if f.grid.started then s.resetsIn p f.grid.resetSeen t ++ s.resetCommits p f.grid.prev t else [t]
  match f.grid.started, it.gap with
  | false, some (cause, pier) =>
    let y := s.gapOutput p t cause pier
    if (y.edgeCfg p t).stage = 1 then y.setWatermark (0x1000 + p) t else y
  | _, _ =>
  let s := if f.grid.started then s else (s.endGapRun p).startFe p t
  let s1 := if events.isEmpty then s else events.foldl (fun x T => x.noteAnchor p T) (s.resetFe p it.t it.step (events.foldl max 0))
  let f1 := s1.fe p
  let bind := s1.objAt (Key.feSettleBind p) t
  let switched := f.grid.started && (s1.fes.changes.any (fun ch => bit bind ch.1 && decide (f.grid.prev < ch.2 ∧ ch.2 ≤ t)) ||
    (List.range 8).any fun n => bit bind (32 + n) && s1.swChanged n t 64 f.grid.prev)
  let sw := if switched then f1.switches + 1 else f1.switches
  let n := f1.grid.n
  let s2 := s1.putFe p { f1 with switches := sw, grid := { f1.grid with resetSeen := max f1.grid.resetSeen (s1.lastReset t), prev := t, n := n + 1 } }
  let s3 := s2.rawEdge p it settling
  let x := { scaleIn c it with settling := settling, aLo := sw, aHi := sw }
  if !c.real then s3.mixStep p it.t c x else
  let f3 := s3.fe p
  let (l, y, k) := stageStep (presetCoeffs c.convPreset (convTaps c.convPreset) 2) 16 2 f3.conv (rotate n x)
  let s4 := (s3.putFe p { f3 with conv := l }).addObj (Key.feSatCount p) k
  match y with
  | none => s4
  | some z => s4.mixStep p it.t c z

end State

/-- The Deck takes the next input position of a port from the ingest abutment and runs the aligned sample it completes through the front end
(04 R94; 03 R84, R86; 01 R20, R22, R23, R27). The positions of a gap before the stream's first sample are only counted for its marker (03 R522; 04 R523). Positions in a
gap count among the 32 aligned samples that settle after a change of the delay (notes/assumptions/174.md). -/
def execFeInputSample (port : Fin 1024) (s : State) : Out :=
  let p := port.val
  if s.deckHeld then .next s else
  match s.takeItem p with
  | (none, _) => .next s
  | (some it, s1) =>
    let f := s1.fe p
    if it.ended then .next ((s1.endFe p).refreshAbutment ((f.grid.inputs.head?.map (·.pier)).getD (s1.pierOfPort p))) else
    match it.gap, f.grid.inputs with
    | some (cause, pier), [] =>
      let y := s1.gapOutput p it.t.floor cause pier
      .next ((if (y.edgeCfg p it.t.floor).stage = 1 then y.setWatermark (0x1000 + p) it.t.floor else y).refreshAbutment it.pier)
    | _, _ =>
    let inputs := (it :: f.grid.inputs).take 4200
    let s2 := s1.putFe p { f with grid := { f.grid with inputs := inputs } }
    let tj := match inputs[16]? with | some b => b.t.floor | none => 0
    let d := s2.objAt (Key.portDelayInt p) tj
    let phi := s2.objAt (Key.portDelayFrac p) tj
    let s4 := match State.alignedSample inputs d phi with
      | none => s2
      | some (a, _) =>
        let g := (s2.fe p).grid
        let left := if g.started ∧ g.delay ≠ (d, phi) then 32 else g.settleLeft
        let s3 := s2.putFe p { s2.fe p with grid := { g with delay := (d, phi), settleLeft := left - 1 } }
        s3.feAligned p a (decide (0 < left))
    .next (s4.refreshAbutment it.pier)

/-! ### Synchronising resets (04 R115, R116) -/

/-- Schedules a synchronising reset; resets with the same Ts act once. -/
def State.scheduleReset (s : State) (ts : KTime) : State :=
  if s.fes.resets.any fun r => r.1 == ts then s else (s.withFes { s.fes with resets := s.fes.resets ++ [(ts, false)] })

/-- The due command sync.now: Ts is the group's T (04 R115). -/
def State.syncNow (s : State) : State :=
  (s.due.filter fun d => d.1 == Key.syncNow).foldl (fun x d => (x.scheduleReset d.2).relaySync d.2) (s.withDue (s.due.filter fun d => d.1 != Key.syncNow))

/-- The due command sync.now schedules a reset at the group's T (04 R115). -/
def execSyncNow (s : State) : Out := .next s.syncNow

/-- A falling edge of SYNC_L, sampled at this tick (04 R116): ignored before the previous edge's Ts has passed; otherwise a reset at the first
grid time after the lead. An edge sampled exactly at that Ts is taken (notes/assumptions/170.md). -/
def execSyncLEdge (s : State) : Out :=
  if !s.flag Key.syncPinEnable then .next s else
  if s.time < s.fes.lastPinTs then .next (s.bump Key.syncPinIgnored) else
  let per := s.obj Key.sysrefPeriod
  let e := s.ticks + s.obj Key.syncPinLead
  let ts := (e + (((s.obj Key.sysrefPhase : Int) - e) % (per : Int)).toNat) * tick
  let s1 := s.scheduleReset ts
  .next (((s1.withFes { s1.fes with lastPinTs := ts })).relaySync ts)

/-- At Ts the reset is recorded, the earliest of those that are due first (04 R115, R117); each participating front end resets at its first aligned sample at or after Ts. -/
def execSyncReset (s : State) : Out :=
  match ((s.fes.resets.filter fun r => !r.2 && r.1 ≤ s.time).map (·.1)) with
  | [] => .next s
  | t :: rest =>
    let ts := rest.foldl min t
    let s1 := s.withFes { s.fes with resets := s.fes.resets.map fun (r : KTime × Bool) => if r.1 = ts then (ts, true) else r }
    .next ((s1.setObj Key.syncLast ts).bump Key.syncCount)

/-- Pulses on a TRIGO pin whose width has elapsed since their latest start end (04 R102; 07 R211). -/
def execTrigoPulseEnd (pin : Fin 8) (s : State) : Out :=
  .next (s.withTrig { s.trig with pulses := s.trig.pulses.filter fun q => q.pin != pin.val || s.wall < q.stop })

/-! ### Commit effects and acceptance of chapter 04 -/

/-- fe.rate, fe.gdelay and fe.fill of a port (04 Table 4-6). -/
def State.refreshFe (s : State) (p : Nat) : State :=
  if !s.flag (Key.portEnable p) then s else
  let l := s.link (s.obj (Key.portLink p))
  let c := s.feCfg p s.time
  let fc := if c.real then 2 * l.period else l.period
  let rate := (2 * 400000000000 * l.ns * l.rate + fc * c.k) / (2 * fc * c.k)
  let g := c.delay2 * State.mixerStep c l.step / (2 * l.den)
  ((s.setObj (Key.feRate p) rate).setObj (Key.feGdelay p) g).setObj (Key.feFill p) c.fill

/-- A group accepted that changes a port's bank makes its fade pending (04 R121). -/
def acceptFades (s : State) (g : Group) : State :=
  (g.units 0x2400 1024).foldl (fun x p =>
    match g.write? (Key.feFirSource p) with
    | none => x
    | some src =>
      let was := x.before g (Key.feFirSource p)
      if src ≠ 0 ∧ was ≠ 0 ∧ src ≠ was then
        (x.withFes { x.fes with fades := x.fes.fades ++ [{ port := p, t := g.t, stop := x.fadeEnd p g.t }] }).showFade p
      else x) s

/-- Can a port that has not started still start before T: does its queue, or its link, hold a sample of an earlier time (04 R121)? -/
def State.mayStart (s : State) (p : Nat) (T : KTime) : Bool :=
  (s.fe p).grid.started || (s.queue p).any (fun it => it.gap.isNone && !it.ended && decide (it.t.floor < T)) ||
    (s.flagAt (Key.portEnable p) (T - 1) && (s.linkSt (s.objAt (Key.portLink p) (T - 1))).released) || !(s.fe p).grid.inputs.isEmpty

/-- Front-end effects at a commit: reported figures, and a fade whose port has not started (04 R121). -/
def commitFrontEnd (s : State) (g : Group) (_old : Nat → Nat) : State :=
  let ps := (g.units 0x2400 1024 ++ g.units 0x2000 1024).eraseDups
  ps.foldl (fun x p =>
    let x2 := x.refreshFe p
    if x2.fes.fades.any (fun z => z.port == p && z.t == g.t) ∧ !x2.mayStart p g.t then
      let x3 := (x2.withFes { x2.fes with fades := x2.fes.fades.filter fun z => !(z.port == p && z.t == g.t) }).showFade p
      if (x3.fadesOf p).isEmpty then x3.setObj (Key.feFadeEnd p) g.t else x3
    else x2) s

/-! ### Group rules of chapter 04 (R122, Table 4-5) -/

/-- K of the form of R107, or a power of two from 2 in mode 1. -/
def decimOk (mode k : Nat) : Bool :=
  let (m, _) := oddPart 32 k 0
  1 ≤ k && k ≤ 2 ^ 24 && (if mode = 1 then m == 1 && 2 ≤ k else m == 1 || m == 3 || m == 5 || m == 7)

/-- Are a bank's first t coefficients symmetric (04 R120)? -/
def bankSymmetric (img t : Nat) : Bool := let c := bankCoeffs img t; c == c.reverse

/-- Byte 3 of every entry is the sign extension of bit 23 (04 R120). -/
def bankExtended (img : Nat) : Bool :=
  (List.range 1024).all fun u => fieldAt img (4 * u + 3) 1 == (if bit img (32 * u + 23) then 255 else 0)

/-- Is L a power of two from 64 to 65,536? -/
def fadeLenOk (l : Nat) : Bool := (List.range 11).any fun i => l == 64 * 2 ^ i

/-- Can the detectors of the settings re-arm (04 Table 4-5)? -/
def edgeArmable (q slope : Nat) (l h : Int) : Bool :=
  let rising := slope != 1
  let falling := slope != 0
  if q = 0 then !(rising && decide (l - h ≤ -32768)) && !(falling && decide (32767 ≤ l + h))
  else decide (0 ≤ l) && !(rising && decide (l ≤ h)) && !(falling && decide (46341 ≤ l + h))

/-- The final-FIR load of a pier in taps × 0.001 outputs per second, as an exact fraction; a port whose link spans two piers counts half to each (04
R124). -/
def firLoad (v : Nat → Nat) (ports : List Nat) (pier : Nat) : Nat × Nat :=
  ports.foldl (fun a p =>
    let k := v (Key.portLink p)
    let ls := lanesOf (v (Key.linkLanes k)) (v (Key.linkL k))
    let piers := (ls.map (· / 8)).eraseDups
    if !piers.contains pier then a else
    let c : FeCfg := { mode := v (Key.feMode p), preset := v (Key.fePreset p), k := v (Key.feDecim p), taps := v (Key.feFirTaps p), bank := v (Key.feFirSource p) != 0, real := v (Key.portKind p) == 0 }
    let ns := v (Key.linkS k) * v (Key.linkE k) * 256 / v (Key.linkF k)
    let den := (if c.real then 2 else 1) * v (Key.linkE k) * 844800000 * c.k * piers.length
    (a.1 * den + c.tf * 400000000000 * ns * v (Key.pierRate pier) * a.2, a.2 * den)) (0, 1)

/-- The refusals of R122 and Table 4-5, row by row. -/
def rulesFrontEnd (s : State) (g : Group) : Option Code :=
  if !(g.hasRange 0x2400 0x27FF || g.hasRange 0x2000 0x23FF) then none else
  let v := s.staged g
  let old := s.before g
  let ps := g.units 0x2400 1024
  let bankW (p : Nat) := [(1, Key.feFirBankA p), (2, Key.feFirBankB p)].filter fun x => g.has x.2
  let src (p : Nat) := v (Key.feFirSource p)
  let bankOf' (p : Nat) := if src p = 1 then v (Key.feFirBankA p) else v (Key.feFirBankB p)
  let stagedOn := ((s.knownPorts ++ g.units 0x2000 1024).eraseDups).filter fun p => s.stagedFlag g (Key.portEnable p)
  let fading (p : Nat) := (match (s.fe p).fade with | some d => decide (g.t ≤ d.stop) | none => false) || (s.fadesOf p).any fun z => decide (g.t ≤ z.stop)
  firstOf [
    eachOf ps (fun p => refuse (fading p &&
      (([Key.feFirSource p, Key.feFirTaps p, Key.fePreset p, Key.feDecim p, Key.feMode p].any fun k => g.has k && v k != old k) || !(bankW p).isEmpty)) Res.busy),
    eachOf ps (fun p => refuse ((bankW p).any fun x => old (Key.feFirSource p) == x.1 && src p == x.1) Res.state),
    eachOf ps (fun p => refuse ((g.has (Key.feDecim p) || g.has (Key.feMode p)) && !decimOk (v (Key.feMode p)) (v (Key.feDecim p))) Res.range),
    eachOf ps (fun p => refuse ((g.has (Key.feFirTaps p) && (v (Key.feFirTaps p) % 2 == 0 || 1023 < v (Key.feFirTaps p))) ||
      (src p != 0 && (g.has (Key.feFirSource p) || g.has (Key.feFirTaps p) || (bankW p).any (fun x => x.1 == src p)) && !bankSymmetric (bankOf' p) (v (Key.feFirTaps p)))) Res.range),
    eachOf ps (fun p => refuse ((bankW p).any fun x => !bankExtended (v x.2)) Res.range),
    eachOf ps (fun p => refuse (g.has (Key.feFadeLen p) && !fadeLenOk (v (Key.feFadeLen p))) Res.range),
    eachOf ps (fun p => refuse (2 ^ 48 ≤ v (Key.feNcoFreq p) || 2 ^ 20 ≤ v (Key.feNcoPhase p)) Res.range),
    eachOf ps (fun p => refuse (2 ^ 40 ≤ v (Key.feSettleBind p)) Res.range),
    eachOf ps (fun p => refuse (v (Key.feEdgeDead p) < 16 || v (Key.feEdgeWidth p) == 0) Res.range),
    eachOf ps (fun p => refuse (v (Key.feEdgeStage p) != 0 && !edgeArmable (v (Key.feEdgeQuantity p)) (v (Key.feEdgeSlope p)) (s.stagedI g (Key.feEdgeLevel p)) (v (Key.feEdgeHyst p))) Res.range),
    eachOf ps (fun p => refuse (v (Key.feEdgePins p) != 0 && v (Key.feEdgeStage p) == 0) Res.range),
    eachOf (List.range 16) (fun q => refuse (1024000000000000 * (firLoad v stagedOn q).2 < (firLoad v stagedOn q).1) Res.capacity)]

end Sys2Proof.Machine
end

