-- ==== Sys2Proof/Machine/HostRingOps.lean ====
section
/-! DEFINITION. Host rings: placing entries and publishing them (12 R335 to R337, R346). -/

namespace Sys2Proof.Machine

namespace State

def hostRing (s : State) (n : Nat) : HostRing := tabGet {} s.hrs n
def putHostRing (s : State) (n : Nat) (x : HostRing) : State := s.withHrs (tabSet {} s.hrs n x)

/-- Makes hr.vector pending, unless it is 0xFF (12 R336). -/
def ringVector (s : State) (n : Nat) : State :=
  let v := s.obj (Key.hrVector n)
  if v = 0xFF then s else s.pendVector v

/-- The 32-byte header of an entry (12 R336). -/
def entryHeader (kind len seq : Nat) : Bytes := natLE 4 kind ++ natLE 4 len ++ natLE 8 seq ++ zeros 16

/-- The bytes of an entry with its header and padding (12 R336). -/
def entryBytes (len : Nat) : Nat := pad64 (32 + len)

/-- Where an entry of a payload length goes: whether a wrap precedes it, its offset, and the bytes it consumes of the ring (12 R336). -/
def entryPlace (s : State) (n len : Nat) : Bool × Nat × Nat :=
  let r := s.hostRing n
  let size := s.obj (Key.hrSize n)
  let total := entryBytes len
  if r.place + total ≤ size then (false, r.place, total) else (true, 0, size - r.place + total)

/-- Does an entry fit under the ring's mode (12 R337)? In hold mode it must not reach HR_RPTR. -/
def entryFits (s : State) (n len : Nat) : Bool :=
  let r := s.hostRing n
  let size := s.obj (Key.hrSize n)
  s.obj (Key.hrMode n) == 0 || decide ((r.place + size - r.rptr) % max 1 size + (s.entryPlace n len).2.2 < size)

/-- Writes an entry: a wrap header where one is due, the payload, then the header; the result is its offset (12 R336). -/
def writeEntry (s : State) (n cls kind : Nat) (payload : Bytes) (record : Option (Nat × Nat)) : Nat × State :=
  let r := s.hostRing n
  let base := s.obj (Key.hrBase n)
  let size := s.obj (Key.hrSize n)
  let (wrap, off, _) := s.entryPlace n payload.length
  let total := entryBytes payload.length
  let s1 := if wrap ∧ r.place + 32 ≤ size then s.memWrite (.hostRing n) cls (base + r.place) (entryHeader 0 0 r.placed) else s
  let s2 := (s1.memWrite (.hostRing n) cls (base + off + 32) (padTo (total - 32) payload)).memWrite (.hostRing n) cls (base + off) (entryHeader kind payload.length r.placed)
  (off, s2.putHostRing n { r with place := (off + total) % max 1 size, placed := r.placed + 1, waiting := false, unacked := r.unacked ++ [{ offset := off, bytes := total, record := record }] })

/-- Has the oldest entry of the ring been acknowledged by memory? -/
def entryAcked (s : State) (n : Nat) : Bool :=
  match (s.hostRing n).unacked with
  | [] => false
  | e :: _ => !s.outstandingIn (.hostRing n) (s.obj (Key.hrBase n) + e.offset) e.bytes

/-- Is a record's entry still in flight? -/
def entryInFlight (s : State) (n ctx record : Nat) : Bool := (s.hostRing n).unacked.any fun e => e.record == some (ctx, record)

/-- The host rings that take the records of a view on a port (12 R335, source 1). -/
def viewRings (s : State) (v p : Nat) : List Nat :=
  (s.enabledUnits 0x1B40 64).filter fun n => s.obj (Key.hrSource n) == 1 && s.obj (Key.hrView n) == v && (s.obj (Key.hrPort n) == 0xFFFF || s.obj (Key.hrPort n) == p)

end State

/-- Memory acknowledged an entry: HR_WPTR passes it, hr.entries counts it and the ring's vector becomes pending (12 R336). -/
def execHrEntryAcked (n : Fin 64) (s : State) : Host.Outcome State Fault Refusal :=
  let r := s.hostRing n.val
  match r.unacked with
  | [] => .next s
  | e :: rest =>
    if !s.entryAcked n.val then .next s else
    let s1 := s.putHostRing n.val { r with wptr := (e.offset + e.bytes) % max 1 (s.obj (Key.hrSize n.val)), unacked := rest }
    .next ((s1.bump (Key.hrEntries n.val)).ringVector n.val)

end Sys2Proof.Machine
end

