-- ==== Sys2Proof/Machine/NetOps.lean ====
section
/-! DEFINITION. VITA 49.2 streams: packets, their queues and token buckets (14 R386 to R398). -/

namespace Sys2Proof.Machine

/-- A record as a stream takes it (14 R387 to R394): Stream ID, FORMAT, S bit, time K, flags in the order of Table 5-3 with MISSING as bit
6, bytes in packets of their own order, the port described, its raw stream, and the view. -/
structure VrtRecord where
  sid : Nat
  format : Nat
  spectral : Bool
  k : KTime
  flags : Nat
  first : Bytes
  port : Nat
  raw : Bool := false
  view : Option Nat := none
  deriving DecidableEq, Repr

/-- Trailer enables (14 R391). -/
def trailerEnables : Nat := 0xE3F00000

/-- Trailer indicators of Table 14-3. -/
def trailerBits (mapped locked : Bool) (flags : Nat) : Nat :=
  2 ^ 19 * b2n mapped + 2 ^ 18 * b2n (!(bit flags 0 || bit flags 1)) + 2 ^ 17 * b2n locked + 2 ^ 13 * b2n (bit flags 3) +
    2 ^ 12 * b2n (bit flags 0 || bit flags 6) + 2 ^ 11 * b2n (bit flags 2) + 2 ^ 10 * b2n (bit flags 4) + 2 ^ 9 * b2n (bit flags 5) + 2 ^ 8 * b2n (bit flags 1)

/-- Word 1 of the Class ID (14 R389). -/
def classLow (first last : Bool) (sid format : Nat) : Nat := 0x00010000 + 32768 * b2n first + 16384 * b2n last + 256 * (sid / 2 ^ 28) + format % 256

/-- The pieces of a byte image of at most n bytes each. -/
def pieces (n : Nat) : Nat → Bytes → List Bytes
  | 0, _ => []
  | fuel + 1, b => if b.length ≤ n then [b] else b.take n :: pieces n fuel (b.drop n)

/-- The packets of one record (14 R392). -/
def recordPackets (payload : Nat) (r : VrtRecord) : List VrtPacket :=
  let ps := pieces (max 1 payload) (r.first.length + 1) r.first
  ps.zipIdx.map fun (b, i) =>
    { sid := r.sid, cls := classLow (i == 0) (i + 1 == ps.length) r.sid r.format, flags := r.flags, spectral := r.spectral, k := r.k, body := b }

namespace State

def vrtStream (s : State) (n : Nat) : VrtStream := tabGet {} s.net.streams n
def putVrtStream (s : State) (n : Nat) (x : VrtStream) : State := s.withNet { s.net with streams := tabSet {} s.net.streams n x }

/-- f_out of a port at a time in Hz, as a fraction (04 R111). -/
def outRate (s : State) (p t : Nat) : Nat × Nat :=
  let l := s.link (s.objAt (Key.portLink p) t)
  let c := s.feCfg p t
  (400000000 * l.ns * l.rate, (if c.real then 2 else 1) * l.period * max 1 c.k)

/-- The sample rate of the raw stream of a port at a time in Hz, as a fraction. -/
def rawRate (s : State) (p t : Nat) : Nat × Nat :=
  let l := s.link (s.objAt (Key.portLink p) t)
  (400000000 * l.ns * l.rate, l.period)

/-- A frequency with 20 fraction bits, truncated (14 R394). -/
def hz20 (n : Int) (d : Nat) : Nat := ofSigned 64 (n * 2 ^ 20 / (d : Int))

/-- The NCO frequency of a port with 20 fraction bits, signed; 0 with the mixer off (04 R105; 14 Table 14-4). -/
def ncoHz20 (s : State) (p t : Nat) : Nat :=
  if !s.flagAt (Key.feNcoEnable p) t then 0 else
  let (n, d) := s.outRate p t
  let fw := toSigned 48 (s.objAt (Key.feNcoFreq p) t)
  hz20 (fw * (n * max 1 (s.objAt (Key.feDecim p) t) : Nat)) (2 ^ 48 * d)

/-- The values a context packet describes: bandwidth, IF reference frequency, reference level, sample rate (14 Table 14-4). -/
def described (s : State) (n : Nat) (r : VrtRecord) : List Nat :=
  let (fn, fd) := s.outRate r.port r.k
  let (rn, rd) := s.rawRate r.port r.k
  let bw := match r.view with
    | some v => hz20 (s.objAt (Key.viewBinCount v) r.k * fn : Nat) (fd * max 1 (s.objAt (Key.viewSize v) r.k))
    | none => if r.spectral then 0 else if r.raw then hz20 rn rd else hz20 fn fd
  let rate := if r.raw then hz20 rn rd else hz20 fn fd
  [bw, s.ncoHz20 r.port r.k, s.obj (Key.vrtRefLevel n), rate]

/-- A context packet's fields after the time-stamp (14 Table 14-4). -/
def contextFields (values : List Nat) (ovl : Nat) (change : Bool) : Bytes :=
  natBE 4 (if change then 0xB1630000 else 0x31630000) ++ natBE 8 (values.getD 0 0) ++ natBE 8 (values.getD 1 0) ++ natBE 4 (values.getD 2 0) ++
    natBE 4 (min ovl (2 ^ 32 - 1)) ++ natBE 8 (values.getD 3 0) ++ natBE 4 0x007A3C51 ++ natBE 4 0x00000301

/-- The context packet of a Stream ID with its remembered values brought up to date. -/
def contextPacket (s : State) (x : VrtId) (values : List Nat) (spectral change : Bool) (k : KTime) (flags : Nat) : VrtPacket × VrtId :=
  let now := s.obj (Key.portOverloadCount x.port)
  ({ sid := x.sid, cls := classLow false false x.sid 0, flags := flags, spectral := spectral, context := true, change := change, k := k,
     body := contextFields values (now - x.ovl) change },
   { x with sent := some values, ovl := now, last := k, flags := flags })

/-- Bytes of a packet on the wire from the destination address to the frame check sequence (14 R395): Ethernet 14 and 4, the tag, IP and
UDP, and the VITA 49.2 words. -/
def wireBytes (s : State) (n : Nat) (p : VrtPacket) : Nat :=
  let vlan := if s.obj (Key.netVlan (s.obj (Key.vrtInterface n))) = 0 then 0 else 4
  let ip := if (s.obj (Key.vrtDstIp n)) % 2 ^ 96 = 0xFFFF * 2 ^ 80 then 20 else 40
  18 + vlan + ip + 8 + (if p.context then 76 else 32 + p.body.length)

/-- The bytes a stream's queue holds. -/
def queuedBytes (x : VrtStream) : Nat := x.queue.foldl (fun a p => a + (if p.context then 76 else 32 + p.body.length)) 0

/-- Queues records of one unit whole on a stream: a context packet where one is due, then the data packets (14 R392, R394). -/
def vrtQueue (s : State) (n : Nat) (records : List VrtRecord) : State :=
  records.foldl (fun y r =>
    let x := y.vrtStream n
    let known := x.ids.find? fun i => i.sid == r.sid
    let id : VrtId := known.getD { sid := r.sid, port := r.port, ovl := y.obj (Key.portOverloadCount r.port) }
    let values := y.described n r
    let due := y.flag (Key.vrtCtx n) && id.sent != some values
    let (ctx, id1) := if due then let (c, i) := y.contextPacket id values r.spectral id.sent.isSome r.k r.flags; ([c], i) else ([], { id with last := r.k, flags := r.flags })
    let ids := (x.ids.filter fun i => i.sid != r.sid) ++ [{ id1 with port := r.port }]
    y.putVrtStream n { x with queue := x.queue ++ ctx ++ recordPackets (y.obj (Key.vrtPayload n)) r, ids := ids }) s

/-- The bytes that queuing records would add. -/
def vrtBytes (s : State) (n : Nat) (records : List VrtRecord) : Nat :=
  queuedBytes ((s.vrtQueue n records).vrtStream n) - queuedBytes (s.vrtStream n)

/-- Do records fit in the queue of a stream whole (14 R396)? -/
def vrtFits (s : State) (n : Nat) (records : List VrtRecord) : Bool := queuedBytes ((s.vrtQueue n records).vrtStream n) ≤ 524288

/-- A record of source 1 or 3: queued whole, or dropped whole and counted (14 R396). -/
def vrtOffer (s : State) (n : Nat) (r : VrtRecord) : State :=
  if s.vrtFits n [r] then s.vrtQueue n [r] else s.bump (Key.vrtDropped n)

/-- The enabled streams. -/
def vrtOn (s : State) : List Nat := (List.range 256).filter fun n => s.flag (Key.vrtEnable n)

/-- The streams that carry the records of a view on a port (14 R387, source 1). -/
def viewStreams (s : State) (v p : Nat) : List Nat :=
  s.vrtOn.filter fun n => s.obj (Key.vrtSource n) == 1 && s.obj (Key.vrtView n) == v && (s.obj (Key.vrtPort n) == 0xFFFF || s.obj (Key.vrtPort n) == p)

/-- Stream IDs (14 Table 14-2). -/
def sidSpectrum (s : State) (v p : Nat) : Nat := 2 * 2 ^ 28 + s.obj Key.spanNode % 512 * 2 ^ 19 + v * 1024 + p
def sidIq (s : State) (ctx entry : Nat) : Nat := 2 ^ 28 + s.obj Key.spanNode % 512 * 2 ^ 19 + ctx * 16 + entry
def sidProduct (s : State) (kind n : Nat) : Nat := 3 * 2 ^ 28 + s.obj Key.spanNode % 512 * 2 ^ 19 + kind * 65536 + n

/-- The time words of a packet: TSI and TSF of TAI(K), zero while TAI is not mapped (14 R393). -/
def timeWords (s : State) (k : KTime) : Bytes :=
  if s.obj Key.taiState ≤ 1 then zeros 12 else
  let ps := (s.taiPs k).toNat
  natBE 4 (ps / 1000000000000) ++ natBE 8 (ps % 1000000000000)

/-- The bytes of a packet as it is sent, with a packet count (14 R388 to R394). -/
def packetBytes (s : State) (p : VrtPacket) (count : Nat) : Bytes :=
  let ind := trailerBits (s.obj Key.taiState == 2) (s.obj Key.ksState == ksLocked) p.flags
  if p.context then
    natBE 4 (0x48E00000 + count * 65536 + 0x13) ++ natBE 4 p.sid ++ natBE 4 0x007A3C51 ++ natBE 4 p.cls ++ s.timeWords p.k ++ p.body ++
      natBE 4 (trailerEnables + ind)
  else
    let words := (32 + p.body.length) / 4
    natBE 4 ((if p.spectral then 0x1FE00000 else 0x1EE00000) + count * 65536 + words) ++ natBE 4 p.sid ++ natBE 4 0x007A3C51 ++ natBE 4 p.cls ++
      s.timeWords p.k ++ p.body ++ natBE 4 (trailerEnables + ind)

end State

end Sys2Proof.Machine
end

