-- ==== Sys2Proof/Machine/Transform.lean ====
section
/-! DEFINITION. Windows, the transform, output words and detectors of the girders (05 R134 to R147). -/

namespace Sys2Proof.Machine

/-! ### Windows (05 R134 to R136) -/

/-- e^−x of a fixed-point real that is not negative. -/
def fxExpNeg (x : Int) : Int :=
  let y := x / 256
  let e := ((List.range 40).foldl (fun (a : Int × Int) k => (a.1 + a.2, fxMul a.2 y / (k + 1))) (0, fxOne)).1
  fxDiv fxOne ((List.range 8).foldl (fun a _ => fxMul a a) e)

/-- A sum of cosines with coefficients in units of 10^−9, alternating in sign (05 Table 5-1). -/
def cosineWindow (coeffs : List Nat) (n size : Nat) : Int :=
  coeffs.zipIdx.foldl (fun a (c, k) =>
    let x := fxOf c 1000000000
    let y := fxMul x (fxTurn (k * n % size) size).1
    if k % 2 = 0 then a + y else a - y) 0

/-- w(n) of the computed windows (05 Table 5-1). -/
def windowValue (code param n size : Nat) : Int :=
  if code = 0 then fxOne
  else if code = 1 then cosineWindow [500000000, 500000000] n size
  else if code = 2 then cosineWindow [358750000, 488290000, 141280000, 11680000] n size
  else if code = 3 then cosineWindow [215578950, 416631580, 277263158, 83578947, 6947368] n size
  else if code = 4 then fxKaiser param 1000 (2 * (n : Int) - size) size
  else
    let num : Int := (2 * (n : Int) - size) * 1000
    fxExpNeg (fxOf (num * num) (2 * (param * size) * (param * size)))

/-- u[0] to u[N − 1] of the window in force (05 R135). user is the image of view.window.user. -/
def windowCoeffs (code param size user : Nat) : List Int :=
  if code = 6 then (List.range size).map fun n => toSigned 32 (fieldAt user (4 * n) 4)
  else
    let half := (List.range (size / 2 + 1)).map fun n => fxRound (2 ^ 17 * windowValue code param n size)
    half ++ ((half.drop 1).dropLast).reverse

/-- view.window.table: 4 bytes each of u[0] to u[N/2], or of every u of a user window (05 R135). -/
def windowTable (code size : Nat) (u : List Int) : Bytes :=
  (if code = 6 then u else u.take (size / 2 + 1)).flatMap fun x => natLE 4 (ofSigned 32 x)

/-- view.enbw: N Σu² / (Σu)² in units of 2^−16 bin, half to even (05 R136). -/
def windowEnbw (size : Nat) (u : List Int) : Nat :=
  let s1 := u.foldl (· + ·) 0
  let s2 := u.foldl (fun a x => a + x * x) 0
  if s1 = 0 then 0 else (roundHalfEven (65536 * size * s2) (s1 * s1).toNat).toNat

/-- A windowed component, clamped to 24 bits, and whether it clamped (05 R136). -/
def windowed (x u : Int) : Int × Bool :=
  let y := roundHalfEven (x * u) (2 ^ 17)
  if y < -(2 ^ 23) then (-(2 ^ 23), true) else if 2 ^ 23 - 1 < y then (2 ^ 23 - 1, true) else (y, false)

/-- The windowed frame and the number of values clamped (05 R136). -/
def windowFrame (xs : List (Int × Int)) (u : List Int) : List (Int × Int) × Nat :=
  let r := (xs.zip u).map fun (x, c) => (windowed x.1 c, windowed x.2 c)
  (r.map fun a => (a.1.1, a.2.1), r.foldl (fun a b => a + b2n b.1.2 + b2n b.2.2) 0)

/-! ### Transform (05 R137, R138) -/

/-- w(k, len) (05 R137). -/
def twiddle (k len : Nat) : Int × Int :=
  let (c, s) := fxTurn (k % len) len
  (fxRound (2 ^ 22 * c), -fxRound (2 ^ 22 * s))

/-- The largest component of the frame. -/
def peakOf (x : List (Int × Int)) : Nat := x.foldl (fun m a => max m (max a.1.natAbs a.2.natAbs)) 0

/-- The shift before a stage (05 R137). -/
def stageShift (r m : Nat) : Nat :=
  if r = 4 then (if m < 2 ^ 20 then 0 else if m < 2 ^ 21 then 1 else if m < 2 ^ 22 then 2 else 3)
  else (if m < 2 ^ 22 then 0 else if m < 2 ^ 23 then 1 else 2)

/-- A butterfly output shifted, rounded and turned by a twiddle (05 R137). -/
def turned (s : Nat) (w t : Int × Int) : Int × Int :=
  let yr := roundHalfEven t.1 (2 ^ s)
  let yi := roundHalfEven t.2 (2 ^ s)
  (roundHalfEven (yr * w.1 - yi * w.2) (2 ^ 22), roundHalfEven (yr * w.2 + yi * w.1) (2 ^ 22))

/-- The four sums of a radix-4 butterfly (05 R137). -/
def sums4 (a b c d : Int × Int) : List (Int × Int) :=
  [(a.1 + b.1 + c.1 + d.1, a.2 + b.2 + c.2 + d.2), (a.1 + b.2 - c.1 - d.2, a.2 - b.1 - c.2 + d.1),
   (a.1 - b.1 + c.1 - d.1, a.2 - b.2 + c.2 - d.2), (a.1 - b.2 - c.1 + d.2, a.2 + b.1 - c.2 - d.1)]

/-- One block of a stage: the r outputs of every jj, in order of d then jj (05 R137). -/
def stageBlock (r len s : Nat) (x : List (Int × Int)) : List (Int × Int) :=
  let q := len / r
  let part (i : Nat) : List (Int × Int) := (x.drop (i * q)).take q
  let sums := if r = 4 then
      ((part 0).zip ((part 1).zip ((part 2).zip (part 3)))).map fun (a, b, c, d) => sums4 a b c d
    else ((part 0).zip (part 1)).map fun (a, b) => [(a.1 + b.1, a.2 + b.2), (a.1 - b.1, a.2 - b.2)]
  (List.range r).flatMap fun d => sums.zipIdx.map fun (t, jj) => turned s (twiddle (d * jj) len) (t.getD d (0, 0))

/-- A stage over the whole frame: its blocks of len points. -/
def stageAll (r len s : Nat) : Nat → List (Int × Int) → List (Int × Int)
  | 0, _ => []
  | n + 1, x => stageBlock r len s (x.take len) ++ stageAll r len s n (x.drop len)

/-- The stages from block length len on; the result and the block exponent (05 R137). -/
def stages (n : Nat) : Nat → Nat → List (Int × Int) → Nat → List (Int × Int) × Nat
  | 0, _, x, e => (x, e)
  | fuel + 1, len, x, e =>
    if len < 2 then (x, e) else
    let r := if 4 ≤ len then 4 else 2
    let s := stageShift r (peakOf x)
    stages n fuel (len / r) (stageAll r len s (n / len) x) (e + s)

/-- The transform of a windowed frame of 2^q points. -/
def transform (n : Nat) (x : List (Int × Int)) : List (Int × Int) × Nat := stages n 21 n x 0

/-- Reverses d base-4 digits. -/
def rev4 : Nat → Nat → Nat → Nat
  | 0, _, acc => acc
  | d + 1, k, acc => rev4 d (k / 4) (4 * acc + k % 4)

/-- The position that holds bin k of a transform of n = 2^q points (05 R138). -/
def binPosition (n k : Nat) : Nat :=
  let q := Nat.log2 n
  if q % 2 = 0 then rev4 (q / 2) k 0 else 2 * rev4 (q / 2) (k % (n / 2)) 0 + k / (n / 2)

/-- Bins of output positions first to first + count − 1, in frequency order (05 R139, R142). -/
def selectBins (n first count : Nat) (x : List (Int × Int)) : List (Int × Int) :=
  let a := x.toArray
  (List.range count).map fun i => a.getD (binPosition n ((first + i + n / 2) % n)) (0, 0)

/-! ### Output words (05 R140, R141) -/

/-- 10^i ≤ n / d (i may be negative). -/
def tenLe (i : Int) (n d : Nat) : Bool := if 0 ≤ i then d * 10 ^ i.toNat ≤ n else d ≤ n * 10 ^ (-i).toNat

/-- The floor of log10(n / d), corrected upward from a start below it. -/
def floorLog10From : Nat → Int → Nat → Nat → Int
  | 0, i, _, _ => i
  | fuel + 1, i, n, d => if tenLe (i + 1) n d then floorLog10From fuel (i + 1) n d else i

/-- The floor of log10(n / d). -/
def floorLog10 (n d : Nat) : Int :=
  let est : Int := ((Nat.log2 n : Int) - Nat.log2 d - 1) * 30103 / 100000 - 3
  floorLog10From 16 est n d

/-- The log-power word of |V|² = n / d against R² = (32 S_w)²: round(1,280 log10(|V|² / R²)), clamped; −32,768 for zero (05 R141). -/
def logWord (n d : Nat) (sw : Int) : Int :=
  if n = 0 then -32768 else
  let l := floorLog10 (n ^ 2560) ((d * (32 * sw.natAbs) ^ 2) ^ 2560)
  max (-32768) (min 32767 ((l + 1) / 2))

/-- |V|² of a bin with a block exponent. -/
def binPower (e : Nat) (v : Int × Int) : Nat := (v.1 * v.1 + v.2 * v.2).toNat * 4 ^ e

/-- The output word of a set of |V|² values in order (05 Table 5-2). -/
def detect (detector : Nat) (vs : List Nat) (sw : Int) : Int :=
  match vs with
  | [] => -32768
  | v :: r =>
    if detector = 0 then logWord (r.foldl max v) 1 sw
    else if detector = 1 then logWord (r.foldl min v) 1 sw
    else if detector = 2 then logWord v 1 sw
    else if detector = 3 then logWord (vs.foldl (· + ·) 0) vs.length sw
    else roundHalfEven ((vs.map fun x => logWord x 1 sw).foldl (· + ·) 0) vs.length

/-- Runs of n consecutive values. -/
def runsOf {α : Type} (n : Nat) : Nat → List α → List (List α)
  | 0, _ => []
  | fuel + 1, l => if l.isEmpty then [] else l.take n :: runsOf n fuel (l.drop n)

/-- The shift l of a BFP group (05 R140): the largest from 0 to 23 with mg × 2^l below 2^23. -/
def groupShift (mg : Nat) : Nat :=
  if mg = 0 then 0 else (List.range 24).foldl (fun a l => if mg * 2 ^ l < 2 ^ 23 then l else a) 0

/-- A group of 16 bins, 104 bytes (05 R140, R147). -/
def bfpGroup (e : Nat) (g : List (Int × Int)) : Bytes :=
  let l := groupShift (peakOf g)
  natLE 1 (ofSigned 8 ((e : Int) - l)) ++ zeros 7 ++ g.flatMap fun v => natLE 3 (ofSigned 24 (v.1 * 2 ^ l)) ++ natLE 3 (ofSigned 24 (v.2 * 2 ^ l))

/-- A payload of FORMAT 1 (05 R147). -/
def bfpPayload (e : Nat) (bins : List (Int × Int)) : Bytes := (runsOf 16 bins.length bins).flatMap (bfpGroup e)

/-- A payload of FORMAT 0 or 2 (05 R146). -/
def wordPayload (words : List Int) : Bytes :=
  let b := words.flatMap fun w => natLE 2 (ofSigned 16 w)
  padTo (cdiv b.length 8 * 8) b

/-- A view record header (05 Table 5-3). -/
def viewHeader (view port format flags epoch detector time e frame points : Nat) : Bytes :=
  natLE 2 view ++ natLE 2 port ++ natLE 1 format ++ natLE 1 (flags % 64) ++ natLE 1 epoch ++ natLE 1 detector ++ natLE 10 time ++ natLE 2 e ++ natLE 8 frame ++ natLE 4 points

end Sys2Proof.Machine
end

