-- ==== Sys2Proof/Machine/ViewOps.lean ====
section
/-! DEFINITION. Views: frames cut from the front-end output, their delivery, traces and records (05 R130 to R149; 01 R32). -/

namespace Sys2Proof.Machine

/-- Flags of Table 5-3. -/
def flagGap : Nat := 1
def flagDegraded : Nat := 2
def flagSettling : Nat := 4
def flagOverload : Nat := 8
def flagFilling : Nat := 16
def flagPartial : Nat := 32

namespace State

def viewPort (s : State) (v p : Nat) : ViewPort := tabGet {} s.views.ports (1024 * v + p)
def putViewPort (s : State) (v p : Nat) (x : ViewPort) : State := s.withViews { s.views with ports := tabSet {} s.views.ports (1024 * v + p) x }

/-- Does the view take the port at time t (05 R130)? -/
def viewTakes (s : State) (v p t : Nat) : Bool :=
  s.flagAt (Key.viewEnable v) t && s.viewHas v p t

/-- The window of a view at time t and S_w (05 R135). -/
def viewWindowAt (s : State) (v t : Nat) : List Int :=
  windowCoeffs (s.objAt (Key.viewWindow v) t) (s.objAt (Key.viewWindowParam v) t) (s.objAt (Key.viewSize v) t) (s.objAt (Key.viewWindowUser v) t)

/-! ### Anchors and epochs (05 R131, R133) -/

/-- The place in the output stream of the first output of another front-end epoch after the grid's anchor. -/
def nextReset (x : ViewPort) (outs : List FeOut) : Option Nat :=
  ((outs.zipIdx).find? fun e => x.anchor ≤ e.2 && e.1.epoch != x.feEpoch).map (·.2)

/-- The next anchor that a commit of N, H or o gives a grid: the place of the first output of the port's stream at or after T, and the time of the latest
event then. The grid has taken a commit whose place is before its anchor, or at its anchor with T not after its event (05 R131). -/
def nextCommit (x : ViewPort) (commits : List KTime) (outs : List FeOut) : Option (Nat × KTime) :=
  let base := ((outs[x.anchor]?).map (·.first)).getD 0
  let place (T : KTime) : Option Nat := ((outs.zipIdx).find? fun e => base ≤ e.2 && T ≤ e.1.t).map (·.2)
  let ahead := (commits.filterMap fun T => (place T).map fun a => (a, T)).filter fun c => x.anchor < c.1 || (c.1 == x.anchor && x.te < c.2)
  (ahead.foldl (fun (best : Option (Nat × KTime)) c =>
    match best with | none => some c | some b => if c.1 < b.1 || (c.1 == b.1 && b.2 < c.2) then some c else some b) none).map fun c => (c.1, max c.2 x.te)

/-- The next re-anchoring of a view's grid on a port: the anchor's place and the event's time (05 R131). -/
def nextAnchor (s : State) (v p : Nat) : Option (Nat × KTime) :=
  let x := s.viewPort v p
  let outs := s.feOuts p
  let r := (nextReset x outs).map fun i => (i, ((outs[i]?).map (·.te)).getD 0)
  match r, nextCommit x (s.viewCommits v) outs with
  | none, c => c
  | some a, none => some a
  | some a, some c => if c.1 < a.1 then some c else some a

/-! ### Consumers of a view's records (05 R142, R145, R148) -/

/-- A record of a view goes to the host rings and the VITA streams that name it (12 R335; 14 R387). -/
def publishView (s : State) (v p : Nat) (record : Bytes) (format flags : Nat) (t : KTime) : State :=
  let s1 := (s.viewRings v p).foldl (fun x n => (x.writeEntry n 2 2 record none).2) s
  (s1.viewStreams v p).foldl (fun x n =>
    x.vrtOffer n { sid := x.sidSpectrum v p, format := format, spectral := true, k := t, flags := flags, first := record, port := p, view := some v }) s1

/-! ### Traces (05 R143, R144) -/

/-- The settings that end a trace group when they change (05 R144). -/
def traceCfg (s : State) (v t : Nat) : List Nat :=
  [s.objAt (Key.viewTimeDecim v) t, s.objAt (Key.viewDetector v) t, s.objAt (Key.viewBinDecim v) t, s.objAt (Key.viewBinFirst v) t, s.objAt (Key.viewBinCount v) t,
   s.objAt (Key.viewFormat v) t, s.objAt (Key.viewWindow v) t, s.objAt (Key.viewWindowParam v) t, s.objAt (Key.viewWindowUser v) t]

/-- The |V|² values of each point of a set of frames (05 R143). -/
def pointValues (db : Nat) (frames : List Frame) : List (List Nat) :=
  let perFrame := frames.map fun f => runsOf (max 1 db) f.bins.length (f.bins.map (binPower f.e))
  match perFrame with
  | [] => []
  | a :: r => r.foldl (fun acc x => (acc.zip x).map fun (u, w) => u ++ w) a

/-- Does a commit change a setting that ends a trace group, or disable the view, after time a and up to t (05 R144)? -/
def traceCut (s : State) (v a t : Nat) : Bool :=
  let ks := [Key.viewTimeDecim v, Key.viewDetector v, Key.viewBinDecim v, Key.viewBinFirst v, Key.viewBinCount v, Key.viewFormat v, Key.viewWindow v,
    Key.viewWindowParam v, Key.viewWindowUser v]
  (ks.flatMap fun k => s.writesOf k).any (fun T => decide (a < T ∧ T ≤ t) && s.traceCfg v T != s.traceCfg v (T - 1)) ||
    (s.writesOf (Key.viewEnable v)).any fun T => decide (a < T ∧ T ≤ t) && !s.flagAt (Key.viewEnable v) T

/-- Delivers the trace group in progress (05 R144). -/
def closeTrace (s : State) (v p : Nat) (early : Bool) : State :=
  let x := s.viewPort v p
  match x.group with
  | none => s
  | some g =>
    let dt := g.cfg.getD 0 1
    let det := g.cfg.getD 1 0
    let format := g.cfg.getD 5 0
    let fl := g.flags ||| (if g.gap then flagGap + flagPartial else 0) ||| (if early || g.frames.length < dt then flagPartial else 0)
    let words := (pointValues (g.cfg.getD 2 1) g.frames).map fun vs => detect det vs ((g.frames.head?.map (·.sw)).getD 0)
    let tr : Trace := { k := g.k, t := g.t, stop := g.last, count := g.frames.length, epoch := g.epoch, flags := fl, words := words }
    let s1 := s.putViewPort v p { x with group := none, traces := x.traces ++ [tr] }
    if format = 1 then s1
    else s1.publishView v p (viewHeader v p 0 fl g.epoch det g.t 0 g.k words.length ++ wordPayload words) 0 fl g.t

/-- A frame index reaches the time detector: a computed frame, or one that was not (gap: for a gap or a suspension) (05 R144). -/
def traceStep (s : State) (v p k : Nat) (t : KTime) (epoch : Nat) (frame : Option Frame) (gap : Bool) : State :=
  let cfg := s.traceCfg v t
  let dt := max 1 (cfg.getD 0 1)
  let x0 := s.viewPort v p
  let s1 := match x0.group with
    | some g => if g.cfg ≠ cfg ∨ s.traceCut v g.last t then (let y := s.closeTrace v p true; y.putViewPort v p { y.viewPort v p with groupStart := k })
                else if g.stop ≤ k then s.closeTrace v p false else s
    | none => s
  let x := s1.viewPort v p
  let start := if x.groupStart + dt ≤ k then x.groupStart + (k - x.groupStart) / dt * dt else x.groupStart
  let g := x.group.getD { cfg := cfg, k := k, t := t, epoch := epoch, stop := start + dt }
  let g1 := match frame with
    | some f => { g with last := t, frames := g.frames ++ [f], flags := g.flags ||| f.flags }
    | none => { g with last := t, gap := g.gap || gap }
  let s2 := s1.putViewPort v p { x with groupStart := if g.stop ≤ k + 1 then g.stop else start, group := some g1 }
  if g.stop ≤ k + 1 then s2.closeTrace v p false else s2

/-! ### Runs of frames and suspension markers (05 R132; 01 R29 to R32) -/

/-- The runs of degraded frames of a view on a port at one more frame: a marker with STREAM 2 for each run and cause (01 R29 to R31). -/
def viewRuns (s : State) (v p deg calPier t : Nat) : State :=
  (List.range 3).foldl (fun x b =>
    x.runStep (fun y => tabGet {} (y.viewPort v p).degRuns b) (fun y r => y.putViewPort v p { y.viewPort v p with degRuns := tabSet {} (y.viewPort v p).degRuns b r })
      (bit deg b) t (if b = 0 then calPier else 0xFF) (degCause b) p 2 v) s

/-- Ends the run of frames not computed for a gap: one marker with STREAM 2 (05 R132). -/
def endViewRun (s : State) (v p : Nat) : State :=
  let x := s.viewPort v p
  match x.run with
  | none => s
  | some (cause, pier, first, n) => (s.issueMarker cause p pier 2 first v n).putViewPort v p { x with run := none }

/-- One more frame not computed for a gap. -/
def viewGap (s : State) (v p cause pier t : Nat) : State :=
  match (s.viewPort v p).run with
  | some (c, q, first, n) =>
    if c = cause ∧ q = pier then s.putViewPort v p { s.viewPort v p with run := some (c, q, first, n + 1) }
    else let s1 := s.endViewRun v p; s1.putViewPort v p { s1.viewPort v p with run := some (cause, pier, t, 1) }
  | none => s.putViewPort v p { s.viewPort v p with run := some (cause, pier, t, 1) }

/-- The suspension of a view ends on a port: one VIEW_SUSPENDED marker for the frames not produced (01 R32). -/
def endSuspension (s : State) (v p : Nat) : State :=
  let x := s.viewPort v p
  match x.skipped with
  | none => s
  | some (first, n) => (s.issueMarker causeViewSuspended p 0xFF 2 first v n).putViewPort v p { x with skipped := none }

/-! ### Delivery (05 R128, R132, R145) -/

/-- Delivers one finished frame: the trace detector, the frame's record, and the view's consumers (05 R140, R142 to R148). -/
def deliverFrame (s : State) (v p : Nat) (f : Frame) : State :=
  let format := s.objAt (Key.viewFormat v) f.t
  let x := s.viewPort v p
  let s0 := s.putViewPort v p { x with delivered := x.delivered ++ [f] }
  match f.skip with
  | some b => s0.traceStep v p f.k f.t f.epoch none b
  | none =>
  match f.gap with
  | some (cause, pier) =>
    let s1 := ((s0.bump (Key.viewGaps v)).viewRuns v p 0 0xFF f.t).viewGap v p cause pier f.t
    let s2 := if format = 0 then s1 else s1.publishView v p (viewHeader v p 1 flagGap f.epoch 0xFF f.t 0 f.k 0) 1 flagGap f.t
    s2.traceStep v p f.k f.t f.epoch none true
  | none =>
    let s1 := (((s0.endViewRun v p).viewRuns v p f.deg f.calPier f.t).bump (Key.viewFrames v)).setObj (Key.viewLast v) f.t
    let s2 := if format = 0 then s1
      else s1.publishView v p (viewHeader v p 1 f.flags f.epoch 0xFF f.t f.e f.k f.bins.length ++ bfpPayload f.e f.bins) 1 f.flags f.t
    s2.traceStep v p f.k f.t f.epoch (some f) false

/-- Delivers the finished frames at the front of the view's buffer, in ascending frame time (05 R128). -/
def deliverReady (s : State) (v p : Nat) : Nat → State
  | 0 => s
  | fuel + 1 =>
    let x := s.viewPort v p
    match x.frames with
    | [] => s
    | f :: r => if f.done then deliverReady ((s.putViewPort v p { x with frames := r }).deliverFrame v p f) v p fuel else s

/-! ### Forming frames (05 R131, R132) -/

/-- Has port p taken every sample that could reset or start it at or before te, so that its anchor events up to then are all noted? -/
def eventsKnown (s : State) (p te : Nat) : Bool :=
  let g := (s.fe p).grid
  if g.started then decide (te ≤ g.prev) else
  match g.inputs.getLast?, s.queue p with
  | some it, _ => decide (te < it.t.floor)
  | none, it :: _ => decide (te < it.t.floor)
  | none, [] => (s.portTurns p true).all fun T => te < T || (tabGet [] s.ing.overEras p).contains T ||
      (let k := s.objAt (Key.portLink p) T
       let c := s.link k
       let l := s.linkSt k
       decide (te < (c.sampleTime (if l.released then l.next - 1 else c.edgeFrom (s.time - c.rbd * tick)) 0).floor))

/-- Are the anchor events of a view up to te known, on every port of its block then (05 R133)? -/
def viewEventsKnown (s : State) (v te : Nat) : Bool :=
  (List.range (s.objAt (Key.viewPortCount v) te)).all fun i => s.eventsKnown (s.objAt (Key.viewPortFirst v) te + i) te

/-- Starts the grid of a view on a port at an anchor (05 R131, R133, R144). -/
def regrid (s : State) (v p anchor : Nat) (te : KTime) : State :=
  let s1 := s.closeTrace v p true
  let x := s1.viewPort v p
  let fe := ((s1.feOuts p)[anchor]?).map (·.epoch)
  s1.putViewPort v p { x with started := true, anchor := anchor, te := te, feEpoch := fe.getD 0, size := s1.objAt (Key.viewSize v) te, hop := s1.objAt (Key.viewHop v) te, offset := s1.objAt (Key.viewOffset v) te, epoch := s1.viewEpochAt v te, k := 0, groupStart := 0 }

/-- Flags of a frame from its samples (05 R132): settling, overload, filling, and degraded. -/
def frameFlags (xs : List FeOut) : Nat :=
  (if xs.any fun o => o.deg != 0 then flagDegraded else 0) + (if xs.any fun o => bit o.flags 1 then flagSettling else 0) +
    (if xs.any fun o => bit o.flags 0 then flagOverload else 0) + (if xs.any fun o => bit o.flags 2 then flagFilling else 0)

/-- What became of the next frame of a view on a port. -/
inductive NextFrame where
  /-- Not all its samples are there. -/
  | waiting
  /-- Passed over, a re-anchoring, or a GAP header: the state goes on. -/
  | passed (s : State)
  /-- A frame to compute. -/
  | ready (s : State) (f : Frame)

/-- The view leaves the port before its next frame index, because it is disabled or the port's stream has ended: its runs, a suspension and a trace group end,
and the next group starts at that index (05 R132, R144; 01 R28 to R32). -/
def viewLeaves (s : State) (v p : Nat) : State :=
  let x := s.viewPort v p
  let s1 := (((s.putViewPort v p { x with active := false }).endViewRun v p).viewRuns v p 0 0xFF 0).endSuspension v p
  let s2 := s1.closeTrace v p true
  s2.putViewPort v p { s2.viewPort v p with groupStart := x.k }

/-- The view takes no more of the port for now; without a frame in its buffer it leaves it. -/
def leaveOr (s : State) (v p : Nat) (x : ViewPort) (other : NextFrame) : NextFrame :=
  if !x.active then other else if x.frames.isEmpty then .passed (s.viewLeaves v p) else .waiting

/-- The frame whose first sample is at place i0. -/
def frameAt (s : State) (v p : Nat) (x : ViewPort) (outs : List FeOut) (i0 : Nat) : NextFrame :=
  let s1 := s.putViewPort v p { x with k := x.k + 1 }
  let g := (s.fe p).grid
  let atEnd := !g.started && g.epoch == x.feEpoch
  match outs[i0]? with
  | none => if atEnd then s.leaveOr v p x .waiting else .waiting
  | some first =>
  let t := first.t
  if !s.viewTakes v p t then s.leaveOr v p x (.passed s1)
  else if outs.length < i0 + x.size then (if atEnd then s.leaveOr v p x .waiting else .waiting)
  else
    let xs := (outs.drop i0).take x.size
    let f : Frame := { k := x.k, t := t, epoch := x.epoch, start := i0, size := x.size, deg := xs.foldl (fun a o => a ||| o.deg) 0,
                       calPier := ((xs.find? fun o => bit o.deg 0).map (·.calPier)).getD 0xFF }
    let put (y : State) (g : Frame) : State :=
      y.putViewPort v p { y.viewPort v p with active := true, frames := (y.viewPort v p).frames ++ [{ g with done := true }] }
    if s.flag (Key.viewSuspended v) || (x.skipped.isSome && decide (t < tabGet 0 s.views.resumed v)) then
      let sk := match x.skipped with | some (f0, n) => some (f0, n + 1) | none => some (t, 1)
      .passed ((put (s1.putViewPort v p { s1.viewPort v p with skipped := sk }) { f with skip := some true }).deliverReady v p 64)
    else
      let s2 := s1.endSuspension v p
      if xs.any fun o => bit o.flags 3 then .passed ((put s2 { f with skip := some false }).deliverReady v p 64)
      else match xs.findSome? fun o => o.gap with
        | some g => .passed ((put s2 { f with gap := some g, flags := flagGap }).deliverReady v p 64)
        | none => .ready (s2.putViewPort v p { s2.viewPort v p with active := true }) { f with flags := frameFlags xs }

/-- The next frame index of a view on a port (05 R131 to R133; 01 R32). A grid starts once the anchor events of the view up to its own are known, so that its
epoch does not depend on which port is processed first. -/
def nextFrame (s : State) (v p : Nat) : NextFrame :=
  let x := s.viewPort v p
  let outs := s.feOuts p
  if !x.started then
    (match outs with
    | [] => .waiting
    | o :: _ => if s.viewEventsKnown v o.te then .passed (s.regrid v p 0 o.te) else .waiting)
  else
  let i0 := x.anchor + x.offset + x.k * x.hop
  match s.nextAnchor v p with
  | some (a, te) =>
    if i0 + x.size ≤ a then s.frameAt v p x outs i0
    else if x.frames.isEmpty ∧ s.viewEventsKnown v te then
      (let restart := (outs[a]?).map (·.first) != (outs[x.anchor]?).map (·.first)
       if restart then s.leaveOr v p x (.passed (s.regrid v p a te)) else .passed (s.regrid v p a te))
    else .waiting
  | none => s.frameAt v p x outs i0

/-- Passes over frame indexes that need no girder, until a frame is ready or its samples are missing. -/
def passFrames (s : State) (v p : Nat) : Nat → State × Option (State × Frame)
  | 0 => (s, none)
  | fuel + 1 =>
    match s.nextFrame v p with
    | .waiting => (s, none)
    | .passed s1 => passFrames s1 v p fuel
    | .ready s1 f => (s, some (s1, f))

/-- The result of a frame: its windowed transform, selected bins and the clamps counted (05 R136 to R142). -/
def computeFrame (s : State) (v p : Nat) (f : Frame) : Frame × Nat :=
  let xs := ((s.feOuts p).drop f.start).take f.size
  let u := s.viewWindowAt v f.t
  let (w, clips) := windowFrame (xs.map fun o => (o.i, o.q)) u
  let (y, e) := transform f.size w
  let bins := selectBins f.size (s.objAt (Key.viewBinFirst v) f.t) (s.objAt (Key.viewBinCount v) f.t) y
  let deg := f.deg ||| s.degradedNow
  let fl := f.flags ||| (if deg = 0 then 0 else flagDegraded)
  ({ f with done := true, girders := [], deg := deg, e := e, bins := bins, sw := u.foldl (· + ·) 0, flags := if clips = 0 then fl else fl ||| flagOverload }, clips)

end State

end Sys2Proof.Machine
end

