-- ==== Sys2Proof/Machine/Admission.lean ====
section
/-! DEFINITION. Admission: what each committed unit charges, the limits, suspension of views, and the group's resource rows (01 R32, R37 to
R39; 05 R129, R154, R155; 06 R182; 07 R200; 10 R290; 11 R295; 12 R335; 15 R425; 16 R442). v gives the value of an object in the
configuration judged. -/

namespace Sys2Proof.Machine

/-- Units of an index range whose enable (subindex 01) is set in a configuration. -/
def unitsOn (v : Nat → Nat) (base n : Nat) : List Nat := (List.range n).filter fun u => v ((base + u) * 256 + 1) != 0

/-- f_out of a port in samples per second (04 R111). -/
def foutOf (v : Nat → Nat) (p : Nat) : Rat :=
  let k := v (Key.portLink p)
  let ns := v (Key.linkS k) * v (Key.linkE k) * 256 / max 1 (v (Key.linkF k))
  let rate := v (Key.pierRate (fieldAt (v (Key.linkLanes k)) 0 1 / 8))
  let den := (if v (Key.portKind p) = 0 then 2 else 1) * (v (Key.linkE k) * 844800000) * max 1 (v (Key.feDecim p))
  ((400000000 * ns * rate : Nat) : Rat) / ((max 1 den : Nat) : Rat)

/-- The ports of a view's block. -/
def viewBlock (v : Nat → Nat) (w : Nat) : List Nat := (List.range (v (Key.viewPortCount w))).map fun i => v (Key.viewPortFirst w) + i

/-! ### Girders and Deck SRAM (05 R129, R154, R155) -/

/-- 8 κ(N) (05 Table 5-4). -/
def kappa8 (n : Nat) : Nat := if n ≤ 65536 then 8 else if n ≤ 262144 then 9 else 10

/-- C(B) in samples per second (05 R154). -/
def girderRate (budget : Nat) : Nat := 32000000 * (min budget 220 - 20)

/-- The cost of a view in girders at a budget (05 R154). -/
def viewCostOf (v : Nat → Nat) (w budget : Nat) : Rat :=
  let n := v (Key.viewSize w)
  let perHop : Rat := ((n * kappa8 n + 128 : Nat) : Rat) / ((8 * girderRate budget * max 1 (v (Key.viewHop w)) : Nat) : Rat)
  (viewBlock v w).foldl (fun a p => a + foutOf v p * perHop) 0

/-- Deck SRAM charged (05 R129): one table per distinct computed window, user windows, frames above 65,536 points. -/
def deckSram (v : Nat → Nat) (views : List Nat) : Nat :=
  let computed := ((views.filter fun w => v (Key.viewWindow w) != 6).map fun w => (v (Key.viewWindow w), v (Key.viewWindowParam w), v (Key.viewSize w))).eraseDups
  computed.foldl (fun a x => a + 3 * (x.2.2 / 2 + 1)) 0 +
    views.foldl (fun a w => a + (if v (Key.viewWindow w) = 6 then 3 * v (Key.viewSize w) else 0) + (if 65536 < v (Key.viewSize w) then 12 * v (Key.viewSize w) else 0)) 0

/-! ### Products (06 R165, R182, Table 6-4) -/

/-- Points of a view's frame spectra (05 R143). -/
def viewPoints (v : Nat → Nat) (w : Nat) : Nat := v (Key.viewBinCount w) / max 1 (v (Key.viewBinDecim w))
/-- Nc of a map. -/
def densColumns (v : Nat → Nat) (m : Nat) : Nat := viewPoints v (v (Key.densView m)) / max 1 (v (Key.densColDecim m))
/-- Cells of a map. -/
def densCells (v : Nat → Nat) (m : Nat) : Nat := densColumns v m * v (Key.densRows m)
/-- Channels of a pair. -/
def xpChannels (v : Nat → Nat) (x : Nat) : Nat := v (Key.viewBinCount (v (Key.xpView x))) / max 1 (v (Key.xpChanDecim x))
/-- Channels of an integrator. -/
def intChannels (v : Nat → Nat) (i : Nat) : Nat := v (Key.viewBinCount (v (Key.intView i))) / max 1 (v (Key.intChanDecim i))
/-- P of an integrator in force (06 R178). -/
def intPhases (v : Nat → Nat) (i : Nat) : Nat := if v (Key.intSw i) = 0xFF then 1 else v (Key.swPhases (v (Key.intSw i)))
/-- P as admission and the ring check take it (06 R163, R182). -/
def intPhasesMax (v : Nat → Nat) (i : Nat) : Nat := if v (Key.intSw i) = 0xFF then 1 else 4
/-- Payload bytes of a dump record (06 R168, R174, R179), with P for an integrator. -/
def dumpPayload (v : Nat → Nat) (kind n phases : Nat) : Nat :=
  if kind = 1 then 4 * densCells v n else if kind = 2 then 16 * xpChannels v n else 8 * (phases + 1 + phases * intChannels v n)
/-- Frame rate of a view on a port. -/
def frameRate (v : Nat → Nat) (w p : Nat) : Rat := foutOf v p / ((max 1 (v (Key.viewHop w)) : Nat) : Rat)
/-- Times per second of an interval in ticks; 0 while it is off. -/
def perSecond (ticks : Nat) : Rat := if ticks = 0 then 0 else 400000000 / (ticks : Rat)

/-- Density updates per second (06 Table 6-4). -/
def densLoad (v : Nat → Nat) (m : Nat) : Rat :=
  frameRate v (v (Key.densView m)) (v (Key.densPort m)) * (viewPoints v (v (Key.densView m)) : Nat) +
    (densCells v m : Nat) * (perSecond (v (Key.densDecayInterval m)) + perSecond (v (Key.densDumpInterval m)))

/-- The four product charges: density SRAM, updates, accumulator SRAM, accumulations (06 Table 6-4). -/
def productCharges (v : Nat → Nat) : Nat × Rat × Nat × Rat :=
  let ms := unitsOn v 0x2A00 64
  let xs := unitsOn v 0x2B00 512
  let is := unitsOn v 0x2D00 256
  (ms.foldl (fun a m => a + 2 * densCells v m) 0, ms.foldl (fun a m => a + densLoad v m) 0,
   xs.foldl (fun a x => a + 32 * xpChannels v x) 0 + is.foldl (fun a i => a + 16 * intPhasesMax v i * intChannels v i) 0,
   xs.foldl (fun a x => a + frameRate v (v (Key.xpView x)) (v (Key.xpPort x)) * (v (Key.viewBinCount (v (Key.xpView x))) : Nat)) 0 +
     is.foldl (fun a i => a + frameRate v (v (Key.intView i)) (v (Key.intPort i)) * (v (Key.viewBinCount (v (Key.intView i))) : Nat)) 0)

/-! ### Memory bandwidth (10 R290) -/

/-- Bytes per second of the records that a view delivers for a port (05 R145 to R148). -/
def viewRecordRate (v : Nat → Nat) (w p : Nat) : Rat :=
  let f := v (Key.viewFormat w)
  let bins := v (Key.viewBinCount w)
  let r := frameRate v w p
  (if f = 0 then 0 else r * ((entryLen (32 + 104 * (bins / 16)) : Nat) : Rat)) +
    (if f = 1 then 0 else r / ((max 1 (v (Key.viewTimeDecim w)) : Nat) : Rat) * ((entryLen (32 + cdiv (2 * viewPoints v w) 8 * 8) : Nat) : Rat))
where
  /-- An entry of a host ring. -/
  entryLen (n : Nat) : Nat := pad64 (32 + n)

/-- The largest record of a view in bytes (05 R145). -/
def viewRecordMax (v : Nat → Nat) (w : Nat) : Nat :=
  let f := v (Key.viewFormat w)
  max (if f = 0 then 0 else 32 + 104 * (v (Key.viewBinCount w) / 16)) (if f = 1 then 0 else 32 + cdiv (2 * viewPoints v w) 8 * 8)

/-- The byte rate of a port's raw stream, or of its front-end stream (08 Table 8-6). -/
def streamRate (v : Nat → Nat) (fe : Bool) (p : Nat) : Rat :=
  if fe then foutOf v p * 8 else
  let k := v (Key.portLink p)
  let bytes := (if v (Key.portKind p) = 1 then 2 else 1) * (if v (Key.linkNp k) = 8 then 1 else 2)
  foutOf v p * ((max 1 (v (Key.feDecim p)) * (if v (Key.portKind p) = 0 then 2 else 1) * bytes : Nat) : Rat)

/-- The byte rate of the selected streams of the enabled ports (11 R295, R300). -/
def ringRateOf (v : Nat → Nat) : Rat :=
  ((List.range 1024).filter fun p => v (Key.portEnable p) != 0).foldl (fun a p =>
    a + (if bit (v Key.ringSelectRaw) p then streamRate v false p else 0) + (if bit (v Key.ringSelectFe) p then streamRate v true p else 0)) 0

/-- Frames per second of a display head (16 R430). -/
def headFrameRate (v : Nat → Nat) (h : Nat) : Rat :=
  let ht := v (Key.dispHActive h) + v (Key.dispHFront h) + v (Key.dispHSync h) + v (Key.dispHBack h)
  let vt := v (Key.dispVActive h) + v (Key.dispVFront h) + v (Key.dispVSync h) + v (Key.dispVBack h)
  ((v (Key.dispPclk h) : Nat) : Rat) / ((max 1 (ht * vt) : Nat) : Rat)

/-- The charge of a head: dst.h × src.w × element bytes × frame rate over its enabled layers (16 R442). Layer l of head h is unit
4h + l. -/
def headCharge (v : Nat → Nat) (h : Nat) : Rat :=
  ((List.range 3).filter fun l => v (Key.layEnable (4 * h + l)) != 0).foldl (fun a l =>
    a + headFrameRate v h * ((v (Key.layDstH (4 * h + l)) * v (Key.laySrcW (4 * h + l)) * (if l = 1 then 2 else 4) : Nat) : Rat)) 0

/-- Members marked in a merge group. -/
def mergeCount (v : Nat → Nat) (g : Nat) : Nat := ((List.range 512).filter fun a => bit (v (Key.mergeMembers g)) a).length

/-- The record bytes and dump interval of a merge group's product (15 R425). -/
def mergeRecord (v : Nat → Nat) (g : Nat) : Nat × Nat :=
  let k := v (Key.mergeKind g)
  let n := v (Key.mergeProduct g)
  (pad64 (64 + dumpPayload v k n (intPhasesMax v n)), if k = 1 then v (Key.densDumpInterval n) else if k = 2 then v (Key.xpDumpInterval n) else v (Key.intDumpInterval n))

/-- The merge load at this root in bytes per second (15 R425). -/
def mergeLoad (v : Nat → Nat) (node : Nat) : Rat :=
  ((unitsOn v 0x1640 32).filter fun g => v (Key.mergeRoot g) == node).foldl (fun a g =>
    a + ((mergeCount v g * (mergeRecord v g).1 : Nat) : Rat) * perSecond (mergeRecord v g).2) 0

/-- D_rt (10 R290; notes/assumptions/22.md): ring writers × 64/63, heads, view-fed rings, dump records (three times in accumulate mode), spectrogram
rows, merged records, the trigger log and the completion ring. -/
def memLoadOf (v : Nat → Nat) (node : Nat) : Rat :=
  let rings := (unitsOn v 0x1B40 64).filter fun n => v (Key.hrSource n) == 1
  let kinds : List (Nat × List Nat) := [(1, unitsOn v 0x2A00 64), (2, unitsOn v 0x2B00 512), (3, unitsOn v 0x2D00 256)]
  let interval (k n : Nat) : Nat := if k = 1 then v (Key.densDumpInterval n) else if k = 2 then v (Key.xpDumpInterval n) else v (Key.intDumpInterval n)
  ringRateOf v * 64 / 63 +
    (unitsOn v 0x1800 2).foldl (fun a h => a + headCharge v h) 0 +
    rings.foldl (fun a n =>
      let w := v (Key.hrView n)
      a + ((viewBlock v w).filter fun p => v (Key.hrPort n) == 0xFFFF || v (Key.hrPort n) == p).foldl (fun b p => b + viewRecordRate v w p) 0) 0 +
    kinds.foldl (fun a (k, ns) => ns.foldl (fun b n =>
      b + ((pad64 (64 + dumpPayload v k n (intPhases v n)) + (if k = 1 ∧ v (Key.densMode n) = 1 then 8 * densCells v n else 0) : Nat) : Rat) * perSecond (interval k n)) a) 0 +
    (unitsOn v 0x2A40 64).foldl (fun a g =>
      let w := v (Key.spgView g)
      a + frameRate v w (v (Key.spgPort g)) / ((max 1 (v (Key.viewTimeDecim w)) : Nat) : Rat) * ((pad64 (2 * viewPoints v w) + 64 : Nat) : Rat)) 0 +
    ((unitsOn v 0x1640 32).filter fun g => v (Key.mergeRoot g) == node).foldl (fun a g => a + ((mergeRecord v g).1 : Rat) * perSecond (mergeRecord v g).2) 0 +
    ((if v Key.trigLogEnable = 0 then 0 else Config.trigLogRate : Nat) : Rat) +
    ((if v Key.acqDoneSize = 0 ∨ (unitsOn v 0x3000 1024).isEmpty then 0 else Config.completionRate (unitsOn v 0x3000 1024) : Nat) : Rat)

/-- 0.65 × P in bytes per second (10 R270, R290). -/
def memLimitOf (channels rate : Nat) : Nat := 65 * channels * rate * 1000000 * 8 / 100

/-! ### Masks (07 R200) -/

def maskSram (v : Nat → Nat) : Nat := (unitsOn v 0x3400 256).foldl (fun a m => a + 4 * v (Key.maskPoints m)) 0
def maskLoad (v : Nat → Nat) : Rat :=
  (unitsOn v 0x3400 256).foldl (fun a m => a + frameRate v (v (Key.maskView m)) (v (Key.maskPort m)) * ((v (Key.maskPoints m) : Nat) : Rat)) 0

/-! ### The checks -/

/-- Does a load in girders pass at a number of girders (05 R155)? -/
def girdersPass (load : Rat) (girders : Nat) : Bool := decide (load * 100 ≤ ((94 * girders : Nat) : Rat))

namespace State

/-- The enabled views that the girder check counts: not suspended, or written by the group, or by a pending one whose T comes no later, which ends the suspension
(05 R155; 01 R32, R34). -/
def countedViews (s : State) (v : Nat → Nat) (written : Nat → Bool) : List Nat :=
  (unitsOn v 0x2800 512).filter fun w => !s.flag (Key.viewSuspended w) || written w

/-- The sum of view costs at a budget. -/
def girderLoad (v : Nat → Nat) (views : List Nat) (budget : Nat) : Rat := views.foldl (fun a w => a + viewCostOf v w budget) 0

/-- B_eff, the effective budget (17 R452), at which admission is repeated (17 R457). -/
def budget (s : State) : Nat := min (s.obj Key.tolBudget) s.toll.limit

/-- Girders in service. -/
def girdersInService (s : State) : Nat := s.obj Key.deckGirdersService

/-- The real-time limit with the channels in service. -/
def memLimit (s : State) : Nat := memLimitOf (s.obj Key.memService) (s.obj Key.memSpeed)

/-- The speed-dependent checks at a budget: the girder check (05 R155). -/
def deckPasses (s : State) (v : Nat → Nat) (views : List Nat) (budget : Nat) : Bool := girdersPass (girderLoad v views budget) s.girdersInService

/-- The checks that no budget changes: product, mask and memory resources (06 R182; 07 R200; 10 R290; 15 R425). -/
def fixedPasses (s : State) (v : Nat → Nat) : Bool :=
  let (ds, dl, as, al) := productCharges v
  decide (ds ≤ 33554432) && decide (dl ≤ 96256000000) && decide (as ≤ 67108864) && decide (al ≤ 96256000000) &&
    decide (maskSram v ≤ 16777216) && decide (maskLoad v ≤ 48128000000) && decide (memLoadOf v (s.obj Key.spanNode) ≤ (s.memLimit : Nat))

/-- Does the committed configuration pass against the resources in service, with no view suspended (01 R17)? -/
def admittedNow (s : State) : Bool :=
  let views := unitsOn s.obj 0x2800 512
  views.all (fun w => !s.flag (Key.viewSuspended w)) && s.deckPasses s.obj views s.budget && s.fixedPasses s.obj

/-- Do the views that are not suspended pass admission against the resources in service: the girders and the real-time memory path (01 R32, R39; 10
R287)? -/
def remainingPass (s : State) : Bool :=
  s.deckPasses s.obj (s.countedViews s.obj fun _ => false) s.budget && decide (memLoadOf s.obj (s.obj Key.spanNode) ≤ (s.memLimit : Nat))

/-- Suspends views in descending number until the rest pass (01 R32). -/
def suspendViews (s : State) : List Nat → State
  | [] => s
  | w :: r =>
    if s.remainingPass then s
    else if s.flag (Key.viewSuspended w) then suspendViews s r
    else suspendViews (s.setObj (Key.viewSuspended w) 1) r

/-- Millionths, rounded up or down. -/
def millionUp (x : Rat) : Nat := ⌈x * 1000000⌉.toNat

/-- The reported figures: view.cost and deck.load at the committed budget, deck.limit, deck.sram.used, product and memory loads (05 R154, R155, Tables 5-6, 5-7; 06
Table 6-10; 10 Table 10-7). A view that no group has written stays at its default. -/
def refreshLoads (s : State) : State :=
  let b := s.obj Key.tolBudget
  let views := unitsOn s.obj 0x2800 512
  let shown := ((s.dict.filter fun e => 0x280000 ≤ e.1 && e.1 < 0x2A0000).map fun e => e.1 / 256 - 0x2800).eraseDups
  let s1 := shown.foldl (fun x w => x.setObj (Key.viewCost w) (millionUp (viewCostOf s.obj w b))) s
  let s2 := ((s1.setObj Key.deckLoad (millionUp (girderLoad s.obj (s.countedViews s.obj fun _ => false) b))).setObj Key.deckLimit (940000 * s.girdersInService)).setObj Key.deckSramUsed (deckSram s.obj views)
  let (ds, dl, as, al) := productCharges s.obj
  let s3 := (((s2.setObj Key.prodDensSram ds).setObj Key.prodDensLoad ⌊dl / 1000⌋.toNat).setObj Key.prodAccSram as).setObj Key.prodAccLoad ⌊al / 1000⌋.toNat
  ((s3.setObj Key.memRtLoad ⌊memLoadOf s.obj (s.obj Key.spanNode)⌋.toNat).setObj Key.memRtLimit s.memLimit)

/-- Brings ADMITTED up to date (01 R17). -/
def refreshAdmitted (s : State) : State := let s1 := s.refreshLoads; s1.setPromise 0 s1.admittedNow

/-- Does spare truss capacity cover every port in use (15 R420)? -/
def trussCovers (s : State) : Bool :=
  (List.range 4).all fun p => !(s.trussUp p || s.obj (Key.trussState p) == 5) || s.obj (Key.trussLanes p) == 4 || (s.obj (Key.trussLanes p) == 3 && (s.trussPort p).joining.isSome)

/-- SPARES_COVER (01 R17; 05 R153; 10 R287; 15 R420). -/
def refreshSpares (s : State) : State :=
  s.setPromise 3 (s.obj Key.deckGirdersService == 64 && decide (s.obj Key.memFreezes ≤ 2) && decide (memLoadOf s.obj (s.obj Key.spanNode) ≤ (s.memLimit : Nat)) && s.trussCovers)

/-- An uncorrectable word in a data memory: an excursion of 400,000 ticks (18 R491). -/
def dataMemoryUe (s : State) : State :=
  let s1 := s.bump Key.svcSramUe
  (s1.withCond { s1.cond with excursionUntil := some (s1.wall + 400000) }).refreshConditions

/-- Admission repeated when the resources in service change (01 R32, R39). -/
def readmit (s : State) : State := (s.suspendViews (unitsOn s.obj 0x2800 512).reverse).refreshAdmitted

end State

end Sys2Proof.Machine
end

