-- ==== Sys2Proof/Machine/Deck.lean ====
section
/-! DEFINITION. Girders: dispatch, checks, timeouts, spares and retirement; the views' commit effects and group rules (05 R126 to R133, R150
to R156, R524). -/

namespace Sys2Proof.Machine

/-- girder.state values (05 Table 5-7). -/
def girderSpare : Nat := 0
def girderInService : Nat := 1
def girderCalibrating : Nat := 2
def girderRetired : Nat := 3

/-- Girders of a frame's gang (05 R127). -/
def gangSize (n : Nat) : Nat := if n ≤ 65536 then 1 else n / 65536

/-- The time limit of a frame in ticks (05 R150): 8,000 plus 4 N κ / (g × 6.4 GS/s), rounded up. -/
def frameLimit (n : Nat) : Nat := 8000 + cdiv (n * kappa8 n) (32 * gangSize n)

namespace State

def girder (s : State) (g : Nat) : Girder := tabGet {} s.girders g
def putGirder (s : State) (g : Nat) (x : Girder) : State := s.withGirders (tabSet {} s.girders g x)

/-- The view and port whose buffer holds a frame that runs on the girder. -/
def girderWork (s : State) (g : Nat) : Option (Nat × Nat × Frame) :=
  s.views.ports.findSome? fun (i, x) => (x.frames.find? fun f => f.girders.contains g).map fun f => (i / 1024, i % 1024, f)

/-- Changes a frame in a view's buffer, named by its epoch and index. -/
def updFrame (s : State) (v p : Nat) (f : Frame) : State :=
  let x := s.viewPort v p
  s.putViewPort v p { x with frames := x.frames.map fun y => if y.k = f.k ∧ y.epoch = f.epoch ∧ y.start = f.start then f else y }

/-- Is the girder free to take a frame? -/
def girderFree (s : State) (g : Nat) : Bool :=
  s.obj (Key.girderState g) == girderInService && !(s.girder g).coming && (s.girderWork g).isNone

/-- The lowest-numbered free spare (05 R151). -/
def freeSpare (s : State) : Option Nat := (List.range 68).find? fun g => s.obj (Key.girderState g) == girderSpare

/-- deck.girders.service and deck.spares.free. -/
def countGirders (s : State) : State :=
  let n (st : Nat) := ((List.range 68).filter fun g => s.obj (Key.girderState g) == st).length
  (s.setObj Key.deckGirdersService (n girderInService)).setObj Key.deckSparesFree (n girderSpare)

/-- A spare comes into service; it takes frames once it is ready (05 R151). -/
def bringSpare (s : State) (g : Nat) : State := (s.putGirder g { s.girder g with coming := true }).setObj (Key.girderState g) girderInService

/-- The frames that a girder runs run again on other girders (05 R150, R524). -/
def rerunFrames (s : State) (g : Nat) : State :=
  match s.girderWork g with
  | some (v, p, f) => s.updFrame v p { f with girders := [], failedOn := f.girders }
  | none => s

/-- Retires a girder: a spare takes its place, or the Deck goes on with fewer girders and admission is repeated (05 R151, R153). -/
def retireGirder (s : State) (g : Nat) : State :=
  let s1 := ((s.rerunFrames g).setObj (Key.girderState g) girderRetired).raiseEvent 3
  match s1.freeSpare with
  | some x => (s1.bringSpare x).countGirders
  | none => (s1.countGirders.refreshSpares).readmit

/-- A frame failed on a girder: its results are discarded, the failure counted, and it runs again, on girders that did not run it (05 R150). -/
def failFrame (s : State) (v p : Nat) (f : Frame) (g : Nat) : State := (s.updFrame v p { f with girders := [], failedOn := f.girders }).bump (Key.girderFaults g)

end State

/-- A frame of the view on the port whose samples are all there starts on free girders; frames that ran on a failed girder start again first, on others;
frames that need no girder are passed over (05 R128, R131, R132, R150; 01 R20). -/
def execFrameDispatch (view : Fin 512) (port : Fin 1024) (girders : List (Fin 68)) (s : State) : Out :=
  let v := view.val
  let p := port.val
  let gs := girders.map (·.val)
  if s.deckHeld then .next s else
  let free := gs.all (fun g => s.girderFree g) && gs.eraseDups.length == gs.length
  match (s.viewPort v p).frames.find? fun f => !f.done && f.girders.isEmpty with
  | some f =>
    if free ∧ gs.length = gangSize f.size ∧ gs.all (fun g => !f.failedOn.contains g) then .next (s.updFrame v p { f with girders := gs, startedAt := s.wall }) else .next s
  | none =>
    let (s1, r) := s.passFrames v p 4096
    match r with
    | none => .next s1
    | some (s2, f) =>
      if free ∧ gs.length = gangSize f.size then
        .next (s2.putViewPort v p { s2.viewPort v p with frames := (s2.viewPort v p).frames ++ [{ f with girders := gs, startedAt := s2.wall }] })
      else .next s1

/-- A girder finishes its frame. A failed residue check fails the frame, and the second within 4,000,000,000 ticks retires the girder;
otherwise the results go to the view, which delivers in ascending frame time (05 R128, R150, R151; 18 R491). -/
def execFrameComplete (girder : Fin 68) (checkOk memoryUe : Bool) (s : State) : Out :=
  if s.deckHeld then .next s else
  let g := girder.val
  match s.girderWork g with
  | none => .next s
  | some (v, p, f) =>
    if !checkOk then
      let last := (s.girder g).failedAt
      let s1 := s.failFrame v p f g
      if last ≠ 0 ∧ s.wall ≤ last - 1 + 4000000000 then .next (s1.retireGirder g)
      else .next (s1.putGirder g { s1.girder g with failedAt := s.wall + 1 })
    else
      let s0 := if memoryUe then s.dataMemoryUe else s
      let (r, clips) := s0.computeFrame v p f
      let r1 := if memoryUe then { r with flags := r.flags ||| flagDegraded } else r
      .next (((s0.updFrame v p r1).addObj (Key.viewClipCount v) clips).deliverReady v p 4096)

/-- A frame not delivered within its limit fails, and its girder is retired (05 R150, R151). -/
def execGirderTimeout (girder : Fin 68) (s : State) : Out :=
  let g := girder.val
  match s.girderWork g with
  | none => .next s
  | some (v, p, f) => if s.wall < f.startedAt + frameLimit f.size then .next s else .next ((s.failFrame v p f g).retireGirder g)

/-- A spare brought into service is ready to take frames (05 R151). -/
def execSpareReady (girder : Fin 68) (s : State) : Out :=
  .next (s.putGirder girder.val { s.girder girder.val with coming := false })

/-- girder.retire (05 R524): ALREADY when retired; STATE when spare or calibrating or while no spare is free. -/
def immGirderRetire (g : Nat) (s : State) : Code × State :=
  let st := s.obj (Key.girderState g)
  if st = girderRetired then (Res.already, s)
  else if st = girderInService ∧ s.freeSpare.isSome then (Res.done, s.retireGirder g)
  else (Res.state, s)

/-- girder.retire acts on receipt (05 R524). -/
def execGirderRetire (girder : Fin 68) (s : State) : Out := .next (s.act (immGirderRetire girder.val))

/-! ### Commit effects and rules of chapter 05 -/

/-- Effects of a commit on views: re-anchoring by a change of N, H or o, and the end of a suspension (05 R131, R133; 01 R32). -/
def commitViews (s : State) (g : Group) (old : Nat → Nat) : State :=
  (g.units 0x2800 512).foldl (fun x v =>
    let moved := [Key.viewSize v, Key.viewHop v, Key.viewOffset v].any fun k => x.obj k != old k
    let x2 := if moved then x.setObj (Key.viewEpoch v) (x.viewEpochAt v (max g.t x.time)) else x
    if x2.flag (Key.viewSuspended v) then
      (x2.withViews { x2.views with resumed := tabSet 0 x2.views.resumed v g.t }).setObj (Key.viewSuspended v) 0
    else x2) s

/-- Is N a power of two from 16 to 1,048,576? -/
def viewSizeOk (n : Nat) : Bool := (List.range 17).any fun q => n == 2 ^ (q + 4)

/-- Is a user window allowed (05 R135, Table 5-5)? -/
def userWindowOk (img n : Nat) : Bool :=
  decide (n ≤ 65536) && (List.range 65536).all (fun i => let u := toSigned 32 (fieldAt img (4 * i) 4); decide (-(2 ^ 17) ≤ u ∧ u ≤ 2 ^ 17)) &&
    decide (0 < (windowCoeffs 6 0 n img).foldl (· + ·) 0)

/-- The rows of Table 5-5 but the admission checks (05 R156). -/
def rulesViews (s : State) (g : Group) : Option Code :=
  let vs := g.units 0x2800 512
  let portsOff := g.hasRange 0x2000 0x23FF
  if vs.isEmpty && !portsOff then none else
  let v := s.staged g
  let old := s.before g
  let on := (List.range 512).filter fun w => v (Key.viewEnable w) != 0
  let judged := if portsOff then on else vs
  firstOf [
    eachOf vs (fun w => refuse ((g.has (Key.viewPortFirst w) || g.has (Key.viewPortCount w)) && old (Key.viewEnable w) != 0 && v (Key.viewEnable w) != 0) Res.state),
    eachOf judged (fun w => refuse (v (Key.viewEnable w) != 0 && (viewBlock v w).any fun p => p < 1024 && v (Key.portEnable p) == 0) Res.state),
    eachOf vs (fun w => refuse (!viewSizeOk (v (Key.viewSize w))) Res.range),
    eachOf vs (fun w => refuse (v (Key.viewHop w) == 0 || v (Key.viewSize w) < v (Key.viewHop w) || v (Key.viewHop w) ≤ v (Key.viewOffset w)) Res.range),
    eachOf vs (fun w => refuse (6 < v (Key.viewWindow w) || (v (Key.viewWindow w) == 4 && 40000 < v (Key.viewWindowParam w)) ||
      (v (Key.viewWindow w) == 5 && (v (Key.viewWindowParam w) < 50 || 500 < v (Key.viewWindowParam w)))) Res.range),
    eachOf vs (fun w => refuse (v (Key.viewWindow w) == 6 && !userWindowOk (v (Key.viewWindowUser w)) (v (Key.viewSize w))) Res.range),
    eachOf vs (fun w => refuse (v (Key.viewPortCount w) == 0 || 64 < v (Key.viewPortCount w) || 1024 < v (Key.viewPortFirst w) + v (Key.viewPortCount w)) Res.range),
    eachOf vs (fun w => refuse (v (Key.viewBinCount w) == 0 || v (Key.viewSize w) < v (Key.viewBinFirst w) + v (Key.viewBinCount w) ||
      v (Key.viewBinCount w) % max 1 (v (Key.viewBinDecim w)) != 0) Res.range),
    eachOf vs (fun w => refuse ((v (Key.viewFormat w) == 1 || v (Key.viewFormat w) == 2) && (v (Key.viewBinCount w) % 16 != 0 || 1 < v (Key.viewBinDecim w))) Res.range),
    eachOf vs (fun w => refuse (v (Key.viewBinDecim w) == 0 || 65536 < v (Key.viewBinDecim w) || v (Key.viewTimeDecim w) == 0 || 2 ^ 24 < v (Key.viewTimeDecim w)) Res.range),
    eachOf (if vs.isEmpty then [] else List.range 1024) (fun p => refuse (4 < (on.filter fun w => (viewBlock v w).contains p).length) Res.capacity)]

end Sys2Proof.Machine
end

