-- ==== Sys2Proof/Machine/Lists.lean ====
section
/-! DEFINITION. Sorting by insertion, for lists that a rule takes in an order. -/

namespace Sys2Proof.Machine

/-- Puts an element into an ordered list, after the elements it does not precede. -/
def insertBy {α : Type} (lt : α → α → Bool) (x : α) : List α → List α
  | [] => [x]
  | y :: r => if lt x y then x :: y :: r else y :: insertBy lt x r

/-- A list in ascending order; equal elements keep their order. -/
def sortBy {α : Type} (lt : α → α → Bool) (l : List α) : List α := l.foldl (fun a x => insertBy lt x a) []

end Sys2Proof.Machine
end

