-- ==== Sys2Proof/Machine/MoverOps.lean ====
section
/-! DEFINITION. Mover channels: their state word and the events that start them (12 R338, Tables 12-8 and 12-12). -/

namespace Sys2Proof.Machine

/-- MV_STATE.STATE values (12 Table 12-8). -/
def mvDisabled : Nat := 0
def mvIdle : Nat := 1
def mvRunning : Nat := 2
def mvStopped : Nat := 3
def mvHalted : Nat := 4
def mvBarrier : Nat := 5

namespace State

def mover (s : State) (m : Nat) : Mover := tabGet {} s.movers m
def putMover (s : State) (m : Nat) (x : Mover) : State := s.withMovers (tabSet {} s.movers m x)

/-- STATE of an enabled channel that is not HALTED and not in BARRIER: IDLE with no descriptor ready, else RUNNING with RUN set and STOPPED
without (12 R338; notes/assumptions/23.md). -/
def settleMover (s : State) (m : Nat) : State :=
  let x := s.mover m
  if x.state = mvDisabled ∨ x.state = mvHalted ∨ x.state = mvBarrier then s else
  s.putMover m { x with state := if x.head = x.tail then mvIdle else if x.run then mvRunning else mvStopped }

/-- One start event for a channel: MV_TAIL advances by 1, unless it would meet MV_HEAD (12 R338). -/
def startMover (s : State) (m : Nat) : State :=
  let x := s.mover m
  let t := (x.tail + 1) % max 1 (s.obj (Key.mvDescCount m))
  if t = x.head then s.bump (Key.mvStartOverruns m) else (s.putMover m { x with tail := t }).settleMover m

/-- An event of a start source reaches every enabled channel that names it (12 R338). -/
def moverEvent (s : State) (code : Nat) : State :=
  ((List.range 16).filter fun m => s.flag (Key.mvEnable m) && s.obj (Key.mvStartSource m) == code).foldl startMover s

end State

end Sys2Proof.Machine
end

