-- ==== Sys2Proof/Machine/MergeOps.lean ====
section
/-! DEFINITION. Product rings and the merging of product records (06 R163, R164; 15 R423, R424). -/

namespace Sys2Proof.Machine

/-- A product record's header (06 Table 6-2). -/
structure ProductHeader where
  kind : Nat
  flags : Nat
  product : Nat
  view : Nat := 0
  port : Nat := 0
  view2 : Nat := 0xFFFF
  port2 : Nat := 0xFFFF
  node : Nat
  phases : Nat := 0
  start : KTime
  stop : KTime
  dump : Nat
  frames : Nat
  payload : Nat
  shift : Nat := 0
  dim0 : Nat
  dim1 : Nat := 0
  deriving DecidableEq, Repr

/-- Its 64 bytes. -/
def ProductHeader.image (h : ProductHeader) : Bytes :=
  natLE 1 h.kind ++ natLE 1 h.flags ++ natLE 2 h.product ++ natLE 2 h.view ++ natLE 2 h.port ++ natLE 2 h.view2 ++ natLE 2 h.port2 ++
    natLE 2 h.node ++ natLE 1 h.phases ++ [0] ++ natLE 10 h.start ++ natLE 10 h.stop ++ natLE 8 h.dump ++ natLE 4 (min h.frames (2 ^ 32 - 1)) ++
    natLE 4 h.payload ++ natLE 4 h.shift ++ natLE 4 h.dim0 ++ natLE 4 h.dim1

/-- Bytes off to off + n of a record, as a number. -/
def recField (r : Bytes) (off n : Nat) : Nat := leNat ((r.drop off).take n)

/-- Replaces the bytes of a record from an offset. -/
def putField (r : Bytes) (off : Nat) (b : Bytes) : Bytes := r.take off ++ b ++ r.drop (off + b.length)

namespace State

/-- Writes a record to a product ring (06 R163): a KIND 0 header where the record does not fit before the end, the payload, then the
header. The result is the record's offset, the offset after it, and its padded length. -/
def ringRecord (s : State) (o : Owner) (base size place : Nat) (record : Bytes) : (Nat × Nat × Nat) × State :=
  let total := pad64 record.length
  let wraps := decide (size < place + total)
  let s1 := if wraps ∧ place + 64 ≤ size then s.memWrite o 2 (base + place) (zeros 64) else s
  let off := if wraps then 0 else place
  let s2 := (s1.memWrite o 2 (base + off + 64) (padTo (total - 64) (record.drop 64))).memWrite o 2 (base + off) (record.take 64)
  ((off, (off + total) % max 1 size, total), s2)

/-! ### Merging (15 R423, R424) -/

def merge (s : State) (g : Nat) : Merge := tabGet {} s.span.merges g
def putMerge (s : State) (g : Nat) (x : Merge) : State := s.withSpan { s.span with merges := tabSet {} s.span.merges g x }

/-- Splits an image into little-endian numbers of w bytes. -/
def cellsOf (w : Nat) : Nat → Bytes → List Nat
  | 0, _ => []
  | fuel + 1, b => if b.length < w then [] else leNat (b.take w) :: cellsOf w fuel (b.drop w)

/-- One cell of a later record added to the merged cell, and whether it saturated (15 R424). -/
def mergeCell (kind a b : Nat) : Nat × Bool :=
  if kind = 2 then
    let x := toSigned 64 a + toSigned 64 b
    let y := max (-(2 ^ 63)) (min (2 ^ 63 - 1) x)
    (ofSigned 64 y, decide (x ≠ y))
  else
    let top := if kind = 1 then 2 ^ 32 - 1 else 2 ^ 64 - 1
    (min (a + b) top, decide (top < a + b))

/-- Do a later record's END, PAYLOAD, DIM0, DIM1, SHIFT and PHASES equal the first's (15 R424)? -/
def mergeMatches (a b : Bytes) : Bool :=
  recField a 26 10 == recField b 26 10 && recField a 48 16 == recField b 48 16 && recField a 14 1 == recField b 14 1

/-- The merged payload of a kind and whether a cell saturated (15 R424). -/
def mergePayload (kind : Nat) (a b : Bytes) : Bytes × Bool :=
  let w := if kind = 1 then 4 else 8
  let cs := ((cellsOf w (a.length + 1) a).zip (cellsOf w (b.length + 1) b)).map fun (x, y) => mergeCell kind x y
  (cs.flatMap fun c => natLE w c.1, cs.any (·.2))

/-- The records of one interval merged in ascending node address, from the record merged so far (15 R424). -/
def mergeRecords (kind : Nat) (out : Bytes) (rest : List Bytes) : Bytes :=
  rest.foldl (fun out r =>
    let n := recField out 48 4
    let (pay, sat) := mergePayload kind ((out.drop 64).take n) ((r.drop 64).take n)
    let fl := recField out 1 1 ||| recField r 1 1 ||| (if sat then 64 else 0)
    putField (putField (putField out 1 (natLE 1 fl)) 44 (natLE 4 (min (recField out 44 4 + recField r 44 4) (2 ^ 32 - 1)))) 64 pay) out

/-- Merged records that memory has acknowledged: the write pointer passes them and the product event is raised (06 R163; 15 R424). -/
def mergeAcked (s : State) (g : Nat) : Nat → State
  | 0 => s
  | fuel + 1 =>
    let x := s.merge g
    match x.unacked with
    | [] => s
    | (off, total) :: r =>
      if s.outstandingIn (.merge g) (s.obj (Key.mergeRingBase g) + off) total then s else
      mergeAcked ((((s.putMerge g { x with unacked := r }).setObj (Key.mergeRingWptr g) ((off + total) % max 1 (s.obj (Key.mergeRingSize g)))).bump (Key.mergeRecords g)).raiseEvent 7) g fuel

/-- The members whose record a slot lacks. -/
def slotMissing (s : State) (g : Nat) (slot : MergeSlot) : List Nat :=
  (List.range 512).filter fun a => bit (s.obj (Key.mergeMembers g)) a && !slot.records.any fun r => r.1 == a

/-- Writes the merged record of a slot whose members have all come or are lost (15 R423, R424). -/
def mergeWrite (s : State) (g : Nat) (slot : MergeSlot) : State :=
  let short := !(s.slotMissing g slot).isEmpty
  let recs := sortBy (fun a b => decide (a.1 < b.1)) slot.records
  match recs with
  | [] => s
  | (_, first) :: rest =>
    let same := rest.filter fun r => mergeMatches first r.2
    let left := rest.length - same.length
    let body := first.take (64 + recField first 48 4)
    let merged := mergeRecords (s.obj (Key.mergeKind g)) body (same.map (·.2))
    let fl := recField merged 1 1 ||| (if short then 1 else 0)
    let x := s.merge g
    let s1 := (s.addObj (Key.mergeMismatch g) left).addObj (Key.mergeIncomplete g) (b2n short)
    let record := putField (putField (putField merged 1 (natLE 1 fl)) 12 (natLE 2 (s.obj Key.spanNode))) 36 (natLE 8 (s.obj (Key.mergeRecords g) + x.unacked.length))
    let ((off, next, total), s2) := s1.ringRecord (.merge g) (s.obj (Key.mergeRingBase g)) (s.obj (Key.mergeRingSize g)) x.next record
    let gone := (s.slotMissing g slot).map fun a => (slot.start, a)
    (s2.putMerge g { x with next := next, missed := x.missed ++ gone, unacked := x.unacked ++ [(off, total)] }).mergeAcked g 64

/-- Has every member that is not lost sent its record of the slot (15 R423)? -/
def slotFull (s : State) (g : Nat) (slot : MergeSlot) : Bool :=
  (List.range 512).all fun a => !bit (s.obj (Key.mergeMembers g)) a || s.nodeLost a || slot.records.any fun r => r.1 == a

/-- Writes every slot of a group that is full, in ascending START (15 R423). -/
def mergeSettle (s : State) (g : Nat) : State :=
  let full := sortBy (fun a b => decide (a.start < b.start)) ((s.merge g).slots.filter fun x => s.slotFull g x && !x.records.isEmpty)
  let s1 := s.putMerge g { s.merge g with slots := (s.merge g).slots.filter fun x => !full.contains x }
  full.foldl (fun y x => y.mergeWrite g x) s1

/-- A member's record arrives at the root; where the merged record of its START is written without it already, it is left out (15 R423: one merged
record per START). -/
def mergeArrive (s : State) (g node : Nat) (start : KTime) (record : Bytes) : State :=
  if !s.flag (Key.mergeEnable g) then s else
  let x := s.merge g
  if x.missed.contains (start, node) then s.putMerge g { x with missed := x.missed.erase (start, node) } else
  let add := if x.slots.any fun z => z.start == start then
      x.slots.map fun z => if z.start = start ∧ !z.records.any (fun r => r.1 == node) then { z with records := z.records ++ [(node, record)] } else z
    else x.slots ++ [{ start := start, records := [(node, record)] }]
  (s.putMerge g { x with slots := add }).mergeSettle g

/-- A member sends a record of a product to the root of every merge group that takes it; the root takes its own (15 R423). -/
def mergeSend (s : State) (kind n : Nat) (start : KTime) (record : Bytes) : State :=
  ((List.range 32).filter fun g => s.flag (Key.mergeEnable g) && s.obj (Key.mergeKind g) == kind && s.obj (Key.mergeProduct g) == n &&
      bit (s.obj (Key.mergeMembers g)) (s.obj Key.spanNode)).foldl (fun x g =>
    if x.obj (Key.mergeRoot g) = x.obj Key.spanNode then x.mergeArrive g (x.obj Key.spanNode) start record
    else
      let y := x.sendData (x.obj (Key.mergeRoot g)) 5 x.span.nextId (natBE 2 g ++ natBE 10 start ++ record)
      (y.withSpan { y.span with nextId := y.span.nextId + 1 })) s

end State

end Sys2Proof.Machine
end

