-- ==== Sys2Proof/Machine/Products.lean ====
section
/-! DEFINITION. Product builders: dump intervals, density maps, cross-power pairs, integrators (06 R158 to R169, R172 to R174, R177 to
R179), and the occupancy triggers of density maps (07 R201, R202). Kinds are 1 density, 2 pair, 3 integrator. -/

namespace Sys2Proof.Machine

/-- Base index of a kind (06 Table 6-1). -/
def prodBase (kind : Nat) : Nat := if kind = 1 then 0x2A00 else if kind = 2 then 0x2B00 else 0x2D00

/-- The object of a builder at a subindex (06 Tables 6-6 and 6-7). -/
def prodKey (kind n sub : Nat) : Nat := (prodBase kind + n) * 256 + sub

/-- How many builders a kind has (06 Table 6-1). -/
def prodCount (kind : Nat) : Nat := if kind = 1 then 64 else if kind = 2 then 512 else 256

/-- Start-source code of a builder's product event (12 Table 12-12). -/
def prodStart (kind n : Nat) : Nat := (if kind = 1 then 0x1000 else if kind = 2 then 0x3000 else 0x4000) + n

namespace State

def product (s : State) (k n : Nat) : Product := tabGet {} s.prods.items (1024 * k + n)
def putProduct (s : State) (k n : Nat) (x : Product) : State := s.withProds { s.prods with items := tabSet {} s.prods.items (1024 * k + n) x }

/-- The T of the last commit that turned an enable object on; 0 for none. -/
def lastEnable (s : State) (key : Nat) : KTime :=
  (s.undo.filter fun e => e.2.1 == key && e.2.2 == 0 && s.objAt key e.1 != 0).foldl (fun a e => max a e.1) 0

/-! ### Bindings and closes (06 R158, R161) -/

/-- The view and port a builder takes at a time; x of a pair. -/
def prodX (s : State) (k n t : Nat) : Nat × Nat := (s.objAt (prodKey k n 2) t, s.objAt (prodKey k n 3) t)
/-- View y and port y of a pair. -/
def prodY (s : State) (n t : Nat) : Nat × Nat := (s.objAt (Key.xpViewY n) t, s.objAt (Key.xpPortY n) t)

/-- The ports bound at a time. -/
def prodPorts (s : State) (k n t : Nat) : List Nat := (s.prodX k n t).2 :: (if k = 2 then [(s.prodY n t).2] else [])

/-- The object indexes whose writes close the interval, bound at a time (06 R161). -/
def prodWatch (s : State) (k n t : Nat) : List Nat :=
  let (v, p) := s.prodX k n t
  let sw := s.objAt (Key.intSw n) t
  [prodBase k + n, 0x2800 + v, 0x2400 + p] ++ (if k = 2 then let (w, q) := s.prodY n t; [0x2800 + w, 0x2400 + q] else []) ++
    (if k = 3 ∧ sw < 8 then [0x3610 + sw] else [])

/-- Times of close from a time on and not after now: writes of a watched object, synchronising resets and starts of a bound port, Keystone
steps (06 R161; 04 R523). -/
def closeTimes (s : State) (k n after : Nat) : List KTime :=
  let writes := (s.allWrites.filter fun w => after ≤ w.1 && w.1 ≤ s.time &&
    ((s.prodWatch k n w.1).contains (w.2 / 256) || (s.prodWatch k n (w.1 - 1)).contains (w.2 / 256))).map (·.1)
  let resets := ((s.fes.resets.map (·.1)).filter fun t => after ≤ t && t ≤ s.time &&
    (s.prodPorts k n t).any fun p => s.flagAt (Key.portEnable p) t && s.flagAt (Key.feSyncEnable p) t)
  let starts := (s.fes.starts.filter fun e => after ≤ e.2 && (s.prodPorts k n e.2).contains e.1).map (·.2)
  let steps := (s.prods.steps.map (·.1)).filter fun t => after ≤ t
  writes ++ resets ++ starts ++ steps

/-- The next close of a builder. -/
def nextClose (s : State) (k n : Nat) : Option KTime :=
  (s.closeTimes k n (s.product k n).closedTo).foldl (fun a t => match a with | none => some t | some b => some (min b t)) none

/-- The next frame or GAP header of a view on a port, from a time on. -/
def viewInput (s : State) (v p from' : Nat) : Option Frame := (s.viewPort v p).delivered.find? fun f => from' ≤ f.t && f.skip.isNone

/-- Has the view passed a time on a port, so that no input before it can still come? The next frame index, or an anchor before it, lies at or after T, or the
port's stream has ended and no start before T can come. -/
def viewPassed (s : State) (v p T : Nat) : Bool :=
  let x := s.viewPort v p
  let outs := s.feOuts p
  let i0 := x.anchor + x.offset + x.k * x.hop
  let place := if x.started then (match s.nextAnchor v p with | some (a, _) => min a i0 | none => i0) else 0
  let last := match outs.getLast? with | some o => decide (T ≤ o.t) | none => false
  let ended := !(s.fe p).grid.started && s.eventsKnown p T
  x.frames.all (fun f => decide (T ≤ f.t)) &&
    (match outs[place]? with
     | some o => decide (T ≤ o.t) || (ended && x.started && decide (outs.length < i0 + x.size))
     | none => last || ended)

/-! ### Density maps (06 R165 to R168) -/

/-- Nc, Nr, Dc of a map at a time. -/
def densShape (s : State) (m t : Nat) : Nat × Nat × Nat :=
  let v := s.objAt (Key.densView m) t
  let np := s.objAt (Key.viewBinCount v) t / max 1 (s.objAt (Key.viewBinDecim v) t)
  let dc := max 1 (s.objAt (Key.densColDecim m) t)
  (np / dc, s.objAt (Key.densRows m) t, dc)

/-- The settings whose change clears the plane and the image (06 R168). -/
def densGeo (s : State) (m t : Nat) : List Nat :=
  let (nc, nr, _) := s.densShape m t
  [nc, nr, s.objAt (Key.densMode m) t, s.objAt (Key.densTop m) t, s.objAt (Key.densStep m) t, s.objAt (Key.densView m) t, s.objAt (Key.densPort m) t]

/-- The region sum of a map's occupancy trigger (07 R201). -/
def occSum (s : State) (m t : Nat) : Nat :=
  let (nc, _, _) := s.densShape m t
  let p := s.product 1 m
  (List.range (s.objAt (Key.occRowCount m) t)).foldl (fun a r => (List.range (s.objAt (Key.occColCount m) t)).foldl (fun b c =>
    b + (tabGet 0 p.cells ((s.objAt (Key.occRowFirst m) t + r) * nc + s.objAt (Key.occColFirst m) t + c)).toNat) a) 0

/-- Did a group write an occupancy object of the map since the last plane event, up to t (07 R202)? -/
def occWritten (s : State) (m t : Nat) : Bool :=
  s.allWrites.any fun w => w.2 / 256 == 0x2A00 + m && 0x20 ≤ w.2 % 256 && w.2 % 256 ≤ 0x27 && (s.product 1 m).occAt ≤ w.1 && w.1 ≤ t

/-- The occupancy trigger after a plane event at t; frame holds the flags of a frame event (07 R201, R202; notes/assumptions/24.md). -/
def occEvent (s : State) (m t : Nat) (frame : Option Nat) : State :=
  let arms := s.occWritten m t
  let s0 := s.putProduct 1 m { s.product 1 m with occAt := t + 1 }
  if !s.flagAt (Key.occEnable m) t then s0.setObj (Key.occState m) 0 else
  let sum := s0.occSum m t
  let s1 := s0.setObj (Key.occSum m) sum
  let st := s1.obj (Key.occState m)
  if arms ∨ st = 0 then s1.setObj (Key.occState m) 1
  else if st = 1 then
    (match frame with
     | some fl =>
       if s1.objAt (Key.occCount m) t ≤ sum then
         let s2 := s1.raiseTrigger (0x3000 + m) t fl 0 (min sum (2 ^ 32 - 1)) 0
         (((s2.setObj (Key.occState m) 2).bump (Key.occEvents m)).setObj (Key.occLast m) t).pulseNow (0x3000 + m) (s.objAt (Key.occPins m) t)
       else s1
     | none => s1)
  else if sum < s1.objAt (Key.occRearm m) t then s1.setObj (Key.occState m) 1 else s1

/-- Zeroes the image that the settings at a time name, where they name one in the fixed region (06 R168). -/
def imageZero (s : State) (m t : Nat) : State :=
  let (nc, nr, _) := s.densShape m t
  if s.objAt (Key.densMode m) t = 1 ∧ fixedHolds s.obj (s.objAt (Key.densImage m) t) (4 * nc * nr) then
    s.memWrite (.product 1 m) 2 (s.objAt (Key.densImage m) t) (zeros (4 * nc * nr))
  else s

/-- Zeroes the plane and the image at t: the image of accumulate mode, and the one before t where the map leaves that mode (06 R168). -/
def densZero (s : State) (m t before : Nat) : State :=
  let s1 := s.putProduct 1 m { s.product 1 m with cells := [] }
  let s2 := if s1.objAt (Key.densMode m) t = 1 then s1.imageZero m t else s1.imageZero m before
  s2.occEvent m t none

/-- A decay boundary at t (06 R167). -/
def densDecay (s : State) (m t : Nat) : State :=
  let a := s.objAt (Key.densDecayFactor m) t
  let p := s.product 1 m
  let cells := (p.cells.map fun (i, c) => (i, c * (a : Int) / 65536)).filter fun e => e.2 != 0
  (s.putProduct 1 m { p with cells := cells, decayFrom := t + 1 }).occEvent m t none

/-- The first decay boundary D_n at or after t on the grid in force at t; none while decay is off and in accumulate mode (06 R167, R168). -/
def decayOn (s : State) (m t : Nat) : Option KTime :=
  let di := s.objAt (Key.densDecayInterval m) t
  if di = 0 ∨ s.objAt (Key.densMode m) t = 1 then none else
  let st : Int := s.objAt (Key.densDumpStart m) t * tick
  let step : Int := di * tick
  some (st + ((t : Int) - st + step - 1) / step * step).toNat

/-- The first decay boundary from a time on, where the settings change at the given times, in ascending order. -/
def decayFrom (s : State) (m t : Nat) : List KTime → Option KTime
  | [] => s.decayOn m t
  | T :: r => match s.decayOn m t with
    | some x => if x < T then some x else s.decayFrom m T r
    | none => s.decayFrom m T r

/-- The next decay boundary of a map: each is on the grid in force at its time (06 R167). -/
def nextDecay (s : State) (m : Nat) : Option KTime :=
  let a := (s.product 1 m).decayFrom
  let turns := ([Key.densDecayInterval m, Key.densDumpStart m, Key.densMode m].flatMap fun k => s.writesOf k).filter fun T => a < T
  s.decayFrom m a (sortBy (fun x y => decide (x ≤ y)) turns)

/-- A point's cell, and whether its row was clamped (06 R165). -/
def densCell (top : Int) (step nc nr dc i : Nat) (word : Int) : Nat × Bool :=
  let r := (top - word) / (max 1 step : Nat)
  let row := max 0 (min ((nr : Int) - 1) r)
  (row.toNat * nc + i / dc, decide (row ≠ r))

/-- A frame's points into the plane: cells, clamps and saturations (06 R165, R166). -/
def densAdd (top : Int) (step nc nr dc : Nat) (cells : Tab Int) (words : List Int) : Tab Int × Nat × Nat :=
  words.zipIdx.foldl (fun (cs, clips, sats) (w, i) =>
    let (c, clip) := densCell top step nc nr dc i w
    let v := tabGet 0 cs c
    if v < 65535 then (tabSet 0 cs c (v + 1), clips + b2n clip, sats) else (cs, clips + b2n clip, sats + 1)) (cells, 0, 0)

/-- The frame spectrum's words (05 R143). -/
def frameWords (s : State) (v : Nat) (f : Frame) : List Int :=
  (pointValues (s.objAt (Key.viewBinDecim v) f.t) [f]).map fun vs => detect (s.objAt (Key.viewDetector v) f.t) vs f.sw

/-- A contributing frame of a map. -/
def densFrame (s : State) (m : Nat) (f : Frame) : State :=
  let (nc, nr, dc) := s.densShape m f.t
  let p := s.product 1 m
  let (cells, clips, sats) := densAdd (s.objIAt (Key.densTop m) f.t) (s.objAt (Key.densStep m) f.t) nc nr dc p.cells (s.frameWords (s.objAt (Key.densView m) f.t) f)
  (((s.putProduct 1 m { p with cells := cells, frames := p.frames + 1, flags := p.flags ||| f.flags, sat := p.sat || sats != 0 }).addObj (Key.densClip m) clips).addObj (Key.densSaturations m) sats).occEvent m f.t (some f.flags)

/-! ### Cross-power pairs and integrators (06 R174, R177 to R179) -/

/-- The exact value of a bin with a block exponent. -/
def binExact (e : Nat) (v : Int × Int) : Int × Int := (v.1 * 2 ^ e, v.2 * 2 ^ e)

/-- Clamps to the signed 64-bit range, and whether it clamped. -/
def clamp64 (x : Int) : Int × Bool := let y := max (-(2 ^ 63)) (min (2 ^ 63 - 1) x); (y, decide (y ≠ x))

/-- Adds a term to one accumulator of a pair, the term clamped first: saturations counted at either step (06 R174). -/
def pairAdd (acc : Tab Int) (i : Nat) (d : Int) : Tab Int × Nat :=
  let (d1, c1) := clamp64 d
  let (v, c2) := clamp64 (tabGet 0 acc i + d1)
  (tabSet 0 acc i v, b2n c1 + b2n c2)

/-- v of a channel: the sum of x · conj(y) (06 R174). -/
def crossSum (xs ys : List (Int × Int)) : Int × Int :=
  (xs.zip ys).foldl (fun (re, im) (x, y) => (re + x.1 * y.1 + x.2 * y.2, im + x.2 * y.1 - x.1 * y.2)) (0, 0)

/-- A contributing pair of frames. -/
def pairFrame (s : State) (n : Nat) (fx fy : Frame) : State :=
  let dx := max 1 (s.objAt (Key.xpChanDecim n) fx.t)
  let sh := 2 ^ s.objAt (Key.xpShift n) fx.t
  let xs := runsOf dx fx.bins.length (fx.bins.map (binExact fx.e))
  let ys := runsOf dx fy.bins.length (fy.bins.map (binExact fy.e))
  let p := s.product 2 n
  let (acc, sats) := ((xs.zip ys).zipIdx).foldl (fun (a, c) (xy, i) =>
    let (re, im) := crossSum xy.1 xy.2
    let (a1, c1) := pairAdd a (2 * i) (roundHalfEven re sh)
    let (a2, c2) := pairAdd a1 (2 * i + 1) (roundHalfEven im sh)
    (a2, c + c1 + c2)) (p.cells, 0)
  (s.putProduct 2 n { p with cells := acc, frames := p.frames + 1, flags := p.flags ||| fx.flags ||| fy.flags, sat := p.sat || sats != 0 }).addObj (Key.xpSaturations n) sats

/-- The phase a frame counts in, or none when it is blanked (06 R178). -/
def framePhase (s : State) (i : Nat) (f : Frame) : Option Nat :=
  let sw := s.objAt (Key.intSw i) f.t
  if sw = 0xFF then some 0 else
  match s.swPhaseAt sw f.t with
  | none => none
  | some (phi, start, stop) =>
    let last := (((s.feOuts (s.objAt (Key.intPort i) f.t))[f.start + f.size - 1]?).map (·.t)).getD f.t
    let inside : Bool := match stop with | none => true | some e => decide (last < e)
    if inside ∧ start + s.objAt (Key.intGuard i) f.t * tick ≤ f.t then some phi else none

/-- Adds to an unsigned 64-bit sum (06 R177). -/
def sumAdd (acc : Tab Int) (i : Nat) (d : Int) : Tab Int × Nat :=
  let v := tabGet 0 acc i + d
  if v < 2 ^ 64 then (tabSet 0 acc i v, 0) else (tabSet 0 acc i (2 ^ 64 - 1), 1)

/-- A frame that an integrator does not reject: blanked, or added to its phase. -/
def intFrame (s : State) (i : Nat) (f : Frame) : State :=
  let p := s.product 3 i
  match s.framePhase i f with
  | none => (s.putProduct 3 i { p with blanked := p.blanked + 1 }).bump (Key.intBlanked i)
  | some phi =>
    let dx := max 1 (s.objAt (Key.intChanDecim i) f.t)
    let chans := runsOf dx f.bins.length (f.bins.map (binPower f.e))
    let (acc, sats) := chans.zipIdx.foldl (fun (a, c) (vs, j) =>
      let (a1, c1) := sumAdd a (phi * chans.length + j) (roundHalfEven (vs.foldl (· + ·) 0 : Nat) (2 ^ s.objAt (Key.intShift i) f.t))
      (a1, c + c1)) (p.cells, 0)
    (s.putProduct 3 i { p with cells := acc, counts := tabUpd 0 p.counts phi (· + 1), frames := p.frames + 1, flags := p.flags ||| f.flags, sat := p.sat || sats != 0 }).addObj (Key.intSaturations i) sats

/-! ### Records (06 R160 to R164) -/

/-- P of an integrator at a time (06 R178). -/
def intP (s : State) (i t : Nat) : Nat := let sw := s.objAt (Key.intSw i) t; if sw = 0xFF then 1 else s.objAt (Key.swPhases sw) t

/-- Channels of a pair or an integrator at a time. -/
def prodChannels (s : State) (k n t : Nat) : Nat :=
  s.objAt (Key.viewBinCount (s.prodX k n t).1) t / max 1 (s.objAt (prodKey k n 0x12) t)

/-- The plane added to the image, saturating, with the saturations (06 R168). -/
def densImageAdd (cells : Tab Int) (image : Bytes) (n : Nat) : Bytes × Nat :=
  let vs := (List.range n).map fun i => recField image (4 * i) 4 + (tabGet 0 cells i).toNat
  (vs.flatMap fun v => natLE 4 (min v (2 ^ 32 - 1)), (vs.filter fun v => 2 ^ 32 ≤ v).length)

/-- The payload of a builder's record for the interval in progress, with its dimensions, phases and shift; in accumulate mode the image is
brought up to date and the plane cleared (06 R168, R174, R179). -/
def prodPayload (s : State) (k n : Nat) : (Bytes × Nat × Nat × Nat × Nat) × State :=
  let p := s.product k n
  let t := p.start
  if k = 1 then
    let (nc, nr, _) := s.densShape n t
    if s.objAt (Key.densMode n) t = 1 then
      let base := s.objAt (Key.densImage n) t
      let ((held, _), s) := s.memTake 2 base (4 * nc * nr)
      let (img, sats) := densImageAdd p.cells held (nc * nr)
      let s1 := (s.putProduct 1 n { p with cells := [], sat := p.sat || sats != 0 }).addObj (Key.densSaturations n) sats
      ((img, nc, nr, 0, 0), s1.memWrite (.product 1 n) 2 base img)
    else (((List.range (nc * nr)).flatMap fun i => natLE 4 (tabGet 0 p.cells i).toNat, nc, nr, 0, 0), s)
  else if k = 2 then
    let c := s.prodChannels k n t
    (((List.range (2 * c)).flatMap fun i => natLE 8 (ofSigned 64 (tabGet 0 p.cells i)), c, 0, 0, s.objAt (Key.xpShift n) t), s)
  else
    let c := s.prodChannels k n t
    let ph := s.intP n t
    (((List.range ph).flatMap (fun j => natLE 8 (tabGet 0 p.counts j)) ++ natLE 8 p.blanked ++
      (List.range (ph * c)).flatMap fun i => natLE 8 (tabGet 0 p.cells i).toNat, c, 0, ph, s.objAt (Key.intShift n) t), s)

/-- Closes the interval in progress at a time and writes its record; an interval of no length gives none (06 R160, R163, R164;
notes/assumptions/25.md). -/
def closeInterval (s : State) (k n stop : Nat) (early : Bool) : State :=
  let p0 := s.product k n
  if stop ≤ p0.start then s else
  let t := p0.start
  let clears := k == 1 && s.objAt (Key.densMode n) t == 1
  let ((pay, d0, d1, ph, sh), s1) := s.prodPayload k n
  let p := s1.product k n
  let (v, port) := s.prodX k n t
  let (v2, port2) := if k = 2 then s.prodY n t else (0xFFFF, 0xFFFF)
  let fl := p.flags % 64 ||| (if p.part || early then flagPartial else 0) ||| (if p.sat then 64 else 0)
  let h : ProductHeader := { kind := k, flags := fl, product := n, view := v, port := port, view2 := v2, port2 := port2, node := s.obj Key.spanNode, phases := ph, start := t, stop := stop, dump := p.written, frames := p.frames, payload := pay.length, shift := sh, dim0 := d0, dim1 := d1 }
  let base := s.objAt (prodKey k n 7) t
  let ((off, next, total), s2) := s1.ringRecord (.product k n) base (s.objAt (prodKey k n 8) t) p.place (h.image ++ pay)
  let r : ProductRecord := { base := base, offset := off, bytes := total, next := next, era := p.era }
  let q := { p with written := p.written + 1, place := next, unacked := p.unacked ++ [r] }
  let s3 := (s2.putProduct k n q).mergeSend k n t (padTo total (h.image ++ pay))
  if clears then s3.occEvent n stop none else s3

/-- The interval starts afresh at a time, PARTIAL or not: flags, frames and accumulators at zero, a plane kept (06 R161, R162, R168). -/
def freshInterval (s : State) (k n start : Nat) (part : Bool) : State :=
  let p := s.product k n
  s.putProduct k n { p with start := start, part := part, flags := 0, sat := false, frames := 0, counts := [], blanked := 0, cells := if k = 1 then p.cells else [] }

/-- The first dump boundary after a time, on the grid in force there (06 R159). -/
def dumpBoundary (s : State) (k n t : Nat) : KTime :=
  let st : Int := s.objAt (prodKey k n 4) t * tick
  let i : Int := (max 1 (s.objAt (prodKey k n 5) t) : Nat) * tick
  (st + (((t : Int) - st) / i + 1) * i).toNat

/-- Is a time a dump boundary of the grid in force at it? -/
def onBoundary (s : State) (k n t : Nat) : Bool :=
  ((t : Int) - s.objAt (prodKey k n 4) t * tick) % ((max 1 (s.objAt (prodKey k n 5) t) : Nat) * tick) == 0

/-- Applies every dump boundary not after tb and every decay boundary not after td, in ascending order, a boundary's snapshot before a decay at
the same time (06 R160, R167). -/
def advanceTo (s : State) (k n tb td : Nat) : Nat → State
  | 0 => s
  | fuel + 1 =>
    let p := s.product k n
    if !p.on then s else
    let b := s.dumpBoundary k n p.start
    let d := if k = 1 then s.nextDecay n else none
    let dumpFirst : Bool := match d with | none => true | some x => decide (b ≤ x)
    if b ≤ tb ∧ dumpFirst then advanceTo ((s.closeInterval k n b false).freshInterval k n b false) k n tb td fuel
    else match d with
      | some x => if x ≤ td then advanceTo (s.densDecay n x) k n tb td fuel else s
      | none => s

/-- Steps enough for every boundary of an advance. -/
def advanceFuel : Nat := 2 ^ 60

/-- Every decay boundary up to a time (06 R167, at a step). -/
def decaysTo (s : State) (m t : Nat) : Nat → State
  | 0 => s
  | fuel + 1 => match s.nextDecay m with
    | some x => if x ≤ t then decaysTo (s.densDecay m x) m t fuel else s
    | none => s

/-- Was the builder's clear command in a group with this T (06 R184)? -/
def clearedAt (s : State) (k n T : Nat) : Bool := s.allWrites.any fun w => w.1 == T && w.2 == prodKey k n 0x0D

/-- Half a front-end output period of a port in fraction units, rounded up (06 R173). -/
def pairHalf (s : State) (p t : Nat) : Nat := let (r, d) := s.outRate p t; 400000000 * tick * d / (2 * max 1 r) + 1

/-- A close at T_c: the interval in progress ends PARTIAL, and accumulation restarts at T_c, or at T + D for a step; an enable, a disable and
a clear act here (06 R161, R168, R183). A port-y frame before T_c may still pair with a port-x frame at or after it (06 R159, R173); one that pairs with an
earlier port-x frame finds it, and counts nowhere. -/
def closeAt (s : State) (k n T : Nat) : State :=
  let s1 := s.advanceTo k n T (T - 1) advanceFuel
  let p := s1.product k n
  let s2 := if p.on then s1.closeInterval k n T true else s1
  let on := s2.objAt (prodKey k n 1) T != 0
  let cleared := s2.clearedAt k n T
  let stepEnd := ((s2.prods.steps.find? fun e => e.1 == T).map (·.2)).getD T
  let q := s2.product k n
  if !on then
    (let y := s2.putProduct k n { q with on := false, closedTo := T + 1 }
     if !cleared then y else if k = 1 then y.densZero n T T else y.putProduct k n { y.product k n with cells := [], counts := [], blanked := 0 })
  else
  let s3 := if k = 1 ∧ p.on ∧ T < stepEnd then s2.decaysTo n stepEnd advanceFuel else s2
  let half := if k = 2 then s2.pairHalf (s2.prodX 2 n T).2 T else 0
  let r := if p.on then max stepEnd (s3.product k n).start else T
  let q3 := s3.product k n
  let s4 := s3.putProduct k n { q3 with on := true, closedTo := T + 1, nextX := max q3.nextX (T - 2 * half), nextY := max q3.nextY (T - half), era := if p.on then q3.era else T, written := if p.on then q3.written else 0, place := if p.on then q3.place else 0, decayFrom := if p.on then q3.decayFrom else T }
  let s5 := if r = q3.start ∧ p.on then s4.putProduct k n { s4.product k n with part := q3.part || !s4.onBoundary k n r }
    else s4.freshInterval k n r (!s4.onBoundary k n r)
  if k ≠ 1 then (if cleared then s5.putProduct k n { s5.product k n with cells := [], counts := [], blanked := 0 } else s5) else
  let geo := s5.densGeo n r
  let s6 := s5.putProduct 1 n { s5.product 1 n with geo := geo }
  if !p.on ∨ geo ≠ q3.geo ∨ cleared then s6.densZero n r (if p.on then T - 1 else r) else s6

/-! ### Taking inputs (06 R158, R160, R162, R173) -/

/-- Is a frame rejected (06 R162)? -/
def rejects (s : State) (k n : Nat) (f : Frame) : Bool := (s.objAt (prodKey k n 6) f.t &&& f.flags) != 0

/-- Do a port-x and a port-y frame pair: less than half a front-end output period apart (06 R173)? -/
def framesPair (s : State) (px : Nat) (a b : Frame) : Bool :=
  let (n, d) := s.outRate px a.t
  a.gap.isNone && b.gap.isNone && decide (2 * ((a.t : Int) - b.t).natAbs * n < 400000000 * tick * d)

/-- Is every input of the builder before T taken? -/
def prodPassed (s : State) (k n T : Nat) : Bool :=
  let p := s.product k n
  let t := p.start
  if !p.on then true else
  let (v, px) := s.prodX k n t
  let a := s.viewInput v px p.nextX
  let okX := match a with | some f => decide (T ≤ f.t) | none => s.viewPassed v px T
  if k ≠ 2 then okX else
  let (w, py) := s.prodY n t
  let okY := match s.viewInput w py p.nextY with
    | some g => decide (T ≤ g.t) || (match a with | some f => decide (T ≤ f.t) && s.framesPair px f g | none => false)
    | none => s.viewPassed w py T
  okX && okY

/-- Processes every close whose time all inputs have passed. -/
def prodCloses (s : State) (k n : Nat) : Nat → State
  | 0 => s
  | fuel + 1 => match s.nextClose k n with
    | none => s
    | some T => if s.prodPassed k n T then prodCloses (s.closeAt k n T) k n fuel else s

/-- The flag of a GAP header, when its time lies in the interval (06 R162). -/
def prodGap (s : State) (k n : Nat) (f : Frame) : State :=
  let p := s.product k n
  if f.t < p.start then s else s.putProduct k n { p with flags := p.flags ||| flagGap }

/-- A frame of a density map or an integrator. -/
def takeSingle (s : State) (k n : Nat) (f : Frame) : State :=
  let p := s.product k n
  let s1 := (s.putProduct k n { p with nextX := f.t + 1 }).advanceTo k n f.t f.t advanceFuel
  let s2 := if k = 1 then s1.setWatermark (0x3000 + n) f.t else s1
  if f.t < (s2.product k n).start then s2
  else if f.gap.isSome then s2.prodGap k n f
  else if s2.rejects k n f then s2.bump (prodKey k n 0x0B)
  else if k = 1 then s2.densFrame n f else s2.intFrame n f

/-- A frame of one port of a pair without a partner, or a GAP header (06 R162, R173). -/
def takeAlone (s : State) (n : Nat) (f : Frame) : State :=
  let s1 := s.advanceTo 2 n f.t 0 advanceFuel
  if f.t < (s1.product 2 n).start then s1
  else if f.gap.isSome then s1.prodGap 2 n f
  else
    let s2 := if s1.rejects 2 n f then s1.bump (Key.xpFramesRejected n) else s1
    s2.bump (Key.xpUnpaired n)

/-- Two frames that pair (06 R162, R173). -/
def takePair (s : State) (n : Nat) (a b : Frame) : State :=
  let s1 := s.advanceTo 2 n a.t 0 advanceFuel
  if a.t < (s1.product 2 n).start then s1 else
  let c := b2n (s1.rejects 2 n a) + b2n (s1.rejects 2 n b)
  if c = 0 then s1.pairFrame n a b else s1.addObj (Key.xpFramesRejected n) c

/-- The next input of a pair: two frames that pair, or the earlier input alone once the other stream has passed it (06 R173). -/
def pairInput (s : State) (n : Nat) : State :=
  let p := s.product 2 n
  let (v, px) := s.prodX 2 n p.start
  let (w, py) := s.prodY n p.start
  let skipX (f : Frame) : State := s.putProduct 2 n { p with nextX := f.t + 1 }
  let skipY (f : Frame) : State := s.putProduct 2 n { p with nextY := f.t + 1 }
  let half := s.pairHalf px p.start
  match s.viewInput v px p.nextX, s.viewInput w py p.nextY with
  | none, none => s
  | some a, none => if s.viewPassed w py (a.t + half) then (skipX a).takeAlone n a else s
  | none, some b => if s.viewPassed v px (b.t + half) then (skipY b).takeAlone n b else s
  | some a, some b =>
    if s.framesPair px a b then (s.putProduct 2 n { p with nextX := a.t + 1, nextY := b.t + 1 }).takePair n a b
    else if a.t ≤ b.t then (skipX a).takeAlone n a else (skipY b).takeAlone n b

end State

/-- A builder takes what comes next: the closes its inputs have passed, then one frame, pair of frames or GAP header (06 R158 to R162). -/
def execProductFrame (kind : BuilderKind) (n : Fin kind.count) (s : State) : Out :=
  if s.deckHeld then .next s else
  let k := kind.code
  let n := n.val
  let s1 := s.prodCloses k n 4096
  let p := s1.product k n
  if !p.on then .next s1 else
  if k = 2 then .next (s1.pairInput n) else
  let (v, port) := s1.prodX k n p.start
  match s1.viewInput v port p.nextX with
  | none => .next s1
  | some f => .next (s1.takeSingle k n f)

/-- Memory acknowledged every write of the oldest record in flight: wptr passes it and the product event is raised; the event starts movers
(06 R163; 12 R338). -/
def execProductRecordAcked (kind : BuilderKind) (n : Fin kind.count) (s : State) : Out :=
  let k := kind.code
  let n := n.val
  let p := s.product k n
  match p.unacked with
  | [] => .next s
  | r :: rest =>
    if s.outstandingIn (.product k n) (r.base + r.offset) r.bytes then .next s else
    let s1 := s.putProduct k n { p with unacked := rest }
    let s2 := if s.lastEnable (prodKey k n 1) ≤ r.era then (s1.setObj (prodKey k n 9) r.next).bump (prodKey k n 0x0A) else s1
    .next ((s2.raiseEvent 7).moverEvent (prodStart k n))

/-- The due command <k>.clear of a group: the interval ends at T and accumulators, plane and image are zeroed there, once the builder's inputs
have passed T (06 R161, R184). -/
def execProductClear (kind : BuilderKind) (n : Fin kind.count) (s : State) : Out :=
  let key := prodKey kind.code n.val 0x0D
  .next (((s.withDue (s.due.filter fun d => d.1 != key))).prodCloses kind.code n.val 4096)

end Sys2Proof.Machine
end

