-- ==== Sys2Proof/Machine/ProductRules.lean ====
section
/-! DEFINITION. Spectrograms, switching outputs and front-end controls (06 R170, R171, R175, R176, R180, R181), and the commit effects and group
rules of chapter 06 (R169, R172, R176, R181, R183). -/

namespace Sys2Proof.Machine

namespace State

/-! ### Spectrograms (06 R170, R171) -/

def spectro (s : State) (g : Nat) : Spectro := tabGet {} s.prods.spectros g
def putSpectro (s : State) (g : Nat) (x : Spectro) : State := s.withProds { s.prods with spectros := tabSet {} s.prods.spectros g x }

/-- Np and the row pitch of a spectrogram at a time (06 R170). -/
def spgShape (s : State) (g t : Nat) : Nat × Nat :=
  let v := s.objAt (Key.spgView g) t
  let np := s.objAt (Key.viewBinCount v) t / max 1 (s.objAt (Key.viewBinDecim v) t)
  (np, pad64 (2 * np))

/-- The first time from a time on at which a spectrogram is enabled, and the T of that enable. -/
def spgOnFrom (s : State) (g t : Nat) : Option (KTime × KTime) :=
  let ons := (s.writesOf (Key.spgEnable g)).filter fun T => s.flagAt (Key.spgEnable g) T && !s.flagAt (Key.spgEnable g) (T - 1)
  if s.flagAt (Key.spgEnable g) t then some (t, (ons.filter fun T => T ≤ t).foldl max 0)
  else ((ons.filter fun T => t < T).foldl (fun (a : Option KTime) T => match a with | none => some T | some b => some (min T b)) none).map fun T => (T, T)

/-- The first time after a time, and not after now, at which a spectrogram is bound to another view or port (06 R170; 01 Table 1-9). -/
def spgRebind (s : State) (g t : Nat) : Option KTime :=
  let b (x : Nat) := (s.objAt (Key.spgView g) x, s.objAt (Key.spgPort g) x)
  (s.allWrites.filter fun w => (w.2 == Key.spgView g || w.2 == Key.spgPort g) && t < w.1 && w.1 ≤ s.time && b w.1 != b t).foldl
    (fun a w => match a with | none => some w.1 | some c => some (min w.1 c)) none

/-! ### Switching outputs (06 R175, R176) -/

/-- Brings a switching output's phase and pin to what its schedule names now (06 R175, R176). -/
def refreshSw (s : State) (n : Nat) : State :=
  let (ph, level) := match s.swPhaseAt n s.time with
    | some (phi, _, _) => (phi, bit (s.objAt (Key.swLevels n) s.time) phi)
    | none => (0xFF, false)
  ((s.setObj (Key.swPhase n) ph).withProds { s.prods with swPins := setBit s.prods.swPins n level })

/-! ### Front-end controls (06 R180, R181) -/

/-- Entry i of a table: TIME, MASK, VALUE. -/
def fectlEntry (table i : Nat) : Nat × Nat × Nat := (fieldAt table (16 * i) 8, fieldAt table (16 * i + 8) 4, fieldAt table (16 * i + 12) 4)

/-- The next entry's TIME with the repeat advance; none at the end of a single table (06 R180). -/
def fectlNextTime (s : State) : Option Nat :=
  if s.obj Key.fectlCount ≤ s.prods.fectlNext then none
  else some ((fectlEntry (s.obj Key.fectlTable) s.prods.fectlNext).1 + s.prods.fectlAdvance)

/-- Does a pending group change the controls at or before a tick? -/
def fectlPending (s : State) (e : Nat) : Bool := s.groups.any fun g => g.t ≤ e * tick && g.hasIndex 0x3600

/-- Applies the next entry: the masked pins take the entry's value, and the table goes on or repeats (06 R180). -/
def fectlStep (s : State) : State :=
  let i := s.prods.fectlNext
  let (_, mask, value) := fectlEntry (s.obj Key.fectlTable) i
  let lv := s.obj Key.fectlLevel
  let s1 := s.setFectl lv ((lv &&& (2 ^ 32 - 1 - mask)) ||| (value &&& mask)) ((s.fectlNextTime.getD 0) * tick)
  if i + 1 = s.obj Key.fectlCount ∧ s.obj Key.fectlMode = 1 then
    s1.withProds { s1.prods with fectlNext := 0, fectlAdvance := s1.prods.fectlAdvance + s.obj Key.fectlPeriod }
  else s1.withProds { s1.prods with fectlNext := i + 1 }

/-- Passes over whole periods of a repeating table, as long as another whole period follows: it leaves the pins as each of those would (06 R180, R181). -/
def fectlSkip (s : State) : State :=
  match s.fectlNextTime with
  | none => s
  | some e =>
    let period := s.obj Key.fectlPeriod
    let until' := s.groups.foldl (fun m g => if g.hasIndex 0x3600 then min m (g.t / tick) else m) s.ticks
    let whole := if s.obj Key.fectlMode = 1 ∧ 0 < period ∧ e ≤ until' then (until' - e) / period else 0
    if 3 ≤ whole then s.withProds { s.prods with fectlAdvance := s.prods.fectlAdvance + (whole - 2) * period } else s

/-- Applies every entry whose TIME has come, in table order (06 R180; 02 R53). -/
def fectlCatchUp (s : State) : Nat → State
  | 0 => s
  | fuel + 1 => match s.fectlNextTime with
    | some e => if e ≤ s.ticks ∧ !s.fectlPending e then fectlCatchUp s.fectlStep fuel else s
    | none => s

end State

/-- A spectrogram takes the next trace: its row, padded to the pitch, then its header, with the settings in force at the trace's time (06 R170, R171; 01 R20,
Table 1-9). Traces are counted anew from each enable; those of an earlier enable still get their rows. -/
def execSpectrogramTrace (s' : Fin 64) (s : State) : Out :=
  let g := s'.val
  let x := s.spectro g
  if s.deckHeld then .next s else
  match s.spgOnFrom g x.next with
  | none => .next s
  | some (from', _) =>
  let v := s.objAt (Key.spgView g) from'
  let p := s.objAt (Key.spgPort g) from'
  let cut := s.spgRebind g from'
  let traces := (s.viewPort v p).traces.filter fun t => from' ≤ t.t && (match cut with | some c => decide (t.t < c) | none => true)
  match traces with
  | [] =>
    let passed (c : KTime) : Bool := s.viewPassed v p c && (match (s.viewPort v p).group with | some y => decide (c ≤ y.t) | none => true)
    (match cut with
     | some c => .next (if passed c then s.putSpectro g { x with next := c } else s)
     | none => .next s)
  | tr :: _ =>
    let on := s.spgOnFrom g tr.t
    if on.map (·.1) ≠ some tr.t then .next (s.putSpectro g { x with next := tr.t + 1 }) else
    let era := (on.map (·.2)).getD 0
    let n := if x.era = era then x.taken else 0
    let (np, pitch) := s.spgShape g tr.t
    let row := n % max 1 (s.objAt (Key.spgRows g) tr.t)
    let words := if tr.words.isEmpty then List.replicate np (-32768) else tr.words
    let bytes := padTo pitch (words.flatMap fun w => natLE 2 (ofSigned 16 w))
    let h : ProductHeader := { kind := 4, flags := tr.flags % 64, product := g, view := v, port := p, node := s.obj Key.spanNode, start := tr.t, stop := tr.stop, dump := n, frames := tr.count, payload := 2 * np, dim0 := np }
    let rowAt := s.objAt (Key.spgImage g) tr.t + row * pitch
    let headAt := s.objAt (Key.spgHeader g) tr.t + row * 64
    let s1 := (s.memWrite (.spectrogram g) 2 rowAt bytes).memWrite (.spectrogram g) 2 headAt h.image
    .next (s1.putSpectro g { x with era := era, next := tr.t + 1, taken := n + 1, unacked := x.unacked ++ [{ era := era, trace := n, row := rowAt, header := headAt, pitch := pitch }] })

/-- Row and header acknowledged: spg.seq becomes t + 1, unless the spectrogram has been enabled anew since, and the product event is raised; the row event starts
movers (06 R171; 12 R338). -/
def execSpectrogramRowAcked (s' : Fin 64) (s : State) : Out :=
  let g := s'.val
  let x := s.spectro g
  match x.unacked with
  | [] => .next s
  | r :: rest =>
    if s.outstandingIn (.spectrogram g) r.row r.pitch ∨ s.outstandingIn (.spectrogram g) r.header 64 then .next s else
    let s1 := s.putSpectro g { x with unacked := rest }
    let s2 := if s.lastEnable (Key.spgEnable g) ≤ r.era then s1.setObj (Key.spgSeq g) (r.trace + 1) else s1
    .next ((s2.raiseEvent 7).moverEvent (0x2000 + g))

/-- At a boundary time the output enters its phase and the pin takes its level (06 R175). -/
def execSwBoundary (n : Fin 8) (s : State) : Out := .next (s.refreshSw n.val)

/-- Entries whose TIME has come set the masked pins (06 R180). -/
def execFectlEvent (s : State) : Out := .next (s.fectlCatchUp 8192)

/-! ### Commit effects -/

/-- Effects of a commit on products: rings start empty at an enable (10 R525), spectrograms restart, shapes are reported, the switching outputs
follow their new schedules and a new control table starts (06 R165, R170, R176, R181). -/
def commitProducts (s : State) (g : Group) (old : Nat → Nat) : State :=
  let s1 := [1, 2, 3].foldl (fun x k => (g.units (prodBase k) (prodCount k)).foldl (fun y n =>
    if y.obj (prodKey k n 1) ≠ 0 ∧ old (prodKey k n 1) = 0 then (y.setObj (prodKey k n 9) 0).setObj (prodKey k n 0x0A) 0 else y) x) s
  let s2 := (List.range 64).foldl (fun x m => if x.flag (Key.densEnable m) ∧ (g.hasIndex (0x2A00 + m) ∨ g.hasIndex (0x2800 + x.obj (Key.densView m))) then x.setObj (Key.densCols m) (x.densShape m g.t).1 else x) s1
  let s3 := (List.range 64).foldl (fun x m =>
    if !(g.hasIndex (0x2A40 + m) || (x.flag (Key.spgEnable m) && g.hasIndex (0x2800 + x.obj (Key.spgView m)))) then x else
    let y := if x.flag (Key.spgEnable m) ∧ old (Key.spgEnable m) = 0 then x.setObj (Key.spgSeq m) 0 else x
    (y.setObj (Key.spgPoints m) (y.spgShape m g.t).1).setObj (Key.spgPitch m) (y.spgShape m g.t).2) s2
  let s4 := (g.units 0x3610 8).foldl (fun x n => x.refreshSw n) s3
  let s4 := if g.has Key.fectlLevel then s4.setFectl (old Key.fectlLevel) (s4.obj Key.fectlLevel) g.t else s4
  if g.hasSubs 0x3600 2 5 then (s4.withProds { s4.prods with fectlNext := 0, fectlAdvance := 0 }) else s4

/-! ### Group rules (06 R169, R172, R176, R181, R183) -/

/-- Ring and image extents of the products that a configuration has enabled: owner tag, address, bytes. -/
def productExtents (v : Nat → Nat) : List (Nat × Nat × Nat) :=
  ([1, 2, 3].flatMap fun k => (unitsOn v (prodBase k * 1) (prodCount k)).flatMap fun n =>
    (1024 * k + n, v (prodKey k n 7), v (prodKey k n 8)) ::
      (if k = 1 ∧ v (Key.densMode n) = 1 then [(1024 * k + n, v (Key.densImage n), 4 * densCells v n)] else [])) ++
  (unitsOn v 0x2A40 64).flatMap fun g =>
    let np := viewPoints v (v (Key.spgView g))
    [(4096 + g, v (Key.spgImage g), v (Key.spgRows g) * pad64 (2 * np)), (4096 + g, v (Key.spgHeader g), v (Key.spgRows g) * 64)]

/-- Do two extents meet? -/
def extentsMeet (a b : Nat × Nat) : Bool := decide (0 < a.2 ∧ 0 < b.2 ∧ a.1 < b.1 + b.2 ∧ b.1 < a.1 + a.2)

/-- Does a view's block hold a port? -/
def blockHas (v : Nat → Nat) (w p : Nat) : Bool := v (Key.viewPortFirst w) ≤ p && p < v (Key.viewPortFirst w) + v (Key.viewPortCount w)

/-- Is a builder bound to an enabled view and a port of its block (06 Table 6-5)? -/
def boundOk (v : Nat → Nat) (w p : Nat) : Bool := w < 512 && v (Key.viewEnable w) != 0 && blockHas v w p

/-- The padded size of a product's record as the ring check takes it (06 R163). -/
def recordSize (v : Nat → Nat) (k n : Nat) : Nat := pad64 (64 + dumpPayload v k n (intPhasesMax v n))

/-- Is an interval within 400 to 2^48 ticks? -/
def intervalOk (i : Nat) : Bool := decide (400 ≤ i ∧ i ≤ 2 ^ 48)

/-- Do the boundaries in use of a switching output rise inside its period (06 R175)? -/
def swBoundsOk (v : Nat → Nat) (n : Nat) : Bool :=
  let p := v (Key.swPhases n)
  let bs := (0 :: [v (Key.swBound1 n), v (Key.swBound2 n), v (Key.swBound3 n)].take (p - 1)) ++ [v (Key.swPeriod n)]
  1 ≤ p && p ≤ 4 && 2 ≤ v (Key.swPeriod n) && (bs.zip bs.tail).all fun (a, b) => decide (a < b)

/-- The entries in use of a control table (06 R180). -/
def fectlTimes (v : Nat → Nat) : List Nat := (List.range (min 4096 (v Key.fectlCount))).map fun i => (State.fectlEntry (v Key.fectlTable) i).1

/-- R169: the greatest number of increments of one cell in an interval. -/
def densBound (v : Nat → Nat) (m : Nat) : Nat :=
  let w := v (Key.densView m)
  v (Key.densColDecim m) * (⌊((v (Key.densDumpInterval m) : Nat) : Rat) * foutOf v (v (Key.densPort m)) / ((max 1 (v (Key.viewHop w)) * 400000000 : Nat) : Rat)⌋.toNat + 1)

/-- Must the two streams of a pair match (06 R172)? -/
def pairMatches (v : Nat → Nat) (x : Nat) : Bool :=
  let a := v (Key.xpView x)
  let b := v (Key.xpViewY x)
  ([Key.viewSize, Key.viewHop, Key.viewOffset, Key.viewWindow, Key.viewWindowParam, Key.viewBinFirst, Key.viewBinCount].all fun k => v (k a) == v (k b)) &&
    (v (Key.viewWindow a) != 6 || v (Key.viewWindowUser a) == v (Key.viewWindowUser b)) && decide (foutOf v (v (Key.xpPort x)) = foutOf v (v (Key.xpPortY x)))

/-- The refusals of chapter 06 but admission: R169, R172, R176, R181, then Table 6-5. -/
def rulesProducts (s : State) (g : Group) : Option Code :=
  if !(g.hasRange 0x2000 0x2DFF || g.hasRange 0x3600 0x3617) then none else
  let v := s.staged g
  let old := s.before g
  let touchesViews := g.hasRange 0x2000 0x29FF
  let ms := if touchesViews then (unitsOn v 0x2A00 64 ++ g.units 0x2A00 64).eraseDups else g.units 0x2A00 64
  let xs := if touchesViews then (unitsOn v 0x2B00 512 ++ g.units 0x2B00 512).eraseDups else g.units 0x2B00 512
  let is := if touchesViews then (unitsOn v 0x2D00 256 ++ g.units 0x2D00 256).eraseDups else g.units 0x2D00 256
  let ss := if touchesViews then (unitsOn v 0x2A40 64 ++ g.units 0x2A40 64).eraseDups else g.units 0x2A40 64
  let sws := g.units 0x3610 8
  let all : List (Nat × Nat) := ms.map (fun n => (1, n)) ++ xs.map (fun n => (2, n)) ++ is.map (fun n => (3, n))
  let onAll := all.filter fun (k, n) => v (prodKey k n 1) != 0
  let onM := ms.filter fun m => v (Key.densEnable m) != 0
  let onX := xs.filter fun x => v (Key.xpEnable x) != 0
  let onS := ss.filter fun x => v (Key.spgEnable x) != 0
  let times := fectlTimes v
  let fec := g.hasIndex 0x3600
  let exts := productExtents v
  firstOf [
    eachOf onM (fun m => refuse (v (Key.densMode m) == 1 && decide (65535 < densBound v m)) Res.range),
    eachOf onX (fun x => refuse (boundOk v (v (Key.xpView x)) (v (Key.xpPort x)) && boundOk v (v (Key.xpViewY x)) (v (Key.xpPortY x)) && !pairMatches v x) Res.state),
    eachOf sws (fun n => refuse (v (Key.swEnable n) != 0 && decide (v (Key.swStart n) * tick < g.t)) Res.tooLate),
    refuse (g.hasSubs 0x3600 2 5 && times.any fun e => decide (e * tick < g.t)) Res.tooLate,
    refuse (fec && ((times.zip times.tail).any (fun (a, b) => decide (b < a)) || decide (4096 < v Key.fectlCount) ||
      (v Key.fectlMode == 1 && !times.isEmpty && decide (v Key.fectlPeriod ≤ times.getLastD 0 - times.headD 0)))) Res.range,
    eachOf onAll (fun (k, n) => refuse (!boundOk v (v (prodKey k n 2)) (v (prodKey k n 3)) || (k == 2 && !boundOk v (v (Key.xpViewY n)) (v (Key.xpPortY n)))) Res.state),
    eachOf onS (fun x => refuse (!boundOk v (v (Key.spgView x)) (v (Key.spgPort x))) Res.state),
    eachOf all (fun (k, n) => refuse (old (prodKey k n 1) != 0 && v (prodKey k n 1) != 0 && (g.has (prodKey k n 7) || g.has (prodKey k n 8) || (k == 1 && g.has (Key.densImage n)))) Res.state),
    eachOf ss (fun x => refuse (old (Key.spgEnable x) != 0 && v (Key.spgEnable x) != 0 && (g.has (Key.spgRows x) || g.has (Key.spgImage x) || g.has (Key.spgHeader x))) Res.state),
    eachOf all (fun (k, n) => refuse (!intervalOk (v (prodKey k n 5))) Res.range),
    eachOf ms (fun m => refuse ((v (Key.densDecayInterval m) != 0 && !intervalOk (v (Key.densDecayInterval m))) || decide (65536 < v (Key.densDecayFactor m))) Res.range),
    eachOf ms (fun m => refuse (v (Key.densStep m) == 0 || decide (32767 < v (Key.densStep m)) || v (Key.densRows m) == 0 || decide (1024 < v (Key.densRows m)) || v (Key.densColDecim m) == 0 || decide (1 < v (Key.densMode m))) Res.range),
    eachOf onM (fun m => refuse (viewPoints v (v (Key.densView m)) % max 1 (v (Key.densColDecim m)) != 0 || densColumns v m == 0 || decide (4096 < densColumns v m)) Res.range),
    eachOf xs (fun x => refuse (v (Key.xpChanDecim x) == 0 || decide (65536 < v (Key.xpChanDecim x)) || (v (Key.xpEnable x) != 0 && v (Key.viewBinCount (v (Key.xpView x))) % max 1 (v (Key.xpChanDecim x)) != 0)) Res.range),
    eachOf is (fun i => refuse (v (Key.intChanDecim i) == 0 || decide (65536 < v (Key.intChanDecim i)) || (v (Key.intEnable i) != 0 && v (Key.viewBinCount (v (Key.intView i))) % max 1 (v (Key.intChanDecim i)) != 0)) Res.range),
    eachOf all (fun (k, n) => refuse (v (prodKey k n 6) % 2 != 0 || decide (32 ≤ v (prodKey k n 6))) Res.range),
    eachOf all (fun (k, n) =>
      let b := v (prodKey k n 7)
      let z := v (prodKey k n 8)
      refuse (b % 4096 != 0 || z % 64 != 0 || (v (prodKey k n 1) != 0 && (decide (z < 2 * recordSize v k n) || !fixedHolds v b z)) ||
        (k == 1 && v (prodKey k n 1) != 0 && v (Key.densMode n) == 1 && !fixedHolds v (v (Key.densImage n)) (4 * densCells v n))) Res.range),
    eachOf onS (fun x => refuse (viewPoints v (v (Key.spgView x)) == 0 || v (Key.viewFormat (v (Key.spgView x))) == 1) Res.range),
    eachOf ss (fun x => refuse (v (Key.spgRows x) == 0 || decide (65536 < v (Key.spgRows x)) || v (Key.spgImage x) % 4096 != 0 || v (Key.spgHeader x) % 64 != 0 ||
      (v (Key.spgEnable x) != 0 && (!fixedHolds v (v (Key.spgImage x)) (v (Key.spgRows x) * pad64 (2 * viewPoints v (v (Key.spgView x)))) || !fixedHolds v (v (Key.spgHeader x)) (64 * v (Key.spgRows x))))) Res.range),
    eachOf sws (fun n => refuse (!swBoundsOk v n) Res.range),
    eachOf is (fun i => refuse (decide (7 < v (Key.intSw i)) && v (Key.intSw i) != 0xFF) Res.range),
    eachOf xs (fun x => refuse (decide (127 < v (Key.xpShift x))) Res.range),
    eachOf is (fun i => refuse (decide (127 < v (Key.intShift i))) Res.range),
    eachOf (if all.isEmpty && ss.isEmpty then [] else exts) (fun a => refuse (exts.any fun b => a.1 != b.1 && extentsMeet a.2 b.2) Res.overlap)]

end Sys2Proof.Machine
end

