-- ==== Sys2Proof/Machine/Triggers.lean ====
section
/-! DEFINITION. Trigger sources: masks, TRIGI pins, command and remote channels, settling, the trigger log; the commit effects and group
rules of chapter 07 (07 R185 to R216). -/

namespace Sys2Proof.Machine

namespace State

/-! ### Masks (07 R192 to R199) -/

def mask (s : State) (m : Nat) : Mask := tabGet {} s.masks m
def putMask (s : State) (m : Nat) (x : Mask) : State := s.withMasks (tabSet {} s.masks m x)

/-- UPPER and LOWER of an entry (07 R193). -/
def maskEntry (table i : Nat) : Int × Int := (toSigned 16 (fieldAt table (4 * i) 2), toSigned 16 (fieldAt table (4 * i + 2) 2))

/-- Does a point violate its limits, tightened by h (07 R193)? An UPPER of 32,767 and a LOWER of −32,768 disable their tests. -/
def violates (table : Nat) (h p : Int) (i : Nat) : Bool :=
  let (u, l) := maskEntry table i
  (u != 32767 && decide (u - h < p)) || (l != -32768 && decide (p < l + h))

/-- The points of a spectrum that violate limits tightened by h. -/
def violating (table : Nat) (h : Int) (words : List Int) : List Nat := (words.zipIdx.filter fun e => violates table h e.1 e.2).map (·.2)

/-- mask.history: bit 0 is the newest entered spectrum. -/
def historyBits (h : List (Bool × Nat)) : Nat := h.foldr (fun x a => 2 * a + b2n x.1) 0

/-- Did a group write an object of the mask other than mask.pins, with T after the last spectrum and not after t (07 R199)? -/
def maskArms (s : State) (m t : Nat) : Bool :=
  s.allWrites.any fun w => w.2 / 256 == 0x3400 + m && w.2 != Key.maskPins m && (s.mask m).seen ≤ w.1 && w.1 ≤ t

/-- Puts a mask back with an empty history and a clear count of 0 (07 R197). -/
def maskEmpty (s : State) (m : Nat) : State := (s.putMask m { s.mask m with history := [], clear := 0 }).setObj (Key.maskHistory m) 0

/-- An armed mask enters a spectrum: a hit when v reaches K; it fires when the last J entered spectra hold M hits (07 R195, R198, R211). -/
def maskArmed (s : State) (m : Nat) (t flags : Nat) (bad : List Nat) : State :=
  let x := s.mask m
  let hist := ((decide (s.objAt (Key.maskK m) t ≤ bad.length), flags % 32) :: x.history).take (s.objAt (Key.maskJ m) t)
  if (hist.filter (·.1)).length < s.objAt (Key.maskM m) t then (s.putMask m { x with history := hist }).setObj (Key.maskHistory m) (historyBits hist)
  else
    let s1 := ((s.maskEmpty m).setObj (Key.maskState m) 2).raiseTrigger (0x2000 + m) t (hist.foldl (fun a e => a ||| e.2) 0) 0 bad.length (bad.headD 0)
    ((s1.bump (Key.maskEvents m)).setObj (Key.maskLast m) t).pulseNow (0x2000 + m) (s.objAt (Key.maskPins m) t)

/-- A disarmed mask enters a spectrum: clear spectra in a row re-arm it (07 R196). -/
def maskDisarmed (s : State) (m t u : Nat) : State :=
  let x := s.mask m
  let n := if u < s.objAt (Key.maskK m) t then x.clear + 1 else 0
  if s.objAt (Key.maskRearm m) t ≤ n ∧ 0 < n then (s.maskEmpty m).setObj (Key.maskState m) 1 else s.putMask m { x with clear := n }

/-- A spectrum of the mask's view and port (07 R194 to R199). -/
def maskSpectrum (s : State) (m : Nat) (v : Nat) (f : Frame) : State :=
  let t := f.t
  let s1 := if s.maskArms m t ∨ s.obj (Key.maskState m) = 0 then (s.maskEmpty m).setObj (Key.maskState m) 1 else s
  let s2 := s1.putMask m { s1.mask m with seen := t + 1 }
  if (s2.objAt (Key.maskReject m) t &&& f.flags) != 0 then s2.bump (Key.maskRejected m) else
  let s3 := s2.bump (Key.maskSpectra m)
  let words := s3.frameWords v f
  let table := s3.objAt (Key.maskTable m) t
  if s3.obj (Key.maskState m) = 1 then s3.maskArmed m t f.flags (violating table 0 words)
  else s3.maskDisarmed m t (violating table (s3.objAt (Key.maskHyst m) t) words).length

/-- The next write of an object of an index, from a time on and not after now. -/
def nextWrite (s : State) (ix from' : Nat) : Option KTime :=
  (s.allWrites.filter fun w => w.2 / 256 == ix && from' ≤ w.1 && w.1 ≤ s.time).foldl (fun a w => match a with | none => some w.1 | some b => some (min b w.1)) none

/-- The next position of the mask's view and port, with the binding in force; a change of the mask's objects moves the search to its T. The
answer names the view and port in whose order the mask stands, and the position where there is one. -/
def maskNext (s : State) (m from' : Nat) : Nat → (Nat × Nat) × Option Frame
  | 0 => ((s.objAt (Key.maskView m) from', s.objAt (Key.maskPort m) from'), none)
  | fuel + 1 =>
    let v := s.objAt (Key.maskView m) from'
    let p := s.objAt (Key.maskPort m) from'
    let cand := (s.viewPort v p).delivered.find? fun f => from' ≤ f.t
    match s.nextWrite (0x3400 + m) (from' + 1) with
    | none => ((v, p), cand)
    | some T => match cand with
      | some f => if f.t < T then ((v, p), some f) else maskNext s m T fuel
      | none => if s.viewPassed v p T then maskNext s m T fuel else ((v, p), none)

/-- The writes that one step of a mask may pass over. -/
def maskFuel : Nat := 4096

/-! ### Settling (07 R188 to R190, R209) -/

/-- Can the source deliver an event with TIME t: are the source, its port, its view and its map enabled at t (07 R189)? -/
def sourceOn (s : State) (src t : Nat) : Bool :=
  let n := src % 4096
  match src / 4096 with
  | 1 => s.flagAt (Key.portEnable n) t && s.objAt (Key.feEdgeStage n) t != 0
  | 2 => s.flagAt (Key.maskEnable n) t && s.flagAt (Key.viewEnable (s.objAt (Key.maskView n) t)) t && s.flagAt (Key.portEnable (s.objAt (Key.maskPort n) t)) t
  | 3 => s.flagAt (Key.densEnable n) t && s.flagAt (Key.occEnable n) t && s.flagAt (Key.viewEnable (s.objAt (Key.densView n) t)) t &&
      s.flagAt (Key.portEnable (s.objAt (Key.densPort n) t)) t
  | 4 => s.flagAt (Key.cmpEnable n) t
  | 5 => s.objAt (Key.trigiEdge n) t != 0
  | 6 => s.objAt (Key.rtrigFrom n) t != 0xFFFF
  | 7 => true
  | _ => false

/-- The earliest T of the group commands of a channel that are accepted but not yet raised (07 R206). -/
def nextTrigCmd (s : State) (c : Nat) : Option KTime :=
  (((s.groups.filter fun g => g.has (Key.trigCmd c)).map (·.t)) ++ (s.due.filter fun d => d.1 == Key.trigCmd c).map (·.2)).foldl
    (fun a t => match a with | none => some t | some b => some (min b t)) none

/-- The watermark of a source as Table 7-3 gives it, for kinds other than remote channels. An edge of a TRIGI pin is known once the tick after it has
begun; a command channel has nothing below the first command that it still owes (07 R188). -/
def localMark (s : State) (src : Nat) : KTime :=
  match src / 4096 with
  | 5 =>
    let k := (s.ticks - 1) * tick
    ((k : Int) - s.objIAt (Key.trigiDelay (src % 4096)) k).toNat
  | 7 => match s.nextTrigCmd (src % 4096) with
    | some t => min (t - 1) (s.time + 3999 * tick)
    | none => s.time + 3999 * tick
  | _ => s.watermark src

/-- The watermark a consumer uses; a channel that is STALE, or that takes events from no node, gives now minus rtrig.timeout where that is higher (07 R188,
R209). -/
def sourceMark (s : State) (src : Nat) : KTime :=
  let c := src % 4096
  if src / 4096 = 6 then
    if s.obj (Key.rtrigState c) = 1 then s.obj (Key.rtrigWatermark c)
    else max (s.obj (Key.rtrigWatermark c)) (s.time - s.obj Key.rtrigTimeout * tick)
  else s.localMark src

/-- Has the monitor converter made and judged every conversion whose sampling instant lies before T (17 R466, R467)? -/
def monDealt (s : State) (T : Nat) : Bool :=
  decide (T ≤ s.time) && s.mon.codes.all (fun c => decide (T ≤ c.edge * tick)) &&
    s.mon.runs.all (fun r => decide (r.seq.length ≤ r.next) || decide (T ≤ (r.start + 4 * r.next) * tick)) && !s.mon.latched &&
    (match s.nextStart s.mon.from' with | some e => decide (T ≤ monEdge (e + s.objAt Key.monDelay (e * tick)) * tick) | none => true)

/-- Has the source dealt with every position before T: tested it, passed it in a gap, or passed it without forming it (07 R189)? -/
def dealtBefore (s : State) (src T : Nat) : Bool :=
  let n := src % 4096
  match src / 4096 with
  | 1 =>
    if s.objAt (Key.feEdgeStage n) (T - 1) = 2 then
      (match (s.feOuts n).getLast? with | some o => decide (T ≤ o.t + 1) | none => false) || s.eventsKnown n (T - 1 + s.obj (Key.feGdelay n))
    else s.eventsKnown n (T - 1)
  | 2 => match s.maskNext n (s.mask n).next maskFuel with
    | (_, some f) => decide (T ≤ f.t)
    | ((v, p), none) => s.viewPassed v p T
  | 3 =>
    let (v, p) := s.prodX 1 n (T - 1)
    (match s.nextClose 1 n with | some c => decide (T ≤ c) | none => true) &&
      (match s.viewInput v p (s.product 1 n).nextX with | some f => decide (T ≤ f.t) | none => s.viewPassed v p T)
  | 4 => s.monDealt T
  | 5 | 7 => decide (T ≤ s.localMark src + 1)
  | 6 => decide (T ≤ s.sourceMark src + 1)
  | _ => true

/-- The last T not after t at which the source went off; none where it has been off since reset. -/
def turnedOff (s : State) (src t : Nat) : Option KTime :=
  (s.allWrites.filter fun w => decide (w.1 ≤ t) && decide (0 < w.1) && s.sourceOn src (w.1 - 1) && !s.sourceOn src w.1).foldl
    (fun a w => match a with | none => some w.1 | some b => some (max b w.1)) (if s.sourceOn src 0 then some 0 else none)

/-- Is the source settled at t: can it deliver no further event with TIME at or before t? Its watermark has reached t, or it is off at t and has dealt with
every position before the T at which it went off, or it has dealt with every position up to t (07 R188 to R190). -/
def settled (s : State) (src t : Nat) : Bool :=
  decide (t ≤ s.sourceMark src) ||
    (!s.sourceOn src t && (match s.turnedOff src t with | some T => decide (T ≤ s.sourceMark src + 1) || s.dealtBefore src T | none => true)) ||
    ((src / 4096 == 2 || src / 4096 == 3) && s.dealtBefore src (t + 1))

/-- The time that the watermark of a local source has reached, as far as upTo: Table 7-3's, or a later time that is settled because the source was off
(07 R189). -/
def reachedMark (s : State) (src upTo : Nat) : KTime :=
  (((s.allWrites.map fun (w : KTime × Nat) => w.1 - 1) ++ [upTo]).filter fun t => t ≤ upTo && s.settled src t).foldl max (s.localMark src)

/-! ### Remote channels (07 R207 to R209; 15 R412) -/

/-- trig.stale: channels now STALE. -/
def countStale (s : State) : State := s.setObj Key.trigStale ((List.range 64).filter fun c => s.obj (Key.rtrigState c) == 2).length

/-- A watermark of channel c is received: the channel is live; the time of rtrig.timeout runs from the last advance, or from the return to live (07 R208, R209). -/
def channelMark (s : State) (c : Nat) (t : KTime) : State :=
  let s1 := (s.setObj (Key.rtrigWatermark c) t).setObj (Key.rtrigState c) (if s.obj (Key.rtrigFrom c) = 0xFFFF then 0 else 1)
  let s2 := if s.obj (Key.rtrigWatermark c) < t ∨ s.obj (Key.rtrigState c) ≠ 1 then s1.withTrig { s1.trig with remoteAt := tabSet 0 s1.trig.remoteAt c (s1.time + 1) } else s1
  s2.countStale

/-- Channels that publish a source. -/
def publishing (s : State) : List Nat := (List.range 64).filter fun c => s.obj (Key.rtrigPublish c) != 0

/-- The times after a and up to b at which what a channel publishes may change: the starts of its regimes. -/
def publishTurns (s : State) (c a b : Nat) : List KTime :=
  ((s.allWrites.filter fun w => w.2 == Key.rtrigPublish c && a < w.1 && w.1 ≤ b).map (·.1)).eraseDups

/-- The lowest watermark of the sources published (15 R412): no event with TIME at or before it will still be sent. A source counts over the times at which a channel
names it (01 Table 1-9), from the watermark last sent on; one that is off holds nothing back (07 R189). -/
def publishedMark (s : State) : KTime :=
  let top := s.time + 3999 * tick
  let lo := s.trig.sentMark
  (List.range 64).foldl (fun a c =>
    let turns := s.publishTurns c lo top
    (lo :: turns).foldl (fun a b =>
      let src := s.objAt (Key.rtrigPublish c) b
      let stop := (turns.filter fun x => b < x).foldl min (top + 1)
      if src = 0 then a else
      let m := s.reachedMark src (stop - 1)
      if stop - 1 ≤ m then a else min a (max m (b - 1))) a) top

/-- A mask that is off now ends once every spectrum before the T of its disable has been taken: its state is off and its history empty (07 R199). -/
def maskEnd (s : State) (m : Nat) : State :=
  if s.flag (Key.maskEnable m) ∨ s.obj (Key.maskState m) = 0 then s else
  match s.turnedOff (0x2000 + m) s.time with
  | some T => if s.dealtBefore (0x2000 + m) T then (s.maskEmpty m).setObj (Key.maskState m) 0 else s
  | none => s

/-- An occupancy trigger whose map is off now is off, once every event of the plane before the T of the disable has been taken (07 R189, R201). -/
def occEnd (s : State) (m : Nat) : State :=
  if (s.flag (Key.occEnable m) && s.flag (Key.densEnable m)) || s.obj (Key.occState m) == 0 then s else
  match s.turnedOff (0x3000 + m) s.time with
  | some T => if s.dealtBefore (0x3000 + m) T then s.setObj (Key.occState m) 0 else s
  | none => s

/-! ### Trigger log (07 R215) -/

/-- Is the event logged, by the configuration in force at its time? -/
def logs (s : State) (e : Event) : Bool := s.flagAt Key.trigLogEnable e.time && bit (s.objAt Key.trigLogKinds e.time) (e.source / 4096 - 1)

/-- How many sources each kind has (07 Table 7-1). -/
def kindCount (k : Nat) : Nat := [0, 1024, 256, 64, 16, 8, 64, 16].getD k 0

/-- Are all the sources of the selected kinds settled at t? -/
def kindsSettled (s : State) (kinds t : Nat) : Bool :=
  (List.range 7).all fun i => !bit kinds i || (List.range (kindCount (i + 1))).all fun n => s.settled ((i + 1) * 4096 + n) t

/-- The first of a set of events in the order of R187 after a cursor. -/
def nextEvent (cursor : Option Event) (l : List Event) : Option Event :=
  (l.filter fun e => match cursor with | some c => c.before e | none => true).foldl (fun a e => match a with | none => some e | some b => if e.before b then some e else some b) none

/-- Writes one event to the log ring. -/
def logEvent (s : State) (e : Event) : State :=
  let size := max 1 (s.obj Key.trigLogSize)
  let off := (s.obj Key.trigLogWptr + 32 * s.trig.logUnacked) % size
  let s1 := s.memWrite .trigLog 2 (s.obj Key.trigLogBase + off) e.image
  s1.withTrig { s1.trig with logUnacked := s1.trig.logUnacked + 1 }

end State

/-- A mask takes the next position of its view and port: a spectrum, a GAP header, or one passed without a spectrum (07 R188, R192 to R199). -/
def execMaskSpectrum (m : Fin 256) (s : State) : Out :=
  if s.deckHeld then .next s else
  match s.maskNext m.val (s.mask m.val).next State.maskFuel with
  | (_, none) => .next (s.maskEnd m.val)
  | ((v, _), some f) =>
    let s1 := s.putMask m.val { s.mask m.val with next := f.t + 1 }
    if !s1.flagAt (Key.maskEnable m.val) f.t then .next (((s1.maskEmpty m.val).putMask m.val { (s1.maskEmpty m.val).mask m.val with seen := 0 }).setObj (Key.maskState m.val) 0) else
    let s2 := s1.setWatermark (0x2000 + m.val) f.t
    let s3 := if (s2.mask m.val).epoch ≠ f.epoch then (let y := s2.maskEmpty m.val; y.putMask m.val { y.mask m.val with epoch := f.epoch }) else s2
    if f.skip.isSome then .next s3
    else if f.gap.isSome then .next (s3.maskEmpty m.val)
    else .next (s3.maskSpectrum m.val v f)

/-- An edge on TRIGIn (07 R203, R204). -/
def execTrigiEdge (n : Fin 8) (rising : Bool) (pos : Fin 64) (s : State) : Out :=
  let i := n.val
  let s1 := s.setObj (Key.trigiLevel i) (b2n rising)
  let a := s1.ticks * tick + pos.val * 1024
  let sel := s1.objAt (Key.trigiEdge i) a
  let fires := sel == 3 || (sel == 1 && rising) || (sel == 2 && !rising)
  let last := tabGet 0 s1.trig.lastEdge i
  let dead := last != 0 && decide (a < last - 1 + s1.objAt (Key.trigiDead i) a * tick)
  let t : Int := (a : Int) - s1.objIAt (Key.trigiDelay i) a
  if !fires || dead || decide (t < 0) then .next s1 else
  let s2 := s1.withTrig { s1.trig with lastEdge := tabSet 0 s1.trig.lastEdge i (a + 1) }
  let s3 := s2.raiseTrigger (0x5000 + i) t.toNat 0 (b2n (!rising)) 0 0
  .next (((s3.bump (Key.trigiCount i)).setObj (Key.trigiLast i) t.toNat).pulseNow (0x5000 + i) (s1.objAt (Key.trigiPins i) a))

/-- The due command trig.cmd of a channel: one event with TIME the group's T (07 R206). -/
def execTrigCmd (c : Fin 16) (s : State) : Out :=
  let key := Key.trigCmd c.val
  .next ((s.due.filter fun d => d.1 == key).foldl (fun x d =>
    (x.raiseTrigger (0x7000 + c.val) d.2 0 0 0 0).pulseNow (0x7000 + c.val) (x.objAt Key.trigCmdPins x.time)) (s.withDue (s.due.filter fun d => d.1 != key)))

/-- The publisher sends its lowest watermark; channels that name this device take it here (07 R207, R208; 15 R412). -/
def execRtrigWatermarkSend (s : State) : Out :=
  let cs := s.publishing
  if cs.isEmpty then .next s else
  let w := s.publishedMark / tick
  let own (x : State) (c : Nat) : Bool := x.objAt (Key.rtrigFrom c) (w * tick) == x.obj Key.spanNode
  let system := cs.any fun c => s.obj (Key.rtrigScope c) == 1
  let s1 := s.trussBroadcast 0 system (messageBytes 3 (natBE 1 2 ++ natBE 1 (b2n system) ++ natBE 2 (s.obj Key.spanNode) ++ natBE 6 w))
  let s2 := cs.foldl (fun x c => if own x c then x.channelMark c (w * tick) else x) s1
  .next (s2.withTrig { s2.trig with sentAt := s2.wall, sentMark := max s2.trig.sentMark (w * tick) })

/-- A channel whose watermark has not advanced for rtrig.timeout ticks becomes STALE (07 R209). -/
def execRtrigStale (c : Fin 64) (s : State) : Out :=
  let at' := tabGet 0 s.trig.remoteAt c.val
  if s.obj (Key.rtrigState c.val) ≠ 1 ∨ s.time < at' - 1 + s.obj Key.rtrigTimeout * tick then .next s
  else .next ((s.setObj (Key.rtrigState c.val) 2).countStale)

/-- The log writes a LATE event that has arrived, or the next settled event of a selected kind (07 R215). -/
def execTrigLogEvent (s : State) : Out :=
  match s.trig.lateLog with
  | e :: r => .next (((s.withTrig { s.trig with lateLog := r })).logEvent e)
  | [] =>
    match State.nextEvent s.trig.logCursor (s.trig.events.filter fun e => s.logs e && !e.missed.contains State.logConsumer) with
    | none => .next s
    | some e =>
      if !s.kindsSettled (s.objAt Key.trigLogKinds e.time) e.time then .next s
      else .next (((s.withTrig { s.trig with logCursor := some e })).logEvent e)

/-- Memory acknowledged the oldest log write: trig.log.wptr advances and the trigger event is raised (07 R215). -/
def execTrigLogAcked (s : State) : Out :=
  if s.trig.logUnacked = 0 ∨ s.outstandingIn .trigLog (s.obj Key.trigLogBase + s.obj Key.trigLogWptr) 32 then .next s else
  let s1 := s.withTrig { s.trig with logUnacked := s.trig.logUnacked - 1 }
  .next ((s1.setObj Key.trigLogWptr ((s.obj Key.trigLogWptr + 32) % max 1 (s.obj Key.trigLogSize))).raiseEvent 5)

/-! ### Commit effects and rules -/

/-- Effects of a commit on triggers: masks and occupancy triggers that have taken all before T end, remote channels that start or end, and a log ring that
starts empty (07 R199, Tables 7-9 to 7-11; 10 R525). -/
def commitTriggers (s : State) (g : Group) (old : Nat → Nat) : State :=
  let s1 := (g.units 0x3400 256).foldl (fun x m => x.maskEnd m) s
  let s2 := (g.units 0x2A00 64).foldl (fun x m => x.occEnd m) s1
  let s3 := (g.units 0x3640 64).foldl (fun x c =>
    if !g.has (Key.rtrigFrom c) then x
    else if x.obj (Key.rtrigFrom c) = 0xFFFF then (x.setObj (Key.rtrigState c) 0).countStale
    else if old (Key.rtrigFrom c) = x.obj (Key.rtrigFrom c) then x
    else (let y := (x.setObj (Key.rtrigState c) 1).countStale; (y.withTrig { y.trig with remoteAt := tabSet 0 y.trig.remoteAt c (y.time + 1) }))) s2
  if s3.flag Key.trigLogEnable ∧ old Key.trigLogEnable = 0 then
    (s3.withTrig { s3.trig with logUnacked := 0, lateLog := [] }).setObj Key.trigLogWptr 0
  else s3

/-- Is a source code one that may be published (07 Table 7-8)? -/
def publishable (src : Nat) : Bool := src == 0 || ([1, 2, 3, 4, 5, 7].contains (src / 4096) && decide (src % 4096 < State.kindCount (src / 4096)))

/-- The region of an occupancy trigger inside the plane (07 R201). -/
def occRegionOk (v : Nat → Nat) (m : Nat) : Bool :=
  v (Key.occColCount m) != 0 && v (Key.occRowCount m) != 0 && decide (v (Key.occColFirst m) + v (Key.occColCount m) ≤ densColumns v m) &&
    decide (v (Key.occRowFirst m) + v (Key.occRowCount m) ≤ v (Key.densRows m))

/-- The extent of the trigger log. -/
def logExtent (v : Nat → Nat) : Nat × Nat := if v Key.trigLogEnable = 0 then (0, 0) else (v Key.trigLogBase, v Key.trigLogSize)

/-- R192 and Table 7-8 (07 R216). -/
def rulesTriggers (s : State) (g : Group) : Option Code :=
  if !(g.hasRange 0x2000 0x2DFF || g.hasRange 0x3400 0x34FF || g.hasRange 0x3610 0x367F) then none else
  let v := s.staged g
  let old := s.before g
  let bound := g.hasRange 0x2000 0x2A3F
  let ms := (if bound then unitsOn v 0x3400 256 ++ g.units 0x3400 256 else g.units 0x3400 256).eraseDups
  let os := (if bound then (List.range 64).filter (fun m => v (Key.occEnable m) != 0) else []) ++ g.units 0x2A00 64
  let ocs := os.eraseDups
  let on := ms.filter fun m => v (Key.maskEnable m) != 0
  let log := logExtent v
  firstOf [
    eachOf on (fun m => refuse (boundOk v (v (Key.maskView m)) (v (Key.maskPort m)) && viewPoints v (v (Key.maskView m)) != v (Key.maskPoints m)) Res.state),
    eachOf on (fun m => refuse (!boundOk v (v (Key.maskView m)) (v (Key.maskPort m))) Res.state),
    eachOf ocs (fun m => refuse (v (Key.occEnable m) != 0 && v (Key.densEnable m) == 0) Res.state),
    refuse (old Key.trigLogEnable != 0 && v Key.trigLogEnable != 0 && (g.has Key.trigLogBase || g.has Key.trigLogSize)) Res.state,
    eachOf ms (fun m => refuse (v (Key.maskPoints m) == 0 || decide (65536 < v (Key.maskPoints m)) ||
      (g.has (Key.maskTable m) && (List.range 65536).any fun i => let (u, l) := State.maskEntry (v (Key.maskTable m)) i; decide (u < l))) Res.range),
    eachOf ms (fun m => refuse (v (Key.maskK m) == 0 || decide (v (Key.maskPoints m) < v (Key.maskK m)) || v (Key.maskJ m) == 0 || decide (64 < v (Key.maskJ m)) ||
      v (Key.maskM m) == 0 || decide (v (Key.maskJ m) < v (Key.maskM m)) || v (Key.maskRearm m) == 0 || decide (64 < v (Key.maskRearm m)) || decide (32767 < v (Key.maskHyst m))) Res.range),
    eachOf ms (fun m => refuse (v (Key.maskReject m) % 2 != 0 || decide (32 ≤ v (Key.maskReject m))) Res.range),
    eachOf ocs (fun m => refuse (v (Key.occCount m) == 0 || decide (v (Key.occCount m) ≤ v (Key.occRearm m)) || v (Key.occColCount m) == 0 || v (Key.occRowCount m) == 0 ||
      ((v (Key.occEnable m) != 0 || (List.range 8).any fun j => g.has (Key.occEnable m + j)) && !occRegionOk v m)) Res.range),
    eachOf (g.units 0x3620 8) (fun n => refuse (decide (3 < v (Key.trigiEdge n)) || v (Key.trigiDead n) == 0) Res.range),
    eachOf (g.units 0x3628 8) (fun n => refuse (v (Key.trigoWidth n) == 0) Res.range),
    eachOf (g.units 0x3640 64) (fun c => refuse (!publishable (v (Key.rtrigPublish c)) || decide (1 < v (Key.rtrigScope c))) Res.range),
    refuse (decide (v Key.rtrigTimeout < 400) || decide (4000000 < v Key.rtrigTimeout)) Res.range,
    refuse (g.hasIndex 0x3631 && (bit (v Key.trigLogKinds) 7 || v Key.trigLogBase % 4096 != 0 || v Key.trigLogSize % 32 != 0 ||
      ((v Key.trigLogEnable != 0 || v Key.trigLogSize != 0) && decide (v Key.trigLogSize < 4096)) || (v Key.trigLogEnable != 0 && !fixedHolds v (v Key.trigLogBase) (v Key.trigLogSize)))) Res.range,
    refuse ((productExtents v).any fun e => extentsMeet log e.2) Res.overlap]

end Sys2Proof.Machine
end

