-- ==== Sys2Proof/Machine/Contexts.lean ====
section
/-! DEFINITION. Expressions and acquisition contexts: events, firings, windows, generations, arming and abort (07 R212 to R214; 08 R218 to
R227, R232, R233). -/

namespace Sys2Proof.Machine

open State

/-! ### Expressions (07 R212 to R214) -/

/-- A term's JOIN, QUAL, WIN_AND and WIN_THEN (07 Table 7-6). -/
def termJoin (x j : Nat) : Nat := fieldAt x (16 * j + 2) 1
def termQual (x j : Nat) : Nat := fieldAt x (16 * j + 3) 1
def termAnd (x j : Nat) : Nat := fieldAt x (16 * j + 4) 4
def termThen (x j : Nat) : Nat := fieldAt x (16 * j + 8) 4

/-- The stage of a term: terms with JOIN other than AND up to it, less one. -/
def termStage (x j : Nat) : Nat := ((List.range (j + 1)).filter fun i => termJoin x i != 1).length - 1

/-- The terms of a stage. -/
def stageTerms (x k : Nat) : List Nat := (termsUsed x).filter fun j => termStage x j == k

/-- Does a stage start a clause? -/
def stageFirst (x k : Nat) : Bool := match stageTerms x k with | j :: _ => termJoin x j == 0 | [] => true

/-- Is a stage the last of its clause? -/
def stageLast (x k : Nat) : Bool := (stageTerms x (k + 1)).isEmpty || stageFirst x (k + 1)

/-- The stages of the clause that a stage ends: back to the stage that starts it. -/
def clauseStages (x : Nat) : Nat → List Nat
  | 0 => [0]
  | k + 1 => if stageFirst x (k + 1) then [k + 1] else (k + 1) :: clauseStages x k

/-- Does a term match an event (07 R212)? -/
def termMatches (x j : Nat) (e : Event) : Bool :=
  termSource x j == e.source && (!([1, 4, 5].contains (e.source / 4096)) || bit (termQual x j) e.qual)

/-- The terms' latest accepted events (time plus one, flags) and the stages' completion times plus one. -/
structure ExprState where
  terms : Tab (KTime × Nat)
  stages : Tab KTime
  deriving DecidableEq, Repr

/-- One matching term takes an event; the result says whether the expression fires (07 R213). -/
def termStep (x : Nat) (e : Event) (st : ExprState) (j : Nat) : ExprState × Bool :=
  let last := tabSet (0, 0) st.terms j (e.time + 1, e.flags)
  let st1 : ExprState := { st with terms := last }
  let k := termStage x j
  let terms := stageTerms x k
  let s0 := terms.headD j
  let late (i : Nat) : Bool := (tabGet (0, 0) last i).1 == 0 || decide ((tabGet (0, 0) last i).1 - 1 + termAnd x s0 * tick < e.time)
  if terms.any late then (st1, false) else
  let p := tabGet 0 st.stages (k - 1)
  let blocked := !stageFirst x k && (p == 0 || decide (e.time ≤ p - 1) || decide (p - 1 + termThen x s0 * tick < e.time) ||
    terms.any fun i => decide ((tabGet (0, 0) last i).1 ≤ p))
  if blocked then (st1, false) else
  ({ st1 with stages := tabSet 0 st.stages k (e.time + 1) }, stageLast x k)

/-- The matching terms take an event in descending order until the expression fires; the result is the stage that fired (07 R213). -/
def termsStep (x : Nat) (e : Event) : ExprState → List Nat → ExprState × Option Nat
  | st, [] => (st, none)
  | st, j :: r =>
    let (st1, fires) := termStep x e st j
    if fires then (st1, some (termStage x j)) else termsStep x e st1 r

/-- The FLAGS of a firing: those of the events held by the firing clause (07 R214). -/
def firingFlags (x : Nat) (st : ExprState) (k : Nat) : Nat :=
  ((clauseStages x k).flatMap fun i => stageTerms x i).foldl (fun a j => a ||| (tabGet (0, 0) st.terms j).2) 0

namespace State

/-- Is a term of the expression in force on a STALE channel (07 R214)? -/
def exprStale (s : State) (x : Nat) : Bool :=
  (termsUsed x).any fun j => termSource x j / 4096 == 6 && s.obj (Key.rtrigState (termSource x j % 4096)) == 2

/-- Are all sources of an expression settled at a time? -/
def exprSettled (s : State) (x t : Nat) : Bool := (termsUsed x).all fun j => s.settled (termSource x j) t

/-! ### Windows and staging sizes (08 R219, R239) -/

/-- The capture entries in use: port and stream (08 Table 8-9). -/
def captureEntries (img : Nat) : List (Nat × Bool) :=
  ((List.range 16).map fun i => (fieldAt img (4 * i) 2, fieldAt img (4 * i + 2) 1 != 0, bit (fieldAt img (4 * i + 3) 1) 0)).takeWhile (·.2.2) |>.map fun e => (e.1, e.2.1)

/-- The sample bytes and the period of a stream in fraction units, as numerator and denominator (08 R238, R239). -/
def streamPeriod (s : State) (port : Nat) (fe : Bool) (t : Nat) : Nat × Nat × Nat :=
  let l := s.link (s.objAt (Key.portLink port) t)
  let kind := s.objAt (Key.portKind port) t
  if fe then (8, l.step * (if kind = 0 then 2 else 1) * max 1 (s.objAt (Key.feDecim port) t), l.den)
  else (formatBytes (rawFormat kind (s.portW port t)), l.step, l.den)

/-- The size of a record of a duration: 64 bytes and each entry's block with a full gap list (08 R239). -/
def recordBytesMax (s : State) (entries : List (Nat × Bool)) (d t : Nat) : Nat :=
  64 + entries.foldl (fun a (p, fe) =>
    let (b, num, den) := s.streamPeriod p fe t
    let n := cdiv (d * den) (max 1 num) + 1
    a + 32 + 8 * cdiv (n * b) 8 + 6144) 0

/-- The largest duration of a context's record in fraction units (08 R239). -/
def recordSpan (s : State) (c t : Nat) : Nat :=
  (if s.flagAt (Key.ctxExtend c) t then s.objAt (Key.ctxRecMax c) t else s.objAt (Key.ctxPre c) t + s.objAt (Key.ctxPost c) t) * tick

/-- acq.stage.used, tr.queue and acq.open (08 Table 8-10; 09 Table 9-15). -/
def refreshAcq (s : State) : State :=
  let live := s.acq.records.filter fun r => r.state != 3
  ((s.setObj Key.acqStageUsed (live.foldl (fun a r => a + (match r.stage with | some (_, n) => n | none => 0)) 0)).setObj Key.acqOpen live.length).setObj Key.trQueue
    (live.filter fun r => r.state == 1 && !r.running).length

/-- The staging space that the window of a record needs (08 R234, R239). -/
def stageUsed (s : State) (r : Record) : Nat := s.recordBytesMax (r.streams.map fun x => (x.port, x.fe)) (r.stop - r.start) r.trigger

/-- Fixes END of a record and frees the part of its staging space that the final window does not need (08 R221, R234). -/
def fixRecord (s : State) (r : Record) : State :=
  (s.updRecord { r with fixed := true, stage := r.stage.map fun (a, n) => (a, min n (s.stageUsed r)) }).refreshAcq

/-! ### The acceptance procedure (08 R221 to R226) -/

/-- Closes the open record: hold-off is set, and a single-mode context stops (08 R221). -/
def closeRecord (s : State) (c : Nat) : State :=
  let x := s.ctx c
  match x.openRec.bind (s.record? c) with
  | none => s.putCtx c { x with openRec := none }
  | some r =>
    let hold := s.objAt (Key.ctxHoldoff c) r.trigger
    let byTime := s.objAt (Key.ctxHoldoffMode c) r.trigger == 0
    let x1 := { x with openRec := none, rearm := if byTime then r.stop + hold * tick else x.rearm, left := if byTime then x.left else hold, stopped := s.objAt (Key.ctxMode c) r.trigger == 1 }
    (s.putCtx c x1).fixRecord r

/-- ctx.state at the settled point (08 R224, Table 8-1). -/
def refreshCtx (s : State) (c : Nat) : State :=
  let x := s.ctx c
  let holding := if s.objAt (Key.ctxHoldoffMode c) x.gen = 0 then decide (x.from' < x.rearm ∧ x.passed ≤ x.rearm) else x.left != 0
  s.setObj (Key.ctxState c) (if !s.flagAt (Key.ctxEnable c) x.gen then 0 else if x.openRec.isSome then 2 else if x.stopped then 4 else if holding then 3 else 1)

/-- The generation that starts at T: the old generation's open record keeps its END; the new one starts armed, its expression cleared (08 R225,
R226). -/
def takeGeneration (s : State) (c T : Nat) : State :=
  let x := s.ctx c
  let s1 := match x.openRec.bind (s.record? c) with
    | some r => s.fixRecord r
    | none => s
  s1.putCtx c { s1.ctx c with gen := T, genNo := (x.gens.filter fun t => t ≤ T).length, terms := [], stages := [], fired := none, openRec := none, from' := T, rearm := T, left := 0, stopped := false, passed := max x.passed T }

/-- The arming at T returns a STOPPED context to ARMED from T; a record whose END it has passed closes first (08 R223). -/
def takeArm (s : State) (c T : Nat) : State :=
  let s1 := match ((s.ctx c).openRec.bind (s.record? c)) with
    | some r => if r.stop ≤ T then s.closeRecord c else s
    | none => s
  let x := s1.ctx c
  let x1 := { x with arms := x.arms ++ [T], passed := max x.passed T }
  s1.putCtx c (if x.stopped then { x1 with stopped := false, from' := T, rearm := T, left := 0 } else x1)

/-- A new record (08 R219, R221, R225). -/
def newRecord (s : State) (c t flags : Nat) : State :=
  let n := s.obj (Key.ctxRecords c)
  let r : Record := { ctx := c, number := n, gen := (s.ctx c).genNo % 256, trigger := t, start := t - s.objAt (Key.ctxPre c) t * tick, stop := t + s.objAt (Key.ctxPost c) t * tick, flags := flags % 32, streams := (captureEntries (s.objAt (Key.ctxCapture c) t)).map fun e => { port := e.1, fe := e.2 } }
  let s1 := s.withAcq { s.acq with records := s.acq.records ++ [r] }
  let s2 := s1.putCtx c { s1.ctx c with openRec := some n }
  ((s2.bump (Key.ctxRecords c)).setObj (Key.ctxLast c) t).refreshAcq

/-- A firing of the context's expression at t (08 R221). -/
def offerFiring (s : State) (c t flags : Nat) : State :=
  let ignore (y : State) : State := y.bump (Key.ctxIgnored c)
  let x := s.ctx c
  if !s.flagAt (Key.ctxEnable c) t || x.stopped || decide (t < x.from') then ignore s else
  let rec? := x.openRec.bind (s.record? c)
  match rec? with
  | some r =>
    if t < r.stop then
      if s.flagAt (Key.ctxExtend c) t then
        (s.updRecord { r with stop := min (t + s.objAt (Key.ctxPost c) t * tick) (r.start + s.objAt (Key.ctxRecMax c) t * tick), flags := r.flags ||| 128 }).bump (Key.ctxRetriggers c)
      else ignore s
    else
      let s1 := s.closeRecord c
      if s.objAt (Key.ctxMode c) r.trigger = 1 then ignore s1 else hold s1
  | none => hold s
where
  /-- The hold-off test and the new record (08 R221, R222). -/
  hold (y : State) : State :=
    let x := y.ctx c
    if y.objAt (Key.ctxHoldoffMode c) t = 0 ∧ t < x.rearm then y.bump (Key.ctxIgnored c)
    else if y.objAt (Key.ctxHoldoffMode c) t = 1 ∧ 0 < x.left then (y.putCtx c { x with left := x.left - 1 }).bump (Key.ctxIgnored c)
    else y.newRecord c t flags

/-- The least of two times, of which either may be missing. -/
def earlier (a : Option KTime) (t : KTime) : Option KTime := match a with | none => some t | some b => some (min b t)

/-- The next generation start that the context has not taken (08 R225). -/
def nextGen (s : State) (c : Nat) : Option KTime :=
  let x := s.ctx c
  (x.gens.filter fun T => x.gen < T || x.genNo == 0).foldl earlier none

/-- The next T of ctx.arm that the context has not taken (08 R223). -/
def nextArm (s : State) (c : Nat) : Option KTime :=
  ((s.allWrites.filter fun w => w.2 == Key.ctxArm c && !(s.ctx c).arms.contains w.1).map (·.1)).foldl earlier none

/-- The expression of the generation that the context is processing. -/
def ctxExprNow (s : State) (c : Nat) : Nat := s.objAt (Key.ctxExpr c) (s.ctx c).gen

/-- The context's next event in the generation that it is processing: the first after the last taken, of a source of its expression, before the next
generation starts. An enabled and a disabled context take events alike (07 R190, R210, R213; 08 R221, R226). -/
def ctxNext (s : State) (c : Nat) : Option Event :=
  let x := s.ctx c
  let expr := s.ctxExprNow c
  let before (t : Nat) : Bool := match s.nextGen c with | some T => decide (t < T) | none => true
  nextEvent x.taken (s.trig.events.filter fun e =>
    decide (x.gen ≤ e.time) && before e.time && !e.missed.contains c && (termsUsed expr).any fun j => termSource expr j == e.source)

/-- The settled point has reached t: the sources of the expression in force have settled there, and every event up to t is taken (07 R190; 08 R221). -/
def ctxClear (s : State) (c t : Nat) : Bool :=
  s.exprSettled (s.ctxExprNow c) t && (match s.ctxNext c with | some e => decide (t < e.time) | none => true)

/-- Takes the generation starts and armings that the settled point has reached, in ascending T: all that comes before T is taken under the old
generation first (08 R221, R223, R226). -/
def takeTurns (s : State) (c : Nat) : Nat → State
  | 0 => s
  | fuel + 1 =>
    let due (T : KTime) : Bool := decide (T ≤ s.time) && s.ctxClear c (T - 1)
    match s.nextGen c, s.nextArm c with
    | some T, some A => if A < T then (if due A then takeTurns (s.takeArm c A) c fuel else s) else if due T then takeTurns (s.takeGeneration c T) c fuel else s
    | some T, none => if due T then takeTurns (s.takeGeneration c T) c fuel else s
    | none, some A => if due A then takeTurns (s.takeArm c A) c fuel else s
    | none, none => s

/-- The turns of one step: more than any run of commits leaves. -/
def turnFuel : Nat := 4096

/-- A settled event through the expression, and its firing through the context (07 R213, R214; 08 R221). -/
def ctxEvent (s : State) (c : Nat) (e : Event) : State :=
  let x := s.ctx c
  let s2 := s.putCtx c { x with taken := some e, passed := max x.passed (e.time + 1) }
  let ignored := decide (e.time < x.from') || (match x.fired with | some f => decide (e.time ≤ f) | none => false)
  if ignored then s2 else
  let expr := s2.ctxExprNow c
  let (st, fires) := termsStep expr e { terms := x.terms, stages := x.stages } ((termsUsed expr).filter fun j => termMatches expr j e).reverse
  match fires with
  | none => s2.putCtx c { s2.ctx c with terms := st.terms, stages := st.stages }
  | some k =>
    let fl := firingFlags expr st k ||| (if s2.exprStale expr then 2 else 0)
    (s2.putCtx c { s2.ctx c with terms := [], stages := [], fired := some e.time }).offerFiring c e.time fl

/-- What a context shows once it has moved on: its state, and the recorder segments that it closes. -/
def ctxDone (s : State) (c : Nat) : State := (s.refreshCtx c).closeDue

end State

/-- A context's expression takes its next event, once every source it combines has settled at the event's time (07 R190, R213; 08 R221). -/
def execExprEvent (ctx : Fin 1024) (s : State) : Out :=
  if s.deckStopped then .next s else
  let c := ctx.val
  let s1 := s.takeTurns c State.turnFuel
  match s1.ctxNext c with
  | none => .next (s1.ctxDone c)
  | some e => if s1.exprSettled (s1.ctxExprNow c) e.time then .next ((s1.ctxEvent c e).ctxDone c) else .next (s1.ctxDone c)

/-- The settled point passes a generation's start, an arming, an END, the rearm time, or the T of a segment close (08 R221, R223, R226, Table 8-2; 11 R315). -/
def execCtxSettledAdvance (ctx : Fin 1024) (s : State) : Out :=
  if s.deckStopped then .next s else
  let c := ctx.val
  let s1 := s.takeTurns c State.turnFuel
  let x := s1.ctx c
  let advance (y : State) (t : Nat) : State := (y.putCtx c { y.ctx c with passed := max (y.ctx c).passed (t + 1) }).ctxDone c
  match (x.openRec.bind (s1.record? c)).map (·.stop) with
  | some e => if s1.ctxClear c e then .next (advance (s1.closeRecord c) e) else .next (s1.ctxDone c)
  | none =>
    if x.from' < x.rearm ∧ x.passed ≤ x.rearm ∧ s1.ctxClear c x.rearm then .next (advance s1 x.rearm)
    else match (s1.recd.closes.map (·.2)).find? fun T => x.passed < T && decide (T ≤ s1.time) && s1.ctxClear c (T - 1) with
      | some T => .next (advance s1 (T - 1))
      | none => .next (s1.ctxDone c)

/-- The due command ctx.arm: a STOPPED context is ARMED from T, once the settled point has reached T (08 R223). -/
def execCtxArm (ctx : Fin 1024) (s : State) : Out :=
  let c := ctx.val
  .next (((s.withDue (s.due.filter fun d => d.1 != Key.ctxArm c)).takeTurns c State.turnFuel).refreshCtx c)

/-- The smallest commit point over a record's streams; none is unbounded (08 R232; 11 R302). -/
def State.recordCommit (s : State) (r : Record) : Option KTime :=
  r.streams.foldl (fun a x => match a, s.commitPoint (x.port + (if x.fe then 1024 else 0)) with
    | none, b => b
    | some b, none => some b
    | some b, some d => some (min b d)) none

/-- Cuts one record when its END lies after its commit point (08 R232). -/
def State.abortRecord (s : State) (r : Record) : Option State :=
  if r.state ≠ 0 then none else
  match s.recordCommit r with
  | none => none
  | some C =>
    if r.stop ≤ C then none else
    let r1 := { r with stop := max C r.trigger, flags := r.flags ||| 64 }
    let s1 := (s.updRecord r1).bump (Key.ctxAborts r.ctx)
    some (if (s1.ctx r.ctx).openRec = some r.number then s1.closeRecord r.ctx else s1.fixRecord r1)

/-- ctx.abort (08 R232): DONE when it has cut a record, ALREADY when it has cut none. -/
def immCtxAbort (c : Nat) (s : State) : Code × State :=
  let (n, s1) := (s.acq.records.filter fun r => r.ctx == c).foldl (fun (n, y) r => match y.abortRecord r with
    | some y1 => (n + 1, y1)
    | none => (n, y)) (0, s)
  if n = 0 then (Res.already, s) else (Res.done, s1.refreshCtx c)

/-- ctx.abort acts when it is received (08 R232). -/
def execCtxAbort (ctx : Fin 1024) (s : State) : Out := .next (s.act (immCtxAbort ctx.val))

end Sys2Proof.Machine
end

