-- ==== Sys2Proof/Machine/Records.lean ====
section
/-! DEFINITION. The record pipeline: staging, extraction, assembly, delivery and completion (08 R228 to R240; 11 R301 to R303). -/

namespace Sys2Proof.Machine

/-- Adds positions of one status to a stream's gap list; adjoining runs of equal KIND and CAUSE are one entry (08 R239). -/
def RecStream.addRun (x : RecStream) (n kind cause : Nat) : RecStream :=
  let runs := match x.runs.getLast? with
    | some g => if g.first + g.count = x.count ∧ g.kind = kind ∧ g.cause = cause then x.runs.dropLast ++ [{ g with count := g.count + n }] else x.runs ++ [{ first := x.count, count := n, kind := kind, cause := cause }]
    | none => [{ first := x.count, count := n, kind := kind, cause := cause }]
  { x with runs := runs }

/-- The first index i at or above 0 of a grid with position times at or after t. -/
def gridFrom (g : Exact) (step : Nat) (t : Int) : Nat := ((t * g.d - g.n + step - 1) / max 1 step).toNat

/-- Takes n positions of a grid from index i on. -/
def RecStream.take (x : RecStream) (g : Exact) (step i n : Nat) : RecStream :=
  if n = 0 then x else
  { x with first := if x.count = 0 then ((g.n + i * step) / g.d).toNat else x.first, count := x.count + n, next := some ({ g with n := g.n + (i + n) * step }, step) }

/-- n positions that the ring does not hold: zero, KIND 1, MISSING (08 R229). -/
def RecStream.miss (x : RecStream) (g : Exact) (step i n cause : Nat) : RecStream :=
  if n = 0 then x else
  let y := (x.addRun n 1 cause).take g step i n
  { y with data := x.data ++ zeros (n * formatBytes x.format), flags := x.flags ||| 32 }

/-- The flags of front-end sample flag bytes in the order of Table 8-5: settling bit 2, overload bit 3, filling bit 4 (08 R238). -/
def feFlags (data : Bytes) : Nat → Nat → Nat
  | 0, a => a
  | n + 1, a =>
    let f := (data.getD (8 * n + 6) 0).toNat
    feFlags data n (a ||| (4 * b2n (bit f 1) + 8 * b2n (bit f 0) + 16 * b2n (bit f 2)))

/-- Positions i to i + n − 1 of a block that memory returned (08 R230; 11 R303). -/
def RecStream.takeBlock (x : RecStream) (b : Block) (img : Bytes) (i n : Nat) : RecStream :=
  if n = 0 then x else
  let w := formatBytes x.format
  let data := if b.gap then zeros (n * w) else (img.drop (64 + i * w)).take (n * w)
  let own := if b.gap then b.flags else if x.fe then b.flags % 4 ||| feFlags data n 0 else b.flags % 16
  let own' := own ||| (if b.cause = 0 then 0 else if b.cause < 0x20 then 1 else 2)
  let y := (if b.gap ∨ b.cause ≠ 0 then x.addRun n 0 b.cause else x).take b.first b.step i n
  { y with data := x.data ++ data, flags := x.flags ||| own' }

namespace State

/-- The part of a grid segment that a stream still needs below a limit: first index and number of positions. Positions already taken lie
before the stream's next. -/
def neededPart (r : Record) (x : RecStream) (first : Exact) (step count : Nat) (limit : Nat) : Nat × Nat :=
  let lo := match x.next with
    | none => gridFrom first step r.start
    | some (p, st) => gridFrom first step ((p.n - st) / p.d + 1)
  let hi := min count (gridFrom first step limit)
  (lo, hi - lo)

/-- What the directory says of the ring's positions from a stream's next position on: a written block, positions not held, or neither. -/
inductive RingPart where
  | block (b : Block)
  | lost (x : NotHeld)
  | waiting (first : Exact) (step : Nat)
  | none

/-- The first part of a stream of the ring whose last position is not taken yet (11 R299, R301). -/
def nextPart (s : State) (id : Nat) (r : Record) (x : RecStream) : RingPart :=
  let st := s.ringStream id
  let open' (f : Exact) (step n : Nat) : Bool := decide (0 < (neededPart r x f step n (2 ^ 90)).2)
  let blocks := st.blocks.find? fun b => open' b.first b.step b.count
  let lost := st.notHeld.find? fun b => open' b.first b.step b.count
  let part (b : Block) : RingPart := if b.written then .block b else .waiting b.first b.step
  let ahead : RingPart := match st.openBlock with
    | some b => .waiting b.first b.step
    | none => .none
  match blocks, lost with
  | some b, some n => if n.first.floor < b.first.floor then .lost n else part b
  | some b, none => part b
  | none, some n => .lost n
  | none, none => ahead

/-- The grid of a stream extended beyond what the ring holds (08 R219): the record's own, the last of the ring, or the one of R79 or R111 that the port's
configuration gives. -/
def outerGrid (s : State) (id : Nat) (x : RecStream) (t : KTime) : Exact × Nat :=
  match x.next, (s.ringStream id).grid with
  | some g, _ => g
  | none, some g => g
  | none, none =>
    let l := s.link (s.objAt (Key.portLink x.port) t)
    let raw := l.sampleTime 0 0
    if !x.fe then (raw, l.step) else
    let f := s.fe x.port
    let c := s.feCfg x.port t
    let known := decide (0 < f.grid.step)
    let ms := mixerStep c (if known then f.grid.step else l.step)
    let a := if known then f.grid.anchor else raw
    ({ n := 2 * a.n - (c.delay2 * ms : Nat), d := 2 * a.d }, 2 * c.k * ms)

/-- Has the stream a grid: one that the ring has taken, the link's for a raw stream, or the front end's once it has started (08 R219)? -/
def hasGrid (s : State) (id : Nat) (x : RecStream) : Bool :=
  x.next.isSome || (s.ringStream id).grid.isSome || !x.fe || decide (0 < (s.fe x.port).grid.step)

/-- The index, which may lie before the grid's origin, of the first position of a grid at or after t. -/
def gridFromI (g : Exact) (step : Nat) (t : Int) : Int := (t * g.d - g.n + step - 1) / (max 1 step : Nat)

/-- Positions of a grid not held between a stream's next position and a limit (08 R219, R229). -/
def missTo (r : Record) (x : RecStream) (g : Exact) (step : Nat) (limit : KTime) : RecStream :=
  let lo : Int := match x.next with
    | none => gridFromI g step r.start
    | some (p, _) => gridFromI g step (p.n / p.d)
  let hi := gridFromI g step limit
  if hi ≤ lo then x else x.miss { g with n := g.n + lo * step } step 0 (hi - lo).toNat 0

/-- The time before which a record is extracted: its END, and nothing past the smallest commit point of its streams, so that no position at or after a cut's
END is ever taken (08 R219, R228, R232). -/
def extractLimit (s : State) (r : Record) : KTime := match s.recordCommit r with | some C => min C r.stop | none => r.stop

/-- Brings one stream of a record forward until a read is issued or nothing more can be taken now (08 R228, R229; 11 R301 to R303). -/
def extractOn (s : State) (r : Record) (x : RecStream) : Nat → RecStream × State
  | 0 => (x, s)
  | fuel + 1 =>
    let id := x.port + (if x.fe then 1024 else 0)
    let stop := s.extractLimit r
    let past : Bool := match x.next with | some (p, _) => decide (stop ≤ p.floor) | none => false
    if x.reading.isSome ∨ past then (x, s) else
    match s.nextPart id r x with
    | .lost n =>
      let x1 := missTo r x n.first n.step (min n.first.floor stop)
      let (i, m) := neededPart r x1 n.first n.step n.count stop
      let x2 := x1.miss n.first n.step i m n.cause
      if x2.count = x.count then (x, s) else extractOn s r x2 fuel
    | .block b =>
      let x1 := missTo r x b.first b.step (min b.first.floor stop)
      let (_, m) := neededPart r x1 b.first b.step b.count stop
      if m = 0 then (x1, s)
      else ({ x1 with reading := some b }, s.memRead (.extract r.ctx r.number) 1 (s.blockAddr b.slab b.place) 4096)
    | .waiting f step => (missTo r x f step (min f.floor stop), s)
    | .none =>
      if !s.hasGrid id x && (s.commitPoint id).isSome then (x, s) else
      let (g, step) := s.outerGrid id x r.start
      (missTo r x g step stop, s)

/-- Takes what a stream's read returned (11 R301): the block counts only if its slab still has the allocation it had. -/
def takeReturned (s : State) (r : Record) (x : RecStream) : RecStream × State :=
  match x.reading with
  | none => (x, s)
  | some b =>
    let id := x.port + (if x.fe then 1024 else 0)
    let o := Owner.extract r.ctx r.number
    let a := s.blockAddr b.slab b.place
    if s.outstandingIn o a 4096 then (x, s) else
    let ((img, lost), s1) := s.takeRead o a 4096
    let slab := tabGet ({} : Slab) s1.ring.slabs b.slab
    let x1 := { x with reading := none }
    let (i, m) := neededPart r x1 b.first b.step b.count (s1.extractLimit r)
    if lost then (x1.miss b.first b.step i m causeMemoryLoss, s1)
    else if slab.alloc ≠ b.alloc ∨ slab.owner ≠ id + 1 then (x1.miss b.first b.step i m 0, s1)
    else (x1.takeBlock b img i m, s1)

/-- Has a stream delivered every position before END? -/
def streamDone (r : Record) (x : RecStream) (s : State) : Bool :=
  x.reading.isNone && (match x.next with
    | some (p, _) => decide (r.stop ≤ p.floor)
    | none => match s.commitPoint (x.port + (if x.fe then 1024 else 0)) with
      | none => true
      | some C => decide (r.stop ≤ C))

/-- The format of a stream's samples at a time (08 Table 8-6). -/
def formatOf (s : State) (port t : Nat) (fe : Bool) : Nat := if fe then 4 else rawFormat (s.objAt (Key.portKind port) t) (s.portW port t)

/-- MSTATUS that is known when CAPTURING ends (08 R235): cut, no program, or a measured entry that lists a KIND 1 run; none while a program has to
run. -/
def earlyStatus (s : State) (r : Record) : Option Nat :=
  if s.objAt (Key.ctxMeasProg r.ctx) r.trigger = 0xFFFF then some 1
  else if bit r.flags 6 then some 2
  else if (gapList (r.streams.getD (s.objAt (Key.ctxMeasEntry r.ctx) r.trigger) { port := 0, fe := false })).any fun g => g.kind == 1 then some 3
  else none

/-- CAPTURING ends: the record is assembled in its staging space and enters MEASURING, or DELIVERING where no program runs (08 R231, R234,
R235). -/
def assemble (s : State) (r : Record) : State :=
  let flags := r.streams.foldl (fun a x => a ||| x.flags) r.flags
  let early := s.earlyStatus { r with flags := flags }
  let r1 := { r with flags := flags, state := if early.isSome then 2 else 1, mstatus := early.getD 0, results := zeros 56 }
  let s1 := s.updRecord r1
  let s2 := match r.stage with
    | some (a, _) => s1.memWrite (.staging r.ctx r.number) 1 a (s1.recordImage r1 0)
    | none => s1
  s2.refreshAcq

/-- Every stream of a record takes what has returned and goes on; the record is assembled when END is fixed and every stream is done. -/
def extract (s : State) (r : Record) : State :=
  let (xs, s1) := r.streams.foldl (fun (a : List RecStream × State) x =>
    let x0 := { x with format := if x.count = 0 ∧ x.reading.isNone then a.2.formatOf x.port r.trigger x.fe else x.format }
    let (x1, y1) := a.2.takeReturned r x0
    let (x2, y2) := y1.extractOn r x1 4096
    (a.1 ++ [x2], y2)) ([], s)
  let r1 := { r with streams := xs }
  let s2 := s1.updRecord r1
  if r.fixed ∧ xs.all (fun x => streamDone r1 x s2) then s2.assemble r1 else s2

/-- Does an extent of n bytes at a lie in the staging area, clear of every other record's space? -/
def stageFree (s : State) (used : List (Nat × Nat)) (a n : Nat) : Bool :=
  decide (a + n ≤ s.obj Key.acqStageBase + s.obj Key.acqStageSize) && used.all fun u => decide (a + n ≤ u.1 ∨ u.1 + u.2 ≤ a)

/-- The lowest free place for n bytes in the staging area. -/
def stagePlace (s : State) (n : Nat) : Option Nat :=
  let used := s.acq.records.filterMap fun r => if r.state = 3 then none else r.stage
  ((s.obj Key.acqStageBase :: used.map fun u => pad64 (u.1 + u.2)).filter fun a => s.stageFree used a n).foldl (fun (b : Option Nat) a => match b with
    | none => some a
    | some c => some (min a c)) none

/-- The record that waits for staging space and its turn: the oldest in order of acceptance (08 R234). -/
def stageNext (s : State) : Option Record := s.acq.records.find? fun r => r.state == 0 && r.stage.isNone

/-- The bytes of staging space a record takes: its maximum size (08 R234, R239). -/
def stageNeed (s : State) (r : Record) : Nat :=
  s.recordBytesMax (r.streams.map fun x => (x.port, x.fe)) (s.recordSpan r.ctx r.trigger) r.trigger

/-- Are the earlier records of the context placed already? -/
def inTurn (s : State) (r : Record) : Bool := s.acq.records.all fun y => y.ctx != r.ctx || y.number ≥ r.number || y.placed

/-- The VITA 49.2 records of a record: one for each stream block (14 R387 to R392). -/
def vrtRecords (s : State) (r : Record) : List VrtRecord :=
  r.streams.zipIdx.map fun (x, i) =>
    { sid := s.sidIq r.ctx i, format := x.format, spectral := false, k := x.first, flags := x.flags % 32 + 64 * b2n (bit x.flags 5), first := streamBlock' x, port := x.port, raw := !x.fe }

/-- Hands a record in DELIVERING to its destination where the destination can take it now (08 R236). -/
def placeRecord (s : State) (r : Record) : State :=
  let kind := s.objAt (Key.ctxDestKind r.ctx) r.trigger
  let num := s.objAt (Key.ctxDestNum r.ctx) r.trigger
  if r.state ≠ 2 ∨ r.placed ∨ !s.inTurn r then s
  else if kind = 0 then s.updRecord { r with placed := true, acked := true, location := 0 }
  else if kind = 1 then s.recordToDrive r num
  else if kind = 2 then
    if !s.flag (Key.hrEnable num) then s.updRecord { r with placed := true, acked := true, location := notStored } else
    let len := (s.recordImage r 0).length
    if !s.entryFits num len then s.putHostRing num { s.hostRing num with waiting := true } else
    let loc := num * 2 ^ 32 + (s.entryPlace num len).2.1
    let (r, s) := s.stagedRecord r
    let (_, s1) := s.writeEntry num 2 1 (s.recordImage r loc) (some (r.ctx, r.number))
    s1.updRecord { r with placed := true, location := loc }
  else
    if !s.vrtFits num (s.vrtRecords r) then s else
    let (r, s) := s.stagedRecord r
    (s.vrtQueue num (s.vrtRecords r)).updRecord { r with placed := true, acked := true, location := num }

/-- Has the destination acknowledged the whole record (08 R236)? -/
def recordAcked (s : State) (r : Record) : Bool :=
  r.acked || (r.placed && s.objAt (Key.ctxDestKind r.ctx) r.trigger == 2 && !s.entryInFlight (s.objAt (Key.ctxDestNum r.ctx) r.trigger) r.ctx r.number)

/-- The completion entry of a record, 128 bytes (08 R240). -/
def completionEntry (s : State) (r : Record) : Bytes :=
  recordDescriptor (s.obj Key.spanNode) r r.mstatus r.location ++ padTo 56 r.results ++ natLE 8 s.acq.doneSeq

/-- A record becomes COMPLETE: its completion entry is written and its staging space is free (08 R231, R234, R240). -/
def completeRecord (s : State) (r : Record) : State :=
  let size := s.obj Key.acqDoneSize
  let s1 := ((s.updRecord { r with state := 3, stage := none, streams := r.streams.map fun (x : RecStream) => { x with data := [], runs := [] } }).bump (Key.ctxCompleted r.ctx)).addObj Key.acqMissing (b2n (bit r.flags 5))
  let s2 := if size = 0 then s1 else
    let off := s1.acq.doneNext
    let y := s1.memWrite .completion 2 (s1.obj Key.acqDoneBase + off) (s1.completionEntry r)
    y.withAcq { y.acq with doneNext := (off + 128) % size, doneSeq := y.acq.doneSeq + 1, doneUnacked := y.acq.doneUnacked ++ [off] }
  s2.refreshAcq.closeDue

end State

/-- The oldest record that waits for staging space gets it, where enough is free for its maximum size, and starts extracting; where its END is fixed already, the
unused part is free again at once (08 R234). -/
def execStagingSpaceGrant (s : State) : Out :=
  match s.stageNext with
  | none => .next s
  | some r =>
    let n := s.stageNeed r
    match s.stagePlace n with
    | none => .next s
    | some a =>
      let r1 := { r with stage := some (a, if r.fixed then min n (s.stageUsed r) else n) }
      .next (((s.updRecord r1).extract r1).refreshAcq)

/-- Reads of ring blocks for a record have returned, or the ring writer has come further: the record's streams go on (11 R301, R302). -/
def execExtractBlockReturn (ctx : Fin 1024) (record : Nat) (s : State) : Out :=
  match s.record? ctx.val record with
  | none => .next s
  | some r => if r.state ≠ 0 ∨ r.stage.isNone then .next s else .next (s.extract r)

/-- A record in DELIVERING goes to its destination, or is COMPLETE once the destination has acknowledged it and every earlier record of its
context is COMPLETE (08 R231, R236). -/
def execRecordDelivered (ctx : Fin 1024) (record : Nat) (s : State) : Out :=
  match s.record? ctx.val record with
  | none => .next s
  | some r0 =>
    if r0.state ≠ 2 then .next s else
    let s1 := s.placeRecord r0
    let r := (s1.record? ctx.val record).getD r0
    if s1.recordAcked r ∧ s1.acq.records.all (fun y => y.ctx != r.ctx || y.number ≥ r.number || y.state == 3) then .next (s1.completeRecord r)
    else .next s1

/-- Memory acknowledged the oldest completion entry: acq.done.wptr advances and the acquisition event is raised (08 R240; 12 Tables 12-9 and
12-12). -/
def execCompletionEntryAcked (s : State) : Out :=
  match s.acq.doneUnacked with
  | [] => .next s
  | off :: rest =>
    if s.outstandingIn .completion (s.obj Key.acqDoneBase + off) 128 then .next s else
    let s1 := s.withAcq { s.acq with doneUnacked := rest }
    .next (((s1.setObj Key.acqDoneWptr ((off + 128) % max 1 (s.obj Key.acqDoneSize))).raiseEvent 6).moverEvent 0x6000)

end Sys2Proof.Machine
end

