-- ==== Sys2Proof/Machine/Trestle.lean ====
section
/-! DEFINITION. Trestle cores: dispatch, record presentation, traps and endings, the library, and how an instruction executes (09 R243 to
R253, R260 to R266). -/

namespace Sys2Proof.Machine

/-! ### Program images (09 R263) -/

def imgPwords (b : Bytes) : Nat := leNat ((b.drop 8).take 2)
def imgDwords (b : Bytes) : Nat := leNat ((b.drop 10).take 2)
def imgEntry (b : Bytes) : Nat := leNat ((b.drop 12).take 2)
def imgEvec (b : Bytes) : Nat := leNat ((b.drop 14).take 2)
def imgDbase (b : Bytes) : Nat := leNat ((b.drop 16).take 2)
def imgIbuf (b : Bytes) : Nat := leNat ((b.drop 18).take 2)
def imgBlock (b : Bytes) : Nat := leNat ((b.drop 20).take 2)

/-- The program words and the data words of an image. -/
def imgWord (b : Bytes) (pc : Nat) : Nat := leNat ((b.drop (64 + 6 * pc)).take 6)
def imgData (b : Bytes) (i : Nat) : Nat := leNat ((b.drop (64 + 6 * imgPwords b + 3 * i)).take 3)

/-- Bytes as data-memory words: byte b in word floor(b / 3) (09 R246). -/
def packWords (mem : Tab Nat) (base : Nat) (b : Bytes) : Tab Nat :=
  (List.range (cdiv b.length 3)).foldl (fun m i => tabSet 0 m (base + i) (leNat ((b.drop (3 * i)).take 3))) mem

/-- Is an address in the record area, and in its results region (09 Table 9-2)? -/
def inRecordArea (a : Nat) : Bool := decide (0xE000 ≤ a ∧ a ≤ 0xE8FF)
def inResults (a : Nat) : Bool := decide (0xE8A0 ≤ a ∧ a ≤ 0xE8B2)

namespace State

def core (s : State) (k : Nat) : Core := tabGet {} s.cores k
def putCore (s : State) (k : Nat) (c : Core) : State := s.withCores (tabSet {} s.cores k c)

/-- The record that a core runs. -/
def coreRecord (s : State) (c : Core) : Option Record := c.record.bind fun r => s.record? r.1 r.2

/-- The user image of a program number in force for a record (09 R264). -/
def imageOf (s : State) (prog : Nat) (r : Record) : Bytes := unmarked (s.objAt (Key.trImage (prog - 0x8000)) r.trigger)

/-- The measured stream of a record (08 R235). -/
def measured (s : State) (r : Record) : RecStream := r.streams.getD (s.objAt (Key.ctxMeasEntry r.ctx) r.trigger) { port := 0, fe := false }

/-- ctx.meas.budget of a record. -/
def budgetOf (s : State) (r : Record) : Nat := s.objAt (Key.ctxMeasBudget r.ctx) r.trigger

/-- The data memory at the start of a record (09 R246, R247). -/
def coreMemory (s : State) (r : Record) (img : Bytes) : Tab Nat :=
  let x := s.measured r
  let m0 := (List.range (imgDwords img)).foldl (fun m i => tabSet 0 m (imgDbase img + i) (imgData img i)) []
  let m1 := packWords m0 0xE000 (gapBytes x)
  let m2 := packWords m1 0xE800 (recordDescriptor (s.obj Key.spanNode) r 0 0)
  let m3 := packWords m2 0xE818 (streamHeader x)
  packWords m3 0xE830 (natLE 256 (s.objAt (Key.ctxMeasParams r.ctx) r.trigger))

/-! ### Blocks and events (09 R248 to R250) -/

/-- Blocks of the measured entry. -/
def blockCount (s : State) (r : Record) (img : Bytes) : Nat := cdiv (s.measured r).count (max 1 (imgBlock img))

/-- One sample as data-memory words: I, then Q of a complex sample; raw samples sign-extended (09 R248). -/
def sampleWords (format : Nat) (b : Bytes) : List Nat :=
  let sx (w : Nat) (l : Bytes) : Nat := ofSigned 24 (toSigned w (leNat l))
  match format with
  | 0 => [sx 8 (b.take 1)]
  | 1 => [sx 16 (b.take 2)]
  | 2 => [sx 8 (b.take 1), sx 8 ((b.drop 1).take 1)]
  | 3 => [sx 16 (b.take 2), sx 16 ((b.drop 2).take 2)]
  | _ => [leNat (b.take 3), leNat ((b.drop 3).take 3)]

/-- The samples of block k, as bytes. -/
def blockSamples (x : RecStream) (size k : Nat) : List Bytes :=
  let w := formatBytes x.format
  (List.range (min size (x.count - k * size))).map fun i => (x.data.drop ((k * size + i) * w)).take w

/-- The address of the buffer of block k. -/
def bufferOf (img : Bytes) (k : Nat) : Nat := imgIbuf img + k % 2 * (2 * imgBlock img)

/-- The OR of the flag bytes of a block (09 Table 9-3). -/
def blockFlags (x : RecStream) (l : List Bytes) : Nat := if x.fe then l.foldl (fun a b => a ||| (b.getD 6 0).toNat % 8) 0 else 0

/-- A core enters its next event: bank 1, the event registers, EVEC (09 R249). -/
def enterEvent (s : State) (r : Record) (img : Bytes) (c : Core) : Core :=
  let nb := s.blockCount r img
  let x := s.measured r
  let l := blockSamples x (imgBlock img) c.events
  let isEnd := nb ≤ c.events
  let c1 := { c with bank := 1, pc := imgEvec img, waiting := false, ended := isEnd, events := if isEnd then c.events else c.events + 1 }
  let regs : List Nat := if isEnd then [0, 2, 0, nb] else [l.length, 1, blockFlags x l, c.events % 2 ^ 24]
  let c2 := { c1 with d := regs.zipIdx.foldl (fun t (v, n) => tabSet 0 t (16 + n) (v % 2 ^ 24)) c1.d }
  c2.putA 0 (if isEnd then 0 else bufferOf img c.events)

/-- Is an address in the filling buffer (09 R250)? -/
def filling (s : State) (r : Record) (img : Bytes) (c : Core) (a : Nat) : Bool :=
  !c.ended && decide (c.events < s.blockCount r img ∧ bufferOf img c.events ≤ a ∧ a < bufferOf img c.events + 2 * imgBlock img)

/-! ### Endings (08 R235; 09 R260, R261) -/

/-- tr.core.state. -/
def setCoreState (s : State) (k v : Nat) : State := s.setObj (Key.trCoreState k) v

/-- The 56 result bytes of data memory (09 R246). -/
def resultBytes (c : Core) : Bytes := (((List.range 19).flatMap fun i => natLE 3 (c.word (0xE8A0 + i)))).take 56

/-- A program ends: the record goes on to DELIVERING with MSTATUS and results, and the core is free (08 R231, R235). -/
def endProgram (s : State) (k : Nat) (r : Record) (mstatus : Nat) (results : Bytes) : State :=
  (((s.putCore k {}).setCoreState k 0).updRecord { r with state := 2, running := false, mstatus := mstatus, results := if mstatus = 0 then results else zeros 56 }).refreshAcq

/-- A program's slot, for a user program. -/
def slotOf (prog : Nat) : Option Nat := if 0x8000 ≤ prog ∧ prog ≤ 0x801F then some (prog - 0x8000) else none

/-- A trap ends the program with FAULT (09 R261). -/
def trapCore (s : State) (k : Nat) (r : Record) (c : Core) (cause : Nat) : State :=
  let s1 := match slotOf c.prog with
    | some n => (((s.bump (Key.trFaults n)).setObj (Key.trFaultCause n) cause).setObj (Key.trFaultPc n) c.pc)
    | none => s
  s1.endProgram k r 5 []

end State

/-! ### PSDACC (09 R266) -/

/-- The instructions that PSDACC executes. -/
def psdaccLength (q : Nat) : Nat := 9 * 2 ^ q * q / 2 + 3 * 2 ^ q + 40

/-- The powers that PSDACC adds for one block, by output position, and the transformed samples. -/
def psdaccPowers (q window shift : Nat) (xs : List (Int × Int)) : List Nat × List (Int × Int) :=
  let n := 2 ^ q
  let (w, _) := windowFrame xs (windowCoeffs window 0 n 0)
  let (y, e) := transform n w
  ((selectBins n 0 n y).map fun v => (roundHalfEven (binPower e v) (2 ^ shift)).toNat, y)

/-- PSDACC on a core whose PC has come to 0x4000: a trap cause, or the core at its return (09 R266). free is the model's counter of free
values (notes/assumptions/4.md). -/
def psdacc (s : State) (r : Record) (img : Bytes) (c0 : Core) : Except Nat Core :=
  let c := c0.settle
  let q := c.dreg 0
  if q < 4 ∨ 12 < q ∨ 2 < c.dreg 1 ∨ 63 < c.dreg 2 then .error 1 else
  let n := 2 ^ q
  let sAddr (i : Nat) : Nat := (c.areg 0 + i) % 65536
  let tAddr (i : Nat) : Nat := (c.areg 1 + i) % 65536
  let touched := ((List.range (2 * n)).map sAddr) ++ ((List.range (2 * n)).map tAddr)
  if touched.any (s.filling r img c) then .error 5
  else if touched.any inRecordArea then .error 6
  else
    let xs := (List.range n).map fun i => (toSigned 24 (c.word (sAddr (2 * i))), toSigned 24 (c.word (sAddr (2 * i + 1))))
    let (ps, y) := psdaccPowers q (c.dreg 1) (c.dreg 2) xs
    let c1 := y.zipIdx.foldl (fun x (v, i) => (x.putWord (sAddr (2 * i)) (ofSigned 24 v.1)).putWord (sAddr (2 * i + 1)) (ofSigned 24 v.2)) c
    let c2 := ps.zipIdx.foldl (fun x (p, i) =>
      let old := x.word (tAddr (2 * i)) + 2 ^ 24 * x.word (tAddr (2 * i + 1))
      let new := min (old + p) (2 ^ 48 - 1)
      (x.putWord (tAddr (2 * i)) (new % 2 ^ 24)).putWord (tAddr (2 * i + 1)) (new / 2 ^ 24)) c1
    let c3 := c2.flush
    let c4 := { c3 with d := (List.range 16).foldl (fun t i => tabSet 0 t (16 * c3.bank + i) (Config.freeNat (s.free + i) % 2 ^ 24)) c3.d,
                        acc := (List.range 4).foldl (fun t i => tabSet 0 t i (Config.freeNat (s.free + 16 + i) % 2 ^ 56)) c3.acc,
                        flags := tabSet 0 c3.flags c3.bank (Config.freeNat (s.free + 25) % 8),
                        a := (List.range 5).foldl (fun t i => tabSet 0 t (8 * c3.bank + 2 + i) (Config.freeNat (s.free + 20 + i) % 65536)) c3.a }
    .ok { c4 with pos := c.pos + psdaccLength q, pc := c.areg 7 % 2 ^ 15 }

/-! ### How an instruction executes -/

/-- What an instruction's own work gives: a trap cause, the core with its results before the PC moves on, the core with its PC set, or the
end of the program. -/
inductive Work where
  | trap (cause : Nat)
  | next (c : Core)
  | jump (c : Core)
  | halt (c : Core)

/-- A data-memory access traps on the filling buffer, and a store on the record area outside the results region (09 R246, R250). -/
def accessTrap (s : State) (r : Record) (img : Bytes) (c : Core) (store : Bool) (a : Nat) : Option Nat :=
  if s.filling r img c a then some 5 else if store && inRecordArea a && !inResults a then some 6 else none

/-- Moves the PC on: after the delay slots to the transfer's target, at the end of a loop body to its start or past it, else to the next
word (09 R252, R253). A transfer set by this instruction has 3 left. -/
def Core.advance (c : Core) : Core :=
  let c1 := { c with pos := c.pos + 1 }
  match c.transfer with
  | some (n, t) => if n ≤ 1 then { c1 with transfer := none, pc := t } else { c1 with transfer := some (n - 1, t), pc := c.pc + 1 }
  | none => match c.loop with
    | some (first, last, left) =>
      if c.pc = last then (if 1 < left then { c1 with loop := some (first, last, left - 1), pc := first } else { c1 with loop := none, pc := last + 1 })
      else { c1 with pc := c.pc + 1 }
    | none => { c1 with pc := c.pc + 1 }

/-- A core whose transfer has come to 0x4000: PSDACC runs as one, cut short where the budget ends in it; a return to 0x4000 runs it again (09
R260, R266). -/
def runRom (s : State) (k : Nat) (r : Record) (img : Bytes) (c : Core) : Nat → State
  | 0 => s.putCore k c
  | fuel + 1 =>
    if c.pc ≠ 0x4000 ∨ s.budgetOf r ≤ c.pos then s.putCore k c else
    match psdacc s r img c with
    | .error cause => s.trapCore k r c cause
    | .ok c1 =>
      let n := c1.pos - c.pos
      let s1 := s.withFree (s.free + 26)
      if s.budgetOf r < c1.pos then (s1.addObj (Key.trCoreInstr k) (s.budgetOf r - c.pos)).putCore k { c with pos := s.budgetOf r }
      else runRom (s1.addObj (Key.trCoreInstr k) n) k r img c1 fuel

/-- The core after an instruction, with what a transfer to the library ROM runs (09 R266). -/
def afterInstr (s : State) (k : Nat) (r : Record) (img : Bytes) (c : Core) (landed : Bool) : State :=
  if landed then runRom s k r img c (s.budgetOf r) else s.putCore k c

/-- Executes the instruction whose word is given on core k: it acts only while the core runs a user program whose word at the PC it is; a PC
outside the program traps; a control instruction in a delay slot or loop body traps (09 R252, R253, R260, R261). -/
def runInstr (k w : Nat) (control : Bool) (f : State → Record → Bytes → Core → Work) (s : State) : Out :=
  if s.deckStopped then .next s else
  let c := s.core k
  match s.coreRecord c with
  | none => .next s
  | some r =>
    let img := s.imageOf c.prog r
    if c.waiting ∨ c.prog < 0x8000 ∨ s.budgetOf r ≤ c.pos then .next s
    else if imgPwords img ≤ c.pc then .next (s.trapCore k r c 2)
    else if imgWord img c.pc ≠ w then .next s
    else if control ∧ c.transfer.isSome then .next (s.trapCore k r c 3)
    else if control ∧ c.loop.isSome then .next (s.trapCore k r c 4)
    else match f s r img c.settle with
      | .trap cause => .next (s.trapCore k r c cause)
      | .halt c1 => .next ((s.bump (Key.trCoreInstr k)).endProgram k r 0 (State.resultBytes c1))
      | .jump c1 =>
        let s1 := (s.bump (Key.trCoreInstr k)).putCore k { c1 with pos := c1.pos + 1 }
        .next (if c1.waiting then s1.setCoreState k 2 else s1)
      | .next c1 =>
        let landed : Bool := match c1.transfer with | some (n, _) => decide (n ≤ 1) | none => false
        .next (afterInstr (s.bump (Key.trCoreInstr k)) k r img c1.advance landed)

/-- An instruction that only computes: no trap, no control. -/
def runPlain (k w : Nat) (f : Core → Core) (s : State) : Out := runInstr k w false (fun _ _ _ c => .next (f c)) s

/-- An instruction with an operand that must lie in its range, or it traps with cause 1 (09 R258). -/
def runRanged (k w : Nat) (ok : Bool) (f : Core → Core) (s : State) : Out :=
  runInstr k w false (fun _ _ _ c => if ok then .next (f c) else .trap 1) s

/-! ### The vendor library (09 R265) -/

/-- Samples of the measured entry as complex values. -/
def measuredValues (x : RecStream) : List (Int × Int) :=
  (State.blockSamples x x.count 0).map fun b =>
    let w := State.sampleWords x.format b
    (toSigned 24 (w.getD 0 0), toSigned 24 (w.getD 1 0))

/-- The powers by output position that the frequency-domain programs sum over the full blocks: word 0 is q, word 1 the window, s = 20. -/
def libraryPowers (params : Bytes) (vals : List (Int × Int)) : List Nat :=
  let q := leNat (params.take 3)
  let n := 2 ^ q
  if q < 4 ∨ 12 < q then [] else
  (List.range (vals.length / n)).foldl (fun acc i =>
    let ps := (psdaccPowers q (leNat ((params.drop 3).take 3)) 20 ((vals.drop (i * n)).take n)).1
    (acc.zip ps).map fun a => min (a.1 + a.2) (2 ^ 48 - 1)) (List.replicate n 0)

/-- A number in n result words, low word first (09 R246). -/
def resultWords (n v : Nat) : List Nat := (List.range n).map fun i => v / 2 ^ (24 * i) % 2 ^ 24

/-- v of the time-domain programs: the real or I value, or the magnitude squared (09 R265). -/
def measuredQuantity (w : Nat) (v : Int × Int) : Int := if w = 0 then v.1 else v.1 * v.1 + v.2 * v.2

/-- The detectors of a level and a hysteresis as the edge test has them, without a dead time (04 R98; notes/assumptions/28.md). -/
def libraryEdge (w level hyst : Nat) : EdgeCfg :=
  { stage := 2, quantity := if w = 0 then 0 else 1, level := toSigned 24 level, hyst := hyst, slope := 2, dead := 0, pins := 0, width := 0 }

/-- The rising crossings of a level with hysteresis. -/
def risingCrossings (c : EdgeCfg) (vs : List Int) : Nat :=
  (vs.foldl (fun (a : Nat × Detector) v => let (f, d) := riseStep c v a.2; (a.1 + b2n f, d)) (0, c.fresh)).1

/-- The falling crossings of a level with hysteresis. -/
def fallingCrossings (c : EdgeCfg) (vs : List Int) : Nat :=
  (vs.foldl (fun (a : Nat × Detector) v => let (f, d) := fallStep c v a.2; (a.1 + b2n f, d)) (0, c.fresh)).1

/-- The rising and the falling edges between two references: passages from at or below the low one to at or above the high one, and back. low and high are fractions
of the peak × 2^23 (09 R265). -/
def referenceEdges (low high peak : Nat) (vs : List Int) : Nat × Nat :=
  (vs.foldl (fun (a : (Nat × Nat) × Option Bool) (v : Int) =>
    if decide (v * 2 ^ 23 ≤ ((low * peak : Nat) : Int)) then (if a.2 == some true then ((a.1.1, a.1.2 + 1), some false) else (a.1, some false))
    else if decide (((high * peak : Nat) : Int) ≤ v * 2 ^ 23) then (if a.2 == some false then ((a.1.1 + 1, a.1.2), some true) else (a.1, some true))
    else a) ((0, 0), none)).1

/-- A quotient in n words: exact where it divides, else one of the two nearest numbers, since no rounding is stated; free is the free value that
chooses, and stands for a number that the words cannot hold (notes/assumptions/28.md). -/
def quotientWords (n num den free : Nat) : List Nat :=
  let q := num / max 1 den
  if 2 ^ (24 * n) ≤ q then resultWords n free
  else if num % max 1 den = 0 then resultWords n q
  else resultWords n (q + free % 2)

/-- The first position from an end at which the power summed from that end exceeds the share of the total that lies outside the fraction (09 R265, the
worked example). -/
def edgePosition (powers : List Nat) (fraction total : Nat) : Nat :=
  (powers.foldl (fun (a : Nat × Nat × Bool) p =>
    let sum := a.1 + p
    if a.2.2 then a else if (2 ^ 23 - fraction) * total < sum * 2 ^ 24 then (sum, a.2.1, true) else (sum, a.2.1 + 1, false)) (0, 0, false)).2.1

/-- The result words of a library program (09 Table 9-12). A quantity that cannot be measured is zero; where the rule does not state the arithmetic, between
samples or in the last place, the word is a free value, free i for word i (notes/assumptions/28.md). -/
def libraryWords (prog : Nat) (word : Nat → Nat) (vals : List (Int × Int)) (powers : List Nat) (blocks : Nat) (sw : Int) (free : Nat → Nat) : List Nat :=
  let vs := vals.map (measuredQuantity (word 2))
  let mags := vs.map Int.natAbs
  let peak := mags.foldl max 0
  let e := libraryEdge (word 2) (word 3) (word 4)
  let rises := risingCrossings e vs
  let total := powers.foldl (· + ·) 0
  let log (n d : Nat) : Nat := ofSigned 24 (logWord n d sw)
  match prog with
  | 1 => (if rises < 2 then [0, 0, 0, 0] else (List.range 4).map free) ++ [rises]
  | 2 =>
    if vs.isEmpty then [0, 0, 0, 0, 0, ofSigned 24 (-32768)] else
    let at' := mags.zipIdx.filter fun m => m.1 == peak
    let squares := (mags.map fun m => m * m).foldl (· + ·) 0
    [if peak < 2 ^ 24 then peak else free 0] ++ (match at' with | [m] => resultWords 2 m.2 | _ => [free 1, free 2]) ++
      quotientWords 2 squares vs.length (free 3 + 2 ^ 24 * free 4) ++ [if squares = 0 then ofSigned 24 (-32768) else free 5]
  | 3 =>
    let n := referenceEdges (word 3) (word 4) peak vs
    if word 4 ≤ word 3 then (List.range 5).map free else
    (if n.1 = 0 then [0, 0] else [free 0, free 1]) ++ (if n.2 = 0 then [0, 0] else [free 2, free 3]) ++ [n.1 + n.2]
  | 4 => if rises < 2 then [0, 0] else [free 0, rises - 1]
  | 5 =>
    let falls := fallingCrossings e vs
    let above := (vs.any fun v => decide ((if word 2 = 0 then e.level else e.level * e.level) ≤ v))
    let whole := rises == falls && !((vs.headD 0 : Int) ≥ (if word 2 = 0 then e.level else e.level * e.level))
    if !above then [0, 0, 0, 0, 0] else (List.range 4).map free ++ [if whole then rises else free 4]
  | 6 =>
    let sum := ((powers.drop (word 2)).take (word 3)).foldl (· + ·) 0
    log (sum * 2 ^ 20) (max 1 blocks) :: resultWords 3 sum
  | 7 =>
    if total = 0 then [0, 0, free 2, 0, 0, 0] else
    (if 2 ^ 23 < word 2 then [free 0, free 1] else [edgePosition powers (word 2) total, powers.length - 1 - edgePosition powers.reverse (word 2) total]) ++
      [free 2] ++ resultWords 3 total
  | 8 =>
    let moment := (powers.zipIdx.map fun p => p.1 * p.2).foldl (· + ·) 0
    (if total = 0 then [0, 0] else quotientWords 2 (moment * 2 ^ 16) total (free 0 + 2 ^ 24 * free 1)) ++ resultWords 3 total
  | _ => []

/-- Is an argument of a frequency-domain program out of the range of PSDACC, which traps (09 R265, R266)? -/
def libraryTraps (prog : Nat) (params : Bytes) : Bool :=
  let q := leNat (params.take 3)
  decide (6 ≤ prog) && (decide (q < 4 ∨ 12 < q) || decide (2 < leNat ((params.drop 3).take 3)))

/-- The 56 result bytes of a library program; the words that it does not define stay zero (09 R247, R265). In the time-domain programs a quantity other
than 0 or 1 leaves every word free. -/
def libraryResults (prog : Nat) (params : Bytes) (x : RecStream) : Bytes :=
  let vals := measuredValues x
  let source := Config.libraryResult prog params (vals.flatMap fun v => [v.1, v.2])
  let free (i : Nat) : Nat := leNat ((source.drop (3 * i)).take 3)
  let word (i : Nat) : Nat := leNat ((params.drop (3 * i)).take 3)
  let n := 2 ^ word 0
  let sw : Int := if prog < 6 then 1 else (windowCoeffs (word 1) 0 n 0).foldl (· + ·) 0
  let words := if prog < 6 ∧ 1 < word 2 then (List.range 6).map free
    else libraryWords prog word vals (libraryPowers params vals) (vals.length / n) sw free
  padTo 56 ((words.flatMap fun w => natLE 3 w).take 56)

/-- Instructions that a library program takes on a record (notes/assumptions/28.md). -/
def libraryLength (prog : Nat) (params : Bytes) (x : RecStream) : Nat :=
  Config.libraryInstructions prog params ((measuredValues x).flatMap fun v => [v.1, v.2])

/-! ### Dispatch and events -/

/-- The oldest record waiting in MEASURING gets a free core, which resets its state, loads the image and starts at ENTRY (09 R244, R247). -/
def execTrestleDispatch (core : Fin 32) (s : State) : Out :=
  if s.deckStopped then .next s else
  let k := core.val
  match (s.core k).record, s.acq.records.find? fun r => r.state == 1 && !r.running with
  | none, some r0 =>
    let (r, s) := s.stagedRecord r0
    let prog := s.objAt (Key.ctxMeasProg r.ctx) r.trigger
    let img := s.imageOf prog r
    let c : Core := if prog < 0x8000 then { record := some (r.ctx, r.number), prog := prog } else { record := some (r.ctx, r.number), prog := prog, pc := imgEntry img, mem := s.coreMemory r img }
    let s1 := ((s.putCore k c).setCoreState k 1).updRecord { r with running := true }
    .next ((match State.slotOf prog with | some n => s1.bump (Key.trRecords n) | none => s1).refreshAcq)
  | _, _ => .next s

/-- The next block of the measured entry is in place in its buffer, no earlier than its buffer fills; a core waiting for it in SYNC enters the
event (09 R248 to R250). -/
def execBlockDelivered (core : Fin 32) (s : State) : Out :=
  if s.deckStopped then .next s else
  let k := core.val
  let c := s.core k
  match s.coreRecord c with
  | none => .next s
  | some r =>
    let img := s.imageOf c.prog r
    if c.prog < 0x8000 ∨ s.blockCount r img ≤ c.inPlace ∨ c.events < c.inPlace then .next s else
    let x := s.measured r
    let base := State.bufferOf img c.inPlace
    let words := (State.blockSamples x (imgBlock img) c.inPlace).flatMap (State.sampleWords x.format)
    let c1 := { c with inPlace := c.inPlace + 1, mem := words.zipIdx.foldl (fun m (v, i) => tabSet 0 m (base + i) (v % 2 ^ 24)) c.mem }
    if c1.waiting then .next ((s.setCoreState k 1).putCore k (s.enterEvent r img c1)) else .next (s.putCore k c1)

/-- The program has executed budget instructions without HALT: MSTATUS BUDGET (09 R260). -/
def execBudgetExhausted (core : Fin 32) (s : State) : Out :=
  if s.deckStopped then .next s else
  let k := core.val
  let c := s.core k
  match s.coreRecord c with
  | none => .next s
  | some r =>
    if c.prog < 0x8000 then
      if s.budgetOf r < libraryLength c.prog (natLE 256 (s.objAt (Key.ctxMeasParams r.ctx) r.trigger)) (s.measured r) then
        .next ((s.addObj (Key.trCoreInstr k) (s.budgetOf r)).endProgram k r 4 [])
      else .next s
    else if c.pos < s.budgetOf r ∨ c.waiting then .next s
    else .next ((match State.slotOf c.prog with | some n => s.bump (Key.trBudgets n) | none => s).endProgram k r 4 [])

/-- The due command tr.clear unloads a slot (09 R264). -/
def execTrClear (slot : Fin 32) (s : State) : Out :=
  let n := slot.val
  match s.due.find? fun e => e.1 == Key.trClear n with
  | none => .next s
  | some (_, T) =>
    let s1 := s.withDue (s.due.filter fun e => e.1 != Key.trClear n)
    let s2 := s1.withUndo (s1.undo ++ [(T, Key.trImage n, s1.obj (Key.trImage n))])
    .next (((s2.setObj (Key.trImage n) 0).setObj (Key.trLoaded n) 0).setObj (Key.trDigest n) 0)

end Sys2Proof.Machine
end

