-- ==== Sys2Proof/Machine/ContextRules.lean ====
section
/-! DEFINITION. Commits of contexts and trestle slots: generations, refusals (08 R225 to R227, R241; 09 R264, R265). -/

namespace Sys2Proof.Machine

/-- The numbers of the kinds of trigger source (07 Table 7-1). -/
def sourceOk (src : Nat) : Bool := decide (1 ≤ src / 4096 ∧ src / 4096 ≤ 7) && decide (src % 4096 < [0, 1024, 256, 64, 16, 8, 64, 16].getD (src / 4096) 0)

/-- An expression keeps R212. -/
def exprOk (x : Nat) : Bool :=
  let used := State.termsUsed x
  let n := used.length
  used.all (fun j =>
    let q := termQual x j
    let join := termJoin x j
    let qualKind := [1, 4, 5].contains (State.termSource x j / 4096)
    sourceOk (State.termSource x j) && decide (join ≤ 2) && (j != 0 || join == 0) &&
    (if qualKind then decide (1 ≤ q ∧ q ≤ 3) else q == 0) && (join != 1 || termAnd x j == 0) &&
    (if join = 2 then termThen x j != 0 else termThen x j == 0)) &&
  x >>> (128 * n) == 0

/-- The state with the dictionary that a group leaves in force at its T. -/
def State.atCommit (s : State) (g : Group) : State :=
  let write (d : State) (x : Group) : State := x.writes.foldl (fun y w => y.setObj w.1 w.2) d
  let s1 := (s.groups.filter fun x => x.t ≤ g.t).foldl write s
  (((write s1 g).withGroups []).withUndo [])

/-- The contexts whose RW objects a group writes (08 R225). -/
def Group.contexts (g : Group) : List Nat := (List.range 1024).filter fun c => g.hasSubs (0x3000 + c) 1 0x10

/-- At acceptance the group's T becomes a generation start of each context it writes (08 R225). -/
def acceptContexts (s : State) (g : Group) : State :=
  g.contexts.foldl (fun y c => y.putCtx c { y.ctx c with gens := (y.ctx c).gens ++ [g.t] }) s

/-- At T: ctx.gen counts the generation; a write of the completion ring restarts it (08 R225, R240). -/
def commitContexts (s : State) (g : Group) (_old : Nat → Nat) : State :=
  let s1 := g.contexts.foldl (fun y c => (y.setObj (Key.ctxGen c) (((y.ctx c).gens.filter fun T => T ≤ g.t).length % 256)).refreshCtx c) s
  if g.has Key.acqDoneBase ∨ g.has Key.acqDoneSize then
    (s1.withAcq { s1.acq with doneNext := 0, doneUnacked := [] }).setObj Key.acqDoneWptr 0
  else s1

/-- Is a context STOPPED at T, as far as its firings are settled: stopped already, or in single mode with a record that ends by T even if every extension that it
may still have comes? A generation or an arming accepted with a T up to then, taken by the context or not, leaves it ARMED (08 R223, R225). -/
def stoppedAt (s : State) (c t : Nat) : Bool :=
  let x := s.ctx c
  let ahead : Bool := (match s.nextGen c with | some T => decide (T ≤ t) | none => false) || (match s.nextArm c with | some T => decide (T ≤ t) | none => false)
  let last (r : Record) : KTime := if s.flagAt (Key.ctxExtend c) r.trigger then r.start + s.objAt (Key.ctxRecMax c) r.trigger * tick else r.stop
  !ahead && (x.stopped || (match x.openRec.bind (s.record? c) with
    | some r => s.objAt (Key.ctxMode c) r.trigger == 1 && decide (last r ≤ t)
    | none => false))

/-- A program number that selects a program: none, the library's, or a user slot's (09 R265). -/
def programOk (p : Nat) : Bool := p == 0xFFFF || decide (1 ≤ p ∧ p ≤ 8) || decide (0x8000 ≤ p ∧ p ≤ 0x801F)

/-- Do valid capture entries come first, with distinct, existing ports and streams (08 Table 8-8)? -/
def captureOk (img : Nat) : Bool :=
  let es := State.captureEntries img
  es.length != 0 && es.eraseDups.length == es.length &&
    (List.range 16).all fun i =>
      if i < es.length then decide (fieldAt img (4 * i) 2 ≤ 1023 ∧ fieldAt img (4 * i + 2) 1 ≤ 1) else !bit (fieldAt img (4 * i + 3) 1) 0

/-- R227 and Table 8-8 (08 R241). -/
def rulesContexts (s : State) (g : Group) : Option Code :=
  if !(g.has Key.memFixedSize || g.hasRange 0x2000 0x27FF || g.hasRange 0x2A00 0x2DFF || g.hasRange 0x3000 0x33FF || g.hasRange 0x3500 0x351F || g.hasIndex 0x3631 || g.hasIndex 0x19F0 || g.hasIndex 0x1910 || g.hasRange 0x1B40 0x1B7F || g.hasRange 0x1580 0x15FF) then none else
  let v := s.staged g
  let z := s.atCommit g
  let on := (List.range 1024).filter fun c => v (Key.ctxEnable c) != 0
  let touched := g.units 0x3000 1024
  let anyOn := !on.isEmpty || !(s.enabledUnits 0x3000 1024).isEmpty
  let acq := g.hasSubs 0x19F0 1 2 || g.hasSubs 0x19F0 4 5
  let span (c : Nat) : Nat := z.recordBytesMax (State.captureEntries (v (Key.ctxCapture c))) (z.recordSpan c g.t) g.t
  let stage := (v Key.acqStageBase, v Key.acqStageSize)
  let ring := (v Key.acqDoneBase, v Key.acqDoneSize)
  let others := logExtent v :: (productExtents v).map (·.2)
  firstOf [
    eachOf g.contexts (fun c => refuse (s.acq.records.any fun r => r.ctx == c && r.state != 3 && r.gen == (((s.ctx c).gens.filter fun T => T ≤ g.t).length + 1) % 256) Res.busy),
    eachOf touched (fun c => refuse (g.has (Key.ctxArm c) && !stoppedAt s c g.t) Res.state),
    eachOf on (fun c => refuse ((State.captureEntries (v (Key.ctxCapture c))).any fun (p, fe) =>
      v (Key.portEnable p) == 0 || !bit (v (if fe then Key.ringSelectFe else Key.ringSelectRaw)) p) Res.state),
    eachOf on (fun c => refuse (v (Key.ctxDestKind c) == 2 && (v (Key.hrEnable (v (Key.ctxDestNum c))) == 0 || v (Key.hrSource (v (Key.ctxDestNum c))) != 0)) Res.state),
    eachOf on (fun c => refuse (decide (0x8000 ≤ v (Key.ctxMeasProg c) ∧ v (Key.ctxMeasProg c) ≤ 0x801F) && v (Key.trImage (v (Key.ctxMeasProg c) - 0x8000)) == 0) Res.state),
    refuse (acq && anyOn) Res.state,
    eachOf touched (fun c => refuse (!exprOk (v (Key.ctxExpr c))) Res.range),
    eachOf touched (fun c => refuse (decide (2 ^ 44 < v (Key.ctxPre c)) || v (Key.ctxPost c) == 0 || decide (2 ^ 44 < v (Key.ctxPost c)) ||
      decide (v (Key.ctxRecMax c) < v (Key.ctxPre c) + v (Key.ctxPost c)) || decide (2 ^ 45 < v (Key.ctxRecMax c))) Res.range),
    eachOf touched (fun c => refuse (decide (1 < v (Key.ctxMode c)) || decide (1 < v (Key.ctxHoldoffMode c)) ||
      decide ((if v (Key.ctxHoldoffMode c) = 0 then 2 ^ 44 else 2 ^ 32 - 1) < v (Key.ctxHoldoff c))) Res.range),
    eachOf touched (fun c => refuse ((v (Key.ctxEnable c) != 0 || g.has (Key.ctxCapture c)) && !captureOk (v (Key.ctxCapture c))) Res.range),
    eachOf touched (fun c => refuse (decide (3 < v (Key.ctxDestKind c)) ||
      decide ((match v (Key.ctxDestKind c) with | 1 => 15 | 2 => 63 | 3 => 255 | _ => 65535) < v (Key.ctxDestNum c))) Res.range),
    eachOf touched (fun c => refuse (!programOk (v (Key.ctxMeasProg c)) || v (Key.ctxMeasBudget c) == 0 ||
      ((v (Key.ctxEnable c) != 0 || g.has (Key.ctxCapture c) || g.has (Key.ctxMeasEntry c)) && decide ((State.captureEntries (v (Key.ctxCapture c))).length ≤ v (Key.ctxMeasEntry c)))) Res.range),
    refuse ((acq || !on.isEmpty || g.has Key.memFixedSize) && (v Key.acqStageBase % 4096 != 0 || v Key.acqDoneBase % 4096 != 0 || v Key.acqDoneSize % 128 != 0 || (v Key.acqDoneSize != 0 && decide (v Key.acqDoneSize < 4096)) ||
      (v Key.acqStageSize != 0 && !fixedHolds v (v Key.acqStageBase) (v Key.acqStageSize)) || (v Key.acqDoneSize != 0 && !fixedHolds v (v Key.acqDoneBase) (v Key.acqDoneSize)))) Res.range,
    eachOf on (fun c => refuse (decide (v Key.acqStageSize < span c)) Res.capacity),
    eachOf on (fun c => refuse (v (Key.ctxDestKind c) == 2 && decide (v (Key.hrSize (v (Key.ctxDestNum c))) < 2 * State.entryBytes (span c))) Res.capacity),
    refuse (others.any fun e => extentsMeet stage e || extentsMeet ring e) Res.overlap]

/-! ### Program slots (09 R263, R264) -/

/-- The length of an image: header, program words, data words, padding, and a signature (09 R263). -/
def imageLength (b : Bytes) : Nat := cdiv (64 + 6 * imgPwords b + 3 * imgDwords b) 8 * 8 + (if bit (leNat ((b.drop 6).take 2)) 0 then 96 else 0)

/-- Does a region of data memory lie in program space (09 Table 9-2)? -/
def inProgramSpace (a n : Nat) : Bool := n == 0 || decide (a + n ≤ 0xE000) || decide (0xE900 ≤ a ∧ a + n ≤ 0x10000)

/-- The header and layout of an image keep R263 and R264. -/
def imageOk (b : Bytes) : Bool :=
  let f (off n : Nat) : Nat := leNat ((b.drop off).take n)
  let body := 64 + 6 * imgPwords b + 3 * imgDwords b
  decide (64 ≤ b.length) && f 0 4 == 0x54535254 && f 4 2 == 1 && decide (f 6 2 ≤ 1) && decide (1 ≤ imgPwords b ∧ imgPwords b ≤ 16384) &&
  decide (imgEntry b < imgPwords b) && decide (imgEvec b < imgPwords b) && [16, 32, 64, 128, 256, 512, 1024, 2048, 4096].contains (imgBlock b) &&
  b.length == imageLength b && ((b.drop body).take (cdiv body 8 * 8 - body)).all (· == 0) &&
  inProgramSpace (imgDbase b) (imgDwords b) && inProgramSpace (imgIbuf b) (2 * imgBlock b) && inProgramSpace (imgIbuf b + 2 * imgBlock b) (2 * imgBlock b) &&
  !extentsMeet (imgDbase b, imgDwords b) (imgIbuf b, 4 * imgBlock b)

/-- The signature of a signed image verifies with the owner key (18 R484). -/
def imageSigned (key b : Bytes) : Bool :=
  bit (leNat ((b.drop 6).take 2)) 0 && verifySig key (b.take (b.length - 96)) (b.drop (b.length - 96))

/-- Is the owner key field programmed (18 R484)? -/
def State.ownerKey (s : State) : Option Bytes := if s.obj Key.secOwnerHash = 0 then none else some (natLE 97 (s.obj Key.secOwnerKey))

/-- The refusals of program slots (09 R264; 18 R484). -/
def rulesTrestle (s : State) (g : Group) : Option Code :=
  if !(g.hasRange 0x3500 0x351F || g.hasRange 0x3000 0x33FF) then none else
  let v := s.staged g
  let slots := g.units 0x3500 32
  let last (n : Nat) : KTime := ((s.allWrites.filter fun w => w.2 == Key.trImage n && w.1 < g.t).map (·.1)).foldl max 0
  let names (r : Record) (n : Nat) : Bool := s.objAt (Key.ctxMeasProg r.ctx) r.trigger == 0x8000 + n
  firstOf [
    eachOf slots (fun n => match g.write? (Key.trImage n) with
      | none => none
      | some w => refuse (!imageOk (unmarked w)) Res.range),
    eachOf slots (fun n => match g.write? (Key.trImage n), s.ownerKey with
      | some w, some key => refuse (!imageSigned key (unmarked w)) Res.auth
      | _, _ => none),
    eachOf slots (fun n => refuse (g.has (Key.trImage n) && s.acq.records.any fun r => r.state != 3 && names r n && decide (r.trigger < last n)) Res.busy),
    eachOf slots (fun n => refuse (g.has (Key.trClear n) && (List.range 1024).any fun c => v (Key.ctxEnable c) != 0 && v (Key.ctxMeasProg c) == 0x8000 + n) Res.state)]

/-- A slot's image comes into force: tr.loaded and tr.digest (09 R264, Table 9-14). -/
def commitTrestle (s : State) (g : Group) (_old : Nat → Nat) : State :=
  (g.units 0x3500 32).foldl (fun y n =>
    if !g.has (Key.trImage n) then y
    else (y.setObj (Key.trLoaded n) 1).setObj (Key.trDigest n) (leNat (sha384 (unmarked (y.obj (Key.trImage n)))))) s

end Sys2Proof.Machine
end

