-- ==== Sys2Proof/Machine/Display.lean ====
section
/-! DEFINITION. The display heads: link, frames, layers, flips, the release fence, and their commit groups (16 R428 to R445; 10 R275). -/

namespace Sys2Proof.Machine

/-- The layer objects of a set, in the order of Table 16-4 from lay.enable to lay.start. -/
def layerKeys (u : Nat) : List Nat :=
  [Key.layEnable u, Key.layBase0 u, Key.layBase1 u, Key.layDbuf u, Key.layPitch u, Key.laySrcW u, Key.laySrcH u, Key.layDstX u, Key.layDstY u,
   Key.layDstW u, Key.layDstH u, Key.layOffset u, Key.layGain u, Key.layFollow u, Key.layStart u]

/-- A layer of a set. -/
structure Layer where
  enable : Bool
  base : Nat
  pitch : Nat
  srcW : Nat
  srcH : Nat
  dstX : Nat
  dstY : Nat
  dstW : Nat
  dstH : Nat
  offset : Int
  gain : Nat
  follow : Nat
  start : Nat
  deriving DecidableEq, Repr

/-- The layer that object values and a buffer select describe. -/
def layerOf (v : List Nat) (select : Nat) : Layer :=
  let g (i : Nat) : Nat := v.getD i 0
  { enable := g 0 != 0, base := if select = 0 then g 1 else g 2, pitch := g 4, srcW := g 5, srcH := g 6, dstX := g 7, dstY := g 8, dstW := g 9,
    dstH := g 10, offset := toSigned 32 (g 11), gain := g 12, follow := g 13, start := g 14 }

/-- Bytes of an element of a layer (16 R442). -/
def elementBytes (l : Nat) : Nat := if l = 1 then 2 else 4

/-- The image row that a source row shows: layer 1 counts back from start (16 R434). -/
def imageRow (l : Nat) (y : Layer) (start sr : Nat) : Nat :=
  if l = 1 then (((start : Int) - sr) % (max 1 y.srcH : Nat)).toNat else sr

/-- The address of the element that a destination pixel (dx, dy) of a layer takes (16 R432). -/
def elementAddr (l : Nat) (y : Layer) (start dx dy : Nat) : Nat :=
  y.base + imageRow l y start (dy * y.srcH / max 1 y.dstH) * y.pitch + dx * y.srcW / max 1 y.dstW * elementBytes l

/-- Is a pixel of the active area in a layer's rectangle? -/
def inRect (y : Layer) (px py : Nat) : Bool :=
  y.enable && decide (y.dstX ≤ px ∧ px < y.dstX + y.dstW ∧ y.dstY ≤ py ∧ py < y.dstY + y.dstH)

/-- The colour of an element over the colour beneath it: three 10-bit channels (16 R433 to R435). lut gives an entry of the layer's LUT. -/
def compose (l : Nat) (y : Layer) (lut : Nat → Nat) (element under : Nat) : Nat :=
  if l = 0 then lut (min 1023 (element * y.gain / 65536))
  else if l = 1 then lut (max 0 (min 1023 ((toSigned 16 element - y.offset) * y.gain / 65536))).toNat
  else
    let a := element / 2 ^ 24
    let mix (shift8 shift10 : Nat) : Nat :=
      let c := element / 2 ^ shift8 % 256
      let e := 4 * c + c / 64
      (a * e + (255 - a) * (under / 2 ^ shift10 % 1024) + 127) / 255 * 2 ^ shift10
    mix 16 20 + mix 8 10 + mix 0 0

/-- A 10-bit colour as it is sent (16 R435). -/
def sentColour (bpc c : Nat) : Nat :=
  if bpc ≠ 8 then c % 2 ^ 30 else
  let ch (k : Nat) : Nat := min 255 ((c / 2 ^ k % 1024 + 2) / 4) * 2 ^ k
  ch 20 + ch 10 + ch 0

namespace State

def head (s : State) (h : Nat) : Head := tabGet {} s.heads h
def putHead (s : State) (h : Nat) (x : Head) : State := s.withHeads (tabSet {} s.heads h x)

/-- Does an owner belong to the head? -/
def headOwner (h : Nat) (o : Owner) : Bool := match o with | .scanout k _ => k == h | _ => false

/-- Does the head have a fetch that has not completed, or bursts of its frame still to fetch? -/
def headFetching (s : State) (h : Nat) : Bool := !(s.head h).todo.isEmpty || s.readsOutstanding (headOwner h)

/-- Abandons the fetches of a head (16 R441). -/
def abandonFetches (s : State) (h : Nat) : State := (s.putHead h { s.head h with todo := [] }).abandonReads (headOwner h)

/-- Drops the data that has come for a head. -/
def dropFetched (s : State) (h : Nat) : State := s.dropArrived (headOwner h)

/-- The layers of the active set. -/
def activeLayers (s : State) (h : Nat) : List Layer :=
  (List.range 3).map fun l => layerOf ((s.head h).active.getD l []) ((s.head h).sel.getD l 0)

/-- The start row of a layer in the active set (16 R434). -/
def startRow (s : State) (h : Nat) (y : Layer) : Nat := if y.follow = 0xFFFF then y.start else (s.head h).start

/-- The 64-byte bursts that a layer's rectangle takes on an active line (16 R432, R442). -/
def layerBursts (s : State) (h l : Nat) (y : Layer) (line : Nat) : List Nat :=
  if !y.enable ∨ y.dstW = 0 ∨ line < y.dstY ∨ y.dstY + y.dstH ≤ line then [] else
  let first := elementAddr l y (s.startRow h y) 0 (line - y.dstY)
  let last := elementAddr l y (s.startRow h y) (y.dstW - 1) (line - y.dstY) + elementBytes l
  (bursts first (last - first)).map fun b => b.1 / 64 * 64

/-- The bursts of a frame in the order of its lines: line, layer, address. -/
def frameBursts (s : State) (h : Nat) : List (Nat × Nat × Nat) :=
  (List.range (s.obj (Key.dispVActive h))).flatMap fun line =>
    (s.activeLayers h).zipIdx.flatMap fun (y, l) => (s.layerBursts h l y line).map fun a => (line, l, a)

/-- Active lines of the frame in progress whose pixels have been sent, by the pixel clock (16 R430, R431; notes/assumptions/32.md). -/
def linesSent (s : State) (h : Nat) : Nat :=
  let total := s.obj (Key.dispHActive h) + s.obj (Key.dispHFront h) + s.obj (Key.dispHSync h) + s.obj (Key.dispHBack h)
  min (s.obj (Key.dispVActive h)) ((s.wall - (s.head h).since) * s.obj (Key.dispPclk h) / (400000000 * max 1 total))

/-- Bytes of pixel data that the buffer of a head holds: those that have come, less those of the lines sent (10 Table 10-4). -/
def headHeld (s : State) (h : Nat) : Nat :=
  let sent := s.linesSent h
  (s.mem.arrived.foldl (fun a e => if headOwner h e.1 then a + e.2.2.1.length else a) 0) - 64 * ((s.frameBursts h).filter fun b => b.1 < sent).length

/-- Bytes of a head's fetches that have not returned. -/
def headAsked (s : State) (h : Nat) : Nat :=
  let n (l : List MemReq) : Nat := 64 * (l.filter fun r => headOwner h r.owner).length
  s.mem.chans.foldl (fun a e => a + n e.2.queue + n e.2.issued) (n s.mem.waiting)

/-- Does a burst lie in a structure of protected type (16 R440)? -/
def protectedBurst (s : State) (a : Nat) : Bool :=
  let hits (e : Nat × Nat) : Bool := extentsMeet e (a, 64)
  hits (logExtent s.obj) || hits (s.obj Key.acqStageBase, s.obj Key.acqStageSize) || hits (s.obj Key.acqDoneBase, s.obj Key.acqDoneSize) ||
    s.recd.reads.any fun e => hits (e.2.2.2, 4096 * e.2.2.1)

/-- Issues one fetch, or blocks it: zero bytes are delivered and counted (16 R440). -/
def fetchBurst (s : State) (h l a : Nat) : State :=
  if s.protectedBurst a then
    (s.withMem { s.mem with arrived := s.mem.arrived ++ [(Owner.scanout h l, a, zeros 64, false)] }).bump (Key.dispBlocked h)
  else s.memRead (.scanout h l) 0 a 64

/-- Fetches the next bursts of the frame, as many as the buffer of 524,288 bytes has room for (10 Table 10-4). -/
def refillHead (s : State) (h : Nat) : State :=
  let room := (524288 - s.headHeld h - s.headAsked h) / 64
  let x := s.head h
  (x.todo.take room).foldl (fun y (_, l, a) => y.fetchBurst h l a) (s.putHead h { x with todo := x.todo.drop room })

/-- The head's panic line with its hysteresis; it is withdrawn too where nothing of the frame is left to fetch (10 R275, Table 10-4; notes/assumptions/32.md). -/
def refreshHeadPanic (s : State) (h : Nat) : State :=
  let held := s.headHeld h
  if 262144 ≤ held ∨ !s.headFetching h then s.setPanic (16 + h) false
  else if held < 131072 then s.setPanic (16 + h) true else s

/-- The buffer of a head whose frame is in progress goes on: it is refilled, and its panic line follows its level. -/
def serveHead (s : State) (h : Nat) : State := if (s.head h).inFrame then (s.refillHead h).refreshHeadPanic h else s

/-- The pixel at a place of the active area, from the data that has come (16 R432 to R435). cells gives the fetched bytes of each layer. -/
def pixelAt (s : State) (h : Nat) (ys : List Layer) (cells : Nat → List Host.Cell) (px py : Nat) : Nat :=
  let colour := ys.zipIdx.foldl (fun under (y, l) =>
    if !inRect y px py then under else
    let a := elementAddr l y (s.startRow h y) (px - y.dstX) (py - y.dstY)
    let e := leNat ((List.range (elementBytes l)).map fun i => tabGet unlisted (cells l) (a + i))
    compose l y (fun i => fieldAt (s.obj (Key.dispLut (2 * h + l))) (4 * i) 4) e under) (s.obj (Key.dispBackground h))
  sentColour (s.obj (Key.dispBpc h)) colour

/-- The frame as it goes out: composed pixels up to the place where it was aborted, the background colour after it (16 R441). -/
def framePixels (s : State) (h : Nat) : List Nat :=
  let w := s.obj (Key.dispHActive h)
  let n := w * s.obj (Key.dispVActive h)
  let ys := s.activeLayers h
  let cells (l : Nat) : List Host.Cell := (s.mem.arrived.filter fun e => e.1 == .scanout h l).foldl (fun c e => writeCells c e.2.1 e.2.2.1) []
  let stop := (s.head h).abortAt.getD n
  (List.range n).map fun i =>
    if i < stop then s.pixelAt h ys cells (i % w) (i / w) else sentColour (s.obj (Key.dispBpc h)) (s.obj (Key.dispBackground h))

/-- A pixel is due that the buffer does not hold: the frame is aborted at a free place (16 R441). -/
def abortFrame (s : State) (h : Nat) : State :=
  let (at', s1) := s.drawNat (max 1 (s.obj (Key.dispHActive h) * s.obj (Key.dispVActive h)))
  ((s1.putHead h { s1.head h with abortAt := some at' }).abandonFetches h).bump (Key.dispAborted h)

/-- A flip request (16 R437). -/
def requestFlip (s : State) (h : Nat) : State :=
  let x := s.head h
  if !s.flag (Key.dispEnable h) then s
  else if x.asked then s.bump (Key.dispFlipMerged h)
  else
    let pend := (List.range 3).map fun l => if s.flag (Key.layDbuf (4 * h + l)) then 1 - x.sel.getD l 0 else x.pend.getD l 0
    s.putHead h { x with pend := pend, asked := true }

/-- The pending set becomes active: the layer objects and the buffer selects; the start row of the spectrogram layer is sampled (16 R434, R436). -/
def adoptSet (s : State) (h : Nat) : State :=
  let x := s.head h
  let follow := s.obj (Key.layFollow (4 * h + 1))
  let start := if follow = 0xFFFF then 0 else (((s.obj (Key.spgSeq follow) : Int) - 1) % (max 1 (s.obj (Key.spgRows follow)) : Nat)).toNat
  let s1 := s.putHead h { x with active := (List.range 3).map fun l => (layerKeys (4 * h + l)).map s.obj, sel := x.pend, start := start, asked := false }
  (List.range 3).foldl (fun y l => y.setObj (Key.laySelect (4 * h + l)) (x.pend.getD l 0)) s1

/-- The link rate of disp.link.rate in units of 10 Mbit/s (16 R430). -/
def dpRate (r : Nat) : Nat := [162, 270, 540, 810].getD r 0

/-- The link trains: the EDID of the sink is read, and the head's lane PLL locks at the link rate (16 R429; 02 R56). -/
def trainHead (s : State) (h : Nat) : State :=
  ((s.setObj (Key.dispEdid h) (leNat (s.head h).sink)).startPll (22 + h) (dpRate (s.obj (Key.dispLinkRate h)) * 10000)).setObj (Key.dispState h) 1

/-- NO_SINK, and the time of the next attempt; the lanes stop (16 R429). -/
def noSink (s : State) (h : Nat) : State := ((s.putHead h { s.head h with retryAt := s.wall }).stopPll (22 + h)).setObj (Key.dispState h) 3

/-- Does a flip request of the head by commit wait for its T? -/
def flipDue (s : State) (h : Nat) : Bool := s.due.any fun d => d.1 == Key.dispFlip h

end State

/-- A rising edge of HPD: an enabled head reads the sink and trains (16 R429). -/
def execHpdEdge (head : Fin 2) (edid : Bytes) (s : State) : Out :=
  let s1 := s.putHead head.val { s.head head.val with hpd := true, sink := edid }
  .next (if s1.flag (Key.dispEnable head.val) then s1.trainHead head.val else s1)

/-- HPD goes low (16 R429). -/
def execHpdLow (head : Fin 2) (s : State) : Out :=
  let s1 := s.putHead head.val { s.head head.val with hpd := false }
  .next (if s1.flag (Key.dispEnable head.val) then s1.noSink head.val else s1)

/-- Link training completes or fails (16 R429). -/
def execDisplayLinkTrained (head : Fin 2) (ok : Bool) (s : State) : Out :=
  if s.obj (Key.dispState head.val) ≠ 1 then .next s
  else .next (if ok then (s.lockPll (22 + head.val)).setObj (Key.dispState head.val) 2 else s.noSink head.val)

/-- A head in NO_SINK retries every 400,000,000 ticks (16 R429). -/
def execDpTrainingRetry (head : Fin 2) (s : State) : Out :=
  let h := head.val
  if s.obj (Key.dispState h) ≠ 3 ∨ s.wall < (s.head h).retryAt + 400000000 then .next s
  else .next (if (s.head h).hpd then s.trainHead h else s.noSink h)

/-- A frame starts at line 0: it is counted, a flip is recorded, and the fetches of its set begin (16 R431, R436, R438). -/
def execDisplayFrameStart (head : Fin 2) (s : State) : Out :=
  let h := head.val
  let x := s.head h
  if !s.flag (Key.dispEnable h) ∨ x.inFrame then .next s else
  let n := s.obj (Key.dispFrame h)
  let s1 := (s.bump (Key.dispFrame h)).putHead h { x with inFrame := true, flipped := false, abortAt := none, since := s.wall, todo := s.frameBursts h }
  let s2 := if x.flipped then
      (((s1.setObj (Key.dispFlipFrame h) n).setObj (Key.dispFlipTime h) (cdiv s.time tick * tick)).bump (Key.dispFlips h)).raiseEvent (12 + h)
    else s1
  .next (s2.serveHead h)

/-- The latch point of a frame: its pixels have gone out, the fence reaches it, and the pending set becomes active (16 R431, R436, R438, R439). -/
def execLatchPoint (head : Fin 2) (s : State) : Out :=
  let h := head.val
  if !s.flag (Key.dispEnable h) ∨ !(s.head h).inFrame then .next s else
  let n := s.obj (Key.dispFrame h) - 1
  let s1 := if s.headFetching h then s.abortFrame h else s
  let lost := (s1.mem.arrived.filter fun e => State.headOwner h e.1 && e.2.2.2).length
  let s2 := (if s1.obj (Key.dispState h) = 2 then s1.emit (.video h n (s1.framePixels h)) else s1).addObj (Key.dispLost h) lost
  let s3 := ((s2.dropFetched h).setPanic (16 + h) false).setObj (Key.dispFence h) n
  let was := (s3.head h).sel
  let s4 := s3.adoptSet h
  .next (s4.putHead h { s4.head h with inFrame := false, flipped := (s4.head h).sel != was })

/-- The due command disp.flip (16 R437). -/
def execDispFlip (head : Fin 2) (s : State) : Out :=
  let h := head.val
  if !s.flipDue h then .next s
  else .next (((s.withDue (s.due.filter fun d => d.1 != Key.dispFlip h))).requestFlip h)

/-- A pixel is due that the buffer does not hold (16 R441). -/
def execScanoutUnderrun (head : Fin 2) (s : State) : Out :=
  let h := head.val
  if !(s.head h).inFrame ∨ (s.head h).abortAt.isSome ∨ !s.flag (Key.dispEnable h) then .next s else .next (s.abortFrame h)

/-- Pixels have been sent: the scan-out buffer is refilled, and where it holds fewer than 131,072 bytes its panic line goes to every channel (10 R275,
Table 10-4). -/
def execScanoutPanic (head : Fin 2) (s : State) : Out :=
  if !s.flag (Key.dispEnable head.val) then .next s else .next (s.serveHead head.val)

/-! ### Commit groups (16 R444, Table 16-2) -/

/-- A head is enabled: counters restart, the pending set is adopted, and the link trains; or disabled (16 R429, R431). -/
def commitDisplay (s : State) (g : Group) (old : Nat → Nat) : State :=
  if !g.hasRange 0x1800 0x1801 then s else
  (List.range 2).foldl (fun y h =>
    let on := y.flag (Key.dispEnable h)
    let was := old (Key.dispEnable h) != 0
    if on = was then y
    else
      let x := y.head h
      let z := (((y.abandonFetches h).dropFetched h).setPanic (16 + h) false).putHead h { hpd := x.hpd, sink := x.sink, retryAt := y.wall }
      if !on then (z.stopPll (22 + h)).setObj (Key.dispState h) 0
      else
        let z1 := [Key.dispFrame h, Key.dispFence h, Key.dispFlipFrame h, Key.dispFlipTime h, Key.dispFlips h].foldl (fun a k => a.setObj k 0) (z.adoptSet h)
        if x.hpd then z1.trainHead h else z1.noSink h) s

/-- Does the timing of a head keep R430? -/
def timingOk (v : Nat → Nat) (h : Nat) : Bool :=
  decide (v (Key.dispHActive h) ≤ 3840 ∧ v (Key.dispVActive h) ≤ 2160 ∧ v (Key.dispPclk h) ≤ 600000000) &&
  [Key.dispHFront h, Key.dispHSync h, Key.dispHBack h, Key.dispVFront h, Key.dispVSync h, Key.dispVBack h].all (fun k => v k != 0) &&
  decide (v (Key.dispPclk h) * 3 * v (Key.dispBpc h) ≤ v (Key.dispLinkLanes h) * State.dpRate (v (Key.dispLinkRate h)) * 8000000)

/-- The case of Table 16-2 on a layer's geometry. -/
def layerBad (v : Nat → Nat) (u : Nat) : Bool :=
  let h := u / 4
  v (Key.layBase0 u) % 64 != 0 || v (Key.layBase1 u) % 64 != 0 || decide (v (Key.layPitch u) < v (Key.laySrcW u) * elementBytes (u % 4)) ||
    v (Key.laySrcW u) == 0 || v (Key.laySrcH u) == 0 || decide (v (Key.dispHActive h) < v (Key.layDstX u) + v (Key.layDstW u)) ||
    decide (v (Key.dispVActive h) < v (Key.layDstY u) + v (Key.layDstH u))

/-- The case of Table 16-2 on buffer extents. -/
def layerOutside (v : Nat → Nat) (u : Nat) : Bool :=
  let len := (v (Key.laySrcH u) - 1) * v (Key.layPitch u) + v (Key.laySrcW u) * elementBytes (u % 4)
  !fixedHolds v (v (Key.layBase0 u)) len || (v (Key.layDbuf u) != 0 && !fixedHolds v (v (Key.layBase1 u)) len) ||
    (v (Key.layFollow u) != 0xFFFF && v (Key.laySrcH u) != v (Key.spgRows (v (Key.layFollow u))))

/-- R437 and Table 16-2. -/
def rulesDisplay (s : State) (g : Group) : Option Code :=
  if !(g.hasRange 0x1800 0x1813 || g.hasRange 0x2A40 0x2A7F || g.has Key.memFixedSize) then none else
  let v := s.staged g
  let old := s.before g
  let units := [0, 1, 2, 4, 5, 6]
  let used := units.filter fun u => v (Key.layEnable u) != 0 || g.hasIndex (0x1808 + u)
  firstOf [
    eachOf [0, 1] (fun h => refuse (g.has (Key.dispFlip h) && v (Key.dispEnable h) == 0) Res.state),
    eachOf [0, 1] (fun h => refuse (g.hasSubs (0x1800 + h) 2 0x0E && old (Key.dispEnable h) != 0 && v (Key.dispEnable h) != 0) Res.state),
    eachOf units (fun u => refuse (v (Key.layFollow u) != 0xFFFF && (u % 4 != 1 || decide (64 ≤ v (Key.layFollow u)) || v (Key.spgEnable (v (Key.layFollow u))) == 0)) Res.state),
    eachOf [0, 1] (fun h => refuse (decide (3 < v (Key.dispLinkRate h)) || !([1, 2, 4].contains (v (Key.dispLinkLanes h))) || !([8, 10].contains (v (Key.dispBpc h)))) Res.range),
    eachOf [0, 1] (fun h => refuse (g.hasIndex (0x1800 + h) && !timingOk v h) Res.range),
    eachOf used (fun u => refuse (layerBad v u) Res.range),
    eachOf used (fun u => refuse (layerOutside v u) Res.range)]

end Sys2Proof.Machine
end

