-- ==== Sys2Proof/Machine/Memory.lean ====
section
/-! DEFINITION. The memory controller: scheduling, errors, freezes and remaps, refresh, scrubbing, training and data rate (10 R268 to R292, R525;
18 R489). -/

namespace Sys2Proof.Machine

namespace State

/-! ### Scheduling (10 R276 to R278) -/

/-- The panic port of a class-0 requester: the writer's pier, or 16 and the head (10 R275). -/
def panicPort (s : State) : Owner → Option Nat
  | .ringWriter stream _ => some (s.ringStream stream).pier
  | .scanout head _ => some (16 + head)
  | _ => none

/-- Is the request of a real-time port whose panic line is raised? -/
def panicked (s : State) (r : MemReq) : Bool := match s.panicPort r.owner with | some p => s.panicRaised p | none => false

/-- The age limit of a class (10 R276). -/
def ageLimit (s : State) (cls : Nat) : Nat := s.obj (if cls = 1 then Key.memAgeLimit1 else if cls = 2 then Key.memAgeLimit2 else Key.memAgeLimit3)

/-- Promotes and counts the requests of a channel that have waited their limit (10 R276). -/
def promote (s : State) (k : Nat) : State :=
  let c := s.memChan k
  let due (r : MemReq) : Bool := !r.promoted && r.cls != 0 && decide (r.arrival + s.ageLimit r.cls ≤ s.wall)
  let n := (c.queue.filter due).length
  if n = 0 then s else (s.putMemChan k { c with queue := c.queue.map fun r => if due r then { r with promoted := true } else r }).addObj (Key.memchPromoted k) n

/-- The order of precedence of a request; lower is served first: the step of R276, then the open row. -/
def precedence (s : State) (k : Nat) (r : MemReq) : Nat :=
  let step := if s.panicked r then 0 else if r.promoted then 1 else 2 + r.cls
  let b := s.bankOf k r.addr
  2 * step + b2n (tabGet 0 (s.memChan k).openRow b != s.rowAt k r.addr + 1)

/-- May a request be issued before the earlier ones of its bank: a write never ahead of an earlier read of its row, and writes of one burst in
their order (10 R277, R278)? -/
def mayPass (s : State) (k : Nat) (earlier : List MemReq) (r : MemReq) : Bool :=
  !r.write || earlier.all fun e => if e.write then e.addr / 64 != r.addr / 64 else s.rowAt k e.addr != s.rowAt k r.addr

/-- The requests of a list that may be issued, with the earlier ones of the bank given. -/
def issuable (s : State) (k : Nat) : List MemReq → List MemReq → List MemReq
  | _, [] => []
  | earlier, r :: rest => (if s.mayPass k earlier r then [r] else []) ++ issuable s k (earlier ++ [r]) rest

/-- The request that a bank serves next (10 R276, R277). -/
def pick (s : State) (k b : Nat) : Option MemReq :=
  let c := s.memChan k
  let mine := c.queue.filter fun r => s.bankOf k r.addr == b
  if tabGet 0 c.inOrder b ≠ 0 then mine.head? else
  (s.issuable k [] mine).foldl (fun (best : Option MemReq) r => match best with
    | none => some r
    | some x => if s.precedence k r < s.precedence k x then some r else some x) none

/-- Stores the bytes of an issued write. -/
def storeBytes (s : State) (w : MemReq) : State := s.withMem { s.mem with cells := w.store s.mem.cells }

/-- Issues a request: a write reaches the DRAM and is acknowledged; a read takes the data that stand now (10 R277, R278). -/
def issue (s : State) (k b : Nat) (r : MemReq) : State :=
  let c := s.memChan k
  let q := c.queue.filter fun x => x.id != r.id
  let c1 := { c with queue := q, openRow := tabSet 0 c.openRow b (s.rowAt k r.addr + 1), inOrder := s.inOrderAfter k q c.inOrder }
  if r.write then
    let s1 := (s.putMemChan k { c1 with lastWrite := some r, crcTries := 0 }).storeBytes r
    match r.owner with
    | .merge g => s1.mergeAcked g 64
    | _ => s1
  else s.putMemChan k { c1 with issued := c1.issued ++ [{ r with data := s.mem.bytes r.addr r.len }] }

/-! ### Freezing and remapping (10 R284 to R287) -/

/-- memch.diag (10 Table 10-5). -/
def diagImage (s : State) (k cause pending : Nat) (r : Option MemReq) (syndrome : Nat) : Bytes :=
  let place := match r with
    | some q => let (sc, bg, ba, col, rank, dimm, row) := s.location k (s.chanOffset q.addr); natLE 1 sc ++ natLE 1 dimm ++ natLE 1 rank ++ natLE 1 bg ++ natLE 1 ba ++ natLE 2 row ++ natLE 2 col
    | none => natLE 1 0xFF ++ natLE 1 0xFF ++ natLE 1 0xFF ++ natLE 1 0xFF ++ natLE 1 0xFF ++ zeros 4
  let cls := match r with
    | some q => if q.owner = .scrub then 0xFF else q.cls
    | none => 0xFF
  let addr := match r with | some q => q.addr | none => 2 ^ 64 - 1
  natLE 1 cause ++ place ++ natLE 1 cls ++ [0] ++ natLE 8 addr ++ natLE 10 s.time ++ natLE 2 (min pending 65535) ++ natLE 16 syndrome

/-- Freezes a channel in service: the record, the loss of its requests, and the remap of its lane to come (10 R284, R285). -/
def freeze (s : State) (k cause : Nat) (r : Option MemReq) (syndrome : Nat) : State :=
  let c := s.memChan k
  let lane := s.obj (Key.memchLane k)
  let s1 := s.setObj (Key.memchDiag k) (leNat (s.diagImage k cause c.queue.length r syndrome))
  let s2 := (((s1.setObj (Key.memchState k) 5).bump Key.memFreezes).setObj Key.memService (s1.obj Key.memService - 1)).putMemChan k
    { c with queue := [], issued := [], kept := c.queue ++ c.issued }
  let s3 := s2.withMem { s2.mem with frozenLanes := s2.mem.frozenLanes ++ [lane], remaps := s2.mem.remaps ++ [(lane, s.wall)] }
  let s4 := (List.range 32).foldl (fun x g => x.mergeAcked g 64) ((c.queue ++ c.issued).foldl loseReq s3)
  (((s4.finishAperture).serveHead 0).serveHead 1).refreshSpares

/-- Does the channel serve requests: in service, or in self-refresh? -/
def chanServes (s : State) (k : Nat) : Bool := s.obj (Key.memchState k) == 3 || s.obj (Key.memchState k) == 4

/-- Remaps every frozen lane in the order in which they froze (10 R286). -/
def remapAll (s : State) : State := (s.mem.frozenLanes.foldl remapLane s).refreshRingAvail

/-! ### Start-up stages (19 R501) -/

/-- Enters a start-up stage: its time, and event source 15. -/
def enterStage (s : State) (st : Nat) : State := ((s.setObj Key.suStage st).setObj Key.suStageTime s.time).raiseEvent 15

/-! ### Requesters (10 Table 10-3) -/

/-- Is any requester of class 0 or 2 enabled (10 R289)? -/
def realTimeOn (v : Nat → Nat) : Bool :=
  v Key.ringSelectRaw != 0 || v Key.ringSelectFe != 0 || v (Key.dispEnable 0) != 0 || v (Key.dispEnable 1) != 0 ||
  !(unitsOn v 0x2A00 64).isEmpty || !(unitsOn v 0x2A40 64).isEmpty || !(unitsOn v 0x2B00 512).isEmpty || !(unitsOn v 0x2D00 256).isEmpty ||
  v Key.trigLogEnable != 0 || !(unitsOn v 0x1640 32).isEmpty || ((unitsOn v 0x1B40 64).any fun n => v (Key.hrSource n) == 1) ||
  (v Key.acqDoneSize != 0 && !(unitsOn v 0x3000 1024).isEmpty)

/-- Is any requester of classes 0 to 2, host ring or mover enabled, or any ring slab in force (10 R291)? -/
def memoryBusy (v : Nat → Nat) : Bool :=
  realTimeOn v || !(unitsOn v 0x3000 1024).isEmpty || !(unitsOn v 0x1B40 64).isEmpty || !(unitsOn v 0x1B00 16).isEmpty || v Key.ringSlabsNow != 0

/-- The data rates of a population of d DIMMs per channel (10 Table 10-1). -/
def ratesOf (d : Nat) : List Nat := if d = 2 then [4800, 5200, 5600] else [4800, 5200, 5600, 6000, 6400]

/-- The channels in service. -/
def serving (s : State) : List Nat := (List.range 16).filter fun k => s.chanServes k

/-- DIMMs per channel of the population in service. -/
def popDimms (s : State) : Nat := match (List.range 16).find? fun k => s.obj (Key.memchLane k) != 0xFF with | some k => s.obj (Key.memchDimms k) | none => 0

/-- Is any channel gathering training data (10 R289)? -/
def training (s : State) : Bool := (List.range 16).any fun k => s.obj (Key.memchState k) == 2 || (s.memChan k).diagTraining

/-- Every channel in service retrains at a rate (10 R289). -/
def retrainAll (s : State) (rate : Nat) : State :=
  let s1 := s.serving.foldl (fun y k => y.setObj (Key.memchState k) 2) (s.setObj Key.memSpeed rate)
  s1.withMem { s1.mem with retraining := true, speedReq := none }

/-- A rate asked for while channels trained applies when the training has completed (10 R289). -/
def applyDeferred (s : State) : State :=
  match s.mem.speedReq with
  | some r => if s.training then s else s.retrainAll r
  | none => s

end State

/-- A bank of a channel can accept a command: the controller issues the next request by precedence; a selection for a panic is counted (10
R276 to R278). -/
def execBankSchedule (chan : Fin 16) (bank : Fin 256) (s : State) : Out :=
  let k := chan.val
  if s.obj (Key.memchState k) ≠ 3 then .next s else
  let s1 := s.promote k
  match s1.pick k bank.val with
  | none => .next s1
  | some r =>
    let s2 := if s1.panicked r then s1.bump (Key.memchPanicCount k) else s1
    .next (s2.issue k bank.val r)

/-- A requester that waits for its data at the interface goes on: a display head, or the aperture (10 R275; 12 R334). -/
def readerServed (o : Owner) (s : State) : State :=
  match o with
  | .scanout h _ => s.serveHead h
  | .aperture _ => s.finishAperture
  | _ => s

/-- Does the data of an owner's read go nowhere: a scrub, a read that was abandoned, or one whose data was taken as it was accepted? -/
def dataDropped (o : Owner) : Bool := o == .scrub || o == .abandoned || o == .peeked

/-- The oldest issued read of a channel returns (10 R281, R283). -/
def execMemReadComplete (chan : Fin 16) (result : ReadEnd) (s : State) : Out :=
  let k := chan.val
  let c := s.memChan k
  match c.issued with
  | [] => .next s
  | r :: rest =>
    if !s.chanServes k then .next s else
    let deliver (y : State) : State :=
      let y1 := y.putMemChan k { y.memChan k with issued := rest }
      if dataDropped r.owner then y1 else readerServed r.owner (y1.withMem { y1.mem with arrived := y1.mem.arrived ++ [(r.owner, r.addr, r.data, false)] })
    match result with
    | .clean => .next (deliver s)
    | .corrected =>
      let s1 := (deliver s).bump (Key.memchCeCount k)
      let burst := r.addr / 64 * 64
      let newer := (s1.memChan k).queue.any (fun x => x.write && x.addr / 64 == r.addr / 64) || s1.mem.bytes r.addr r.len != r.data
      .next (if newer then s1 else s1.enqueue .writeBack 3 true burst 64 (s1.mem.bytes burst 64))
    | .uncorrectable syn => .next (s.freeze k (if r.owner = .scrub then 2 else 1) (some r) syn)

/-- A command or address parity error freezes the channel (10 R282, R283). -/
def execRcdAlert (chan : Fin 16) (s : State) : Out :=
  if s.chanServes chan.val then .next (s.freeze chan.val 3 none 0) else .next s

/-- The last write of a channel fails its CRC: it is retried, and after the third retry the channel freezes (10 R282, R283). -/
def execWriteCrcError (chan : Fin 16) (s : State) : Out :=
  let k := chan.val
  let c := s.memChan k
  match c.lastWrite with
  | none => .next s
  | some w =>
    if !s.chanServes k then .next s
    else if 3 ≤ c.crcTries then .next ((s.loseWrite w).freeze k 4 (some w) 0)
    else .next ((s.putMemChan k { c with crcTries := c.crcTries + 1 }).bump (Key.memchCrcRetries k))

/-- The remap of the lane that froze first is complete: requests that waited for it go to their targets, the memory event is raised and admission is repeated (10
R286, R287). -/
def execRemapComplete (s : State) : Out :=
  match s.mem.remaps with
  | [] => .next s
  | (lane, _) :: rest =>
    let s1 := (s.remapLane lane).refreshRingAvail
    let s2 := s1.withMem { s1.mem with remaps := rest, waiting := [] }
    let s3 := s1.mem.waiting.foldl (fun y r => y.enqueue r.owner r.cls r.write r.addr r.len r.data r.mask) s2
    .next (((((s3.finishAperture).serveHead 0).serveHead 1).raiseEvent 4).readmit.refreshSpares)

/-- A refresh is due on a channel, at the highest DIMM temperature that it reads: postponed while a panic line is raised, as far as JESD79-5 allows, and issued
otherwise (10 R279, Table 10-8; notes/assumptions/120.md). -/
def execRefresh (due : RefreshDue) (s : State) : Out :=
  let k := due.chan.val
  if s.obj (Key.memchState k) ≠ 3 then .next s else
  let s1 := s.setObj (Key.memchTemp k) due.temp.toNat
  let c := s1.memChan k
  .next (s1.putMemChan k { c with postponed := if s1.anyPanic then min Config.postponeMax (c.postponed + 1) else 0 })

/-- A channel with no request for mem.sr.idle enters self-refresh (10 R280). -/
def execSelfRefreshEntry (chan : Fin 16) (s : State) : Out :=
  let k := chan.val
  let c := s.memChan k
  if s.obj (Key.memchState k) ≠ 3 ∨ !c.queue.isEmpty ∨ !c.issued.isEmpty ∨ s.wall < c.lastRequest + 400 * s.obj Key.memSrIdle then .next s
  else .next ((s.setObj (Key.memchState k) 4).bump (Key.memchSrEntries k))

/-- A channel completes its exit from self-refresh for a request that waits (10 R280). -/
def execSelfRefreshExit (chan : Fin 16) (s : State) : Out :=
  let k := chan.val
  if s.obj (Key.memchState k) ≠ 4 ∨ (s.memChan k).queue.isEmpty then .next s else .next (s.setObj (Key.memchState k) 3)

/-- A channel reads its next burst for scrubbing, in class 3 (18 R489). -/
def execScrubRead (chan : Fin 16) (s : State) : Out :=
  let k := chan.val
  if !s.chanServes k ∨ s.lanes0 = 0 then .next s else
  let c := s.memChan k
  let o := 64 * c.scrubNext
  let a := (o / s.grain * s.lanes0 + s.obj (Key.memchLane k)) * s.grain + o % s.grain
  let last := s.mem.capacity ≤ o + 64
  let s1 := s.putMemChan k { c with scrubNext := if last then 0 else c.scrubNext + 1 }
  .next ((if last then s1.bump Key.scrubPasses else s1).enqueue .scrub 3 false a 64 [])

/-- mem.speed.req (10 R289). -/
def immMemSpeedReq (rate : Nat) (s : State) : Code × State :=
  if !(State.ratesOf s.popDimms).contains rate then (Res.range, s)
  else if s.training then (Res.deferred, (s.withMem { s.mem with speedReq := some rate }).setObj Key.memSpeedReq rate)
  else if State.realTimeOn s.obj then (Res.state, s)
  else (Res.done, (s.setObj Key.memSpeedReq rate).retrainAll rate)

def execMemSpeedReq (rate : Nat) (s : State) : Out := .next (s.act (immMemSpeedReq rate))

/-- memch.retrain: diagnostic training of a FROZEN channel (10 R289). -/
def immMemchRetrain (k : Nat) (s : State) : Code × State :=
  if s.obj (Key.memchState k) ≠ 5 then (Res.state, s) else (Res.done, s.putMemChan k { s.memChan k with diagTraining := true })

def execMemchRetrain (chan : Fin 16) (s : State) : Out := .next (s.act (immMemchRetrain chan.val))

/-! ### Training -/

/-- The population of a report: DIMMs, ranks, capacity. -/
def chanPopulation (r : ChanReport) : Nat × Nat × Nat := (r.dimms, r.ranks, r.capacity)

/-- Is the population one that the MV3 supports: 1 or 2 RDIMMs of 1 or 2 ranks, 32 GB a rank (10 R268; notes/assumptions/180.md)? -/
def supportedPop (r : ChanReport) : Bool :=
  decide (1 ≤ r.dimms ∧ r.dimms ≤ 2 ∧ 1 ≤ r.ranks ∧ r.ranks ≤ 2) && r.capacity == r.dimms * r.ranks * 2 ^ 35

/-- The reference population (10 R269): carried by the most channels, at a tie the one of the lowest channel. -/
def referencePop (rs : List ChanReport) : Option (Nat × Nat × Nat) :=
  let count (p : Nat × Nat × Nat) : Nat := (rs.filter fun r => (chanPopulation r) == p).length
  rs.foldl (fun (b : Option (Nat × Nat × Nat)) r => match b with
    | none => some (chanPopulation r)
    | some p => if count p < count (chanPopulation r) then some (chanPopulation r) else some p) none

/-- Training at start-up: populations, lanes, capacity; then the LINKS stage, or FAILED with no channel in service (10 R269, R271, R288; 19
R501, R503). -/
def trainAtStart (s : State) (report : List ChanReport) : State :=
  let rs := (List.range 16).filterMap fun k => report.find? fun r => r.chan.val == k && r.dimms != 0
  let ref := referencePop (rs.filter supportedPop)
  let state (r : ChanReport) : Nat := if !supportedPop r ∨ some (chanPopulation r) ≠ ref then 1 else if r.works then 3 else 5
  let s0 := (List.range 16).foldl (fun y k => ((((y.setObj (Key.memchState k) 0).setObj (Key.memchLane k) 0xFF).setObj (Key.memchDimms k) 0).setObj (Key.memchRanks k) 0).putMemChan k { lastRequest := y.wall }) s
  let s1 := rs.foldl (fun y r =>
    let k := r.chan.val
    let y1 := ((((y.setObj (Key.memchDimms k) (min 2 r.dimms)).setObj (Key.memchRanks k) (min 2 r.ranks)).setObj (Key.memchTrainTime k) (r.ticks / 1024)).setObj (Key.memchState k) (state r)).setObj (Key.memchTemp k) r.temp.toNat
    if state r = 5 then y1.setObj (Key.memchDiag k) (leNat (y1.diagImage k 5 0 none 0)) else y1) s0
  let ok := rs.filter fun r => state r == 3
  let s2 := ok.zipIdx.foldl (fun y (r, i) => y.setObj (Key.memchLane r.chan.val) i) s1
  let cap := match ref with | some (_, _, c) => c | none => 0
  let dimms := match ref with | some (d, _, _) => d | none => 0
  let asked := s.obj Key.memSpeedReq
  let rate := if (State.ratesOf dimms).contains asked then asked else (State.ratesOf dimms).getLastD 0
  let s3 := ((((s2.setObj Key.memLanes ok.length).setObj Key.memService ok.length).setObj Key.memSize (ok.length * cap)).setObj Key.memSpeed rate).setObj Key.memFreezes 0
  let s4 := s3.withMem { s3.mem with capacity := cap }
  (s4.refreshRingAvail.refreshAdmitted.refreshSpares).enterStage (if ok.isEmpty then 6 else 3)

/-- R273 and R291: the refusals of memory groups. Before memory has trained, the lanes and the size that bound mem.fixed.size are unknown
(notes/assumptions/178.md). -/
def rulesMemory (s : State) (g : Group) : Option Code :=
  if !(g.has Key.memGrain || g.has Key.memFixedSize) then none else
  let v := s.staged g
  let old := s.before g
  let changes := v Key.memGrain != old Key.memGrain || v Key.memFixedSize != old Key.memFixedSize
  let trained := s.memSize != 0
  let unit := max 1 (max 1 (s.obj Key.memLanes) * v Key.memGrain)
  firstOf [
    refuse (changes && (State.memoryBusy v || State.memoryBusy old)) Res.state,
    refuse (g.has Key.memFixedSize && (v Key.memFixedSize == 0 || v Key.memFixedSize % unit != 0 || (trained && decide (s.memSize / 2 < v Key.memFixedSize)))) Res.range,
    refuse (g.has Key.memGrain && old Key.memFixedSize != 0 && v Key.memFixedSize % unit != 0) Res.range]

/-- At T of a group that sets mem.fixed.size, the remap is applied for every lane frozen before; a new grain lays the space out anew (10 R271, R286). -/
def commitMemory (s : State) (g : Group) (old : Nat → Nat) : State :=
  if !(g.has Key.memFixedSize || g.has Key.memGrain) then s
  else if s.grain = old Key.memGrain ∨ s.lanes0 = 0 then s.trimRedirect.remapAll
  else
    let before := s.setObj Key.memGrain (old Key.memGrain)
    (s.withMem { s.mem with cells := before.regrainedCells s.grain, redirect := [] }).remapAll

end Sys2Proof.Machine
end

