-- ==== Sys2Proof/Machine/Network.lean ====
section
/-! DEFINITION. The Ethernet ports: received frames, links, PTP, the sending of VITA 49.2 packets, and the network part of commit groups (14
R379 to R399). -/

namespace Sys2Proof.Machine

/-! ### Interfaces (14 R379, R380, Table 14-1) -/

/-- Is an interface configured: one in modes 1 and 2, four in mode 3? -/
def ifaceConfigured (v : Nat → Nat) (i : Nat) : Bool :=
  let m := v (Key.netMode (i / 4))
  m == 3 || ((m == 1 || m == 2) && i % 4 == 0)

/-- 95 % of the line rate of a configured interface in Mbit/s (14 R397). -/
def ifaceLimit (v : Nat → Nat) (i : Nat) : Nat := if v (Key.netMode (i / 4)) = 3 then 23750 else 95000

namespace State

/-- Is the interface in service (14 R380)? -/
def ifaceUp (s : State) (i : Nat) : Bool := s.obj (Key.netState i) == 2

/-- The packets queued for an interface are discarded and counted (14 R396). -/
def discardQueued (s : State) (i : Nat) : State :=
  (List.range 256).foldl (fun y n =>
    if y.obj (Key.vrtInterface n) ≠ i then y else
    let x := y.vrtStream n
    if x.queue.isEmpty then y else (y.putVrtStream n { x with queue := [] }).addObj (Key.netTxDropped i) x.queue.length) s

/-- The lane PLL of an Ethernet port: on at 25.78125 Gbaud while the port has a mode (14 R379). -/
def ethPll (s : State) (p : Nat) : State :=
  if s.obj (Key.netMode p) = 0 then s.stopPll (20 + p) else if s.obj (Key.lanepllState (20 + p)) = 0 then s.startPll (20 + p) 25781250 else s

/-- An interface leaves service or is configured anew: training, or down (14 Table 14-5). -/
def restartIface (s : State) (i : Nat) : State :=
  let s1 := if s.ifaceUp i then s.discardQueued i else s
  (s1.setObj (Key.netState i) (b2n (ifaceConfigured s1.obj i))).ethPll (i / 4)

end State

/-- A port completes auto-negotiation and training: its lane PLL is locked and its interfaces are in service (14 R380; 02 R56). -/
def execNetLinkUp (port : Fin 2) (s : State) : Out :=
  let s1 := if s.obj (Key.netMode port.val) = 0 then s else s.lockPll (20 + port.val)
  .next ((List.range 4).foldl (fun y l => if y.obj (Key.netState (4 * port.val + l)) = 1 then y.setObj (Key.netState (4 * port.val + l)) 2 else y) s1)

/-- An interface leaves service: its queued packets are discarded, and its link trains again (14 R380, R396). -/
def execNetLinkLoss (iface : Fin 8) (s : State) : Out :=
  if s.ifaceUp iface.val then .next (s.restartIface iface.val) else .next s

/-! ### Received frames (14 R381, R382) -/

/-- The Internet checksum of bytes: the complement of the ones' complement sum of 16-bit words (RFC 1071). -/
def inetSum : Bytes → Nat → Nat
  | a :: b :: r, acc => inetSum r (let x := acc + a.toNat * 256 + b.toNat; x % 65536 + x / 65536)
  | [a], acc => let x := acc + a.toNat * 256; x % 65536 + x / 65536
  | [], acc => acc

def inetChecksum (b : Bytes) : Nat := 65535 - inetSum b 0

/-- Do bytes that hold their own checksum sum to all ones? -/
def inetOk (b : Bytes) : Bool := inetSum b 0 == 65535

/-- Bytes off to off + n of a frame. -/
def part (b : Bytes) (off n : Nat) : Bytes := (b.drop off).take n

/-- A frame taken apart: destination, source, tag, type and the rest. -/
structure EthFrame where
  dst : Nat
  src : Nat
  tag : Option Nat
  type : Nat
  body : Bytes
  deriving DecidableEq, Repr

/-- The fields of an Ethernet frame, from the destination address to the end of its payload. -/
def ethFrame (b : Bytes) : EthFrame :=
  let tagged := beNat (part b 12 2) == 0x8100
  { dst := beNat (part b 0 6), src := beNat (part b 6 6), tag := if tagged then some (beNat (part b 14 2) % 4096) else none,
    type := beNat (part b (if tagged then 16 else 12) 2), body := b.drop (if tagged then 18 else 14) }

/-- The link-local address of a MAC address: fe80::/64 with the modified EUI-64 identifier (14 R381). -/
def linkLocal (mac : Nat) : Nat :=
  0xFE80 * 2 ^ 112 + ((mac / 2 ^ 24) ^^^ 0x020000) * 2 ^ 40 + 0xFFFE * 2 ^ 24 + mac % 2 ^ 24

/-- The upper-layer protocol and data of an IPv6 packet, past a Fragment header of an unfragmented packet; none where R382 discards it. -/
def ipv6Upper (body : Bytes) : Option (Nat × Bytes) :=
  let data := part body 40 (beNat (part body 4 2))
  let next := beNat (part body 6 1)
  let extension (n : Nat) : Bool := [0, 43, 50, 51, 60, 135, 139, 140].contains n
  if extension next then none
  else if next = 44 then
    let inner := beNat (part data 0 1)
    let offM := beNat (part data 2 2)
    if offM / 8 ≠ 0 ∨ offM % 2 = 1 ∨ extension inner ∨ inner = 44 then none else some (inner, data.drop 8)
  else some (next, data)

/-- The pseudo-header of an upper-layer checksum over IPv4 or IPv6. -/
def pseudoHeader (v6 : Bool) (body : Bytes) (proto len : Nat) : Bytes :=
  if v6 then part body 8 32 ++ natBE 4 len ++ natBE 4 proto else part body 12 8 ++ natBE 2 proto ++ natBE 2 len

/-- Does R382 discard a UDP datagram? -/
def udpBad (v6 : Bool) (body data : Bytes) : Bool :=
  let port := beNat (part data 2 2)
  let len := beNat (part data 4 2)
  let sum := beNat (part data 6 2)
  !(port == 47321 || port == 319 || port == 320) || (v6 && sum == 0) ||
    (sum != 0 && !inetOk (pseudoHeader v6 body 17 len ++ data.take len))

/-- The protocol and data of an IP packet, or none where R382 discards the packet. -/
def ipUpper (f : EthFrame) : Option (Nat × Bytes) :=
  if f.type = 0x0800 then
    let frag := beNat (part f.body 6 2) % 16384
    if beNat (part f.body 0 1) % 16 ≠ 5 ∨ frag ≠ 0 then none
    else some (beNat (part f.body 9 1), part f.body 20 (beNat (part f.body 2 2) - 20))
  else if f.type = 0x86DD then ipv6Upper f.body
  else some (256, [])

namespace State

/-- Does R382 discard the frame? -/
def frameBad (s : State) (i : Nat) (ok : Bool) (b : Bytes) : Bool :=
  let f := ethFrame b
  !ok || decide (s.obj (Key.netMtu i) < f.body.length) ||
    (match ipUpper f with
    | none => true
    | some (proto, data) => proto == 17 && udpBad (f.type == 0x86DD) f.body data)

/-- Does the interface accept the tag of a frame (14 R381)? -/
def tagAccepted (s : State) (i : Nat) (f : EthFrame) : Bool :=
  match f.tag with
  | none => s.obj (Key.netVlan i) == 0
  | some v => s.obj (Key.netVlan i) != 0 && v == s.obj (Key.netVlan i)

/-- The 16 bytes of net.ipv6 as a number, most significant byte first. -/
def ipv6Of (s : State) (i : Nat) : Nat := beNat (natLE 16 (s.obj (Key.netIpv6 i)))

/-- Is an IPv6 address one of the interface's (14 R381)? -/
def ownIpv6 (s : State) (i a : Nat) : Bool := (s.ipv6Of i != 0 && a == s.ipv6Of i) || a == linkLocal (s.obj (Key.netMac i))

/-- A frame as an interface sends it: addresses, the interface's tag with priority 0, type, body (14 R381). -/
def ownFrame (s : State) (i dst type : Nat) (body : Bytes) : Bytes :=
  let vlan := s.obj (Key.netVlan i)
  padTo 60 (natBE 6 dst ++ natBE 6 (s.obj (Key.netMac i)) ++ (if vlan = 0 then [] else natBE 2 0x8100 ++ natBE 2 vlan) ++ natBE 2 type ++ body)

/-- The answer to an ARP request for the interface's IPv4 address (14 R381). -/
def answerArp (s : State) (i : Nat) (f : EthFrame) : State :=
  let own := s.obj (Key.netIpv4 i)
  if own = 0 ∨ part f.body 0 8 ≠ natBE 6 0x000108000604 ++ natBE 2 1 ∨ beNat (part f.body 24 4) ≠ own then s else
  let body := natBE 6 0x000108000604 ++ natBE 2 2 ++ natBE 6 (s.obj (Key.netMac i)) ++ natBE 4 own ++ part f.body 8 10
  s.emit (.frame i (s.ownFrame i (beNat (part f.body 8 6)) 0x0806 body))

/-- An ICMPv6 packet with its checksum and IPv6 header. -/
def icmpv6Packet (src dst hop : Nat) (msg : Bytes) : Bytes :=
  let sum := inetChecksum (natBE 16 src ++ natBE 16 dst ++ natBE 4 msg.length ++ natBE 4 58 ++ msg)
  natBE 4 0x60000000 ++ natBE 2 msg.length ++ natBE 1 58 ++ natBE 1 hop ++ natBE 16 src ++ natBE 16 dst ++ part msg 0 2 ++ natBE 2 sum ++ msg.drop 4

/-- The answer to a Neighbor Solicitation or an ICMPv6 echo request (14 R381; RFC 4861, RFC 4443). -/
def answerIcmpv6 (s : State) (i : Nat) (f : EthFrame) (msg : Bytes) : State :=
  let src := beNat (part f.body 8 16)
  let dst := beNat (part f.body 24 16)
  if !inetOk (pseudoHeader true f.body 58 msg.length ++ msg) then s
  else if part msg 0 2 = [135, 0] then
    let target := beNat (part msg 8 16)
    if !s.ownIpv6 i target ∨ beNat (part f.body 7 1) ≠ 255 then s else
    let reply (flags : Nat) : Bytes := natBE 1 136 ++ zeros 3 ++ natBE 4 flags ++ natBE 16 target ++ natBE 2 0x0201 ++ natBE 6 (s.obj (Key.netMac i))
    if src = 0 then s.emit (.frame i (s.ownFrame i 0x333300000001 0x86DD (icmpv6Packet target (0xFF02 * 2 ^ 112 + 1) 255 (reply 0x20000000))))
    else s.emit (.frame i (s.ownFrame i f.src 0x86DD (icmpv6Packet target src 255 (reply 0x60000000))))
  else if part msg 0 2 = [128, 0] ∧ s.ownIpv6 i dst then
    let (hop, s1) := s.drawNat 256
    s1.emit (.frame i (s1.ownFrame i f.src 0x86DD (icmpv6Packet dst src hop (natBE 1 129 ++ zeros 3 ++ msg.drop 4))))
  else s

/-- The answer to an ICMP echo request (14 R381, R382; RFC 792): Don't Fragment is set. -/
def answerIcmp (s : State) (i : Nat) (f : EthFrame) (msg : Bytes) : State :=
  let own := s.obj (Key.netIpv4 i)
  if own = 0 ∨ beNat (part f.body 16 4) ≠ own ∨ part msg 0 2 ≠ [8, 0] ∨ !inetOk msg then s else
  let (ttl, s1) := s.drawNat 256
  let (ident, s2) := s1.drawNat 65536
  let body := zeros 2 ++ msg.drop 4
  let head (sum : Nat) : Bytes := natBE 2 0x4500 ++ natBE 2 (20 + msg.length) ++ natBE 2 ident ++ natBE 2 0x4000 ++ natBE 1 ttl ++ natBE 1 1 ++ natBE 2 sum ++ natBE 4 own ++ part f.body 12 4
  let icmp := zeros 2 ++ natBE 2 (inetChecksum body) ++ msg.drop 4
  s2.emit (.frame i (s2.ownFrame i f.src 0x0800 (head (inetChecksum (head 0)) ++ icmp)))

/-- What an accepted frame does: ARP, Neighbor Discovery and echo requests are answered; Pelpin and PTP messages are commands of their own. -/
def acceptFrame (s : State) (i : Nat) (f : EthFrame) : State :=
  if f.type = 0x0806 then s.answerArp i f else
  match ipUpper f with
  | some (1, msg) => if f.type = 0x0800 then s.answerIcmp i f msg else s
  | some (58, msg) => if f.type = 0x86DD then s.answerIcmpv6 i f msg else s
  | _ => s

end State

/-- A frame is received by an interface in service: discarded and counted, or accepted (14 R381, R382). frame runs from the destination
address to the end of the payload. -/
def execEthFrameRx (iface : Fin 8) (fcsOk : Bool) (frame : Bytes) (s : State) : Out :=
  let i := iface.val
  let f := ethFrame frame
  if !s.ifaceUp i ∨ !s.tagAccepted i f then .next s
  else if s.frameBad i fcsOk frame then .next (s.bump (Key.netRxDropped i))
  else .next (s.acceptFrame i f)

/-! ### Precision time (14 R384, R385; 02 R55) -/

namespace State

/-- The port that tai.source selects (02 R54; 14 R384). -/
def ptpPort (s : State) : Option Nat := if s.obj Key.taiSource = 1 then some 0 else if s.obj Key.taiSource = 2 then some 1 else none

/-- The interface that carries PTP. -/
def ptpIface (s : State) : Option Nat := s.ptpPort.map fun p => 4 * p + (if s.obj (Key.netMode p) = 3 then s.obj Key.ptpLane else 0)

/-- A time-stamp resolved to 1,024 fraction units, with ptp.asym added or subtracted (14 R385). -/
def ptpStamp (s : State) (t : KTime) (sent : Bool) : KTime :=
  (((t / 1024 * 1024 : Nat) : Int) + (if sent then -(s.objI Key.ptpAsym) else s.objI Key.ptpAsym)).toNat

/-- Picoseconds of TAI in a difference of Keystone times under the rate in force (02 R54). -/
def taiSpan (s : State) (a b : KTime) : Int := ((b : Int) - a) * 2500 * (1000000000000 + s.objI Key.taiRate) / (65536 * 1000000000000)

/-- The servo takes the time of a Sync: its receive time-stamp and the master's time (14 R385). -/
def ptpSync (s : State) (rx : KTime) (master : Nat) : State :=
  let ps : Int := master + s.objI Key.ptpPath
  let s1 := s.setObjI Key.ptpOffset (if s.obj Key.taiState ≤ 1 then 0 else s.taiPs rx - ps)
  (s1.withKs { s1.ks with syncRx := some rx, syncTx := master }).taiMeasure rx ps

end State

/-- A PTP message reaches the selected port (14 R384, R385): an Announce names the master, Sync and Follow_Up give the servo its pair, and
Delay_Resp gives the mean path delay. -/
def execPtpEventRx (port : Fin 2) (msg : PtpMsg) (s : State) : Out :=
  if s.ptpPort ≠ some port.val then .next s else
  match msg with
  | .announce master best => .next (if best then s.setObj Key.ptpMaster master else s)
  | .sync twoStep master rx interval =>
    let t := s.ptpStamp rx false
    let s1 := s.withKs { s.ks with syncInterval := interval }
    if twoStep then .next (s1.withKs { s1.ks with syncRx := some t }) else .next (s1.ptpSync t master)
  | .followUp master => match s.ks.syncRx with
    | some t => .next (s.ptpSync t master)
    | none => .next s
  | .delayResp master => match s.ks.syncRx, s.ks.delayReqAt with
    | some t2, some t3 =>
      let path := ((master : Int) - s.ks.syncTx - s.taiSpan t2 t3) / 2
      .next (((s.withKs { s.ks with delayReqAt := none })).setObjI Key.ptpPath path)
    | _, _ => .next s

/-- The Delay_Req message (IEEE 1588-2019; notes/assumptions/31.md). -/
def delayReq (domain mac seq : Nat) : Bytes :=
  natBE 2 0x0112 ++ natBE 2 44 ++ natBE 1 domain ++ zeros 15 ++ natBE 3 (mac / 2 ^ 24) ++ natBE 2 0xFFFE ++ natBE 3 (mac % 2 ^ 24) ++ natBE 2 1 ++
    natBE 2 seq ++ natBE 1 1 ++ natBE 1 0x7F ++ zeros 10

/-- At the interval that the master requests, a time-stamped Delay_Req is sent to the primary multicast address (14 R384, R385). -/
def execPtpDelayReq (s : State) : Out :=
  match s.ptpIface with
  | none => .next s
  | some i =>
    if !s.ifaceUp i then .next s else
    let msg := delayReq (s.obj Key.ptpDomain) (s.obj (Key.netMac i)) s.net.ptpSeq
    let e := match s.obj Key.ptpTransport with
      | 0 => Emission.udp i 0x01005E000181 (0xFFFF * 2 ^ 32 + 0xE0000181) 319 319 msg
      | 1 => .udp i 0x333300000181 (0xFF0E * 2 ^ 112 + 0x181) 319 319 msg
      | _ => .frame i (s.ownFrame i 0x011B19000000 0x88F7 msg)
    let s1 := s.emit e
    .next ((s1.withKs { s1.ks with delayReqAt := some (s.ptpStamp s.time true) }).withNet { s1.net with ptpSeq := (s1.net.ptpSeq + 1) % 65536 })

/-! ### Sending VITA 49.2 packets (14 R394, R395) -/

namespace State

/-- The largest packet of a stream on the wire, in bytes (14 R395, R397). -/
def maxPacket (s : State) (n : Nat) : Nat :=
  max (s.wireBytes n { sid := 0, cls := 0, flags := 0, spectral := false, k := 0, body := zeros (s.obj (Key.vrtPayload n)) })
    (s.wireBytes n { sid := 0, cls := 0, flags := 0, spectral := false, context := true, k := 0, body := [] })

/-- The credit of a stream's bucket now, in units of 1 / 3,200 byte (14 R395). -/
def creditNow (s : State) (n : Nat) : Nat :=
  let x := s.vrtStream n
  min (3200 * s.maxPacket n) (x.credit + s.obj (Key.vrtRate n) * (s.wall - x.creditAt))

/-- Does a stream of an interface hold a packet and a token? -/
def canSend (s : State) (i n : Nat) : Bool :=
  s.flag (Key.vrtEnable n) && s.obj (Key.vrtInterface n) == i &&
    (match (s.vrtStream n).queue with
    | [] => false
    | p :: _ => decide (3200 * s.wireBytes n p ≤ s.creditNow n))

/-- Sends the oldest packet of a stream. -/
def sendVrt (s : State) (i n : Nat) : State :=
  let x := s.vrtStream n
  match x.queue with
  | [] => s
  | p :: rest =>
    let count := match x.ids.find? fun d => d.sid == p.sid with | some d => d.count | none => 0
    let ids := x.ids.map fun d => if d.sid = p.sid then { d with count := (d.count + 1) % 16 } else d
    let s1 := s.putVrtStream n { x with queue := rest, ids := ids, credit := s.creditNow n - 3200 * s.wireBytes n p, creditAt := s.wall }
    let s2 := (s1.withNet { s1.net with served := tabSet 0 s1.net.served i (n + 1) }).bump (Key.vrtPackets n)
    s2.emit (.udp i (s.obj (Key.vrtDstMac n)) (beNat (natLE 16 (s.obj (Key.vrtDstIp n)))) (s.obj (Key.vrtDstUdp n)) (s.obj (Key.vrtSrcUdp n)) (s.packetBytes p count))

end State

/-- An interface serves the next stream, in round robin by stream number, that holds a packet and a token (14 R395). -/
def execVrtPacketSend (iface : Fin 8) (s : State) : Out :=
  let i := iface.val
  if !s.ifaceUp i then .next s else
  let from' := tabGet 0 s.net.served i
  match ((List.range 256).map fun j => (from' + j) % 256).find? fun n => s.canSend i n with
  | none => .next s
  | some n => .next (s.sendVrt i n)

/-- Every vrt.ctx.interval ticks a stream queues a context packet for each Stream ID (14 R394). -/
def execVrtContextPeriodic (stream : Fin 256) (s : State) : Out :=
  let n := stream.val
  let x := s.vrtStream n
  if !s.flag (Key.vrtEnable n) ∨ !s.flag (Key.vrtCtx n) ∨ s.wall < x.ctxAt + s.obj Key.vrtCtxInterval then .next s else
  let known := x.ids.filter fun d => d.sent.isSome
  let made := known.map fun d => s.contextPacket d (d.sent.getD []) (d.sid / 2 ^ 28 != 1) false d.last d.flags
  let fits := decide (State.queuedBytes x + 76 * made.length ≤ 524288)
  let ids := x.ids.map fun d => match made.find? fun m => m.2.sid == d.sid with | some m => m.2 | none => d
  .next (s.putVrtStream n (if fits then { x with queue := x.queue ++ made.map (·.1), ids := ids, ctxAt := s.wall } else { x with ctxAt := s.wall }))

/-! ### Mover-fed products (14 R387, source 3) -/

/-- The VITA 49.2 record of a product record (14 R388, R389, R393, R394). -/
def productVrt (node : Nat) (b : Bytes) : VrtRecord :=
  { sid := 3 * 2 ^ 28 + node % 512 * 2 ^ 19 + recField b 0 1 % 8 * 65536 + recField b 2 2, format := 0, spectral := true, k := recField b 16 10,
    flags := recField b 1 1 % 64, first := b, port := recField b 6 2 }

/-- Is an extent exactly one product record, with or without its padding? -/
def isProductRecord (b : Bytes) : Bool :=
  decide (64 ≤ b.length) && decide (1 ≤ recField b 0 1 ∧ recField b 0 1 ≤ 3) && (b.length == 64 + recField b 48 4 || b.length == pad64 (64 + recField b 48 4))

/-- A pulse starts packetiser stream n with a destination extent; in host space it holds no record (14 R387). -/
def State.packetise (s : State) (n : Nat) (host : Bool) (addr len : Nat) : State :=
  if !s.flag (Key.vrtEnable n) ∨ s.obj (Key.vrtSource n) ≠ 3 ∨ host ∨ 2 ^ 22 < len then s.bump (Key.vrtDropped n) else
  let ((b, _), s) := s.memTake 1 addr len
  if !isProductRecord b then s.bump (Key.vrtDropped n)
  else s.vrtOffer n (productVrt (s.obj Key.spanNode) (b.take (64 + recField b 48 4)))

/-! ### Commit groups (14 R380, R397, R399) -/

/-- The effects of a commit: links that restart, streams that are enabled or disabled, buckets that fill at another rate from now on (14 R380,
R390, R395). -/
def commitNetwork (s : State) (g : Group) (old : Nat → Nat) : State :=
  let moved (p : Nat) : Bool := [Key.netMode p, Key.netFec25 p, Key.netAn p].any (fun k => s.obj k != old k) || fieldAt (s.obj Key.netEq) (16 * p) 16 != fieldAt (old Key.netEq) (16 * p) 16
  let s1 := if g.hasIndex 0x1708 then
      (List.range 8).foldl (fun y i => if moved (i / 4) then y.restartIface i else y) s
    else s
  if !g.hasRange 0x1710 0x171F then s1 else
  (List.range 256).foldl (fun y n =>
    let on := y.flag (Key.vrtEnable n)
    let was := old (Key.vrtEnable n) != 0
    if on = was then
      let x := y.vrtStream n
      if on && y.obj (Key.vrtRate n) != old (Key.vrtRate n) then
        y.putVrtStream n { x with credit := x.credit + old (Key.vrtRate n) * (y.wall - x.creditAt), creditAt := y.wall }
      else y
    else y.putVrtStream n (if on then { creditAt := y.wall, ctxAt := y.wall } else {})) s1

/-- R397 and R399. iface is the interface that carried the session of the group (13 R370). -/
def rulesNetwork (s : State) (g : Group) (iface : Option Nat) : Option Code :=
  if !(g.hasRange 0x1700 0x171F || g.hasRange 0x3000 0x33FF) then none else
  let v := s.staged g
  let old := s.before g
  let on := (List.range 256).filter fun n => v (Key.vrtEnable n) != 0
  let sized := (List.range 256).filter fun n =>
    v (Key.vrtEnable n) != 0 || [Key.vrtPayload n, Key.vrtInterface n, Key.vrtDstIp n].any fun k => g.writes.any fun w => w.1 == k
  let header (n : Nat) : Nat := if v (Key.vrtDstIp n) % 2 ^ 96 = 0xFFFF * 2 ^ 80 then 28 else 48
  let sum (i : Nat) : Nat := on.foldl (fun a n => if v (Key.vrtInterface n) = i then a + v (Key.vrtRate n) else a) 0
  let own (i : Nat) : Bool := [Key.netMode (i / 4), Key.netMac i, Key.netIpv4 i, Key.netIpv6 i].any fun k => v k != old k
  firstOf [
    eachOf (List.range 8) (fun i => refuse (ifaceConfigured v i && decide (ifaceLimit v i < sum i)) Res.capacity),
    eachOf sized (fun n => refuse (decide (v (Key.netMtu (v (Key.vrtInterface n))) < v (Key.vrtPayload n) + 32 + header n)) Res.range),
    refuse (match iface with | some i => own i | none => false) Res.state,
    eachOf on (fun n => refuse (old (Key.vrtEnable n) == 0 && !ifaceConfigured v (v (Key.vrtInterface n))) Res.state),
    eachOf on (fun n => refuse (v (Key.vrtSource n) != 2 && (List.range 1024).any fun c =>
      v (Key.ctxEnable c) != 0 && v (Key.ctxDestKind c) == 3 && v (Key.ctxDestNum c) == n) Res.state)]

end Sys2Proof.Machine
end

