-- ==== Sys2Proof/Machine/Movers.lean ====
section
/-! DEFINITION. Mover channels and host rings: registers, descriptors, bursts, completion, targets, and their commit groups (12 R335 to R349). -/

namespace Sys2Proof.Machine

/-! ### Descriptors (12 R339 to R341) -/

/-- A descriptor's fields (12 Table 12-13). -/
structure MvDesc where
  pattern : Nat
  flags : Nat
  elem : Nat
  count : Nat
  src : Nat
  dst : Nat
  srcStride : Int
  dstStride : Int
  index : Nat
  rest : Bytes
  deriving DecidableEq, Repr

/-- The fields of 64 descriptor bytes. -/
def mvDesc (b : Bytes) : MvDesc :=
  { pattern := recField b 0 1, flags := recField b 1 1, elem := recField b 2 2, count := recField b 4 4, src := recField b 8 8, dst := recField b 16 8,
    srcStride := toSigned 32 (recField b 24 4), dstStride := toSigned 32 (recField b 28 4), index := recField b 32 8, rest := (b.drop 40).take 24 }

def MvDesc.barrier (d : MvDesc) : Bool := bit d.flags 0
def MvDesc.event (d : MvDesc) : Bool := bit d.flags 1
def MvDesc.srcHost (d : MvDesc) : Bool := bit d.flags 2
def MvDesc.dstHost (d : MvDesc) : Bool := bit d.flags 3
def MvDesc.indexHost (d : MvDesc) : Bool := bit d.flags 4

/-- Does the descriptor use host space? -/
def MvDesc.usesHost (d : MvDesc) : Bool := d.srcHost || d.dstHost || (d.pattern == 2 && d.indexHost)

/-- The number of elements (12 R340). -/
def MvDesc.elements (d : MvDesc) : Nat := if d.pattern = 0 then 1 else d.count
/-- The bytes of an element. -/
def MvDesc.size (d : MvDesc) : Nat := if d.pattern = 0 then d.count else d.elem
/-- The source address of element i. -/
def MvDesc.srcAt (d : MvDesc) (table : Bytes) (i : Nat) : Int :=
  if d.pattern = 1 then d.src + i * d.srcStride else if d.pattern = 2 then d.src + recField table (4 * i) 4 else d.src
/-- The destination address of element i. -/
def MvDesc.dstAt (d : MvDesc) (i : Nat) : Int :=
  if d.pattern = 1 then d.dst + i * d.dstStride else d.dst + i * d.size

/-- The hull of the destination bytes: first and one past the last. -/
def MvDesc.dstHull (d : MvDesc) : Int × Int :=
  let a := d.dstAt 0
  let b := d.dstAt (d.elements - 1)
  (min a b, max a b + d.size)

/-- The hull of the source bytes. -/
def MvDesc.srcHull (d : MvDesc) (table : Bytes) : Int × Int :=
  if d.pattern = 2 then
    let os := (List.range d.count).map fun i => recField table (4 * i) 4
    let lo := os.foldl min (os.headD 0)
    let hi := os.foldl max 0
    ((d.src + lo : Nat), (d.src + hi + d.size : Nat))
  else
    let a := d.srcAt table 0
    let b := d.srcAt table (d.elements - 1)
    (min a b, max a b + d.size)

/-- A field outside Table 12-13, or a reserved bit or byte that is not zero (12 R341). -/
def MvDesc.malformed (d : MvDesc) : Bool :=
  decide (2 < d.pattern) || decide (32 ≤ d.flags) || (if d.pattern = 0 then d.elem != 0 else d.elem == 0 || decide (4096 < d.elem)) ||
    d.count == 0 || (d.pattern == 1 && decide (2 ^ 24 < d.count)) || (d.pattern == 2 && decide (65536 < d.count)) ||
    (d.pattern != 1 && (d.srcStride != 0 || d.dstStride != 0)) || (d.pattern != 2 && d.index != 0) || d.rest.any fun x => x != 0

/-- Does an extent leave its space: the fixed region, or 2^64 bytes of host space (12 R341)? -/
def State.mvOutside (s : State) (host : Bool) (e : Int × Int) : Bool :=
  decide (e.1 < 0) || (if host then decide ((2 ^ 64 : Int) < e.2) else !s.inFixed e.1.toNat (e.2 - e.1).toNat)

/-- Do two hulls meet? -/
def hullsMeet (a b : Int × Int) : Bool := decide (a.1 < b.2 ∧ b.1 < a.2)

/-- The cases of R341 that do not need the index table. -/
def State.descBad (s : State) (d : MvDesc) : Bool :=
  d.malformed || (d.pattern == 1 && decide (d.dstStride.natAbs < d.elem)) || s.mvOutside d.dstHost d.dstHull ||
    (d.pattern == 2 && s.mvOutside d.indexHost (d.index, (d.index + 4 * d.count : Nat))) || (d.pattern != 2 && s.mvOutside d.srcHost (d.srcHull []))

/-- The code with which a descriptor is refused, with its index table read (12 R341). -/
def State.descRefused (s : State) (d : MvDesc) (table : Bytes) : Option Code :=
  if s.descBad d ∨ s.mvOutside d.srcHost (d.srcHull table) then some Res.range
  else if (d.srcHost == d.dstHost && hullsMeet (d.srcHull table) d.dstHull) ∨
      (d.pattern == 2 && d.indexHost == d.dstHost && hullsMeet (d.index, (d.index + 4 * d.count : Nat)) d.dstHull) then some Res.overlap
  else none

/-- The bytes of the burst at an offset of element i (12 R342). -/
def MvDesc.burstLen (d : MvDesc) (table : Bytes) (i off : Nat) : Nat :=
  let a := (d.srcAt table i + off).toNat
  let b := (d.dstAt i + off).toNat
  min (min 512 (d.size - off)) (min (4096 - a % 4096) (4096 - b % 4096))

/-- The offset of the burst of element i that holds a byte. -/
def MvDesc.burstOf (d : MvDesc) (table : Bytes) (i byte : Nat) : Nat → Nat → Nat
  | 0, off => off
  | fuel + 1, off =>
    let n := max 1 (d.burstLen table i off)
    if byte < off + n then off else burstOf d table i byte fuel (off + n)

/-- The retries that a burst of the descriptor has used; that of the current burst is kept in retries until it is written (12 R343). -/
def Mover.triesOf (x : Mover) (b : Nat × Nat) : Nat := ((x.tries.find? fun e => e.1 == b).map (·.2)).getD 0

/-- The current burst has been written: its retries are kept for the acknowledgement of its writes. -/
def Mover.noteTries (x : Mover) (b : Nat × Nat) : Mover := if x.retries = 0 then x else { x with tries := (b, x.retries) :: x.tries.filter fun e => e.1 != b }

namespace State

/-- Does traffic to host space flow (12 R323)? -/
def hostFlows (s : State) : Bool := s.pcie.linkUp && s.pcie.busMaster && !s.pcie.d3hot

/-- Is an owner the mover channel, working on any descriptor? -/
def moverOwner (m : Nat) (o : Owner) : Bool := match o with | .mover k _ => k == m | _ => false

/-- A mover channel gives up the fetch or the read it waits for. -/
def dropFetch (s : State) (m : Nat) : State :=
  ((s.abandonReads (moverOwner m)).dropArrived (moverOwner m)).putMover m { s.mover m with phase := 0, fetched := [] }

/-- Takes what a mover channel's reads of an extent returned: the bytes, and whether any was lost. -/
def moverTake (s : State) (m a n : Nat) : (Bytes × Bool) × State := s.takeRead (.mover m (s.mover m).serial) a n

/-- A channel halts (12 Table 12-8; event source 17). -/
def haltMover (s : State) (m cause code : Nat) : State :=
  let s1 := s.dropFetch m
  ((s1.putMover m { s1.mover m with state := mvHalted, cause := cause, code := code }).bump (Key.mvHalts m)).raiseEvent 17

/-- A burst or a fetch fails: it is retried while retries are left, else the channel halts (12 R343). -/
def mvFail (s : State) (m cause : Nat) : State :=
  let x := s.mover m
  if x.retries < s.obj (Key.mvRetry m) then (s.putMover m { x with retries := x.retries + 1, phase := 0, fetched := [] }).bump (Key.mvRetries m)
  else s.haltMover m cause 0

/-- At a burst boundary a channel that is to stop is DISABLED, or takes the state that RUN and its ring give it (12 R347, Table 12-7). -/
def mvBoundary (s : State) (m : Nat) : State :=
  let x := s.mover m
  if x.stopping then s.putMover m { x with state := mvDisabled, stopping := false, desc := none, redo := [] } else s.settleMover m

/-- Publishes to a host ring the bytes up to the end of an extent (12 R346). -/
def publishRing (s : State) (n : Nat) (host : Bool) (e : Int × Int) : State :=
  let base := s.obj (Key.hrBase n)
  let size := s.obj (Key.hrSize n)
  if s.flag (Key.hrEnable n) ∧ s.obj (Key.hrSource n) = 2 ∧ !host ∧ (base : Int) ≤ e.1 ∧ e.2 ≤ ((base + size : Nat) : Int) then
    (s.putHostRing n { s.hostRing n with wptr := (e.2.toNat - base) % max 1 size }).ringVector n
  else s.bump (Key.hrPublishErrors n)

/-- Pulses one completion target (12 Table 12-12). -/
def pulseTarget (s : State) (d : MvDesc) (code : Nat) : State :=
  let n := code % 4096
  match code / 4096 with
  | 1 => s.publishRing n d.dstHost d.dstHull
  | 2 => s.packetise n d.dstHost d.dstHull.1.toNat (d.dstHull.2 - d.dstHull.1).toNat
  | 3 => s.requestFlip n
  | 4 => s.bump (Key.mvCounter n)
  | _ => s

/-- The descriptor completes: MV_HEAD and MV_DONE advance, and with EVENT the targets and the channels that wait for it are pulsed (12 R345). -/
def mvComplete (s : State) (m : Nat) (d : MvDesc) : State :=
  let x := s.mover m
  let s1 := s.putMover m { x with state := mvRunning, head := (x.head + 1) % max 1 (s.obj (Key.mvDescCount m)), done := (x.done + 1) % 2 ^ 32, desc := none, index := [], redo := [], tries := [], retries := 0, phase := 0 }
  let s2 := s1.mvBoundary m
  if !d.event then s2 else
  let targets := ((List.range 4).map fun i => fieldAt (s2.obj (Key.mvEvtTargets m)) (2 * i) 2).filter (· != 0)
  (targets.foldl (fun y c => y.pulseTarget d c) s2).moverEvent (0x5000 + m)

/-- A burst of n bytes has completed: MV_POS, MV_ELEM and the place of the next burst. -/
def mvAdvance (s : State) (m : Nat) (d : MvDesc) (n : Nat) : State :=
  let x := s.mover m
  let whole := decide (d.size ≤ x.inElem + n)
  s.putMover m { x with pos := x.pos + n, elem := if whole then x.elem + 1 else x.elem, inElem := if whole then 0 else x.inElem + n, retries := 0 }

/-- The address and dword of a mover register (12 R324). -/
def mvDword (m off : Nat) : Nat := (0x400 + 0x40 * m + off) / 4

/-- A write of a mover register whose byte enables cover the dword and that the register takes; any other captures an access error (12 R326). -/
def mvWrite (s : State) (m off : Nat) (be : BitVec 4) (takes : Bool) (f : State → State) : State :=
  if be.toNat ≠ 15 then s.accessError 1 0 be.toNat (mvDword m off)
  else if !takes then s.accessError 3 0 be.toNat (mvDword m off)
  else f s

end State

/-- A write of MV_TAIL (12 R338). -/
def execMvTailWrite (m : Fin 16) (byteEnables : BitVec 4) (value : BitVec 32) (s : State) : Out :=
  let k := m.val
  let takes := (s.mover k).state != mvDisabled && s.obj (Key.mvStartSource k) == 0 && decide (value.toNat % 65536 < s.obj (Key.mvDescCount k))
  .next (s.mvWrite k 0x0C byteEnables takes fun y => (y.putMover k { y.mover k with tail := value.toNat % 65536 }).settleMover k)

/-- A write of MV_CTRL.RUN: 1 lets the channel run; 0 stops it at the next burst boundary (12 R338, Table 12-7). -/
def execMvRun (m : Fin 16) (byteEnables : BitVec 4) (run : Bool) (s : State) : Out :=
  let k := m.val
  .next (s.mvWrite k 0 byteEnables true fun y =>
    let y1 := y.putMover k { y.mover k with run := run }
    if !run ∧ (y.mover k).desc.isSome ∧ (y.mover k).state = mvRunning then y1 else y1.settleMover k)

/-- RESUME: a refused descriptor is fetched again, a failed burst restarts with a new retry count (12 R347). -/
def execMvResume (m : Fin 16) (byteEnables : BitVec 4) (s : State) : Out :=
  let k := m.val
  .next (s.mvWrite k 0 byteEnables ((s.mover k).state == mvHalted) fun y =>
    (y.putMover k { y.mover k with state := mvRunning, cause := 0, code := 0, retries := 0, tries := [] }).settleMover k)

/-- SKIP: the current descriptor is discarded, and the channel goes on at MV_HEAD + 1 (12 R347). -/
def execMvSkip (m : Fin 16) (byteEnables : BitVec 4) (s : State) : Out :=
  let k := m.val
  .next (s.mvWrite k 0 byteEnables ((s.mover k).state == mvHalted) fun y =>
    let x := y.mover k
    (y.putMover k { x with state := mvRunning, cause := 0, code := 0, retries := 0, tries := [], desc := none, index := [], redo := [], pos := 0, elem := 0, inElem := 0,
                           head := (x.head + 1) % max 1 (y.obj (Key.mvDescCount k)) }).settleMover k)

namespace State

/-- A descriptor has been fetched with its index table: it is refused, or the channel begins to move it (12 R341). -/
def descTaken (s : State) (k : Nat) (raw table : Bytes) : State :=
  match s.descRefused (mvDesc raw) table with
  | some c => s.haltMover k 5 c
  | none =>
    let x := s.mover k
    let s1 := s.withMem { s.mem with lostWrites := s.mem.lostWrites.filter fun e => !moverOwner k e.1 }
    s1.putMover k { x with desc := some raw, index := table, retries := 0, redo := [], tries := [], phase := 0, fetched := [], serial := x.serial + 1 }

/-- The index table of the descriptor that has been fetched: read over the host link (ok, data), or asked of DRAM (12 R340, R343). -/
def tableFetch (s : State) (k : Nat) (raw : Bytes) (ok : Bool) (data : Bytes) : State :=
  let d := mvDesc raw
  if d.pattern ≠ 2 then s.descTaken k raw []
  else if !d.indexHost then (s.memRead (.mover k (s.mover k).serial) 3 d.index (4 * d.count)).putMover k { s.mover k with phase := 3, fetched := raw }
  else if !s.hostFlows then s.putMover k { s.mover k with phase := 2, fetched := raw }
  else if !ok then (s.mvFail k 3).mvBoundary k
  else s.descTaken k raw (padTo (4 * d.count) data)

/-- The 64 bytes of a descriptor have come: it is refused, or its index table is read (12 R340, R341). -/
def descCome (s : State) (k : Nat) (raw : Bytes) (ok : Bool) (data : Bytes) : State :=
  let s1 := s.putMover k { s.mover k with pos := 0, elem := 0, inElem := 0 }
  if s1.descBad (mvDesc raw) then s1.haltMover k 5 Res.range else s1.tableFetch k raw ok data

end State

/-- A channel fetches the descriptor at MV_HEAD, then its index table, and checks it (12 R338, R340, R341, R343). Over the host link, readOk and hostData stand for the
reads of the descriptor and indexOk and indexData for those of the table. A read of DRAM is a request of class 3: the command issues it (phase 0), or finds it
answered (phase 1 the descriptor, phase 3 the table; 2 is a table that waits for the host link). -/
def execMoverDescFetched (m : Fin 16) (readOk : Bool) (hostData : Bytes) (indexOk : Bool) (indexData : Bytes) (s : State) : Out :=
  let k := m.val
  let x := s.mover k
  if x.state ≠ mvRunning ∨ x.desc.isSome ∨ x.head = x.tail then .next s else
  let at' := s.obj (Key.mvDescBase k) + 64 * x.head
  if x.phase = 0 ∧ s.flag (Key.mvDescHost k) then
    if !s.hostFlows then .next s
    else if !readOk then .next ((s.mvFail k 4).mvBoundary k)
    else .next (s.descCome k (padTo 64 hostData) indexOk indexData)
  else if x.phase = 0 then .next ((s.memRead (.mover k x.serial) 3 at' 64).putMover k { x with phase := 1 })
  else if x.phase = 2 then .next (s.tableFetch k x.fetched indexOk indexData)
  else if s.readsOutstanding (State.moverOwner k) then .next s
  else if x.phase = 1 then
    let ((raw, lost), s1) := s.moverTake k at' 64
    .next (if lost then (s1.mvFail k 4).mvBoundary k else s1.descCome k raw indexOk indexData)
  else
    let d := mvDesc x.fetched
    let ((table, lost), s1) := s.moverTake k d.index (4 * d.count)
    .next (if lost then (s1.mvFail k 3).mvBoundary k else s1.descTaken k x.fetched table)

/-- The data of the current burst is written, and the burst counted; the last burst completes the descriptor or begins the wait of BARRIER (12 R342, R344, R345). -/
def State.burstWrite (s : State) (k : Nat) (d : MvDesc) (b n : Nat) (data : Bytes) : State :=
  let x := s.mover k
  let s1 := ((if d.dstHost then s.emit (.hostWrite b data) else s.memWrite (.mover k x.serial) 3 b data).addObj (Key.mvBytes k) n).putMover k { x.noteTries (x.redo.headD (x.elem, x.inElem)) with phase := 0 }
  let last := decide (d.elements ≤ x.elem + 1 ∧ d.size ≤ x.inElem + n)
  if x.redo.isEmpty then
    if !last then (s1.mvAdvance k d n).mvBoundary k
    else if d.barrier then (s1.putMover k { s1.mover k with state := mvBarrier }).mvBoundary k
    else (s1.mvAdvance k d n).mvComplete k d
  else
    let rest := x.redo.drop 1
    let y := s1.mover k
    (s1.putMover k { y with redo := rest, retries := (rest.head?.map y.triesOf).getD y.retries, state := if rest.isEmpty then mvBarrier else mvRunning }).mvBoundary k

/-- The requests of the current burst complete: it is written and counted, or retried (12 R342, R343). Over the host link, readOk and hostData stand for its reads; from
DRAM the command issues them in class 3, or finds them answered. -/
def execMoverBurstDone (m : Fin 16) (readOk : Bool) (hostData : Bytes) (s : State) : Out :=
  let k := m.val
  let x := s.mover k
  match x.desc with
  | none => .next s
  | some raw =>
    let d := mvDesc raw
    if x.state ≠ mvRunning ∨ ((d.srcHost || d.dstHost) ∧ !s.hostFlows) then .next s else
    let (i, off) := x.redo.headD (x.elem, x.inElem)
    let n := d.burstLen x.index i off
    let a := (d.srcAt x.index i + off).toNat
    let b := (d.dstAt i + off).toNat
    if d.srcHost then .next (if readOk then s.burstWrite k d b n (padTo n (hostData.take n)) else (s.mvFail k 1).mvBoundary k)
    else if x.phase = 0 then .next ((s.memRead (.mover k x.serial) 3 a n).putMover k { x with phase := 1 })
    else if s.readsOutstanding (State.moverOwner k) then .next s
    else
      let ((data, lost), s1) := s.moverTake k a n
      .next (if lost then (s1.mvFail k 1).mvBoundary k else s1.burstWrite k d b n data)

/-- Under BARRIER every DRAM write of the descriptor is acknowledged, or the flush read of a host destination returns: the descriptor completes; a lost write or
a failed flush fails its burst (12 R343, R344). -/
def execMoverBarrierDone (m : Fin 16) (flushOk : Bool) (s : State) : Out :=
  let k := m.val
  let x := s.mover k
  match x.desc with
  | none => .next s
  | some raw =>
    let d := mvDesc raw
    if x.state ≠ mvBarrier ∨ (d.dstHost ∧ !s.hostFlows) ∨ (!d.dstHost ∧ s.outstanding (.mover k x.serial)) then .next s else
    let mine := (s.mem.lostWrites.filter fun e => e.1 == Owner.mover k x.serial).map (·.2)
    let s0 := s.withMem { s.mem with lostWrites := s.mem.lostWrites.filter fun e => !State.moverOwner k e.1 }
    let elemOf (a : Nat) : Option Nat := (List.range d.elements).find? fun i => decide (d.dstAt i ≤ a ∧ (a : Int) < d.dstAt i + d.size)
    let failed := if d.dstHost then (if flushOk then [] else [(x.elem, x.inElem)])
      else (mine.filterMap fun a => (elemOf a).map fun i => (i, d.burstOf x.index i (a - (d.dstAt i).toNat) (d.size + 1) 0)).eraseDups
    if failed.isEmpty then .next (((s0.putMover k { x with state := mvRunning }).mvAdvance k d (d.burstLen x.index x.elem x.inElem)).mvComplete k d)
    else
      let y : Mover := { x with redo := failed, tries := (failed.map fun b => (b, x.triesOf b + 1)) ++ x.tries.filter fun e => !failed.contains e.1 }
      if failed.any fun b => s.obj (Key.mvRetry k) ≤ x.triesOf b then .next ((s0.putMover k y).haltMover k 2 0)
      else .next (((s0.putMover k { y with state := mvRunning, retries := (failed.head?.map y.triesOf).getD 0, phase := 0, fetched := [] }).addObj (Key.mvRetries k) failed.length).mvBoundary k)

/-! ### Commit groups (12 R335, R338, R347, R348, Table 12-15) -/

/-- A channel is enabled with MV_HEAD and MV_TAIL 0, or stops after its burst; a host ring starts empty (12 R338, R347, R349). -/
def commitHost (s : State) (g : Group) (old : Nat → Nat) : State :=
  let s1 := (g.units 0x1B00 16).foldl (fun y m =>
    let on := y.flag (Key.mvEnable m)
    let was := old (Key.mvEnable m) != 0
    let x := y.mover m
    if on = was then y
    else if on then y.putMover m { run := x.run, state := mvIdle, serial := x.serial }
    else if x.desc.isSome ∧ x.state = mvRunning then y.putMover m { x with stopping := true }
    else
      let z := y.dropFetch m
      z.putMover m { z.mover m with state := mvDisabled, cause := 0, code := 0, desc := none, redo := [] }) s
  (g.units 0x1B40 64).foldl (fun y n =>
    if y.flag (Key.hrEnable n) ∧ old (Key.hrEnable n) = 0 then (y.putHostRing n {}).setObj (Key.hrEntries n) 0 else y) s1

/-- Every ring, image, staging area and log of a configuration that an enabled unit of this device uses: owner tag, address, bytes. -/
def allExtents (v : Nat → Nat) : List (Nat × Nat × Nat) :=
  productExtents v ++ [(8192, logExtent v), (8193, v Key.acqStageBase, v Key.acqStageSize), (8194, v Key.acqDoneBase, v Key.acqDoneSize)] ++
    (unitsOn v 0x1B40 64).map (fun n => (9000 + n, v (Key.hrBase n), v (Key.hrSize n))) ++
    ((unitsOn v 0x1640 32).filter fun n => v (Key.mergeRoot n) == v Key.spanNode).map (fun n => (9100 + n, v (Key.mergeRingBase n), v (Key.mergeRingSize n))) ++
    ((unitsOn v 0x1B00 16).filter fun m => v (Key.mvDescHost m) == 0).map (fun m => (9200 + m, v (Key.mvDescBase m), 64 * v (Key.mvDescCount m)))

/-- Does a group write an object that places one of those extents? -/
def Group.placesExtent (g : Group) : Bool :=
  g.hasRange 0x1600 0x16FF || g.hasIndex 0x19F0 || g.hasRange 0x1B00 0x1B7F || g.hasRange 0x2800 0x2DFF || g.hasIndex 0x3631 || g.has Key.memFixedSize

/-- Is a code a start source of Table 12-12? -/
def startSourceOk (c : Nat) : Bool := c == 0 || c == 0x6000 || [(1, 64), (2, 64), (3, 512), (4, 256), (5, 16)].any fun (k, n) => c / 4096 == k && decide (c % 4096 < n)

/-- Is a code a completion target of Table 12-12? -/
def targetOk (c : Nat) : Bool := c == 0 || [(1, 64), (2, 256), (3, 2), (4, 16)].any fun (k, n) => c / 4096 == k && decide (c % 4096 < n)

/-- Table 12-15. -/
def rulesHost (s : State) (g : Group) : Option Code :=
  if !(g.placesExtent || g.hasRange 0x3000 0x33FF) then none else
  let v := s.staged g
  let old := s.before g
  let ms := g.units 0x1B00 16
  let hs := g.units 0x1B40 64
  let on := (List.range 64).filter fun n => v (Key.hrEnable n) != 0
  let used := (List.range 64).filter fun n => v (Key.hrEnable n) != 0 || hs.contains n
  let named (n : Nat) : Bool := (List.range 1024).any fun c => v (Key.ctxEnable c) != 0 && v (Key.ctxDestKind c) == 2 && v (Key.ctxDestNum c) == n
  let exts := allExtents v
  let largest (n : Nat) : Nat := viewRecordMax v (v (Key.hrView n))
  firstOf [
    eachOf ms (fun m => refuse (g.hasSubs (0x1B00 + m) 2 4 && old (Key.mvEnable m) != 0 && v (Key.mvEnable m) != 0) Res.state),
    eachOf hs (fun n => refuse (g.hasSubs (0x1B40 + n) 2 4 && old (Key.hrEnable n) != 0 && v (Key.hrEnable n) != 0) Res.state),
    eachOf hs (fun n => refuse ((v (Key.hrEnable n) == 0 || v (Key.hrSource n) != 0) && named n) Res.state),
    eachOf used (fun n => refuse ((v (Key.hrMode n) == 1 && v (Key.hrSource n) != 0) ||
      (v (Key.hrSource n) == 1 && (decide (512 ≤ v (Key.hrView n)) || v (Key.viewEnable (v (Key.hrView n))) == 0))) Res.state),
    eachOf ms (fun m => refuse (v (Key.mvDescBase m) % 64 != 0 || decide (v (Key.mvDescCount m) < 2 ∨ 65536 < v (Key.mvDescCount m)) ||
      (v (Key.mvDescHost m) == 0 && !fixedHolds v (v (Key.mvDescBase m)) (64 * v (Key.mvDescCount m)))) Res.range),
    eachOf hs (fun n => refuse (v (Key.hrBase n) % 4096 != 0 || v (Key.hrSize n) % 4096 != 0 || decide (v (Key.hrSize n) < 65536 ∨ 2 ^ 31 < v (Key.hrSize n)) ||
      !fixedHolds v (v (Key.hrBase n)) (v (Key.hrSize n))) Res.range),
    eachOf ms (fun m => refuse (decide (15 < v (Key.mvRetry m)) || !startSourceOk (v (Key.mvStartSource m)) ||
      !(List.range 4).all fun i => targetOk (fieldAt (v (Key.mvEvtTargets m)) (2 * i) 2)) Res.range),
    eachOf on (fun n => refuse (exts.any fun e => e.1 != 9000 + n && extentsMeet (v (Key.hrBase n), v (Key.hrSize n)) e.2) Res.overlap),
    eachOf on (fun n => refuse (v (Key.hrSource n) == 1 && decide (v (Key.hrSize n) < 2 * State.entryBytes (largest n))) Res.capacity)]

end Sys2Proof.Machine
end

