-- ==== Sys2Proof/Machine/PelpinOps.lean ====
section
/-! DEFINITION. Pelpin: keys, frames, sessions, write entries, and the answers to requests, local or from another device (13 R362 to R371; 15 R402, R421). -/

namespace Sys2Proof.Machine

/-! ### Keys (13 R363, R369) -/

/-- HMAC-SHA-384 (13 R363; RFC 2104). -/
def hmac (key msg : Bytes) : Bytes :=
  let k := padTo 128 (if 128 < key.length then sha384 key else key)
  sha384 (k.map (· ^^^ 0x5C#8) ++ sha384 (k.map (· ^^^ 0x36#8) ++ msg))

/-- The first 48 bytes of HKDF-SHA-384 (13 R369; RFC 5869). -/
def hkdf (salt ikm info : Bytes) : Bytes := hmac (hmac salt ikm) (info ++ [1#8])

/-- The ASCII bytes of "Pelpin1 r2d" and "Pelpin1 d2r". -/
def infoIn : Bytes := natBE 11 0x50656C70696E3120723264
def infoOut : Bytes := natBE 11 0x50656C70696E3120643272

/-! ### Frames (13 R362, R363, Table 13-7) -/

/-- A frame from the device, with its TAG: 16 zero bytes without a key. -/
def ppFrame (key : Bytes) (op flags code session epoch tid node : Nat) (body : Bytes) : Bytes :=
  let head := natBE 2 0x504C ++ natBE 1 1 ++ natBE 1 op ++ natBE 1 flags ++ natBE 1 code ++ natBE 1 session ++ natBE 1 epoch ++ natBE 2 tid ++ natBE 2 node ++
    natBE 2 body.length ++ zeros 2
  let msg := head ++ body
  msg ++ (if key.isEmpty then zeros 16 else (hmac key msg).take 16)

/-- Pads an image with zero bytes to a multiple of 4. -/
def pad4 (b : Bytes) : Bytes := padTo ((b.length + 3) / 4 * 4) b

/-- Bytes off to off + n of a body, most significant first. -/
def beAt (b : Bytes) (off n : Nat) : Nat := beNat ((b.drop off).take n)

namespace State

def sess (s : State) (n : Nat) : Session := tabGet {} s.pel.sessions n
def putSess (s : State) (n : Nat) (x : Session) : State := s.withPel { s.pel with sessions := tabSet {} s.pel.sessions n x }

/-- Is a session open? -/
def sessOpen (s : State) (n : Nat) : Bool := decide (1 ≤ n ∧ n ≤ 16) && s.obj (Key.ppSessState n) == 2

/-- pp.sessions, and span.anchor: the PCIe link is up or a session is open (15 R402). -/
def refreshAnchor (s : State) : State :=
  let n := ((List.range 17).filter fun i => s.sessOpen i).length
  (s.setObj Key.ppSessions n).setObj Key.spanAnchor (b2n (s.pcie.linkUp || n != 0))

/-- Sends a frame to an address (13 R362; 14 R383). -/
def ppSend (s : State) (iface : Nat) (to' : NetAddr) (frame : Bytes) : State := s.emit (.udp iface to'.mac to'.ip to'.udp 47321 frame)

/-- The oldest entries beyond the last n of an anchor are forgotten (15 R421). -/
def keepLast (n a : Nat) (l : List (Nat × Nat × Bytes)) : List (Nat × Nat × Bytes) :=
  let mine := l.filter fun e => e.1 == a
  l.filter fun e => e.1 != a || (mine.drop (mine.length - n)).contains e

/-- Answers a request: over Pelpin, with the response stored in the window of its epoch; or over the truss, with the response kept. A session that has closed is not
answered (13 R365, R370, R374; 15 R421). -/
def respond (s : State) (r : PpRequest) (code : Code) (body : Bytes) : State :=
  match r.origin with
  | some (a, id) =>
    let full := natBE 1 code ++ body
    let s1 := s.withSpan { s.span with kept := keepLast 64 a (s.span.kept ++ [(a, id, full)]) }
    s1.sendData a 2 id full
  | none =>
    let x := s.sess r.session
    if r.session ≠ 0 ∧ x.keyOut.isEmpty then s else
    let here := s.obj (Key.ppSessEpoch r.session) == r.epoch
    let s1 := s.putSess r.session { x with window := x.window.map fun w => if here && w.tid == r.tid then { w with response := some (code, body) } else w }
    let s2 := if code = Res.auth then s1.bump Key.ppAuthFail else if code = Res.busy then s1.bump Key.ppBusy else s1
    s2.ppSend r.iface r.src (ppFrame x.keyOut r.op 1 code r.session r.epoch r.tid r.node body)

/-- The requests that wait at this anchor. -/
def refreshForwards (s : State) : State := s.setObj Key.spanFwdPending s.span.forwards.length

/-- Closes a session: its slots, subscriptions, window and requests, queued or forwarded, go; groups already submitted stand (13 R370). -/
def closeSession (s : State) (n : Nat) : State :=
  let other (r : PpRequest) : Bool := r.origin.isSome || r.session != n
  let s1 := s.withPel { s.pel with sessions := tabSet ({} : Session) s.pel.sessions n ({} : Session), queue := s.pel.queue.filter other }
  let s2 := s1.withSpan { s1.span with forwards := s1.span.forwards.filter fun f => other f.request, groups := s1.span.groups.filter fun b => other b.request }
  (((s2.refreshForwards.setObj (Key.ppSessState n) 0).setObj (Key.ppSessEpoch n) 0).setObj (Key.ppSessTid n) 0).refreshAnchor

/-! ### Forwarded requests (15 R421) -/

/-- Forwards a request to another device; a lost one answers FROZEN (15 R421). The REQUEST has no place for LAST; bit 7 of byte 1 carries it for a COMMIT
(notes/assumptions/39.md). -/
def forwardRequest (s : State) (r : PpRequest) (body : Bytes) : State :=
  if s.nodeLost r.node then s.respond r Res.frozen [] else
  let id := s.span.nextId
  let full := natBE 1 r.role ++ natBE 1 (r.op + 128 * b2n (r.op == 3 && r.last)) ++ body
  let f : Forward := { id := id, node := r.node, body := full, request := r }
  let s1 := s.withSpan { s.span with nextId := id + 1, forwards := s.span.forwards ++ [f] }
  (s1.refreshForwards).sendData r.node 1 id full

/-- Sends again the requests that wait for a node that has returned (15 R421). -/
def resendForwards (s : State) (node : Nat) : State :=
  (s.span.forwards.filter fun f => f.node == node).foldl (fun y f => y.sendData node 1 f.id f.body) s

/-- The length of a READ response of n entries. -/
def readLength : Nat → Bytes → Nat
  | 0, _ => 0
  | n + 1, b => let e := 8 + (beAt b 6 2 + 3) / 4 * 4; e + readLength n (b.drop e)

/-- A response without the zero bytes that pad a data packet: its length is what its layout gives (13 Table 13-9; 15 R408). -/
def trimResponse (op count : Nat) (code : Code) (b : Bytes) : Bytes :=
  b.take (match op with
    | 1 => if code = Res.done then readLength count b else 0
    | 2 => if code = Res.done then 4 + (count + 3) / 4 * 4 else 0
    | 3 => if beNat (b.take 8) = 0 then 0 else 8 + 4 * min 255 (beAt b 4 2)
    | _ => if code = Res.done then 8 + beAt b 4 4 else 0)

/-- The response to a forwarded request reaches the anchor (15 R421). -/
def forwardAnswered (s : State) (node id : Nat) (full : Bytes) : State :=
  match s.span.forwards.find? fun f => f.id == id && f.node == node with
  | none => s
  | some f =>
    let s1 := (s.withSpan { s.span with forwards := s.span.forwards.filter fun g => g.id != id }).refreshForwards
    s1.respond f.request (beNat (full.take 1)) (trimResponse f.request.op (beAt f.request.body 0 1) (beNat (full.take 1)) (full.drop 1))

/-! ### Groups of a span or the system (13 R371; 15 R422) -/

/-- The last response of a COMMIT: the answers in ascending node order, and the nodes that were lost at sending, whose answers are FROZEN with an index above 0xFFFF
(13 Table 13-9, R371; 15 R422). -/
def groupResponse (s : State) (b : Broadcast) : State :=
  let all := (List.range 512).filterMap fun n => b.answers.find? fun a => a.1 == n
  let refused := all.filter fun a => a.2.1 != Res.done
  let reporting := all.filter fun a => decide (a.2.2 < 0x10000)
  let body := natBE 2 (match refused.head? with | some a => a.2.2 | none => 0xFFFF) ++ natBE 2 reporting.length ++ natBE 2 refused.length ++ zeros 2 ++
    (refused.take 255).flatMap fun a => natBE 2 a.1 ++ natBE 1 a.2.1 ++ zeros 1
  s.respond b.request (match refused.head? with | some a => a.2.1 | none => Res.done) body

/-- A device answers a group; the last answer completes it (15 R422). -/
def groupAnswered (s : State) (id node code index : Nat) : State :=
  match s.span.groups.find? fun b => b.id == id with
  | none => s
  | some b =>
    let b1 : Broadcast := { b with nodes := b.nodes.filter (· != node), answers := if b.answers.any fun a => a.1 == node then b.answers else b.answers ++ [(node, code, index)] }
    if b1.nodes.isEmpty then (s.withSpan { s.span with groups := s.span.groups.filter fun x => x.id != id }).groupResponse b1
    else s.withSpan { s.span with groups := s.span.groups.map fun x => if x.id = id then b1 else x }

end State

/-! ### Write entries (13 R366) -/

/-- A write entry: object key, type, staged slot if SRC is 1, inline value bytes in wire form. -/
structure PpEntry where
  key : Nat
  ty : Nat
  slot : Option Nat
  value : Bytes
  deriving DecidableEq, Repr

/-- Takes count entries from a body; none where they do not match the layout. The rest of the body is left over. -/
def ppEntries : Nat → Bytes → Option (List PpEntry × Bytes)
  | 0, b => some ([], b)
  | n + 1, b =>
    let src := beAt b 4 1
    let slot := beAt b 5 1
    let len := beAt b 6 2
    let full := 8 + (len + 3) / 4 * 4
    if b.length < full ∨ 1 < src ∨ 7 < slot ∨ (src = 0 ∧ slot ≠ 0) ∨ (src = 1 ∧ len ≠ 0) ∨ !(((b.drop (8 + len)).take (full - 8 - len)).all (· == 0)) then none else
    match ppEntries n (b.drop full) with
    | none => none
    | some (es, rest) => some ({ key := beAt b 0 3, ty := beAt b 3 1, slot := if src = 1 then some slot else none, value := (b.drop 8).take len } :: es, rest)

/-- Turns a value from its Pelpin wire form into the object's byte image: scalars and TIME80 come most significant byte first (13 R351). -/
def fromWire (ty : Nat) (b : Bytes) : Bytes := if 0x0B ≤ ty then b else b.reverse

/-- A write entry with its value inline, as it travels on the truss (15 R421, R422). -/
def entryInline (w : RawWrite) : Bytes :=
  natBE 3 w.key ++ natBE 1 w.ty ++ zeros 2 ++ natBE 2 w.value.length ++ pad4 (fromWire w.ty w.value)

end Sys2Proof.Machine
end

