-- ==== Sys2Proof/Machine/Truss.lean ====
section
/-! DEFINITION. The truss links: bring-up, lanes, packets and their delivery, lost nodes, and the span part of commit groups (15). -/

namespace Sys2Proof.Machine

/-- Lane states of truss.lane.state (15 Table 15-11). -/
def laneOff : Nat := 0
def laneActive : Nat := 1
def laneAsleep : Nat := 2
def laneDeep : Nat := 3
def laneFailed : Nat := 4

namespace State

/-! ### Geometry (15 R401) -/

/-- The node that a port connects to, none where the port is unused. -/
def neighbourOf (s : State) (p : Nat) : Option Nat :=
  let me := s.obj Key.spanNode
  let x := s.obj Key.spanX
  let h := s.obj Key.spanY * s.obj Key.spanCount
  if s.obj Key.spanState = 3 then none
  else if p < 2 then
    if x ≤ 1 then none else some (s.nodeAt ((nodeX me + (if p = 0 then 1 else x - 1)) % x) (s.globalRow me))
  else
    if h ≤ 1 then none else some (s.nodeAt (nodeX me) ((s.globalRow me + (if p = 2 then 1 else h - 1)) % h))

/-- The port of the neighbour at the other end. -/
def farPort (p : Nat) : Nat := if p % 2 = 0 then p + 1 else p - 1

/-! ### Lanes (15 R403, R417) -/

def laneState (s : State) (p l : Nat) : Nat := fieldAt (s.obj (Key.trussLaneState p)) l 1
def putLaneState (s : State) (p l st : Nat) : State := s.setObj (Key.trussLaneState p) (setFieldAt (s.obj (Key.trussLaneState p)) l 1 st)

/-- Is a lane in service: active or asleep? -/
def laneIn (s : State) (p l : Nat) : Bool := s.laneState p l == laneActive || s.laneState p l == laneAsleep

/-- The logical lanes of a port: its in-service physical lanes in ascending order (15 R403). -/
def logicalLanes (s : State) (p : Nat) : List Nat := (List.range 5).filter fun l => s.laneIn p l

/-- truss.map and truss.lanes; logical lane 0 never sleeps (15 R403, R418). -/
def refreshLanes (s : State) (p : Nat) : State :=
  let ls := s.logicalLanes p
  let s1 := (s.setObj (Key.trussMap p) (leNat ((List.range 4).flatMap fun i => natLE 1 (ls.getD i 0xFF)))).setObj (Key.trussLanes p) ls.length
  match ls with
  | [] => s1
  | l :: _ => if s1.laneState p l = laneAsleep then s1.putLaneState p l laneActive else s1

/-- Forgets what was received on the lanes of a port. -/
def freshLanes (s : State) (p : Nat) : State := s.putTrussPort p { s.trussPort p with lanes := [], joining := none, rate := s.obj Key.trussRate, eq := fieldAt (s.obj Key.trussEq) (40 * p) 40, startedAt := s.wall }

/-- The lane rate of a port in kBd (15 R403). -/
def trussBaud (s : State) (p : Nat) : Nat := if (s.trussPort p).rate = 0 then 25781250 else 12890625

/-- Bring-up of a port starts: its lane PLL locks, lanes 0 to 3 train and lane 4 is the spare; the rate and the equalisation are taken (15 R403, R416, R426). In standby and
without a neighbour the port stays off (15 R400, R401, R419). -/
def bringUp (s : State) (p : Nat) : State :=
  let s1 := s.freshLanes p
  let off (lanes : Nat) : State := (((s1.setObj (Key.trussState p) 0).setObj (Key.trussLaneState p) lanes).stopPll (16 + p)).refreshLanes p
  if (s.neighbourOf p).isNone then off 0
  else if s.flag Key.trussStandby then off 0x0303030303
  else ((((s1.setObj (Key.trussState p) 1).setObj (Key.trussNeighbour p) 0xFFFF).setObj (Key.trussLaneState p) 0x0301010101).startPll (16 + p) (s1.trussBaud p)).refreshLanes p

/-! ### The span (15 R420, Table 15-10) -/

/-- span.state: BROKEN with a node lost, complete with every port in use in service, else forming. -/
def refreshSpan (s : State) : State :=
  if s.obj Key.spanState = 3 then s
  else if s.obj Key.spanLost ≠ 0 then s.setObj Key.spanState 2
  else s.setObj Key.spanState (b2n ((List.range 4).all fun p => (s.neighbourOf p).isNone || s.trussUp p))

/-- A NODE packet (15 Table 15-3). -/
def nodePacket (n st : Nat) : Bytes := messageBytes 2 (natBE 1 0x14 ++ natBE 2 n ++ natBE 1 st)

/-- A node is lost or returned: recorded, merged slots settle, requests that wait go out again, and the news is flooded on every other port (15 R420, R421,
R423). -/
def nodeNews (s : State) (n : Nat) (lost : Bool) (from' : Option Nat) : State :=
  if s.nodeLost n = lost then s else
  let s1 := (s.setObj Key.spanLost (setBit (s.obj Key.spanLost) n lost)).refreshSpan
  let s2 := (List.range 4).foldl (fun y p => if some p = from' then y else y.trussSend p 1 (nodePacket n (b2n !lost))) s1
  if lost then (List.range 32).foldl (fun y g => if y.flag (Key.mergeEnable g) then y.mergeSettle g else y) s2
  else s2.resendForwards n

/-- Sends HELLO (15 Table 15-3, R416). -/
def sendHello (s : State) (p : Nat) : State :=
  let geo := (s.obj Key.spanX - 1) * 64 + (s.obj Key.spanY - 1) * 8 + (s.obj Key.spanCount - 1)
  let b := messageBytes 2 (natBE 1 0x12 ++ natBE 2 (s.obj Key.spanNode) ++ natBE 1 p ++ natBE 2 geo)
  let x := s.trussClass p 1
  (s.putTrussClass p 1 { x with next := (x.next + 1) % 256, kept := x.kept ++ [⟨x.next, b⟩], ackAt := s.wall }).emit (.truss p 1 x.next b)

/-- Have the lanes of a training port all aligned or failed (15 R416)? -/
def lanesAligned (s : State) (p : Nat) : Bool :=
  (s.logicalLanes p).all (fun l => decide (2 ≤ (tabGet ({} : TrussLane) (s.trussPort p).lanes l).aligned)) && !(s.logicalLanes p).isEmpty

/-- A training port whose lanes have aligned and whose neighbour is the right one enters service (15 R416); a returning neighbour is no longer lost. -/
def enterTruss (s : State) (p : Nat) : State :=
  if s.obj (Key.trussState p) ≠ 1 ∨ !s.lanesAligned p ∨ s.obj (Key.trussNeighbour p) = 0xFFFF then s else
  let s1 := (s.lockPll (16 + p)).setObj (Key.trussState p) (if 4 ≤ s.obj (Key.trussLanes p) then 2 else 3)
  let s2 := [0, 1, 2].foldl (fun y c => y.trussPump p c 64) s1
  ((s2.nodeNews (s2.obj (Key.trussNeighbour p)) false none).refreshSpan).refreshSpares

/-- A port is DOWN: its neighbour is lost (15 R420). -/
def portDown (s : State) (p : Nat) : State :=
  let s1 := (s.setObj (Key.trussState p) 5).putTrussPort p { s.trussPort p with joining := none }
  let s2 := match s1.neighbourOf p with
    | some n => s1.nodeNews n true none
    | none => s1
  (s2.refreshSpan).refreshSpares

/-- A lane fails: both ends retire it, the others take new logical numbers, and the spare is woken (15 R417, R420). tell: this end detected the failure and
sends LANE. -/
def retireLane (s : State) (p l : Nat) (tell : Bool) : State :=
  if !s.laneIn p l then s else
  let spare := (List.range 5).any fun i => s.laneState p i == laneDeep
  let s1 := ((s.putLaneState p l laneFailed).bump (Key.trussFailovers p)).refreshLanes p
  let s2 := if spare ∧ (s1.trussPort p).joining.isNone then s1.putTrussPort p { s1.trussPort p with joining := some s1.wall } else s1
  if s2.obj (Key.trussLanes p) = 0 then s2.portDown p else
  let s3 := if tell ∧ s2.trussUp p then s2.trussSend p 1 (messageBytes 2 (natBE 1 0x13 ++ natBE 1 l)) else s2
  let s4 := if s3.trussUp p ∧ s3.obj (Key.trussLanes p) < 4 then s3.setObj (Key.trussState p) 3 else s3
  s4.refreshSpares

/-! ### Delivery (15 R409 to R413, R420 to R423) -/

/-- The origin node and kind of a packet that travels on: trigger and control packets by their content, data packets by their header. -/
def broadcastOn (s : State) (p cls : Nat) (system : Bool) (origin : Nat) (packet : Bytes) : State :=
  (s.broadcastPorts system origin (some p)).foldl (fun y q => y.trussSend q cls packet) s

/-- An event's 32-byte image taken apart (07 Table 7-2). -/
def eventOf (b : Bytes) : Event :=
  { source := recField b 0 2, flags := recField b 2 1, qual := recField b 3 1, node := recField b 4 2, origin := recField b 6 2, time := recField b 8 10,
    d0 := recField b 20 4, d1 := recField b 24 4, seq := recField b 28 4 }

/-- The full tick count nearest now with the given low 48 bits (15 R412). -/
def extendTicks (now low : Nat) : Nat :=
  let base := now / 2 ^ 48 * 2 ^ 48 + low
  if base + 2 ^ 47 < now then base + 2 ^ 48 else if now + 2 ^ 47 < base ∧ 2 ^ 48 ≤ base then base - 2 ^ 48 else base

/-- A trigger packet is delivered: forwarded along its tree and applied; a channel takes it from the node that rtrig.from names at the time that the event or
watermark names (15 R410, R412, R413; 07 R208; 01 Table 1-9). -/
def deliverTrigger (s : State) (p : Nat) (packet : Bytes) : State :=
  let system := beAt packet 1 1 == 1
  let origin := beAt packet 2 2
  let s1 := s.broadcastOn p 0 system origin packet
  match beAt packet 0 1 with
  | 1 =>
    let c := beAt packet 4 1
    let e := eventOf ((packet.drop 5).take 32)
    if c < 64 ∧ s1.objAt (Key.rtrigFrom c) e.time = origin then s1.remoteEvent c e
    else if c < 64 then s1.bump (Key.rtrigForeign c) else s1
  | 2 =>
    let t := extendTicks s1.ticks (beAt packet 4 6) * tick
    ((List.range 64).filter fun c => s1.objAt (Key.rtrigFrom c) t == origin).foldl (fun y c => y.channelMark c t) s1
  | 3 =>
    let ts := beAt packet 4 8 * tick + beAt packet 12 2
    if !s1.flag Key.spanSyncAccept then s1
    else if s1.time + 16 * tick ≤ ts then s1.scheduleReset ts else s1.bump Key.spanSyncLate
  | _ => s1

/-- A control packet other than ACK and NAK is delivered (15 R416, R417, R420). -/
def deliverControl (s : State) (p : Nat) (packet : Bytes) : State :=
  match beAt packet 0 1 with
  | 0x12 =>
    let geo := (s.obj Key.spanX - 1) * 64 + (s.obj Key.spanY - 1) * 8 + (s.obj Key.spanCount - 1)
    let n := beAt packet 1 2
    let s1 := s.setObj (Key.trussNeighbour p) n
    if s.neighbourOf p = some n ∧ beAt packet 3 1 = farPort p ∧ beAt packet 4 2 = geo then s1.enterTruss p
    else ((s1.setObj (Key.trussState p) 4).refreshSpan).refreshSpares
  | 0x13 => s.retireLane p (beAt packet 1 1) false
  | 0x14 => s.nodeNews (beAt packet 1 2 % 512) (beAt packet 3 1 == 0) (some p)
  | _ => s

/-- A body has come whole at its destination (15 Table 15-4). -/
def deliverBody (s : State) (origin kind id : Nat) (body : Bytes) : State :=
  match kind with
  | 1 =>
    match s.span.kept.find? fun k => k.1 == origin && k.2.1 == id with
    | some k => s.sendData origin 2 id k.2.2
    | none =>
      let op := beAt body 1 1 % 128
      if s.pel.queue.any fun r => r.origin == some (origin, id) then s
      else if op ≠ 1 ∧ op ≠ 2 ∧ op ≠ 3 ∧ op ≠ 6 then s.sendData origin 2 id (natBE 1 Res.unsupported)
      else s.withPel { s.pel with queue := s.pel.queue ++ [{ session := 0, origin := some (origin, id), role := beAt body 0 1, op := op, last := decide (128 ≤ beAt body 1 1), at' := s.time, body := body.drop 2 }] }
  | 2 => s.forwardAnswered origin id body
  | 3 => s.withPel { s.pel with queue := s.pel.queue ++ [{ session := 0, origin := some (origin, id), role := 1, op := 0x83, last := true, at' := s.time, body := body }] }
  | 4 => s.groupAnswered id origin (beAt body 0 1) (beAt body 1 2)
  | 5 =>
    let r := body.drop 12
    s.mergeArrive (beAt body 0 2) origin (beAt body 2 10) (r.take (64 + recField r 48 4))
  | _ => s

/-- A data packet reaches this device: parts of one body are joined in ascending OFFSET (15 R408). -/
def assembleBody (s : State) (payload : Bytes) : State :=
  let origin := beAt payload 0 2
  let kind := beAt payload 2 1
  let id := beAt payload 4 4
  let part := (payload.drop 16).take (payload.length - 20)
  let mine (b : Nat × Nat × Nat × Bytes) : Bool := b.1 == origin && b.2.1 == kind && b.2.2.1 == id
  let soFar : Bytes := match s.span.bodies.find? mine with | some b => b.2.2.2 | none => []
  if beAt payload 8 4 ≠ soFar.length then s else
  let others := s.span.bodies.filter fun b => !mine b
  if beAt payload 3 1 % 2 = 0 then (s.withSpan { s.span with bodies := others ++ [(origin, kind, id, soFar ++ part)] })
  else (s.withSpan { s.span with bodies := others }).deliverBody origin kind id (soFar ++ part)

/-- A data packet is delivered: broadcast and unicast packets go on along their routes (15 R410). -/
def deliverData (s : State) (p : Nat) (packet : Bytes) : State :=
  let dest := beAt packet 0 2
  let payload := packet.drop 2
  if dest = 0xFFFE ∨ dest = 0xFFFF then (s.broadcastOn p 2 (dest == 0xFFFF) (beAt payload 0 2) packet).assembleBody payload
  else if dest = s.obj Key.spanNode then s.assembleBody payload
  else match s.unicastPort dest with
    | some q => s.trussSend q 2 packet
    | none => s

/-- Packets up to an acknowledged SEQ are no longer kept, and waiting ones go out (15 R409). -/
def trussAcked (s : State) (p c n : Nat) : State :=
  let x := s.trussClass p c
  if !x.kept.any fun k => k.seq == n then s else
  let kept := (x.kept.dropWhile fun k => k.seq != n).drop 1
  (s.putTrussClass p c { x with kept := kept, ackAt := s.wall }).trussPump p c 64

/-- Every kept packet is sent again in order (15 R409). -/
def trussResend (s : State) (p c : Nat) : State :=
  let x := s.trussClass p c
  let s1 := x.kept.foldl (fun y k => y.emit (.truss p c k.seq k.packet)) s
  (s1.putTrussClass p c { x with ackAt := s.wall }).addObj (Key.trussReplays p) x.kept.length

/-- An ACK or a NAK is sent: SEQ 0, neither numbered nor kept (15 R409). -/
def sendAck (s : State) (p kind c seq : Nat) : State := s.emit (.truss p 1 0 (messageBytes 2 (natBE 1 kind ++ natBE 1 c ++ natBE 1 seq)))

/-- Is the CRC-32 of a packet correct? A data packet's CRC starts after its destination. -/
def packetOk (c : Nat) (packet : Bytes) : Bool :=
  let b := if c = 2 then packet.drop 2 else packet
  decide (4 ≤ b.length) && crc32 (b.take (b.length - 4)) == beNat (b.drop (b.length - 4))

end State

/-- A packet is received: acknowledgements act at once; any other is delivered once, in order, and acknowledged, or discarded with a NAK (15 R409). -/
def execTrussPacketRx (port : Fin 4) (cls : Fin 3) (seq : BitVec 8) (packet : Bytes) (s : State) : Out :=
  let p := port.val
  let c := cls.val
  if !(s.trussUp p || s.obj (Key.trussState p) == 1) then .next s else
  let ok := State.packetOk c packet
  let kind := beAt packet 0 1
  if c = 1 ∧ ok ∧ (kind = 0x10 ∨ kind = 0x11) then
    let s1 := s.trussAcked p (beAt packet 1 1 % 3) (beAt packet 2 1)
    .next (if kind = 0x11 then s1.trussResend p (beAt packet 1 1 % 3) else s1)
  else
    let x := s.trussClass p c
    if !ok ∨ seq.toNat ≠ (x.delivered + 1) % 256 then .next (s.sendAck p 0x11 c x.delivered) else
    let s1 := (s.putTrussClass p c { x with delivered := seq.toNat }).sendAck p 0x10 c seq.toNat
    .next (if c = 0 then s1.deliverTrigger p packet else if c = 1 then s1.deliverControl p packet else s1.deliverData p packet)

/-- 400 ticks without an ACK: every kept packet is sent again (15 R409). -/
def execTrussAckTimeout (port : Fin 4) (cls : Fin 3) (s : State) : Out :=
  let x := s.trussClass port.val cls.val
  if x.kept.isEmpty ∨ s.wall < x.ackAt + 400 then .next s else .next (s.trussResend port.val cls.val)

/-- A receiver detects the failure of a lane (15 R417, Table 15-7). -/
def execTrussLaneFail (port : Fin 4) (lane : Fin 5) (s : State) : Out :=
  if s.trussUp port.val ∨ s.obj (Key.trussState port.val) = 1 then .next (s.retireLane port.val lane.val true) else .next s

/-- The spare has aligned on WAKE blocks and joins as the highest logical lane (15 R417). -/
def execTrussSpareJoin (port : Fin 4) (s : State) : Out :=
  let p := port.val
  match (s.trussPort p).joining, (List.range 5).find? fun l => s.laneState p l == laneDeep with
  | some _, some l =>
    let s1 := ((s.putLaneState p l laneActive).putTrussPort p { s.trussPort p with joining := none }).refreshLanes p
    .next ((if s1.obj (Key.trussState p) = 3 ∧ 4 ≤ s1.obj (Key.trussLanes p) then s1.setObj (Key.trussState p) 2 else s1).refreshSpares)
  | _, _ => .next s

/-- A direction of a logical lane 1 to 3 without data for truss.sleep.idle ticks goes to sleep (15 R418). lane is a logical lane. -/
def execTrussSleep (port : Fin 4) (lane : Fin 5) (s : State) : Out :=
  let p := port.val
  match (s.logicalLanes p)[lane.val]? with
  | none => .next s
  | some l =>
    if lane.val = 0 ∨ s.obj Key.trussSleepIdle = 0 ∨ !s.trussUp p ∨ s.laneState p l ≠ laneActive ∨ s.wall < (s.trussPort p).dataAt + s.obj Key.trussSleepIdle then .next s
    else .next (s.putLaneState p l laneAsleep)

/-- A sleeping direction with a data block queued wakes and carries data again (15 R418). -/
def execTrussWake (port : Fin 4) (lane : Fin 5) (s : State) : Out :=
  let p := port.val
  let x := s.trussClass p 2
  match (s.logicalLanes p)[lane.val]? with
  | none => .next s
  | some l => if s.laneState p l = laneAsleep ∧ (!x.kept.isEmpty ∨ !x.waiting.isEmpty) then .next (s.putLaneState p l laneActive) else .next s

/-- truss.restart: the port's bring-up starts again (15 R426; 19 R508). -/
def immTrussRestart (p : Nat) (s : State) : Code × State := (Res.done, ((s.bringUp p).refreshSpan).refreshSpares)

def execTrussRestart (port : Fin 4) (s : State) : Out := .next (s.act (immTrussRestart port.val))

/-- A lane receives ALIGN: frames are followed, the CRC-32 of the frame before is judged, waiting trim codes apply, and in bring-up the lane aligns or fails
(15 R405, R416, Table 15-7; 17 Table 17-1). A DOWN port whose neighbour sends again comes up anew. -/
def execTrussAlignBlock (port : Fin 4) (lane : Fin 5) (frame : BitVec 16) (crcOk : Bool) (s : State) : Out :=
  let p := port.val
  let l := lane.val
  let st := s.obj (Key.trussState p)
  if st = 0 ∨ st = 4 then .next s else
  let s0 := if st = 5 then s.bringUp p else s
  if !s0.laneIn p l then .next s0 else
  let x := tabGet ({} : TrussLane) (s0.trussPort p).lanes l
  let step := (frame.toNat + 65536 - x.frame) % 65536
  let first := x.alignAt = 0
  let y : TrussLane := { aligned := if !first ∧ step = 1 then x.aligned + 1 else 1, frame := frame.toNat, crcs := ((!crcOk) :: x.crcs).take 16, tries := x.tries + 1, alignAt := s0.wall + 1 }
  let s1 := (s0.putTrussPort p { s0.trussPort p with lanes := tabSet {} (s0.trussPort p).lanes l y }).applyCal 2 (5 * p + l)
  let s2 := if crcOk then s1 else s1.bump (Key.trussFrameCrc p)
  if s2.obj (Key.trussState p) = 1 then
    if y.aligned < 2 ∧ 8 ≤ y.tries then
      let s3 := s2.putLaneState p l laneFailed
      let spare := (List.range 5).find? fun i => s3.laneState p i == laneDeep
      let s4 := (match spare with | some i => s3.putLaneState p i laneActive | none => s3).refreshLanes p
      .next (if s4.obj (Key.trussLanes p) = 0 then s4.portDown p else s4)
    else
      let done := s2.lanesAligned p
      let was := s0.lanesAligned p
      .next ((if done ∧ !was then s2.sendHello p else s2).enterTruss p)
  else if (!first ∧ 3 ≤ step) ∨ 4 ≤ (y.crcs.filter id).length then .next (s2.retireLane p l true)
  else .next s2

/-! ### Commit groups (15 R419, R423, R426, Table 15-9) -/

/-- Standby begins or ends; an enabled merge group starts with an empty ring (15 R419, R423; 10 R525). -/
def commitTruss (s : State) (g : Group) (old : Nat → Nat) : State :=
  let s1 := if s.obj Key.trussStandby ≠ old Key.trussStandby then (((List.range 4).foldl bringUpPort s).refreshSpan).refreshSpares else s
  (g.units 0x1640 32).foldl (fun y n =>
    if y.flag (Key.mergeEnable n) ∧ old (Key.mergeEnable n) = 0 then ((y.putMerge n {}).setObj (Key.mergeRingWptr n) 0).setObj (Key.mergeRecords n) 0 else y) s1
where
  /-- The bring-up of one port. -/
  bringUpPort (y : State) (p : Nat) : State := y.bringUp p

/-- Are the fields of a truss equalisation entry inside Table 15-6? -/
def trussEqOk (img e : Nat) : Bool :=
  let f (i : Nat) : Nat := fieldAt img (8 * e + i) 1
  decide (f 0 ≤ 31 ∧ f 1 ≤ 15 ∧ f 3 ≤ 1 ∧ f 4 ≤ 15 ∧ f 5 ≤ 63 ∧ f 6 ≤ 31) && decide (-32 ≤ toSigned 8 (f 2) ∧ toSigned 8 (f 2) ≤ 31)

/-- Table 15-9. -/
def rulesTruss (s : State) (g : Group) : Option Code :=
  if !g.placesExtent then none else
  let v := s.staged g
  let old := s.before g
  let me := v Key.spanNode
  let gs := (List.range 32).filter fun n => g.hasIndex (0x1640 + n) || v (Key.mergeEnable n) != 0
  let on := gs.filter fun n => v (Key.mergeEnable n) != 0
  let member (n a : Nat) : Bool := bit (v (Key.mergeMembers n)) a
  let atRoot := on.filter fun n => v (Key.mergeRoot n) == me
  let exts := allExtents v
  firstOf [
    eachOf on (fun n => refuse (member n me && decide (1 ≤ v (Key.mergeKind n) ∧ v (Key.mergeKind n) ≤ 3) && v (prodKey (v (Key.mergeKind n)) (v (Key.mergeProduct n)) 1) == 0) Res.state),
    eachOf gs (fun n => refuse (g.hasSubs (0x1640 + n) 6 7 && old (Key.mergeEnable n) != 0 && v (Key.mergeEnable n) != 0) Res.state),
    eachOf gs (fun n => refuse (decide (v (Key.mergeKind n) < 1 ∨ 3 < v (Key.mergeKind n)) || !s.isNode (v (Key.mergeRoot n)) ||
      (List.range 512).any fun a => member n a && !s.isNode a) Res.range),
    eachOf gs (fun n =>
      let b := v (Key.mergeRingBase n)
      let z := v (Key.mergeRingSize n)
      refuse (b % 4096 != 0 || z % 64 != 0 || (v (Key.mergeRoot n) == me && ((v (Key.mergeEnable n) != 0 && decide (z < 2 * (mergeRecord v n).1)) ||
        ((v (Key.mergeEnable n) != 0 || g.hasSubs (0x1640 + n) 6 7) && !fixedHolds v b z)))) Res.range),
    refuse (decide (1 < v Key.trussRate) || decide (1 ≤ v Key.trussSleepIdle ∧ v Key.trussSleepIdle ≤ 399) ||
      (g.has Key.trussEq && !(List.range 20).all (trussEqOk (v Key.trussEq)))) Res.range,
    eachOf atRoot (fun n => refuse (exts.any fun e => e.1 != 9100 + n && extentsMeet (v (Key.mergeRingBase n), v (Key.mergeRingSize n)) e.2) Res.overlap),
    refuse (!atRoot.isEmpty && decide ((8000000000 : Rat) < mergeLoad v me)) Res.capacity]

end Sys2Proof.Machine
end

