-- ==== Sys2Proof/Machine/Power.lean ====
section
/-! DEFINITION. The Tollhouse, derating and the thermal trip, and calibration (17 R446 to R464; 01 R23, R24). -/

namespace Sys2Proof.Machine

/-- V_op of a budget in mV: 620 + 1.5 × (B − 120), rounded up to a multiple of 5 (17 R450). -/
def vopOf (b : Nat) : Nat := 5 * cdiv (1240 + 3 * (b - 120)) 10

/-- The stages that request tokens (17 R453): girders 0 to 67, front ends of piers 68 to 83, trestle cores 84 to 115, deck SRAM 116, products, triggers and
contexts 117. -/
def stageCount : Nat := 118

namespace State

/-! ### The Tollhouse (17 R448 to R454) -/

/-- tol.eff and tol.vop (17 Table 17-5). -/
def refreshPower (s : State) : State := (s.setObj Key.tolEff s.budget).setObj Key.tolVop (vopOf s.budget)

/-- Does any ingest abutment raise a boost request (01 R23)? -/
def boostWanted (s : State) : Bool := (List.range 16).any fun p => (s.abutment p).boostRequest

/-- The target of the set point in mV: V_op of the effective budget, a raise accepted and pending counted, and 5 mV for each boost step; 550 after a trip
(17 R448, R451, R458). -/
def supplyTarget (s : State) (boost : Nat) : Nat :=
  if s.obj Key.tolDerate = 3 then 550
  else vopOf (min (s.toll.raise.foldl (fun a r => max a r.2) (s.obj Key.tolBudget)) s.toll.limit) + 5 * boost

/-- The ingest abutment that feeds a stage, where one does: a front end's pier, and the pier of the port whose frame a girder runs (17 R454; DEDUCED,
notes/assumptions/33.md). -/
def stagePier (s : State) (n : Nat) : Option Nat :=
  if n < 68 then (s.girderWork n).map fun w => s.pierOfLink (s.obj (Key.portLink w.2.1))
  else if n < 84 then some (n - 68) else none

/-- The order of service in a slot: stages with a lag request first, round robin from the starting stage within a class (17 R454). -/
def grantOrder (s : State) : List Nat :=
  let ring := (List.range stageCount).map fun i => (s.toll.start + i) % stageCount
  let first (n : Nat) : Bool := match s.stagePier n with | some p => (s.abutment p).lagRequest | none => false
  ring.filter first ++ ring.filter fun n => !first n

/-- Grants: each stage receives the smaller of its request and the tokens left (17 R454). -/
def grantTokens (requests : Tab Nat) : List Nat → Nat → Tab Nat
  | [], _ => []
  | n :: r, left =>
    let x := min (tabGet 0 requests n) left
    tabSet 0 (grantTokens requests r (left - x)) n x

/-- The boost steps of a slot: one more while a boost request is raised, up to four; one fewer during the removal (01 R24; 17 R448). A fault or a trip
ignores requests. -/
def boostStep (s : State) : State :=
  let b := s.obj Key.tolBoost
  if s.boostWanted then
    let s1 := s.withToll { s.toll with boostAt := s.wall, removing := false }
    if s.obj Key.tolAvsState = 2 ∨ s.obj Key.tolDerate = 3 ∨ 4 ≤ b then s1 else (s1.setObj Key.tolBoost (b + 1)).bump Key.tolBoosts
  else if s.toll.removing then
    ((s.setObj Key.tolBoost (b - 1)).withToll { s.toll with removing := decide (1 < b) })
  else s

/-- The AVSBus transactions of a slot: at most one Voltage write of 5 mV toward the target, and the readings of every 64th slot; a failed
transaction is retried in the next slot, and the third failed retry is a FAULT (17 R448). -/
def avsSlot (s : State) (ok : Bool) (reading : Option (Nat × Nat)) : State :=
  let v := s.obj Key.tolVset
  let target := s.supplyTarget (s.obj Key.tolBoost)
  let fault := s.obj Key.tolAvsState == 2
  let write := !fault && v != target
  let read := s.toll.readDue || s.toll.slots % 64 == 0
  let readOk := ok && reading.isSome
  let errors := b2n (write && !ok) + b2n (read && !readOk)
  let tries := if errors ≠ 0 then s.toll.retries + 1 else if write || read then 0 else s.toll.retries
  let s1 := (s.withToll { s.toll with retries := tries, readDue := read && !readOk }).addObj Key.tolAvsErrors errors
  let s2 := if write && ok then s1.setObj Key.tolVset (if v < target then v + 5 else v - 5) else s1
  let s3 : State := match reading with
    | some (mv, ma) => if read && ok then (s2.setObj Key.tolVdd mv).setObj Key.tolIdd ma else s2
    | none => s2
  if 4 ≤ tries ∧ !fault then
    let s4 := s3.setObj Key.tolAvsState 2
    if s4.obj Key.suStage < 4 then s4.enterStage 6 else s4
  else s3

/-- The supply conditions after a slot: VDD_DECK at the die against the set point (17 R449), and the fixed rails (20 R517). -/
def supplyCheck (s : State) (vset dieMv : Nat) (rails : Bool) : State :=
  let far := decide (dieMv + 25 < vset) || decide (vset + 25 < dieMv)
  let left := decide (dieMv < 550) || decide (850 < dieMv)
  let x := s.toll
  let vOut := if far then x.vOut + 1 else 0
  let vIn := if far || left then 0 else x.vIn + 1
  let vOk := if left || decide (4 ≤ vOut) then false else if 4 ≤ vIn then true else x.vOk
  let railOut := if rails then 0 else x.railOut + 1
  let railIn := if rails then x.railIn + 1 else 0
  let railsOk := if 4 ≤ railOut then false else if 4 ≤ railIn then true else x.railsOk
  ((s.withToll { x with vOut := vOut, vIn := vIn, vOk := vOk, railOut := railOut, railIn := railIn, railsOk := railsOk }).withCond { s.cond with supplies := vOk && railsOk }).refreshConditions

/-- K of the slot: 16 × B_eff − L in units of a token; none after a trip (17 R451, R453, R458). -/
def slotTokens (s : State) : Nat :=
  if s.obj Key.tolDerate = 3 then 0
  else 16 * min (s.objAt Key.tolBudget s.time) s.toll.limit - Config.leakage (s.objI Key.tolTempMax)

/-- The girders that the Tollhouse and the trip serve: the first piece of a slot's end, the counters. -/
def slotEnd (s : State) (requests : Tab Nat) : State :=
  let k := s.slotTokens
  let s1 := ((s.refreshPower.setObj Key.tolLeak (Config.leakage (s.objI Key.tolTempMax))).setObj Key.tolTokens k).setPromise 9 (s.obj Key.tolBoost != 0)
  s1.withToll { s1.toll with grants := grantTokens requests s.grantOrder k, start := (s.toll.start + 1) % stageCount, slots := s.toll.slots + 1, slotAt := s.ticks + 1 }

/-- A raise of tol.budget, once accepted, moves the target at once (17 R451). -/
def acceptPower (s : State) (g : Group) : State :=
  match g.write? Key.tolBudget with
  | none => s
  | some b => if s.objAt Key.tolBudget g.t < b then (s.withToll { s.toll with raise := s.toll.raise ++ [(g.t, b)] }) else s

end State

/-- A Tollhouse slot, at a tick count that is a multiple of 400, from the stage CALIBRATING on: boost, AVSBus, tokens and supply checks (17 R448 to R454; 19
Table 19-3; 20 R517). -/
def execTollhouseSlot (requests : List (Fin 256 × Nat)) (avsOk : Bool) (dieMv : Nat) (reading : Option (Nat × Nat)) (railsOk : Bool) (s : State) : Out :=
  if !s.start.released ∨ s.obj Key.suStage = 0 ∨ s.ticks % 400 ≠ 0 ∨ s.toll.slotAt = s.ticks + 1 then .next s else
  let asked : Tab Nat := requests.foldl (fun t r => tabSet 0 t r.1.val r.2) []
  let s1 := s.withToll { s.toll with raise := s.toll.raise.filter fun r => decide (s.time < r.1) }
  let s2 := s1.boostStep.avsSlot avsOk reading
  .next ((s2.supplyCheck (s.obj Key.tolVset) dieMv railsOk).slotEnd asked)

/-- After 400,000 ticks with no boost request the steps go, one per slot (01 R24). -/
def execBoostRemoval (s : State) : Out :=
  if s.obj Key.tolBoost = 0 ∨ s.boostWanted ∨ s.wall < s.toll.boostAt + 400000 then .next s
  else .next (s.withToll { s.toll with removing := true })

/-! ### Temperature (17 R455 to R458) -/

/-- A sensor's object for a reading: bits [14:0] the reading, bit 15 STALE (17 Table 17-5). -/
def sensorWord (reading : Int) (held : Bool) : Nat := (reading % 32768).toNat + 32768 * b2n held

/-- The reading in a sensor's object. -/
def sensorValue (w : Nat) : Int := let v := w % 32768; if v < 16384 then v else (v : Int) - 32768

/-- One sensor is read: its reading, and readings in a row at or above 115 °C; a sensor under calibration holds its last reading with STALE (17 R455, R458,
R463). -/
def State.readSensor (s : State) (i : Nat) (reading : Int) : State :=
  if s.cal.running = some (5, i) then s.setObj (Key.tolTemp i) (sensorWord (sensorValue (s.obj (Key.tolTemp i))) true) else
  let n := if 460 ≤ reading then tabGet 0 s.toll.hot i + 1 else 0
  ((s.setObj (Key.tolTemp i) (sensorWord reading false)).withToll { s.toll with hot := tabSet 0 s.toll.hot i n })

/-- Time above 95 °C since the last reading, in whole seconds in svc.overtemp (18 R493). -/
def State.countOvertemp (s : State) : State :=
  let n := if 380 < s.objI Key.tolTempMax then s.start.overTicks + (s.wall - s.start.readAt) else s.start.overTicks
  (s.withStart { s.start with overTicks := n % 400000000, readAt := s.wall }).addObj Key.svcOvertemp (n / 400000000)

/-- Derating begins at the limit, with D from B_eff; while it recovers, the limit turns it back (17 R456). -/
def State.derateCheck (s : State) : State :=
  let m := s.objI Key.tolTempMax
  let limit : Int := 4 * (s.obj Key.tolThermLimit : Int)
  let s1 := if limit - 12 ≤ m then (s.withToll { s.toll with hotAt := s.wall }) else s
  let st := s1.obj Key.tolDerate
  if limit ≤ m ∧ (st = 0 ∨ st = 2) then
    let d := if st = 0 then s1.budget else s1.toll.limit
    (s1.withToll { s1.toll with limit := d, stepAt := s1.wall }).setObj Key.tolDerate 1
  else s1

/-- Every sensor is read: tol.temp, tol.temp.max, the temperature condition, derating and the trip (17 R455, R456, R458; 20 R517). -/
def execTempRead (readings : List Int) (s : State) : Out :=
  if !s.start.released then .next s else
  let s1 := (readings.take 24).zipIdx.foldl (fun x r => x.readSensor r.2 r.1) s.countOvertemp
  let m := (List.range 24).foldl (fun a i => max a (sensorValue (s1.obj (Key.tolTemp i)))) (sensorValue (s1.obj (Key.tolTemp 0)))
  let s2 := s1.setObjI Key.tolTempMax m
  let s3 := (s2.withCond { s2.cond with temperature := decide (0 ≤ m ∧ m ≤ 420) }).refreshConditions
  if s3.obj Key.tolDerate = 3 then .next s3
  else if (List.range 24).any fun i => decide (2 ≤ tabGet 0 s3.toll.hot i) then .next (s3.setObj Key.tolDerate 3)
  else .next s3.derateCheck

/-- Every 400,000 ticks D falls by 5 A at or above the limit, or rises by 5 A once the reading has stayed 3 °C below it for 400,000 ticks; admission is repeated
(17 R456, R457). -/
def execDerateStep (s : State) : Out :=
  let st := s.obj Key.tolDerate
  let m := s.objI Key.tolTempMax
  let limit : Int := 4 * (s.obj Key.tolThermLimit : Int)
  if (st ≠ 1 ∧ st ≠ 2) ∨ s.wall < s.toll.stepAt + 400000 then .next s
  else if st = 1 ∧ limit ≤ m then
    .next (((s.withToll { s.toll with limit := max 120 (s.toll.limit - 5), stepAt := s.wall })).refreshPower.readmit)
  else if st = 2 ∨ s.toll.hotAt + 400000 ≤ s.wall then
    let d := min 260 (s.toll.limit + 5)
    .next (((s.withToll { s.toll with limit := d, stepAt := s.wall }).setObj Key.tolDerate (if d = 260 then 0 else 2)).refreshPower.readmit)
  else .next s

/-! ### Calibration (17 R459 to R464) -/

/-- Items of each unit (17 Table 17-1). -/
def calCount (unit : Nat) : Nat := [68, 128, 20, 1, 1, 24].getD unit 0

/-- Every item, by ascending unit, then item. -/
def calAll : List (Nat × Nat) := (List.range 6).flatMap fun u => (List.range (calCount u)).map fun i => (u, i)

namespace State

/-- Does the firmware serve dictionary operations: FW_READY (12 R324; 18 R478, R486; 19 R504)? -/
def fwReady (s : State) : Bool := s.obj Key.suStage != 0 && !s.start.stopped && s.obj Key.fwSwapState != 2

/-- The operation of the dictionary port ends: DC_BUSY, DC_STAT, event source 16 (12 R330). -/
def endDc (s : State) (code : Code) : State :=
  let p := s.pcie
  (s.withPcie { p with dcBusy := false, dcStat := code + 256 * (p.dcCtrl % 16) + 65536 * s.pev.group.length }).raiseEvent 16

/-- An operation of the dictionary port whose OP is outside 1 to 6 ends with RANGE, once the firmware serves (12 R330, Table 12-6). -/
def endBadOp (s : State) : State :=
  if s.pcie.dcBusy ∧ s.fwReady ∧ (s.pcie.dcCtrl % 16 = 0 ∨ 6 < s.pcie.dcCtrl % 16) then s.endDc Res.range else s

/-- Is a monitor sequence running at a tick (17 R467)? -/
def monRunningAt (s : State) (t : Nat) : Bool := s.mon.runs.any fun r => decide (r.start ≤ t ∧ t < r.start + 4 * r.seq.length)

/-- Can the item be taken now: a girder only while a spare is free, and no retired one (17 R460; 05 R152)? -/
def calTakes (s : State) (unit item : Nat) : Bool := unit != 0 || (s.obj (Key.girderState item) != girderRetired && s.freeSpare.isSome)

/-- The item to take next: in a full run in its order; else by due time, unit and item (17 R460, R464). -/
def nextCal (s : State) : Option (Nat × Nat) :=
  match s.cal.full with
  | some l => l.head?
  | none => (calAll.filter fun x => decide ((s.calItem x.1 x.2).due ≤ s.wall) && s.calTakes x.1 x.2).foldl (fun a x =>
      match a with
      | none => some x
      | some b => if (s.calItem x.1 x.2).due < (s.calItem b.1 b.2).due then some x else some b) none

/-- Bit 15 of a sensor's object is set while its item is in progress, when its reading holds its last value (17 R463). -/
def holdSensor (s : State) (unit item : Nat) (held : Bool) : State :=
  if unit = 5 then s.setObj (Key.tolTemp item) (sensorWord (sensorValue (s.obj (Key.tolTemp item))) held) else s

/-- The item is in progress. -/
def beginCal (s : State) (unit item : Nat) : State :=
  ((((s.holdSensor unit item true).withCal { s.cal with running := some (unit, item), startedAt := s.wall })).setObj (Key.calItem unit) item).setObj Key.calState (if s.cal.full.isSome then 2 else 1)

/-- A girder is taken out: a spare comes in first, unless the girder is itself a spare (05 R152). -/
def takeOutGirder (s : State) (g : Nat) : State :=
  let s1 := if s.obj (Key.girderState g) = girderInService then (match s.freeSpare with | some x => s.bringSpare x | none => s) else s
  (s1.setObj (Key.girderState g) girderCalibrating).countGirders

/-- A girder returns to the spare pool (05 R152). -/
def returnGirder (s : State) (g : Nat) : State :=
  if s.obj (Key.girderState g) = girderCalibrating then ((s.putGirder g { s.girder g with coming := false }).setObj (Key.girderState g) girderSpare).countGirders else s

/-- Does the set apply at once: not a lane in use, not a truss lane in service (17 Table 17-1)? -/
def calAtOnce (s : State) (unit item : Nat) : Bool :=
  if unit = 1 then !(s.linksOn.any fun k => (s.link k).lanes.contains item)
  else if unit = 2 then !s.laneIn (item / 5) (item % 5)
  else true

/-- What a stale girder or truss lane leads to (17 R462). -/
def staleEffect (s : State) (unit item : Nat) : State :=
  if unit = 0 then
    if s.obj (Key.girderState item) = girderInService ∧ s.freeSpare.isSome then s.retireGirder item
    else if s.obj (Key.girderState item) = girderSpare then (((s.setObj (Key.girderState item) girderRetired).raiseEvent 3).countGirders).refreshSpares
    else s
  else if unit = 2 then s.retireLane (item / 5) (item % 5) true
  else s

/-- The girders that are not retired come back after a full run: the lowest 64 into service, the rest spare (notes/assumptions/34.md). -/
def returnAll (s : State) : State :=
  let gs := (List.range 68).filter fun g => s.obj (Key.girderState g) == girderCalibrating
  (gs.zipIdx.foldl (fun x e => (x.putGirder e.1 { x.girder e.1 with coming := false }).setObj (Key.girderState e.1) (if e.2 < 64 then girderInService else girderSpare)) s).countGirders

/-- The engine is free again; a full run goes on, or ends (17 R460, R464). -/
def endCal (s : State) (unit item : Nat) : State :=
  let rest := s.cal.full.map (·.drop 1)
  let done := rest == some []
  let s0 := if unit = 4 then (s.withMon { s.mon with idleFrom := (s.ticks + 3) / 4 * 4 }) else s.holdSensor unit item false
  let s1 := (s0.withCal { s0.cal with running := none, full := if done then none else rest }).setObj (Key.calItem unit) 0xFFFF
  let s2 := s1.setObj Key.calState (if s1.cal.full.isSome then 2 else 0)
  if done then s2.returnAll else s2

end State

/-- The next due item starts; no item starts during a HANDOVER, and the monitor item waits for the running sequence (17 R460, R463; 18 R487). A girder leaves
at a frame boundary (05 R152). -/
def execCalItemStart (s : State) : Out :=
  if s.cal.running.isSome ∨ s.obj Key.fwSwapState = 2 ∨ s.obj Key.suStage < 2 ∨ s.obj Key.suStage = 6 then .next s else
  match s.nextCal with
  | none => .next s
  | some (0, g) =>
    if s.cal.full.isSome then .next (s.beginCal 0 g)
    else if (s.girderWork g).isSome then .next s
    else .next ((s.takeOutGirder g).beginCal 0 g)
  | some (u, i) => if u = 4 ∧ s.monRunningAt s.ticks then .next s else .next (s.beginCal u i)

/-- The item in progress completes with its new codes: they pass and are applied at their point, or the old ones stay (17 R459, R461, R462). The interruptions of
units 4 and 5 have their length. -/
def execCalItemDone (codes : List Nat) (s : State) : Out :=
  match s.cal.running with
  | none => .next s
  | some (u, i) =>
    if s.wall < s.cal.startedAt + (if u = 4 then 16384 else if u = 5 then 40000 else 0) then .next s else
    let was := s.calStale u i
    let s1 := s.offerSet u i codes s.cal.full.isNone
    let s2 := if u = 0 ∧ s.cal.full.isNone then s1.returnGirder i else s1
    let s3 := if s2.calAtOnce u i then s2.applyCal u i else s2
    let x := s3.calItem u i
    let s4 := s3.putCalItem u i { x with due := if s.cal.full.isSome then s.wall + s3.obj (Key.calPeriod u) else x.due + s3.obj (Key.calPeriod u) }
    let s5 := s4.endCal u i
    .next (if !was ∧ s5.calStale u i then s5.staleEffect u i else s5)

/-- 4 × cal.period without an application: the item is stale (17 R462). -/
def execCalAgeTimeout (calUnit : Fin 6) (item : Fin 128) (s : State) : Out :=
  let u := calUnit.val
  let i := item.val
  let x := s.calItem u i
  if calCount u ≤ i ∨ s.obj Key.suStage < 2 ∨ x.stale ∨ s.wall < x.applied + 4 * s.obj (Key.calPeriod u) ∨ (u = 0 ∧ s.obj (Key.girderState i) = girderRetired) then .next s
  else .next ((s.calStaleNow u i).staleEffect u i)

/-- The due command cal.full repeats the start-up run, but for truss lanes in service, and takes every girder out together; it waits during a HANDOVER (17 R464;
19 R508). -/
def execCalFull (s : State) : Out :=
  if !(s.due.any fun d => d.1 == Key.calFull) ∨ s.obj Key.fwSwapState = 2 then .next s else
  let items := calAll.filter fun x => if x.1 = 0 then s.obj (Key.girderState x.2) != girderRetired else x.1 != 2 || !s.laneIn (x.2 / 5) (x.2 % 5)
  let s1 := s.withDue (s.due.filter fun d => d.1 != Key.calFull)
  let s2 : State := match s1.cal.running with | some (u, i) => (s1.holdSensor u i false).setObj (Key.calItem u) 0xFFFF | none => s1
  let s3 := (List.range 68).foldl (fun x g => if x.obj (Key.girderState g) = girderRetired then x else (x.rerunFrames g).setObj (Key.girderState g) girderCalibrating) s2
  .next (((s3.withCal { s3.cal with running := none, full := some items, startedAt := s3.wall })).setObj Key.calState 2)

/-- The due command cal.run makes every item of the unit due (17 R460). -/
def execCalRun (calUnit : Fin 6) (s : State) : Out :=
  let u := calUnit.val
  if !(s.due.any fun d => d.1 == Key.calRun u) then .next s else
  let s1 := s.withDue (s.due.filter fun d => d.1 != Key.calRun u)
  .next ((List.range (calCount u)).foldl (fun x i => x.putCalItem u i { x.calItem u i with due := min (x.calItem u i).due s.wall }) s1)

end Sys2Proof.Machine
end

