-- ==== Sys2Proof/Machine/MonitorOps.lean ====
section
/-! DEFINITION. The monitor converter, its start events and its window comparators; commit effects and group rules of chapter 17 (17 R465 to R473). -/

namespace Sys2Proof.Machine

/-- The inputs of mon.seq: the bytes before the first 0xFF (17 R466). -/
def monInputs (img : Nat) : List Nat := ((List.range 16).map fun i => fieldAt img i 1).takeWhile fun b => b != 0xFF

/-- The code of an input in units of V_FS / 2^20: rounded to a 4,096th of V_FS and limited (17 R465, R468). -/
def monCodeOf (input : Int) : Nat := min 4095 (((input + 128) / 256).toNat)

namespace State

/-! ### Sequences (17 R466, R467) -/

/-- Is a monitor-converter item in progress (17 R463)? -/
def monPaused (s : State) : Bool := s.cal.running == some (4, 0)

/-- The end of the last sequence: 4 ticks after its last slot's edge. -/
def monEnd (s : State) : Nat := match s.mon.runs.getLast? with | some r => r.start + 4 * r.seq.length | none => 0

/-- A sequence starts at an edge; sequences whose conversions are made stay only while they are the last. -/
def startRun (s : State) (e : Nat) : State :=
  s.withMon { s.mon with runs := (s.mon.runs.filter fun r => r.next < r.seq.length) ++ [{ start := e, seq := monInputs (s.objAt Key.monSeq (e * tick)) }] }

/-- A latched start begins at the first edge after the running sequence or the item ends, if that is not after a tick; an item that is due goes first (17 R460,
R467). -/
def promoteStart (s : State) (t : Nat) : State :=
  let itemNext := s.cal.running.isNone && s.nextCal == some (4, 0)
  if !s.mon.latched || s.monPaused || itemNext || decide (t < max s.monEnd s.mon.idleFrom) then s else
  let e := max s.monEnd s.mon.idleFrom
  (s.withMon { s.mon with latched := false }).startRun e

end State

/-- The next start event whose edge has come starts a sequence, is latched, or is an overrun (17 R467). -/
def execMonStartEvent (s : State) : Out :=
  match s.nextStart s.mon.from' with
  | none => .next s
  | some t =>
    let e := monEdge (t + s.objAt Key.monDelay (t * tick))
    if s.ticks < e then .next s else
    let s1 := (s.withMon { s.mon with from' := t + 1 }).promoteStart e
    if !s1.monPaused ∧ s1.monEnd ≤ e ∧ !s1.mon.latched then .next (s1.startRun e)
    else if !s1.mon.latched then .next (s1.withMon { s1.mon with latched := true })
    else .next ((s1.bump Key.monOverruns).raiseEvent 11)

/-- A conversion of a slot is made: its code with OVR, SETTLING and STALE; the code is ready 32 ticks later (17 R465, R466, R468). input is in units of
V_FS / 2^20. -/
def State.convert (s : State) (r : MonRun) (input : Int) : State :=
  let e := r.start + 4 * r.next
  let ovr := decide (input < 0) || decide (1048576 < input)
  let settling := match s.mon.last with
    | (e1, o1) :: rest => e1 + 4 == e && (o1 || (match rest with | (e2, o2) :: _ => e2 + 8 == e && o2 | [] => false))
    | [] => false
  let c : MonCode := { edge := e, input := r.seq.getD r.next 0, code := monCodeOf input, ovr := ovr, settling := settling, stale := s.calStale 4 0 }
  let runs := s.mon.runs.map fun x => if x.start = r.start then { x with next := x.next + 1 } else x
  (s.withMon { s.mon with runs := runs, codes := s.mon.codes ++ [c], last := (e, ovr) :: s.mon.last.take 1 }).bump Key.monConversions

/-- On a conversion edge the input of the current slot is sampled (17 R465, R466). -/
def execMonConversion (input : Int) (s : State) : Out :=
  let s1 := s.promoteStart s.ticks
  match s1.mon.runs.find? fun r => r.next < r.seq.length with
  | none => .next s1
  | some r => if s1.ticks < r.start + 4 * r.next ∨ s1.monPaused then .next s1 else .next (s1.convert r input)

/-! ### Codes and window comparators (17 R469 to R472) -/

/-- The side of a code: 1 inside, 2 above, 3 below (17 R471, Table 17-7). -/
def cmpSide (low high code : Nat) : Nat := if high < code then 2 else if code < low then 3 else 1

namespace State

/-- Did a group write an object of a comparator with T after a and not after b (17 R471)? -/
def cmpWritten (s : State) (w a b : Nat) : Bool := s.allWrites.any fun x => x.2 / 256 == 0x1360 + w && decide (a < x.1 ∧ x.1 ≤ b)

/-- A comparator takes a conversion of its input (17 R471, R472; 07 R205, R211). -/
def compare (s : State) (c : MonCode) (w : Nat) : State :=
  let t := c.edge * tick
  if !s.flagAt (Key.cmpEnable w) t || s.objAt (Key.cmpInput w) t != c.input || c.settling || c.stale then s else
  let (at', last) := tabGet (0, 0) s.mon.sides w
  let before := if at' = 0 ∨ s.cmpWritten w ((at' - 1) * tick) t then 0 else last
  let side := cmpSide (s.objAt (Key.cmpLow w) t) (s.objAt (Key.cmpHigh w) t) c.code
  let s1 := s.withMon { s.mon with sides := tabSet (0, 0) s.mon.sides w (c.edge + 1, side) }
  let s2 := if s1.cmpWritten w t s1.time then s1 else s1.setObj (Key.cmpState w) side
  if before = 0 ∨ side = 1 ∨ side = before then s2 else
  let flags := 8 * b2n c.ovr + 2 * b2n (s.calStale 4 0)
  let s3 := (s2.raiseTrigger (0x4000 + w) t flags (if side = 2 then 0 else 1) c.code 0).pulseNow (0x4000 + w) (s2.objAt (Key.trigMonPins w) s2.time)
  (s3.raiseEvent 11).bump (Key.cmpEvents w)

/-- mon.value as Table 17-2 lays it out; STALE is read live (17 R462, R463, R469). -/
def valueWord (c : MonCode) : Nat := c.code + 4096 * b2n c.ovr + 8192 * b2n c.settling + 32768

/-- mon.state now (17 Table 17-7). -/
def monStateNow (s : State) : Nat :=
  if s.monPaused then 3 else if s.monRunningAt s.ticks then (if s.mon.latched then 2 else 1) else 0

/-- mon.value as read: STALE while a monitor-converter item runs or the item is stale (17 R462, R463). -/
def monValueNow (s : State) (i : Nat) : Nat := setBit (s.obj (Key.monValue i)) 14 (s.monPaused || s.calStale 4 0)

end State

/-- The oldest code is ready: mon.value, mon.time and the comparators of its input, whose watermarks reach the sampling instant (17 R465, R469, R471; 07 Table
7-3). -/
def execMonCodeReady (s : State) : Out :=
  match s.mon.codes with
  | [] => .next s
  | c :: rest =>
    if s.ticks < c.edge + 32 then .next s else
    let s1 := s.withMon { s.mon with codes := rest }
    let s2 := (s1.setObj (Key.monValue c.input) (State.valueWord c)).setObj (Key.monTime c.input) (c.edge * tick)
    let s3 := (List.range 16).foldl (fun x w => x.compare c w) s2
    .next ((List.range 16).foldl (fun x w => x.setWatermark (0x4000 + w) (c.edge * tick)) s3)

/-! ### Commit effects and rules of chapter 17 -/

/-- Effects of a commit on power and the monitor: a new budget; start objects end the schedule at T and discard a latched start; comparators start from UNKNOWN (17
R450, R467, R471). -/
def commitPower (s : State) (g : Group) (old : Nat → Nat) : State :=
  let s1 := if g.has Key.tolBudget then s.refreshPower else s
  let moved := [Key.monSource, Key.monTimerStart, Key.monTimerPeriod, Key.monSw, Key.monSwPhase, Key.monDelay].any fun k => s1.obj k != old k
  let s2 := if moved then (s1.withMon { s1.mon with from' := (g.t + tick - 1) / tick, latched := false }) else s1
  (g.units 0x1360 16).foldl (fun x w => x.setObj (Key.cmpState w) 0) s2

/-- The ends of the full runs that are under way or commanded: from, to in Keystone time (17 R464). -/
def State.fullRuns (s : State) : List (KTime × KTime) :=
  let len := 72000000 * tick
  let now := if s.cal.full.isSome then [(0, s.time + (s.cal.startedAt + 72000000 - s.wall) * tick)] else []
  let due := (s.due.filter fun d => d.1 == Key.calFull).map fun d => (d.2, s.time + len)
  let pending := (s.groups.filter fun g => g.writes.any fun w => w.1 == Key.calFull).map fun g => (g.t, g.t + len)
  now ++ due ++ pending

/-- Is mon.seq well formed: 1 to 16 inputs from 0 to 15, then 0xFF to the end (17 R466)? -/
def monSeqOk (img : Nat) : Bool :=
  let l := monInputs img
  l.length != 0 && l.all (fun b => decide (b < 16)) && ((List.range 16).drop l.length).all fun i => fieldAt img i 1 == 0xFF

/-- Table 17-4, row by row (17 R473). -/
def rulesPower (s : State) (g : Group) : Option Code :=
  if !(g.hasRange 0x1200 0x13FF || g.hasRange 0x1580 0x15FF) then none else
  let v := s.staged g
  let old := s.before g
  let links := unitsOn v 0x1580 128
  let newLinks := links.filter fun k => old (Key.linkEnable k) == 0
  firstOf [
    refuse (g.has Key.tolBudget && decide (old Key.tolBudget < v Key.tolBudget) && decide (g.t < s.time + 20000 * tick)) Res.tooLate,
    refuse ((g.has Key.calFull && !links.isEmpty) || (!newLinks.isEmpty && s.fullRuns.any fun r => decide (g.t < r.2))) Res.state,
    refuse ((g.has Key.tolBudget && (decide (v Key.tolBudget < 120) || decide (260 < v Key.tolBudget))) ||
      (g.has Key.tolThermLimit && (decide (v Key.tolThermLimit < 85) || decide (110 < v Key.tolThermLimit)))) Res.range,
    eachOf (g.units 0x1310 6) (fun u => refuse (g.has (Key.calPeriod u) && (decide (v (Key.calPeriod u) < 400000000) || decide (2 ^ 44 < v (Key.calPeriod u)))) Res.range),
    refuse (g.has Key.monSeq && !monSeqOk (v Key.monSeq)) Res.range,
    refuse (g.hasIndex 0x1340 && (decide (2 < v Key.monSource) || decide (7 < v Key.monSw) || (decide (3 < v Key.monSwPhase) && v Key.monSwPhase != 0xFF) ||
      decide (v Key.monTimerPeriod < 4))) Res.range,
    eachOf (g.units 0x1360 16) (fun w => refuse (decide (15 < v (Key.cmpInput w)) || decide (4095 < v (Key.cmpLow w)) || decide (4095 < v (Key.cmpHigh w)) ||
      decide (v (Key.cmpHigh w) < v (Key.cmpLow w))) Res.range),
    eachOf ((List.range 6).filter fun u => g.has (Key.calRun u)) (fun u =>
      refuse ((List.range (calCount u)).all fun i => decide ((s.calItem u i).due ≤ s.wall)) Res.already)]

end Sys2Proof.Machine
end

