-- ==== Sys2Proof/Machine/Ring.lean ====
section
/-! DEFINITION. The look-back ring: flush, acknowledgement, resizing, selection, and its reported figures (11 R293, R294, R297, R300, R302,
R304, R305). -/

namespace Sys2Proof.Machine

/-- The ring stream of a port: raw, or front-end. -/
def streamId (port : Nat) (fe : Bool) : Nat := if fe then 1024 + port else port

/-- ring.flush ticks after the first sample of the open block reached the writer, the block is closed; another opens with the next position
(11 R297). -/
def execRingFlush (port : Fin 1024) (fe : Bool) (s : State) : Out :=
  match (s.ringStream (streamId port.val fe)).openBlock with
  | none => .next s
  | some b => if s.wall < b.openedAt + s.obj Key.ringFlush then .next s else .next (s.closeBlock (streamId port.val fe))

/-- Memory acknowledges the oldest block of a stream not yet written, and the commit point moves (11 R302). -/
def execRingBlockWritten (port : Fin 1024) (fe : Bool) (s : State) : Out := .next (s.blockWritten (streamId port.val fe))

namespace State

/-- The whole slabs of the ring region (10 R273; 11 R293). -/
def regionSlabs (s : State) : Nat := if s.obj Key.memFixedSize = 0 then 0 else (s.memSize - s.obj Key.memFixedSize) / 4194304

/-- Is S a value that R293 allows? -/
def slabsOk (s : State) (n : Nat) : Bool := n == 0 || decide (4096 ≤ n ∧ n ≤ min 475136 s.regionSlabs)

/-- Is any stream selected, now or by a pending group? -/
def anySelected (s : State) : Bool :=
  s.obj Key.ringSelectRaw != 0 || s.obj Key.ringSelectFe != 0 ||
    s.groups.any fun g => g.writes.any fun w => (w.1 == Key.ringSelectRaw || w.1 == Key.ringSelectFe) && w.2 != 0

/-- H in ticks, truncated (11 R300). -/
def horizonNow (s : State) : Nat :=
  let r := ringRateOf s.obj
  let kept := 1024 * (2048 + s.selectedStreams.length)
  if r ≤ 0 ∨ s.usableBlocks ≤ kept then 0 else
  ((((s.usableBlocks - kept) * 4032 * 400000000 : Nat) : Rat) / r).floor.toNat

end State

/-- A write of ring.slabs (11 R304). -/
def immRingSlabs (n : Nat) (s : State) : Code × State :=
  if n ≠ 0 ∧ s.groups.any (fun g => s.staged g Key.memFixedSize != s.before g Key.memFixedSize) then (Res.state, s)
  else if !s.slabsOk n then (Res.range, s)
  else if n = 0 ∧ s.anySelected then (Res.state, s)
  else if s.anyCapturing then (Res.state, s)
  else
    let s1 := s.setObj Key.ringSlabs n
    if s.obj Key.ringSlabsNow = 0 then (Res.done, s1.setObj Key.ringSlabsNow n)
    else (Res.done, (s1.withRing { s1.ring with resize := some n }).setObj Key.ringResizeState 1)

def execRingSlabs (slabs : Nat) (s : State) : Out := .next (s.act (immRingSlabs slabs))

/-- At T a selected stream of an enabled port starts; a stream deselected or of a disabled port ends once its positions before T have passed, and at
once when none can be under way (11 R294, R302). -/
def commitRing (s : State) (g : Group) (old : Nat → Nat) : State :=
  if !(g.hasSubs 0x1910 4 5 || g.hasRange 0x2000 0x23FF) then s else
  (List.range 2048).foldl (fun y id =>
    let sel := if id < 1024 then Key.ringSelectRaw else Key.ringSelectFe
    let live (v : Nat → Nat) : Bool := bit (v sel) (id % 1024) && v (Key.portEnable (id % 1024)) != 0
    if live y.obj == live old then y
    else if live y.obj then
      y.startStream id g.t (!bit (old sel) (id % 1024))
    else if y.portLive (id % 1024) then y
    else y.endStream id) s

/-- The refusal of a selection without slabs (11 R294); the other half is among the rules of contexts. -/
def rulesRing (s : State) (g : Group) : Option Code :=
  let new (k : Nat) : Bool := g.has k && (List.range 1024).any fun p => bit (s.staged g k) p && !bit (s.before g k) p
  refuse (s.obj Key.ringSlabsNow == 0 && (new Key.ringSelectRaw || new Key.ringSelectFe)) Res.state

end Sys2Proof.Machine
end

