-- ==== Sys2Proof/Machine/Security.lean ====
section
/-! DEFINITION. Security: images, firmware replacement, rollback, the owner key, attestation, scrubbing of the memories on the die, and the group rules of chapter 18
(18 R475 to R491). -/

namespace Sys2Proof.Machine

/-! ### Images (18 R477) -/

/-- The code of the check of R477 for an image of KIND 1 or 2 in its place, in the order RANGE, AUTH, STATE (18 R477, R485). -/
def checkImage (rootHash : Bytes) (c : Nat) (b : Bytes) : Code :=
  let num (off n : Nat) : Nat := leNat ((b.drop off).take n)
  let kind := num 6 1
  let len := num 16 8
  let region := if kind = 1 then 1048576 else 12582912
  let body := (b.drop 272).take len
  let key := (b.drop 72).take 97
  if b.length < 272 ∨ num 0 4 ≠ 0x4F465731 ∨ num 4 2 ≠ 1 ∨ (kind ≠ 1 ∧ kind ≠ 2) ∨ b.length < 272 + len ∨ region < 272 + len then Res.range
  else if sha384 key ≠ rootHash ∨ !verifySig key (b.take 176) ((b.drop 176).take 96) ∨ (b.drop 24).take 48 ≠ sha384 body then Res.auth
  else if num 7 1 < c then Res.state
  else Res.done

/-- What an image's header says of it. -/
def imageOf (b : Bytes) : Image := { version := leNat ((b.drop 8).take 4), svn := leNat ((b.drop 7).take 1), hash := leNat ((b.drop 24).take 48) }

namespace State

/-! ### Firmware replacement (18 R485 to R488) -/

/-- An event of source 15: the state of the firmware changes (12 Table 12-9). -/
def firmwareEvent (s : State) : State := s.raiseEvent 15

/-- A load or swap runs (18 R485). -/
def loadBusy (s : State) : Bool := s.obj Key.fwLoadState == 1 || s.obj Key.fwLoadState == 2 || s.obj Key.fwSwapState != 0

/-- The load ends with a code. -/
def endLoad (s : State) (st code : Nat) : State :=
  ((s.withSec { s.sec with load := none }).setObj Key.fwLoadState st).setObj Key.fwLoadResult code

/-- fw.load: BUSY, RANGE or DEFERRED (18 R485). -/
def immFwLoad (addr len : Nat) (s : State) : Code × State :=
  if s.loadBusy then (Res.busy, s)
  else if !s.inFixed addr len ∨ len < 273 ∨ 12582912 < len then (Res.range, s)
  else (Res.deferred, ((s.withSec { s.sec with load := some (addr, len) }).setObj Key.fwLoadState 1).memRead .firmware 3 addr len)

/-- fw.swap: BUSY while a swap runs, STATE unless an image is VERIFIED (18 R486). -/
def immFwSwap (s : State) : Code × State :=
  if s.obj Key.fwSwapState ≠ 0 then (Res.busy, s)
  else if s.obj Key.fwLoadState ≠ 3 then (Res.state, s)
  else (Res.done, s.setObj Key.fwSwapState 1)

/-- fw.confirm raises c to the SVN that runs (18 R488). -/
def immFwConfirm (s : State) : Code × State :=
  let v := s.obj Key.fwSvn
  if s.obj Key.secSvn = v then (Res.already, s)
  else if s.sec.svns.1 < v ∨ s.sec.svns.2 < v then (Res.state, s)
  else (Res.done, (s.setObj Key.secSvn v).setObj Key.secSvnLeft (127 - v))

/-- The swap fails: the old image serves on, with a code that the spec does not name, a free value other than DONE and DEFERRED (18 R486; notes/assumptions/35.md). -/
def swapFails (s : State) : State :=
  let (n, s1) := s.drawNat 17
  ((s1.setObj Key.fwSwapState 0).setObj Key.fwSwapResult (if n + 1 < Res.deferred then n + 1 else n + 2)).setObj Key.fwLoadState 4 |>.endBadOp

/-! ### Attestation (18 R483) -/

/-- Bytes 0 to 399 of the report, every digest taken now (18 Table 18-3). -/
def reportBody (s : State) (nonce : Bytes) : Bytes :=
  let flags := b2n (s.obj Key.secOwnerHash != 0) + 2 * b2n (s.obj Key.fwBootStatus != 0) + 4 * b2n (decide (s.obj Key.secSvn < s.obj Key.fwSvn)) +
    8 * b2n (bit (s.obj Key.statusPromise) 4)
  natLE 4 0x4D415431 ++ natLE 2 1 ++ natLE 2 (s.obj Key.spanNode) ++ natLE 10 s.time ++ natLE 1 (s.obj Key.secSvn) ++ natLE 1 flags ++
    natLE 4 (s.obj Key.fwVersion) ++ natLE 4 (s.obj Key.fwStage1Version) ++ natLE 4 (s.obj Key.trLibVersion) ++ padTo 32 (nonce.take 32) ++
    natLE 48 s.sec.firmware.hash ++ natLE 48 s.sec.stage1.hash ++
    sha384 ((List.range 32).flatMap fun n => natLE 48 (s.obj (Key.trDigest n))) ++
    sha384 ((List.range 256).flatMap fun m => sha384 (natLE 262144 (s.obj (Key.maskTable m)))) ++
    s.cfgDigest s.time ++ natLE 48 (s.obj Key.secOwnerHash) ++ sha384 (natLE 97 (s.obj Key.secDevKey))

/-- att.nonce: BUSY while a report is built (18 R483). -/
def immAttNonce (nonce : Bytes) (s : State) : Code × State :=
  if s.obj Key.attState = 1 then (Res.busy, s)
  else (Res.done, (s.withSec { s.sec with report := s.reportBody nonce, signAfter := (s.recd.segments.filter fun x => x.stage == 1).map (·.id) }).setObj Key.attState 1)

/-- sec.owner.key: programmed once, with a point on P-384 (18 R484; 13 R353). -/
def immSecOwnerKey (key : Bytes) (s : State) : Code × State :=
  if s.obj Key.secOwnerHash ≠ 0 then (Res.locked, s)
  else if (pointOf key).isNone then (Res.range, s)
  else (Res.done, (s.setObj Key.secOwnerKey (leNat key)).setObj Key.secOwnerHash (leNat (sha384 key)))

end State

/-- The command fw.load (18 R485). -/
def execFwLoad (addr len : Nat) (s : State) : Out := .next (s.act (State.immFwLoad addr len))

/-- The image has been read from DRAM and checked: it is written over what its place held, or the load fails. A load for the inactive slot withdraws the image verified there (18 R477, R485). -/
def execFwLoadChecked (s : State) : Out :=
  match s.sec.load with
  | none => .next s
  | some (addr, len) =>
    if s.obj Key.fwLoadState ≠ 1 ∨ s.outstanding .firmware then .next s else
    let ((b, _), s) := s.takeRead .firmware addr len
    let code := checkImage (natLE 48 (s.obj Key.secRootHash)) (s.obj Key.secSvn) b
    if code ≠ Res.done then .next (s.endLoad 4 code) else
    let kind := leNat ((b.drop 6).take 1)
    let flash := if kind = 1 then tabSet none (tabSet none s.sec.flash 0 none) 1 none else tabSet none s.sec.flash (3 - s.obj Key.fwActive) none
    .next (((s.withSec { s.sec with loading := imageOf b, loadKind := kind, verified := if kind = 2 then {} else s.sec.verified, flash := flash })).setObj Key.fwLoadState 2)

/-- The image has been written and read back: a firmware image is VERIFIED, or has failed; stage 1 is in both copies (18 R485; notes/assumptions/36.md). -/
def execFwLoadVerified (ok : Bool) (s : State) : Out :=
  if s.obj Key.fwLoadState ≠ 2 then .next s
  else if s.sec.loadKind = 1 then
    let s1 := s.withSec { s.sec with svns := (s.sec.loading.svn, s.sec.loading.svn), flash := tabSet none (tabSet none s.sec.flash 0 (some s.sec.loading)) 1 (some s.sec.loading) }
    .next (s1.endLoad (if s.sec.verified = ({ } : Image) then 0 else 3) Res.done)
  else if ok then .next (((s.withSec { s.sec with verified := s.sec.loading, flash := tabSet none s.sec.flash (3 - s.obj Key.fwActive) (some s.sec.loading) })).endLoad 3 Res.done)
  else .next (s.endLoad 4 Res.auth)

/-- The command fw.swap (18 R486). -/
def execFwSwap (s : State) : Out := .next (s.act State.immFwSwap)

/-- PREPARE ends: HANDOVER begins, or the new firmware has failed its check (18 R486). -/
def execFwPrepareDone (ok : Bool) (s : State) : Out :=
  if s.obj Key.fwSwapState ≠ 1 then .next s
  else if !ok then .next s.swapFails
  else .next (((s.withSec { s.sec with swapAt := s.wall })).setObj Key.fwSwapState 2)

/-- The new firmware serves: boot record, fw.active, fw.handover and the event (18 R486). -/
def execFwHandoverDone (s : State) : Out :=
  if s.obj Key.fwSwapState ≠ 2 then .next s else
  let x := s.sec.verified
  let s1 := s.withSec { s.sec with firmware := x, verified := {}, bootSeq := (s.sec.bootSeq + 1) % 2 ^ 32, record := some (1 - s.obj Key.fwActive) }
  let s2 := (((s1.setObj Key.fwActive (1 - s.obj Key.fwActive)).setObj Key.fwVersion x.version).setObj Key.fwSvn x.svn).setObj Key.fwHandover (s.wall - s.sec.swapAt)
  .next (((s2.setObj Key.fwSwapState 0).setObj Key.fwSwapResult Res.done).setObj Key.fwLoadState 0).firmwareEvent.endBadOp

/-- The new firmware does not serve within 200,000 ticks: the old image serves on (18 R486). -/
def execFwHandoverTimeout (s : State) : Out :=
  if s.obj Key.fwSwapState ≠ 2 ∨ s.wall < s.sec.swapAt + 200000 then .next s
  else .next (s.setObj Key.fwHandover (s.wall - s.sec.swapAt)).swapFails

/-- The command fw.confirm (18 R488). -/
def execFwConfirm (s : State) : Out := .next (s.act State.immFwConfirm)

/-- The command att.nonce (18 R483). -/
def execAttNonce (nonce : Bytes) (s : State) : Out := .next (s.act (State.immAttNonce nonce))

/-- The report is signed and in att.report; the signer first serves the manifests that waited when it was asked for (18 R481, R483). -/
def execAttReportReady (s : State) : Out :=
  if s.obj Key.attState ≠ 1 ∨ s.recd.segments.any (fun x => x.stage == 1 && s.sec.signAfter.contains x.id) then .next s else
  let sig := padTo 96 ((Config.signature s.free s.sec.report).take 96)
  .next (((s.withFree (s.free + 1)).setObj Key.attReport (leNat (s.sec.report ++ sig))).setObj Key.attState 2)

/-- The command sec.owner.key (18 R484). -/
def execSecOwnerKey (key : Bytes) (s : State) : Out := .next (s.act (State.immSecOwnerKey key))

/-- Every 400,000,000 ticks the scrub of the configuration memories finds words: each is counted, and an uncorrectable one waits for its restore (18 R490). -/
def execConfigScrub (corrected uncorrectable : Nat) (s : State) : Out :=
  if s.wall < s.sec.scrubAt + 400000000 then .next s else
  let s1 := (s.addObj Key.svcSramCe corrected).addObj Key.svcSramUe uncorrectable
  .next (s1.withSec { s1.sec with restoring := s1.sec.restoring || uncorrectable != 0, scrubAt := s1.wall })

/-- The restore engine has rewritten the words from their committed values (18 R490). -/
def execConfigRestoreDone (s : State) : Out := .next (s.withSec { s.sec with restoring := false })

/-- The excursion that an uncorrectable word of a data memory began is over (18 R491). -/
def execUeExcursionEnd (s : State) : Out :=
  match s.cond.excursionUntil with
  | none => .next s
  | some t => if s.wall < t then .next s else .next (s.withCond { s.cond with excursionUntil := none }).refreshConditions

/-- The locks of RWL objects (13 R355). -/
def immBoardLock (s : State) : Code × State :=
  if s.sec.boardLock then (Res.already, s) else (Res.done, (s.withSec { s.sec with boardLock := true }))
def immKeysLock (s : State) : Code × State :=
  if s.sec.keysLock then (Res.already, s) else (Res.done, (s.withSec { s.sec with keysLock := true }))

/-- The command board.lock (13 R355, Table 13-6). -/
def execBoardLock (s : State) : Out := .next (s.act immBoardLock)

/-- The command pp.keys.lock (13 R355, Table 13-11). -/
def execPpKeysLock (s : State) : Out := .next (s.act immKeysLock)

/-- The ASCII bytes "MV3MASK1". -/
def maskPrefix : Bytes := natBE 8 0x4D56334D41534B31

/-- With an owner key, a mask table needs a signature of its entry of sec.mask.sig (18 R484). -/
def rulesSecurity (s : State) (g : Group) : Option Code :=
  if s.obj Key.secOwnerHash = 0 then none else
  eachOf ((List.range 256).filter fun m => g.has (Key.maskTable m)) fun m =>
    refuse (!verifySig (natLE 97 (s.obj Key.secOwnerKey)) (maskPrefix ++ natLE 262144 (s.staged g (Key.maskTable m))) (natLE 96 (fieldAt (s.staged g Key.secMaskSig) (96 * m) 96))) Res.auth

end Sys2Proof.Machine
end

