-- ==== Sys2Proof/Machine/Dictionary.lean ====
section
/-! DEFINITION. The dictionary: existence, values as read, the checks of a write, and the writes that act on receipt (13 R350 to R360). -/

namespace Sys2Proof.Machine

/-! ### Existence and reading (13 R350, R353, R360) -/

/-- Is the index one of the reserved range that reads zero (13 R360)? -/
def reservedIndex (ix : Nat) : Bool := decide (0x4000 ≤ ix ∧ ix ≤ 0x4FFF)

/-- DONE for an object that exists, else NO_OBJECT or NO_SUBINDEX (13 R350, R360). -/
def existsCode (k : Nat) : Code :=
  if reservedIndex (k / 256) then Res.done
  else if !indexImplemented (k / 256) then Res.noObject
  else if k % 256 = 0 ∨ (rowOf k).isSome then Res.done
  else Res.noSubindex

/-- The type of whatever a key names: subindex 0 is a U8, the reserved range a U32 (13 R350, R360). -/
def typeAt (k : Nat) : ObjTy := if reservedIndex (k / 256) then .u32 else if k % 256 = 0 then .u8 else tyOf k

/-- May the object be read (13 R353)? -/
def mayRead (k : Nat) : Bool :=
  reservedIndex (k / 256) || k % 256 == 0 || (match accessOf k with | .ro | .rw | .rwl => true | _ => false)

namespace State

/-- The coefficients of a view's window in force, none while the view is off (05 R135). -/
def viewCoeffs (s : State) (v : Nat) : List Int :=
  if s.flag (Key.viewEnable v) then windowCoeffs (s.obj (Key.viewWindow v)) (s.obj (Key.viewWindowParam v)) (s.obj (Key.viewSize v)) (s.obj (Key.viewWindowUser v)) else []

/-- view.poi: N + H − 1 samples of the first port's output in fraction units, truncated (05 R149). -/
def viewPoi (s : State) (v : Nat) : Nat :=
  let r := s.obj (Key.feRate (s.obj (Key.viewPortFirst v)))
  if !s.flag (Key.viewEnable v) ∨ r = 0 then 0 else (s.obj (Key.viewSize v) + s.obj (Key.viewHop v) - 1) * 1000 * 400000000 * tick / r

/-- disp.fence: the frame in progress counts as soon as none of its fetches is outstanding (16 R439). -/
def fenceNow (s : State) (h : Nat) : Nat :=
  if (s.head h).inFrame ∧ !s.headFetching h then s.obj (Key.dispFrame h) - 1 else s.obj (Key.dispFence h)

/-- The value of an object as a read finds it: most objects hold their value; some are read from what they report (02 R42; 05 R135, R149; 11 R300; 16 R439; 17 R462,
R467; 18 R475, R480, R482). -/
def liveValue (s : State) (k : Nat) : Nat :=
  let unit := k / 256
  if k = Key.ksNow then s.time
  else if k = Key.ringHeld then s.heldImage
  else if k = Key.ringUsable then s.usableBlocks
  else if k = Key.ringRate then (ringRateOf s.obj).floor.toNat
  else if k = Key.ringHorizon then s.horizonNow
  else if k = Key.secCfgDigest then leNat (s.cfgDigest s.time)
  else if k = Key.secDevKeyid then leNat (sha384 (natLE 97 (s.obj Key.secDevKey)))
  else if k = Key.secSvnLeft then 127 - s.obj Key.secSvn
  else if k = Key.monState then s.monStateNow
  else if 0x1350 ≤ unit ∧ unit < 0x1360 ∧ k % 256 = 1 then s.monValueNow (unit - 0x1350)
  else if 0x1800 ≤ unit ∧ unit < 0x1802 ∧ k % 256 = 0x13 then s.fenceNow (unit - 0x1800)
  else if 0x2800 ≤ unit ∧ unit < 0x2A00 then
    let v := unit - 0x2800
    if k = Key.viewWindowSum v then ofSigned 64 ((s.viewCoeffs v).foldl (· + ·) 0)
    else if k = Key.viewEnbw v then windowEnbw (s.obj (Key.viewSize v)) (s.viewCoeffs v)
    else if k = Key.viewPoi v then s.viewPoi v
    else s.obj k
  else s.obj k

/-- The byte image of an object's value; view.window.table has the length that N gives it (05 R135). -/
def valueImage (s : State) (k : Nat) : Bytes :=
  let unit := k / 256
  if reservedIndex unit then zeros 4
  else if k % 256 = 0 then natLE 1 (highestSub unit)
  else if 0x2800 ≤ unit ∧ unit < 0x2A00 ∧ k = Key.viewWindowTable (unit - 0x2800) then
    let v := unit - 0x2800
    let code := s.obj (Key.viewWindow v)
    let n := s.obj (Key.viewSize v)
    if s.flag (Key.viewEnable v) then windowTable code n (s.viewCoeffs v) else zeros (if code = 6 then 4 * n else 4 * (n / 2 + 1))
  else valueBytes k (s.liveValue k)

/-- A read of an object: its code and byte image (13 R350, R353). -/
def readObject (s : State) (k : Nat) : Code × Bytes :=
  if existsCode k ≠ Res.done then (existsCode k, [])
  else if !mayRead k then (Res.access, [])
  else (Res.done, s.valueImage k)

/-- A read of an object by a request received before a tick edge: ks.now is the Keystone time of that edge (02 R44), every other object is read now. -/
def readReceived (s : State) (received : KTime) (k : Nat) : Code × Bytes := if k = Key.ksNow then (Res.done, natLE 10 received) else s.readObject k

end State

/-! ### The checks of one write (01 R34 step 5; 13 R351 to R356) -/

/-- Is a byte list valid UTF-8 with no zero byte (13 Table 13-1)? need counts continuation bytes still due, low and high bound the next of them. -/
def utf8From : Nat → Nat → Nat → Bytes → Bool
  | need, _, _, [] => need == 0
  | 0, _, _, b :: r =>
    let x := b.toNat
    if x = 0 then false
    else if x < 0x80 then utf8From 0 0x80 0xBF r
    else if 0xC2 ≤ x ∧ x ≤ 0xDF then utf8From 1 0x80 0xBF r
    else if 0xE0 ≤ x ∧ x ≤ 0xEF then utf8From 2 (if x = 0xE0 then 0xA0 else 0x80) (if x = 0xED then 0x9F else 0xBF) r
    else if 0xF0 ≤ x ∧ x ≤ 0xF4 then utf8From 3 (if x = 0xF0 then 0x90 else 0x80) (if x = 0xF4 then 0x8F else 0xBF) r
    else false
  | n + 1, lo, hi, b :: r => decide (lo ≤ b.toNat ∧ b.toNat ≤ hi) && utf8From n 0x80 0xBF r

/-- Does a value's length suit the object (13 R352)? -/
def lengthOk (k n : Nat) : Bool := if isImage k || tyOf k == .str then decide (n ≤ lenOf k) else n == lenOf k

/-- Is a value of the right length inside the object's fixed range (13 R351, R352; 01 R34 step 5; 13 R378)? -/
def valueOk (k : Nat) (b : Bytes) : Bool :=
  let ty := tyOf k
  let v := leNat b
  match ty with
  | .bool => decide (v ≤ 1)
  | .f32 => decide (v / 2 ^ 23 % 256 ≠ 255)
  | .str => utf8From 0 0x80 0xBF b
  | .blob =>
    if k = Key.laneEq then (List.range 128).all (eqEntryOk v)
    else if k = Key.trussEq then (List.range 20).all (trussEqOk v)
    else if k = Key.monSeq then monSeqOk v
    else !(decide (0x1721 ≤ k / 256 ∧ k / 256 ≤ 0x1728) && k % 256 == 1 && v != 0 && (pointOf b).isNone)
  | _ => match rowOf k with
    | some r => r.rng.ok (if ty.signed then toSigned (8 * r.len) v else v)
    | none => true

namespace State

/-- Is an RWL object locked, or a WO1 object written (13 R353, R355)? -/
def isLocked (s : State) (k : Nat) : Bool :=
  match accessOf k with
  | .rwl => if k / 256 = 0x1000 then s.sec.boardLock else s.sec.keysLock
  | .wo1 => s.obj Key.secOwnerHash != 0
  | _ => false

/-- The code of one write: existence, type and length, access and path, lock, fixed range (01 R34 step 5; 13 R350 to R356). now: an immediate write. -/
def checkWrite (s : State) (now : Bool) (w : RawWrite) : Code :=
  if existsCode w.key ≠ Res.done then existsCode w.key
  else if reservedIndex (w.key / 256) ∨ w.key % 256 = 0 then Res.access
  else if w.ty ≠ (tyOf w.key).code ∨ !lengthOk w.key w.value.length then Res.type
  else if accessOf w.key = .ro ∨ actsOnReceipt w.key ≠ now then Res.access
  else if s.isLocked w.key then Res.locked
  else if !valueOk w.key w.value then Res.range
  else Res.done

/-- pp.sess.close: ALREADY when closed (13 Table 13-11). -/
def immSessClose (n : Nat) (s : State) : Code × State := if s.obj (Key.ppSessState n) = 0 then (Res.already, s) else (Res.done, s.closeSession n)

/-- A write of an object of Table 13-3, its value as a byte image (13 R356). -/
def immediate (k : Nat) (b : Bytes) (s : State) : Code × State :=
  let ix := k / 256
  let v := leNat b
  if k = Key.ksLoad then immKsLoad v s
  else if ix = 0x1012 then immAbutmentClear s
  else if ix = 0x101B then immGirderRetire (k % 256 - 1) s
  else if ix = 0x1502 then immPierRestart (k % 256 - 1) s
  else if 0x1580 ≤ ix ∧ ix < 0x1600 then immLinkArrivalClear (ix - 0x1580) s
  else if ix = 0x1900 then immMemSpeedReq v s
  else if 0x1980 ≤ ix ∧ ix < 0x1990 then immMemchRetrain (ix - 0x1980) s
  else if ix = 0x1910 then immRingSlabs v s
  else if 0x1A08 ≤ ix ∧ ix < 0x1A0C then immRecDriveRestart (ix - 0x1A08) s
  else if 0x1A10 ≤ ix ∧ ix < 0x1A20 then immRecNsRead (ix - 0x1A10) (fieldAt v 0 8) (fieldAt v 8 8) (fieldAt v 16 8) s
  else if 0x3000 ≤ ix ∧ ix < 0x3400 then immCtxAbort (ix - 0x3000) s
  else if ix = 0x1000 then immBoardLock s
  else if ix = 0x1720 then immKeysLock s
  else if 0x1731 ≤ ix ∧ ix ≤ 0x1740 then immSessClose (ix - 0x1730) s
  else if k = Key.secOwnerKey then immSecOwnerKey b s
  else if k = Key.fwLoad then immFwLoad (fieldAt v 0 8) (fieldAt v 8 8) s
  else if k = Key.fwSwap then immFwSwap s
  else if k = Key.fwConfirm then immFwConfirm s
  else if k = Key.attNonce then immAttNonce b s
  else if 0x1608 ≤ ix ∧ ix < 0x160C then immTrussRestart (ix - 0x1608) s
  else (Res.access, s)

/-- An immediate write: STATE before READY, then its checks, then what it does; a code other than DONE and DEFERRED leaves the state as it was (13 R357, R359; 19
R504). -/
def writeImmediate (s : State) (w : RawWrite) : Code × State :=
  if !s.ready then (Res.state, s) else
  let c := s.checkWrite true w
  if c ≠ Res.done then (c, s) else
  let r := immediate w.key w.value s
  if r.1 = Res.done ∨ r.1 = Res.deferred then r else (r.1, s)

end State

end Sys2Proof.Machine
end

