-- ==== Sys2Proof/Machine/Commit.lean ====
section
/-! DEFINITION. Commit groups: their checks, acceptance, and what happens at T (01 R33 to R39; 02 R52, R53). -/

namespace Sys2Proof.Machine

namespace State

/-! ### Validation (01 R34) -/

/-- The pending groups: those whose T has not come (01 R35). -/
def pendingGroups (s : State) : List Group := s.groups.filter fun g => decide (s.time < g.t)

/-- The first of a list of writes that fails its check: code and index (01 R34 step 5). -/
def firstBadWrite (s : State) : List RawWrite → Nat → Option (Code × Nat)
  | [], _ => none
  | w :: r, i => let c := s.checkWrite false w; if c = Res.done then firstBadWrite s r (i + 1) else some (c, i)

/-- The group that raw writes stand for. -/
def groupOf (t : KTime) (ws : List RawWrite) : Group := { t := t, writes := ws.map fun w => (w.key, valueOf w.key w.value) }

/-- The refusal rules of the chapters in ascending chapter number (01 R34 step 6). iface: the interface a Pelpin group came by. -/
def chapterRules (s : State) (g : Group) (iface : Option Nat) : Option Code :=
  firstOf [rulesTimebase s g, rulesIngest s g, rulesFrontEnd s g, rulesViews s g, rulesProducts s g, rulesTriggers s g, rulesContexts s g, rulesTrestle s g,
    rulesMemory s g, rulesRing s g, rulesRecorder s g, rulesHost s g, rulesNetwork s g iface, rulesTruss s g, rulesDisplay s g, rulesPower s g, rulesSecurity s g]

/-- Admission of the configuration that the group leaves in force at T: POWER when only the budget is short, else CAPACITY (01 R34 step 7, R37, R38; 05 R129, R155). -/
def admission (s : State) (g : Group) : Option Code :=
  let v := s.staged g
  let views := s.countedViews v fun w => (g :: s.pendingGroups.filter fun h => decide (h.t ≤ g.t)).any fun h => h.hasIndex (0x2800 + w)
  if !s.fixedPasses v || decide (100663296 < deckSram v (unitsOn v 0x2800 512)) then some Res.capacity
  else if s.deckPasses v views (v Key.tolBudget) then none
  else if s.deckPasses v views 260 then some Res.power
  else some Res.capacity

/-- The code of a group and the index of its first failing write, in the order of R34 (01 R34; 13 R358; 19 R504). -/
def validateGroup (s : State) (t : KTime) (ws : List RawWrite) (iface : Option Nat) : Code × Nat :=
  let keys := ((s.pendingGroups.filter fun g => g.t == t).flatMap fun g => g.writes.map (·.1))
  if !s.ready then (Res.state, 0xFFFF)
  else if ws.isEmpty ∨ 1024 < ws.length then (Res.range, 0xFFFF)
  else if t < s.time + 4000 * tick then (Res.tooLate, 0xFFFF)
  else if s.time + 2 ^ 48 * tick < t then (Res.range, 0xFFFF)
  else if 16 ≤ s.pendingGroups.length then (Res.busy, 0xFFFF)
  else match ws.findIdx? (fun w => keys.contains w.key) with
  | some i => (Res.state, i)
  | none => match s.firstBadWrite ws 0 with
    | some x => x
    | none =>
      let g := groupOf t ws
      match firstOf [s.chapterRules g iface, s.admission g] with
      | some c => (c, 0xFFFF)
      | none => (Res.done, 0xFFFF)

/-- Accepts a group: it is pending, fades and generations are fixed, and a raise of the budget moves the supply (01 R34, R35; 04 R121; 08 R225; 17 R451). -/
def acceptGroup (s : State) (g : Group) : State :=
  let s1 := acceptContexts ((acceptFades s g).acceptPower g) g
  s1.withGroups (s1.groups ++ [g])

/-- Submits a group: accepted whole or not at all (01 R34; 13 R357). -/
def submitGroup (s : State) (t : KTime) (ws : List RawWrite) (iface : Option Nat) : (Code × Nat) × State :=
  let r := s.validateGroup t ws iface
  if r.1 = Res.done then (r, s.acceptGroup (groupOf t ws)) else (r, s)

/-! ### Effect at T (01 R33, R35) -/

/-- One write takes effect: the value before it is kept for units that started earlier; a command becomes due, once for its group (07 R206). A program image keeps its own length. -/
def applyWrite (t : KTime) (s : State) (w : Nat × Nat) : State :=
  let s1 := s.withUndo (s.undo ++ [(t, w.1, s.obj w.1)])
  if accessOf w.1 = .cmd then (if s1.due.contains (w.1, t) then s1 else s1.withDue (s1.due ++ [(w.1, t)]))
  else if isImage w.1 then (s1.withDict (tabSet (defaultOf w.1) s1.dict w.1 w.2))
  else s1.setObj w.1 w.2

/-- What the chapters say happens at T. -/
def commitChapters (s : State) (g : Group) (old : Nat → Nat) : State :=
  let s1 := commitSysref (commitTai (commitLo s g old) g old) g
  let s2 := commitFrontEnd (commitIngest s1 g old) g old
  let s3 := commitTriggers (commitProducts (commitViews s2 g old) g old) g old
  let s4 := commitTrestle (commitContexts s3 g old) g old
  let s5 := commitRecorder (commitRing (commitMemory s4 g old) g old) g old
  let s6 := commitNetwork (commitHost s5 g old) g old
  commitPower (commitDisplay (commitTruss s6 g old) g old) g old

/-- The earliest T of the groups that is at or before now. -/
def dueTime (s : State) : Option KTime :=
  (s.groups.filter fun g => decide (g.t ≤ s.time)).foldl (fun a g => match a with | none => some g.t | some b => some (min b g.t)) none

/-- The groups at t take effect together; a Keystone step among their writes makes time jump, and every port front end resets at T + D (01 R33, R35; 02 R52,
R53). The answer says whether there was one. -/
def takeGroup (s : State) (t : KTime) : Bool × State :=
  let g : Group := { t := t, writes := (s.groups.filter fun g => g.t == t).flatMap (·.writes) }
  let s1 := s.withGroups (s.groups.filter fun x => x.t != t)
  let s2 := ((g.writes.foldl (State.applyWrite t) s1).commitChapters g s.obj).readmit.refreshSpares
  match g.write? Key.ksStep with
  | none => (false, s2)
  | some d => (true, (s2.stepTime t d).scheduleReset (t + d))

/-- Controls and ramps up to the coming edge, after a step (02 R53, R61; 06 R181). -/
def stepControls (s : State) (t : KTime) : State := (s.fectlSkip.fectlCatchUp 16384).rampTo (t / tick) true

/-- At a step, the groups with a T that time has jumped over, in ascending order, each after the controls and ramp starts before it (02 R53). -/
def takeJumped (s : State) : Nat → State
  | 0 => s
  | fuel + 1 => match s.dueTime with
    | none => s
    | some t => takeJumped ((s.stepControls t).takeGroup t).2 fuel

/-- The rest of a step, when time has jumped: the groups, control entries and ramp starts up to T + D are taken, the outputs take the phase that their schedules name
there, and the release edges of the skipped interval do not occur (02 R53, R61; 03 R76; 06 R176, R181). -/
def finishStep (s : State) : State :=
  let s1 := s.takeJumped s.groups.length
  let s2 := (List.range 8).foldl (fun x n => x.refreshSw n) s1
  (s2.stepControls s2.time).skipEdges

end State

/-- The groups with the earliest T that has come take effect together (01 R33, R35), and at a Keystone step those that time jumps over (02 R53). -/
def execCommitTakesEffect (s : State) : Out :=
  match s.dueTime with
  | none => .next s
  | some t =>
    let r := s.takeGroup t
    .next (if r.1 then r.2.finishStep else r.2)

end Sys2Proof.Machine
end

