-- ==== Sys2Proof/Machine/HostPort.lean ====
section
/-! DEFINITION. The host interface: registers and access errors, mailbox, dictionary port, MSI-X messages, BAR2, and resets of the interface (12 R321 to R337). -/

namespace Sys2Proof.Machine

/-! ### Registers as read (12 R324, R325, Tables 12-2 to 12-11) -/

namespace State

/-- STATUS (12 Table 12-3). -/
def statusReg (s : State) : Nat :=
  let p := s.pcie
  b2n (bit (s.obj Key.statusPromise) 4) + 2 * b2n p.accErr + 4 * b2n p.mboxBusy + 8 * b2n p.dcBusy + 16 * b2n p.apBusy + 32 * b2n s.fwReady +
    64 * b2n (s.obj Key.fwSwapState == 2) + 128 * b2n p.groupOpen + 65536 * ((List.range 16).foldl (fun a m => a + 2 ^ m * b2n ((s.mover m).state == mvHalted)) 0)

/-- MBOX_STAT (12 Table 12-5): the stored VALID, CODE and WORDS with BUSY. -/
def mboxStatReg (s : State) : Nat := s.pcie.mboxStat + 2 * b2n s.pcie.mboxBusy

/-- The Device Serial Number: the last 8 bytes of KEYID, most significant first (12 R321; 18 R480). -/
def deviceSerial (s : State) : Nat := beNat ((sha384 (natLE 97 (s.obj Key.secDevKey))).drop 40)

/-- A dword of the configuration header as the endpoint presents it (12 R321, R322, Table 12-1): identity, class code and revision, the kinds of BAR0 and BAR2,
BAR4 and BAR5, subsystem identity, and no interrupt pin. -/
def configHeader (dword : Nat) : Nat :=
  match dword with
  | 0 => 0x03011EAB
  | 2 => 0x11800001
  | 4 => 4
  | 6 => 4
  | 11 => 0x03011EAB
  | _ => 0

/-- The registers of a mover channel (12 Tables 12-2, 12-7, 12-8). -/
def moverReg (s : State) (m off : Nat) : Nat :=
  let x := s.mover m
  match off with
  | 0x00 => b2n x.run
  | 0x04 => x.state + 16 * x.cause + 256 * x.code + 65536 * x.retries
  | 0x08 => x.head % 65536
  | 0x0C => x.tail % 65536
  | 0x10 => x.pos % 2 ^ 32
  | 0x14 => x.elem % 2 ^ 32
  | 0x18 => x.done
  | _ => 0

/-- An entry dword of the MSI-X table; vectors are masked at reset, as the PCI Express Base Specification has it (notes/assumptions/37.md). -/
def msixDefault (i : Nat) : Nat := if i % 4 = 3 then 1 else 0
def msixDword (s : State) (i : Nat) : Nat := tabGet (msixDefault i) s.pev.msixTable i

/-- A BAR0 register as read; reserved locations read zero (12 R325). -/
def bar0Read (s : State) (off : Nat) : Nat :=
  let p := s.pcie
  if 0x400 ≤ off ∧ off < 0x800 then s.moverReg ((off - 0x400) / 0x40) (off % 0x40)
  else if 0x180 ≤ off ∧ off < 0x1A0 then tabGet 0 s.pev.evtVec ((off - 0x180) / 4)
  else if 0x200 ≤ off ∧ off < 0x280 then tabGet 0 s.pev.evtCount ((off - 0x200) / 4)
  else if 0xE000 ≤ off ∧ off < 0xE400 then s.msixDword ((off - 0xE000) / 4)
  else if 0xF000 ≤ off ∧ off < 0xF008 then (List.range 32).foldl (fun a i => a + 2 ^ i * tabGet 0 s.pev.pendingVec (8 * (off - 0xF000) + i)) 0
  else match off with
  | 0x00 => 0x03011EAB
  | 0x04 => 1
  | 0x08 => s.statusReg
  | 0x10 => p.accAddr
  | 0x14 => p.accInfo
  | 0x18 => p.apReg
  | 0x40 => p.mboxSel
  | 0x44 => s.mboxStatReg
  | 0x48 => p.mboxData % 2 ^ 32
  | 0x4C => p.mboxData / 2 ^ 32 % 2 ^ 32
  | 0x50 => p.mboxData / 2 ^ 64 % 65536
  | 0x80 => p.dcCtrl
  | 0x84 => p.dcIndex
  | 0x88 => p.dcOffset
  | 0x8C => p.dcLen
  | 0x90 => p.dcData
  | 0x94 => p.dcStat
  | 0x100 => s.pev.evtEnable
  | 0x104 => s.pev.intGap
  | _ => 0

/-- A dword of the host-ring control block at its offset in the block (12 Table 12-11). -/
def ringReg (s : State) (off : Nat) : Nat :=
  let n := off / 0x40
  let r := s.hostRing n
  if 64 ≤ n then 0 else
  match off % 0x40 with
  | 0x00 => r.wptr
  | 0x04 => r.rptr
  | 0x08 => s.obj (Key.hrEntries n) % 2 ^ 32
  | 0x0C => b2n (s.flag (Key.hrEnable n)) + 2 * b2n r.waiting
  | _ => 0

/-! ### Register writes (12 R326 to R329) -/

/-- A write whose byte enables cover the dword, to a register that is not busy and takes it; any other is ignored and captured (12 R326). -/
def regWrite (s : State) (bar dword : Nat) (be : BitVec 4) (busy refused : Bool) (f : State → State) : State :=
  if be.toNat ≠ 15 then s.accessError 1 bar be.toNat dword
  else if busy then s.accessError 2 bar be.toNat dword
  else if refused then s.accessError 3 bar be.toNat dword
  else f s

/-- CONTROL: ACC_CLEAR empties the capture (12 R326). -/
def writeControl (s : State) (be : BitVec 4) (v : Nat) : State :=
  s.regWrite 0 3 be false false fun y => if bit v 0 then (y.withPcie { y.pcie with accErr := false, accAddr := 0, accInfo := 0 }) else y

/-- AP_BASE: posted; AP_BUSY until the aperture has moved (12 R328). -/
def writeApBase (s : State) (be : BitVec 4) (v : Nat) : State :=
  s.regWrite 0 6 be s.pcie.apBusy false fun y => (y.withPcie { y.pcie with apReg := v % 2 ^ 19, apBusy := true })

/-- MBOX_SEL: clears VALID, sets BUSY (12 R329). -/
def writeMboxSel (s : State) (be : BitVec 4) (v : Nat) : State :=
  s.regWrite 0 16 be s.pcie.mboxBusy false fun y =>
    y.withPcie { y.pcie with mboxSel := v % 2 ^ 24, mboxBusy := true, mboxAt := y.time, mboxStat := setBit y.pcie.mboxStat 0 false }

/-- DC_CTRL starts an operation; an OP outside 1 to 6 ends with RANGE (12 R328, R330). -/
def writeDcCtrl (s : State) (be : BitVec 4) (v : Nat) : State :=
  s.regWrite 0 32 be s.pcie.dcBusy false fun y =>
    (y.withPcie { y.pcie with dcCtrl := v % 32, dcBusy := true }).endBadOp

/-- MV_CTRL: RUN, and RESUME or SKIP of a HALTED channel (12 R338, R347). -/
def writeMvCtrl (s : State) (m : Nat) (be : BitVec 4) (v : Nat) : State :=
  let restart := bit v 1 || bit v 2
  s.mvWrite m 0 be (!restart || (s.mover m).state == mvHalted) fun y =>
    let x := y.mover m
    let x1 := { x with run := bit v 0 }
    if !restart then
      let y1 := y.putMover m x1
      if !bit v 0 ∧ x.desc.isSome ∧ x.state = mvRunning then y1 else y1.settleMover m
    else
      let x2 := { x1 with state := mvRunning, cause := 0, code := 0, retries := 0, tries := [] }
      let x3 := if bit v 1 then x2 else { x2 with desc := none, index := [], redo := [], tries := [], pos := 0, elem := 0, inElem := 0, head := (x.head + 1) % max 1 (y.obj (Key.mvDescCount m)) }
      (y.putMover m x3).settleMover m

/-- MV_TAIL (12 R338). -/
def writeMvTail (s : State) (m : Nat) (be : BitVec 4) (v : Nat) : State :=
  let takes := (s.mover m).state != mvDisabled && s.obj (Key.mvStartSource m) == 0 && decide (v < s.obj (Key.mvDescCount m))
  s.mvWrite m 0x0C be takes fun y => (y.putMover m { y.mover m with tail := v }).settleMover m

/-- HR_RPTR releases entries; waiting records go to the ring where they now fit (12 R337). -/
def writeHrRptr (s : State) (n : Nat) (be : BitVec 4) (v : Nat) : State :=
  s.regWrite 2 ((0x800000 + 0x40 * n + 4) / 4) be false (v % 64 != 0 || decide (s.obj (Key.hrSize n) ≤ v)) fun y =>
    let y1 := y.putHostRing n { y.hostRing n with rptr := v, waiting := false }
    let mine := y1.acq.records.filter fun r => r.state == 2 && !r.placed && y1.objAt (Key.ctxDestKind r.ctx) r.trigger == 2 && y1.objAt (Key.ctxDestNum r.ctx) r.trigger == n
    mine.foldl (fun z r => z.placeRecord r) y1

/-- Changes the registers that hold a plain value (12 Table 12-2). DESIGN CHOICE: EVT_ENABLE keeps and returns bits 31:18, whose event sources Table
12-9 reserves, as they are written; they enable nothing, since those sources never count (notes/assumptions/165.md). -/
def putPlain (s : State) (off v : Nat) : State :=
  let p := s.pcie
  if 0x180 ≤ off ∧ off < 0x1A0 then (s.withPev { s.pev with evtVec := tabSet 0 s.pev.evtVec ((off - 0x180) / 4) (v &&& 0x3F3F3F3F) })
  else if 0xE000 ≤ off ∧ off < 0xE400 then
    let i := (off - 0xE000) / 4
    s.withPev { s.pev with msixTable := tabSet (msixDefault i) s.pev.msixTable i v }
  else match off with
  | 0x84 => s.withPcie { p with dcIndex := v % 2 ^ 24 }
  | 0x88 => s.withPcie { p with dcOffset := v % 2 ^ 23 }
  | 0x8C => s.withPcie { p with dcLen := v % 2 ^ 24 }
  | 0x90 => s.withPcie { p with dcData := v }
  | 0x98 => s.withPcie { p with dcTime := setFieldAt p.dcTime 0 4 v }
  | 0x9C => s.withPcie { p with dcTime := setFieldAt p.dcTime 4 4 v }
  | 0xA0 => s.withPcie { p with dcTime := setFieldAt p.dcTime 8 2 v }
  | 0x100 => s.withPev { s.pev with evtEnable := v }
  | 0x104 => s.withPev { s.pev with intGap := v % 65536 }
  | _ => s

/-- Is a BAR0 offset a register, read-only or not (12 Table 12-2)? A write of a reserved location is ignored without an error (12 R325). -/
def isBar0 (off : Nat) : Bool :=
  [0x00, 0x04, 0x08, 0x0C, 0x10, 0x14, 0x18, 0x40, 0x44, 0x48, 0x4C, 0x50, 0x80, 0x84, 0x88, 0x8C, 0x90, 0x94, 0x98, 0x9C, 0xA0, 0x100, 0x104].contains off ||
  decide (0x180 ≤ off ∧ off < 0x1A0) || decide (0x200 ≤ off ∧ off < 0x280) || decide (0x400 ≤ off ∧ off < 0x800 ∧ off % 0x40 ≤ 0x18) ||
  decide (0xE000 ≤ off ∧ off < 0xE400) || decide (0xF000 ≤ off ∧ off < 0xF008)

/-- A write of a BAR0 location (12 R325 to R328). -/
def bar0Write (s : State) (off : Nat) (be : BitVec 4) (v : Nat) : State :=
  if off = 0x0C then s.writeControl be v
  else if off = 0x18 then s.writeApBase be v
  else if off = 0x40 then s.writeMboxSel be v
  else if off = 0x80 then s.writeDcCtrl be v
  else if 0x400 ≤ off ∧ off < 0x800 ∧ off % 0x40 = 0 then s.writeMvCtrl ((off - 0x400) / 0x40) be v
  else if 0x400 ≤ off ∧ off < 0x800 ∧ off % 0x40 = 0x0C then s.writeMvTail ((off - 0x400) / 0x40) be (v % 65536)
  else if isBar0 off then s.regWrite 0 (off / 4) be false false fun y => y.putPlain off v
  else s

/-- A write of the host-ring control block; its other locations are read-only or reserved (12 R333, Table 12-11). -/
def ringBlockWrite (s : State) (off : Nat) (be : BitVec 4) (v : Nat) : State :=
  if 0x1000 ≤ off then s
  else if off % 0x40 = 4 then s.writeHrRptr (off / 0x40) be v
  else if off % 0x40 ≤ 0x0C then s.regWrite 2 ((0x800000 + off) / 4) be false false id
  else s

end State

/-- CONTROL.ACC_CLEAR (12 R326). -/
def execAccClear (byteEnables : BitVec 4) (value : BitVec 32) (s : State) : Out := .next (s.writeControl byteEnables value.toNat)

/-- A register write (12 R325 to R327). offset is that of the dword in BAR0, or in the host-ring control block of BAR2. -/
def execRegisterWrite (bar2 : Bool) (offset : Nat) (byteEnables : BitVec 4) (value : BitVec 32) (s : State) : Out :=
  .next (if bar2 then s.ringBlockWrite offset byteEnables value.toNat else s.bar0Write offset byteEnables value.toNat)

/-- AP_BASE (12 R328). -/
def execApBaseWrite (byteEnables : BitVec 4) (value : BitVec 32) (s : State) : Out := .next (s.writeApBase byteEnables value.toNat)

/-- The aperture has moved (12 R328). -/
def execApMoveDone (s : State) : Out :=
  if !s.pcie.apBusy then .next s else .next (s.withPcie { s.pcie with apBase := s.pcie.apReg, apBusy := false })

/-- MBOX_SEL (12 R329). -/
def execMboxSelWrite (byteEnables : BitVec 4) (value : BitVec 32) (s : State) : Out := .next (s.writeMboxSel byteEnables value.toNat)

/-- The snapshot of the selected object is in place (12 R329). -/
def execMboxSnapshotDone (s : State) : Out :=
  if !s.pcie.mboxBusy then .next s else
  let k := s.pcie.mboxSel
  let (c, b) := s.readReceived s.pcie.mboxAt k
  let code := if c = Res.done ∧ (typeAt k).image then Res.type else c
  let p := s.pcie
  if code = Res.done then .next (s.withPcie { p with mboxBusy := false, mboxData := leNat b, mboxStat := 1 + 65536 * cdiv b.length 4 })
  else .next (s.withPcie { p with mboxBusy := false, mboxStat := p.mboxStat / 65536 * 65536 + 256 * code })

/-! ### Dictionary port (12 R330) -/

namespace State

/-- The bulk window: 8 MB. -/
def bulkSize : Nat := 8388608
def bulkBytes (s : State) (a n : Nat) : Bytes := (List.range n).map fun i => tabGet 0 s.pev.bulk (a + i)
def bulkWrite (s : State) (a : Nat) (b : Bytes) : State := s.withPev { s.pev with bulk := b.zipIdx.foldl (fun t e => tabSet 0 t (a + e.2) e.1) s.pev.bulk }

/-- Does an operation of the port wait to be executed: OP, BULK, and firmware that serves (12 R330; 18 R487; 19 R504)? -/
def dcDue (s : State) (op : Nat) : Bool := s.pcie.dcBusy && s.pcie.dcCtrl % 16 == op && s.fwReady
def dcBulk (s : State) (bulk : Bool) : Bool := bit s.pcie.dcCtrl 4 == bulk

/-- DC_DATA as it carries a scalar: the low bytes, sign-extended for signed types (12 R330). -/
def dcWord (ty : ObjTy) (b : Bytes) : Nat := if ty.signed then ofSigned 32 (toSigned (8 * b.length) (leNat b)) else leNat b

/-- The write that DC_INDEX, DC_DATA or the bulk window carry; a value that its type cannot hold keeps four bytes, and so fails its length (12 R330; 13 R352). none
where the value leaves the bulk window. -/
def dcWrite (s : State) (bulk : Bool) : Option RawWrite :=
  let p := s.pcie
  let k := p.dcIndex
  let ty := typeAt k
  let n := lenOf k
  if bulk then
    if bulkSize < p.dcOffset + p.dcLen then none else some { key := k, ty := ty.code, value := s.bulkBytes p.dcOffset p.dcLen }
  else if ty = .cmd then some { key := k, ty := 0, value := if p.dcLen = 0 then [] else natLE 4 p.dcData }
  else if ty.image ∨ 4 < n then some { key := k, ty := 0xFF, value := natLE 4 p.dcData }
  else
    let b := natLE n p.dcData
    some { key := k, ty := ty.code, value := if dcWord ty b = p.dcData then b else natLE 4 p.dcData ++ [0] }

end State

/-- READ (12 R330): a scalar of 32 bits or less in DC_DATA; with BULK a BLOB, RECORD or STR in the bulk window. -/
def execDcRead (bulk : Bool) (s : State) : Out :=
  if !s.dcDue 1 ∨ !s.dcBulk bulk then .next s else
  let k := s.pcie.dcIndex
  let (c, b) := s.readObject k
  if c ≠ Res.done then .next (s.endDc c)
  else if (typeAt k).image ≠ bulk ∨ (!bulk ∧ 4 < b.length) then .next (s.endDc Res.type)
  else if bulk then
    if State.bulkSize < s.pcie.dcOffset + b.length then .next (s.endDc Res.range) else .next ((s.bulkWrite s.pcie.dcOffset b).endDc Res.done)
  else .next (((s.withPcie { s.pcie with dcData := State.dcWord (typeAt k) b })).endDc Res.done)

/-- WRITE_NOW (12 R330; 13 R356). -/
def execWriteNow (bulk : Bool) (s : State) : Out :=
  if !s.dcDue 2 ∨ !s.dcBulk bulk then .next s else
  match s.dcWrite bulk with
  | none => .next (s.endDc Res.range)
  | some w => let r := s.writeImmediate w; .next (r.2.endDc r.1)

/-- GROUP_OPEN (12 R330; 19 R504). -/
def execGroupOpen (s : State) : Out :=
  if !s.dcDue 3 then .next s
  else if !s.ready ∨ s.pcie.groupOpen then .next (s.endDc Res.state)
  else .next ((((s.withPcie { s.pcie with groupOpen := true }).withPev { s.pev with groupT := s.pcie.dcTime, group := [] })).endDc Res.done)

/-- GROUP_ADD (12 R330). -/
def execGroupAdd (bulk : Bool) (s : State) : Out :=
  if !s.dcDue 4 ∨ !s.dcBulk bulk then .next s
  else if !s.pcie.groupOpen then .next (s.endDc Res.state)
  else if 1024 ≤ s.pev.group.length then .next (s.endDc Res.range)
  else match s.dcWrite bulk with
  | none => .next (s.endDc Res.range)
  | some w => .next (((s.withPev { s.pev with group := s.pev.group ++ [w] })).endDc Res.done)

/-- The open group is closed. -/
def State.closeGroup (s : State) : State := (s.withPcie { s.pcie with groupOpen := false }).withPev { s.pev with group := [], groupT := 0 }

/-- GROUP_COMMIT (12 R330; 01 R34). -/
def execGroupCommit (s : State) : Out :=
  if !s.dcDue 5 then .next s
  else if !s.pcie.groupOpen then .next (s.endDc Res.state)
  else
    let r := s.submitGroup s.pev.groupT s.pev.group none
    .next ((r.2.closeGroup).endDc r.1.1)

/-- GROUP_DISCARD (12 R330). -/
def execGroupDiscard (s : State) : Out :=
  if !s.dcDue 6 then .next s
  else if !s.pcie.groupOpen then .next (s.endDc Res.state)
  else .next ((s.closeGroup).endDc Res.done)

/-! ### MSI-X (12 R332) -/

/-- The message of a pending, unmasked vector whose gap has passed (12 R323, R332). -/
def execMsixMessage (vector : Fin 64) (s : State) : Out :=
  let v := vector.val
  let last := tabGet 0 s.pev.lastMessage v
  if tabGet 0 s.pev.pendingVec v = 0 ∨ bit (s.msixDword (4 * v + 3)) 0 ∨ !s.hostFlows ∨ (last ≠ 0 ∧ s.wall + 1 < last + s.pev.intGap) then .next s
  else .next (((s.withPev { s.pev with pendingVec := tabSet 0 s.pev.pendingVec v 0, lastMessage := tabSet 0 s.pev.lastMessage v (s.wall + 1) })).emit (.msix v (s.msixDword (4 * v) + 2 ^ 32 * s.msixDword (4 * v + 1)) (s.msixDword (4 * v + 2))))

/-! ### BAR2 (12 R333, R334) -/

/-- Bytes of an access with those that the byte enables leave out kept. -/
def mergeBytes (be : BitVec 4) (old new : Bytes) : Bytes := (old.zip new).zipIdx.map fun e => if be.getLsbD (e.2 % 4) then e.1.2 else e.1.1

namespace State

/-- Puts an aperture write into DRAM: one request for each burst, of the bytes that the byte enables name (12 R334). -/
def apertureWrite (s : State) (a : Nat) (be : BitVec 4) (data : Bytes) : State :=
  let mask := (List.range data.length).map fun i => be.getLsbD (i % 4)
  (bursts a data.length).foldl (fun y (lo, n) =>
    let m := (mask.drop (lo - a)).take n
    if m.any id then y.enqueue (.aperture y.mem.nextId) 3 true lo n ((data.drop (lo - a)).take n) m else y) s

/-- An aperture access: class-3 requests, or an access error outside the fixed region; a read completes once its data has come (12 R334). -/
def aperture (s : State) (write : Bool) (off : Nat) (be : BitVec 4) (data : Bytes) : State :=
  let a := s.pcie.apBase * 4194304 + off
  let n := data.length
  let dword := (0xC00000 + off) / 4
  if !s.inFixed a n then
    let s1 := s.accessError 4 2 be.toNat dword
    if write then s1 else s1.emit (.aperture (zeros n))
  else if write then
    s.apertureWrite a be data
  else
    let tag := s.mem.nextId
    let s1 := s.memRead (.aperture tag) 3 a n
    (s1.withPcie { s1.pcie with reads := s1.pcie.reads ++ [{ tag := tag, addr := a, len := n, be := be.toNat, dword := dword }] }).finishAperture

end State

/-- An access to BAR2 at an offset: the bulk window, the host-ring control block read dword by dword, the aperture; other locations read zero and ignore writes
(12 R325, R327, R333, R334). For a read, data gives its length. -/
def execApertureAccess (write : Bool) (offset : Nat) (byteEnables : BitVec 4) (data : Bytes) (s : State) : Out :=
  let n := data.length
  if offset < 0x800000 then
    if write then .next (s.bulkWrite offset (mergeBytes byteEnables (s.bulkBytes offset n) data)) else .next (s.emit (.aperture (s.bulkBytes offset n)))
  else if offset < 0x801000 then
    let dwords := (List.range (n / 4)).map (4 * ·)
    if write then .next (dwords.foldl (fun y i => y.ringBlockWrite (offset - 0x800000 + i) byteEnables (leNat ((data.drop i).take 4))) s)
    else .next (s.emit (.aperture (dwords.flatMap fun i => natLE 4 (s.ringReg (offset - 0x800000 + i)))))
  else if 0xC00000 ≤ offset ∧ offset < 0x1000000 then .next (s.aperture write (offset - 0xC00000) byteEnables data)
  else if write then .next s else .next (s.emit (.aperture (zeros n)))

/-- HR_RPTR (12 R337). -/
def execHrRptrWrite (n : Fin 64) (byteEnables : BitVec 4) (value : BitVec 32) (s : State) : Out := .next (s.writeHrRptr n.val byteEnables value.toNat)

/-! ### Resets of the interface and the link (12 R323; 15 R402; 19 R504) -/

namespace State

/-- Does a mover channel use host space: its ring, its burst or its index table (12 R323)? -/
def moverUsesHost (s : State) (m : Nat) : Bool :=
  let x := s.mover m
  x.state != mvDisabled && x.state != mvHalted &&
    (s.flag (Key.mvDescHost m) || (match x.desc with | some raw => (mvDesc raw).usesHost | none => false))

end State

/-- An FLR, hot reset or link loss: the registers, the MSI-X table, the mailbox, the dictionary port and its open group reset, and channels that use host space
halt (12 R323). The bulk window keeps its bytes; mover registers are those of channels (notes/assumptions/38.md). -/
def execHostInterfaceReset (kind : HostResetKind) (s : State) : Out :=
  let s1 := (List.range 16).foldl (fun y m => if y.moverUsesHost m then y.haltMover m 6 0 else y) s
  let mine (o : Owner) : Bool := match o with | .aperture _ => true | _ => false
  let s1 := (s1.abandonReads mine).dropArrived mine
  let up := s.pcie.linkUp && (match kind with | .flr => true | .hot | .linkLoss => false)
  .next ((s1.withPcie { ({ } : Pcie) with linkUp := up }).withPev { ({ } : PcieEvents) with bulk := s.pev.bulk }).refreshAnchor

/-- The host link comes up: the device is an anchor (12 R321; 15 R402). -/
def execPcieLinkUp (s : State) : Out :=
  if !s.start.released then .next s else .next (s.withPcie { s.pcie with linkUp := true }).refreshAnchor

/-- A configuration request changes Bus Master Enable or the power state (12 R323). -/
def execConfigurationRequest (busMaster : Option Bool) (d3hot : Option Bool) (s : State) : Out :=
  if !s.pcie.linkUp then .next s
  else .next (s.withPcie { s.pcie with busMaster := busMaster.getD s.pcie.busMaster, d3hot := d3hot.getD s.pcie.d3hot })

end Sys2Proof.Machine
end

