-- ==== Sys2Proof/Machine/LanePll.lean ====
section
/-! DEFINITION. Loss of lock of a lane PLL (02 R57). -/

namespace Sys2Proof.Machine

namespace State

/-- The lanes of a pier whose lane PLL has lost lock: pier recovery starts with the first extended multiblock that any of its links has not released; a pier in
start-up or in an attempt locks its lanes anew (02 R57; 03 R89, Table 3-4). -/
def losePierPll (s : State) (p : Nat) : State :=
  let ks := s.linksOfPier p
  if s.obj (Key.pierState p) = 2 then
    match ks.map fun k => (s.link k).edge (s.linkSt k).next with
    | [] => s
    | e :: r => s.startRecovery p (r.foldl min e)
  else
    let s1 := ks.foldl (fun x k => (x.lanesIn p k).foldl State.restartLane x) (if ks.isEmpty then s else s.linkError)
    if s.obj (Key.pierState p) = 1 ∨ s.obj (Key.pierState p) = 3 then s1.startPll p (s1.obj (Key.pierRate p)) else s1

/-- The lanes of a truss port whose lane PLL has lost lock all fail, and the port is DOWN (02 R57; 15 R417, R420; notes/assumptions/176.md). -/
def loseTrussPll (s : State) (p : Nat) : State := (s.logicalLanes p).foldl (fun x l => x.retireLane p l false) s

/-- The interfaces of an Ethernet port whose lane PLL has lost lock leave service (02 R57; 14 R396; notes/assumptions/176.md). -/
def loseEthPll (s : State) (p : Nat) : State :=
  (List.range 4).foldl (fun x l => if x.ifaceUp (4 * p + l) then x.restartIface (4 * p + l) else x) s

/-- A display head whose lane PLL has lost lock sends no video: it is in NO_SINK until it trains again (02 R57; 16 R429; notes/assumptions/176.md). -/
def loseHeadPll (s : State) (h : Nat) : State :=
  if s.obj (Key.dispState h) = 1 ∨ s.obj (Key.dispState h) = 2 then (s.noSink h).setObj (Key.lanepllState (22 + h)) 3 else s

end State

/-- A lane PLL loses lock: its state is lost and its lanes stop; for a pier, recovery follows (02 R57; 03 Table 3-4). In HOLDOVER the PLLs stay locked, and a PLL
that is not locked has none to lose: the command then finds nothing to do. -/
def execLanePllLoss (pll : Fin 24) (s : State) : Out :=
  if s.obj (Key.lanepllState pll.val) ≠ 2 ∨ s.obj Key.ksState = State.ksHoldover then .next s else
  let s1 := s.setObj (Key.lanepllState pll.val) 3
  .next (if pll.val < 16 then s1.losePierPll pll.val
    else if pll.val < 20 then s1.loseTrussPll (pll.val - 16)
    else if pll.val < 22 then s1.loseEthPll (pll.val - 20)
    else s1.loseHeadPll (pll.val - 22))

end Sys2Proof.Machine
end

