-- ==== Sys2Proof/Machine/Pelpin.lean ====
section
/-! DEFINITION. Pelpin: arrival and acknowledgement of requests, the operations, sessions, notifications and timeouts (13 R362 to R377). -/

namespace Sys2Proof.Machine

/-! ### Operation codes (13 Table 13-8); 0x83 stands for a GROUP packet of the truss (15 Table 15-4) -/

def opRead : Nat := 0x01
def opWrite : Nat := 0x02
def opCommit : Nat := 0x03
def opSubscribe : Nat := 0x04
def opNotify : Nat := 0x05
def opBulk : Nat := 0x06
def opOpen : Nat := 0x0E
def opClose : Nat := 0x0F
def opGroup : Nat := 0x83

/-- The operations that a requester sends. -/
def opKnown (op : Nat) : Bool := [opRead, opWrite, opCommit, opSubscribe, opBulk, opOpen, opClose].contains op

/-! ### Arrival (13 R364, R365, R373 to R376) -/

/-- What the replay window makes of a request (13 R374). -/
inductive PpClass where
  | accept
  | duplicate
  | stale
  deriving DecidableEq, Repr

/-- Distance from a up to b among TIDs. -/
def tidAhead (a b : Nat) : Nat := (b + 65536 - a % 65536) % 65536

/-- The classification of a request against E, H and the window (13 R374). begun: has the session accepted a request yet? -/
def ppClassify (begun : Bool) (e h : Nat) (window : List PpTid) (epoch tid : Nat) : PpClass :=
  let de := (epoch + 256 - e % 256) % 256
  if !begun then .accept
  else if 128 ≤ de then .stale
  else if 1 ≤ de then .accept
  else if 1 ≤ tidAhead h tid ∧ tidAhead h tid ≤ 32767 then .accept
  else if tidAhead tid h ≤ 63 then (if window.any fun w => w.tid == tid then .duplicate else .accept)
  else .stale

namespace State

/-- E, H and the window after a request is accepted; its TID is pending (13 R374). -/
def ppAdmit (s : State) (n epoch tid : Nat) : State :=
  let x := s.sess n
  let e := s.obj (Key.ppSessEpoch n)
  let h := s.obj (Key.ppSessTid n)
  let fresh := !x.begun || epoch != e
  let h' := if fresh || decide (1 ≤ tidAhead h tid ∧ tidAhead h tid ≤ 32767) then tid else h
  let kept := if fresh then [] else x.window.filter fun w => decide (tidAhead w.tid h' ≤ 63)
  let s1 := s.putSess n { x with begun := true, window := kept ++ [{ tid := tid, response := none }] }
  (s1.setObj (Key.ppSessEpoch n) epoch).setObj (Key.ppSessTid n) h'

/-- Is there room in the queue of a session and in the whole queue (13 R376)? -/
def ppRoom (s : State) (n : Nat) : Bool :=
  let mine := s.pel.queue.filter fun r => r.origin.isNone
  decide ((mine.filter fun r => r.session == n).length < 32 ∧ mine.length < 128)

/-- The acknowledgement of a request by the hardware responder (13 R375). -/
def ppAck (s : State) (r : PpRequest) (key : Bytes) (code : Code) (dup : Bool) : State :=
  let s1 := s.bump Key.ppAcks
  let s2 := if code = Res.auth then s1.bump Key.ppAuthFail else if code = Res.busy then s1.bump Key.ppBusy else if code = Res.staleId then s1.bump Key.ppStale else s1
  s2.ppSend r.iface r.src (ppFrame key r.op (2 + 8 * b2n dup) code r.session r.epoch r.tid r.node [])

/-- Puts a request at the end of the queue. -/
def ppEnqueue (s : State) (r : PpRequest) : State := s.withPel { s.pel with queue := s.pel.queue ++ [{ r with at' := s.time }] }

/-- An authenticated request of the handshake: it bypasses the window (13 R369). -/
def ppHandshake (s : State) (r : PpRequest) (key : Bytes) : State :=
  if s.ppRoom r.session then (s.ppEnqueue r).ppAck r key Res.done false else s.ppAck r key Res.busy false

/-- An authenticated request of an open session (13 R374). -/
def ppRequest (s : State) (r : PpRequest) (key : Bytes) : State :=
  let n := r.session
  let x := s.sess n
  let s0 := s.putSess n { x with validAt := s.wall }
  match ppClassify x.begun (s.obj (Key.ppSessEpoch n)) (s.obj (Key.ppSessTid n)) x.window r.epoch r.tid with
  | .stale => s.ppAck r key Res.staleId false
  | .duplicate =>
    let s1 := s0.ppAck r key Res.done true
    match (x.window.find? fun w => w.tid == r.tid).bind fun w => w.response with
    | some (code, body) => s1.ppSend r.iface r.src (ppFrame key r.op 9 code r.session r.epoch r.tid r.node body)
    | none => s1
  | .accept =>
    if s.ppRoom n then ((s0.ppAdmit n r.epoch r.tid).ppEnqueue r).ppAck r key Res.done false else s0.ppAck r key Res.busy false

end State

/-- The request that a frame holds (13 R362, R365, Table 13-7). role: that of its session. -/
def ppParse (iface : Nat) (src : NetAddr) (role : Nat) (b : Bytes) : PpRequest :=
  { session := beAt b 6 1, role := role, op := beAt b 3 1, last := bit (beAt b 4 1) 2, bad := beAt b 4 1 / 16 != 0 || beAt b 14 2 != 0 || decide (1368 < beAt b 12 2),
    epoch := beAt b 7 1, tid := beAt b 8 2, node := beAt b 10 2, iface := iface, src := src, body := (b.drop 16).take (beAt b 12 2) }

/-- Is a payload discarded without an acknowledgement (13 R364)? -/
def ppDropped (b : Bytes) : Bool :=
  decide (b.length < 32) || beAt b 0 2 != 0x504C || b.length != 32 + beAt b 12 2 || bit (beAt b 4 1) 0 || bit (beAt b 4 1) 1

/-- A payload for port 47321 arrives on an interface: discarded and counted, or classified, queued and acknowledged (13 R364, R365, R374, R375). -/
def execPelpinRequestRx (iface : Fin 8) (src : NetAddr) (payload : Bytes) (s : State) : Out :=
  if !s.ifaceUp iface.val then .next s
  else if ppDropped payload then .next (s.bump Key.ppDropped)
  else
    let n := beAt payload 6 1
    let st := if 1 ≤ n ∧ n ≤ 16 then s.obj (Key.ppSessState n) else 0
    let x := if st = 0 then ({ } : Session) else s.sess n
    let r := ppParse iface.val src x.role payload
    let handshake := r.op == opOpen && (n == 0 || st == 1)
    let tag := payload.drop (16 + r.body.length)
    let good := if n = 0 then tag.all (· == 0) else tag == (hmac x.keyIn (payload.take (16 + r.body.length))).take 16
    if beAt payload 2 1 ≠ 1 ∨ !opKnown r.op then .next (s.ppAck r x.keyOut Res.unsupported false)
    else if !(handshake || st == 2) ∨ !good then .next (s.ppAck r (if st = 0 then [] else x.keyOut) Res.auth false)
    else if handshake then .next (s.ppHandshake r x.keyOut)
    else .next (s.ppRequest r x.keyOut)

/-! ### What the operations share -/

namespace State

/-- Takes the request at the front of the queue where firmware serves and the request is of the wanted kind (13 R357, R376; 19 R504). -/
def takeRequest (s : State) (want : PpRequest → Bool) : Option (PpRequest × State) :=
  match s.pel.queue with
  | [] => none
  | r :: rest => if s.fwReady && want r then some (r, (s.withPel { s.pel with queue := rest })) else none

/-- Does a request name another device (13 R371)? One that came by the truss is for this device. -/
def isRemote (s : State) (r : PpRequest) : Bool := r.origin.isNone && r.node != 0xFFFF && r.node != s.obj Key.spanNode

/-- A request for another device goes there from an anchor; elsewhere NO_OBJECT (13 R371). -/
def passOn (s : State) (r : PpRequest) (body : Bytes) : State :=
  if s.isNode r.node && s.flag Key.spanAnchor then s.forwardRequest r body else s.respond r Res.noObject []

/-- The whole content of a staged slot; none while it holds fewer bytes than its TOTAL (13 R366). A cell holds its byte plus one. -/
def slotValue (s : State) (n k : Nat) : Option Bytes :=
  let b := tabGet ({} : SlotBuf) (s.sess n).slots k
  if b.cells.length = b.total then some ((List.range b.total).map fun i => BitVec.ofNat 8 (tabGet 0 b.cells i - 1)) else none

/-- The write that an entry carries; none where its slot is not full (13 R351, R366). -/
def entryWrite (s : State) (r : PpRequest) (e : PpEntry) : Option RawWrite :=
  match e.slot with
  | none => some { key := e.key, ty := e.ty, value := fromWire e.ty e.value }
  | some k => (s.slotValue r.session k).map fun b => { key := e.key, ty := e.ty, value := fromWire e.ty b }

end State

/-- Is what is left of a body nothing? A body that came by the truss may carry the zero bytes of its packet (15 R408). -/
def bodyEnds (r : PpRequest) (rest : Bytes) : Bool := rest.isEmpty || (r.origin.isSome && rest.all (· == 0))

/-- The entries of a body from an offset, where its layout is kept. -/
def bodyEntries (r : PpRequest) (count off : Nat) : Option (List PpEntry) :=
  match ppEntries count (r.body.drop off) with
  | some (es, rest) => if bodyEnds r rest then some es else none
  | none => none

/-- Every value of a list, or none. -/
def allSome {α : Type} : List (Option α) → Option (List α)
  | [] => some []
  | none :: _ => none
  | some a :: l => (allSome l).map (a :: ·)

/-- Can every value travel inline: LEN has 16 bits (13 R366; 15 R421, R422)? -/
def fitsInline (ws : List RawWrite) : Bool := ws.all fun w => decide (w.value.length ≤ 65535)

/-! ### READ and WRITE (13 R365, R368, Table 13-9) -/

/-- One entry of a READ response; an object longer than 256 bytes answers TYPE (13 Table 13-4). -/
def readEntry (s : State) (received : KTime) (k : Nat) : Bytes :=
  let (c, b) := s.readReceived received k
  let code := if c = Res.done ∧ 256 < b.length then Res.type else c
  let ty := (typeAt k).code
  let v := if code = Res.done then fromWire ty b else []
  natBE 3 k ++ natBE 1 code ++ natBE 1 (if c = Res.noObject ∨ c = Res.noSubindex then 0 else ty) ++ zeros 1 ++ natBE 2 v.length ++ pad4 v

/-- READ: 1 to 64 objects. -/
def execPelpinRead (s : State) : Out :=
  match s.takeRequest fun r => r.op == opRead with
  | none => .next s
  | some (r, s1) =>
    let count := beAt r.body 0 1
    let ks := (List.range count).map fun i => beAt r.body (4 + 4 * i) 3
    let bad := r.bad || count == 0 || decide (64 < count) || beAt r.body 1 3 != 0 || decide (r.body.length < 4 + 4 * count) || !bodyEnds r (r.body.drop (4 + 4 * count)) ||
      (List.range count).any fun i => beAt r.body (7 + 4 * i) 1 != 0
    if bad then .next (s1.respond r Res.range [])
    else if s1.isRemote r then .next (s1.passOn r r.body)
    else
      let out := ks.flatMap (readEntry s1 r.at')
      .next (if 1364 < out.length then s1.respond r Res.range [] else s1.respond r Res.done out)

/-- The entries of a WRITE in order, each independently: their codes and the state after them (13 R365, R368). -/
def writeEntries (r : PpRequest) : List PpEntry → State → List Code × State
  | [], s => ([], s)
  | e :: es, s =>
    let x : Code × State := if r.role = 0 then (Res.access, s) else
      match s.entryWrite r e with
      | none => (Res.range, s)
      | some w => s.writeImmediate w
    let y := writeEntries r es x.2
    (x.1 :: y.1, y.2)

/-- WRITE: 1 to 16 objects that act on receipt. -/
def execPelpinWrite (s : State) : Out :=
  match s.takeRequest fun r => r.op == opWrite with
  | none => .next s
  | some (r, s1) =>
    let count := beAt r.body 0 1
    match bodyEntries r count 4 with
    | none => .next (s1.respond r Res.range [])
    | some es =>
      if r.bad ∨ count = 0 ∨ 16 < count ∨ beAt r.body 1 3 ≠ 0 then .next (s1.respond r Res.range [])
      else if s1.isRemote r then
        match allSome (es.map (s1.entryWrite r)) with
        | none => .next (s1.respond r Res.range [])
        | some ws => .next (if fitsInline ws then s1.passOn r (r.body.take 4 ++ ws.flatMap entryInline) else s1.respond r Res.range [])
      else
        let (codes, s2) := writeEntries r es s1
        .next (s2.respond r Res.done (natBE 1 count ++ zeros 3 ++ pad4 (codes.map (BitVec.ofNat 8))))

/-! ### COMMIT (13 R366, R368, R371, R372; 15 R422) -/

namespace State

/-- The groups under assembly of a session, or of the anchor that forwards them (13 R372; 15 R421; notes/assumptions/40.md). -/
def assembler (r : PpRequest) : Nat := match r.origin with | none => r.session | some (a, _) => 1000 + a

def putGroups (s : State) (r : PpRequest) (gs : List PpGroup) : State := s.putSess (assembler r) { s.sess (assembler r) with groups := gs }

/-- Submits an assembled group: to this device, or as a GROUP broadcast of the span or the system (13 R371; 15 R422). -/
def submitAssembled (s : State) (r : PpRequest) (g : PpGroup) : State :=
  let me := s.obj Key.spanNode
  let iface := match r.origin with | none => some r.iface | some _ => none
  if g.scope = 0 then
    let x := s.submitGroup g.t g.writes iface
    x.2.groupResponse { id := 0, nodes := [], answers := [(me, x.1.1, x.1.2)], request := r }
  else if !fitsInline g.writes then s.respond r Res.range []
  else
    let others := (List.range 512).filter fun n => s.isNode n && n != me && (g.scope == 2 || nodeSpan n == nodeSpan me)
    let id := s.span.nextId
    let s1 := (s.withSpan { s.span with nextId := id + 1 }).sendData (if g.scope = 1 then 0xFFFE else 0xFFFF) 3 id
      (natBE 10 g.t ++ natBE 2 g.writes.length ++ g.writes.flatMap entryInline)
    let x := s1.submitGroup g.t g.writes iface
    let answers := (others.filter s.nodeLost).map (fun n => (n, Res.frozen, 0x1FFFF)) ++ [(me, x.1.1, x.1.2)]
    let b : Broadcast := { id := id, nodes := others.filter fun n => !s.nodeLost n, answers := answers, request := r }
    if b.nodes.isEmpty then x.2.groupResponse b else x.2.withSpan { x.2.span with groups := x.2.span.groups ++ [b] }

/-- A part of a group: in order it is added, and the last submits; out of order, or past 1,024 writes, it discards the group (13 R372). -/
def addPart (s : State) (r : PpRequest) (ws : List RawWrite) : State :=
  let n := beAt r.body 0 1
  let part := beAt r.body 1 1
  let all := (s.sess (assembler r)).groups
  let others := all.filter fun g => g.group != n
  let mine := all.find? fun g => g.group == n && decide (s.wall < g.since + 400000000)
  let start : PpGroup := { group := n, part := 0, scope := beAt r.body 2 1, t := beAt r.body 4 8 * tick + beAt r.body 12 2, writes := [], since := s.wall }
  let g := mine.getD start
  if g.part ≠ part ∨ (mine.isSome ∧ part = 0) ∨ 1024 < g.writes.length + ws.length then (s.putGroups r others).respond r Res.range []
  else
    let g1 : PpGroup := { g with part := part + 1, writes := g.writes ++ ws }
    if r.last then (s.putGroups r others).submitAssembled r g1 else (s.putGroups r (others ++ [g1])).respond r Res.done []

/-- A GROUP broadcast of the truss is validated here and answered with a RESULT (15 R422). -/
def groupArrives (s : State) (r : PpRequest) : State :=
  let (a, id) := r.origin.getD (0, 0)
  let answer (y : State) (code : Code) (index : Nat) : State := y.sendData a 4 id (natBE 1 code ++ natBE 2 index)
  match (bodyEntries r (beAt r.body 10 2) 12).bind fun es => allSome (es.map (s.entryWrite r)) with
  | none => answer s Res.range 0xFFFF
  | some ws =>
    let x := s.submitGroup (beAt r.body 0 8 * tick + beAt r.body 8 2) ws none
    answer x.2 x.1.1 x.1.2

end State

/-- COMMIT: a part is added to its group, and the last part submits it; a part for another device goes there. -/
def execPelpinCommit (s : State) : Out :=
  match s.takeRequest fun r => r.op == opCommit || r.op == opGroup with
  | none => .next s
  | some (r, s1) =>
    if r.op = opGroup then .next (s1.groupArrives r)
    else if r.role = 0 then .next (s1.respond r Res.access [])
    else
      let b := r.body
      let bad := r.bad || decide (b.length < 16 ∨ 1 < beAt b 0 1 ∨ 2 < beAt b 2 1) || beAt b 14 2 != 0 || (beAt b 2 1 != 0 && r.node != 0xFFFF)
      match (bodyEntries r (beAt b 3 1) 16).bind fun es => allSome (es.map (s1.entryWrite r)) with
      | none => .next (s1.respond r Res.range [])
      | some ws =>
        if bad then .next (s1.respond r Res.range [])
        else if s1.isRemote r then .next (if fitsInline ws then s1.passOn r (b.take 16 ++ ws.flatMap entryInline) else s1.respond r Res.range [])
        else .next (s1.addPart r ws)

/-- A group whose LAST part has not arrived within 400,000,000 ticks of part 0 is discarded (13 R372). -/
def execGroupAssemblyTimeout (session : Fin 16) (group : Fin 2) (s : State) : Out :=
  let n := session.val + 1
  let x := s.sess n
  let late (g : PpGroup) : Bool := g.group == group.val && decide (g.since + 400000000 ≤ s.wall)
  .next (s.putSess n { x with groups := x.groups.filter fun g => !late g })

/-! ### SUBSCRIBE and NOTIFY (13 R377) -/

/-- Puts a subscription at its number. -/
def putSub (l : List (Nat × PpSub)) (n : Nat) (x : PpSub) : List (Nat × PpSub) := (l.filter fun e => e.1 != n) ++ [(n, x)]

/-- What SUBSCRIBE answers for a readable scalar: its code, the subscription number, and the subscriptions after it. A session has one subscription of an object
(notes/assumptions/41.md). -/
def subscribeTo (subs : List (Nat × PpSub)) (k mode interval wall : Nat) : Code × Nat × List (Nat × PpSub) :=
  let mine := subs.find? fun e => e.2.key == k
  let free := (List.range 64).find? fun i => !subs.any fun e => e.1 == i
  let new : PpSub := { key := k, mode := mode, interval := interval, sent := none, at' := wall }
  if mode = 0 then
    match mine with
    | some e => (Res.done, e.1, subs.filter fun f => f.1 != e.1)
    | none => (Res.already, 0, subs)
  else if interval < 40000 then (Res.range, 0, subs)
  else match mine, free with
    | some e, _ => (Res.done, e.1, putSub subs e.1 new)
    | none, some i => (Res.done, i, putSub subs i new)
    | none, none => (Res.busy, 0, subs)

/-- SUBSCRIBE: notifications of one object start or stop. Another device's objects cannot be subscribed to, since no packet of the truss carries a notification. -/
def execSubscribe (s : State) : Out :=
  match s.takeRequest fun r => r.op == opSubscribe with
  | none => .next s
  | some (r, s1) =>
    let b := r.body
    let k := beAt b 0 3
    let mode := beAt b 3 1
    if r.bad ∨ b.length ≠ 8 ∨ 2 < mode then .next (s1.respond r Res.range [])
    else if s1.isRemote r then .next (s1.respond r Res.unsupported [])
    else if existsCode k ≠ Res.done then .next (s1.respond r (existsCode k) [])
    else if !mayRead k then .next (s1.respond r Res.access [])
    else if (typeAt k).image then .next (s1.respond r Res.type [])
    else
      let x := s1.sess r.session
      let (code, n, subs) := subscribeTo x.subs k mode (beAt b 4 4) s1.wall
      if code ≠ Res.done then .next (s1.respond r code [])
      else .next ((s1.putSess r.session { x with subs := subs, iface := r.iface, addr := r.src }).respond r Res.done (natBE 1 n ++ zeros 3))

/-- Is a NOTIFY due: the value has changed, or the period has come, and no sooner than INTERVAL (13 R377)? -/
def notifyDue (u : PpSub) (value wall : Nat) : Bool :=
  if u.mode = 1 then (u.sent == none || (u.sent != some value && decide (u.at' + u.interval ≤ wall))) else decide (u.at' + u.interval ≤ wall)

/-- NOTIFY of subscription sub of session number session + 1. Its NODE is a free value: the spec gives none. -/
def execNotify (session : Fin 16) (sub : Fin 64) (s : State) : Out :=
  let n := session.val + 1
  let x := s.sess n
  match x.subs.find? fun e => e.1 == sub.val with
  | none => .next s
  | some (_, u) =>
    let (_, b) := s.readObject u.key
    let v := leNat b
    if !s.sessOpen n ∨ !s.fwReady ∨ !notifyDue u v s.wall then .next s else
    let ty := (typeAt u.key).code
    let s1 := s.putSess n { x with subs := putSub x.subs sub.val { u with sent := some v, at' := s.wall, seq := (u.seq + 1) % 2 ^ 32 } }
    let (node, s2) := s1.drawNat 65536
    .next (s2.ppSend x.iface x.addr (ppFrame x.keyOut opNotify 0 0 n 0 (u.seq % 65536) node
      (natBE 1 sub.val ++ natBE 1 ty ++ natBE 2 b.length ++ natBE 4 u.seq ++ natBE 10 s.time ++ pad4 (fromWire ty b))))

/-! ### BULK (13 R367) -/

/-- ACTION of a BULK body: any value but 1 and 2 is taken with the stage, which refuses all but 0. -/
def bulkAction (r : PpRequest) : Nat := let a := beAt r.body 0 1; if a = 1 ∨ a = 2 then a else 0

/-- Is the head of a BULK body malformed (13 Table 13-9)? -/
def bulkBad (r : PpRequest) : Bool := r.bad || decide (r.body.length < 16) || beAt r.body 5 3 != 0 || decide (2 < beAt r.body 0 1)

namespace State

/-- A stage or a clear of a slot of the session: what both refuse (13 R365, R368; 15 R421). -/
def slotRefusal (r : PpRequest) : Option Code :=
  if r.origin.isSome then some Res.unsupported
  else if bulkBad r ∨ 7 < beAt r.body 1 1 then some Res.range
  else none

end State

/-- A stage writes its data at OFFSET in the slot (13 R367). -/
def execBulkStage (s : State) : Out :=
  match s.takeRequest fun r => r.op == opBulk && bulkAction r == 0 with
  | none => .next s
  | some (r, s1) =>
    match State.slotRefusal r with
    | some c => .next (s1.respond r c [])
    | none =>
      let k := beAt r.body 1 1
      let offset := beAt r.body 8 4
      let total := beAt r.body 12 4
      let data := r.body.drop 16
      if r.role = 0 then .next (s1.respond r Res.access [])
      else if 1048576 < total ∨ total < offset + data.length then .next (s1.respond r Res.range [])
      else
        let x := s1.sess r.session
        let old := tabGet ({} : SlotBuf) x.slots k
        let base : SlotBuf := if old.total = total then old else { total := total, cells := [] }
        let cells := data.zipIdx.foldl (fun t e => tabSet 0 t (offset + e.2) (e.1.toNat + 1)) base.cells
        .next ((s1.putSess r.session { x with slots := tabSet ({} : SlotBuf) x.slots k { base with cells := cells } }).respond r Res.done [])

/-- A read returns up to TOTAL bytes of an object from OFFSET (13 R367). -/
def execBulkRead (s : State) : Out :=
  match s.takeRequest fun r => r.op == opBulk && bulkAction r == 1 with
  | none => .next s
  | some (r, s1) =>
    let k := beAt r.body 2 3
    let offset := beAt r.body 8 4
    let total := beAt r.body 12 4
    if bulkBad r ∨ !bodyEnds r (r.body.drop 16) ∨ total = 0 ∨ 1336 < total then .next (s1.respond r Res.range [])
    else if s1.isRemote r then .next (s1.passOn r r.body)
    else
      let (c, b) := s1.readReceived r.at' k
      let data := ((fromWire (typeAt k).code b).drop offset).take total
      if c ≠ Res.done then .next (s1.respond r c [])
      else if b.length ≤ offset then .next (s1.respond r Res.range [])
      else .next (s1.respond r Res.done (natBE 4 offset ++ natBE 4 data.length ++ data))

/-- A clear empties the slot (13 R367). -/
def execBulkClear (s : State) : Out :=
  match s.takeRequest fun r => r.op == opBulk && bulkAction r == 2 with
  | none => .next s
  | some (r, s1) =>
    match State.slotRefusal r with
    | some c => .next (s1.respond r c [])
    | none =>
      if 16 < r.body.length then .next (s1.respond r Res.range [])
      else if r.role = 0 then .next (s1.respond r Res.access [])
      else
      let x := s1.sess r.session
      .next ((s1.putSess r.session { x with slots := tabSet ({} : SlotBuf) x.slots (beAt r.body 1 1) {} }).respond r Res.done [])

/-! ### Sessions (13 R369, R370) -/

/-- An uncompressed point; the point at infinity does not arise from a scalar below the order. -/
def pointBytes (q : Option (Nat × Nat)) : Bytes :=
  match q with
  | some (x, y) => natBE 1 4 ++ natBE 48 x ++ natBE 48 y
  | none => zeros 97

/-- OPEN1: a session is assigned and answered with OPEN2. The ephemeral scalar, nonce_d and the signature are free values (13 R369; 18 R481; notes/assumptions/4.md). -/
def execOpen1 (s : State) : Out :=
  match s.takeRequest fun r => r.op == opOpen && r.session == 0 with
  | none => .next s
  | some (r, s1) =>
    let b := r.body
    let slot := beAt b 0 1
    match pointOf ((b.drop 4).take 97), (List.range 16).find? fun i => s1.obj (Key.ppSessState (i + 1)) == 0 with
    | none, _ => .next (s1.respond r Res.range [])
    | some peer, room =>
      if r.bad ∨ b.length ≠ 133 ∨ 7 < slot ∨ beAt b 1 3 ≠ 0 then .next (s1.respond r Res.range [])
      else if s1.obj (Key.ppKey slot) = 0 then .next (s1.respond r Res.auth [])
      else match room with
        | none => .next (s1.respond r Res.busy [])
        | some i =>
          let n := i + 1
          let (d0, s2) := s1.drawNat (n384 - 1)
          let (nonce, s3) := s2.drawNat (2 ^ 256)
          let d := d0 + 1
          let head := natBE 1 n ++ zeros 3 ++ pointBytes (mulPoint d g384) ++ natBE 32 nonce
          let h := sha384 (b ++ head)
          let sig := padTo 96 ((Config.signature s3.free (natBE 1 0x44 ++ h)).take 96)
          let secret := natBE 48 (match mulPoint d peer with | some (x, _) => x | none => 0)
          let salt := b.drop 101 ++ natBE 32 nonce
          let x : Session := { role := s3.obj (Key.ppRole slot), keyIn := hkdf salt secret infoIn, keyOut := hkdf salt secret infoOut, openedAt := s3.wall, hash := h, iface := r.iface, addr := r.src }
          let s4 := (((s3.withFree (s3.free + 1))).putSess n x).setObj (Key.ppSessState n) 1
          .next ((s4.setObj (Key.ppSessSlot n) slot).respond r Res.done (head ++ sig))

/-- OPEN3: its signature opens the session or releases it. On a session that is open already the answer is STATE. -/
def execOpen3 (s : State) : Out :=
  match s.takeRequest fun r => r.op == opOpen && r.session != 0 with
  | none => .next s
  | some (r, s1) =>
    let n := r.session
    let x := s1.sess n
    if r.bad ∨ r.body.length ≠ 96 then .next (s1.respond r Res.range [])
    else if s1.obj (Key.ppSessState n) ≠ 1 then .next (s1.respond r Res.state [])
    else if !verifySig (natLE 97 (s1.obj (Key.ppKey (s1.obj (Key.ppSessSlot n))))) (natBE 1 0x43 ++ x.hash) r.body then .next ((s1.respond r Res.auth []).closeSession n)
    else .next ((((s1.setObj (Key.ppSessState n) 2).putSess n { x with validAt := s1.wall }).refreshAnchor).respond r Res.done [])

/-- CLOSE: the response, then the session is closed. -/
def execClose (s : State) : Out :=
  match s.takeRequest fun r => r.op == opClose with
  | none => .next s
  | some (r, s1) =>
    if r.bad ∨ !r.body.isEmpty then .next (s1.respond r Res.range [])
    else .next ((s1.respond r Res.done []).closeSession r.session)

/-- No valid request for pp.idle ticks: the session closes. -/
def execSessionIdleTimeout (session : Fin 16) (s : State) : Out :=
  let n := session.val + 1
  if s.sessOpen n ∧ (s.sess n).validAt + s.obj Key.ppIdle ≤ s.wall then .next (s.closeSession n) else .next s

/-- No OPEN3 within 400,000,000 ticks of OPEN2: the session is released. -/
def execOpen3Timeout (session : Fin 16) (s : State) : Out :=
  let n := session.val + 1
  if s.obj (Key.ppSessState n) = 1 ∧ (s.sess n).openedAt + 400000000 ≤ s.wall then .next (s.closeSession n) else .next s

/-- The command pp.sess.close (13 R370, Table 13-11). -/
def execPpSessClose (session : Fin 16) (s : State) : Out := .next (s.act (State.immSessClose (session.val + 1)))

end Sys2Proof.Machine
end

