-- ==== Sys2Proof/Machine/Startup.lean ====
section
/-! DEFINITION. Start-up: reset, straps, boot, board data, start-up calibration, training, links, and the output pins (19; 18 R478; 15 R400; 17 R464). -/

namespace Sys2Proof.Machine

/-! ### Output pins (19 R498; 02 R63; 04 R102; 06 R175, R180; 17 R458) -/

namespace State

/-- TRIGOn: high while a pulse drives it; low while PERST_L is low. -/
def trigoPin (s : State) (n : Nat) : Bool := s.start.released && s.pinHigh n s.wall

/-- SWn: the level of its phase; low while it has none, and while PERST_L is low. -/
def swPin (s : State) (n : Nat) : Bool := s.start.released && bit s.prods.swPins n

/-- FECTLb: the level that the last event left; low while PERST_L is low. -/
def fectlPin (s : State) (b : Nat) : Bool := s.start.released && bit (s.obj Key.fectlLevel) b

/-- Is LOREF held, P low and N high: off, acquiring, FAILED, or PERST_L low? -/
def lorefMuted (s : State) : Bool := !s.start.released || s.obj Key.loState != 2

/-- THERMTRIP_L: low once the trip has acted. -/
def thermtripPin (s : State) : Bool := !(s.start.released && s.deckStopped)

end State

/-! ### Reset and straps (19 R497, R501; 15 R400) -/

/-- PERST_L asserted for 40,000 ticks or more: everything takes its reset value but the fuses and the flash, the drives and their contents, and what is outside the
device: waiting commands, what it has sent, and the model's count of free values (13 R354; 18 R475, R479, R484; 11 R311). -/
def execPowerOnReset (s : State) : Out :=
  let keys := [Key.secSvn, Key.secSvnLeft, Key.secOwnerKey, Key.secOwnerHash]
  let drives : Recorder := { stored := s.recd.stored }
  let flash : Security := { bootSeq := s.sec.bootSeq, flash := s.sec.flash, record := s.sec.record }
  let fresh : State := ((((State.reset.withPending s.pending).withFree s.free).withOutbox s.outbox).withRecd drives).withSec flash
  .next (keys.foldl (fun y k => y.setObj k (s.obj k)) fresh)

/-- PERST_L is released: the straps are sampled, and BOOT begins (15 R400; 19 R501). -/
def execPerstRelease (straps : Straps) (s : State) : Out :=
  if s.start.released then .next s else
  let x := straps.spanX.val + 1
  let y := straps.spanY.val + 1
  let n := straps.spanCount.val + 1
  let bad := decide (x ≤ straps.nodeId.val % 8) || decide (y ≤ straps.nodeId.val / 8) || decide (n ≤ straps.spanId.val)
  let s1 := s.withStart { s.start with released := true, releaseAt := s.wall }
  let s2 := (s1.setObj Key.spanNode (straps.spanId.val * 64 + straps.nodeId.val)).setObj Key.spanX x
  .next (((s2.setObj Key.spanY y).setObj Key.spanCount n).setObj Key.spanState (if bad then 3 else 0))

/-! ### Board data (19 R499, R500) -/

/-- May board data set the object (19 Table 19-2)? -/
def boardSets (k : Nat) : Bool :=
  let port (f : Nat → Nat) (n : Nat) : Bool := (List.range n).any fun i => f i == k
  [Key.boardId, Key.laneEq, Key.trussEq, Key.netEq, Key.trussRate, Key.trussSleepIdle, Key.spanSyncRelay, Key.spanSyncAccept, Key.ptpDomain, Key.ptpTransport, Key.ptpLane, Key.ptpAsym,
    Key.taiSource, Key.ppIdle, Key.memGrain, Key.memFixedSize, Key.memSpeedReq, Key.tolBudget, Key.tolThermLimit, Key.scrubPeriod].contains k ||
  port Key.netMode 2 || port Key.netFec25 2 || port Key.netAn 2 || port Key.netIpv4 8 || port Key.netIpv6 8 || port Key.netVlan 8 || port Key.netMtu 8 ||
  port Key.ppKey 8 || port Key.ppRole 8 || port Key.calPeriod 6

namespace State

/-- Does the object accept the value: type, length, fixed range, and no RANGE of its chapter's rules? -/
def boardAccepts (s : State) (k ty : Nat) (b : Bytes) : Bool :=
  ty == (tyOf k).code && lengthOk k b.length && valueOk k b && s.chapterRules { t := 0, writes := [(k, valueOf k b)] } none != some Res.range

/-- Applies entries in order from a byte offset; the offset of the first fault (19 R499, R500). off counts from the start of the area. -/
def boardEntries : Nat → Nat → Bytes → State → Nat ⊕ State
  | 0, off, b, s => if b.isEmpty then .inr s else .inl off
  | n + 1, off, b, s =>
    match ppEntries 1 b with
    | some ([e], rest) =>
      let v := fromWire e.ty e.value
      if e.slot.isSome || !boardSets e.key || !s.boardAccepts e.key e.ty v then .inl off
      else
        let x := valueOf e.key v
        let s1 := if isImage e.key then (s.withDict (tabSet (defaultOf e.key) s.dict e.key x)) else s.setObj e.key x
        boardEntries n (off + (b.length - rest.length)) rest s1
    | _ => .inl off

/-- Applies the board data area: empty, applied, or rejected with the offset of the first fault; MAGIC, LENGTH and CRC are judged before the entries
(19 R499, R500; notes/assumptions/42.md). -/
def applyBoard (s : State) (area : Bytes) : State :=
  let word (off n : Nat) : Nat := leNat ((area.drop off).take n)
  let len := word 8 4
  let reject (off : Nat) : State := (s.setObj Key.suBoard 2).setObj Key.suBoardError off
  if word 0 4 = 0xFFFFFFFF then s.setObj Key.suBoard 0
  else if word 0 4 ≠ 0x4F424431 then reject 0
  else if 4096 < word 6 2 then reject 6
  else if 1048552 < len ∨ area.length < 20 + len then reject 8
  else if crc32 (area.take (16 + len)) ≠ word (16 + len) 4 then reject (16 + len)
  else match boardEntries (word 6 2) 16 ((area.drop 16).take len) s with
    | .inl off => reject off
    | .inr s1 => s1.setObj Key.suBoard 1

end State

/-! ### Boot (18 R478; 19 R501) -/

namespace State

/-- The image at a place of the flash: the one the block has written there, or what the boot reads (18 R476, R485). -/
def flashImage (s : State) (r : BootReport) (place : Nat) : FlashImage :=
  match tabGet none s.sec.flash place with
  | some i => { authentic := true, svn := i.svn, version := i.version, hash := i.hash }
  | none => [r.copy0, r.copy1, r.slotA, r.slotB].getD place r.slotB

/-- Does the image at a place pass the check of the boot steps, its SVN at least c (18 R477, R479)? -/
def bootPasses (s : State) (r : BootReport) (place : Nat) : Bool := (s.flashImage r place).authentic && decide (s.obj Key.secSvn ≤ (s.flashImage r place).svn)

/-- ACTIVE of the boot record, none where its MAGIC or CRC is wrong; and its SEQ (18 R478, R486). -/
def bootRecord (s : State) (r : BootReport) : Option Nat × Nat :=
  match s.sec.record with
  | some a => (some (a % 2), s.sec.bootSeq)
  | none => (if r.recordOk then some r.recordActive.val else none, r.recordSeq)

end State

/-- The slot that boots, none where neither passes; its status bits (18 R478). -/
def bootSlot (s : State) (r : BootReport) : Option Nat × Nat :=
  let named := (s.bootRecord r).1
  let active := named.getD 0
  let ok (n : Nat) : Bool := s.bootPasses r (2 + n)
  let bits := if named.isSome then 0 else 4
  if ok active then (some active, bits) else if ok (1 - active) then (some (1 - active), bits + 2) else (none, bits + 2)

/-- The boot steps end: firmware runs and CALIBRATING begins, or booting stops with bit 7 (18 R478; 19 R501; 17 R446, R450). BOOT lasts until Keystone has locked. -/
def execBootDone (report : BootReport) (board : Bytes) (s : State) : Out :=
  if !s.start.released ∨ s.start.stopped ∨ s.obj Key.suStage ≠ 0 ∨ s.obj Key.ksState = 0 then .next s else
  let b0 := b2n (!s.bootPasses report 0)
  let stop (y : State) (bits : Nat) : State := ((y.setObj Key.fwBootStatus (bits + 128)).withStart { y.start with stopped := true })
  if !s.bootPasses report 0 ∧ !s.bootPasses report 1 then .next (stop s b0) else
  let stage1 := s.flashImage report b0
  let s1 := s.setObj Key.fwStage1Version stage1.version
  match bootSlot s report with
  | (none, bits) => .next (stop s1 (b0 + bits))
  | (some slot, bits) =>
    let fw := s.flashImage report (2 + slot)
    let s2 := s1.withSec { s1.sec with firmware := { version := fw.version, svn := fw.svn, hash := fw.hash }, stage1 := { version := stage1.version, svn := stage1.svn, hash := stage1.hash }, svns := ((s.flashImage report 0).svn, (s.flashImage report 1).svn), bootSeq := (s.bootRecord report).2 }
    let s3 := (((s2.setObj Key.fwBootStatus (b0 + bits)).setObj Key.fwActive slot).setObj Key.fwVersion fw.version).setObj Key.fwSvn fw.svn
    let sb := s3.applyBoard board
    let s4 := (if sb.obj Key.taiSource = 0 then sb else sb.enterTai 1).enterStage 1
    let s5 := (List.range 68).foldl (fun y g => y.setObj (Key.girderState g) girderCalibrating) s4
    .next (((s5.setObj Key.tolVset 750).setObj Key.tolAvsState 1).setObj Key.calState 2).refreshPower.endBadOp

/-! ### Start-up calibration (17 R459 to R464; 19 R501, R503) -/

namespace State

/-- The start-up set of an item: measured codes, applied; or, where it fails its check, the fused factory codes and stale at once. The codes are free values. -/
def startItem (s : State) (failed : Bool) (unit item : Nat) : State :=
  let (n, bits, _) := calShape unit
  let (raw, s1) := s.drawCodes bits n
  let codes := if failed then raw else raw.map fun c => 2 + c % (2 ^ bits - 4)
  let x : CalItem := { codes := codes, due := s.wall + s.obj (Key.calPeriod unit), applied := s.wall, fails := b2n failed }
  if failed then ((((s1.putCalItem unit item x).bump Key.calFails).bump (Key.calUnitFails unit)).raiseEvent 10).calStaleNow unit item
  else (s1.putCalItem unit item { x with waiting := some codes }).applyCal unit item

end State

/-- Every item has run once: TRAINING begins on the populated channels; the girders come into service, and those whose set failed are stale (17 R462, R464; 19 R503). -/
def execStartupCalibrationDone (report : StartupCalibration) (s : State) : Out :=
  if s.obj Key.suStage ≠ 1 then .next s else
  let bad (x : Nat × Nat) : Bool := report.failed.any fun f => f.1.val == x.1 && f.2.val == x.2
  let s1 := (calAll.foldl (fun y x => y.startItem (bad x) x.1 x.2) s).returnAll
  let s2 := (calAll.filter bad).foldl (fun y x => y.staleEffect x.1 x.2) s1
  let s3 := ((List.range 16).filter fun k => report.populated.getLsbD k).foldl (fun y k => y.setObj (Key.memchState k) 2) s2
  .next (((s3.setObj Key.calState 0).refreshSpares).enterStage 2)

/-! ### Training and links (10 R288; 19 R501 to R503) -/

/-- The LINKS stage brings up the truss ports, the interfaces and the drives of the root port together (19 R501; 11 R306). -/
def State.startLinks (s : State) : State :=
  if s.obj Key.suStage ≠ 3 then s else
  let s1 := ((List.range 4).foldl (fun y p => y.bringUp p) s).refreshSpan
  let s2 := (List.range 8).foldl (fun y i => y.restartIface i) s1
  ((List.range 4).foldl (fun y d => y.setObj (Key.recDriveState d) (b2n (decide (d < 2 ^ y.obj Key.recBifurcation)))) s2).refreshSpares

/-- Training has completed: at start-up, of every channel at a new rate, or of a FROZEN channel for diagnosis; a channel in service that finds
no setting freezes with CAUSE 5 (10 R288, R289). -/
def execTrainingComplete (report : List ChanReport) (s : State) : Out :=
  if s.obj Key.suStage = 2 then .next (trainAtStart s report).startLinks else
  let found (k : Nat) : Option ChanReport := report.find? fun r => r.chan.val == k
  let s1 := (List.range 16).foldl (fun y k =>
    match found k with
    | none => y
    | some r =>
      if (y.memChan k).diagTraining then
        ((y.putMemChan k { y.memChan k with diagTraining := false }).setObj (Key.memchTrainResult k) (if r.works then 1 else 2)).setObj (Key.memchTrainTime k) (r.ticks / 1024)
      else if y.obj (Key.memchState k) = 2 then
        let y1 := (y.setObj (Key.memchTrainTime k) (r.ticks / 1024)).setObj (Key.memchState k) 3
        if r.works then y1 else y1.freeze k 5 none 0
      else y) s
  let s2 := if s1.training then s1 else s1.withMem { s1.mem with retraining := false }
  .next (s2.applyDeferred.readmit.refreshSpares)

/-- LINKS ends when every truss port with a neighbour is in service, DOWN or MISWIRED and every configured interface is in service, or after 200,000,000 ticks
(19 R502). -/
def execLinksStageEnd (s : State) : Out :=
  if s.obj Key.suStage ≠ 3 then .next s else
  let trussDone := (List.range 4).all fun p => (s.neighbourOf p).isNone || s.trussUp p || s.obj (Key.trussState p) == 4 || s.obj (Key.trussState p) == 5
  let netDone := (List.range 8).all fun i => !ifaceConfigured s.obj i || s.ifaceUp i
  if (trussDone ∧ netDone) ∨ s.obj Key.suStageTime + 200000000 * tick ≤ s.time then
    .next ((s.setObj Key.suElapsed ((s.wall - s.start.releaseAt) / 1024)).enterStage 4)
  else .next s

end Sys2Proof.Machine
end

