-- ==== Sys2Proof/Machine/TrestleAcc.lean ====
section
/-! DEFINITION. Trestle accumulator instructions (09 R254 to R256, Table 9-6). -/

namespace Sys2Proof.Machine

/-- MPY: AX = RA × RB. -/
def execMpy (core : Fin 32) (sat : Bool) (ax : Fin 4) (ra rb : Fin 16) (s : State) : Out :=
  runPlain core.val (encAcc 0x20 sat ax.val 0 ra.val rb.val 0) (fun c => c.arithAcc sat ax.val (c.dval ra.val * c.dval rb.val)) s

/-- MAC: AX = AX + RA × RB. -/
def execMac (core : Fin 32) (sat : Bool) (ax : Fin 4) (ra rb : Fin 16) (s : State) : Out :=
  runPlain core.val (encAcc 0x21 sat ax.val 0 ra.val rb.val 0) (fun c => c.arithAcc sat ax.val (c.aval ax.val + c.dval ra.val * c.dval rb.val)) s

/-- MSU: AX = AX − RA × RB. -/
def execMsu (core : Fin 32) (sat : Bool) (ax : Fin 4) (ra rb : Fin 16) (s : State) : Out :=
  runPlain core.val (encAcc 0x22 sat ax.val 0 ra.val rb.val 0) (fun c => c.arithAcc sat ax.val (c.aval ax.val - c.dval ra.val * c.dval rb.val)) s

/-- ADDA: AX = AX + AY. -/
def execAdda (core : Fin 32) (sat : Bool) (ax ay : Fin 4) (s : State) : Out :=
  runPlain core.val (encAcc 0x23 sat ax.val ay.val 0 0 0) (fun c => c.arithAcc sat ax.val (c.aval ax.val + c.aval ay.val)) s

/-- SUBA: AX = AX − AY. -/
def execSuba (core : Fin 32) (sat : Bool) (ax ay : Fin 4) (s : State) : Out :=
  runPlain core.val (encAcc 0x24 sat ax.val ay.val 0 0 0) (fun c => c.arithAcc sat ax.val (c.aval ax.val - c.aval ay.val)) s

/-- CLRA: AX = 0. -/
def execClra (core : Fin 32) (ax : Fin 4) (s : State) : Out :=
  runPlain core.val (encAcc 0x25 false ax.val 0 0 0 0) (fun c => c.putAcc ax.val 0) s

/-- LDAC: AX = RA × 2^n, n 0 to 32. -/
def execLdac (core : Fin 32) (sat : Bool) (ax : Fin 4) (ra : Fin 16) (n : BitVec 7) (s : State) : Out :=
  runRanged core.val (encAcc 0x26 sat ax.val 0 ra.val 0 n.toNat) (decide (n.toNat ≤ 32)) (fun c => c.arithAcc sat ax.val (c.dval ra.val * 2 ^ n.toNat)) s

/-- An accumulator shifted by a signed amount, right shifts towards minus infinity (09 R256). -/
def shifted (x n : Int) : Int := if 0 ≤ n then x * 2 ^ n.toNat else x / 2 ^ (-n).toNat

/-- SHA: AX × 2^n, or floor(AX / 2^−n), n −56 to 55. -/
def execSha (core : Fin 32) (sat : Bool) (ax : Fin 4) (n : BitVec 7) (s : State) : Out :=
  runRanged core.val (encAcc 0x27 sat ax.val 0 0 0 n.toNat) (decide (-56 ≤ n.toInt ∧ n.toInt ≤ 55)) (fun c => c.arithAcc sat ax.val (shifted (c.aval ax.val) n.toInt)) s

/-- RND: RD = AY / 2^n, half to even, n 0 to 55. -/
def execRnd (core : Fin 32) (sat : Bool) (rd : Fin 16) (ay : Fin 4) (n : BitVec 7) (s : State) : Out :=
  runRanged core.val (encAcc 0x28 sat 0 ay.val 0 0 n.toNat + fld rd.val 37) (decide (n.toNat ≤ 55)) (fun c => c.arith sat rd.val (roundHalfEven (c.aval ay.val) (2 ^ n.toNat))) s

/-- A part of an accumulator (09 Table 9-6, MFA). -/
def accPart (v p : Nat) : Nat := if p = 0 then v % 2 ^ 24 else if p = 1 then v / 2 ^ 24 % 2 ^ 24 else ofSigned 24 (toSigned 8 (v / 2 ^ 48 % 256))

/-- An accumulator with one part replaced (09 Table 9-6, MTA). -/
def withAccPart (v p x : Nat) : Nat := if p = 0 then x else if p = 1 then v % 2 ^ 24 + x * 2 ^ 24 else v % 2 ^ 48 + x % 256 * 2 ^ 48

/-- MFA: RD = a part of AY, p 0 to 2. -/
def execMfa (core : Fin 32) (rd : Fin 16) (ay : Fin 4) (p : BitVec 7) (s : State) : Out :=
  runRanged core.val (encAcc 0x29 false 0 ay.val 0 0 p.toNat + fld rd.val 37) (decide (p.toNat ≤ 2)) (fun c => c.putD rd.val (accPart (c.areg56 ay.val) p.toNat)) s

/-- MTA: a part of AX = RA, p 0 to 2. -/
def execMta (core : Fin 32) (ax : Fin 4) (ra : Fin 16) (p : BitVec 7) (s : State) : Out :=
  runRanged core.val (encAcc 0x2A false ax.val 0 ra.val 0 p.toNat) (decide (p.toNat ≤ 2)) (fun c => c.putAcc ax.val (withAccPart (c.areg56 ax.val) p.toNat (c.dreg ra.val))) s

/-- CMPA: Z and N of the exact AX − AY; V = 0. -/
def execCmpa (core : Fin 32) (ax ay : Fin 4) (s : State) : Out :=
  runPlain core.val (encAcc 0x2B false ax.val ay.val 0 0 0) (fun c => c.compare (c.aval ax.val - c.aval ay.val)) s

/-- NORM: the leading bits of AY equal to bit 55, less 1. -/
def execNorm (core : Fin 32) (rd : Fin 16) (ay : Fin 4) (s : State) : Out :=
  runPlain core.val (encAcc 0x2C false 0 ay.val 0 0 0 + fld rd.val 37) (fun c => c.putD rd.val (leadingSigns (c.areg56 ay.val))) s

/-- MULA: AX = AY × RB / 2^23, half to even (09 R256). -/
def execMula (core : Fin 32) (sat : Bool) (ax ay : Fin 4) (rb : Fin 16) (s : State) : Out :=
  runPlain core.val (encAcc 0x2D sat ax.val ay.val 0 rb.val 0) (fun c => c.arithAcc sat ax.val (roundHalfEven (c.aval ay.val * c.dval rb.val) (2 ^ 23))) s

end Sys2Proof.Machine
end

