-- ==== Sys2Proof/Machine/TrestleControl.lean ====
section
/-! DEFINITION. Trestle control instructions: HALT, TRAP, events, transfers and loops (09 R249, R252, R253, R258 to R261). -/

namespace Sys2Proof.Machine

/-- NOP does nothing (09 Table 9-6). -/
def execNop (core : Fin 32) (s : State) : Out := runPlain core.val (encPlain 0x00) id s

/-- HALT ends the program with MSTATUS DONE; the results region becomes the results (09 R260). A core that runs a library program ends it
within its budget (09 R265). -/
def execHalt (core : Fin 32) (s : State) : Out :=
  if s.deckStopped then .next s else
  let c := s.core core.val
  match s.coreRecord c with
  | none => .next s
  | some r =>
    if c.prog < 0x8000 then
      let params := natLE 256 (s.objAt (Key.ctxMeasParams r.ctx) r.trigger)
      let n := libraryLength c.prog params (s.measured r)
      if libraryTraps c.prog params then .next (s.trapCore core.val r c 1) else
      if s.budgetOf r < n then .next s
      else .next ((s.addObj (Key.trCoreInstr core.val) n).endProgram core.val r 0 (libraryResults c.prog params (s.measured r)))
    else runInstr core.val (encPlain 0x01) true (fun _ _ _ x => .halt x.flush) s

/-- TRAP ends the program with cause 8 and its code in bits [15:8] (09 Table 9-8). -/
def execTrap (core : Fin 32) (code : BitVec 8) (s : State) : Out :=
  runInstr core.val (encImm 0x02 code.toNat) false (fun _ _ _ _ => .trap (8 + 256 * code.toNat)) s

/-- SYNC completes every pending write and enters the next event, or waits for its block (09 R249). -/
def execSync (core : Fin 32) (s : State) : Out :=
  runInstr core.val (encPlain 0x03) true (fun s r img c =>
    if c.ended ∨ c.bank = 1 then .trap 7 else
    let c1 := { c.flush with ret := c.pc + 1 }
    if s.blockCount r img ≤ c.events ∨ c.events < c.inPlace then .jump (s.enterEvent r img c1) else .jump { c1 with waiting := true }) s

/-- RETE completes every pending write, returns to bank 0 and continues after the SYNC (09 R249). -/
def execRete (core : Fin 32) (s : State) : Out :=
  runInstr core.val (encPlain 0x04) true (fun _ _ _ c => if c.bank = 0 then .trap 7 else .jump { c.flush with bank := 0, pc := c.ret }) s

/-- Does a BR condition hold (09 Table 9-7)? -/
def brTaken (c : Core) (cond : Nat) : Bool :=
  match cond with
  | 0 => true
  | 1 => c.zflag
  | 2 => !c.zflag
  | 3 => c.nflag
  | 4 => !c.nflag
  | 5 => c.zflag || c.nflag
  | 6 => !c.zflag && !c.nflag
  | 7 => c.vflag
  | _ => !c.vflag

/-- A transfer after two delay slots (09 R252). -/
def Core.transferTo (c : Core) (target : Nat) : Core := { c with transfer := some (3, target) }

/-- BR: after two delay slots the target where the condition holds, else the word after the slots; codes 9 to 15 trap (09 R252, R259). -/
def execBr (core : Fin 32) (cond : Fin 16) (target : BitVec 15) (s : State) : Out :=
  runInstr core.val (encBr cond.val target.toNat) true (fun _ _ _ c =>
    if 9 ≤ cond.val then .trap 1 else .next (c.transferTo (if brTaken c cond.val then target.toNat else c.pc + 3))) s

/-- CALL: a7 = PC + 3, then the target after two delay slots (09 R252). -/
def execCall (core : Fin 32) (target : BitVec 15) (s : State) : Out :=
  runInstr core.val (encImm 0x06 target.toNat) true (fun _ _ _ c => .next ((c.putA 7 (c.pc + 3)).transferTo target.toNat)) s

/-- RET: a7, in the 15 bits of the PC, after two delay slots (09 R252, R245). -/
def execRet (core : Fin 32) (s : State) : Out :=
  runInstr core.val (encPlain 0x07) true (fun _ _ _ c => .next (c.transferTo (c.areg 7 % 2 ^ 15))) s

/-- A loop of count iterations from the next word to last (09 R253). -/
def startLoop (c : Core) (count last : Nat) : Work :=
  if last ≤ c.pc ∨ c.pc + 4096 < last then .trap 1
  else if count = 0 then .next { c with pc := last }
  else .next { c with loop := some (c.pc + 1, last, count) }

/-- LOOP executes its body COUNT times (09 R253). -/
def execLoop (core : Fin 32) (count : BitVec 16) (last : BitVec 15) (s : State) : Out :=
  runInstr core.val (encLoop count.toNat last.toNat) true (fun _ _ _ c => startLoop c count.toNat last.toNat) s

/-- LOOPR executes its body as often as RA says, unsigned (09 R253). -/
def execLoopr (core : Fin 32) (ra : Fin 16) (last : BitVec 15) (s : State) : Out :=
  runInstr core.val (encData 0x09 false 0 ra.val 0 last.toNat) true (fun _ _ _ c => startLoop c (c.dreg ra.val) last.toNat) s

/-- A word that encodes no instruction traps with cause 1: a reserved opcode, or a bit set in a field the opcode does not use (09 R257, R258,
Table 9-8). -/
def execReservedOpcode (core : Fin 32) (s : State) : Out :=
  let c := s.core core.val
  match s.coreRecord c with
  | none => .next s
  | some r =>
    let w := imgWord (s.imageOf c.prog r) c.pc
    if wordEncodes w then (if imgPwords (s.imageOf c.prog r) ≤ c.pc then runInstr core.val w false (fun _ _ _ _ => .trap 2) s else .next s)
    else runInstr core.val w false (fun _ _ _ _ => .trap 1) s

end Sys2Proof.Machine
end

