-- ==== Sys2Proof/Machine/TrestleData.lean ====
section
/-! DEFINITION. Trestle data instructions: moves, data memory, 24-bit arithmetic, compares, logic and shifts, special sources and flags (09
R251, R254, R256, R258, R262). -/

namespace Sys2Proof.Machine

/-- MOVI: RD = IMM. -/
def execMovi (core : Fin 32) (rd : Fin 16) (imm : BitVec 24) (s : State) : Out :=
  runPlain core.val (encData 0x0A false rd.val 0 0 imm.toNat) (fun c => c.putD rd.val imm.toNat) s

/-- The address register of a load or store after its post-modification. -/
def Core.modify (c : Core) (an mod : Nat) : Core := c.putA an (((c.areg an : Int) + postMod mod) % 65536).toNat

/-- LD: RD = mem[an + off], then an += mod; a load from the filling buffer traps. -/
def execLd (core : Fin 32) (rd : Fin 16) (an : Fin 8) (off : BitVec 16) (mod : Fin 4) (s : State) : Out :=
  runInstr core.val (encMem 0x0B rd.val an.val off.toNat mod.val) false (fun s r img c =>
    let a := effective (c.areg an.val) off.toNat
    match accessTrap s r img c false a with
    | some t => .trap t
    | none => .next ((c.putD rd.val (c.word a)).modify an.val mod.val)) s

/-- ST: mem[an + off] = RD, then an += mod; a store to the filling buffer, or to the record area outside the results region, traps. -/
def execSt (core : Fin 32) (rd : Fin 16) (an : Fin 8) (off : BitVec 16) (mod : Fin 4) (s : State) : Out :=
  runInstr core.val (encMem 0x0C rd.val an.val off.toNat mod.val) false (fun s r img c =>
    let a := effective (c.areg an.val) off.toNat
    match accessTrap s r img c true a with
    | some t => .trap t
    | none => .next ((c.putWord a (c.dreg rd.val)).modify an.val mod.val)) s

/-- LEA: ad = an + off. -/
def execLea (core : Fin 32) (ad an : Fin 8) (off : BitVec 16) (s : State) : Out :=
  runPlain core.val (encMem 0x0D ad.val an.val off.toNat 0) (fun c => c.putA ad.val (effective (c.areg an.val) off.toNat)) s

/-- MVDA: ad = RA[15:0]. -/
def execMvda (core : Fin 32) (ad : Fin 8) (ra : Fin 16) (s : State) : Out :=
  runPlain core.val (encData 0x0E false ad.val ra.val 0 0) (fun c => c.putA ad.val (c.dreg ra.val)) s

/-- MVAD: RD = an, zero-extended. -/
def execMvad (core : Fin 32) (rd : Fin 16) (an : Fin 8) (s : State) : Out :=
  runPlain core.val (encData 0x0F false rd.val an.val 0 0) (fun c => c.putD rd.val (c.areg an.val)) s

/-- ADD: RD = RA + RB. -/
def execAdd (core : Fin 32) (sat : Bool) (rd ra rb : Fin 16) (s : State) : Out :=
  runPlain core.val (encData 0x10 sat rd.val ra.val rb.val 0) (fun c => c.arith sat rd.val (c.dval ra.val + c.dval rb.val)) s

/-- SUB: RD = RA − RB. -/
def execSub (core : Fin 32) (sat : Bool) (rd ra rb : Fin 16) (s : State) : Out :=
  runPlain core.val (encData 0x11 sat rd.val ra.val rb.val 0) (fun c => c.arith sat rd.val (c.dval ra.val - c.dval rb.val)) s

/-- ADDI: RD = RA + IMM, signed. -/
def execAddi (core : Fin 32) (sat : Bool) (rd ra : Fin 16) (imm : BitVec 24) (s : State) : Out :=
  runPlain core.val (encData 0x12 sat rd.val ra.val 0 imm.toNat) (fun c => c.arith sat rd.val (c.dval ra.val + imm.toInt)) s

/-- NEG: RD = −RA. -/
def execNeg (core : Fin 32) (sat : Bool) (rd ra : Fin 16) (s : State) : Out :=
  runPlain core.val (encData 0x13 sat rd.val ra.val 0 0) (fun c => c.arith sat rd.val (-c.dval ra.val)) s

/-- ABS: RD = |RA|. -/
def execAbs (core : Fin 32) (sat : Bool) (rd ra : Fin 16) (s : State) : Out :=
  runPlain core.val (encData 0x14 sat rd.val ra.val 0 0) (fun c => c.arith sat rd.val (c.dval ra.val).natAbs) s

/-- MUL: RD = RA × RB / 2^23, half to even (09 R256). -/
def execMul (core : Fin 32) (sat : Bool) (rd ra rb : Fin 16) (s : State) : Out :=
  runPlain core.val (encData 0x15 sat rd.val ra.val rb.val 0) (fun c => c.arith sat rd.val (roundHalfEven (c.dval ra.val * c.dval rb.val) (2 ^ 23))) s

/-- SHL: RD = RA × 2^n, n 0 to 23. -/
def execShl (core : Fin 32) (sat : Bool) (rd ra : Fin 16) (n : BitVec 7) (s : State) : Out :=
  runRanged core.val (encData 0x16 sat rd.val ra.val 0 n.toNat) (decide (n.toNat ≤ 23)) (fun c => c.arith sat rd.val (c.dval ra.val * 2 ^ n.toNat)) s

/-- ASR: RD = RA / 2^n towards minus infinity, n 0 to 23. -/
def execAsr (core : Fin 32) (sat : Bool) (rd ra : Fin 16) (n : BitVec 7) (s : State) : Out :=
  runRanged core.val (encData 0x17 sat rd.val ra.val 0 n.toNat) (decide (n.toNat ≤ 23)) (fun c => c.arith sat rd.val (c.dval ra.val / 2 ^ n.toNat)) s

/-- MIN: the smaller, signed. -/
def execMin (core : Fin 32) (rd ra rb : Fin 16) (s : State) : Out :=
  runPlain core.val (encData 0x18 false rd.val ra.val rb.val 0) (fun c => c.putD rd.val (if c.dval ra.val ≤ c.dval rb.val then c.dreg ra.val else c.dreg rb.val)) s

/-- MAX: the larger, signed. -/
def execMax (core : Fin 32) (rd ra rb : Fin 16) (s : State) : Out :=
  runPlain core.val (encData 0x19 false rd.val ra.val rb.val 0) (fun c => c.putD rd.val (if c.dval ra.val ≤ c.dval rb.val then c.dreg rb.val else c.dreg ra.val)) s

/-- CMP: Z and N of the exact RA − RB; V = 0. -/
def execCmp (core : Fin 32) (ra rb : Fin 16) (s : State) : Out :=
  runPlain core.val (encData 0x1A false 0 ra.val rb.val 0) (fun c => c.compare (c.dval ra.val - c.dval rb.val)) s

/-- CMPI: Z and N of the exact RA − IMM; V = 0. -/
def execCmpi (core : Fin 32) (ra : Fin 16) (imm : BitVec 24) (s : State) : Out :=
  runPlain core.val (encData 0x1B false 0 ra.val 0 imm.toNat) (fun c => c.compare (c.dval ra.val - imm.toInt)) s

/-- AND, bitwise. -/
def execAnd (core : Fin 32) (rd ra rb : Fin 16) (s : State) : Out :=
  runPlain core.val (encData 0x1C false rd.val ra.val rb.val 0) (fun c => c.putD rd.val (c.dreg ra.val &&& c.dreg rb.val)) s

/-- OR, bitwise. -/
def execOr (core : Fin 32) (rd ra rb : Fin 16) (s : State) : Out :=
  runPlain core.val (encData 0x1D false rd.val ra.val rb.val 0) (fun c => c.putD rd.val (c.dreg ra.val ||| c.dreg rb.val)) s

/-- XOR, bitwise. -/
def execXor (core : Fin 32) (rd ra rb : Fin 16) (s : State) : Out :=
  runPlain core.val (encData 0x1E false rd.val ra.val rb.val 0) (fun c => c.putD rd.val (c.dreg ra.val ^^^ c.dreg rb.val)) s

/-- LSR: RA as unsigned, shifted right by n, 0 to 23. -/
def execLsr (core : Fin 32) (rd ra : Fin 16) (n : BitVec 7) (s : State) : Out :=
  runRanged core.val (encData 0x1F false rd.val ra.val 0 n.toNat) (decide (n.toNat ≤ 23)) (fun c => c.putD rd.val (c.dreg ra.val / 2 ^ n.toNat)) s

/-- The special sources: instructions executed before this one, and the Keystone tick count (09 R262, Table 9-10; notes/assumptions/29.md). -/
def specialSource (s : State) (c : Core) (n : Nat) : Nat :=
  match n with
  | 0 => c.pos % 2 ^ 24
  | 1 => c.pos / 2 ^ 24 % 2 ^ 24
  | 2 => s.ticks % 2 ^ 24
  | 3 => s.ticks / 2 ^ 24 % 2 ^ 24
  | _ => s.ticks / 2 ^ 48 % 2 ^ 16

/-- MFS: RD = special source IMM; one outside 0 to 4 traps. -/
def execMfs (core : Fin 32) (rd : Fin 16) (imm : BitVec 24) (s : State) : Out :=
  runInstr core.val (encData 0x2E false rd.val 0 0 imm.toNat) false (fun s _ _ c =>
    if 4 < imm.toNat then .trap 1 else .next (c.putD rd.val (specialSource s c imm.toNat))) s

/-- MFF: RD = the flags in the layout of Table 9-6. -/
def execMff (core : Fin 32) (rd : Fin 16) (s : State) : Out :=
  runPlain core.val (encData 0x2F false rd.val 0 0 0) (fun c => c.putD rd.val (tabGet 0 c.flags c.bank % 8 ||| c.sticky)) s

/-- CLRF clears each sticky flag whose MFF bit is set in IMM. -/
def execClrf (core : Fin 32) (imm : BitVec 24) (s : State) : Out :=
  runPlain core.val (encImm 0x30 imm.toNat) (fun c => c.later 3 0 imm.toNat) s

end Sys2Proof.Machine
end

