-- ==== Sys2Proof/Machine/Dispatch.lean ====
section
/-! DEFINITION. Every command dispatched to its meaning, one arm per row of the operation table. -/

namespace Sys2Proof.Machine

/-- The effect of a command on everything but the queue. -/
def exec (i : Instr) (s : State) : Host.Outcome State Fault Refusal :=
  match i with
  | .commitTakesEffect => Sys2Proof.Machine.execCommitTakesEffect s
  | .linksCleanRestore => Sys2Proof.Machine.execLinksCleanRestore s
  | .abutmentClear => Sys2Proof.Machine.execAbutmentClear s
  | .boostRemoval => Sys2Proof.Machine.execBoostRemoval s
  | .refclkLoss => Sys2Proof.Machine.execRefclkLoss s
  | .refclkValid offset => Sys2Proof.Machine.execRefclkValid offset s
  | .sysrefEdge => Sys2Proof.Machine.execSysrefEdge s
  | .ppsEdge rising pos => Sys2Proof.Machine.execPpsEdge rising pos s
  | .ksLoad v => Sys2Proof.Machine.execKsLoad v s
  | .slewComplete => Sys2Proof.Machine.execSlewComplete s
  | .taiHoldover => Sys2Proof.Machine.execTaiHoldover s
  | .lanePllLoss pll => Sys2Proof.Machine.execLanePllLoss pll s
  | .loRelock => Sys2Proof.Machine.execLoRelock s
  | .loLockConfirmed => Sys2Proof.Machine.execLoLockConfirmed s
  | .loLockTimeout => Sys2Proof.Machine.execLoLockTimeout s
  | .loLockLoss => Sys2Proof.Machine.execLoLockLoss s
  | .loRampSegment => Sys2Proof.Machine.execLoRampSegment s
  | .laneMultiblockRx lane badHeaders crcBad markers octets => Sys2Proof.Machine.execLaneMultiblockRx lane badHeaders crcBad markers octets s
  | .cdrLossOfLock lane => Sys2Proof.Machine.execCdrLossOfLock lane s
  | .linkRelease link => Sys2Proof.Machine.execLinkRelease link s
  | .pierRecoveryResume pier => Sys2Proof.Machine.execPierRecoveryResume pier s
  | .pierFailedMarker pier => Sys2Proof.Machine.execPierFailedMarker pier s
  | .pierRestart pier => Sys2Proof.Machine.execPierRestart pier s
  | .linkArrivalClear link => Sys2Proof.Machine.execLinkArrivalClear link s
  | .feInputSample port => Sys2Proof.Machine.execFeInputSample port s
  | .syncReset => Sys2Proof.Machine.execSyncReset s
  | .syncNow => Sys2Proof.Machine.execSyncNow s
  | .syncLEdge => Sys2Proof.Machine.execSyncLEdge s
  | .trigoPulseEnd pin => Sys2Proof.Machine.execTrigoPulseEnd pin s
  | .frameDispatch view port girders => Sys2Proof.Machine.execFrameDispatch view port girders s
  | .frameComplete girder checkOk memoryUe => Sys2Proof.Machine.execFrameComplete girder checkOk memoryUe s
  | .girderTimeout girder => Sys2Proof.Machine.execGirderTimeout girder s
  | .spareReady girder => Sys2Proof.Machine.execSpareReady girder s
  | .girderRetire girder => Sys2Proof.Machine.execGirderRetire girder s
  | .productFrame kind n => Sys2Proof.Machine.execProductFrame kind n s
  | .productRecordAcked kind n => Sys2Proof.Machine.execProductRecordAcked kind n s
  | .productClear kind n => Sys2Proof.Machine.execProductClear kind n s
  | .spectrogramTrace n => Sys2Proof.Machine.execSpectrogramTrace n s
  | .spectrogramRowAcked n => Sys2Proof.Machine.execSpectrogramRowAcked n s
  | .swBoundary n => Sys2Proof.Machine.execSwBoundary n s
  | .fectlEvent => Sys2Proof.Machine.execFectlEvent s
  | .maskSpectrum m => Sys2Proof.Machine.execMaskSpectrum m s
  | .trigiEdge n rising pos => Sys2Proof.Machine.execTrigiEdge n rising pos s
  | .trigCmd c => Sys2Proof.Machine.execTrigCmd c s
  | .rtrigWatermarkSend => Sys2Proof.Machine.execRtrigWatermarkSend s
  | .rtrigStale c => Sys2Proof.Machine.execRtrigStale c s
  | .exprEvent ctx => Sys2Proof.Machine.execExprEvent ctx s
  | .ctxSettledAdvance ctx => Sys2Proof.Machine.execCtxSettledAdvance ctx s
  | .ctxArm ctx => Sys2Proof.Machine.execCtxArm ctx s
  | .ctxAbort ctx => Sys2Proof.Machine.execCtxAbort ctx s
  | .trigLogEvent => Sys2Proof.Machine.execTrigLogEvent s
  | .trigLogAcked => Sys2Proof.Machine.execTrigLogAcked s
  | .stagingSpaceGrant => Sys2Proof.Machine.execStagingSpaceGrant s
  | .extractBlockReturn ctx record => Sys2Proof.Machine.execExtractBlockReturn ctx record s
  | .trestleDispatch core => Sys2Proof.Machine.execTrestleDispatch core s
  | .blockDelivered core => Sys2Proof.Machine.execBlockDelivered core s
  | .budgetExhausted core => Sys2Proof.Machine.execBudgetExhausted core s
  | .recordDelivered ctx record => Sys2Proof.Machine.execRecordDelivered ctx record s
  | .completionEntryAcked => Sys2Proof.Machine.execCompletionEntryAcked s
  | .trClear slot => Sys2Proof.Machine.execTrClear slot s
  | .nop core => Sys2Proof.Machine.execNop core s
  | .halt core => Sys2Proof.Machine.execHalt core s
  | .trap core code => Sys2Proof.Machine.execTrap core code s
  | .sync core => Sys2Proof.Machine.execSync core s
  | .rete core => Sys2Proof.Machine.execRete core s
  | .br core cond target => Sys2Proof.Machine.execBr core cond target s
  | .call core target => Sys2Proof.Machine.execCall core target s
  | .ret core => Sys2Proof.Machine.execRet core s
  | .loop core count last => Sys2Proof.Machine.execLoop core count last s
  | .loopr core ra last => Sys2Proof.Machine.execLoopr core ra last s
  | .movi core rd imm => Sys2Proof.Machine.execMovi core rd imm s
  | .ld core rd an off mod => Sys2Proof.Machine.execLd core rd an off mod s
  | .st core rd an off mod => Sys2Proof.Machine.execSt core rd an off mod s
  | .lea core ad an off => Sys2Proof.Machine.execLea core ad an off s
  | .mvda core ad ra => Sys2Proof.Machine.execMvda core ad ra s
  | .mvad core rd an => Sys2Proof.Machine.execMvad core rd an s
  | .add core sat rd ra rb => Sys2Proof.Machine.execAdd core sat rd ra rb s
  | .sub core sat rd ra rb => Sys2Proof.Machine.execSub core sat rd ra rb s
  | .addi core sat rd ra imm => Sys2Proof.Machine.execAddi core sat rd ra imm s
  | .neg core sat rd ra => Sys2Proof.Machine.execNeg core sat rd ra s
  | .abs core sat rd ra => Sys2Proof.Machine.execAbs core sat rd ra s
  | .mul core sat rd ra rb => Sys2Proof.Machine.execMul core sat rd ra rb s
  | .shl core sat rd ra n => Sys2Proof.Machine.execShl core sat rd ra n s
  | .asr core sat rd ra n => Sys2Proof.Machine.execAsr core sat rd ra n s
  | .min core rd ra rb => Sys2Proof.Machine.execMin core rd ra rb s
  | .max core rd ra rb => Sys2Proof.Machine.execMax core rd ra rb s
  | .cmp core ra rb => Sys2Proof.Machine.execCmp core ra rb s
  | .cmpi core ra imm => Sys2Proof.Machine.execCmpi core ra imm s
  | .and core rd ra rb => Sys2Proof.Machine.execAnd core rd ra rb s
  | .or core rd ra rb => Sys2Proof.Machine.execOr core rd ra rb s
  | .xor core rd ra rb => Sys2Proof.Machine.execXor core rd ra rb s
  | .lsr core rd ra n => Sys2Proof.Machine.execLsr core rd ra n s
  | .mpy core sat ax ra rb => Sys2Proof.Machine.execMpy core sat ax ra rb s
  | .mac core sat ax ra rb => Sys2Proof.Machine.execMac core sat ax ra rb s
  | .msu core sat ax ra rb => Sys2Proof.Machine.execMsu core sat ax ra rb s
  | .adda core sat ax ay => Sys2Proof.Machine.execAdda core sat ax ay s
  | .suba core sat ax ay => Sys2Proof.Machine.execSuba core sat ax ay s
  | .clra core ax => Sys2Proof.Machine.execClra core ax s
  | .ldac core sat ax ra n => Sys2Proof.Machine.execLdac core sat ax ra n s
  | .sha core sat ax n => Sys2Proof.Machine.execSha core sat ax n s
  | .rnd core sat rd ay n => Sys2Proof.Machine.execRnd core sat rd ay n s
  | .mfa core rd ay p => Sys2Proof.Machine.execMfa core rd ay p s
  | .mta core ax ra p => Sys2Proof.Machine.execMta core ax ra p s
  | .cmpa core ax ay => Sys2Proof.Machine.execCmpa core ax ay s
  | .norm core rd ay => Sys2Proof.Machine.execNorm core rd ay s
  | .mula core sat ax ay rb => Sys2Proof.Machine.execMula core sat ax ay rb s
  | .mfs core rd imm => Sys2Proof.Machine.execMfs core rd imm s
  | .mff core rd => Sys2Proof.Machine.execMff core rd s
  | .clrf core imm => Sys2Proof.Machine.execClrf core imm s
  | .reservedOpcode core => Sys2Proof.Machine.execReservedOpcode core s
  | .bankSchedule chan bank => Sys2Proof.Machine.execBankSchedule chan bank s
  | .memReadComplete chan result => Sys2Proof.Machine.execMemReadComplete chan result s
  | .rcdAlert chan => Sys2Proof.Machine.execRcdAlert chan s
  | .writeCrcError chan => Sys2Proof.Machine.execWriteCrcError chan s
  | .remapComplete => Sys2Proof.Machine.execRemapComplete s
  | .refresh due => Sys2Proof.Machine.execRefresh due s
  | .selfRefreshEntry chan => Sys2Proof.Machine.execSelfRefreshEntry chan s
  | .selfRefreshExit chan => Sys2Proof.Machine.execSelfRefreshExit chan s
  | .scrubRead chan => Sys2Proof.Machine.execScrubRead chan s
  | .memSpeedReq rate => Sys2Proof.Machine.execMemSpeedReq rate s
  | .memchRetrain chan => Sys2Proof.Machine.execMemchRetrain chan s
  | .trainingComplete report => Sys2Proof.Machine.execTrainingComplete report s
  | .ringFlush port fe => Sys2Proof.Machine.execRingFlush port fe s
  | .ringBlockWritten port fe => Sys2Proof.Machine.execRingBlockWritten port fe s
  | .ringSlabs slabs => Sys2Proof.Machine.execRingSlabs slabs s
  | .nvmeWriteComplete drive ok => Sys2Proof.Machine.execNvmeWriteComplete drive ok s
  | .nvmeLinkLoss drive => Sys2Proof.Machine.execNvmeLinkLoss drive s
  | .manifestSigned => Sys2Proof.Machine.execManifestSigned s
  | .recDriveRestart drive => Sys2Proof.Machine.execRecDriveRestart drive s
  | .recNsFormat ns => Sys2Proof.Machine.execRecNsFormat ns s
  | .recNsClose ns => Sys2Proof.Machine.execRecNsClose ns s
  | .recNsRead ns offset count addr => Sys2Proof.Machine.execRecNsRead ns offset count addr s
  | .recNsReadDone ns ok => Sys2Proof.Machine.execRecNsReadDone ns ok s
  | .accClear byteEnables value => Sys2Proof.Machine.execAccClear byteEnables value s
  | .registerWrite bar2 offset byteEnables value => Sys2Proof.Machine.execRegisterWrite bar2 offset byteEnables value s
  | .apBaseWrite byteEnables value => Sys2Proof.Machine.execApBaseWrite byteEnables value s
  | .apMoveDone => Sys2Proof.Machine.execApMoveDone s
  | .mboxSelWrite byteEnables value => Sys2Proof.Machine.execMboxSelWrite byteEnables value s
  | .mboxSnapshotDone => Sys2Proof.Machine.execMboxSnapshotDone s
  | .dcRead bulk => Sys2Proof.Machine.execDcRead bulk s
  | .writeNow bulk => Sys2Proof.Machine.execWriteNow bulk s
  | .groupOpen => Sys2Proof.Machine.execGroupOpen s
  | .groupAdd bulk => Sys2Proof.Machine.execGroupAdd bulk s
  | .groupCommit => Sys2Proof.Machine.execGroupCommit s
  | .groupDiscard => Sys2Proof.Machine.execGroupDiscard s
  | .msixMessage vector => Sys2Proof.Machine.execMsixMessage vector s
  | .apertureAccess write offset byteEnables data => Sys2Proof.Machine.execApertureAccess write offset byteEnables data s
  | .hostInterfaceReset kind => Sys2Proof.Machine.execHostInterfaceReset kind s
  | .hrEntryAcked n => Sys2Proof.Machine.execHrEntryAcked n s
  | .hrRptrWrite n byteEnables value => Sys2Proof.Machine.execHrRptrWrite n byteEnables value s
  | .mvTailWrite m byteEnables value => Sys2Proof.Machine.execMvTailWrite m byteEnables value s
  | .mvRun m byteEnables run => Sys2Proof.Machine.execMvRun m byteEnables run s
  | .mvResume m byteEnables => Sys2Proof.Machine.execMvResume m byteEnables s
  | .mvSkip m byteEnables => Sys2Proof.Machine.execMvSkip m byteEnables s
  | .moverDescFetched m readOk hostData indexOk indexData => Sys2Proof.Machine.execMoverDescFetched m readOk hostData indexOk indexData s
  | .moverBurstDone m readOk hostData => Sys2Proof.Machine.execMoverBurstDone m readOk hostData s
  | .moverBarrierDone m flushOk => Sys2Proof.Machine.execMoverBarrierDone m flushOk s
  | .pelpinRequestRx iface src payload => Sys2Proof.Machine.execPelpinRequestRx iface src payload s
  | .pelpinRead => Sys2Proof.Machine.execPelpinRead s
  | .pelpinWrite => Sys2Proof.Machine.execPelpinWrite s
  | .pelpinCommit => Sys2Proof.Machine.execPelpinCommit s
  | .subscribe => Sys2Proof.Machine.execSubscribe s
  | .bulkStage => Sys2Proof.Machine.execBulkStage s
  | .bulkRead => Sys2Proof.Machine.execBulkRead s
  | .bulkClear => Sys2Proof.Machine.execBulkClear s
  | .open1 => Sys2Proof.Machine.execOpen1 s
  | .open3 => Sys2Proof.Machine.execOpen3 s
  | .close => Sys2Proof.Machine.execClose s
  | .notify session sub => Sys2Proof.Machine.execNotify session sub s
  | .sessionIdleTimeout session => Sys2Proof.Machine.execSessionIdleTimeout session s
  | .open3Timeout session => Sys2Proof.Machine.execOpen3Timeout session s
  | .groupAssemblyTimeout session group => Sys2Proof.Machine.execGroupAssemblyTimeout session group s
  | .boardLock => Sys2Proof.Machine.execBoardLock s
  | .ppKeysLock => Sys2Proof.Machine.execPpKeysLock s
  | .ppSessClose session => Sys2Proof.Machine.execPpSessClose session s
  | .ethFrameRx iface fcsOk frame => Sys2Proof.Machine.execEthFrameRx iface fcsOk frame s
  | .netLinkUp port => Sys2Proof.Machine.execNetLinkUp port s
  | .netLinkLoss iface => Sys2Proof.Machine.execNetLinkLoss iface s
  | .vrtPacketSend iface => Sys2Proof.Machine.execVrtPacketSend iface s
  | .vrtContextPeriodic stream => Sys2Proof.Machine.execVrtContextPeriodic stream s
  | .ptpEventRx port msg => Sys2Proof.Machine.execPtpEventRx port msg s
  | .ptpDelayReq => Sys2Proof.Machine.execPtpDelayReq s
  | .trussPacketRx port cls seq packet => Sys2Proof.Machine.execTrussPacketRx port cls seq packet s
  | .trussAckTimeout port cls => Sys2Proof.Machine.execTrussAckTimeout port cls s
  | .trussLaneFail port lane => Sys2Proof.Machine.execTrussLaneFail port lane s
  | .trussSpareJoin port => Sys2Proof.Machine.execTrussSpareJoin port s
  | .trussSleep port lane => Sys2Proof.Machine.execTrussSleep port lane s
  | .trussWake port lane => Sys2Proof.Machine.execTrussWake port lane s
  | .trussRestart port => Sys2Proof.Machine.execTrussRestart port s
  | .hpdEdge head edid => Sys2Proof.Machine.execHpdEdge head edid s
  | .dpTrainingRetry head => Sys2Proof.Machine.execDpTrainingRetry head s
  | .latchPoint head => Sys2Proof.Machine.execLatchPoint head s
  | .displayFrameStart head => Sys2Proof.Machine.execDisplayFrameStart head s
  | .dispFlip head => Sys2Proof.Machine.execDispFlip head s
  | .scanoutUnderrun head => Sys2Proof.Machine.execScanoutUnderrun head s
  | .tollhouseSlot requests avsOk dieMv reading railsOk => Sys2Proof.Machine.execTollhouseSlot requests avsOk dieMv reading railsOk s
  | .tempRead readings => Sys2Proof.Machine.execTempRead readings s
  | .derateStep => Sys2Proof.Machine.execDerateStep s
  | .calItemStart => Sys2Proof.Machine.execCalItemStart s
  | .calItemDone codes => Sys2Proof.Machine.execCalItemDone codes s
  | .calAgeTimeout calUnit item => Sys2Proof.Machine.execCalAgeTimeout calUnit item s
  | .calFull => Sys2Proof.Machine.execCalFull s
  | .calRun calUnit => Sys2Proof.Machine.execCalRun calUnit s
  | .monStartEvent => Sys2Proof.Machine.execMonStartEvent s
  | .monConversion input => Sys2Proof.Machine.execMonConversion input s
  | .monCodeReady => Sys2Proof.Machine.execMonCodeReady s
  | .fwLoad addr len => Sys2Proof.Machine.execFwLoad addr len s
  | .fwLoadChecked => Sys2Proof.Machine.execFwLoadChecked s
  | .fwLoadVerified ok => Sys2Proof.Machine.execFwLoadVerified ok s
  | .fwSwap => Sys2Proof.Machine.execFwSwap s
  | .fwPrepareDone ok => Sys2Proof.Machine.execFwPrepareDone ok s
  | .fwHandoverDone => Sys2Proof.Machine.execFwHandoverDone s
  | .fwHandoverTimeout => Sys2Proof.Machine.execFwHandoverTimeout s
  | .fwConfirm => Sys2Proof.Machine.execFwConfirm s
  | .attNonce nonce => Sys2Proof.Machine.execAttNonce nonce s
  | .attReportReady => Sys2Proof.Machine.execAttReportReady s
  | .secOwnerKey key => Sys2Proof.Machine.execSecOwnerKey key s
  | .configScrub corrected uncorrectable => Sys2Proof.Machine.execConfigScrub corrected uncorrectable s
  | .configRestoreDone => Sys2Proof.Machine.execConfigRestoreDone s
  | .ueExcursionEnd => Sys2Proof.Machine.execUeExcursionEnd s
  | .powerOnReset => Sys2Proof.Machine.execPowerOnReset s
  | .perstRelease straps => Sys2Proof.Machine.execPerstRelease straps s
  | .bootDone report board => Sys2Proof.Machine.execBootDone report board s
  | .startupCalibrationDone report => Sys2Proof.Machine.execStartupCalibrationDone report s
  | .linksStageEnd => Sys2Proof.Machine.execLinksStageEnd s
  | .pcieLinkUp => Sys2Proof.Machine.execPcieLinkUp s
  | .configurationRequest busMaster d3hot => Sys2Proof.Machine.execConfigurationRequest busMaster d3hot s
  | .hpdLow head => Sys2Proof.Machine.execHpdLow head s
  | .displayLinkTrained head ok => Sys2Proof.Machine.execDisplayLinkTrained head ok s
  | .nvmeDriveReady drive width model nsids labels => Sys2Proof.Machine.execNvmeDriveReady drive width model nsids labels s
  | .drvPerstRelease drive => Sys2Proof.Machine.execDrvPerstRelease drive s
  | .trussAlignBlock port lane frame crcOk => Sys2Proof.Machine.execTrussAlignBlock port lane frame crcOk s
  | .scanoutPanic head => Sys2Proof.Machine.execScanoutPanic head s

end Sys2Proof.Machine
end

