-- ==== Sys2Proof/Machine/Step.lean ====
section
/-! DEFINITION. One step of the block: the command at the front of the queue, or one tick of the rim clock. -/

namespace Sys2Proof.Machine

/-- The command at the front of the queue acts with the rest of the queue waiting; on an empty queue one tick of the rim clock
passes (notes/assumptions/1.md). -/
def step (s : State) : Host.Outcome State Fault Refusal :=
  match s.pending with
  | [] => .next (tickEdge s)
  | i :: rest => exec i (s.withPending rest)

/-- The operation table gives no row any bits, so no word spells a command and the state stands. -/
def State.withFetchWord (s : State) (nbits w : Nat) : State :=
  match decodeTableWord nbits w with
  | some i => s.withPending (i :: s.pending)
  | none => s

end Sys2Proof.Machine
end

