-- ==== Sys2Proof/Safety.lean ====
section
/-! DEFINITION. What counts as a safe run, and the words that the statements use: a command completes, objects stay, a trestle core runs an
instruction. -/

namespace Sys2Proof

open Machine

/-- The step from a state answers a next state. -/
def Safe (s : State) : Prop := ∃ t, step s = .next t

/-- A command answers a next state that has a property. -/
def Completes (c : Instr) (s : State) (P : State → Prop) : Prop := ∃ t, exec c s = .next t ∧ P t

/-- Every object but those listed is the same in two states. -/
def KeepsObjects (ks : List Nat) (s t : State) : Prop := ∀ k, k ∉ ks → t.obj k = s.obj k

/-- Core k runs a user program for record r within its budget, and w is the program word at its PC. -/
def RunsWord (s : State) (k : Nat) (r : Record) (w : Nat) : Prop :=
  s.deckStopped = false ∧ s.coreRecord (s.core k) = some r ∧ (s.core k).waiting = false ∧ 0x8000 ≤ (s.core k).prog ∧ (s.core k).prog ≤ 0x801F ∧
    (s.core k).pos < s.budgetOf r ∧ (s.core k).pc < imgPwords (s.imageOf (s.core k).prog r) ∧ imgWord (s.imageOf (s.core k).prog r) (s.core k).pc = w

/-- A core runs an instruction, the word at its PC, with no transfer that comes to the library ROM after it. -/
def Runs (s : State) (k : Fin 32) (r : Record) (i : Instr) : Prop :=
  (∃ w, trestleWord i = some (k, w) ∧ RunsWord s k.val r w) ∧ ∀ n t, (s.core k.val).transfer = some (n, t) → n ≤ 1 → t ≠ 0x4000

/-- A core runs a control instruction outside delay slots and loop bodies. -/
def RunsFree (s : State) (k : Fin 32) (r : Record) (i : Instr) : Prop :=
  Runs s k r i ∧ (s.core k.val).transfer = none ∧ (s.core k.val).loop = none

/-- One instruction was executed on core k: nothing but that core and its instruction count changed. -/
def RanOn (s t : State) (k : Nat) : Prop :=
  t.obj (Key.trCoreInstr k) = (s.obj (Key.trCoreInstr k) + 1) % 2 ^ 64 ∧ KeepsObjects [Key.trCoreInstr k] s t ∧ (∀ j, j ≠ k → t.core j = s.core j) ∧
    t = { s with dict := t.dict, cores := t.cores }

/-- A core went on to its next position, and but for the PC's bookkeeping it is c'. -/
def StepsTo (c c' t : Core) : Prop :=
  t = { c' with pos := c.pos + 1, pc := t.pc, transfer := t.transfer, loop := t.loop } ∧ (c.transfer = none → c.loop = none → t.pc = c.pc + 1 ∧ t.transfer = none ∧ t.loop = none)

/-- The value of an exact result in w bits (09 R254): itself in range, else the nearest value with S, the residue modulo 2^w without. -/
def fitted (w : Nat) (sat : Bool) (x : Int) : Int :=
  if -(2 : Int) ^ (w - 1) ≤ x ∧ x ≤ (2 : Int) ^ (w - 1) - 1 then x
  else if sat then (if x < 0 then -(2 : Int) ^ (w - 1) else (2 : Int) ^ (w - 1) - 1)
  else (x + (2 : Int) ^ (w - 1)) % (2 : Int) ^ w - (2 : Int) ^ (w - 1)

/-- Is an exact result outside the range of w bits? -/
def outside (w : Nat) (x : Int) : Bool := decide (x < -(2 : Int) ^ (w - 1)) || decide ((2 : Int) ^ (w - 1) - 1 < x)

/-- Z, N and V written by an arithmetic instruction: seen three positions on, in the bank in force (09 R251, R254). -/
def flagWrite (c : Core) (v : Int) (out : Bool) : LateWrite :=
  { at' := c.pos + 3, kind := 1, reg := c.bank, value := (if v = 0 then 1 else 0) + (if v < 0 then 2 else 0) + (if out then 4 else 0) }

/-- A data register written: seen three positions on. -/
def dataWrite (c : Core) (rd v : Nat) : LateWrite := { at' := c.pos + 3, kind := 0, reg := 16 * c.bank + rd, value := v }

/-- A sticky flag set by a result out of range. -/
def stickyWrite (c : Core) (out : Bool) (b : Nat) : List LateWrite := if out then [{ at' := c.pos + 3, kind := 2, reg := 0, value := 2 ^ b }] else []

/-- The core after an arithmetic instruction with a data register as its destination and x as its exact result. -/
def DataResult (c t : Core) (sat : Bool) (rd : Nat) (x : Int) : Prop :=
  StepsTo c { c with late := c.late ++ (dataWrite c rd (fitted 24 sat x % 2 ^ 24).toNat :: flagWrite c (fitted 24 sat x) (outside 24 x) ::
    stickyWrite c (outside 24 x) (if sat then 8 else 9)) } t

/-- The core after an arithmetic instruction with an accumulator as its destination and x as its exact result. -/
def AccResult (c t : Core) (sat : Bool) (ax : Nat) (x : Int) : Prop :=
  StepsTo c { c with acc := tabSet 0 c.acc ax (fitted 56 sat x % 2 ^ 56).toNat,
                     late := c.late ++ (flagWrite c (fitted 56 sat x) (outside 56 x) :: stickyWrite c (outside 56 x) ((if sat then 16 else 20) + ax)) } t

/-- The program of core k's record ended with a trap (09 R261): MSTATUS FAULT, no results, the cause and the PC in the slot's report. -/
def Trapped (s t : State) (k : Nat) (r : Record) (cause : Nat) : Prop :=
  t.record? r.ctx r.number = some { r with state := 2, running := false, mstatus := 5, results := zeros 56 } ∧ t.core k = {} ∧
    t.obj (Key.trFaultCause ((s.core k).prog - 0x8000)) = cause % 2 ^ 16 ∧ t.obj (Key.trFaultPc ((s.core k).prog - 0x8000)) = (s.core k).pc % 2 ^ 16 ∧
    t.obj (Key.trFaults ((s.core k).prog - 0x8000)) = (s.obj (Key.trFaults ((s.core k).prog - 0x8000)) + 1) % 2 ^ 64 ∧
    (∀ j, j ≠ k → t.core j = s.core j) ∧ t = { s with dict := t.dict, cores := t.cores, acq := t.acq }

/-- An access error was captured and nothing else happened (12 R326, Table 12-4): the first one is recorded, every one is counted, and event source 0 counts it. -/
def Captured (s t : State) (cause bar be dword : Nat) : Prop :=
  t.pcie.accErr = true ∧ tabGet 0 t.pev.evtCount 0 = (tabGet 0 s.pev.evtCount 0 + 1) % 2 ^ 32 ∧ fieldAt t.pcie.accInfo 2 2 = min 65535 (fieldAt s.pcie.accInfo 2 2 + 1) ∧
    (s.pcie.accErr = false → t.pcie.accAddr = dword ∧ t.pcie.accInfo % 65536 = cause + 16 * bar + 256 * be) ∧
    (s.pcie.accErr = true → t.pcie.accAddr = s.pcie.accAddr ∧ t.pcie.accInfo % 65536 = s.pcie.accInfo % 65536) ∧ t = { s with pcie := t.pcie, pev := t.pev }

/-- The offsets of the registers of Table 12-2 in BAR0. -/
def isRegister (off : Nat) : Bool :=
  decide (off ≤ 0x18) || decide (0x40 ≤ off ∧ off ≤ 0x50) || decide (0x80 ≤ off ∧ off ≤ 0xA0) || decide (0x100 ≤ off ∧ off ≤ 0x104) || decide (0x180 ≤ off ∧ off ≤ 0x19C) ||
    decide (0x200 ≤ off ∧ off ≤ 0x27C) || decide (0x400 ≤ off ∧ off ≤ 0x7FC ∧ off % 0x40 ≤ 0x18) || decide (0xE000 ≤ off ∧ off ≤ 0xE3FC) || decide (0xF000 ≤ off ∧ off ≤ 0xF004)

/-- The operation of the dictionary port ended with a code (12 R330). -/
def DcEnded (s t : State) (c : Code) : Prop :=
  t.pcie.dcBusy = false ∧ t.pcie.dcStat = c + 256 * (s.pcie.dcCtrl % 16) + 65536 * s.pev.group.length ∧
    tabGet 0 t.pev.evtCount 16 = (tabGet 0 s.pev.evtCount 16 + 1) % 2 ^ 32

/-- A Pelpin request of an open session stands at the front of the queue, well formed and for this device, and firmware serves it (13 R357, R376). -/
def Serves (s : State) (r : PpRequest) (rest : List PpRequest) (op : Nat) : Prop :=
  s.pel.queue = r :: rest ∧ s.fwReady = true ∧ r.op = op ∧ r.origin = none ∧ r.bad = false ∧ s.isRemote r = false ∧ (s.sess r.session).keyOut ≠ []

/-- The response to a request was sent, and nothing else (13 R362, R365). -/
def Answered (s t : State) (r : PpRequest) (code : Code) (body : Bytes) : Prop :=
  t.outbox = s.outbox ++ [.udp r.iface r.src.mac r.src.ip r.src.udp 47321 (ppFrame (s.sess r.session).keyOut r.op 1 code r.session r.epoch r.tid r.node body)]

end Sys2Proof
end

