-- ==== Sys2Proof/Certificates/Slice0/Obligations.lean ====
section
/-! DEFINITION. The statements for the provers. -/

open Sys2Proof Sys2Proof.Machine

/-- A step takes the command at the front of the queue and executes it on the state with the queue's rest; an empty queue is one tick of the rim clock (notes/assumptions/1.md). -/
def Obligations.StepRunsTheFront : Prop :=
  ∀ (s : State) (c : Instr) (q : List Instr), step { s with pending := c :: q } = exec c { s with pending := q }

/-- The block right after power-on reset (13 R350, R354; 12 Table 12-2; 07 Table 7-6; 17 Table 17-5): every object has its default, Keystone time is 0, no command waits, and nothing is listed in memory. The contents of DRAM after reset have the canonical form. -/
def Obligations.ResetState : Prop :=
  (State.reset.pending = [] ∧ State.reset.time = 0 ∧ State.reset.groups = [] ∧ State.reset.outbox = [] ∧ State.reset.mem.cells = [] ∧ (∀ k, State.reset.obj k = defaultOf k) ∧
    State.reset.obj Key.tolBudget = 220 ∧ State.reset.obj Key.tolThermLimit = 105 ∧ State.reset.obj Key.ppIdle = 4000000000 ∧ State.reset.obj Key.scrubPeriod = 86400 ∧ State.reset.obj (Key.netMtu 3) = 1500 ∧
    State.reset.bar0Read 0 = 0x03011EAB ∧ State.reset.bar0Read 8 = 0 ∧ State.reset.bar0Read 0x104 = 0x190) ∧
  (State.reset.mem.wf = true)

/-- DRAM contents keep their canonical form (addresses rising, no byte listed that an unlisted address reads as) in every step. -/
def Obligations.MemoryStaysCanonical : Prop :=
  ∀ s t : State, s.mem.wf = true → step s = .next t → t.mem.wf = true

/-- A command leaves the queue of waiting commands alone. -/
def Obligations.CommandsKeepQueue : Prop := ∀ (c : Instr) (s t : State), exec c s = .next t → t.pending = s.pending

/-- Locks hold until the next power-on reset (13 R355): no other command opens a lock of an RWL object, and neither does the passing of time. -/
def Obligations.LocksHold : Prop :=
  ∀ s t : State, s.pending.head? ≠ some .powerOnReset → step s = .next t → (s.sec.boardLock = true → t.sec.boardLock = true) ∧ (s.sec.keysLock = true → t.sec.keysLock = true)

/-- No command stops the block: for each of the 233 constructors of Instr, exec answers a next state in every state and on all operands. -/
def Obligations.EveryCommandAnswers : Prop := ∀ (c : Instr) (s : State), ∃ t, exec c s = .next t

/-- The groups with the earliest T that has come stop being pending, and where none of them writes ks.step no other does; nothing waits in the command queue because of them, and no byte of DRAM changes unless one of them writes mem.fixed.size or mem.grain, which place the lanes anew (R33, R35; 10 R286). LINKS_CLEAN returns to 1 after 400,000 ticks without a link error and with no lane of an enabled link in recovery; abutment.clear sets every peak to the lag of its pier (R17, R22, R87). Nothing else changes but HOLDS and the events counted. Commands shown to complete, exec answering a next state with its effect, under conditions on the state and the operands alone: commitTakesEffect, linksCleanRestore, abutmentClear. -/
def Obligations.RimCommands : Prop :=
  (∀ (s : State) (g : Group), g ∈ s.groups → g.t ≤ s.time → (∀ g' ∈ s.groups, g.t ≤ g'.t) →
    Completes .commitTakesEffect s fun t => t.pending = s.pending ∧ (∀ x ∈ t.groups, x ∈ s.groups ∧ x.t ≠ g.t) ∧
      ((∀ x ∈ s.groups, x.t = g.t → x.has Key.ksStep = false) → t.groups = s.groups.filter (fun x => x.t != g.t) ∧
        ((∀ x ∈ s.groups, x.t = g.t → x.has Key.memFixedSize = false ∧ x.has Key.memGrain = false) → t.mem.cells = s.mem.cells))) ∧
  ((∀ s : State, s.cond.linkErrorAt + 400000 ≤ s.wall →
    (∀ k ∈ s.linksOn, ∀ n ∈ (s.link k).lanes, s.obj (Key.pierState (n / 8)) ≠ 3 ∧ s.obj (Key.pierState (n / 8)) ≠ 4) →
    Completes .linksCleanRestore s fun t => bit (t.obj Key.statusPromise) 1 = true ∧ t = { s with dict := t.dict, pev := t.pev } ∧
      KeepsObjects [Key.statusPromise] s t) ∧
  (∀ s : State, s.ready = true →
    Completes .abutmentClear s fun t => (∀ p < 16, t.obj (Key.abutmentPeak p) = s.obj (Key.abutmentLag p) % 2 ^ 32) ∧ t.result = Res.done ∧
      t = { s with dict := t.dict, result := t.result } ∧ KeepsObjects ((List.range 16).map Key.abutmentPeak) s t))

/-- Table 2-3: what the loss of REFCLK, its return, the end of a slew and missed synchronisation do. The first and the last leave Keystone time alone; the return from LOCKING starts the count at 0, and the return from HOLDOVER never changes it. Commands shown to complete, exec answering a next state with its effect, under conditions on the state and the operands alone: refclkLoss, refclkValid, slewComplete, taiHoldover. -/
def Obligations.KeystoneTransitions : Prop :=
  (∀ s : State, s.obj Key.ksState = State.ksLocked ∨ s.obj Key.ksState = State.ksSlewing →
    Completes .refclkLoss s fun t => t.obj Key.ksState = State.ksHoldover ∧ t.objI Key.ksOffset = 0 ∧
      t.obj Key.ksHoldoverCount = (s.obj Key.ksHoldoverCount + 1) % 2 ^ 32 ∧ t = { s with dict := t.dict, pev := t.pev, cond := t.cond }) ∧
  (∀ (s : State) (off : Int), s.obj Key.ksState = State.ksLocking → off.natAbs < 64 →
    Completes (.refclkValid off) s fun t => t.obj Key.ksState = State.ksLocked ∧ t.time = 0 ∧
      t = { s with dict := t.dict, pev := t.pev, cond := t.cond, time := 0 }) ∧
  (∀ (s : State) (off : Int), s.obj Key.ksState = State.ksHoldover → -(2 ^ 62) ≤ s.wrapOffset off → s.wrapOffset off < 2 ^ 62 →
    Completes (.refclkValid off) s fun t =>
      t.obj Key.ksState = (if (s.wrapOffset off).natAbs < 64 then State.ksLocked else State.ksSlewing) ∧ t.objI Key.ksOffset = s.wrapOffset off ∧
      t = { s with dict := t.dict, pev := t.pev, cond := t.cond }) ∧
  (∀ s : State, s.obj Key.ksState = State.ksSlewing → (s.objI Key.ksSlewRemaining).natAbs < 64 →
    Completes .slewComplete s fun t => t.obj Key.ksState = State.ksLocked ∧ t = { s with dict := t.dict, pev := t.pev, cond := t.cond }) ∧
  (∀ s : State, s.obj Key.taiState = 2 → 1 ≤ s.obj Key.taiSource → s.obj Key.taiSource ≤ 3 → s.ks.syncedAt + 3 * s.ks.syncInterval ≤ s.wall →
    Completes .taiHoldover s fun t => t.obj Key.taiState = 3 ∧ t.objI Key.taiRate = s.objI Key.taiRate ∧ t = { s with dict := t.dict, pev := t.pev } ∧
      KeepsObjects [Key.taiState] s t)

/-- SYSREF, PPS and ks.load (R49, R51): an edge is time-stamped; a due load gives it V; mode 1 takes the phase from the first edge after its write; a write of ks.load is refused with the code of the first case that applies, else armed with DEFERRED. Commands shown to complete, exec answering a next state with its effect, under conditions on the state and the operands alone: sysrefEdge, ppsEdge, ksLoad. -/
def Obligations.SysrefPpsAndLoad : Prop :=
  (∀ (s : State) (v : Nat), s.ks.load = some v → s.ks.loadDue = true → v < 2 ^ 80 → v % tick = 0 → s.obj Key.sysrefMode = 0 →
    Completes .sysrefEdge s fun t => t.time = v ∧ t.ks.load = none ∧ t.obj Key.sysrefLast = v ∧
      t = { s with dict := t.dict, ks := t.ks, undo := [], fes := t.fes, views := t.views, acq := t.acq, trig := t.trig, cond := t.cond, time := v } ∧
      KeepsObjects [Key.sysrefLast] s t) ∧
  (∀ s : State, s.ks.load = none → s.obj Key.sysrefMode = 1 → s.ks.alignArmed = true →
    Completes .sysrefEdge s fun t => t.obj Key.sysrefPhase = s.edgeTick % s.obj Key.sysrefPeriod % 2 ^ 32 ∧ t.ks.alignArmed = false ∧ t.time = s.time ∧
      KeepsObjects [Key.sysrefLast, Key.sysrefPhase] s t) ∧
  (∀ (s : State) (pos : Fin 64), s.obj Key.ppsEdge = 0 → s.obj Key.taiSource ≠ 3 →
    Completes (.ppsEdge true pos) s fun t => t.obj Key.ppsCount = (s.obj Key.ppsCount + 1) % 2 ^ 32 ∧
      t.obj Key.ppsLast = (s.ticks * tick + pos.val * 1024) % 2 ^ 80 ∧ t.ks.loadDue = (s.ks.load.isSome || s.ks.loadDue) ∧
      t = { s with dict := t.dict, ks := t.ks } ∧ KeepsObjects [Key.ppsLast, Key.ppsCount] s t) ∧
  (∀ (s : State) (v : Nat), s.ready = true → v < 2 ^ 80 →
    exec (.ksLoad v) s = .next (if s.obj Key.ksState ≠ State.ksLocked ∨ s.anyPort = true ∨ s.obj Key.sysrefMode = 0 then s.withResult Res.state
      else if v % tick ≠ 0 ∨ v / tick % s.obj Key.sysrefPeriod ≠ s.obj Key.sysrefPhase then s.withResult Res.range
      else ((s.withKs { s.ks with load := some v, loadDue := false }).setObj Key.ksLoad v).withResult Res.deferred))

/-- Lock, muting and relocking of the LO synthesiser (R63, R64): no lock in 4,000,000 ticks is FAILED and stays muted; a commit of lo.word alone mutes nothing; lo.relock restarts acquisition and the modulator from the seed, during acquisition and after a failure too; lock within the bound releases the output and records the end of the mute. The segment of a single profile whose START has come last is taken: the accumulator becomes its initial value plus SLOPE times the ticks elapsed since its START (R60, R61); with that segment running already nothing changes. A lane PLL that loses lock reports it, and what runs from it stops: a pier recovers, a truss port is DOWN, interfaces leave service, a display head is in NO_SINK (R57; what the last three do is the model's: log entry 176). Commands shown to complete, exec answering a next state with its effect, under conditions on the state and the operands alone: lanePllLoss, loRelock, loLockConfirmed, loLockTimeout, loLockLoss, loRampSegment. -/
def Obligations.LoSynthesiser : Prop :=
  ((∀ s : State, s.obj Key.loState = 1 → s.lo.acquiredFrom + 4000000 ≤ s.wall →
    Completes .loLockTimeout s fun t => t.obj Key.loState = 3 ∧ t = { s with dict := t.dict } ∧ KeepsObjects [Key.loState] s t) ∧
  (∀ (s : State) (g : Group) (old : Nat → Nat), (∀ w ∈ g.writes, w.1 = Key.loWord) → old Key.loEnable = s.obj Key.loEnable →
    old Key.loDivider = s.obj Key.loDivider → commitLo s g old = s) ∧
  (∀ s : State, s.obj Key.loState ≠ 0 → (∃ d ∈ s.due, d.1 = Key.loRelock) →
    Completes .loRelock s fun t => t.obj Key.loState = 1 ∧ t.lo.mash = { lfsr := s.obj Key.loSeed } ∧
      t.lo.acquiredFrom = s.wall ∧ t.due = s.due.filter (fun d => d.1 != Key.loRelock) ∧
      KeepsObjects [Key.loState, Key.loMuteStart, Key.loMuteEnd] s t) ∧
  (∀ s : State, s.obj Key.loState = 1 → s.lo.acquiredFrom + 4000000 < s.wall →
    Completes .loLockConfirmed s fun t => t.obj Key.loState = 3 ∧ t = { s with dict := t.dict } ∧ KeepsObjects [Key.loState] s t) ∧
  (∀ s : State, s.obj Key.loState = 1 → s.lo.acquiredFrom + 25600 ≤ s.wall → s.wall ≤ s.lo.acquiredFrom + 4000000 →
    Completes .loLockConfirmed s fun t => t.obj Key.loState = 2 ∧ t.obj Key.loMuteEnd = s.time % 2 ^ 80 ∧ t = { s with dict := t.dict, pev := t.pev } ∧
      KeepsObjects [Key.loState, Key.loMuteEnd] s t) ∧
  (∀ s : State, s.obj Key.loState = 2 →
    Completes .loLockLoss s fun t => t.obj Key.loState = 1 ∧ t.obj Key.loMuteStart = s.time % 2 ^ 80 ∧ t.obj Key.loMuteEnd = 0 ∧
      KeepsObjects [Key.loState, Key.loMuteStart, Key.loMuteEnd] s t)) ∧
  ((∀ (s : State) (i : Nat), s.obj Key.loRampMode = 1 → i + 1 < s.obj Key.loRampCount → s.obj Key.loRampCount ≤ 256 →
    (∀ j ≤ i, State.rampStart (s.obj Key.loRampTable) j ≤ s.ticks) →
    (∀ j < s.obj Key.loRampCount, i < j → s.ticks < State.rampStart (s.obj Key.loRampTable) j) →
    (s.lo.segment ≠ some i → Completes .loRampSegment s fun t => t.obj Key.loRampSegment = i ∧ t.lo.segment = some i ∧
      (t.lo.ramp : Int) = (State.rampInitial (s.obj Key.loRampTable) i +
        State.rampSlope (s.obj Key.loRampTable) i * (s.ticks - State.rampStart (s.obj Key.loRampTable) i : Nat)) % 2 ^ 53 ∧
      t = { s with dict := t.dict, lo := t.lo } ∧ KeepsObjects [Key.loRampSegment] s t) ∧
    (s.lo.segment = some i → s.lo.advance = 0 → exec .loRampSegment s = .next s)) ∧
  (∀ (s : State) (pll : Fin 24), s.obj (Key.lanepllState pll.val) = 2 → s.obj Key.ksState ≠ State.ksHoldover →
    (∀ p < 4, pll.val = 16 + p → s.logicalLanes p ≠ [] → Completes (.lanePllLoss pll) s fun t => t.obj (Key.lanepllState pll.val) = 3 ∧ t.obj (Key.trussState p) = 5) ∧
    (∀ p < 2, pll.val = 20 + p → Completes (.lanePllLoss pll) s fun t => ∀ l < 4, t.obj (Key.netState (4 * p + l)) ≠ 2) ∧
    (∀ h < 2, pll.val = 22 + h → s.obj (Key.dispState h) = 2 →
      Completes (.lanePllLoss pll) s fun t => t.obj (Key.lanepllState pll.val) = 3 ∧ t.obj (Key.dispState h) = 3) ∧
    (pll.val < 16 → s.linksOfPier pll.val ≠ [] → s.obj (Key.pierState pll.val) = 2 →
      Completes (.lanePllLoss pll) s fun t => t.obj (Key.pierState pll.val) = 3 ∧ bit (t.obj Key.statusPromise) 1 = false)) ∧
  (∀ (s : State) (pll : Fin 24), s.obj (Key.lanepllState pll.val) ≠ 2 → exec (.lanePllLoss pll) s = .next s))

/-- With no command waiting one tick passes: wall time counts one; Keystone time stands still in LOCKING, and advances one tick in LOCKED and HOLDOVER (Table 2-2). -/
def Obligations.IdleStepIsOneTick : Prop :=
  ∀ s : State, s.pending = [] → ∃ t, step s = .next t ∧ t.wall = s.wall + 1 ∧
    (s.obj Key.ksState = State.ksLocking → t.time = s.time) ∧
    (s.obj Key.ksState = State.ksLocked ∨ s.obj Key.ksState = State.ksHoldover → t.time = (s.time + tick) % 2 ^ 80) ∧
    t = { s with wall := t.wall, time := t.time, dict := t.dict, ks := t.ks, lo := t.lo } ∧ KeepsObjects [Key.ksOffset, Key.ksSlewRemaining] s t

/-- A lane of no enabled link reports nothing. A lane of an enabled link counts its invalid sync headers and its CRC mismatches; it declares lock after 1,024 valid headers in a row, is aligned by a clean multiblock with its end markers, and stays aligned by a clean multiblock after a clean one, whose octets, descrambled, go into its buffer (R68, R73, R76, R87). The loss of CDR lock on a lane of an enabled link clears LINKS_CLEAN; a lane not yet aligned locks again, and an aligned one is in error and puts a pier in service into RECOVERING, an attempt counted (R73, R87, R89). Commands shown to complete, exec answering a next state with its effect, under conditions on the state and the operands alone: laneMultiblockRx, cdrLossOfLock. -/
def Obligations.LaneReception : Prop :=
  ((∀ (s : State) (n : Fin 128) (h : BitVec 32) (crc m1 m2 : Bool) (b : Bytes), s.linkOfLane n.val = none →
    exec (.laneMultiblockRx n h crc ⟨m1, m2⟩ b) s = .next s) ∧
  (∀ (s : State) (n : Fin 128) (k : Nat) (b : Bytes) (m1 m2 : Bool), s.linkOfLane n.val = some k → s.obj (Key.laneState n.val) = 1 →
    (s.laneSt n.val).late = none →
    Completes (.laneMultiblockRx n 0 false ⟨m1, m2⟩ b) s fun t =>
      t.obj (Key.laneState n.val) = (if 1024 ≤ (s.laneSt n.val).validRun + 32 then 2 else 1) ∧
      (t.laneSt n.val).validRun = (s.laneSt n.val).validRun + 32 ∧ t = { s with dict := t.dict, ing := t.ing } ∧ KeepsObjects [Key.laneState n.val, Key.laneShErrors n.val] s t) ∧
  (∀ (s : State) (n : Fin 128) (k : Nat) (b : Bytes), s.linkOfLane n.val = some k → s.obj (Key.laneState n.val) = 2 →
    ((s.laneSt n.val).headers.filter id).length < 16 →
    Completes (.laneMultiblockRx n 0 false ⟨true, true⟩ b) s fun t => t.obj (Key.laneState n.val) = 3 ∧ (t.laneSt n.val).buffer = [] ∧ t.outbox = s.outbox) ∧
  (∀ (s : State) (n : Fin 128) (k : Nat) (b : Bytes) (m1 m2 : Bool), s.linkOfLane n.val = some k → s.obj (Key.laneState n.val) = 3 →
    ((s.laneSt n.val).headers.filter id).length < 16 → (∀ e ∈ (s.laneSt n.val).errors, e = false) → (s.laneSt n.val).markerRun = 0 →
    Completes (.laneMultiblockRx n 0 false ⟨m1, m2⟩ b) s fun t => t.obj (Key.laneState n.val) = 3 ∧
      t.obj (Key.laneCrcErrors n.val) = s.obj (Key.laneCrcErrors n.val)) ∧
  (∀ (s : State) (n : Fin 128) (k : Nat) (b : Bytes), s.linkOfLane n.val = some k → s.obj (Key.laneState n.val) = 3 → ((s.laneSt n.val).headers.filter id).length < 16 →
    (s.link k).e = 1 → (s.laneSt n.val).part = [] → (s.laneSt n.val).partBlocks = 0 → (s.laneSt n.val).partBad = false → (s.laneSt n.val).partMarker = false → (s.laneSt n.val).buffer.length < 4 →
    Completes (.laneMultiblockRx n 0 false ⟨true, true⟩ b) s fun t => t.obj (Key.laneState n.val) = 3 ∧ (t.laneSt n.val).markerRun = 0 ∧ (t.laneSt n.val).buffer.length = (s.laneSt n.val).buffer.length + 1 ∧
      (t.laneSt n.val).buffer.getLast? = some { octets := (descramble (s.laneSt n.val).history (b.map fun x => if fieldAt (s.obj Key.laneEq) (4 * n.val + 3) 1 % 2 = 1 then ~~~x else x)).1, bad := false, at' := s.time }) ∧
  (∀ (s : State) (n : Fin 128) (k : Nat) (h : BitVec 32) (m1 m2 : Bool) (b : Bytes), s.linkOfLane n.val = some k → s.obj (Key.laneState n.val) = 4 →
    Completes (.laneMultiblockRx n h true ⟨m1, m2⟩ b) s fun t => t.obj (Key.laneCrcErrors n.val) = (s.obj (Key.laneCrcErrors n.val) + 1) % 2 ^ 32 ∧
      bit (t.obj Key.statusPromise) 1 = false)) ∧
  ((∀ (s : State) (n : Fin 128) (k : Nat), s.linkOfLane n.val = some k → s.obj (Key.laneState n.val) = 3 → s.obj (Key.pierState (n.val / 8)) = 2 →
    Completes (.cdrLossOfLock n) s fun t => t.obj (Key.pierState (n.val / 8)) = 3 ∧
      t.obj (Key.pierRecoveries (n.val / 8)) = (s.obj (Key.pierRecoveries (n.val / 8)) + 1) % 2 ^ 32 ∧ bit (t.obj Key.statusPromise) 1 = false ∧
      (s.obj (Key.linkState k) = 2 → t.obj (Key.linkState k) = 3) ∧ t.pending = s.pending) ∧
  (∀ (s : State) (n : Fin 128) (k : Nat), s.linkOfLane n.val = some k → s.obj (Key.laneState n.val) = 2 →
    Completes (.cdrLossOfLock n) s fun t => t.obj (Key.laneState n.val) = 1 ∧ bit (t.obj Key.statusPromise) 1 = false) ∧
  (∀ (s : State) (n : Fin 128), s.linkOfLane n.val = none → exec (.cdrLossOfLock n) s = .next s))

/-- At a release edge of a releasing link whose lanes each hold one extended multiblock, the link releases them and goes on at the next edge; where a lane does not, the link counts a release error; before the edge nothing happens (R76, R77). A FAILED pier marks each 400,000,000 ticks of lost input, which its links that do not release lose; pier.restart returns it to RECOVERING with no failed attempt, and is refused with STATE in any other state; a pier whose links all pass at their resume edges is in service, and an attempt that fails is counted, the eighth leaving it FAILED; link.arrival.clear restarts both measurements (R78, R89, R91). Commands shown to complete, exec answering a next state with its effect, under conditions on the state and the operands alone: linkRelease, pierRecoveryResume, pierFailedMarker, pierRestart, linkArrivalClear. -/
def Obligations.LinksAndPiers : Prop :=
  ((∀ (s : State) (k : Fin 128), s.flag (Key.linkEnable k.val) = true → s.obj (Key.linkState k.val) = 2 →
    (s.link k.val).release (s.linkSt k.val).next ≤ s.time →
    (s.oneEach (s.link k.val) = true → Completes (.linkRelease k) s fun t => t.obj (Key.linkState k.val) = 2 ∧ (t.linkSt k.val).next = (s.linkSt k.val).next + 1 ∧
      (t.linkSt k.val).released = true ∧ ∀ n ∈ (s.link k.val).lanes, (t.laneSt n).buffer = []) ∧
    (s.oneEach (s.link k.val) = false → Completes (.linkRelease k) s fun t =>
      t.obj (Key.linkReleaseErrors k.val) = (s.obj (Key.linkReleaseErrors k.val) + 1) % 2 ^ 32)) ∧
  (∀ (s : State) (k : Fin 128), s.time < (s.link k.val).release (s.linkSt k.val).next → exec (.linkRelease k) s = .next s)) ∧
  ((∀ (s : State) (p : Fin 16), s.obj (Key.pierState p.val) = 4 → (s.pierSt p.val).markedTo + 400000000 * tick ≤ s.time →
    Completes (.pierFailedMarker p) s fun t => (t.pierSt p.val).markedTo = (s.pierSt p.val).markedTo + 400000000 * tick ∧
      ∀ k ∈ s.linksOfPier p.val, s.obj (Key.linkState k) ≠ 2 → (t.linkSt k).next = max (s.linkSt k).next ((s.link k).edgeFrom ((s.pierSt p.val).markedTo + 400000000 * tick))) ∧
  (∀ (s : State) (p : Fin 16), s.ready = true → s.obj (Key.pierState p.val) = 4 →
    Completes (.pierRestart p) s fun t => t.obj (Key.pierState p.val) = 3 ∧ (t.pierSt p.val).attempts = 0 ∧ t.result = Res.done ∧
      t.obj (Key.pierRecoveries p.val) = (s.obj (Key.pierRecoveries p.val) + 1) % 2 ^ 32 ∧ t.mem = s.mem ∧ t.outbox = s.outbox) ∧
  (∀ (s : State) (p : Fin 16), s.ready = true → s.obj (Key.pierState p.val) ≠ 4 → exec (.pierRestart p) s = .next (s.withResult Res.state)) ∧
  (∀ (s : State) (p : Fin 16), s.resumeDue p.val ≠ [] → (∀ k ∈ s.resumeDue p.val, s.resumePasses p.val k = true) →
    (∀ k ∈ s.linksOfPier p.val, k ∈ (s.pierSt p.val).passed ∨ k ∈ s.resumeDue p.val) →
    Completes (.pierRecoveryResume p) s fun t => t.obj (Key.pierState p.val) = 2 ∧ t.obj (Key.lanepllState p.val) = 2 ∧
      ∀ k ∈ s.resumeDue p.val, s.otherRecovers p.val k = false → t.obj (Key.linkState k) = 2) ∧
  (∀ (s : State) (p : Fin 16), (∃ k ∈ s.resumeDue p.val, s.resumePasses p.val k = false) →
    Completes (.pierRecoveryResume p) s fun t => (t.pierSt p.val).attempts = (s.pierSt p.val).attempts + 1 ∧
      t.obj (Key.pierState p.val) = (if 8 ≤ (s.pierSt p.val).attempts + 1 then 4 else 3)) ∧
  (∀ (s : State) (k : Fin 128), s.ready = true → exec (.linkArrivalClear k) s =
    .next ((((s.setObj (Key.linkArrivalMin k.val) 0).setObj (Key.linkArrivalMax k.val) 0).putLink k.val { s.linkSt k.val with measured := false }).withResult Res.done)))

/-- The Deck takes the oldest input position of a port: it leaves the abutment's queue and joins the aligner's history, which holds 4,200 positions; an empty queue gives nothing, a position of a later enable waits for the end of the earlier stream, and the thermal trip or a full output abutment holds the Deck (R94; 01 R20; 03 R80, R85; 17 R458). Synchronising resets (R115, R116): sync.now schedules one at the group's T; a falling edge of SYNC_L sampled before the Ts of the previous edge has passed is only counted, another takes the first grid tick at or after its lead; at Ts the reset is recorded and counted. A TRIGO pulse ends when its width has elapsed and takes no other pulse with it (R102). Commands shown to complete, exec answering a next state with its effect, under conditions on the state and the operands alone: feInputSample, syncReset, syncNow, syncLEdge, trigoPulseEnd. -/
def Obligations.FrontEnds : Prop :=
  ((∀ (s : State) (p : Fin 1024) (it : Item) (r : List Item), s.deckHeld = false → s.queue p.val = it :: r → s.eraClear p.val it.era = true → it.gap = none → it.count = 1 → it.ended = false →
    Completes (.feInputSample p) s fun t => t.queue p.val = r ∧ (t.fe p.val).grid.inputs = (it :: (s.fe p.val).grid.inputs).take 4200 ∧ t.pending = s.pending) ∧
  (∀ (s : State) (p : Fin 1024) (it : Item) (r : List Item), s.queue p.val = it :: r → s.eraClear p.val it.era = false → exec (.feInputSample p) s = .next s) ∧
  (∀ (s : State) (p : Fin 1024), s.queue p.val = [] → exec (.feInputSample p) s = .next s) ∧
  (∀ (s : State) (p : Fin 1024), s.deckHeld = true → exec (.feInputSample p) s = .next s)) ∧
  ((∀ (s : State) (T : KTime), s.due = [(Key.syncNow, T)] → (∀ r ∈ s.fes.resets, r.1 ≠ T) →
    Completes .syncNow s fun t => t.due = [] ∧ t.fes = { s.fes with resets := s.fes.resets ++ [(T, false)] } ∧ t.time = s.time) ∧
  (∀ s : State, s.flag Key.syncPinEnable = true → s.time < s.fes.lastPinTs → exec .syncLEdge s = .next (s.bump Key.syncPinIgnored)) ∧
  (∀ s : State, s.flag Key.syncPinEnable = true → s.fes.lastPinTs ≤ s.time → 0 < s.obj Key.sysrefPeriod →
    Completes .syncLEdge s fun t => ∃ c, t.fes.lastPinTs = c * tick ∧ s.ticks + s.obj Key.syncPinLead ≤ c ∧
      c < s.ticks + s.obj Key.syncPinLead + s.obj Key.sysrefPeriod ∧ ((c : Int) - s.obj Key.sysrefPhase) % (s.obj Key.sysrefPeriod : Int) = 0 ∧ ∃ r ∈ t.fes.resets, r.1 = c * tick) ∧
  (∀ (s : State) (T : KTime), s.fes.resets = [(T, false)] → T ≤ s.time → T < 2 ^ 80 →
    Completes .syncReset s fun t => t.obj Key.syncLast = T ∧ t.obj Key.syncCount = (s.obj Key.syncCount + 1) % 2 ^ 32 ∧ t.fes.resets = [(T, true)] ∧
      t = { s with dict := t.dict, fes := t.fes } ∧ KeepsObjects [Key.syncLast, Key.syncCount] s t) ∧
  (∀ (s : State) (n : Fin 8), Completes (.trigoPulseEnd n) s fun t =>
      (∀ q, q ∈ t.trig.pulses ↔ q ∈ s.trig.pulses ∧ (q.pin ≠ n.val ∨ s.wall < q.stop)) ∧ t = { s with trig := t.trig }))

/-- The edge test (R98): a detector fires only when armed, and firing unarms it and restarts its count; armed again, its value was beyond the re-arm level and at least dead samples had passed. -/
def Obligations.EdgeDetector : Prop :=
  (∀ (c : EdgeCfg) (v : Int) (d : Detector), (riseStep c v d).1 = true →
    d.armed = true ∧ (riseStep c v d).2 = { armed := false, since := 0 } ∧ (c.quantity = 0 → c.level ≤ v) ∧ (c.quantity ≠ 0 → c.level * c.level ≤ v)) ∧
  (∀ (c : EdgeCfg) (v : Int) (d : Detector), d.armed = false → (riseStep c v d).2.armed = true →
    c.dead ≤ d.since + 1 ∧ (c.quantity = 0 → v < c.level - c.hyst) ∧ (c.quantity ≠ 0 → v < (c.level - c.hyst) * (c.level - c.hyst))) ∧
  (∀ (c : EdgeCfg) (v : Int) (d : Detector), (fallStep c v d).1 = true →
    d.armed = true ∧ (fallStep c v d).2 = { armed := false, since := 0 } ∧ (c.quantity = 0 → v ≤ c.level) ∧ (c.quantity ≠ 0 → v ≤ c.level * c.level)) ∧
  (∀ (c : EdgeCfg) (v : Int) (d : Detector), d.armed = false → (fallStep c v d).2.armed = true →
    c.dead ≤ d.since + 1 ∧ (c.quantity = 0 → c.level + c.hyst < v) ∧ (c.quantity ≠ 0 → (c.level + c.hyst) * (c.level + c.hyst) < v))

/-- Frames go to free girders and their results to the view (R128, R150): a frame that failed starts again first, on girders that did not run it; a frame ready to run takes the girders named; a girder that finishes delivers the frame computed by the transform; a failed check discards the results, counts the failure and makes the frame run again. The thermal trip, or a full output abutment, holds all of it. Commands shown to complete, exec answering a next state with its effect, under conditions on the state and the operands alone: frameDispatch, frameComplete. -/
def Obligations.FramesOnGirders : Prop :=
  (∀ (s : State) (v : Fin 512) (p : Fin 1024) (gs : List (Fin 68)) (f : Frame), s.deckHeld = false →
    ((s.viewPort v.val p.val).frames.find? fun f => !f.done && f.girders.isEmpty) = some f → (∀ g ∈ gs, s.girderFree g.val = true) → (∀ g ∈ gs, g.val ∉ f.failedOn) → gs.Nodup → gs.length = gangSize f.size →
    exec (.frameDispatch v p gs) s = .next (s.updFrame v.val p.val { f with girders := gs.map (·.val), startedAt := s.wall })) ∧
  (∀ (s s1 s2 : State) (v : Fin 512) (p : Fin 1024) (gs : List (Fin 68)) (f : Frame), s.deckHeld = false →
    ((s.viewPort v.val p.val).frames.find? fun f => !f.done && f.girders.isEmpty) = none → s.passFrames v.val p.val 4096 = (s1, some (s2, f)) →
    (∀ g ∈ gs, s.girderFree g.val = true) → gs.Nodup → gs.length = gangSize f.size →
    Completes (.frameDispatch v p gs) s fun t =>
      (t.viewPort v.val p.val).frames = (s2.viewPort v.val p.val).frames ++ [{ f with girders := gs.map (·.val), startedAt := s2.wall }] ∧ t.dict = s2.dict ∧ t.mem = s2.mem) ∧
  (∀ (s : State) (g : Fin 68) (v p : Nat) (f : Frame), s.deckHeld = false → s.girderWork g.val = some (v, p, f) →
    exec (.frameComplete g true false) s =
      .next (((s.updFrame v p (s.computeFrame v p f).1).addObj (Key.viewClipCount v) (s.computeFrame v p f).2).deliverReady v p 4096)) ∧
  (∀ (s : State) (g : Fin 68) (v p : Nat) (f : Frame) (ue : Bool), s.deckHeld = false → s.girderWork g.val = some (v, p, f) → (s.girder g.val).failedAt = 0 →
    Completes (.frameComplete g false ue) s fun t => t.obj (Key.girderFaults g.val) = (s.obj (Key.girderFaults g.val) + 1) % 2 ^ 32 ∧
      t.views = (s.updFrame v p { f with girders := [], failedOn := f.girders }).views ∧ (t.girder g.val).failedAt = s.wall + 1 ∧ t = { s with dict := t.dict, views := t.views, girders := t.girders } ∧
      KeepsObjects [Key.girderFaults g.val] s t) ∧
  (∀ (s : State) (v : Fin 512) (p : Fin 1024) (gs : List (Fin 68)), s.deckHeld = true → exec (.frameDispatch v p gs) s = .next s)

/-- Retirement and spares (R151, R524): a girder that times out, or is retired by host software, is RETIRED; the lowest-numbered free spare takes its place and is ready when it says so; no free spare, or a spare, is refused with STATE, a retired girder with ALREADY. Commands shown to complete, exec answering a next state with its effect, under conditions on the state and the operands alone: girderTimeout, spareReady, girderRetire. -/
def Obligations.GirderRetirement : Prop :=
  (∀ (s : State) (g : Fin 68), s.ready = true → s.obj (Key.girderState g.val) = girderInService → ∀ x, s.freeSpare = some x →
    Completes (.girderRetire g) s fun t => t.obj (Key.girderState g.val) = girderRetired ∧ t.obj (Key.girderState x) = girderInService ∧ (t.girder x).coming = true ∧
      t.result = Res.done ∧ t.obj (Key.girderFaults g.val) = s.obj (Key.girderFaults g.val) ∧ t.time = s.time ∧ t.mem = s.mem) ∧
  (∀ (s : State) (g : Fin 68), s.ready = true → s.obj (Key.girderState g.val) = girderRetired → exec (.girderRetire g) s = .next (s.withResult Res.already)) ∧
  (∀ (s : State) (g : Fin 68), s.ready = true → s.obj (Key.girderState g.val) ≠ girderRetired →
    s.obj (Key.girderState g.val) ≠ girderInService ∨ s.freeSpare = none → exec (.girderRetire g) s = .next (s.withResult Res.state)) ∧
  (∀ (s : State) (g : Fin 68) (v p : Nat) (f : Frame), s.girderWork g.val = some (v, p, f) → f.startedAt + frameLimit f.size ≤ s.wall →
    s.obj (Key.girderState g.val) = girderInService →
    (∃ x, s.freeSpare = some x) →
    Completes (.girderTimeout g) s fun t => t.obj (Key.girderState g.val) = girderRetired ∧
      t.obj (Key.girderFaults g.val) = (s.obj (Key.girderFaults g.val) + 1) % 2 ^ 32 ∧ t.mem = s.mem) ∧
  (∀ (s : State) (g : Fin 68), Completes (.spareReady g) s fun t => (t.girder g.val).coming = false ∧ t = { s with girders := t.girders } ∧
    ∀ h, h ≠ g.val → t.girder h = s.girder h)

/-- A frame spectrum adds one count for every point, or counts a saturation: the cells' total grows by the points that did not saturate, no cell passes 65,535, and the table stays in canonical form (R165, R166). -/
def Obligations.DensityCountsEveryPoint : Prop :=
  ∀ (top : Int) (step nc nr dc : Nat) (cells : Tab Int) (words : List Int), tabWf 0 cells = true → (∀ e ∈ cells, 0 ≤ e.2 ∧ e.2 ≤ 65535) →
    tabWf 0 (State.densAdd top step nc nr dc cells words).1 = true ∧ (∀ e ∈ (State.densAdd top step nc nr dc cells words).1, 0 ≤ e.2 ∧ e.2 ≤ 65535) ∧
    ((State.densAdd top step nc nr dc cells words).1.map (·.2)).sum + ((State.densAdd top step nc nr dc cells words).2.2 : Int) = (cells.map (·.2)).sum + (words.length : Int)

/-- A builder that runs takes the next frame of its view (R158); an integrator only counts a frame that its reject mask names (R162); the oldest record in flight, once memory has acknowledged it, moves wptr and counts (R163); a due clear command is taken (R161). Spectrograms, switching outputs and front-end controls: each trace is the next row, counted anew from each enable; an acknowledged row of the enable in force sets spg.seq (R170, R171); an output takes the phase and level its schedule names (R175); an entry whose TIME has come sets the pins its mask names and no others (R180). Commands shown to complete, exec answering a next state with its effect, under conditions on the state and the operands alone: productFrame, productRecordAcked, productClear, spectrogramTrace, spectrogramRowAcked, swBoundary, fectlEvent. -/
def Obligations.ProductCommands : Prop :=
  ((∀ (s : State) (kind : BuilderKind) (n : Fin kind.count) (f : Frame), s.deckHeld = false → kind.code ≠ 2 → ((s.prodCloses kind.code n.val 4096).product kind.code n.val).on = true →
    (let s1 := s.prodCloses kind.code n.val 4096; let x := s1.prodX kind.code n.val (s1.product kind.code n.val).start; s1.viewInput x.1 x.2 (s1.product kind.code n.val).nextX = some f) →
    exec (.productFrame kind n) s = .next ((s.prodCloses kind.code n.val 4096).takeSingle kind.code n.val f)) ∧
  (∀ (s : State) (n : Fin 512), s.deckHeld = false → ((s.prodCloses 2 n.val 4096).product 2 n.val).on = true →
    exec (.productFrame .xp n) s = .next ((s.prodCloses 2 n.val 4096).pairInput n.val)) ∧
  (∀ (s : State) (n : Fin 256) (f : Frame), (s.product 3 n.val).on = true → (s.product 3 n.val).start ≤ f.t → f.t < s.dumpBoundary 3 n.val (s.product 3 n.val).start → f.gap = none →
    s.rejects 3 n.val f = true →
    (s.takeSingle 3 n.val f).obj (Key.intFramesRejected n.val) = (s.obj (Key.intFramesRejected n.val) + 1) % 2 ^ 64 ∧
    ((s.takeSingle 3 n.val f).product 3 n.val).cells = (s.product 3 n.val).cells ∧ KeepsObjects [Key.intFramesRejected n.val] s (s.takeSingle 3 n.val f)) ∧
  (∀ (s : State) (kind : BuilderKind) (n : Fin kind.count) (r : ProductRecord) (rest : List ProductRecord), (s.product kind.code n.val).unacked = r :: rest →
    s.outstandingIn (.product kind.code n.val) (r.base + r.offset) r.bytes = false → s.lastEnable (prodKey kind.code n.val 1) ≤ r.era → r.next < 2 ^ 64 →
    Completes (.productRecordAcked kind n) s fun t => (t.product kind.code n.val).unacked = rest ∧ t.obj (prodKey kind.code n.val 9) = r.next ∧
      t.obj (prodKey kind.code n.val 10) = (s.obj (prodKey kind.code n.val 10) + 1) % 2 ^ 64 ∧ tabGet 0 t.pev.evtCount 7 = (tabGet 0 s.pev.evtCount 7 + 1) % 2 ^ 32) ∧
  (∀ (s : State) (kind : BuilderKind) (n : Fin kind.count),
    exec (.productClear kind n) s = .next ((s.withDue (s.due.filter fun d => d.1 != prodKey kind.code n.val 13)).prodCloses kind.code n.val 4096))) ∧
  ((∀ (s : State) (g : Fin 64) (a b era : KTime) (tr : Trace) (later : List Trace), s.deckHeld = false → s.spgOnFrom g.val (s.spectro g.val).next = some (a, b) →
    s.spgRebind g.val a = none →
    ((s.viewPort (s.objAt (Key.spgView g.val) a) (s.objAt (Key.spgPort g.val) a)).traces.filter fun t => decide (a ≤ t.t)) = tr :: later →
    s.spgOnFrom g.val tr.t = some (tr.t, era) →
    Completes (.spectrogramTrace g) s fun t => (t.spectro g.val).era = era ∧ (t.spectro g.val).next = tr.t + 1 ∧
      (t.spectro g.val).taken = (if (s.spectro g.val).era = era then (s.spectro g.val).taken else 0) + 1 ∧
      (t.spectro g.val).unacked.length = (s.spectro g.val).unacked.length + 1 ∧ KeepsObjects [Key.memLostWrites] s t) ∧
  (∀ (s : State) (g : Fin 64) (r : SpectroRow) (rest : List SpectroRow), (s.spectro g.val).unacked = r :: rest →
    s.outstandingIn (.spectrogram g.val) r.row r.pitch = false → s.outstandingIn (.spectrogram g.val) r.header 64 = false → s.lastEnable (Key.spgEnable g.val) ≤ r.era →
    Completes (.spectrogramRowAcked g) s fun t => t.obj (Key.spgSeq g.val) = (r.trace + 1) % 2 ^ 64 ∧ (t.spectro g.val).unacked = rest ∧
      tabGet 0 t.pev.evtCount 7 = (tabGet 0 s.pev.evtCount 7 + 1) % 2 ^ 32) ∧
  (∀ (s : State) (n : Fin 8), Completes (.swBoundary n) s fun t =>
      t.obj (Key.swPhase n.val) = (match s.swPhaseAt n.val s.time with | some x => x.1 % 256 | none => 255) ∧
      bit t.prods.swPins n.val = (match s.swPhaseAt n.val s.time with | some x => bit (s.objAt (Key.swLevels n.val) s.time) x.1 | none => false) ∧
      t = { s with dict := t.dict, prods := t.prods } ∧ KeepsObjects [Key.swPhase n.val] s t) ∧
  (∀ (s : State) (e : Nat), s.fectlNextTime = some e → e ≤ s.ticks → s.fectlPending e = false → s.prods.fectlNext + 1 = s.obj Key.fectlCount → s.obj Key.fectlMode = 0 →
    Completes .fectlEvent s fun t => t.prods.fectlNext = s.prods.fectlNext + 1 ∧
      (∀ b < 32, bit (t.obj Key.fectlLevel) b =
        (if bit (State.fectlEntry (s.obj Key.fectlTable) s.prods.fectlNext).2.1 b then bit (State.fectlEntry (s.obj Key.fectlTable) s.prods.fectlNext).2.2 b else bit (s.obj Key.fectlLevel) b)) ∧
      t = { s with dict := t.dict, prods := t.prods, fes := t.fes } ∧ KeepsObjects [Key.fectlLevel] s t))

/-- A mask takes the next position of its view and port (R194 to R197): with none it only ends, once it is off and has taken every spectrum before its disable; a GAP header empties the history and leaves the armed state; a spectrum that shares a flag with mask.reject is only counted; any other is entered and counted. An armed mask is a hit when v reaches K and fires when the last J entered spectra hold M hits; firing disarms it, empties its history and clears its count (R195). A disarmed mask counts the spectra with u below K in a row and arms again, with an empty history, when they reach mask.rearm (R196). Commands shown to complete, exec answering a next state with its effect, under conditions on the state and the operands alone: maskSpectrum. -/
def Obligations.Masks : Prop :=
  ((∀ (s : State) (m : Fin 256), s.deckHeld = true → exec (.maskSpectrum m) s = .next s) ∧
  (∀ (s : State) (m : Fin 256), s.deckHeld = false → (s.maskNext m.val (s.mask m.val).next State.maskFuel).2 = none → exec (.maskSpectrum m) s = .next (s.maskEnd m.val)) ∧
  (∀ (s : State) (m : Fin 256) (v p : Nat) (f : Frame), s.deckHeld = false → s.maskNext m.val (s.mask m.val).next State.maskFuel = ((v, p), some f) →
    s.flagAt (Key.maskEnable m.val) f.t = true → f.skip = none → f.gap.isSome = true →
    Completes (.maskSpectrum m) s fun t => (t.mask m.val).history = [] ∧ (t.mask m.val).clear = 0 ∧ (t.mask m.val).next = f.t + 1 ∧
      t.obj (Key.maskHistory m.val) = 0 ∧ t = { s with dict := t.dict, masks := t.masks, trig := t.trig } ∧ t.trig.events = s.trig.events ∧ KeepsObjects [Key.maskHistory m.val] s t) ∧
  (∀ (s : State) (m : Fin 256) (v p : Nat) (f : Frame), s.deckHeld = false → s.maskNext m.val (s.mask m.val).next State.maskFuel = ((v, p), some f) →
    s.flagAt (Key.maskEnable m.val) f.t = true → f.skip = none → f.gap = none → (s.objAt (Key.maskReject m.val) f.t &&& f.flags) ≠ 0 →
    Completes (.maskSpectrum m) s fun t => t.obj (Key.maskRejected m.val) = (s.obj (Key.maskRejected m.val) + 1) % 2 ^ 64 ∧
      t.obj (Key.maskSpectra m.val) = s.obj (Key.maskSpectra m.val) ∧ t.trig.events = s.trig.events ∧ t.mem = s.mem) ∧
  (∀ (s : State) (m : Fin 256) (v p : Nat) (f : Frame), s.deckHeld = false → s.maskNext m.val (s.mask m.val).next State.maskFuel = ((v, p), some f) →
    s.flagAt (Key.maskEnable m.val) f.t = true → f.skip = none → f.gap = none → (s.objAt (Key.maskReject m.val) f.t &&& f.flags) = 0 →
    Completes (.maskSpectrum m) s fun t => t.obj (Key.maskSpectra m.val) = (s.obj (Key.maskSpectra m.val) + 1) % 2 ^ 64 ∧
      t.obj (Key.maskRejected m.val) = s.obj (Key.maskRejected m.val) ∧ t.mem.cells = s.mem.cells)) ∧
  ((∀ (s : State) (m : Fin 256) (t flags : Nat) (bad : List Nat) (hist : List (Bool × Nat)),
    hist = ((decide (s.objAt (Key.maskK m.val) t ≤ bad.length), flags % 32) :: (s.mask m.val).history).take (s.objAt (Key.maskJ m.val) t) →
    ((hist.filter (·.1)).length < s.objAt (Key.maskM m.val) t →
      ((s.maskArmed m.val t flags bad).mask m.val).history = hist ∧ (s.maskArmed m.val t flags bad).trig = s.trig ∧
      KeepsObjects [Key.maskHistory m.val] s (s.maskArmed m.val t flags bad)) ∧
    (s.objAt (Key.maskM m.val) t ≤ (hist.filter (·.1)).length → s.obj (Key.maskState m.val) = 1 →
      ((s.maskArmed m.val t flags bad).mask m.val).history = [] ∧ ((s.maskArmed m.val t flags bad).mask m.val).clear = 0 ∧
      (s.maskArmed m.val t flags bad).obj (Key.maskState m.val) = 2 ∧
      (s.maskArmed m.val t flags bad).obj (Key.maskEvents m.val) = (s.obj (Key.maskEvents m.val) + 1) % 2 ^ 64 ∧
      ∃ e ∈ (s.maskArmed m.val t flags bad).trig.events, e.source = 0x2000 + m.val ∧ e.time = t ∧ e.d0 = bad.length ∧ e.d1 = bad.headD 0)) ∧
  (∀ (s : State) (m : Fin 256) (t u : Nat), 0 < s.objAt (Key.maskRearm m.val) t →
    (s.objAt (Key.maskK m.val) t ≤ u → ((s.maskDisarmed m.val t u).mask m.val).clear = 0 ∧ (s.maskDisarmed m.val t u).obj (Key.maskState m.val) = s.obj (Key.maskState m.val)) ∧
    (u < s.objAt (Key.maskK m.val) t → (s.mask m.val).clear + 1 < s.objAt (Key.maskRearm m.val) t →
      ((s.maskDisarmed m.val t u).mask m.val).clear = (s.mask m.val).clear + 1 ∧ (s.maskDisarmed m.val t u).obj (Key.maskState m.val) = s.obj (Key.maskState m.val)) ∧
    (u < s.objAt (Key.maskK m.val) t → s.objAt (Key.maskRearm m.val) t ≤ (s.mask m.val).clear + 1 →
      ((s.maskDisarmed m.val t u).mask m.val).history = [] ∧ ((s.maskDisarmed m.val t u).mask m.val).clear = 0 ∧ (s.maskDisarmed m.val t u).obj (Key.maskState m.val) = 1)))

/-- TRIGI edges and command triggers (R203, R206): a selected edge outside the dead time gives one event with TIME the edge less trigi.delay; an edge that is not selected, or falls in the dead time, changes only trigi.level; a due trig.cmd gives one event with TIME the group's T. Remote channels (R207, R209): a channel that names another node and has had no watermark advance for rtrig.timeout becomes STALE; the publisher that publishes something sends its watermark; one that publishes nothing sends nothing. The trigger log writes the next event in the order of R187 once its kinds are settled, and advances trig.log.wptr by one record when memory has acknowledged it (R215). Commands shown to complete, exec answering a next state with its effect, under conditions on the state and the operands alone: trigiEdge, trigCmd, rtrigWatermarkSend, rtrigStale, trigLogEvent, trigLogAcked. -/
def Obligations.TriggerUnits : Prop :=
  ((∀ (s : State) (n : Fin 8) (r : Bool) (pos : Fin 64), s.objAt (Key.trigiEdge n.val) (s.ticks * tick + pos.val * 1024) = 0 →
    exec (.trigiEdge n r pos) s = .next (s.setObj (Key.trigiLevel n.val) (b2n r))) ∧
  (∀ (s : State) (n : Fin 8) (pos : Fin 64), s.objAt (Key.trigiEdge n.val) (s.ticks * tick + pos.val * 1024) = 1 →
    tabGet 0 s.trig.lastEdge n.val = 0 → 0 ≤ s.objIAt (Key.trigiDelay n.val) (s.ticks * tick + pos.val * 1024) →
    s.objIAt (Key.trigiDelay n.val) (s.ticks * tick + pos.val * 1024) ≤ (s.ticks * tick + pos.val * 1024 : Nat) → s.time < 2 ^ 80 →
    Completes (.trigiEdge n true pos) s fun t => t.obj (Key.trigiCount n.val) = (s.obj (Key.trigiCount n.val) + 1) % 2 ^ 64 ∧
      (t.obj (Key.trigiLast n.val) : Int) = (s.ticks * tick + pos.val * 1024 : Nat) - s.objIAt (Key.trigiDelay n.val) (s.ticks * tick + pos.val * 1024) ∧
      tabGet 0 t.trig.lastEdge n.val = s.ticks * tick + pos.val * 1024 + 1 ∧
      ∃ e ∈ t.trig.events, e.source = 0x5000 + n.val ∧ e.qual = 0 ∧ (e.time : Int) = (s.ticks * tick + pos.val * 1024 : Nat) - s.objIAt (Key.trigiDelay n.val) (s.ticks * tick + pos.val * 1024)) ∧
  (∀ (s : State) (n : Fin 8) (r : Bool) (pos : Fin 64), tabGet 0 s.trig.lastEdge n.val ≠ 0 →
    s.ticks * tick + pos.val * 1024 < tabGet 0 s.trig.lastEdge n.val - 1 + s.objAt (Key.trigiDead n.val) (s.ticks * tick + pos.val * 1024) * tick →
    exec (.trigiEdge n r pos) s = .next (s.setObj (Key.trigiLevel n.val) (b2n r))) ∧
  (∀ (s : State) (c : Fin 16) (T : KTime), s.due = [(Key.trigCmd c.val, T)] →
    Completes (.trigCmd c) s fun t => t.due = [] ∧ t.time = s.time ∧ t.mem = s.mem ∧ ∃ e ∈ t.trig.events, e.source = 0x7000 + c.val ∧ e.time = T ∧ e.node = s.obj Key.spanNode)) ∧
  ((∀ (s : State) (c : Fin 64), s.obj (Key.rtrigState c.val) = 1 → tabGet 0 s.trig.remoteAt c.val - 1 + s.obj Key.rtrigTimeout * tick ≤ s.time →
    Completes (.rtrigStale c) s fun t => t.obj (Key.rtrigState c.val) = 2 ∧ t = { s with dict := t.dict } ∧ KeepsObjects [Key.rtrigState c.val, Key.trigStale] s t) ∧
  (∀ (s : State) (c : Fin 64), s.obj (Key.rtrigState c.val) ≠ 1 → exec (.rtrigStale c) s = .next s) ∧
  (∀ s : State, s.publishing = [] → exec .rtrigWatermarkSend s = .next s) ∧
  (∀ s : State, s.publishing ≠ [] → Completes .rtrigWatermarkSend s fun t => t.trig.sentAt = s.wall ∧ t.trig.events = s.trig.events ∧ t.mem = s.mem ∧ t.time = s.time)) ∧
  ((∀ (s : State) (e : Event) (r : List Event), s.trig.lateLog = e :: r →
    Completes .trigLogEvent s fun t => t.trig.lateLog = r ∧ t.trig.logUnacked = s.trig.logUnacked + 1 ∧ t.trig.events = s.trig.events) ∧
  (∀ (s : State) (e : Event), s.trig.lateLog = [] → State.nextEvent s.trig.logCursor (s.trig.events.filter fun e => s.logs e && !e.missed.contains State.logConsumer) = some e →
    s.kindsSettled (s.objAt Key.trigLogKinds e.time) e.time = true →
    Completes .trigLogEvent s fun t => t.trig.logCursor = some e ∧ t.trig.logUnacked = s.trig.logUnacked + 1 ∧ t.trig.events = s.trig.events) ∧
  (∀ (s : State) (e : Event), s.trig.lateLog = [] → State.nextEvent s.trig.logCursor (s.trig.events.filter fun e => s.logs e && !e.missed.contains State.logConsumer) = some e →
    s.kindsSettled (s.objAt Key.trigLogKinds e.time) e.time = false → exec .trigLogEvent s = .next s) ∧
  (∀ s : State, s.trig.logUnacked ≠ 0 → s.outstandingIn .trigLog (s.obj Key.trigLogBase + s.obj Key.trigLogWptr) 32 = false →
    s.obj Key.trigLogSize ≠ 0 →
    Completes .trigLogAcked s fun t => t.obj Key.trigLogWptr = (s.obj Key.trigLogWptr + 32) % s.obj Key.trigLogSize % 2 ^ 64 ∧ t.trig.logUnacked = s.trig.logUnacked - 1 ∧
      KeepsObjects [Key.trigLogWptr] s t ∧ t.mem = s.mem))

/-- The acceptance procedure (R221, R220, R222): a firing of a disabled or stopped context, before its start, in the open record without extension, or in hold-off is only counted as ignored; with extension it moves END; otherwise it opens a record with the window of R219. -/
def Obligations.FiringsOpenRecords : Prop :=
  (∀ (s : State) (c : Fin 1024) (t fl : Nat), s.flagAt (Key.ctxEnable c.val) t = false ∨ (s.ctx c.val).stopped = true ∨ t < (s.ctx c.val).from' →
    s.offerFiring c.val t fl = s.bump (Key.ctxIgnored c.val)) ∧
  (∀ (s : State) (c : Fin 1024) (t fl n : Nat) (r : Record), s.flagAt (Key.ctxEnable c.val) t = true → (s.ctx c.val).stopped = false → (s.ctx c.val).from' ≤ t →
    (s.ctx c.val).openRec = some n → s.record? c.val n = some r → t < r.stop →
    (s.flagAt (Key.ctxExtend c.val) t = false → s.offerFiring c.val t fl = s.bump (Key.ctxIgnored c.val)) ∧
    (s.flagAt (Key.ctxExtend c.val) t = true →
      (s.offerFiring c.val t fl).record? c.val n = some { r with stop := min (t + s.objAt (Key.ctxPost c.val) t * tick) (r.start + s.objAt (Key.ctxRecMax c.val) t * tick), flags := r.flags ||| 128 } ∧
      (s.offerFiring c.val t fl).obj (Key.ctxRetriggers c.val) = (s.obj (Key.ctxRetriggers c.val) + 1) % 2 ^ 64 ∧
      KeepsObjects [Key.ctxRetriggers c.val] s (s.offerFiring c.val t fl))) ∧
  (∀ (s : State) (c : Fin 1024) (t fl : Nat), s.flagAt (Key.ctxEnable c.val) t = true → (s.ctx c.val).stopped = false → (s.ctx c.val).from' ≤ t → (s.ctx c.val).openRec = none →
    (s.objAt (Key.ctxHoldoffMode c.val) t = 0 → t < (s.ctx c.val).rearm → s.offerFiring c.val t fl = s.bump (Key.ctxIgnored c.val)) ∧
    (s.objAt (Key.ctxHoldoffMode c.val) t = 1 → 0 < (s.ctx c.val).left →
      ((s.offerFiring c.val t fl).ctx c.val).left = (s.ctx c.val).left - 1 ∧ (s.offerFiring c.val t fl).acq.records = s.acq.records ∧ KeepsObjects [Key.ctxIgnored c.val] s (s.offerFiring c.val t fl)) ∧
    (s.objAt (Key.ctxHoldoffMode c.val) t = 0 → (s.ctx c.val).rearm ≤ t →
      (s.offerFiring c.val t fl).obj (Key.ctxRecords c.val) = (s.obj (Key.ctxRecords c.val) + 1) % 2 ^ 64 ∧ (s.offerFiring c.val t fl).obj (Key.ctxLast c.val) = t % 2 ^ 80 ∧
      ((s.offerFiring c.val t fl).ctx c.val).openRec = some (s.obj (Key.ctxRecords c.val)) ∧
      ∃ r, (s.offerFiring c.val t fl).acq.records = s.acq.records ++ [r] ∧ r.ctx = c.val ∧ r.number = s.obj (Key.ctxRecords c.val) ∧ r.trigger = t ∧
        r.start = t - s.objAt (Key.ctxPre c.val) t * tick ∧ r.stop = t + s.objAt (Key.ctxPost c.val) t * tick ∧ r.gen = (s.ctx c.val).genNo % 256))

/-- An expression takes its next event only when every source it combines has settled at the event's time, and in their order, once it has taken the generation starts and the armings that the settled point has reached (R190, R213, R226); the settled point passing END, with every event up to END taken, fixes END and closes the record (R221). ctx.arm returns a STOPPED context to ARMED from its T with hold-off cleared, once every event below T is settled and taken (R223); a context that is not STOPPED stays as it is. ctx.abort cuts each record whose END lies after its commit point, DONE, or cuts none, ALREADY (R232). Commands shown to complete, exec answering a next state with its effect, under conditions on the state and the operands alone: exprEvent, ctxSettledAdvance, ctxArm, ctxAbort. -/
def Obligations.Contexts : Prop :=
  ((∀ (s : State) (c : Fin 1024), s.deckStopped = false → (s.takeTurns c.val State.turnFuel).ctxNext c.val = none →
    exec (.exprEvent c) s = .next ((s.takeTurns c.val State.turnFuel).ctxDone c.val)) ∧
  (∀ (s : State) (c : Fin 1024) (e : Event), s.deckStopped = false → (s.takeTurns c.val State.turnFuel).ctxNext c.val = some e →
    (s.takeTurns c.val State.turnFuel).exprSettled ((s.takeTurns c.val State.turnFuel).ctxExprNow c.val) e.time = false →
    exec (.exprEvent c) s = .next ((s.takeTurns c.val State.turnFuel).ctxDone c.val)) ∧
  (∀ (s : State) (c : Fin 1024) (e : Event), s.deckStopped = false → (s.takeTurns c.val State.turnFuel).ctxNext c.val = some e →
    (s.takeTurns c.val State.turnFuel).exprSettled ((s.takeTurns c.val State.turnFuel).ctxExprNow c.val) e.time = true →
    Completes (.exprEvent c) s fun t => (t.ctx c.val).taken = some e ∧ t.trig = s.trig ∧ t.mem = s.mem ∧ t.time = s.time) ∧
  (∀ (s s1 : State) (c : Fin 1024) (n : Nat) (r : Record), s.deckStopped = false → s1 = s.takeTurns c.val State.turnFuel → (s1.ctx c.val).openRec = some n →
    s1.record? c.val n = some r → s1.ctxClear c.val r.stop = true →
    Completes (.ctxSettledAdvance c) s fun t => (t.ctx c.val).openRec = none ∧ r.stop + 1 ≤ (t.ctx c.val).passed ∧
      (s1.objAt (Key.ctxHoldoffMode c.val) r.trigger = 0 → (t.ctx c.val).rearm = r.stop + s1.objAt (Key.ctxHoldoff c.val) r.trigger * tick) ∧
      (t.ctx c.val).stopped = (s1.objAt (Key.ctxMode c.val) r.trigger == 1) ∧
      ∃ r', t.record? c.val n = some r' ∧ r'.fixed = true ∧ r'.stop = r.stop)) ∧
  ((∀ (s : State) (c : Fin 1024) (T : KTime), s.nextGen c.val = none → s.nextArm c.val = some T → (∀ w ∈ s.allWrites, w.2 = Key.ctxArm c.val → w.1 ∈ (s.ctx c.val).arms ∨ w.1 = T) →
    T ≤ s.time → s.ctxClear c.val (T - 1) = true → (s.ctx c.val).openRec = none → (s.ctx c.val).stopped = true →
    Completes (.ctxArm c) s fun t => (t.ctx c.val).stopped = false ∧ (t.ctx c.val).from' = T ∧ (t.ctx c.val).rearm = T ∧ (t.ctx c.val).left = 0 ∧
      t.due = (s.due.filter fun d => d.1 != Key.ctxArm c.val) ∧ t.acq.records = s.acq.records ∧ KeepsObjects [Key.ctxState c.val] s t) ∧
  (∀ (s : State) (c : Nat) (T : KTime), (s.ctx c).openRec = none → (s.ctx c).stopped = false →
    ((s.takeArm c T).ctx c).stopped = false ∧ ((s.takeArm c T).ctx c).from' = (s.ctx c).from' ∧ ((s.takeArm c T).ctx c).rearm = (s.ctx c).rearm ∧
      ((s.takeArm c T).ctx c).left = (s.ctx c).left ∧ (s.takeArm c T).dict = s.dict ∧ (s.takeArm c T).acq.records = s.acq.records) ∧
  (∀ (s : State) (c : Fin 1024), s.ready = true → (∀ r ∈ s.acq.records, r.ctx = c.val → s.abortRecord r = none) →
    exec (.ctxAbort c) s = .next (s.withResult Res.already)) ∧
  (∀ (s : State) (c : Fin 1024) (r : Record) (C : KTime), s.ready = true → r ∈ s.acq.records → r.ctx = c.val → r.state = 0 → s.recordCommit r = some C → C < r.stop →
    Completes (.ctxAbort c) s fun t => t.result = Res.done ∧ t.time = s.time ∧ t.mem = s.mem ∧ t.pending = s.pending) ∧
  (∀ (s t : State) (r : Record) (C : KTime), r.ctx < 1024 → s.record? r.ctx r.number = some r → s.recordCommit r = some C → s.abortRecord r = some t →
    C < r.stop ∧ t.obj (Key.ctxAborts r.ctx) = (s.obj (Key.ctxAborts r.ctx) + 1) % 2 ^ 32 ∧
    ∃ r', t.record? r.ctx r.number = some r' ∧ r'.stop = max C r.trigger ∧ bit r'.flags 6 = true ∧ r'.fixed = true))

/-- The record pipeline (R231, R234, R240): the oldest record that waits takes staging space when it finds enough; extraction leaves a record's window alone; a record for no destination is COMPLETE in its turn and frees its space; an acknowledged completion entry moves acq.done.wptr. Commands shown to complete, exec answering a next state with its effect, under conditions on the state and the operands alone: stagingSpaceGrant, extractBlockReturn, recordDelivered, completionEntryAcked. -/
def Obligations.RecordPipeline : Prop :=
  (∀ (s : State), s.stageNext = none ∨ (∃ r, s.stageNext = some r ∧ s.stagePlace (s.stageNeed r) = none) → exec .stagingSpaceGrant s = .next s) ∧
  (∀ (s : State) (r : Record) (a : Nat), s.stageNext = some r → s.stagePlace (s.stageNeed r) = some a →
    Completes .stagingSpaceGrant s fun t => ∃ r', t.record? r.ctx r.number = some r' ∧ r'.stage = some (a, if r.fixed then min (s.stageNeed r) (s.stageUsed r) else s.stageNeed r) ∧ r'.stop = r.stop ∧ r'.trigger = r.trigger) ∧
  (∀ (s : State) (c : Fin 1024) (n : Nat) (r : Record), s.record? c.val n = some r → r.state ≠ 0 ∨ r.stage = none → exec (.extractBlockReturn c n) s = .next s) ∧
  (∀ (s : State) (c : Fin 1024) (n : Nat) (r : Record), s.record? c.val n = some r → r.state = 0 → r.stage.isSome = true →
    Completes (.extractBlockReturn c n) s fun t => ∃ r', t.record? c.val n = some r' ∧ r'.stage = r.stage ∧ r'.start = r.start ∧ r'.stop = r.stop ∧ r'.streams.length = r.streams.length) ∧
  (∀ (s : State) (c : Fin 1024) (n : Nat) (r : Record), s.record? c.val n = some r → r.state = 2 → r.placed = false → s.inTurn r = true → s.objAt (Key.ctxDestKind r.ctx) r.trigger = 0 →
    (∀ y ∈ s.acq.records, y.ctx = c.val → n ≤ y.number ∨ y.state = 3) → s.obj Key.acqDoneSize = 0 →
    Completes (.recordDelivered c n) s fun t => (∃ r', t.record? c.val n = some r' ∧ r'.state = 3 ∧ r'.stage = none ∧ r'.location = 0) ∧
      t.obj (Key.ctxCompleted c.val) = (s.obj (Key.ctxCompleted c.val) + 1) % 2 ^ 64 ∧ t.mem = s.mem) ∧
  (∀ (s : State) (off : Nat) (rest : List Nat), s.acq.doneUnacked = off :: rest → s.outstandingIn .completion (s.obj Key.acqDoneBase + off) 128 = false →
    s.obj Key.acqDoneSize ≠ 0 →
    Completes .completionEntryAcked s fun t => t.obj Key.acqDoneWptr = (off + 128) % s.obj Key.acqDoneSize % 2 ^ 64 ∧ t.acq.doneUnacked = rest ∧ t.acq.records = s.acq.records ∧
      tabGet 0 t.pev.evtCount 6 = (tabGet 0 s.pev.evtCount 6 + 1) % 2 ^ 32)

/-- Units of the cores (R244, R248, R260, R264): the oldest record that waits takes a free core; a block goes to its buffer when the core may fill it; a program that has executed its budget ends with MSTATUS BUDGET; tr.clear unloads a slot. Commands shown to complete, exec answering a next state with its effect, under conditions on the state and the operands alone: trestleDispatch, blockDelivered, budgetExhausted, trClear. -/
def Obligations.TrestleUnits : Prop :=
  (∀ (s : State) (k : Fin 32) (r : Record), s.deckStopped = false → (s.core k.val).record = none → (s.acq.records.find? fun r => r.state == 1 && !r.running) = some r →
    Completes (.trestleDispatch k) s fun t => (t.core k.val).record = some (r.ctx, r.number) ∧ (t.core k.val).pos = 0 ∧ (t.core k.val).bank = 0 ∧ t.obj (Key.trCoreState k.val) = 1 ∧
      (∃ r', t.record? r.ctx r.number = some r' ∧ r'.running = true ∧ r'.streams = (s.stagedRecord r).1.streams) ∧ ∀ j, j ≠ k.val → t.core j = s.core j) ∧
  (∀ (s : State) (k : Fin 32), (s.core k.val).record ≠ none → exec (.trestleDispatch k) s = .next s) ∧
  (∀ (s : State) (k : Fin 32) (r : Record), s.deckStopped = false → s.coreRecord (s.core k.val) = some r → 0x8000 ≤ (s.core k.val).prog →
    (s.core k.val).inPlace < s.blockCount r (s.imageOf (s.core k.val).prog r) → (s.core k.val).inPlace ≤ (s.core k.val).events → (s.core k.val).waiting = false →
    Completes (.blockDelivered k) s fun t => (t.core k.val).inPlace = (s.core k.val).inPlace + 1 ∧ (t.core k.val).d = (s.core k.val).d ∧ (t.core k.val).pc = (s.core k.val).pc ∧
      t = { s with cores := t.cores }) ∧
  (∀ (s : State) (k : Fin 32) (r : Record), s.deckStopped = false → s.coreRecord (s.core k.val) = some r → 0x8000 ≤ (s.core k.val).prog → (s.core k.val).prog ≤ 0x801F →
    s.budgetOf r ≤ (s.core k.val).pos → (s.core k.val).waiting = false →
    Completes (.budgetExhausted k) s fun t => t.core k.val = {} ∧ t.record? r.ctx r.number = some { r with state := 2, running := false, mstatus := 4, results := zeros 56 } ∧
      t.obj (Key.trBudgets ((s.core k.val).prog - 0x8000)) = (s.obj (Key.trBudgets ((s.core k.val).prog - 0x8000)) + 1) % 2 ^ 64) ∧
  (∀ (s : State) (n : Fin 32) (T : KTime), s.due = [(Key.trClear n.val, T)] →
    Completes (.trClear n) s fun t => t.due = [] ∧ t.obj (Key.trImage n.val) = 0 ∧ t.obj (Key.trLoaded n.val) = 0 ∧ t.obj (Key.trDigest n.val) = 0 ∧
      t = { s with dict := t.dict, due := [], undo := t.undo } ∧ KeepsObjects [Key.trImage n.val, Key.trLoaded n.val, Key.trDigest n.val] s t)

/-- The 24-bit arithmetic instructions (R251, R254, R256): the exact result, saturated or wrapped, is seen three positions on with Z, N, V and the sticky flags; nothing else changes. Commands shown to complete, exec answering a next state with its effect, under conditions on the state and the operands alone: add, sub, addi, neg, abs, mul, shl, asr. -/
def Obligations.DataArithmetic : Prop :=
  ∀ (s : State) (k : Fin 32) (r : Record) (sat : Bool) (rd ra rb : Fin 16) (imm : BitVec 24) (n : BitVec 7) (c : Core), c = (s.core k.val).settle →
    (Runs s k r (.add k sat rd ra rb) → Completes (.add k sat rd ra rb) s fun t => RanOn s t k.val ∧ DataResult c (t.core k.val) sat rd.val (c.dval ra.val + c.dval rb.val)) ∧
    (Runs s k r (.sub k sat rd ra rb) → Completes (.sub k sat rd ra rb) s fun t => RanOn s t k.val ∧ DataResult c (t.core k.val) sat rd.val (c.dval ra.val - c.dval rb.val)) ∧
    (Runs s k r (.addi k sat rd ra imm) → Completes (.addi k sat rd ra imm) s fun t => RanOn s t k.val ∧ DataResult c (t.core k.val) sat rd.val (c.dval ra.val + imm.toInt)) ∧
    (Runs s k r (.neg k sat rd ra) → Completes (.neg k sat rd ra) s fun t => RanOn s t k.val ∧ DataResult c (t.core k.val) sat rd.val (-c.dval ra.val)) ∧
    (Runs s k r (.abs k sat rd ra) → Completes (.abs k sat rd ra) s fun t => RanOn s t k.val ∧ DataResult c (t.core k.val) sat rd.val (c.dval ra.val).natAbs) ∧
    (Runs s k r (.mul k sat rd ra rb) → Completes (.mul k sat rd ra rb) s fun t => RanOn s t k.val ∧
      DataResult c (t.core k.val) sat rd.val (roundHalfEven (c.dval ra.val * c.dval rb.val) (2 ^ 23))) ∧
    (Runs s k r (.shl k sat rd ra n) → n.toNat ≤ 23 → Completes (.shl k sat rd ra n) s fun t => RanOn s t k.val ∧ DataResult c (t.core k.val) sat rd.val (c.dval ra.val * 2 ^ n.toNat)) ∧
    (Runs s k r (.asr k sat rd ra n) → n.toNat ≤ 23 → Completes (.asr k sat rd ra n) s fun t => RanOn s t k.val ∧ DataResult c (t.core k.val) sat rd.val (c.dval ra.val / 2 ^ n.toNat))

/-- Minimum, maximum, logic, LSR and the compares (R258, Table 9-6): a logic instruction leaves the flags alone; a compare writes Z and N of the exact difference and clears V. Moves, addresses, data memory, special sources and flags (R246, R250, R251, R258, R262): data results are seen three positions on, address registers and stores at once; a load or store steps its address register. Commands shown to complete, exec answering a next state with its effect, under conditions on the state and the operands alone: movi, ld, st, lea, mvda, mvad, min, max, cmp, cmpi, and, or, xor, lsr, mfs, mff, clrf. -/
def Obligations.DataMovesAndLogic : Prop :=
  (∀ (s : State) (k : Fin 32) (r : Record) (rd ra rb : Fin 16) (imm : BitVec 24) (n : BitVec 7) (c : Core), c = (s.core k.val).settle →
    (Runs s k r (.min k rd ra rb) → Completes (.min k rd ra rb) s fun t => RanOn s t k.val ∧
      StepsTo c { c with late := c.late ++ [dataWrite c rd.val ((if c.dval ra.val ≤ c.dval rb.val then c.dreg ra.val else c.dreg rb.val) % 2 ^ 24)] } (t.core k.val)) ∧
    (Runs s k r (.max k rd ra rb) → Completes (.max k rd ra rb) s fun t => RanOn s t k.val ∧
      StepsTo c { c with late := c.late ++ [dataWrite c rd.val ((if c.dval ra.val ≤ c.dval rb.val then c.dreg rb.val else c.dreg ra.val) % 2 ^ 24)] } (t.core k.val)) ∧
    (Runs s k r (.and k rd ra rb) → Completes (.and k rd ra rb) s fun t => RanOn s t k.val ∧
      StepsTo c { c with late := c.late ++ [dataWrite c rd.val ((c.dreg ra.val &&& c.dreg rb.val) % 2 ^ 24)] } (t.core k.val)) ∧
    (Runs s k r (.or k rd ra rb) → Completes (.or k rd ra rb) s fun t => RanOn s t k.val ∧
      StepsTo c { c with late := c.late ++ [dataWrite c rd.val ((c.dreg ra.val ||| c.dreg rb.val) % 2 ^ 24)] } (t.core k.val)) ∧
    (Runs s k r (.xor k rd ra rb) → Completes (.xor k rd ra rb) s fun t => RanOn s t k.val ∧
      StepsTo c { c with late := c.late ++ [dataWrite c rd.val ((c.dreg ra.val ^^^ c.dreg rb.val) % 2 ^ 24)] } (t.core k.val)) ∧
    (Runs s k r (.lsr k rd ra n) → n.toNat ≤ 23 → Completes (.lsr k rd ra n) s fun t => RanOn s t k.val ∧
      StepsTo c { c with late := c.late ++ [dataWrite c rd.val (c.dreg ra.val / 2 ^ n.toNat % 2 ^ 24)] } (t.core k.val)) ∧
    (Runs s k r (.cmp k ra rb) → Completes (.cmp k ra rb) s fun t => RanOn s t k.val ∧
      StepsTo c { c with late := c.late ++ [flagWrite c (c.dval ra.val - c.dval rb.val) false] } (t.core k.val)) ∧
    (Runs s k r (.cmpi k ra imm) → Completes (.cmpi k ra imm) s fun t => RanOn s t k.val ∧
      StepsTo c { c with late := c.late ++ [flagWrite c (c.dval ra.val - imm.toInt) false] } (t.core k.val))) ∧
  (∀ (s : State) (k : Fin 32) (r : Record) (rd ra : Fin 16) (an ad : Fin 8) (off : BitVec 16) (mod : Fin 4) (imm : BitVec 24) (c : Core), c = (s.core k.val).settle →
    (Runs s k r (.movi k rd imm) → Completes (.movi k rd imm) s fun t => RanOn s t k.val ∧ StepsTo c { c with late := c.late ++ [dataWrite c rd.val imm.toNat] } (t.core k.val)) ∧
    (Runs s k r (.mvad k rd an) → Completes (.mvad k rd an) s fun t => RanOn s t k.val ∧
      StepsTo c { c with late := c.late ++ [dataWrite c rd.val (c.areg an.val % 2 ^ 24)] } (t.core k.val)) ∧
    (Runs s k r (.mvda k ad ra) → Completes (.mvda k ad ra) s fun t => RanOn s t k.val ∧
      StepsTo c { c with a := tabSet 0 c.a (8 * c.bank + ad.val) (c.dreg ra.val % 2 ^ 16) } (t.core k.val)) ∧
    (Runs s k r (.lea k ad an off) → Completes (.lea k ad an off) s fun t => RanOn s t k.val ∧
      StepsTo c { c with a := tabSet 0 c.a (8 * c.bank + ad.val) (((c.areg an.val : Int) + off.toInt) % 2 ^ 16).toNat } (t.core k.val)) ∧
    (Runs s k r (.ld k rd an off mod) → s.filling r (s.imageOf c.prog r) c (((c.areg an.val : Int) + off.toInt) % 2 ^ 16).toNat = false →
      Completes (.ld k rd an off mod) s fun t => RanOn s t k.val ∧
        StepsTo c { c with a := tabSet 0 c.a (8 * c.bank + an.val) (((c.areg an.val : Int) + [0, 1, 2, -2].getD mod.val 0) % 2 ^ 16).toNat,
                           late := c.late ++ [dataWrite c rd.val (tabGet 0 c.mem (((c.areg an.val : Int) + off.toInt) % 2 ^ 16).toNat % 2 ^ 24)] } (t.core k.val)) ∧
    (Runs s k r (.st k rd an off mod) → s.filling r (s.imageOf c.prog r) c (((c.areg an.val : Int) + off.toInt) % 2 ^ 16).toNat = false →
      (inRecordArea (((c.areg an.val : Int) + off.toInt) % 2 ^ 16).toNat = true → inResults (((c.areg an.val : Int) + off.toInt) % 2 ^ 16).toNat = true) →
      Completes (.st k rd an off mod) s fun t => RanOn s t k.val ∧
        StepsTo c { c with a := tabSet 0 c.a (8 * c.bank + an.val) (((c.areg an.val : Int) + [0, 1, 2, -2].getD mod.val 0) % 2 ^ 16).toNat,
                           mem := tabSet 0 c.mem (((c.areg an.val : Int) + off.toInt) % 2 ^ 16).toNat (c.dreg rd.val % 2 ^ 24) } (t.core k.val)) ∧
    (Runs s k r (.mfs k rd imm) → imm.toNat ≤ 4 → Completes (.mfs k rd imm) s fun t => RanOn s t k.val ∧
      StepsTo c { c with late := c.late ++ [dataWrite c rd.val (specialSource s c imm.toNat)] } (t.core k.val)) ∧
    (Runs s k r (.mff k rd) → Completes (.mff k rd) s fun t => RanOn s t k.val ∧
      StepsTo c { c with late := c.late ++ [dataWrite c rd.val ((tabGet 0 c.flags c.bank % 8 ||| c.sticky) % 2 ^ 24)] } (t.core k.val)) ∧
    (Runs s k r (.clrf k imm) → Completes (.clrf k imm) s fun t => RanOn s t k.val ∧
      StepsTo c { c with late := c.late ++ [{ at' := c.pos + 3, kind := 3, reg := 0, value := imm.toNat }] } (t.core k.val)))

/-- The accumulator instructions (R254 to R256): the exact result, saturated or wrapped in 56 bits, is seen by the next instruction; Z, N, V and the sticky flags three positions on. Transfers between accumulators and data registers (R256, R258): CLRA, RND, MFA, MTA, NORM and CMPA; MTA replaces the part it names and no other. Commands shown to complete, exec answering a next state with its effect, under conditions on the state and the operands alone: mpy, mac, msu, adda, suba, clra, ldac, sha, rnd, mfa, mta, cmpa, norm, mula. -/
def Obligations.Accumulators : Prop :=
  (∀ (s : State) (k : Fin 32) (r : Record) (sat : Bool) (ax ay : Fin 4) (ra rb : Fin 16) (n : BitVec 7) (c : Core), c = (s.core k.val).settle →
    (Runs s k r (.mpy k sat ax ra rb) → Completes (.mpy k sat ax ra rb) s fun t => RanOn s t k.val ∧ AccResult c (t.core k.val) sat ax.val (c.dval ra.val * c.dval rb.val)) ∧
    (Runs s k r (.mac k sat ax ra rb) → Completes (.mac k sat ax ra rb) s fun t => RanOn s t k.val ∧ AccResult c (t.core k.val) sat ax.val (c.aval ax.val + c.dval ra.val * c.dval rb.val)) ∧
    (Runs s k r (.msu k sat ax ra rb) → Completes (.msu k sat ax ra rb) s fun t => RanOn s t k.val ∧ AccResult c (t.core k.val) sat ax.val (c.aval ax.val - c.dval ra.val * c.dval rb.val)) ∧
    (Runs s k r (.adda k sat ax ay) → Completes (.adda k sat ax ay) s fun t => RanOn s t k.val ∧ AccResult c (t.core k.val) sat ax.val (c.aval ax.val + c.aval ay.val)) ∧
    (Runs s k r (.suba k sat ax ay) → Completes (.suba k sat ax ay) s fun t => RanOn s t k.val ∧ AccResult c (t.core k.val) sat ax.val (c.aval ax.val - c.aval ay.val)) ∧
    (Runs s k r (.ldac k sat ax ra n) → n.toNat ≤ 32 → Completes (.ldac k sat ax ra n) s fun t => RanOn s t k.val ∧ AccResult c (t.core k.val) sat ax.val (c.dval ra.val * 2 ^ n.toNat)) ∧
    (Runs s k r (.sha k sat ax n) → -56 ≤ n.toInt → n.toInt ≤ 55 → Completes (.sha k sat ax n) s fun t => RanOn s t k.val ∧
      AccResult c (t.core k.val) sat ax.val (if 0 ≤ n.toInt then c.aval ax.val * 2 ^ n.toInt.toNat else c.aval ax.val / 2 ^ (-n.toInt).toNat)) ∧
    (Runs s k r (.mula k sat ax ay rb) → Completes (.mula k sat ax ay rb) s fun t => RanOn s t k.val ∧
      AccResult c (t.core k.val) sat ax.val (roundHalfEven (c.aval ay.val * c.dval rb.val) (2 ^ 23)))) ∧
  (∀ (s : State) (k : Fin 32) (r : Record) (sat : Bool) (ax ay : Fin 4) (rd ra : Fin 16) (n : BitVec 7) (c : Core), c = (s.core k.val).settle →
    (Runs s k r (.clra k ax) → Completes (.clra k ax) s fun t => RanOn s t k.val ∧ StepsTo c { c with acc := tabSet 0 c.acc ax.val 0 } (t.core k.val)) ∧
    (Runs s k r (.rnd k sat rd ay n) → n.toNat ≤ 55 → Completes (.rnd k sat rd ay n) s fun t => RanOn s t k.val ∧
      DataResult c (t.core k.val) sat rd.val (roundHalfEven (c.aval ay.val) (2 ^ n.toNat))) ∧
    (Runs s k r (.mfa k rd ay 0) → Completes (.mfa k rd ay 0) s fun t => RanOn s t k.val ∧
      StepsTo c { c with late := c.late ++ [dataWrite c rd.val (tabGet 0 c.acc ay.val % 2 ^ 24)] } (t.core k.val)) ∧
    (Runs s k r (.mfa k rd ay 1) → Completes (.mfa k rd ay 1) s fun t => RanOn s t k.val ∧
      StepsTo c { c with late := c.late ++ [dataWrite c rd.val (tabGet 0 c.acc ay.val / 2 ^ 24 % 2 ^ 24)] } (t.core k.val)) ∧
    (Runs s k r (.mfa k rd ay 2) → Completes (.mfa k rd ay 2) s fun t => RanOn s t k.val ∧
      StepsTo c { c with late := c.late ++ [dataWrite c rd.val ((((tabGet 0 c.acc ay.val / 2 ^ 48 : Nat) + 128 : Int) % 2 ^ 8 - 128) % 2 ^ 24).toNat] } (t.core k.val)) ∧
    (Runs s k r (.mta k ax ra n) → n.toNat ≤ 2 → Completes (.mta k ax ra n) s fun t => RanOn s t k.val ∧
      StepsTo c { c with acc := tabSet 0 c.acc ax.val ((if n = 0 then c.dreg ra.val else if n = 1 then tabGet 0 c.acc ax.val % 2 ^ 24 + c.dreg ra.val * 2 ^ 24
        else tabGet 0 c.acc ax.val % 2 ^ 48 + c.dreg ra.val % 2 ^ 8 * 2 ^ 48) % 2 ^ 56) } (t.core k.val)) ∧
    (Runs s k r (.norm k rd ay) → Completes (.norm k rd ay) s fun t => RanOn s t k.val ∧
      ∃ m, StepsTo c { c with late := c.late ++ [dataWrite c rd.val m] } (t.core k.val) ∧ m ≤ 55 ∧ (∀ i ≤ m, (tabGet 0 c.acc ay.val).testBit (55 - i) = (tabGet 0 c.acc ay.val).testBit 55) ∧
        (m < 55 → (tabGet 0 c.acc ay.val).testBit (54 - m) ≠ (tabGet 0 c.acc ay.val).testBit 55)) ∧
    (Runs s k r (.cmpa k ax ay) → Completes (.cmpa k ax ay) s fun t => RanOn s t k.val ∧
      StepsTo c { c with late := c.late ++ [flagWrite c (c.aval ax.val - c.aval ay.val) false] } (t.core k.val)))

/-- Control transfers (R252, R253, R259): a transfer takes place after two delay slots, CALL's link is its own address plus 3, and a loop runs its body COUNT times or, with 0, continues at END + 1. NOP does nothing. Commands shown to complete, exec answering a next state with its effect, under conditions on the state and the operands alone: nop, br, call, ret, loop, loopr. -/
def Obligations.ControlTransfers : Prop :=
  ∀ (s : State) (k : Fin 32) (r : Record) (cond ra : Fin 16) (target : BitVec 15) (count : BitVec 16) (c : Core), c = (s.core k.val).settle →
    (Runs s k r (.nop k) → Completes (.nop k) s fun t => RanOn s t k.val ∧ StepsTo c c (t.core k.val)) ∧
    (RunsFree s k r (.br k cond target) → cond.val ≤ 8 → Completes (.br k cond target) s fun t => RanOn s t k.val ∧
      t.core k.val = { c with pos := c.pos + 1, pc := c.pc + 1, transfer := some (2, if brTaken c cond.val = true then target.toNat else c.pc + 3) }) ∧
    (RunsFree s k r (.call k target) → Completes (.call k target) s fun t => RanOn s t k.val ∧
      t.core k.val = { c with pos := c.pos + 1, pc := c.pc + 1, transfer := some (2, target.toNat), a := tabSet 0 c.a (8 * c.bank + 7) ((c.pc + 3) % 2 ^ 16) }) ∧
    (RunsFree s k r (.ret k) → Completes (.ret k) s fun t => RanOn s t k.val ∧
      t.core k.val = { c with pos := c.pos + 1, pc := c.pc + 1, transfer := some (2, c.areg 7 % 2 ^ 15) }) ∧
    (RunsFree s k r (.loop k count target) → c.pc < target.toNat → target.toNat ≤ c.pc + 4096 → Completes (.loop k count target) s fun t => RanOn s t k.val ∧
      t.core k.val = (if count = 0 then { c with pos := c.pos + 1, pc := target.toNat + 1 }
        else { c with pos := c.pos + 1, pc := c.pc + 1, loop := some (c.pc + 1, target.toNat, count.toNat) })) ∧
    (RunsFree s k r (.loopr k ra target) → c.pc < target.toNat → target.toNat ≤ c.pc + 4096 → Completes (.loopr k ra target) s fun t => RanOn s t k.val ∧
      t.core k.val = (if c.dreg ra.val = 0 then { c with pos := c.pos + 1, pc := target.toNat + 1 }
        else { c with pos := c.pos + 1, pc := c.pc + 1, loop := some (c.pc + 1, target.toNat, c.dreg ra.val) })) ∧
    (∀ (b : Core) (n T : Nat), b.transfer = some (n, T) → (n = 2 → b.advance.pc = b.pc + 1 ∧ b.advance.transfer = some (1, T)) ∧ (n = 1 → b.advance.pc = T ∧ b.advance.transfer = none)) ∧
    (∀ (b : Core) (first last left : Nat), b.transfer = none → b.loop = some (first, last, left) → b.pc = last →
      (2 ≤ left → b.advance.pc = first ∧ b.advance.loop = some (first, last, left - 1)) ∧ (left ≤ 1 → b.advance.pc = last + 1 ∧ b.advance.loop = none))

/-- Events and endings (R249, R260, R265): SYNC enters the next event in bank 1 at EVEC with every pending write complete, or waits for its block; RETE returns to bank 0 after the SYNC; HALT ends the program with MSTATUS DONE and the results region as its results. Commands shown to complete, exec answering a next state with its effect, under conditions on the state and the operands alone: halt, sync, rete. -/
def Obligations.EventsAndHalt : Prop :=
  ∀ (s : State) (k : Fin 32) (r : Record) (c : Core), c = (s.core k.val).settle →
    (RunsFree s k r (.sync k) → c.bank = 0 → c.ended = false → (s.blockCount r (s.imageOf c.prog r) ≤ c.events ∨ c.events < c.inPlace) →
      Completes (.sync k) s fun t => RanOn s t k.val ∧ (t.core k.val).bank = 1 ∧ (t.core k.val).pc = imgEvec (s.imageOf c.prog r) ∧ (t.core k.val).late = [] ∧
        (t.core k.val).ret = c.pc + 1 ∧ (t.core k.val).pos = c.pos + 1 ∧ (t.core k.val).mem = c.mem ∧ (t.core k.val).acc = c.acc ∧
        (t.core k.val).dreg 1 = (if s.blockCount r (s.imageOf c.prog r) ≤ c.events then 2 else 1) ∧
        (t.core k.val).ended = decide (s.blockCount r (s.imageOf c.prog r) ≤ c.events)) ∧
    (RunsFree s k r (.sync k) → c.bank = 0 → c.ended = false → c.events < s.blockCount r (s.imageOf c.prog r) → c.inPlace ≤ c.events →
      Completes (.sync k) s fun t => (t.core k.val).waiting = true ∧ t.obj (Key.trCoreState k.val) = 2 ∧ (t.core k.val).late = [] ∧ (t.core k.val).bank = 0) ∧
    (RunsFree s k r (.rete k) → c.bank = 1 → Completes (.rete k) s fun t => RanOn s t k.val ∧ (t.core k.val).bank = 0 ∧ (t.core k.val).pc = c.ret ∧ (t.core k.val).late = [] ∧
      (t.core k.val).a = c.a ∧ (t.core k.val).mem = c.mem) ∧
    (RunsFree s k r (.halt k) → Completes (.halt k) s fun t => t.core k.val = {} ∧ t.obj (Key.trCoreState k.val) = 0 ∧
      t.record? r.ctx r.number = some { r with state := 2, running := false, mstatus := 0, results := ((List.range 19).flatMap fun i => natLE 3 (tabGet 0 c.mem (0xE8A0 + i))).take 56 }) ∧
    (s.deckStopped = false → s.coreRecord (s.core k.val) = some r → (s.core k.val).prog < 0x8000 →
      libraryTraps (s.core k.val).prog (natLE 256 (s.objAt (Key.ctxMeasParams r.ctx) r.trigger)) = false →
      libraryLength (s.core k.val).prog (natLE 256 (s.objAt (Key.ctxMeasParams r.ctx) r.trigger)) (s.measured r) ≤ s.budgetOf r →
      Completes (.halt k) s fun t => t.core k.val = {} ∧ ∃ r', t.record? r.ctx r.number = some r' ∧ r'.state = 2 ∧ r'.mstatus = 0)

/-- Traps (R252, R253, R261, Table 9-8): a TRAP instruction, a word that encodes no instruction, a shift out of range, a reserved condition, a control instruction in a delay slot or a loop body, an access to the filling buffer, a store to the record area outside the results, SYNC in bank 1 and a PC outside the program; a library program whose arguments PSDACC does not take (R265, R266). Commands shown to complete, exec answering a next state with its effect, under conditions on the state and the operands alone: nop, halt, trap, sync, br, ld, st, shl, reservedOpcode. -/
def Obligations.TrestleTraps : Prop :=
  ∀ (s : State) (k : Fin 32) (r : Record) (c : Core), c = (s.core k.val).settle →
    (∀ code : BitVec 8, Runs s k r (.trap k code) → Completes (.trap k code) s fun t => Trapped s t k.val r (8 + 256 * code.toNat)) ∧
    (∀ w, RunsWord s k.val r w → wordEncodes w = false → Completes (.reservedOpcode k) s fun t => Trapped s t k.val r 1) ∧
    (∀ (sat : Bool) (rd ra : Fin 16) (n : BitVec 7), Runs s k r (.shl k sat rd ra n) → 23 < n.toNat → Completes (.shl k sat rd ra n) s fun t => Trapped s t k.val r 1) ∧
    (∀ (cond : Fin 16) (target : BitVec 15), RunsFree s k r (.br k cond target) → 9 ≤ cond.val → Completes (.br k cond target) s fun t => Trapped s t k.val r 1) ∧
    (Runs s k r (.sync k) → (s.core k.val).transfer ≠ none → Completes (.sync k) s fun t => Trapped s t k.val r 3) ∧
    (Runs s k r (.halt k) → (s.core k.val).transfer = none → (s.core k.val).loop ≠ none → Completes (.halt k) s fun t => Trapped s t k.val r 4) ∧
    (∀ (rd : Fin 16) (an : Fin 8) (off : BitVec 16) (mod : Fin 4), Runs s k r (.ld k rd an off mod) →
      s.filling r (s.imageOf c.prog r) c (((c.areg an.val : Int) + off.toInt) % 2 ^ 16).toNat = true → Completes (.ld k rd an off mod) s fun t => Trapped s t k.val r 5) ∧
    (∀ (rd : Fin 16) (an : Fin 8) (off : BitVec 16) (mod : Fin 4), Runs s k r (.st k rd an off mod) →
      s.filling r (s.imageOf c.prog r) c (((c.areg an.val : Int) + off.toInt) % 2 ^ 16).toNat = false → inRecordArea (((c.areg an.val : Int) + off.toInt) % 2 ^ 16).toNat = true →
      inResults (((c.areg an.val : Int) + off.toInt) % 2 ^ 16).toNat = false → Completes (.st k rd an off mod) s fun t => Trapped s t k.val r 6) ∧
    (RunsFree s k r (.sync k) → c.bank = 1 → Completes (.sync k) s fun t => Trapped s t k.val r 7) ∧
    (s.deckStopped = false → s.coreRecord (s.core k.val) = some r → (s.core k.val).waiting = false → 0x8000 ≤ (s.core k.val).prog → (s.core k.val).prog ≤ 0x801F →
      (s.core k.val).pos < s.budgetOf r → imgPwords (s.imageOf (s.core k.val).prog r) ≤ (s.core k.val).pc → Completes (.nop k) s fun t => Trapped s t k.val r 2) ∧
    (s.deckStopped = false → s.coreRecord (s.core k.val) = some r → (s.core k.val).prog < 0x8000 →
      libraryTraps (s.core k.val).prog (natLE 256 (s.objAt (Key.ctxMeasParams r.ctx) r.trigger)) = true →
      Completes (.halt k) s fun t => t.core k.val = {} ∧ t.record? r.ctx r.number = some { r with state := 2, running := false, mstatus := 5, results := zeros 56 })

/-- Decoding an instruction's word gives the instruction back, with every operand at every value; a word that decodes is the word of what it decodes to; and the words that encode an instruction are those that decode (R257, R258). -/
def Obligations.TrestleDecodeOfWord : Prop :=
  (∀ (i : Instr) (k : Fin 32) (w : Nat), trestleWord i = some (k, w) → w < 2 ^ 48 ∧ trestleDecode k w = some i) ∧
  (∀ (i : Instr) (k : Fin 32) (w : Nat), trestleDecode k w = some i → trestleWord i = some (k, w)) ∧
  (∀ (k : Fin 32) (w : Nat), (trestleDecode k w).isSome = wordEncodes w)

/-- A bank serves the request that R276 picks: an issued write puts its bytes into the contents, an issued read takes the bytes that stand, and the request leaves the queue; a channel that is not in service serves nothing (R276, R278). A read that entered a queue behind a write of its row puts the bank into in-order mode, counted once; any other request leaves the mode (R277); the contents stand until a request is served, and one for a frozen channel whose chunk has no remap to come enters no queue (R285, R286). The end of a read (R281, R283): a clean or corrected read goes to its requester, a correction is counted, an uncorrectable error freezes the channel. Commands shown to complete, exec answering a next state with its effect, under conditions on the state and the operands alone: bankSchedule, memReadComplete. -/
def Obligations.MemoryRequests : Prop :=
  ((∀ (s : State) (k : Fin 16) (b : Fin 256), s.obj (Key.memchState k.val) ≠ 3 → exec (.bankSchedule k b) s = .next s) ∧
  (∀ (s : State) (k : Fin 16) (b : Fin 256) (r : MemReq), s.obj (Key.memchState k.val) = 3 → (s.promote k.val).pick k.val b.val = some r → r.write = true →
    Completes (.bankSchedule k b) s fun t => t.mem.cells = r.store s.mem.cells ∧ (∀ x ∈ (t.memChan k.val).queue, x.id ≠ r.id) ∧
      (t.memChan k.val).issued = (s.memChan k.val).issued ∧ (∀ j, j ≠ k.val → t.memChan j = s.memChan j) ∧ t.time = s.time) ∧
  (∀ (s : State) (k : Fin 16) (b : Fin 256) (r : MemReq), s.obj (Key.memchState k.val) = 3 → (s.promote k.val).pick k.val b.val = some r → r.write = false →
    Completes (.bankSchedule k b) s fun t => t.mem.cells = s.mem.cells ∧ (∀ x ∈ (t.memChan k.val).queue, x.id ≠ r.id) ∧
      (t.memChan k.val).issued = (s.memChan k.val).issued ++ [{ r with data := s.mem.bytes r.addr r.len }] ∧ t = { s with dict := t.dict, mem := t.mem } ∧
      KeepsObjects [Key.memchPromoted k.val, Key.memchPanicCount k.val] s t)) ∧
  ((∀ (s : State) (o : Owner) (cls : Nat) (w : Bool) (a n : Nat) (d : Bytes) (k : Nat), s.chanOf a = some k → s.obj (Key.memchState k) ≠ 5 →
    (∃ q, (s.enqueue o cls w a n d |>.memChan k).queue = q ++ [{ id := s.mem.nextId, owner := o, cls := cls, write := w, addr := a, len := n, data := d, arrival := s.wall, promoted := false }] ∧
      (∀ x ∈ q, x ∈ (s.memChan k).queue) ∧ (w = false → q = (s.memChan k).queue)) ∧
    (s.enqueue o cls w a n d).mem.cells = s.mem.cells ∧
    (w = false → tabGet 0 (s.memChan k).inOrder (s.bankOf k a) = 0 →
      (∃ x ∈ (s.memChan k).queue, x.write = true ∧ s.bankOf k x.addr = s.bankOf k a ∧ s.rowAt k x.addr = s.rowAt k a) →
      (s.enqueue o cls w a n d).obj (Key.memchInorder k) = (s.obj (Key.memchInorder k) + 1) % 2 ^ 64 ∧
        tabGet 0 ((s.enqueue o cls w a n d).memChan k).inOrder (s.bankOf k a) = s.mem.nextId + 1)) ∧
  (∀ (s : State) (o : Owner) (cls : Nat) (w : Bool) (a n : Nat) (d : Bytes) (k : Nat), s.chanOf a = some k → s.obj (Key.memchState k) = 5 → s.remapWaits a = false →
    (s.enqueue o cls w a n d).mem.cells = s.mem.cells ∧ (s.enqueue o cls w a n d).mem.chans = s.mem.chans ∧ (s.enqueue o cls w a n d).mem.waiting = s.mem.waiting)) ∧
  ((∀ (s : State) (k : Fin 16) (r : MemReq) (rest : List MemReq), (s.memChan k.val).issued = r :: rest → s.chanServes k.val = true → (∀ h l, r.owner ≠ .scanout h l) → (∀ g, r.owner ≠ .aperture g) → dataDropped r.owner = false →
    Completes (.memReadComplete k .clean) s fun t => (t.memChan k.val).issued = rest ∧ t.mem.arrived = s.mem.arrived ++ [(r.owner, r.addr, r.data, false)] ∧ t.mem.cells = s.mem.cells ∧
      t = { s with mem := t.mem }) ∧
  (∀ (s : State) (k : Fin 16) (r : MemReq) (rest : List MemReq), (s.memChan k.val).issued = r :: rest → s.chanServes k.val = true → dataDropped r.owner = true →
    Completes (.memReadComplete k .clean) s fun t => (t.memChan k.val).issued = rest ∧ t.mem.arrived = s.mem.arrived ∧ t.mem.cells = s.mem.cells ∧ t = { s with mem := t.mem }) ∧
  (∀ (s : State) (k : Fin 16) (r : MemReq) (rest : List MemReq), (s.memChan k.val).issued = r :: rest → s.chanServes k.val = true →
    Completes (.memReadComplete k .corrected) s fun t => (t.memChan k.val).issued = rest ∧ t.obj (Key.memchCeCount k.val) = (s.obj (Key.memchCeCount k.val) + 1) % 2 ^ 64 ∧
      t.mem.cells = s.mem.cells) ∧
  (∀ (s : State) (k : Fin 16) (r : MemReq) (rest : List MemReq) (syn : BitVec 128), (s.memChan k.val).issued = r :: rest → s.chanServes k.val = true →
    Completes (.memReadComplete k (.uncorrectable syn.toNat)) s fun t => t.obj (Key.memchState k.val) = 5 ∧ (t.memChan k.val).queue = [] ∧
      (t.memChan k.val).issued = [] ∧ (t.memChan k.val).kept = (s.memChan k.val).queue ++ (s.memChan k.val).issued ∧ fieldAt (t.obj (Key.memchDiag k.val)) 0 1 = (if r.owner = .scrub then 2 else 1) ∧ t.mem.cells = s.mem.cells) ∧
  (∀ (s : State) (k : Fin 16) (e : ReadEnd), (s.memChan k.val).issued = [] → exec (.memReadComplete k e) s = .next s))

/-- The request that a bank serves is one of its queue; in in-order mode it is the oldest, and outside it a write is never served ahead of an earlier read of its row, nor ahead of an earlier write of its burst (R277, R278). -/
def Obligations.ServiceKeepsOrder : Prop :=
  ∀ (s : State) (k b : Nat) (r : MemReq), s.pick k b = some r →
    ∃ l1 l2, (s.memChan k).queue.filter (fun x => s.bankOf k x.addr == b) = l1 ++ r :: l2 ∧ (tabGet 0 (s.memChan k).inOrder b ≠ 0 → l1 = []) ∧
      (r.write = true → ∀ e ∈ l1, (e.write = false → s.rowAt k e.addr ≠ s.rowAt k r.addr) ∧ (e.write = true → e.addr / 64 ≠ r.addr / 64))

/-- A parity error, or a write whose CRC fails after the third retry, freezes the channel (R283, R284): state FROZEN, the record with its cause and time, one channel fewer in service, a remap to come; earlier CRC failures are retried and counted (R282). Remap, refresh, self-refresh and scrubbing (R279, R280, R286, R287; 18 R489): the remap of the lane that froze first ends the wait for it and raises the memory event; refreshes are postponed while a panic line is raised, as far as the model's free limit (notes/assumptions/120.md) lets them be; an idle channel enters self-refresh and a request brings it back. mem.speed.req and memch.retrain (R289): RANGE for a rate not supported, DEFERRED while training data is gathered, STATE while a class-0 or class-2 requester is enabled, else every channel in service retrains; only a FROZEN channel is retrained for diagnosis, and it stays frozen. Commands shown to complete, exec answering a next state with its effect, under conditions on the state and the operands alone: rcdAlert, writeCrcError, remapComplete, refresh, selfRefreshEntry, selfRefreshExit, scrubRead, memSpeedReq, memchRetrain. -/
def Obligations.ChannelCommands : Prop :=
  ((∀ (s : State) (k : Fin 16), s.chanServes k.val = true → s.time < 2 ^ 80 →
    Completes (.rcdAlert k) s fun t => t.obj (Key.memchState k.val) = 5 ∧ t.obj Key.memFreezes = (s.obj Key.memFreezes + 1) % 2 ^ 8 ∧ (t.memChan k.val).queue = [] ∧ (t.memChan k.val).issued = [] ∧
      (t.memChan k.val).kept = (s.memChan k.val).queue ++ (s.memChan k.val).issued ∧
      fieldAt (t.obj (Key.memchDiag k.val)) 0 1 = 3 ∧ fieldAt (t.obj (Key.memchDiag k.val)) 20 10 = s.time ∧ t.mem.frozenLanes = s.mem.frozenLanes ++ [s.obj (Key.memchLane k.val)] ∧
      t.mem.remaps = s.mem.remaps ++ [(s.obj (Key.memchLane k.val), s.wall)] ∧ t.mem.cells = s.mem.cells) ∧
  (∀ (s : State) (k : Fin 16), s.chanServes k.val = false → exec (.rcdAlert k) s = .next s) ∧
  (∀ (s : State) (k : Fin 16) (w : MemReq), (s.memChan k.val).lastWrite = some w → s.chanServes k.val = true → (s.memChan k.val).crcTries < 3 →
    Completes (.writeCrcError k) s fun t => (t.memChan k.val).crcTries = (s.memChan k.val).crcTries + 1 ∧ t.obj (Key.memchCrcRetries k.val) = (s.obj (Key.memchCrcRetries k.val) + 1) % 2 ^ 64 ∧
      t = { s with dict := t.dict, mem := t.mem } ∧ KeepsObjects [Key.memchCrcRetries k.val] s t) ∧
  (∀ (s : State) (k : Fin 16) (w : MemReq), (s.memChan k.val).lastWrite = some w → s.chanServes k.val = true → 3 ≤ (s.memChan k.val).crcTries →
    Completes (.writeCrcError k) s fun t => t.obj (Key.memchState k.val) = 5 ∧ fieldAt (t.obj (Key.memchDiag k.val)) 0 1 = 4)) ∧
  ((∀ s : State, s.mem.remaps = [] → exec .remapComplete s = .next s) ∧
  (∀ (s : State) (x : Nat × Nat) (rest : List (Nat × Nat)), s.mem.remaps = x :: rest → Completes .remapComplete s fun t => t.mem.remaps = rest ∧ (rest = [] → t.mem.waiting = []) ∧
    tabGet 0 t.pev.evtCount 4 = (tabGet 0 s.pev.evtCount 4 + 1) % 2 ^ 32) ∧
  (∀ (s : State) (k : Fin 16) (d : BitVec 16), s.obj (Key.memchState k.val) = 3 → Completes (.refresh ⟨k, d⟩) s fun t =>
    (t.memChan k.val).postponed = (if s.anyPanic = true then min Config.postponeMax ((s.memChan k.val).postponed + 1) else 0) ∧ (t.memChan k.val).queue = (s.memChan k.val).queue ∧
      t.obj (Key.memchTemp k.val) = d.toNat ∧ t = { s with dict := t.dict, mem := t.mem } ∧ KeepsObjects [Key.memchTemp k.val] s t ∧ t.mem.cells = s.mem.cells) ∧
  (∀ (s : State) (k : Fin 16), s.obj (Key.memchState k.val) = 3 → (s.memChan k.val).queue = [] → (s.memChan k.val).issued = [] →
    (s.memChan k.val).lastRequest + 400 * s.obj Key.memSrIdle ≤ s.wall →
    Completes (.selfRefreshEntry k) s fun t => t.obj (Key.memchState k.val) = 4 ∧ t.obj (Key.memchSrEntries k.val) = (s.obj (Key.memchSrEntries k.val) + 1) % 2 ^ 64 ∧
      t = { s with dict := t.dict } ∧ KeepsObjects [Key.memchState k.val, Key.memchSrEntries k.val] s t) ∧
  (∀ (s : State) (k : Fin 16), (s.memChan k.val).queue ≠ [] → exec (.selfRefreshEntry k) s = .next s) ∧
  (∀ (s : State) (k : Fin 16), s.obj (Key.memchState k.val) = 4 → (s.memChan k.val).queue ≠ [] → exec (.selfRefreshExit k) s = .next (s.setObj (Key.memchState k.val) 3)) ∧
  (∀ (s : State) (k : Fin 16), s.chanServes k.val = true → s.lanes0 ≠ 0 →
    Completes (.scrubRead k) s fun t => t.mem.cells = s.mem.cells ∧ t.mem.nextId = s.mem.nextId + 1 ∧ t.time = s.time ∧
      (64 * (s.memChan k.val).scrubNext + 64 < s.mem.capacity → t.obj Key.scrubPasses = s.obj Key.scrubPasses) ∧
      (s.mem.capacity ≤ 64 * (s.memChan k.val).scrubNext + 64 → t.obj Key.scrubPasses = (s.obj Key.scrubPasses + 1) % 256 ^ lenOf Key.scrubPasses))) ∧
  ((∀ (s : State) (r : Nat), s.ready = true → r ∉ State.ratesOf s.popDimms → exec (.memSpeedReq r) s = .next (s.withResult Res.range)) ∧
  (∀ (s : State) (r : Nat), s.ready = true → r ∈ State.ratesOf s.popDimms → s.training = true →
    Completes (.memSpeedReq r) s fun t => t.result = Res.deferred ∧ t.mem.speedReq = some r ∧ t.obj Key.memSpeed = s.obj Key.memSpeed) ∧
  (∀ (s : State) (r : Nat), s.ready = true → r ∈ State.ratesOf s.popDimms → s.training = false → State.realTimeOn s.obj = true →
    exec (.memSpeedReq r) s = .next (s.withResult Res.state)) ∧
  (∀ (s : State) (r : Nat), s.ready = true → r ∈ State.ratesOf s.popDimms → s.training = false → State.realTimeOn s.obj = false →
    Completes (.memSpeedReq r) s fun t => t.result = Res.done ∧ t.obj Key.memSpeed = r ∧ (∀ k < 16, s.chanServes k = true → t.obj (Key.memchState k) = 2) ∧
      (∀ k < 16, s.chanServes k = false → t.obj (Key.memchState k) = s.obj (Key.memchState k)) ∧ t.mem.cells = s.mem.cells) ∧
  (∀ (s : State) (k : Fin 16), s.ready = true → s.obj (Key.memchState k.val) ≠ 5 → exec (.memchRetrain k) s = .next (s.withResult Res.state)) ∧
  (∀ (s : State) (k : Fin 16), s.ready = true → s.obj (Key.memchState k.val) = 5 →
    Completes (.memchRetrain k) s fun t => t.result = Res.done ∧ (t.memChan k.val).diagTraining = true ∧ t.obj (Key.memchState k.val) = 5 ∧ t.dict = s.dict))

/-- A write of ring.slabs: the first case that applies decides (R304, R293). Commands shown to complete, exec answering a next state with its effect, under conditions on the state and the operands alone: ringSlabs. -/
def Obligations.RingSlabsCases : Prop :=
  ∀ (s : State) (n : Nat), s.ready = true → n < 2 ^ 32 → exec (.ringSlabs n) s = .next (
    if n ≠ 0 ∧ (∃ g ∈ s.groups, s.staged g Key.memFixedSize ≠ s.before g Key.memFixedSize) then s.withResult Res.state
    else if n ≠ 0 ∧ (n < 4096 ∨ 475136 < n ∨ s.obj Key.memFixedSize = 0 ∨ (s.obj Key.memSize - s.obj Key.memFixedSize) / 4194304 < n) then s.withResult Res.range
    else if n = 0 ∧ (s.obj Key.ringSelectRaw ≠ 0 ∨ s.obj Key.ringSelectFe ≠ 0 ∨
      ∃ g ∈ s.groups, ∃ w ∈ g.writes, (w.1 = Key.ringSelectRaw ∨ w.1 = Key.ringSelectFe) ∧ w.2 ≠ 0) then s.withResult Res.state
    else if ∃ r ∈ s.acq.records, r.state = 0 then s.withResult Res.state
    else if s.obj Key.ringSlabsNow = 0 then ((s.setObj Key.ringSlabs n).setObj Key.ringSlabsNow n).withResult Res.done
    else (((s.setObj Key.ringSlabs n).withRing { s.ring with resize := some n }).setObj Key.ringResizeState 1).withResult Res.done)

/-- Blocks (R297, R302): an open block is closed ring.flush ticks after its first sample and not before; memory's acknowledgement makes the oldest unwritten block a written one, or, where a freeze lost it, its positions not held with a MEMORY_LOSS marker. Commands shown to complete, exec answering a next state with its effect, under conditions on the state and the operands alone: ringFlush, ringBlockWritten. -/
def Obligations.RingBlocks : Prop :=
  (∀ (s : State) (p : Fin 1024) (fe : Bool) (b : Block), (s.ringStream (streamId p.val fe)).openBlock = some b → s.wall < b.openedAt + s.obj Key.ringFlush →
    exec (.ringFlush p fe) s = .next s) ∧
  (∀ (s : State) (p : Fin 1024) (fe : Bool) (b : Block), (s.ringStream (streamId p.val fe)).openBlock = some b → b.openedAt + s.obj Key.ringFlush ≤ s.wall →
    Completes (.ringFlush p fe) s fun t => (t.ringStream (streamId p.val fe)).openBlock = none ∧ (t.ringStream (streamId p.val fe)).positions = (s.ringStream (streamId p.val fe)).positions ∧
      t.mem.cells = s.mem.cells ∧
      (s.placeStands (streamId p.val fe) b = true → ∀ id, id ≠ streamId p.val fe → t.ringStream id = s.ringStream id)) ∧
  (∀ (s : State) (p : Fin 1024) (fe : Bool) (b : Block), ((s.ringStream (streamId p.val fe)).blocks.find? fun b => !b.written) = some b →
    s.outstanding (.ringWriter (streamId p.val fe) b.seq) = false → (∀ x ∈ s.mem.lostWrites, x.1 ≠ .ringWriter (streamId p.val fe) b.seq) →
    Completes (.ringBlockWritten p fe) s fun t => (t.ringStream (streamId p.val fe)).blocks =
        ((s.ringStream (streamId p.val fe)).blocks.map fun x => if x.seq = b.seq then { x with written := true } else x) ∧
      t.dict = s.dict ∧ t.mem.cells = s.mem.cells) ∧
  (∀ (s : State) (p : Fin 1024) (fe : Bool) (b : Block), ((s.ringStream (streamId p.val fe)).blocks.find? fun b => !b.written) = some b →
    s.outstanding (.ringWriter (streamId p.val fe) b.seq) = false → (∃ x ∈ s.mem.lostWrites, x.1 = .ringWriter (streamId p.val fe) b.seq) →
    Completes (.ringBlockWritten p fe) s fun t => (∀ x ∈ (t.ringStream (streamId p.val fe)).blocks, x.seq ≠ b.seq) ∧
      (∃ x ∈ (t.ringStream (streamId p.val fe)).notHeld, x.first = b.first ∧ x.count = b.count ∧ x.cause = 5) ∧
      t.obj (Key.portGapSeq p.val) = (s.obj (Key.portGapSeq p.val) + 1) % 2 ^ 32)

/-- A slab taken for a stream counts its allocation, belongs to that stream, and retires the slab 2,048 ahead, so that no stream holds a block there (R299); a block that returns after its slab went to another allocation gives no sample (R301). -/
def Obligations.SlabsAndExtraction : Prop :=
  (∀ (s : State) (id k r : Nat), k = s.ring.next → k < s.obj Key.ringSlabsNow → 4096 ≤ s.obj Key.ringSlabsNow → r = (k + 2048) % s.obj Key.ringSlabsNow →
    ((s.takeSlab id).ringStream id).slab = some k ∧ (tabGet {} (s.takeSlab id).ring.slabs k).alloc = ((tabGet {} s.ring.slabs k).alloc + 1) % 2 ^ 32 ∧
    (tabGet {} (s.takeSlab id).ring.slabs k).owner = id + 1 ∧ (tabGet {} (s.takeSlab id).ring.slabs r).owner = 0 ∧ (s.takeSlab id).ring.next = k + 1 ∧
    (∀ o, (tabGet {} s.ring.slabs r).owner = o + 1 → ∀ b ∈ ((s.takeSlab id).ringStream o).blocks, b.slab ≠ r)) ∧
  (∀ (s : State) (r : Record) (x : RecStream) (b : Block), x.reading = some b → s.outstandingIn (.extract r.ctx r.number) (s.blockAddr b.slab b.place) 4096 = false →
    (tabGet ({} : Slab) s.ring.slabs b.slab).alloc ≠ b.alloc →
    (s.takeReturned r x).1.reading = none ∧ ∃ n, (s.takeReturned r x).1.data = x.data ++ zeros (n * formatBytes x.format) ∧ (0 < n → bit (s.takeReturned r x).1.flags 5 = true))

/-- A Write that completes acknowledges its record, or counts its manifest and rewrites the label; one that fails is retried up to 3 times and then the drive is FAILED (R309, R311, R318). Drives come up (R306, R309; 19 R508): only a FAILED drive restarts; PERST is released 400,000 ticks later; the drive is ready when it has trained, which waits while firmware is handed over. Commands shown to complete, exec answering a next state with its effect, under conditions on the state and the operands alone: nvmeWriteComplete, nvmeLinkLoss, recDriveRestart, nvmeDriveReady, drvPerstRelease. -/
def Obligations.Drives : Prop :=
  ((∀ (s : State) (d : Fin 4) (w : DriveWrite) (rest : List DriveWrite) (r : Record), (s.drive d.val).writes = w :: rest → w.kind = 0 → s.record? w.ctx w.number = some r →
    Completes (.nvmeWriteComplete d true) s fun t => t.record? w.ctx w.number = some { r with acked := true } ∧ (t.drive d.val).writes = rest ∧ t.outbox = s.outbox ∧
      t.obj Key.recWritten = (s.obj Key.recWritten + w.data.length) % 2 ^ 64 ∧ KeepsObjects [Key.recWritten] s t) ∧
  (∀ (s : State) (d : Fin 4) (w : DriveWrite) (rest : List DriveWrite), (s.drive d.val).writes = w :: rest → w.kind = 1 →
    Completes (.nvmeWriteComplete d true) s fun t => t.obj Key.recSegments = (s.obj Key.recSegments + 1) % 2 ^ 64 ∧ (∀ y ∈ t.recd.segments, y.id ≠ w.number) ∧
      ∃ label, t.outbox = s.outbox ++ [.nvme (s.obj (Key.recNsDrive w.ns)) (s.obj (Key.recNsNsid w.ns)) (s.obj (Key.recNsFirst w.ns)) label]) ∧
  (∀ (s : State) (d : Fin 4) (w : DriveWrite) (rest : List DriveWrite), (s.drive d.val).writes = w :: rest → w.tries < 3 →
    Completes (.nvmeWriteComplete d false) s fun t => (t.drive d.val).writes = { w with tries := w.tries + 1 } :: rest ∧ t.obj (Key.recDriveState d.val) = s.obj (Key.recDriveState d.val) ∧
      t.outbox = s.outbox ++ [.nvme d.val (s.obj (Key.recNsNsid w.ns)) w.lba w.data]) ∧
  (∀ (s : State) (d : Fin 4) (w : DriveWrite) (rest : List DriveWrite), (s.drive d.val).writes = w :: rest → 3 ≤ w.tries →
    Completes (.nvmeWriteComplete d false) s fun t => t.obj (Key.recDriveState d.val) = 3) ∧
  (∀ (s : State) (d : Fin 4), s.obj (Key.recDriveState d.val) = 1 ∨ s.obj (Key.recDriveState d.val) = 2 →
    Completes (.nvmeLinkLoss d) s fun t => t.obj (Key.recDriveState d.val) = 3 ∧
      (∀ n < 16, s.obj (Key.recNsDrive n) = d.val → s.obj (Key.recNsState n) ≠ 0 → t.obj (Key.recNsState n) = 3 ∧ ∀ x ∈ t.recd.segments, x.ns ≠ n) ∧
      (∀ n < 16, s.obj (Key.recNsDrive n) ≠ d.val → t.obj (Key.recNsState n) = s.obj (Key.recNsState n)))) ∧
  ((∀ (s : State) (d : Fin 4), s.ready = true → s.obj (Key.recDriveState d.val) ≠ 3 → exec (.recDriveRestart d) s = .next (s.withResult Res.state)) ∧
  (∀ (s : State) (d : Fin 4), s.ready = true → s.obj (Key.recDriveState d.val) = 3 →
    Completes (.recDriveRestart d) s fun t => t.result = Res.done ∧ t.obj (Key.recDriveState d.val) = 1 ∧ (t.drive d.val).restartAt = s.wall + 1 ∧ KeepsObjects [Key.recDriveState d.val] s t) ∧
  (∀ (s : State) (d : Fin 4), (s.drive d.val).restartAt ≠ 0 → (s.drive d.val).restartAt - 1 + 400000 ≤ s.wall →
    Completes (.drvPerstRelease d) s fun t => (t.drive d.val).restartAt = 0 ∧ t = { s with recd := t.recd }) ∧
  (∀ (s : State) (d : Fin 4) (w : Nat) (m : Bytes) (ids : List (Nat × Nat × Bool)), s.obj (Key.recDriveState d.val) = 1 → (s.drive d.val).restartAt = 0 → s.obj Key.fwSwapState ≠ 2 →
    Completes (.nvmeDriveReady d w m ids []) s fun t => t.obj (Key.recDriveState d.val) = 2 ∧ t.obj (Key.recDriveWidth d.val) = min w (linkLanes (s.obj Key.recBifurcation)) ∧ (t.drive d.val).nsids = ids ∧
      (∀ n < 16, s.obj (Key.recNsDrive n) ≠ d.val → t.obj (Key.recNsState n) = s.obj (Key.recNsState n)) ∧
      (∀ n < 16, s.obj (Key.recNsDrive n) = d.val → s.flag (Key.recNsEnable n) = true → s.obj (Key.recNsState n) = 0 → s.recd.failed.contains n = false → t.obj (Key.recNsState n) = 1) ∧
      KeepsObjects ([Key.recDriveState d.val, Key.recDriveWidth d.val, Key.recDriveModel d.val] ++ (List.range 16).map Key.recNsState) s t) ∧
  (∀ (s : State) (d : Fin 4) (w : Nat) (m : Bytes) (ids : List (Nat × Nat × Bool)) (l : List (Fin 16 × Nat × Nat)), (s.obj (Key.recDriveState d.val) ≠ 1 ∨ s.obj Key.fwSwapState = 2) →
    exec (.nvmeDriveReady d w m ids l) s = .next s))

/-- Segments and namespaces (R311, R315 to R317, R320): ROOT is the Merkle hash in its tree order and CHAIN hashes the previous CHAIN and ROOT; the signer completes the oldest waiting manifest; a format starts a fresh log and chain; rec.ns.read is refused with BUSY or RANGE, and ends done or failed. Commands shown to complete, exec answering a next state with its effect, under conditions on the state and the operands alone: manifestSigned, recNsFormat, recNsClose, recNsRead, recNsReadDone. -/
def Obligations.SegmentsAndNamespaces : Prop :=
  (∀ (l0 l1 l2 l3 l4 l5 : Bytes), merkle 7 [l0, l1, l2, l3, l4, l5] =
    sha384 (1 :: (sha384 (1 :: (sha384 (1 :: (l0 ++ l1)) ++ sha384 (1 :: (l2 ++ l3)))) ++ sha384 (1 :: (l4 ++ l5))))) ∧
  (∀ (s : State) (x : Segment) (c : Nat), ∃ y ∈ (s.closeSegment x c).recd.segments, y.id = x.id ∧ y.stage = 1 ∧
    y.manifest = s.manifestBody x c (decide (tabGet 0 s.recd.chains (16 * x.ctx + x.ns) = 0)) (merkle (x.leaves.length + 1) x.leaves)
      (sha384 ((if tabGet 0 s.recd.chains (16 * x.ctx + x.ns) = 0 then zeros 48 else unmarked (tabGet 0 s.recd.chains (16 * x.ctx + x.ns))) ++ merkle (x.leaves.length + 1) x.leaves))) ∧
  (∀ (s : State), (∀ x ∈ s.recd.segments, x.stage ≠ 1) → exec .manifestSigned s = .next s) ∧
  (∀ (s : State) (x : Segment) (off : Nat) (u : State), (s.recd.segments.find? fun x => x.stage == 1) = some x → (s.withFree (s.free + 1)).placeItem x.ns 1 = some (off, u) →
    Completes .manifestSigned s fun t => ∃ y ∈ t.recd.segments, y.id = x.id ∧ y.stage = 2 ∧ y.manifest.take x.manifest.length = x.manifest ∧
      y.manifest.length = x.manifest.length + 96 ∧ (off, 1) ∈ y.places) ∧
  (∀ (s : State) (n : Fin 16) (T : KTime), s.due = [(Key.recNsFormat n.val, T)] →
    Completes (.recNsFormat n) s fun t => t.due = [] ∧ t.obj (Key.recNsAppend n.val) = 1 ∧ t.obj (Key.recNsLap n.val) = 0 ∧ (∀ x ∈ t.recd.segments, x.ns = n.val → x.stage ≠ 0) ∧
      (∀ c, tabGet 0 t.recd.chains (16 * c + n.val) = 0) ∧ tabGet 0 t.recd.formatted n.val = T + 1 ∧ t.mem = s.mem) ∧
  (∀ (s : State) (n : Fin 16) (T : KTime), s.due = [(Key.recNsClose n.val, T)] →
    Completes (.recNsClose n) s fun t => t.due = [] ∧ t.recd.closes = s.recd.closes ++ [(n.val, T)] ∧ t.outbox = s.outbox ∧ t.mem = s.mem) ∧
  (∀ (s : State) (n : Fin 16) (off count addr : Nat), s.ready = true → s.obj (Key.recNsReadState n.val) = 1 → exec (.recNsRead n off count addr) s = .next (s.withResult Res.busy)) ∧
  (∀ (s : State) (n : Fin 16) (off count addr : Nat), s.ready = true → s.obj (Key.recNsReadState n.val) ≠ 1 →
    (count = 0 ∨ 65536 < count ∨ s.obj (Key.recNsLbas n.val) < off + count ∨ s.inFixed addr (4096 * count) = false) → exec (.recNsRead n off count addr) s = .next (s.withResult Res.range)) ∧
  (∀ (s : State) (n : Fin 16) (off count addr : Nat), s.ready = true → s.obj (Key.recNsReadState n.val) ≠ 1 → 1 ≤ count → count ≤ 65536 → off + count ≤ s.obj (Key.recNsLbas n.val) →
    s.inFixed addr (4096 * count) = true → Completes (.recNsRead n off count addr) s fun t => t.result = Res.done ∧ t.obj (Key.recNsReadState n.val) = 1 ∧
      t.outbox = s.outbox ++ [.nvmeRead (s.obj (Key.recNsDrive n.val)) (s.obj (Key.recNsNsid n.val)) (s.obj (Key.recNsFirst n.val) + off) count] ∧ KeepsObjects [Key.recNsReadState n.val] s t) ∧
  (∀ (s : State) (n : Fin 16), s.obj (Key.recNsReadState n.val) = 1 → Completes (.recNsReadDone n false) s fun t => t.obj (Key.recNsReadState n.val) = 3 ∧ t.mem = s.mem) ∧
  (∀ (s : State) (n : Fin 16), s.obj (Key.recNsReadState n.val) = 1 → s.obj (Key.recDriveState (s.obj (Key.recNsDrive n.val))) = 2 →
    Completes (.recNsReadDone n true) s fun t => t.obj (Key.recNsReadState n.val) = 2 ∧ t.mem.cells = s.mem.cells)

/-- Access errors (R326): a narrow write, a write of a busy register and a write that a register refuses change nothing but the capture, its count and event source 0. Register writes that act (R326, R328, R329): ACC_CLEAR empties the capture; AP_BASE and MBOX_SEL are posted and busy until they have acted; the mailbox takes the whole value, or a code with VALID 0; a plain register holds its field. Commands shown to complete, exec answering a next state with its effect, under conditions on the state and the operands alone: accClear, registerWrite, apBaseWrite, apMoveDone, mboxSelWrite, mboxSnapshotDone, hrRptrWrite, mvTailWrite, mvRun, mvResume, mvSkip. -/
def Obligations.HostRegisters : Prop :=
  ((∀ (s : State) (be : BitVec 4) (v : BitVec 32), be ≠ 15#4 →
    Completes (.accClear be v) s (fun t => Captured s t 1 0 be.toNat 3) ∧ Completes (.apBaseWrite be v) s (fun t => Captured s t 1 0 be.toNat 6) ∧
    Completes (.mboxSelWrite be v) s (fun t => Captured s t 1 0 be.toNat 16) ∧
    (∀ n : Fin 64, Completes (.hrRptrWrite n be v) s (fun t => Captured s t 1 2 be.toNat ((0x800004 + 0x40 * n.val) / 4))) ∧
    (∀ m : Fin 16, Completes (.mvTailWrite m be v) s (fun t => Captured s t 1 0 be.toNat ((0x40C + 0x40 * m.val) / 4)) ∧
      (∀ b, Completes (.mvRun m be b) s (fun t => Captured s t 1 0 be.toNat ((0x400 + 0x40 * m.val) / 4))) ∧
      Completes (.mvResume m be) s (fun t => Captured s t 1 0 be.toNat ((0x400 + 0x40 * m.val) / 4)) ∧
      Completes (.mvSkip m be) s (fun t => Captured s t 1 0 be.toNat ((0x400 + 0x40 * m.val) / 4))) ∧
    (∀ off : Nat, off % 4 = 0 → isRegister off = true → Completes (.registerWrite false off be v) s (fun t => Captured s t 1 0 be.toNat (off / 4))) ∧
    (∀ off : Nat, off % 4 = 0 → isRegister off = false → exec (.registerWrite false off be v) s = .next s)) ∧
  (∀ (s : State) (v : BitVec 32), s.pcie.apBusy = true → Completes (.apBaseWrite 15 v) s fun t => Captured s t 2 0 15 6) ∧
  (∀ (s : State) (v : BitVec 32), s.pcie.mboxBusy = true → Completes (.mboxSelWrite 15 v) s fun t => Captured s t 2 0 15 16) ∧
  (∀ (s : State) (v : BitVec 32), s.pcie.dcBusy = true → Completes (.registerWrite false 0x80 15 v) s fun t => Captured s t 2 0 15 32) ∧
  (∀ (s : State) (n : Fin 64) (v : BitVec 32), (v.toNat % 64 ≠ 0 ∨ s.obj (Key.hrSize n.val) ≤ v.toNat) →
    Completes (.hrRptrWrite n 15 v) s fun t => Captured s t 3 2 15 ((0x800004 + 0x40 * n.val) / 4)) ∧
  (∀ (s : State) (m : Fin 16) (v : BitVec 32), ((s.mover m.val).state = 0 ∨ s.obj (Key.mvStartSource m.val) ≠ 0 ∨ s.obj (Key.mvDescCount m.val) ≤ v.toNat % 65536) →
    Completes (.mvTailWrite m 15 v) s fun t => Captured s t 3 0 15 ((0x40C + 0x40 * m.val) / 4)) ∧
  (∀ (s : State) (m : Fin 16), (s.mover m.val).state ≠ 4 → Completes (.mvResume m 15) s (fun t => Captured s t 3 0 15 ((0x400 + 0x40 * m.val) / 4)) ∧
    Completes (.mvSkip m 15) s (fun t => Captured s t 3 0 15 ((0x400 + 0x40 * m.val) / 4)))) ∧
  ((∀ (s : State) (v : BitVec 32), exec (.accClear 15 v) s = .next (if v.getLsbD 0 then s.withPcie { s.pcie with accErr := false, accAddr := 0, accInfo := 0 } else s)) ∧
  (∀ (s : State) (v : BitVec 32), s.pcie.apBusy = false →
    exec (.apBaseWrite 15 v) s = .next (s.withPcie { s.pcie with apReg := v.toNat % 2 ^ 19, apBusy := true })) ∧
  (∀ s : State, s.pcie.apBusy = true → exec .apMoveDone s = .next (s.withPcie { s.pcie with apBase := s.pcie.apReg, apBusy := false })) ∧
  (∀ (s : State) (v : BitVec 32), s.pcie.mboxBusy = false →
    Completes (.mboxSelWrite 15 v) s fun t => t.pcie.mboxSel = v.toNat % 2 ^ 24 ∧ t.pcie.mboxBusy = true ∧ bit t.pcie.mboxStat 0 = false ∧ t.pcie.mboxData = s.pcie.mboxData ∧
      t = { s with pcie := t.pcie }) ∧
  (∀ (s : State) (b : Bytes), s.pcie.mboxBusy = true → s.readReceived s.pcie.mboxAt s.pcie.mboxSel = (Res.done, b) → (typeAt s.pcie.mboxSel).image = false →
    exec .mboxSnapshotDone s = .next (s.withPcie { s.pcie with mboxBusy := false, mboxData := leNat b, mboxStat := 1 + 65536 * ((b.length + 3) / 4) })) ∧
  (∀ (s : State) (c : Code) (b : Bytes), s.pcie.mboxBusy = true → s.readReceived s.pcie.mboxAt s.pcie.mboxSel = (c, b) → (c ≠ Res.done ∨ (typeAt s.pcie.mboxSel).image = true) →
    Completes .mboxSnapshotDone s fun t => t.pcie.mboxBusy = false ∧ bit t.pcie.mboxStat 0 = false ∧ fieldAt t.pcie.mboxStat 1 1 = (if c = Res.done then Res.type else c) % 256 ∧
      t.pcie.mboxData = s.pcie.mboxData ∧ t = { s with pcie := t.pcie }) ∧
  (∀ (s : State) (off : Nat) (w : Nat) (v : BitVec 32), (off, w) ∈ [(0x84, 24), (0x88, 23), (0x8C, 24), (0x90, 32), (0x100, 32), (0x104, 16)] →
    Completes (.registerWrite false off 15 v) s fun t => t.bar0Read off = v.toNat % 2 ^ w ∧ t = { s with pcie := t.pcie, pev := t.pev }) ∧
  (∀ (s : State) (i : Nat) (v : BitVec 32), i < 256 → Completes (.registerWrite false (0xE000 + 4 * i) 15 v) s fun t => t.bar0Read (0xE000 + 4 * i) = v.toNat ∧ t.pcie = s.pcie) ∧
  (∀ (s : State) (v : BitVec 32), s.pcie.dcBusy = false → 1 ≤ v.toNat % 16 → v.toNat % 16 ≤ 6 →
    exec (.registerWrite false 0x80 15 v) s = .next (s.withPcie { s.pcie with dcCtrl := v.toNat % 32, dcBusy := true })))

/-- The dictionary port (R330): READ gives a value of 32 bits or less in DC_DATA and a BLOB in the bulk window, and TYPE for a wider scalar; WRITE_NOW performs the write; a group is opened with DC_TIME, takes at most 1,024 writes, is submitted or discarded, and is closed by either. Commands shown to complete, exec answering a next state with its effect, under conditions on the state and the operands alone: dcRead, writeNow, groupOpen, groupAdd, groupCommit, groupDiscard. -/
def Obligations.DictionaryPort : Prop :=
  (∀ (s : State) (b : Bytes), s.dcDue 1 = true → s.dcBulk false = true → s.readObject s.pcie.dcIndex = (Res.done, b) → (typeAt s.pcie.dcIndex).image = false →
    1 ≤ b.length → b.length ≤ 4 →
    Completes (.dcRead false) s fun t => DcEnded s t Res.done ∧ (if (typeAt s.pcie.dcIndex).signed = true then toSigned 32 t.pcie.dcData = toSigned (8 * b.length) (leNat b) else
      t.pcie.dcData = leNat b) ∧ t = { s with pcie := t.pcie, pev := t.pev }) ∧
  (∀ (s : State) (b : Bytes), s.dcDue 1 = true → s.dcBulk false = true → s.readObject s.pcie.dcIndex = (Res.done, b) → 4 < b.length → (typeAt s.pcie.dcIndex).image = false →
    Completes (.dcRead false) s fun t => DcEnded s t Res.type ∧ t.pcie.dcData = s.pcie.dcData ∧ t = { s with pcie := t.pcie, pev := t.pev }) ∧
  (∀ (s : State) (b : Bytes), s.dcDue 1 = true → s.dcBulk true = true → s.readObject s.pcie.dcIndex = (Res.done, b) → (typeAt s.pcie.dcIndex).image = true →
    s.pcie.dcOffset + b.length ≤ 8388608 →
    Completes (.dcRead true) s fun t => DcEnded s t Res.done ∧ t.bulkBytes s.pcie.dcOffset b.length = b ∧ t = { s with pcie := t.pcie, pev := t.pev }) ∧
  (∀ (s : State) (bulk : Bool) (w : RawWrite) (u : State), s.dcDue 2 = true → s.dcBulk bulk = true → s.dcWrite bulk = some w → s.ready = true → s.checkWrite true w = Res.done →
    State.immediate w.key w.value s = (Res.done, u) →
    Completes (.writeNow bulk) s fun t => DcEnded u t Res.done ∧ t = { u with pcie := t.pcie, pev := t.pev }) ∧
  (∀ (s : State) (bulk : Bool) (w : RawWrite) (c : Code), s.dcDue 2 = true → s.dcBulk bulk = true → s.dcWrite bulk = some w →
    (s.ready = false ∧ c = Res.state ∨ s.ready = true ∧ s.checkWrite true w = c ∧ c ≠ Res.done) →
    Completes (.writeNow bulk) s fun t => DcEnded s t c ∧ t = { s with pcie := t.pcie, pev := t.pev }) ∧
  (∀ s : State, s.dcDue 3 = true → s.ready = true → s.pcie.groupOpen = false →
    Completes .groupOpen s fun t => t.pcie.groupOpen = true ∧ t.pev.group = [] ∧ t.pev.groupT = s.pcie.dcTime ∧ t.pcie.dcBusy = false ∧ fieldAt t.pcie.dcStat 0 1 = Res.done ∧
      t = { s with pcie := t.pcie, pev := t.pev }) ∧
  (∀ s : State, s.dcDue 3 = true → s.pcie.groupOpen = true → Completes .groupOpen s fun t => DcEnded s t Res.state ∧ t = { s with pcie := t.pcie, pev := t.pev }) ∧
  (∀ (s : State) (bulk : Bool) (w : RawWrite), s.dcDue 4 = true → s.dcBulk bulk = true → s.pcie.groupOpen = true → s.pev.group.length < 1024 → s.dcWrite bulk = some w →
    Completes (.groupAdd bulk) s fun t => t.pev.group = s.pev.group ++ [w] ∧ t.pcie.groupOpen = true ∧ t.pcie.dcBusy = false ∧ fieldAt t.pcie.dcStat 0 1 = Res.done ∧
      t = { s with pcie := t.pcie, pev := t.pev }) ∧
  (∀ (s : State) (bulk : Bool), s.dcDue 4 = true → s.dcBulk bulk = true → s.pcie.groupOpen = true → 1024 ≤ s.pev.group.length →
    Completes (.groupAdd bulk) s fun t => DcEnded s t Res.range ∧ t = { s with pcie := t.pcie, pev := t.pev }) ∧
  (∀ (s : State) (c : Code) (i : Nat), s.dcDue 5 = true → s.pcie.groupOpen = true → s.validateGroup s.pev.groupT s.pev.group none = (c, i) → c ≠ Res.done →
    Completes .groupCommit s fun t => t.pcie.groupOpen = false ∧ t.pev.group = [] ∧ t.pcie.dcStat % 256 = c % 256 ∧ t.pcie.dcBusy = false ∧ t = { s with pcie := t.pcie, pev := t.pev }) ∧
  (∀ (s : State) (i : Nat), s.dcDue 5 = true → s.pcie.groupOpen = true → s.validateGroup s.pev.groupT s.pev.group none = (Res.done, i) →
    Completes .groupCommit s fun t => t.pcie.groupOpen = false ∧ t.pev.group = [] ∧ t.pcie.dcStat % 256 = Res.done ∧
      t.groups = s.groups ++ [State.groupOf s.pev.groupT s.pev.group] ∧ t.time = s.time ∧ t.mem = s.mem) ∧
  (∀ s : State, s.dcDue 6 = true → s.pcie.groupOpen = true →
    Completes .groupDiscard s fun t => t.pcie.groupOpen = false ∧ t.pev.group = [] ∧ t.pcie.dcBusy = false ∧ fieldAt t.pcie.dcStat 0 1 = Res.done ∧ t = { s with pcie := t.pcie, pev := t.pev })

/-- MSI-X, the windows of BAR2, host rings and resets of the interface (R323, R332 to R337): one message for a pending, unmasked vector once its gap has passed; an aperture access inside the fixed region becomes requests, a read of it completes once its data has come, and one outside gives zero data and an error; an acknowledged entry moves HR_WPTR past it; a reset of the interface resets it alone and halts the channels in host space. Commands shown to complete, exec answering a next state with its effect, under conditions on the state and the operands alone: msixMessage, apertureAccess, hostInterfaceReset, hrEntryAcked, hrRptrWrite, pcieLinkUp, configurationRequest. -/
def Obligations.HostWindows : Prop :=
  (∀ (s : State) (v : Fin 64), tabGet 0 s.pev.pendingVec v.val ≠ 0 → bit (s.msixDword (4 * v.val + 3)) 0 = false → s.hostFlows = true →
    (tabGet 0 s.pev.lastMessage v.val = 0 ∨ tabGet 0 s.pev.lastMessage v.val + s.pev.intGap ≤ s.wall + 1) →
    Completes (.msixMessage v) s fun t => t.outbox = s.outbox ++ [.msix v.val (s.msixDword (4 * v.val) + 2 ^ 32 * s.msixDword (4 * v.val + 1)) (s.msixDword (4 * v.val + 2))] ∧ tabGet 0 t.pev.pendingVec v.val = 0 ∧ (∀ j, j ≠ v.val → tabGet 0 t.pev.pendingVec j = tabGet 0 s.pev.pendingVec j) ∧
      t.pev.evtCount = s.pev.evtCount ∧ t = { s with pev := t.pev, outbox := t.outbox }) ∧
  (∀ (s : State) (v : Fin 64), (tabGet 0 s.pev.pendingVec v.val = 0 ∨ bit (s.msixDword (4 * v.val + 3)) 0 = true ∨ s.pcie.busMaster = false ∨ s.pcie.d3hot = true) →
    exec (.msixMessage v) s = .next s) ∧
  (∀ (s : State) (off a : Nat) (be : BitVec 4) (d : Bytes), 0xC00000 ≤ off → off < 0x1000000 → a = s.pcie.apBase * 4194304 + (off - 0xC00000) → a + d.length ≤ s.fixedEnd → 0 < d.length →
    s.readLost a d.length = false → s.pcie.reads = [] →
    Completes (.apertureAccess false off be d) s fun t => t.pcie.reads = [{ tag := s.mem.nextId, addr := a, len := d.length, be := be.toNat, dword := off / 4 }] ∧
      t.outstanding (.aperture s.mem.nextId) = true ∧ t.outbox = s.outbox ∧ t.mem.cells = s.mem.cells) ∧
  (∀ (s : State) (r : ApertureRead), s.pcie.reads = [r] → s.outstanding (.aperture r.tag) = false → (s.takeRead (.aperture r.tag) r.addr r.len).1.2 = false →
    s.finishAperture.pcie.reads = [] ∧ s.finishAperture.outbox = s.outbox ++ [.aperture (s.takeRead (.aperture r.tag) r.addr r.len).1.1]) ∧
  (∀ (s : State) (off : Nat) (be : BitVec 4) (d : Bytes), 0xC00000 ≤ off → off < 0x1000000 → s.pcie.apBase * 4194304 + (off - 0xC00000) + d.length ≤ s.fixedEnd →
    Completes (.apertureAccess true off be d) s fun t => t.pcie = s.pcie ∧ t.outbox = s.outbox ∧ t.mem.cells = s.mem.cells ∧ t.time = s.time) ∧
  (∀ (s : State) (off : Nat) (be : BitVec 4) (d : Bytes), 0xC00000 ≤ off → off < 0x1000000 → s.fixedEnd < s.pcie.apBase * 4194304 + (off - 0xC00000) + d.length →
    Completes (.apertureAccess true off be d) s (fun t => Captured s t 4 2 be.toNat (off / 4)) ∧
    Completes (.apertureAccess false off be d) s fun t => t.outbox = s.outbox ++ [.aperture (zeros d.length)] ∧ Captured s { t with outbox := s.outbox } 4 2 be.toNat (off / 4)) ∧
  (∀ (s : State) (off : Nat) (d : Bytes), off + d.length ≤ 0x800000 → 0 < d.length →
    Completes (.apertureAccess true off 15 d) s (fun t => t.bulkBytes off d.length = d ∧ t = { s with pev := t.pev }) ∧
    exec (.apertureAccess false off 15 d) s = .next (s.emit (.aperture (s.bulkBytes off d.length)))) ∧
  (∀ (s : State) (n : Fin 64) (v : BitVec 32), v.toNat % 64 = 0 → v.toNat < s.obj (Key.hrSize n.val) → (∀ r ∈ s.acq.records, r.state ≠ 2) →
    exec (.hrRptrWrite n 15 v) s = .next (s.putHostRing n.val { s.hostRing n.val with rptr := v.toNat, waiting := false })) ∧
  (∀ (s : State) (n : Fin 64) (e : RingEntry) (rest : List RingEntry), (s.hostRing n.val).unacked = e :: rest → s.entryAcked n.val = true → e.offset + e.bytes < s.obj (Key.hrSize n.val) →
    Completes (.hrEntryAcked n) s fun t => (t.hostRing n.val).wptr = e.offset + e.bytes ∧ (t.hostRing n.val).unacked = rest ∧
      t.obj (Key.hrEntries n.val) = (s.obj (Key.hrEntries n.val) + 1) % 2 ^ 64 ∧
      (s.obj (Key.hrVector n.val) ≠ 0xFF → tabGet 0 t.pev.pendingVec (s.obj (Key.hrVector n.val)) = 1) ∧ (s.obj (Key.hrVector n.val) = 0xFF → t.pev = s.pev) ∧ t.mem = s.mem) ∧
  (∀ (s : State) (n : Fin 64), s.entryAcked n.val = false → exec (.hrEntryAcked n) s = .next s) ∧
  (∀ (s : State) (k : HostResetKind), Completes (.hostInterfaceReset k) s fun t => t.pcie = { linkUp := s.pcie.linkUp && decide (k = .flr) } ∧ t.pev.group = [] ∧ t.pev.msixTable = [] ∧
    t.groups = s.groups ∧ t.mem.cells = s.mem.cells ∧ t.hrs = s.hrs ∧ t.time = s.time ∧
    (∀ m < 16, s.moverUsesHost m = true → (t.mover m).state = 4 ∧ (t.mover m).cause = 6) ∧ (∀ m, s.moverUsesHost m = false → t.mover m = s.mover m)) ∧
  (∀ s : State, s.start.released = true → Completes .pcieLinkUp s fun t => t.pcie = { s.pcie with linkUp := true } ∧ t.flag Key.spanAnchor = true) ∧
  (∀ (s : State) (b d : Bool), s.pcie.linkUp = true → exec (.configurationRequest (some b) (some d)) s = .next (s.withPcie { s.pcie with busMaster := b, d3hot := d }))

/-- Movers (R338 to R347): MV_TAIL and MV_CTRL; a descriptor is read from DRAM, refused with RANGE or OVERLAP, or moved burst by burst, each burst's read a request of class 3 whose answer the channel takes; a failed burst is retried up to mv.retry times and then the channel halts; without BARRIER the last burst completes the descriptor, with it the acknowledged writes do; completion advances MV_HEAD and MV_DONE; under BARRIER a burst whose writes fail again with its retries used up halts the channel. Commands shown to complete, exec answering a next state with its effect, under conditions on the state and the operands alone: mvTailWrite, mvRun, mvResume, mvSkip, moverDescFetched, moverBurstDone, moverBarrierDone. -/
def Obligations.MoverChannels : Prop :=
  (∀ (s : State) (m : Fin 16) (v : BitVec 32), (s.mover m.val).state ≠ 0 → s.obj (Key.mvStartSource m.val) = 0 → v.toNat < s.obj (Key.mvDescCount m.val) → v.toNat < 65536 →
    Completes (.mvTailWrite m 15 v) s fun t => (t.mover m.val).tail = v.toNat ∧ t = { s with movers := t.movers } ∧ (∀ j, j ≠ m.val → t.mover j = s.mover j) ∧
      ((s.mover m.val).state = 1 → (s.mover m.val).run = true → v.toNat ≠ (s.mover m.val).head → (t.mover m.val).state = 2)) ∧
  (∀ (s : State) (m : Fin 16) (b : Bool), Completes (.mvRun m 15 b) s fun t => (t.mover m.val).run = b ∧ t = { s with movers := t.movers } ∧ (∀ j, j ≠ m.val → t.mover j = s.mover j) ∧
    (t.mover m.val).head = (s.mover m.val).head ∧ (t.mover m.val).desc = (s.mover m.val).desc) ∧
  (∀ (s : State) (m : Fin 16), (s.mover m.val).state = 4 → Completes (.mvResume m 15) s fun t => (t.mover m.val).state ≠ 4 ∧ (t.mover m.val).cause = 0 ∧ (t.mover m.val).retries = 0 ∧
    (t.mover m.val).head = (s.mover m.val).head ∧ (t.mover m.val).desc = (s.mover m.val).desc ∧ t = { s with movers := t.movers }) ∧
  (∀ (s : State) (m : Fin 16), (s.mover m.val).state = 4 → 2 ≤ s.obj (Key.mvDescCount m.val) → Completes (.mvSkip m 15) s fun t => (t.mover m.val).state ≠ 4 ∧ (t.mover m.val).desc = none ∧
    (t.mover m.val).head = ((s.mover m.val).head + 1) % s.obj (Key.mvDescCount m.val) ∧ (t.mover m.val).done = (s.mover m.val).done ∧ t = { s with movers := t.movers }) ∧
  (∀ (s : State) (m : Fin 16) (hd ix : Bytes) (ok ok' : Bool) (x : Mover), x = s.mover m.val → x.state = 2 → x.desc = none → x.head ≠ x.tail → x.phase = 0 → s.flag (Key.mvDescHost m.val) = false →
    Completes (.moverDescFetched m ok hd ok' ix) s fun t => t.mover m.val = { x with phase := 1 } ∧ (∀ j, j ≠ m.val → t.mover j = s.mover j) ∧ t.mem.cells = s.mem.cells ∧ t.outbox = s.outbox) ∧
  (∀ (s : State) (m : Fin 16) (hd ix : Bytes) (ok ok' : Bool) (x : Mover) (raw : Bytes), x = s.mover m.val → x.state = 2 → x.desc = none → x.head ≠ x.tail → x.phase = 1 →
    s.readsOutstanding (State.moverOwner m.val) = false → (s.moverTake m.val (s.obj (Key.mvDescBase m.val) + 64 * x.head) 64).1 = (raw, false) → s.descBad (mvDesc raw) = true →
    Completes (.moverDescFetched m ok hd ok' ix) s fun t => (t.mover m.val).state = 4 ∧ (t.mover m.val).cause = 5 ∧ (t.mover m.val).code = Res.range ∧ (t.mover m.val).head = x.head ∧
      t.mem.cells = s.mem.cells ∧ tabGet 0 t.pev.evtCount 17 = (tabGet 0 s.pev.evtCount 17 + 1) % 2 ^ 32) ∧
  (∀ (s : State) (m : Fin 16) (hd ix : Bytes) (ok ok' : Bool) (x : Mover) (raw : Bytes), x = s.mover m.val → x.state = 2 → x.desc = none → x.head ≠ x.tail → x.phase = 1 →
    s.readsOutstanding (State.moverOwner m.val) = false → (s.moverTake m.val (s.obj (Key.mvDescBase m.val) + 64 * x.head) 64).1 = (raw, false) → (mvDesc raw).pattern ≠ 2 →
    s.descRefused (mvDesc raw) [] = none →
    Completes (.moverDescFetched m ok hd ok' ix) s fun t => t.mover m.val =
        { x with desc := some raw, index := [], retries := 0, redo := [], tries := [], pos := 0, elem := 0, inElem := 0, phase := 0, fetched := [], serial := x.serial + 1 } ∧
      (∀ j, j ≠ m.val → t.mover j = s.mover j) ∧ t.mem.cells = s.mem.cells ∧ t = { s with movers := t.movers, mem := t.mem }) ∧
  (∀ (s : State) (m : Fin 16) (ok : Bool) (hd : Bytes) (x : Mover) (raw : Bytes), x = s.mover m.val → x.state = 2 → x.desc = some raw → (mvDesc raw).srcHost = false → (mvDesc raw).dstHost = false →
    x.phase = 0 → Completes (.moverBurstDone m ok hd) s fun t => t.mover m.val = { x with phase := 1 } ∧ (∀ j, j ≠ m.val → t.mover j = s.mover j) ∧ t.mem.cells = s.mem.cells ∧ t.outbox = s.outbox) ∧
  (∀ (s : State) (m : Fin 16) (hd : Bytes) (x : Mover) (raw : Bytes), x = s.mover m.val → x.state = 2 → x.desc = some raw → (mvDesc raw).srcHost = true → s.hostFlows = true → x.stopping = false →
    x.retries < s.obj (Key.mvRetry m.val) →
    Completes (.moverBurstDone m false hd) s fun t => (t.mover m.val).retries = x.retries + 1 ∧ (t.mover m.val).pos = x.pos ∧ (t.mover m.val).elem = x.elem ∧ (t.mover m.val).head = x.head ∧
      t.obj (Key.mvRetries m.val) = (s.obj (Key.mvRetries m.val) + 1) % 2 ^ 64 ∧ t.mem = s.mem) ∧
  (∀ (s : State) (m : Fin 16) (hd : Bytes) (x : Mover) (raw : Bytes), x = s.mover m.val → x.state = 2 → x.desc = some raw → (mvDesc raw).srcHost = true → s.hostFlows = true → x.stopping = false →
    s.obj (Key.mvRetry m.val) ≤ x.retries →
    Completes (.moverBurstDone m false hd) s fun t => (t.mover m.val).state = 4 ∧ (t.mover m.val).cause = 1 ∧ t.obj (Key.mvHalts m.val) = (s.obj (Key.mvHalts m.val) + 1) % 2 ^ 32 ∧
      (t.mover m.val).pos = x.pos ∧ t.mem.cells = s.mem.cells) ∧
  (∀ (s : State) (m : Fin 16) (ok : Bool) (hd : Bytes) (x : Mover) (raw : Bytes), x = s.mover m.val → x.state = 2 → x.desc = some raw → (mvDesc raw).srcHost = false → (mvDesc raw).dstHost = false →
    x.phase = 1 → x.redo = [] → x.stopping = false → s.readsOutstanding (State.moverOwner m.val) = false →
    (s.moverTake m.val ((mvDesc raw).srcAt x.index x.elem + x.inElem).toNat ((mvDesc raw).burstLen x.index x.elem x.inElem)).1.2 = true → x.retries < s.obj (Key.mvRetry m.val) →
    Completes (.moverBurstDone m ok hd) s fun t => (t.mover m.val).retries = x.retries + 1 ∧ (t.mover m.val).phase = 0 ∧ (t.mover m.val).pos = x.pos ∧ t.mem.cells = s.mem.cells) ∧
  (∀ (s : State) (m : Fin 16) (hd : Bytes) (x : Mover) (raw : Bytes) (n : Nat), x = s.mover m.val → x.state = 2 → x.desc = some raw → s.hostFlows = true → x.stopping = false → x.redo = [] →
    x.run = true → x.head ≠ x.tail → n = (mvDesc raw).burstLen x.index x.elem x.inElem → x.inElem + n < (mvDesc raw).size →
    ((mvDesc raw).srcHost = true ∨ x.phase = 1 ∧ s.readsOutstanding (State.moverOwner m.val) = false ∧ (s.moverTake m.val ((mvDesc raw).srcAt x.index x.elem + x.inElem).toNat n).1.2 = false) →
    Completes (.moverBurstDone m true hd) s fun t => (t.mover m.val).pos = x.pos + n ∧ (t.mover m.val).elem = x.elem ∧ (t.mover m.val).inElem = x.inElem + n ∧ (t.mover m.val).state = 2 ∧
      (t.mover m.val).retries = 0 ∧ t.mem.cells = s.mem.cells) ∧
  (∀ (s : State) (m : Fin 16) (hd : Bytes) (x : Mover) (raw : Bytes) (n : Nat), x = s.mover m.val → x.state = 2 → x.desc = some raw → s.hostFlows = true → x.stopping = false → x.redo = [] →
    n = (mvDesc raw).burstLen x.index x.elem x.inElem → (mvDesc raw).size ≤ x.inElem + n → (mvDesc raw).elements ≤ x.elem + 1 → (mvDesc raw).event = false → 2 ≤ s.obj (Key.mvDescCount m.val) →
    ((mvDesc raw).srcHost = true ∨ x.phase = 1 ∧ s.readsOutstanding (State.moverOwner m.val) = false ∧ (s.moverTake m.val ((mvDesc raw).srcAt x.index x.elem + x.inElem).toNat n).1.2 = false) →
    Completes (.moverBurstDone m true hd) s fun t => if (mvDesc raw).barrier = true then (t.mover m.val).state = 5 ∧ (t.mover m.val).head = x.head ∧ (t.mover m.val).pos = x.pos else
      (t.mover m.val).head = (x.head + 1) % s.obj (Key.mvDescCount m.val) ∧ (t.mover m.val).done = (x.done + 1) % 2 ^ 32 ∧ (t.mover m.val).pos = x.pos + n ∧ (t.mover m.val).elem = x.elem + 1 ∧
        (t.mover m.val).desc = none) ∧
  (∀ (s : State) (m : Fin 16) (x : Mover) (raw : Bytes), x = s.mover m.val → x.state = 5 → x.desc = some raw → (mvDesc raw).dstHost = false → (mvDesc raw).event = false →
    s.outstanding (.mover m.val x.serial) = false → (∀ e ∈ s.mem.lostWrites, e.1 ≠ .mover m.val x.serial) → 2 ≤ s.obj (Key.mvDescCount m.val) →
    Completes (.moverBarrierDone m true) s fun t => (t.mover m.val).head = (x.head + 1) % s.obj (Key.mvDescCount m.val) ∧ (t.mover m.val).done = (x.done + 1) % 2 ^ 32 ∧
      (t.mover m.val).desc = none ∧ t.mem.cells = s.mem.cells ∧ (∀ j, j ≠ m.val → t.mover j = s.mover j)) ∧
  (∀ (s : State) (m : Fin 16) (x : Mover) (raw : Bytes), x = s.mover m.val → x.state = 5 → x.desc = some raw → (mvDesc raw).dstHost = true → s.hostFlows = true →
    s.obj (Key.mvRetry m.val) ≤ x.triesOf (x.elem, x.inElem) →
    Completes (.moverBarrierDone m false) s fun t => (t.mover m.val).state = 4 ∧ (t.mover m.val).cause = 2 ∧ t.obj (Key.mvHalts m.val) = (s.obj (Key.mvHalts m.val) + 1) % 2 ^ 32 ∧
      t.mem.cells = s.mem.cells ∧ (∀ j, j ≠ m.val → t.mover j = s.mover j)) ∧
  (∀ (s : State) (m : Fin 16) (x : Mover) (raw : Bytes), x = s.mover m.val → x.state = 5 → x.desc = some raw → (mvDesc raw).dstHost = false → s.outstanding (.mover m.val x.serial) = true →
    exec (.moverBarrierDone m true) s = .next s)

/-- Every index from 0x4000 to 0x4FFF reads as a U32 of zero at any subindex and refuses a write with ACCESS; an index that is neither implemented nor there gives NO_OBJECT, and every implemented index lies in a range of Table 13-5 (R360). -/
def Obligations.IndexMap : Prop :=
  (∀ (s : State) (ix sub : Nat), 0x4000 ≤ ix → ix ≤ 0x4FFF → sub < 256 → s.readObject (256 * ix + sub) = (Res.done, natLE 4 0) ∧ typeAt (256 * ix + sub) = .u32 ∧
    ∀ (now : Bool) (ty : Nat) (b : Bytes), s.checkWrite now { key := 256 * ix + sub, ty := ty, value := b } = Res.access) ∧
  (∀ (s : State) (ix sub : Nat), indexImplemented ix = false → ¬ (0x4000 ≤ ix ∧ ix ≤ 0x4FFF) → sub < 256 → s.readObject (256 * ix + sub) = (Res.noObject, []) ∧
    ∀ (now : Bool) (ty : Nat) (b : Bytes), s.checkWrite now { key := 256 * ix + sub, ty := ty, value := b } = Res.noObject) ∧
  (∀ ix, indexImplemented ix = true → ∃ r ∈ [(0x1000, 0x16FF), (0x1700, 0x174F), (0x1800, 0x1BFF), (0x2000, 0x2A7F), (0x2B00, 0x2DFF), (0x3000, 0x34FF), (0x3500, 0x351F), (0x3600, 0x36FF)],
    r.1 ≤ ix ∧ ix ≤ r.2)

/-- Locks and commands of the dictionary (R352, R353, R355, R356, R359; 18 R484): a write of a locked object gives LOCKED by either path, a lock is set at once and a second time answers ALREADY, an immediate object in a group or another one written at once gives ACCESS, and a refused immediate write changes nothing. Commands shown to complete, exec answering a next state with its effect, under conditions on the state and the operands alone: boardLock, ppKeysLock. -/
def Obligations.LocksAndChecks : Prop :=
  (∀ s : State, s.ready = true → exec .boardLock s = .next (if s.sec.boardLock = true then s.withResult Res.already else (s.withSec { s.sec with boardLock := true }).withResult Res.done)) ∧
  (∀ s : State, s.ready = true → exec .ppKeysLock s = .next (if s.sec.keysLock = true then s.withResult Res.already else (s.withSec { s.sec with keysLock := true }).withResult Res.done)) ∧
  (∀ (s : State) (b : Bytes), b.length ≤ 64 → s.checkWrite false { key := Key.boardId, ty := 0x0B, value := b } =
    if s.sec.boardLock = true then Res.locked else if utf8From 0 0x80 0xBF b = true then Res.done else Res.range) ∧
  (∀ (s : State) (n : Nat) (b : Bytes), n < 8 → b.length = 97 → s.checkWrite false { key := Key.ppKey n, ty := 0x0C, value := b } =
    if s.sec.keysLock = true then Res.locked else if leNat b ≠ 0 ∧ pointOf b = none then Res.range else Res.done) ∧
  (∀ (s : State) (k : Nat), k ∈ [Key.ksLoad, Key.ringSlabs, Key.fwLoad, Key.fwSwap, Key.attNonce, Key.ppKeysLock] →
    s.checkWrite false { key := k, ty := (tyOf k).code, value := zeros (lenOf k) } = Res.access) ∧
  (∀ (s : State) (p : Nat), p < 1024 → s.checkWrite true { key := Key.feDecim p, ty := 0x03, value := zeros 2 } = Res.access) ∧
  (∀ (s : State) (w : RawWrite) (u : State) (c : Code), s.writeImmediate w = (c, u) → c ≠ Res.done → c ≠ Res.deferred → u = s)

/-- A payload that is too short, has another MAGIC, a LENGTH that does not match, or RESPONSE or ACK set, is discarded without an acknowledgement and counted in pp.dropped; every other payload is a request, and is acknowledged (R364). Commands shown to complete, exec answering a next state with its effect, under conditions on the state and the operands alone: pelpinRequestRx. -/
def Obligations.PelpinDiscards : Prop :=
  ∀ (s : State) (i : Fin 8) (src : NetAddr) (p : Bytes), s.ifaceUp i.val = true →
    (p.length < 32 ∨ beNat (p.take 2) ≠ 0x504C ∨ p.length ≠ 32 + beNat ((p.drop 12).take 2) ∨ (∃ f, (p.drop 4).head? = some f ∧ (f.getLsbD 0 = true ∨ f.getLsbD 1 = true)) →
      exec (.pelpinRequestRx i src p) s = .next (s.bump Key.ppDropped)) ∧
    (32 ≤ p.length → beNat (p.take 2) = 0x504C → p.length = 32 + beNat ((p.drop 12).take 2) → (∀ f, (p.drop 4).head? = some f → f.getLsbD 0 = false ∧ f.getLsbD 1 = false) →
      Completes (.pelpinRequestRx i src p) s fun t => t.obj Key.ppAcks = (s.obj Key.ppAcks + 1) % 2 ^ 64 ∧ t.obj Key.ppDropped = s.obj Key.ppDropped ∧
        ∃ f l, t.outbox = s.outbox ++ .udp i.val src.mac src.ip src.udp 47321 f :: l ∧ bit (beAt f 4 1) 1 = true ∧ beAt f 8 2 = beAt p 8 2 ∧ l.length ≤ 1)

/-- The replay window (R374): a newer epoch and a TID ahead are accepted, one in the window is a duplicate once seen, older ones are stale; a duplicate of a completed request is answered from the window and executed no second time; a full queue answers BUSY and leaves the window alone. -/
def Obligations.ReplayWindow : Prop :=
  (∀ (e h : Nat) (w : List PpTid) (epoch tid : Nat), e < 256 → h < 65536 → epoch < 256 → tid < 65536 → ppClassify true e h w epoch tid =
    if 128 ≤ (epoch + 256 - e) % 256 then .stale
    else if 1 ≤ (epoch + 256 - e) % 256 then .accept
    else if 1 ≤ (tid + 65536 - h) % 65536 ∧ (tid + 65536 - h) % 65536 ≤ 32767 then .accept
    else if (h + 65536 - tid) % 65536 ≤ 63 then (if ∃ x ∈ w, x.tid = tid then .duplicate else .accept)
    else .stale) ∧
  (∀ (s : State) (r : PpRequest) (k : Bytes), ppClassify (s.sess r.session).begun (s.obj (Key.ppSessEpoch r.session)) (s.obj (Key.ppSessTid r.session)) (s.sess r.session).window r.epoch r.tid = .accept →
    (s.ppRoom r.session = true → (s.ppRequest r k).pel.queue = s.pel.queue ++ [{ r with at' := s.time }] ∧ (∃ x ∈ ((s.ppRequest r k).sess r.session).window, x.tid = r.tid ∧ x.response = none)) ∧
    (s.ppRoom r.session = false → (s.ppRequest r k).pel.queue = s.pel.queue ∧ ((s.ppRequest r k).sess r.session).window = (s.sess r.session).window ∧
      (s.ppRequest r k).obj Key.ppBusy = (s.obj Key.ppBusy + 1) % 2 ^ 64)) ∧
  (∀ (s : State) (r : PpRequest) (k : Bytes) (x : PpTid) (c : Code) (b : Bytes),
    ppClassify (s.sess r.session).begun (s.obj (Key.ppSessEpoch r.session)) (s.obj (Key.ppSessTid r.session)) (s.sess r.session).window r.epoch r.tid = .duplicate →
    ((s.sess r.session).window.find? fun w => w.tid == r.tid) = some x → x.response = some (c, b) →
    (s.ppRequest r k).pel.queue = s.pel.queue ∧ (s.ppRequest r k).outbox = s.outbox ++ [.udp r.iface r.src.mac r.src.ip r.src.udp 47321 (ppFrame k r.op 10 0 r.session r.epoch r.tid r.node []),
      .udp r.iface r.src.mac r.src.ip r.src.udp 47321 (ppFrame k r.op 9 c r.session r.epoch r.tid r.node b)]) ∧
  (∀ (s : State) (r : PpRequest) (k : Bytes),
    ppClassify (s.sess r.session).begun (s.obj (Key.ppSessEpoch r.session)) (s.obj (Key.ppSessTid r.session)) (s.sess r.session).window r.epoch r.tid = .stale →
    (s.ppRequest r k).pel = s.pel ∧ (s.ppRequest r k).obj Key.ppStale = (s.obj Key.ppStale + 1) % 2 ^ 64)

/-- Requests are executed from the front of the queue and answered (R365 to R368, R372, R377): READ gives an entry for each object, WRITE performs its writes and gives their codes, the last part of a COMMIT submits the group, SUBSCRIBE starts a subscription, a stage fills its slot and a clear empties it, a BULK read gives the bytes from OFFSET; an observer's writes give ACCESS. Commands shown to complete, exec answering a next state with its effect, under conditions on the state and the operands alone: pelpinRead, pelpinWrite, pelpinCommit, subscribe, bulkStage, bulkRead, bulkClear. -/
def Obligations.PelpinOperations : Prop :=
  (∀ (s : State) (r : PpRequest) (rest : List PpRequest) (ks : List Nat), Serves s r rest opRead → 1 ≤ ks.length → ks.length ≤ 64 → (∀ k ∈ ks, k < 2 ^ 24) →
    r.body = natBE 1 ks.length ++ zeros 3 ++ ks.flatMap (fun k => natBE 3 k ++ zeros 1) → (ks.flatMap (readEntry (s.withPel { s.pel with queue := rest }) r.at')).length ≤ 1364 →
    Completes .pelpinRead s fun t => Answered s t r Res.done (ks.flatMap (readEntry (s.withPel { s.pel with queue := rest }) r.at')) ∧ t.pel.queue = rest ∧ t = { s with pel := t.pel, outbox := t.outbox }) ∧
  (∀ (s : State) (r : PpRequest) (rest : List PpRequest) (k : Nat), Serves s r rest opWrite → r.role = 0 → k < 2 ^ 24 → r.body = natBE 1 1 ++ zeros 3 ++ natBE 3 k ++ zeros 5 →
    Completes .pelpinWrite s fun t => Answered s t r Res.done (natBE 1 1 ++ zeros 3 ++ [3, 0, 0, 0]) ∧ t.pel.queue = rest ∧ t = { s with pel := t.pel, outbox := t.outbox }) ∧
  (∀ (s : State) (r : PpRequest) (rest : List PpRequest) (k : Nat) (c : Code) (u : State), Serves s r rest opWrite → r.role ≠ 0 → k < 2 ^ 24 → r.body = natBE 1 1 ++ zeros 3 ++ natBE 3 k ++ zeros 5 →
    (s.withPel { s.pel with queue := rest }).writeImmediate { key := k, ty := 0, value := [] } = (c, u) → u.sess r.session = s.sess r.session →
    Completes .pelpinWrite s fun t => Answered s { t with outbox := s.outbox ++ t.outbox.drop u.outbox.length } r Res.done (natBE 1 1 ++ zeros 3 ++ natLE 4 (c % 256)) ∧
      t.dict = u.dict ∧ t.mem = u.mem) ∧
  (∀ (s : State) (r : PpRequest) (rest : List PpRequest), Serves s r rest opCommit → r.role = 0 →
    Completes .pelpinCommit s fun t => Answered s t r Res.access [] ∧ t.pel.queue = rest ∧ t = { s with pel := t.pel, outbox := t.outbox }) ∧
  (∀ (s : State) (r : PpRequest) (rest : List PpRequest) (g : Nat) (T : KTime) (w : RawWrite), Serves s r rest opCommit → r.role ≠ 0 → r.last = true → g < 2 → T < 2 ^ 80 → w.key < 2 ^ 24 → w.ty < 256 →
    w.value.length ≤ 1024 → r.body = natBE 1 g ++ zeros 2 ++ natBE 1 1 ++ natBE 10 T ++ zeros 2 ++ entryInline w → (∀ y ∈ (s.sess r.session).groups, y.group ≠ g) →
    Completes .pelpinCommit s fun t => ∃ u : State, u = { s with pel := u.pel } ∧ t.groups = (u.submitGroup T [w] (some r.iface)).2.groups ∧
      ((u.submitGroup T [w] (some r.iface)).1.1 ≠ Res.done → t.groups = s.groups ∧ t.mem = s.mem ∧ t.time = s.time)) ∧
  (∀ (s : State) (r : PpRequest) (rest : List PpRequest) (k iv : Nat), Serves s r rest opSubscribe → k < 2 ^ 24 → existsCode k = Res.done → mayRead k = true → (typeAt k).image = false →
    40000 ≤ iv → iv < 2 ^ 32 → r.body = natBE 3 k ++ natBE 1 1 ++ natBE 4 iv → (s.sess r.session).subs = [] →
    Completes .subscribe s fun t => Answered s t r Res.done (zeros 4) ∧ (t.sess r.session).subs = [(0, { key := k, mode := 1, interval := iv, sent := none, at' := s.wall })] ∧
      t = { s with pel := t.pel, outbox := t.outbox }) ∧
  (∀ (s : State) (r : PpRequest) (rest : List PpRequest) (k off total : Nat) (d : Bytes), Serves s r rest opBulk → k < 8 → total ≤ 1048576 → off + d.length ≤ total →
    r.body = natBE 1 0 ++ natBE 1 k ++ zeros 6 ++ natBE 4 off ++ natBE 4 total ++ d →
    (r.role = 0 → Completes .bulkStage s fun t => Answered s t r Res.access [] ∧ t.pel.queue = rest ∧ t = { s with pel := t.pel, outbox := t.outbox }) ∧
    (r.role ≠ 0 → Completes .bulkStage s fun t => Answered s t r Res.done [] ∧ (tabGet ({} : SlotBuf) (t.sess r.session).slots k).total = total ∧ (∀ i x, d[i]? = some x →
      tabGet 0 (tabGet ({} : SlotBuf) (t.sess r.session).slots k).cells (off + i) = x.toNat + 1) ∧ t = { s with pel := t.pel, outbox := t.outbox })) ∧
  (∀ (s : State) (r : PpRequest) (rest : List PpRequest) (k off n : Nat) (b : Bytes), Serves s r rest opBulk → k < 2 ^ 24 → 1 ≤ n → n ≤ 1336 → off < 2 ^ 32 →
    r.body = natBE 1 1 ++ zeros 1 ++ natBE 3 k ++ zeros 3 ++ natBE 4 off ++ natBE 4 n → (s.withPel { s.pel with queue := rest }).readReceived r.at' k = (Res.done, b) → off < b.length →
    Completes .bulkRead s fun t => Answered s t r Res.done (natBE 4 off ++ natBE 4 (min n (b.length - off)) ++ ((fromWire (typeAt k).code b).drop off).take n) ∧
      t = { s with pel := t.pel, outbox := t.outbox }) ∧
  (∀ (s : State) (r : PpRequest) (rest : List PpRequest) (k : Nat), Serves s r rest opBulk → r.role ≠ 0 → k < 8 → r.body = natBE 1 2 ++ natBE 1 k ++ zeros 14 →
    Completes .bulkClear s fun t => Answered s t r Res.done [] ∧ tabGet ({} : SlotBuf) (t.sess r.session).slots k = {} ∧ t = { s with pel := t.pel, outbox := t.outbox })

/-- Sessions (R369, R370, R372, R377): OPEN1 with an empty slot gives AUTH and with 16 sessions BUSY, else a session opens and is answered; OPEN3 opens it or releases it, as its signature tells; CLOSE, pp.sess.close and the timeouts close it, and what it held goes; NOTIFY carries the value and counts SEQ; a group whose last part is late is discarded. Commands shown to complete, exec answering a next state with its effect, under conditions on the state and the operands alone: open1, open3, close, notify, sessionIdleTimeout, open3Timeout, groupAssemblyTimeout, ppSessClose. -/
def Obligations.PelpinSessions : Prop :=
  (∀ (s : State) (r : PpRequest) (rest : List PpRequest) (slot : Nat) (q : Nat × Nat), s.pel.queue = r :: rest → s.fwReady = true → r.op = opOpen → r.origin = none → r.bad = false → r.session = 0 →
    r.body.length = 133 → pointOf ((r.body.drop 4).take 97) = some q → beAt r.body 0 1 = slot → slot ≤ 7 → beAt r.body 1 3 = 0 →
    (s.obj (Key.ppKey slot) = 0 → Completes .open1 s fun t => t.pel.queue = rest ∧ t.obj Key.ppAuthFail = (s.obj Key.ppAuthFail + 1) % 2 ^ 64 ∧ ∀ n, t.obj (Key.ppSessState n) = s.obj (Key.ppSessState n)) ∧
    (s.obj (Key.ppKey slot) ≠ 0 → (∀ n, 1 ≤ n → n ≤ 16 → s.obj (Key.ppSessState n) ≠ 0) →
      Completes .open1 s fun t => t.pel.queue = rest ∧ t.obj Key.ppBusy = (s.obj Key.ppBusy + 1) % 2 ^ 64 ∧ ∀ n, t.obj (Key.ppSessState n) = s.obj (Key.ppSessState n)) ∧
    (s.obj (Key.ppKey slot) ≠ 0 → s.obj (Key.ppSessState 1) = 0 →
      Completes .open1 s fun t => t.pel.queue = rest ∧ t.obj (Key.ppSessState 1) = 1 ∧ t.obj (Key.ppSessSlot 1) = slot ∧ (t.sess 1).role = s.obj (Key.ppRole slot) ∧ (t.sess 1).openedAt = s.wall ∧
        (t.sess 1).begun = false ∧ (t.sess 1).window = [] ∧ t.outbox.length = s.outbox.length + 1)) ∧
  (∀ (s : State) (r : PpRequest) (rest : List PpRequest), s.pel.queue = r :: rest → s.fwReady = true → r.op = opOpen → r.origin = none → r.bad = false → 1 ≤ r.session → r.session ≤ 16 →
    r.body.length = 96 → s.obj (Key.ppSessState r.session) = 1 →
    Completes .open3 s fun t => t.obj (Key.ppSessState r.session) =
      if verifySig (natLE 97 (s.obj (Key.ppKey (s.obj (Key.ppSessSlot r.session))))) (natBE 1 0x43 ++ (s.sess r.session).hash) r.body = true then 2 else 0) ∧
  (∀ (s : State) (r : PpRequest) (rest : List PpRequest), Serves s r rest opClose → 1 ≤ r.session → r.session ≤ 16 → r.body = [] →
    Completes .close s fun t => Answered s t r Res.done [] ∧ t.obj (Key.ppSessState r.session) = 0 ∧ t.sess r.session = {} ∧ (∀ x ∈ t.pel.queue, x.origin = none → x.session ≠ r.session) ∧
      t.groups = s.groups) ∧
  (∀ (s : State) (k : Fin 16), s.ready = true → s.obj (Key.ppSessState (k.val + 1)) = 0 → exec (.ppSessClose k) s = .next (s.withResult Res.already)) ∧
  (∀ (s : State) (k : Fin 16), s.ready = true → s.obj (Key.ppSessState (k.val + 1)) ≠ 0 →
    Completes (.ppSessClose k) s fun t => t.result = Res.done ∧ t.obj (Key.ppSessState (k.val + 1)) = 0 ∧ t.sess (k.val + 1) = {} ∧ (∀ j, j ≠ k.val + 1 → t.sess j = s.sess j) ∧ t.groups = s.groups) ∧
  (∀ (s : State) (k : Fin 16), s.obj (Key.ppSessState (k.val + 1)) = 2 → (s.sess (k.val + 1)).validAt + s.obj Key.ppIdle ≤ s.wall →
    Completes (.sessionIdleTimeout k) s fun t => t.obj (Key.ppSessState (k.val + 1)) = 0 ∧ t.sess (k.val + 1) = {} ∧ t.groups = s.groups) ∧
  (∀ (s : State) (k : Fin 16), s.wall < (s.sess (k.val + 1)).validAt + s.obj Key.ppIdle → exec (.sessionIdleTimeout k) s = .next s) ∧
  (∀ (s : State) (k : Fin 16), s.obj (Key.ppSessState (k.val + 1)) = 1 → (s.sess (k.val + 1)).openedAt + 400000000 ≤ s.wall →
    Completes (.open3Timeout k) s fun t => t.obj (Key.ppSessState (k.val + 1)) = 0 ∧ t.sess (k.val + 1) = {}) ∧
  (∀ (s : State) (k : Fin 16) (g : Fin 2), Completes (.groupAssemblyTimeout k g) s fun t =>
    (∀ y, y ∈ (t.sess (k.val + 1)).groups ↔ y ∈ (s.sess (k.val + 1)).groups ∧ (y.group ≠ g.val ∨ s.wall < y.since + 400000000)) ∧ t = { s with pel := t.pel }) ∧
  (∀ (s : State) (k : Fin 16) (n : Fin 64) (u : PpSub), s.sessOpen (k.val + 1) = true → s.fwReady = true → (s.sess (k.val + 1)).subs = [(n.val, u)] → u.mode = 2 → u.at' + u.interval ≤ s.wall →
    Completes (.notify k n) s fun t => (t.sess (k.val + 1)).subs = [(n.val, { u with sent := some (leNat (s.readObject u.key).2), at' := s.wall, seq := (u.seq + 1) % 2 ^ 32 })] ∧
      ∃ f, t.outbox = s.outbox ++ [.udp (s.sess (k.val + 1)).iface (s.sess (k.val + 1)).addr.mac (s.sess (k.val + 1)).addr.ip (s.sess (k.val + 1)).addr.udp 47321 f])

/-- Received frames and links (R380 to R382, R396): a bad frame is discarded and counted, a frame without the interface's tag is not taken, an ARP request for the address and an echo request are answered; a port that completes training puts its interfaces in service, and one that loses its link discards and counts what was queued for it. Sending (R390, R394, R395): an interface out of service sends nothing; the next stream in round robin that holds a packet and a token sends its oldest packet, whose Stream ID's count advances modulo 16, and pays for it; every vrt.ctx.interval ticks a stream queues a context packet for each Stream ID. Precision time (R384, R385): a message on another port than the selected one does nothing; the best master is reported; a two-step Sync waits for its Follow_Up; Delay_Resp gives the mean path delay; Delay_Req is sent time-stamped by an interface in service. Commands shown to complete, exec answering a next state with its effect, under conditions on the state and the operands alone: ethFrameRx, netLinkUp, netLinkLoss, vrtPacketSend, vrtContextPeriodic, ptpEventRx, ptpDelayReq. -/
def Obligations.Network : Prop :=
  ((∀ (s : State) (i : Fin 8) (ok : Bool) (b : Bytes), s.obj (Key.netState i.val) ≠ 2 → exec (.ethFrameRx i ok b) s = .next s) ∧
  (∀ (s : State) (i : Fin 8) (b : Bytes), s.obj (Key.netState i.val) = 2 → s.obj (Key.netVlan i.val) = 0 → (ethFrame b).tag = none → exec (.ethFrameRx i false b) s = .next (s.bump (Key.netRxDropped i.val))) ∧
  (∀ (s : State) (i : Fin 8) (b : Bytes), s.obj (Key.netState i.val) = 2 → s.obj (Key.netVlan i.val) = 0 → (ethFrame b).tag = none → s.obj (Key.netMtu i.val) < (ethFrame b).body.length →
    exec (.ethFrameRx i true b) s = .next (s.bump (Key.netRxDropped i.val))) ∧
  (∀ (s : State) (i : Fin 8) (ok : Bool) (b : Bytes) (v : Nat), s.obj (Key.netVlan i.val) = 0 → (ethFrame b).tag = some v → exec (.ethFrameRx i ok b) s = .next s) ∧
  (∀ (s : State) (i : Fin 8) (ok : Bool) (b : Bytes), s.obj (Key.netVlan i.val) ≠ 0 → (ethFrame b).tag ≠ some (s.obj (Key.netVlan i.val)) → exec (.ethFrameRx i ok b) s = .next s) ∧
  (∀ (s : State) (i : Fin 8) (dst mac ip : Nat) (tail : Bytes), s.obj (Key.netState i.val) = 2 → s.obj (Key.netVlan i.val) = 0 → s.obj (Key.netIpv4 i.val) ≠ 0 → s.obj (Key.netIpv4 i.val) < 2 ^ 32 → mac < 2 ^ 48 →
    ip < 2 ^ 32 → tail.length = 18 → 46 ≤ s.obj (Key.netMtu i.val) →
    Completes (.ethFrameRx i true (natBE 6 dst ++ natBE 6 mac ++ natBE 2 0x0806 ++ natBE 6 0x000108000604 ++ natBE 2 1 ++ natBE 6 mac ++ natBE 4 ip ++ zeros 6 ++ natBE 4 (s.obj (Key.netIpv4 i.val)) ++ tail)) s
      fun t => t = { s with outbox := t.outbox } ∧ t.outbox = s.outbox ++ [.frame i.val (natBE 6 mac ++ natBE 6 (s.obj (Key.netMac i.val)) ++ natBE 2 0x0806 ++ natBE 6 0x000108000604 ++ natBE 2 2 ++
        natBE 6 (s.obj (Key.netMac i.val)) ++ natBE 4 (s.obj (Key.netIpv4 i.val)) ++ natBE 6 mac ++ natBE 4 ip ++ zeros 18)]) ∧
  (∀ (s : State) (p : Fin 2), Completes (.netLinkUp p) s fun t => (∀ i < 8, t.obj (Key.netState i) = if i / 4 = p.val ∧ s.obj (Key.netState i) = 1 then 2 else s.obj (Key.netState i)) ∧
    t = { s with dict := t.dict }) ∧
  (∀ (s : State) (i : Fin 8), s.obj (Key.netState i.val) ≠ 2 → exec (.netLinkLoss i) s = .next s) ∧
  (∀ (s : State) (i : Fin 8) (n : Nat), s.obj (Key.netState i.val) = 2 → n < 256 → (∀ j < 256, j ≠ n → s.obj (Key.vrtInterface j) ≠ i.val) → s.obj (Key.vrtInterface n) = i.val →
    Completes (.netLinkLoss i) s fun t => t.obj (Key.netState i.val) ≠ 2 ∧ (t.vrtStream n).queue = [] ∧
      t.obj (Key.netTxDropped i.val) = (if (s.vrtStream n).queue = [] then s.obj (Key.netTxDropped i.val) else (s.obj (Key.netTxDropped i.val) + (s.vrtStream n).queue.length) % 2 ^ 64) ∧ (∀ j, j ≠ n → t.vrtStream j = s.vrtStream j) ∧
      KeepsObjects [Key.netState i.val, Key.netTxDropped i.val, Key.lanepllState (20 + i.val / 4)] s t)) ∧
  ((∀ (s : State) (i : Fin 8), s.obj (Key.netState i.val) ≠ 2 → exec (.vrtPacketSend i) s = .next s) ∧
  (∀ (s : State) (i : Fin 8), (∀ n < 256, s.canSend i.val n = false) → exec (.vrtPacketSend i) s = .next s) ∧
  (∀ (s : State) (i : Fin 8) (n : Nat) (p : VrtPacket) (rest : List VrtPacket) (d : VrtId), s.obj (Key.netState i.val) = 2 → n < 256 → s.canSend i.val n = true →
    (∀ j < 256, s.canSend i.val j = true → j = n) → (s.vrtStream n).queue = p :: rest → (s.vrtStream n).ids = [d] → d.sid = p.sid →
    Completes (.vrtPacketSend i) s fun t => (t.vrtStream n).queue = rest ∧ (t.vrtStream n).ids = [{ d with count := (d.count + 1) % 16 }] ∧
      (t.vrtStream n).credit + 3200 * s.wireBytes n p = s.creditNow n ∧ t.obj (Key.vrtPackets n) = (s.obj (Key.vrtPackets n) + 1) % 2 ^ 64 ∧
      t.outbox = s.outbox ++ [.udp i.val (s.obj (Key.vrtDstMac n)) (beNat (natLE 16 (s.obj (Key.vrtDstIp n)))) (s.obj (Key.vrtDstUdp n)) (s.obj (Key.vrtSrcUdp n)) (s.packetBytes p d.count)] ∧
      (∀ j, j ≠ n → t.vrtStream j = s.vrtStream j) ∧ KeepsObjects [Key.vrtPackets n] s t) ∧
  (∀ (s : State) (n : Fin 256), s.wall < (s.vrtStream n.val).ctxAt + s.obj Key.vrtCtxInterval → exec (.vrtContextPeriodic n) s = .next s) ∧
  (∀ (s : State) (n : Fin 256) (d : VrtId) (vs : List Nat), s.flag (Key.vrtEnable n.val) = true → s.flag (Key.vrtCtx n.val) = true →
    (s.vrtStream n.val).ctxAt + s.obj Key.vrtCtxInterval ≤ s.wall → (s.vrtStream n.val).ids = [d] → d.sent = some vs → State.queuedBytes (s.vrtStream n.val) + 76 ≤ 524288 →
    Completes (.vrtContextPeriodic n) s fun t => ∃ p : VrtPacket, p.sid = d.sid ∧ p.context = true ∧ p.k = d.last ∧ (t.vrtStream n.val).queue = (s.vrtStream n.val).queue ++ [p] ∧
      (t.vrtStream n.val).ctxAt = s.wall ∧ t = { s with net := t.net })) ∧
  ((∀ (s : State) (p : Fin 2) (m : PtpMsg), s.obj Key.taiSource ≠ p.val + 1 → exec (.ptpEventRx p m) s = .next s) ∧
  (∀ (s : State) (p : Fin 2) (m : Nat), s.obj Key.taiSource = p.val + 1 → exec (.ptpEventRx p (.announce m true)) s = .next (s.setObj Key.ptpMaster m) ∧
    exec (.ptpEventRx p (.announce m false)) s = .next s) ∧
  (∀ (s : State) (p : Fin 2) (m iv : Nat) (rx : KTime), s.obj Key.taiSource = p.val + 1 → 2 ^ 32 ≤ rx →
    Completes (.ptpEventRx p (.sync true m rx iv)) s fun t => t.ks.syncRx = some (((rx / 1024 * 1024 : Nat) : Int) + s.objI Key.ptpAsym).toNat ∧ t.ks.syncInterval = iv ∧
      t = { s with ks := t.ks }) ∧
  (∀ (s : State) (p : Fin 2) (m : Nat), s.obj Key.taiSource = p.val + 1 → s.ks.syncRx = none → exec (.ptpEventRx p (.followUp m)) s = .next s) ∧
  (∀ (s : State) (p : Fin 2) (m : Nat) (t2 t3 : KTime), s.obj Key.taiSource = p.val + 1 → s.ks.syncRx = some t2 → s.ks.delayReqAt = some t3 →
    Completes (.ptpEventRx p (.delayResp m)) s fun t => t.ks.delayReqAt = none ∧
      t.obj Key.ptpPath = ofSigned 64 (((m : Int) - s.ks.syncTx - ((t3 : Int) - t2) * 2500 * (1000000000000 + s.objI Key.taiRate) / (65536 * 1000000000000)) / 2) ∧ KeepsObjects [Key.ptpPath] s t) ∧
  (∀ s : State, s.obj Key.taiSource ≠ 1 → s.obj Key.taiSource ≠ 2 → exec .ptpDelayReq s = .next s) ∧
  (∀ (s : State) (p : Nat), p < 2 → s.obj Key.taiSource = p + 1 → s.obj (Key.netMode p) ≠ 3 → s.obj (Key.netState (4 * p)) = 2 →
    Completes .ptpDelayReq s fun t => t.ks.delayReqAt = some (((s.time / 1024 * 1024 : Nat) : Int) - s.objI Key.ptpAsym).toNat ∧ t.net.ptpSeq = (s.net.ptpSeq + 1) % 65536 ∧
      t.outbox.length = s.outbox.length + 1 ∧ t.dict = s.dict ∧ t.net.streams = s.net.streams))

/-- A record is cut into packets (R392, R389): their bodies are the record, each but the last of vrt.payload bytes, the first has FIRST and the last LAST, and all carry the record's flags, time and Stream ID. -/
def Obligations.RecordsIntoPackets : Prop :=
  ∀ (n : Nat) (r : VrtRecord) (ps : List VrtPacket), 1 ≤ n → r.first ≠ [] → r.sid < 2 ^ 32 → ps = recordPackets n r →
    ps.flatMap (·.body) = r.first ∧ (∀ i p, ps[i]? = some p → p.sid = r.sid ∧ p.flags = r.flags ∧ p.k = r.k ∧ p.context = false ∧ (i + 1 < ps.length → p.body.length = n) ∧ 1 ≤ p.body.length ∧
      p.body.length ≤ n ∧ (Nat.testBit p.cls 15 = decide (i = 0)) ∧ (Nat.testBit p.cls 14 = decide (i + 1 = ps.length)) ∧ p.cls / 65536 = 1 ∧ p.cls / 256 % 64 = r.sid / 2 ^ 28 ∧
      p.cls % 256 = r.format % 256)

/-- The trailer is the last word of a data packet as it is sent: the enables 0xE3F0_0000, the indicators of Table 14-3 from tai.state, ks.state and the flags of the record that the packet belongs to, and zero in bits [7:0] (R391). -/
def Obligations.TrailerIndicators : Prop :=
  (∀ (n : Nat) (r : VrtRecord), ∀ p ∈ recordPackets n r, p.flags = r.flags ∧ p.context = false) ∧
  ∀ (s : State) (i n : Nat) (p : VrtPacket) (rest : List VrtPacket), (s.vrtStream n).queue = p :: rest → p.context = false →
    ∃ f w, (s.sendVrt i n).outbox = s.outbox ++ [.udp i (s.obj (Key.vrtDstMac n)) (beNat (natLE 16 (s.obj (Key.vrtDstIp n)))) (s.obj (Key.vrtDstUdp n)) (s.obj (Key.vrtSrcUdp n)) f] ∧
      f.drop (f.length - 4) = natBE 4 w ∧ w < 2 ^ 32 ∧ w / 2 ^ 20 = 0xE3F ∧ w % 256 = 0 ∧ bit w 19 = (s.obj Key.taiState == 2) ∧ bit w 18 = (!bit p.flags 0 && !bit p.flags 1) ∧
      bit w 17 = (s.obj Key.ksState == 1) ∧ bit w 16 = false ∧ bit w 15 = false ∧ bit w 14 = false ∧ bit w 13 = bit p.flags 3 ∧ bit w 12 = (bit p.flags 0 || bit p.flags 6) ∧ bit w 11 = bit p.flags 2 ∧
      bit w 10 = bit p.flags 4 ∧ bit w 9 = bit p.flags 5 ∧ bit w 8 = bit p.flags 1

/-- Delivery in order (R409): a packet with a wrong CRC or another SEQ than the next is answered with a NAK and not delivered; the next one is acknowledged and delivered; an ACK drops the packets up to its SEQ; a NAK, or 400 ticks without an ACK, sends every kept packet again and counts it. What delivered packets do at a device without other ports in use (R407, R412, R413, R420, R421; 07 R208): an event of a foreign publisher is counted, a SYNC is scheduled 16 ticks ahead or more and else counted as late, a LANE retires its lane, and a REQUEST joins the queue of operations with the role it names. Commands shown to complete, exec answering a next state with its effect, under conditions on the state and the operands alone: trussPacketRx, trussAckTimeout. -/
def Obligations.TrussMessages : Prop :=
  ((∀ (s : State) (p : Fin 4) (c : Fin 3) (q : BitVec 8) (b : Bytes), s.trussUp p.val = true → c.val ≠ 1 → (State.packetOk c.val b = false ∨ q.toNat ≠ ((s.trussClass p.val c.val).delivered + 1) % 256) →
    exec (.trussPacketRx p c q b) s = .next (s.emit (.truss p.val 1 0 (messageBytes 2 (natBE 1 0x11 ++ natBE 1 c.val ++ natBE 1 (s.trussClass p.val c.val).delivered))))) ∧
  (∀ (s : State) (p : Fin 4) (c : Fin 3) (q : BitVec 8) (b : Bytes), s.obj (Key.trussState p.val) ∉ [1, 2, 3] → exec (.trussPacketRx p c q b) s = .next s) ∧
  (∀ (s : State) (p : Fin 4) (c : Fin 3) (q : BitVec 8) (l1 l2 : List TrussKept) (k : TrussKept), s.trussUp p.val = true → (s.trussClass p.val c.val).kept = l1 ++ k :: l2 → k.seq < 256 →
    (∀ x ∈ l1, x.seq ≠ k.seq) → (s.trussClass p.val c.val).waiting = [] →
    (Completes (.trussPacketRx p 1 q (messageBytes 2 (natBE 1 0x10 ++ natBE 1 c.val ++ natBE 1 k.seq))) s fun t => (t.trussClass p.val c.val).kept = l2 ∧ (t.trussClass p.val c.val).ackAt = s.wall ∧
      t = { s with span := t.span }) ∧
    Completes (.trussPacketRx p 1 q (messageBytes 2 (natBE 1 0x11 ++ natBE 1 c.val ++ natBE 1 k.seq))) s fun t => (t.trussClass p.val c.val).kept = l2 ∧
      t.outbox = s.outbox ++ l2.map (fun x => .truss p.val c.val x.seq x.packet) ∧ t.obj (Key.trussReplays p.val) = (s.obj (Key.trussReplays p.val) + l2.length) % 2 ^ 64) ∧
  (∀ (s : State) (p : Fin 4) (c : Fin 3), ((s.trussClass p.val c.val).kept = [] ∨ s.wall < (s.trussClass p.val c.val).ackAt + 400) → exec (.trussAckTimeout p c) s = .next s) ∧
  (∀ (s : State) (p : Fin 4) (c : Fin 3), (s.trussClass p.val c.val).kept ≠ [] → (s.trussClass p.val c.val).ackAt + 400 ≤ s.wall →
    Completes (.trussAckTimeout p c) s fun t => t.outbox = s.outbox ++ (s.trussClass p.val c.val).kept.map (fun x => .truss p.val c.val x.seq x.packet) ∧
      (t.trussClass p.val c.val).kept = (s.trussClass p.val c.val).kept ∧ (t.trussClass p.val c.val).ackAt = s.wall ∧
      t.obj (Key.trussReplays p.val) = (s.obj (Key.trussReplays p.val) + (s.trussClass p.val c.val).kept.length) % 2 ^ 64 ∧ KeepsObjects [Key.trussReplays p.val] s t)) ∧
  (∀ (s : State) (p : Fin 4) (q : BitVec 8), s.trussUp p.val = true → (∀ j < 4, j ≠ p.val → s.trussUp j = false) → (s.broadcastPorts true 0 (some p.val)).all (· != p.val) = true →
    (s.broadcastPorts false 0 (some p.val)).all (· != p.val) = true →
    (∀ (c : Nat) (ev : Bytes), c < 64 → ev.length = 32 → q.toNat = ((s.trussClass p.val 0).delivered + 1) % 256 → s.objAt (Key.rtrigFrom c) (State.eventOf ev).time ≠ 0 →
      Completes (.trussPacketRx p 0 q (messageBytes 7 (natBE 1 1 ++ natBE 1 0 ++ natBE 2 0 ++ natBE 1 c ++ ev))) s fun t =>
        t.obj (Key.rtrigForeign c) = (s.obj (Key.rtrigForeign c) + 1) % 2 ^ 64 ∧ (t.trussClass p.val 0).delivered = q.toNat ∧ t.trig = s.trig) ∧
    (∀ ts : KTime, ts < 2 ^ 80 → q.toNat = ((s.trussClass p.val 0).delivered + 1) % 256 → s.flag Key.spanSyncAccept = true → s.time + 16 * tick ≤ ts →
      Completes (.trussPacketRx p 0 q (messageBytes 4 (natBE 1 3 ++ natBE 1 1 ++ natBE 2 0 ++ natBE 10 ts))) s fun t => (∃ r ∈ t.fes.resets, r.1 = ts) ∧ (t.trussClass p.val 0).delivered = q.toNat ∧
        t.obj Key.spanSyncLate = s.obj Key.spanSyncLate) ∧
    (∀ ts : KTime, ts < 2 ^ 80 → q.toNat = ((s.trussClass p.val 0).delivered + 1) % 256 → s.flag Key.spanSyncAccept = true → ts < s.time + 16 * tick →
      Completes (.trussPacketRx p 0 q (messageBytes 4 (natBE 1 3 ++ natBE 1 1 ++ natBE 2 0 ++ natBE 10 ts))) s fun t => t.fes = s.fes ∧
        t.obj Key.spanSyncLate = (s.obj Key.spanSyncLate + 1) % 2 ^ 32) ∧
    (∀ l : Nat, l < 5 → q.toNat = ((s.trussClass p.val 1).delivered + 1) % 256 → s.laneIn p.val l = true →
      Completes (.trussPacketRx p 1 q (messageBytes 2 (natBE 1 0x13 ++ natBE 1 l))) s fun t => t.laneState p.val l = 4 ∧ t.obj (Key.trussFailovers p.val) = (s.obj (Key.trussFailovers p.val) + 1) % 2 ^ 32) ∧
    (∀ (o id role op : Nat) (body : Bytes), o < 2 ^ 16 → id < 2 ^ 32 → role < 2 → op ∈ [1, 2, 3, 6] → body.length ≤ 1024 → body.length % 8 = 2 → s.obj Key.spanNode < 512 →
      q.toNat = ((s.trussClass p.val 2).delivered + 1) % 256 → s.span.kept = [] → s.span.bodies = [] → s.pel.queue = [] →
      Completes (.trussPacketRx p 2 q (dataBytes (s.obj Key.spanNode) o 1 true id 0 (natBE 1 role ++ natBE 1 op ++ body))) s fun t =>
        ∃ r, t.pel.queue = [r] ∧ r.origin = some (o, id) ∧ r.role = role ∧ r.op = op ∧ r.body = body ∧ t.dict = s.dict))

/-- Lanes of a port (R416 to R418, R426): a failed lane is retired and counted, and a port whose last lane fails is DOWN; the spare joins and completes four lanes; logical lanes 1 to 3 sleep after truss.sleep.idle ticks without data and wake when a data block is queued, logical lane 0 never sleeps; truss.restart trains again; a frame whose CRC fails is counted, and the fourth in 16 retires the lane. Commands shown to complete, exec answering a next state with its effect, under conditions on the state and the operands alone: trussLaneFail, trussSpareJoin, trussSleep, trussWake, trussRestart, trussAlignBlock. -/
def Obligations.TrussLanes : Prop :=
  (∀ (s : State) (p : Fin 4) (l : Fin 5), s.laneIn p.val l.val = false → exec (.trussLaneFail p l) s = .next s) ∧
  (∀ (s : State) (p : Fin 4) (l : Fin 5), s.trussUp p.val = true → s.laneIn p.val l.val = true →
    Completes (.trussLaneFail p l) s fun t => t.laneState p.val l.val = 4 ∧ t.obj (Key.trussFailovers p.val) = (s.obj (Key.trussFailovers p.val) + 1) % 2 ^ 32 ∧
      ((s.logicalLanes p.val) = [l.val] → t.obj (Key.trussState p.val) = 5)) ∧
  (∀ (s : State) (p : Fin 4), (s.trussPort p.val).joining = none → exec (.trussSpareJoin p) s = .next s) ∧
  (∀ (s : State) (p : Fin 4) (w : Nat), (s.trussPort p.val).joining = some w → (∀ l < 4, s.laneState p.val l ≠ 3) → s.laneState p.val 4 = 3 →
    Completes (.trussSpareJoin p) s fun t => t.laneState p.val 4 = 1 ∧ (t.trussPort p.val).joining = none ∧ t.obj (Key.trussLanes p.val) = (s.logicalLanes p.val).length + 1 ∧
      (s.obj (Key.trussState p.val) = 3 → (s.logicalLanes p.val).length = 3 → t.obj (Key.trussState p.val) = 2)) ∧
  (∀ (s : State) (p : Fin 4), exec (.trussSleep p 0) s = .next s) ∧
  (∀ (s : State) (p : Fin 4) (l : Fin 5) (k : Nat), (s.logicalLanes p.val)[l.val]? = some k → l.val ≠ 0 → s.trussUp p.val = true → s.laneState p.val k = 1 → s.obj Key.trussSleepIdle ≠ 0 →
    (s.trussPort p.val).dataAt + s.obj Key.trussSleepIdle ≤ s.wall →
    Completes (.trussSleep p l) s fun t => t.laneState p.val k = 2 ∧ (∀ j < 5, j ≠ k → t.laneState p.val j = s.laneState p.val j) ∧ KeepsObjects [Key.trussLaneState p.val] s t ∧ t = { s with dict := t.dict }) ∧
  (∀ (s : State) (p : Fin 4) (l : Fin 5) (k : Nat), (s.logicalLanes p.val)[l.val]? = some k → s.laneState p.val k = 2 → (s.trussClass p.val 2).kept ≠ [] →
    Completes (.trussWake p l) s fun t => t.laneState p.val k = 1 ∧ (∀ j < 5, j ≠ k → t.laneState p.val j = s.laneState p.val j) ∧ KeepsObjects [Key.trussLaneState p.val] s t ∧ t = { s with dict := t.dict }) ∧
  (∀ (s : State) (p : Fin 4) (l : Fin 5), (s.trussClass p.val 2).kept = [] → (s.trussClass p.val 2).waiting = [] → exec (.trussWake p l) s = .next s) ∧
  (∀ (s : State) (p : Fin 4) (n : Nat), s.ready = true → s.neighbourOf p.val = some n → s.flag Key.trussStandby = false →
    Completes (.trussRestart p) s fun t => t.result = Res.done ∧ t.obj (Key.trussState p.val) = 1 ∧ t.obj (Key.trussNeighbour p.val) = 0xFFFF ∧ t.obj (Key.trussLanes p.val) = 4 ∧
      (t.trussPort p.val).lanes = [] ∧ (t.trussPort p.val).rate = s.obj Key.trussRate) ∧
  (∀ (s : State) (p : Fin 4) (l : Fin 5) (f : BitVec 16) (ok : Bool), s.obj (Key.trussState p.val) = 0 ∨ s.obj (Key.trussState p.val) = 4 → exec (.trussAlignBlock p l f ok) s = .next s) ∧
  (∀ (s : State) (p : Fin 4) (l : Fin 5) (f : BitVec 16) (ok : Bool) (x : TrussLane), s.trussUp p.val = true → s.laneIn p.val l.val = true → x = tabGet {} (s.trussPort p.val).lanes l.val → x.alignAt ≠ 0 →
    f.toNat = (x.frame + 1) % 65536 → ((((!ok) :: x.crcs).take 16).filter id).length < 4 →
    Completes (.trussAlignBlock p l f ok) s fun t => (tabGet ({} : TrussLane) (t.trussPort p.val).lanes l.val).frame = f.toNat ∧ t.laneState p.val l.val = s.laneState p.val l.val ∧
      t.obj (Key.trussFrameCrc p.val) = (if ok = true then s.obj (Key.trussFrameCrc p.val) else (s.obj (Key.trussFrameCrc p.val) + 1) % 2 ^ 64) ∧ t.obj (Key.trussFailovers p.val) = s.obj (Key.trussFailovers p.val)) ∧
  (∀ (s : State) (p : Fin 4) (l : Fin 5) (f : BitVec 16) (ok : Bool) (x : TrussLane), s.trussUp p.val = true → s.laneIn p.val l.val = true → x = tabGet {} (s.trussPort p.val).lanes l.val →
    4 ≤ ((((!ok) :: x.crcs).take 16).filter id).length → Completes (.trussAlignBlock p l f ok) s fun t => t.laneState p.val l.val = 4)

/-- Unicast routes reach their node (R401, R410): at any node of the system another node is one hop nearer behind the port toward it, along the X ring first and then along the Y ring. -/
def Obligations.UnicastRoutes : Prop :=
  ∀ (s : State) (d : Nat), s.obj Key.spanState ≠ 3 → s.isNode (s.obj Key.spanNode) = true → s.isNode d = true → s.obj Key.spanX ≤ 8 → s.obj Key.spanY ≤ 8 → s.obj Key.spanCount ≤ 8 → d ≠ s.obj Key.spanNode →
    ∃ p n, s.unicastPort d = some p ∧ s.neighbourOf p = some n ∧ s.isNode n = true ∧
      (State.nodeX d ≠ State.nodeX (s.obj Key.spanNode) → s.globalRow n = s.globalRow (s.obj Key.spanNode) ∧
        min (State.ringUp (s.obj Key.spanX) (State.nodeX n) (State.nodeX d)) (State.ringUp (s.obj Key.spanX) (State.nodeX d) (State.nodeX n)) + 1 =
          min (State.ringUp (s.obj Key.spanX) (State.nodeX (s.obj Key.spanNode)) (State.nodeX d)) (State.ringUp (s.obj Key.spanX) (State.nodeX d) (State.nodeX (s.obj Key.spanNode)))) ∧
      (State.nodeX d = State.nodeX (s.obj Key.spanNode) → State.nodeX n = State.nodeX d ∧
        min (State.ringUp (s.obj Key.spanY * s.obj Key.spanCount) (s.globalRow n) (s.globalRow d)) (State.ringUp (s.obj Key.spanY * s.obj Key.spanCount) (s.globalRow d) (s.globalRow n)) + 1 =
          min (State.ringUp (s.obj Key.spanY * s.obj Key.spanCount) (s.globalRow (s.obj Key.spanNode)) (s.globalRow d))
            (State.ringUp (s.obj Key.spanY * s.obj Key.spanCount) (s.globalRow d) (s.globalRow (s.obj Key.spanNode))))

/-- The link of a head (R429): a rising edge of HPD trains an enabled head and stores the sink's EDID, low HPD gives NO_SINK, training ends running or in NO_SINK, and NO_SINK retries every 400,000,000 ticks and not sooner. Frames and flips (R431, R433 to R438, R441): a frame starts once, is counted, and records the flip of its set; its latch point sets the fence, sends the frame of a running head and adopts the pending set; a flip request turns the buffers of double-buffered layers once before the latch point; an underrun aborts the frame; the buffer is refilled as far as it has room, and its panic line is raised below 131,072 bytes held and withdrawn at 262,144. Commands shown to complete, exec answering a next state with its effect, under conditions on the state and the operands alone: hpdEdge, dpTrainingRetry, latchPoint, displayFrameStart, dispFlip, scanoutUnderrun, hpdLow, displayLinkTrained, scanoutPanic. -/
def Obligations.DisplayHeads : Prop :=
  (∀ (s : State) (h : Fin 2) (e : Bytes),
    (s.flag (Key.dispEnable h.val) = true → Completes (.hpdEdge h e) s fun t => t.obj (Key.dispState h.val) = 1 ∧ t.obj (Key.dispEdid h.val) = leNat e % 256 ^ 512 ∧ (t.head h.val).hpd = true ∧
      KeepsObjects [Key.dispState h.val, Key.dispEdid h.val, Key.lanepllState (22 + h.val)] s t) ∧
    (s.flag (Key.dispEnable h.val) = false → Completes (.hpdEdge h e) s fun t => (t.head h.val).hpd = true ∧ t = { s with heads := t.heads }) ∧
    (s.flag (Key.dispEnable h.val) = true → Completes (.hpdLow h) s fun t => t.obj (Key.dispState h.val) = 3 ∧ (t.head h.val).hpd = false ∧ (t.head h.val).retryAt = s.wall ∧
      KeepsObjects [Key.dispState h.val, Key.lanepllState (22 + h.val)] s t) ∧
    (s.flag (Key.dispEnable h.val) = false → Completes (.hpdLow h) s fun t => (t.head h.val).hpd = false ∧ t = { s with heads := t.heads }) ∧
    (s.obj (Key.dispState h.val) = 1 → exec (.displayLinkTrained h true) s = .next ((s.lockPll (22 + h.val)).setObj (Key.dispState h.val) 2) ∧
      Completes (.displayLinkTrained h false) s fun t => t.obj (Key.dispState h.val) = 3 ∧ (t.head h.val).retryAt = s.wall) ∧
    (∀ ok, s.obj (Key.dispState h.val) ≠ 1 → exec (.displayLinkTrained h ok) s = .next s) ∧
    (s.obj (Key.dispState h.val) = 3 → (s.head h.val).retryAt + 400000000 ≤ s.wall → Completes (.dpTrainingRetry h) s fun t =>
      t.obj (Key.dispState h.val) = (if (s.head h.val).hpd = true then 1 else 3) ∧ ((s.head h.val).hpd = false → (t.head h.val).retryAt = s.wall)) ∧
    ((s.obj (Key.dispState h.val) ≠ 3 ∨ s.wall < (s.head h.val).retryAt + 400000000) → exec (.dpTrainingRetry h) s = .next s)) ∧
  (∀ (s : State) (h : Fin 2),
    ((s.flag (Key.dispEnable h.val) = false ∨ (s.head h.val).inFrame = true) → exec (.displayFrameStart h) s = .next s) ∧
    (s.flag (Key.dispEnable h.val) = true → (s.head h.val).inFrame = false → s.time < 2 ^ 79 → Completes (.displayFrameStart h) s fun t =>
      t.obj (Key.dispFrame h.val) = (s.obj (Key.dispFrame h.val) + 1) % 2 ^ 64 ∧ (t.head h.val).inFrame = true ∧ (t.head h.val).abortAt = none ∧ t.mem.cells = s.mem.cells ∧
      ((s.head h.val).flipped = true → t.obj (Key.dispFlipFrame h.val) = s.obj (Key.dispFrame h.val) % 2 ^ 64 ∧ t.obj (Key.dispFlipTime h.val) = (s.time + 65535) / 65536 * 65536 ∧
        t.obj (Key.dispFlips h.val) = (s.obj (Key.dispFlips h.val) + 1) % 2 ^ 64) ∧
      ((s.head h.val).flipped = false → t.obj (Key.dispFlipFrame h.val) = s.obj (Key.dispFlipFrame h.val) ∧ t.obj (Key.dispFlips h.val) = s.obj (Key.dispFlips h.val))) ∧
    ((s.flag (Key.dispEnable h.val) = false ∨ (s.head h.val).inFrame = false) → exec (.latchPoint h) s = .next s) ∧
    (s.flag (Key.dispEnable h.val) = true → (s.head h.val).inFrame = true → 1 ≤ s.obj (Key.dispFrame h.val) → Completes (.latchPoint h) s fun t =>
      t.obj (Key.dispFence h.val) = (s.obj (Key.dispFrame h.val) - 1) % 2 ^ 64 ∧ (t.head h.val).inFrame = false ∧ (t.head h.val).asked = false ∧ (t.head h.val).sel = (s.head h.val).pend ∧
      (t.head h.val).flipped = decide ((s.head h.val).pend ≠ (s.head h.val).sel) ∧ (t.head h.val).active = (List.range 3).map (fun l => (layerKeys (4 * h.val + l)).map s.obj) ∧
      t.headFetching h.val = false ∧ t.obj (Key.dispAborted h.val) = (if s.headFetching h.val = true then (s.obj (Key.dispAborted h.val) + 1) % 2 ^ 64 else s.obj (Key.dispAborted h.val)) ∧ t.mem.cells = s.mem.cells ∧
      (s.obj (Key.dispState h.val) ≠ 2 → t.outbox = s.outbox) ∧ (s.obj (Key.dispState h.val) = 2 → ∃ px, t.outbox = s.outbox ++ [.video h.val (s.obj (Key.dispFrame h.val) - 1) px] ∧
        px.length = s.obj (Key.dispHActive h.val) * s.obj (Key.dispVActive h.val))) ∧
    (∀ T : KTime, s.due = [(Key.dispFlip h.val, T)] → s.flag (Key.dispEnable h.val) = true → (s.head h.val).asked = false → Completes (.dispFlip h) s fun t => t.due = [] ∧ (t.head h.val).asked = true ∧
      (t.head h.val).sel = (s.head h.val).sel ∧ (t.head h.val).pend = (List.range 3).map (fun l => if s.flag (Key.layDbuf (4 * h.val + l)) = true then 1 - (s.head h.val).sel.getD l 0 else (s.head h.val).pend.getD l 0) ∧
      t.dict = s.dict) ∧
    (∀ T : KTime, s.due = [(Key.dispFlip h.val, T)] → s.flag (Key.dispEnable h.val) = true → (s.head h.val).asked = true → Completes (.dispFlip h) s fun t => t.due = [] ∧ t.heads = s.heads ∧
      t.obj (Key.dispFlipMerged h.val) = (s.obj (Key.dispFlipMerged h.val) + 1) % 2 ^ 64) ∧
    (s.flag (Key.dispEnable h.val) = true → (s.head h.val).inFrame = true → (s.head h.val).abortAt = none → Completes (.scanoutUnderrun h) s fun t => (t.head h.val).abortAt.isSome = true ∧
      t.headFetching h.val = false ∧ t.obj (Key.dispAborted h.val) = (s.obj (Key.dispAborted h.val) + 1) % 2 ^ 64 ∧ t.mem.cells = s.mem.cells ∧ KeepsObjects [Key.dispAborted h.val] s t) ∧
    ((s.head h.val).inFrame = false → exec (.scanoutUnderrun h) s = .next s) ∧
    (s.flag (Key.dispEnable h.val) = true → (s.head h.val).inFrame = true → Completes (.scanoutPanic h) s fun t => t.mem.cells = s.mem.cells ∧ (t.head h.val).inFrame = true ∧
      (t.head h.val).todo = (s.head h.val).todo.drop ((524288 - s.headHeld h.val - s.headAsked h.val) / 64) ∧ (t.headFetching h.val = true → t.headHeld h.val < 131072 → t.panicRaised (16 + h.val) = true) ∧
      (262144 ≤ t.headHeld h.val → t.panicRaised (16 + h.val) = false)) ∧
    ((s.head h.val).inFrame = false → exec (.scanoutPanic h) s = .next s))

/-- The Tollhouse's slot (R448, R453, R454; 01 R23, R24): a boost request adds one step up to four; at most one Voltage write moves the set point 5 mV toward V_op plus the boost steps; the third failed retry is a FAULT, after which nothing is written; each stage gets at most what it asks and all of them at most K. Between slots nothing happens, and the removal of the steps begins 400,000 ticks after the last request. Temperature (R455, R456, R458): a second reading in a row of 115 °C or more trips the device; at the limit derating begins with D at B_eff; each 400,000 ticks D falls by 5 A to no less than 120 while the limit holds, and rises by 5 A to 260 once the reading has stayed 3 °C below it. Calibration (R459 to R464): one item at a time; a set of the timebase delay line that passes both checks is applied whole, one that fails keeps the old codes and is counted, and the third failure in a row makes the item stale; an age of four periods does too; cal.run makes every item of its unit due; cal.full takes every girder out. The monitor converter (R465 to R472): a timer start begins a sequence at its edge; a conversion rounds and clips its input and says when it was out of range; a code is ready 32 ticks after its edge, and sets mon.value and mon.time of its input. Commands shown to complete, exec answering a next state with its effect, under conditions on the state and the operands alone: boostRemoval, tollhouseSlot, tempRead, derateStep, calItemStart, calItemDone, calAgeTimeout, calFull, calRun, monStartEvent, monConversion, monCodeReady. -/
def Obligations.PowerAndCalibration : Prop :=
  ((∀ (s : State) (r : List (Fin 256 × Nat)) (ok rails : Bool) (mv : Nat) (rd : Option (Nat × Nat)), s.ticks % 400 ≠ 0 ∨ s.toll.slotAt = s.ticks + 1 ∨ s.obj Key.suStage = 0 →
    exec (.tollhouseSlot r ok mv rd rails) s = .next s) ∧
  (∀ (s : State) (r : List (Fin 256 × Nat)) (ok rails : Bool) (mv v : Nat) (rd : Option (Nat × Nat)), s.start.released = true → s.obj Key.suStage ≠ 0 → s.ticks % 400 = 0 → s.toll.slotAt ≠ s.ticks + 1 →
    s.toll.retries < 3 → v = s.obj Key.tolVset → v < 60000 →
    Completes (.tollhouseSlot r ok mv rd rails) s fun t => t.toll.slotAt = s.ticks + 1 ∧
      (s.boostWanted = true → s.obj Key.tolAvsState ≠ 2 → s.obj Key.tolDerate ≠ 3 → s.obj Key.tolBoost < 4 → t.obj Key.tolBoost = s.obj Key.tolBoost + 1 ∧ t.obj Key.tolBoosts = (s.obj Key.tolBoosts + 1) % 2 ^ 64) ∧
      (s.boostWanted = false → s.toll.removing = false → t.obj Key.tolBoost = s.obj Key.tolBoost ∧ (s.toll.raise = [] → s.obj Key.tolDerate ≠ 3 → t.obj Key.tolVset =
        if s.obj Key.tolAvsState = 2 ∨ ok = false then v
        else if v < vopOf (min (s.obj Key.tolBudget) s.toll.limit) + 5 * s.obj Key.tolBoost then v + 5
        else if vopOf (min (s.obj Key.tolBudget) s.toll.limit) + 5 * s.obj Key.tolBoost < v then v - 5 else v)) ∧
      (s.boostWanted = false → s.toll.removing = true → t.obj Key.tolBoost = (s.obj Key.tolBoost - 1) % 256) ∧
      (s.obj Key.tolAvsState = 2 → t.obj Key.tolVset = v) ∧
      (∀ n, tabGet 0 t.toll.grants n ≤ tabGet 0 (r.foldl (fun a e => tabSet 0 a e.1.val e.2) []) n) ∧
      ((List.range stageCount).foldl (fun a n => a + tabGet 0 t.toll.grants n) 0 ≤ if s.obj Key.tolDerate = 3 then 0 else 16 * min (s.objAt Key.tolBudget s.time) s.toll.limit - Config.leakage (s.objI Key.tolTempMax))) ∧
  (∀ (s : State) (r : List (Fin 256 × Nat)) (rails : Bool) (mv : Nat) (rd : Option (Nat × Nat)), s.start.released = true → 4 ≤ s.obj Key.suStage → s.ticks % 400 = 0 → s.toll.slotAt ≠ s.ticks + 1 → s.toll.retries = 3 →
    s.obj Key.tolAvsState ≠ 2 → s.toll.readDue = true → Completes (.tollhouseSlot r false mv rd rails) s fun t => t.obj Key.tolAvsState = 2 ∧ t.obj Key.tolVset = s.obj Key.tolVset) ∧
  (∀ s : State, s.obj Key.tolBoost ≠ 0 → s.boostWanted = false → s.toll.boostAt + 400000 ≤ s.wall → exec .boostRemoval s = .next (s.withToll { s.toll with removing := true })) ∧
  (∀ s : State, s.boostWanted = true ∨ s.wall < s.toll.boostAt + 400000 → exec .boostRemoval s = .next s)) ∧
  ((∀ (s : State) (rs : List Int), s.start.released = true → rs.length = 24 → (∀ r ∈ rs, -16384 ≤ r ∧ r < 16384) → s.cal.running = none →
    Completes (.tempRead rs) s fun t => (∀ i x, rs[i]? = some x → t.obj (Key.tolTemp i) = (x % 32768).toNat) ∧
      ((∃ i x, rs[i]? = some x ∧ 460 ≤ x ∧ 1 ≤ tabGet 0 s.toll.hot i) → t.obj Key.tolDerate = 3) ∧
      ((∀ r ∈ rs, r < 460) → s.obj Key.tolDerate = 0 → (∃ r ∈ rs, 4 * (s.obj Key.tolThermLimit : Int) ≤ r) → t.obj Key.tolDerate = 1 ∧ t.toll.limit = s.budget ∧ t.toll.stepAt = s.wall) ∧
      ((∀ r ∈ rs, r < 460 ∧ r < 4 * (s.obj Key.tolThermLimit : Int)) → t.obj Key.tolDerate = s.obj Key.tolDerate) ∧ t.time = s.time ∧ t.mem = s.mem) ∧
  (∀ s : State, s.wall < s.toll.stepAt + 400000 → exec .derateStep s = .next s) ∧
  (∀ s : State, s.obj Key.tolDerate = 0 ∨ s.obj Key.tolDerate = 3 → exec .derateStep s = .next s) ∧
  (∀ s : State, s.obj Key.tolDerate = 1 → s.toll.stepAt + 400000 ≤ s.wall → 4 * (s.obj Key.tolThermLimit : Int) ≤ s.objI Key.tolTempMax →
    Completes .derateStep s fun t => t.toll.limit = max 120 (s.toll.limit - 5) ∧ t.toll.stepAt = s.wall ∧ t.obj Key.tolDerate = 1) ∧
  (∀ s : State, s.obj Key.tolDerate = 2 → s.toll.stepAt + 400000 ≤ s.wall →
    Completes .derateStep s fun t => t.toll.limit = min 260 (s.toll.limit + 5) ∧ t.toll.stepAt = s.wall ∧ t.obj Key.tolDerate = if 255 ≤ s.toll.limit then 0 else 2)) ∧
  ((∀ s : State, s.cal.running.isSome = true ∨ s.obj Key.fwSwapState = 2 → exec .calItemStart s = .next s) ∧
  (∀ (s : State) (u i : Nat), s.cal.running = none → s.cal.full = none → s.obj Key.fwSwapState ≠ 2 → 2 ≤ s.obj Key.suStage → s.obj Key.suStage ≠ 6 → s.nextCal = some (u, i) → u ≠ 0 → u < 6 → i < 128 →
    (u = 4 → s.monRunningAt s.ticks = false) → Completes .calItemStart s fun t => t.cal.running = some (u, i) ∧ t.cal.startedAt = s.wall ∧ t.obj (Key.calItem u) = i ∧ t.obj Key.calState = 1 ∧
      KeepsObjects [Key.calItem u, Key.calState, Key.tolTemp i] s t) ∧
  (∀ (s : State) (l : List Nat), s.cal.running = none → exec (.calItemDone l) s = .next s) ∧
  (∀ (s : State) (c o : Nat), s.cal.running = some (3, 0) → s.cal.full = none → s.cal.startedAt ≤ s.wall → (s.calItem 3 0).codes = [o] → (s.calItem 3 0).waiting = none → s.time < 2 ^ 80 →
    Completes (.calItemDone [c]) s fun t => t.cal.running = none ∧ t.obj Key.calState = 0 ∧ t.obj (Key.calItem 3) = 0xFFFF ∧
      if 2 ≤ c ∧ c ≤ 1021 ∧ c ≤ o + 8 ∧ o ≤ c + 8 then (t.calItem 3 0).codes = [c] ∧ (t.calItem 3 0).stale = false ∧ (t.calItem 3 0).fails = 0 ∧ t.obj (Key.calLast 3) = s.time ∧
          t.obj Key.calFails = s.obj Key.calFails
        else (t.calItem 3 0).codes = [o] ∧ (t.calItem 3 0).fails = (s.calItem 3 0).fails + 1 ∧ t.obj Key.calFails = (s.obj Key.calFails + 1) % 2 ^ 64 ∧
          t.obj (Key.calUnitFails 3) = (s.obj (Key.calUnitFails 3) + 1) % 2 ^ 32 ∧ (2 ≤ (s.calItem 3 0).fails → (t.calItem 3 0).stale = true)) ∧
  (∀ (s : State) (u : Fin 6) (i : Fin 128), s.wall < (s.calItem u.val i.val).applied + 4 * s.obj (Key.calPeriod u.val) → exec (.calAgeTimeout u i) s = .next s) ∧
  (∀ (s : State) (u : Fin 6) (i : Fin 128), u.val ≠ 0 → u.val ≠ 2 → i.val < calCount u.val → 2 ≤ s.obj Key.suStage → (s.calItem u.val i.val).stale = false →
    (s.calItem u.val i.val).applied + 4 * s.obj (Key.calPeriod u.val) ≤ s.wall → Completes (.calAgeTimeout u i) s fun t => (t.calItem u.val i.val).stale = true ∧
      bit (t.obj Key.calStale) u.val = true) ∧
  (∀ s : State, (∀ d ∈ s.due, d.1 ≠ Key.calFull) → exec .calFull s = .next s) ∧
  (∀ (s : State) (T : KTime), s.due = [(Key.calFull, T)] → s.obj Key.fwSwapState ≠ 2 → Completes .calFull s fun t => t.due = [] ∧ t.obj Key.calState = 2 ∧ t.cal.full.isSome = true ∧ t.cal.running = none ∧
    ∀ g < 68, t.obj (Key.girderState g) = if s.obj (Key.girderState g) = girderRetired then girderRetired else girderCalibrating) ∧
  (∀ (s : State) (u : Fin 6) (T : KTime), s.due = [(Key.calRun u.val, T)] → Completes (.calRun u) s fun t => t.due = [] ∧ (∀ i < calCount u.val, (t.calItem u.val i).due ≤ s.wall ∧
    (t.calItem u.val i).codes = (s.calItem u.val i).codes) ∧ t.dict = s.dict)) ∧
  ((∀ s : State, s.objAt Key.monSource (s.mon.from' * tick) = 0 → exec .monStartEvent s = .next s) ∧
  (∀ (s : State) (st : Nat), s.objAt Key.monSource (s.mon.from' * tick) = 1 → st = s.objAt Key.monTimerStart (s.mon.from' * tick) → s.mon.from' ≤ st → s.objAt Key.monDelay (st * tick) = 0 → st % 4 = 0 → st ≤ s.ticks →
    s.mon.runs = [] → s.mon.latched = false → s.monPaused = false →
    Completes .monStartEvent s fun t => t.mon.from' = st + 1 ∧ t.mon.runs = [{ start := st, seq := monInputs (s.objAt Key.monSeq (st * tick)) }] ∧ t = { s with mon := t.mon }) ∧
  (∀ (s : State) (input : Int), s.mon.runs = [] → s.mon.latched = false → exec (.monConversion input) s = .next s) ∧
  (∀ (s : State) (r : MonRun) (input : Int), s.mon.runs = [r] → s.mon.latched = false → r.next < r.seq.length → r.start + 4 * r.next ≤ s.ticks → s.monPaused = false →
    Completes (.monConversion input) s fun t => ∃ c : MonCode, t.mon.codes = s.mon.codes ++ [c] ∧ c.edge = r.start + 4 * r.next ∧ c.input = r.seq.getD r.next 0 ∧
      c.ovr = (decide (input < 0) || decide (1048576 < input)) ∧ c.code ≤ 4095 ∧ (0 ≤ input → input < 1048448 → c.code = ((input + 128) / 256).toNat) ∧ (1048448 ≤ input → c.code = 4095) ∧
      t.obj Key.monConversions = (s.obj Key.monConversions + 1) % 2 ^ 64 ∧ KeepsObjects [Key.monConversions] s t) ∧
  (∀ (s : State) (c : MonCode) (rest : List MonCode), s.mon.codes = c :: rest → s.ticks < c.edge + 32 → exec .monCodeReady s = .next s) ∧
  (∀ (s : State) (c : MonCode) (rest : List MonCode), s.mon.codes = c :: rest → c.edge + 32 ≤ s.ticks → c.input < 16 → c.code < 4096 → c.edge < 2 ^ 64 → (∀ w < 16, s.flagAt (Key.cmpEnable w) (c.edge * tick) = false) →
    Completes .monCodeReady s fun t => t.mon.codes = rest ∧ t.obj (Key.monTime c.input) = c.edge * tick ∧
      t.obj (Key.monValue c.input) = c.code + (if c.ovr then 4096 else 0) + (if c.settling then 8192 else 0) + 32768 ∧ (∀ i < 16, i ≠ c.input → t.obj (Key.monValue i) = s.obj (Key.monValue i))) ∧
  (∀ low high code : Nat, low ≤ high → (cmpSide low high code = 1 ↔ low ≤ code ∧ code ≤ high) ∧ (cmpSide low high code = 2 ↔ high < code) ∧ (cmpSide low high code = 3 ↔ code < low)))

/-- Firmware replacement (R485 to R488): fw.load gives BUSY, RANGE or DEFERRED, its image is checked and written or the load fails, and a firmware image that reads back is VERIFIED; fw.swap gives BUSY, STATE or DONE; a handover that serves switches slots and starts a fresh load state, one that does not leaves the old image; fw.confirm gives ALREADY, STATE or DONE, and raises c to the SVN that runs. Attestation, the owner key and the memories on the die (R483, R484, R490, R491): att.nonce gives BUSY while a report is built, and the report that follows begins with MAGIC, VERSION, NODE and TIME and carries the nonce; the owner key is programmed once, with a point on P-384; the signer serves the manifests that waited before it; scrubbing, every 400,000,000 ticks, counts the words it finds; an excursion ends at its time. Commands shown to complete, exec answering a next state with its effect, under conditions on the state and the operands alone: fwLoad, fwLoadChecked, fwLoadVerified, fwSwap, fwPrepareDone, fwHandoverDone, fwHandoverTimeout, fwConfirm, attNonce, attReportReady, secOwnerKey, configScrub, configRestoreDone, ueExcursionEnd. -/
def Obligations.SecurityCommands : Prop :=
  ((∀ (s : State) (a n : Nat), s.ready = true →
    ((s.obj Key.fwLoadState = 1 ∨ s.obj Key.fwLoadState = 2 ∨ s.obj Key.fwSwapState ≠ 0) → exec (.fwLoad a n) s = .next (s.withResult Res.busy)) ∧
    (s.obj Key.fwLoadState ≠ 1 → s.obj Key.fwLoadState ≠ 2 → s.obj Key.fwSwapState = 0 → (s.fixedEnd < a + n ∨ n < 273 ∨ 12582912 < n) → exec (.fwLoad a n) s = .next (s.withResult Res.range)) ∧
    (s.obj Key.fwLoadState ≠ 1 → s.obj Key.fwLoadState ≠ 2 → s.obj Key.fwSwapState = 0 → a + n ≤ s.fixedEnd → 273 ≤ n → n ≤ 12582912 → Completes (.fwLoad a n) s fun t => t.result = Res.deferred ∧
      t.obj Key.fwLoadState = 1 ∧ t.sec = { s.sec with load := some (a, n) } ∧ t.obj Key.fwActive = s.obj Key.fwActive ∧ t.mem.cells = s.mem.cells)) ∧
  (∀ s : State, s.outstanding .firmware = true → exec .fwLoadChecked s = .next s) ∧
  (∀ (s : State) (a n : Nat) (c : Code), s.sec.load = some (a, n) → s.obj Key.fwLoadState = 1 → s.outstanding .firmware = false → checkImage (natLE 48 (s.obj Key.secRootHash)) (s.obj Key.secSvn) (s.takeRead .firmware a n).1.1 = c →
    Completes .fwLoadChecked s fun t => (c ≠ Res.done → t.obj Key.fwLoadState = 4 ∧ t.obj Key.fwLoadResult = c % 256 ∧ t.sec.load = none ∧ t.sec.verified = s.sec.verified) ∧
      (c = Res.done → t.obj Key.fwLoadState = 2 ∧ t.sec.loading = imageOf (s.takeRead .firmware a n).1.1) ∧ t.mem.cells = s.mem.cells) ∧
  (∀ s : State, s.obj Key.fwLoadState ≠ 1 → exec .fwLoadChecked s = .next s) ∧
  (∀ (b h : Bytes) (c : Nat), leNat ((b.drop 7).take 1) < c → checkImage h c b ≠ Res.done) ∧
  (∀ s : State, s.obj Key.fwLoadState = 2 → s.sec.loadKind = 2 → (Completes (.fwLoadVerified true) s fun t => t.obj Key.fwLoadState = 3 ∧ t.obj Key.fwLoadResult = Res.done ∧ t.sec.verified = s.sec.loading ∧
      t.obj Key.fwActive = s.obj Key.fwActive) ∧
    Completes (.fwLoadVerified false) s fun t => t.obj Key.fwLoadState = 4 ∧ t.sec.verified = s.sec.verified) ∧
  (∀ s : State, s.ready = true → exec .fwSwap s = .next (if s.obj Key.fwSwapState ≠ 0 then s.withResult Res.busy else if s.obj Key.fwLoadState ≠ 3 then s.withResult Res.state
    else (s.setObj Key.fwSwapState 1).withResult Res.done)) ∧
  (∀ s : State, s.obj Key.fwSwapState = 1 → (Completes (.fwPrepareDone true) s fun t => t.obj Key.fwSwapState = 2 ∧ t.sec.swapAt = s.wall ∧ t.fwReady = false ∧ KeepsObjects [Key.fwSwapState] s t) ∧
    Completes (.fwPrepareDone false) s fun t => t.obj Key.fwSwapState = 0 ∧ t.obj Key.fwLoadState = 4 ∧ t.obj Key.fwActive = s.obj Key.fwActive ∧ t.sec = s.sec ∧ t.obj Key.fwSwapResult ≠ Res.done) ∧
  (∀ s : State, s.obj Key.fwSwapState = 2 → s.obj Key.fwActive ≤ 1 → Completes .fwHandoverDone s fun t => t.obj Key.fwSwapState = 0 ∧ t.obj Key.fwActive = 1 - s.obj Key.fwActive ∧ t.sec.firmware = s.sec.verified ∧
    t.obj Key.fwSvn = s.sec.verified.svn % 256 ∧ t.obj Key.fwHandover = (s.wall - s.sec.swapAt) % 2 ^ 32 ∧ t.sec.bootSeq = (s.sec.bootSeq + 1) % 2 ^ 32 ∧ t.obj Key.fwSwapResult = Res.done ∧ t.pel = s.pel ∧
    t.groups = s.groups ∧ tabGet 0 t.pev.evtCount 15 = (tabGet 0 s.pev.evtCount 15 + 1) % 2 ^ 32) ∧
  (∀ s : State, s.obj Key.fwSwapState = 2 → s.sec.swapAt + 200000 ≤ s.wall → Completes .fwHandoverTimeout s fun t => t.obj Key.fwSwapState = 0 ∧ t.obj Key.fwActive = s.obj Key.fwActive ∧ t.sec = s.sec ∧
    t.obj Key.fwLoadState = 4) ∧
  (∀ s : State, s.wall < s.sec.swapAt + 200000 → exec .fwHandoverTimeout s = .next s) ∧
  (∀ s : State, s.ready = true → s.obj Key.fwSvn ≤ 127 → (s.obj Key.secSvn = s.obj Key.fwSvn → exec .fwConfirm s = .next (s.withResult Res.already)) ∧
    (s.obj Key.secSvn ≠ s.obj Key.fwSvn → (s.sec.svns.1 < s.obj Key.fwSvn ∨ s.sec.svns.2 < s.obj Key.fwSvn) → exec .fwConfirm s = .next (s.withResult Res.state)) ∧
    (s.obj Key.secSvn ≠ s.obj Key.fwSvn → s.obj Key.fwSvn ≤ s.sec.svns.1 → s.obj Key.fwSvn ≤ s.sec.svns.2 → Completes .fwConfirm s fun t => t.result = Res.done ∧ t.obj Key.secSvn = s.obj Key.fwSvn ∧
      t.obj Key.secSvnLeft = 127 - s.obj Key.fwSvn ∧ KeepsObjects [Key.secSvn, Key.secSvnLeft] s t))) ∧
  ((∀ (s : State) (n : Bytes), s.ready = true → s.obj Key.attState = 1 → exec (.attNonce n) s = .next (s.withResult Res.busy)) ∧
  (∀ (s : State) (n : Bytes), s.ready = true → s.obj Key.attState ≠ 1 → n.length = 32 → Completes (.attNonce n) s fun t => t.result = Res.done ∧ t.obj Key.attState = 1 ∧
    t.sec.report.take 18 = natLE 4 0x4D415431 ++ natLE 2 1 ++ natLE 2 (s.obj Key.spanNode) ++ natLE 10 s.time ∧ (t.sec.report.drop 32).take 32 = n ∧ KeepsObjects [Key.attState] s t) ∧
  (∀ s : State, (s.obj Key.attState ≠ 1 ∨ ∃ x ∈ s.recd.segments, x.stage = 1 ∧ x.id ∈ s.sec.signAfter) → exec .attReportReady s = .next s) ∧
  (∀ s : State, s.obj Key.attState = 1 → s.sec.report.length = 400 → (∀ x ∈ s.recd.segments, x.stage = 1 → x.id ∉ s.sec.signAfter) → Completes .attReportReady s fun t => t.obj Key.attState = 2 ∧ t.obj Key.attReport % 256 ^ 400 = leNat s.sec.report ∧
    KeepsObjects [Key.attState, Key.attReport] s t) ∧
  (∀ (s : State) (k : Bytes), s.ready = true → exec (.secOwnerKey k) s = .next (if s.obj Key.secOwnerHash ≠ 0 then s.withResult Res.locked else if pointOf k = none then s.withResult Res.range
    else ((s.setObj Key.secOwnerKey (leNat k)).setObj Key.secOwnerHash (leNat (sha384 k))).withResult Res.done)) ∧
  (∀ (s : State) (c u : Nat), s.wall < s.sec.scrubAt + 400000000 → exec (.configScrub c u) s = .next s) ∧
  (∀ (s : State) (c u : Nat), s.sec.scrubAt + 400000000 ≤ s.wall → Completes (.configScrub c u) s fun t => t.obj Key.svcSramCe = (s.obj Key.svcSramCe + c) % 2 ^ 64 ∧ t.obj Key.svcSramUe = (s.obj Key.svcSramUe + u) % 2 ^ 64 ∧
    t.sec = { s.sec with restoring := s.sec.restoring || u != 0, scrubAt := s.wall } ∧ KeepsObjects [Key.svcSramCe, Key.svcSramUe] s t) ∧
  (∀ s : State, exec .configRestoreDone s = .next (s.withSec { s.sec with restoring := false })) ∧
  (∀ (s : State) (w : Nat), s.cond.excursionUntil = some w → s.wall < w → exec .ueExcursionEnd s = .next s) ∧
  (∀ (s : State) (w : Nat), s.cond.excursionUntil = some w → w ≤ s.wall → Completes .ueExcursionEnd s fun t => t.cond = { s.cond with excursionUntil := none, log := t.cond.log } ∧
    bit (t.obj Key.statusPromise) 2 = (s.cond.supplies && s.cond.temperature && s.cond.timebase) ∧ KeepsObjects [Key.statusPromise] s t))

/-- Power-on reset (R497; 13 R354; 18 R475, R479, R484): all state returns to its value at reset, but for what fuses and flash hold, the contents of the drives, and what lies outside the device. Release of PERST_L and the boot (R501; 15 R400; 18 R478): the straps give node, width, height and spans, and a node outside them gives STRAP_ERROR and no truss neighbour; an image whose SVN is below c never passes; the boot runs the first slot that passes, or stops with bit 7 and serves nothing; board data that is absent or wrong is said so. The stages that follow (R501 to R503): calibration done leads to TRAINING; training, during which the populated channels show TRAINING, leads to FAILED with no channel that works and to LINKS with one; LINKS ends when nothing is still training or at its bound, and su.elapsed says how long start-up took. Commands shown to complete, exec answering a next state with its effect, under conditions on the state and the operands alone: trainingComplete, powerOnReset, perstRelease, bootDone, startupCalibrationDone, linksStageEnd. -/
def Obligations.StartUp : Prop :=
  (∀ s : State, Completes .powerOnReset s fun t => t.time = 0 ∧ t.obj Key.suStage = 0 ∧ t.obj Key.ksState = 0 ∧ t.groups = [] ∧ t.due = [] ∧ t.mem = {} ∧ t.acq = {} ∧ t.pel = {} ∧ t.pcie = {} ∧ t.span = {} ∧
    t.cores = [] ∧ t.movers = [] ∧ t.sec.boardLock = false ∧ t.sec.keysLock = false ∧ t.start.released = false ∧ t.pending = s.pending ∧ t.outbox = s.outbox ∧ t.recd.stored = s.recd.stored ∧
    t.sec.bootSeq = s.sec.bootSeq ∧ t.sec.flash = s.sec.flash ∧ t.sec.record = s.sec.record ∧ (s.obj Key.secSvn < 256 → t.obj Key.secSvn = s.obj Key.secSvn) ∧
    (∀ k, k ∉ [Key.secSvn, Key.secSvnLeft, Key.secOwnerKey, Key.secOwnerHash] → t.obj k = defaultOf k)) ∧
  ((∀ (s : State) (x : Straps), s.start.released = true → exec (.perstRelease x) s = .next s) ∧
  (∀ (s : State) (x : Straps), s.start.released = false → Completes (.perstRelease x) s fun t => t.start.released = true ∧ t.start.releaseAt = s.wall ∧
    t.obj Key.spanNode = x.spanId.val * 64 + x.nodeId.val ∧ t.obj Key.spanX = x.spanX.val + 1 ∧ t.obj Key.spanY = x.spanY.val + 1 ∧ t.obj Key.spanCount = x.spanCount.val + 1 ∧
    (t.obj Key.spanState = 3 ↔ (x.spanX.val + 1 ≤ x.nodeId.val % 8 ∨ x.spanY.val + 1 ≤ x.nodeId.val / 8 ∨ x.spanCount.val + 1 ≤ x.spanId.val)) ∧
    ((x.spanX.val + 1 ≤ x.nodeId.val % 8 ∨ x.spanY.val + 1 ≤ x.nodeId.val / 8 ∨ x.spanCount.val + 1 ≤ x.spanId.val) → ∀ p, t.neighbourOf p = none)) ∧
  (∀ (s : State) (r : BootReport) (b : Bytes), (s.start.stopped = true ∨ s.obj Key.suStage ≠ 0 ∨ s.obj Key.ksState = 0) → exec (.bootDone r b) s = .next s) ∧
  (∀ (s : State) (r : BootReport) (b : Bytes), s.start.released = true → s.start.stopped = false → s.obj Key.suStage = 0 → s.obj Key.ksState ≠ 0 →
    (s.bootPasses r 0 = false ∧ s.bootPasses r 1 = false ∨ s.bootPasses r 2 = false ∧ s.bootPasses r 3 = false) →
    Completes (.bootDone r b) s fun t => t.start.stopped = true ∧ bit (t.obj Key.fwBootStatus) 7 = true ∧ bit (t.obj Key.fwBootStatus) 0 = !s.bootPasses r 0 ∧ t.obj Key.suStage = 0 ∧ t.fwReady = false) ∧
  (∀ (s : State) (r : BootReport) (b : Bytes), s.start.released = true → s.start.stopped = false → s.obj Key.suStage = 0 → s.obj Key.ksState ≠ 0 → s.bootPasses r 0 = true ∨ s.bootPasses r 1 = true →
    s.bootPasses r 2 = true ∨ s.bootPasses r 3 = true → leNat (b.take 4) = 0xFFFFFFFF →
    Completes (.bootDone r b) s fun t => t.obj Key.suStage = 1 ∧ t.obj Key.suBoard = 0 ∧ t.obj Key.fwActive = (if (s.bootRecord r).1.getD 0 = 0 then (if s.bootPasses r 2 then 0 else 1) else (if s.bootPasses r 3 then 1 else 0)) ∧
      bit (t.obj Key.fwBootStatus) 0 = !s.bootPasses r 0 ∧ bit (t.obj Key.fwBootStatus) 2 = (s.bootRecord r).1.isNone ∧ bit (t.obj Key.fwBootStatus) 7 = false ∧
      t.obj Key.fwSvn = (s.flashImage r (2 + t.obj Key.fwActive)).svn % 256 ∧ t.obj Key.tolVset = 750) ∧
  (∀ (s : State) (r : BootReport) (p : Nat), (s.flashImage r p).svn < s.obj Key.secSvn → s.bootPasses r p = false) ∧
  (∀ (s : State) (r : BootReport) (p : Nat) (i : Image), tabGet none s.sec.flash p = some i → (s.flashImage r p).svn = i.svn) ∧
  (∀ (s : State) (b : Bytes), leNat (b.take 4) ≠ 0xFFFFFFFF → leNat (b.take 4) ≠ 0x4F424431 → s.applyBoard b = (s.setObj Key.suBoard 2).setObj Key.suBoardError 0)) ∧
  ((∀ (s : State) (f : List (Fin 6 × Fin 128)) (w : BitVec 16), s.obj Key.suStage ≠ 1 → exec (.startupCalibrationDone ⟨f, w⟩) s = .next s) ∧
  (∀ (s : State) (w : BitVec 16), s.obj Key.suStage = 1 → (∀ g < 68, s.obj (Key.girderState g) = girderCalibrating) →
    Completes (.startupCalibrationDone ⟨[], w⟩) s fun t => t.obj Key.suStage = 2 ∧ t.obj Key.calState = 0 ∧ (∀ k < 16, t.obj (Key.memchState k) = if w.getLsbD k = true then 2 else s.obj (Key.memchState k)) ∧ (∀ g < 68, t.obj (Key.girderState g) = if g < 64 then girderInService else girderSpare) ∧ t.mem = s.mem ∧ t.time = s.time) ∧
  (∀ s : State, s.obj Key.suStage = 2 → Completes (.trainingComplete []) s fun t => t.obj Key.suStage = 6 ∧ t.obj Key.memService = 0 ∧ t.obj Key.memSize = 0) ∧
  (∀ (s : State) (r : ChanReport), s.obj Key.suStage = 2 → r.works = true → 1 ≤ r.dimms → r.dimms ≤ 2 → 1 ≤ r.ranks → r.ranks ≤ 2 → r.capacity = r.dimms * r.ranks * 2 ^ 35 → Completes (.trainingComplete [r]) s fun t => t.obj Key.suStage = 3 ∧
    t.obj Key.memService = 1 ∧ t.obj (Key.memchState r.chan.val) = 3 ∧ t.obj (Key.memchLane r.chan.val) = 0 ∧ t.obj Key.memSize = r.capacity) ∧
  (∀ s : State, s.obj Key.suStage ≠ 3 → exec .linksStageEnd s = .next s) ∧
  (∀ s : State, s.obj Key.suStage = 3 → s.obj Key.suStageTime + 200000000 * tick ≤ s.time → s.time < 2 ^ 80 → Completes .linksStageEnd s fun t => t.obj Key.suStage = 4 ∧ t.obj Key.suStageTime = s.time ∧
    t.obj Key.suElapsed = ((s.wall - s.start.releaseAt) / 1024) % 2 ^ 32 ∧ KeepsObjects [Key.suStage, Key.suStageTime, Key.suElapsed] s t))
end

