-- ==== Sys2Proof/Laws/Dispatch.lean ====
section
/-! SUPPORT. What executing each command is: one call of its meaning. -/

namespace Sys2Proof.Machine

@[simp] theorem exec_commitTakesEffect (s : State) : exec (.commitTakesEffect) s = execCommitTakesEffect s := rfl
@[simp] theorem exec_linksCleanRestore (s : State) : exec (.linksCleanRestore) s = execLinksCleanRestore s := rfl
@[simp] theorem exec_abutmentClear (s : State) : exec (.abutmentClear) s = execAbutmentClear s := rfl
@[simp] theorem exec_boostRemoval (s : State) : exec (.boostRemoval) s = execBoostRemoval s := rfl
@[simp] theorem exec_refclkLoss (s : State) : exec (.refclkLoss) s = execRefclkLoss s := rfl
@[simp] theorem exec_refclkValid (s : State) (offset : Int) : exec (.refclkValid offset) s = execRefclkValid offset s := rfl
@[simp] theorem exec_sysrefEdge (s : State) : exec (.sysrefEdge) s = execSysrefEdge s := rfl
@[simp] theorem exec_ppsEdge (s : State) (rising : Bool) (pos : Fin 64) : exec (.ppsEdge rising pos) s = execPpsEdge rising pos s := rfl
@[simp] theorem exec_ksLoad (s : State) (v : Nat) : exec (.ksLoad v) s = execKsLoad v s := rfl
@[simp] theorem exec_slewComplete (s : State) : exec (.slewComplete) s = execSlewComplete s := rfl
@[simp] theorem exec_taiHoldover (s : State) : exec (.taiHoldover) s = execTaiHoldover s := rfl
@[simp] theorem exec_lanePllLoss (s : State) (pll : Fin 24) : exec (.lanePllLoss pll) s = execLanePllLoss pll s := rfl
@[simp] theorem exec_loRelock (s : State) : exec (.loRelock) s = execLoRelock s := rfl
@[simp] theorem exec_loLockConfirmed (s : State) : exec (.loLockConfirmed) s = execLoLockConfirmed s := rfl
@[simp] theorem exec_loLockTimeout (s : State) : exec (.loLockTimeout) s = execLoLockTimeout s := rfl
@[simp] theorem exec_loLockLoss (s : State) : exec (.loLockLoss) s = execLoLockLoss s := rfl
@[simp] theorem exec_loRampSegment (s : State) : exec (.loRampSegment) s = execLoRampSegment s := rfl
@[simp] theorem exec_laneMultiblockRx (s : State) (lane : Fin 128) (badHeaders : BitVec 32) (crcBad : Bool) (markers : EndMarkers) (octets : Bytes) : exec (.laneMultiblockRx lane badHeaders crcBad markers octets) s = execLaneMultiblockRx lane badHeaders crcBad markers octets s := rfl
@[simp] theorem exec_cdrLossOfLock (s : State) (lane : Fin 128) : exec (.cdrLossOfLock lane) s = execCdrLossOfLock lane s := rfl
@[simp] theorem exec_linkRelease (s : State) (link : Fin 128) : exec (.linkRelease link) s = execLinkRelease link s := rfl
@[simp] theorem exec_pierRecoveryResume (s : State) (pier : Fin 16) : exec (.pierRecoveryResume pier) s = execPierRecoveryResume pier s := rfl
@[simp] theorem exec_pierFailedMarker (s : State) (pier : Fin 16) : exec (.pierFailedMarker pier) s = execPierFailedMarker pier s := rfl
@[simp] theorem exec_pierRestart (s : State) (pier : Fin 16) : exec (.pierRestart pier) s = execPierRestart pier s := rfl
@[simp] theorem exec_linkArrivalClear (s : State) (link : Fin 128) : exec (.linkArrivalClear link) s = execLinkArrivalClear link s := rfl
@[simp] theorem exec_feInputSample (s : State) (port : Fin 1024) : exec (.feInputSample port) s = execFeInputSample port s := rfl
@[simp] theorem exec_syncReset (s : State) : exec (.syncReset) s = execSyncReset s := rfl
@[simp] theorem exec_syncNow (s : State) : exec (.syncNow) s = execSyncNow s := rfl
@[simp] theorem exec_syncLEdge (s : State) : exec (.syncLEdge) s = execSyncLEdge s := rfl
@[simp] theorem exec_trigoPulseEnd (s : State) (pin : Fin 8) : exec (.trigoPulseEnd pin) s = execTrigoPulseEnd pin s := rfl
@[simp] theorem exec_frameDispatch (s : State) (view : Fin 512) (port : Fin 1024) (girders : List (Fin 68)) : exec (.frameDispatch view port girders) s = execFrameDispatch view port girders s := rfl
@[simp] theorem exec_frameComplete (s : State) (girder : Fin 68) (checkOk : Bool) (memoryUe : Bool) : exec (.frameComplete girder checkOk memoryUe) s = execFrameComplete girder checkOk memoryUe s := rfl
@[simp] theorem exec_girderTimeout (s : State) (girder : Fin 68) : exec (.girderTimeout girder) s = execGirderTimeout girder s := rfl
@[simp] theorem exec_spareReady (s : State) (girder : Fin 68) : exec (.spareReady girder) s = execSpareReady girder s := rfl
@[simp] theorem exec_girderRetire (s : State) (girder : Fin 68) : exec (.girderRetire girder) s = execGirderRetire girder s := rfl
@[simp] theorem exec_productFrame (s : State) (kind : BuilderKind) (n : Fin kind.count) : exec (.productFrame kind n) s = execProductFrame kind n s := rfl
@[simp] theorem exec_productRecordAcked (s : State) (kind : BuilderKind) (n : Fin kind.count) : exec (.productRecordAcked kind n) s = execProductRecordAcked kind n s := rfl
@[simp] theorem exec_productClear (s : State) (kind : BuilderKind) (n : Fin kind.count) : exec (.productClear kind n) s = execProductClear kind n s := rfl
@[simp] theorem exec_spectrogramTrace (s : State) (n : Fin 64) : exec (.spectrogramTrace n) s = execSpectrogramTrace n s := rfl
@[simp] theorem exec_spectrogramRowAcked (s : State) (n : Fin 64) : exec (.spectrogramRowAcked n) s = execSpectrogramRowAcked n s := rfl
@[simp] theorem exec_swBoundary (s : State) (n : Fin 8) : exec (.swBoundary n) s = execSwBoundary n s := rfl
@[simp] theorem exec_fectlEvent (s : State) : exec (.fectlEvent) s = execFectlEvent s := rfl
@[simp] theorem exec_maskSpectrum (s : State) (m : Fin 256) : exec (.maskSpectrum m) s = execMaskSpectrum m s := rfl
@[simp] theorem exec_trigiEdge (s : State) (n : Fin 8) (rising : Bool) (pos : Fin 64) : exec (.trigiEdge n rising pos) s = execTrigiEdge n rising pos s := rfl
@[simp] theorem exec_trigCmd (s : State) (c : Fin 16) : exec (.trigCmd c) s = execTrigCmd c s := rfl
@[simp] theorem exec_rtrigWatermarkSend (s : State) : exec (.rtrigWatermarkSend) s = execRtrigWatermarkSend s := rfl
@[simp] theorem exec_rtrigStale (s : State) (c : Fin 64) : exec (.rtrigStale c) s = execRtrigStale c s := rfl
@[simp] theorem exec_exprEvent (s : State) (ctx : Fin 1024) : exec (.exprEvent ctx) s = execExprEvent ctx s := rfl
@[simp] theorem exec_ctxSettledAdvance (s : State) (ctx : Fin 1024) : exec (.ctxSettledAdvance ctx) s = execCtxSettledAdvance ctx s := rfl
@[simp] theorem exec_ctxArm (s : State) (ctx : Fin 1024) : exec (.ctxArm ctx) s = execCtxArm ctx s := rfl
@[simp] theorem exec_ctxAbort (s : State) (ctx : Fin 1024) : exec (.ctxAbort ctx) s = execCtxAbort ctx s := rfl
@[simp] theorem exec_trigLogEvent (s : State) : exec (.trigLogEvent) s = execTrigLogEvent s := rfl
@[simp] theorem exec_trigLogAcked (s : State) : exec (.trigLogAcked) s = execTrigLogAcked s := rfl
@[simp] theorem exec_stagingSpaceGrant (s : State) : exec (.stagingSpaceGrant) s = execStagingSpaceGrant s := rfl
@[simp] theorem exec_extractBlockReturn (s : State) (ctx : Fin 1024) (record : Nat) : exec (.extractBlockReturn ctx record) s = execExtractBlockReturn ctx record s := rfl
@[simp] theorem exec_trestleDispatch (s : State) (core : Fin 32) : exec (.trestleDispatch core) s = execTrestleDispatch core s := rfl
@[simp] theorem exec_blockDelivered (s : State) (core : Fin 32) : exec (.blockDelivered core) s = execBlockDelivered core s := rfl
@[simp] theorem exec_budgetExhausted (s : State) (core : Fin 32) : exec (.budgetExhausted core) s = execBudgetExhausted core s := rfl
@[simp] theorem exec_recordDelivered (s : State) (ctx : Fin 1024) (record : Nat) : exec (.recordDelivered ctx record) s = execRecordDelivered ctx record s := rfl
@[simp] theorem exec_completionEntryAcked (s : State) : exec (.completionEntryAcked) s = execCompletionEntryAcked s := rfl
@[simp] theorem exec_trClear (s : State) (slot : Fin 32) : exec (.trClear slot) s = execTrClear slot s := rfl
@[simp] theorem exec_nop (s : State) (core : Fin 32) : exec (.nop core) s = execNop core s := rfl
@[simp] theorem exec_halt (s : State) (core : Fin 32) : exec (.halt core) s = execHalt core s := rfl
@[simp] theorem exec_trap (s : State) (core : Fin 32) (code : BitVec 8) : exec (.trap core code) s = execTrap core code s := rfl
@[simp] theorem exec_sync (s : State) (core : Fin 32) : exec (.sync core) s = execSync core s := rfl
@[simp] theorem exec_rete (s : State) (core : Fin 32) : exec (.rete core) s = execRete core s := rfl
@[simp] theorem exec_br (s : State) (core : Fin 32) (cond : Fin 16) (target : BitVec 15) : exec (.br core cond target) s = execBr core cond target s := rfl
@[simp] theorem exec_call (s : State) (core : Fin 32) (target : BitVec 15) : exec (.call core target) s = execCall core target s := rfl
@[simp] theorem exec_ret (s : State) (core : Fin 32) : exec (.ret core) s = execRet core s := rfl
@[simp] theorem exec_loop (s : State) (core : Fin 32) (count : BitVec 16) (last : BitVec 15) : exec (.loop core count last) s = execLoop core count last s := rfl
@[simp] theorem exec_loopr (s : State) (core : Fin 32) (ra : Fin 16) (last : BitVec 15) : exec (.loopr core ra last) s = execLoopr core ra last s := rfl
@[simp] theorem exec_movi (s : State) (core : Fin 32) (rd : Fin 16) (imm : BitVec 24) : exec (.movi core rd imm) s = execMovi core rd imm s := rfl
@[simp] theorem exec_ld (s : State) (core : Fin 32) (rd : Fin 16) (an : Fin 8) (off : BitVec 16) (mod : Fin 4) : exec (.ld core rd an off mod) s = execLd core rd an off mod s := rfl
@[simp] theorem exec_st (s : State) (core : Fin 32) (rd : Fin 16) (an : Fin 8) (off : BitVec 16) (mod : Fin 4) : exec (.st core rd an off mod) s = execSt core rd an off mod s := rfl
@[simp] theorem exec_lea (s : State) (core : Fin 32) (ad : Fin 8) (an : Fin 8) (off : BitVec 16) : exec (.lea core ad an off) s = execLea core ad an off s := rfl
@[simp] theorem exec_mvda (s : State) (core : Fin 32) (ad : Fin 8) (ra : Fin 16) : exec (.mvda core ad ra) s = execMvda core ad ra s := rfl
@[simp] theorem exec_mvad (s : State) (core : Fin 32) (rd : Fin 16) (an : Fin 8) : exec (.mvad core rd an) s = execMvad core rd an s := rfl
@[simp] theorem exec_add (s : State) (core : Fin 32) (sat : Bool) (rd ra rb : Fin 16) : exec (.add core sat rd ra rb) s = execAdd core sat rd ra rb s := rfl
@[simp] theorem exec_sub (s : State) (core : Fin 32) (sat : Bool) (rd ra rb : Fin 16) : exec (.sub core sat rd ra rb) s = execSub core sat rd ra rb s := rfl
@[simp] theorem exec_addi (s : State) (core : Fin 32) (sat : Bool) (rd ra : Fin 16) (imm : BitVec 24) : exec (.addi core sat rd ra imm) s = execAddi core sat rd ra imm s := rfl
@[simp] theorem exec_neg (s : State) (core : Fin 32) (sat : Bool) (rd ra : Fin 16) : exec (.neg core sat rd ra) s = execNeg core sat rd ra s := rfl
@[simp] theorem exec_abs (s : State) (core : Fin 32) (sat : Bool) (rd ra : Fin 16) : exec (.abs core sat rd ra) s = execAbs core sat rd ra s := rfl
@[simp] theorem exec_mul (s : State) (core : Fin 32) (sat : Bool) (rd ra rb : Fin 16) : exec (.mul core sat rd ra rb) s = execMul core sat rd ra rb s := rfl
@[simp] theorem exec_shl (s : State) (core : Fin 32) (sat : Bool) (rd ra : Fin 16) (n : BitVec 7) : exec (.shl core sat rd ra n) s = execShl core sat rd ra n s := rfl
@[simp] theorem exec_asr (s : State) (core : Fin 32) (sat : Bool) (rd ra : Fin 16) (n : BitVec 7) : exec (.asr core sat rd ra n) s = execAsr core sat rd ra n s := rfl
@[simp] theorem exec_min (s : State) (core : Fin 32) (rd ra rb : Fin 16) : exec (.min core rd ra rb) s = execMin core rd ra rb s := rfl
@[simp] theorem exec_max (s : State) (core : Fin 32) (rd ra rb : Fin 16) : exec (.max core rd ra rb) s = execMax core rd ra rb s := rfl
@[simp] theorem exec_cmp (s : State) (core : Fin 32) (ra rb : Fin 16) : exec (.cmp core ra rb) s = execCmp core ra rb s := rfl
@[simp] theorem exec_cmpi (s : State) (core : Fin 32) (ra : Fin 16) (imm : BitVec 24) : exec (.cmpi core ra imm) s = execCmpi core ra imm s := rfl
@[simp] theorem exec_and (s : State) (core : Fin 32) (rd ra rb : Fin 16) : exec (.and core rd ra rb) s = execAnd core rd ra rb s := rfl
@[simp] theorem exec_or (s : State) (core : Fin 32) (rd ra rb : Fin 16) : exec (.or core rd ra rb) s = execOr core rd ra rb s := rfl
@[simp] theorem exec_xor (s : State) (core : Fin 32) (rd ra rb : Fin 16) : exec (.xor core rd ra rb) s = execXor core rd ra rb s := rfl
@[simp] theorem exec_lsr (s : State) (core : Fin 32) (rd ra : Fin 16) (n : BitVec 7) : exec (.lsr core rd ra n) s = execLsr core rd ra n s := rfl
@[simp] theorem exec_mpy (s : State) (core : Fin 32) (sat : Bool) (ax : Fin 4) (ra rb : Fin 16) : exec (.mpy core sat ax ra rb) s = execMpy core sat ax ra rb s := rfl
@[simp] theorem exec_mac (s : State) (core : Fin 32) (sat : Bool) (ax : Fin 4) (ra rb : Fin 16) : exec (.mac core sat ax ra rb) s = execMac core sat ax ra rb s := rfl
@[simp] theorem exec_msu (s : State) (core : Fin 32) (sat : Bool) (ax : Fin 4) (ra rb : Fin 16) : exec (.msu core sat ax ra rb) s = execMsu core sat ax ra rb s := rfl
@[simp] theorem exec_adda (s : State) (core : Fin 32) (sat : Bool) (ax ay : Fin 4) : exec (.adda core sat ax ay) s = execAdda core sat ax ay s := rfl
@[simp] theorem exec_suba (s : State) (core : Fin 32) (sat : Bool) (ax ay : Fin 4) : exec (.suba core sat ax ay) s = execSuba core sat ax ay s := rfl
@[simp] theorem exec_clra (s : State) (core : Fin 32) (ax : Fin 4) : exec (.clra core ax) s = execClra core ax s := rfl
@[simp] theorem exec_ldac (s : State) (core : Fin 32) (sat : Bool) (ax : Fin 4) (ra : Fin 16) (n : BitVec 7) : exec (.ldac core sat ax ra n) s = execLdac core sat ax ra n s := rfl
@[simp] theorem exec_sha (s : State) (core : Fin 32) (sat : Bool) (ax : Fin 4) (n : BitVec 7) : exec (.sha core sat ax n) s = execSha core sat ax n s := rfl
@[simp] theorem exec_rnd (s : State) (core : Fin 32) (sat : Bool) (rd : Fin 16) (ay : Fin 4) (n : BitVec 7) : exec (.rnd core sat rd ay n) s = execRnd core sat rd ay n s := rfl
@[simp] theorem exec_mfa (s : State) (core : Fin 32) (rd : Fin 16) (ay : Fin 4) (p : BitVec 7) : exec (.mfa core rd ay p) s = execMfa core rd ay p s := rfl
@[simp] theorem exec_mta (s : State) (core : Fin 32) (ax : Fin 4) (ra : Fin 16) (p : BitVec 7) : exec (.mta core ax ra p) s = execMta core ax ra p s := rfl
@[simp] theorem exec_cmpa (s : State) (core : Fin 32) (ax ay : Fin 4) : exec (.cmpa core ax ay) s = execCmpa core ax ay s := rfl
@[simp] theorem exec_norm (s : State) (core : Fin 32) (rd : Fin 16) (ay : Fin 4) : exec (.norm core rd ay) s = execNorm core rd ay s := rfl
@[simp] theorem exec_mula (s : State) (core : Fin 32) (sat : Bool) (ax ay : Fin 4) (rb : Fin 16) : exec (.mula core sat ax ay rb) s = execMula core sat ax ay rb s := rfl
@[simp] theorem exec_mfs (s : State) (core : Fin 32) (rd : Fin 16) (imm : BitVec 24) : exec (.mfs core rd imm) s = execMfs core rd imm s := rfl
@[simp] theorem exec_mff (s : State) (core : Fin 32) (rd : Fin 16) : exec (.mff core rd) s = execMff core rd s := rfl
@[simp] theorem exec_clrf (s : State) (core : Fin 32) (imm : BitVec 24) : exec (.clrf core imm) s = execClrf core imm s := rfl
@[simp] theorem exec_reservedOpcode (s : State) (core : Fin 32) : exec (.reservedOpcode core) s = execReservedOpcode core s := rfl
@[simp] theorem exec_bankSchedule (s : State) (chan : Fin 16) (bank : Fin 256) : exec (.bankSchedule chan bank) s = execBankSchedule chan bank s := rfl
@[simp] theorem exec_memReadComplete (s : State) (chan : Fin 16) (result : ReadEnd) : exec (.memReadComplete chan result) s = execMemReadComplete chan result s := rfl
@[simp] theorem exec_rcdAlert (s : State) (chan : Fin 16) : exec (.rcdAlert chan) s = execRcdAlert chan s := rfl
@[simp] theorem exec_writeCrcError (s : State) (chan : Fin 16) : exec (.writeCrcError chan) s = execWriteCrcError chan s := rfl
@[simp] theorem exec_remapComplete (s : State) : exec (.remapComplete) s = execRemapComplete s := rfl
@[simp] theorem exec_refresh (s : State) (due : RefreshDue) : exec (.refresh due) s = execRefresh due s := rfl
@[simp] theorem exec_selfRefreshEntry (s : State) (chan : Fin 16) : exec (.selfRefreshEntry chan) s = execSelfRefreshEntry chan s := rfl
@[simp] theorem exec_selfRefreshExit (s : State) (chan : Fin 16) : exec (.selfRefreshExit chan) s = execSelfRefreshExit chan s := rfl
@[simp] theorem exec_scrubRead (s : State) (chan : Fin 16) : exec (.scrubRead chan) s = execScrubRead chan s := rfl
@[simp] theorem exec_memSpeedReq (s : State) (rate : Nat) : exec (.memSpeedReq rate) s = execMemSpeedReq rate s := rfl
@[simp] theorem exec_memchRetrain (s : State) (chan : Fin 16) : exec (.memchRetrain chan) s = execMemchRetrain chan s := rfl
@[simp] theorem exec_trainingComplete (s : State) (report : List ChanReport) : exec (.trainingComplete report) s = execTrainingComplete report s := rfl
@[simp] theorem exec_ringFlush (s : State) (port : Fin 1024) (fe : Bool) : exec (.ringFlush port fe) s = execRingFlush port fe s := rfl
@[simp] theorem exec_ringBlockWritten (s : State) (port : Fin 1024) (fe : Bool) : exec (.ringBlockWritten port fe) s = execRingBlockWritten port fe s := rfl
@[simp] theorem exec_ringSlabs (s : State) (slabs : Nat) : exec (.ringSlabs slabs) s = execRingSlabs slabs s := rfl
@[simp] theorem exec_nvmeWriteComplete (s : State) (drive : Fin 4) (ok : Bool) : exec (.nvmeWriteComplete drive ok) s = execNvmeWriteComplete drive ok s := rfl
@[simp] theorem exec_nvmeLinkLoss (s : State) (drive : Fin 4) : exec (.nvmeLinkLoss drive) s = execNvmeLinkLoss drive s := rfl
@[simp] theorem exec_manifestSigned (s : State) : exec (.manifestSigned) s = execManifestSigned s := rfl
@[simp] theorem exec_recDriveRestart (s : State) (drive : Fin 4) : exec (.recDriveRestart drive) s = execRecDriveRestart drive s := rfl
@[simp] theorem exec_recNsFormat (s : State) (ns : Fin 16) : exec (.recNsFormat ns) s = execRecNsFormat ns s := rfl
@[simp] theorem exec_recNsClose (s : State) (ns : Fin 16) : exec (.recNsClose ns) s = execRecNsClose ns s := rfl
@[simp] theorem exec_recNsRead (s : State) (ns : Fin 16) (offset count addr : Nat) : exec (.recNsRead ns offset count addr) s = execRecNsRead ns offset count addr s := rfl
@[simp] theorem exec_recNsReadDone (s : State) (ns : Fin 16) (ok : Bool) : exec (.recNsReadDone ns ok) s = execRecNsReadDone ns ok s := rfl
@[simp] theorem exec_accClear (s : State) (byteEnables : BitVec 4) (value : BitVec 32) : exec (.accClear byteEnables value) s = execAccClear byteEnables value s := rfl
@[simp] theorem exec_registerWrite (s : State) (bar2 : Bool) (offset : Nat) (byteEnables : BitVec 4) (value : BitVec 32) : exec (.registerWrite bar2 offset byteEnables value) s = execRegisterWrite bar2 offset byteEnables value s := rfl
@[simp] theorem exec_apBaseWrite (s : State) (byteEnables : BitVec 4) (value : BitVec 32) : exec (.apBaseWrite byteEnables value) s = execApBaseWrite byteEnables value s := rfl
@[simp] theorem exec_apMoveDone (s : State) : exec (.apMoveDone) s = execApMoveDone s := rfl
@[simp] theorem exec_mboxSelWrite (s : State) (byteEnables : BitVec 4) (value : BitVec 32) : exec (.mboxSelWrite byteEnables value) s = execMboxSelWrite byteEnables value s := rfl
@[simp] theorem exec_mboxSnapshotDone (s : State) : exec (.mboxSnapshotDone) s = execMboxSnapshotDone s := rfl
@[simp] theorem exec_dcRead (s : State) (bulk : Bool) : exec (.dcRead bulk) s = execDcRead bulk s := rfl
@[simp] theorem exec_writeNow (s : State) (bulk : Bool) : exec (.writeNow bulk) s = execWriteNow bulk s := rfl
@[simp] theorem exec_groupOpen (s : State) : exec (.groupOpen) s = execGroupOpen s := rfl
@[simp] theorem exec_groupAdd (s : State) (bulk : Bool) : exec (.groupAdd bulk) s = execGroupAdd bulk s := rfl
@[simp] theorem exec_groupCommit (s : State) : exec (.groupCommit) s = execGroupCommit s := rfl
@[simp] theorem exec_groupDiscard (s : State) : exec (.groupDiscard) s = execGroupDiscard s := rfl
@[simp] theorem exec_msixMessage (s : State) (vector : Fin 64) : exec (.msixMessage vector) s = execMsixMessage vector s := rfl
@[simp] theorem exec_apertureAccess (s : State) (write : Bool) (offset : Nat) (byteEnables : BitVec 4) (data : Bytes) : exec (.apertureAccess write offset byteEnables data) s = execApertureAccess write offset byteEnables data s := rfl
@[simp] theorem exec_hostInterfaceReset (s : State) (kind : HostResetKind) : exec (.hostInterfaceReset kind) s = execHostInterfaceReset kind s := rfl
@[simp] theorem exec_hrEntryAcked (s : State) (n : Fin 64) : exec (.hrEntryAcked n) s = execHrEntryAcked n s := rfl
@[simp] theorem exec_hrRptrWrite (s : State) (n : Fin 64) (byteEnables : BitVec 4) (value : BitVec 32) : exec (.hrRptrWrite n byteEnables value) s = execHrRptrWrite n byteEnables value s := rfl
@[simp] theorem exec_mvTailWrite (s : State) (m : Fin 16) (byteEnables : BitVec 4) (value : BitVec 32) : exec (.mvTailWrite m byteEnables value) s = execMvTailWrite m byteEnables value s := rfl
@[simp] theorem exec_mvRun (s : State) (m : Fin 16) (byteEnables : BitVec 4) (run : Bool) : exec (.mvRun m byteEnables run) s = execMvRun m byteEnables run s := rfl
@[simp] theorem exec_mvResume (s : State) (m : Fin 16) (byteEnables : BitVec 4) : exec (.mvResume m byteEnables) s = execMvResume m byteEnables s := rfl
@[simp] theorem exec_mvSkip (s : State) (m : Fin 16) (byteEnables : BitVec 4) : exec (.mvSkip m byteEnables) s = execMvSkip m byteEnables s := rfl
@[simp] theorem exec_moverDescFetched (s : State) (m : Fin 16) (readOk : Bool) (hostData : Bytes) (indexOk : Bool) (indexData : Bytes) : exec (.moverDescFetched m readOk hostData indexOk indexData) s = execMoverDescFetched m readOk hostData indexOk indexData s := rfl
@[simp] theorem exec_moverBurstDone (s : State) (m : Fin 16) (readOk : Bool) (hostData : Bytes) : exec (.moverBurstDone m readOk hostData) s = execMoverBurstDone m readOk hostData s := rfl
@[simp] theorem exec_moverBarrierDone (s : State) (m : Fin 16) (flushOk : Bool) : exec (.moverBarrierDone m flushOk) s = execMoverBarrierDone m flushOk s := rfl
@[simp] theorem exec_pelpinRequestRx (s : State) (iface : Fin 8) (src : NetAddr) (payload : Bytes) : exec (.pelpinRequestRx iface src payload) s = execPelpinRequestRx iface src payload s := rfl
@[simp] theorem exec_pelpinRead (s : State) : exec (.pelpinRead) s = execPelpinRead s := rfl
@[simp] theorem exec_pelpinWrite (s : State) : exec (.pelpinWrite) s = execPelpinWrite s := rfl
@[simp] theorem exec_pelpinCommit (s : State) : exec (.pelpinCommit) s = execPelpinCommit s := rfl
@[simp] theorem exec_subscribe (s : State) : exec (.subscribe) s = execSubscribe s := rfl
@[simp] theorem exec_bulkStage (s : State) : exec (.bulkStage) s = execBulkStage s := rfl
@[simp] theorem exec_bulkRead (s : State) : exec (.bulkRead) s = execBulkRead s := rfl
@[simp] theorem exec_bulkClear (s : State) : exec (.bulkClear) s = execBulkClear s := rfl
@[simp] theorem exec_open1 (s : State) : exec (.open1) s = execOpen1 s := rfl
@[simp] theorem exec_open3 (s : State) : exec (.open3) s = execOpen3 s := rfl
@[simp] theorem exec_close (s : State) : exec (.close) s = execClose s := rfl
@[simp] theorem exec_notify (s : State) (session : Fin 16) (sub : Fin 64) : exec (.notify session sub) s = execNotify session sub s := rfl
@[simp] theorem exec_sessionIdleTimeout (s : State) (session : Fin 16) : exec (.sessionIdleTimeout session) s = execSessionIdleTimeout session s := rfl
@[simp] theorem exec_open3Timeout (s : State) (session : Fin 16) : exec (.open3Timeout session) s = execOpen3Timeout session s := rfl
@[simp] theorem exec_groupAssemblyTimeout (s : State) (session : Fin 16) (group : Fin 2) : exec (.groupAssemblyTimeout session group) s = execGroupAssemblyTimeout session group s := rfl
@[simp] theorem exec_boardLock (s : State) : exec (.boardLock) s = execBoardLock s := rfl
@[simp] theorem exec_ppKeysLock (s : State) : exec (.ppKeysLock) s = execPpKeysLock s := rfl
@[simp] theorem exec_ppSessClose (s : State) (session : Fin 16) : exec (.ppSessClose session) s = execPpSessClose session s := rfl
@[simp] theorem exec_ethFrameRx (s : State) (iface : Fin 8) (fcsOk : Bool) (frame : Bytes) : exec (.ethFrameRx iface fcsOk frame) s = execEthFrameRx iface fcsOk frame s := rfl
@[simp] theorem exec_netLinkUp (s : State) (port : Fin 2) : exec (.netLinkUp port) s = execNetLinkUp port s := rfl
@[simp] theorem exec_netLinkLoss (s : State) (iface : Fin 8) : exec (.netLinkLoss iface) s = execNetLinkLoss iface s := rfl
@[simp] theorem exec_vrtPacketSend (s : State) (iface : Fin 8) : exec (.vrtPacketSend iface) s = execVrtPacketSend iface s := rfl
@[simp] theorem exec_vrtContextPeriodic (s : State) (stream : Fin 256) : exec (.vrtContextPeriodic stream) s = execVrtContextPeriodic stream s := rfl
@[simp] theorem exec_ptpEventRx (s : State) (port : Fin 2) (msg : PtpMsg) : exec (.ptpEventRx port msg) s = execPtpEventRx port msg s := rfl
@[simp] theorem exec_ptpDelayReq (s : State) : exec (.ptpDelayReq) s = execPtpDelayReq s := rfl
@[simp] theorem exec_trussPacketRx (s : State) (port : Fin 4) (cls : Fin 3) (seq : BitVec 8) (packet : Bytes) : exec (.trussPacketRx port cls seq packet) s = execTrussPacketRx port cls seq packet s := rfl
@[simp] theorem exec_trussAckTimeout (s : State) (port : Fin 4) (cls : Fin 3) : exec (.trussAckTimeout port cls) s = execTrussAckTimeout port cls s := rfl
@[simp] theorem exec_trussLaneFail (s : State) (port : Fin 4) (lane : Fin 5) : exec (.trussLaneFail port lane) s = execTrussLaneFail port lane s := rfl
@[simp] theorem exec_trussSpareJoin (s : State) (port : Fin 4) : exec (.trussSpareJoin port) s = execTrussSpareJoin port s := rfl
@[simp] theorem exec_trussSleep (s : State) (port : Fin 4) (lane : Fin 5) : exec (.trussSleep port lane) s = execTrussSleep port lane s := rfl
@[simp] theorem exec_trussWake (s : State) (port : Fin 4) (lane : Fin 5) : exec (.trussWake port lane) s = execTrussWake port lane s := rfl
@[simp] theorem exec_trussRestart (s : State) (port : Fin 4) : exec (.trussRestart port) s = execTrussRestart port s := rfl
@[simp] theorem exec_hpdEdge (s : State) (head : Fin 2) (edid : Bytes) : exec (.hpdEdge head edid) s = execHpdEdge head edid s := rfl
@[simp] theorem exec_dpTrainingRetry (s : State) (head : Fin 2) : exec (.dpTrainingRetry head) s = execDpTrainingRetry head s := rfl
@[simp] theorem exec_latchPoint (s : State) (head : Fin 2) : exec (.latchPoint head) s = execLatchPoint head s := rfl
@[simp] theorem exec_displayFrameStart (s : State) (head : Fin 2) : exec (.displayFrameStart head) s = execDisplayFrameStart head s := rfl
@[simp] theorem exec_dispFlip (s : State) (head : Fin 2) : exec (.dispFlip head) s = execDispFlip head s := rfl
@[simp] theorem exec_scanoutUnderrun (s : State) (head : Fin 2) : exec (.scanoutUnderrun head) s = execScanoutUnderrun head s := rfl
@[simp] theorem exec_tollhouseSlot (s : State) (requests : List (Fin 256 × Nat)) (avsOk : Bool) (dieMv : Nat) (reading : Option (Nat × Nat)) (railsOk : Bool) : exec (.tollhouseSlot requests avsOk dieMv reading railsOk) s = execTollhouseSlot requests avsOk dieMv reading railsOk s := rfl
@[simp] theorem exec_tempRead (s : State) (readings : List Int) : exec (.tempRead readings) s = execTempRead readings s := rfl
@[simp] theorem exec_derateStep (s : State) : exec (.derateStep) s = execDerateStep s := rfl
@[simp] theorem exec_calItemStart (s : State) : exec (.calItemStart) s = execCalItemStart s := rfl
@[simp] theorem exec_calItemDone (s : State) (codes : List Nat) : exec (.calItemDone codes) s = execCalItemDone codes s := rfl
@[simp] theorem exec_calAgeTimeout (s : State) (calUnit : Fin 6) (item : Fin 128) : exec (.calAgeTimeout calUnit item) s = execCalAgeTimeout calUnit item s := rfl
@[simp] theorem exec_calFull (s : State) : exec (.calFull) s = execCalFull s := rfl
@[simp] theorem exec_calRun (s : State) (calUnit : Fin 6) : exec (.calRun calUnit) s = execCalRun calUnit s := rfl
@[simp] theorem exec_monStartEvent (s : State) : exec (.monStartEvent) s = execMonStartEvent s := rfl
@[simp] theorem exec_monConversion (s : State) (input : Int) : exec (.monConversion input) s = execMonConversion input s := rfl
@[simp] theorem exec_monCodeReady (s : State) : exec (.monCodeReady) s = execMonCodeReady s := rfl
@[simp] theorem exec_fwLoad (s : State) (addr len : Nat) : exec (.fwLoad addr len) s = execFwLoad addr len s := rfl
@[simp] theorem exec_fwLoadChecked (s : State) : exec (.fwLoadChecked) s = execFwLoadChecked s := rfl
@[simp] theorem exec_fwLoadVerified (s : State) (ok : Bool) : exec (.fwLoadVerified ok) s = execFwLoadVerified ok s := rfl
@[simp] theorem exec_fwSwap (s : State) : exec (.fwSwap) s = execFwSwap s := rfl
@[simp] theorem exec_fwPrepareDone (s : State) (ok : Bool) : exec (.fwPrepareDone ok) s = execFwPrepareDone ok s := rfl
@[simp] theorem exec_fwHandoverDone (s : State) : exec (.fwHandoverDone) s = execFwHandoverDone s := rfl
@[simp] theorem exec_fwHandoverTimeout (s : State) : exec (.fwHandoverTimeout) s = execFwHandoverTimeout s := rfl
@[simp] theorem exec_fwConfirm (s : State) : exec (.fwConfirm) s = execFwConfirm s := rfl
@[simp] theorem exec_attNonce (s : State) (nonce : Bytes) : exec (.attNonce nonce) s = execAttNonce nonce s := rfl
@[simp] theorem exec_attReportReady (s : State) : exec (.attReportReady) s = execAttReportReady s := rfl
@[simp] theorem exec_secOwnerKey (s : State) (key : Bytes) : exec (.secOwnerKey key) s = execSecOwnerKey key s := rfl
@[simp] theorem exec_configScrub (s : State) (corrected : Nat) (uncorrectable : Nat) : exec (.configScrub corrected uncorrectable) s = execConfigScrub corrected uncorrectable s := rfl
@[simp] theorem exec_configRestoreDone (s : State) : exec (.configRestoreDone) s = execConfigRestoreDone s := rfl
@[simp] theorem exec_ueExcursionEnd (s : State) : exec (.ueExcursionEnd) s = execUeExcursionEnd s := rfl
@[simp] theorem exec_powerOnReset (s : State) : exec (.powerOnReset) s = execPowerOnReset s := rfl
@[simp] theorem exec_perstRelease (s : State) (straps : Straps) : exec (.perstRelease straps) s = execPerstRelease straps s := rfl
@[simp] theorem exec_bootDone (s : State) (report : BootReport) (board : Bytes) : exec (.bootDone report board) s = execBootDone report board s := rfl
@[simp] theorem exec_startupCalibrationDone (s : State) (report : StartupCalibration) : exec (.startupCalibrationDone report) s = execStartupCalibrationDone report s := rfl
@[simp] theorem exec_linksStageEnd (s : State) : exec (.linksStageEnd) s = execLinksStageEnd s := rfl
@[simp] theorem exec_pcieLinkUp (s : State) : exec (.pcieLinkUp) s = execPcieLinkUp s := rfl
@[simp] theorem exec_configurationRequest (s : State) (busMaster : Option Bool) (d3hot : Option Bool) : exec (.configurationRequest busMaster d3hot) s = execConfigurationRequest busMaster d3hot s := rfl
@[simp] theorem exec_hpdLow (s : State) (head : Fin 2) : exec (.hpdLow head) s = execHpdLow head s := rfl
@[simp] theorem exec_displayLinkTrained (s : State) (head : Fin 2) (ok : Bool) : exec (.displayLinkTrained head ok) s = execDisplayLinkTrained head ok s := rfl
@[simp] theorem exec_nvmeDriveReady (s : State) (drive : Fin 4) (width : Nat) (model : Bytes) (nsids : List (Nat × Nat × Bool)) (labels : List (Fin 16 × Nat × Nat)) : exec (.nvmeDriveReady drive width model nsids labels) s = execNvmeDriveReady drive width model nsids labels s := rfl
@[simp] theorem exec_drvPerstRelease (s : State) (drive : Fin 4) : exec (.drvPerstRelease drive) s = execDrvPerstRelease drive s := rfl
@[simp] theorem exec_trussAlignBlock (s : State) (port : Fin 4) (lane : Fin 5) (frame : BitVec 16) (crcOk : Bool) : exec (.trussAlignBlock port lane frame crcOk) s = execTrussAlignBlock port lane frame crcOk s := rfl
@[simp] theorem exec_scanoutPanic (s : State) (head : Fin 2) : exec (.scanoutPanic head) s = execScanoutPanic head s := rfl

end Sys2Proof.Machine
end

