-- ==== Sys2Proof/Laws/State.lean ====
section
/-! SUPPORT. One lemma per field per update: an update of one field leaves the others. -/

namespace Sys2Proof.Machine.State

@[simp] theorem withPending_pending (s : State) (x : List Instr) : (s.withPending x).pending = x := rfl
@[simp] theorem withPending_free (s : State) (x : List Instr) : (s.withPending x).free = s.free := rfl
@[simp] theorem withPending_wall (s : State) (x : List Instr) : (s.withPending x).wall = s.wall := rfl
@[simp] theorem withPending_time (s : State) (x : List Instr) : (s.withPending x).time = s.time := rfl
@[simp] theorem withPending_dict (s : State) (x : List Instr) : (s.withPending x).dict = s.dict := rfl
@[simp] theorem withPending_undo (s : State) (x : List Instr) : (s.withPending x).undo = s.undo := rfl
@[simp] theorem withPending_groups (s : State) (x : List Instr) : (s.withPending x).groups = s.groups := rfl
@[simp] theorem withPending_due (s : State) (x : List Instr) : (s.withPending x).due = s.due := rfl
@[simp] theorem withPending_result (s : State) (x : List Instr) : (s.withPending x).result = s.result := rfl
@[simp] theorem withPending_outbox (s : State) (x : List Instr) : (s.withPending x).outbox = s.outbox := rfl
@[simp] theorem withPending_mem (s : State) (x : List Instr) : (s.withPending x).mem = s.mem := rfl
@[simp] theorem withPending_pcie (s : State) (x : List Instr) : (s.withPending x).pcie = s.pcie := rfl
@[simp] theorem withPending_pev (s : State) (x : List Instr) : (s.withPending x).pev = s.pev := rfl
@[simp] theorem withPending_ks (s : State) (x : List Instr) : (s.withPending x).ks = s.ks := rfl
@[simp] theorem withPending_lo (s : State) (x : List Instr) : (s.withPending x).lo = s.lo := rfl
@[simp] theorem withPending_cond (s : State) (x : List Instr) : (s.withPending x).cond = s.cond := rfl
@[simp] theorem withPending_ing (s : State) (x : List Instr) : (s.withPending x).ing = s.ing := rfl
@[simp] theorem withPending_ring (s : State) (x : List Instr) : (s.withPending x).ring = s.ring := rfl
@[simp] theorem withPending_trig (s : State) (x : List Instr) : (s.withPending x).trig = s.trig := rfl
@[simp] theorem withPending_fes (s : State) (x : List Instr) : (s.withPending x).fes = s.fes := rfl
@[simp] theorem withPending_cal (s : State) (x : List Instr) : (s.withPending x).cal = s.cal := rfl
@[simp] theorem withPending_acq (s : State) (x : List Instr) : (s.withPending x).acq = s.acq := rfl
@[simp] theorem withPending_span (s : State) (x : List Instr) : (s.withPending x).span = s.span := rfl
@[simp] theorem withPending_hrs (s : State) (x : List Instr) : (s.withPending x).hrs = s.hrs := rfl
@[simp] theorem withPending_net (s : State) (x : List Instr) : (s.withPending x).net = s.net := rfl
@[simp] theorem withPending_views (s : State) (x : List Instr) : (s.withPending x).views = s.views := rfl
@[simp] theorem withPending_girders (s : State) (x : List Instr) : (s.withPending x).girders = s.girders := rfl
@[simp] theorem withPending_toll (s : State) (x : List Instr) : (s.withPending x).toll = s.toll := rfl
@[simp] theorem withPending_prods (s : State) (x : List Instr) : (s.withPending x).prods = s.prods := rfl
@[simp] theorem withPending_masks (s : State) (x : List Instr) : (s.withPending x).masks = s.masks := rfl
@[simp] theorem withPending_movers (s : State) (x : List Instr) : (s.withPending x).movers = s.movers := rfl
@[simp] theorem withPending_cores (s : State) (x : List Instr) : (s.withPending x).cores = s.cores := rfl
@[simp] theorem withPending_recd (s : State) (x : List Instr) : (s.withPending x).recd = s.recd := rfl
@[simp] theorem withPending_heads (s : State) (x : List Instr) : (s.withPending x).heads = s.heads := rfl
@[simp] theorem withPending_mon (s : State) (x : List Instr) : (s.withPending x).mon = s.mon := rfl
@[simp] theorem withPending_sec (s : State) (x : List Instr) : (s.withPending x).sec = s.sec := rfl
@[simp] theorem withPending_start (s : State) (x : List Instr) : (s.withPending x).start = s.start := rfl
@[simp] theorem withPending_pel (s : State) (x : List Instr) : (s.withPending x).pel = s.pel := rfl
@[simp] theorem withFree_pending (s : State) (x : Nat) : (s.withFree x).pending = s.pending := rfl
@[simp] theorem withFree_free (s : State) (x : Nat) : (s.withFree x).free = x := rfl
@[simp] theorem withFree_wall (s : State) (x : Nat) : (s.withFree x).wall = s.wall := rfl
@[simp] theorem withFree_time (s : State) (x : Nat) : (s.withFree x).time = s.time := rfl
@[simp] theorem withFree_dict (s : State) (x : Nat) : (s.withFree x).dict = s.dict := rfl
@[simp] theorem withFree_undo (s : State) (x : Nat) : (s.withFree x).undo = s.undo := rfl
@[simp] theorem withFree_groups (s : State) (x : Nat) : (s.withFree x).groups = s.groups := rfl
@[simp] theorem withFree_due (s : State) (x : Nat) : (s.withFree x).due = s.due := rfl
@[simp] theorem withFree_result (s : State) (x : Nat) : (s.withFree x).result = s.result := rfl
@[simp] theorem withFree_outbox (s : State) (x : Nat) : (s.withFree x).outbox = s.outbox := rfl
@[simp] theorem withFree_mem (s : State) (x : Nat) : (s.withFree x).mem = s.mem := rfl
@[simp] theorem withFree_pcie (s : State) (x : Nat) : (s.withFree x).pcie = s.pcie := rfl
@[simp] theorem withFree_pev (s : State) (x : Nat) : (s.withFree x).pev = s.pev := rfl
@[simp] theorem withFree_ks (s : State) (x : Nat) : (s.withFree x).ks = s.ks := rfl
@[simp] theorem withFree_lo (s : State) (x : Nat) : (s.withFree x).lo = s.lo := rfl
@[simp] theorem withFree_cond (s : State) (x : Nat) : (s.withFree x).cond = s.cond := rfl
@[simp] theorem withFree_ing (s : State) (x : Nat) : (s.withFree x).ing = s.ing := rfl
@[simp] theorem withFree_ring (s : State) (x : Nat) : (s.withFree x).ring = s.ring := rfl
@[simp] theorem withFree_trig (s : State) (x : Nat) : (s.withFree x).trig = s.trig := rfl
@[simp] theorem withFree_fes (s : State) (x : Nat) : (s.withFree x).fes = s.fes := rfl
@[simp] theorem withFree_cal (s : State) (x : Nat) : (s.withFree x).cal = s.cal := rfl
@[simp] theorem withFree_acq (s : State) (x : Nat) : (s.withFree x).acq = s.acq := rfl
@[simp] theorem withFree_span (s : State) (x : Nat) : (s.withFree x).span = s.span := rfl
@[simp] theorem withFree_hrs (s : State) (x : Nat) : (s.withFree x).hrs = s.hrs := rfl
@[simp] theorem withFree_net (s : State) (x : Nat) : (s.withFree x).net = s.net := rfl
@[simp] theorem withFree_views (s : State) (x : Nat) : (s.withFree x).views = s.views := rfl
@[simp] theorem withFree_girders (s : State) (x : Nat) : (s.withFree x).girders = s.girders := rfl
@[simp] theorem withFree_toll (s : State) (x : Nat) : (s.withFree x).toll = s.toll := rfl
@[simp] theorem withFree_prods (s : State) (x : Nat) : (s.withFree x).prods = s.prods := rfl
@[simp] theorem withFree_masks (s : State) (x : Nat) : (s.withFree x).masks = s.masks := rfl
@[simp] theorem withFree_movers (s : State) (x : Nat) : (s.withFree x).movers = s.movers := rfl
@[simp] theorem withFree_cores (s : State) (x : Nat) : (s.withFree x).cores = s.cores := rfl
@[simp] theorem withFree_recd (s : State) (x : Nat) : (s.withFree x).recd = s.recd := rfl
@[simp] theorem withFree_heads (s : State) (x : Nat) : (s.withFree x).heads = s.heads := rfl
@[simp] theorem withFree_mon (s : State) (x : Nat) : (s.withFree x).mon = s.mon := rfl
@[simp] theorem withFree_sec (s : State) (x : Nat) : (s.withFree x).sec = s.sec := rfl
@[simp] theorem withFree_start (s : State) (x : Nat) : (s.withFree x).start = s.start := rfl
@[simp] theorem withFree_pel (s : State) (x : Nat) : (s.withFree x).pel = s.pel := rfl
@[simp] theorem withWall_pending (s : State) (x : Nat) : (s.withWall x).pending = s.pending := rfl
@[simp] theorem withWall_free (s : State) (x : Nat) : (s.withWall x).free = s.free := rfl
@[simp] theorem withWall_wall (s : State) (x : Nat) : (s.withWall x).wall = x := rfl
@[simp] theorem withWall_time (s : State) (x : Nat) : (s.withWall x).time = s.time := rfl
@[simp] theorem withWall_dict (s : State) (x : Nat) : (s.withWall x).dict = s.dict := rfl
@[simp] theorem withWall_undo (s : State) (x : Nat) : (s.withWall x).undo = s.undo := rfl
@[simp] theorem withWall_groups (s : State) (x : Nat) : (s.withWall x).groups = s.groups := rfl
@[simp] theorem withWall_due (s : State) (x : Nat) : (s.withWall x).due = s.due := rfl
@[simp] theorem withWall_result (s : State) (x : Nat) : (s.withWall x).result = s.result := rfl
@[simp] theorem withWall_outbox (s : State) (x : Nat) : (s.withWall x).outbox = s.outbox := rfl
@[simp] theorem withWall_mem (s : State) (x : Nat) : (s.withWall x).mem = s.mem := rfl
@[simp] theorem withWall_pcie (s : State) (x : Nat) : (s.withWall x).pcie = s.pcie := rfl
@[simp] theorem withWall_pev (s : State) (x : Nat) : (s.withWall x).pev = s.pev := rfl
@[simp] theorem withWall_ks (s : State) (x : Nat) : (s.withWall x).ks = s.ks := rfl
@[simp] theorem withWall_lo (s : State) (x : Nat) : (s.withWall x).lo = s.lo := rfl
@[simp] theorem withWall_cond (s : State) (x : Nat) : (s.withWall x).cond = s.cond := rfl
@[simp] theorem withWall_ing (s : State) (x : Nat) : (s.withWall x).ing = s.ing := rfl
@[simp] theorem withWall_ring (s : State) (x : Nat) : (s.withWall x).ring = s.ring := rfl
@[simp] theorem withWall_trig (s : State) (x : Nat) : (s.withWall x).trig = s.trig := rfl
@[simp] theorem withWall_fes (s : State) (x : Nat) : (s.withWall x).fes = s.fes := rfl
@[simp] theorem withWall_cal (s : State) (x : Nat) : (s.withWall x).cal = s.cal := rfl
@[simp] theorem withWall_acq (s : State) (x : Nat) : (s.withWall x).acq = s.acq := rfl
@[simp] theorem withWall_span (s : State) (x : Nat) : (s.withWall x).span = s.span := rfl
@[simp] theorem withWall_hrs (s : State) (x : Nat) : (s.withWall x).hrs = s.hrs := rfl
@[simp] theorem withWall_net (s : State) (x : Nat) : (s.withWall x).net = s.net := rfl
@[simp] theorem withWall_views (s : State) (x : Nat) : (s.withWall x).views = s.views := rfl
@[simp] theorem withWall_girders (s : State) (x : Nat) : (s.withWall x).girders = s.girders := rfl
@[simp] theorem withWall_toll (s : State) (x : Nat) : (s.withWall x).toll = s.toll := rfl
@[simp] theorem withWall_prods (s : State) (x : Nat) : (s.withWall x).prods = s.prods := rfl
@[simp] theorem withWall_masks (s : State) (x : Nat) : (s.withWall x).masks = s.masks := rfl
@[simp] theorem withWall_movers (s : State) (x : Nat) : (s.withWall x).movers = s.movers := rfl
@[simp] theorem withWall_cores (s : State) (x : Nat) : (s.withWall x).cores = s.cores := rfl
@[simp] theorem withWall_recd (s : State) (x : Nat) : (s.withWall x).recd = s.recd := rfl
@[simp] theorem withWall_heads (s : State) (x : Nat) : (s.withWall x).heads = s.heads := rfl
@[simp] theorem withWall_mon (s : State) (x : Nat) : (s.withWall x).mon = s.mon := rfl
@[simp] theorem withWall_sec (s : State) (x : Nat) : (s.withWall x).sec = s.sec := rfl
@[simp] theorem withWall_start (s : State) (x : Nat) : (s.withWall x).start = s.start := rfl
@[simp] theorem withWall_pel (s : State) (x : Nat) : (s.withWall x).pel = s.pel := rfl
@[simp] theorem withTime_pending (s : State) (x : KTime) : (s.withTime x).pending = s.pending := rfl
@[simp] theorem withTime_free (s : State) (x : KTime) : (s.withTime x).free = s.free := rfl
@[simp] theorem withTime_wall (s : State) (x : KTime) : (s.withTime x).wall = s.wall := rfl
@[simp] theorem withTime_time (s : State) (x : KTime) : (s.withTime x).time = x := rfl
@[simp] theorem withTime_dict (s : State) (x : KTime) : (s.withTime x).dict = s.dict := rfl
@[simp] theorem withTime_undo (s : State) (x : KTime) : (s.withTime x).undo = s.undo := rfl
@[simp] theorem withTime_groups (s : State) (x : KTime) : (s.withTime x).groups = s.groups := rfl
@[simp] theorem withTime_due (s : State) (x : KTime) : (s.withTime x).due = s.due := rfl
@[simp] theorem withTime_result (s : State) (x : KTime) : (s.withTime x).result = s.result := rfl
@[simp] theorem withTime_outbox (s : State) (x : KTime) : (s.withTime x).outbox = s.outbox := rfl
@[simp] theorem withTime_mem (s : State) (x : KTime) : (s.withTime x).mem = s.mem := rfl
@[simp] theorem withTime_pcie (s : State) (x : KTime) : (s.withTime x).pcie = s.pcie := rfl
@[simp] theorem withTime_pev (s : State) (x : KTime) : (s.withTime x).pev = s.pev := rfl
@[simp] theorem withTime_ks (s : State) (x : KTime) : (s.withTime x).ks = s.ks := rfl
@[simp] theorem withTime_lo (s : State) (x : KTime) : (s.withTime x).lo = s.lo := rfl
@[simp] theorem withTime_cond (s : State) (x : KTime) : (s.withTime x).cond = s.cond := rfl
@[simp] theorem withTime_ing (s : State) (x : KTime) : (s.withTime x).ing = s.ing := rfl
@[simp] theorem withTime_ring (s : State) (x : KTime) : (s.withTime x).ring = s.ring := rfl
@[simp] theorem withTime_trig (s : State) (x : KTime) : (s.withTime x).trig = s.trig := rfl
@[simp] theorem withTime_fes (s : State) (x : KTime) : (s.withTime x).fes = s.fes := rfl
@[simp] theorem withTime_cal (s : State) (x : KTime) : (s.withTime x).cal = s.cal := rfl
@[simp] theorem withTime_acq (s : State) (x : KTime) : (s.withTime x).acq = s.acq := rfl
@[simp] theorem withTime_span (s : State) (x : KTime) : (s.withTime x).span = s.span := rfl
@[simp] theorem withTime_hrs (s : State) (x : KTime) : (s.withTime x).hrs = s.hrs := rfl
@[simp] theorem withTime_net (s : State) (x : KTime) : (s.withTime x).net = s.net := rfl
@[simp] theorem withTime_views (s : State) (x : KTime) : (s.withTime x).views = s.views := rfl
@[simp] theorem withTime_girders (s : State) (x : KTime) : (s.withTime x).girders = s.girders := rfl
@[simp] theorem withTime_toll (s : State) (x : KTime) : (s.withTime x).toll = s.toll := rfl
@[simp] theorem withTime_prods (s : State) (x : KTime) : (s.withTime x).prods = s.prods := rfl
@[simp] theorem withTime_masks (s : State) (x : KTime) : (s.withTime x).masks = s.masks := rfl
@[simp] theorem withTime_movers (s : State) (x : KTime) : (s.withTime x).movers = s.movers := rfl
@[simp] theorem withTime_cores (s : State) (x : KTime) : (s.withTime x).cores = s.cores := rfl
@[simp] theorem withTime_recd (s : State) (x : KTime) : (s.withTime x).recd = s.recd := rfl
@[simp] theorem withTime_heads (s : State) (x : KTime) : (s.withTime x).heads = s.heads := rfl
@[simp] theorem withTime_mon (s : State) (x : KTime) : (s.withTime x).mon = s.mon := rfl
@[simp] theorem withTime_sec (s : State) (x : KTime) : (s.withTime x).sec = s.sec := rfl
@[simp] theorem withTime_start (s : State) (x : KTime) : (s.withTime x).start = s.start := rfl
@[simp] theorem withTime_pel (s : State) (x : KTime) : (s.withTime x).pel = s.pel := rfl
@[simp] theorem withDict_pending (s : State) (x : Tab Nat) : (s.withDict x).pending = s.pending := rfl
@[simp] theorem withDict_free (s : State) (x : Tab Nat) : (s.withDict x).free = s.free := rfl
@[simp] theorem withDict_wall (s : State) (x : Tab Nat) : (s.withDict x).wall = s.wall := rfl
@[simp] theorem withDict_time (s : State) (x : Tab Nat) : (s.withDict x).time = s.time := rfl
@[simp] theorem withDict_dict (s : State) (x : Tab Nat) : (s.withDict x).dict = x := rfl
@[simp] theorem withDict_undo (s : State) (x : Tab Nat) : (s.withDict x).undo = s.undo := rfl
@[simp] theorem withDict_groups (s : State) (x : Tab Nat) : (s.withDict x).groups = s.groups := rfl
@[simp] theorem withDict_due (s : State) (x : Tab Nat) : (s.withDict x).due = s.due := rfl
@[simp] theorem withDict_result (s : State) (x : Tab Nat) : (s.withDict x).result = s.result := rfl
@[simp] theorem withDict_outbox (s : State) (x : Tab Nat) : (s.withDict x).outbox = s.outbox := rfl
@[simp] theorem withDict_mem (s : State) (x : Tab Nat) : (s.withDict x).mem = s.mem := rfl
@[simp] theorem withDict_pcie (s : State) (x : Tab Nat) : (s.withDict x).pcie = s.pcie := rfl
@[simp] theorem withDict_pev (s : State) (x : Tab Nat) : (s.withDict x).pev = s.pev := rfl
@[simp] theorem withDict_ks (s : State) (x : Tab Nat) : (s.withDict x).ks = s.ks := rfl
@[simp] theorem withDict_lo (s : State) (x : Tab Nat) : (s.withDict x).lo = s.lo := rfl
@[simp] theorem withDict_cond (s : State) (x : Tab Nat) : (s.withDict x).cond = s.cond := rfl
@[simp] theorem withDict_ing (s : State) (x : Tab Nat) : (s.withDict x).ing = s.ing := rfl
@[simp] theorem withDict_ring (s : State) (x : Tab Nat) : (s.withDict x).ring = s.ring := rfl
@[simp] theorem withDict_trig (s : State) (x : Tab Nat) : (s.withDict x).trig = s.trig := rfl
@[simp] theorem withDict_fes (s : State) (x : Tab Nat) : (s.withDict x).fes = s.fes := rfl
@[simp] theorem withDict_cal (s : State) (x : Tab Nat) : (s.withDict x).cal = s.cal := rfl
@[simp] theorem withDict_acq (s : State) (x : Tab Nat) : (s.withDict x).acq = s.acq := rfl
@[simp] theorem withDict_span (s : State) (x : Tab Nat) : (s.withDict x).span = s.span := rfl
@[simp] theorem withDict_hrs (s : State) (x : Tab Nat) : (s.withDict x).hrs = s.hrs := rfl
@[simp] theorem withDict_net (s : State) (x : Tab Nat) : (s.withDict x).net = s.net := rfl
@[simp] theorem withDict_views (s : State) (x : Tab Nat) : (s.withDict x).views = s.views := rfl
@[simp] theorem withDict_girders (s : State) (x : Tab Nat) : (s.withDict x).girders = s.girders := rfl
@[simp] theorem withDict_toll (s : State) (x : Tab Nat) : (s.withDict x).toll = s.toll := rfl
@[simp] theorem withDict_prods (s : State) (x : Tab Nat) : (s.withDict x).prods = s.prods := rfl
@[simp] theorem withDict_masks (s : State) (x : Tab Nat) : (s.withDict x).masks = s.masks := rfl
@[simp] theorem withDict_movers (s : State) (x : Tab Nat) : (s.withDict x).movers = s.movers := rfl
@[simp] theorem withDict_cores (s : State) (x : Tab Nat) : (s.withDict x).cores = s.cores := rfl
@[simp] theorem withDict_recd (s : State) (x : Tab Nat) : (s.withDict x).recd = s.recd := rfl
@[simp] theorem withDict_heads (s : State) (x : Tab Nat) : (s.withDict x).heads = s.heads := rfl
@[simp] theorem withDict_mon (s : State) (x : Tab Nat) : (s.withDict x).mon = s.mon := rfl
@[simp] theorem withDict_sec (s : State) (x : Tab Nat) : (s.withDict x).sec = s.sec := rfl
@[simp] theorem withDict_start (s : State) (x : Tab Nat) : (s.withDict x).start = s.start := rfl
@[simp] theorem withDict_pel (s : State) (x : Tab Nat) : (s.withDict x).pel = s.pel := rfl
@[simp] theorem withUndo_pending (s : State) (x : List (KTime × Nat × Nat)) : (s.withUndo x).pending = s.pending := rfl
@[simp] theorem withUndo_free (s : State) (x : List (KTime × Nat × Nat)) : (s.withUndo x).free = s.free := rfl
@[simp] theorem withUndo_wall (s : State) (x : List (KTime × Nat × Nat)) : (s.withUndo x).wall = s.wall := rfl
@[simp] theorem withUndo_time (s : State) (x : List (KTime × Nat × Nat)) : (s.withUndo x).time = s.time := rfl
@[simp] theorem withUndo_dict (s : State) (x : List (KTime × Nat × Nat)) : (s.withUndo x).dict = s.dict := rfl
@[simp] theorem withUndo_undo (s : State) (x : List (KTime × Nat × Nat)) : (s.withUndo x).undo = x := rfl
@[simp] theorem withUndo_groups (s : State) (x : List (KTime × Nat × Nat)) : (s.withUndo x).groups = s.groups := rfl
@[simp] theorem withUndo_due (s : State) (x : List (KTime × Nat × Nat)) : (s.withUndo x).due = s.due := rfl
@[simp] theorem withUndo_result (s : State) (x : List (KTime × Nat × Nat)) : (s.withUndo x).result = s.result := rfl
@[simp] theorem withUndo_outbox (s : State) (x : List (KTime × Nat × Nat)) : (s.withUndo x).outbox = s.outbox := rfl
@[simp] theorem withUndo_mem (s : State) (x : List (KTime × Nat × Nat)) : (s.withUndo x).mem = s.mem := rfl
@[simp] theorem withUndo_pcie (s : State) (x : List (KTime × Nat × Nat)) : (s.withUndo x).pcie = s.pcie := rfl
@[simp] theorem withUndo_pev (s : State) (x : List (KTime × Nat × Nat)) : (s.withUndo x).pev = s.pev := rfl
@[simp] theorem withUndo_ks (s : State) (x : List (KTime × Nat × Nat)) : (s.withUndo x).ks = s.ks := rfl
@[simp] theorem withUndo_lo (s : State) (x : List (KTime × Nat × Nat)) : (s.withUndo x).lo = s.lo := rfl
@[simp] theorem withUndo_cond (s : State) (x : List (KTime × Nat × Nat)) : (s.withUndo x).cond = s.cond := rfl
@[simp] theorem withUndo_ing (s : State) (x : List (KTime × Nat × Nat)) : (s.withUndo x).ing = s.ing := rfl
@[simp] theorem withUndo_ring (s : State) (x : List (KTime × Nat × Nat)) : (s.withUndo x).ring = s.ring := rfl
@[simp] theorem withUndo_trig (s : State) (x : List (KTime × Nat × Nat)) : (s.withUndo x).trig = s.trig := rfl
@[simp] theorem withUndo_fes (s : State) (x : List (KTime × Nat × Nat)) : (s.withUndo x).fes = s.fes := rfl
@[simp] theorem withUndo_cal (s : State) (x : List (KTime × Nat × Nat)) : (s.withUndo x).cal = s.cal := rfl
@[simp] theorem withUndo_acq (s : State) (x : List (KTime × Nat × Nat)) : (s.withUndo x).acq = s.acq := rfl
@[simp] theorem withUndo_span (s : State) (x : List (KTime × Nat × Nat)) : (s.withUndo x).span = s.span := rfl
@[simp] theorem withUndo_hrs (s : State) (x : List (KTime × Nat × Nat)) : (s.withUndo x).hrs = s.hrs := rfl
@[simp] theorem withUndo_net (s : State) (x : List (KTime × Nat × Nat)) : (s.withUndo x).net = s.net := rfl
@[simp] theorem withUndo_views (s : State) (x : List (KTime × Nat × Nat)) : (s.withUndo x).views = s.views := rfl
@[simp] theorem withUndo_girders (s : State) (x : List (KTime × Nat × Nat)) : (s.withUndo x).girders = s.girders := rfl
@[simp] theorem withUndo_toll (s : State) (x : List (KTime × Nat × Nat)) : (s.withUndo x).toll = s.toll := rfl
@[simp] theorem withUndo_prods (s : State) (x : List (KTime × Nat × Nat)) : (s.withUndo x).prods = s.prods := rfl
@[simp] theorem withUndo_masks (s : State) (x : List (KTime × Nat × Nat)) : (s.withUndo x).masks = s.masks := rfl
@[simp] theorem withUndo_movers (s : State) (x : List (KTime × Nat × Nat)) : (s.withUndo x).movers = s.movers := rfl
@[simp] theorem withUndo_cores (s : State) (x : List (KTime × Nat × Nat)) : (s.withUndo x).cores = s.cores := rfl
@[simp] theorem withUndo_recd (s : State) (x : List (KTime × Nat × Nat)) : (s.withUndo x).recd = s.recd := rfl
@[simp] theorem withUndo_heads (s : State) (x : List (KTime × Nat × Nat)) : (s.withUndo x).heads = s.heads := rfl
@[simp] theorem withUndo_mon (s : State) (x : List (KTime × Nat × Nat)) : (s.withUndo x).mon = s.mon := rfl
@[simp] theorem withUndo_sec (s : State) (x : List (KTime × Nat × Nat)) : (s.withUndo x).sec = s.sec := rfl
@[simp] theorem withUndo_start (s : State) (x : List (KTime × Nat × Nat)) : (s.withUndo x).start = s.start := rfl
@[simp] theorem withUndo_pel (s : State) (x : List (KTime × Nat × Nat)) : (s.withUndo x).pel = s.pel := rfl
@[simp] theorem withGroups_pending (s : State) (x : List Group) : (s.withGroups x).pending = s.pending := rfl
@[simp] theorem withGroups_free (s : State) (x : List Group) : (s.withGroups x).free = s.free := rfl
@[simp] theorem withGroups_wall (s : State) (x : List Group) : (s.withGroups x).wall = s.wall := rfl
@[simp] theorem withGroups_time (s : State) (x : List Group) : (s.withGroups x).time = s.time := rfl
@[simp] theorem withGroups_dict (s : State) (x : List Group) : (s.withGroups x).dict = s.dict := rfl
@[simp] theorem withGroups_undo (s : State) (x : List Group) : (s.withGroups x).undo = s.undo := rfl
@[simp] theorem withGroups_groups (s : State) (x : List Group) : (s.withGroups x).groups = x := rfl
@[simp] theorem withGroups_due (s : State) (x : List Group) : (s.withGroups x).due = s.due := rfl
@[simp] theorem withGroups_result (s : State) (x : List Group) : (s.withGroups x).result = s.result := rfl
@[simp] theorem withGroups_outbox (s : State) (x : List Group) : (s.withGroups x).outbox = s.outbox := rfl
@[simp] theorem withGroups_mem (s : State) (x : List Group) : (s.withGroups x).mem = s.mem := rfl
@[simp] theorem withGroups_pcie (s : State) (x : List Group) : (s.withGroups x).pcie = s.pcie := rfl
@[simp] theorem withGroups_pev (s : State) (x : List Group) : (s.withGroups x).pev = s.pev := rfl
@[simp] theorem withGroups_ks (s : State) (x : List Group) : (s.withGroups x).ks = s.ks := rfl
@[simp] theorem withGroups_lo (s : State) (x : List Group) : (s.withGroups x).lo = s.lo := rfl
@[simp] theorem withGroups_cond (s : State) (x : List Group) : (s.withGroups x).cond = s.cond := rfl
@[simp] theorem withGroups_ing (s : State) (x : List Group) : (s.withGroups x).ing = s.ing := rfl
@[simp] theorem withGroups_ring (s : State) (x : List Group) : (s.withGroups x).ring = s.ring := rfl
@[simp] theorem withGroups_trig (s : State) (x : List Group) : (s.withGroups x).trig = s.trig := rfl
@[simp] theorem withGroups_fes (s : State) (x : List Group) : (s.withGroups x).fes = s.fes := rfl
@[simp] theorem withGroups_cal (s : State) (x : List Group) : (s.withGroups x).cal = s.cal := rfl
@[simp] theorem withGroups_acq (s : State) (x : List Group) : (s.withGroups x).acq = s.acq := rfl
@[simp] theorem withGroups_span (s : State) (x : List Group) : (s.withGroups x).span = s.span := rfl
@[simp] theorem withGroups_hrs (s : State) (x : List Group) : (s.withGroups x).hrs = s.hrs := rfl
@[simp] theorem withGroups_net (s : State) (x : List Group) : (s.withGroups x).net = s.net := rfl
@[simp] theorem withGroups_views (s : State) (x : List Group) : (s.withGroups x).views = s.views := rfl
@[simp] theorem withGroups_girders (s : State) (x : List Group) : (s.withGroups x).girders = s.girders := rfl
@[simp] theorem withGroups_toll (s : State) (x : List Group) : (s.withGroups x).toll = s.toll := rfl
@[simp] theorem withGroups_prods (s : State) (x : List Group) : (s.withGroups x).prods = s.prods := rfl
@[simp] theorem withGroups_masks (s : State) (x : List Group) : (s.withGroups x).masks = s.masks := rfl
@[simp] theorem withGroups_movers (s : State) (x : List Group) : (s.withGroups x).movers = s.movers := rfl
@[simp] theorem withGroups_cores (s : State) (x : List Group) : (s.withGroups x).cores = s.cores := rfl
@[simp] theorem withGroups_recd (s : State) (x : List Group) : (s.withGroups x).recd = s.recd := rfl
@[simp] theorem withGroups_heads (s : State) (x : List Group) : (s.withGroups x).heads = s.heads := rfl
@[simp] theorem withGroups_mon (s : State) (x : List Group) : (s.withGroups x).mon = s.mon := rfl
@[simp] theorem withGroups_sec (s : State) (x : List Group) : (s.withGroups x).sec = s.sec := rfl
@[simp] theorem withGroups_start (s : State) (x : List Group) : (s.withGroups x).start = s.start := rfl
@[simp] theorem withGroups_pel (s : State) (x : List Group) : (s.withGroups x).pel = s.pel := rfl
@[simp] theorem withDue_pending (s : State) (x : List (Nat × KTime)) : (s.withDue x).pending = s.pending := rfl
@[simp] theorem withDue_free (s : State) (x : List (Nat × KTime)) : (s.withDue x).free = s.free := rfl
@[simp] theorem withDue_wall (s : State) (x : List (Nat × KTime)) : (s.withDue x).wall = s.wall := rfl
@[simp] theorem withDue_time (s : State) (x : List (Nat × KTime)) : (s.withDue x).time = s.time := rfl
@[simp] theorem withDue_dict (s : State) (x : List (Nat × KTime)) : (s.withDue x).dict = s.dict := rfl
@[simp] theorem withDue_undo (s : State) (x : List (Nat × KTime)) : (s.withDue x).undo = s.undo := rfl
@[simp] theorem withDue_groups (s : State) (x : List (Nat × KTime)) : (s.withDue x).groups = s.groups := rfl
@[simp] theorem withDue_due (s : State) (x : List (Nat × KTime)) : (s.withDue x).due = x := rfl
@[simp] theorem withDue_result (s : State) (x : List (Nat × KTime)) : (s.withDue x).result = s.result := rfl
@[simp] theorem withDue_outbox (s : State) (x : List (Nat × KTime)) : (s.withDue x).outbox = s.outbox := rfl
@[simp] theorem withDue_mem (s : State) (x : List (Nat × KTime)) : (s.withDue x).mem = s.mem := rfl
@[simp] theorem withDue_pcie (s : State) (x : List (Nat × KTime)) : (s.withDue x).pcie = s.pcie := rfl
@[simp] theorem withDue_pev (s : State) (x : List (Nat × KTime)) : (s.withDue x).pev = s.pev := rfl
@[simp] theorem withDue_ks (s : State) (x : List (Nat × KTime)) : (s.withDue x).ks = s.ks := rfl
@[simp] theorem withDue_lo (s : State) (x : List (Nat × KTime)) : (s.withDue x).lo = s.lo := rfl
@[simp] theorem withDue_cond (s : State) (x : List (Nat × KTime)) : (s.withDue x).cond = s.cond := rfl
@[simp] theorem withDue_ing (s : State) (x : List (Nat × KTime)) : (s.withDue x).ing = s.ing := rfl
@[simp] theorem withDue_ring (s : State) (x : List (Nat × KTime)) : (s.withDue x).ring = s.ring := rfl
@[simp] theorem withDue_trig (s : State) (x : List (Nat × KTime)) : (s.withDue x).trig = s.trig := rfl
@[simp] theorem withDue_fes (s : State) (x : List (Nat × KTime)) : (s.withDue x).fes = s.fes := rfl
@[simp] theorem withDue_cal (s : State) (x : List (Nat × KTime)) : (s.withDue x).cal = s.cal := rfl
@[simp] theorem withDue_acq (s : State) (x : List (Nat × KTime)) : (s.withDue x).acq = s.acq := rfl
@[simp] theorem withDue_span (s : State) (x : List (Nat × KTime)) : (s.withDue x).span = s.span := rfl
@[simp] theorem withDue_hrs (s : State) (x : List (Nat × KTime)) : (s.withDue x).hrs = s.hrs := rfl
@[simp] theorem withDue_net (s : State) (x : List (Nat × KTime)) : (s.withDue x).net = s.net := rfl
@[simp] theorem withDue_views (s : State) (x : List (Nat × KTime)) : (s.withDue x).views = s.views := rfl
@[simp] theorem withDue_girders (s : State) (x : List (Nat × KTime)) : (s.withDue x).girders = s.girders := rfl
@[simp] theorem withDue_toll (s : State) (x : List (Nat × KTime)) : (s.withDue x).toll = s.toll := rfl
@[simp] theorem withDue_prods (s : State) (x : List (Nat × KTime)) : (s.withDue x).prods = s.prods := rfl
@[simp] theorem withDue_masks (s : State) (x : List (Nat × KTime)) : (s.withDue x).masks = s.masks := rfl
@[simp] theorem withDue_movers (s : State) (x : List (Nat × KTime)) : (s.withDue x).movers = s.movers := rfl
@[simp] theorem withDue_cores (s : State) (x : List (Nat × KTime)) : (s.withDue x).cores = s.cores := rfl
@[simp] theorem withDue_recd (s : State) (x : List (Nat × KTime)) : (s.withDue x).recd = s.recd := rfl
@[simp] theorem withDue_heads (s : State) (x : List (Nat × KTime)) : (s.withDue x).heads = s.heads := rfl
@[simp] theorem withDue_mon (s : State) (x : List (Nat × KTime)) : (s.withDue x).mon = s.mon := rfl
@[simp] theorem withDue_sec (s : State) (x : List (Nat × KTime)) : (s.withDue x).sec = s.sec := rfl
@[simp] theorem withDue_start (s : State) (x : List (Nat × KTime)) : (s.withDue x).start = s.start := rfl
@[simp] theorem withDue_pel (s : State) (x : List (Nat × KTime)) : (s.withDue x).pel = s.pel := rfl
@[simp] theorem withResult_pending (s : State) (x : Nat) : (s.withResult x).pending = s.pending := rfl
@[simp] theorem withResult_free (s : State) (x : Nat) : (s.withResult x).free = s.free := rfl
@[simp] theorem withResult_wall (s : State) (x : Nat) : (s.withResult x).wall = s.wall := rfl
@[simp] theorem withResult_time (s : State) (x : Nat) : (s.withResult x).time = s.time := rfl
@[simp] theorem withResult_dict (s : State) (x : Nat) : (s.withResult x).dict = s.dict := rfl
@[simp] theorem withResult_undo (s : State) (x : Nat) : (s.withResult x).undo = s.undo := rfl
@[simp] theorem withResult_groups (s : State) (x : Nat) : (s.withResult x).groups = s.groups := rfl
@[simp] theorem withResult_due (s : State) (x : Nat) : (s.withResult x).due = s.due := rfl
@[simp] theorem withResult_result (s : State) (x : Nat) : (s.withResult x).result = x := rfl
@[simp] theorem withResult_outbox (s : State) (x : Nat) : (s.withResult x).outbox = s.outbox := rfl
@[simp] theorem withResult_mem (s : State) (x : Nat) : (s.withResult x).mem = s.mem := rfl
@[simp] theorem withResult_pcie (s : State) (x : Nat) : (s.withResult x).pcie = s.pcie := rfl
@[simp] theorem withResult_pev (s : State) (x : Nat) : (s.withResult x).pev = s.pev := rfl
@[simp] theorem withResult_ks (s : State) (x : Nat) : (s.withResult x).ks = s.ks := rfl
@[simp] theorem withResult_lo (s : State) (x : Nat) : (s.withResult x).lo = s.lo := rfl
@[simp] theorem withResult_cond (s : State) (x : Nat) : (s.withResult x).cond = s.cond := rfl
@[simp] theorem withResult_ing (s : State) (x : Nat) : (s.withResult x).ing = s.ing := rfl
@[simp] theorem withResult_ring (s : State) (x : Nat) : (s.withResult x).ring = s.ring := rfl
@[simp] theorem withResult_trig (s : State) (x : Nat) : (s.withResult x).trig = s.trig := rfl
@[simp] theorem withResult_fes (s : State) (x : Nat) : (s.withResult x).fes = s.fes := rfl
@[simp] theorem withResult_cal (s : State) (x : Nat) : (s.withResult x).cal = s.cal := rfl
@[simp] theorem withResult_acq (s : State) (x : Nat) : (s.withResult x).acq = s.acq := rfl
@[simp] theorem withResult_span (s : State) (x : Nat) : (s.withResult x).span = s.span := rfl
@[simp] theorem withResult_hrs (s : State) (x : Nat) : (s.withResult x).hrs = s.hrs := rfl
@[simp] theorem withResult_net (s : State) (x : Nat) : (s.withResult x).net = s.net := rfl
@[simp] theorem withResult_views (s : State) (x : Nat) : (s.withResult x).views = s.views := rfl
@[simp] theorem withResult_girders (s : State) (x : Nat) : (s.withResult x).girders = s.girders := rfl
@[simp] theorem withResult_toll (s : State) (x : Nat) : (s.withResult x).toll = s.toll := rfl
@[simp] theorem withResult_prods (s : State) (x : Nat) : (s.withResult x).prods = s.prods := rfl
@[simp] theorem withResult_masks (s : State) (x : Nat) : (s.withResult x).masks = s.masks := rfl
@[simp] theorem withResult_movers (s : State) (x : Nat) : (s.withResult x).movers = s.movers := rfl
@[simp] theorem withResult_cores (s : State) (x : Nat) : (s.withResult x).cores = s.cores := rfl
@[simp] theorem withResult_recd (s : State) (x : Nat) : (s.withResult x).recd = s.recd := rfl
@[simp] theorem withResult_heads (s : State) (x : Nat) : (s.withResult x).heads = s.heads := rfl
@[simp] theorem withResult_mon (s : State) (x : Nat) : (s.withResult x).mon = s.mon := rfl
@[simp] theorem withResult_sec (s : State) (x : Nat) : (s.withResult x).sec = s.sec := rfl
@[simp] theorem withResult_start (s : State) (x : Nat) : (s.withResult x).start = s.start := rfl
@[simp] theorem withResult_pel (s : State) (x : Nat) : (s.withResult x).pel = s.pel := rfl
@[simp] theorem withOutbox_pending (s : State) (x : List Emission) : (s.withOutbox x).pending = s.pending := rfl
@[simp] theorem withOutbox_free (s : State) (x : List Emission) : (s.withOutbox x).free = s.free := rfl
@[simp] theorem withOutbox_wall (s : State) (x : List Emission) : (s.withOutbox x).wall = s.wall := rfl
@[simp] theorem withOutbox_time (s : State) (x : List Emission) : (s.withOutbox x).time = s.time := rfl
@[simp] theorem withOutbox_dict (s : State) (x : List Emission) : (s.withOutbox x).dict = s.dict := rfl
@[simp] theorem withOutbox_undo (s : State) (x : List Emission) : (s.withOutbox x).undo = s.undo := rfl
@[simp] theorem withOutbox_groups (s : State) (x : List Emission) : (s.withOutbox x).groups = s.groups := rfl
@[simp] theorem withOutbox_due (s : State) (x : List Emission) : (s.withOutbox x).due = s.due := rfl
@[simp] theorem withOutbox_result (s : State) (x : List Emission) : (s.withOutbox x).result = s.result := rfl
@[simp] theorem withOutbox_outbox (s : State) (x : List Emission) : (s.withOutbox x).outbox = x := rfl
@[simp] theorem withOutbox_mem (s : State) (x : List Emission) : (s.withOutbox x).mem = s.mem := rfl
@[simp] theorem withOutbox_pcie (s : State) (x : List Emission) : (s.withOutbox x).pcie = s.pcie := rfl
@[simp] theorem withOutbox_pev (s : State) (x : List Emission) : (s.withOutbox x).pev = s.pev := rfl
@[simp] theorem withOutbox_ks (s : State) (x : List Emission) : (s.withOutbox x).ks = s.ks := rfl
@[simp] theorem withOutbox_lo (s : State) (x : List Emission) : (s.withOutbox x).lo = s.lo := rfl
@[simp] theorem withOutbox_cond (s : State) (x : List Emission) : (s.withOutbox x).cond = s.cond := rfl
@[simp] theorem withOutbox_ing (s : State) (x : List Emission) : (s.withOutbox x).ing = s.ing := rfl
@[simp] theorem withOutbox_ring (s : State) (x : List Emission) : (s.withOutbox x).ring = s.ring := rfl
@[simp] theorem withOutbox_trig (s : State) (x : List Emission) : (s.withOutbox x).trig = s.trig := rfl
@[simp] theorem withOutbox_fes (s : State) (x : List Emission) : (s.withOutbox x).fes = s.fes := rfl
@[simp] theorem withOutbox_cal (s : State) (x : List Emission) : (s.withOutbox x).cal = s.cal := rfl
@[simp] theorem withOutbox_acq (s : State) (x : List Emission) : (s.withOutbox x).acq = s.acq := rfl
@[simp] theorem withOutbox_span (s : State) (x : List Emission) : (s.withOutbox x).span = s.span := rfl
@[simp] theorem withOutbox_hrs (s : State) (x : List Emission) : (s.withOutbox x).hrs = s.hrs := rfl
@[simp] theorem withOutbox_net (s : State) (x : List Emission) : (s.withOutbox x).net = s.net := rfl
@[simp] theorem withOutbox_views (s : State) (x : List Emission) : (s.withOutbox x).views = s.views := rfl
@[simp] theorem withOutbox_girders (s : State) (x : List Emission) : (s.withOutbox x).girders = s.girders := rfl
@[simp] theorem withOutbox_toll (s : State) (x : List Emission) : (s.withOutbox x).toll = s.toll := rfl
@[simp] theorem withOutbox_prods (s : State) (x : List Emission) : (s.withOutbox x).prods = s.prods := rfl
@[simp] theorem withOutbox_masks (s : State) (x : List Emission) : (s.withOutbox x).masks = s.masks := rfl
@[simp] theorem withOutbox_movers (s : State) (x : List Emission) : (s.withOutbox x).movers = s.movers := rfl
@[simp] theorem withOutbox_cores (s : State) (x : List Emission) : (s.withOutbox x).cores = s.cores := rfl
@[simp] theorem withOutbox_recd (s : State) (x : List Emission) : (s.withOutbox x).recd = s.recd := rfl
@[simp] theorem withOutbox_heads (s : State) (x : List Emission) : (s.withOutbox x).heads = s.heads := rfl
@[simp] theorem withOutbox_mon (s : State) (x : List Emission) : (s.withOutbox x).mon = s.mon := rfl
@[simp] theorem withOutbox_sec (s : State) (x : List Emission) : (s.withOutbox x).sec = s.sec := rfl
@[simp] theorem withOutbox_start (s : State) (x : List Emission) : (s.withOutbox x).start = s.start := rfl
@[simp] theorem withOutbox_pel (s : State) (x : List Emission) : (s.withOutbox x).pel = s.pel := rfl
@[simp] theorem withMem_pending (s : State) (x : Mem) : (s.withMem x).pending = s.pending := rfl
@[simp] theorem withMem_free (s : State) (x : Mem) : (s.withMem x).free = s.free := rfl
@[simp] theorem withMem_wall (s : State) (x : Mem) : (s.withMem x).wall = s.wall := rfl
@[simp] theorem withMem_time (s : State) (x : Mem) : (s.withMem x).time = s.time := rfl
@[simp] theorem withMem_dict (s : State) (x : Mem) : (s.withMem x).dict = s.dict := rfl
@[simp] theorem withMem_undo (s : State) (x : Mem) : (s.withMem x).undo = s.undo := rfl
@[simp] theorem withMem_groups (s : State) (x : Mem) : (s.withMem x).groups = s.groups := rfl
@[simp] theorem withMem_due (s : State) (x : Mem) : (s.withMem x).due = s.due := rfl
@[simp] theorem withMem_result (s : State) (x : Mem) : (s.withMem x).result = s.result := rfl
@[simp] theorem withMem_outbox (s : State) (x : Mem) : (s.withMem x).outbox = s.outbox := rfl
@[simp] theorem withMem_mem (s : State) (x : Mem) : (s.withMem x).mem = x := rfl
@[simp] theorem withMem_pcie (s : State) (x : Mem) : (s.withMem x).pcie = s.pcie := rfl
@[simp] theorem withMem_pev (s : State) (x : Mem) : (s.withMem x).pev = s.pev := rfl
@[simp] theorem withMem_ks (s : State) (x : Mem) : (s.withMem x).ks = s.ks := rfl
@[simp] theorem withMem_lo (s : State) (x : Mem) : (s.withMem x).lo = s.lo := rfl
@[simp] theorem withMem_cond (s : State) (x : Mem) : (s.withMem x).cond = s.cond := rfl
@[simp] theorem withMem_ing (s : State) (x : Mem) : (s.withMem x).ing = s.ing := rfl
@[simp] theorem withMem_ring (s : State) (x : Mem) : (s.withMem x).ring = s.ring := rfl
@[simp] theorem withMem_trig (s : State) (x : Mem) : (s.withMem x).trig = s.trig := rfl
@[simp] theorem withMem_fes (s : State) (x : Mem) : (s.withMem x).fes = s.fes := rfl
@[simp] theorem withMem_cal (s : State) (x : Mem) : (s.withMem x).cal = s.cal := rfl
@[simp] theorem withMem_acq (s : State) (x : Mem) : (s.withMem x).acq = s.acq := rfl
@[simp] theorem withMem_span (s : State) (x : Mem) : (s.withMem x).span = s.span := rfl
@[simp] theorem withMem_hrs (s : State) (x : Mem) : (s.withMem x).hrs = s.hrs := rfl
@[simp] theorem withMem_net (s : State) (x : Mem) : (s.withMem x).net = s.net := rfl
@[simp] theorem withMem_views (s : State) (x : Mem) : (s.withMem x).views = s.views := rfl
@[simp] theorem withMem_girders (s : State) (x : Mem) : (s.withMem x).girders = s.girders := rfl
@[simp] theorem withMem_toll (s : State) (x : Mem) : (s.withMem x).toll = s.toll := rfl
@[simp] theorem withMem_prods (s : State) (x : Mem) : (s.withMem x).prods = s.prods := rfl
@[simp] theorem withMem_masks (s : State) (x : Mem) : (s.withMem x).masks = s.masks := rfl
@[simp] theorem withMem_movers (s : State) (x : Mem) : (s.withMem x).movers = s.movers := rfl
@[simp] theorem withMem_cores (s : State) (x : Mem) : (s.withMem x).cores = s.cores := rfl
@[simp] theorem withMem_recd (s : State) (x : Mem) : (s.withMem x).recd = s.recd := rfl
@[simp] theorem withMem_heads (s : State) (x : Mem) : (s.withMem x).heads = s.heads := rfl
@[simp] theorem withMem_mon (s : State) (x : Mem) : (s.withMem x).mon = s.mon := rfl
@[simp] theorem withMem_sec (s : State) (x : Mem) : (s.withMem x).sec = s.sec := rfl
@[simp] theorem withMem_start (s : State) (x : Mem) : (s.withMem x).start = s.start := rfl
@[simp] theorem withMem_pel (s : State) (x : Mem) : (s.withMem x).pel = s.pel := rfl
@[simp] theorem withPcie_pending (s : State) (x : Pcie) : (s.withPcie x).pending = s.pending := rfl
@[simp] theorem withPcie_free (s : State) (x : Pcie) : (s.withPcie x).free = s.free := rfl
@[simp] theorem withPcie_wall (s : State) (x : Pcie) : (s.withPcie x).wall = s.wall := rfl
@[simp] theorem withPcie_time (s : State) (x : Pcie) : (s.withPcie x).time = s.time := rfl
@[simp] theorem withPcie_dict (s : State) (x : Pcie) : (s.withPcie x).dict = s.dict := rfl
@[simp] theorem withPcie_undo (s : State) (x : Pcie) : (s.withPcie x).undo = s.undo := rfl
@[simp] theorem withPcie_groups (s : State) (x : Pcie) : (s.withPcie x).groups = s.groups := rfl
@[simp] theorem withPcie_due (s : State) (x : Pcie) : (s.withPcie x).due = s.due := rfl
@[simp] theorem withPcie_result (s : State) (x : Pcie) : (s.withPcie x).result = s.result := rfl
@[simp] theorem withPcie_outbox (s : State) (x : Pcie) : (s.withPcie x).outbox = s.outbox := rfl
@[simp] theorem withPcie_mem (s : State) (x : Pcie) : (s.withPcie x).mem = s.mem := rfl
@[simp] theorem withPcie_pcie (s : State) (x : Pcie) : (s.withPcie x).pcie = x := rfl
@[simp] theorem withPcie_pev (s : State) (x : Pcie) : (s.withPcie x).pev = s.pev := rfl
@[simp] theorem withPcie_ks (s : State) (x : Pcie) : (s.withPcie x).ks = s.ks := rfl
@[simp] theorem withPcie_lo (s : State) (x : Pcie) : (s.withPcie x).lo = s.lo := rfl
@[simp] theorem withPcie_cond (s : State) (x : Pcie) : (s.withPcie x).cond = s.cond := rfl
@[simp] theorem withPcie_ing (s : State) (x : Pcie) : (s.withPcie x).ing = s.ing := rfl
@[simp] theorem withPcie_ring (s : State) (x : Pcie) : (s.withPcie x).ring = s.ring := rfl
@[simp] theorem withPcie_trig (s : State) (x : Pcie) : (s.withPcie x).trig = s.trig := rfl
@[simp] theorem withPcie_fes (s : State) (x : Pcie) : (s.withPcie x).fes = s.fes := rfl
@[simp] theorem withPcie_cal (s : State) (x : Pcie) : (s.withPcie x).cal = s.cal := rfl
@[simp] theorem withPcie_acq (s : State) (x : Pcie) : (s.withPcie x).acq = s.acq := rfl
@[simp] theorem withPcie_span (s : State) (x : Pcie) : (s.withPcie x).span = s.span := rfl
@[simp] theorem withPcie_hrs (s : State) (x : Pcie) : (s.withPcie x).hrs = s.hrs := rfl
@[simp] theorem withPcie_net (s : State) (x : Pcie) : (s.withPcie x).net = s.net := rfl
@[simp] theorem withPcie_views (s : State) (x : Pcie) : (s.withPcie x).views = s.views := rfl
@[simp] theorem withPcie_girders (s : State) (x : Pcie) : (s.withPcie x).girders = s.girders := rfl
@[simp] theorem withPcie_toll (s : State) (x : Pcie) : (s.withPcie x).toll = s.toll := rfl
@[simp] theorem withPcie_prods (s : State) (x : Pcie) : (s.withPcie x).prods = s.prods := rfl
@[simp] theorem withPcie_masks (s : State) (x : Pcie) : (s.withPcie x).masks = s.masks := rfl
@[simp] theorem withPcie_movers (s : State) (x : Pcie) : (s.withPcie x).movers = s.movers := rfl
@[simp] theorem withPcie_cores (s : State) (x : Pcie) : (s.withPcie x).cores = s.cores := rfl
@[simp] theorem withPcie_recd (s : State) (x : Pcie) : (s.withPcie x).recd = s.recd := rfl
@[simp] theorem withPcie_heads (s : State) (x : Pcie) : (s.withPcie x).heads = s.heads := rfl
@[simp] theorem withPcie_mon (s : State) (x : Pcie) : (s.withPcie x).mon = s.mon := rfl
@[simp] theorem withPcie_sec (s : State) (x : Pcie) : (s.withPcie x).sec = s.sec := rfl
@[simp] theorem withPcie_start (s : State) (x : Pcie) : (s.withPcie x).start = s.start := rfl
@[simp] theorem withPcie_pel (s : State) (x : Pcie) : (s.withPcie x).pel = s.pel := rfl
@[simp] theorem withPev_pending (s : State) (x : PcieEvents) : (s.withPev x).pending = s.pending := rfl
@[simp] theorem withPev_free (s : State) (x : PcieEvents) : (s.withPev x).free = s.free := rfl
@[simp] theorem withPev_wall (s : State) (x : PcieEvents) : (s.withPev x).wall = s.wall := rfl
@[simp] theorem withPev_time (s : State) (x : PcieEvents) : (s.withPev x).time = s.time := rfl
@[simp] theorem withPev_dict (s : State) (x : PcieEvents) : (s.withPev x).dict = s.dict := rfl
@[simp] theorem withPev_undo (s : State) (x : PcieEvents) : (s.withPev x).undo = s.undo := rfl
@[simp] theorem withPev_groups (s : State) (x : PcieEvents) : (s.withPev x).groups = s.groups := rfl
@[simp] theorem withPev_due (s : State) (x : PcieEvents) : (s.withPev x).due = s.due := rfl
@[simp] theorem withPev_result (s : State) (x : PcieEvents) : (s.withPev x).result = s.result := rfl
@[simp] theorem withPev_outbox (s : State) (x : PcieEvents) : (s.withPev x).outbox = s.outbox := rfl
@[simp] theorem withPev_mem (s : State) (x : PcieEvents) : (s.withPev x).mem = s.mem := rfl
@[simp] theorem withPev_pcie (s : State) (x : PcieEvents) : (s.withPev x).pcie = s.pcie := rfl
@[simp] theorem withPev_pev (s : State) (x : PcieEvents) : (s.withPev x).pev = x := rfl
@[simp] theorem withPev_ks (s : State) (x : PcieEvents) : (s.withPev x).ks = s.ks := rfl
@[simp] theorem withPev_lo (s : State) (x : PcieEvents) : (s.withPev x).lo = s.lo := rfl
@[simp] theorem withPev_cond (s : State) (x : PcieEvents) : (s.withPev x).cond = s.cond := rfl
@[simp] theorem withPev_ing (s : State) (x : PcieEvents) : (s.withPev x).ing = s.ing := rfl
@[simp] theorem withPev_ring (s : State) (x : PcieEvents) : (s.withPev x).ring = s.ring := rfl
@[simp] theorem withPev_trig (s : State) (x : PcieEvents) : (s.withPev x).trig = s.trig := rfl
@[simp] theorem withPev_fes (s : State) (x : PcieEvents) : (s.withPev x).fes = s.fes := rfl
@[simp] theorem withPev_cal (s : State) (x : PcieEvents) : (s.withPev x).cal = s.cal := rfl
@[simp] theorem withPev_acq (s : State) (x : PcieEvents) : (s.withPev x).acq = s.acq := rfl
@[simp] theorem withPev_span (s : State) (x : PcieEvents) : (s.withPev x).span = s.span := rfl
@[simp] theorem withPev_hrs (s : State) (x : PcieEvents) : (s.withPev x).hrs = s.hrs := rfl
@[simp] theorem withPev_net (s : State) (x : PcieEvents) : (s.withPev x).net = s.net := rfl
@[simp] theorem withPev_views (s : State) (x : PcieEvents) : (s.withPev x).views = s.views := rfl
@[simp] theorem withPev_girders (s : State) (x : PcieEvents) : (s.withPev x).girders = s.girders := rfl
@[simp] theorem withPev_toll (s : State) (x : PcieEvents) : (s.withPev x).toll = s.toll := rfl
@[simp] theorem withPev_prods (s : State) (x : PcieEvents) : (s.withPev x).prods = s.prods := rfl
@[simp] theorem withPev_masks (s : State) (x : PcieEvents) : (s.withPev x).masks = s.masks := rfl
@[simp] theorem withPev_movers (s : State) (x : PcieEvents) : (s.withPev x).movers = s.movers := rfl
@[simp] theorem withPev_cores (s : State) (x : PcieEvents) : (s.withPev x).cores = s.cores := rfl
@[simp] theorem withPev_recd (s : State) (x : PcieEvents) : (s.withPev x).recd = s.recd := rfl
@[simp] theorem withPev_heads (s : State) (x : PcieEvents) : (s.withPev x).heads = s.heads := rfl
@[simp] theorem withPev_mon (s : State) (x : PcieEvents) : (s.withPev x).mon = s.mon := rfl
@[simp] theorem withPev_sec (s : State) (x : PcieEvents) : (s.withPev x).sec = s.sec := rfl
@[simp] theorem withPev_start (s : State) (x : PcieEvents) : (s.withPev x).start = s.start := rfl
@[simp] theorem withPev_pel (s : State) (x : PcieEvents) : (s.withPev x).pel = s.pel := rfl
@[simp] theorem withKs_pending (s : State) (x : Ks) : (s.withKs x).pending = s.pending := rfl
@[simp] theorem withKs_free (s : State) (x : Ks) : (s.withKs x).free = s.free := rfl
@[simp] theorem withKs_wall (s : State) (x : Ks) : (s.withKs x).wall = s.wall := rfl
@[simp] theorem withKs_time (s : State) (x : Ks) : (s.withKs x).time = s.time := rfl
@[simp] theorem withKs_dict (s : State) (x : Ks) : (s.withKs x).dict = s.dict := rfl
@[simp] theorem withKs_undo (s : State) (x : Ks) : (s.withKs x).undo = s.undo := rfl
@[simp] theorem withKs_groups (s : State) (x : Ks) : (s.withKs x).groups = s.groups := rfl
@[simp] theorem withKs_due (s : State) (x : Ks) : (s.withKs x).due = s.due := rfl
@[simp] theorem withKs_result (s : State) (x : Ks) : (s.withKs x).result = s.result := rfl
@[simp] theorem withKs_outbox (s : State) (x : Ks) : (s.withKs x).outbox = s.outbox := rfl
@[simp] theorem withKs_mem (s : State) (x : Ks) : (s.withKs x).mem = s.mem := rfl
@[simp] theorem withKs_pcie (s : State) (x : Ks) : (s.withKs x).pcie = s.pcie := rfl
@[simp] theorem withKs_pev (s : State) (x : Ks) : (s.withKs x).pev = s.pev := rfl
@[simp] theorem withKs_ks (s : State) (x : Ks) : (s.withKs x).ks = x := rfl
@[simp] theorem withKs_lo (s : State) (x : Ks) : (s.withKs x).lo = s.lo := rfl
@[simp] theorem withKs_cond (s : State) (x : Ks) : (s.withKs x).cond = s.cond := rfl
@[simp] theorem withKs_ing (s : State) (x : Ks) : (s.withKs x).ing = s.ing := rfl
@[simp] theorem withKs_ring (s : State) (x : Ks) : (s.withKs x).ring = s.ring := rfl
@[simp] theorem withKs_trig (s : State) (x : Ks) : (s.withKs x).trig = s.trig := rfl
@[simp] theorem withKs_fes (s : State) (x : Ks) : (s.withKs x).fes = s.fes := rfl
@[simp] theorem withKs_cal (s : State) (x : Ks) : (s.withKs x).cal = s.cal := rfl
@[simp] theorem withKs_acq (s : State) (x : Ks) : (s.withKs x).acq = s.acq := rfl
@[simp] theorem withKs_span (s : State) (x : Ks) : (s.withKs x).span = s.span := rfl
@[simp] theorem withKs_hrs (s : State) (x : Ks) : (s.withKs x).hrs = s.hrs := rfl
@[simp] theorem withKs_net (s : State) (x : Ks) : (s.withKs x).net = s.net := rfl
@[simp] theorem withKs_views (s : State) (x : Ks) : (s.withKs x).views = s.views := rfl
@[simp] theorem withKs_girders (s : State) (x : Ks) : (s.withKs x).girders = s.girders := rfl
@[simp] theorem withKs_toll (s : State) (x : Ks) : (s.withKs x).toll = s.toll := rfl
@[simp] theorem withKs_prods (s : State) (x : Ks) : (s.withKs x).prods = s.prods := rfl
@[simp] theorem withKs_masks (s : State) (x : Ks) : (s.withKs x).masks = s.masks := rfl
@[simp] theorem withKs_movers (s : State) (x : Ks) : (s.withKs x).movers = s.movers := rfl
@[simp] theorem withKs_cores (s : State) (x : Ks) : (s.withKs x).cores = s.cores := rfl
@[simp] theorem withKs_recd (s : State) (x : Ks) : (s.withKs x).recd = s.recd := rfl
@[simp] theorem withKs_heads (s : State) (x : Ks) : (s.withKs x).heads = s.heads := rfl
@[simp] theorem withKs_mon (s : State) (x : Ks) : (s.withKs x).mon = s.mon := rfl
@[simp] theorem withKs_sec (s : State) (x : Ks) : (s.withKs x).sec = s.sec := rfl
@[simp] theorem withKs_start (s : State) (x : Ks) : (s.withKs x).start = s.start := rfl
@[simp] theorem withKs_pel (s : State) (x : Ks) : (s.withKs x).pel = s.pel := rfl
@[simp] theorem withLo_pending (s : State) (x : Lo) : (s.withLo x).pending = s.pending := rfl
@[simp] theorem withLo_free (s : State) (x : Lo) : (s.withLo x).free = s.free := rfl
@[simp] theorem withLo_wall (s : State) (x : Lo) : (s.withLo x).wall = s.wall := rfl
@[simp] theorem withLo_time (s : State) (x : Lo) : (s.withLo x).time = s.time := rfl
@[simp] theorem withLo_dict (s : State) (x : Lo) : (s.withLo x).dict = s.dict := rfl
@[simp] theorem withLo_undo (s : State) (x : Lo) : (s.withLo x).undo = s.undo := rfl
@[simp] theorem withLo_groups (s : State) (x : Lo) : (s.withLo x).groups = s.groups := rfl
@[simp] theorem withLo_due (s : State) (x : Lo) : (s.withLo x).due = s.due := rfl
@[simp] theorem withLo_result (s : State) (x : Lo) : (s.withLo x).result = s.result := rfl
@[simp] theorem withLo_outbox (s : State) (x : Lo) : (s.withLo x).outbox = s.outbox := rfl
@[simp] theorem withLo_mem (s : State) (x : Lo) : (s.withLo x).mem = s.mem := rfl
@[simp] theorem withLo_pcie (s : State) (x : Lo) : (s.withLo x).pcie = s.pcie := rfl
@[simp] theorem withLo_pev (s : State) (x : Lo) : (s.withLo x).pev = s.pev := rfl
@[simp] theorem withLo_ks (s : State) (x : Lo) : (s.withLo x).ks = s.ks := rfl
@[simp] theorem withLo_lo (s : State) (x : Lo) : (s.withLo x).lo = x := rfl
@[simp] theorem withLo_cond (s : State) (x : Lo) : (s.withLo x).cond = s.cond := rfl
@[simp] theorem withLo_ing (s : State) (x : Lo) : (s.withLo x).ing = s.ing := rfl
@[simp] theorem withLo_ring (s : State) (x : Lo) : (s.withLo x).ring = s.ring := rfl
@[simp] theorem withLo_trig (s : State) (x : Lo) : (s.withLo x).trig = s.trig := rfl
@[simp] theorem withLo_fes (s : State) (x : Lo) : (s.withLo x).fes = s.fes := rfl
@[simp] theorem withLo_cal (s : State) (x : Lo) : (s.withLo x).cal = s.cal := rfl
@[simp] theorem withLo_acq (s : State) (x : Lo) : (s.withLo x).acq = s.acq := rfl
@[simp] theorem withLo_span (s : State) (x : Lo) : (s.withLo x).span = s.span := rfl
@[simp] theorem withLo_hrs (s : State) (x : Lo) : (s.withLo x).hrs = s.hrs := rfl
@[simp] theorem withLo_net (s : State) (x : Lo) : (s.withLo x).net = s.net := rfl
@[simp] theorem withLo_views (s : State) (x : Lo) : (s.withLo x).views = s.views := rfl
@[simp] theorem withLo_girders (s : State) (x : Lo) : (s.withLo x).girders = s.girders := rfl
@[simp] theorem withLo_toll (s : State) (x : Lo) : (s.withLo x).toll = s.toll := rfl
@[simp] theorem withLo_prods (s : State) (x : Lo) : (s.withLo x).prods = s.prods := rfl
@[simp] theorem withLo_masks (s : State) (x : Lo) : (s.withLo x).masks = s.masks := rfl
@[simp] theorem withLo_movers (s : State) (x : Lo) : (s.withLo x).movers = s.movers := rfl
@[simp] theorem withLo_cores (s : State) (x : Lo) : (s.withLo x).cores = s.cores := rfl
@[simp] theorem withLo_recd (s : State) (x : Lo) : (s.withLo x).recd = s.recd := rfl
@[simp] theorem withLo_heads (s : State) (x : Lo) : (s.withLo x).heads = s.heads := rfl
@[simp] theorem withLo_mon (s : State) (x : Lo) : (s.withLo x).mon = s.mon := rfl
@[simp] theorem withLo_sec (s : State) (x : Lo) : (s.withLo x).sec = s.sec := rfl
@[simp] theorem withLo_start (s : State) (x : Lo) : (s.withLo x).start = s.start := rfl
@[simp] theorem withLo_pel (s : State) (x : Lo) : (s.withLo x).pel = s.pel := rfl
@[simp] theorem withCond_pending (s : State) (x : Conditions) : (s.withCond x).pending = s.pending := rfl
@[simp] theorem withCond_free (s : State) (x : Conditions) : (s.withCond x).free = s.free := rfl
@[simp] theorem withCond_wall (s : State) (x : Conditions) : (s.withCond x).wall = s.wall := rfl
@[simp] theorem withCond_time (s : State) (x : Conditions) : (s.withCond x).time = s.time := rfl
@[simp] theorem withCond_dict (s : State) (x : Conditions) : (s.withCond x).dict = s.dict := rfl
@[simp] theorem withCond_undo (s : State) (x : Conditions) : (s.withCond x).undo = s.undo := rfl
@[simp] theorem withCond_groups (s : State) (x : Conditions) : (s.withCond x).groups = s.groups := rfl
@[simp] theorem withCond_due (s : State) (x : Conditions) : (s.withCond x).due = s.due := rfl
@[simp] theorem withCond_result (s : State) (x : Conditions) : (s.withCond x).result = s.result := rfl
@[simp] theorem withCond_outbox (s : State) (x : Conditions) : (s.withCond x).outbox = s.outbox := rfl
@[simp] theorem withCond_mem (s : State) (x : Conditions) : (s.withCond x).mem = s.mem := rfl
@[simp] theorem withCond_pcie (s : State) (x : Conditions) : (s.withCond x).pcie = s.pcie := rfl
@[simp] theorem withCond_pev (s : State) (x : Conditions) : (s.withCond x).pev = s.pev := rfl
@[simp] theorem withCond_ks (s : State) (x : Conditions) : (s.withCond x).ks = s.ks := rfl
@[simp] theorem withCond_lo (s : State) (x : Conditions) : (s.withCond x).lo = s.lo := rfl
@[simp] theorem withCond_cond (s : State) (x : Conditions) : (s.withCond x).cond = x := rfl
@[simp] theorem withCond_ing (s : State) (x : Conditions) : (s.withCond x).ing = s.ing := rfl
@[simp] theorem withCond_ring (s : State) (x : Conditions) : (s.withCond x).ring = s.ring := rfl
@[simp] theorem withCond_trig (s : State) (x : Conditions) : (s.withCond x).trig = s.trig := rfl
@[simp] theorem withCond_fes (s : State) (x : Conditions) : (s.withCond x).fes = s.fes := rfl
@[simp] theorem withCond_cal (s : State) (x : Conditions) : (s.withCond x).cal = s.cal := rfl
@[simp] theorem withCond_acq (s : State) (x : Conditions) : (s.withCond x).acq = s.acq := rfl
@[simp] theorem withCond_span (s : State) (x : Conditions) : (s.withCond x).span = s.span := rfl
@[simp] theorem withCond_hrs (s : State) (x : Conditions) : (s.withCond x).hrs = s.hrs := rfl
@[simp] theorem withCond_net (s : State) (x : Conditions) : (s.withCond x).net = s.net := rfl
@[simp] theorem withCond_views (s : State) (x : Conditions) : (s.withCond x).views = s.views := rfl
@[simp] theorem withCond_girders (s : State) (x : Conditions) : (s.withCond x).girders = s.girders := rfl
@[simp] theorem withCond_toll (s : State) (x : Conditions) : (s.withCond x).toll = s.toll := rfl
@[simp] theorem withCond_prods (s : State) (x : Conditions) : (s.withCond x).prods = s.prods := rfl
@[simp] theorem withCond_masks (s : State) (x : Conditions) : (s.withCond x).masks = s.masks := rfl
@[simp] theorem withCond_movers (s : State) (x : Conditions) : (s.withCond x).movers = s.movers := rfl
@[simp] theorem withCond_cores (s : State) (x : Conditions) : (s.withCond x).cores = s.cores := rfl
@[simp] theorem withCond_recd (s : State) (x : Conditions) : (s.withCond x).recd = s.recd := rfl
@[simp] theorem withCond_heads (s : State) (x : Conditions) : (s.withCond x).heads = s.heads := rfl
@[simp] theorem withCond_mon (s : State) (x : Conditions) : (s.withCond x).mon = s.mon := rfl
@[simp] theorem withCond_sec (s : State) (x : Conditions) : (s.withCond x).sec = s.sec := rfl
@[simp] theorem withCond_start (s : State) (x : Conditions) : (s.withCond x).start = s.start := rfl
@[simp] theorem withCond_pel (s : State) (x : Conditions) : (s.withCond x).pel = s.pel := rfl
@[simp] theorem withIng_pending (s : State) (x : Ingest) : (s.withIng x).pending = s.pending := rfl
@[simp] theorem withIng_free (s : State) (x : Ingest) : (s.withIng x).free = s.free := rfl
@[simp] theorem withIng_wall (s : State) (x : Ingest) : (s.withIng x).wall = s.wall := rfl
@[simp] theorem withIng_time (s : State) (x : Ingest) : (s.withIng x).time = s.time := rfl
@[simp] theorem withIng_dict (s : State) (x : Ingest) : (s.withIng x).dict = s.dict := rfl
@[simp] theorem withIng_undo (s : State) (x : Ingest) : (s.withIng x).undo = s.undo := rfl
@[simp] theorem withIng_groups (s : State) (x : Ingest) : (s.withIng x).groups = s.groups := rfl
@[simp] theorem withIng_due (s : State) (x : Ingest) : (s.withIng x).due = s.due := rfl
@[simp] theorem withIng_result (s : State) (x : Ingest) : (s.withIng x).result = s.result := rfl
@[simp] theorem withIng_outbox (s : State) (x : Ingest) : (s.withIng x).outbox = s.outbox := rfl
@[simp] theorem withIng_mem (s : State) (x : Ingest) : (s.withIng x).mem = s.mem := rfl
@[simp] theorem withIng_pcie (s : State) (x : Ingest) : (s.withIng x).pcie = s.pcie := rfl
@[simp] theorem withIng_pev (s : State) (x : Ingest) : (s.withIng x).pev = s.pev := rfl
@[simp] theorem withIng_ks (s : State) (x : Ingest) : (s.withIng x).ks = s.ks := rfl
@[simp] theorem withIng_lo (s : State) (x : Ingest) : (s.withIng x).lo = s.lo := rfl
@[simp] theorem withIng_cond (s : State) (x : Ingest) : (s.withIng x).cond = s.cond := rfl
@[simp] theorem withIng_ing (s : State) (x : Ingest) : (s.withIng x).ing = x := rfl
@[simp] theorem withIng_ring (s : State) (x : Ingest) : (s.withIng x).ring = s.ring := rfl
@[simp] theorem withIng_trig (s : State) (x : Ingest) : (s.withIng x).trig = s.trig := rfl
@[simp] theorem withIng_fes (s : State) (x : Ingest) : (s.withIng x).fes = s.fes := rfl
@[simp] theorem withIng_cal (s : State) (x : Ingest) : (s.withIng x).cal = s.cal := rfl
@[simp] theorem withIng_acq (s : State) (x : Ingest) : (s.withIng x).acq = s.acq := rfl
@[simp] theorem withIng_span (s : State) (x : Ingest) : (s.withIng x).span = s.span := rfl
@[simp] theorem withIng_hrs (s : State) (x : Ingest) : (s.withIng x).hrs = s.hrs := rfl
@[simp] theorem withIng_net (s : State) (x : Ingest) : (s.withIng x).net = s.net := rfl
@[simp] theorem withIng_views (s : State) (x : Ingest) : (s.withIng x).views = s.views := rfl
@[simp] theorem withIng_girders (s : State) (x : Ingest) : (s.withIng x).girders = s.girders := rfl
@[simp] theorem withIng_toll (s : State) (x : Ingest) : (s.withIng x).toll = s.toll := rfl
@[simp] theorem withIng_prods (s : State) (x : Ingest) : (s.withIng x).prods = s.prods := rfl
@[simp] theorem withIng_masks (s : State) (x : Ingest) : (s.withIng x).masks = s.masks := rfl
@[simp] theorem withIng_movers (s : State) (x : Ingest) : (s.withIng x).movers = s.movers := rfl
@[simp] theorem withIng_cores (s : State) (x : Ingest) : (s.withIng x).cores = s.cores := rfl
@[simp] theorem withIng_recd (s : State) (x : Ingest) : (s.withIng x).recd = s.recd := rfl
@[simp] theorem withIng_heads (s : State) (x : Ingest) : (s.withIng x).heads = s.heads := rfl
@[simp] theorem withIng_mon (s : State) (x : Ingest) : (s.withIng x).mon = s.mon := rfl
@[simp] theorem withIng_sec (s : State) (x : Ingest) : (s.withIng x).sec = s.sec := rfl
@[simp] theorem withIng_start (s : State) (x : Ingest) : (s.withIng x).start = s.start := rfl
@[simp] theorem withIng_pel (s : State) (x : Ingest) : (s.withIng x).pel = s.pel := rfl
@[simp] theorem withRing_pending (s : State) (x : Ring) : (s.withRing x).pending = s.pending := rfl
@[simp] theorem withRing_free (s : State) (x : Ring) : (s.withRing x).free = s.free := rfl
@[simp] theorem withRing_wall (s : State) (x : Ring) : (s.withRing x).wall = s.wall := rfl
@[simp] theorem withRing_time (s : State) (x : Ring) : (s.withRing x).time = s.time := rfl
@[simp] theorem withRing_dict (s : State) (x : Ring) : (s.withRing x).dict = s.dict := rfl
@[simp] theorem withRing_undo (s : State) (x : Ring) : (s.withRing x).undo = s.undo := rfl
@[simp] theorem withRing_groups (s : State) (x : Ring) : (s.withRing x).groups = s.groups := rfl
@[simp] theorem withRing_due (s : State) (x : Ring) : (s.withRing x).due = s.due := rfl
@[simp] theorem withRing_result (s : State) (x : Ring) : (s.withRing x).result = s.result := rfl
@[simp] theorem withRing_outbox (s : State) (x : Ring) : (s.withRing x).outbox = s.outbox := rfl
@[simp] theorem withRing_mem (s : State) (x : Ring) : (s.withRing x).mem = s.mem := rfl
@[simp] theorem withRing_pcie (s : State) (x : Ring) : (s.withRing x).pcie = s.pcie := rfl
@[simp] theorem withRing_pev (s : State) (x : Ring) : (s.withRing x).pev = s.pev := rfl
@[simp] theorem withRing_ks (s : State) (x : Ring) : (s.withRing x).ks = s.ks := rfl
@[simp] theorem withRing_lo (s : State) (x : Ring) : (s.withRing x).lo = s.lo := rfl
@[simp] theorem withRing_cond (s : State) (x : Ring) : (s.withRing x).cond = s.cond := rfl
@[simp] theorem withRing_ing (s : State) (x : Ring) : (s.withRing x).ing = s.ing := rfl
@[simp] theorem withRing_ring (s : State) (x : Ring) : (s.withRing x).ring = x := rfl
@[simp] theorem withRing_trig (s : State) (x : Ring) : (s.withRing x).trig = s.trig := rfl
@[simp] theorem withRing_fes (s : State) (x : Ring) : (s.withRing x).fes = s.fes := rfl
@[simp] theorem withRing_cal (s : State) (x : Ring) : (s.withRing x).cal = s.cal := rfl
@[simp] theorem withRing_acq (s : State) (x : Ring) : (s.withRing x).acq = s.acq := rfl
@[simp] theorem withRing_span (s : State) (x : Ring) : (s.withRing x).span = s.span := rfl
@[simp] theorem withRing_hrs (s : State) (x : Ring) : (s.withRing x).hrs = s.hrs := rfl
@[simp] theorem withRing_net (s : State) (x : Ring) : (s.withRing x).net = s.net := rfl
@[simp] theorem withRing_views (s : State) (x : Ring) : (s.withRing x).views = s.views := rfl
@[simp] theorem withRing_girders (s : State) (x : Ring) : (s.withRing x).girders = s.girders := rfl
@[simp] theorem withRing_toll (s : State) (x : Ring) : (s.withRing x).toll = s.toll := rfl
@[simp] theorem withRing_prods (s : State) (x : Ring) : (s.withRing x).prods = s.prods := rfl
@[simp] theorem withRing_masks (s : State) (x : Ring) : (s.withRing x).masks = s.masks := rfl
@[simp] theorem withRing_movers (s : State) (x : Ring) : (s.withRing x).movers = s.movers := rfl
@[simp] theorem withRing_cores (s : State) (x : Ring) : (s.withRing x).cores = s.cores := rfl
@[simp] theorem withRing_recd (s : State) (x : Ring) : (s.withRing x).recd = s.recd := rfl
@[simp] theorem withRing_heads (s : State) (x : Ring) : (s.withRing x).heads = s.heads := rfl
@[simp] theorem withRing_mon (s : State) (x : Ring) : (s.withRing x).mon = s.mon := rfl
@[simp] theorem withRing_sec (s : State) (x : Ring) : (s.withRing x).sec = s.sec := rfl
@[simp] theorem withRing_start (s : State) (x : Ring) : (s.withRing x).start = s.start := rfl
@[simp] theorem withRing_pel (s : State) (x : Ring) : (s.withRing x).pel = s.pel := rfl
@[simp] theorem withTrig_pending (s : State) (x : Trig) : (s.withTrig x).pending = s.pending := rfl
@[simp] theorem withTrig_free (s : State) (x : Trig) : (s.withTrig x).free = s.free := rfl
@[simp] theorem withTrig_wall (s : State) (x : Trig) : (s.withTrig x).wall = s.wall := rfl
@[simp] theorem withTrig_time (s : State) (x : Trig) : (s.withTrig x).time = s.time := rfl
@[simp] theorem withTrig_dict (s : State) (x : Trig) : (s.withTrig x).dict = s.dict := rfl
@[simp] theorem withTrig_undo (s : State) (x : Trig) : (s.withTrig x).undo = s.undo := rfl
@[simp] theorem withTrig_groups (s : State) (x : Trig) : (s.withTrig x).groups = s.groups := rfl
@[simp] theorem withTrig_due (s : State) (x : Trig) : (s.withTrig x).due = s.due := rfl
@[simp] theorem withTrig_result (s : State) (x : Trig) : (s.withTrig x).result = s.result := rfl
@[simp] theorem withTrig_outbox (s : State) (x : Trig) : (s.withTrig x).outbox = s.outbox := rfl
@[simp] theorem withTrig_mem (s : State) (x : Trig) : (s.withTrig x).mem = s.mem := rfl
@[simp] theorem withTrig_pcie (s : State) (x : Trig) : (s.withTrig x).pcie = s.pcie := rfl
@[simp] theorem withTrig_pev (s : State) (x : Trig) : (s.withTrig x).pev = s.pev := rfl
@[simp] theorem withTrig_ks (s : State) (x : Trig) : (s.withTrig x).ks = s.ks := rfl
@[simp] theorem withTrig_lo (s : State) (x : Trig) : (s.withTrig x).lo = s.lo := rfl
@[simp] theorem withTrig_cond (s : State) (x : Trig) : (s.withTrig x).cond = s.cond := rfl
@[simp] theorem withTrig_ing (s : State) (x : Trig) : (s.withTrig x).ing = s.ing := rfl
@[simp] theorem withTrig_ring (s : State) (x : Trig) : (s.withTrig x).ring = s.ring := rfl
@[simp] theorem withTrig_trig (s : State) (x : Trig) : (s.withTrig x).trig = x := rfl
@[simp] theorem withTrig_fes (s : State) (x : Trig) : (s.withTrig x).fes = s.fes := rfl
@[simp] theorem withTrig_cal (s : State) (x : Trig) : (s.withTrig x).cal = s.cal := rfl
@[simp] theorem withTrig_acq (s : State) (x : Trig) : (s.withTrig x).acq = s.acq := rfl
@[simp] theorem withTrig_span (s : State) (x : Trig) : (s.withTrig x).span = s.span := rfl
@[simp] theorem withTrig_hrs (s : State) (x : Trig) : (s.withTrig x).hrs = s.hrs := rfl
@[simp] theorem withTrig_net (s : State) (x : Trig) : (s.withTrig x).net = s.net := rfl
@[simp] theorem withTrig_views (s : State) (x : Trig) : (s.withTrig x).views = s.views := rfl
@[simp] theorem withTrig_girders (s : State) (x : Trig) : (s.withTrig x).girders = s.girders := rfl
@[simp] theorem withTrig_toll (s : State) (x : Trig) : (s.withTrig x).toll = s.toll := rfl
@[simp] theorem withTrig_prods (s : State) (x : Trig) : (s.withTrig x).prods = s.prods := rfl
@[simp] theorem withTrig_masks (s : State) (x : Trig) : (s.withTrig x).masks = s.masks := rfl
@[simp] theorem withTrig_movers (s : State) (x : Trig) : (s.withTrig x).movers = s.movers := rfl
@[simp] theorem withTrig_cores (s : State) (x : Trig) : (s.withTrig x).cores = s.cores := rfl
@[simp] theorem withTrig_recd (s : State) (x : Trig) : (s.withTrig x).recd = s.recd := rfl
@[simp] theorem withTrig_heads (s : State) (x : Trig) : (s.withTrig x).heads = s.heads := rfl
@[simp] theorem withTrig_mon (s : State) (x : Trig) : (s.withTrig x).mon = s.mon := rfl
@[simp] theorem withTrig_sec (s : State) (x : Trig) : (s.withTrig x).sec = s.sec := rfl
@[simp] theorem withTrig_start (s : State) (x : Trig) : (s.withTrig x).start = s.start := rfl
@[simp] theorem withTrig_pel (s : State) (x : Trig) : (s.withTrig x).pel = s.pel := rfl
@[simp] theorem withFes_pending (s : State) (x : FrontEnds) : (s.withFes x).pending = s.pending := rfl
@[simp] theorem withFes_free (s : State) (x : FrontEnds) : (s.withFes x).free = s.free := rfl
@[simp] theorem withFes_wall (s : State) (x : FrontEnds) : (s.withFes x).wall = s.wall := rfl
@[simp] theorem withFes_time (s : State) (x : FrontEnds) : (s.withFes x).time = s.time := rfl
@[simp] theorem withFes_dict (s : State) (x : FrontEnds) : (s.withFes x).dict = s.dict := rfl
@[simp] theorem withFes_undo (s : State) (x : FrontEnds) : (s.withFes x).undo = s.undo := rfl
@[simp] theorem withFes_groups (s : State) (x : FrontEnds) : (s.withFes x).groups = s.groups := rfl
@[simp] theorem withFes_due (s : State) (x : FrontEnds) : (s.withFes x).due = s.due := rfl
@[simp] theorem withFes_result (s : State) (x : FrontEnds) : (s.withFes x).result = s.result := rfl
@[simp] theorem withFes_outbox (s : State) (x : FrontEnds) : (s.withFes x).outbox = s.outbox := rfl
@[simp] theorem withFes_mem (s : State) (x : FrontEnds) : (s.withFes x).mem = s.mem := rfl
@[simp] theorem withFes_pcie (s : State) (x : FrontEnds) : (s.withFes x).pcie = s.pcie := rfl
@[simp] theorem withFes_pev (s : State) (x : FrontEnds) : (s.withFes x).pev = s.pev := rfl
@[simp] theorem withFes_ks (s : State) (x : FrontEnds) : (s.withFes x).ks = s.ks := rfl
@[simp] theorem withFes_lo (s : State) (x : FrontEnds) : (s.withFes x).lo = s.lo := rfl
@[simp] theorem withFes_cond (s : State) (x : FrontEnds) : (s.withFes x).cond = s.cond := rfl
@[simp] theorem withFes_ing (s : State) (x : FrontEnds) : (s.withFes x).ing = s.ing := rfl
@[simp] theorem withFes_ring (s : State) (x : FrontEnds) : (s.withFes x).ring = s.ring := rfl
@[simp] theorem withFes_trig (s : State) (x : FrontEnds) : (s.withFes x).trig = s.trig := rfl
@[simp] theorem withFes_fes (s : State) (x : FrontEnds) : (s.withFes x).fes = x := rfl
@[simp] theorem withFes_cal (s : State) (x : FrontEnds) : (s.withFes x).cal = s.cal := rfl
@[simp] theorem withFes_acq (s : State) (x : FrontEnds) : (s.withFes x).acq = s.acq := rfl
@[simp] theorem withFes_span (s : State) (x : FrontEnds) : (s.withFes x).span = s.span := rfl
@[simp] theorem withFes_hrs (s : State) (x : FrontEnds) : (s.withFes x).hrs = s.hrs := rfl
@[simp] theorem withFes_net (s : State) (x : FrontEnds) : (s.withFes x).net = s.net := rfl
@[simp] theorem withFes_views (s : State) (x : FrontEnds) : (s.withFes x).views = s.views := rfl
@[simp] theorem withFes_girders (s : State) (x : FrontEnds) : (s.withFes x).girders = s.girders := rfl
@[simp] theorem withFes_toll (s : State) (x : FrontEnds) : (s.withFes x).toll = s.toll := rfl
@[simp] theorem withFes_prods (s : State) (x : FrontEnds) : (s.withFes x).prods = s.prods := rfl
@[simp] theorem withFes_masks (s : State) (x : FrontEnds) : (s.withFes x).masks = s.masks := rfl
@[simp] theorem withFes_movers (s : State) (x : FrontEnds) : (s.withFes x).movers = s.movers := rfl
@[simp] theorem withFes_cores (s : State) (x : FrontEnds) : (s.withFes x).cores = s.cores := rfl
@[simp] theorem withFes_recd (s : State) (x : FrontEnds) : (s.withFes x).recd = s.recd := rfl
@[simp] theorem withFes_heads (s : State) (x : FrontEnds) : (s.withFes x).heads = s.heads := rfl
@[simp] theorem withFes_mon (s : State) (x : FrontEnds) : (s.withFes x).mon = s.mon := rfl
@[simp] theorem withFes_sec (s : State) (x : FrontEnds) : (s.withFes x).sec = s.sec := rfl
@[simp] theorem withFes_start (s : State) (x : FrontEnds) : (s.withFes x).start = s.start := rfl
@[simp] theorem withFes_pel (s : State) (x : FrontEnds) : (s.withFes x).pel = s.pel := rfl
@[simp] theorem withCal_pending (s : State) (x : Calibration) : (s.withCal x).pending = s.pending := rfl
@[simp] theorem withCal_free (s : State) (x : Calibration) : (s.withCal x).free = s.free := rfl
@[simp] theorem withCal_wall (s : State) (x : Calibration) : (s.withCal x).wall = s.wall := rfl
@[simp] theorem withCal_time (s : State) (x : Calibration) : (s.withCal x).time = s.time := rfl
@[simp] theorem withCal_dict (s : State) (x : Calibration) : (s.withCal x).dict = s.dict := rfl
@[simp] theorem withCal_undo (s : State) (x : Calibration) : (s.withCal x).undo = s.undo := rfl
@[simp] theorem withCal_groups (s : State) (x : Calibration) : (s.withCal x).groups = s.groups := rfl
@[simp] theorem withCal_due (s : State) (x : Calibration) : (s.withCal x).due = s.due := rfl
@[simp] theorem withCal_result (s : State) (x : Calibration) : (s.withCal x).result = s.result := rfl
@[simp] theorem withCal_outbox (s : State) (x : Calibration) : (s.withCal x).outbox = s.outbox := rfl
@[simp] theorem withCal_mem (s : State) (x : Calibration) : (s.withCal x).mem = s.mem := rfl
@[simp] theorem withCal_pcie (s : State) (x : Calibration) : (s.withCal x).pcie = s.pcie := rfl
@[simp] theorem withCal_pev (s : State) (x : Calibration) : (s.withCal x).pev = s.pev := rfl
@[simp] theorem withCal_ks (s : State) (x : Calibration) : (s.withCal x).ks = s.ks := rfl
@[simp] theorem withCal_lo (s : State) (x : Calibration) : (s.withCal x).lo = s.lo := rfl
@[simp] theorem withCal_cond (s : State) (x : Calibration) : (s.withCal x).cond = s.cond := rfl
@[simp] theorem withCal_ing (s : State) (x : Calibration) : (s.withCal x).ing = s.ing := rfl
@[simp] theorem withCal_ring (s : State) (x : Calibration) : (s.withCal x).ring = s.ring := rfl
@[simp] theorem withCal_trig (s : State) (x : Calibration) : (s.withCal x).trig = s.trig := rfl
@[simp] theorem withCal_fes (s : State) (x : Calibration) : (s.withCal x).fes = s.fes := rfl
@[simp] theorem withCal_cal (s : State) (x : Calibration) : (s.withCal x).cal = x := rfl
@[simp] theorem withCal_acq (s : State) (x : Calibration) : (s.withCal x).acq = s.acq := rfl
@[simp] theorem withCal_span (s : State) (x : Calibration) : (s.withCal x).span = s.span := rfl
@[simp] theorem withCal_hrs (s : State) (x : Calibration) : (s.withCal x).hrs = s.hrs := rfl
@[simp] theorem withCal_net (s : State) (x : Calibration) : (s.withCal x).net = s.net := rfl
@[simp] theorem withCal_views (s : State) (x : Calibration) : (s.withCal x).views = s.views := rfl
@[simp] theorem withCal_girders (s : State) (x : Calibration) : (s.withCal x).girders = s.girders := rfl
@[simp] theorem withCal_toll (s : State) (x : Calibration) : (s.withCal x).toll = s.toll := rfl
@[simp] theorem withCal_prods (s : State) (x : Calibration) : (s.withCal x).prods = s.prods := rfl
@[simp] theorem withCal_masks (s : State) (x : Calibration) : (s.withCal x).masks = s.masks := rfl
@[simp] theorem withCal_movers (s : State) (x : Calibration) : (s.withCal x).movers = s.movers := rfl
@[simp] theorem withCal_cores (s : State) (x : Calibration) : (s.withCal x).cores = s.cores := rfl
@[simp] theorem withCal_recd (s : State) (x : Calibration) : (s.withCal x).recd = s.recd := rfl
@[simp] theorem withCal_heads (s : State) (x : Calibration) : (s.withCal x).heads = s.heads := rfl
@[simp] theorem withCal_mon (s : State) (x : Calibration) : (s.withCal x).mon = s.mon := rfl
@[simp] theorem withCal_sec (s : State) (x : Calibration) : (s.withCal x).sec = s.sec := rfl
@[simp] theorem withCal_start (s : State) (x : Calibration) : (s.withCal x).start = s.start := rfl
@[simp] theorem withCal_pel (s : State) (x : Calibration) : (s.withCal x).pel = s.pel := rfl
@[simp] theorem withAcq_pending (s : State) (x : Acq) : (s.withAcq x).pending = s.pending := rfl
@[simp] theorem withAcq_free (s : State) (x : Acq) : (s.withAcq x).free = s.free := rfl
@[simp] theorem withAcq_wall (s : State) (x : Acq) : (s.withAcq x).wall = s.wall := rfl
@[simp] theorem withAcq_time (s : State) (x : Acq) : (s.withAcq x).time = s.time := rfl
@[simp] theorem withAcq_dict (s : State) (x : Acq) : (s.withAcq x).dict = s.dict := rfl
@[simp] theorem withAcq_undo (s : State) (x : Acq) : (s.withAcq x).undo = s.undo := rfl
@[simp] theorem withAcq_groups (s : State) (x : Acq) : (s.withAcq x).groups = s.groups := rfl
@[simp] theorem withAcq_due (s : State) (x : Acq) : (s.withAcq x).due = s.due := rfl
@[simp] theorem withAcq_result (s : State) (x : Acq) : (s.withAcq x).result = s.result := rfl
@[simp] theorem withAcq_outbox (s : State) (x : Acq) : (s.withAcq x).outbox = s.outbox := rfl
@[simp] theorem withAcq_mem (s : State) (x : Acq) : (s.withAcq x).mem = s.mem := rfl
@[simp] theorem withAcq_pcie (s : State) (x : Acq) : (s.withAcq x).pcie = s.pcie := rfl
@[simp] theorem withAcq_pev (s : State) (x : Acq) : (s.withAcq x).pev = s.pev := rfl
@[simp] theorem withAcq_ks (s : State) (x : Acq) : (s.withAcq x).ks = s.ks := rfl
@[simp] theorem withAcq_lo (s : State) (x : Acq) : (s.withAcq x).lo = s.lo := rfl
@[simp] theorem withAcq_cond (s : State) (x : Acq) : (s.withAcq x).cond = s.cond := rfl
@[simp] theorem withAcq_ing (s : State) (x : Acq) : (s.withAcq x).ing = s.ing := rfl
@[simp] theorem withAcq_ring (s : State) (x : Acq) : (s.withAcq x).ring = s.ring := rfl
@[simp] theorem withAcq_trig (s : State) (x : Acq) : (s.withAcq x).trig = s.trig := rfl
@[simp] theorem withAcq_fes (s : State) (x : Acq) : (s.withAcq x).fes = s.fes := rfl
@[simp] theorem withAcq_cal (s : State) (x : Acq) : (s.withAcq x).cal = s.cal := rfl
@[simp] theorem withAcq_acq (s : State) (x : Acq) : (s.withAcq x).acq = x := rfl
@[simp] theorem withAcq_span (s : State) (x : Acq) : (s.withAcq x).span = s.span := rfl
@[simp] theorem withAcq_hrs (s : State) (x : Acq) : (s.withAcq x).hrs = s.hrs := rfl
@[simp] theorem withAcq_net (s : State) (x : Acq) : (s.withAcq x).net = s.net := rfl
@[simp] theorem withAcq_views (s : State) (x : Acq) : (s.withAcq x).views = s.views := rfl
@[simp] theorem withAcq_girders (s : State) (x : Acq) : (s.withAcq x).girders = s.girders := rfl
@[simp] theorem withAcq_toll (s : State) (x : Acq) : (s.withAcq x).toll = s.toll := rfl
@[simp] theorem withAcq_prods (s : State) (x : Acq) : (s.withAcq x).prods = s.prods := rfl
@[simp] theorem withAcq_masks (s : State) (x : Acq) : (s.withAcq x).masks = s.masks := rfl
@[simp] theorem withAcq_movers (s : State) (x : Acq) : (s.withAcq x).movers = s.movers := rfl
@[simp] theorem withAcq_cores (s : State) (x : Acq) : (s.withAcq x).cores = s.cores := rfl
@[simp] theorem withAcq_recd (s : State) (x : Acq) : (s.withAcq x).recd = s.recd := rfl
@[simp] theorem withAcq_heads (s : State) (x : Acq) : (s.withAcq x).heads = s.heads := rfl
@[simp] theorem withAcq_mon (s : State) (x : Acq) : (s.withAcq x).mon = s.mon := rfl
@[simp] theorem withAcq_sec (s : State) (x : Acq) : (s.withAcq x).sec = s.sec := rfl
@[simp] theorem withAcq_start (s : State) (x : Acq) : (s.withAcq x).start = s.start := rfl
@[simp] theorem withAcq_pel (s : State) (x : Acq) : (s.withAcq x).pel = s.pel := rfl
@[simp] theorem withSpan_pending (s : State) (x : Span) : (s.withSpan x).pending = s.pending := rfl
@[simp] theorem withSpan_free (s : State) (x : Span) : (s.withSpan x).free = s.free := rfl
@[simp] theorem withSpan_wall (s : State) (x : Span) : (s.withSpan x).wall = s.wall := rfl
@[simp] theorem withSpan_time (s : State) (x : Span) : (s.withSpan x).time = s.time := rfl
@[simp] theorem withSpan_dict (s : State) (x : Span) : (s.withSpan x).dict = s.dict := rfl
@[simp] theorem withSpan_undo (s : State) (x : Span) : (s.withSpan x).undo = s.undo := rfl
@[simp] theorem withSpan_groups (s : State) (x : Span) : (s.withSpan x).groups = s.groups := rfl
@[simp] theorem withSpan_due (s : State) (x : Span) : (s.withSpan x).due = s.due := rfl
@[simp] theorem withSpan_result (s : State) (x : Span) : (s.withSpan x).result = s.result := rfl
@[simp] theorem withSpan_outbox (s : State) (x : Span) : (s.withSpan x).outbox = s.outbox := rfl
@[simp] theorem withSpan_mem (s : State) (x : Span) : (s.withSpan x).mem = s.mem := rfl
@[simp] theorem withSpan_pcie (s : State) (x : Span) : (s.withSpan x).pcie = s.pcie := rfl
@[simp] theorem withSpan_pev (s : State) (x : Span) : (s.withSpan x).pev = s.pev := rfl
@[simp] theorem withSpan_ks (s : State) (x : Span) : (s.withSpan x).ks = s.ks := rfl
@[simp] theorem withSpan_lo (s : State) (x : Span) : (s.withSpan x).lo = s.lo := rfl
@[simp] theorem withSpan_cond (s : State) (x : Span) : (s.withSpan x).cond = s.cond := rfl
@[simp] theorem withSpan_ing (s : State) (x : Span) : (s.withSpan x).ing = s.ing := rfl
@[simp] theorem withSpan_ring (s : State) (x : Span) : (s.withSpan x).ring = s.ring := rfl
@[simp] theorem withSpan_trig (s : State) (x : Span) : (s.withSpan x).trig = s.trig := rfl
@[simp] theorem withSpan_fes (s : State) (x : Span) : (s.withSpan x).fes = s.fes := rfl
@[simp] theorem withSpan_cal (s : State) (x : Span) : (s.withSpan x).cal = s.cal := rfl
@[simp] theorem withSpan_acq (s : State) (x : Span) : (s.withSpan x).acq = s.acq := rfl
@[simp] theorem withSpan_span (s : State) (x : Span) : (s.withSpan x).span = x := rfl
@[simp] theorem withSpan_hrs (s : State) (x : Span) : (s.withSpan x).hrs = s.hrs := rfl
@[simp] theorem withSpan_net (s : State) (x : Span) : (s.withSpan x).net = s.net := rfl
@[simp] theorem withSpan_views (s : State) (x : Span) : (s.withSpan x).views = s.views := rfl
@[simp] theorem withSpan_girders (s : State) (x : Span) : (s.withSpan x).girders = s.girders := rfl
@[simp] theorem withSpan_toll (s : State) (x : Span) : (s.withSpan x).toll = s.toll := rfl
@[simp] theorem withSpan_prods (s : State) (x : Span) : (s.withSpan x).prods = s.prods := rfl
@[simp] theorem withSpan_masks (s : State) (x : Span) : (s.withSpan x).masks = s.masks := rfl
@[simp] theorem withSpan_movers (s : State) (x : Span) : (s.withSpan x).movers = s.movers := rfl
@[simp] theorem withSpan_cores (s : State) (x : Span) : (s.withSpan x).cores = s.cores := rfl
@[simp] theorem withSpan_recd (s : State) (x : Span) : (s.withSpan x).recd = s.recd := rfl
@[simp] theorem withSpan_heads (s : State) (x : Span) : (s.withSpan x).heads = s.heads := rfl
@[simp] theorem withSpan_mon (s : State) (x : Span) : (s.withSpan x).mon = s.mon := rfl
@[simp] theorem withSpan_sec (s : State) (x : Span) : (s.withSpan x).sec = s.sec := rfl
@[simp] theorem withSpan_start (s : State) (x : Span) : (s.withSpan x).start = s.start := rfl
@[simp] theorem withSpan_pel (s : State) (x : Span) : (s.withSpan x).pel = s.pel := rfl
@[simp] theorem withHrs_pending (s : State) (x : Tab HostRing) : (s.withHrs x).pending = s.pending := rfl
@[simp] theorem withHrs_free (s : State) (x : Tab HostRing) : (s.withHrs x).free = s.free := rfl
@[simp] theorem withHrs_wall (s : State) (x : Tab HostRing) : (s.withHrs x).wall = s.wall := rfl
@[simp] theorem withHrs_time (s : State) (x : Tab HostRing) : (s.withHrs x).time = s.time := rfl
@[simp] theorem withHrs_dict (s : State) (x : Tab HostRing) : (s.withHrs x).dict = s.dict := rfl
@[simp] theorem withHrs_undo (s : State) (x : Tab HostRing) : (s.withHrs x).undo = s.undo := rfl
@[simp] theorem withHrs_groups (s : State) (x : Tab HostRing) : (s.withHrs x).groups = s.groups := rfl
@[simp] theorem withHrs_due (s : State) (x : Tab HostRing) : (s.withHrs x).due = s.due := rfl
@[simp] theorem withHrs_result (s : State) (x : Tab HostRing) : (s.withHrs x).result = s.result := rfl
@[simp] theorem withHrs_outbox (s : State) (x : Tab HostRing) : (s.withHrs x).outbox = s.outbox := rfl
@[simp] theorem withHrs_mem (s : State) (x : Tab HostRing) : (s.withHrs x).mem = s.mem := rfl
@[simp] theorem withHrs_pcie (s : State) (x : Tab HostRing) : (s.withHrs x).pcie = s.pcie := rfl
@[simp] theorem withHrs_pev (s : State) (x : Tab HostRing) : (s.withHrs x).pev = s.pev := rfl
@[simp] theorem withHrs_ks (s : State) (x : Tab HostRing) : (s.withHrs x).ks = s.ks := rfl
@[simp] theorem withHrs_lo (s : State) (x : Tab HostRing) : (s.withHrs x).lo = s.lo := rfl
@[simp] theorem withHrs_cond (s : State) (x : Tab HostRing) : (s.withHrs x).cond = s.cond := rfl
@[simp] theorem withHrs_ing (s : State) (x : Tab HostRing) : (s.withHrs x).ing = s.ing := rfl
@[simp] theorem withHrs_ring (s : State) (x : Tab HostRing) : (s.withHrs x).ring = s.ring := rfl
@[simp] theorem withHrs_trig (s : State) (x : Tab HostRing) : (s.withHrs x).trig = s.trig := rfl
@[simp] theorem withHrs_fes (s : State) (x : Tab HostRing) : (s.withHrs x).fes = s.fes := rfl
@[simp] theorem withHrs_cal (s : State) (x : Tab HostRing) : (s.withHrs x).cal = s.cal := rfl
@[simp] theorem withHrs_acq (s : State) (x : Tab HostRing) : (s.withHrs x).acq = s.acq := rfl
@[simp] theorem withHrs_span (s : State) (x : Tab HostRing) : (s.withHrs x).span = s.span := rfl
@[simp] theorem withHrs_hrs (s : State) (x : Tab HostRing) : (s.withHrs x).hrs = x := rfl
@[simp] theorem withHrs_net (s : State) (x : Tab HostRing) : (s.withHrs x).net = s.net := rfl
@[simp] theorem withHrs_views (s : State) (x : Tab HostRing) : (s.withHrs x).views = s.views := rfl
@[simp] theorem withHrs_girders (s : State) (x : Tab HostRing) : (s.withHrs x).girders = s.girders := rfl
@[simp] theorem withHrs_toll (s : State) (x : Tab HostRing) : (s.withHrs x).toll = s.toll := rfl
@[simp] theorem withHrs_prods (s : State) (x : Tab HostRing) : (s.withHrs x).prods = s.prods := rfl
@[simp] theorem withHrs_masks (s : State) (x : Tab HostRing) : (s.withHrs x).masks = s.masks := rfl
@[simp] theorem withHrs_movers (s : State) (x : Tab HostRing) : (s.withHrs x).movers = s.movers := rfl
@[simp] theorem withHrs_cores (s : State) (x : Tab HostRing) : (s.withHrs x).cores = s.cores := rfl
@[simp] theorem withHrs_recd (s : State) (x : Tab HostRing) : (s.withHrs x).recd = s.recd := rfl
@[simp] theorem withHrs_heads (s : State) (x : Tab HostRing) : (s.withHrs x).heads = s.heads := rfl
@[simp] theorem withHrs_mon (s : State) (x : Tab HostRing) : (s.withHrs x).mon = s.mon := rfl
@[simp] theorem withHrs_sec (s : State) (x : Tab HostRing) : (s.withHrs x).sec = s.sec := rfl
@[simp] theorem withHrs_start (s : State) (x : Tab HostRing) : (s.withHrs x).start = s.start := rfl
@[simp] theorem withHrs_pel (s : State) (x : Tab HostRing) : (s.withHrs x).pel = s.pel := rfl
@[simp] theorem withNet_pending (s : State) (x : Net) : (s.withNet x).pending = s.pending := rfl
@[simp] theorem withNet_free (s : State) (x : Net) : (s.withNet x).free = s.free := rfl
@[simp] theorem withNet_wall (s : State) (x : Net) : (s.withNet x).wall = s.wall := rfl
@[simp] theorem withNet_time (s : State) (x : Net) : (s.withNet x).time = s.time := rfl
@[simp] theorem withNet_dict (s : State) (x : Net) : (s.withNet x).dict = s.dict := rfl
@[simp] theorem withNet_undo (s : State) (x : Net) : (s.withNet x).undo = s.undo := rfl
@[simp] theorem withNet_groups (s : State) (x : Net) : (s.withNet x).groups = s.groups := rfl
@[simp] theorem withNet_due (s : State) (x : Net) : (s.withNet x).due = s.due := rfl
@[simp] theorem withNet_result (s : State) (x : Net) : (s.withNet x).result = s.result := rfl
@[simp] theorem withNet_outbox (s : State) (x : Net) : (s.withNet x).outbox = s.outbox := rfl
@[simp] theorem withNet_mem (s : State) (x : Net) : (s.withNet x).mem = s.mem := rfl
@[simp] theorem withNet_pcie (s : State) (x : Net) : (s.withNet x).pcie = s.pcie := rfl
@[simp] theorem withNet_pev (s : State) (x : Net) : (s.withNet x).pev = s.pev := rfl
@[simp] theorem withNet_ks (s : State) (x : Net) : (s.withNet x).ks = s.ks := rfl
@[simp] theorem withNet_lo (s : State) (x : Net) : (s.withNet x).lo = s.lo := rfl
@[simp] theorem withNet_cond (s : State) (x : Net) : (s.withNet x).cond = s.cond := rfl
@[simp] theorem withNet_ing (s : State) (x : Net) : (s.withNet x).ing = s.ing := rfl
@[simp] theorem withNet_ring (s : State) (x : Net) : (s.withNet x).ring = s.ring := rfl
@[simp] theorem withNet_trig (s : State) (x : Net) : (s.withNet x).trig = s.trig := rfl
@[simp] theorem withNet_fes (s : State) (x : Net) : (s.withNet x).fes = s.fes := rfl
@[simp] theorem withNet_cal (s : State) (x : Net) : (s.withNet x).cal = s.cal := rfl
@[simp] theorem withNet_acq (s : State) (x : Net) : (s.withNet x).acq = s.acq := rfl
@[simp] theorem withNet_span (s : State) (x : Net) : (s.withNet x).span = s.span := rfl
@[simp] theorem withNet_hrs (s : State) (x : Net) : (s.withNet x).hrs = s.hrs := rfl
@[simp] theorem withNet_net (s : State) (x : Net) : (s.withNet x).net = x := rfl
@[simp] theorem withNet_views (s : State) (x : Net) : (s.withNet x).views = s.views := rfl
@[simp] theorem withNet_girders (s : State) (x : Net) : (s.withNet x).girders = s.girders := rfl
@[simp] theorem withNet_toll (s : State) (x : Net) : (s.withNet x).toll = s.toll := rfl
@[simp] theorem withNet_prods (s : State) (x : Net) : (s.withNet x).prods = s.prods := rfl
@[simp] theorem withNet_masks (s : State) (x : Net) : (s.withNet x).masks = s.masks := rfl
@[simp] theorem withNet_movers (s : State) (x : Net) : (s.withNet x).movers = s.movers := rfl
@[simp] theorem withNet_cores (s : State) (x : Net) : (s.withNet x).cores = s.cores := rfl
@[simp] theorem withNet_recd (s : State) (x : Net) : (s.withNet x).recd = s.recd := rfl
@[simp] theorem withNet_heads (s : State) (x : Net) : (s.withNet x).heads = s.heads := rfl
@[simp] theorem withNet_mon (s : State) (x : Net) : (s.withNet x).mon = s.mon := rfl
@[simp] theorem withNet_sec (s : State) (x : Net) : (s.withNet x).sec = s.sec := rfl
@[simp] theorem withNet_start (s : State) (x : Net) : (s.withNet x).start = s.start := rfl
@[simp] theorem withNet_pel (s : State) (x : Net) : (s.withNet x).pel = s.pel := rfl
@[simp] theorem withViews_pending (s : State) (x : Views) : (s.withViews x).pending = s.pending := rfl
@[simp] theorem withViews_free (s : State) (x : Views) : (s.withViews x).free = s.free := rfl
@[simp] theorem withViews_wall (s : State) (x : Views) : (s.withViews x).wall = s.wall := rfl
@[simp] theorem withViews_time (s : State) (x : Views) : (s.withViews x).time = s.time := rfl
@[simp] theorem withViews_dict (s : State) (x : Views) : (s.withViews x).dict = s.dict := rfl
@[simp] theorem withViews_undo (s : State) (x : Views) : (s.withViews x).undo = s.undo := rfl
@[simp] theorem withViews_groups (s : State) (x : Views) : (s.withViews x).groups = s.groups := rfl
@[simp] theorem withViews_due (s : State) (x : Views) : (s.withViews x).due = s.due := rfl
@[simp] theorem withViews_result (s : State) (x : Views) : (s.withViews x).result = s.result := rfl
@[simp] theorem withViews_outbox (s : State) (x : Views) : (s.withViews x).outbox = s.outbox := rfl
@[simp] theorem withViews_mem (s : State) (x : Views) : (s.withViews x).mem = s.mem := rfl
@[simp] theorem withViews_pcie (s : State) (x : Views) : (s.withViews x).pcie = s.pcie := rfl
@[simp] theorem withViews_pev (s : State) (x : Views) : (s.withViews x).pev = s.pev := rfl
@[simp] theorem withViews_ks (s : State) (x : Views) : (s.withViews x).ks = s.ks := rfl
@[simp] theorem withViews_lo (s : State) (x : Views) : (s.withViews x).lo = s.lo := rfl
@[simp] theorem withViews_cond (s : State) (x : Views) : (s.withViews x).cond = s.cond := rfl
@[simp] theorem withViews_ing (s : State) (x : Views) : (s.withViews x).ing = s.ing := rfl
@[simp] theorem withViews_ring (s : State) (x : Views) : (s.withViews x).ring = s.ring := rfl
@[simp] theorem withViews_trig (s : State) (x : Views) : (s.withViews x).trig = s.trig := rfl
@[simp] theorem withViews_fes (s : State) (x : Views) : (s.withViews x).fes = s.fes := rfl
@[simp] theorem withViews_cal (s : State) (x : Views) : (s.withViews x).cal = s.cal := rfl
@[simp] theorem withViews_acq (s : State) (x : Views) : (s.withViews x).acq = s.acq := rfl
@[simp] theorem withViews_span (s : State) (x : Views) : (s.withViews x).span = s.span := rfl
@[simp] theorem withViews_hrs (s : State) (x : Views) : (s.withViews x).hrs = s.hrs := rfl
@[simp] theorem withViews_net (s : State) (x : Views) : (s.withViews x).net = s.net := rfl
@[simp] theorem withViews_views (s : State) (x : Views) : (s.withViews x).views = x := rfl
@[simp] theorem withViews_girders (s : State) (x : Views) : (s.withViews x).girders = s.girders := rfl
@[simp] theorem withViews_toll (s : State) (x : Views) : (s.withViews x).toll = s.toll := rfl
@[simp] theorem withViews_prods (s : State) (x : Views) : (s.withViews x).prods = s.prods := rfl
@[simp] theorem withViews_masks (s : State) (x : Views) : (s.withViews x).masks = s.masks := rfl
@[simp] theorem withViews_movers (s : State) (x : Views) : (s.withViews x).movers = s.movers := rfl
@[simp] theorem withViews_cores (s : State) (x : Views) : (s.withViews x).cores = s.cores := rfl
@[simp] theorem withViews_recd (s : State) (x : Views) : (s.withViews x).recd = s.recd := rfl
@[simp] theorem withViews_heads (s : State) (x : Views) : (s.withViews x).heads = s.heads := rfl
@[simp] theorem withViews_mon (s : State) (x : Views) : (s.withViews x).mon = s.mon := rfl
@[simp] theorem withViews_sec (s : State) (x : Views) : (s.withViews x).sec = s.sec := rfl
@[simp] theorem withViews_start (s : State) (x : Views) : (s.withViews x).start = s.start := rfl
@[simp] theorem withViews_pel (s : State) (x : Views) : (s.withViews x).pel = s.pel := rfl
@[simp] theorem withGirders_pending (s : State) (x : Tab Girder) : (s.withGirders x).pending = s.pending := rfl
@[simp] theorem withGirders_free (s : State) (x : Tab Girder) : (s.withGirders x).free = s.free := rfl
@[simp] theorem withGirders_wall (s : State) (x : Tab Girder) : (s.withGirders x).wall = s.wall := rfl
@[simp] theorem withGirders_time (s : State) (x : Tab Girder) : (s.withGirders x).time = s.time := rfl
@[simp] theorem withGirders_dict (s : State) (x : Tab Girder) : (s.withGirders x).dict = s.dict := rfl
@[simp] theorem withGirders_undo (s : State) (x : Tab Girder) : (s.withGirders x).undo = s.undo := rfl
@[simp] theorem withGirders_groups (s : State) (x : Tab Girder) : (s.withGirders x).groups = s.groups := rfl
@[simp] theorem withGirders_due (s : State) (x : Tab Girder) : (s.withGirders x).due = s.due := rfl
@[simp] theorem withGirders_result (s : State) (x : Tab Girder) : (s.withGirders x).result = s.result := rfl
@[simp] theorem withGirders_outbox (s : State) (x : Tab Girder) : (s.withGirders x).outbox = s.outbox := rfl
@[simp] theorem withGirders_mem (s : State) (x : Tab Girder) : (s.withGirders x).mem = s.mem := rfl
@[simp] theorem withGirders_pcie (s : State) (x : Tab Girder) : (s.withGirders x).pcie = s.pcie := rfl
@[simp] theorem withGirders_pev (s : State) (x : Tab Girder) : (s.withGirders x).pev = s.pev := rfl
@[simp] theorem withGirders_ks (s : State) (x : Tab Girder) : (s.withGirders x).ks = s.ks := rfl
@[simp] theorem withGirders_lo (s : State) (x : Tab Girder) : (s.withGirders x).lo = s.lo := rfl
@[simp] theorem withGirders_cond (s : State) (x : Tab Girder) : (s.withGirders x).cond = s.cond := rfl
@[simp] theorem withGirders_ing (s : State) (x : Tab Girder) : (s.withGirders x).ing = s.ing := rfl
@[simp] theorem withGirders_ring (s : State) (x : Tab Girder) : (s.withGirders x).ring = s.ring := rfl
@[simp] theorem withGirders_trig (s : State) (x : Tab Girder) : (s.withGirders x).trig = s.trig := rfl
@[simp] theorem withGirders_fes (s : State) (x : Tab Girder) : (s.withGirders x).fes = s.fes := rfl
@[simp] theorem withGirders_cal (s : State) (x : Tab Girder) : (s.withGirders x).cal = s.cal := rfl
@[simp] theorem withGirders_acq (s : State) (x : Tab Girder) : (s.withGirders x).acq = s.acq := rfl
@[simp] theorem withGirders_span (s : State) (x : Tab Girder) : (s.withGirders x).span = s.span := rfl
@[simp] theorem withGirders_hrs (s : State) (x : Tab Girder) : (s.withGirders x).hrs = s.hrs := rfl
@[simp] theorem withGirders_net (s : State) (x : Tab Girder) : (s.withGirders x).net = s.net := rfl
@[simp] theorem withGirders_views (s : State) (x : Tab Girder) : (s.withGirders x).views = s.views := rfl
@[simp] theorem withGirders_girders (s : State) (x : Tab Girder) : (s.withGirders x).girders = x := rfl
@[simp] theorem withGirders_toll (s : State) (x : Tab Girder) : (s.withGirders x).toll = s.toll := rfl
@[simp] theorem withGirders_prods (s : State) (x : Tab Girder) : (s.withGirders x).prods = s.prods := rfl
@[simp] theorem withGirders_masks (s : State) (x : Tab Girder) : (s.withGirders x).masks = s.masks := rfl
@[simp] theorem withGirders_movers (s : State) (x : Tab Girder) : (s.withGirders x).movers = s.movers := rfl
@[simp] theorem withGirders_cores (s : State) (x : Tab Girder) : (s.withGirders x).cores = s.cores := rfl
@[simp] theorem withGirders_recd (s : State) (x : Tab Girder) : (s.withGirders x).recd = s.recd := rfl
@[simp] theorem withGirders_heads (s : State) (x : Tab Girder) : (s.withGirders x).heads = s.heads := rfl
@[simp] theorem withGirders_mon (s : State) (x : Tab Girder) : (s.withGirders x).mon = s.mon := rfl
@[simp] theorem withGirders_sec (s : State) (x : Tab Girder) : (s.withGirders x).sec = s.sec := rfl
@[simp] theorem withGirders_start (s : State) (x : Tab Girder) : (s.withGirders x).start = s.start := rfl
@[simp] theorem withGirders_pel (s : State) (x : Tab Girder) : (s.withGirders x).pel = s.pel := rfl
@[simp] theorem withToll_pending (s : State) (x : Toll) : (s.withToll x).pending = s.pending := rfl
@[simp] theorem withToll_free (s : State) (x : Toll) : (s.withToll x).free = s.free := rfl
@[simp] theorem withToll_wall (s : State) (x : Toll) : (s.withToll x).wall = s.wall := rfl
@[simp] theorem withToll_time (s : State) (x : Toll) : (s.withToll x).time = s.time := rfl
@[simp] theorem withToll_dict (s : State) (x : Toll) : (s.withToll x).dict = s.dict := rfl
@[simp] theorem withToll_undo (s : State) (x : Toll) : (s.withToll x).undo = s.undo := rfl
@[simp] theorem withToll_groups (s : State) (x : Toll) : (s.withToll x).groups = s.groups := rfl
@[simp] theorem withToll_due (s : State) (x : Toll) : (s.withToll x).due = s.due := rfl
@[simp] theorem withToll_result (s : State) (x : Toll) : (s.withToll x).result = s.result := rfl
@[simp] theorem withToll_outbox (s : State) (x : Toll) : (s.withToll x).outbox = s.outbox := rfl
@[simp] theorem withToll_mem (s : State) (x : Toll) : (s.withToll x).mem = s.mem := rfl
@[simp] theorem withToll_pcie (s : State) (x : Toll) : (s.withToll x).pcie = s.pcie := rfl
@[simp] theorem withToll_pev (s : State) (x : Toll) : (s.withToll x).pev = s.pev := rfl
@[simp] theorem withToll_ks (s : State) (x : Toll) : (s.withToll x).ks = s.ks := rfl
@[simp] theorem withToll_lo (s : State) (x : Toll) : (s.withToll x).lo = s.lo := rfl
@[simp] theorem withToll_cond (s : State) (x : Toll) : (s.withToll x).cond = s.cond := rfl
@[simp] theorem withToll_ing (s : State) (x : Toll) : (s.withToll x).ing = s.ing := rfl
@[simp] theorem withToll_ring (s : State) (x : Toll) : (s.withToll x).ring = s.ring := rfl
@[simp] theorem withToll_trig (s : State) (x : Toll) : (s.withToll x).trig = s.trig := rfl
@[simp] theorem withToll_fes (s : State) (x : Toll) : (s.withToll x).fes = s.fes := rfl
@[simp] theorem withToll_cal (s : State) (x : Toll) : (s.withToll x).cal = s.cal := rfl
@[simp] theorem withToll_acq (s : State) (x : Toll) : (s.withToll x).acq = s.acq := rfl
@[simp] theorem withToll_span (s : State) (x : Toll) : (s.withToll x).span = s.span := rfl
@[simp] theorem withToll_hrs (s : State) (x : Toll) : (s.withToll x).hrs = s.hrs := rfl
@[simp] theorem withToll_net (s : State) (x : Toll) : (s.withToll x).net = s.net := rfl
@[simp] theorem withToll_views (s : State) (x : Toll) : (s.withToll x).views = s.views := rfl
@[simp] theorem withToll_girders (s : State) (x : Toll) : (s.withToll x).girders = s.girders := rfl
@[simp] theorem withToll_toll (s : State) (x : Toll) : (s.withToll x).toll = x := rfl
@[simp] theorem withToll_prods (s : State) (x : Toll) : (s.withToll x).prods = s.prods := rfl
@[simp] theorem withToll_masks (s : State) (x : Toll) : (s.withToll x).masks = s.masks := rfl
@[simp] theorem withToll_movers (s : State) (x : Toll) : (s.withToll x).movers = s.movers := rfl
@[simp] theorem withToll_cores (s : State) (x : Toll) : (s.withToll x).cores = s.cores := rfl
@[simp] theorem withToll_recd (s : State) (x : Toll) : (s.withToll x).recd = s.recd := rfl
@[simp] theorem withToll_heads (s : State) (x : Toll) : (s.withToll x).heads = s.heads := rfl
@[simp] theorem withToll_mon (s : State) (x : Toll) : (s.withToll x).mon = s.mon := rfl
@[simp] theorem withToll_sec (s : State) (x : Toll) : (s.withToll x).sec = s.sec := rfl
@[simp] theorem withToll_start (s : State) (x : Toll) : (s.withToll x).start = s.start := rfl
@[simp] theorem withToll_pel (s : State) (x : Toll) : (s.withToll x).pel = s.pel := rfl
@[simp] theorem withProds_pending (s : State) (x : Products) : (s.withProds x).pending = s.pending := rfl
@[simp] theorem withProds_free (s : State) (x : Products) : (s.withProds x).free = s.free := rfl
@[simp] theorem withProds_wall (s : State) (x : Products) : (s.withProds x).wall = s.wall := rfl
@[simp] theorem withProds_time (s : State) (x : Products) : (s.withProds x).time = s.time := rfl
@[simp] theorem withProds_dict (s : State) (x : Products) : (s.withProds x).dict = s.dict := rfl
@[simp] theorem withProds_undo (s : State) (x : Products) : (s.withProds x).undo = s.undo := rfl
@[simp] theorem withProds_groups (s : State) (x : Products) : (s.withProds x).groups = s.groups := rfl
@[simp] theorem withProds_due (s : State) (x : Products) : (s.withProds x).due = s.due := rfl
@[simp] theorem withProds_result (s : State) (x : Products) : (s.withProds x).result = s.result := rfl
@[simp] theorem withProds_outbox (s : State) (x : Products) : (s.withProds x).outbox = s.outbox := rfl
@[simp] theorem withProds_mem (s : State) (x : Products) : (s.withProds x).mem = s.mem := rfl
@[simp] theorem withProds_pcie (s : State) (x : Products) : (s.withProds x).pcie = s.pcie := rfl
@[simp] theorem withProds_pev (s : State) (x : Products) : (s.withProds x).pev = s.pev := rfl
@[simp] theorem withProds_ks (s : State) (x : Products) : (s.withProds x).ks = s.ks := rfl
@[simp] theorem withProds_lo (s : State) (x : Products) : (s.withProds x).lo = s.lo := rfl
@[simp] theorem withProds_cond (s : State) (x : Products) : (s.withProds x).cond = s.cond := rfl
@[simp] theorem withProds_ing (s : State) (x : Products) : (s.withProds x).ing = s.ing := rfl
@[simp] theorem withProds_ring (s : State) (x : Products) : (s.withProds x).ring = s.ring := rfl
@[simp] theorem withProds_trig (s : State) (x : Products) : (s.withProds x).trig = s.trig := rfl
@[simp] theorem withProds_fes (s : State) (x : Products) : (s.withProds x).fes = s.fes := rfl
@[simp] theorem withProds_cal (s : State) (x : Products) : (s.withProds x).cal = s.cal := rfl
@[simp] theorem withProds_acq (s : State) (x : Products) : (s.withProds x).acq = s.acq := rfl
@[simp] theorem withProds_span (s : State) (x : Products) : (s.withProds x).span = s.span := rfl
@[simp] theorem withProds_hrs (s : State) (x : Products) : (s.withProds x).hrs = s.hrs := rfl
@[simp] theorem withProds_net (s : State) (x : Products) : (s.withProds x).net = s.net := rfl
@[simp] theorem withProds_views (s : State) (x : Products) : (s.withProds x).views = s.views := rfl
@[simp] theorem withProds_girders (s : State) (x : Products) : (s.withProds x).girders = s.girders := rfl
@[simp] theorem withProds_toll (s : State) (x : Products) : (s.withProds x).toll = s.toll := rfl
@[simp] theorem withProds_prods (s : State) (x : Products) : (s.withProds x).prods = x := rfl
@[simp] theorem withProds_masks (s : State) (x : Products) : (s.withProds x).masks = s.masks := rfl
@[simp] theorem withProds_movers (s : State) (x : Products) : (s.withProds x).movers = s.movers := rfl
@[simp] theorem withProds_cores (s : State) (x : Products) : (s.withProds x).cores = s.cores := rfl
@[simp] theorem withProds_recd (s : State) (x : Products) : (s.withProds x).recd = s.recd := rfl
@[simp] theorem withProds_heads (s : State) (x : Products) : (s.withProds x).heads = s.heads := rfl
@[simp] theorem withProds_mon (s : State) (x : Products) : (s.withProds x).mon = s.mon := rfl
@[simp] theorem withProds_sec (s : State) (x : Products) : (s.withProds x).sec = s.sec := rfl
@[simp] theorem withProds_start (s : State) (x : Products) : (s.withProds x).start = s.start := rfl
@[simp] theorem withProds_pel (s : State) (x : Products) : (s.withProds x).pel = s.pel := rfl
@[simp] theorem withMasks_pending (s : State) (x : Tab Mask) : (s.withMasks x).pending = s.pending := rfl
@[simp] theorem withMasks_free (s : State) (x : Tab Mask) : (s.withMasks x).free = s.free := rfl
@[simp] theorem withMasks_wall (s : State) (x : Tab Mask) : (s.withMasks x).wall = s.wall := rfl
@[simp] theorem withMasks_time (s : State) (x : Tab Mask) : (s.withMasks x).time = s.time := rfl
@[simp] theorem withMasks_dict (s : State) (x : Tab Mask) : (s.withMasks x).dict = s.dict := rfl
@[simp] theorem withMasks_undo (s : State) (x : Tab Mask) : (s.withMasks x).undo = s.undo := rfl
@[simp] theorem withMasks_groups (s : State) (x : Tab Mask) : (s.withMasks x).groups = s.groups := rfl
@[simp] theorem withMasks_due (s : State) (x : Tab Mask) : (s.withMasks x).due = s.due := rfl
@[simp] theorem withMasks_result (s : State) (x : Tab Mask) : (s.withMasks x).result = s.result := rfl
@[simp] theorem withMasks_outbox (s : State) (x : Tab Mask) : (s.withMasks x).outbox = s.outbox := rfl
@[simp] theorem withMasks_mem (s : State) (x : Tab Mask) : (s.withMasks x).mem = s.mem := rfl
@[simp] theorem withMasks_pcie (s : State) (x : Tab Mask) : (s.withMasks x).pcie = s.pcie := rfl
@[simp] theorem withMasks_pev (s : State) (x : Tab Mask) : (s.withMasks x).pev = s.pev := rfl
@[simp] theorem withMasks_ks (s : State) (x : Tab Mask) : (s.withMasks x).ks = s.ks := rfl
@[simp] theorem withMasks_lo (s : State) (x : Tab Mask) : (s.withMasks x).lo = s.lo := rfl
@[simp] theorem withMasks_cond (s : State) (x : Tab Mask) : (s.withMasks x).cond = s.cond := rfl
@[simp] theorem withMasks_ing (s : State) (x : Tab Mask) : (s.withMasks x).ing = s.ing := rfl
@[simp] theorem withMasks_ring (s : State) (x : Tab Mask) : (s.withMasks x).ring = s.ring := rfl
@[simp] theorem withMasks_trig (s : State) (x : Tab Mask) : (s.withMasks x).trig = s.trig := rfl
@[simp] theorem withMasks_fes (s : State) (x : Tab Mask) : (s.withMasks x).fes = s.fes := rfl
@[simp] theorem withMasks_cal (s : State) (x : Tab Mask) : (s.withMasks x).cal = s.cal := rfl
@[simp] theorem withMasks_acq (s : State) (x : Tab Mask) : (s.withMasks x).acq = s.acq := rfl
@[simp] theorem withMasks_span (s : State) (x : Tab Mask) : (s.withMasks x).span = s.span := rfl
@[simp] theorem withMasks_hrs (s : State) (x : Tab Mask) : (s.withMasks x).hrs = s.hrs := rfl
@[simp] theorem withMasks_net (s : State) (x : Tab Mask) : (s.withMasks x).net = s.net := rfl
@[simp] theorem withMasks_views (s : State) (x : Tab Mask) : (s.withMasks x).views = s.views := rfl
@[simp] theorem withMasks_girders (s : State) (x : Tab Mask) : (s.withMasks x).girders = s.girders := rfl
@[simp] theorem withMasks_toll (s : State) (x : Tab Mask) : (s.withMasks x).toll = s.toll := rfl
@[simp] theorem withMasks_prods (s : State) (x : Tab Mask) : (s.withMasks x).prods = s.prods := rfl
@[simp] theorem withMasks_masks (s : State) (x : Tab Mask) : (s.withMasks x).masks = x := rfl
@[simp] theorem withMasks_movers (s : State) (x : Tab Mask) : (s.withMasks x).movers = s.movers := rfl
@[simp] theorem withMasks_cores (s : State) (x : Tab Mask) : (s.withMasks x).cores = s.cores := rfl
@[simp] theorem withMasks_recd (s : State) (x : Tab Mask) : (s.withMasks x).recd = s.recd := rfl
@[simp] theorem withMasks_heads (s : State) (x : Tab Mask) : (s.withMasks x).heads = s.heads := rfl
@[simp] theorem withMasks_mon (s : State) (x : Tab Mask) : (s.withMasks x).mon = s.mon := rfl
@[simp] theorem withMasks_sec (s : State) (x : Tab Mask) : (s.withMasks x).sec = s.sec := rfl
@[simp] theorem withMasks_start (s : State) (x : Tab Mask) : (s.withMasks x).start = s.start := rfl
@[simp] theorem withMasks_pel (s : State) (x : Tab Mask) : (s.withMasks x).pel = s.pel := rfl
@[simp] theorem withMovers_pending (s : State) (x : Tab Mover) : (s.withMovers x).pending = s.pending := rfl
@[simp] theorem withMovers_free (s : State) (x : Tab Mover) : (s.withMovers x).free = s.free := rfl
@[simp] theorem withMovers_wall (s : State) (x : Tab Mover) : (s.withMovers x).wall = s.wall := rfl
@[simp] theorem withMovers_time (s : State) (x : Tab Mover) : (s.withMovers x).time = s.time := rfl
@[simp] theorem withMovers_dict (s : State) (x : Tab Mover) : (s.withMovers x).dict = s.dict := rfl
@[simp] theorem withMovers_undo (s : State) (x : Tab Mover) : (s.withMovers x).undo = s.undo := rfl
@[simp] theorem withMovers_groups (s : State) (x : Tab Mover) : (s.withMovers x).groups = s.groups := rfl
@[simp] theorem withMovers_due (s : State) (x : Tab Mover) : (s.withMovers x).due = s.due := rfl
@[simp] theorem withMovers_result (s : State) (x : Tab Mover) : (s.withMovers x).result = s.result := rfl
@[simp] theorem withMovers_outbox (s : State) (x : Tab Mover) : (s.withMovers x).outbox = s.outbox := rfl
@[simp] theorem withMovers_mem (s : State) (x : Tab Mover) : (s.withMovers x).mem = s.mem := rfl
@[simp] theorem withMovers_pcie (s : State) (x : Tab Mover) : (s.withMovers x).pcie = s.pcie := rfl
@[simp] theorem withMovers_pev (s : State) (x : Tab Mover) : (s.withMovers x).pev = s.pev := rfl
@[simp] theorem withMovers_ks (s : State) (x : Tab Mover) : (s.withMovers x).ks = s.ks := rfl
@[simp] theorem withMovers_lo (s : State) (x : Tab Mover) : (s.withMovers x).lo = s.lo := rfl
@[simp] theorem withMovers_cond (s : State) (x : Tab Mover) : (s.withMovers x).cond = s.cond := rfl
@[simp] theorem withMovers_ing (s : State) (x : Tab Mover) : (s.withMovers x).ing = s.ing := rfl
@[simp] theorem withMovers_ring (s : State) (x : Tab Mover) : (s.withMovers x).ring = s.ring := rfl
@[simp] theorem withMovers_trig (s : State) (x : Tab Mover) : (s.withMovers x).trig = s.trig := rfl
@[simp] theorem withMovers_fes (s : State) (x : Tab Mover) : (s.withMovers x).fes = s.fes := rfl
@[simp] theorem withMovers_cal (s : State) (x : Tab Mover) : (s.withMovers x).cal = s.cal := rfl
@[simp] theorem withMovers_acq (s : State) (x : Tab Mover) : (s.withMovers x).acq = s.acq := rfl
@[simp] theorem withMovers_span (s : State) (x : Tab Mover) : (s.withMovers x).span = s.span := rfl
@[simp] theorem withMovers_hrs (s : State) (x : Tab Mover) : (s.withMovers x).hrs = s.hrs := rfl
@[simp] theorem withMovers_net (s : State) (x : Tab Mover) : (s.withMovers x).net = s.net := rfl
@[simp] theorem withMovers_views (s : State) (x : Tab Mover) : (s.withMovers x).views = s.views := rfl
@[simp] theorem withMovers_girders (s : State) (x : Tab Mover) : (s.withMovers x).girders = s.girders := rfl
@[simp] theorem withMovers_toll (s : State) (x : Tab Mover) : (s.withMovers x).toll = s.toll := rfl
@[simp] theorem withMovers_prods (s : State) (x : Tab Mover) : (s.withMovers x).prods = s.prods := rfl
@[simp] theorem withMovers_masks (s : State) (x : Tab Mover) : (s.withMovers x).masks = s.masks := rfl
@[simp] theorem withMovers_movers (s : State) (x : Tab Mover) : (s.withMovers x).movers = x := rfl
@[simp] theorem withMovers_cores (s : State) (x : Tab Mover) : (s.withMovers x).cores = s.cores := rfl
@[simp] theorem withMovers_recd (s : State) (x : Tab Mover) : (s.withMovers x).recd = s.recd := rfl
@[simp] theorem withMovers_heads (s : State) (x : Tab Mover) : (s.withMovers x).heads = s.heads := rfl
@[simp] theorem withMovers_mon (s : State) (x : Tab Mover) : (s.withMovers x).mon = s.mon := rfl
@[simp] theorem withMovers_sec (s : State) (x : Tab Mover) : (s.withMovers x).sec = s.sec := rfl
@[simp] theorem withMovers_start (s : State) (x : Tab Mover) : (s.withMovers x).start = s.start := rfl
@[simp] theorem withMovers_pel (s : State) (x : Tab Mover) : (s.withMovers x).pel = s.pel := rfl
@[simp] theorem withCores_pending (s : State) (x : Tab Core) : (s.withCores x).pending = s.pending := rfl
@[simp] theorem withCores_free (s : State) (x : Tab Core) : (s.withCores x).free = s.free := rfl
@[simp] theorem withCores_wall (s : State) (x : Tab Core) : (s.withCores x).wall = s.wall := rfl
@[simp] theorem withCores_time (s : State) (x : Tab Core) : (s.withCores x).time = s.time := rfl
@[simp] theorem withCores_dict (s : State) (x : Tab Core) : (s.withCores x).dict = s.dict := rfl
@[simp] theorem withCores_undo (s : State) (x : Tab Core) : (s.withCores x).undo = s.undo := rfl
@[simp] theorem withCores_groups (s : State) (x : Tab Core) : (s.withCores x).groups = s.groups := rfl
@[simp] theorem withCores_due (s : State) (x : Tab Core) : (s.withCores x).due = s.due := rfl
@[simp] theorem withCores_result (s : State) (x : Tab Core) : (s.withCores x).result = s.result := rfl
@[simp] theorem withCores_outbox (s : State) (x : Tab Core) : (s.withCores x).outbox = s.outbox := rfl
@[simp] theorem withCores_mem (s : State) (x : Tab Core) : (s.withCores x).mem = s.mem := rfl
@[simp] theorem withCores_pcie (s : State) (x : Tab Core) : (s.withCores x).pcie = s.pcie := rfl
@[simp] theorem withCores_pev (s : State) (x : Tab Core) : (s.withCores x).pev = s.pev := rfl
@[simp] theorem withCores_ks (s : State) (x : Tab Core) : (s.withCores x).ks = s.ks := rfl
@[simp] theorem withCores_lo (s : State) (x : Tab Core) : (s.withCores x).lo = s.lo := rfl
@[simp] theorem withCores_cond (s : State) (x : Tab Core) : (s.withCores x).cond = s.cond := rfl
@[simp] theorem withCores_ing (s : State) (x : Tab Core) : (s.withCores x).ing = s.ing := rfl
@[simp] theorem withCores_ring (s : State) (x : Tab Core) : (s.withCores x).ring = s.ring := rfl
@[simp] theorem withCores_trig (s : State) (x : Tab Core) : (s.withCores x).trig = s.trig := rfl
@[simp] theorem withCores_fes (s : State) (x : Tab Core) : (s.withCores x).fes = s.fes := rfl
@[simp] theorem withCores_cal (s : State) (x : Tab Core) : (s.withCores x).cal = s.cal := rfl
@[simp] theorem withCores_acq (s : State) (x : Tab Core) : (s.withCores x).acq = s.acq := rfl
@[simp] theorem withCores_span (s : State) (x : Tab Core) : (s.withCores x).span = s.span := rfl
@[simp] theorem withCores_hrs (s : State) (x : Tab Core) : (s.withCores x).hrs = s.hrs := rfl
@[simp] theorem withCores_net (s : State) (x : Tab Core) : (s.withCores x).net = s.net := rfl
@[simp] theorem withCores_views (s : State) (x : Tab Core) : (s.withCores x).views = s.views := rfl
@[simp] theorem withCores_girders (s : State) (x : Tab Core) : (s.withCores x).girders = s.girders := rfl
@[simp] theorem withCores_toll (s : State) (x : Tab Core) : (s.withCores x).toll = s.toll := rfl
@[simp] theorem withCores_prods (s : State) (x : Tab Core) : (s.withCores x).prods = s.prods := rfl
@[simp] theorem withCores_masks (s : State) (x : Tab Core) : (s.withCores x).masks = s.masks := rfl
@[simp] theorem withCores_movers (s : State) (x : Tab Core) : (s.withCores x).movers = s.movers := rfl
@[simp] theorem withCores_cores (s : State) (x : Tab Core) : (s.withCores x).cores = x := rfl
@[simp] theorem withCores_recd (s : State) (x : Tab Core) : (s.withCores x).recd = s.recd := rfl
@[simp] theorem withCores_heads (s : State) (x : Tab Core) : (s.withCores x).heads = s.heads := rfl
@[simp] theorem withCores_mon (s : State) (x : Tab Core) : (s.withCores x).mon = s.mon := rfl
@[simp] theorem withCores_sec (s : State) (x : Tab Core) : (s.withCores x).sec = s.sec := rfl
@[simp] theorem withCores_start (s : State) (x : Tab Core) : (s.withCores x).start = s.start := rfl
@[simp] theorem withCores_pel (s : State) (x : Tab Core) : (s.withCores x).pel = s.pel := rfl
@[simp] theorem withRecd_pending (s : State) (x : Recorder) : (s.withRecd x).pending = s.pending := rfl
@[simp] theorem withRecd_free (s : State) (x : Recorder) : (s.withRecd x).free = s.free := rfl
@[simp] theorem withRecd_wall (s : State) (x : Recorder) : (s.withRecd x).wall = s.wall := rfl
@[simp] theorem withRecd_time (s : State) (x : Recorder) : (s.withRecd x).time = s.time := rfl
@[simp] theorem withRecd_dict (s : State) (x : Recorder) : (s.withRecd x).dict = s.dict := rfl
@[simp] theorem withRecd_undo (s : State) (x : Recorder) : (s.withRecd x).undo = s.undo := rfl
@[simp] theorem withRecd_groups (s : State) (x : Recorder) : (s.withRecd x).groups = s.groups := rfl
@[simp] theorem withRecd_due (s : State) (x : Recorder) : (s.withRecd x).due = s.due := rfl
@[simp] theorem withRecd_result (s : State) (x : Recorder) : (s.withRecd x).result = s.result := rfl
@[simp] theorem withRecd_outbox (s : State) (x : Recorder) : (s.withRecd x).outbox = s.outbox := rfl
@[simp] theorem withRecd_mem (s : State) (x : Recorder) : (s.withRecd x).mem = s.mem := rfl
@[simp] theorem withRecd_pcie (s : State) (x : Recorder) : (s.withRecd x).pcie = s.pcie := rfl
@[simp] theorem withRecd_pev (s : State) (x : Recorder) : (s.withRecd x).pev = s.pev := rfl
@[simp] theorem withRecd_ks (s : State) (x : Recorder) : (s.withRecd x).ks = s.ks := rfl
@[simp] theorem withRecd_lo (s : State) (x : Recorder) : (s.withRecd x).lo = s.lo := rfl
@[simp] theorem withRecd_cond (s : State) (x : Recorder) : (s.withRecd x).cond = s.cond := rfl
@[simp] theorem withRecd_ing (s : State) (x : Recorder) : (s.withRecd x).ing = s.ing := rfl
@[simp] theorem withRecd_ring (s : State) (x : Recorder) : (s.withRecd x).ring = s.ring := rfl
@[simp] theorem withRecd_trig (s : State) (x : Recorder) : (s.withRecd x).trig = s.trig := rfl
@[simp] theorem withRecd_fes (s : State) (x : Recorder) : (s.withRecd x).fes = s.fes := rfl
@[simp] theorem withRecd_cal (s : State) (x : Recorder) : (s.withRecd x).cal = s.cal := rfl
@[simp] theorem withRecd_acq (s : State) (x : Recorder) : (s.withRecd x).acq = s.acq := rfl
@[simp] theorem withRecd_span (s : State) (x : Recorder) : (s.withRecd x).span = s.span := rfl
@[simp] theorem withRecd_hrs (s : State) (x : Recorder) : (s.withRecd x).hrs = s.hrs := rfl
@[simp] theorem withRecd_net (s : State) (x : Recorder) : (s.withRecd x).net = s.net := rfl
@[simp] theorem withRecd_views (s : State) (x : Recorder) : (s.withRecd x).views = s.views := rfl
@[simp] theorem withRecd_girders (s : State) (x : Recorder) : (s.withRecd x).girders = s.girders := rfl
@[simp] theorem withRecd_toll (s : State) (x : Recorder) : (s.withRecd x).toll = s.toll := rfl
@[simp] theorem withRecd_prods (s : State) (x : Recorder) : (s.withRecd x).prods = s.prods := rfl
@[simp] theorem withRecd_masks (s : State) (x : Recorder) : (s.withRecd x).masks = s.masks := rfl
@[simp] theorem withRecd_movers (s : State) (x : Recorder) : (s.withRecd x).movers = s.movers := rfl
@[simp] theorem withRecd_cores (s : State) (x : Recorder) : (s.withRecd x).cores = s.cores := rfl
@[simp] theorem withRecd_recd (s : State) (x : Recorder) : (s.withRecd x).recd = x := rfl
@[simp] theorem withRecd_heads (s : State) (x : Recorder) : (s.withRecd x).heads = s.heads := rfl
@[simp] theorem withRecd_mon (s : State) (x : Recorder) : (s.withRecd x).mon = s.mon := rfl
@[simp] theorem withRecd_sec (s : State) (x : Recorder) : (s.withRecd x).sec = s.sec := rfl
@[simp] theorem withRecd_start (s : State) (x : Recorder) : (s.withRecd x).start = s.start := rfl
@[simp] theorem withRecd_pel (s : State) (x : Recorder) : (s.withRecd x).pel = s.pel := rfl
@[simp] theorem withHeads_pending (s : State) (x : Tab Head) : (s.withHeads x).pending = s.pending := rfl
@[simp] theorem withHeads_free (s : State) (x : Tab Head) : (s.withHeads x).free = s.free := rfl
@[simp] theorem withHeads_wall (s : State) (x : Tab Head) : (s.withHeads x).wall = s.wall := rfl
@[simp] theorem withHeads_time (s : State) (x : Tab Head) : (s.withHeads x).time = s.time := rfl
@[simp] theorem withHeads_dict (s : State) (x : Tab Head) : (s.withHeads x).dict = s.dict := rfl
@[simp] theorem withHeads_undo (s : State) (x : Tab Head) : (s.withHeads x).undo = s.undo := rfl
@[simp] theorem withHeads_groups (s : State) (x : Tab Head) : (s.withHeads x).groups = s.groups := rfl
@[simp] theorem withHeads_due (s : State) (x : Tab Head) : (s.withHeads x).due = s.due := rfl
@[simp] theorem withHeads_result (s : State) (x : Tab Head) : (s.withHeads x).result = s.result := rfl
@[simp] theorem withHeads_outbox (s : State) (x : Tab Head) : (s.withHeads x).outbox = s.outbox := rfl
@[simp] theorem withHeads_mem (s : State) (x : Tab Head) : (s.withHeads x).mem = s.mem := rfl
@[simp] theorem withHeads_pcie (s : State) (x : Tab Head) : (s.withHeads x).pcie = s.pcie := rfl
@[simp] theorem withHeads_pev (s : State) (x : Tab Head) : (s.withHeads x).pev = s.pev := rfl
@[simp] theorem withHeads_ks (s : State) (x : Tab Head) : (s.withHeads x).ks = s.ks := rfl
@[simp] theorem withHeads_lo (s : State) (x : Tab Head) : (s.withHeads x).lo = s.lo := rfl
@[simp] theorem withHeads_cond (s : State) (x : Tab Head) : (s.withHeads x).cond = s.cond := rfl
@[simp] theorem withHeads_ing (s : State) (x : Tab Head) : (s.withHeads x).ing = s.ing := rfl
@[simp] theorem withHeads_ring (s : State) (x : Tab Head) : (s.withHeads x).ring = s.ring := rfl
@[simp] theorem withHeads_trig (s : State) (x : Tab Head) : (s.withHeads x).trig = s.trig := rfl
@[simp] theorem withHeads_fes (s : State) (x : Tab Head) : (s.withHeads x).fes = s.fes := rfl
@[simp] theorem withHeads_cal (s : State) (x : Tab Head) : (s.withHeads x).cal = s.cal := rfl
@[simp] theorem withHeads_acq (s : State) (x : Tab Head) : (s.withHeads x).acq = s.acq := rfl
@[simp] theorem withHeads_span (s : State) (x : Tab Head) : (s.withHeads x).span = s.span := rfl
@[simp] theorem withHeads_hrs (s : State) (x : Tab Head) : (s.withHeads x).hrs = s.hrs := rfl
@[simp] theorem withHeads_net (s : State) (x : Tab Head) : (s.withHeads x).net = s.net := rfl
@[simp] theorem withHeads_views (s : State) (x : Tab Head) : (s.withHeads x).views = s.views := rfl
@[simp] theorem withHeads_girders (s : State) (x : Tab Head) : (s.withHeads x).girders = s.girders := rfl
@[simp] theorem withHeads_toll (s : State) (x : Tab Head) : (s.withHeads x).toll = s.toll := rfl
@[simp] theorem withHeads_prods (s : State) (x : Tab Head) : (s.withHeads x).prods = s.prods := rfl
@[simp] theorem withHeads_masks (s : State) (x : Tab Head) : (s.withHeads x).masks = s.masks := rfl
@[simp] theorem withHeads_movers (s : State) (x : Tab Head) : (s.withHeads x).movers = s.movers := rfl
@[simp] theorem withHeads_cores (s : State) (x : Tab Head) : (s.withHeads x).cores = s.cores := rfl
@[simp] theorem withHeads_recd (s : State) (x : Tab Head) : (s.withHeads x).recd = s.recd := rfl
@[simp] theorem withHeads_heads (s : State) (x : Tab Head) : (s.withHeads x).heads = x := rfl
@[simp] theorem withHeads_mon (s : State) (x : Tab Head) : (s.withHeads x).mon = s.mon := rfl
@[simp] theorem withHeads_sec (s : State) (x : Tab Head) : (s.withHeads x).sec = s.sec := rfl
@[simp] theorem withHeads_start (s : State) (x : Tab Head) : (s.withHeads x).start = s.start := rfl
@[simp] theorem withHeads_pel (s : State) (x : Tab Head) : (s.withHeads x).pel = s.pel := rfl
@[simp] theorem withMon_pending (s : State) (x : Monitor) : (s.withMon x).pending = s.pending := rfl
@[simp] theorem withMon_free (s : State) (x : Monitor) : (s.withMon x).free = s.free := rfl
@[simp] theorem withMon_wall (s : State) (x : Monitor) : (s.withMon x).wall = s.wall := rfl
@[simp] theorem withMon_time (s : State) (x : Monitor) : (s.withMon x).time = s.time := rfl
@[simp] theorem withMon_dict (s : State) (x : Monitor) : (s.withMon x).dict = s.dict := rfl
@[simp] theorem withMon_undo (s : State) (x : Monitor) : (s.withMon x).undo = s.undo := rfl
@[simp] theorem withMon_groups (s : State) (x : Monitor) : (s.withMon x).groups = s.groups := rfl
@[simp] theorem withMon_due (s : State) (x : Monitor) : (s.withMon x).due = s.due := rfl
@[simp] theorem withMon_result (s : State) (x : Monitor) : (s.withMon x).result = s.result := rfl
@[simp] theorem withMon_outbox (s : State) (x : Monitor) : (s.withMon x).outbox = s.outbox := rfl
@[simp] theorem withMon_mem (s : State) (x : Monitor) : (s.withMon x).mem = s.mem := rfl
@[simp] theorem withMon_pcie (s : State) (x : Monitor) : (s.withMon x).pcie = s.pcie := rfl
@[simp] theorem withMon_pev (s : State) (x : Monitor) : (s.withMon x).pev = s.pev := rfl
@[simp] theorem withMon_ks (s : State) (x : Monitor) : (s.withMon x).ks = s.ks := rfl
@[simp] theorem withMon_lo (s : State) (x : Monitor) : (s.withMon x).lo = s.lo := rfl
@[simp] theorem withMon_cond (s : State) (x : Monitor) : (s.withMon x).cond = s.cond := rfl
@[simp] theorem withMon_ing (s : State) (x : Monitor) : (s.withMon x).ing = s.ing := rfl
@[simp] theorem withMon_ring (s : State) (x : Monitor) : (s.withMon x).ring = s.ring := rfl
@[simp] theorem withMon_trig (s : State) (x : Monitor) : (s.withMon x).trig = s.trig := rfl
@[simp] theorem withMon_fes (s : State) (x : Monitor) : (s.withMon x).fes = s.fes := rfl
@[simp] theorem withMon_cal (s : State) (x : Monitor) : (s.withMon x).cal = s.cal := rfl
@[simp] theorem withMon_acq (s : State) (x : Monitor) : (s.withMon x).acq = s.acq := rfl
@[simp] theorem withMon_span (s : State) (x : Monitor) : (s.withMon x).span = s.span := rfl
@[simp] theorem withMon_hrs (s : State) (x : Monitor) : (s.withMon x).hrs = s.hrs := rfl
@[simp] theorem withMon_net (s : State) (x : Monitor) : (s.withMon x).net = s.net := rfl
@[simp] theorem withMon_views (s : State) (x : Monitor) : (s.withMon x).views = s.views := rfl
@[simp] theorem withMon_girders (s : State) (x : Monitor) : (s.withMon x).girders = s.girders := rfl
@[simp] theorem withMon_toll (s : State) (x : Monitor) : (s.withMon x).toll = s.toll := rfl
@[simp] theorem withMon_prods (s : State) (x : Monitor) : (s.withMon x).prods = s.prods := rfl
@[simp] theorem withMon_masks (s : State) (x : Monitor) : (s.withMon x).masks = s.masks := rfl
@[simp] theorem withMon_movers (s : State) (x : Monitor) : (s.withMon x).movers = s.movers := rfl
@[simp] theorem withMon_cores (s : State) (x : Monitor) : (s.withMon x).cores = s.cores := rfl
@[simp] theorem withMon_recd (s : State) (x : Monitor) : (s.withMon x).recd = s.recd := rfl
@[simp] theorem withMon_heads (s : State) (x : Monitor) : (s.withMon x).heads = s.heads := rfl
@[simp] theorem withMon_mon (s : State) (x : Monitor) : (s.withMon x).mon = x := rfl
@[simp] theorem withMon_sec (s : State) (x : Monitor) : (s.withMon x).sec = s.sec := rfl
@[simp] theorem withMon_start (s : State) (x : Monitor) : (s.withMon x).start = s.start := rfl
@[simp] theorem withMon_pel (s : State) (x : Monitor) : (s.withMon x).pel = s.pel := rfl
@[simp] theorem withSec_pending (s : State) (x : Security) : (s.withSec x).pending = s.pending := rfl
@[simp] theorem withSec_free (s : State) (x : Security) : (s.withSec x).free = s.free := rfl
@[simp] theorem withSec_wall (s : State) (x : Security) : (s.withSec x).wall = s.wall := rfl
@[simp] theorem withSec_time (s : State) (x : Security) : (s.withSec x).time = s.time := rfl
@[simp] theorem withSec_dict (s : State) (x : Security) : (s.withSec x).dict = s.dict := rfl
@[simp] theorem withSec_undo (s : State) (x : Security) : (s.withSec x).undo = s.undo := rfl
@[simp] theorem withSec_groups (s : State) (x : Security) : (s.withSec x).groups = s.groups := rfl
@[simp] theorem withSec_due (s : State) (x : Security) : (s.withSec x).due = s.due := rfl
@[simp] theorem withSec_result (s : State) (x : Security) : (s.withSec x).result = s.result := rfl
@[simp] theorem withSec_outbox (s : State) (x : Security) : (s.withSec x).outbox = s.outbox := rfl
@[simp] theorem withSec_mem (s : State) (x : Security) : (s.withSec x).mem = s.mem := rfl
@[simp] theorem withSec_pcie (s : State) (x : Security) : (s.withSec x).pcie = s.pcie := rfl
@[simp] theorem withSec_pev (s : State) (x : Security) : (s.withSec x).pev = s.pev := rfl
@[simp] theorem withSec_ks (s : State) (x : Security) : (s.withSec x).ks = s.ks := rfl
@[simp] theorem withSec_lo (s : State) (x : Security) : (s.withSec x).lo = s.lo := rfl
@[simp] theorem withSec_cond (s : State) (x : Security) : (s.withSec x).cond = s.cond := rfl
@[simp] theorem withSec_ing (s : State) (x : Security) : (s.withSec x).ing = s.ing := rfl
@[simp] theorem withSec_ring (s : State) (x : Security) : (s.withSec x).ring = s.ring := rfl
@[simp] theorem withSec_trig (s : State) (x : Security) : (s.withSec x).trig = s.trig := rfl
@[simp] theorem withSec_fes (s : State) (x : Security) : (s.withSec x).fes = s.fes := rfl
@[simp] theorem withSec_cal (s : State) (x : Security) : (s.withSec x).cal = s.cal := rfl
@[simp] theorem withSec_acq (s : State) (x : Security) : (s.withSec x).acq = s.acq := rfl
@[simp] theorem withSec_span (s : State) (x : Security) : (s.withSec x).span = s.span := rfl
@[simp] theorem withSec_hrs (s : State) (x : Security) : (s.withSec x).hrs = s.hrs := rfl
@[simp] theorem withSec_net (s : State) (x : Security) : (s.withSec x).net = s.net := rfl
@[simp] theorem withSec_views (s : State) (x : Security) : (s.withSec x).views = s.views := rfl
@[simp] theorem withSec_girders (s : State) (x : Security) : (s.withSec x).girders = s.girders := rfl
@[simp] theorem withSec_toll (s : State) (x : Security) : (s.withSec x).toll = s.toll := rfl
@[simp] theorem withSec_prods (s : State) (x : Security) : (s.withSec x).prods = s.prods := rfl
@[simp] theorem withSec_masks (s : State) (x : Security) : (s.withSec x).masks = s.masks := rfl
@[simp] theorem withSec_movers (s : State) (x : Security) : (s.withSec x).movers = s.movers := rfl
@[simp] theorem withSec_cores (s : State) (x : Security) : (s.withSec x).cores = s.cores := rfl
@[simp] theorem withSec_recd (s : State) (x : Security) : (s.withSec x).recd = s.recd := rfl
@[simp] theorem withSec_heads (s : State) (x : Security) : (s.withSec x).heads = s.heads := rfl
@[simp] theorem withSec_mon (s : State) (x : Security) : (s.withSec x).mon = s.mon := rfl
@[simp] theorem withSec_sec (s : State) (x : Security) : (s.withSec x).sec = x := rfl
@[simp] theorem withSec_start (s : State) (x : Security) : (s.withSec x).start = s.start := rfl
@[simp] theorem withSec_pel (s : State) (x : Security) : (s.withSec x).pel = s.pel := rfl
@[simp] theorem withStart_pending (s : State) (x : Startup) : (s.withStart x).pending = s.pending := rfl
@[simp] theorem withStart_free (s : State) (x : Startup) : (s.withStart x).free = s.free := rfl
@[simp] theorem withStart_wall (s : State) (x : Startup) : (s.withStart x).wall = s.wall := rfl
@[simp] theorem withStart_time (s : State) (x : Startup) : (s.withStart x).time = s.time := rfl
@[simp] theorem withStart_dict (s : State) (x : Startup) : (s.withStart x).dict = s.dict := rfl
@[simp] theorem withStart_undo (s : State) (x : Startup) : (s.withStart x).undo = s.undo := rfl
@[simp] theorem withStart_groups (s : State) (x : Startup) : (s.withStart x).groups = s.groups := rfl
@[simp] theorem withStart_due (s : State) (x : Startup) : (s.withStart x).due = s.due := rfl
@[simp] theorem withStart_result (s : State) (x : Startup) : (s.withStart x).result = s.result := rfl
@[simp] theorem withStart_outbox (s : State) (x : Startup) : (s.withStart x).outbox = s.outbox := rfl
@[simp] theorem withStart_mem (s : State) (x : Startup) : (s.withStart x).mem = s.mem := rfl
@[simp] theorem withStart_pcie (s : State) (x : Startup) : (s.withStart x).pcie = s.pcie := rfl
@[simp] theorem withStart_pev (s : State) (x : Startup) : (s.withStart x).pev = s.pev := rfl
@[simp] theorem withStart_ks (s : State) (x : Startup) : (s.withStart x).ks = s.ks := rfl
@[simp] theorem withStart_lo (s : State) (x : Startup) : (s.withStart x).lo = s.lo := rfl
@[simp] theorem withStart_cond (s : State) (x : Startup) : (s.withStart x).cond = s.cond := rfl
@[simp] theorem withStart_ing (s : State) (x : Startup) : (s.withStart x).ing = s.ing := rfl
@[simp] theorem withStart_ring (s : State) (x : Startup) : (s.withStart x).ring = s.ring := rfl
@[simp] theorem withStart_trig (s : State) (x : Startup) : (s.withStart x).trig = s.trig := rfl
@[simp] theorem withStart_fes (s : State) (x : Startup) : (s.withStart x).fes = s.fes := rfl
@[simp] theorem withStart_cal (s : State) (x : Startup) : (s.withStart x).cal = s.cal := rfl
@[simp] theorem withStart_acq (s : State) (x : Startup) : (s.withStart x).acq = s.acq := rfl
@[simp] theorem withStart_span (s : State) (x : Startup) : (s.withStart x).span = s.span := rfl
@[simp] theorem withStart_hrs (s : State) (x : Startup) : (s.withStart x).hrs = s.hrs := rfl
@[simp] theorem withStart_net (s : State) (x : Startup) : (s.withStart x).net = s.net := rfl
@[simp] theorem withStart_views (s : State) (x : Startup) : (s.withStart x).views = s.views := rfl
@[simp] theorem withStart_girders (s : State) (x : Startup) : (s.withStart x).girders = s.girders := rfl
@[simp] theorem withStart_toll (s : State) (x : Startup) : (s.withStart x).toll = s.toll := rfl
@[simp] theorem withStart_prods (s : State) (x : Startup) : (s.withStart x).prods = s.prods := rfl
@[simp] theorem withStart_masks (s : State) (x : Startup) : (s.withStart x).masks = s.masks := rfl
@[simp] theorem withStart_movers (s : State) (x : Startup) : (s.withStart x).movers = s.movers := rfl
@[simp] theorem withStart_cores (s : State) (x : Startup) : (s.withStart x).cores = s.cores := rfl
@[simp] theorem withStart_recd (s : State) (x : Startup) : (s.withStart x).recd = s.recd := rfl
@[simp] theorem withStart_heads (s : State) (x : Startup) : (s.withStart x).heads = s.heads := rfl
@[simp] theorem withStart_mon (s : State) (x : Startup) : (s.withStart x).mon = s.mon := rfl
@[simp] theorem withStart_sec (s : State) (x : Startup) : (s.withStart x).sec = s.sec := rfl
@[simp] theorem withStart_start (s : State) (x : Startup) : (s.withStart x).start = x := rfl
@[simp] theorem withStart_pel (s : State) (x : Startup) : (s.withStart x).pel = s.pel := rfl
@[simp] theorem withPel_pending (s : State) (x : Pelpin) : (s.withPel x).pending = s.pending := rfl
@[simp] theorem withPel_free (s : State) (x : Pelpin) : (s.withPel x).free = s.free := rfl
@[simp] theorem withPel_wall (s : State) (x : Pelpin) : (s.withPel x).wall = s.wall := rfl
@[simp] theorem withPel_time (s : State) (x : Pelpin) : (s.withPel x).time = s.time := rfl
@[simp] theorem withPel_dict (s : State) (x : Pelpin) : (s.withPel x).dict = s.dict := rfl
@[simp] theorem withPel_undo (s : State) (x : Pelpin) : (s.withPel x).undo = s.undo := rfl
@[simp] theorem withPel_groups (s : State) (x : Pelpin) : (s.withPel x).groups = s.groups := rfl
@[simp] theorem withPel_due (s : State) (x : Pelpin) : (s.withPel x).due = s.due := rfl
@[simp] theorem withPel_result (s : State) (x : Pelpin) : (s.withPel x).result = s.result := rfl
@[simp] theorem withPel_outbox (s : State) (x : Pelpin) : (s.withPel x).outbox = s.outbox := rfl
@[simp] theorem withPel_mem (s : State) (x : Pelpin) : (s.withPel x).mem = s.mem := rfl
@[simp] theorem withPel_pcie (s : State) (x : Pelpin) : (s.withPel x).pcie = s.pcie := rfl
@[simp] theorem withPel_pev (s : State) (x : Pelpin) : (s.withPel x).pev = s.pev := rfl
@[simp] theorem withPel_ks (s : State) (x : Pelpin) : (s.withPel x).ks = s.ks := rfl
@[simp] theorem withPel_lo (s : State) (x : Pelpin) : (s.withPel x).lo = s.lo := rfl
@[simp] theorem withPel_cond (s : State) (x : Pelpin) : (s.withPel x).cond = s.cond := rfl
@[simp] theorem withPel_ing (s : State) (x : Pelpin) : (s.withPel x).ing = s.ing := rfl
@[simp] theorem withPel_ring (s : State) (x : Pelpin) : (s.withPel x).ring = s.ring := rfl
@[simp] theorem withPel_trig (s : State) (x : Pelpin) : (s.withPel x).trig = s.trig := rfl
@[simp] theorem withPel_fes (s : State) (x : Pelpin) : (s.withPel x).fes = s.fes := rfl
@[simp] theorem withPel_cal (s : State) (x : Pelpin) : (s.withPel x).cal = s.cal := rfl
@[simp] theorem withPel_acq (s : State) (x : Pelpin) : (s.withPel x).acq = s.acq := rfl
@[simp] theorem withPel_span (s : State) (x : Pelpin) : (s.withPel x).span = s.span := rfl
@[simp] theorem withPel_hrs (s : State) (x : Pelpin) : (s.withPel x).hrs = s.hrs := rfl
@[simp] theorem withPel_net (s : State) (x : Pelpin) : (s.withPel x).net = s.net := rfl
@[simp] theorem withPel_views (s : State) (x : Pelpin) : (s.withPel x).views = s.views := rfl
@[simp] theorem withPel_girders (s : State) (x : Pelpin) : (s.withPel x).girders = s.girders := rfl
@[simp] theorem withPel_toll (s : State) (x : Pelpin) : (s.withPel x).toll = s.toll := rfl
@[simp] theorem withPel_prods (s : State) (x : Pelpin) : (s.withPel x).prods = s.prods := rfl
@[simp] theorem withPel_masks (s : State) (x : Pelpin) : (s.withPel x).masks = s.masks := rfl
@[simp] theorem withPel_movers (s : State) (x : Pelpin) : (s.withPel x).movers = s.movers := rfl
@[simp] theorem withPel_cores (s : State) (x : Pelpin) : (s.withPel x).cores = s.cores := rfl
@[simp] theorem withPel_recd (s : State) (x : Pelpin) : (s.withPel x).recd = s.recd := rfl
@[simp] theorem withPel_heads (s : State) (x : Pelpin) : (s.withPel x).heads = s.heads := rfl
@[simp] theorem withPel_mon (s : State) (x : Pelpin) : (s.withPel x).mon = s.mon := rfl
@[simp] theorem withPel_sec (s : State) (x : Pelpin) : (s.withPel x).sec = s.sec := rfl
@[simp] theorem withPel_start (s : State) (x : Pelpin) : (s.withPel x).start = s.start := rfl
@[simp] theorem withPel_pel (s : State) (x : Pelpin) : (s.withPel x).pel = x := rfl

end Sys2Proof.Machine.State
end

