-- ==== Sys2Proof/Laws/Objects.lean ====
section
/-! SUPPORT. Objects under updates: a read after a write, and what leaves objects alone (13 R350). -/

namespace Sys2Proof.Machine

theorem tabGet_tabInsert {α : Type} (d : α) (t : Tab α) (k : Nat) (v : α) (k' : Nat) (h : ∀ e ∈ t, e.1 ≠ k) :
    tabGet d (tabInsert k v t) k' = if k' = k then v else tabGet d t k' := by
  induction t with
  | nil => simp [tabInsert, tabGet]
  | cons e t ih =>
    obtain ⟨j, w⟩ := e
    have hj : j ≠ k := h (j, w) (by simp)
    have ih' := ih fun e he => h e (by simp [he])
    simp only [tabInsert]
    split
    · simp [tabGet]
    · simp only [tabGet, ih']
      by_cases h1 : k' = j
      · subst h1; simp [hj]
      · simp [h1]

theorem tabGet_filter {α : Type} (d : α) (t : Tab α) (k k' : Nat) :
    tabGet d (t.filter fun e => e.1 != k) k' = if k' = k then d else tabGet d t k' := by
  induction t with
  | nil => simp [tabGet]
  | cons e t ih =>
    obtain ⟨j, w⟩ := e
    by_cases hj : j = k
    · subst hj
      simp only [List.filter_cons, bne_self_eq_false, Bool.false_eq_true, if_false, ih, tabGet]
      split <;> rfl
    · have hb : (j != k) = true := by simp [hj]
      simp only [List.filter_cons, hb, if_true, tabGet, ih]
      by_cases h1 : k' = j
      · subst h1; simp [hj]
      · simp [h1]

/-- A sparse table gives other keys what it gave before. -/
theorem tabGet_tabSet_ne {α : Type} [DecidableEq α] (d d' : α) (t : Tab α) (k : Nat) (v : α) (k' : Nat) (h : k' ≠ k) :
    tabGet d' (tabSet d t k v) k' = tabGet d' t k' := by
  unfold tabSet
  split
  · rw [tabGet_filter]; simp [h]
  · rw [tabGet_tabInsert, tabGet_filter]
    · simp [h]
    · intro e he; simp at he; exact he.2

/-- A sparse table reads back what was written. -/
theorem tabGet_tabSet_self {α : Type} [DecidableEq α] (d : α) (t : Tab α) (k : Nat) (v : α) : tabGet d (tabSet d t k v) k = v := by
  unfold tabSet
  split
  · rename_i h; subst h; rw [tabGet_filter]; simp
  · rw [tabGet_tabInsert]
    · simp
    · intro e he; simp at he; exact he.2

/-- Both at once, with one default. -/
@[simp] theorem tabGet_tabSet {α : Type} [DecidableEq α] (d : α) (t : Tab α) (k : Nat) (v : α) (k' : Nat) :
    tabGet d (tabSet d t k v) k' = if k' = k then v else tabGet d t k' := by
  by_cases h : k' = k
  · subst h; simp [tabGet_tabSet_self]
  · simp [h, tabGet_tabSet_ne]

namespace State

/-- An object reads back what was written, in its width; every other object keeps its value. -/
@[simp] theorem obj_setObj (s : State) (k v k' : Nat) : (s.setObj k v).obj k' = if k' = k then v % 256 ^ lenOf k else s.obj k' := by
  simp only [obj, setObj]
  by_cases h : k' = k
  · subst h; simp
  · simp [h, tabGet_tabSet_ne]

/-- What does not touch the dictionary leaves every object. -/
theorem obj_of_dict (s t : State) (h : t.dict = s.dict) (k : Nat) : t.obj k = s.obj k := by simp [obj, h]

@[simp] theorem withPending_obj (s : State) (x : List Instr) (k : Nat) : (s.withPending x).obj k = s.obj k := rfl
@[simp] theorem withFree_obj (s : State) (x : Nat) (k : Nat) : (s.withFree x).obj k = s.obj k := rfl
@[simp] theorem withWall_obj (s : State) (x : Nat) (k : Nat) : (s.withWall x).obj k = s.obj k := rfl
@[simp] theorem withTime_obj (s : State) (x : KTime) (k : Nat) : (s.withTime x).obj k = s.obj k := rfl
@[simp] theorem withUndo_obj (s : State) (x : List (KTime × Nat × Nat)) (k : Nat) : (s.withUndo x).obj k = s.obj k := rfl
@[simp] theorem withGroups_obj (s : State) (x : List Group) (k : Nat) : (s.withGroups x).obj k = s.obj k := rfl
@[simp] theorem withDue_obj (s : State) (x : List (Nat × KTime)) (k : Nat) : (s.withDue x).obj k = s.obj k := rfl
@[simp] theorem withResult_obj (s : State) (x : Nat) (k : Nat) : (s.withResult x).obj k = s.obj k := rfl
@[simp] theorem withOutbox_obj (s : State) (x : List Emission) (k : Nat) : (s.withOutbox x).obj k = s.obj k := rfl
@[simp] theorem withMem_obj (s : State) (x : Mem) (k : Nat) : (s.withMem x).obj k = s.obj k := rfl
@[simp] theorem withPcie_obj (s : State) (x : Pcie) (k : Nat) : (s.withPcie x).obj k = s.obj k := rfl
@[simp] theorem withPev_obj (s : State) (x : PcieEvents) (k : Nat) : (s.withPev x).obj k = s.obj k := rfl
@[simp] theorem withKs_obj (s : State) (x : Ks) (k : Nat) : (s.withKs x).obj k = s.obj k := rfl
@[simp] theorem withLo_obj (s : State) (x : Lo) (k : Nat) : (s.withLo x).obj k = s.obj k := rfl
@[simp] theorem withCond_obj (s : State) (x : Conditions) (k : Nat) : (s.withCond x).obj k = s.obj k := rfl
@[simp] theorem withIng_obj (s : State) (x : Ingest) (k : Nat) : (s.withIng x).obj k = s.obj k := rfl
@[simp] theorem withRing_obj (s : State) (x : Ring) (k : Nat) : (s.withRing x).obj k = s.obj k := rfl
@[simp] theorem withTrig_obj (s : State) (x : Trig) (k : Nat) : (s.withTrig x).obj k = s.obj k := rfl
@[simp] theorem withFes_obj (s : State) (x : FrontEnds) (k : Nat) : (s.withFes x).obj k = s.obj k := rfl
@[simp] theorem withCal_obj (s : State) (x : Calibration) (k : Nat) : (s.withCal x).obj k = s.obj k := rfl
@[simp] theorem withAcq_obj (s : State) (x : Acq) (k : Nat) : (s.withAcq x).obj k = s.obj k := rfl
@[simp] theorem withSpan_obj (s : State) (x : Span) (k : Nat) : (s.withSpan x).obj k = s.obj k := rfl
@[simp] theorem withHrs_obj (s : State) (x : Tab HostRing) (k : Nat) : (s.withHrs x).obj k = s.obj k := rfl
@[simp] theorem withNet_obj (s : State) (x : Net) (k : Nat) : (s.withNet x).obj k = s.obj k := rfl
@[simp] theorem withViews_obj (s : State) (x : Views) (k : Nat) : (s.withViews x).obj k = s.obj k := rfl
@[simp] theorem withGirders_obj (s : State) (x : Tab Girder) (k : Nat) : (s.withGirders x).obj k = s.obj k := rfl
@[simp] theorem withToll_obj (s : State) (x : Toll) (k : Nat) : (s.withToll x).obj k = s.obj k := rfl
@[simp] theorem withProds_obj (s : State) (x : Products) (k : Nat) : (s.withProds x).obj k = s.obj k := rfl
@[simp] theorem withMasks_obj (s : State) (x : Tab Mask) (k : Nat) : (s.withMasks x).obj k = s.obj k := rfl
@[simp] theorem withMovers_obj (s : State) (x : Tab Mover) (k : Nat) : (s.withMovers x).obj k = s.obj k := rfl
@[simp] theorem withCores_obj (s : State) (x : Tab Core) (k : Nat) : (s.withCores x).obj k = s.obj k := rfl
@[simp] theorem withRecd_obj (s : State) (x : Recorder) (k : Nat) : (s.withRecd x).obj k = s.obj k := rfl
@[simp] theorem withHeads_obj (s : State) (x : Tab Head) (k : Nat) : (s.withHeads x).obj k = s.obj k := rfl
@[simp] theorem withMon_obj (s : State) (x : Monitor) (k : Nat) : (s.withMon x).obj k = s.obj k := rfl
@[simp] theorem withSec_obj (s : State) (x : Security) (k : Nat) : (s.withSec x).obj k = s.obj k := rfl
@[simp] theorem withStart_obj (s : State) (x : Startup) (k : Nat) : (s.withStart x).obj k = s.obj k := rfl
@[simp] theorem withPel_obj (s : State) (x : Pelpin) (k : Nat) : (s.withPel x).obj k = s.obj k := rfl

@[simp] theorem obj_setObjI (s : State) (k : Nat) (v : Int) (k' : Nat) : (s.setObjI k v).obj k' = if k' = k then ofSigned (8 * lenOf k) v % 256 ^ lenOf k else s.obj k' := by
  simp [setObjI]

@[simp] theorem obj_addObj (s : State) (k n k' : Nat) : (s.addObj k n).obj k' = if k' = k then (s.obj k + n) % 256 ^ lenOf k else s.obj k' := by simp [addObj]
@[simp] theorem obj_bump (s : State) (k k' : Nat) : (s.bump k).obj k' = if k' = k then (s.obj k + 1) % 256 ^ lenOf k else s.obj k' := by simp [bump]
@[simp] theorem obj_emit (s : State) (e : Emission) (k : Nat) : (s.emit e).obj k = s.obj k := rfl
@[simp] theorem obj_pendVector (s : State) (v k : Nat) : (s.pendVector v).obj k = s.obj k := rfl
@[simp] theorem obj_raiseEvent (s : State) (n k : Nat) : (s.raiseEvent n).obj k = s.obj k := by
  simp only [raiseEvent]; split <;> rfl
@[simp] theorem obj_drawNat (s : State) (n k : Nat) : (s.drawNat n).2.obj k = s.obj k := rfl
@[simp] theorem obj_accessError (s : State) (c b y d k : Nat) : (s.accessError c b y d).obj k = s.obj k := by simp [accessError]

/-- A write of one object changes the dictionary and nothing else. -/
theorem setObj_eq (s : State) (k v : Nat) : s.setObj k v = s.withDict (s.setObj k v).dict := rfl

/-- An event changes the event registers and nothing else (12 R331). -/
theorem raiseEvent_eq (s : State) (n : Nat) : s.raiseEvent n = s.withPev (s.raiseEvent n).pev := by
  simp only [raiseEvent]; split <;> rfl

/-- An event of a source is counted, modulo 2^32 (12 R331). -/
theorem raiseEvent_count (s : State) (n : Nat) : tabGet 0 (s.raiseEvent n).pev.evtCount n = (tabGet 0 s.pev.evtCount n + 1) % 2 ^ 32 := by
  simp only [raiseEvent]; split <;> simp [pendVector, tabUpd]

end State

end Sys2Proof.Machine
end

