-- ==== Sys2Proof/Laws/Memory.lean ====
section
/-! SUPPORT. The canonical form of sparse tables and of the DRAM contents: every operation keeps it, and a read after a write finds what was
written. -/

namespace Sys2Proof.Machine

/-- Every key of a table is above a bound. -/
def keysAbove {α : Type} (k : Nat) (t : Tab α) : Prop := ∀ e ∈ t, k < e.1

theorem tabWf_cons {α : Type} [DecidableEq α] (d : α) (k : Nat) (v : α) (t : Tab α) :
    tabWf d ((k, v) :: t) = true ↔ v ≠ d ∧ keysAbove k t ∧ tabWf d t = true := by
  induction t generalizing k v with
  | nil => simp [tabWf, keysAbove]
  | cons e t ih =>
    obtain ⟨k', v'⟩ := e
    simp only [tabWf, Bool.and_eq_true, decide_eq_true_eq]
    constructor
    · rintro ⟨⟨h1, h2⟩, h3⟩
      refine ⟨h1, ?_, h3⟩
      intro e he
      rcases List.mem_cons.mp he with rfl | he
      · exact h2
      · exact Nat.lt_trans h2 (((ih k' v').mp h3).2.1 e he)
    · rintro ⟨h1, h2, h3⟩
      exact ⟨⟨h1, h2 (k', v') (by simp)⟩, h3⟩

theorem tabWf_filter {α : Type} [DecidableEq α] (d : α) (p : Nat × α → Bool) : ∀ t : Tab α, tabWf d t = true → tabWf d (t.filter p) = true
  | [], _ => by simp [tabWf]
  | (k, v) :: t, h => by
    obtain ⟨h1, h2, h3⟩ := (tabWf_cons d k v t).mp h
    have ih := tabWf_filter d p t h3
    rw [List.filter_cons]
    split
    · refine (tabWf_cons d k v _).mpr ⟨h1, ?_, ih⟩
      intro e he
      exact h2 e (List.mem_of_mem_filter he)
    · exact ih

theorem tabWf_tabInsert {α : Type} [DecidableEq α] (d : α) (k : Nat) (v : α) (hv : v ≠ d) :
    ∀ t : Tab α, tabWf d t = true → (∀ e ∈ t, e.1 ≠ k) → tabWf d (tabInsert k v t) = true ∧ (∀ j, j < k → keysAbove j t → keysAbove j (tabInsert k v t))
  | [], _, _ => by simp [tabInsert, tabWf, hv, keysAbove]
  | (k', v') :: t, h, hk => by
    obtain ⟨h1, h2, h3⟩ := (tabWf_cons d k' v' t).mp h
    have hne : k' ≠ k := hk (k', v') (by simp)
    obtain ⟨i1, i2⟩ := tabWf_tabInsert d k v hv t h3 fun e he => hk e (by simp [he])
    simp only [tabInsert]
    split
    · rename_i hlt
      refine ⟨(tabWf_cons _ _ _ _).mpr ⟨hv, ?_, h⟩, ?_⟩
      · intro e he
        rcases List.mem_cons.mp he with rfl | he
        · exact hlt
        · exact Nat.lt_trans hlt (h2 e he)
      · intro j hj ha e he
        rcases List.mem_cons.mp he with rfl | he
        · exact hj
        · exact ha e he
    · refine ⟨(tabWf_cons _ _ _ _).mpr ⟨h1, i2 k' (by omega) h2, i1⟩, ?_⟩
      intro j hj ha e he
      rcases List.mem_cons.mp he with rfl | he
      · exact ha (k', v') (by simp)
      · exact i2 j hj (fun e he => ha e (by simp [he])) e he

/-- Setting an entry keeps the canonical form. -/
theorem tabWf_tabSet {α : Type} [DecidableEq α] (d : α) (t : Tab α) (k : Nat) (v : α) (h : tabWf d t = true) : tabWf d (tabSet d t k v) = true := by
  unfold tabSet
  have hf := tabWf_filter d (fun e => e.1 != k) t h
  split
  · exact hf
  · rename_i hv
    exact (tabWf_tabInsert d k v hv _ hf (by intro e he; simpa using (List.mem_filter.mp he).2)).1

/-- Writing bytes keeps the canonical form. -/
theorem writeCells_wf (cells : List Host.Cell) (a : Nat) (b : Bytes) (h : tabWf unlisted cells = true) : tabWf unlisted (writeCells cells a b) = true := by
  induction b generalizing cells a with
  | nil => exact h
  | cons x b ih => exact ih _ _ (tabWf_tabSet _ _ _ _ h)

/-- A byte below the written ones reads as before. -/
theorem writeCells_below (cells : List Host.Cell) (a : Nat) (b : Bytes) (x : Nat) (h : x < a) : tabGet unlisted (writeCells cells a b) x = tabGet unlisted cells x := by
  induction b generalizing cells a with
  | nil => rfl
  | cons y b ih => rw [writeCells, ih _ _ (by omega), tabGet_tabSet]; simp [show x ≠ a by omega]

/-- A read after a write gives the byte written. -/
theorem writeCells_inside (cells : List Host.Cell) (a : Nat) (b : Bytes) (i : Nat) (h : i < b.length) :
    tabGet unlisted (writeCells cells a b) (a + i) = b.getD i 0 := by
  induction b generalizing cells a i with
  | nil => simp at h
  | cons y b ih =>
    rw [writeCells]
    cases i with
    | zero => rw [Nat.add_zero, writeCells_below _ _ _ _ (by omega), tabGet_tabSet]; simp
    | succ i => rw [show a + (i + 1) = a + 1 + i by omega, ih _ _ _ (by simpa using h)]; simp

/-- A byte past the written ones reads as before. -/
theorem writeCells_above (cells : List Host.Cell) (a : Nat) (b : Bytes) (x : Nat) (h : a + b.length ≤ x) : tabGet unlisted (writeCells cells a b) x = tabGet unlisted cells x := by
  induction b generalizing cells a with
  | nil => rfl
  | cons y b ih => simp only [List.length_cons] at h; rw [writeCells, ih _ _ (by omega), tabGet_tabSet]; simp [show x ≠ a by omega]

/-- A masked write keeps the canonical form. -/
theorem writeMasked_wf (cells : List Host.Cell) (a : Nat) (ms : List Bool) (b : Bytes) (h : tabWf unlisted cells = true) :
    tabWf unlisted (writeMasked cells a ms b) = true := by
  induction ms generalizing cells a b with
  | nil => cases b with
    | nil => exact h
    | cons x r => exact writeCells_wf _ _ _ h
  | cons m ms ih => cases b with
    | nil => exact h
    | cons x r =>
      rw [writeMasked]
      split
      · exact ih _ _ _ (tabWf_tabSet _ _ _ _ h)
      · exact ih _ _ _ h

/-- A write without a mask writes every byte. -/
@[simp] theorem writeMasked_nil (cells : List Host.Cell) (a : Nat) (b : Bytes) : writeMasked cells a [] b = writeCells cells a b := by cases b <;> rfl

/-- A byte outside the extent of a masked write reads as before. -/
theorem writeMasked_outside (cells : List Host.Cell) (a : Nat) (ms : List Bool) (b : Bytes) (x : Nat) (h : x < a ∨ a + b.length ≤ x) :
    tabGet unlisted (writeMasked cells a ms b) x = tabGet unlisted cells x := by
  induction ms generalizing cells a b with
  | nil => rw [writeMasked_nil]; exact h.elim (writeCells_below _ _ _ _) (writeCells_above _ _ _ _)
  | cons m ms ih => cases b with
    | nil => rfl
    | cons y r =>
      simp only [List.length_cons] at h
      rw [writeMasked, ih _ _ _ (by omega)]
      split
      · rw [tabGet_tabSet]; simp [show x ≠ a by omega]
      · rfl

/-- Storing a write request keeps the canonical form. -/
theorem MemReq.store_wf (r : MemReq) (cells : List Host.Cell) (h : tabWf unlisted cells = true) : tabWf unlisted (r.store cells) = true :=
  writeMasked_wf _ _ _ _ h

/-- The contents keep the canonical form where a change of mem.grain places them anew (10 R271). -/
theorem regrainedCells_wf (s : State) (g : Nat) : tabWf unlisted (s.regrainedCells g) = true := by
  unfold State.regrainedCells
  have fold : ∀ (l : List Host.Cell) (f : Host.Cell → Nat) (t : List Host.Cell), tabWf unlisted t = true →
      tabWf unlisted (l.foldl (fun t e => tabSet unlisted t (f e) e.2) t) = true := by
    intro l
    induction l with
    | nil => intro f t h; exact h
    | cons e l ih => intro f t h; exact ih f _ (tabWf_tabSet _ _ _ _ h)
  exact fold s.mem.cells _ [] rfl

/-- The contents after reset are canonical. -/
theorem reset_mem_wf : tabWf unlisted State.reset.mem.cells = true := rfl

/-- A remapped lane's bytes are dropped, which keeps the canonical form (10 R286). -/
theorem remapLane_wf (s : State) (lane : Nat) (h : s.mem.wf = true) : (s.remapLane lane).mem.wf = true := by
  unfold State.remapLane
  split
  · exact h
  · exact tabWf_filter _ _ _ h

end Sys2Proof.Machine
end

