-- ==== Sys2Proof/Laws/Widths.lean ====
section
/-! SUPPORT. Widths of objects in bytes (13 Table 13-1), for the objects that the statements name. -/

namespace Sys2Proof.Machine

/-- Does one row hold subindex sb with length len at every index from ix on, for n indexes, and no row before it at any of them? -/
def rowsCover (ix n sb len : Nat) : List ObjRow → Bool
  | [] => false
  | r :: rs =>
    if r.sub ≤ sb ∧ sb < r.sub + r.subs * r.stride ∧ (sb - r.sub) % r.stride = 0 ∧ r.ix < ix + n ∧ ix < r.ix + r.ixs then
      decide (r.ix ≤ ix ∧ ix + n ≤ r.ix + r.ixs ∧ r.len = len)
    else rowsCover ix n sb len rs

theorem rowsCover_find (ix n sb len i : Nat) (h1 : ix ≤ i) (h2 : i < ix + n) :
    ∀ rs, rowsCover ix n sb len rs = true → ∃ r, rs.find? (·.holds i sb) = some r ∧ r.len = len
  | [], h => by simp [rowsCover] at h
  | r :: rs, h => by
    unfold rowsCover at h
    split at h
    · rename_i hc
      simp only [decide_eq_true_eq] at h
      refine ⟨r, ?_, h.2.2⟩
      have : r.holds i sb = true := by
        simp only [ObjRow.holds, Bool.and_eq_true, decide_eq_true_eq, beq_iff_eq]; omega
      simp [this]
    · rename_i hc
      obtain ⟨q, hq, hl⟩ := rowsCover_find ix n sb len i h1 h2 rs h
      refine ⟨q, ?_, hl⟩
      have : r.holds i sb = false := by
        by_contra hx
        simp only [Bool.not_eq_false, ObjRow.holds, Bool.and_eq_true, decide_eq_true_eq, beq_iff_eq] at hx
        exact hc (by omega)
      simp [this, hq]

/-- The width of an object whose rows are those of one page. -/
theorem lenOf_page (rows : List ObjRow) (ix n sb len k : Nat) (hr : rowsAt (k / 256) = rows) (hx : k / 256 ≠ 0x180B ∧ k / 256 ≠ 0x180F)
    (hs : k % 256 = sb) (h1 : ix ≤ k / 256) (h2 : k / 256 < ix + n) (hc : rowsCover ix n sb len rows = true) : lenOf k = len := by
  obtain ⟨r, hf, hl⟩ := rowsCover_find ix n sb len _ h1 h2 rows hc
  simp only [lenOf, rowOf, hx.1, hx.2, or_self, if_false, hr, hs, hf, hl]

theorem rowsAt_CalMon (ix : Nat) (h : 0x1300 ≤ ix ∧ ix ≤ 0x13FF) : rowsAt ix = rowsCalMon := by
  unfold rowsAt; repeat rw [if_neg (by omega)]
  rw [if_pos h]

theorem rowsAt_Contexts (ix : Nat) (h : 0x3000 ≤ ix ∧ ix ≤ 0x33FF) : rowsAt ix = rowsContexts := by
  unfold rowsAt; repeat rw [if_neg (by omega)]
  rw [if_pos h]

theorem rowsAt_Display (ix : Nat) (h : 0x1800 ≤ ix ∧ ix ≤ 0x18FF) : rowsAt ix = rowsDisplay := by
  unfold rowsAt; repeat rw [if_neg (by omega)]
  rw [if_pos h]

theorem rowsAt_FrontEnds (ix : Nat) (h : 0x2400 ≤ ix ∧ ix ≤ 0x27FF) : rowsAt ix = rowsFrontEnds := by
  unfold rowsAt; repeat rw [if_neg (by omega)]
  rw [if_pos h]

theorem rowsAt_Movers (ix : Nat) (h : 0x1B00 ≤ ix ∧ ix ≤ 0x1BFF) : rowsAt ix = rowsMovers := by
  unfold rowsAt; repeat rw [if_neg (by omega)]
  rw [if_pos h]

theorem rowsAt_Integrators (ix : Nat) (h : 0x2D00 ≤ ix ∧ ix ≤ 0x2DFF) : rowsAt ix = rowsIntegrators := by
  unfold rowsAt; repeat rw [if_neg (by omega)]
  rw [if_pos h]

theorem rowsAt_Ingest (ix : Nat) (h : 0x1500 ≤ ix ∧ ix ≤ 0x15FF) : rowsAt ix = rowsIngest := by
  unfold rowsAt; repeat rw [if_neg (by omega)]
  rw [if_pos h]

theorem rowsAt_Masks (ix : Nat) (h : 0x3400 ≤ ix ∧ ix ≤ 0x34FF) : rowsAt ix = rowsMasks := by
  unfold rowsAt; repeat rw [if_neg (by omega)]
  rw [if_pos h]

theorem rowsAt_Memory (ix : Nat) (h : 0x1900 ≤ ix ∧ ix ≤ 0x19FF) : rowsAt ix = rowsMemory := by
  unfold rowsAt; repeat rw [if_neg (by omega)]
  rw [if_pos h]

theorem rowsAt_Network (ix : Nat) (h : 0x1700 ≤ ix ∧ ix ≤ 0x171F) : rowsAt ix = rowsNetwork := by
  unfold rowsAt; repeat rw [if_neg (by omega)]
  rw [if_pos h]

theorem rowsAt_Ports (ix : Nat) (h : 0x2000 ≤ ix ∧ ix ≤ 0x23FF) : rowsAt ix = rowsPorts := by
  unfold rowsAt; repeat rw [if_neg (by omega)]
  rw [if_pos h]

theorem rowsAt_Pelpin (ix : Nat) (h : 0x1720 ≤ ix ∧ ix ≤ 0x174F) : rowsAt ix = rowsPelpin := by
  unfold rowsAt; repeat rw [if_neg (by omega)]
  rw [if_pos h]

theorem rowsAt_Recorder (ix : Nat) (h : 0x1A00 ≤ ix ∧ ix ≤ 0x1AFF) : rowsAt ix = rowsRecorder := by
  unfold rowsAt; repeat rw [if_neg (by omega)]
  rw [if_pos h]

theorem rowsAt_Pins (ix : Nat) (h : 0x3600 ≤ ix ∧ ix ≤ 0x36FF) : rowsAt ix = rowsPins := by
  unfold rowsAt; repeat rw [if_neg (by omega)]
  rw [if_pos h]

theorem rowsAt_Spectrograms (ix : Nat) (h : 0x2A40 ≤ ix ∧ ix ≤ 0x2A7F) : rowsAt ix = rowsSpectrograms := by
  unfold rowsAt; repeat rw [if_neg (by omega)]
  rw [if_pos h]

theorem rowsAt_Trestle (ix : Nat) (h : 0x3500 ≤ ix ∧ ix ≤ 0x351F) : rowsAt ix = rowsTrestle := by
  unfold rowsAt; repeat rw [if_neg (by omega)]
  rw [if_pos h]

theorem rowsAt_Truss (ix : Nat) (h : 0x1600 ≤ ix ∧ ix ≤ 0x16FF) : rowsAt ix = rowsTruss := by
  unfold rowsAt; repeat rw [if_neg (by omega)]
  rw [if_pos h]

theorem rowsAt_Views (ix : Nat) (h : 0x2800 ≤ ix ∧ ix ≤ 0x29FF) : rowsAt ix = rowsViews := by
  unfold rowsAt; repeat rw [if_neg (by omega)]
  rw [if_pos h]

@[simp] theorem lenOf_abutmentLag (n : Nat) (h : n < 32) : lenOf (Key.abutmentLag n) = 4 := by revert n; decide
@[simp] theorem lenOf_abutmentPeak (n : Nat) (h : n < 16) : lenOf (Key.abutmentPeak n) = 4 := by revert n; decide
@[simp] theorem lenOf_acqDoneBase : lenOf Key.acqDoneBase = 8 := by decide
@[simp] theorem lenOf_acqDoneSize : lenOf Key.acqDoneSize = 8 := by decide
@[simp] theorem lenOf_acqDoneWptr : lenOf Key.acqDoneWptr = 8 := by decide
@[simp] theorem lenOf_attNonce : lenOf Key.attNonce = 32 := by decide
@[simp] theorem lenOf_attReport : lenOf Key.attReport = 496 := by decide
@[simp] theorem lenOf_attState : lenOf Key.attState = 1 := by decide
@[simp] theorem lenOf_boardId : lenOf Key.boardId = 64 := by decide
@[simp] theorem lenOf_calFails : lenOf Key.calFails = 8 := by decide
@[simp] theorem lenOf_calItem (n : Nat) (h : n < 6) : lenOf (Key.calItem n) = 2 :=
  lenOf_page rowsCalMon 0x1310 6 0x6 2 _ (rowsAt_CalMon _ (by unfold Key.calItem; omega)) (by unfold Key.calItem; omega) (by unfold Key.calItem; omega) (by unfold Key.calItem; omega) (by unfold Key.calItem; omega) (by decide)
@[simp] theorem lenOf_calLast (n : Nat) (h : n < 6) : lenOf (Key.calLast n) = 10 :=
  lenOf_page rowsCalMon 0x1310 6 0x3 10 _ (rowsAt_CalMon _ (by unfold Key.calLast; omega)) (by unfold Key.calLast; omega) (by unfold Key.calLast; omega) (by unfold Key.calLast; omega) (by unfold Key.calLast; omega) (by decide)
@[simp] theorem lenOf_calPeriod (n : Nat) (h : n < 6) : lenOf (Key.calPeriod n) = 8 :=
  lenOf_page rowsCalMon 0x1310 6 0x1 8 _ (rowsAt_CalMon _ (by unfold Key.calPeriod; omega)) (by unfold Key.calPeriod; omega) (by unfold Key.calPeriod; omega) (by unfold Key.calPeriod; omega) (by unfold Key.calPeriod; omega) (by decide)
@[simp] theorem lenOf_calStale : lenOf Key.calStale = 1 := by decide
@[simp] theorem lenOf_calState : lenOf Key.calState = 1 := by decide
@[simp] theorem lenOf_calUnitFails (n : Nat) (h : n < 6) : lenOf (Key.calUnitFails n) = 4 :=
  lenOf_page rowsCalMon 0x1310 6 0x4 4 _ (rowsAt_CalMon _ (by unfold Key.calUnitFails; omega)) (by unfold Key.calUnitFails; omega) (by unfold Key.calUnitFails; omega) (by unfold Key.calUnitFails; omega) (by unfold Key.calUnitFails; omega) (by decide)
@[simp] theorem lenOf_cmpEnable (n : Nat) (h : n < 16) : lenOf (Key.cmpEnable n) = 1 :=
  lenOf_page rowsCalMon 0x1360 16 0x1 1 _ (rowsAt_CalMon _ (by unfold Key.cmpEnable; omega)) (by unfold Key.cmpEnable; omega) (by unfold Key.cmpEnable; omega) (by unfold Key.cmpEnable; omega) (by unfold Key.cmpEnable; omega) (by decide)
@[simp] theorem lenOf_ctxAborts (n : Nat) (h : n < 1024) : lenOf (Key.ctxAborts n) = 4 :=
  lenOf_page rowsContexts 0x3000 1024 0x19 4 _ (rowsAt_Contexts _ (by unfold Key.ctxAborts; omega)) (by unfold Key.ctxAborts; omega) (by unfold Key.ctxAborts; omega) (by unfold Key.ctxAborts; omega) (by unfold Key.ctxAborts; omega) (by decide)
@[simp] theorem lenOf_ctxCompleted (n : Nat) (h : n < 1024) : lenOf (Key.ctxCompleted n) = 8 :=
  lenOf_page rowsContexts 0x3000 1024 0x16 8 _ (rowsAt_Contexts _ (by unfold Key.ctxCompleted; omega)) (by unfold Key.ctxCompleted; omega) (by unfold Key.ctxCompleted; omega) (by unfold Key.ctxCompleted; omega) (by unfold Key.ctxCompleted; omega) (by decide)
@[simp] theorem lenOf_ctxDestKind (n : Nat) (h : n < 1024) : lenOf (Key.ctxDestKind n) = 1 :=
  lenOf_page rowsContexts 0x3000 1024 0xB 1 _ (rowsAt_Contexts _ (by unfold Key.ctxDestKind; omega)) (by unfold Key.ctxDestKind; omega) (by unfold Key.ctxDestKind; omega) (by unfold Key.ctxDestKind; omega) (by unfold Key.ctxDestKind; omega) (by decide)
@[simp] theorem lenOf_ctxEnable (n : Nat) (h : n < 1024) : lenOf (Key.ctxEnable n) = 1 :=
  lenOf_page rowsContexts 0x3000 1024 0x1 1 _ (rowsAt_Contexts _ (by unfold Key.ctxEnable; omega)) (by unfold Key.ctxEnable; omega) (by unfold Key.ctxEnable; omega) (by unfold Key.ctxEnable; omega) (by unfold Key.ctxEnable; omega) (by decide)
@[simp] theorem lenOf_ctxExpr (n : Nat) (h : n < 1024) : lenOf (Key.ctxExpr n) = 128 :=
  lenOf_page rowsContexts 0x3000 1024 0x2 128 _ (rowsAt_Contexts _ (by unfold Key.ctxExpr; omega)) (by unfold Key.ctxExpr; omega) (by unfold Key.ctxExpr; omega) (by unfold Key.ctxExpr; omega) (by unfold Key.ctxExpr; omega) (by decide)
@[simp] theorem lenOf_ctxExtend (n : Nat) (h : n < 1024) : lenOf (Key.ctxExtend n) = 1 :=
  lenOf_page rowsContexts 0x3000 1024 0x6 1 _ (rowsAt_Contexts _ (by unfold Key.ctxExtend; omega)) (by unfold Key.ctxExtend; omega) (by unfold Key.ctxExtend; omega) (by unfold Key.ctxExtend; omega) (by unfold Key.ctxExtend; omega) (by decide)
@[simp] theorem lenOf_ctxHoldoff (n : Nat) (h : n < 1024) : lenOf (Key.ctxHoldoff n) = 8 :=
  lenOf_page rowsContexts 0x3000 1024 0x9 8 _ (rowsAt_Contexts _ (by unfold Key.ctxHoldoff; omega)) (by unfold Key.ctxHoldoff; omega) (by unfold Key.ctxHoldoff; omega) (by unfold Key.ctxHoldoff; omega) (by unfold Key.ctxHoldoff; omega) (by decide)
@[simp] theorem lenOf_ctxHoldoffMode (n : Nat) (h : n < 1024) : lenOf (Key.ctxHoldoffMode n) = 1 :=
  lenOf_page rowsContexts 0x3000 1024 0x8 1 _ (rowsAt_Contexts _ (by unfold Key.ctxHoldoffMode; omega)) (by unfold Key.ctxHoldoffMode; omega) (by unfold Key.ctxHoldoffMode; omega) (by unfold Key.ctxHoldoffMode; omega) (by unfold Key.ctxHoldoffMode; omega) (by decide)
@[simp] theorem lenOf_ctxIgnored (n : Nat) (h : n < 1024) : lenOf (Key.ctxIgnored n) = 8 :=
  lenOf_page rowsContexts 0x3000 1024 0x18 8 _ (rowsAt_Contexts _ (by unfold Key.ctxIgnored; omega)) (by unfold Key.ctxIgnored; omega) (by unfold Key.ctxIgnored; omega) (by unfold Key.ctxIgnored; omega) (by unfold Key.ctxIgnored; omega) (by decide)
@[simp] theorem lenOf_ctxLast (n : Nat) (h : n < 1024) : lenOf (Key.ctxLast n) = 10 :=
  lenOf_page rowsContexts 0x3000 1024 0x1A 10 _ (rowsAt_Contexts _ (by unfold Key.ctxLast; omega)) (by unfold Key.ctxLast; omega) (by unfold Key.ctxLast; omega) (by unfold Key.ctxLast; omega) (by unfold Key.ctxLast; omega) (by decide)
@[simp] theorem lenOf_ctxMeasParams (n : Nat) (h : n < 1024) : lenOf (Key.ctxMeasParams n) = 256 :=
  lenOf_page rowsContexts 0x3000 1024 0xF 256 _ (rowsAt_Contexts _ (by unfold Key.ctxMeasParams; omega)) (by unfold Key.ctxMeasParams; omega) (by unfold Key.ctxMeasParams; omega) (by unfold Key.ctxMeasParams; omega) (by unfold Key.ctxMeasParams; omega) (by decide)
@[simp] theorem lenOf_ctxMode (n : Nat) (h : n < 1024) : lenOf (Key.ctxMode n) = 1 :=
  lenOf_page rowsContexts 0x3000 1024 0x3 1 _ (rowsAt_Contexts _ (by unfold Key.ctxMode; omega)) (by unfold Key.ctxMode; omega) (by unfold Key.ctxMode; omega) (by unfold Key.ctxMode; omega) (by unfold Key.ctxMode; omega) (by decide)
@[simp] theorem lenOf_ctxPost (n : Nat) (h : n < 1024) : lenOf (Key.ctxPost n) = 8 :=
  lenOf_page rowsContexts 0x3000 1024 0x5 8 _ (rowsAt_Contexts _ (by unfold Key.ctxPost; omega)) (by unfold Key.ctxPost; omega) (by unfold Key.ctxPost; omega) (by unfold Key.ctxPost; omega) (by unfold Key.ctxPost; omega) (by decide)
@[simp] theorem lenOf_ctxPre (n : Nat) (h : n < 1024) : lenOf (Key.ctxPre n) = 8 :=
  lenOf_page rowsContexts 0x3000 1024 0x4 8 _ (rowsAt_Contexts _ (by unfold Key.ctxPre; omega)) (by unfold Key.ctxPre; omega) (by unfold Key.ctxPre; omega) (by unfold Key.ctxPre; omega) (by unfold Key.ctxPre; omega) (by decide)
@[simp] theorem lenOf_ctxRecMax (n : Nat) (h : n < 1024) : lenOf (Key.ctxRecMax n) = 8 :=
  lenOf_page rowsContexts 0x3000 1024 0x7 8 _ (rowsAt_Contexts _ (by unfold Key.ctxRecMax; omega)) (by unfold Key.ctxRecMax; omega) (by unfold Key.ctxRecMax; omega) (by unfold Key.ctxRecMax; omega) (by unfold Key.ctxRecMax; omega) (by decide)
@[simp] theorem lenOf_ctxRecords (n : Nat) (h : n < 1024) : lenOf (Key.ctxRecords n) = 8 :=
  lenOf_page rowsContexts 0x3000 1024 0x15 8 _ (rowsAt_Contexts _ (by unfold Key.ctxRecords; omega)) (by unfold Key.ctxRecords; omega) (by unfold Key.ctxRecords; omega) (by unfold Key.ctxRecords; omega) (by unfold Key.ctxRecords; omega) (by decide)
@[simp] theorem lenOf_ctxRetriggers (n : Nat) (h : n < 1024) : lenOf (Key.ctxRetriggers n) = 8 :=
  lenOf_page rowsContexts 0x3000 1024 0x17 8 _ (rowsAt_Contexts _ (by unfold Key.ctxRetriggers; omega)) (by unfold Key.ctxRetriggers; omega) (by unfold Key.ctxRetriggers; omega) (by unfold Key.ctxRetriggers; omega) (by unfold Key.ctxRetriggers; omega) (by decide)
@[simp] theorem lenOf_ctxState (n : Nat) (h : n < 1024) : lenOf (Key.ctxState n) = 1 :=
  lenOf_page rowsContexts 0x3000 1024 0x13 1 _ (rowsAt_Contexts _ (by unfold Key.ctxState; omega)) (by unfold Key.ctxState; omega) (by unfold Key.ctxState; omega) (by unfold Key.ctxState; omega) (by unfold Key.ctxState; omega) (by decide)
@[simp] theorem lenOf_dispAborted (n : Nat) (h : n < 2) : lenOf (Key.dispAborted n) = 8 :=
  lenOf_page rowsDisplay 0x1800 2 0x18 8 _ (rowsAt_Display _ (by unfold Key.dispAborted; omega)) (by unfold Key.dispAborted; omega) (by unfold Key.dispAborted; omega) (by unfold Key.dispAborted; omega) (by unfold Key.dispAborted; omega) (by decide)
@[simp] theorem lenOf_dispEdid (n : Nat) (h : n < 2) : lenOf (Key.dispEdid n) = 512 :=
  lenOf_page rowsDisplay 0x1800 2 0x1B 512 _ (rowsAt_Display _ (by unfold Key.dispEdid; omega)) (by unfold Key.dispEdid; omega) (by unfold Key.dispEdid; omega) (by unfold Key.dispEdid; omega) (by unfold Key.dispEdid; omega) (by decide)
@[simp] theorem lenOf_dispEnable (n : Nat) (h : n < 2) : lenOf (Key.dispEnable n) = 1 :=
  lenOf_page rowsDisplay 0x1800 2 0x1 1 _ (rowsAt_Display _ (by unfold Key.dispEnable; omega)) (by unfold Key.dispEnable; omega) (by unfold Key.dispEnable; omega) (by unfold Key.dispEnable; omega) (by unfold Key.dispEnable; omega) (by decide)
@[simp] theorem lenOf_dispFence (n : Nat) (h : n < 2) : lenOf (Key.dispFence n) = 8 :=
  lenOf_page rowsDisplay 0x1800 2 0x13 8 _ (rowsAt_Display _ (by unfold Key.dispFence; omega)) (by unfold Key.dispFence; omega) (by unfold Key.dispFence; omega) (by unfold Key.dispFence; omega) (by unfold Key.dispFence; omega) (by decide)
@[simp] theorem lenOf_dispFlipFrame (n : Nat) (h : n < 2) : lenOf (Key.dispFlipFrame n) = 8 :=
  lenOf_page rowsDisplay 0x1800 2 0x14 8 _ (rowsAt_Display _ (by unfold Key.dispFlipFrame; omega)) (by unfold Key.dispFlipFrame; omega) (by unfold Key.dispFlipFrame; omega) (by unfold Key.dispFlipFrame; omega) (by unfold Key.dispFlipFrame; omega) (by decide)
@[simp] theorem lenOf_dispFlipMerged (n : Nat) (h : n < 2) : lenOf (Key.dispFlipMerged n) = 8 :=
  lenOf_page rowsDisplay 0x1800 2 0x17 8 _ (rowsAt_Display _ (by unfold Key.dispFlipMerged; omega)) (by unfold Key.dispFlipMerged; omega) (by unfold Key.dispFlipMerged; omega) (by unfold Key.dispFlipMerged; omega) (by unfold Key.dispFlipMerged; omega) (by decide)
@[simp] theorem lenOf_dispFlipTime (n : Nat) (h : n < 2) : lenOf (Key.dispFlipTime n) = 10 :=
  lenOf_page rowsDisplay 0x1800 2 0x15 10 _ (rowsAt_Display _ (by unfold Key.dispFlipTime; omega)) (by unfold Key.dispFlipTime; omega) (by unfold Key.dispFlipTime; omega) (by unfold Key.dispFlipTime; omega) (by unfold Key.dispFlipTime; omega) (by decide)
@[simp] theorem lenOf_dispFlips (n : Nat) (h : n < 2) : lenOf (Key.dispFlips n) = 8 :=
  lenOf_page rowsDisplay 0x1800 2 0x16 8 _ (rowsAt_Display _ (by unfold Key.dispFlips; omega)) (by unfold Key.dispFlips; omega) (by unfold Key.dispFlips; omega) (by unfold Key.dispFlips; omega) (by unfold Key.dispFlips; omega) (by decide)
@[simp] theorem lenOf_dispFrame (n : Nat) (h : n < 2) : lenOf (Key.dispFrame n) = 8 :=
  lenOf_page rowsDisplay 0x1800 2 0x12 8 _ (rowsAt_Display _ (by unfold Key.dispFrame; omega)) (by unfold Key.dispFrame; omega) (by unfold Key.dispFrame; omega) (by unfold Key.dispFrame; omega) (by unfold Key.dispFrame; omega) (by decide)
@[simp] theorem lenOf_dispHActive (n : Nat) (h : n < 2) : lenOf (Key.dispHActive n) = 2 :=
  lenOf_page rowsDisplay 0x1800 2 0x6 2 _ (rowsAt_Display _ (by unfold Key.dispHActive; omega)) (by unfold Key.dispHActive; omega) (by unfold Key.dispHActive; omega) (by unfold Key.dispHActive; omega) (by unfold Key.dispHActive; omega) (by decide)
@[simp] theorem lenOf_dispState (n : Nat) (h : n < 2) : lenOf (Key.dispState n) = 1 :=
  lenOf_page rowsDisplay 0x1800 2 0x11 1 _ (rowsAt_Display _ (by unfold Key.dispState; omega)) (by unfold Key.dispState; omega) (by unfold Key.dispState; omega) (by unfold Key.dispState; omega) (by unfold Key.dispState; omega) (by decide)
@[simp] theorem lenOf_dispVActive (n : Nat) (h : n < 2) : lenOf (Key.dispVActive n) = 2 :=
  lenOf_page rowsDisplay 0x1800 2 0xA 2 _ (rowsAt_Display _ (by unfold Key.dispVActive; omega)) (by unfold Key.dispVActive; omega) (by unfold Key.dispVActive; omega) (by unfold Key.dispVActive; omega) (by unfold Key.dispVActive; omega) (by decide)
@[simp] theorem lenOf_feDecim (n : Nat) (h : n < 1024) : lenOf (Key.feDecim n) = 4 :=
  lenOf_page rowsFrontEnds 0x2400 1024 0x3 4 _ (rowsAt_FrontEnds _ (by unfold Key.feDecim; omega)) (by unfold Key.feDecim; omega) (by unfold Key.feDecim; omega) (by unfold Key.feDecim; omega) (by unfold Key.feDecim; omega) (by decide)
@[simp] theorem lenOf_fectlCount : lenOf Key.fectlCount = 2 := by decide
@[simp] theorem lenOf_fectlLevel : lenOf Key.fectlLevel = 4 := by decide
@[simp] theorem lenOf_fectlMode : lenOf Key.fectlMode = 1 := by decide
@[simp] theorem lenOf_fectlTable : lenOf Key.fectlTable = 65536 := by decide
@[simp] theorem lenOf_fwActive : lenOf Key.fwActive = 1 := by decide
@[simp] theorem lenOf_fwBootStatus : lenOf Key.fwBootStatus = 1 := by decide
@[simp] theorem lenOf_fwHandover : lenOf Key.fwHandover = 4 := by decide
@[simp] theorem lenOf_fwLoad : lenOf Key.fwLoad = 16 := by decide
@[simp] theorem lenOf_fwLoadResult : lenOf Key.fwLoadResult = 1 := by decide
@[simp] theorem lenOf_fwLoadState : lenOf Key.fwLoadState = 1 := by decide
@[simp] theorem lenOf_fwSvn : lenOf Key.fwSvn = 1 := by decide
@[simp] theorem lenOf_fwSwapResult : lenOf Key.fwSwapResult = 1 := by decide
@[simp] theorem lenOf_fwSwapState : lenOf Key.fwSwapState = 1 := by decide
@[simp] theorem lenOf_girderFaults (n : Nat) (h : n < 68) : lenOf (Key.girderFaults n) = 4 := by revert n; decide
@[simp] theorem lenOf_girderState (n : Nat) (h : n < 68) : lenOf (Key.girderState n) = 1 := by revert n; decide
@[simp] theorem lenOf_hrEntries (n : Nat) (h : n < 64) : lenOf (Key.hrEntries n) = 8 :=
  lenOf_page rowsMovers 0x1B40 64 0x9 8 _ (rowsAt_Movers _ (by unfold Key.hrEntries; omega)) (by unfold Key.hrEntries; omega) (by unfold Key.hrEntries; omega) (by unfold Key.hrEntries; omega) (by unfold Key.hrEntries; omega) (by decide)
@[simp] theorem lenOf_hrSize (n : Nat) (h : n < 64) : lenOf (Key.hrSize n) = 4 :=
  lenOf_page rowsMovers 0x1B40 64 0x3 4 _ (rowsAt_Movers _ (by unfold Key.hrSize; omega)) (by unfold Key.hrSize; omega) (by unfold Key.hrSize; omega) (by unfold Key.hrSize; omega) (by unfold Key.hrSize; omega) (by decide)
@[simp] theorem lenOf_hrVector (n : Nat) (h : n < 64) : lenOf (Key.hrVector n) = 1 :=
  lenOf_page rowsMovers 0x1B40 64 0x8 1 _ (rowsAt_Movers _ (by unfold Key.hrVector; omega)) (by unfold Key.hrVector; omega) (by unfold Key.hrVector; omega) (by unfold Key.hrVector; omega) (by unfold Key.hrVector; omega) (by decide)
@[simp] theorem lenOf_intFramesRejected (n : Nat) (h : n < 256) : lenOf (Key.intFramesRejected n) = 8 :=
  lenOf_page rowsIntegrators 0x2D00 256 0xB 8 _ (rowsAt_Integrators _ (by unfold Key.intFramesRejected; omega)) (by unfold Key.intFramesRejected; omega) (by unfold Key.intFramesRejected; omega) (by unfold Key.intFramesRejected; omega) (by unfold Key.intFramesRejected; omega) (by decide)
@[simp] theorem lenOf_ksHoldoverCount : lenOf Key.ksHoldoverCount = 4 := by decide
@[simp] theorem lenOf_ksLoad : lenOf Key.ksLoad = 10 := by decide
@[simp] theorem lenOf_ksOffset : lenOf Key.ksOffset = 8 := by decide
@[simp] theorem lenOf_ksSlewRemaining : lenOf Key.ksSlewRemaining = 8 := by decide
@[simp] theorem lenOf_ksState : lenOf Key.ksState = 1 := by decide
@[simp] theorem lenOf_laneCrcErrors (n : Nat) (h : n < 128) : lenOf (Key.laneCrcErrors n) = 4 := by revert n; decide
@[simp] theorem lenOf_laneShErrors (n : Nat) (h : n < 128) : lenOf (Key.laneShErrors n) = 4 := by revert n; decide
@[simp] theorem lenOf_laneState (n : Nat) (h : n < 128) : lenOf (Key.laneState n) = 1 := by revert n; decide
@[simp] theorem lenOf_lanepllState (n : Nat) (h : n < 24) : lenOf (Key.lanepllState n) = 1 := by revert n; decide
@[simp] theorem lenOf_layDbuf (n : Nat) (h : n < 3) : lenOf (Key.layDbuf n) = 1 :=
  lenOf_page rowsDisplay 0x1808 3 0x4 1 _ (rowsAt_Display _ (by unfold Key.layDbuf; omega)) (by unfold Key.layDbuf; omega) (by unfold Key.layDbuf; omega) (by unfold Key.layDbuf; omega) (by unfold Key.layDbuf; omega) (by decide)
@[simp] theorem lenOf_linkArrivalMax (n : Nat) (h : n < 128) : lenOf (Key.linkArrivalMax n) = 8 :=
  lenOf_page rowsIngest 0x1580 128 0x10 8 _ (rowsAt_Ingest _ (by unfold Key.linkArrivalMax; omega)) (by unfold Key.linkArrivalMax; omega) (by unfold Key.linkArrivalMax; omega) (by unfold Key.linkArrivalMax; omega) (by unfold Key.linkArrivalMax; omega) (by decide)
@[simp] theorem lenOf_linkArrivalMin (n : Nat) (h : n < 128) : lenOf (Key.linkArrivalMin n) = 8 :=
  lenOf_page rowsIngest 0x1580 128 0xF 8 _ (rowsAt_Ingest _ (by unfold Key.linkArrivalMin; omega)) (by unfold Key.linkArrivalMin; omega) (by unfold Key.linkArrivalMin; omega) (by unfold Key.linkArrivalMin; omega) (by unfold Key.linkArrivalMin; omega) (by decide)
@[simp] theorem lenOf_linkEnable (n : Nat) (h : n < 128) : lenOf (Key.linkEnable n) = 1 :=
  lenOf_page rowsIngest 0x1580 128 0x1 1 _ (rowsAt_Ingest _ (by unfold Key.linkEnable; omega)) (by unfold Key.linkEnable; omega) (by unfold Key.linkEnable; omega) (by unfold Key.linkEnable; omega) (by unfold Key.linkEnable; omega) (by decide)
@[simp] theorem lenOf_linkReleaseErrors (n : Nat) (h : n < 128) : lenOf (Key.linkReleaseErrors n) = 4 :=
  lenOf_page rowsIngest 0x1580 128 0x13 4 _ (rowsAt_Ingest _ (by unfold Key.linkReleaseErrors; omega)) (by unfold Key.linkReleaseErrors; omega) (by unfold Key.linkReleaseErrors; omega) (by unfold Key.linkReleaseErrors; omega) (by unfold Key.linkReleaseErrors; omega) (by decide)
@[simp] theorem lenOf_linkState (n : Nat) (h : n < 128) : lenOf (Key.linkState n) = 1 :=
  lenOf_page rowsIngest 0x1580 128 0xE 1 _ (rowsAt_Ingest _ (by unfold Key.linkState; omega)) (by unfold Key.linkState; omega) (by unfold Key.linkState; omega) (by unfold Key.linkState; omega) (by unfold Key.linkState; omega) (by decide)
@[simp] theorem lenOf_loDivider : lenOf Key.loDivider = 2 := by decide
@[simp] theorem lenOf_loEnable : lenOf Key.loEnable = 1 := by decide
@[simp] theorem lenOf_loMuteEnd : lenOf Key.loMuteEnd = 10 := by decide
@[simp] theorem lenOf_loMuteStart : lenOf Key.loMuteStart = 10 := by decide
@[simp] theorem lenOf_loRampCount : lenOf Key.loRampCount = 2 := by decide
@[simp] theorem lenOf_loRampMode : lenOf Key.loRampMode = 1 := by decide
@[simp] theorem lenOf_loRampSegment : lenOf Key.loRampSegment = 2 := by decide
@[simp] theorem lenOf_loRampTable : lenOf Key.loRampTable = 6144 := by decide
@[simp] theorem lenOf_loSeed : lenOf Key.loSeed = 4 := by decide
@[simp] theorem lenOf_loState : lenOf Key.loState = 1 := by decide
@[simp] theorem lenOf_loWord : lenOf Key.loWord = 8 := by decide
@[simp] theorem lenOf_maskEnable (n : Nat) (h : n < 256) : lenOf (Key.maskEnable n) = 1 :=
  lenOf_page rowsMasks 0x3400 256 0x1 1 _ (rowsAt_Masks _ (by unfold Key.maskEnable; omega)) (by unfold Key.maskEnable; omega) (by unfold Key.maskEnable; omega) (by unfold Key.maskEnable; omega) (by unfold Key.maskEnable; omega) (by decide)
@[simp] theorem lenOf_maskEvents (n : Nat) (h : n < 256) : lenOf (Key.maskEvents n) = 8 :=
  lenOf_page rowsMasks 0x3400 256 0x11 8 _ (rowsAt_Masks _ (by unfold Key.maskEvents; omega)) (by unfold Key.maskEvents; omega) (by unfold Key.maskEvents; omega) (by unfold Key.maskEvents; omega) (by unfold Key.maskEvents; omega) (by decide)
@[simp] theorem lenOf_maskHistory (n : Nat) (h : n < 256) : lenOf (Key.maskHistory n) = 8 :=
  lenOf_page rowsMasks 0x3400 256 0xE 8 _ (rowsAt_Masks _ (by unfold Key.maskHistory; omega)) (by unfold Key.maskHistory; omega) (by unfold Key.maskHistory; omega) (by unfold Key.maskHistory; omega) (by unfold Key.maskHistory; omega) (by decide)
@[simp] theorem lenOf_maskJ (n : Nat) (h : n < 256) : lenOf (Key.maskJ n) = 1 :=
  lenOf_page rowsMasks 0x3400 256 0x8 1 _ (rowsAt_Masks _ (by unfold Key.maskJ; omega)) (by unfold Key.maskJ; omega) (by unfold Key.maskJ; omega) (by unfold Key.maskJ; omega) (by unfold Key.maskJ; omega) (by decide)
@[simp] theorem lenOf_maskK (n : Nat) (h : n < 256) : lenOf (Key.maskK n) = 4 :=
  lenOf_page rowsMasks 0x3400 256 0x6 4 _ (rowsAt_Masks _ (by unfold Key.maskK; omega)) (by unfold Key.maskK; omega) (by unfold Key.maskK; omega) (by unfold Key.maskK; omega) (by unfold Key.maskK; omega) (by decide)
@[simp] theorem lenOf_maskM (n : Nat) (h : n < 256) : lenOf (Key.maskM n) = 1 :=
  lenOf_page rowsMasks 0x3400 256 0x7 1 _ (rowsAt_Masks _ (by unfold Key.maskM; omega)) (by unfold Key.maskM; omega) (by unfold Key.maskM; omega) (by unfold Key.maskM; omega) (by unfold Key.maskM; omega) (by decide)
@[simp] theorem lenOf_maskRearm (n : Nat) (h : n < 256) : lenOf (Key.maskRearm n) = 1 :=
  lenOf_page rowsMasks 0x3400 256 0xA 1 _ (rowsAt_Masks _ (by unfold Key.maskRearm; omega)) (by unfold Key.maskRearm; omega) (by unfold Key.maskRearm; omega) (by unfold Key.maskRearm; omega) (by unfold Key.maskRearm; omega) (by decide)
@[simp] theorem lenOf_maskReject (n : Nat) (h : n < 256) : lenOf (Key.maskReject n) = 1 :=
  lenOf_page rowsMasks 0x3400 256 0xB 1 _ (rowsAt_Masks _ (by unfold Key.maskReject; omega)) (by unfold Key.maskReject; omega) (by unfold Key.maskReject; omega) (by unfold Key.maskReject; omega) (by unfold Key.maskReject; omega) (by decide)
@[simp] theorem lenOf_maskRejected (n : Nat) (h : n < 256) : lenOf (Key.maskRejected n) = 8 :=
  lenOf_page rowsMasks 0x3400 256 0x10 8 _ (rowsAt_Masks _ (by unfold Key.maskRejected; omega)) (by unfold Key.maskRejected; omega) (by unfold Key.maskRejected; omega) (by unfold Key.maskRejected; omega) (by unfold Key.maskRejected; omega) (by decide)
@[simp] theorem lenOf_maskSpectra (n : Nat) (h : n < 256) : lenOf (Key.maskSpectra n) = 8 :=
  lenOf_page rowsMasks 0x3400 256 0xF 8 _ (rowsAt_Masks _ (by unfold Key.maskSpectra; omega)) (by unfold Key.maskSpectra; omega) (by unfold Key.maskSpectra; omega) (by unfold Key.maskSpectra; omega) (by unfold Key.maskSpectra; omega) (by decide)
@[simp] theorem lenOf_maskState (n : Nat) (h : n < 256) : lenOf (Key.maskState n) = 1 :=
  lenOf_page rowsMasks 0x3400 256 0xD 1 _ (rowsAt_Masks _ (by unfold Key.maskState; omega)) (by unfold Key.maskState; omega) (by unfold Key.maskState; omega) (by unfold Key.maskState; omega) (by unfold Key.maskState; omega) (by decide)
@[simp] theorem lenOf_memFixedSize : lenOf Key.memFixedSize = 8 := by decide
@[simp] theorem lenOf_memFreezes : lenOf Key.memFreezes = 1 := by decide
@[simp] theorem lenOf_memService : lenOf Key.memService = 1 := by decide
@[simp] theorem lenOf_memSize : lenOf Key.memSize = 8 := by decide
@[simp] theorem lenOf_memSpeed : lenOf Key.memSpeed = 2 := by decide
@[simp] theorem lenOf_memSrIdle : lenOf Key.memSrIdle = 2 := by decide
@[simp] theorem lenOf_memchCeCount (n : Nat) (h : n < 16) : lenOf (Key.memchCeCount n) = 8 :=
  lenOf_page rowsMemory 0x1980 16 0x5 8 _ (rowsAt_Memory _ (by unfold Key.memchCeCount; omega)) (by unfold Key.memchCeCount; omega) (by unfold Key.memchCeCount; omega) (by unfold Key.memchCeCount; omega) (by unfold Key.memchCeCount; omega) (by decide)
@[simp] theorem lenOf_memchCrcRetries (n : Nat) (h : n < 16) : lenOf (Key.memchCrcRetries n) = 8 :=
  lenOf_page rowsMemory 0x1980 16 0x6 8 _ (rowsAt_Memory _ (by unfold Key.memchCrcRetries; omega)) (by unfold Key.memchCrcRetries; omega) (by unfold Key.memchCrcRetries; omega) (by unfold Key.memchCrcRetries; omega) (by unfold Key.memchCrcRetries; omega) (by decide)
@[simp] theorem lenOf_memchDiag (n : Nat) (h : n < 16) : lenOf (Key.memchDiag n) = 48 :=
  lenOf_page rowsMemory 0x1980 16 0x7 48 _ (rowsAt_Memory _ (by unfold Key.memchDiag; omega)) (by unfold Key.memchDiag; omega) (by unfold Key.memchDiag; omega) (by unfold Key.memchDiag; omega) (by unfold Key.memchDiag; omega) (by decide)
@[simp] theorem lenOf_memchInorder (n : Nat) (h : n < 16) : lenOf (Key.memchInorder n) = 8 :=
  lenOf_page rowsMemory 0x1980 16 0xD 8 _ (rowsAt_Memory _ (by unfold Key.memchInorder; omega)) (by unfold Key.memchInorder; omega) (by unfold Key.memchInorder; omega) (by unfold Key.memchInorder; omega) (by unfold Key.memchInorder; omega) (by decide)
@[simp] theorem lenOf_memchLane (n : Nat) (h : n < 16) : lenOf (Key.memchLane n) = 1 :=
  lenOf_page rowsMemory 0x1980 16 0x2 1 _ (rowsAt_Memory _ (by unfold Key.memchLane; omega)) (by unfold Key.memchLane; omega) (by unfold Key.memchLane; omega) (by unfold Key.memchLane; omega) (by unfold Key.memchLane; omega) (by decide)
@[simp] theorem lenOf_memchPanicCount (n : Nat) (h : n < 16) : lenOf (Key.memchPanicCount n) = 8 :=
  lenOf_page rowsMemory 0x1980 16 0xB 8 _ (rowsAt_Memory _ (by unfold Key.memchPanicCount; omega)) (by unfold Key.memchPanicCount; omega) (by unfold Key.memchPanicCount; omega) (by unfold Key.memchPanicCount; omega) (by unfold Key.memchPanicCount; omega) (by decide)
@[simp] theorem lenOf_memchPromoted (n : Nat) (h : n < 16) : lenOf (Key.memchPromoted n) = 8 :=
  lenOf_page rowsMemory 0x1980 16 0xC 8 _ (rowsAt_Memory _ (by unfold Key.memchPromoted; omega)) (by unfold Key.memchPromoted; omega) (by unfold Key.memchPromoted; omega) (by unfold Key.memchPromoted; omega) (by unfold Key.memchPromoted; omega) (by decide)
@[simp] theorem lenOf_memchSrEntries (n : Nat) (h : n < 16) : lenOf (Key.memchSrEntries n) = 8 :=
  lenOf_page rowsMemory 0x1980 16 0xE 8 _ (rowsAt_Memory _ (by unfold Key.memchSrEntries; omega)) (by unfold Key.memchSrEntries; omega) (by unfold Key.memchSrEntries; omega) (by unfold Key.memchSrEntries; omega) (by unfold Key.memchSrEntries; omega) (by decide)
@[simp] theorem lenOf_memchState (n : Nat) (h : n < 16) : lenOf (Key.memchState n) = 1 :=
  lenOf_page rowsMemory 0x1980 16 0x1 1 _ (rowsAt_Memory _ (by unfold Key.memchState; omega)) (by unfold Key.memchState; omega) (by unfold Key.memchState; omega) (by unfold Key.memchState; omega) (by unfold Key.memchState; omega) (by decide)
@[simp] theorem lenOf_monConversions : lenOf Key.monConversions = 8 := by decide
@[simp] theorem lenOf_monDelay : lenOf Key.monDelay = 2 := by decide
@[simp] theorem lenOf_monSeq : lenOf Key.monSeq = 16 := by decide
@[simp] theorem lenOf_monSource : lenOf Key.monSource = 1 := by decide
@[simp] theorem lenOf_monTime (n : Nat) (h : n < 16) : lenOf (Key.monTime n) = 10 :=
  lenOf_page rowsCalMon 0x1350 16 0x2 10 _ (rowsAt_CalMon _ (by unfold Key.monTime; omega)) (by unfold Key.monTime; omega) (by unfold Key.monTime; omega) (by unfold Key.monTime; omega) (by unfold Key.monTime; omega) (by decide)
@[simp] theorem lenOf_monTimerStart : lenOf Key.monTimerStart = 8 := by decide
@[simp] theorem lenOf_monValue (n : Nat) (h : n < 16) : lenOf (Key.monValue n) = 4 :=
  lenOf_page rowsCalMon 0x1350 16 0x1 4 _ (rowsAt_CalMon _ (by unfold Key.monValue; omega)) (by unfold Key.monValue; omega) (by unfold Key.monValue; omega) (by unfold Key.monValue; omega) (by unfold Key.monValue; omega) (by decide)
@[simp] theorem lenOf_mvDescBase (n : Nat) (h : n < 16) : lenOf (Key.mvDescBase n) = 8 :=
  lenOf_page rowsMovers 0x1B00 16 0x2 8 _ (rowsAt_Movers _ (by unfold Key.mvDescBase; omega)) (by unfold Key.mvDescBase; omega) (by unfold Key.mvDescBase; omega) (by unfold Key.mvDescBase; omega) (by unfold Key.mvDescBase; omega) (by decide)
@[simp] theorem lenOf_mvDescCount (n : Nat) (h : n < 16) : lenOf (Key.mvDescCount n) = 4 :=
  lenOf_page rowsMovers 0x1B00 16 0x4 4 _ (rowsAt_Movers _ (by unfold Key.mvDescCount; omega)) (by unfold Key.mvDescCount; omega) (by unfold Key.mvDescCount; omega) (by unfold Key.mvDescCount; omega) (by unfold Key.mvDescCount; omega) (by decide)
@[simp] theorem lenOf_mvDescHost (n : Nat) (h : n < 16) : lenOf (Key.mvDescHost n) = 1 :=
  lenOf_page rowsMovers 0x1B00 16 0x3 1 _ (rowsAt_Movers _ (by unfold Key.mvDescHost; omega)) (by unfold Key.mvDescHost; omega) (by unfold Key.mvDescHost; omega) (by unfold Key.mvDescHost; omega) (by unfold Key.mvDescHost; omega) (by decide)
@[simp] theorem lenOf_mvHalts (n : Nat) (h : n < 16) : lenOf (Key.mvHalts n) = 4 :=
  lenOf_page rowsMovers 0x1B00 16 0xB 4 _ (rowsAt_Movers _ (by unfold Key.mvHalts; omega)) (by unfold Key.mvHalts; omega) (by unfold Key.mvHalts; omega) (by unfold Key.mvHalts; omega) (by unfold Key.mvHalts; omega) (by decide)
@[simp] theorem lenOf_mvRetries (n : Nat) (h : n < 16) : lenOf (Key.mvRetries n) = 8 :=
  lenOf_page rowsMovers 0x1B00 16 0xA 8 _ (rowsAt_Movers _ (by unfold Key.mvRetries; omega)) (by unfold Key.mvRetries; omega) (by unfold Key.mvRetries; omega) (by unfold Key.mvRetries; omega) (by unfold Key.mvRetries; omega) (by decide)
@[simp] theorem lenOf_mvRetry (n : Nat) (h : n < 16) : lenOf (Key.mvRetry n) = 1 :=
  lenOf_page rowsMovers 0x1B00 16 0x5 1 _ (rowsAt_Movers _ (by unfold Key.mvRetry; omega)) (by unfold Key.mvRetry; omega) (by unfold Key.mvRetry; omega) (by unfold Key.mvRetry; omega) (by unfold Key.mvRetry; omega) (by decide)
@[simp] theorem lenOf_mvStartSource (n : Nat) (h : n < 16) : lenOf (Key.mvStartSource n) = 2 :=
  lenOf_page rowsMovers 0x1B00 16 0x6 2 _ (rowsAt_Movers _ (by unfold Key.mvStartSource; omega)) (by unfold Key.mvStartSource; omega) (by unfold Key.mvStartSource; omega) (by unfold Key.mvStartSource; omega) (by unfold Key.mvStartSource; omega) (by decide)
@[simp] theorem lenOf_netIpv4 (n : Nat) (h : n < 8) : lenOf (Key.netIpv4 n) = 4 :=
  lenOf_page rowsNetwork 0x1700 8 0x2 4 _ (rowsAt_Network _ (by unfold Key.netIpv4; omega)) (by unfold Key.netIpv4; omega) (by unfold Key.netIpv4; omega) (by unfold Key.netIpv4; omega) (by unfold Key.netIpv4; omega) (by decide)
@[simp] theorem lenOf_netMac (n : Nat) (h : n < 8) : lenOf (Key.netMac n) = 8 :=
  lenOf_page rowsNetwork 0x1700 8 0x1 8 _ (rowsAt_Network _ (by unfold Key.netMac; omega)) (by unfold Key.netMac; omega) (by unfold Key.netMac; omega) (by unfold Key.netMac; omega) (by unfold Key.netMac; omega) (by decide)
@[simp] theorem lenOf_netMode (n : Nat) (h : n < 6) : lenOf (Key.netMode n) = 1 := by revert n; decide
@[simp] theorem lenOf_netMtu (n : Nat) (h : n < 8) : lenOf (Key.netMtu n) = 2 :=
  lenOf_page rowsNetwork 0x1700 8 0x5 2 _ (rowsAt_Network _ (by unfold Key.netMtu; omega)) (by unfold Key.netMtu; omega) (by unfold Key.netMtu; omega) (by unfold Key.netMtu; omega) (by unfold Key.netMtu; omega) (by decide)
@[simp] theorem lenOf_netRxDropped (n : Nat) (h : n < 8) : lenOf (Key.netRxDropped n) = 8 :=
  lenOf_page rowsNetwork 0x1700 8 0x7 8 _ (rowsAt_Network _ (by unfold Key.netRxDropped; omega)) (by unfold Key.netRxDropped; omega) (by unfold Key.netRxDropped; omega) (by unfold Key.netRxDropped; omega) (by unfold Key.netRxDropped; omega) (by decide)
@[simp] theorem lenOf_netState (n : Nat) (h : n < 8) : lenOf (Key.netState n) = 1 :=
  lenOf_page rowsNetwork 0x1700 8 0x6 1 _ (rowsAt_Network _ (by unfold Key.netState; omega)) (by unfold Key.netState; omega) (by unfold Key.netState; omega) (by unfold Key.netState; omega) (by unfold Key.netState; omega) (by decide)
@[simp] theorem lenOf_netTxDropped (n : Nat) (h : n < 8) : lenOf (Key.netTxDropped n) = 8 :=
  lenOf_page rowsNetwork 0x1700 8 0x8 8 _ (rowsAt_Network _ (by unfold Key.netTxDropped; omega)) (by unfold Key.netTxDropped; omega) (by unfold Key.netTxDropped; omega) (by unfold Key.netTxDropped; omega) (by unfold Key.netTxDropped; omega) (by decide)
@[simp] theorem lenOf_netVlan (n : Nat) (h : n < 8) : lenOf (Key.netVlan n) = 2 :=
  lenOf_page rowsNetwork 0x1700 8 0x4 2 _ (rowsAt_Network _ (by unfold Key.netVlan; omega)) (by unfold Key.netVlan; omega) (by unfold Key.netVlan; omega) (by unfold Key.netVlan; omega) (by unfold Key.netVlan; omega) (by decide)
@[simp] theorem lenOf_pierRecoveries (n : Nat) (h : n < 16) : lenOf (Key.pierRecoveries n) = 4 := by revert n; decide
@[simp] theorem lenOf_pierState (n : Nat) (h : n < 16) : lenOf (Key.pierState n) = 1 := by revert n; decide
@[simp] theorem lenOf_portGapSeq (n : Nat) (h : n < 1024) : lenOf (Key.portGapSeq n) = 4 :=
  lenOf_page rowsPorts 0x2000 1024 0xB 4 _ (rowsAt_Ports _ (by unfold Key.portGapSeq; omega)) (by unfold Key.portGapSeq; omega) (by unfold Key.portGapSeq; omega) (by unfold Key.portGapSeq; omega) (by unfold Key.portGapSeq; omega) (by decide)
@[simp] theorem lenOf_ppAcks : lenOf Key.ppAcks = 8 := by decide
@[simp] theorem lenOf_ppAuthFail : lenOf Key.ppAuthFail = 8 := by decide
@[simp] theorem lenOf_ppBusy : lenOf Key.ppBusy = 8 := by decide
@[simp] theorem lenOf_ppDropped : lenOf Key.ppDropped = 8 := by decide
@[simp] theorem lenOf_ppIdle : lenOf Key.ppIdle = 8 := by decide
@[simp] theorem lenOf_ppKey (n : Nat) (h : n < 8) : lenOf (Key.ppKey n) = 97 :=
  lenOf_page rowsPelpin 0x1721 8 0x1 97 _ (rowsAt_Pelpin _ (by unfold Key.ppKey; omega)) (by unfold Key.ppKey; omega) (by unfold Key.ppKey; omega) (by unfold Key.ppKey; omega) (by unfold Key.ppKey; omega) (by decide)
@[simp] theorem lenOf_ppRole (n : Nat) (h : n < 8) : lenOf (Key.ppRole n) = 1 :=
  lenOf_page rowsPelpin 0x1721 8 0x2 1 _ (rowsAt_Pelpin _ (by unfold Key.ppRole; omega)) (by unfold Key.ppRole; omega) (by unfold Key.ppRole; omega) (by unfold Key.ppRole; omega) (by unfold Key.ppRole; omega) (by decide)
@[simp] theorem lenOf_ppStale : lenOf Key.ppStale = 8 := by decide
@[simp] theorem lenOf_ppsCount : lenOf Key.ppsCount = 4 := by decide
@[simp] theorem lenOf_ppsEdge : lenOf Key.ppsEdge = 1 := by decide
@[simp] theorem lenOf_ppsLast : lenOf Key.ppsLast = 10 := by decide
@[simp] theorem lenOf_ptpAsym : lenOf Key.ptpAsym = 4 := by decide
@[simp] theorem lenOf_ptpMaster : lenOf Key.ptpMaster = 10 := by decide
@[simp] theorem lenOf_ptpPath : lenOf Key.ptpPath = 8 := by decide
@[simp] theorem lenOf_recDriveModel (n : Nat) (h : n < 4) : lenOf (Key.recDriveModel n) = 40 :=
  lenOf_page rowsRecorder 0x1A08 4 0x3 40 _ (rowsAt_Recorder _ (by unfold Key.recDriveModel; omega)) (by unfold Key.recDriveModel; omega) (by unfold Key.recDriveModel; omega) (by unfold Key.recDriveModel; omega) (by unfold Key.recDriveModel; omega) (by decide)
@[simp] theorem lenOf_recDriveState (n : Nat) (h : n < 4) : lenOf (Key.recDriveState n) = 1 :=
  lenOf_page rowsRecorder 0x1A08 4 0x1 1 _ (rowsAt_Recorder _ (by unfold Key.recDriveState; omega)) (by unfold Key.recDriveState; omega) (by unfold Key.recDriveState; omega) (by unfold Key.recDriveState; omega) (by unfold Key.recDriveState; omega) (by decide)
@[simp] theorem lenOf_recDriveWidth (n : Nat) (h : n < 4) : lenOf (Key.recDriveWidth n) = 1 :=
  lenOf_page rowsRecorder 0x1A08 4 0x2 1 _ (rowsAt_Recorder _ (by unfold Key.recDriveWidth; omega)) (by unfold Key.recDriveWidth; omega) (by unfold Key.recDriveWidth; omega) (by unfold Key.recDriveWidth; omega) (by unfold Key.recDriveWidth; omega) (by decide)
@[simp] theorem lenOf_recNsAppend (n : Nat) (h : n < 16) : lenOf (Key.recNsAppend n) = 8 :=
  lenOf_page rowsRecorder 0x1A10 16 0xA 8 _ (rowsAt_Recorder _ (by unfold Key.recNsAppend; omega)) (by unfold Key.recNsAppend; omega) (by unfold Key.recNsAppend; omega) (by unfold Key.recNsAppend; omega) (by unfold Key.recNsAppend; omega) (by decide)
@[simp] theorem lenOf_recNsDrive (n : Nat) (h : n < 16) : lenOf (Key.recNsDrive n) = 1 :=
  lenOf_page rowsRecorder 0x1A10 16 0x2 1 _ (rowsAt_Recorder _ (by unfold Key.recNsDrive; omega)) (by unfold Key.recNsDrive; omega) (by unfold Key.recNsDrive; omega) (by unfold Key.recNsDrive; omega) (by unfold Key.recNsDrive; omega) (by decide)
@[simp] theorem lenOf_recNsFirst (n : Nat) (h : n < 16) : lenOf (Key.recNsFirst n) = 8 :=
  lenOf_page rowsRecorder 0x1A10 16 0x4 8 _ (rowsAt_Recorder _ (by unfold Key.recNsFirst; omega)) (by unfold Key.recNsFirst; omega) (by unfold Key.recNsFirst; omega) (by unfold Key.recNsFirst; omega) (by unfold Key.recNsFirst; omega) (by decide)
@[simp] theorem lenOf_recNsLap (n : Nat) (h : n < 16) : lenOf (Key.recNsLap n) = 4 :=
  lenOf_page rowsRecorder 0x1A10 16 0xB 4 _ (rowsAt_Recorder _ (by unfold Key.recNsLap; omega)) (by unfold Key.recNsLap; omega) (by unfold Key.recNsLap; omega) (by unfold Key.recNsLap; omega) (by unfold Key.recNsLap; omega) (by decide)
@[simp] theorem lenOf_recNsLbas (n : Nat) (h : n < 16) : lenOf (Key.recNsLbas n) = 8 :=
  lenOf_page rowsRecorder 0x1A10 16 0x5 8 _ (rowsAt_Recorder _ (by unfold Key.recNsLbas; omega)) (by unfold Key.recNsLbas; omega) (by unfold Key.recNsLbas; omega) (by unfold Key.recNsLbas; omega) (by unfold Key.recNsLbas; omega) (by decide)
@[simp] theorem lenOf_recNsNsid (n : Nat) (h : n < 16) : lenOf (Key.recNsNsid n) = 4 :=
  lenOf_page rowsRecorder 0x1A10 16 0x3 4 _ (rowsAt_Recorder _ (by unfold Key.recNsNsid; omega)) (by unfold Key.recNsNsid; omega) (by unfold Key.recNsNsid; omega) (by unfold Key.recNsNsid; omega) (by unfold Key.recNsNsid; omega) (by decide)
@[simp] theorem lenOf_recNsReadState (n : Nat) (h : n < 16) : lenOf (Key.recNsReadState n) = 1 :=
  lenOf_page rowsRecorder 0x1A10 16 0xD 1 _ (rowsAt_Recorder _ (by unfold Key.recNsReadState; omega)) (by unfold Key.recNsReadState; omega) (by unfold Key.recNsReadState; omega) (by unfold Key.recNsReadState; omega) (by unfold Key.recNsReadState; omega) (by decide)
@[simp] theorem lenOf_recNsState (n : Nat) (h : n < 16) : lenOf (Key.recNsState n) = 1 :=
  lenOf_page rowsRecorder 0x1A10 16 0x9 1 _ (rowsAt_Recorder _ (by unfold Key.recNsState; omega)) (by unfold Key.recNsState; omega) (by unfold Key.recNsState; omega) (by unfold Key.recNsState; omega) (by unfold Key.recNsState; omega) (by decide)
@[simp] theorem lenOf_recSegments : lenOf Key.recSegments = 8 := by decide
@[simp] theorem lenOf_recWritten : lenOf Key.recWritten = 8 := by decide
@[simp] theorem lenOf_ringFlush : lenOf Key.ringFlush = 4 := by decide
@[simp] theorem lenOf_ringResizeState : lenOf Key.ringResizeState = 1 := by decide
@[simp] theorem lenOf_ringSelectFe : lenOf Key.ringSelectFe = 128 := by decide
@[simp] theorem lenOf_ringSelectRaw : lenOf Key.ringSelectRaw = 128 := by decide
@[simp] theorem lenOf_ringSlabs : lenOf Key.ringSlabs = 4 := by decide
@[simp] theorem lenOf_ringSlabsNow : lenOf Key.ringSlabsNow = 4 := by decide
@[simp] theorem lenOf_rtrigForeign (n : Nat) (h : n < 64) : lenOf (Key.rtrigForeign n) = 8 :=
  lenOf_page rowsPins 0x3640 64 0x8 8 _ (rowsAt_Pins _ (by unfold Key.rtrigForeign; omega)) (by unfold Key.rtrigForeign; omega) (by unfold Key.rtrigForeign; omega) (by unfold Key.rtrigForeign; omega) (by unfold Key.rtrigForeign; omega) (by decide)
@[simp] theorem lenOf_rtrigFrom (n : Nat) (h : n < 64) : lenOf (Key.rtrigFrom n) = 2 :=
  lenOf_page rowsPins 0x3640 64 0x3 2 _ (rowsAt_Pins _ (by unfold Key.rtrigFrom; omega)) (by unfold Key.rtrigFrom; omega) (by unfold Key.rtrigFrom; omega) (by unfold Key.rtrigFrom; omega) (by unfold Key.rtrigFrom; omega) (by decide)
@[simp] theorem lenOf_rtrigState (n : Nat) (h : n < 64) : lenOf (Key.rtrigState n) = 1 :=
  lenOf_page rowsPins 0x3640 64 0x5 1 _ (rowsAt_Pins _ (by unfold Key.rtrigState; omega)) (by unfold Key.rtrigState; omega) (by unfold Key.rtrigState; omega) (by unfold Key.rtrigState; omega) (by unfold Key.rtrigState; omega) (by decide)
@[simp] theorem lenOf_rtrigTimeout : lenOf Key.rtrigTimeout = 4 := by decide
@[simp] theorem lenOf_scrubPasses : lenOf Key.scrubPasses = 8 := by decide
@[simp] theorem lenOf_scrubPeriod : lenOf Key.scrubPeriod = 4 := by decide
@[simp] theorem lenOf_secOwnerHash : lenOf Key.secOwnerHash = 48 := by decide
@[simp] theorem lenOf_secOwnerKey : lenOf Key.secOwnerKey = 97 := by decide
@[simp] theorem lenOf_secRootHash : lenOf Key.secRootHash = 48 := by decide
@[simp] theorem lenOf_secSvn : lenOf Key.secSvn = 1 := by decide
@[simp] theorem lenOf_secSvnLeft : lenOf Key.secSvnLeft = 1 := by decide
@[simp] theorem lenOf_spanAnchor : lenOf Key.spanAnchor = 1 := by decide
@[simp] theorem lenOf_spanCount : lenOf Key.spanCount = 1 := by decide
@[simp] theorem lenOf_spanNode : lenOf Key.spanNode = 2 := by decide
@[simp] theorem lenOf_spanState : lenOf Key.spanState = 1 := by decide
@[simp] theorem lenOf_spanSyncAccept : lenOf Key.spanSyncAccept = 1 := by decide
@[simp] theorem lenOf_spanSyncLate : lenOf Key.spanSyncLate = 4 := by decide
@[simp] theorem lenOf_spanX : lenOf Key.spanX = 1 := by decide
@[simp] theorem lenOf_spanY : lenOf Key.spanY = 1 := by decide
@[simp] theorem lenOf_spgEnable (n : Nat) (h : n < 64) : lenOf (Key.spgEnable n) = 1 :=
  lenOf_page rowsSpectrograms 0x2A40 64 0x1 1 _ (rowsAt_Spectrograms _ (by unfold Key.spgEnable; omega)) (by unfold Key.spgEnable; omega) (by unfold Key.spgEnable; omega) (by unfold Key.spgEnable; omega) (by unfold Key.spgEnable; omega) (by decide)
@[simp] theorem lenOf_spgPort (n : Nat) (h : n < 64) : lenOf (Key.spgPort n) = 2 :=
  lenOf_page rowsSpectrograms 0x2A40 64 0x3 2 _ (rowsAt_Spectrograms _ (by unfold Key.spgPort; omega)) (by unfold Key.spgPort; omega) (by unfold Key.spgPort; omega) (by unfold Key.spgPort; omega) (by unfold Key.spgPort; omega) (by decide)
@[simp] theorem lenOf_spgSeq (n : Nat) (h : n < 64) : lenOf (Key.spgSeq n) = 8 :=
  lenOf_page rowsSpectrograms 0x2A40 64 0x7 8 _ (rowsAt_Spectrograms _ (by unfold Key.spgSeq; omega)) (by unfold Key.spgSeq; omega) (by unfold Key.spgSeq; omega) (by unfold Key.spgSeq; omega) (by unfold Key.spgSeq; omega) (by decide)
@[simp] theorem lenOf_spgView (n : Nat) (h : n < 64) : lenOf (Key.spgView n) = 2 :=
  lenOf_page rowsSpectrograms 0x2A40 64 0x2 2 _ (rowsAt_Spectrograms _ (by unfold Key.spgView; omega)) (by unfold Key.spgView; omega) (by unfold Key.spgView; omega) (by unfold Key.spgView; omega) (by unfold Key.spgView; omega) (by decide)
@[simp] theorem lenOf_statusPromise : lenOf Key.statusPromise = 4 := by decide
@[simp] theorem lenOf_suBoard : lenOf Key.suBoard = 1 := by decide
@[simp] theorem lenOf_suBoardError : lenOf Key.suBoardError = 4 := by decide
@[simp] theorem lenOf_suElapsed : lenOf Key.suElapsed = 4 := by decide
@[simp] theorem lenOf_suStage : lenOf Key.suStage = 1 := by decide
@[simp] theorem lenOf_suStageTime : lenOf Key.suStageTime = 10 := by decide
@[simp] theorem lenOf_svcSramCe : lenOf Key.svcSramCe = 8 := by decide
@[simp] theorem lenOf_svcSramUe : lenOf Key.svcSramUe = 8 := by decide
@[simp] theorem lenOf_swLevels (n : Nat) (h : n < 8) : lenOf (Key.swLevels n) = 1 :=
  lenOf_page rowsPins 0x3610 8 0x8 1 _ (rowsAt_Pins _ (by unfold Key.swLevels; omega)) (by unfold Key.swLevels; omega) (by unfold Key.swLevels; omega) (by unfold Key.swLevels; omega) (by unfold Key.swLevels; omega) (by decide)
@[simp] theorem lenOf_swPhase (n : Nat) (h : n < 8) : lenOf (Key.swPhase n) = 1 :=
  lenOf_page rowsPins 0x3610 8 0x9 1 _ (rowsAt_Pins _ (by unfold Key.swPhase; omega)) (by unfold Key.swPhase; omega) (by unfold Key.swPhase; omega) (by unfold Key.swPhase; omega) (by unfold Key.swPhase; omega) (by decide)
@[simp] theorem lenOf_syncCount : lenOf Key.syncCount = 4 := by decide
@[simp] theorem lenOf_syncLast : lenOf Key.syncLast = 10 := by decide
@[simp] theorem lenOf_syncPinEnable : lenOf Key.syncPinEnable = 1 := by decide
@[simp] theorem lenOf_syncPinIgnored : lenOf Key.syncPinIgnored = 4 := by decide
@[simp] theorem lenOf_syncPinLead : lenOf Key.syncPinLead = 4 := by decide
@[simp] theorem lenOf_sysrefLast : lenOf Key.sysrefLast = 10 := by decide
@[simp] theorem lenOf_sysrefMode : lenOf Key.sysrefMode = 1 := by decide
@[simp] theorem lenOf_sysrefPeriod : lenOf Key.sysrefPeriod = 4 := by decide
@[simp] theorem lenOf_sysrefPhase : lenOf Key.sysrefPhase = 4 := by decide
@[simp] theorem lenOf_taiRate : lenOf Key.taiRate = 4 := by decide
@[simp] theorem lenOf_taiSource : lenOf Key.taiSource = 1 := by decide
@[simp] theorem lenOf_taiState : lenOf Key.taiState = 1 := by decide
@[simp] theorem lenOf_tolAvsState : lenOf Key.tolAvsState = 1 := by decide
@[simp] theorem lenOf_tolBoost : lenOf Key.tolBoost = 1 := by decide
@[simp] theorem lenOf_tolBoosts : lenOf Key.tolBoosts = 8 := by decide
@[simp] theorem lenOf_tolBudget : lenOf Key.tolBudget = 2 := by decide
@[simp] theorem lenOf_tolDerate : lenOf Key.tolDerate = 1 := by decide
@[simp] theorem lenOf_tolTemp (n : Nat) (h : n < 24) : lenOf (Key.tolTemp n) = 2 := by revert n; decide
@[simp] theorem lenOf_tolTempMax : lenOf Key.tolTempMax = 2 := by decide
@[simp] theorem lenOf_tolThermLimit : lenOf Key.tolThermLimit = 1 := by decide
@[simp] theorem lenOf_tolVset : lenOf Key.tolVset = 2 := by decide
@[simp] theorem lenOf_trBudgets (n : Nat) (h : n < 32) : lenOf (Key.trBudgets n) = 8 :=
  lenOf_page rowsTrestle 0x3500 32 0x7 8 _ (rowsAt_Trestle _ (by unfold Key.trBudgets; omega)) (by unfold Key.trBudgets; omega) (by unfold Key.trBudgets; omega) (by unfold Key.trBudgets; omega) (by unfold Key.trBudgets; omega) (by decide)
@[simp] theorem lenOf_trCoreState (n : Nat) (h : n < 32) : lenOf (Key.trCoreState n) = 1 := by revert n; decide
@[simp] theorem lenOf_trDigest (n : Nat) (h : n < 32) : lenOf (Key.trDigest n) = 48 :=
  lenOf_page rowsTrestle 0x3500 32 0x3 48 _ (rowsAt_Trestle _ (by unfold Key.trDigest; omega)) (by unfold Key.trDigest; omega) (by unfold Key.trDigest; omega) (by unfold Key.trDigest; omega) (by unfold Key.trDigest; omega) (by decide)
@[simp] theorem lenOf_trImage (n : Nat) (h : n < 32) : lenOf (Key.trImage n) = 295096 :=
  lenOf_page rowsTrestle 0x3500 32 0x1 295096 _ (rowsAt_Trestle _ (by unfold Key.trImage; omega)) (by unfold Key.trImage; omega) (by unfold Key.trImage; omega) (by unfold Key.trImage; omega) (by unfold Key.trImage; omega) (by decide)
@[simp] theorem lenOf_trLoaded (n : Nat) (h : n < 32) : lenOf (Key.trLoaded n) = 1 :=
  lenOf_page rowsTrestle 0x3500 32 0x2 1 _ (rowsAt_Trestle _ (by unfold Key.trLoaded; omega)) (by unfold Key.trLoaded; omega) (by unfold Key.trLoaded; omega) (by unfold Key.trLoaded; omega) (by unfold Key.trLoaded; omega) (by decide)
@[simp] theorem lenOf_trigLogBase : lenOf Key.trigLogBase = 8 := by decide
@[simp] theorem lenOf_trigLogKinds : lenOf Key.trigLogKinds = 1 := by decide
@[simp] theorem lenOf_trigLogSize : lenOf Key.trigLogSize = 8 := by decide
@[simp] theorem lenOf_trigLogWptr : lenOf Key.trigLogWptr = 8 := by decide
@[simp] theorem lenOf_trigStale : lenOf Key.trigStale = 1 := by decide
@[simp] theorem lenOf_trigiCount (n : Nat) (h : n < 8) : lenOf (Key.trigiCount n) = 8 :=
  lenOf_page rowsPins 0x3620 8 0x5 8 _ (rowsAt_Pins _ (by unfold Key.trigiCount; omega)) (by unfold Key.trigiCount; omega) (by unfold Key.trigiCount; omega) (by unfold Key.trigiCount; omega) (by unfold Key.trigiCount; omega) (by decide)
@[simp] theorem lenOf_trigiDead (n : Nat) (h : n < 8) : lenOf (Key.trigiDead n) = 2 :=
  lenOf_page rowsPins 0x3620 8 0x3 2 _ (rowsAt_Pins _ (by unfold Key.trigiDead; omega)) (by unfold Key.trigiDead; omega) (by unfold Key.trigiDead; omega) (by unfold Key.trigiDead; omega) (by unfold Key.trigiDead; omega) (by decide)
@[simp] theorem lenOf_trigiDelay (n : Nat) (h : n < 8) : lenOf (Key.trigiDelay n) = 4 :=
  lenOf_page rowsPins 0x3620 8 0x2 4 _ (rowsAt_Pins _ (by unfold Key.trigiDelay; omega)) (by unfold Key.trigiDelay; omega) (by unfold Key.trigiDelay; omega) (by unfold Key.trigiDelay; omega) (by unfold Key.trigiDelay; omega) (by decide)
@[simp] theorem lenOf_trigiEdge (n : Nat) (h : n < 8) : lenOf (Key.trigiEdge n) = 1 :=
  lenOf_page rowsPins 0x3620 8 0x1 1 _ (rowsAt_Pins _ (by unfold Key.trigiEdge; omega)) (by unfold Key.trigiEdge; omega) (by unfold Key.trigiEdge; omega) (by unfold Key.trigiEdge; omega) (by unfold Key.trigiEdge; omega) (by decide)
@[simp] theorem lenOf_trigiLast (n : Nat) (h : n < 8) : lenOf (Key.trigiLast n) = 10 :=
  lenOf_page rowsPins 0x3620 8 0x6 10 _ (rowsAt_Pins _ (by unfold Key.trigiLast; omega)) (by unfold Key.trigiLast; omega) (by unfold Key.trigiLast; omega) (by unfold Key.trigiLast; omega) (by unfold Key.trigiLast; omega) (by decide)
@[simp] theorem lenOf_trigiLevel (n : Nat) (h : n < 8) : lenOf (Key.trigiLevel n) = 1 :=
  lenOf_page rowsPins 0x3620 8 0x7 1 _ (rowsAt_Pins _ (by unfold Key.trigiLevel; omega)) (by unfold Key.trigiLevel; omega) (by unfold Key.trigiLevel; omega) (by unfold Key.trigiLevel; omega) (by unfold Key.trigiLevel; omega) (by decide)
@[simp] theorem lenOf_trussFailovers (n : Nat) (h : n < 4) : lenOf (Key.trussFailovers n) = 4 :=
  lenOf_page rowsTruss 0x1608 4 0x8 4 _ (rowsAt_Truss _ (by unfold Key.trussFailovers; omega)) (by unfold Key.trussFailovers; omega) (by unfold Key.trussFailovers; omega) (by unfold Key.trussFailovers; omega) (by unfold Key.trussFailovers; omega) (by decide)
@[simp] theorem lenOf_trussFrameCrc (n : Nat) (h : n < 4) : lenOf (Key.trussFrameCrc n) = 8 :=
  lenOf_page rowsTruss 0x1608 4 0x6 8 _ (rowsAt_Truss _ (by unfold Key.trussFrameCrc; omega)) (by unfold Key.trussFrameCrc; omega) (by unfold Key.trussFrameCrc; omega) (by unfold Key.trussFrameCrc; omega) (by unfold Key.trussFrameCrc; omega) (by decide)
@[simp] theorem lenOf_trussLaneState (n : Nat) (h : n < 4) : lenOf (Key.trussLaneState n) = 5 :=
  lenOf_page rowsTruss 0x1608 4 0x5 5 _ (rowsAt_Truss _ (by unfold Key.trussLaneState; omega)) (by unfold Key.trussLaneState; omega) (by unfold Key.trussLaneState; omega) (by unfold Key.trussLaneState; omega) (by unfold Key.trussLaneState; omega) (by decide)
@[simp] theorem lenOf_trussLanes (n : Nat) (h : n < 4) : lenOf (Key.trussLanes n) = 1 :=
  lenOf_page rowsTruss 0x1608 4 0x3 1 _ (rowsAt_Truss _ (by unfold Key.trussLanes; omega)) (by unfold Key.trussLanes; omega) (by unfold Key.trussLanes; omega) (by unfold Key.trussLanes; omega) (by unfold Key.trussLanes; omega) (by decide)
@[simp] theorem lenOf_trussNeighbour (n : Nat) (h : n < 4) : lenOf (Key.trussNeighbour n) = 2 :=
  lenOf_page rowsTruss 0x1608 4 0x2 2 _ (rowsAt_Truss _ (by unfold Key.trussNeighbour; omega)) (by unfold Key.trussNeighbour; omega) (by unfold Key.trussNeighbour; omega) (by unfold Key.trussNeighbour; omega) (by unfold Key.trussNeighbour; omega) (by decide)
@[simp] theorem lenOf_trussRate : lenOf Key.trussRate = 1 := by decide
@[simp] theorem lenOf_trussReplays (n : Nat) (h : n < 4) : lenOf (Key.trussReplays n) = 8 :=
  lenOf_page rowsTruss 0x1608 4 0x7 8 _ (rowsAt_Truss _ (by unfold Key.trussReplays; omega)) (by unfold Key.trussReplays; omega) (by unfold Key.trussReplays; omega) (by unfold Key.trussReplays; omega) (by unfold Key.trussReplays; omega) (by decide)
@[simp] theorem lenOf_trussSleepIdle : lenOf Key.trussSleepIdle = 2 := by decide
@[simp] theorem lenOf_trussStandby : lenOf Key.trussStandby = 1 := by decide
@[simp] theorem lenOf_trussState (n : Nat) (h : n < 4) : lenOf (Key.trussState n) = 1 :=
  lenOf_page rowsTruss 0x1608 4 0x1 1 _ (rowsAt_Truss _ (by unfold Key.trussState; omega)) (by unfold Key.trussState; omega) (by unfold Key.trussState; omega) (by unfold Key.trussState; omega) (by unfold Key.trussState; omega) (by decide)
@[simp] theorem lenOf_viewClipCount (n : Nat) (h : n < 512) : lenOf (Key.viewClipCount n) = 8 :=
  lenOf_page rowsViews 0x2800 512 0x16 8 _ (rowsAt_Views _ (by unfold Key.viewClipCount; omega)) (by unfold Key.viewClipCount; omega) (by unfold Key.viewClipCount; omega) (by unfold Key.viewClipCount; omega) (by unfold Key.viewClipCount; omega) (by decide)
@[simp] theorem lenOf_vrtCtxInterval : lenOf Key.vrtCtxInterval = 4 := by decide

end Sys2Proof.Machine
end

