-- ==== Sys2Proof/WellFormed.lean ====
section
/-! DEFINITION. Which commands are well formed: the widths of what they carry. Unit numbers are bounded by their types. -/

namespace Sys2Proof

/-- Does a number fit in n bits? -/
def fits (n v : Nat) : Bool := v < 2 ^ n

/-- A register access (12 R326): a dword offset inside the BAR. -/
def registerOffsetOk (bar2 : Bool) (off : Nat) : Bool := off % 4 == 0 && (if bar2 then off < 0x1000 else off < 0x10000)

/-- An aperture access (12 R327): 4 or 8 bytes, naturally aligned. -/
def apertureOk (off : Nat) (data : Bytes) : Bool := (data.length == 4 || data.length == 8) && off % data.length == 0

/-- The check of each command. -/
def Instr.wellFormed : Instr → Bool
  | .refclkValid offset => -(2 ^ 31) ≤ offset && offset < 2 ^ 31
  | .ksLoad v => fits 80 v
  | .laneMultiblockRx _ _ _ _ octets => octets.length == 256
  | .frameDispatch _ _ girders => girders.eraseDups == girders
  | .trainingComplete report => (report.map (·.chan)).eraseDups == report.map (·.chan)
  | .recNsRead _ offset count addr => fits 64 offset && fits 64 count && fits 64 addr
  | .registerWrite bar2 offset _ _ => registerOffsetOk bar2 offset
  | .apertureAccess _ offset _ data => apertureOk offset data
  | .hpdEdge _ edid => decide (edid.length ≤ 512)
  | .tempRead readings => readings.length == 24
  | .fwLoad addr len => fits 64 addr && fits 64 len
  | .attNonce nonce => nonce.length == 32
  | .secOwnerKey key => key.length == 97
  | .ethFrameRx _ _ frame => frame.length ≤ 65535
  | .memSpeedReq rate => fits 16 rate
  | .ringSlabs slabs => fits 32 slabs
  | .calItemDone codes => codes.length ≤ 64
  | _ => true

end Sys2Proof
end

