-- ==== Sys2Proof/Tests/Slice0.lean ====
section
/-! SUPPORT. The model's own tests: an ill-formed command for each check of WellFormed, values that the spec or its references give, and for each obligation with
hypotheses a state and operands that meet them together. -/

namespace Sys2Proof.Tests

open Sys2Proof Machine

set_option Elab.async false

/-! ### Ill-formed commands -/

theorem test_wf_refclk_valid : Instr.wellFormed (.refclkValid (2 ^ 31)) = false := by decide
theorem test_wf_ks_load : Instr.wellFormed (.ksLoad (2 ^ 80)) = false := by decide
theorem test_wf_octets : Instr.wellFormed (.laneMultiblockRx 0 0 false ⟨true, true⟩ []) = false := by decide
theorem test_wf_frame_dispatch : Instr.wellFormed (.frameDispatch 0 0 [3, 3]) = false := by decide
theorem test_wf_training : Instr.wellFormed (.trainingComplete [⟨3, 1, 1, 0, true, 0, 0⟩, ⟨3, 2, 1, 0, true, 0, 0⟩]) = false := by decide
theorem test_wf_ns_read : Instr.wellFormed (.recNsRead 0 0 (2 ^ 64) 0) = false := by decide
theorem test_wf_register : Instr.wellFormed (.registerWrite true 0x1000 0 0) = false := by decide
theorem test_wf_aperture : Instr.wellFormed (.apertureAccess true 4 0 (zeros 8)) = false := by decide
theorem test_wf_edid : Instr.wellFormed (.hpdEdge 0 (zeros 513)) = false := by decide +kernel
theorem test_wf_temp : Instr.wellFormed (.tempRead [0]) = false := by decide
theorem test_wf_fw_load : Instr.wellFormed (.fwLoad (2 ^ 64) 1) = false := by decide
theorem test_wf_nonce : Instr.wellFormed (.attNonce [0]) = false := by decide
theorem test_wf_owner_key : Instr.wellFormed (.secOwnerKey [4]) = false := by decide
theorem test_wf_frame : Instr.wellFormed (.ethFrameRx 0 true (zeros 65536)) = false := by decide +kernel
theorem test_wf_speed : Instr.wellFormed (.memSpeedReq (2 ^ 16)) = false := by decide
theorem test_wf_slabs : Instr.wellFormed (.ringSlabs (2 ^ 32)) = false := by decide
theorem test_wf_codes : Instr.wellFormed (.calItemDone (List.replicate 65 0)) = false := by decide

/-! ### Values -/

/-- CRC-32 of the bytes 1 to 9 in ASCII, the check value of its definition. -/
theorem test_crc32 : crc32 [0x31, 0x32, 0x33, 0x34, 0x35, 0x36, 0x37, 0x38, 0x39] = 0xCBF43926 := by decide +kernel

/-- SHA-384 of "abc" (FIPS 180-4, first 4 bytes). -/
theorem test_sha384 : (sha384 [0x61, 0x62, 0x63]).take 4 = [0xCB, 0x00, 0x75, 0x3F] := by decide +kernel

/-- V_op of 120 A and of 260 A (17 R450). -/
theorem test_vop : vopOf 120 = 620 ∧ vopOf 260 = 830 := by decide

/-! ### Witnesses -/

/-- The state after reset with some objects set. -/
def w (d : Tab Nat) : State := { State.reset with dict := d }

/-- FW_READY (19 R504). -/
def up : Nat × Nat := (Key.suStage, 4)

/-- Link 0 over lane 0 of pier 0. -/
def link0 : Tab Nat := [(Key.linkEnable 0, 1), (Key.linkL 0, 1), (Key.linkLanes 0, 0)]

/-- Record 0 of context 0, being measured. -/
def rec0 : Record := { state := 1, running := true }

/-- The same with one sample. -/
def rec1 : Record := { state := 1, running := true, streams := [{ port := 0, fe := false, count := 1 }] }

/-- The object value of a program image of one word, with blocks of one sample at address 0. -/
def image (x : Nat) : Nat := 256 ^ 8 + 256 ^ 20 + x * 256 ^ 64 + 256 ^ 70

/-- A state in which a core runs the user program of one word for record 0. -/
def coreAt (k : Fin 32) (x : Nat) (c : Core) (r : Record := rec0) : State :=
  { w [(Key.trImage 0, image x), (Key.ctxMeasBudget 0, 1)] with
    acq := { records := [r] }, cores := [(k.val, { c with record := some (0, 0), prog := 0x8000 })] }

/-- A state in which core 31 runs an instruction. -/
def runs (i : Instr) (c : Core) (r : Record := rec0) : State := match trestleWord i with | some (k, x) => coreAt k x c r | none => w []

/-- RunsWord as a computation. -/
def runsWordB (s : State) (k : Nat) (r : Record) (x : Nat) : Bool :=
  decide (s.deckStopped = false ∧ s.coreRecord (s.core k) = some r ∧ (s.core k).waiting = false ∧ 0x8000 ≤ (s.core k).prog ∧ (s.core k).prog ≤ 0x801F ∧
    (s.core k).pos < s.budgetOf r ∧ (s.core k).pc < imgPwords (s.imageOf (s.core k).prog r) ∧ imgWord (s.imageOf (s.core k).prog r) (s.core k).pc = x)

/-- Does the core run the instruction, with no transfer waiting that comes to the library ROM? -/
def runsB (s : State) (k : Fin 32) (r : Record) (i : Instr) : Bool :=
  match trestleWord i with
  | some (j, x) => j == k && runsWordB s k.val r x && (match (s.core k.val).transfer with | none => true | some (_, t) => t != 0x4000)
  | none => false

theorem runs_of {s : State} {k : Fin 32} {r : Record} {i : Instr} (h : runsB s k r i = true) : Runs s k r i := by
  unfold runsB at h
  cases hw : trestleWord i with
  | none => simp [hw] at h
  | some p =>
    obtain ⟨j, x⟩ := p
    simp only [hw, Bool.and_eq_true, beq_iff_eq, runsWordB, decide_eq_true_eq] at h
    obtain ⟨⟨rfl, hr⟩, ht⟩ := h
    refine ⟨⟨x, hw, hr⟩, fun n t hn _ => ?_⟩
    rw [hn] at ht; simpa using ht

theorem runsFree_of {s : State} {k : Fin 32} {r : Record} {i : Instr} (h : runsB s k r i = true) (ht : (s.core k.val).transfer = none) (hl : (s.core k.val).loop = none) :
    RunsFree s k r i := ⟨runs_of h, ht, hl⟩

theorem runsWord_of {s : State} {k : Nat} {r : Record} {x : Nat} (h : runsWordB s k r x = true) : RunsWord s k r x := by
  unfold RunsWord; simpa only [runsWordB, decide_eq_true_eq] using h

/-- One memory channel, in service, with a fixed region. -/
def chan0 : Tab Nat := [(Key.memLanes, 1), (Key.memchLane 0, 0), (Key.memchState 0, 3), (Key.memGrain, 256), (Key.memFixedSize, 2 ^ 20)]

/-- A write to the first word of DRAM. -/
def wr0 : MemReq := ⟨0, .aperture 0, 3, true, 0, 64, [], 0, false, []⟩

/-- A mover descriptor of pattern 0 (12 Table 12-13). -/
def desc (flags count src dst : Nat) : Bytes := natLE 1 0 ++ natLE 1 flags ++ natLE 2 0 ++ natLE 4 count ++ natLE 8 src ++ natLE 8 dst ++ zeros 40

/-- The host link up. -/
def host : Pcie := { linkUp := true, busMaster := true }

/-- A state with an operation of the dictionary port waiting. -/
def dc (ctrl key : Nat) (d : Tab Nat := [up]) (g : List RawWrite := []) (t : KTime := 0) (opened : Bool := true) : State :=
  { w d with pcie := { dcBusy := true, dcCtrl := ctrl, dcIndex := key, groupOpen := opened }, pev := { group := g, groupT := t } }

/-- A Pelpin request of session 16. -/
def req (op role : Nat) (body : Bytes) : PpRequest := { session := 16, role := role, op := op, last := true, body := body }

/-- A state with one request waiting, of an open session. -/
def asked (r : PpRequest) (x : Session := {}) (d : Tab Nat := []) : State :=
  { w (d ++ [up]) with pel := { queue := [r], sessions := [(16, { x with keyOut := [0] })] } }

/-- OPEN1 with the base point as its ephemeral key. -/
def open1 : PpRequest :=
  { session := 0, role := 0, op := opOpen, last := true, body := natBE 1 7 ++ zeros 3 ++ 4 :: natBE 48 g384.1 ++ natBE 48 g384.2 ++ zeros 32 }

theorem witness_MemoryStaysCanonical : ∃ (s : State) (t : State), s.mem.wf = true ∧ step s = .next t :=
  ⟨{ w [] with pending := [.spareReady 0] }, _, by decide +kernel, rfl⟩

theorem witness_CommandsKeepQueue : ∃ (c : Instr) (s : State) (t : State), exec c s = .next t :=
  ⟨.spareReady 0, w [], _, rfl⟩

theorem witness_LocksHold :
    (∃ (s : State) (t : State), s.pending.head? ≠ some .powerOnReset ∧ step s = .next t ∧ s.sec.boardLock = true) ∧
    (∃ (s : State) (t : State), s.pending.head? ≠ some .powerOnReset ∧ step s = .next t ∧ s.sec.keysLock = true) :=
  ⟨⟨{ w [] with pending := [.spareReady 0], sec := { boardLock := true } }, _, by decide +kernel, rfl, rfl⟩,
   ⟨{ w [] with pending := [.spareReady 0], sec := { keysLock := true } }, _, by decide +kernel, rfl, rfl⟩⟩

theorem witness_RimCommands :
    (∃ (s : State) (g : Group), g ∈ s.groups ∧ g.t ≤ s.time ∧ (∀ g' ∈ s.groups, g.t ≤ g'.t)) ∧
    (∃ (s : State) (g : Group), g ∈ s.groups ∧ g.t ≤ s.time ∧ (∀ g' ∈ s.groups, g.t ≤ g'.t) ∧ (∀ x ∈ s.groups, x.t = g.t → x.has Key.ksStep = false) ∧ (∀ x ∈ s.groups, x.t = g.t → x.has Key.memFixedSize = false ∧ x.has Key.memGrain = false)) ∧
    (∃ (s : State), s.cond.linkErrorAt + 400000 ≤ s.wall ∧ (∀ k ∈ s.linksOn, ∀ n ∈ (s.link k).lanes, s.obj (Key.pierState (n / 8)) ≠ 3 ∧ s.obj (Key.pierState (n / 8)) ≠ 4)) ∧
    (∃ (s : State), s.ready = true) :=
  ⟨⟨{ w [] with groups := [{ t := 0, writes := [] }] }, { t := 0, writes := [] }, by decide +kernel⟩,
   ⟨{ w [] with groups := [{ t := 0, writes := [] }] }, { t := 0, writes := [] }, by decide +kernel⟩,
   ⟨{ w link0 with wall := 400000 }, by decide +kernel⟩,
   ⟨w [up], by decide +kernel⟩⟩

theorem witness_KeystoneTransitions :
    (∃ (s : State), (s.obj Key.ksState = State.ksLocked ∨ s.obj Key.ksState = State.ksSlewing)) ∧
    (∃ (s : State) (off : Int), s.obj Key.ksState = State.ksLocking ∧ off.natAbs < 64) ∧
    (∃ (s : State) (off : Int), s.obj Key.ksState = State.ksHoldover ∧ -(2 ^ 62) ≤ s.wrapOffset off ∧ s.wrapOffset off < 2 ^ 62) ∧
    (∃ (s : State), s.obj Key.ksState = State.ksSlewing ∧ (s.objI Key.ksSlewRemaining).natAbs < 64) ∧
    (∃ (s : State), s.obj Key.taiState = 2 ∧ 1 ≤ s.obj Key.taiSource ∧ s.obj Key.taiSource ≤ 3 ∧ s.ks.syncedAt + 3 * s.ks.syncInterval ≤ s.wall) :=
  ⟨⟨w [(Key.ksState, 1)], by decide +kernel⟩,
   ⟨w [], 63, by decide +kernel⟩,
   ⟨w [(Key.ksState, 2)], 63, by decide +kernel⟩,
   ⟨w [(Key.ksState, 3)], by decide +kernel⟩,
   ⟨{ w [(Key.taiState, 2), (Key.taiSource, 3)] with wall := 1200000000 }, by decide +kernel⟩⟩

theorem witness_SysrefPpsAndLoad :
    (∃ (s : State) (v : Nat), s.ks.load = some v ∧ s.ks.loadDue = true ∧ v < 2 ^ 80 ∧ v % tick = 0 ∧ s.obj Key.sysrefMode = 0) ∧
    (∃ (s : State), s.ks.load = none ∧ s.obj Key.sysrefMode = 1 ∧ s.ks.alignArmed = true) ∧
    (∃ (s : State), s.obj Key.ppsEdge = 0 ∧ s.obj Key.taiSource ≠ 3) ∧
    (∃ (s : State) (v : Nat), s.ready = true ∧ v < 2 ^ 80) :=
  ⟨⟨{ w [(Key.sysrefMode, 0)] with ks := { load := some (2 ^ 80 - 65536), loadDue := true } }, 2 ^ 80 - 65536, by decide +kernel⟩,
   ⟨{ w [(Key.sysrefMode, 1)] with ks := { alignArmed := true } }, by decide +kernel⟩,
   ⟨w [], by decide +kernel⟩,
   ⟨w [up], 2 ^ 80 - 1, by decide +kernel⟩⟩

theorem witness_LoSynthesiser :
    (∃ (s : State), s.obj Key.loState = 1 ∧ s.lo.acquiredFrom + 4000000 ≤ s.wall) ∧
    (∃ (s : State) (g : Group) (old : Nat → Nat), (∀ w ∈ g.writes, w.1 = Key.loWord) ∧ old Key.loEnable = s.obj Key.loEnable ∧ old Key.loDivider = s.obj Key.loDivider) ∧
    (∃ (s : State), s.obj Key.loState ≠ 0 ∧ (∃ d ∈ s.due, d.1 = Key.loRelock)) ∧
    (∃ (s : State), s.obj Key.loState = 1 ∧ s.lo.acquiredFrom + 4000000 < s.wall) ∧
    (∃ (s : State), s.obj Key.loState = 1 ∧ s.lo.acquiredFrom + 25600 ≤ s.wall ∧ s.wall ≤ s.lo.acquiredFrom + 4000000) ∧
    (∃ (s : State), s.obj Key.loState = 2) ∧
    (∃ (s : State) (i : Nat), s.obj Key.loRampMode = 1 ∧ i + 1 < s.obj Key.loRampCount ∧ s.obj Key.loRampCount ≤ 256 ∧ (∀ j ≤ i, State.rampStart (s.obj Key.loRampTable) j ≤ s.ticks) ∧ (∀ j < s.obj Key.loRampCount, i < j → s.ticks < State.rampStart (s.obj Key.loRampTable) j) ∧ s.lo.segment ≠ some i) ∧
    (∃ (s : State) (i : Nat), s.obj Key.loRampMode = 1 ∧ i + 1 < s.obj Key.loRampCount ∧ s.obj Key.loRampCount ≤ 256 ∧ (∀ j ≤ i, State.rampStart (s.obj Key.loRampTable) j ≤ s.ticks) ∧ (∀ j < s.obj Key.loRampCount, i < j → s.ticks < State.rampStart (s.obj Key.loRampTable) j) ∧ s.lo.segment = some i ∧ s.lo.advance = 0) ∧
    (∃ (s : State) (pll : Fin 24) (p : Nat), s.obj (Key.lanepllState pll.val) = 2 ∧ s.obj Key.ksState ≠ State.ksHoldover ∧ pll.val = 16 + p ∧ s.logicalLanes p ≠ [] ∧ p < 4) ∧
    (∃ (s : State) (pll : Fin 24) (p : Nat), s.obj (Key.lanepllState pll.val) = 2 ∧ s.obj Key.ksState ≠ State.ksHoldover ∧ pll.val = 20 + p ∧ p < 2) ∧
    (∃ (s : State) (pll : Fin 24) (h : Nat), s.obj (Key.lanepllState pll.val) = 2 ∧ s.obj Key.ksState ≠ State.ksHoldover ∧ pll.val = 22 + h ∧ s.obj (Key.dispState h) = 2 ∧ h < 2) ∧
    (∃ (s : State) (pll : Fin 24), s.obj (Key.lanepllState pll.val) = 2 ∧ s.obj Key.ksState ≠ State.ksHoldover ∧ pll.val < 16 ∧ s.linksOfPier pll.val ≠ [] ∧ s.obj (Key.pierState pll.val) = 2) ∧
    (∃ (s : State) (pll : Fin 24), s.obj (Key.lanepllState pll.val) ≠ 2) :=
  ⟨⟨{ w [(Key.loState, 1)] with wall := 4000000 }, by decide +kernel⟩,
   ⟨w [], { t := 0, writes := [(Key.loWord, 1)] }, fun k => (w []).obj k, by decide +kernel⟩,
   ⟨{ w [(Key.loState, 3)] with due := [(Key.loRelock, 0)] }, by decide +kernel⟩,
   ⟨{ w [(Key.loState, 1)] with wall := 4000001 }, by decide +kernel⟩,
   ⟨{ w [(Key.loState, 1)] with wall := 25600 }, by decide +kernel⟩,
   ⟨w [(Key.loState, 2)], by decide +kernel⟩,
   ⟨w [(Key.loRampCount, 2), (Key.loRampMode, 1), (Key.loRampTable, 2 ^ 192)], 0, by decide +kernel⟩,
   ⟨{ w [(Key.loRampCount, 2), (Key.loRampMode, 1), (Key.loRampTable, 2 ^ 192)] with lo := { segment := some 0 } }, 0, by decide +kernel⟩,
   ⟨w [(Key.lanepllState 19, 2), (Key.trussLaneState 3, 0x0101010101)], 19, 3, by decide +kernel⟩,
   ⟨w [(Key.lanepllState 21, 2)], 21, 1, by decide +kernel⟩,
   ⟨w [(Key.lanepllState 23, 2), (Key.dispState 1, 2)], 23, 1, by decide +kernel⟩,
   ⟨w ([(Key.lanepllState 0, 2), (Key.pierState 0, 2)] ++ link0), 0, by decide +kernel⟩,
   ⟨w [], 23, by decide +kernel⟩⟩

theorem witness_IdleStepIsOneTick : ∃ (s : State), s.pending = [] :=
  ⟨w [], by decide +kernel⟩

theorem witness_LaneReception :
    (∃ (s : State) (n : Fin 128), s.linkOfLane n.val = none) ∧
    (∃ (s : State) (n : Fin 128) (k : Nat), s.linkOfLane n.val = some k ∧ s.obj (Key.laneState n.val) = 1 ∧ (s.laneSt n.val).late = none) ∧
    (∃ (s : State) (n : Fin 128) (k : Nat), s.linkOfLane n.val = some k ∧ s.obj (Key.laneState n.val) = 2 ∧ ((s.laneSt n.val).headers.filter id).length < 16) ∧
    (∃ (s : State) (n : Fin 128) (k : Nat), s.linkOfLane n.val = some k ∧ s.obj (Key.laneState n.val) = 3 ∧ ((s.laneSt n.val).headers.filter id).length < 16 ∧ (∀ e ∈ (s.laneSt n.val).errors, e = false) ∧ (s.laneSt n.val).markerRun = 0) ∧
    (∃ (s : State) (n : Fin 128) (k : Nat), s.linkOfLane n.val = some k ∧ s.obj (Key.laneState n.val) = 3 ∧ ((s.laneSt n.val).headers.filter id).length < 16 ∧ (s.link k).e = 1 ∧ (s.laneSt n.val).part = [] ∧ (s.laneSt n.val).partBlocks = 0 ∧ (s.laneSt n.val).partBad = false ∧ (s.laneSt n.val).partMarker = false ∧ (s.laneSt n.val).buffer.length < 4) ∧
    (∃ (s : State) (n : Fin 128) (k : Nat), s.linkOfLane n.val = some k ∧ s.obj (Key.laneState n.val) = 4) ∧
    (∃ (s : State) (n : Fin 128) (k : Nat), s.linkOfLane n.val = some k ∧ s.obj (Key.laneState n.val) = 3 ∧ s.obj (Key.pierState (n.val / 8)) = 2 ∧ s.obj (Key.linkState k) = 2) ∧
    (∃ (s : State) (n : Fin 128) (k : Nat), s.linkOfLane n.val = some k ∧ s.obj (Key.laneState n.val) = 2) ∧
    (∃ (s : State) (n : Fin 128), s.linkOfLane n.val = none) :=
  ⟨⟨w [], 127, by decide +kernel⟩,
   ⟨w ((Key.laneState 0, 1) :: link0), 0, 0, by decide +kernel⟩,
   ⟨w ((Key.laneState 0, 2) :: link0), 0, 0, by decide +kernel⟩,
   ⟨w ((Key.laneState 0, 3) :: link0), 0, 0, by decide +kernel⟩,
   ⟨w ([(Key.laneState 0, 3), (Key.linkE 0, 1)] ++ link0), 0, 0, by decide +kernel⟩,
   ⟨w ((Key.laneState 0, 4) :: link0), 0, 0, by decide +kernel⟩,
   ⟨w ([(Key.laneState 0, 3), (Key.linkState 0, 2), (Key.pierState 0, 2)] ++ link0), 0, 0, by decide +kernel⟩,
   ⟨w ((Key.laneState 0, 2) :: link0), 0, 0, by decide +kernel⟩,
   ⟨w [], 127, by decide +kernel⟩⟩

theorem witness_LinksAndPiers :
    (∃ (s : State) (k : Fin 128), s.flag (Key.linkEnable k.val) = true ∧ s.obj (Key.linkState k.val) = 2 ∧ (s.link k.val).release (s.linkSt k.val).next ≤ s.time ∧ s.oneEach (s.link k.val) = true) ∧
    (∃ (s : State) (k : Fin 128), s.flag (Key.linkEnable k.val) = true ∧ s.obj (Key.linkState k.val) = 2 ∧ (s.link k.val).release (s.linkSt k.val).next ≤ s.time ∧ s.oneEach (s.link k.val) = true) ∧
    (∃ (s : State) (k : Fin 128), s.flag (Key.linkEnable k.val) = true ∧ s.obj (Key.linkState k.val) = 2 ∧ (s.link k.val).release (s.linkSt k.val).next ≤ s.time ∧ s.oneEach (s.link k.val) = false) ∧
    (∃ (s : State) (k : Fin 128), s.time < (s.link k.val).release (s.linkSt k.val).next) ∧
    (∃ (s : State) (p : Fin 16), s.obj (Key.pierState p.val) = 4 ∧ (s.pierSt p.val).markedTo + 400000000 * tick ≤ s.time) ∧
    (∃ (s : State) (p : Fin 16), s.ready = true ∧ s.obj (Key.pierState p.val) = 4) ∧
    (∃ (s : State) (p : Fin 16), s.ready = true ∧ s.obj (Key.pierState p.val) ≠ 4) ∧
    (∃ (s : State) (p : Fin 16), s.resumeDue p.val ≠ [] ∧ (∀ k ∈ s.resumeDue p.val, s.resumePasses p.val k = true) ∧ (∀ k ∈ s.linksOfPier p.val, k ∈ (s.pierSt p.val).passed ∨ k ∈ s.resumeDue p.val)) ∧
    (∃ (s : State) (p : Fin 16), (∃ k ∈ s.resumeDue p.val, s.resumePasses p.val k = false)) ∧
    (∃ (s : State), s.ready = true) :=
  ⟨⟨{ w ((Key.linkState 0, 2) :: link0) with time := 2 ^ 40, ing := { lanes := [(0, { buffer := [⟨[], false, 0⟩] })] } }, 0, by decide +kernel⟩,
   ⟨{ w ((Key.linkState 0, 2) :: link0) with time := 2 ^ 40, ing := { lanes := [(0, { buffer := [⟨[], false, 0⟩] })] } }, 0, by decide +kernel⟩,
   ⟨{ w ((Key.linkState 0, 2) :: link0) with time := 2 ^ 40 }, 0, by decide +kernel⟩,
   ⟨w ((Key.linkRbd 0, 1) :: link0), 0, by decide +kernel⟩,
   ⟨{ w [(Key.pierState 15, 4)] with time := 400000000 * tick }, 15, by decide +kernel⟩,
   ⟨w [up, (Key.pierState 15, 4)], 15, by decide +kernel⟩,
   ⟨w [up, (Key.pierState 15, 3)], 15, by decide +kernel⟩,
   ⟨{ w ([(Key.pierState 0, 3), (Key.linkState 0, 3), (Key.linkE 0, 1), (Key.laneState 0, 3)] ++ link0) with time := 2 ^ 60, ing := { links := [(0, { next := 2 ^ 20 })], lanes := [(0, { buffer := [⟨[], false, 0⟩] })] } }, 0, by decide +kernel⟩,
   ⟨{ w ([(Key.pierState 0, 3), (Key.linkState 0, 3), (Key.linkE 0, 1)] ++ link0) with time := 2 ^ 60, ing := { links := [(0, { next := 2 ^ 20 })] } }, 0, by decide +kernel⟩,
   ⟨w [up], by decide +kernel⟩⟩

theorem witness_FrontEnds :
    (∃ (s : State) (p : Fin 1024) (it : Item) (r : List Item), s.deckHeld = false ∧ s.queue p.val = it :: r ∧ s.eraClear p.val it.era = true ∧ it.gap = none ∧ it.count = 1 ∧ it.ended = false) ∧
    (∃ (s : State) (p : Fin 1024) (it : Item) (r : List Item), s.queue p.val = it :: r ∧ s.eraClear p.val it.era = false) ∧
    (∃ (s : State) (p : Fin 1024), s.queue p.val = []) ∧
    (∃ (s : State), s.deckHeld = true) ∧
    (∃ (s : State) (T : KTime), s.due = [(Key.syncNow, T)] ∧ (∀ r ∈ s.fes.resets, r.1 ≠ T)) ∧
    (∃ (s : State), s.flag Key.syncPinEnable = true ∧ s.time < s.fes.lastPinTs) ∧
    (∃ (s : State), s.flag Key.syncPinEnable = true ∧ s.fes.lastPinTs ≤ s.time ∧ 0 < s.obj Key.sysrefPeriod) ∧
    (∃ (s : State) (T : KTime), s.fes.resets = [(T, false)] ∧ T ≤ s.time ∧ T < 2 ^ 80) :=
  ⟨⟨{ w [] with ing := { queues := [(1023, [{ t := {} }])] } }, 1023, { t := {} }, [], by decide +kernel⟩,
   ⟨{ w [] with time := 9, undo := [(9, Key.portEnable 1023, 0)], dict := [(Key.portEnable 1023, 1)], ing := { queues := [(1023, [{ t := {}, era := 10 }])] } }, 1023, { t := {}, era := 10 }, [], by decide +kernel⟩,
   ⟨w [], 1023, by decide +kernel⟩,
   ⟨w [(Key.tolDerate, 3)], by decide +kernel⟩,
   ⟨{ w [] with due := [(Key.syncNow, 5)] }, 5, by decide +kernel⟩,
   ⟨{ w [(Key.syncPinEnable, 1)] with fes := { lastPinTs := 1 } }, by decide +kernel⟩,
   ⟨w [(Key.syncPinEnable, 1), (Key.sysrefPeriod, 400), (Key.sysrefPhase, 0)], by decide +kernel⟩,
   ⟨{ w [] with time := 2 ^ 80 - 1, fes := { resets := [(2 ^ 80 - 1, false)] } }, 2 ^ 80 - 1, by decide +kernel⟩⟩

theorem witness_EdgeDetector :
    (∃ (c : EdgeCfg) (v : Int) (d : Detector), (riseStep c v d).1 = true ∧ c.quantity = 0) ∧
    (∃ (c : EdgeCfg) (v : Int) (d : Detector), (riseStep c v d).1 = true ∧ c.quantity ≠ 0) ∧
    (∃ (c : EdgeCfg) (v : Int) (d : Detector), d.armed = false ∧ (riseStep c v d).2.armed = true ∧ c.quantity = 0) ∧
    (∃ (c : EdgeCfg) (v : Int) (d : Detector), d.armed = false ∧ (riseStep c v d).2.armed = true ∧ c.quantity ≠ 0) ∧
    (∃ (c : EdgeCfg) (v : Int) (d : Detector), (fallStep c v d).1 = true ∧ c.quantity = 0) ∧
    (∃ (c : EdgeCfg) (v : Int) (d : Detector), (fallStep c v d).1 = true ∧ c.quantity ≠ 0) ∧
    (∃ (c : EdgeCfg) (v : Int) (d : Detector), d.armed = false ∧ (fallStep c v d).2.armed = true ∧ c.quantity = 0) ∧
    (∃ (c : EdgeCfg) (v : Int) (d : Detector), d.armed = false ∧ (fallStep c v d).2.armed = true ∧ c.quantity ≠ 0) :=
  ⟨⟨{ stage := 0, quantity := 0, slope := 0, level := 10, hyst := 2, dead := 3, pins := 0, width := 1 }, 10, { armed := true }, by decide +kernel⟩,
   ⟨{ stage := 0, quantity := 1, slope := 0, level := 10, hyst := 2, dead := 3, pins := 0, width := 1 }, 100, { armed := true }, by decide +kernel⟩,
   ⟨{ stage := 0, quantity := 0, slope := 0, level := 10, hyst := 2, dead := 3, pins := 0, width := 1 }, 7, { armed := false, since := 2 }, by decide +kernel⟩,
   ⟨{ stage := 0, quantity := 1, slope := 0, level := 10, hyst := 2, dead := 3, pins := 0, width := 1 }, 63, { armed := false, since := 2 }, by decide +kernel⟩,
   ⟨{ stage := 0, quantity := 0, slope := 0, level := 10, hyst := 2, dead := 3, pins := 0, width := 1 }, 10, { armed := true }, by decide +kernel⟩,
   ⟨{ stage := 0, quantity := 1, slope := 0, level := 10, hyst := 2, dead := 3, pins := 0, width := 1 }, 100, { armed := true }, by decide +kernel⟩,
   ⟨{ stage := 0, quantity := 0, slope := 0, level := 10, hyst := 2, dead := 3, pins := 0, width := 1 }, 13, { armed := false, since := 2 }, by decide +kernel⟩,
   ⟨{ stage := 0, quantity := 1, slope := 0, level := 10, hyst := 2, dead := 3, pins := 0, width := 1 }, 145, { armed := false, since := 2 }, by decide +kernel⟩⟩

theorem witness_FramesOnGirders :
    (∃ (s : State) (v : Fin 512) (p : Fin 1024) (gs : List (Fin 68)) (f : Frame), s.deckHeld = false ∧ ((s.viewPort v.val p.val).frames.find? fun f => !f.done && f.girders.isEmpty) = some f ∧ (∀ g ∈ gs, s.girderFree g.val = true) ∧ (∀ g ∈ gs, g.val ∉ f.failedOn) ∧ gs.Nodup ∧ gs.length = gangSize f.size) ∧
    (∃ (s : State) (s1 : State) (s2 : State) (v : Fin 512) (p : Fin 1024) (gs : List (Fin 68)) (f : Frame), s.deckHeld = false ∧ ((s.viewPort v.val p.val).frames.find? fun f => !f.done && f.girders.isEmpty) = none ∧ s.passFrames v.val p.val 4096 = (s1, some (s2, f)) ∧ (∀ g ∈ gs, s.girderFree g.val = true) ∧ gs.Nodup ∧ gs.length = gangSize f.size) ∧
    (∃ (s : State) (g : Fin 68) (v : Nat) (p : Nat) (f : Frame), s.deckHeld = false ∧ s.girderWork g.val = some (v, p, f)) ∧
    (∃ (s : State) (g : Fin 68) (v : Nat) (p : Nat) (f : Frame), s.deckHeld = false ∧ s.girderWork g.val = some (v, p, f) ∧ (s.girder g.val).failedAt = 0) ∧
    (∃ (s : State), s.deckHeld = true) :=
  ⟨⟨{ w [(Key.girderState 67, 1)] with views := { ports := [(0, { frames := [{ k := 0, t := 0, epoch := 0, size := 16 }] })] } }, 0, 0, [67], { k := 0, t := 0, epoch := 0, size := 16 }, by decide +kernel⟩,
   ⟨{ w [(Key.girderState 67, 1), (Key.viewEnable 0, 1), (Key.viewPortFirst 0, 0), (Key.viewPortCount 0, 1)] with views := { ports := [(0, { started := true, size := 1, hop := 1, active := true })] }, fes := { outs := [(0, [{ epoch := 0, te := 0, n := 0, t := 0 }])] } }, _, _, 0, 0, [67], _, by decide +kernel, by decide +kernel, rfl, by decide +kernel, by decide +kernel, by decide +kernel⟩,
   ⟨{ w [(Key.girderState 67, 1)] with views := { ports := [(0, { frames := [{ k := 0, t := 0, epoch := 0, size := 16, girders := [67] }] })] } }, 67, 0, 0, { k := 0, t := 0, epoch := 0, size := 16, girders := [67] }, by decide +kernel⟩,
   ⟨{ w [(Key.girderState 67, 1)] with views := { ports := [(0, { frames := [{ k := 0, t := 0, epoch := 0, size := 16, girders := [67] }] })] } }, 67, 0, 0, { k := 0, t := 0, epoch := 0, size := 16, girders := [67] }, by decide +kernel⟩,
   ⟨w [(Key.tolDerate, 3)], by decide +kernel⟩⟩

theorem witness_GirderRetirement :
    (∃ (s : State) (g : Fin 68), s.ready = true ∧ s.obj (Key.girderState g.val) = girderInService ∧ (∃ x, s.freeSpare = some x)) ∧
    (∃ (s : State) (g : Fin 68), s.ready = true ∧ s.obj (Key.girderState g.val) = girderRetired) ∧
    (∃ (s : State) (g : Fin 68), s.ready = true ∧ s.obj (Key.girderState g.val) ≠ girderRetired ∧ (s.obj (Key.girderState g.val) ≠ girderInService ∨ s.freeSpare = none)) ∧
    (∃ (s : State) (g : Fin 68) (v : Nat) (p : Nat) (f : Frame), s.girderWork g.val = some (v, p, f) ∧ f.startedAt + frameLimit f.size ≤ s.wall ∧ s.obj (Key.girderState g.val) = girderInService ∧ (∃ x, s.freeSpare = some x)) :=
  ⟨⟨w [up, (Key.girderState 0, 1)], 0, by decide +kernel, by decide +kernel, 1, by decide +kernel⟩,
   ⟨w [up, (Key.girderState 67, 3)], 67, by decide +kernel⟩,
   ⟨w [up, (Key.girderState 67, 0)], 67, by decide +kernel⟩,
   ⟨{ w [(Key.girderState 67, 1), (Key.girderState 0, 0)] with wall := 100000, views := { ports := [(0, { frames := [{ k := 0, t := 0, epoch := 0, size := 16, girders := [67] }] })] } }, 67, 0, 0, { k := 0, t := 0, epoch := 0, size := 16, girders := [67] }, by decide +kernel, by decide +kernel, by decide +kernel, 0, by decide +kernel⟩⟩

theorem witness_DensityCountsEveryPoint : ∃ (cells : Tab Int), tabWf 0 cells = true ∧ (∀ e ∈ cells, 0 ≤ e.2 ∧ e.2 ≤ 65535) :=
  ⟨[(0, 65535)], by decide +kernel⟩

theorem witness_ProductCommands :
    (∃ (s : State) (kind : BuilderKind) (n : Fin kind.count) (f : Frame), s.deckHeld = false ∧ kind.code ≠ 2 ∧ ((s.prodCloses kind.code n.val 4096).product kind.code n.val).on = true ∧ (let s1 := s.prodCloses kind.code n.val 4096; let x := s1.prodX kind.code n.val (s1.product kind.code n.val).start; s1.viewInput x.1 x.2 (s1.product kind.code n.val).nextX = some f)) ∧
    (∃ (s : State) (n : Fin 512), s.deckHeld = false ∧ ((s.prodCloses 2 n.val 4096).product 2 n.val).on = true) ∧
    (∃ (s : State) (n : Fin 256) (f : Frame), (s.product 3 n.val).on = true ∧ (s.product 3 n.val).start ≤ f.t ∧ f.t < s.dumpBoundary 3 n.val (s.product 3 n.val).start ∧ f.gap = none ∧ s.rejects 3 n.val f = true) ∧
    (∃ (s : State) (kind : BuilderKind) (n : Fin kind.count) (r : ProductRecord) (rest : List ProductRecord), (s.product kind.code n.val).unacked = r :: rest ∧ s.outstandingIn (.product kind.code n.val) (r.base + r.offset) r.bytes = false ∧ s.lastEnable (prodKey kind.code n.val 1) ≤ r.era ∧ r.next < 2 ^ 64) ∧
    (∃ (s : State) (g : Fin 64) (a : KTime) (b : KTime), s.deckHeld = false ∧ s.spgOnFrom g.val (s.spectro g.val).next = some (a, b) ∧ s.spgRebind g.val a = none) ∧
    (∃ (s : State) (g : Fin 64) (r : SpectroRow) (rest : List SpectroRow), (s.spectro g.val).unacked = r :: rest ∧ s.outstandingIn (.spectrogram g.val) r.row r.pitch = false ∧ s.outstandingIn (.spectrogram g.val) r.header 64 = false ∧ s.lastEnable (Key.spgEnable g.val) ≤ r.era) ∧
    (∃ (s : State) (e : Nat), s.fectlNextTime = some e ∧ e ≤ s.ticks ∧ s.fectlPending e = false ∧ s.prods.fectlNext + 1 = s.obj Key.fectlCount ∧ s.obj Key.fectlMode = 0) ∧
    (∃ (s : State) (e : Nat), s.fectlNextTime = some e ∧ e ≤ s.ticks ∧ s.fectlPending e = false ∧ s.prods.fectlNext + 1 = s.obj Key.fectlCount ∧ s.obj Key.fectlMode = 0) :=
  ⟨⟨{ w [] with prods := { items := [(1024, { on := true })] }, views := { ports := [(0, { delivered := [{ k := 0, t := 0, epoch := 0 }] })] } }, .dens, ⟨0, by decide⟩, { k := 0, t := 0, epoch := 0 }, by decide +kernel⟩,
   ⟨{ w [] with prods := { items := [(2559, { on := true })] } }, 511, by decide +kernel⟩,
   ⟨{ w [(Key.intReject 255, 1)] with prods := { items := [(3327, { on := true })] } }, 255, { k := 0, t := 0, epoch := 0, flags := 1 }, by decide +kernel⟩,
   ⟨{ w [] with prods := { items := [(3327, { unacked := [⟨0, 0, 64, 2 ^ 64 - 1, 0⟩] })] } }, .int, ⟨255, by decide⟩, ⟨0, 0, 64, 2 ^ 64 - 1, 0⟩, [], by decide +kernel⟩,
   ⟨{ w [(Key.spgEnable 63, 1)] with views := { ports := [(0, { traces := [{ k := 0, t := 0, epoch := 0, flags := 0, words := [] }] })] } }, 63, 0, 0, by decide +kernel⟩,
   ⟨{ w [] with prods := { spectros := [(63, { unacked := [⟨0, 0, 0, 64, 64⟩] })] } }, 63, ⟨0, 0, 0, 64, 64⟩, [], by decide +kernel⟩,
   ⟨w [(Key.fectlCount, 1), (Key.fectlTable, 0), (Key.fectlMode, 0)], 0, by decide +kernel⟩,
   ⟨w [(Key.fectlCount, 1), (Key.fectlTable, 0), (Key.fectlMode, 0)], 0, by decide +kernel⟩⟩

theorem witness_Masks :
    (∃ (s : State), s.deckHeld = true) ∧
    (∃ (s : State) (m : Fin 256), s.deckHeld = false ∧ (s.maskNext m.val (s.mask m.val).next State.maskFuel).2 = none) ∧
    (∃ (s : State) (m : Fin 256) (v : Nat) (p : Nat) (f : Frame), s.deckHeld = false ∧ s.maskNext m.val (s.mask m.val).next State.maskFuel = ((v, p), some f) ∧ s.flagAt (Key.maskEnable m.val) f.t = true ∧ f.skip = none ∧ f.gap.isSome = true) ∧
    (∃ (s : State) (m : Fin 256) (v : Nat) (p : Nat) (f : Frame), s.deckHeld = false ∧ s.maskNext m.val (s.mask m.val).next State.maskFuel = ((v, p), some f) ∧ s.flagAt (Key.maskEnable m.val) f.t = true ∧ f.skip = none ∧ f.gap = none ∧ (s.objAt (Key.maskReject m.val) f.t &&& f.flags) ≠ 0) ∧
    (∃ (s : State) (m : Fin 256) (v : Nat) (p : Nat) (f : Frame), s.deckHeld = false ∧ s.maskNext m.val (s.mask m.val).next State.maskFuel = ((v, p), some f) ∧ s.flagAt (Key.maskEnable m.val) f.t = true ∧ f.skip = none ∧ f.gap = none ∧ (s.objAt (Key.maskReject m.val) f.t &&& f.flags) = 0) ∧
    (∃ (s : State) (m : Fin 256) (t : Nat) (flags : Nat) (bad : List Nat) (hist : List (Bool × Nat)), hist = ((decide (s.objAt (Key.maskK m.val) t ≤ bad.length), flags % 32) :: (s.mask m.val).history).take (s.objAt (Key.maskJ m.val) t) ∧ (hist.filter (·.1)).length < s.objAt (Key.maskM m.val) t) ∧
    (∃ (s : State) (m : Fin 256) (t : Nat) (flags : Nat) (bad : List Nat) (hist : List (Bool × Nat)), hist = ((decide (s.objAt (Key.maskK m.val) t ≤ bad.length), flags % 32) :: (s.mask m.val).history).take (s.objAt (Key.maskJ m.val) t) ∧ s.objAt (Key.maskM m.val) t ≤ (hist.filter (·.1)).length ∧ s.obj (Key.maskState m.val) = 1) ∧
    (∃ (s : State) (m : Fin 256) (t : Nat) (u : Nat), 0 < s.objAt (Key.maskRearm m.val) t ∧ s.objAt (Key.maskK m.val) t ≤ u) ∧
    (∃ (s : State) (m : Fin 256) (t : Nat) (u : Nat), 0 < s.objAt (Key.maskRearm m.val) t ∧ u < s.objAt (Key.maskK m.val) t ∧ (s.mask m.val).clear + 1 < s.objAt (Key.maskRearm m.val) t) ∧
    (∃ (s : State) (m : Fin 256) (t : Nat) (u : Nat), 0 < s.objAt (Key.maskRearm m.val) t ∧ u < s.objAt (Key.maskK m.val) t ∧ s.objAt (Key.maskRearm m.val) t ≤ (s.mask m.val).clear + 1) :=
  ⟨⟨w [(Key.tolDerate, 3)], by decide +kernel⟩,
   ⟨w [], 255, by decide +kernel⟩,
   ⟨{ w [(Key.maskEnable 255, 1), (Key.maskReject 255, 2)] with views := { ports := [(0, { delivered := [{ k := 0, t := 0, epoch := 0, gap := some (1, 0) }] })] } }, 255, 0, 0, { k := 0, t := 0, epoch := 0, gap := some (1, 0) }, by decide +kernel⟩,
   ⟨{ w [(Key.maskEnable 255, 1), (Key.maskReject 255, 2)] with views := { ports := [(0, { delivered := [{ k := 0, t := 0, epoch := 0, flags := 2 }] })] } }, 255, 0, 0, { k := 0, t := 0, epoch := 0, flags := 2 }, by decide +kernel⟩,
   ⟨{ w [(Key.maskEnable 255, 1), (Key.maskReject 255, 2)] with views := { ports := [(0, { delivered := [{ k := 0, t := 0, epoch := 0 }] })] } }, 255, 0, 0, { k := 0, t := 0, epoch := 0 }, by decide +kernel⟩,
   ⟨w [(Key.maskK 255, 2), (Key.maskM 255, 1), (Key.maskJ 255, 1)], 255, 0, 31, [0], [(false, 31)], by decide +kernel⟩,
   ⟨w [(Key.maskK 255, 2), (Key.maskM 255, 1), (Key.maskJ 255, 1), (Key.maskState 255, 1)], 255, 0, 31, [0, 1], [(true, 31)], by decide +kernel⟩,
   ⟨w [(Key.maskRearm 255, 2), (Key.maskK 255, 2)], 255, 0, 2, by decide +kernel⟩,
   ⟨w [(Key.maskRearm 255, 2), (Key.maskK 255, 2)], 255, 0, 1, by decide +kernel⟩,
   ⟨w [(Key.maskRearm 255, 1), (Key.maskK 255, 2)], 255, 0, 1, by decide +kernel⟩⟩

theorem witness_TriggerUnits :
    (∃ (s : State) (n : Fin 8) (pos : Fin 64), s.objAt (Key.trigiEdge n.val) (s.ticks * tick + pos.val * 1024) = 0) ∧
    (∃ (s : State) (n : Fin 8) (pos : Fin 64), s.objAt (Key.trigiEdge n.val) (s.ticks * tick + pos.val * 1024) = 1 ∧ tabGet 0 s.trig.lastEdge n.val = 0 ∧ 0 ≤ s.objIAt (Key.trigiDelay n.val) (s.ticks * tick + pos.val * 1024) ∧ s.objIAt (Key.trigiDelay n.val) (s.ticks * tick + pos.val * 1024) ≤ (s.ticks * tick + pos.val * 1024 : Nat) ∧ s.time < 2 ^ 80) ∧
    (∃ (s : State) (n : Fin 8) (pos : Fin 64), tabGet 0 s.trig.lastEdge n.val ≠ 0 ∧ s.ticks * tick + pos.val * 1024 < tabGet 0 s.trig.lastEdge n.val - 1 + s.objAt (Key.trigiDead n.val) (s.ticks * tick + pos.val * 1024) * tick) ∧
    (∃ (s : State) (c : Fin 16) (T : KTime), s.due = [(Key.trigCmd c.val, T)]) ∧
    (∃ (s : State) (c : Fin 64), s.obj (Key.rtrigState c.val) = 1 ∧ tabGet 0 s.trig.remoteAt c.val - 1 + s.obj Key.rtrigTimeout * tick ≤ s.time) ∧
    (∃ (s : State) (c : Fin 64), s.obj (Key.rtrigState c.val) ≠ 1) ∧
    (∃ (s : State), s.publishing = []) ∧
    (∃ (s : State), s.publishing ≠ []) ∧
    (∃ (s : State) (e : Event) (r : List Event), s.trig.lateLog = e :: r) ∧
    (∃ (s : State) (e : Event), s.trig.lateLog = [] ∧ State.nextEvent s.trig.logCursor (s.trig.events.filter fun e => s.logs e && !e.missed.contains State.logConsumer) = some e ∧ s.kindsSettled (s.objAt Key.trigLogKinds e.time) e.time = true) ∧
    (∃ (s : State) (e : Event), s.trig.lateLog = [] ∧ State.nextEvent s.trig.logCursor (s.trig.events.filter fun e => s.logs e && !e.missed.contains State.logConsumer) = some e ∧ s.kindsSettled (s.objAt Key.trigLogKinds e.time) e.time = false) ∧
    (∃ (s : State), s.trig.logUnacked ≠ 0 ∧ s.outstandingIn .trigLog (s.obj Key.trigLogBase + s.obj Key.trigLogWptr) 32 = false ∧ s.obj Key.trigLogSize ≠ 0) :=
  ⟨⟨w [(Key.trigiEdge 7, 0)], 7, 63, by decide +kernel⟩,
   ⟨w [(Key.trigiEdge 7, 1), (Key.trigiDelay 7, 0)], 7, 63, by decide +kernel⟩,
   ⟨{ w [(Key.trigiDead 7, 1)] with trig := { lastEdge := [(7, 1)] } }, 7, 63, by decide +kernel⟩,
   ⟨{ w [] with due := [(Key.trigCmd 15, 9)] }, 15, 9, by decide +kernel⟩,
   ⟨{ w [(Key.rtrigState 63, 1), (Key.rtrigTimeout, 1)] with time := tick }, 63, by decide +kernel⟩,
   ⟨w [], 63, by decide +kernel⟩,
   ⟨w [], by decide +kernel⟩,
   ⟨w [(Key.rtrigPublish 63, 1)], by decide +kernel⟩,
   ⟨{ w [] with trig := { lateLog := [⟨0, 0x1000, 0, 0, 0, 0, 0, 0, 0, []⟩] } }, ⟨0, 0x1000, 0, 0, 0, 0, 0, 0, 0, []⟩, [], by decide +kernel⟩,
   ⟨{ w [(Key.trigLogEnable, 1), (Key.trigLogKinds, 1)] with trig := { events := [⟨0, 0x1000, 0, 0, 0, 0, 0, 0, 0, []⟩] } }, ⟨0, 0x1000, 0, 0, 0, 0, 0, 0, 0, []⟩, by decide +kernel⟩,
   ⟨{ w [(Key.trigLogEnable, 1), (Key.trigLogKinds, 64)] with trig := { events := [⟨1099511627776, 0x7000, 0, 0, 0, 0, 0, 0, 0, []⟩] } }, ⟨1099511627776, 0x7000, 0, 0, 0, 0, 0, 0, 0, []⟩, by decide +kernel⟩,
   ⟨{ w [(Key.trigLogSize, 4096)] with trig := { logUnacked := 1 } }, by decide +kernel⟩⟩

theorem witness_FiringsOpenRecords :
    (∃ (s : State) (c : Fin 1024) (t : Nat), (s.flagAt (Key.ctxEnable c.val) t = false ∨ (s.ctx c.val).stopped = true ∨ t < (s.ctx c.val).from')) ∧
    (∃ (s : State) (c : Fin 1024) (t : Nat) (n : Nat) (r : Record), s.flagAt (Key.ctxEnable c.val) t = true ∧ (s.ctx c.val).stopped = false ∧ (s.ctx c.val).from' ≤ t ∧ (s.ctx c.val).openRec = some n ∧ s.record? c.val n = some r ∧ t < r.stop ∧ s.flagAt (Key.ctxExtend c.val) t = false) ∧
    (∃ (s : State) (c : Fin 1024) (t : Nat) (n : Nat) (r : Record), s.flagAt (Key.ctxEnable c.val) t = true ∧ (s.ctx c.val).stopped = false ∧ (s.ctx c.val).from' ≤ t ∧ (s.ctx c.val).openRec = some n ∧ s.record? c.val n = some r ∧ t < r.stop ∧ s.flagAt (Key.ctxExtend c.val) t = true) ∧
    (∃ (s : State) (c : Fin 1024) (t : Nat), s.flagAt (Key.ctxEnable c.val) t = true ∧ (s.ctx c.val).stopped = false ∧ (s.ctx c.val).from' ≤ t ∧ (s.ctx c.val).openRec = none ∧ s.objAt (Key.ctxHoldoffMode c.val) t = 0 ∧ t < (s.ctx c.val).rearm) ∧
    (∃ (s : State) (c : Fin 1024) (t : Nat), s.flagAt (Key.ctxEnable c.val) t = true ∧ (s.ctx c.val).stopped = false ∧ (s.ctx c.val).from' ≤ t ∧ (s.ctx c.val).openRec = none ∧ s.objAt (Key.ctxHoldoffMode c.val) t = 1 ∧ 0 < (s.ctx c.val).left) ∧
    (∃ (s : State) (c : Fin 1024) (t : Nat), s.flagAt (Key.ctxEnable c.val) t = true ∧ (s.ctx c.val).stopped = false ∧ (s.ctx c.val).from' ≤ t ∧ (s.ctx c.val).openRec = none ∧ s.objAt (Key.ctxHoldoffMode c.val) t = 0 ∧ (s.ctx c.val).rearm ≤ t) :=
  ⟨⟨w [], 1023, 0, by decide +kernel⟩,
   ⟨{ w [(Key.ctxEnable 1023, 1)] with acq := { ctxs := [(1023, { openRec := some 0 })], records := [{ ctx := 1023, stop := 10 }] } }, 1023, 9, 0, { ctx := 1023, stop := 10 }, by decide +kernel⟩,
   ⟨{ w [(Key.ctxEnable 1023, 1), (Key.ctxExtend 1023, 1)] with acq := { ctxs := [(1023, { openRec := some 0 })], records := [{ ctx := 1023, stop := 10 }] } }, 1023, 9, 0, { ctx := 1023, stop := 10 }, by decide +kernel⟩,
   ⟨{ w [(Key.ctxEnable 1023, 1)] with acq := { ctxs := [(1023, { rearm := 10 })], records := [] } }, 1023, 9, by decide +kernel⟩,
   ⟨{ w [(Key.ctxEnable 1023, 1), (Key.ctxHoldoffMode 1023, 1)] with acq := { ctxs := [(1023, { left := 1 })], records := [] } }, 1023, 0, by decide +kernel⟩,
   ⟨{ w [(Key.ctxEnable 1023, 1)] with acq := { ctxs := [(1023, { rearm := 9 })], records := [] } }, 1023, 9, by decide +kernel⟩⟩

theorem witness_Contexts :
    (∃ (s : State) (c : Fin 1024), s.deckStopped = false ∧ (s.takeTurns c.val State.turnFuel).ctxNext c.val = none) ∧
    (∃ (s : State) (c : Fin 1024) (e : Event), s.deckStopped = false ∧ (s.takeTurns c.val State.turnFuel).ctxNext c.val = some e ∧ (s.takeTurns c.val State.turnFuel).exprSettled ((s.takeTurns c.val State.turnFuel).ctxExprNow c.val) e.time = false) ∧
    (∃ (s : State) (c : Fin 1024) (e : Event), s.deckStopped = false ∧ (s.takeTurns c.val State.turnFuel).ctxNext c.val = some e ∧ (s.takeTurns c.val State.turnFuel).exprSettled ((s.takeTurns c.val State.turnFuel).ctxExprNow c.val) e.time = true) ∧
    (∃ (s : State) (s1 : State) (c : Fin 1024) (n : Nat) (r : Record), s.deckStopped = false ∧ s1 = s.takeTurns c.val State.turnFuel ∧ (s1.ctx c.val).openRec = some n ∧ s1.record? c.val n = some r ∧ s1.ctxClear c.val r.stop = true ∧ s1.objAt (Key.ctxHoldoffMode c.val) r.trigger = 0) ∧
    (∃ (s : State) (c : Fin 1024) (T : KTime), s.nextGen c.val = none ∧ s.nextArm c.val = some T ∧ (∀ w ∈ s.allWrites, w.2 = Key.ctxArm c.val → w.1 ∈ (s.ctx c.val).arms ∨ w.1 = T) ∧ T ≤ s.time ∧ s.ctxClear c.val (T - 1) = true ∧ (s.ctx c.val).openRec = none ∧ (s.ctx c.val).stopped = true) ∧
    (∃ (s : State) (c : Nat), (s.ctx c).openRec = none ∧ (s.ctx c).stopped = false) ∧
    (∃ (s : State) (c : Fin 1024), s.ready = true ∧ (∀ r ∈ s.acq.records, r.ctx = c.val → s.abortRecord r = none)) ∧
    (∃ (s : State) (c : Fin 1024) (r : Record) (C : KTime), s.ready = true ∧ r ∈ s.acq.records ∧ r.ctx = c.val ∧ r.state = 0 ∧ s.recordCommit r = some C ∧ C < r.stop) ∧
    (∃ (s : State) (t : State) (r : Record) (C : KTime), r.ctx < 1024 ∧ s.record? r.ctx r.number = some r ∧ s.recordCommit r = some C ∧ s.abortRecord r = some t) :=
  ⟨⟨w [], 1023, by decide +kernel⟩,
   ⟨{ w [(Key.ctxEnable 1023, 1), (Key.ctxExpr 1023, 0x7000)] with trig := { events := [⟨1099511627776, 0x7000, 0, 0, 0, 0, 0, 0, 0, []⟩] } }, 1023, ⟨1099511627776, 0x7000, 0, 0, 0, 0, 0, 0, 0, []⟩, by decide +kernel⟩,
   ⟨{ w [(Key.ctxEnable 1023, 1), (Key.ctxExpr 1023, 0x7000)] with trig := { events := [⟨0, 0x7000, 0, 0, 0, 0, 0, 0, 0, []⟩] } }, 1023, ⟨0, 0x7000, 0, 0, 0, 0, 0, 0, 0, []⟩, by decide +kernel⟩,
   ⟨{ w [(Key.ctxEnable 1023, 1)] with acq := { ctxs := [(1023, { openRec := some 0 })], records := [{ ctx := 1023, stop := 10 }] } }, _, 1023, 0, { ctx := 1023, stop := 10 }, by decide +kernel, rfl, by decide +kernel, by decide +kernel, by decide +kernel, by decide +kernel⟩,
   ⟨{ w [] with groups := [{ t := 0, writes := [(Key.ctxArm 1023, 1)] }], acq := { ctxs := [(1023, { stopped := true })] } }, 1023, 0, by decide +kernel⟩,
   ⟨w [], 1023, by decide +kernel⟩,
   ⟨{ w [up] with acq := { records := [{ ctx := 1023, state := 1 }] } }, 1023, by decide +kernel⟩,
   ⟨{ w [up] with acq := { records := [{ ctx := 1023, stop := 10, streams := [{ port := 0, fe := false }] }] }, ring := { streams := [(0, { nextTime := some 9 })] } }, 1023, { ctx := 1023, stop := 10, streams := [{ port := 0, fe := false }] }, 9, by decide +kernel⟩,
   ⟨{ w [up] with acq := { records := [{ ctx := 1023, stop := 10, streams := [{ port := 0, fe := false }] }] }, ring := { streams := [(0, { nextTime := some 9 })] } }, _, { ctx := 1023, stop := 10, streams := [{ port := 0, fe := false }] }, 9, by decide +kernel, by decide +kernel, by decide +kernel, rfl⟩⟩

theorem witness_RecordPipeline :
    (∃ (s : State), (s.stageNext = none ∨ (∃ r, s.stageNext = some r ∧ s.stagePlace (s.stageNeed r) = none))) ∧
    (∃ (s : State) (r : Record) (a : Nat), s.stageNext = some r ∧ s.stagePlace (s.stageNeed r) = some a) ∧
    (∃ (s : State) (c : Fin 1024) (n : Nat) (r : Record), s.record? c.val n = some r ∧ (r.state ≠ 0 ∨ r.stage = none)) ∧
    (∃ (s : State) (c : Fin 1024) (n : Nat) (r : Record), s.record? c.val n = some r ∧ r.state = 0 ∧ r.stage.isSome = true) ∧
    (∃ (s : State) (c : Fin 1024) (n : Nat) (r : Record), s.record? c.val n = some r ∧ r.state = 2 ∧ r.placed = false ∧ s.inTurn r = true ∧ s.objAt (Key.ctxDestKind r.ctx) r.trigger = 0 ∧ (∀ y ∈ s.acq.records, y.ctx = c.val → n ≤ y.number ∨ y.state = 3) ∧ s.obj Key.acqDoneSize = 0) ∧
    (∃ (s : State) (off : Nat) (rest : List Nat), s.acq.doneUnacked = off :: rest ∧ s.outstandingIn .completion (s.obj Key.acqDoneBase + off) 128 = false ∧ s.obj Key.acqDoneSize ≠ 0) :=
  ⟨⟨w [], .inl (by decide +kernel)⟩,
   ⟨{ w [(Key.acqStageSize, 2 ^ 30)] with acq := { records := [{ ctx := 1023 }] } }, { ctx := 1023 }, 0, by decide +kernel⟩,
   ⟨{ w [] with acq := { records := [{ ctx := 1023, state := 1 }] } }, 1023, 0, { ctx := 1023, state := 1 }, by decide +kernel⟩,
   ⟨{ w [] with acq := { records := [{ ctx := 1023, stage := some (0, 64) }] } }, 1023, 0, { ctx := 1023, stage := some (0, 64) }, by decide +kernel⟩,
   ⟨{ w [] with acq := { records := [{ ctx := 1023, state := 2 }] } }, 1023, 0, { ctx := 1023, state := 2 }, by decide +kernel⟩,
   ⟨{ w [(Key.acqDoneSize, 4096)] with acq := { doneUnacked := [0] } }, 0, [], by decide +kernel⟩⟩

theorem witness_TrestleUnits :
    (∃ (s : State) (k : Fin 32) (r : Record), s.deckStopped = false ∧ (s.core k.val).record = none ∧ (s.acq.records.find? fun r => r.state == 1 && !r.running) = some r) ∧
    (∃ (s : State) (k : Fin 32), (s.core k.val).record ≠ none) ∧
    (∃ (s : State) (k : Fin 32) (r : Record), s.deckStopped = false ∧ s.coreRecord (s.core k.val) = some r ∧ 0x8000 ≤ (s.core k.val).prog ∧ (s.core k.val).inPlace < s.blockCount r (s.imageOf (s.core k.val).prog r) ∧ (s.core k.val).inPlace ≤ (s.core k.val).events ∧ (s.core k.val).waiting = false) ∧
    (∃ (s : State) (k : Fin 32) (r : Record), s.deckStopped = false ∧ s.coreRecord (s.core k.val) = some r ∧ 0x8000 ≤ (s.core k.val).prog ∧ (s.core k.val).prog ≤ 0x801F ∧ s.budgetOf r ≤ (s.core k.val).pos ∧ (s.core k.val).waiting = false) ∧
    (∃ (s : State) (n : Fin 32) (T : KTime), s.due = [(Key.trClear n.val, T)]) :=
  ⟨⟨{ w [] with acq := { records := [{ state := 1 }] } }, 31, { state := 1 }, by decide +kernel⟩,
   ⟨{ w [] with cores := [(31, { record := some (0, 0) })] }, 31, by decide +kernel⟩,
   ⟨{ w [] with acq := { records := [{ state := 1, running := true, streams := [{ port := 0, fe := false, count := 1 }] }] }, cores := [(31, { record := some (0, 0), prog := 0x8000 })] }, 31, { state := 1, running := true, streams := [{ port := 0, fe := false, count := 1 }] }, by decide +kernel⟩,
   ⟨{ w [(Key.ctxMeasBudget 0, 1)] with acq := { records := [rec0] }, cores := [(31, { record := some (0, 0), prog := 0x801F, pos := 1 })] }, 31, rec0, by decide +kernel⟩,
   ⟨{ w [] with due := [(Key.trClear 31, 9)] }, 31, 9, by decide +kernel⟩⟩

theorem witness_DataArithmetic :
    (∃ (s : State) (k : Fin 32) (r : Record) (sat : Bool) (rd : Fin 16) (ra : Fin 16) (rb : Fin 16) (c : Core), c = (s.core k.val).settle ∧ Runs s k r (.add k sat rd ra rb)) ∧
    (∃ (s : State) (k : Fin 32) (r : Record) (sat : Bool) (rd : Fin 16) (ra : Fin 16) (rb : Fin 16) (c : Core), c = (s.core k.val).settle ∧ Runs s k r (.sub k sat rd ra rb)) ∧
    (∃ (s : State) (k : Fin 32) (r : Record) (sat : Bool) (rd : Fin 16) (ra : Fin 16) (imm : BitVec 24) (c : Core), c = (s.core k.val).settle ∧ Runs s k r (.addi k sat rd ra imm)) ∧
    (∃ (s : State) (k : Fin 32) (r : Record) (sat : Bool) (rd : Fin 16) (ra : Fin 16) (c : Core), c = (s.core k.val).settle ∧ Runs s k r (.neg k sat rd ra)) ∧
    (∃ (s : State) (k : Fin 32) (r : Record) (sat : Bool) (rd : Fin 16) (ra : Fin 16) (c : Core), c = (s.core k.val).settle ∧ Runs s k r (.abs k sat rd ra)) ∧
    (∃ (s : State) (k : Fin 32) (r : Record) (sat : Bool) (rd : Fin 16) (ra : Fin 16) (rb : Fin 16) (c : Core), c = (s.core k.val).settle ∧ Runs s k r (.mul k sat rd ra rb)) ∧
    (∃ (s : State) (k : Fin 32) (r : Record) (sat : Bool) (rd : Fin 16) (ra : Fin 16) (n : BitVec 7) (c : Core), c = (s.core k.val).settle ∧ Runs s k r (.shl k sat rd ra n) ∧ n.toNat ≤ 23) ∧
    (∃ (s : State) (k : Fin 32) (r : Record) (sat : Bool) (rd : Fin 16) (ra : Fin 16) (n : BitVec 7) (c : Core), c = (s.core k.val).settle ∧ Runs s k r (.asr k sat rd ra n) ∧ n.toNat ≤ 23) :=
  ⟨⟨runs (.add 31 true 15 0 15) {}, 31, rec0, true, 15, 0, 15, _, rfl, runs_of (by decide +kernel)⟩,
   ⟨runs (.sub 31 true 15 0 15) {}, 31, rec0, true, 15, 0, 15, _, rfl, runs_of (by decide +kernel)⟩,
   ⟨runs (.addi 31 true 15 0 (-1)) {}, 31, rec0, true, 15, 0, (-1), _, rfl, runs_of (by decide +kernel)⟩,
   ⟨runs (.neg 31 true 15 0) {}, 31, rec0, true, 15, 0, _, rfl, runs_of (by decide +kernel)⟩,
   ⟨runs (.abs 31 true 15 0) {}, 31, rec0, true, 15, 0, _, rfl, runs_of (by decide +kernel)⟩,
   ⟨runs (.mul 31 true 15 0 15) {}, 31, rec0, true, 15, 0, 15, _, rfl, runs_of (by decide +kernel)⟩,
   ⟨runs (.shl 31 true 15 0 23) {}, 31, rec0, true, 15, 0, 23, _, rfl, runs_of (by decide +kernel), by decide +kernel⟩,
   ⟨runs (.asr 31 true 15 0 23) {}, 31, rec0, true, 15, 0, 23, _, rfl, runs_of (by decide +kernel), by decide +kernel⟩⟩

theorem witness_DataMovesAndLogic :
    (∃ (s : State) (k : Fin 32) (r : Record) (rd : Fin 16) (ra : Fin 16) (rb : Fin 16) (c : Core), c = (s.core k.val).settle ∧ Runs s k r (.min k rd ra rb)) ∧
    (∃ (s : State) (k : Fin 32) (r : Record) (rd : Fin 16) (ra : Fin 16) (rb : Fin 16) (c : Core), c = (s.core k.val).settle ∧ Runs s k r (.max k rd ra rb)) ∧
    (∃ (s : State) (k : Fin 32) (r : Record) (rd : Fin 16) (ra : Fin 16) (rb : Fin 16) (c : Core), c = (s.core k.val).settle ∧ Runs s k r (.and k rd ra rb)) ∧
    (∃ (s : State) (k : Fin 32) (r : Record) (rd : Fin 16) (ra : Fin 16) (rb : Fin 16) (c : Core), c = (s.core k.val).settle ∧ Runs s k r (.or k rd ra rb)) ∧
    (∃ (s : State) (k : Fin 32) (r : Record) (rd : Fin 16) (ra : Fin 16) (rb : Fin 16) (c : Core), c = (s.core k.val).settle ∧ Runs s k r (.xor k rd ra rb)) ∧
    (∃ (s : State) (k : Fin 32) (r : Record) (rd : Fin 16) (ra : Fin 16) (n : BitVec 7) (c : Core), c = (s.core k.val).settle ∧ Runs s k r (.lsr k rd ra n) ∧ n.toNat ≤ 23) ∧
    (∃ (s : State) (k : Fin 32) (r : Record) (ra : Fin 16) (rb : Fin 16) (c : Core), c = (s.core k.val).settle ∧ Runs s k r (.cmp k ra rb)) ∧
    (∃ (s : State) (k : Fin 32) (r : Record) (ra : Fin 16) (imm : BitVec 24) (c : Core), c = (s.core k.val).settle ∧ Runs s k r (.cmpi k ra imm)) ∧
    (∃ (s : State) (k : Fin 32) (r : Record) (rd : Fin 16) (imm : BitVec 24) (c : Core), c = (s.core k.val).settle ∧ Runs s k r (.movi k rd imm)) ∧
    (∃ (s : State) (k : Fin 32) (r : Record) (rd : Fin 16) (an : Fin 8) (c : Core), c = (s.core k.val).settle ∧ Runs s k r (.mvad k rd an)) ∧
    (∃ (s : State) (k : Fin 32) (r : Record) (ra : Fin 16) (ad : Fin 8) (c : Core), c = (s.core k.val).settle ∧ Runs s k r (.mvda k ad ra)) ∧
    (∃ (s : State) (k : Fin 32) (r : Record) (an : Fin 8) (ad : Fin 8) (off : BitVec 16) (c : Core), c = (s.core k.val).settle ∧ Runs s k r (.lea k ad an off)) ∧
    (∃ (s : State) (k : Fin 32) (r : Record) (rd : Fin 16) (an : Fin 8) (off : BitVec 16) (mod : Fin 4) (c : Core), c = (s.core k.val).settle ∧ Runs s k r (.ld k rd an off mod) ∧ s.filling r (s.imageOf c.prog r) c (((c.areg an.val : Int) + off.toInt) % 2 ^ 16).toNat = false) ∧
    (∃ (s : State) (k : Fin 32) (r : Record) (rd : Fin 16) (an : Fin 8) (off : BitVec 16) (mod : Fin 4) (c : Core), c = (s.core k.val).settle ∧ Runs s k r (.st k rd an off mod) ∧ s.filling r (s.imageOf c.prog r) c (((c.areg an.val : Int) + off.toInt) % 2 ^ 16).toNat = false ∧ (inRecordArea (((c.areg an.val : Int) + off.toInt) % 2 ^ 16).toNat = true → inResults (((c.areg an.val : Int) + off.toInt) % 2 ^ 16).toNat = true)) ∧
    (∃ (s : State) (k : Fin 32) (r : Record) (rd : Fin 16) (imm : BitVec 24) (c : Core), c = (s.core k.val).settle ∧ Runs s k r (.mfs k rd imm) ∧ imm.toNat ≤ 4) ∧
    (∃ (s : State) (k : Fin 32) (r : Record) (rd : Fin 16) (c : Core), c = (s.core k.val).settle ∧ Runs s k r (.mff k rd)) ∧
    (∃ (s : State) (k : Fin 32) (r : Record) (imm : BitVec 24) (c : Core), c = (s.core k.val).settle ∧ Runs s k r (.clrf k imm)) :=
  ⟨⟨runs (.min 31 15 0 15) {}, 31, rec0, 15, 0, 15, _, rfl, runs_of (by decide +kernel)⟩,
   ⟨runs (.max 31 15 0 15) {}, 31, rec0, 15, 0, 15, _, rfl, runs_of (by decide +kernel)⟩,
   ⟨runs (.and 31 15 0 15) {}, 31, rec0, 15, 0, 15, _, rfl, runs_of (by decide +kernel)⟩,
   ⟨runs (.or 31 15 0 15) {}, 31, rec0, 15, 0, 15, _, rfl, runs_of (by decide +kernel)⟩,
   ⟨runs (.xor 31 15 0 15) {}, 31, rec0, 15, 0, 15, _, rfl, runs_of (by decide +kernel)⟩,
   ⟨runs (.lsr 31 15 0 23) {}, 31, rec0, 15, 0, 23, _, rfl, runs_of (by decide +kernel), by decide +kernel⟩,
   ⟨runs (.cmp 31 0 15) {}, 31, rec0, 0, 15, _, rfl, runs_of (by decide +kernel)⟩,
   ⟨runs (.cmpi 31 0 (-1)) {}, 31, rec0, 0, (-1), _, rfl, runs_of (by decide +kernel)⟩,
   ⟨runs (.movi 31 15 (-1)) {}, 31, rec0, 15, (-1), _, rfl, runs_of (by decide +kernel)⟩,
   ⟨runs (.mvad 31 15 7) {}, 31, rec0, 15, 7, _, rfl, runs_of (by decide +kernel)⟩,
   ⟨runs (.mvda 31 0 0) {}, 31, rec0, 0, 0, _, rfl, runs_of (by decide +kernel)⟩,
   ⟨runs (.lea 31 0 7 0) {}, 31, rec0, 7, 0, 0, _, rfl, runs_of (by decide +kernel)⟩,
   ⟨runs (.ld 31 15 7 0 3) {}, 31, rec0, 15, 7, 0, 3, _, rfl, runs_of (by decide +kernel), by decide +kernel⟩,
   ⟨runs (.st 31 15 7 0xE8B2 3) {}, 31, rec0, 15, 7, 0xE8B2, 3, _, rfl, runs_of (by decide +kernel), by decide +kernel, by decide +kernel⟩,
   ⟨runs (.mfs 31 15 4) {}, 31, rec0, 15, 4, _, rfl, runs_of (by decide +kernel), by decide +kernel⟩,
   ⟨runs (.mff 31 15) {}, 31, rec0, 15, _, rfl, runs_of (by decide +kernel)⟩,
   ⟨runs (.clrf 31 (-1)) {}, 31, rec0, (-1), _, rfl, runs_of (by decide +kernel)⟩⟩

theorem witness_Accumulators :
    (∃ (s : State) (k : Fin 32) (r : Record) (sat : Bool) (ax : Fin 4) (ra : Fin 16) (rb : Fin 16) (c : Core), c = (s.core k.val).settle ∧ Runs s k r (.mpy k sat ax ra rb)) ∧
    (∃ (s : State) (k : Fin 32) (r : Record) (sat : Bool) (ax : Fin 4) (ra : Fin 16) (rb : Fin 16) (c : Core), c = (s.core k.val).settle ∧ Runs s k r (.mac k sat ax ra rb)) ∧
    (∃ (s : State) (k : Fin 32) (r : Record) (sat : Bool) (ax : Fin 4) (ra : Fin 16) (rb : Fin 16) (c : Core), c = (s.core k.val).settle ∧ Runs s k r (.msu k sat ax ra rb)) ∧
    (∃ (s : State) (k : Fin 32) (r : Record) (sat : Bool) (ax : Fin 4) (ay : Fin 4) (c : Core), c = (s.core k.val).settle ∧ Runs s k r (.adda k sat ax ay)) ∧
    (∃ (s : State) (k : Fin 32) (r : Record) (sat : Bool) (ax : Fin 4) (ay : Fin 4) (c : Core), c = (s.core k.val).settle ∧ Runs s k r (.suba k sat ax ay)) ∧
    (∃ (s : State) (k : Fin 32) (r : Record) (sat : Bool) (ax : Fin 4) (ra : Fin 16) (n : BitVec 7) (c : Core), c = (s.core k.val).settle ∧ Runs s k r (.ldac k sat ax ra n) ∧ n.toNat ≤ 32) ∧
    (∃ (s : State) (k : Fin 32) (r : Record) (sat : Bool) (ax : Fin 4) (n : BitVec 7) (c : Core), c = (s.core k.val).settle ∧ Runs s k r (.sha k sat ax n) ∧ -56 ≤ n.toInt ∧ n.toInt ≤ 55) ∧
    (∃ (s : State) (k : Fin 32) (r : Record) (sat : Bool) (ax : Fin 4) (ay : Fin 4) (rb : Fin 16) (c : Core), c = (s.core k.val).settle ∧ Runs s k r (.mula k sat ax ay rb)) ∧
    (∃ (s : State) (k : Fin 32) (r : Record) (ax : Fin 4) (c : Core), c = (s.core k.val).settle ∧ Runs s k r (.clra k ax)) ∧
    (∃ (s : State) (k : Fin 32) (r : Record) (sat : Bool) (ay : Fin 4) (rd : Fin 16) (n : BitVec 7) (c : Core), c = (s.core k.val).settle ∧ Runs s k r (.rnd k sat rd ay n) ∧ n.toNat ≤ 55) ∧
    (∃ (s : State) (k : Fin 32) (r : Record) (ay : Fin 4) (rd : Fin 16) (c : Core), c = (s.core k.val).settle ∧ Runs s k r (.mfa k rd ay 0)) ∧
    (∃ (s : State) (k : Fin 32) (r : Record) (ay : Fin 4) (rd : Fin 16) (c : Core), c = (s.core k.val).settle ∧ Runs s k r (.mfa k rd ay 1)) ∧
    (∃ (s : State) (k : Fin 32) (r : Record) (ay : Fin 4) (rd : Fin 16) (c : Core), c = (s.core k.val).settle ∧ Runs s k r (.mfa k rd ay 2)) ∧
    (∃ (s : State) (k : Fin 32) (r : Record) (ax : Fin 4) (ra : Fin 16) (n : BitVec 7) (c : Core), c = (s.core k.val).settle ∧ Runs s k r (.mta k ax ra n) ∧ n.toNat ≤ 2) ∧
    (∃ (s : State) (k : Fin 32) (r : Record) (ay : Fin 4) (rd : Fin 16) (c : Core), c = (s.core k.val).settle ∧ Runs s k r (.norm k rd ay)) ∧
    (∃ (s : State) (k : Fin 32) (r : Record) (ax : Fin 4) (ay : Fin 4) (c : Core), c = (s.core k.val).settle ∧ Runs s k r (.cmpa k ax ay)) :=
  ⟨⟨runs (.mpy 31 true 3 0 15) {}, 31, rec0, true, 3, 0, 15, _, rfl, runs_of (by decide +kernel)⟩,
   ⟨runs (.mac 31 true 3 0 15) {}, 31, rec0, true, 3, 0, 15, _, rfl, runs_of (by decide +kernel)⟩,
   ⟨runs (.msu 31 true 3 0 15) {}, 31, rec0, true, 3, 0, 15, _, rfl, runs_of (by decide +kernel)⟩,
   ⟨runs (.adda 31 true 3 0) {}, 31, rec0, true, 3, 0, _, rfl, runs_of (by decide +kernel)⟩,
   ⟨runs (.suba 31 true 3 0) {}, 31, rec0, true, 3, 0, _, rfl, runs_of (by decide +kernel)⟩,
   ⟨runs (.ldac 31 true 3 0 32) {}, 31, rec0, true, 3, 0, 32, _, rfl, runs_of (by decide +kernel), by decide +kernel⟩,
   ⟨runs (.sha 31 true 3 (-56)) {}, 31, rec0, true, 3, (-56), _, rfl, runs_of (by decide +kernel), by decide +kernel, by decide +kernel⟩,
   ⟨runs (.mula 31 true 3 0 15) {}, 31, rec0, true, 3, 0, 15, _, rfl, runs_of (by decide +kernel)⟩,
   ⟨runs (.clra 31 3) {}, 31, rec0, 3, _, rfl, runs_of (by decide +kernel)⟩,
   ⟨runs (.rnd 31 true 15 0 55) {}, 31, rec0, true, 0, 15, 55, _, rfl, runs_of (by decide +kernel), by decide +kernel⟩,
   ⟨runs (.mfa 31 15 0 0) {}, 31, rec0, 0, 15, _, rfl, runs_of (by decide +kernel)⟩,
   ⟨runs (.mfa 31 15 0 1) {}, 31, rec0, 0, 15, _, rfl, runs_of (by decide +kernel)⟩,
   ⟨runs (.mfa 31 15 0 2) {}, 31, rec0, 0, 15, _, rfl, runs_of (by decide +kernel)⟩,
   ⟨runs (.mta 31 3 0 2) {}, 31, rec0, 3, 0, 2, _, rfl, runs_of (by decide +kernel), by decide +kernel⟩,
   ⟨runs (.norm 31 15 0) {}, 31, rec0, 0, 15, _, rfl, runs_of (by decide +kernel)⟩,
   ⟨runs (.cmpa 31 3 0) {}, 31, rec0, 3, 0, _, rfl, runs_of (by decide +kernel)⟩⟩

theorem witness_ControlTransfers :
    (∃ (s : State) (k : Fin 32) (r : Record) (c : Core), c = (s.core k.val).settle ∧ Runs s k r (.nop k)) ∧
    (∃ (s : State) (k : Fin 32) (r : Record) (cond : Fin 16) (target : BitVec 15) (c : Core), c = (s.core k.val).settle ∧ RunsFree s k r (.br k cond target) ∧ cond.val ≤ 8) ∧
    (∃ (s : State) (k : Fin 32) (r : Record) (target : BitVec 15) (c : Core), c = (s.core k.val).settle ∧ RunsFree s k r (.call k target)) ∧
    (∃ (s : State) (k : Fin 32) (r : Record) (c : Core), c = (s.core k.val).settle ∧ RunsFree s k r (.ret k)) ∧
    (∃ (s : State) (k : Fin 32) (r : Record) (target : BitVec 15) (count : BitVec 16) (c : Core), c = (s.core k.val).settle ∧ RunsFree s k r (.loop k count target) ∧ c.pc < target.toNat ∧ target.toNat ≤ c.pc + 4096) ∧
    (∃ (s : State) (k : Fin 32) (r : Record) (ra : Fin 16) (target : BitVec 15) (c : Core), c = (s.core k.val).settle ∧ RunsFree s k r (.loopr k ra target) ∧ c.pc < target.toNat ∧ target.toNat ≤ c.pc + 4096) ∧
    (∃ (b : Core) (n : Nat) (T : Nat), b.transfer = some (n, T) ∧ n = 2) ∧
    (∃ (b : Core) (n : Nat) (T : Nat), b.transfer = some (n, T) ∧ n = 1) ∧
    (∃ (b : Core) (first : Nat) (last : Nat) (left : Nat), b.transfer = none ∧ b.loop = some (first, last, left) ∧ b.pc = last ∧ 2 ≤ left) ∧
    (∃ (b : Core) (first : Nat) (last : Nat) (left : Nat), b.transfer = none ∧ b.loop = some (first, last, left) ∧ b.pc = last ∧ left ≤ 1) :=
  ⟨⟨runs (.nop 31) {}, 31, rec0, _, rfl, runs_of (by decide +kernel)⟩,
   ⟨runs (.br 31 8 0) {}, 31, rec0, 8, 0, _, rfl, runsFree_of (by decide +kernel) rfl rfl, by decide +kernel⟩,
   ⟨runs (.call 31 0) {}, 31, rec0, 0, _, rfl, runsFree_of (by decide +kernel) rfl rfl⟩,
   ⟨runs (.ret 31) {}, 31, rec0, _, rfl, runsFree_of (by decide +kernel) rfl rfl⟩,
   ⟨runs (.loop 31 1 1) {}, 31, rec0, 1, 1, _, rfl, runsFree_of (by decide +kernel) rfl rfl, by decide +kernel, by decide +kernel⟩,
   ⟨runs (.loopr 31 0 1) {}, 31, rec0, 0, 1, _, rfl, runsFree_of (by decide +kernel) rfl rfl, by decide +kernel, by decide +kernel⟩,
   ⟨{ transfer := some (2, 5) }, 2, 5, rfl, rfl⟩,
   ⟨{ transfer := some (1, 5) }, 1, 5, rfl, rfl⟩,
   ⟨{ pc := 4, loop := some (1, 4, 2) }, 1, 4, 2, by decide +kernel⟩,
   ⟨{ pc := 4, loop := some (1, 4, 1) }, 1, 4, 1, by decide +kernel⟩⟩

theorem witness_EventsAndHalt :
    (∃ (s : State) (k : Fin 32) (r : Record) (c : Core), c = (s.core k.val).settle ∧ RunsFree s k r (.sync k) ∧ c.bank = 0 ∧ c.ended = false ∧ (s.blockCount r (s.imageOf c.prog r) ≤ c.events ∨ c.events < c.inPlace)) ∧
    (∃ (s : State) (k : Fin 32) (r : Record) (c : Core), c = (s.core k.val).settle ∧ RunsFree s k r (.sync k) ∧ c.bank = 0 ∧ c.ended = false ∧ c.events < s.blockCount r (s.imageOf c.prog r) ∧ c.inPlace ≤ c.events) ∧
    (∃ (s : State) (k : Fin 32) (r : Record) (c : Core), c = (s.core k.val).settle ∧ RunsFree s k r (.rete k) ∧ c.bank = 1) ∧
    (∃ (s : State) (k : Fin 32) (r : Record) (c : Core), c = (s.core k.val).settle ∧ RunsFree s k r (.halt k)) ∧
    (∃ (s : State) (k : Fin 32) (r : Record) (c : Core), c = (s.core k.val).settle ∧ s.deckStopped = false ∧ s.coreRecord (s.core k.val) = some r ∧ (s.core k.val).prog < 0x8000 ∧ libraryTraps (s.core k.val).prog (natLE 256 (s.objAt (Key.ctxMeasParams r.ctx) r.trigger)) = false ∧ libraryLength (s.core k.val).prog (natLE 256 (s.objAt (Key.ctxMeasParams r.ctx) r.trigger)) (s.measured r) ≤ s.budgetOf r) :=
  ⟨⟨runs (.sync 31) {}, 31, rec0, _, rfl, runsFree_of (by decide +kernel) rfl rfl, by decide +kernel, by decide +kernel, by decide +kernel⟩,
   ⟨runs (.sync 31) {} rec1, 31, rec1, _, rfl, runsFree_of (by decide +kernel) rfl rfl, by decide +kernel, by decide +kernel, by decide +kernel, by decide +kernel⟩,
   ⟨runs (.rete 31) { bank := 1 }, 31, rec0, _, rfl, runsFree_of (by decide +kernel) rfl rfl, by decide +kernel⟩,
   ⟨runs (.halt 31) {}, 31, rec0, _, rfl, runsFree_of (by decide +kernel) rfl rfl⟩,
   ⟨{ w [(Key.ctxMeasBudget 0, libraryLength 0 (natLE 256 0) { port := 0, fe := false })] with acq := { records := [rec0] }, cores := [(31, { record := some (0, 0) })] }, 31, rec0, _, rfl, by decide +kernel, by decide +kernel, by decide +kernel, by decide +kernel, Nat.le_refl _⟩⟩

theorem witness_TrestleTraps :
    (∃ (s : State) (k : Fin 32) (r : Record) (c : Core) (code : BitVec 8), c = (s.core k.val).settle ∧ Runs s k r (.trap k code)) ∧
    (∃ (s : State) (k : Fin 32) (r : Record) (c : Core) (w : _), c = (s.core k.val).settle ∧ RunsWord s k.val r w ∧ wordEncodes w = false) ∧
    (∃ (s : State) (k : Fin 32) (r : Record) (c : Core) (sat : Bool) (rd : Fin 16) (ra : Fin 16) (n : BitVec 7), c = (s.core k.val).settle ∧ Runs s k r (.shl k sat rd ra n) ∧ 23 < n.toNat) ∧
    (∃ (s : State) (k : Fin 32) (r : Record) (c : Core) (cond : Fin 16) (target : BitVec 15), c = (s.core k.val).settle ∧ RunsFree s k r (.br k cond target) ∧ 9 ≤ cond.val) ∧
    (∃ (s : State) (k : Fin 32) (r : Record) (c : Core), c = (s.core k.val).settle ∧ Runs s k r (.sync k) ∧ (s.core k.val).transfer ≠ none) ∧
    (∃ (s : State) (k : Fin 32) (r : Record) (c : Core), c = (s.core k.val).settle ∧ Runs s k r (.halt k) ∧ (s.core k.val).transfer = none ∧ (s.core k.val).loop ≠ none) ∧
    (∃ (s : State) (k : Fin 32) (r : Record) (c : Core) (rd : Fin 16) (an : Fin 8) (off : BitVec 16) (mod : Fin 4), c = (s.core k.val).settle ∧ Runs s k r (.ld k rd an off mod) ∧ s.filling r (s.imageOf c.prog r) c (((c.areg an.val : Int) + off.toInt) % 2 ^ 16).toNat = true) ∧
    (∃ (s : State) (k : Fin 32) (r : Record) (c : Core) (rd : Fin 16) (an : Fin 8) (off : BitVec 16) (mod : Fin 4), c = (s.core k.val).settle ∧ Runs s k r (.st k rd an off mod) ∧ s.filling r (s.imageOf c.prog r) c (((c.areg an.val : Int) + off.toInt) % 2 ^ 16).toNat = false ∧ inRecordArea (((c.areg an.val : Int) + off.toInt) % 2 ^ 16).toNat = true ∧ inResults (((c.areg an.val : Int) + off.toInt) % 2 ^ 16).toNat = false) ∧
    (∃ (s : State) (k : Fin 32) (r : Record) (c : Core), c = (s.core k.val).settle ∧ RunsFree s k r (.sync k) ∧ c.bank = 1) ∧
    (∃ (s : State) (k : Fin 32) (r : Record) (c : Core), c = (s.core k.val).settle ∧ s.deckStopped = false ∧ s.coreRecord (s.core k.val) = some r ∧ (s.core k.val).waiting = false ∧ 0x8000 ≤ (s.core k.val).prog ∧ (s.core k.val).prog ≤ 0x801F ∧ (s.core k.val).pos < s.budgetOf r ∧ imgPwords (s.imageOf (s.core k.val).prog r) ≤ (s.core k.val).pc) ∧
    (∃ (s : State) (k : Fin 32) (r : Record) (c : Core), c = (s.core k.val).settle ∧ s.deckStopped = false ∧ s.coreRecord (s.core k.val) = some r ∧ (s.core k.val).prog < 0x8000 ∧ libraryTraps (s.core k.val).prog (natLE 256 (s.objAt (Key.ctxMeasParams r.ctx) r.trigger)) = true) :=
  ⟨⟨runs (.trap 31 255) {}, 31, rec0, _, 255, rfl, runs_of (by decide +kernel)⟩,
   ⟨coreAt 31 (63 * 2 ^ 42) {}, 31, rec0, _, 63 * 2 ^ 42, rfl, runsWord_of (by decide +kernel), by decide +kernel⟩,
   ⟨runs (.shl 31 true 15 0 24) {}, 31, rec0, _, true, 15, 0, 24, rfl, runs_of (by decide +kernel), by decide +kernel⟩,
   ⟨runs (.br 31 9 0) {}, 31, rec0, _, 9, 0, rfl, runsFree_of (by decide +kernel) rfl rfl, by decide +kernel⟩,
   ⟨runs (.sync 31) { transfer := some (2, 5) }, 31, rec0, _, rfl, runs_of (by decide +kernel), by decide +kernel⟩,
   ⟨runs (.halt 31) { loop := some (0, 4, 2) }, 31, rec0, _, rfl, runs_of (by decide +kernel), by decide +kernel, by decide +kernel⟩,
   ⟨runs (.ld 31 15 7 0 3) {} rec1, 31, rec1, _, 15, 7, 0, 3, rfl, runs_of (by decide +kernel), by decide +kernel⟩,
   ⟨runs (.st 31 15 7 0xE000 3) {}, 31, rec0, _, 15, 7, 0xE000, 3, rfl, runs_of (by decide +kernel), by decide +kernel, by decide +kernel, by decide +kernel⟩,
   ⟨runs (.sync 31) { bank := 1 }, 31, rec0, _, rfl, runsFree_of (by decide +kernel) rfl rfl, by decide +kernel⟩,
   ⟨coreAt 31 0 { pc := 1 }, 31, rec0, _, rfl, by decide +kernel⟩,
   ⟨{ w [] with acq := { records := [rec0] }, cores := [(31, { record := some (0, 0), prog := 6 })] }, 31, rec0, _, rfl, by decide +kernel⟩⟩

theorem witness_TrestleDecodeOfWord :
    (∃ (i : Instr) (k : Fin 32) (w : Nat), trestleWord i = some (k, w)) ∧
    (∃ (i : Instr) (k : Fin 32) (w : Nat), trestleDecode k w = some i) :=
  ⟨⟨.halt 31, 31, _, rfl⟩,
   ⟨.halt 31, 31, 0x40000000000, by decide +kernel⟩⟩

theorem witness_MemoryRequests :
    (∃ (s : State) (k : Fin 16), s.obj (Key.memchState k.val) ≠ 3) ∧
    (∃ (s : State) (k : Fin 16) (b : Fin 256) (r : MemReq), s.obj (Key.memchState k.val) = 3 ∧ (s.promote k.val).pick k.val b.val = some r ∧ r.write = true) ∧
    (∃ (s : State) (k : Fin 16) (b : Fin 256) (r : MemReq) (j : _), s.obj (Key.memchState k.val) = 3 ∧ (s.promote k.val).pick k.val b.val = some r ∧ r.write = true ∧ j ≠ k.val) ∧
    (∃ (s : State) (k : Fin 16) (b : Fin 256) (r : MemReq), s.obj (Key.memchState k.val) = 3 ∧ (s.promote k.val).pick k.val b.val = some r ∧ r.write = false) ∧
    (∃ (s : State) (k : Fin 16) (b : Fin 256) (r : MemReq), s.obj (Key.memchState k.val) = 3 ∧ (s.promote k.val).pick k.val b.val = some r ∧ r.write = false) ∧
    (∃ (s : State) (w : Bool) (a : Nat) (k : Nat), s.chanOf a = some k ∧ s.obj (Key.memchState k) ≠ 5 ∧ w = false ∧ tabGet 0 (s.memChan k).inOrder (s.bankOf k a) = 0 ∧ (∃ x ∈ (s.memChan k).queue, x.write = true ∧ s.bankOf k x.addr = s.bankOf k a ∧ s.rowAt k x.addr = s.rowAt k a)) ∧
    (∃ (s : State) (a : Nat) (k : Nat), s.chanOf a = some k ∧ s.obj (Key.memchState k) = 5 ∧ s.remapWaits a = false) ∧
    (∃ (s : State) (k : Fin 16) (r : MemReq) (rest : List MemReq), (s.memChan k.val).issued = r :: rest ∧ s.chanServes k.val = true ∧ (∀ h l, r.owner ≠ .scanout h l) ∧ (∀ g, r.owner ≠ .aperture g) ∧ dataDropped r.owner = false) ∧
    (∃ (s : State) (k : Fin 16) (r : MemReq) (rest : List MemReq), (s.memChan k.val).issued = r :: rest ∧ s.chanServes k.val = true ∧ dataDropped r.owner = true) ∧
    (∃ (s : State) (k : Fin 16) (r : MemReq) (rest : List MemReq), (s.memChan k.val).issued = r :: rest ∧ s.chanServes k.val = true) ∧
    (∃ (s : State) (k : Fin 16), (s.memChan k.val).issued = []) :=
  ⟨⟨w [], 15, by decide +kernel⟩,
   ⟨{ w [(Key.memchState 15, 3)] with mem := { chans := [(15, { queue := [wr0] })] } }, 15, 0, wr0, by decide +kernel⟩,
   ⟨{ w [(Key.memchState 15, 3)] with mem := { chans := [(15, { queue := [wr0] })] } }, 15, 0, wr0, 14, by decide +kernel⟩,
   ⟨{ w [(Key.memchState 15, 3)] with mem := { chans := [(15, { queue := [{ wr0 with write := false }] })] } }, 15, 0, { wr0 with write := false }, by decide +kernel⟩,
   ⟨{ w [(Key.memchState 15, 3)] with mem := { chans := [(15, { queue := [{ wr0 with write := false }] })] } }, 15, 0, { wr0 with write := false }, by decide +kernel⟩,
   ⟨{ w chan0 with mem := { chans := [(0, { queue := [wr0] })] } }, false, 0, 0, by decide +kernel⟩,
   ⟨w ((Key.memchState 0, 5) :: chan0), 0, 0, by decide +kernel⟩,
   ⟨{ w [(Key.memchState 15, 3)] with mem := { chans := [(15, { issued := [{ wr0 with write := false, owner := .firmware }] })] } }, 15, { wr0 with write := false, owner := .firmware }, [], by decide +kernel, by decide +kernel, (by intro h l; nofun), (by intro g; nofun), by decide +kernel⟩,
   ⟨{ w [(Key.memchState 15, 3)] with mem := { chans := [(15, { issued := [{ wr0 with write := false, owner := .scrub }] })] } }, 15, { wr0 with write := false, owner := .scrub }, [], by decide +kernel⟩,
   ⟨{ w [(Key.memchState 15, 3)] with mem := { chans := [(15, { issued := [{ wr0 with write := false }] })] } }, 15, { wr0 with write := false }, [], by decide +kernel⟩,
   ⟨w [], 15, by decide +kernel⟩⟩

theorem witness_ServiceKeepsOrder : ∃ (s : State) (k : Nat) (b : Nat) (r : MemReq), s.pick k b = some r :=
  ⟨{ w [(Key.memchState 15, 3)] with mem := { chans := [(15, { queue := [wr0] })] } }, 15, 0, wr0, by decide +kernel⟩

theorem witness_ChannelCommands :
    (∃ (s : State) (k : Fin 16), s.chanServes k.val = true ∧ s.time < 2 ^ 80) ∧
    (∃ (s : State) (k : Fin 16), s.chanServes k.val = false) ∧
    (∃ (s : State) (k : Fin 16) (w : MemReq), (s.memChan k.val).lastWrite = some w ∧ s.chanServes k.val = true ∧ (s.memChan k.val).crcTries < 3) ∧
    (∃ (s : State) (k : Fin 16) (w : MemReq), (s.memChan k.val).lastWrite = some w ∧ s.chanServes k.val = true ∧ 3 ≤ (s.memChan k.val).crcTries) ∧
    (∃ (s : State), s.mem.remaps = []) ∧
    (∃ (s : State) (x : Nat × Nat) (rest : List (Nat × Nat)), s.mem.remaps = x :: rest ∧ rest = []) ∧
    (∃ (s : State) (k : Fin 16), s.obj (Key.memchState k.val) = 3) ∧
    (∃ (s : State) (k : Fin 16), s.obj (Key.memchState k.val) = 3 ∧ (s.memChan k.val).queue = [] ∧ (s.memChan k.val).issued = [] ∧ (s.memChan k.val).lastRequest + 400 * s.obj Key.memSrIdle ≤ s.wall) ∧
    (∃ (s : State) (k : Fin 16), (s.memChan k.val).queue ≠ []) ∧
    (∃ (s : State) (k : Fin 16), s.obj (Key.memchState k.val) = 4 ∧ (s.memChan k.val).queue ≠ []) ∧
    (∃ (s : State) (k : Fin 16), s.chanServes k.val = true ∧ s.lanes0 ≠ 0 ∧ 64 * (s.memChan k.val).scrubNext + 64 < s.mem.capacity) ∧
    (∃ (s : State) (k : Fin 16), s.chanServes k.val = true ∧ s.lanes0 ≠ 0 ∧ s.mem.capacity ≤ 64 * (s.memChan k.val).scrubNext + 64) ∧
    (∃ (s : State) (r : Nat), s.ready = true ∧ r ∉ State.ratesOf s.popDimms) ∧
    (∃ (s : State) (r : Nat), s.ready = true ∧ r ∈ State.ratesOf s.popDimms ∧ s.training = true) ∧
    (∃ (s : State) (r : Nat), s.ready = true ∧ r ∈ State.ratesOf s.popDimms ∧ s.training = false ∧ State.realTimeOn s.obj = true) ∧
    (∃ (s : State) (r : Nat) (k : Nat), s.ready = true ∧ r ∈ State.ratesOf s.popDimms ∧ s.training = false ∧ State.realTimeOn s.obj = false ∧ s.chanServes k = true ∧ k < 16) ∧
    (∃ (s : State) (r : Nat) (k : Nat), s.ready = true ∧ r ∈ State.ratesOf s.popDimms ∧ s.training = false ∧ State.realTimeOn s.obj = false ∧ s.chanServes k = false ∧ k < 16) ∧
    (∃ (s : State) (k : Fin 16), s.ready = true ∧ s.obj (Key.memchState k.val) ≠ 5) ∧
    (∃ (s : State) (k : Fin 16), s.ready = true ∧ s.obj (Key.memchState k.val) = 5) :=
  ⟨⟨{ w [(Key.memchState 15, 4)] with time := 2 ^ 80 - 1 }, 15, by decide +kernel⟩,
   ⟨w [], 15, by decide +kernel⟩,
   ⟨{ w [(Key.memchState 15, 3)] with mem := { chans := [(15, { lastWrite := some wr0, crcTries := 2 })] } }, 15, wr0, by decide +kernel⟩,
   ⟨{ w [(Key.memchState 15, 3)] with mem := { chans := [(15, { lastWrite := some wr0, crcTries := 3 })] } }, 15, wr0, by decide +kernel⟩,
   ⟨w [], by decide +kernel⟩,
   ⟨{ w [] with mem := { remaps := [(0, 0)] } }, (0, 0), [], by decide +kernel⟩,
   ⟨w [(Key.memchState 15, 3)], 15, by decide +kernel⟩,
   ⟨{ w [(Key.memchState 15, 3), (Key.memSrIdle, 1)] with wall := 400 }, 15, by decide +kernel⟩,
   ⟨{ w [(Key.memchState 15, 4)] with mem := { chans := [(15, { queue := [wr0] })] } }, 15, by decide +kernel⟩,
   ⟨{ w [(Key.memchState 15, 4)] with mem := { chans := [(15, { queue := [wr0] })] } }, 15, by decide +kernel⟩,
   ⟨{ w [(Key.memchState 15, 3), (Key.memLanes, 1)] with mem := { capacity := 65 } }, 15, by decide +kernel⟩,
   ⟨{ w [(Key.memchState 15, 3), (Key.memLanes, 1)] with mem := { capacity := 64 } }, 15, by decide +kernel⟩,
   ⟨w [up], 4799, by decide +kernel⟩,
   ⟨w [up, (Key.memchState 15, 2)], 4800, by decide +kernel⟩,
   ⟨w [up, (Key.ringSelectRaw, 1)], 6400, by decide +kernel⟩,
   ⟨w [up, (Key.memchState 15, 3)], 4800, 15, by decide +kernel⟩,
   ⟨w [up], 4800, 15, by decide +kernel⟩,
   ⟨w [up], 15, by decide +kernel⟩,
   ⟨w [up, (Key.memchState 15, 5)], 15, by decide +kernel⟩⟩

theorem witness_RingSlabsCases : ∃ (s : State) (n : Nat), s.ready = true ∧ n < 2 ^ 32 :=
  ⟨w [up], 2 ^ 32 - 1, by decide +kernel⟩

theorem witness_RingBlocks :
    (∃ (s : State) (p : Fin 1024) (fe : Bool) (b : Block), (s.ringStream (streamId p.val fe)).openBlock = some b ∧ s.wall < b.openedAt + s.obj Key.ringFlush) ∧
    (∃ (s : State) (p : Fin 1024) (fe : Bool) (b : Block), (s.ringStream (streamId p.val fe)).openBlock = some b ∧ b.openedAt + s.obj Key.ringFlush ≤ s.wall ∧ s.placeStands (streamId p.val fe) b = true) ∧
    (∃ (s : State) (p : Fin 1024) (fe : Bool) (b : Block), ((s.ringStream (streamId p.val fe)).blocks.find? fun b => !b.written) = some b ∧ s.outstanding (.ringWriter (streamId p.val fe) b.seq) = false ∧ (∀ x ∈ s.mem.lostWrites, x.1 ≠ .ringWriter (streamId p.val fe) b.seq)) ∧
    (∃ (s : State) (p : Fin 1024) (fe : Bool) (b : Block), ((s.ringStream (streamId p.val fe)).blocks.find? fun b => !b.written) = some b ∧ s.outstanding (.ringWriter (streamId p.val fe) b.seq) = false ∧ (∃ x ∈ s.mem.lostWrites, x.1 = .ringWriter (streamId p.val fe) b.seq)) :=
  ⟨⟨{ w [(Key.ringFlush, 1)] with ring := { streams := [(2047, { openBlock := some {} })] } }, 1023, true, {}, by decide +kernel⟩,
   ⟨{ w ((Key.ringFlush, 0) :: chan0) with ring := { slabs := [(0, { owner := 2048 })], streams := [(2047, { openBlock := some {} })] } }, 1023, true, {}, by decide +kernel⟩,
   ⟨{ w [(Key.ringFlush, 0)] with ring := { streams := [(2047, { blocks := [{}] })] } }, 1023, true, {}, by decide +kernel⟩,
   ⟨{ w [(Key.ringFlush, 0)] with ring := { streams := [(2047, { blocks := [{}] })] }, mem := { lostWrites := [(.ringWriter 2047 0, 0)] } }, 1023, true, {}, by decide +kernel⟩⟩

theorem witness_SlabsAndExtraction :
    (∃ (s : State) (k : Nat) (r : Nat) (o : _), k = s.ring.next ∧ k < s.obj Key.ringSlabsNow ∧ 4096 ≤ s.obj Key.ringSlabsNow ∧ r = (k + 2048) % s.obj Key.ringSlabsNow ∧ (tabGet {} s.ring.slabs r).owner = o + 1) ∧
    (∃ (s : State) (r : Record) (x : RecStream) (b : Block), x.reading = some b ∧ s.outstandingIn (.extract r.ctx r.number) (s.blockAddr b.slab b.place) 4096 = false ∧ (tabGet ({} : Slab) s.ring.slabs b.slab).alloc ≠ b.alloc) :=
  ⟨⟨{ w [(Key.ringSlabsNow, 4096)] with ring := { next := 4095, slabs := [(2047, { owner := 5 })] } }, 4095, 2047, 4, by decide +kernel⟩,
   ⟨w [], {}, { port := 0, fe := false, reading := some { alloc := 1 } }, { alloc := 1 }, by decide +kernel⟩⟩

theorem witness_Drives :
    (∃ (s : State) (d : Fin 4) (w : DriveWrite) (rest : List DriveWrite) (r : Record), (s.drive d.val).writes = w :: rest ∧ w.kind = 0 ∧ s.record? w.ctx w.number = some r) ∧
    (∃ (s : State) (d : Fin 4) (w : DriveWrite) (rest : List DriveWrite), (s.drive d.val).writes = w :: rest ∧ w.kind = 1) ∧
    (∃ (s : State) (d : Fin 4) (w : DriveWrite) (rest : List DriveWrite), (s.drive d.val).writes = w :: rest ∧ w.kind = 1) ∧
    (∃ (s : State) (d : Fin 4) (w : DriveWrite) (rest : List DriveWrite), (s.drive d.val).writes = w :: rest ∧ w.tries < 3) ∧
    (∃ (s : State) (d : Fin 4) (w : DriveWrite) (rest : List DriveWrite), (s.drive d.val).writes = w :: rest ∧ 3 ≤ w.tries) ∧
    (∃ (s : State) (d : Fin 4) (n : Nat), (s.obj (Key.recDriveState d.val) = 1 ∨ s.obj (Key.recDriveState d.val) = 2) ∧ s.obj (Key.recNsDrive n) = d.val ∧ s.obj (Key.recNsState n) ≠ 0 ∧ n < 16) ∧
    (∃ (s : State) (d : Fin 4) (n : Nat), (s.obj (Key.recDriveState d.val) = 1 ∨ s.obj (Key.recDriveState d.val) = 2) ∧ s.obj (Key.recNsDrive n) = d.val ∧ s.obj (Key.recNsState n) ≠ 0 ∧ n < 16) ∧
    (∃ (s : State) (d : Fin 4) (n : Nat), (s.obj (Key.recDriveState d.val) = 1 ∨ s.obj (Key.recDriveState d.val) = 2) ∧ s.obj (Key.recNsDrive n) ≠ d.val ∧ n < 16) ∧
    (∃ (s : State) (d : Fin 4), s.ready = true ∧ s.obj (Key.recDriveState d.val) ≠ 3) ∧
    (∃ (s : State) (d : Fin 4), s.ready = true ∧ s.obj (Key.recDriveState d.val) = 3) ∧
    (∃ (s : State) (d : Fin 4), (s.drive d.val).restartAt ≠ 0 ∧ (s.drive d.val).restartAt - 1 + 400000 ≤ s.wall) ∧
    (∃ (s : State) (d : Fin 4) (n : Nat), s.obj (Key.recDriveState d.val) = 1 ∧ (s.drive d.val).restartAt = 0 ∧ s.obj Key.fwSwapState ≠ 2 ∧ s.obj (Key.recNsDrive n) ≠ d.val ∧ n < 16) ∧
    (∃ (s : State) (d : Fin 4) (n : Nat), s.obj (Key.recDriveState d.val) = 1 ∧ (s.drive d.val).restartAt = 0 ∧ s.obj Key.fwSwapState ≠ 2 ∧ s.obj (Key.recNsDrive n) = d.val ∧ s.flag (Key.recNsEnable n) = true ∧ s.obj (Key.recNsState n) = 0 ∧ s.recd.failed.contains n = false ∧ n < 16) ∧
    (∃ (s : State) (d : Fin 4), (s.obj (Key.recDriveState d.val) ≠ 1 ∨ s.obj Key.fwSwapState = 2)) :=
  ⟨⟨{ w [] with recd := { drives := [(3, { writes := [{ kind := 0, ns := 0, lba := 0, data := [] }] })] }, acq := { records := [rec0] } }, 3, { kind := 0, ns := 0, lba := 0, data := [] }, [], rec0, by decide +kernel⟩,
   ⟨{ w [] with recd := { drives := [(3, { writes := [{ kind := 1, ns := 0, lba := 0, data := [] }] })] } }, 3, { kind := 1, ns := 0, lba := 0, data := [] }, [], by decide +kernel⟩,
   ⟨{ w [] with recd := { drives := [(3, { writes := [{ kind := 1, ns := 0, lba := 0, data := [] }] })] } }, 3, { kind := 1, ns := 0, lba := 0, data := [] }, [], by decide +kernel⟩,
   ⟨{ w [] with recd := { drives := [(3, { writes := [{ kind := 3, ns := 0, lba := 0, data := [], tries := 2 }] })] } }, 3, { kind := 3, ns := 0, lba := 0, data := [], tries := 2 }, [], by decide +kernel⟩,
   ⟨{ w [] with recd := { drives := [(3, { writes := [{ kind := 3, ns := 0, lba := 0, data := [], tries := 3 }] })] } }, 3, { kind := 3, ns := 0, lba := 0, data := [], tries := 3 }, [], by decide +kernel⟩,
   ⟨w [(Key.recDriveState 3, 1), (Key.recNsDrive 15, 3), (Key.recNsState 15, 1)], 3, 15, by decide +kernel⟩,
   ⟨w [(Key.recDriveState 3, 2), (Key.recNsDrive 15, 3), (Key.recNsState 15, 1)], 3, 15, by decide +kernel⟩,
   ⟨w [(Key.recDriveState 3, 2), (Key.recNsDrive 15, 0), (Key.recNsState 15, 1)], 3, 15, by decide +kernel⟩,
   ⟨w [up, (Key.recDriveState 3, 2)], 3, by decide +kernel⟩,
   ⟨w [up, (Key.recDriveState 3, 3)], 3, by decide +kernel⟩,
   ⟨{ w [] with wall := 400000, recd := { drives := [(3, { restartAt := 1 })] } }, 3, by decide +kernel⟩,
   ⟨w [(Key.recDriveState 3, 1), (Key.recNsDrive 15, 0)], 3, 15, by decide +kernel⟩,
   ⟨w [(Key.recDriveState 3, 1), (Key.recNsDrive 15, 3), (Key.recNsEnable 15, 1)], 3, 15, by decide +kernel⟩,
   ⟨w [(Key.recDriveState 3, 2)], 3, by decide +kernel⟩⟩

theorem witness_SegmentsAndNamespaces :
    (∃ (s : State), (∀ x ∈ s.recd.segments, x.stage ≠ 1)) ∧
    (∃ (s : State) (x : Segment) (off : Nat) (u : State), (s.recd.segments.find? fun x => x.stage == 1) = some x ∧ (s.withFree (s.free + 1)).placeItem x.ns 1 = some (off, u)) ∧
    (∃ (s : State) (n : Fin 16) (T : KTime), s.due = [(Key.recNsFormat n.val, T)]) ∧
    (∃ (s : State) (n : Fin 16) (T : KTime), s.due = [(Key.recNsClose n.val, T)]) ∧
    (∃ (s : State) (n : Fin 16), s.ready = true ∧ s.obj (Key.recNsReadState n.val) = 1) ∧
    (∃ (s : State) (n : Fin 16) (off : Nat) (count : Nat) (addr : Nat), s.ready = true ∧ s.obj (Key.recNsReadState n.val) ≠ 1 ∧ (count = 0 ∨ 65536 < count ∨ s.obj (Key.recNsLbas n.val) < off + count ∨ s.inFixed addr (4096 * count) = false)) ∧
    (∃ (s : State) (n : Fin 16) (off : Nat) (count : Nat) (addr : Nat), s.ready = true ∧ s.obj (Key.recNsReadState n.val) ≠ 1 ∧ 1 ≤ count ∧ count ≤ 65536 ∧ off + count ≤ s.obj (Key.recNsLbas n.val) ∧ s.inFixed addr (4096 * count) = true) ∧
    (∃ (s : State) (n : Fin 16), s.obj (Key.recNsReadState n.val) = 1 ∧ s.obj (Key.recDriveState (s.obj (Key.recNsDrive n.val))) = 2) :=
  ⟨⟨w [], by decide +kernel⟩,
   ⟨{ w [(Key.recNsLbas 15, 10), (Key.recNsAppend 15, 9)] with recd := { segments := [{ id := 0, stage := 1, ns := 15, ctx := 0, genNo := 0, index := 0, first := 0, last := 0, kstart := 0, kend := 0, trigger := 0 }] } }, { id := 0, stage := 1, ns := 15, ctx := 0, genNo := 0, index := 0, first := 0, last := 0, kstart := 0, kend := 0, trigger := 0 }, 9, _, by decide +kernel, rfl⟩,
   ⟨{ w [] with due := [(Key.recNsFormat 15, 9)] }, 15, 9, by decide +kernel⟩,
   ⟨{ w [] with due := [(Key.recNsClose 15, 9)] }, 15, 9, by decide +kernel⟩,
   ⟨w [up, (Key.recNsReadState 15, 1), (Key.recNsLbas 15, 65536), (Key.memFixedSize, 2 ^ 28)], 15, by decide +kernel⟩,
   ⟨w [up, (Key.recNsReadState 15, 2), (Key.recNsLbas 15, 65536), (Key.memFixedSize, 2 ^ 28)], 15, 0, 65537, 0, by decide +kernel⟩,
   ⟨w [up, (Key.recNsReadState 15, 2), (Key.recNsLbas 15, 65536), (Key.memFixedSize, 2 ^ 28)], 15, 0, 65536, 0, by decide +kernel⟩,
   ⟨w [(Key.recNsReadState 15, 1), (Key.recNsDrive 15, 3), (Key.recDriveState 3, 2)], 15, by decide +kernel⟩⟩

theorem witness_HostRegisters :
    (∃ (be : BitVec 4), be ≠ 15#4) ∧
    (∃ (be : BitVec 4) (off : Nat), be ≠ 15#4 ∧ off % 4 = 0 ∧ isRegister off = true) ∧
    (∃ (be : BitVec 4) (off : Nat), be ≠ 15#4 ∧ off % 4 = 0 ∧ isRegister off = false) ∧
    (∃ (s : State), s.pcie.apBusy = true) ∧
    (∃ (s : State), s.pcie.mboxBusy = true) ∧
    (∃ (s : State), s.pcie.dcBusy = true) ∧
    (∃ (s : State) (n : Fin 64) (v : BitVec 32), (v.toNat % 64 ≠ 0 ∨ s.obj (Key.hrSize n.val) ≤ v.toNat)) ∧
    (∃ (s : State) (m : Fin 16) (v : BitVec 32), ((s.mover m.val).state = 0 ∨ s.obj (Key.mvStartSource m.val) ≠ 0 ∨ s.obj (Key.mvDescCount m.val) ≤ v.toNat % 65536)) ∧
    (∃ (s : State) (m : Fin 16), (s.mover m.val).state ≠ 4) ∧
    (∃ (s : State), s.pcie.apBusy = false) ∧
    (∃ (s : State), s.pcie.apBusy = true) ∧
    (∃ (s : State), s.pcie.mboxBusy = false) ∧
    (∃ (s : State) (b : Bytes), s.pcie.mboxBusy = true ∧ s.readReceived s.pcie.mboxAt s.pcie.mboxSel = (Res.done, b) ∧ (typeAt s.pcie.mboxSel).image = false) ∧
    (∃ (s : State) (c : Code) (b : Bytes), s.pcie.mboxBusy = true ∧ s.readReceived s.pcie.mboxAt s.pcie.mboxSel = (c, b) ∧ (c ≠ Res.done ∨ (typeAt s.pcie.mboxSel).image = true)) ∧
    (∃ (off : Nat) (w : Nat), (off, w) ∈ [(0x84, 24), (0x88, 23), (0x8C, 24), (0x90, 32), (0x100, 32), (0x104, 16)]) ∧
    (∃ (i : Nat), i < 256) ∧
    (∃ (s : State) (v : BitVec 32), s.pcie.dcBusy = false ∧ 1 ≤ v.toNat % 16 ∧ v.toNat % 16 ≤ 6) :=
  ⟨⟨14#4, by decide +kernel⟩,
   ⟨0#4, 0xF004, by decide +kernel⟩,
   ⟨0#4, 0xFFFC, by decide +kernel⟩,
   ⟨{ w [] with pcie := { apBusy := true } }, by decide +kernel⟩,
   ⟨{ w [] with pcie := { mboxBusy := true } }, by decide +kernel⟩,
   ⟨{ w [] with pcie := { dcBusy := true } }, by decide +kernel⟩,
   ⟨w [], 63, 1#32, by decide +kernel⟩,
   ⟨w [], 15, 0#32, by decide +kernel⟩,
   ⟨w [], 15, by decide +kernel⟩,
   ⟨w [], by decide +kernel⟩,
   ⟨{ w [] with pcie := { apBusy := true } }, by decide +kernel⟩,
   ⟨w [], by decide +kernel⟩,
   ⟨{ w [] with pcie := { mboxBusy := true, mboxSel := Key.spanNode } }, ((w []).readObject Key.spanNode).2, by decide +kernel⟩,
   ⟨{ w [] with pcie := { mboxBusy := true, mboxSel := 0 } }, ((w []).readObject 0).1, ((w []).readObject 0).2, by decide +kernel⟩,
   ⟨0x104, 16, by decide +kernel⟩,
   ⟨255, by decide +kernel⟩,
   ⟨w [], 6#32, by decide +kernel⟩⟩

theorem witness_DictionaryPort :
    (∃ (s : State) (b : Bytes), s.dcDue 1 = true ∧ s.dcBulk false = true ∧ s.readObject s.pcie.dcIndex = (Res.done, b) ∧ (typeAt s.pcie.dcIndex).image = false ∧ 1 ≤ b.length ∧ b.length ≤ 4) ∧
    (∃ (s : State) (b : Bytes), s.dcDue 1 = true ∧ s.dcBulk false = true ∧ s.readObject s.pcie.dcIndex = (Res.done, b) ∧ 4 < b.length ∧ (typeAt s.pcie.dcIndex).image = false) ∧
    (∃ (s : State) (b : Bytes), s.dcDue 1 = true ∧ s.dcBulk true = true ∧ s.readObject s.pcie.dcIndex = (Res.done, b) ∧ (typeAt s.pcie.dcIndex).image = true ∧ s.pcie.dcOffset + b.length ≤ 8388608) ∧
    (∃ (s : State) (bulk : Bool) (w : RawWrite) (u : State), s.dcDue 2 = true ∧ s.dcBulk bulk = true ∧ s.dcWrite bulk = some w ∧ s.ready = true ∧ s.checkWrite true w = Res.done ∧ State.immediate w.key w.value s = (Res.done, u)) ∧
    (∃ (s : State) (bulk : Bool) (w : RawWrite) (c : Code), s.dcDue 2 = true ∧ s.dcBulk bulk = true ∧ s.dcWrite bulk = some w ∧ (s.ready = false ∧ c = Res.state ∨ s.ready = true ∧ s.checkWrite true w = c ∧ c ≠ Res.done)) ∧
    (∃ (s : State), s.dcDue 3 = true ∧ s.ready = true ∧ s.pcie.groupOpen = false) ∧
    (∃ (s : State), s.dcDue 3 = true ∧ s.pcie.groupOpen = true) ∧
    (∃ (s : State) (bulk : Bool) (w : RawWrite), s.dcDue 4 = true ∧ s.dcBulk bulk = true ∧ s.pcie.groupOpen = true ∧ s.pev.group.length < 1024 ∧ s.dcWrite bulk = some w) ∧
    (∃ (s : State) (bulk : Bool), s.dcDue 4 = true ∧ s.dcBulk bulk = true ∧ s.pcie.groupOpen = true ∧ 1024 ≤ s.pev.group.length) ∧
    (∃ (s : State) (c : Code) (i : Nat), s.dcDue 5 = true ∧ s.pcie.groupOpen = true ∧ s.validateGroup s.pev.groupT s.pev.group none = (c, i) ∧ c ≠ Res.done) ∧
    (∃ (s : State) (i : Nat), s.dcDue 5 = true ∧ s.pcie.groupOpen = true ∧ s.validateGroup s.pev.groupT s.pev.group none = (Res.done, i)) ∧
    (∃ (s : State), s.dcDue 6 = true ∧ s.pcie.groupOpen = true) :=
  ⟨⟨dc 1 Key.spanNode, ((w []).readObject Key.spanNode).2, by decide +kernel⟩,
   ⟨dc 1 Key.calFails, ((w []).readObject Key.calFails).2, by decide +kernel⟩,
   ⟨{ dc 17 (Key.trImage 0) with pcie := { dcBusy := true, dcCtrl := 17, dcIndex := Key.trImage 0, dcOffset := 8388608 } }, ((w []).readObject (Key.trImage 0)).2, by decide +kernel⟩,
   ⟨dc 2 Key.abutmentClear, false, { key := Key.abutmentClear, ty := 0, value := [] }, (State.immediate Key.abutmentClear [] (dc 2 Key.abutmentClear)).2, by decide +kernel⟩,
   ⟨dc 2 Key.abutmentClear [(Key.suStage, 1)], false, { key := Key.abutmentClear, ty := 0, value := [] }, Res.state, by decide +kernel⟩,
   ⟨dc 3 0 (opened := false), by decide +kernel⟩,
   ⟨dc 3 0, by decide +kernel⟩,
   ⟨dc 4 Key.ppsEdge (g := List.replicate 1023 { key := Key.ppsEdge, ty := (tyOf Key.ppsEdge).code, value := [1] }), false, { key := Key.ppsEdge, ty := (tyOf Key.ppsEdge).code, value := [0] }, by decide +kernel⟩,
   ⟨dc 4 0 (g := List.replicate 1024 { key := Key.ppsEdge, ty := (tyOf Key.ppsEdge).code, value := [1] }), false, by decide +kernel⟩,
   ⟨dc 5 0, Res.range, 0xFFFF, by decide +kernel⟩,
   ⟨dc 5 0 (g := [{ key := Key.ppsEdge, ty := (tyOf Key.ppsEdge).code, value := [1] }]) (t := 4000 * tick), ((dc 5 0 (g := [{ key := Key.ppsEdge, ty := (tyOf Key.ppsEdge).code, value := [1] }]) (t := 4000 * tick)).validateGroup (4000 * tick) [{ key := Key.ppsEdge, ty := (tyOf Key.ppsEdge).code, value := [1] }] none).2, by decide +kernel⟩,
   ⟨dc 6 0, by decide +kernel⟩⟩

theorem witness_HostWindows :
    (∃ (s : State) (v : Fin 64) (j : _), tabGet 0 s.pev.pendingVec v.val ≠ 0 ∧ bit (s.msixDword (4 * v.val + 3)) 0 = false ∧ s.hostFlows = true ∧ (tabGet 0 s.pev.lastMessage v.val = 0 ∨ tabGet 0 s.pev.lastMessage v.val + s.pev.intGap ≤ s.wall + 1) ∧ j ≠ v.val) ∧
    (∃ (s : State) (v : Fin 64), (tabGet 0 s.pev.pendingVec v.val = 0 ∨ bit (s.msixDword (4 * v.val + 3)) 0 = true ∨ s.pcie.busMaster = false ∨ s.pcie.d3hot = true)) ∧
    (∃ (s : State) (off : Nat) (a : Nat) (d : Bytes), 0xC00000 ≤ off ∧ off < 0x1000000 ∧ a = s.pcie.apBase * 4194304 + (off - 0xC00000) ∧ a + d.length ≤ s.fixedEnd ∧ 0 < d.length ∧ s.readLost a d.length = false ∧ s.pcie.reads = []) ∧
    (∃ (s : State) (r : ApertureRead), s.pcie.reads = [r] ∧ s.outstanding (.aperture r.tag) = false ∧ (s.takeRead (.aperture r.tag) r.addr r.len).1.2 = false) ∧
    (∃ (s : State) (off : Nat) (d : Bytes), 0xC00000 ≤ off ∧ off < 0x1000000 ∧ s.pcie.apBase * 4194304 + (off - 0xC00000) + d.length ≤ s.fixedEnd) ∧
    (∃ (s : State) (off : Nat) (d : Bytes), 0xC00000 ≤ off ∧ off < 0x1000000 ∧ s.fixedEnd < s.pcie.apBase * 4194304 + (off - 0xC00000) + d.length) ∧
    (∃ (off : Nat) (d : Bytes), off + d.length ≤ 0x800000 ∧ 0 < d.length) ∧
    (∃ (s : State) (n : Fin 64) (v : BitVec 32), v.toNat % 64 = 0 ∧ v.toNat < s.obj (Key.hrSize n.val) ∧ (∀ r ∈ s.acq.records, r.state ≠ 2)) ∧
    (∃ (s : State) (n : Fin 64) (e : RingEntry) (rest : List RingEntry), (s.hostRing n.val).unacked = e :: rest ∧ s.entryAcked n.val = true ∧ e.offset + e.bytes < s.obj (Key.hrSize n.val) ∧ s.obj (Key.hrVector n.val) ≠ 0xFF) ∧
    (∃ (s : State) (n : Fin 64) (e : RingEntry) (rest : List RingEntry), (s.hostRing n.val).unacked = e :: rest ∧ s.entryAcked n.val = true ∧ e.offset + e.bytes < s.obj (Key.hrSize n.val) ∧ s.obj (Key.hrVector n.val) = 0xFF) ∧
    (∃ (s : State) (n : Fin 64), s.entryAcked n.val = false) ∧
    (∃ (s : State) (m : Nat), s.moverUsesHost m = true ∧ m < 16) ∧
    (∃ (s : State) (m : _), s.moverUsesHost m = false) ∧
    (∃ (s : State), s.start.released = true) ∧
    (∃ (s : State), s.pcie.linkUp = true) :=
  ⟨⟨{ w [] with pcie := host, pev := { pendingVec := [(63, 1)], msixTable := [(255, 0)] } }, 63, 62, by decide +kernel⟩,
   ⟨w [], 63, by decide +kernel⟩,
   ⟨w ((Key.memFixedSize, 8) :: chan0), 0xC00000, 0, zeros 8, by decide +kernel⟩,
   ⟨{ w [] with pcie := { reads := [⟨0, 0, 8, 255, 0⟩] } }, ⟨0, 0, 8, 255, 0⟩, by decide +kernel⟩,
   ⟨w [(Key.memFixedSize, 8)], 0xC00000, zeros 8, by decide +kernel⟩,
   ⟨w [], 0xC00000, zeros 8, by decide +kernel⟩,
   ⟨0x7FFFF8, zeros 8, by decide +kernel⟩,
   ⟨w [(Key.hrSize 63, 128)], 63, 64#32, by decide +kernel⟩,
   ⟨{ w [(Key.hrSize 63, 128), (Key.hrVector 63, 0)] with hrs := [(63, { unacked := [⟨0, 64, none⟩] })] }, 63, ⟨0, 64, none⟩, [], by decide +kernel⟩,
   ⟨{ w [(Key.hrSize 63, 128), (Key.hrVector 63, 255)] with hrs := [(63, { unacked := [⟨0, 64, none⟩] })] }, 63, ⟨0, 64, none⟩, [], by decide +kernel⟩,
   ⟨w [], 63, by decide +kernel⟩,
   ⟨{ w [(Key.mvDescHost 15, 1)] with movers := [(15, { state := 2 })] }, 15, by decide +kernel⟩,
   ⟨w [], 15, by decide +kernel⟩,
   ⟨{ w [] with start := { released := true } }, by decide +kernel⟩,
   ⟨{ w [] with pcie := host }, by decide +kernel⟩⟩

theorem witness_MoverChannels :
    (∃ (s : State) (m : Fin 16) (v : BitVec 32) (j : _), (s.mover m.val).state ≠ 0 ∧ s.obj (Key.mvStartSource m.val) = 0 ∧ v.toNat < s.obj (Key.mvDescCount m.val) ∧ v.toNat < 65536 ∧ j ≠ m.val) ∧
    (∃ (s : State) (m : Fin 16) (v : BitVec 32), (s.mover m.val).state ≠ 0 ∧ s.obj (Key.mvStartSource m.val) = 0 ∧ v.toNat < s.obj (Key.mvDescCount m.val) ∧ v.toNat < 65536 ∧ (s.mover m.val).state = 1 ∧ (s.mover m.val).run = true ∧ v.toNat ≠ (s.mover m.val).head) ∧
    (∃ (m : Fin 16) (j : _), j ≠ m.val) ∧
    (∃ (s : State) (m : Fin 16), (s.mover m.val).state = 4 ∧ 2 ≤ s.obj (Key.mvDescCount m.val)) ∧
    (∃ (s : State) (m : Fin 16) (x : Mover) (j : _), x = s.mover m.val ∧ x.state = 2 ∧ x.desc = none ∧ x.head ≠ x.tail ∧ x.phase = 0 ∧ s.flag (Key.mvDescHost m.val) = false ∧ j ≠ m.val) ∧
    (∃ (s : State) (m : Fin 16) (x : Mover) (raw : Bytes), x = s.mover m.val ∧ x.state = 2 ∧ x.desc = none ∧ x.head ≠ x.tail ∧ x.phase = 1 ∧ s.readsOutstanding (State.moverOwner m.val) = false ∧ (s.moverTake m.val (s.obj (Key.mvDescBase m.val) + 64 * x.head) 64).1 = (raw, false) ∧ s.descBad (mvDesc raw) = true) ∧
    (∃ (s : State) (m : Fin 16) (x : Mover) (raw : Bytes) (j : _), x = s.mover m.val ∧ x.state = 2 ∧ x.desc = none ∧ x.head ≠ x.tail ∧ x.phase = 1 ∧ s.readsOutstanding (State.moverOwner m.val) = false ∧ (s.moverTake m.val (s.obj (Key.mvDescBase m.val) + 64 * x.head) 64).1 = (raw, false) ∧ (mvDesc raw).pattern ≠ 2 ∧ s.descRefused (mvDesc raw) [] = none ∧ j ≠ m.val) ∧
    (∃ (s : State) (m : Fin 16) (x : Mover) (raw : Bytes) (j : _), x = s.mover m.val ∧ x.state = 2 ∧ x.desc = some raw ∧ (mvDesc raw).srcHost = false ∧ (mvDesc raw).dstHost = false ∧ x.phase = 0 ∧ j ≠ m.val) ∧
    (∃ (s : State) (m : Fin 16) (x : Mover) (raw : Bytes), x = s.mover m.val ∧ x.state = 2 ∧ x.desc = some raw ∧ (mvDesc raw).srcHost = true ∧ s.hostFlows = true ∧ x.stopping = false ∧ x.retries < s.obj (Key.mvRetry m.val)) ∧
    (∃ (s : State) (m : Fin 16) (x : Mover) (raw : Bytes), x = s.mover m.val ∧ x.state = 2 ∧ x.desc = some raw ∧ (mvDesc raw).srcHost = true ∧ s.hostFlows = true ∧ x.stopping = false ∧ s.obj (Key.mvRetry m.val) ≤ x.retries) ∧
    (∃ (s : State) (m : Fin 16) (x : Mover) (raw : Bytes), x = s.mover m.val ∧ x.state = 2 ∧ x.desc = some raw ∧ (mvDesc raw).srcHost = false ∧ (mvDesc raw).dstHost = false ∧ x.phase = 1 ∧ x.redo = [] ∧ x.stopping = false ∧ s.readsOutstanding (State.moverOwner m.val) = false ∧ (s.moverTake m.val ((mvDesc raw).srcAt x.index x.elem + x.inElem).toNat ((mvDesc raw).burstLen x.index x.elem x.inElem)).1.2 = true ∧ x.retries < s.obj (Key.mvRetry m.val)) ∧
    (∃ (s : State) (m : Fin 16) (x : Mover) (raw : Bytes) (n : Nat), x = s.mover m.val ∧ x.state = 2 ∧ x.desc = some raw ∧ s.hostFlows = true ∧ x.stopping = false ∧ x.redo = [] ∧ x.run = true ∧ x.head ≠ x.tail ∧ n = (mvDesc raw).burstLen x.index x.elem x.inElem ∧ x.inElem + n < (mvDesc raw).size ∧ ((mvDesc raw).srcHost = true ∨ x.phase = 1 ∧ s.readsOutstanding (State.moverOwner m.val) = false ∧ (s.moverTake m.val ((mvDesc raw).srcAt x.index x.elem + x.inElem).toNat n).1.2 = false)) ∧
    (∃ (s : State) (m : Fin 16) (x : Mover) (raw : Bytes) (n : Nat), x = s.mover m.val ∧ x.state = 2 ∧ x.desc = some raw ∧ s.hostFlows = true ∧ x.stopping = false ∧ x.redo = [] ∧ n = (mvDesc raw).burstLen x.index x.elem x.inElem ∧ (mvDesc raw).size ≤ x.inElem + n ∧ (mvDesc raw).elements ≤ x.elem + 1 ∧ (mvDesc raw).event = false ∧ 2 ≤ s.obj (Key.mvDescCount m.val) ∧ ((mvDesc raw).srcHost = true ∨ x.phase = 1 ∧ s.readsOutstanding (State.moverOwner m.val) = false ∧ (s.moverTake m.val ((mvDesc raw).srcAt x.index x.elem + x.inElem).toNat n).1.2 = false)) ∧
    (∃ (s : State) (m : Fin 16) (x : Mover) (raw : Bytes) (j : _), x = s.mover m.val ∧ x.state = 5 ∧ x.desc = some raw ∧ (mvDesc raw).dstHost = false ∧ (mvDesc raw).event = false ∧ s.outstanding (.mover m.val x.serial) = false ∧ (∀ e ∈ s.mem.lostWrites, e.1 ≠ .mover m.val x.serial) ∧ 2 ≤ s.obj (Key.mvDescCount m.val) ∧ j ≠ m.val) ∧
    (∃ (s : State) (m : Fin 16) (x : Mover) (raw : Bytes) (j : _), x = s.mover m.val ∧ x.state = 5 ∧ x.desc = some raw ∧ (mvDesc raw).dstHost = true ∧ s.hostFlows = true ∧ s.obj (Key.mvRetry m.val) ≤ x.triesOf (x.elem, x.inElem) ∧ j ≠ m.val) ∧
    (∃ (s : State) (m : Fin 16) (x : Mover) (raw : Bytes), x = s.mover m.val ∧ x.state = 5 ∧ x.desc = some raw ∧ (mvDesc raw).dstHost = false ∧ s.outstanding (.mover m.val x.serial) = true) :=
  ⟨⟨{ w [(Key.mvStartSource 15, 0), (Key.mvDescCount 15, 65536)] with movers := [(15, { state := 1 })] }, 15, 65535#32, 14, by decide +kernel⟩,
   ⟨{ w [(Key.mvStartSource 15, 0), (Key.mvDescCount 15, 65536)] with movers := [(15, { state := 1, run := true })] }, 15, 65535#32, by decide +kernel⟩,
   ⟨15, 14, by decide +kernel⟩,
   ⟨{ w [(Key.mvDescCount 15, 2)] with movers := [(15, { state := 4 })] }, 15, by decide +kernel⟩,
   ⟨{ w chan0 with movers := [(15, { state := 2, tail := 1 })] }, 15, { state := 2, tail := 1 }, 14, by decide +kernel⟩,
   ⟨{ w [] with movers := [(15, { state := 2, head := 1, phase := 1 })], mem := { arrived := [(.mover 15 0, 64, zeros 64, false)] } }, 15, { state := 2, head := 1, phase := 1 }, zeros 64, by decide +kernel⟩,
   ⟨{ w chan0 with movers := [(15, { state := 2, head := 1, phase := 1 })], mem := { arrived := [(.mover 15 0, 64, desc 0 64 0 4096, false)] } }, 15, { state := 2, head := 1, phase := 1 }, desc 0 64 0 4096, 14, by decide +kernel⟩,
   ⟨{ w [] with movers := [(15, { state := 2, desc := some (desc 0 64 0 4096) })] }, 15, { state := 2, desc := some (desc 0 64 0 4096) }, desc 0 64 0 4096, 14, by decide +kernel⟩,
   ⟨{ w [(Key.mvRetry 15, 1)] with movers := [(15, { state := 2, desc := some (desc 4 64 0 4096) })], pcie := host }, 15, { state := 2, desc := some (desc 4 64 0 4096) }, desc 4 64 0 4096, by decide +kernel⟩,
   ⟨{ w [(Key.mvRetry 15, 0)] with movers := [(15, { state := 2, desc := some (desc 4 64 0 4096) })], pcie := host }, 15, { state := 2, desc := some (desc 4 64 0 4096) }, desc 4 64 0 4096, by decide +kernel⟩,
   ⟨{ w [(Key.mvRetry 15, 1)] with movers := [(15, { state := 2, phase := 1, desc := some (desc 0 64 0 4096) })], mem := { arrived := [(.mover 15 0, 0, zeros 64, true)] } }, 15, { state := 2, phase := 1, desc := some (desc 0 64 0 4096) }, desc 0 64 0 4096, by decide +kernel⟩,
   ⟨{ w [] with movers := [(15, { state := 2, run := true, tail := 1, desc := some (desc 4 513 0 0) })], pcie := host }, 15, { state := 2, run := true, tail := 1, desc := some (desc 4 513 0 0) }, desc 4 513 0 0, 512, by decide +kernel⟩,
   ⟨{ w [(Key.mvDescCount 15, 2)] with movers := [(15, { state := 2, desc := some (desc 4 512 0 0) })], pcie := host }, 15, { state := 2, desc := some (desc 4 512 0 0) }, desc 4 512 0 0, 512, by decide +kernel⟩,
   ⟨{ w [(Key.mvDescCount 15, 2)] with movers := [(15, { state := 5, desc := some (zeros 64) })] }, 15, { state := 5, desc := some (zeros 64) }, zeros 64, 14, by decide +kernel⟩,
   ⟨{ w [(Key.mvRetry 15, 0)] with movers := [(15, { state := 5, desc := some (desc 8 64 0 4096) })], pcie := host }, 15, { state := 5, desc := some (desc 8 64 0 4096) }, desc 8 64 0 4096, 14, by decide +kernel⟩,
   ⟨{ w [] with movers := [(15, { state := 5, desc := some (zeros 64) })], mem := { waiting := [{ wr0 with owner := .mover 15 0 }] } }, 15, { state := 5, desc := some (zeros 64) }, zeros 64, by decide +kernel⟩⟩

theorem witness_IndexMap :
    (∃ (ix : Nat) (sub : Nat), 0x4000 ≤ ix ∧ ix ≤ 0x4FFF ∧ sub < 256) ∧
    (∃ (ix : Nat) (sub : Nat), 0x4000 ≤ ix ∧ ix ≤ 0x4FFF ∧ sub < 256) ∧
    (∃ (ix : Nat) (sub : Nat), indexImplemented ix = false ∧ ¬ (0x4000 ≤ ix ∧ ix ≤ 0x4FFF) ∧ sub < 256) ∧
    (∃ (ix : Nat) (sub : Nat), indexImplemented ix = false ∧ ¬ (0x4000 ≤ ix ∧ ix ≤ 0x4FFF) ∧ sub < 256) ∧
    (∃ (ix : _), indexImplemented ix = true) :=
  ⟨⟨0x4FFF, 255, by decide +kernel⟩,
   ⟨0x4FFF, 255, by decide +kernel⟩,
   ⟨0x180B, 255, by decide +kernel⟩,
   ⟨0x180B, 255, by decide +kernel⟩,
   ⟨0x1000, by decide +kernel⟩⟩

theorem witness_LocksAndChecks :
    (∃ (s : State), s.ready = true) ∧
    (∃ (b : Bytes), b.length ≤ 64) ∧
    (∃ (n : Nat) (b : Bytes), n < 8 ∧ b.length = 97) ∧
    (∃ (k : Nat), k ∈ [Key.ksLoad, Key.ringSlabs, Key.fwLoad, Key.fwSwap, Key.attNonce, Key.ppKeysLock]) ∧
    (∃ (p : Nat), p < 1024) ∧
    (∃ (s : State) (w : RawWrite) (u : State) (c : Code), s.writeImmediate w = (c, u) ∧ c ≠ Res.done ∧ c ≠ Res.deferred) :=
  ⟨⟨w [up], by decide +kernel⟩,
   ⟨zeros 64, by decide +kernel⟩,
   ⟨7, zeros 97, by decide +kernel⟩,
   ⟨Key.ppKeysLock, by decide +kernel⟩,
   ⟨1023, by decide +kernel⟩,
   ⟨w [], { key := Key.abutmentClear, ty := 0, value := [] }, w [], Res.state, by decide +kernel⟩⟩

theorem witness_PelpinDiscards :
    (∃ (s : State) (i : Fin 8) (p : Bytes), s.ifaceUp i.val = true ∧ (p.length < 32 ∨ beNat (p.take 2) ≠ 0x504C ∨ p.length ≠ 32 + beNat ((p.drop 12).take 2) ∨ (∃ f, (p.drop 4).head? = some f ∧ (f.getLsbD 0 = true ∨ f.getLsbD 1 = true)))) ∧
    (∃ (s : State) (i : Fin 8) (p : Bytes), s.ifaceUp i.val = true ∧ 32 ≤ p.length ∧ beNat (p.take 2) = 0x504C ∧ p.length = 32 + beNat ((p.drop 12).take 2) ∧ (∀ f, (p.drop 4).head? = some f → f.getLsbD 0 = false ∧ f.getLsbD 1 = false)) :=
  ⟨⟨w [(Key.netState 7, 2)], 7, zeros 31, by decide +kernel, .inl (by decide +kernel)⟩,
   ⟨w [(Key.netState 7, 2)], 7, natBE 2 0x504C ++ zeros 30, by decide +kernel, by decide +kernel, by decide +kernel, by decide +kernel, by
    intro f hf; obtain rfl : f = 0 := Option.some.inj (hf.symm.trans (by decide +kernel)); decide⟩⟩

theorem witness_ReplayWindow :
    (∃ (e : Nat) (h : Nat) (epoch : Nat) (tid : Nat), e < 256 ∧ h < 65536 ∧ epoch < 256 ∧ tid < 65536) ∧
    (∃ (s : State) (r : PpRequest), ppClassify (s.sess r.session).begun (s.obj (Key.ppSessEpoch r.session)) (s.obj (Key.ppSessTid r.session)) (s.sess r.session).window r.epoch r.tid = .accept ∧ s.ppRoom r.session = true) ∧
    (∃ (s : State) (r : PpRequest), ppClassify (s.sess r.session).begun (s.obj (Key.ppSessEpoch r.session)) (s.obj (Key.ppSessTid r.session)) (s.sess r.session).window r.epoch r.tid = .accept ∧ s.ppRoom r.session = false) ∧
    (∃ (s : State) (r : PpRequest) (x : PpTid) (c : Code) (b : Bytes), ppClassify (s.sess r.session).begun (s.obj (Key.ppSessEpoch r.session)) (s.obj (Key.ppSessTid r.session)) (s.sess r.session).window r.epoch r.tid = .duplicate ∧ ((s.sess r.session).window.find? fun w => w.tid == r.tid) = some x ∧ x.response = some (c, b)) ∧
    (∃ (s : State) (r : PpRequest), ppClassify (s.sess r.session).begun (s.obj (Key.ppSessEpoch r.session)) (s.obj (Key.ppSessTid r.session)) (s.sess r.session).window r.epoch r.tid = .stale) :=
  ⟨⟨255, 65535, 255, 65535, by decide +kernel⟩,
   ⟨w [], { session := 1, role := 0, op := 0, last := true, body := [] }, by decide +kernel⟩,
   ⟨{ w [] with pel := { queue := List.replicate 32 { session := 1, role := 0, op := 0, last := true, body := [] } } }, { session := 1, role := 0, op := 0, last := true, body := [] }, by decide +kernel⟩,
   ⟨{ w [] with pel := { sessions := [(1, { begun := true, window := [{ tid := 0, response := some (0, []) }] })] } }, { session := 1, role := 0, op := 0, last := true, body := [] }, { tid := 0, response := some (0, []) }, 0, [], by decide +kernel⟩,
   ⟨{ w [] with pel := { sessions := [(1, { begun := true, window := [{ tid := 0, response := some (0, []) }] })] } }, { session := 1, role := 0, op := 0, last := true, epoch := 128, body := [] }, by decide +kernel⟩⟩

theorem witness_PelpinOperations :
    (∃ (s : State) (r : PpRequest) (rest : List PpRequest) (ks : List Nat), Serves s r rest opRead ∧ 1 ≤ ks.length ∧ ks.length ≤ 64 ∧ (∀ k ∈ ks, k < 2 ^ 24) ∧ r.body = natBE 1 ks.length ++ zeros 3 ++ ks.flatMap (fun k => natBE 3 k ++ zeros 1) ∧ (ks.flatMap (readEntry (s.withPel { s.pel with queue := rest }) r.at')).length ≤ 1364) ∧
    (∃ (s : State) (r : PpRequest) (rest : List PpRequest) (k : Nat), Serves s r rest opWrite ∧ r.role = 0 ∧ k < 2 ^ 24 ∧ r.body = natBE 1 1 ++ zeros 3 ++ natBE 3 k ++ zeros 5) ∧
    (∃ (s : State) (r : PpRequest) (rest : List PpRequest) (k : Nat) (c : Code) (u : State), Serves s r rest opWrite ∧ r.role ≠ 0 ∧ k < 2 ^ 24 ∧ r.body = natBE 1 1 ++ zeros 3 ++ natBE 3 k ++ zeros 5 ∧ (s.withPel { s.pel with queue := rest }).writeImmediate { key := k, ty := 0, value := [] } = (c, u) ∧ u.sess r.session = s.sess r.session) ∧
    (∃ (s : State) (r : PpRequest) (rest : List PpRequest), Serves s r rest opCommit ∧ r.role = 0) ∧
    (∃ (s : State) (r : PpRequest) (rest : List PpRequest) (g : Nat) (T : KTime) (w : RawWrite), Serves s r rest opCommit ∧ r.role ≠ 0 ∧ r.last = true ∧ g < 2 ∧ T < 2 ^ 80 ∧ w.key < 2 ^ 24 ∧ w.ty < 256 ∧ w.value.length ≤ 1024 ∧ r.body = natBE 1 g ++ zeros 2 ++ natBE 1 1 ++ natBE 10 T ++ zeros 2 ++ entryInline w ∧ (∀ y ∈ (s.sess r.session).groups, y.group ≠ g)) ∧
    (∃ (s : State) (r : PpRequest) (rest : List PpRequest) (k : Nat) (iv : Nat), Serves s r rest opSubscribe ∧ k < 2 ^ 24 ∧ existsCode k = Res.done ∧ mayRead k = true ∧ (typeAt k).image = false ∧ 40000 ≤ iv ∧ iv < 2 ^ 32 ∧ r.body = natBE 3 k ++ natBE 1 1 ++ natBE 4 iv ∧ (s.sess r.session).subs = []) ∧
    (∃ (s : State) (r : PpRequest) (rest : List PpRequest) (k : Nat) (off : Nat) (total : Nat) (d : Bytes), Serves s r rest opBulk ∧ k < 8 ∧ total ≤ 1048576 ∧ off + d.length ≤ total ∧ r.body = natBE 1 0 ++ natBE 1 k ++ zeros 6 ++ natBE 4 off ++ natBE 4 total ++ d ∧ r.role = 0) ∧
    (∃ (s : State) (r : PpRequest) (rest : List PpRequest) (k : Nat) (off : Nat) (total : Nat) (d : Bytes) (i : Nat) (x : Byte), Serves s r rest opBulk ∧ k < 8 ∧ total ≤ 1048576 ∧ off + d.length ≤ total ∧ r.body = natBE 1 0 ++ natBE 1 k ++ zeros 6 ++ natBE 4 off ++ natBE 4 total ++ d ∧ r.role ≠ 0 ∧ d[i]? = some x) ∧
    (∃ (s : State) (r : PpRequest) (rest : List PpRequest) (k : Nat) (off : Nat) (n : Nat) (b : Bytes), Serves s r rest opBulk ∧ k < 2 ^ 24 ∧ 1 ≤ n ∧ n ≤ 1336 ∧ off < 2 ^ 32 ∧ r.body = natBE 1 1 ++ zeros 1 ++ natBE 3 k ++ zeros 3 ++ natBE 4 off ++ natBE 4 n ∧ (s.withPel { s.pel with queue := rest }).readReceived r.at' k = (Res.done, b) ∧ off < b.length) ∧
    (∃ (s : State) (r : PpRequest) (rest : List PpRequest) (k : Nat), Serves s r rest opBulk ∧ r.role ≠ 0 ∧ k < 8 ∧ r.body = natBE 1 2 ++ natBE 1 k ++ zeros 14) :=
  ⟨⟨asked (req opRead 0 (natBE 1 1 ++ zeros 3 ++ [Key.spanNode].flatMap (fun k => natBE 3 k ++ zeros 1))), req opRead 0 (natBE 1 1 ++ zeros 3 ++ [Key.spanNode].flatMap (fun k => natBE 3 k ++ zeros 1)), [], [Key.spanNode], by unfold Serves; decide +kernel, by decide +kernel⟩,
   ⟨asked (req opWrite 0 (natBE 1 1 ++ zeros 3 ++ natBE 3 (2 ^ 24 - 1) ++ zeros 5)), req opWrite 0 (natBE 1 1 ++ zeros 3 ++ natBE 3 (2 ^ 24 - 1) ++ zeros 5), [], 2 ^ 24 - 1, by unfold Serves; decide +kernel, by decide +kernel⟩,
   ⟨asked (req opWrite 1 (natBE 1 1 ++ zeros 3 ++ natBE 3 Key.abutmentClear ++ zeros 5)), req opWrite 1 (natBE 1 1 ++ zeros 3 ++ natBE 3 Key.abutmentClear ++ zeros 5), [], Key.abutmentClear, (((asked (req opWrite 1 (natBE 1 1 ++ zeros 3 ++ natBE 3 Key.abutmentClear ++ zeros 5))).withPel { (asked (req opWrite 1 (natBE 1 1 ++ zeros 3 ++ natBE 3 Key.abutmentClear ++ zeros 5))).pel with queue := [] }).writeImmediate { key := Key.abutmentClear, ty := 0, value := [] }).1, (((asked (req opWrite 1 (natBE 1 1 ++ zeros 3 ++ natBE 3 Key.abutmentClear ++ zeros 5))).withPel { (asked (req opWrite 1 (natBE 1 1 ++ zeros 3 ++ natBE 3 Key.abutmentClear ++ zeros 5))).pel with queue := [] }).writeImmediate { key := Key.abutmentClear, ty := 0, value := [] }).2, by unfold Serves; decide +kernel, by decide +kernel⟩,
   ⟨asked (req opCommit 0 ([])), req opCommit 0 ([]), [], by unfold Serves; decide +kernel, by decide +kernel⟩,
   ⟨asked (req opCommit 1 (natBE 1 1 ++ zeros 2 ++ natBE 1 1 ++ natBE 10 (2 ^ 80 - 1) ++ zeros 2 ++ entryInline { key := Key.ppsEdge, ty := (tyOf Key.ppsEdge).code, value := [1] })), req opCommit 1 (natBE 1 1 ++ zeros 2 ++ natBE 1 1 ++ natBE 10 (2 ^ 80 - 1) ++ zeros 2 ++ entryInline { key := Key.ppsEdge, ty := (tyOf Key.ppsEdge).code, value := [1] }), [], 1, 2 ^ 80 - 1, { key := Key.ppsEdge, ty := (tyOf Key.ppsEdge).code, value := [1] }, by unfold Serves; decide +kernel, by decide +kernel⟩,
   ⟨asked (req opSubscribe 0 (natBE 3 Key.spanNode ++ natBE 1 1 ++ natBE 4 40000)), req opSubscribe 0 (natBE 3 Key.spanNode ++ natBE 1 1 ++ natBE 4 40000), [], Key.spanNode, 40000, by unfold Serves; decide +kernel, by decide +kernel⟩,
   ⟨asked (req opBulk 0 (natBE 1 0 ++ natBE 1 7 ++ zeros 6 ++ natBE 4 0 ++ natBE 4 1 ++ [1])), req opBulk 0 (natBE 1 0 ++ natBE 1 7 ++ zeros 6 ++ natBE 4 0 ++ natBE 4 1 ++ [1]), [], 7, 0, 1, [1], by unfold Serves; decide +kernel, by decide +kernel⟩,
   ⟨asked (req opBulk 1 (natBE 1 0 ++ natBE 1 7 ++ zeros 6 ++ natBE 4 0 ++ natBE 4 1 ++ [1])), req opBulk 1 (natBE 1 0 ++ natBE 1 7 ++ zeros 6 ++ natBE 4 0 ++ natBE 4 1 ++ [1]), [], 7, 0, 1, [1], 0, 1, by unfold Serves; decide +kernel, by decide +kernel⟩,
   ⟨asked (req opBulk 0 (natBE 1 1 ++ zeros 1 ++ natBE 3 Key.spanNode ++ zeros 3 ++ natBE 4 1 ++ natBE 4 1336)), req opBulk 0 (natBE 1 1 ++ zeros 1 ++ natBE 3 Key.spanNode ++ zeros 3 ++ natBE 4 1 ++ natBE 4 1336), [], Key.spanNode, 1, 1336, ((w []).readObject Key.spanNode).2, by unfold Serves; decide +kernel, by decide +kernel⟩,
   ⟨asked (req opBulk 1 (natBE 1 2 ++ natBE 1 7 ++ zeros 14)), req opBulk 1 (natBE 1 2 ++ natBE 1 7 ++ zeros 14), [], 7, by unfold Serves; decide +kernel, by decide +kernel⟩⟩

theorem witness_PelpinSessions :
    (∃ (s : State) (r : PpRequest) (rest : List PpRequest) (slot : Nat) (q : Nat × Nat), s.pel.queue = r :: rest ∧ s.fwReady = true ∧ r.op = opOpen ∧ r.origin = none ∧ r.bad = false ∧ r.session = 0 ∧ r.body.length = 133 ∧ pointOf ((r.body.drop 4).take 97) = some q ∧ beAt r.body 0 1 = slot ∧ slot ≤ 7 ∧ beAt r.body 1 3 = 0 ∧ s.obj (Key.ppKey slot) = 0) ∧
    (∃ (s : State) (r : PpRequest) (rest : List PpRequest) (slot : Nat) (q : Nat × Nat), s.pel.queue = r :: rest ∧ s.fwReady = true ∧ r.op = opOpen ∧ r.origin = none ∧ r.bad = false ∧ r.session = 0 ∧ r.body.length = 133 ∧ pointOf ((r.body.drop 4).take 97) = some q ∧ beAt r.body 0 1 = slot ∧ slot ≤ 7 ∧ beAt r.body 1 3 = 0 ∧ s.obj (Key.ppKey slot) ≠ 0 ∧ (∀ n, 1 ≤ n → n ≤ 16 → s.obj (Key.ppSessState n) ≠ 0)) ∧
    (∃ (s : State) (r : PpRequest) (rest : List PpRequest) (slot : Nat) (q : Nat × Nat), s.pel.queue = r :: rest ∧ s.fwReady = true ∧ r.op = opOpen ∧ r.origin = none ∧ r.bad = false ∧ r.session = 0 ∧ r.body.length = 133 ∧ pointOf ((r.body.drop 4).take 97) = some q ∧ beAt r.body 0 1 = slot ∧ slot ≤ 7 ∧ beAt r.body 1 3 = 0 ∧ s.obj (Key.ppKey slot) ≠ 0 ∧ s.obj (Key.ppSessState 1) = 0) ∧
    (∃ (s : State) (r : PpRequest) (rest : List PpRequest), s.pel.queue = r :: rest ∧ s.fwReady = true ∧ r.op = opOpen ∧ r.origin = none ∧ r.bad = false ∧ 1 ≤ r.session ∧ r.session ≤ 16 ∧ r.body.length = 96 ∧ s.obj (Key.ppSessState r.session) = 1) ∧
    (∃ (s : State) (r : PpRequest) (rest : List PpRequest), Serves s r rest opClose ∧ 1 ≤ r.session ∧ r.session ≤ 16 ∧ r.body = []) ∧
    (∃ (s : State) (k : Fin 16), s.ready = true ∧ s.obj (Key.ppSessState (k.val + 1)) = 0) ∧
    (∃ (s : State) (k : Fin 16) (j : _), s.ready = true ∧ s.obj (Key.ppSessState (k.val + 1)) ≠ 0 ∧ j ≠ k.val + 1) ∧
    (∃ (s : State) (k : Fin 16), s.obj (Key.ppSessState (k.val + 1)) = 2 ∧ (s.sess (k.val + 1)).validAt + s.obj Key.ppIdle ≤ s.wall) ∧
    (∃ (s : State) (k : Fin 16), s.wall < (s.sess (k.val + 1)).validAt + s.obj Key.ppIdle) ∧
    (∃ (s : State) (k : Fin 16), s.obj (Key.ppSessState (k.val + 1)) = 1 ∧ (s.sess (k.val + 1)).openedAt + 400000000 ≤ s.wall) ∧
    (∃ (s : State) (k : Fin 16) (n : Fin 64) (u : PpSub), s.sessOpen (k.val + 1) = true ∧ s.fwReady = true ∧ (s.sess (k.val + 1)).subs = [(n.val, u)] ∧ u.mode = 2 ∧ u.at' + u.interval ≤ s.wall) :=
  ⟨⟨asked open1 {} [(Key.ppKey 7, 0)], open1, [], 7, g384, by decide +kernel⟩,
   ⟨asked open1 {} ((Key.ppKey 7, 1) :: (List.range 16).map fun i => (Key.ppSessState (i + 1), 2)), open1, [], 7, g384, by decide +kernel, by decide +kernel, by decide +kernel, by decide +kernel, by decide +kernel, by decide +kernel, by decide +kernel, by decide +kernel, by decide +kernel, by decide +kernel, by decide +kernel, by decide +kernel, fun n h1 h2 => (show ∀ n < 17, 1 ≤ n → (asked open1 {} ((Key.ppKey 7, 1) :: (List.range 16).map fun i => (Key.ppSessState (i + 1), 2))).obj (Key.ppSessState n) ≠ 0 by decide +kernel) n (by omega) h1⟩,
   ⟨asked open1 {} [(Key.ppKey 7, 1)], open1, [], 7, g384, by decide +kernel⟩,
   ⟨asked (req opOpen 0 (zeros 96)) {} [(Key.ppSessState 16, 1)], req opOpen 0 (zeros 96), [], by decide +kernel⟩,
   ⟨asked (req opClose 0 ([])), req opClose 0 ([]), [], by unfold Serves; decide +kernel, by decide +kernel⟩,
   ⟨w [up], 15, by decide +kernel⟩,
   ⟨w [up, (Key.ppSessState 16, 2)], 15, 0, by decide +kernel⟩,
   ⟨{ w [(Key.ppSessState 16, 2), (Key.ppIdle, 1)] with wall := 1 }, 15, by decide +kernel⟩,
   ⟨w [(Key.ppIdle, 1)], 15, by decide +kernel⟩,
   ⟨{ w [(Key.ppSessState 16, 1)] with wall := 400000000 }, 15, by decide +kernel⟩,
   ⟨{ w [up, (Key.ppSessState 16, 2)] with wall := 40000, pel := { sessions := [(16, { subs := [(63, ⟨0, 2, 40000, none, 0, 0⟩)] })] } }, 15, 63, ⟨0, 2, 40000, none, 0, 0⟩, by decide +kernel⟩⟩

theorem witness_Network :
    (∃ (s : State) (i : Fin 8), s.obj (Key.netState i.val) ≠ 2) ∧
    (∃ (s : State) (i : Fin 8) (b : Bytes), s.obj (Key.netState i.val) = 2 ∧ s.obj (Key.netVlan i.val) = 0 ∧ (ethFrame b).tag = none ∧ s.obj (Key.netMtu i.val) < (ethFrame b).body.length) ∧
    (∃ (s : State) (i : Fin 8) (b : Bytes) (v : Nat), s.obj (Key.netVlan i.val) = 0 ∧ (ethFrame b).tag = some v) ∧
    (∃ (s : State) (i : Fin 8) (b : Bytes), s.obj (Key.netVlan i.val) ≠ 0 ∧ (ethFrame b).tag ≠ some (s.obj (Key.netVlan i.val))) ∧
    (∃ (s : State) (i : Fin 8) (mac : Nat) (ip : Nat) (tail : Bytes), s.obj (Key.netState i.val) = 2 ∧ s.obj (Key.netVlan i.val) = 0 ∧ s.obj (Key.netIpv4 i.val) ≠ 0 ∧ s.obj (Key.netIpv4 i.val) < 2 ^ 32 ∧ mac < 2 ^ 48 ∧ ip < 2 ^ 32 ∧ tail.length = 18 ∧ 46 ≤ s.obj (Key.netMtu i.val)) ∧
    (∃ (s : State) (i : Fin 8) (n : Nat) (j : _), s.obj (Key.netState i.val) = 2 ∧ n < 256 ∧ (∀ j < 256, j ≠ n → s.obj (Key.vrtInterface j) ≠ i.val) ∧ s.obj (Key.vrtInterface n) = i.val ∧ j ≠ n) ∧
    (∃ (s : State) (i : Fin 8), (∀ n < 256, s.canSend i.val n = false)) ∧
    (∃ (s : State) (i : Fin 8) (n : Nat) (p : VrtPacket) (rest : List VrtPacket) (d : VrtId) (j : _), s.obj (Key.netState i.val) = 2 ∧ n < 256 ∧ s.canSend i.val n = true ∧ (∀ j < 256, s.canSend i.val j = true → j = n) ∧ (s.vrtStream n).queue = p :: rest ∧ (s.vrtStream n).ids = [d] ∧ d.sid = p.sid ∧ j ≠ n) ∧
    (∃ (s : State) (n : Fin 256), s.wall < (s.vrtStream n.val).ctxAt + s.obj Key.vrtCtxInterval) ∧
    (∃ (s : State) (n : Fin 256) (d : VrtId) (vs : List Nat), s.flag (Key.vrtEnable n.val) = true ∧ s.flag (Key.vrtCtx n.val) = true ∧ (s.vrtStream n.val).ctxAt + s.obj Key.vrtCtxInterval ≤ s.wall ∧ (s.vrtStream n.val).ids = [d] ∧ d.sent = some vs ∧ State.queuedBytes (s.vrtStream n.val) + 76 ≤ 524288) ∧
    (∃ (s : State) (p : Fin 2), s.obj Key.taiSource ≠ p.val + 1) ∧
    (∃ (s : State) (p : Fin 2) (rx : KTime), s.obj Key.taiSource = p.val + 1 ∧ 2 ^ 32 ≤ rx) ∧
    (∃ (s : State) (p : Fin 2), s.obj Key.taiSource = p.val + 1 ∧ s.ks.syncRx = none) ∧
    (∃ (s : State) (p : Fin 2) (t2 : KTime) (t3 : KTime), s.obj Key.taiSource = p.val + 1 ∧ s.ks.syncRx = some t2 ∧ s.ks.delayReqAt = some t3) ∧
    (∃ (s : State), s.obj Key.taiSource ≠ 1 ∧ s.obj Key.taiSource ≠ 2) ∧
    (∃ (s : State) (p : Nat), p < 2 ∧ s.obj Key.taiSource = p + 1 ∧ s.obj (Key.netMode p) ≠ 3 ∧ s.obj (Key.netState (4 * p)) = 2) :=
  ⟨⟨w [], 7, by decide +kernel⟩,
   ⟨w [(Key.netState 7, 2), (Key.netMtu 7, 0)], 7, zeros 15, by decide +kernel⟩,
   ⟨w [], 7, zeros 12 ++ natBE 2 0x8100 ++ natBE 2 5 ++ zeros 48, 5, by decide +kernel⟩,
   ⟨w [(Key.netVlan 7, 1)], 7, zeros 64, by decide +kernel⟩,
   ⟨w [(Key.netState 7, 2), (Key.netIpv4 7, 2 ^ 32 - 1), (Key.netMtu 7, 46)], 7, 2 ^ 48 - 1, 2 ^ 32 - 1, zeros 18, by decide +kernel⟩,
   ⟨w [(Key.netState 7, 2), (Key.vrtInterface 255, 7)], 7, 255, 0, by decide +kernel⟩,
   ⟨w [], 7, by decide +kernel⟩,
   ⟨{ w [(Key.netState 7, 2), (Key.vrtEnable 255, 1), (Key.vrtInterface 255, 7)] with net := { streams := [(255, { queue := [{ sid := 5, cls := 0, flags := 0, spectral := false, k := 0, body := [] }], credit := 2 ^ 40, ids := [{ sid := 5 }] })] } }, 7, 255, { sid := 5, cls := 0, flags := 0, spectral := false, k := 0, body := [] }, [], { sid := 5 }, 0, by decide +kernel⟩,
   ⟨w [(Key.vrtCtxInterval, 1)], 255, by decide +kernel⟩,
   ⟨{ w [(Key.vrtEnable 255, 1), (Key.vrtCtx 255, 1), (Key.vrtCtxInterval, 1)] with wall := 1, net := { streams := [(255, { ids := [{ sid := 5, sent := some [] }] })] } }, 255, { sid := 5, sent := some [] }, [], by decide +kernel⟩,
   ⟨w [], 1, by decide +kernel⟩,
   ⟨w [(Key.taiSource, 2)], 1, 2 ^ 32, by decide +kernel⟩,
   ⟨w [(Key.taiSource, 2)], 1, by decide +kernel⟩,
   ⟨{ w [(Key.taiSource, 2)] with ks := { syncRx := some 1, delayReqAt := some 2 } }, 1, 1, 2, by decide +kernel⟩,
   ⟨w [], by decide +kernel⟩,
   ⟨w [(Key.taiSource, 2), (Key.netMode 1, 1), (Key.netState 4, 2)], 1, by decide +kernel⟩⟩

theorem witness_RecordsIntoPackets : ∃ (n : Nat) (r : VrtRecord) (ps : List VrtPacket) (i : Nat) (p : VrtPacket), 1 ≤ n ∧ r.first ≠ [] ∧ r.sid < 2 ^ 32 ∧ ps = recordPackets n r ∧ ps[i]? = some p ∧ i + 1 < ps.length :=
  ⟨1, { sid := 2 ^ 32 - 1, format := 0, flags := 0, spectral := false, k := 0, first := [0, 0], port := 0 }, recordPackets 1 { sid := 2 ^ 32 - 1, format := 0, flags := 0, spectral := false, k := 0, first := [0, 0], port := 0 }, 0, (recordPackets 1 { sid := 2 ^ 32 - 1, format := 0, flags := 0, spectral := false, k := 0, first := [0, 0], port := 0 }).headD { sid := 5, cls := 0, flags := 0, spectral := false, k := 0, body := [] }, by decide +kernel⟩

theorem witness_TrailerIndicators : ∃ (s : State) (n : Nat) (p : VrtPacket) (rest : List VrtPacket), (s.vrtStream n).queue = p :: rest ∧ p.context = false :=
  ⟨{ w [] with net := { streams := [(255, { queue := [{ sid := 5, cls := 0, flags := 0, spectral := false, k := 0, body := [] }] })] } }, 255, { sid := 5, cls := 0, flags := 0, spectral := false, k := 0, body := [] }, [], by decide +kernel⟩

theorem witness_TrussMessages :
    (∃ (s : State) (p : Fin 4) (c : Fin 3) (q : BitVec 8) (b : Bytes), s.trussUp p.val = true ∧ c.val ≠ 1 ∧ (State.packetOk c.val b = false ∨ q.toNat ≠ ((s.trussClass p.val c.val).delivered + 1) % 256)) ∧
    (∃ (s : State) (p : Fin 4), s.obj (Key.trussState p.val) ∉ [1, 2, 3]) ∧
    (∃ (s : State) (p : Fin 4) (c : Fin 3) (l1 : List TrussKept) (l2 : List TrussKept) (k : TrussKept), s.trussUp p.val = true ∧ (s.trussClass p.val c.val).kept = l1 ++ k :: l2 ∧ k.seq < 256 ∧ (∀ x ∈ l1, x.seq ≠ k.seq) ∧ (s.trussClass p.val c.val).waiting = []) ∧
    (∃ (s : State) (p : Fin 4) (c : Fin 3), ((s.trussClass p.val c.val).kept = [] ∨ s.wall < (s.trussClass p.val c.val).ackAt + 400)) ∧
    (∃ (s : State) (p : Fin 4) (c : Fin 3), (s.trussClass p.val c.val).kept ≠ [] ∧ (s.trussClass p.val c.val).ackAt + 400 ≤ s.wall) ∧
    (∃ (s : State) (p : Fin 4) (q : BitVec 8) (c : Nat) (ev : Bytes), s.trussUp p.val = true ∧ (∀ j < 4, j ≠ p.val → s.trussUp j = false) ∧ (s.broadcastPorts true 0 (some p.val)).all (· != p.val) = true ∧ (s.broadcastPorts false 0 (some p.val)).all (· != p.val) = true ∧ c < 64 ∧ ev.length = 32 ∧ q.toNat = ((s.trussClass p.val 0).delivered + 1) % 256 ∧ s.objAt (Key.rtrigFrom c) (State.eventOf ev).time ≠ 0) ∧
    (∃ (s : State) (p : Fin 4) (q : BitVec 8) (ts : KTime), s.trussUp p.val = true ∧ (∀ j < 4, j ≠ p.val → s.trussUp j = false) ∧ (s.broadcastPorts true 0 (some p.val)).all (· != p.val) = true ∧ (s.broadcastPorts false 0 (some p.val)).all (· != p.val) = true ∧ ts < 2 ^ 80 ∧ q.toNat = ((s.trussClass p.val 0).delivered + 1) % 256 ∧ s.flag Key.spanSyncAccept = true ∧ s.time + 16 * tick ≤ ts) ∧
    (∃ (s : State) (p : Fin 4) (q : BitVec 8) (ts : KTime), s.trussUp p.val = true ∧ (∀ j < 4, j ≠ p.val → s.trussUp j = false) ∧ (s.broadcastPorts true 0 (some p.val)).all (· != p.val) = true ∧ (s.broadcastPorts false 0 (some p.val)).all (· != p.val) = true ∧ ts < 2 ^ 80 ∧ q.toNat = ((s.trussClass p.val 0).delivered + 1) % 256 ∧ s.flag Key.spanSyncAccept = true ∧ ts < s.time + 16 * tick) ∧
    (∃ (s : State) (p : Fin 4) (q : BitVec 8) (l : Nat), s.trussUp p.val = true ∧ (∀ j < 4, j ≠ p.val → s.trussUp j = false) ∧ (s.broadcastPorts true 0 (some p.val)).all (· != p.val) = true ∧ (s.broadcastPorts false 0 (some p.val)).all (· != p.val) = true ∧ l < 5 ∧ q.toNat = ((s.trussClass p.val 1).delivered + 1) % 256 ∧ s.laneIn p.val l = true) ∧
    (∃ (s : State) (p : Fin 4) (q : BitVec 8) (o : Nat) (id : Nat) (role : Nat) (op : Nat) (body : Bytes), s.trussUp p.val = true ∧ (∀ j < 4, j ≠ p.val → s.trussUp j = false) ∧ (s.broadcastPorts true 0 (some p.val)).all (· != p.val) = true ∧ (s.broadcastPorts false 0 (some p.val)).all (· != p.val) = true ∧ o < 2 ^ 16 ∧ id < 2 ^ 32 ∧ role < 2 ∧ op ∈ [1, 2, 3, 6] ∧ body.length ≤ 1024 ∧ body.length % 8 = 2 ∧ s.obj Key.spanNode < 512 ∧ q.toNat = ((s.trussClass p.val 2).delivered + 1) % 256 ∧ s.span.kept = [] ∧ s.span.bodies = [] ∧ s.pel.queue = []) :=
  ⟨⟨w [(Key.trussState 3, 2)], 3, 2, 0#8, [], by decide +kernel⟩,
   ⟨w [], 3, by decide +kernel⟩,
   ⟨{ w [(Key.trussState 3, 2)] with span := { ports := [(3, { cls := [(2, { kept := [⟨255, []⟩] })] })] } }, 3, 2, [], [], ⟨255, []⟩, by decide +kernel⟩,
   ⟨w [], 3, 2, by decide +kernel⟩,
   ⟨{ w [] with wall := 400, span := { ports := [(3, { cls := [(2, { kept := [⟨255, []⟩] })] })] } }, 3, 2, by decide +kernel⟩,
   ⟨w [(Key.trussState 3, 2), (Key.rtrigFrom 63, 1)], 3, 0#8, 63, zeros 32, by decide +kernel⟩,
   ⟨w [(Key.trussState 3, 2), (Key.spanSyncAccept, 1)], 3, 0#8, 16 * tick, by decide +kernel⟩,
   ⟨w [(Key.trussState 3, 2), (Key.spanSyncAccept, 1)], 3, 0#8, 16 * tick - 1, by decide +kernel⟩,
   ⟨w [(Key.trussState 3, 2), (Key.trussLaneState 3, 0x0101010101)], 3, 0#8, 4, by decide +kernel⟩,
   ⟨w [(Key.trussState 3, 2), (Key.spanNode, 511)], 3, 0#8, 65535, 2 ^ 32 - 1, 1, 6, zeros 1018, by decide +kernel⟩⟩

theorem witness_TrussLanes :
    (∃ (s : State) (p : Fin 4) (l : Fin 5), s.laneIn p.val l.val = false) ∧
    (∃ (s : State) (p : Fin 4) (l : Fin 5), s.trussUp p.val = true ∧ s.laneIn p.val l.val = true ∧ (s.logicalLanes p.val) = [l.val]) ∧
    (∃ (s : State) (p : Fin 4), (s.trussPort p.val).joining = none) ∧
    (∃ (s : State) (p : Fin 4) (w : Nat), (s.trussPort p.val).joining = some w ∧ (∀ l < 4, s.laneState p.val l ≠ 3) ∧ s.laneState p.val 4 = 3 ∧ s.obj (Key.trussState p.val) = 3 ∧ (s.logicalLanes p.val).length = 3) ∧
    (∃ (s : State) (p : Fin 4) (l : Fin 5) (k : Nat) (j : Nat), (s.logicalLanes p.val)[l.val]? = some k ∧ l.val ≠ 0 ∧ s.trussUp p.val = true ∧ s.laneState p.val k = 1 ∧ s.obj Key.trussSleepIdle ≠ 0 ∧ (s.trussPort p.val).dataAt + s.obj Key.trussSleepIdle ≤ s.wall ∧ j ≠ k ∧ j < 5) ∧
    (∃ (s : State) (p : Fin 4) (l : Fin 5) (k : Nat) (j : Nat), (s.logicalLanes p.val)[l.val]? = some k ∧ s.laneState p.val k = 2 ∧ (s.trussClass p.val 2).kept ≠ [] ∧ j ≠ k ∧ j < 5) ∧
    (∃ (s : State) (p : Fin 4), (s.trussClass p.val 2).kept = [] ∧ (s.trussClass p.val 2).waiting = []) ∧
    (∃ (s : State) (p : Fin 4) (n : Nat), s.ready = true ∧ s.neighbourOf p.val = some n ∧ s.flag Key.trussStandby = false) ∧
    (∃ (s : State) (p : Fin 4), (s.obj (Key.trussState p.val) = 0 ∨ s.obj (Key.trussState p.val) = 4)) ∧
    (∃ (s : State) (p : Fin 4) (l : Fin 5) (f : BitVec 16) (ok : Bool) (x : TrussLane), s.trussUp p.val = true ∧ s.laneIn p.val l.val = true ∧ x = tabGet {} (s.trussPort p.val).lanes l.val ∧ x.alignAt ≠ 0 ∧ f.toNat = (x.frame + 1) % 65536 ∧ ((((!ok) :: x.crcs).take 16).filter id).length < 4) ∧
    (∃ (s : State) (p : Fin 4) (l : Fin 5) (ok : Bool) (x : TrussLane), s.trussUp p.val = true ∧ s.laneIn p.val l.val = true ∧ x = tabGet {} (s.trussPort p.val).lanes l.val ∧ 4 ≤ ((((!ok) :: x.crcs).take 16).filter id).length) :=
  ⟨⟨w [], 3, 4, by decide +kernel⟩,
   ⟨w [(Key.trussState 3, 2), (Key.trussLaneState 3, 0x0100000000)], 3, 4, by decide +kernel⟩,
   ⟨w [], 3, by decide +kernel⟩,
   ⟨{ w [(Key.trussState 3, 3), (Key.trussLaneState 3, 0x0300010101)] with span := { ports := [(3, { joining := some 4 })] } }, 3, 4, by decide +kernel⟩,
   ⟨{ w [(Key.trussState 3, 2), (Key.trussLaneState 3, 0x0101010101), (Key.trussSleepIdle, 1)] with wall := 1 }, 3, 4, 4, 0, by decide +kernel⟩,
   ⟨{ w [(Key.trussLaneState 3, 0x0201010101)] with span := { ports := [(3, { cls := [(2, { kept := [⟨255, []⟩] })] })] } }, 3, 4, 4, 0, by decide +kernel⟩,
   ⟨w [], 3, by decide +kernel⟩,
   ⟨w [up, (Key.spanX, 1), (Key.spanY, 2), (Key.spanCount, 1), (Key.spanNode, 0)], 3, 8, by decide +kernel⟩,
   ⟨w [], 3, by decide +kernel⟩,
   ⟨{ w [(Key.trussState 3, 2), (Key.trussLaneState 3, 0x0101010101)] with span := { ports := [(3, { lanes := [(4, { alignAt := 1, frame := 65535, crcs := [true, true] })] })] } }, 3, 4, 0#16, false, { alignAt := 1, frame := 65535, crcs := [true, true] }, by decide +kernel⟩,
   ⟨{ w [(Key.trussState 3, 2), (Key.trussLaneState 3, 0x0101010101)] with span := { ports := [(3, { lanes := [(4, { crcs := [true, true, true] })] })] } }, 3, 4, false, { crcs := [true, true, true] }, by decide +kernel⟩⟩

theorem witness_UnicastRoutes : ∃ (s : State) (d : Nat), s.obj Key.spanState ≠ 3 ∧ s.isNode (s.obj Key.spanNode) = true ∧ s.isNode d = true ∧ s.obj Key.spanX ≤ 8 ∧ s.obj Key.spanY ≤ 8 ∧ s.obj Key.spanCount ≤ 8 ∧ d ≠ s.obj Key.spanNode :=
  ⟨w [(Key.spanX, 8), (Key.spanY, 8), (Key.spanCount, 8), (Key.spanNode, 0)], 511, by decide +kernel⟩

theorem witness_DisplayHeads :
    (∃ (s : State) (h : Fin 2), s.flag (Key.dispEnable h.val) = true) ∧
    (∃ (s : State) (h : Fin 2), s.flag (Key.dispEnable h.val) = false) ∧
    (∃ (s : State) (h : Fin 2), s.obj (Key.dispState h.val) = 1) ∧
    (∃ (s : State) (h : Fin 2), s.obj (Key.dispState h.val) ≠ 1) ∧
    (∃ (s : State) (h : Fin 2), s.obj (Key.dispState h.val) = 3 ∧ (s.head h.val).retryAt + 400000000 ≤ s.wall ∧ (s.head h.val).hpd = false) ∧
    (∃ (s : State) (h : Fin 2), (s.obj (Key.dispState h.val) ≠ 3 ∨ s.wall < (s.head h.val).retryAt + 400000000)) ∧
    (∃ (s : State) (h : Fin 2), (s.flag (Key.dispEnable h.val) = false ∨ (s.head h.val).inFrame = true)) ∧
    (∃ (s : State) (h : Fin 2), s.flag (Key.dispEnable h.val) = true ∧ (s.head h.val).inFrame = false ∧ s.time < 2 ^ 79 ∧ (s.head h.val).flipped = true) ∧
    (∃ (s : State) (h : Fin 2), s.flag (Key.dispEnable h.val) = true ∧ (s.head h.val).inFrame = false ∧ s.time < 2 ^ 79 ∧ (s.head h.val).flipped = false) ∧
    (∃ (s : State) (h : Fin 2), (s.flag (Key.dispEnable h.val) = false ∨ (s.head h.val).inFrame = false)) ∧
    (∃ (s : State) (h : Fin 2), s.flag (Key.dispEnable h.val) = true ∧ (s.head h.val).inFrame = true ∧ 1 ≤ s.obj (Key.dispFrame h.val) ∧ s.obj (Key.dispState h.val) ≠ 2) ∧
    (∃ (s : State) (h : Fin 2), s.flag (Key.dispEnable h.val) = true ∧ (s.head h.val).inFrame = true ∧ 1 ≤ s.obj (Key.dispFrame h.val) ∧ s.obj (Key.dispState h.val) = 2) ∧
    (∃ (s : State) (h : Fin 2) (T : KTime), s.due = [(Key.dispFlip h.val, T)] ∧ s.flag (Key.dispEnable h.val) = true ∧ (s.head h.val).asked = false) ∧
    (∃ (s : State) (h : Fin 2) (T : KTime), s.due = [(Key.dispFlip h.val, T)] ∧ s.flag (Key.dispEnable h.val) = true ∧ (s.head h.val).asked = true) ∧
    (∃ (s : State) (h : Fin 2), s.flag (Key.dispEnable h.val) = true ∧ (s.head h.val).inFrame = true ∧ (s.head h.val).abortAt = none) ∧
    (∃ (s : State) (h : Fin 2), (s.head h.val).inFrame = false) :=
  ⟨⟨w [(Key.dispEnable 1, 1)], 1, by decide +kernel⟩,
   ⟨w [], 1, by decide +kernel⟩,
   ⟨w [(Key.dispState 1, 1)], 1, by decide +kernel⟩,
   ⟨w [(Key.dispState 1, 2)], 1, by decide +kernel⟩,
   ⟨{ w [(Key.dispState 1, 3)] with wall := 400000000 }, 1, by decide +kernel⟩,
   ⟨w [], 1, by decide +kernel⟩,
   ⟨w [], 1, by decide +kernel⟩,
   ⟨{ w [(Key.dispEnable 1, 1)] with time := 2 ^ 79 - 1, heads := [(1, { flipped := true })] }, 1, by decide +kernel⟩,
   ⟨{ w [(Key.dispEnable 1, 1)] with time := 2 ^ 79 - 1, heads := [(1, { flipped := false })] }, 1, by decide +kernel⟩,
   ⟨w [], 1, by decide +kernel⟩,
   ⟨{ w [(Key.dispEnable 1, 1), (Key.dispFrame 1, 1)] with heads := [(1, { inFrame := true })] }, 1, by decide +kernel⟩,
   ⟨{ w [(Key.dispEnable 1, 1), (Key.dispFrame 1, 1), (Key.dispState 1, 2)] with heads := [(1, { inFrame := true })] }, 1, by decide +kernel⟩,
   ⟨{ w [(Key.dispEnable 1, 1)] with due := [(Key.dispFlip 1, 9)] }, 1, 9, by decide +kernel⟩,
   ⟨{ w [(Key.dispEnable 1, 1)] with due := [(Key.dispFlip 1, 9)], heads := [(1, { asked := true })] }, 1, 9, by decide +kernel⟩,
   ⟨{ w [(Key.dispEnable 1, 1)] with heads := [(1, { inFrame := true })] }, 1, by decide +kernel⟩,
   ⟨w [], 1, by decide +kernel⟩⟩

theorem witness_PowerAndCalibration :
    (∃ (s : State), (s.ticks % 400 ≠ 0 ∨ s.toll.slotAt = s.ticks + 1 ∨ s.obj Key.suStage = 0)) ∧
    (∃ (s : State) (v : Nat), s.start.released = true ∧ s.obj Key.suStage ≠ 0 ∧ s.ticks % 400 = 0 ∧ s.toll.slotAt ≠ s.ticks + 1 ∧ s.toll.retries < 3 ∧ v = s.obj Key.tolVset ∧ v < 60000 ∧ s.boostWanted = true ∧ s.obj Key.tolAvsState ≠ 2 ∧ s.obj Key.tolDerate ≠ 3 ∧ s.obj Key.tolBoost < 4) ∧
    (∃ (s : State) (v : Nat), s.start.released = true ∧ s.obj Key.suStage ≠ 0 ∧ s.ticks % 400 = 0 ∧ s.toll.slotAt ≠ s.ticks + 1 ∧ s.toll.retries < 3 ∧ v = s.obj Key.tolVset ∧ v < 60000 ∧ s.boostWanted = false ∧ s.toll.removing = false ∧ s.toll.raise = [] ∧ s.obj Key.tolDerate ≠ 3) ∧
    (∃ (s : State) (v : Nat), s.start.released = true ∧ s.obj Key.suStage ≠ 0 ∧ s.ticks % 400 = 0 ∧ s.toll.slotAt ≠ s.ticks + 1 ∧ s.toll.retries < 3 ∧ v = s.obj Key.tolVset ∧ v < 60000 ∧ s.boostWanted = false ∧ s.toll.removing = true) ∧
    (∃ (s : State) (v : Nat), s.start.released = true ∧ s.obj Key.suStage ≠ 0 ∧ s.ticks % 400 = 0 ∧ s.toll.slotAt ≠ s.ticks + 1 ∧ s.toll.retries < 3 ∧ v = s.obj Key.tolVset ∧ v < 60000 ∧ s.obj Key.tolAvsState = 2) ∧
    (∃ (s : State) (v : Nat), s.start.released = true ∧ s.obj Key.suStage ≠ 0 ∧ s.ticks % 400 = 0 ∧ s.toll.slotAt ≠ s.ticks + 1 ∧ s.toll.retries < 3 ∧ v = s.obj Key.tolVset ∧ v < 60000) ∧
    (∃ (s : State), s.start.released = true ∧ 4 ≤ s.obj Key.suStage ∧ s.ticks % 400 = 0 ∧ s.toll.slotAt ≠ s.ticks + 1 ∧ s.toll.retries = 3 ∧ s.obj Key.tolAvsState ≠ 2 ∧ s.toll.readDue = true) ∧
    (∃ (s : State), s.obj Key.tolBoost ≠ 0 ∧ s.boostWanted = false ∧ s.toll.boostAt + 400000 ≤ s.wall) ∧
    (∃ (s : State), (s.boostWanted = true ∨ s.wall < s.toll.boostAt + 400000)) ∧
    (∃ (s : State) (rs : List Int), s.start.released = true ∧ rs.length = 24 ∧ (∀ r ∈ rs, -16384 ≤ r ∧ r < 16384) ∧ s.cal.running = none ∧ (∃ i x, rs[i]? = some x ∧ 460 ≤ x ∧ 1 ≤ tabGet 0 s.toll.hot i)) ∧
    (∃ (s : State) (rs : List Int), s.start.released = true ∧ rs.length = 24 ∧ (∀ r ∈ rs, -16384 ≤ r ∧ r < 16384) ∧ s.cal.running = none ∧ (∀ r ∈ rs, r < 460) ∧ s.obj Key.tolDerate = 0 ∧ (∃ r ∈ rs, 4 * (s.obj Key.tolThermLimit : Int) ≤ r)) ∧
    (∃ (s : State) (rs : List Int), s.start.released = true ∧ rs.length = 24 ∧ (∀ r ∈ rs, -16384 ≤ r ∧ r < 16384) ∧ s.cal.running = none ∧ (∀ r ∈ rs, r < 460 ∧ r < 4 * (s.obj Key.tolThermLimit : Int))) ∧
    (∃ (s : State), s.wall < s.toll.stepAt + 400000) ∧
    (∃ (s : State), (s.obj Key.tolDerate = 0 ∨ s.obj Key.tolDerate = 3)) ∧
    (∃ (s : State), s.obj Key.tolDerate = 1 ∧ s.toll.stepAt + 400000 ≤ s.wall ∧ 4 * (s.obj Key.tolThermLimit : Int) ≤ s.objI Key.tolTempMax) ∧
    (∃ (s : State), s.obj Key.tolDerate = 2 ∧ s.toll.stepAt + 400000 ≤ s.wall) ∧
    (∃ (s : State), (s.cal.running.isSome = true ∨ s.obj Key.fwSwapState = 2)) ∧
    (∃ (s : State) (u : Nat) (i : Nat), s.cal.running = none ∧ s.cal.full = none ∧ s.obj Key.fwSwapState ≠ 2 ∧ 2 ≤ s.obj Key.suStage ∧ s.obj Key.suStage ≠ 6 ∧ s.nextCal = some (u, i) ∧ u ≠ 0 ∧ u < 6 ∧ i < 128 ∧ (u = 4 → s.monRunningAt s.ticks = false)) ∧
    (∃ (s : State), s.cal.running = none) ∧
    (∃ (s : State) (o : Nat), s.cal.running = some (3, 0) ∧ s.cal.full = none ∧ s.cal.startedAt ≤ s.wall ∧ (s.calItem 3 0).codes = [o] ∧ (s.calItem 3 0).waiting = none ∧ s.time < 2 ^ 80 ∧ 2 ≤ (s.calItem 3 0).fails) ∧
    (∃ (s : State) (u : Fin 6) (i : Fin 128), s.wall < (s.calItem u.val i.val).applied + 4 * s.obj (Key.calPeriod u.val)) ∧
    (∃ (s : State) (u : Fin 6) (i : Fin 128), u.val ≠ 0 ∧ u.val ≠ 2 ∧ i.val < calCount u.val ∧ 2 ≤ s.obj Key.suStage ∧ (s.calItem u.val i.val).stale = false ∧ (s.calItem u.val i.val).applied + 4 * s.obj (Key.calPeriod u.val) ≤ s.wall) ∧
    (∃ (s : State), (∀ d ∈ s.due, d.1 ≠ Key.calFull)) ∧
    (∃ (s : State) (T : KTime), s.due = [(Key.calFull, T)] ∧ s.obj Key.fwSwapState ≠ 2) ∧
    (∃ (s : State) (u : Fin 6) (T : KTime), s.due = [(Key.calRun u.val, T)]) ∧
    (∃ (s : State), s.objAt Key.monSource (s.mon.from' * tick) = 0) ∧
    (∃ (s : State) (st : Nat), s.objAt Key.monSource (s.mon.from' * tick) = 1 ∧ st = s.objAt Key.monTimerStart (s.mon.from' * tick) ∧ s.mon.from' ≤ st ∧ s.objAt Key.monDelay (st * tick) = 0 ∧ st % 4 = 0 ∧ st ≤ s.ticks ∧ s.mon.runs = [] ∧ s.mon.latched = false ∧ s.monPaused = false) ∧
    (∃ (s : State), s.mon.runs = [] ∧ s.mon.latched = false) ∧
    (∃ (s : State) (r : MonRun) (input : Int), s.mon.runs = [r] ∧ s.mon.latched = false ∧ r.next < r.seq.length ∧ r.start + 4 * r.next ≤ s.ticks ∧ s.monPaused = false ∧ 0 ≤ input ∧ input < 1048448) ∧
    (∃ (s : State) (r : MonRun) (input : Int), s.mon.runs = [r] ∧ s.mon.latched = false ∧ r.next < r.seq.length ∧ r.start + 4 * r.next ≤ s.ticks ∧ s.monPaused = false ∧ 1048448 ≤ input) ∧
    (∃ (s : State) (c : MonCode) (rest : List MonCode), s.mon.codes = c :: rest ∧ s.ticks < c.edge + 32) ∧
    (∃ (s : State) (c : MonCode) (rest : List MonCode) (i : Nat), s.mon.codes = c :: rest ∧ c.edge + 32 ≤ s.ticks ∧ c.input < 16 ∧ c.code < 4096 ∧ c.edge < 2 ^ 64 ∧ (∀ w < 16, s.flagAt (Key.cmpEnable w) (c.edge * tick) = false) ∧ i ≠ c.input ∧ i < 16) ∧
    (∃ (low : Nat) (high : Nat), low ≤ high) :=
  ⟨⟨w [], by decide +kernel⟩,
   ⟨{ w [(Key.suStage, 1), (Key.tolVset, 59999), (Key.tolBoost, 3)] with start := { released := true }, ing := { abutments := [(15, { boostRequest := true })] } }, 59999, by decide +kernel⟩,
   ⟨{ w [(Key.suStage, 1), (Key.tolVset, 59999)] with start := { released := true } }, 59999, by decide +kernel⟩,
   ⟨{ w [(Key.suStage, 1), (Key.tolVset, 59999)] with start := { released := true }, toll := { removing := true } }, 59999, by decide +kernel⟩,
   ⟨{ w [(Key.suStage, 1), (Key.tolVset, 59999), (Key.tolAvsState, 2)] with start := { released := true } }, 59999, by decide +kernel⟩,
   ⟨{ w [(Key.suStage, 1), (Key.tolVset, 59999)] with start := { released := true } }, 59999, by decide +kernel⟩,
   ⟨{ w [(Key.suStage, 4), (Key.tolVset)] with start := { released := true }, toll := { retries := 3, readDue := true } }, by decide +kernel⟩,
   ⟨{ w [(Key.tolBoost, 4)] with wall := 400000 }, by decide +kernel⟩,
   ⟨{ w [] with wall := 399999 }, by decide +kernel⟩,
   ⟨{ w [] with start := { released := true }, toll := { hot := [(23, 1)] } }, List.replicate 23 0 ++ [460], by decide +kernel, by decide +kernel, by decide +kernel, by decide +kernel, 23, 460, by decide +kernel⟩,
   ⟨{ w [] with start := { released := true } }, List.replicate 24 420, by decide +kernel⟩,
   ⟨{ w [] with start := { released := true } }, List.replicate 24 419, by decide +kernel⟩,
   ⟨{ w [] with wall := 399999 }, by decide +kernel⟩,
   ⟨w [(Key.tolDerate, 3)], by decide +kernel⟩,
   ⟨{ w [(Key.tolDerate, 1), (Key.tolTempMax, 420)] with wall := 400000 }, by decide +kernel⟩,
   ⟨{ w [(Key.tolDerate, 2)] with wall := 400000 }, by decide +kernel⟩,
   ⟨{ w [] with cal := { running := some (3, 0) } }, by decide +kernel⟩,
   ⟨w ((Key.suStage, 2) :: (List.range 68).map fun i => (Key.girderState i, 3)), 1, 0, by decide +kernel⟩,
   ⟨w [], by decide +kernel⟩,
   ⟨{ w [] with time := 2 ^ 80 - 1, cal := { running := some (3, 0), items := [(768, { codes := [500], fails := 2 })] } }, 500, by decide +kernel⟩,
   ⟨w [], 5, 23, by decide +kernel⟩,
   ⟨{ w [(Key.suStage, 2)] with wall := 16000000000 }, 5, 23, by decide +kernel⟩,
   ⟨w [], by decide +kernel⟩,
   ⟨{ w [] with due := [(Key.calFull, 9)] }, 9, by decide +kernel⟩,
   ⟨{ w [] with due := [(Key.calRun 5, 9)] }, 5, 9, by decide +kernel⟩,
   ⟨w [(Key.monSource, 0)], by decide +kernel⟩,
   ⟨{ w [(Key.monSource, 1), (Key.monTimerStart, 400), (Key.monDelay, 0)] with time := 400 * tick }, 400, by decide +kernel⟩,
   ⟨w [], by decide +kernel⟩,
   ⟨{ w [] with mon := { runs := [{ start := 0, seq := [15] }] } }, { start := 0, seq := [15] }, 1048447, by decide +kernel⟩,
   ⟨{ w [] with mon := { runs := [{ start := 0, seq := [15] }] } }, { start := 0, seq := [15] }, 1048448, by decide +kernel⟩,
   ⟨{ w [] with time := 31 * tick, mon := { codes := [{ edge := 0, input := 15, code := 4095, ovr := true, settling := true, stale := false }] } }, { edge := 0, input := 15, code := 4095, ovr := true, settling := true, stale := false }, [], by decide +kernel⟩,
   ⟨{ w [] with time := 32 * tick, mon := { codes := [{ edge := 0, input := 15, code := 4095, ovr := true, settling := true, stale := false }] } }, { edge := 0, input := 15, code := 4095, ovr := true, settling := true, stale := false }, [], 0, by decide +kernel⟩,
   ⟨5, 5, by decide +kernel⟩⟩

theorem witness_SecurityCommands :
    (∃ (s : State), s.ready = true ∧ (s.obj Key.fwLoadState = 1 ∨ s.obj Key.fwLoadState = 2 ∨ s.obj Key.fwSwapState ≠ 0)) ∧
    (∃ (s : State) (a : Nat) (n : Nat), s.ready = true ∧ s.obj Key.fwLoadState ≠ 1 ∧ s.obj Key.fwLoadState ≠ 2 ∧ s.obj Key.fwSwapState = 0 ∧ (s.fixedEnd < a + n ∨ n < 273 ∨ 12582912 < n)) ∧
    (∃ (s : State) (a : Nat) (n : Nat), s.ready = true ∧ s.obj Key.fwLoadState ≠ 1 ∧ s.obj Key.fwLoadState ≠ 2 ∧ s.obj Key.fwSwapState = 0 ∧ a + n ≤ s.fixedEnd ∧ 273 ≤ n ∧ n ≤ 12582912) ∧
    (∃ (s : State), s.outstanding .firmware = true) ∧
    (∃ (s : State) (a : Nat) (n : Nat) (c : Code), s.sec.load = some (a, n) ∧ s.obj Key.fwLoadState = 1 ∧ s.outstanding .firmware = false ∧ checkImage (natLE 48 (s.obj Key.secRootHash)) (s.obj Key.secSvn) (s.takeRead .firmware a n).1.1 = c ∧ c ≠ Res.done) ∧
    (∃ (s : State), s.obj Key.fwLoadState ≠ 1) ∧
    (∃ (b : Bytes) (c : Nat), leNat ((b.drop 7).take 1) < c) ∧
    (∃ (s : State), s.obj Key.fwLoadState = 2 ∧ s.sec.loadKind = 2) ∧
    (∃ (s : State), s.obj Key.fwSwapState = 1) ∧
    (∃ (s : State), s.obj Key.fwSwapState = 2 ∧ s.obj Key.fwActive ≤ 1) ∧
    (∃ (s : State), s.obj Key.fwSwapState = 2 ∧ s.sec.swapAt + 200000 ≤ s.wall) ∧
    (∃ (s : State), s.wall < s.sec.swapAt + 200000) ∧
    (∃ (s : State), s.ready = true ∧ s.obj Key.fwSvn ≤ 127 ∧ s.obj Key.secSvn = s.obj Key.fwSvn) ∧
    (∃ (s : State), s.ready = true ∧ s.obj Key.fwSvn ≤ 127 ∧ s.obj Key.secSvn ≠ s.obj Key.fwSvn ∧ (s.sec.svns.1 < s.obj Key.fwSvn ∨ s.sec.svns.2 < s.obj Key.fwSvn)) ∧
    (∃ (s : State), s.ready = true ∧ s.obj Key.fwSvn ≤ 127 ∧ s.obj Key.secSvn ≠ s.obj Key.fwSvn ∧ s.obj Key.fwSvn ≤ s.sec.svns.1 ∧ s.obj Key.fwSvn ≤ s.sec.svns.2) ∧
    (∃ (s : State), s.ready = true ∧ s.obj Key.attState = 1) ∧
    (∃ (s : State) (n : Bytes), s.ready = true ∧ s.obj Key.attState ≠ 1 ∧ n.length = 32) ∧
    (∃ (s : State), (s.obj Key.attState ≠ 1 ∨ ∃ x ∈ s.recd.segments, x.stage = 1 ∧ x.id ∈ s.sec.signAfter)) ∧
    (∃ (s : State), s.obj Key.attState = 1 ∧ s.sec.report.length = 400 ∧ (∀ x ∈ s.recd.segments, x.stage = 1 → x.id ∉ s.sec.signAfter)) ∧
    (∃ (s : State), s.ready = true) ∧
    (∃ (s : State), s.wall < s.sec.scrubAt + 400000000) ∧
    (∃ (s : State), s.sec.scrubAt + 400000000 ≤ s.wall) ∧
    (∃ (s : State) (w : Nat), s.cond.excursionUntil = some w ∧ s.wall < w) ∧
    (∃ (s : State) (w : Nat), s.cond.excursionUntil = some w ∧ w ≤ s.wall) :=
  ⟨⟨w [up, (Key.fwLoadState, 2)], by decide +kernel⟩,
   ⟨w [up, (Key.memFixedSize, 2 ^ 24)], 0, 272, by decide +kernel⟩,
   ⟨w [up, (Key.memFixedSize, 12582912)], 0, 12582912, by decide +kernel⟩,
   ⟨{ w [] with mem := { waiting := [{ wr0 with owner := .firmware }] } }, by decide +kernel⟩,
   ⟨{ w [(Key.fwLoadState, 1)] with sec := { load := some (0, 271) } }, 0, 271, Res.range, by decide +kernel⟩,
   ⟨w [], by decide +kernel⟩,
   ⟨zeros 7 ++ [126], 127, by decide +kernel⟩,
   ⟨{ w [(Key.fwLoadState, 2)] with sec := { loadKind := 2 } }, by decide +kernel⟩,
   ⟨w [(Key.fwSwapState, 1)], by decide +kernel⟩,
   ⟨w [(Key.fwSwapState, 2), (Key.fwActive, 1)], by decide +kernel⟩,
   ⟨{ w [(Key.fwSwapState, 2)] with wall := 200000 }, by decide +kernel⟩,
   ⟨{ w [(Key.fwSwapState, 2)] with wall := 199999 }, by decide +kernel⟩,
   ⟨w [up, (Key.fwSvn, 127), (Key.secSvn, 127)], by decide +kernel⟩,
   ⟨{ w [up, (Key.fwSvn, 127), (Key.secSvn, 0)] with sec := { svns := (127, 126) } }, by decide +kernel⟩,
   ⟨{ w [up, (Key.fwSvn, 127), (Key.secSvn, 0)] with sec := { svns := (127, 127) } }, by decide +kernel⟩,
   ⟨w [up, (Key.attState, 1)], by decide +kernel⟩,
   ⟨w [up], zeros 32, by decide +kernel⟩,
   ⟨w [], by decide +kernel⟩,
   ⟨{ w [(Key.attState, 1)] with sec := { report := zeros 400 } }, by decide +kernel⟩,
   ⟨w [up], by decide +kernel⟩,
   ⟨{ w [] with wall := 399999999 }, by decide +kernel⟩,
   ⟨{ w [] with wall := 400000000 }, by decide +kernel⟩,
   ⟨{ w [] with cond := { excursionUntil := some 9 }, wall := 8 }, 9, by decide +kernel⟩,
   ⟨{ w [] with cond := { excursionUntil := some 9 }, wall := 9 }, 9, by decide +kernel⟩⟩

theorem witness_StartUp :
    (∃ (s : State), s.obj Key.secSvn < 256) ∧
    (∃ (k : _), k ∉ [Key.secSvn, Key.secSvnLeft, Key.secOwnerKey, Key.secOwnerHash]) ∧
    (∃ (s : State), s.start.released = true) ∧
    (∃ (s : State) (x : Straps), s.start.released = false ∧ (x.spanX.val + 1 ≤ x.nodeId.val % 8 ∨ x.spanY.val + 1 ≤ x.nodeId.val / 8 ∨ x.spanCount.val + 1 ≤ x.spanId.val)) ∧
    (∃ (s : State), (s.start.stopped = true ∨ s.obj Key.suStage ≠ 0 ∨ s.obj Key.ksState = 0)) ∧
    (∃ (s : State) (r : BootReport), s.start.released = true ∧ s.start.stopped = false ∧ s.obj Key.suStage = 0 ∧ s.obj Key.ksState ≠ 0 ∧ (s.bootPasses r 0 = false ∧ s.bootPasses r 1 = false ∨ s.bootPasses r 2 = false ∧ s.bootPasses r 3 = false)) ∧
    (∃ (s : State) (r : BootReport) (b : Bytes), s.start.released = true ∧ s.start.stopped = false ∧ s.obj Key.suStage = 0 ∧ s.obj Key.ksState ≠ 0 ∧ (s.bootPasses r 0 = true ∨ s.bootPasses r 1 = true) ∧ (s.bootPasses r 2 = true ∨ s.bootPasses r 3 = true) ∧ leNat (b.take 4) = 0xFFFFFFFF) ∧
    (∃ (s : State) (r : BootReport) (p : Nat), (s.flashImage r p).svn < s.obj Key.secSvn) ∧
    (∃ (s : State) (p : Nat) (i : Image), tabGet none s.sec.flash p = some i) ∧
    (∃ (b : Bytes), leNat (b.take 4) ≠ 0xFFFFFFFF ∧ leNat (b.take 4) ≠ 0x4F424431) ∧
    (∃ (s : State), s.obj Key.suStage ≠ 1) ∧
    (∃ (s : State), s.obj Key.suStage = 1 ∧ (∀ g < 68, s.obj (Key.girderState g) = girderCalibrating)) ∧
    (∃ (s : State), s.obj Key.suStage = 1 ∧ (∀ g < 68, s.obj (Key.girderState g) = girderCalibrating)) ∧
    (∃ (s : State) (g : Nat), s.obj Key.suStage = 1 ∧ (∀ g < 68, s.obj (Key.girderState g) = girderCalibrating) ∧ g < 68) ∧
    (∃ (s : State), s.obj Key.suStage = 2) ∧
    (∃ (s : State) (r : ChanReport), s.obj Key.suStage = 2 ∧ r.works = true ∧ 1 ≤ r.dimms ∧ r.dimms ≤ 2 ∧ 1 ≤ r.ranks ∧ r.ranks ≤ 2 ∧ r.capacity = r.dimms * r.ranks * 2 ^ 35) ∧
    (∃ (s : State), s.obj Key.suStage ≠ 3) ∧
    (∃ (s : State), s.obj Key.suStage = 3 ∧ s.obj Key.suStageTime + 200000000 * tick ≤ s.time ∧ s.time < 2 ^ 80) :=
  ⟨⟨w [(Key.secSvn, 255)], by decide +kernel⟩,
   ⟨0, by decide +kernel⟩,
   ⟨{ w [] with start := { released := true } }, by decide +kernel⟩,
   ⟨w [], ⟨0, 63, 6, 7, 0⟩, by decide +kernel⟩,
   ⟨w [], by decide +kernel⟩,
   ⟨{ w [(Key.ksState, 1), (Key.secSvn, 127)] with start := { released := true } }, ⟨⟨false, 127, 0, 0⟩, ⟨false, 127, 0, 0⟩, ⟨true, 127, 0, 0⟩, ⟨true, 127, 0, 0⟩, true, 1, 0⟩, by decide +kernel⟩,
   ⟨{ w [(Key.ksState, 1), (Key.secSvn, 127)] with start := { released := true } }, ⟨⟨true, 127, 0, 0⟩, ⟨false, 127, 0, 0⟩, ⟨true, 127, 0, 0⟩, ⟨false, 127, 0, 0⟩, true, 1, 0⟩, List.replicate 4 255, by decide +kernel⟩,
   ⟨w [(Key.secSvn, 127)], ⟨⟨true, 126, 0, 0⟩, ⟨true, 127, 0, 0⟩, ⟨true, 127, 0, 0⟩, ⟨true, 127, 0, 0⟩, true, 1, 0⟩, 0, by decide +kernel⟩,
   ⟨{ w [] with sec := { flash := [(3, some {})] } }, 3, {}, by decide +kernel⟩,
   ⟨zeros 4, by decide +kernel⟩,
   ⟨w [], by decide +kernel⟩,
   ⟨w ((Key.suStage, 1) :: (List.range 68).map fun i => (Key.girderState i, 2)), by decide +kernel⟩,
   ⟨w ((Key.suStage, 1) :: (List.range 68).map fun i => (Key.girderState i, 2)), by decide +kernel⟩,
   ⟨w ((Key.suStage, 1) :: (List.range 68).map fun i => (Key.girderState i, 2)), 67, by decide +kernel⟩,
   ⟨w [(Key.suStage, 2)], by decide +kernel⟩,
   ⟨w [(Key.suStage, 2)], ⟨15, 2, 2, 2 ^ 37, true, 0, 0⟩, by decide +kernel⟩,
   ⟨w [], by decide +kernel⟩,
   ⟨{ w [(Key.suStage, 3)] with time := 2 ^ 80 - 1 }, by decide +kernel⟩⟩

end Sys2Proof.Tests
end

section
/-! The ranges of object indexes (13 R360, Table 13-5). -/

namespace Sys2Proof.Machine

theorem reservedIndex_eq_true {ix : Nat} (h1 : 0x4000 ≤ ix) (h2 : ix ≤ 0x4FFF) : reservedIndex ix = true := by
  simp [reservedIndex, h1, h2]

theorem existsCode_of_reserved {k : Nat} (h : reservedIndex (k / 256) = true) : existsCode k = Res.done := by
  simp [existsCode, h]

theorem mayRead_of_reserved {k : Nat} (h : reservedIndex (k / 256) = true) : mayRead k = true := by
  simp [mayRead, h]

theorem typeAt_of_reserved {k : Nat} (h : reservedIndex (k / 256) = true) : typeAt k = .u32 := by
  simp [typeAt, h]

theorem existsCode_of_not_implemented {k : Nat} (hr : reservedIndex (k / 256) = false) (hi : indexImplemented (k / 256) = false) :
    existsCode k = Res.noObject := by
  simp [existsCode, hr, hi]

/-- The ranges of Table 13-5 outside the reserved one, adjoining ranges joined: at no other index has any range rows. -/
theorem rowsAt_eq_nil {ix : Nat} (h : ∀ r ∈ [(0x1000, 0x16FF), (0x1700, 0x174F), (0x1800, 0x1BFF), (0x2000, 0x2A7F), (0x2B00, 0x2DFF),
    (0x3000, 0x34FF), (0x3500, 0x351F), (0x3600, 0x36FF)], ¬ (r.1 ≤ ix ∧ ix ≤ r.2)) : rowsAt ix = [] := by
  simp only [List.forall_mem_cons, List.not_mem_nil, false_imp_iff, implies_true, and_true] at h
  obtain ⟨h10, h17, h18, h20, h2B, h30, h35, h36⟩ := h
  unfold rowsAt
  repeat rw [if_neg (by omega)]

theorem rowsAt_ne_nil_of_implemented {ix : Nat} (h : indexImplemented ix = true) : rowsAt ix ≠ [] := by
  intro hn
  simp [indexImplemented, hn] at h

namespace State

theorem valueImage_of_reserved (s : State) {k : Nat} (h : reservedIndex (k / 256) = true) : s.valueImage k = zeros 4 := by
  simp [valueImage, h]

theorem readObject_of_reserved (s : State) {k : Nat} (h : reservedIndex (k / 256) = true) : s.readObject k = (Res.done, zeros 4) := by
  simp [readObject, existsCode_of_reserved h, mayRead_of_reserved h, valueImage_of_reserved s h]

theorem checkWrite_of_reserved (s : State) (now : Bool) {w : RawWrite} (h : reservedIndex (w.key / 256) = true) :
    s.checkWrite now w = Res.access := by
  simp [checkWrite, existsCode_of_reserved h, h]

theorem readObject_of_noObject (s : State) {k : Nat} (h : existsCode k = Res.noObject) : s.readObject k = (Res.noObject, []) := by
  simp [readObject, h, show Res.noObject ≠ Res.done by decide]

theorem checkWrite_of_noObject (s : State) (now : Bool) {w : RawWrite} (h : existsCode w.key = Res.noObject) :
    s.checkWrite now w = Res.noObject := by
  simp [checkWrite, h, show Res.noObject ≠ Res.done by decide]

end State

/-- Settles O45: the reserved range answers before any table is looked up, an index without rows has no object, and rows stand in the
ranges of Table 13-5 alone. -/
theorem indexMap : Obligations.IndexMap := by
  unfold Obligations.IndexMap
  refine ⟨fun s ix sub h1 h2 hs => ?_, fun s ix sub hi hn hs => ?_, fun ix hi => ?_⟩
  · have hr : reservedIndex ((256 * ix + sub) / 256) = true := reservedIndex_eq_true (by omega) (by omega)
    exact ⟨s.readObject_of_reserved hr, typeAt_of_reserved hr, fun now _ _ => s.checkWrite_of_reserved now hr⟩
  · have hk : (256 * ix + sub) / 256 = ix := by omega
    have he : existsCode (256 * ix + sub) = Res.noObject :=
      existsCode_of_not_implemented (by rw [hk]; simpa [reservedIndex] using hn) (by rw [hk]; exact hi)
    exact ⟨s.readObject_of_noObject he, fun now _ _ => s.checkWrite_of_noObject now he⟩
  · by_contra hout
    exact rowsAt_ne_nil_of_implemented hi (rowsAt_eq_nil fun r hr hin => hout ⟨r, hr, hin⟩)

end Sys2Proof.Machine
end

section
/-! Images of numbers, most significant byte first: what a frame's field reads as (00 R5; 13 Table 13-7). -/

namespace Sys2Proof.Machine

@[simp] theorem length_natLE (n v : Nat) : (natLE n v).length = n := by
  induction n generalizing v with
  | zero => rfl
  | succ n ih => simp [natLE, ih]

@[simp] theorem length_natBE (n v : Nat) : (natBE n v).length = n := by simp [natBE]

theorem leNat_natLE (n v : Nat) : leNat (natLE n v) = v % 256 ^ n := by
  induction n generalizing v with
  | zero => simp [natLE, leNat, Nat.mod_one]
  | succ n ih => simp [natLE, leNat, ih, pow_succ', Nat.mod_mul]

theorem beNat_natBE (n v : Nat) : beNat (natBE n v) = v % 256 ^ n := by
  simp [beNat, natBE, leNat_natLE]

theorem leNat_lt (b : Bytes) : leNat b < 256 ^ b.length := by
  induction b with
  | nil => simp [leNat]
  | cons x b ih =>
    have hx := x.isLt
    simp only [leNat, List.length_cons, pow_succ']
    omega

theorem beAt_lt (b : Bytes) (off n : Nat) : beAt b off n < 256 ^ n := by
  have hlen : ((b.drop off).take n).reverse.length ≤ n := by simp
  exact (leNat_lt _).trans_le (Nat.pow_le_pow_right (by norm_num) hlen)

theorem beAt_natBE_append (n v : Nat) (c : Bytes) : beAt (natBE n v ++ c) 0 n = v % 256 ^ n := by
  simp [beAt, beNat_natBE]

theorem beAt_append_of_le {a : Bytes} {off : Nat} (h : a.length ≤ off) (c : Bytes) (n : Nat) :
    beAt (a ++ c) off n = beAt c (off - a.length) n := by
  simp [beAt, List.drop_append, List.drop_eq_nil_of_le h]

/-- A bit of a one-byte field is set where the byte is there and has it. -/
theorem bit_beAt_one (b : Bytes) (off j : Nat) :
    bit (beAt b off 1) j = true ↔ ∃ f, (b.drop off).head? = some f ∧ f.getLsbD j = true := by
  cases hb : b.drop off with
  | nil => simp [beAt, hb, beNat, leNat, bit]
  | cons x t => simp [beAt, hb, beNat, leNat, bit, BitVec.getLsbD]

theorem beAt_ppFrame_flags (key : Bytes) (op flags code session epoch tid node : Nat) (body : Bytes) :
    beAt (ppFrame key op flags code session epoch tid node body) 4 1 = flags % 256 := by
  simp [ppFrame, beAt_append_of_le, beAt_natBE_append]

theorem beAt_ppFrame_tid (key : Bytes) (op flags code session epoch tid node : Nat) (body : Bytes) :
    beAt (ppFrame key op flags code session epoch tid node body) 8 2 = tid % 65536 := by
  simp [ppFrame, beAt_append_of_le, beAt_natBE_append]

end Sys2Proof.Machine
end

section
/-! Pelpin's answer to an arriving payload: discarded, or acknowledged (13 R364, R374, R375). -/

namespace Sys2Proof.Machine

namespace State

@[simp] theorem setObj_outbox (s : State) (k v : Nat) : (s.setObj k v).outbox = s.outbox := rfl
@[simp] theorem bump_outbox (s : State) (k : Nat) : (s.bump k).outbox = s.outbox := rfl

@[simp] theorem putSess_outbox (s : State) (n : Nat) (x : Session) : (s.putSess n x).outbox = s.outbox := rfl
@[simp] theorem putSess_obj (s : State) (n : Nat) (x : Session) (k : Nat) : (s.putSess n x).obj k = s.obj k := rfl

@[simp] theorem ppEnqueue_outbox (s : State) (r : PpRequest) : (s.ppEnqueue r).outbox = s.outbox := rfl
@[simp] theorem ppEnqueue_obj (s : State) (r : PpRequest) (k : Nat) : (s.ppEnqueue r).obj k = s.obj k := rfl

@[simp] theorem ppAdmit_outbox (s : State) (n epoch tid : Nat) : (s.ppAdmit n epoch tid).outbox = s.outbox := rfl
theorem ppAdmit_obj_of_ne (s : State) (n epoch tid : Nat) {k : Nat} (he : k ≠ Key.ppSessEpoch n) (ht : k ≠ Key.ppSessTid n) :
    (s.ppAdmit n epoch tid).obj k = s.obj k := by
  simp [ppAdmit, he, ht]

@[simp] theorem ppSend_outbox (s : State) (i : Nat) (a : NetAddr) (f : Bytes) :
    (s.ppSend i a f).outbox = s.outbox ++ [.udp i a.mac a.ip a.udp 47321 f] := rfl
@[simp] theorem ppSend_obj (s : State) (i : Nat) (a : NetAddr) (f : Bytes) (k : Nat) : (s.ppSend i a f).obj k = s.obj k := rfl

@[simp] theorem ppAck_outbox (s : State) (r : PpRequest) (key : Bytes) (code : Code) (dup : Bool) :
    (s.ppAck r key code dup).outbox =
      s.outbox ++ [.udp r.iface r.src.mac r.src.ip r.src.udp 47321 (ppFrame key r.op (2 + 8 * b2n dup) code r.session r.epoch r.tid r.node [])] := by
  simp only [ppAck, ppSend_outbox]
  split_ifs <;> simp

/-- An acknowledgement counts in pp.acks and, by its code, in one of three other counters. -/
theorem ppAck_obj_ppAcks (s : State) (r : PpRequest) (key : Bytes) (code : Code) (dup : Bool) :
    (s.ppAck r key code dup).obj Key.ppAcks = (s.obj Key.ppAcks + 1) % 2 ^ 64 := by
  simp only [ppAck, ppSend_obj]
  split_ifs <;> simp [show Key.ppAcks ≠ Key.ppAuthFail by decide, show Key.ppAcks ≠ Key.ppBusy by decide, show Key.ppAcks ≠ Key.ppStale by decide]

theorem ppAck_obj_ppDropped (s : State) (r : PpRequest) (key : Bytes) (code : Code) (dup : Bool) :
    (s.ppAck r key code dup).obj Key.ppDropped = s.obj Key.ppDropped := by
  simp only [ppAck, ppSend_obj]
  split_ifs <;> simp [Key.ppAcks, Key.ppAuthFail, Key.ppBusy, Key.ppStale, Key.ppDropped]

end State

theorem bit_one_ackFlags (dup : Bool) : bit ((2 + 8 * b2n dup) % 256) 1 = true := by
  cases dup <;> decide

/-- State t is state s after one acknowledgement of r: counted, and sent to r's sender with r's TID and ACK set; l is what was sent after it. -/
def Acknowledged (s t : State) (r : PpRequest) (l : List Emission) : Prop :=
  t.obj Key.ppAcks = (s.obj Key.ppAcks + 1) % 2 ^ 64 ∧ t.obj Key.ppDropped = s.obj Key.ppDropped ∧
    ∃ f, t.outbox = s.outbox ++ .udp r.iface r.src.mac r.src.ip r.src.udp 47321 f :: l ∧ bit (beAt f 4 1) 1 = true ∧ beAt f 8 2 = r.tid

/-- Whatever was done before the acknowledgement counts, as long as it sent nothing and left the two counters alone. -/
theorem acknowledged_ppAck {s u : State} {r : PpRequest} (hr : r.tid < 65536) (ha : u.obj Key.ppAcks = s.obj Key.ppAcks)
    (hd : u.obj Key.ppDropped = s.obj Key.ppDropped) (ho : u.outbox = s.outbox) (key : Bytes) (code : Code) (dup : Bool) :
    Acknowledged s (u.ppAck r key code dup) r [] := by
  refine ⟨by rw [u.ppAck_obj_ppAcks, ha], by rw [u.ppAck_obj_ppDropped, hd], _, by rw [u.ppAck_outbox, ho], ?_, ?_⟩
  · rw [beAt_ppFrame_flags, bit_one_ackFlags]
  · rw [beAt_ppFrame_tid, Nat.mod_eq_of_lt hr]

/-- A stored response may follow the acknowledgement of a duplicate (13 R374). -/
theorem Acknowledged.ppSend {s t : State} {r : PpRequest} (h : Acknowledged s t r []) (i : Nat) (a : NetAddr) (g : Bytes) :
    Acknowledged s (t.ppSend i a g) r [.udp i a.mac a.ip a.udp 47321 g] := by
  obtain ⟨ha, hd, f, ho, hack, htid⟩ := h
  exact ⟨ha, hd, f, by simp [ho], hack, htid⟩

theorem acknowledged_ppHandshake (s : State) {r : PpRequest} (hr : r.tid < 65536) (key : Bytes) : Acknowledged s (s.ppHandshake r key) r [] := by
  unfold State.ppHandshake
  split
  · exact acknowledged_ppAck hr rfl rfl rfl ..
  · exact acknowledged_ppAck hr rfl rfl rfl ..

theorem ppAdmit_keeps_ppAcks (s : State) (n epoch tid : Nat) : (s.ppAdmit n epoch tid).obj Key.ppAcks = s.obj Key.ppAcks :=
  s.ppAdmit_obj_of_ne n epoch tid (by unfold Key.ppAcks Key.ppSessEpoch; omega) (by unfold Key.ppAcks Key.ppSessTid; omega)

theorem ppAdmit_keeps_ppDropped (s : State) (n epoch tid : Nat) : (s.ppAdmit n epoch tid).obj Key.ppDropped = s.obj Key.ppDropped :=
  s.ppAdmit_obj_of_ne n epoch tid (by unfold Key.ppDropped Key.ppSessEpoch; omega) (by unfold Key.ppDropped Key.ppSessTid; omega)

/-- A request of an open session is acknowledged in each class of the replay window; only a duplicate whose response is stored sends more. -/
theorem acknowledged_ppRequest (s : State) {r : PpRequest} (hr : r.tid < 65536) (key : Bytes) :
    ∃ l, Acknowledged s (s.ppRequest r key) r l ∧ l.length ≤ 1 := by
  simp only [State.ppRequest]
  split
  case h_1 => exact ⟨[], acknowledged_ppAck hr rfl rfl rfl .., by simp⟩
  case h_2 =>
    have hack := acknowledged_ppAck (s := s) (u := s.putSess r.session { s.sess r.session with validAt := s.wall }) hr rfl rfl rfl key Res.done true
    split
    · exact ⟨_, hack.ppSend .., by simp⟩
    · exact ⟨[], hack, by simp⟩
  case h_3 =>
    split
    · exact ⟨[], acknowledged_ppAck hr (by simp [ppAdmit_keeps_ppAcks]) (by simp [ppAdmit_keeps_ppDropped]) (by simp) .., by simp⟩
    · exact ⟨[], acknowledged_ppAck hr rfl rfl rfl .., by simp⟩

/-- The conditions under which R364 discards a payload, in the words of the statement. -/
theorem ppDropped_iff (p : Bytes) : ppDropped p = true ↔
    p.length < 32 ∨ beNat (p.take 2) ≠ 0x504C ∨ p.length ≠ 32 + beNat ((p.drop 12).take 2) ∨
      (∃ f, (p.drop 4).head? = some f ∧ (f.getLsbD 0 = true ∨ f.getLsbD 1 = true)) := by
  have hbits : (∃ f, (p.drop 4).head? = some f ∧ (f.getLsbD 0 = true ∨ f.getLsbD 1 = true)) ↔
      bit (beAt p 4 1) 0 = true ∨ bit (beAt p 4 1) 1 = true := by
    rw [bit_beAt_one, bit_beAt_one, ← exists_or]
    simp only [← and_or_left]
  rw [hbits]
  simp [ppDropped, beAt, or_assoc]

theorem execPelpinRequestRx_of_dropped {s : State} {i : Fin 8} {p : Bytes} (src : NetAddr) (hup : s.ifaceUp i.val = true) (hp : ppDropped p = true) :
    execPelpinRequestRx i src p s = .next (s.bump Key.ppDropped) := by
  simp [execPelpinRequestRx, hup, hp]

/-- Every payload that is not discarded is a request, and takes one of four ways: UNSUPPORTED, AUTH, the handshake, or its open session. -/
theorem execPelpinRequestRx_of_request {s : State} {i : Fin 8} {p : Bytes} (src : NetAddr) (hup : s.ifaceUp i.val = true) (hp : ppDropped p = false) :
    ∃ role key, execPelpinRequestRx i src p s = .next (s.ppAck (ppParse i.val src role p) key Res.unsupported false) ∨
      execPelpinRequestRx i src p s = .next (s.ppAck (ppParse i.val src role p) key Res.auth false) ∨
      execPelpinRequestRx i src p s = .next (s.ppHandshake (ppParse i.val src role p) key) ∨
      execPelpinRequestRx i src p s = .next (s.ppRequest (ppParse i.val src role p) key) := by
  unfold execPelpinRequestRx
  rw [if_neg (by simp [hup]), if_neg (by simp [hp])]
  lift_lets
  extract_lets n st x r handshake tag good
  split
  · exact ⟨x.role, x.keyOut, .inl rfl⟩
  split
  · exact ⟨x.role, if st = 0 then [] else x.keyOut, .inr (.inl rfl)⟩
  split
  · exact ⟨x.role, x.keyOut, .inr (.inr (.inl rfl))⟩
  · exact ⟨x.role, x.keyOut, .inr (.inr (.inr rfl))⟩

theorem execPelpinRequestRx_acknowledges {s : State} {i : Fin 8} {p : Bytes} (src : NetAddr) (hup : s.ifaceUp i.val = true) (hp : ppDropped p = false) :
    ∃ t role l, execPelpinRequestRx i src p s = .next t ∧ Acknowledged s t (ppParse i.val src role p) l ∧ l.length ≤ 1 := by
  obtain ⟨role, key, h⟩ := execPelpinRequestRx_of_request src hup hp
  have htid : (ppParse i.val src role p).tid < 65536 := beAt_lt p 8 2
  obtain hunsupported | hauth | hhandshake | hrequest := h
  · exact ⟨_, role, [], hunsupported, acknowledged_ppAck htid rfl rfl rfl .., by simp⟩
  · exact ⟨_, role, [], hauth, acknowledged_ppAck htid rfl rfl rfl .., by simp⟩
  · exact ⟨_, role, [], hhandshake, acknowledged_ppHandshake s htid key, by simp⟩
  · obtain ⟨l, hack⟩ := acknowledged_ppRequest s htid key
    exact ⟨_, role, l, hrequest, hack⟩

/-- Settles O47: the discards are those of `ppDropped`, and every way that a request can take sends its acknowledgement first. -/
theorem pelpinDiscards : Obligations.PelpinDiscards := by
  unfold Obligations.PelpinDiscards
  intro s i src p hup
  refine ⟨fun hdrop => ?_, fun hlen hmagic hlength hflags => ?_⟩
  · rw [exec_pelpinRequestRx, execPelpinRequestRx_of_dropped src hup ((ppDropped_iff p).2 hdrop)]
  · have hp : ppDropped p = false := by
      rw [Bool.eq_false_iff, ne_eq, ppDropped_iff]
      rintro (h | h | h | ⟨f, hf, h⟩)
      · omega
      · exact h hmagic
      · exact h hlength
      · obtain ⟨h0, h1⟩ := hflags f hf
        simp only [h0, h1, Bool.false_eq_true, or_self] at h
    obtain ⟨t, role, l, hexec, ⟨hacks, hdropped, f, hout, hack, htid⟩, hl⟩ := execPelpinRequestRx_acknowledges src hup hp
    exact ⟨t, by rw [exec_pelpinRequestRx, hexec], hacks, hdropped, f, l, hout, hack, htid, hl⟩

end Sys2Proof.Machine
end

section
/-! Sums of weighted indicators: a word laid out as a table of bit positions. -/

namespace Sys2Proof.Machine

/-- A word of one-bit indicators, each at its position. -/
def weights (l : List (Nat × Bool)) : Nat := (l.map fun e => 2 ^ e.1 * b2n e.2).sum

/-- A table of positions that names every position once, the highest first. -/
def Descending (l : List (Nat × Bool)) : Prop := l.Pairwise fun e f => f.1 < e.1

theorem weights_cons (i : Nat) (x : Bool) (l : List (Nat × Bool)) : weights ((i, x) :: l) = 2 ^ i * b2n x + weights l := by
  simp [weights]

theorem descending_cons (i : Nat) (x : Bool) (l : List (Nat × Bool)) :
    Descending ((i, x) :: l) ↔ (∀ e ∈ l, e.1 < i) ∧ Descending l := List.pairwise_cons

theorem b2n_le_one (x : Bool) : b2n x ≤ 1 := by cases x <;> decide

theorem bit_b2n (x : Bool) (j : Nat) : bit (b2n x) j = (j == 0 && x) := by
  cases x
  case false => simp [bit, b2n]
  case true => rw [Bool.eq_iff_iff]; simp [bit, b2n, Nat.testBit_one_eq_true_iff_self_eq_zero]

theorem weights_lt {l : List (Nat × Bool)} {n : Nat} (hd : Descending l) (hn : ∀ e ∈ l, e.1 < n) : weights l < 2 ^ n := by
  induction l generalizing n with
  | nil => simp [weights]
  | cons e l ih =>
    obtain ⟨i, x⟩ := e
    rw [descending_cons] at hd
    obtain ⟨hi, hd⟩ := hd
    have hrest : weights l < 2 ^ i := ih hd hi
    calc weights ((i, x) :: l) = 2 ^ i * b2n x + weights l := weights_cons ..
      _ < 2 ^ i * 1 + 2 ^ i := add_lt_add_of_le_of_lt (Nat.mul_le_mul_left _ (b2n_le_one x)) hrest
      _ = 2 ^ (i + 1) := by ring
      _ ≤ 2 ^ n := Nat.pow_le_pow_right two_pos (hn (i, x) List.mem_cons_self)

/-- A bit of the word is the indicator at its position, and clear where the table names none. -/
theorem bit_weights {l : List (Nat × Bool)} (hd : Descending l) (j : Nat) : bit (weights l) j = l.any fun e => j == e.1 && e.2 := by
  induction l with
  | nil => simp [weights, bit]
  | cons e l ih =>
    obtain ⟨i, x⟩ := e
    rw [descending_cons] at hd
    obtain ⟨hi, hd⟩ := hd
    have hsplit : bit (weights ((i, x) :: l)) j = if j < i then bit (weights l) j else bit (b2n x) (j - i) := by
      rw [weights_cons, bit, Nat.testBit_two_pow_mul_add _ (weights_lt hd hi)]
      rfl
    rw [hsplit, List.any_cons]
    split_ifs with hj
    · simp [ih hd, hj.ne]
    · have hnone : (l.any fun e => j == e.1 && e.2) = false := by
        simp only [List.any_eq_false, Bool.and_eq_true, beq_iff_eq, not_and]
        intro e he hje
        have := hi e he
        omega
      have hpos : (j - i == 0) = (j == i) := by
        rw [Bool.eq_iff_iff, beq_iff_eq, beq_iff_eq]
        omega
      rw [hnone, Bool.or_false, bit_b2n, hpos]

end Sys2Proof.Machine
end

section
/-! The trailer of a VITA 49.2 packet as it is sent (14 R391, Table 14-3). -/

namespace Sys2Proof.Machine

/-- Table 14-3: each bit of the trailer below the enables, and when it is set. -/
def trailerTable (mapped locked : Bool) (flags : Nat) : List (Nat × Bool) :=
  [(19, mapped), (18, !bit flags 0 && !bit flags 1), (17, locked), (13, bit flags 3), (12, bit flags 0 || bit flags 6), (11, bit flags 2),
    (10, bit flags 4), (9, bit flags 5), (8, bit flags 1)]

theorem trailerBits_eq_weights (mapped locked : Bool) (flags : Nat) :
    trailerBits mapped locked flags = weights (trailerTable mapped locked flags) := by
  simp [trailerBits, trailerTable, weights, add_assoc]

theorem trailerTable_descending (mapped locked : Bool) (flags : Nat) : Descending (trailerTable mapped locked flags) := by
  simp [Descending, trailerTable]

theorem trailerBits_lt (mapped locked : Bool) (flags : Nat) : trailerBits mapped locked flags < 2 ^ 20 := by
  rw [trailerBits_eq_weights]
  exact weights_lt (trailerTable_descending ..) (by simp [trailerTable])

theorem bit_trailerBits (mapped locked : Bool) (flags j : Nat) :
    bit (trailerBits mapped locked flags) j = (trailerTable mapped locked flags).any fun e => j == e.1 && e.2 := by
  rw [trailerBits_eq_weights, bit_weights (trailerTable_descending ..)]

theorem trailerBits_mod_256 (mapped locked : Bool) (flags : Nat) : trailerBits mapped locked flags % 256 = 0 := by
  unfold trailerBits
  omega

theorem recordPackets_flags {n : Nat} {r : VrtRecord} {p : VrtPacket} (hp : p ∈ recordPackets n r) : p.flags = r.flags ∧ p.context = false := by
  simp only [recordPackets, List.mem_map] at hp
  obtain ⟨_, _, rfl⟩ := hp
  exact ⟨rfl, rfl⟩

namespace State

/-- The trailer word of a packet that is sent in a state. -/
def trailerWord (s : State) (p : VrtPacket) : Nat :=
  trailerEnables + trailerBits (s.obj Key.taiState == 2) (s.obj Key.ksState == ksLocked) p.flags

/-- The enables of R391 stand above all the indicators. -/
theorem trailerWord_eq (s : State) (p : VrtPacket) :
    s.trailerWord p = 2 ^ 20 * 0xE3F + trailerBits (s.obj Key.taiState == 2) (s.obj Key.ksState == ksLocked) p.flags := rfl

theorem trailerWord_lt (s : State) (p : VrtPacket) : s.trailerWord p < 2 ^ 32 := by
  have hlt := trailerBits_lt (s.obj Key.taiState == 2) (s.obj Key.ksState == ksLocked) p.flags
  rw [trailerWord_eq]
  omega

theorem trailerWord_enables (s : State) (p : VrtPacket) : s.trailerWord p / 2 ^ 20 = 0xE3F := by
  rw [trailerWord_eq, Nat.mul_add_div (by norm_num), Nat.div_eq_of_lt (trailerBits_lt ..)]

theorem trailerWord_mod_256 (s : State) (p : VrtPacket) : s.trailerWord p % 256 = 0 := by
  have hmod := trailerBits_mod_256 (s.obj Key.taiState == 2) (s.obj Key.ksState == ksLocked) p.flags
  rw [trailerWord_eq]
  omega

theorem bit_trailerWord (s : State) (p : VrtPacket) {j : Nat} (hj : j < 20) : bit (s.trailerWord p) j =
    (trailerTable (s.obj Key.taiState == 2) (s.obj Key.ksState == ksLocked) p.flags).any fun e => j == e.1 && e.2 := by
  rw [trailerWord_eq, bit, Nat.testBit_two_pow_mul_add _ (trailerBits_lt ..), if_pos hj]
  exact bit_trailerBits ..

/-- Whatever its kind, a packet ends in its trailer word. -/
theorem packetBytes_eq_append_trailer (s : State) (p : VrtPacket) (count : Nat) :
    ∃ body, s.packetBytes p count = body ++ natBE 4 (s.trailerWord p) := by
  simp only [packetBytes, trailerWord]
  by_cases hc : p.context = true
  · rw [if_pos hc]
    exact ⟨_, rfl⟩
  · rw [if_neg hc]
    exact ⟨_, rfl⟩

theorem packetBytes_last_word (s : State) (p : VrtPacket) (count : Nat) :
    (s.packetBytes p count).drop ((s.packetBytes p count).length - 4) = natBE 4 (s.trailerWord p) := by
  obtain ⟨body, hbytes⟩ := s.packetBytes_eq_append_trailer p count
  simp [hbytes]

/-- Sending takes the oldest packet of the queue, with some packet count, and adds it alone to the outbox. -/
theorem sendVrt_outbox {s : State} {n : Nat} {p : VrtPacket} {rest : List VrtPacket} (i : Nat) (hq : (s.vrtStream n).queue = p :: rest) :
    ∃ count, (s.sendVrt i n).outbox = s.outbox ++ [.udp i (s.obj (Key.vrtDstMac n)) (beNat (natLE 16 (s.obj (Key.vrtDstIp n))))
      (s.obj (Key.vrtDstUdp n)) (s.obj (Key.vrtSrcUdp n)) (s.packetBytes p count)] := by
  simp only [sendVrt, hq]
  exact ⟨_, rfl⟩

end State

/-- Settles O53: a packet ends in `trailerWord`, whose bits below the enables are the entries of Table 14-3. -/
theorem trailerIndicators : Obligations.TrailerIndicators := by
  unfold Obligations.TrailerIndicators
  refine ⟨fun n r p hp => recordPackets_flags hp, fun s i n p rest hq _ => ?_⟩
  obtain ⟨count, hout⟩ := s.sendVrt_outbox i hq
  refine ⟨_, s.trailerWord p, hout, s.packetBytes_last_word p count, s.trailerWord_lt p, s.trailerWord_enables p, s.trailerWord_mod_256 p, ?_⟩
  simp [State.bit_trailerWord, trailerTable, State.ksLocked]

end Sys2Proof.Machine
end

section
/-! The words of trestle instructions: an opcode and seven fields, of which an instruction uses the low bits (09 R257, R258, Tables 9-5, 9-6). -/

namespace Sys2Proof.Machine

/-- A 48-bit word of its opcode and fields: S, the register fields from bits 37, 33, 29, 27 and 25, and bits 24 to 0. -/
def wordOf (op : Nat) (sat : Bool) (rd ra rb : Fin 16) (ax ay : Fin 4) (low : BitVec 25) : Nat :=
  ((((((op * 2 + b2n sat) * 16 + rd.val) * 16 + ra.val) * 16 + rb.val) * 4 + ax.val) * 4 + ay.val) * 2 ^ 25 + low.toNat

/-- The fields below the opcode, by position and width. -/
def wordFields : List (Nat × Nat) := [(0, 25), (25, 2), (27, 2), (29, 4), (33, 4), (37, 4), (41, 1)]

theorem testBit_field (x p n j : Nat) : (x / 2 ^ p % 2 ^ n).testBit j = (decide (j < n) && x.testBit (p + j)) := by
  rw [Nat.testBit_mod_two_pow, Nat.testBit_div_two_pow, Nat.add_comm]

/-- Every bit below 42 lies in a field. -/
theorem exists_wordField : ∀ b < 42, ∃ f ∈ wordFields, f.1 ≤ b ∧ b < f.1 + f.2 := by decide

/-- A bitwise union with a mask of ones from bit 0 is that mask exactly for what is no greater. -/
theorem or_ones_eq_iff (x k : Nat) : x ||| (2 ^ k - 1) = 2 ^ k - 1 ↔ x ≤ 2 ^ k - 1 := by
  refine ⟨fun h => h ▸ Nat.left_le_or, fun h => ?_⟩
  have hx : x < 2 ^ k := by have := Nat.two_pow_pos k; omega
  refine Nat.eq_of_testBit_eq fun j => ?_
  rw [Nat.testBit_or, Nat.testBit_two_pow_sub_one]
  by_cases hj : j < k
  · simp [hj]
  · simp [hj, Nat.testBit_lt_two_pow (Nat.lt_of_lt_of_le hx (Nat.pow_le_pow_right two_pos (Nat.le_of_not_lt hj)))]

/-- Are the low bits of every field of a mask ones and the others zero? -/
def onesMask (m : Nat) : Bool := m < 2 ^ 42 && wordFields.all fun f => (List.range (f.2 + 1)).any fun k => m / 2 ^ f.1 % 2 ^ f.2 == 2 ^ k - 1

/-- Nothing stands outside a mask of low ones exactly where no field is greater than the mask's. -/
theorem or_mask_eq_iff {m w : Nat} (hm : onesMask m = true) :
    w % 2 ^ 42 ||| m = m ↔ ∀ f ∈ wordFields, w / 2 ^ f.1 % 2 ^ f.2 ≤ m / 2 ^ f.1 % 2 ^ f.2 := by
  simp only [onesMask, Bool.and_eq_true, decide_eq_true_eq, List.all_eq_true, List.any_eq_true, beq_iff_eq] at hm
  obtain ⟨hlt, hones⟩ := hm
  have hfields : (w % 2 ^ 42 ||| m = m) ↔ ∀ f ∈ wordFields, w / 2 ^ f.1 % 2 ^ f.2 ||| m / 2 ^ f.1 % 2 ^ f.2 = m / 2 ^ f.1 % 2 ^ f.2 := by
    constructor
    · intro h f hf
      refine Nat.eq_of_testBit_eq fun j => ?_
      have hbit := congrArg (fun x => x.testBit (f.1 + j)) h
      have hbelow : ∀ f ∈ wordFields, f.1 + f.2 ≤ 42 := by decide
      have hle := hbelow f hf
      rw [Nat.testBit_or, testBit_field, testBit_field]
      by_cases hj : j < f.2
      · have hlt : f.1 + j < 42 := by omega
        simpa only [Nat.testBit_or, Nat.testBit_mod_two_pow, hlt, hj, decide_true, Bool.true_and] using hbit
      · simp [hj]
    · intro h
      refine Nat.eq_of_testBit_eq fun b => ?_
      by_cases hb : b < 42
      · obtain ⟨f, hf, hlo, hhi⟩ := exists_wordField b hb
        obtain ⟨j, rfl⟩ := Nat.exists_eq_add_of_le hlo
        have hbit := congrArg (fun x => x.testBit j) (h f hf)
        have hj : j < f.2 := by omega
        simp only [Nat.testBit_or, testBit_field, hj, decide_true, Bool.true_and] at hbit
        simpa only [Nat.testBit_or, Nat.testBit_mod_two_pow, hb, decide_true, Bool.true_and] using hbit
      · rw [Nat.testBit_or, Nat.testBit_mod_two_pow, decide_eq_false hb, Bool.false_and, Bool.false_or]
  rw [hfields]
  refine forall₂_congr fun f hf => ?_
  obtain ⟨k, _, hk⟩ := hones f hf
  rw [hk, or_ones_eq_iff]

/-- The masks of Table 9-6 take the low bits of each field. -/
theorem onesMask_fieldMask : ∀ op < 49, ∃ m, fieldMask op = some m ∧ onesMask m = true := by
  have h : ∀ op < 49, (fieldMask op).any onesMask = true := by decide
  intro op hop
  exact (Option.any_eq_true _ _).mp (h op hop)

theorem fieldMask_none {op : Nat} (h : 49 ≤ op) : fieldMask op = none := by
  obtain ⟨n, rfl⟩ := Nat.exists_eq_add_of_le' h
  rfl

theorem b2n_bit (w j : Nat) : b2n (bit w j) = w / 2 ^ j % 2 := by
  rw [bit, Nat.testBit_eq_decide_div_mod_eq, b2n]
  have := Nat.mod_lt (w / 2 ^ j) two_pos
  split_ifs with h <;> simp only [decide_eq_true_eq] at h <;> omega

theorem b2n_inj {a b : Bool} : b2n a = b2n b ↔ a = b := by revert a b; decide

/-! ### The fields of a word -/

section fields

variable (op : Nat) (sat : Bool) (rd ra rb : Fin 16) (ax ay : Fin 4) (low : BitVec 25)

theorem wordOf_div_25 : wordOf op sat rd ra rb ax ay low / 2 ^ 25 =
    (((((op * 2 + b2n sat) * 16 + rd.val) * 16 + ra.val) * 16 + rb.val) * 4 + ax.val) * 4 + ay.val := by
  unfold wordOf; omega

theorem wordOf_div_27 : wordOf op sat rd ra rb ax ay low / 2 ^ 27 = ((((op * 2 + b2n sat) * 16 + rd.val) * 16 + ra.val) * 16 + rb.val) * 4 + ax.val := by
  unfold wordOf; omega

theorem wordOf_div_29 : wordOf op sat rd ra rb ax ay low / 2 ^ 29 = (((op * 2 + b2n sat) * 16 + rd.val) * 16 + ra.val) * 16 + rb.val := by
  unfold wordOf; omega

theorem wordOf_div_33 : wordOf op sat rd ra rb ax ay low / 2 ^ 33 = ((op * 2 + b2n sat) * 16 + rd.val) * 16 + ra.val := by
  unfold wordOf; omega

theorem wordOf_div_37 : wordOf op sat rd ra rb ax ay low / 2 ^ 37 = (op * 2 + b2n sat) * 16 + rd.val := by
  unfold wordOf; omega

theorem wordOf_div_41 : wordOf op sat rd ra rb ax ay low / 2 ^ 41 = op * 2 + b2n sat := by
  unfold wordOf; omega

theorem wordOf_div_42 : wordOf op sat rd ra rb ax ay low / 2 ^ 42 = op := by
  have := b2n_le_one sat
  unfold wordOf; omega

theorem wordOf_mod {n : Nat} (hn : n ≤ 25) : wordOf op sat rd ra rb ax ay low % 2 ^ n = low.toNat % 2 ^ n := by
  rw [wordOf, Nat.add_mod, Nat.mul_mod, Nat.mod_eq_zero_of_dvd (pow_dvd_pow 2 hn)]
  simp

@[simp] theorem bit_wordOf : bit (wordOf op sat rd ra rb ax ay low) 41 = sat := by
  have := b2n_le_one sat
  rw [← b2n_inj, b2n_bit, wordOf_div_41]
  omega

@[simp] theorem reg4_wordOf_37 : reg4 (wordOf op sat rd ra rb ax ay low) 37 = rd := by
  rw [reg4, wordOf_div_37]
  exact Fin.ext (by rw [Fin.val_ofNat]; omega)

@[simp] theorem reg4_wordOf_33 : reg4 (wordOf op sat rd ra rb ax ay low) 33 = ra := by
  rw [reg4, wordOf_div_33]
  exact Fin.ext (by rw [Fin.val_ofNat]; omega)

@[simp] theorem reg4_wordOf_29 : reg4 (wordOf op sat rd ra rb ax ay low) 29 = rb := by
  rw [reg4, wordOf_div_29]
  exact Fin.ext (by rw [Fin.val_ofNat]; omega)

@[simp] theorem reg2_wordOf_27 : reg2 (wordOf op sat rd ra rb ax ay low) 27 = ax := by
  rw [reg2, wordOf_div_27]
  exact Fin.ext (by rw [Fin.val_ofNat]; omega)

@[simp] theorem reg2_wordOf_25 : reg2 (wordOf op sat rd ra rb ax ay low) 25 = ay := by
  rw [reg2, wordOf_div_25]
  exact Fin.ext (by rw [Fin.val_ofNat]; omega)

@[simp] theorem reg3_wordOf_37 : reg3 (wordOf op sat rd ra rb ax ay low) 37 = Fin.ofNat 8 rd := by
  rw [reg3, wordOf_div_37]
  exact Fin.ext (by simp only [Fin.val_ofNat]; omega)

@[simp] theorem reg3_wordOf_33 : reg3 (wordOf op sat rd ra rb ax ay low) 33 = Fin.ofNat 8 ra := by
  rw [reg3, wordOf_div_33]
  exact Fin.ext (by simp only [Fin.val_ofNat]; omega)

@[simp] theorem reg2_wordOf_16 : reg2 (wordOf op sat rd ra rb ax ay low) 16 = Fin.ofNat 4 (low.toNat / 2 ^ 16) := by
  refine Fin.ext ?_
  simp only [reg2, wordOf, Fin.val_ofNat]
  omega

@[simp] theorem loopCount_wordOf : BitVec.ofNat 16 (wordOf op sat rd ra rb ax ay low / 33554432) =
    BitVec.ofNat 16 ((((rd.val * 16 + ra.val) * 16 + rb.val) * 4 + ax.val) * 4 + ay.val) := by
  rw [show wordOf op sat rd ra rb ax ay low / 33554432 = _ from wordOf_div_25 ..]
  refine BitVec.eq_of_toNat_eq ?_
  simp only [BitVec.toNat_ofNat]
  omega

theorem ofNat_wordOf {n : Nat} (hn : n ≤ 25) : BitVec.ofNat n (wordOf op sat rd ra rb ax ay low) = low.setWidth n :=
  BitVec.eq_of_toNat_eq (by simp only [BitVec.toNat_ofNat, BitVec.toNat_setWidth, wordOf_mod _ _ _ _ _ _ _ _ hn])

end fields

/-- Every word is made of its opcode and fields. -/
theorem eq_wordOf (w : Nat) :
    w = wordOf (w / 2 ^ 42) (bit w 41) (reg4 w 37) (reg4 w 33) (reg4 w 29) (reg2 w 27) (reg2 w 25) (BitVec.ofNat 25 w) := by
  have next (p n : Nat) : w / 2 ^ (p + n) * 2 ^ n + w / 2 ^ p % 2 ^ n = w / 2 ^ p := by
    rw [pow_add, ← Nat.div_div_eq_div_mul, Nat.div_add_mod']
  have h41 := next 41 1
  have h37 := next 37 4
  have h33 := next 33 4
  have h29 := next 29 4
  have h27 := next 27 2
  have h25 := next 25 2
  simp only [Nat.reduceAdd, Nat.reducePow, wordOf, b2n_bit, reg4, reg2, Fin.val_ofNat, BitVec.toNat_ofNat] at h41 h37 h33 h29 h27 h25 ⊢
  rw [h41, h37, h33, h29, h27, h25, Nat.div_add_mod']

theorem wordEncodes_iff {op m : Nat} (sat : Bool) (rd ra rb : Fin 16) (ax ay : Fin 4) (low : BitVec 25) (hm : fieldMask op = some m) :
    wordEncodes (wordOf op sat rd ra rb ax ay low) = true ↔ low.toNat ≤ m % 2 ^ 25 ∧ ay.val ≤ m / 2 ^ 25 % 4 ∧ ax.val ≤ m / 2 ^ 27 % 4 ∧
      rb.val ≤ m / 2 ^ 29 % 16 ∧ ra.val ≤ m / 2 ^ 33 % 16 ∧ rd.val ≤ m / 2 ^ 37 % 16 ∧ b2n sat ≤ m / 2 ^ 41 % 2 := by
  have hop : op < 49 := by
    by_contra h
    simp [fieldMask_none (Nat.le_of_not_lt h)] at hm
  obtain ⟨m', hm', hones⟩ := onesMask_fieldMask op hop
  obtain rfl : m' = m := Option.some.inj (hm'.symm.trans hm)
  rw [wordEncodes, wordOf_div_42, hm, beq_iff_eq, or_mask_eq_iff hones]
  have hsat := Nat.lt_succ_of_le (b2n_le_one sat)
  simp only [wordFields, List.forall_mem_cons, List.not_mem_nil, false_imp_iff, forall_const, and_true, pow_zero, Nat.div_one,
    wordOf_div_25, wordOf_div_27, wordOf_div_29, wordOf_div_33, wordOf_div_37, wordOf_div_41, wordOf_mod _ _ _ _ _ _ _ _ le_rfl]
  simp only [Nat.reducePow, Nat.mul_add_mod_self_right, Nat.mod_eq_of_lt, hsat, Fin.is_lt]
  rw [Nat.mod_eq_of_lt low.isLt]

/-! ### Encodings by shape are words of fields -/

theorem encPlain_eq (op : Nat) : encPlain op = wordOf op false 0 0 0 0 0 0 := by
  simp [encPlain, wordOf, fld, b2n]
  omega

theorem encImm_eq (op : Nat) {imm : Nat} (himm : imm < 2 ^ 25) : encImm op imm = wordOf op false 0 0 0 0 0 (BitVec.ofNat 25 imm) := by
  simp [encImm, wordOf, fld, b2n]
  omega

theorem encBr_eq (cond : Fin 16) (target : BitVec 15) : encBr cond.val target.toNat = wordOf 0x05 false cond 0 0 0 0 (target.setWidth 25) := by
  simp [encBr, wordOf, fld, b2n]
  omega

theorem encLoop_eq (count : BitVec 16) (last : BitVec 15) : encLoop count.toNat last.toNat =
    wordOf 0x08 false (Fin.ofNat 16 (count.toNat / 2 ^ 12)) (Fin.ofNat 16 (count.toNat / 2 ^ 8)) (Fin.ofNat 16 (count.toNat / 2 ^ 4))
      (Fin.ofNat 4 (count.toNat / 2 ^ 2)) (Fin.ofNat 4 count.toNat) (last.setWidth 25) := by
  simp [encLoop, wordOf, fld, b2n]
  omega

theorem encMem_eq (op : Nat) {rd : Nat} (hrd : rd < 16) (an : Fin 8) (off : BitVec 16) {mod : Nat} (hmod : mod < 4) : encMem op rd an.val off.toNat mod =
    wordOf op false (Fin.ofNat 16 rd) (Fin.ofNat 16 an) 0 0 0 (BitVec.ofNat 25 (mod * 2 ^ 16 + off.toNat)) := by
  simp [encMem, wordOf, fld, b2n]
  omega

theorem encData_eq (op : Nat) (sat : Bool) {rd ra rb imm : Nat} (hrd : rd < 16) (hra : ra < 16) (hrb : rb < 16) (himm : imm < 2 ^ 25) :
    encData op sat rd ra rb imm = wordOf op sat (Fin.ofNat 16 rd) (Fin.ofNat 16 ra) (Fin.ofNat 16 rb) 0 0 (BitVec.ofNat 25 imm) := by
  simp [encData, wordOf, fld]
  omega

theorem encAcc_eq (op : Nat) (sat : Bool) {rd ax ay ra rb imm : Nat} (hrd : rd < 16) (hax : ax < 4) (hay : ay < 4) (hra : ra < 16) (hrb : rb < 16) (himm : imm < 2 ^ 25) :
    encAcc op sat ax ay ra rb imm + fld rd 37 =
      wordOf op sat (Fin.ofNat 16 rd) (Fin.ofNat 16 ra) (Fin.ofNat 16 rb) (Fin.ofNat 4 ax) (Fin.ofNat 4 ay) (BitVec.ofNat 25 imm) := by
  simp [encAcc, wordOf, fld]
  omega

theorem encAcc_eq_of_rd_zero (op : Nat) (sat : Bool) {ax ay ra rb imm : Nat} (hax : ax < 4) (hay : ay < 4) (hra : ra < 16) (hrb : rb < 16) (himm : imm < 2 ^ 25) :
    encAcc op sat ax ay ra rb imm =
      wordOf op sat 0 (Fin.ofNat 16 ra) (Fin.ofNat 16 rb) (Fin.ofNat 4 ax) (Fin.ofNat 4 ay) (BitVec.ofNat 25 imm) := by
  simpa [fld] using encAcc_eq op sat (show 0 < 16 by decide) hax hay hra hrb himm

open Fin.NatCast in
theorem natCast_val_mod_16 (n : Fin 8) : ((n.val % 16 : Nat) : Fin 8) = n :=
  Fin.ext (by rw [Fin.val_natCast]; omega)

theorem ofNat_memLow (mod : Fin 4) (off : BitVec 16) : BitVec.ofNat 16 (mod.val * 65536 + off.toNat) = off :=
  BitVec.eq_of_toNat_eq (by rw [BitVec.toNat_ofNat]; omega)

open Fin.NatCast in
theorem natCast_memHigh (mod : Fin 4) (off : BitVec 16) : (((mod.val * 65536 + off.toNat) % 33554432 / 65536 : Nat) : Fin 4) = mod :=
  Fin.ext (by rw [Fin.val_natCast]; omega)

theorem ofNat_loopCount (count : BitVec 16) :
    BitVec.ofNat 16 ((((count.toNat / 4096 % 16 * 16 + count.toNat / 256 % 16) * 16 + count.toNat / 16 % 16) * 4 + count.toNat / 4 % 4) * 4 + count.toNat % 4) = count :=
  BitVec.eq_of_toNat_eq (by rw [BitVec.toNat_ofNat]; omega)

theorem b2n_false : b2n false = 0 := rfl

/-! ### Decoding and encoding -/

theorem opcode_lt_of_wordEncodes {w : Nat} (hw : wordEncodes w = true) : w / 2 ^ 42 < 49 := by
  by_contra h
  rw [wordEncodes, fieldMask_none (Nat.le_of_not_lt h)] at hw
  exact Bool.false_ne_true hw

theorem trestleDecode_isSome (k : Fin 32) (w : Nat) : (trestleDecode k w).isSome = wordEncodes w := by
  by_cases hw : wordEncodes w = true
  · have hop : w / 2 ^ 42 < 49 := by
      by_contra h
      rw [wordEncodes, fieldMask_none (Nat.le_of_not_lt h)] at hw
      exact Bool.false_ne_true hw
    rw [trestleDecode, if_pos hw, hw]
    generalize w / 2 ^ 42 = op at hop
    dsimp only
    interval_cases op <;> rfl
  · rw [trestleDecode, if_neg hw, Option.isSome_none, Bool.eq_false_of_not_eq_true hw]

theorem trestleWord_of_decode_wordOf {i : Instr} {k : Fin 32} {op : Nat} {sat : Bool} {rd ra rb : Fin 16} {ax ay : Fin 4} {low : BitVec 25}
    (h : trestleDecode k (wordOf op sat rd ra rb ax ay low) = some i) : trestleWord i = some (k, wordOf op sat rd ra rb ax ay low) := by
  have hw : wordEncodes (wordOf op sat rd ra rb ax ay low) = true := by rw [← trestleDecode_isSome k, h, Option.isSome_some]
  rw [trestleDecode, if_pos hw, wordOf_div_42] at h
  dsimp only at h
  split at h
  case h_50 => contradiction
  all_goals
    have hunused := (wordEncodes_iff sat rd ra rb ax ay low rfl).mp hw
    rw [← Option.some.inj h]
    simp only [trestleWord, reg4_wordOf_37, reg4_wordOf_33, reg4_wordOf_29, reg3_wordOf_37, reg3_wordOf_33, reg2_wordOf_27, reg2_wordOf_25, reg2_wordOf_16,
      bit_wordOf, loopCount_wordOf, ofNat_wordOf _ _ _ _ _ _ _ _ (show 24 ≤ 25 by decide), ofNat_wordOf _ _ _ _ _ _ _ _ (show 16 ≤ 25 by decide), 
      ofNat_wordOf _ _ _ _ _ _ _ _ (show 15 ≤ 25 by decide), ofNat_wordOf _ _ _ _ _ _ _ _ (show 8 ≤ 25 by decide), ofNat_wordOf _ _ _ _ _ _ _ _ (show 7 ≤ 25 by decide),
      Option.some.injEq, Prod.mk.injEq, true_and]
    clear h hw
    simp only [b2n_false, encPlain, encImm, encBr, encLoop, encMem, encData, encAcc, wordOf, fld, Fin.val_ofNat, BitVec.toNat_setWidth, BitVec.toNat_ofNat] at hunused ⊢
    omega

theorem trestleWord_of_decode {i : Instr} {k : Fin 32} {w : Nat} (h : trestleDecode k w = some i) : trestleWord i = some (k, w) := by
  rw [eq_wordOf w] at h ⊢
  exact trestleWord_of_decode_wordOf h

theorem decode_of_trestleWord {i : Instr} {k : Fin 32} {w : Nat} (h : trestleWord i = some (k, w)) : trestleDecode k w = some i := by
  unfold trestleWord at h
  split at h
  case h_50 => contradiction
  all_goals
    obtain ⟨rfl, rfl⟩ := Prod.mk.inj (Option.some.inj h)
    clear h
  case' h_1 | h_2 | h_4 | h_5 | h_8 => rw [encPlain_eq]
  case' h_3 | h_7 | h_49 => rw [encImm_eq _ (by omega)]
  case' h_6 => rw [encBr_eq]
  case' h_9 => rw [encLoop_eq]
  case' h_12 | h_13 | h_14 => rw [encMem_eq _ (by omega) _ _ (by omega)]
  case' h_41 | h_42 | h_45 => rw [encAcc_eq _ _ (by omega) (by omega) (by omega) (by omega) (by omega) (by omega)]
  case' h_33 | h_34 | h_35 | h_36 | h_37 | h_38 | h_39 | h_40 | h_43 | h_44 | h_46 => rw [encAcc_eq_of_rd_zero _ _ (by omega) (by omega) (by omega) (by omega) (by omega)]
  case' h_10 | h_11 | h_15 | h_16 | h_17 | h_18 | h_19 | h_20 | h_21 | h_22 | h_23 | h_24 | h_25 | h_26 | h_27 | h_28 | h_29 | h_30 | h_31 | h_32 | h_47 | h_48 => rw [encData_eq _ _ (by omega) (by omega) (by omega) (by omega)]
  all_goals
    rw [trestleDecode, if_pos ((wordEncodes_iff _ _ _ _ _ _ _ rfl).mpr ?_), wordOf_div_42]
    · simp [ofNat_wordOf, ofNat_memLow, natCast_val_mod_16, natCast_memHigh, ofNat_loopCount]
    · simp [fld, b2n_false, b2n_le_one] <;> omega

theorem trestleWord_lt {i : Instr} {k : Fin 32} {w : Nat} (h : trestleWord i = some (k, w)) : w < 2 ^ 48 := by
  have hw : wordEncodes w = true := by rw [← trestleDecode_isSome k, decode_of_trestleWord h, Option.isSome_some]
  have := opcode_lt_of_wordEncodes hw
  omega

/-- Settles O32: an instruction's word and a word's instruction determine each other, shape by shape. -/
theorem trestleDecodeOfWord : Obligations.TrestleDecodeOfWord := by
  unfold Obligations.TrestleDecodeOfWord
  exact ⟨fun _ _ _ h => ⟨trestleWord_lt h, decode_of_trestleWord h⟩, fun _ _ _ => trestleWord_of_decode, trestleDecode_isSome⟩

end Sys2Proof.Machine
end

section
/-! One step, and the block after reset (19 R497; 13 R354). -/

namespace Sys2Proof.Machine

/-- Settles O1: the queue is not empty, so the step is its front's execution. -/
theorem stepRunsTheFront : Obligations.StepRunsTheFront := by
  unfold Obligations.StepRunsTheFront
  intro s c q
  rfl

/-- After reset every object has its default: the dictionary lists none. -/
theorem reset_obj (k : Nat) : State.reset.obj k = defaultOf k := rfl

/-- Settles O2: the fields of the reset state, the defaults of the object tables, and the empty contents of DRAM. -/
theorem resetState : Obligations.ResetState := by
  unfold Obligations.ResetState
  have hdefaults : defaultOf Key.tolBudget = 220 ∧ defaultOf Key.tolThermLimit = 105 ∧ defaultOf Key.ppIdle = 4000000000 ∧ defaultOf Key.scrubPeriod = 86400 ∧
      defaultOf (Key.netMtu 3) = 1500 := by decide
  obtain ⟨hbudget, hlimit, hidle, hscrub, hmtu⟩ := hdefaults
  exact ⟨⟨rfl, rfl, rfl, rfl, rfl, reset_obj, hbudget, hlimit, hidle, hscrub, hmtu, by decide, by decide, by decide⟩, reset_mem_wf⟩

end Sys2Proof.Machine
end

section
/-! What the commands of the block leave alone: the queue of waiting commands, the contents of DRAM, the locks of RWL objects (13 R355) and the pending groups (01 R35). -/

namespace Sys2Proof.Machine

/-- The queue of waiting commands, the contents of DRAM, the locks and the pending groups. -/
def State.kept (s : State) : List Instr × List Host.Cell × Bool × Bool × List Group := (s.pending, s.mem.cells, s.sec.boardLock, s.sec.keysLock, s.groups)

/-- A conditional state keeps what both its branches keep. -/
@[simp] theorem State.kept_ite (c : Prop) [Decidable c] (s t : State) : (if c then s else t).kept = if c then s.kept else t.kept := apply_ite _ c s t

@[simp] theorem snd_ite {α : Type} (c : Prop) [Decidable c] (s t : α × State) : (if c then s else t).2 = if c then s.2 else t.2 := apply_ite _ c s t

/-- A fold keeps what each of its steps keeps. -/
@[simp] theorem kept_foldl {α : Type} (f : State → α → State) (hf : ∀ x a, (f x a).kept = x.kept) (l : List α) (s : State) : (l.foldl f s).kept = s.kept := by
  induction l generalizing s with
  | nil => rfl
  | cons a l ih => rw [List.foldl_cons, ih, hf]

@[simp] theorem kept_foldl_snd {α β : Type} (f : β × State → α → β × State) (hf : ∀ x a, (f x a).2.kept = x.2.kept) (l : List α) (x : β × State) :
    (l.foldl f x).2.kept = x.2.kept := by
  induction l generalizing x with
  | nil => rfl
  | cons a l ih => rw [List.foldl_cons, ih, hf]

namespace State

@[simp] theorem kept_withFree (s : State) (x : Nat) : (s.withFree x).kept = s.kept := by unfold kept; rfl
@[simp] theorem kept_withWall (s : State) (x : Nat) : (s.withWall x).kept = s.kept := by unfold kept; rfl
@[simp] theorem kept_withTime (s : State) (x : KTime) : (s.withTime x).kept = s.kept := by unfold kept; rfl
@[simp] theorem kept_withDict (s : State) (x : Tab Nat) : (s.withDict x).kept = s.kept := by unfold kept; rfl
@[simp] theorem kept_withUndo (s : State) (x : List (KTime × Nat × Nat)) : (s.withUndo x).kept = s.kept := by unfold kept; rfl
@[simp] theorem kept_withDue (s : State) (x : List (Nat × KTime)) : (s.withDue x).kept = s.kept := by unfold kept; rfl
@[simp] theorem kept_withResult (s : State) (x : Nat) : (s.withResult x).kept = s.kept := by unfold kept; rfl
@[simp] theorem kept_withOutbox (s : State) (x : List Emission) : (s.withOutbox x).kept = s.kept := by unfold kept; rfl
@[simp] theorem kept_withPcie (s : State) (x : Pcie) : (s.withPcie x).kept = s.kept := by unfold kept; rfl
@[simp] theorem kept_withPev (s : State) (x : PcieEvents) : (s.withPev x).kept = s.kept := by unfold kept; rfl
@[simp] theorem kept_withKs (s : State) (x : Ks) : (s.withKs x).kept = s.kept := by unfold kept; rfl
@[simp] theorem kept_withLo (s : State) (x : Lo) : (s.withLo x).kept = s.kept := by unfold kept; rfl
@[simp] theorem kept_withCond (s : State) (x : Conditions) : (s.withCond x).kept = s.kept := by unfold kept; rfl
@[simp] theorem kept_withIng (s : State) (x : Ingest) : (s.withIng x).kept = s.kept := by unfold kept; rfl
@[simp] theorem kept_withRing (s : State) (x : Ring) : (s.withRing x).kept = s.kept := by unfold kept; rfl
@[simp] theorem kept_withTrig (s : State) (x : Trig) : (s.withTrig x).kept = s.kept := by unfold kept; rfl
@[simp] theorem kept_withFes (s : State) (x : FrontEnds) : (s.withFes x).kept = s.kept := by unfold kept; rfl
@[simp] theorem kept_withCal (s : State) (x : Calibration) : (s.withCal x).kept = s.kept := by unfold kept; rfl
@[simp] theorem kept_withAcq (s : State) (x : Acq) : (s.withAcq x).kept = s.kept := by unfold kept; rfl
@[simp] theorem kept_withSpan (s : State) (x : Span) : (s.withSpan x).kept = s.kept := by unfold kept; rfl
@[simp] theorem kept_withHrs (s : State) (x : Tab HostRing) : (s.withHrs x).kept = s.kept := by unfold kept; rfl
@[simp] theorem kept_withNet (s : State) (x : Net) : (s.withNet x).kept = s.kept := by unfold kept; rfl
@[simp] theorem kept_withViews (s : State) (x : Views) : (s.withViews x).kept = s.kept := by unfold kept; rfl
@[simp] theorem kept_withGirders (s : State) (x : Tab Girder) : (s.withGirders x).kept = s.kept := by unfold kept; rfl
@[simp] theorem kept_withToll (s : State) (x : Toll) : (s.withToll x).kept = s.kept := by unfold kept; rfl
@[simp] theorem kept_withProds (s : State) (x : Products) : (s.withProds x).kept = s.kept := by unfold kept; rfl
@[simp] theorem kept_withMasks (s : State) (x : Tab Mask) : (s.withMasks x).kept = s.kept := by unfold kept; rfl
@[simp] theorem kept_withMovers (s : State) (x : Tab Mover) : (s.withMovers x).kept = s.kept := by unfold kept; rfl
@[simp] theorem kept_withCores (s : State) (x : Tab Core) : (s.withCores x).kept = s.kept := by unfold kept; rfl
@[simp] theorem kept_withRecd (s : State) (x : Recorder) : (s.withRecd x).kept = s.kept := by unfold kept; rfl
@[simp] theorem kept_withHeads (s : State) (x : Tab Head) : (s.withHeads x).kept = s.kept := by unfold kept; rfl
@[simp] theorem kept_withMon (s : State) (x : Monitor) : (s.withMon x).kept = s.kept := by unfold kept; rfl
@[simp] theorem kept_withStart (s : State) (x : Startup) : (s.withStart x).kept = s.kept := by unfold kept; rfl
@[simp] theorem kept_withPel (s : State) (x : Pelpin) : (s.withPel x).kept = s.kept := by unfold kept; rfl

/-- A change of the memory controller that leaves the contents of DRAM. -/
@[simp] theorem kept_withMem (s : State) (m : Mem) (h : m.cells = s.mem.cells) : (s.withMem m).kept = s.kept := by simp [kept, h]

/-- A change of the security state that leaves the locks. -/
@[simp] theorem kept_withSec (s : State) (x : Security) (hb : x.boardLock = s.sec.boardLock) (hk : x.keysLock = s.sec.keysLock) : (s.withSec x).kept = s.kept := by
  simp [kept, hb, hk]

end State

@[simp] theorem State.kept_setObj (s : State) (k : Nat) (v : Nat) : (State.setObj s k v).kept = s.kept := by simp [State.setObj]

@[simp] theorem State.kept_setObjI (s : State) (k : Nat) (v : Int) : (State.setObjI s k v).kept = s.kept := by simp [State.setObjI]

@[simp] theorem State.kept_addObj (s : State) (k : Nat) (n : Nat) : (State.addObj s k n).kept = s.kept := by simp [State.addObj]

@[simp] theorem State.kept_bump (s : State) (k : Nat) : (State.bump s k).kept = s.kept := by simp [State.bump]

@[simp] theorem State.kept_drawNat (s : State) (n : Nat) : (State.drawNat s n).2.kept = s.kept := by simp [State.drawNat]

@[simp] theorem State.kept_emit (s : State) (e : Emission) : (State.emit s e).kept = s.kept := by simp [State.emit]

@[simp] theorem State.kept_pendVector (s : State) (v : Nat) : (State.pendVector s v).kept = s.kept := by simp [State.pendVector]

@[simp] theorem State.kept_raiseEvent (s : State) (n : Nat) : (State.raiseEvent s n).kept = s.kept := by
  simp only [State.raiseEvent]
  split <;> simp

@[simp] theorem State.kept_putPromise (s : State) (v : Nat) : (State.putPromise s v).kept = s.kept := by simp [State.putPromise]

@[simp] theorem State.kept_setPromise (s : State) (b : Nat) (x : Bool) : (State.setPromise s b x).kept = s.kept := by simp [State.setPromise]

@[simp] theorem State.kept_issueMarker (s : State) (cause : Nat) (port : Nat) (pier : Nat) (stream : Nat) (first : Nat) (view : Nat) (count : Nat) : (State.issueMarker s cause port pier stream first view count).kept = s.kept := by simp [State.issueMarker]

@[simp] theorem State.kept_accessError (s : State) (cause : Nat) (bar : Nat) (bytes : Nat) (dword : Nat) : (State.accessError s cause bar bytes dword).kept = s.kept := by simp [State.accessError]

@[simp] theorem State.kept_onReceipt (s : State) (f : State → Code × State) (hf : (f s).2.kept = s.kept) : (s.onReceipt f).2.kept = s.kept := by
  simp [State.onReceipt, hf]

@[simp] theorem State.kept_act (s : State) (f : State → Code × State) (hf : (f s).2.kept = s.kept) : (s.act f).kept = s.kept := by
  simp [State.act, hf]

@[simp] theorem State.kept_putCalItem (s : State) (unit : Nat) (item : Nat) (x : CalItem) : (State.putCalItem s unit item x).kept = s.kept := by simp [State.putCalItem]

@[simp] theorem State.kept_noteCauses (s : State) : (State.noteCauses s).kept = s.kept := by simp [State.noteCauses]

@[simp] theorem State.kept_refreshStale (s : State) (unit : Nat) : (State.refreshStale s unit).kept = s.kept := by simp [State.refreshStale]

@[simp] theorem State.kept_applyCal (s : State) (unit : Nat) (item : Nat) : (State.applyCal s unit item).kept = s.kept := by
  simp only [State.applyCal]
  split <;> simp

@[simp] theorem State.kept_applyLaneCodes (s : State) (lanes : List Nat) : (State.applyLaneCodes s lanes).kept = s.kept := by
  unfold State.applyLaneCodes
  exact kept_foldl _ (fun x a => by simp) _ _

@[simp] theorem State.kept_calStaleNow (s : State) (unit : Nat) (item : Nat) : (State.calStaleNow s unit item).kept = s.kept := by simp [State.calStaleNow]

@[simp] theorem State.kept_offerSet (s : State) (unit : Nat) (item : Nat) (codes : List Nat) (limited : Bool) : (State.offerSet s unit item codes limited).kept = s.kept := by simp [State.offerSet]

@[simp] theorem State.kept_drawCodes (s : State) (bits : Nat) (n : Nat) : (State.drawCodes s bits n).2.kept = s.kept := by
  induction n generalizing s with
  | zero => rfl
  | succ n ih => rw [drawCodes]; simp [ih]

@[simp] theorem State.kept_calibratePier (s : State) (p : Nat) : (State.calibratePier s p).kept = s.kept := by simp [State.calibratePier]

@[simp] theorem State.kept_refreshConditions (s : State) : (State.refreshConditions s).kept = s.kept := by simp [State.refreshConditions]

@[simp] theorem State.kept_enterKs (s : State) (st : Nat) : (State.enterKs s st).kept = s.kept := by simp [State.enterKs]

@[simp] theorem State.kept_setOffset (s : State) (off : Int) : (State.setOffset s off).kept = s.kept := by simp [State.setOffset]

@[simp] theorem State.kept_slewFrom (s : State) (off : Int) : (State.slewFrom s off).kept = s.kept := by simp [State.slewFrom]

@[simp] theorem State.kept_keystoneTick (s : State) : (State.keystoneTick s).kept = s.kept := by simp [State.keystoneTick]

@[simp] theorem State.kept_mashTick (s : State) : (State.mashTick s).kept = s.kept := by simp [State.mashTick]

@[simp] theorem State.kept_rampTick (s : State) : (State.rampTick s).kept = s.kept := by
  unfold State.rampTick
  split <;> simp

@[simp] theorem State.kept_loTick (s : State) : (State.loTick s).kept = s.kept := by simp [State.loTick]

@[simp] theorem State.kept_loAcquire (s : State) : (State.loAcquire s).kept = s.kept := by simp [State.loAcquire]

@[simp] theorem State.kept_rampTo (s : State) (k : Nat) (stepped : Bool) : (State.rampTo s k stepped).kept = s.kept := by
  unfold State.rampTo
  split <;> simp

@[simp] theorem State.kept_startPll (s : State) (n : Nat) (rate : Nat) : (State.startPll s n rate).kept = s.kept := by simp [State.startPll]

@[simp] theorem State.kept_lockPll (s : State) (n : Nat) : (State.lockPll s n).kept = s.kept := by simp [State.lockPll]

@[simp] theorem State.kept_stopPll (s : State) (n : Nat) : (State.stopPll s n).kept = s.kept := by simp [State.stopPll]

@[simp] theorem State.kept_pllTick (s : State) : (State.pllTick s).kept = s.kept := by simp [State.pllTick]

@[simp] theorem kept_tickEdge (s : State) : (tickEdge s).kept = s.kept := by simp [tickEdge]

@[simp] theorem State.kept_monitorSysref (s : State) (c : Nat) : (State.monitorSysref s c).kept = s.kept := by simp [State.monitorSysref]

@[simp] theorem State.kept_setAnchor (s : State) (k : KTime) (ps : Int) : (State.setAnchor s k ps).kept = s.kept := by simp [State.setAnchor]

@[simp] theorem State.kept_enterTai (s : State) (st : Nat) : (State.enterTai s st).kept = s.kept := by simp [State.enterTai]

@[simp] theorem State.kept_taiMeasure (s : State) (k : KTime) (ps : Int) : (State.taiMeasure s k ps).kept = s.kept := by simp [State.taiMeasure]

@[simp] theorem State.kept_immKsLoad (v : Nat) (s : State) : (State.immKsLoad v s).2.kept = s.kept := by simp [State.immKsLoad]

@[simp] theorem State.kept_loConfirm (s : State) : (State.loConfirm s).kept = s.kept := by simp [State.loConfirm]

@[simp] theorem State.kept_rebase (s : State) (old : KTime) (new : KTime) : (State.rebase s old new).kept = s.kept := by simp [State.rebase]

@[simp] theorem kept_commitLo (s : State) (g : Group) (old : Nat → Nat) : (commitLo s g old).kept = s.kept := by simp [commitLo]

@[simp] theorem kept_commitTai (s : State) (g : Group) (old : Nat → Nat) : (commitTai s g old).kept = s.kept := by simp [commitTai]

@[simp] theorem State.kept_stepTime (s : State) (T : Nat) (d : Nat) : (State.stepTime s T d).kept = s.kept := by
  simp only [State.stepTime]
  split <;> simp

@[simp] theorem kept_commitSysref (s : State) (g : Group) : (commitSysref s g).kept = s.kept := by simp [commitSysref]


@[simp] theorem State.kept_putMemChan (s : State) (k : Nat) (c : MemChan) : (State.putMemChan s k c).kept = s.kept := by simp [State.putMemChan]

@[simp] theorem State.kept_loseWrite (s : State) (r : MemReq) : (State.loseWrite s r).kept = s.kept := by
  unfold State.loseWrite
  split <;> simp

@[simp] theorem State.kept_loseRead (s : State) (r : MemReq) : (State.loseRead s r).kept = s.kept := by
  unfold State.loseRead
  split <;> simp

@[simp] theorem State.kept_loseReq (s : State) (r : MemReq) : (State.loseReq s r).kept = s.kept := by simp [State.loseReq]

@[simp] theorem State.kept_enqueue (s : State) (owner : Owner) (cls : Nat) (write : Bool) (addr : Nat) (len : Nat) (data : Bytes) (mask : optParam (List Bool) []) : (State.enqueue s owner cls write addr len data mask).kept = s.kept := by
  simp only [State.enqueue]
  have hkept : (s.withMem { s.mem with nextId := s.mem.nextId + 1 }).kept = s.kept := State.kept_withMem _ _ rfl
  generalize s.withMem { s.mem with nextId := s.mem.nextId + 1 } = s0 at hkept ⊢
  split
  · simp [hkept]
  · split
    · split <;> simp [hkept]
    · simp [hkept]

@[simp] theorem State.kept_memWrite (s : State) (owner : Owner) (cls : Nat) (a : Nat) (data : Bytes) : (State.memWrite s owner cls a data).kept = s.kept := by
  unfold State.memWrite
  exact kept_foldl _ (fun x a => by simp) _ _

@[simp] theorem State.kept_memRead (s : State) (owner : Owner) (cls : Nat) (a : Nat) (n : Nat) : (State.memRead s owner cls a n).kept = s.kept := by
  unfold State.memRead
  exact kept_foldl _ (fun x a => by simp) _ _

@[simp] theorem State.kept_takeRead (s : State) (o : Owner) (a : Nat) (n : Nat) : (State.takeRead s o a n).2.kept = s.kept := by simp [State.takeRead]

@[simp] theorem State.kept_memTake (s : State) (cls : Nat) (a : Nat) (n : Nat) : (State.memTake s cls a n).2.kept = s.kept := by simp [State.memTake]

@[simp] theorem State.kept_abandonReads (s : State) (p : Owner → Bool) : (State.abandonReads s p).kept = s.kept := by simp [State.abandonReads]

@[simp] theorem State.kept_dropArrived (s : State) (p : Owner → Bool) : (State.dropArrived s p).kept = s.kept := by simp [State.dropArrived]

@[simp] theorem State.kept_finishAperture (s : State) : (State.finishAperture s).kept = s.kept := by
  unfold State.finishAperture
  exact kept_foldl _ (fun x a => by simp) _ _

@[simp] theorem State.kept_setPanic (s : State) (port : Nat) (on : Bool) : (State.setPanic s port on).kept = s.kept := by simp [State.setPanic]

@[simp] theorem State.kept_trimRedirect (s : State) : (State.trimRedirect s).kept = s.kept := by simp [State.trimRedirect]

@[simp] theorem State.kept_refreshRingAvail (s : State) : (State.refreshRingAvail s).kept = s.kept := by simp [State.refreshRingAvail]

@[simp] theorem State.kept_putCtx (s : State) (c : Nat) (x : Ctx) : (State.putCtx s c x).kept = s.kept := by simp [State.putCtx]

@[simp] theorem State.kept_updRecord (s : State) (r : Record) : (State.updRecord s r).kept = s.kept := by simp [State.updRecord]

@[simp] theorem State.kept_putRingStream (s : State) (id : Nat) (x : RingStream) : (State.putRingStream s id x).kept = s.kept := by simp [State.putRingStream]

@[simp] theorem State.kept_retireSlab (s : State) (k : Nat) : (State.retireSlab s k).kept = s.kept := by
  unfold State.retireSlab
  split <;> simp

@[simp] theorem State.kept_applyResize (s : State) : (State.applyResize s).kept = s.kept := by
  unfold State.applyResize
  split <;> simp

@[simp] theorem State.kept_takeSlab (s : State) (id : Nat) : (State.takeSlab s id).kept = s.kept := by simp [State.takeSlab]

@[simp] theorem State.kept_placeBlock (s : State) (id : Nat) (n : Nat) : (State.placeBlock s id n).2.kept = s.kept := by
  induction n generalizing s with
  | zero => rfl
  | succ n ih =>
    simp only [State.placeBlock]
    split_ifs
    · rfl
    · split
      · split <;> simp [ih]
      · simp [ih]

@[simp] theorem State.kept_refreshWriterPanic (s : State) (pier : Nat) : (State.refreshWriterPanic s pier).kept = s.kept := by simp [State.refreshWriterPanic]

@[simp] theorem State.kept_settleBlock (s : State) (id : Nat) (b : Block) : (State.settleBlock s id b).2.kept = s.kept := by simp [State.settleBlock]

@[simp] theorem State.kept_loseBlock (s : State) (id : Nat) (cause : Nat) (b : Block) : (State.loseBlock s id cause b).kept = s.kept := by simp [State.loseBlock]

@[simp] theorem State.kept_closeBlock (s : State) (id : Nat) : (State.closeBlock s id).kept = s.kept := by
  simp only [State.closeBlock]
  split
  · rfl
  · split_ifs
    · simp
    · split <;> rename_i heq <;> obtain ⟨-, rfl⟩ := Prod.ext_iff.mp heq.symm <;> simp

@[simp] theorem State.kept_openBlockAt (s : State) (id : Nat) (gap : Bool) (p : Position) : (State.openBlockAt s id gap p).kept = s.kept := by
  simp only [State.openBlockAt]
  split <;> simp

@[simp] theorem State.kept_ringAppend (s : State) (id : Nat) (p : Position) (n : Nat) : (State.ringAppend s id p n).kept = s.kept := by
  simp only [State.ringAppend]
  split <;> simp

@[simp] theorem State.kept_endStream (s : State) (id : Nat) : (State.endStream s id).kept = s.kept := by simp [State.endStream]

@[simp] theorem State.kept_passUnselected (s : State) (id : Nat) (t : KTime) : (State.passUnselected s id t).kept = s.kept := by
  unfold State.passUnselected
  split <;> simp

@[simp] theorem State.kept_startStream (s : State) (id : Nat) (T : Nat) (fresh : Bool) : (State.startStream s id T fresh).kept = s.kept := by simp [State.startStream]

@[simp] theorem State.kept_rawTap (s : State) (pier : Nat) (port : Nat) (step : Nat) (format : Nat) (samples : List (Exact × Int × Int × Bool × Nat)) (bad : Bool) : (State.rawTap s pier port step format samples bad).kept = s.kept := by simp [State.rawTap]

@[simp] theorem State.kept_rawGap (s : State) (pier : Nat) (port : Nat) (step : Nat) (format : Nat) (t : Exact) (n : Nat) (cause : Nat) : (State.rawGap s pier port step format t n cause).kept = s.kept := by simp [State.rawGap]

@[simp] theorem State.kept_blockWritten (s : State) (id : Nat) : (State.blockWritten s id).kept = s.kept := by
  simp only [State.blockWritten]
  split <;> simp

@[simp] theorem State.kept_stagedRecord (s : State) (r : Record) : (State.stagedRecord s r).2.kept = s.kept := by
  unfold State.stagedRecord
  split <;> simp

@[simp] theorem State.kept_putDrive (s : State) (d : Nat) (x : Drive) : (State.putDrive s d x).kept = s.kept := by simp [State.putDrive]

@[simp] theorem State.kept_putSegments (s : State) (l : List Segment) : (State.putSegments s l).kept = s.kept := by simp [State.putSegments]

@[simp] theorem State.kept_updSegment (s : State) (x : Segment) : (State.updSegment s x).kept = s.kept := by simp [State.updSegment]

@[simp] theorem State.kept_nvmeWrite (s : State) (w : DriveWrite) : (State.nvmeWrite s w).kept = s.kept := by simp [State.nvmeWrite]

@[simp] theorem State.kept_writeLabel (s : State) (n : Nat) : (State.writeLabel s n).kept = s.kept := by simp [State.writeLabel]

theorem State.kept_of_placeItem {s t : State} {ns n off : Nat} (h : s.placeItem ns n = some (off, t)) : t.kept = s.kept := by
  simp only [State.placeItem] at h
  split_ifs at h <;> obtain ⟨-, rfl⟩ := Prod.mk.inj (Option.some.inj h) <;> simp

@[simp] theorem State.kept_closeSegment (s : State) (x : Segment) (cause : Nat) : (State.closeSegment s x cause).kept = s.kept := by simp [State.closeSegment]

@[simp] theorem State.kept_closeNamespace (s : State) (ns : Nat) (cause : Nat) : (State.closeNamespace s ns cause).kept = s.kept := by
  unfold State.closeNamespace
  exact kept_foldl _ (fun x a => by simp) _ _

@[simp] theorem State.kept_fillNamespace (s : State) (ns : Nat) : (State.fillNamespace s ns).kept = s.kept := by simp [State.fillNamespace]

@[simp] theorem State.kept_closeDue (s : State) : (State.closeDue s).kept = s.kept := by
  unfold State.closeDue
  exact kept_foldl _ (fun x a => by split <;> simp) _ _

@[simp] theorem State.kept_dropRecord (s : State) (r : Record) : (State.dropRecord s r).kept = s.kept := by simp [State.dropRecord]

@[simp] theorem State.kept_openSegment (s : State) (r : Record) (ns : Nat) : (State.openSegment s r ns).2.kept = s.kept := by simp [State.openSegment]

@[simp] theorem State.kept_recordToDrive (s : State) (r : Record) (ns : Nat) : (s.recordToDrive r ns).kept = s.kept := by
  rw [State.recordToDrive]
  split
  · simp
  split
  · rfl
  extract_lets s0 len
  split
  · simp [s0]
  next off s1 hplace =>
    have hs1 : s1.kept = s.kept := by rw [State.kept_of_placeItem hplace, State.kept_closeDue]
    split
    next r2 s2 hstaged =>
      have hs2 : s2.kept = s.kept := by rw [← hs1, ← State.kept_stagedRecord s1 r, hstaged]
      extract_lets g
      split
      next x s3 hseg =>
        have hs3 : s3.kept = s.kept := by
          rw [← hs2]
          split at hseg
          · rw [(Prod.mk.inj hseg).2]
          · rw [← State.kept_openSegment s2 r2 ns, hseg]
        extract_lets prev item y s4
        split <;> simp [s4, hs3]

@[simp] theorem State.kept_failDrive (s : State) (d : Nat) : (State.failDrive s d).kept = s.kept := by simp [State.failDrive]

@[simp] theorem kept_immRecDriveRestart (d : Nat) (s : State) : (immRecDriveRestart d s).2.kept = s.kept := by simp [immRecDriveRestart]

@[simp] theorem State.kept_spaceReady (s : State) (n : Nat) : (State.spaceReady s n).kept = s.kept := by simp [State.spaceReady]

@[simp] theorem kept_immRecNsRead (n : Nat) (offset : Nat) (count : Nat) (addr : Nat) (s : State) : (immRecNsRead n offset count addr s).2.kept = s.kept := by simp [immRecNsRead]

@[simp] theorem kept_commitRecorder (s : State) (g : Group) (old : Nat → Nat) : (commitRecorder s g old).kept = s.kept := by simp [commitRecorder]

@[simp] theorem State.kept_putTrussPort (s : State) (p : Nat) (x : TrussPort) : (State.putTrussPort s p x).kept = s.kept := by simp [State.putTrussPort]

@[simp] theorem State.kept_putTrussClass (s : State) (p : Nat) (c : Nat) (x : TrussClass) : (State.putTrussClass s p c x).kept = s.kept := by simp [State.putTrussClass]

@[simp] theorem State.kept_trussPump (s : State) (p : Nat) (c : Nat) (n : Nat) : (State.trussPump s p c n).kept = s.kept := by
  induction n generalizing s with
  | zero => rfl
  | succ n ih =>
    simp only [State.trussPump]
    split <;> simp [ih]

@[simp] theorem State.kept_trussSend (s : State) (p : Nat) (c : Nat) (packet : Bytes) : (State.trussSend s p c packet).kept = s.kept := by simp [State.trussSend]

@[simp] theorem State.kept_trussBroadcast (s : State) (c : Nat) (system : Bool) (packet : Bytes) : (State.trussBroadcast s c system packet).kept = s.kept := by
  unfold State.trussBroadcast
  exact kept_foldl _ (fun x a => by simp) _ _

@[simp] theorem State.kept_sendData (s : State) (dest : Nat) (kind : Nat) (id : Nat) (body : Bytes) : (State.sendData s dest kind id body).kept = s.kept := by
  simp only [State.sendData]
  split
  · simp
  · split <;> simp

@[simp] theorem State.kept_relaySync (s : State) (ts : KTime) : (State.relaySync s ts).kept = s.kept := by simp [State.relaySync]

@[simp] theorem State.kept_pulsePin (s : State) (driver : Nat) (width : Nat) (at' : Nat) (pin : Nat) : (State.pulsePin s driver width at' pin).kept = s.kept := by simp [State.pulsePin]

@[simp] theorem State.kept_pulseFrom (s : State) (driver : Nat) (pins : Nat) (at' : Nat) (width : Nat → Nat) : (State.pulseFrom s driver pins at' width).kept = s.kept := by
  unfold State.pulseFrom
  exact kept_foldl _ (fun x a => by simp) _ _

@[simp] theorem State.kept_pulse (s : State) (driver : Nat) (pins : Nat) (width : Nat → Nat) : (State.pulse s driver pins width).kept = s.kept := by simp [State.pulse]

@[simp] theorem State.kept_pulseNow (s : State) (driver : Nat) (pins : Nat) : (State.pulseNow s driver pins).kept = s.kept := by simp [State.pulseNow]

@[simp] theorem State.kept_setWatermark (s : State) (source : Nat) (t : KTime) : (State.setWatermark s source t).kept = s.kept := by simp [State.setWatermark]

@[simp] theorem State.kept_remoteEvent (s : State) (c : Nat) (e : Event) : (State.remoteEvent s c e).kept = s.kept := by simp [State.remoteEvent]

@[simp] theorem State.kept_publish (s : State) (e : Event) : (State.publish s e).kept = s.kept := by
  unfold State.publish
  exact kept_foldl _ (fun x a => by simp) _ _

@[simp] theorem State.kept_raiseTrigger (s : State) (source : Nat) (time : Nat) (flags : Nat) (qual : Nat) (d0 : Nat) (d1 : Nat) : (State.raiseTrigger s source time flags qual d0 d1).kept = s.kept := by simp [State.raiseTrigger]

@[simp] theorem State.kept_putPinComparator (s : State) (p : Nat) (x : PinComparator) : (State.putPinComparator s p x).kept = s.kept := by simp [State.putPinComparator]

@[simp] theorem State.kept_pinSample (s : State) (p : Nat) (t : KTime) (w : Nat) (era : KTime) (at' : Nat) (i : Int) (q : Int) : (State.pinSample s p t w era at' i q).kept = s.kept := by simp [State.pinSample]

@[simp] theorem State.kept_putLane (s : State) (n : Nat) (x : Lane) : (State.putLane s n x).kept = s.kept := by simp [State.putLane]

@[simp] theorem State.kept_putLink (s : State) (k : Nat) (x : Link) : (State.putLink s k x).kept = s.kept := by simp [State.putLink]

@[simp] theorem State.kept_putPier (s : State) (p : Nat) (x : Pier) : (State.putPier s p x).kept = s.kept := by simp [State.putPier]

@[simp] theorem State.kept_putAbutment (s : State) (p : Nat) (x : Abutment) : (State.putAbutment s p x).kept = s.kept := by simp [State.putAbutment]

@[simp] theorem State.kept_putQueue (s : State) (p : Nat) (x : List Item) : (State.putQueue s p x).kept = s.kept := by simp [State.putQueue]

@[simp] theorem State.kept_putLostRun (s : State) (p : Nat) (x : LostRun) : (State.putLostRun s p x).kept = s.kept := by simp [State.putLostRun]

@[simp] theorem State.kept_linkError (s : State) : (State.linkError s).kept = s.kept := by simp [State.linkError]

@[simp] theorem State.kept_refreshAbutment (s : State) (p : Nat) : (State.refreshAbutment s p).kept = s.kept := by simp [State.refreshAbutment]

@[simp] theorem State.kept_pushItem (s : State) (port : Nat) (it : Item) : (State.pushItem s port it).kept = s.kept := by
  simp only [State.pushItem]
  split <;> simp

@[simp] theorem State.kept_storeSample (s : State) (port : Nat) (it : Item) : (State.storeSample s port it).kept = s.kept := by simp [State.storeSample]

@[simp] theorem State.kept_runStep (s : State) (get : State → Run) (put : State → Run → State) (hput : ∀ x r, (put x r).kept = x.kept) (on : Bool) (t : KTime)
    (pier cause port stream view : Nat) : (s.runStep get put on t pier cause port stream view).kept = s.kept := by
  simp [State.runStep, hput]

@[simp] theorem State.kept_rawRuns (s : State) (port : Nat) (deg : Nat) (calPier : Nat) (t : KTime) : (State.rawRuns s port deg calPier t).kept = s.kept := by
  unfold State.rawRuns
  exact kept_foldl _ (fun x a => by simp) _ _

@[simp] theorem State.kept_endLost (s : State) (port : Nat) : (State.endLost s port).kept = s.kept := by simp [State.endLost]

@[simp] theorem State.kept_lose (s : State) (port : Nat) (g : LinkGap) (t : Exact) (step : Nat) (n : Nat) (l : Nat) : (State.lose s port g t step n l).kept = s.kept := by
  induction n generalizing s t l with
  | zero => rfl
  | succ n ih => simp [State.lose, ih]

@[simp] theorem State.kept_endEra (s : State) (port : Nat) (era : KTime) : (State.endEra s port era).kept = s.kept := by simp [State.endEra]

@[simp] theorem State.kept_endPorts (s : State) (k : Nat) (upTo : KTime) : (State.endPorts s k upTo).kept = s.kept := by simp [State.endPorts]

@[simp] theorem State.kept_loseEdges (s : State) (k : Nat) (first : Nat) (stop : Nat) (raw : Bool) : (State.loseEdges s k first stop raw).kept = s.kept := by
  unfold State.loseEdges
  split <;> simp

@[simp] theorem State.kept_rawBlock (s : State) (p : Nat) (c : LinkCfg) (bad : Bool) (b : Nat × List (Nat × Item)) : (State.rawBlock s p c bad b).kept = s.kept := by simp [State.rawBlock]

@[simp] theorem State.kept_finishEdge (s : State) (k : Nat) (w : Released) (lost : Bool) : (State.finishEdge s k w lost).kept = s.kept := by
  unfold State.finishEdge
  extract_lets c bad l s1 l1 s2 blocks s3 s4
  have hs1 : s1.kept = s.kept := by
    simp only [s1]
    split <;> simp
  have hs2 : s2.kept = s.kept := by simp [s2, hs1]
  have hs3 : s3.kept = s.kept := by
    refine (kept_foldl _ (fun x b => ?_) _ _).trans hs2
    refine (kept_foldl _ (fun y z => State.kept_rawBlock ..) _ _).trans ?_
    split <;> simp
  have hs4 : s4.kept = s.kept := by
    simp only [s4]
    split
    · exact hs3
    · refine (kept_foldl _ (fun x i => kept_foldl _ (fun y b => ?_) _ _) _ _).trans hs3
      split <;> simp
  simp [hs4]

@[simp] theorem State.kept_finishWaiting (s : State) (k : Nat) (lost : Bool) : (State.finishWaiting s k lost).kept = s.kept := by
  unfold State.finishWaiting
  split <;> simp

@[simp] theorem State.kept_crcOfReleased (s : State) (k : Nat) (n : Nat) (bad : Bool) : (State.crcOfReleased s k n bad).kept = s.kept := by
  unfold State.crcOfReleased
  split <;> simp

@[simp] theorem State.kept_measure (s : State) (k : Nat) (c : LinkCfg) (edge : Nat) (at' : KTime) : (State.measure s k c edge at').kept = s.kept := by simp [State.measure]

@[simp] theorem State.kept_measureArrival (s : State) (k : Nat) (edge : Nat) (c : LinkCfg) : (State.measureArrival s k edge c).kept = s.kept := by simp [State.measureArrival]

@[simp] theorem State.kept_noteLate (s : State) (edge : Nat) (c : LinkCfg) : (State.noteLate s edge c).kept = s.kept := by
  unfold State.noteLate
  exact kept_foldl _ (fun x a => by simp) _ _

@[simp] theorem State.kept_discardLanes (s : State) (c : LinkCfg) : (State.discardLanes s c).kept = s.kept := by
  unfold State.discardLanes
  exact kept_foldl _ (fun x a => by simp) _ _

@[simp] theorem State.kept_enterService (s : State) : (State.enterService s).kept = s.kept := by simp [State.enterService]

@[simp] theorem State.kept_piersInService (s : State) (c : LinkCfg) : (State.piersInService s c).kept = s.kept := by
  unfold State.piersInService
  exact kept_foldl _ (fun x a => by simp) _ _

@[simp] theorem State.kept_pierDone (s : State) (p : Nat) : (State.pierDone s p).kept = s.kept := by simp [State.pierDone]

@[simp] theorem State.kept_passPier (s : State) (k : Nat) (p : Nat) : (State.passPier s k p).kept = s.kept := by simp [State.passPier]

@[simp] theorem State.kept_releaseEdge (s : State) (k : Nat) (edge : Nat) (draining : Bool) : (State.releaseEdge s k edge draining).kept = s.kept := by simp [State.releaseEdge]

@[simp] theorem State.kept_restartLane (s : State) (n : Nat) : (State.restartLane s n).kept = s.kept := by simp [State.restartLane]

@[simp] theorem State.kept_restartLanes (s : State) (k : Nat) : (State.restartLanes s k).kept = s.kept := by simp [State.restartLanes]

@[simp] theorem State.kept_loseLink (s : State) (k : Nat) (p : Nat) (e : Nat) : (State.loseLink s k p e).kept = s.kept := by simp [State.loseLink]

@[simp] theorem State.kept_beginAttempt (s : State) (p : Nat) (ef : KTime) : (State.beginAttempt s p ef).kept = s.kept := by simp [State.beginAttempt]

@[simp] theorem State.kept_startRecovery (s : State) (p : Nat) (ef : KTime) : (State.startRecovery s p ef).kept = s.kept := by simp [State.startRecovery]

@[simp] theorem State.kept_laneFails (s : State) (n : Nat) (k : Nat) (e : Nat) : (State.laneFails s n k e).kept = s.kept := by simp [State.laneFails]

@[simp] theorem State.kept_releaseFails (s : State) (k : Nat) (edge : Nat) : (State.releaseFails s k edge).kept = s.kept := by simp [State.releaseFails]

@[simp] theorem State.kept_passEdge (s : State) (k : Nat) (edge : Nat) : (State.passEdge s k edge).kept = s.kept := by simp [State.passEdge]

@[simp] theorem State.kept_bringUpFails (s : State) (k : Nat) (edge : Nat) : (State.bringUpFails s k edge).kept = s.kept := by simp [State.bringUpFails]

@[simp] theorem kept_immAbutmentClear (s : State) : (immAbutmentClear s).2.kept = s.kept := by simp [immAbutmentClear]

@[simp] theorem State.kept_crcResult (s : State) (n : Nat) (k : Nat) (bad : Bool) : (State.crcResult s n k bad).kept = s.kept := by
  simp only [State.crcResult]
  split
  · simp
  · split <;> simp

@[simp] theorem State.kept_receiveBlock (s : State) (n : Nat) (k : Nat) (bad : Bool) (markers : EndMarkers) (octets : Bytes) : (State.receiveBlock s n k bad markers octets).kept = s.kept := by simp [State.receiveBlock]

@[simp] theorem State.kept_pinFrames (s : State) (k : Nat) : (State.pinFrames s k).kept = s.kept := by
  simp only [State.pinFrames]
  refine (kept_foldl _ (fun x f => ?_) _ _).trans (by simp)
  rw [State.kept_ite, kept_foldl _ (fun y p => kept_foldl _ (fun z j => ?_) _ _), ite_self]
  split
  · split <;> simp
  · rfl

@[simp] theorem State.kept_lateBlock (s : State) (n : Nat) (k : Nat) : (State.lateBlock s n k).kept = s.kept := by
  unfold State.lateBlock
  split <;> simp

@[simp] theorem State.kept_alignedBlock (s : State) (n : Nat) (k : Nat) (crcBad : Bool) (before : Bool) (cdr : Bool) (four : Bool) (nbad : Bool) (markers : EndMarkers) (octets : Bytes) : (State.alignedBlock s n k crcBad before cdr four nbad markers octets).kept = s.kept := by simp [State.alignedBlock]

@[simp] theorem kept_immPierRestart (p : Nat) (s : State) : (immPierRestart p s).2.kept = s.kept := by simp [immPierRestart]

@[simp] theorem kept_immLinkArrivalClear (k : Nat) (s : State) : (immLinkArrivalClear k s).2.kept = s.kept := by simp [immLinkArrivalClear]

@[simp] theorem kept_enableLink (s : State) (k : Nat) (T : KTime) : (enableLink s k T).kept = s.kept := by simp [enableLink]

@[simp] theorem kept_disableLink (s : State) (k : Nat) : (disableLink s k).kept = s.kept := by simp [disableLink]

@[simp] theorem kept_commitIngest (s : State) (g : Group) (old : Nat → Nat) : (commitIngest s g old).kept = s.kept := by simp [commitIngest]

@[simp] theorem State.kept_skipEdges (s : State) : (State.skipEdges s).kept = s.kept := by
  unfold State.skipEdges
  exact kept_foldl _ (fun x a => by simp) _ _

@[simp] theorem State.kept_setFectl (s : State) (old : Nat) (v : Nat) (T : Nat) : (State.setFectl s old v T).kept = s.kept := by simp [State.setFectl]

@[simp] theorem State.kept_putFe (s : State) (p : Nat) (x : Fe) : (State.putFe s p x).kept = s.kept := by simp [State.putFe]

@[simp] theorem State.kept_pushFeOut (s : State) (p : Nat) (x : FeOut) : (State.pushFeOut s p x).kept = s.kept := by simp [State.pushFeOut]

@[simp] theorem State.kept_showFade (s : State) (p : Nat) : (State.showFade s p).kept = s.kept := by
  unfold State.showFade
  split <;> simp

@[simp] theorem State.kept_replanFades (s : State) (p : Nat) (t : KTime) : (State.replanFades s p t).kept = s.kept := by simp [State.replanFades]

@[simp] theorem State.kept_noteAnchor (s : State) (p : Nat) (te : Nat) : (State.noteAnchor s p te).kept = s.kept := by simp [State.noteAnchor]

@[simp] theorem State.kept_takeItem (s : State) (p : Nat) : (State.takeItem s p).2.kept = s.kept := by
  unfold State.takeItem
  split <;> simp

@[simp] theorem State.kept_resetFe (s : State) (p : Nat) (t : Exact) (step : Nat) (te : KTime) : (State.resetFe s p t step te).kept = s.kept := by simp [State.resetFe]

@[simp] theorem State.kept_edgeFire (s : State) (p : Nat) (t : Nat) (flags : Nat) (qual : Nat) (v : Int) (c : EdgeCfg) : (State.edgeFire s p t flags qual v c).kept = s.kept := by simp [State.edgeFire]

@[simp] theorem State.kept_edgeSample (s : State) (p : Nat) (t : Nat) (flags : Nat) (i : Int) (q : Int) (c : EdgeCfg) (rise : Detector) (fall : Detector) : (State.edgeSample s p t flags i q c rise fall).2.kept = s.kept := by simp [State.edgeSample]

@[simp] theorem State.kept_rawEdge (s : State) (p : Nat) (it : Item) (settling : Bool) : (State.rawEdge s p it settling).kept = s.kept := by simp [State.rawEdge]

@[simp] theorem State.kept_feRuns (s : State) (port : Nat) (deg : Nat) (calPier : Nat) (t : Nat) : (State.feRuns s port deg calPier t).kept = s.kept := by
  unfold State.feRuns
  exact kept_foldl _ (fun x a => by simp) _ _

@[simp] theorem State.kept_endGapRun (s : State) (p : Nat) : (State.endGapRun s p).kept = s.kept := by
  unfold State.endGapRun
  split <;> simp

@[simp] theorem State.kept_endFe (s : State) (p : Nat) : (State.endFe s p).kept = s.kept := by simp [State.endFe]

@[simp] theorem State.kept_gapOutput (s : State) (p : Nat) (t : Nat) (cause : Nat) (pier : Nat) : (State.gapOutput s p t cause pier).kept = s.kept := by
  unfold State.gapOutput
  split <;> simp

@[simp] theorem State.kept_feTap (s : State) (p : Nat) (step : Nat) (t : Exact) (o : Option (Int × Int)) (flags : Nat) (deg : Nat) (cause : Nat) : (State.feTap s p step t o flags deg cause).kept = s.kept := by
  unfold State.feTap
  split <;> simp

@[simp] theorem State.kept_deliver (s : State) (p : Nat) (t : Exact) (o : Smp) : (State.deliver s p t o).kept = s.kept := by
  unfold State.deliver
  split <;> simp

@[simp] theorem State.kept_finalOutput (s : State) (p : Nat) (t : KTime) (c : FeCfg) (hist : List Smp) : (State.finalOutput s p t c hist).2.kept = s.kept := by
  simp only [State.finalOutput]
  split <;> simp

@[simp] theorem State.kept_decimate (s : State) (p : Nat) (t : Exact) (c : FeCfg) (x : Smp) : (State.decimate s p t c x).kept = s.kept := by
  simp only [State.decimate]
  split
  · split <;> simp
  · split
    · simp
    · split <;> simp

@[simp] theorem State.kept_mixStep (s : State) (p : Nat) (t : Exact) (c : FeCfg) (x : Smp) : (State.mixStep s p t c x).kept = s.kept := by simp [State.mixStep]

@[simp] theorem State.kept_startFe (s : State) (p : Nat) (t : KTime) : (State.startFe s p t).kept = s.kept := by simp [State.startFe]

@[simp] theorem State.kept_feAligned (s : State) (p : Nat) (it : Item) (settling : Bool) : (State.feAligned s p it settling).kept = s.kept := by
  simp only [State.feAligned]
  split
  · simp
  · split
    · simp
    · split <;> simp

@[simp] theorem State.kept_scheduleReset (s : State) (ts : KTime) : (State.scheduleReset s ts).kept = s.kept := by simp [State.scheduleReset]

@[simp] theorem State.kept_syncNow (s : State) : (State.syncNow s).kept = s.kept := by
  unfold State.syncNow
  exact kept_foldl _ (fun x a => by simp) _ _

@[simp] theorem State.kept_refreshFe (s : State) (p : Nat) : (State.refreshFe s p).kept = s.kept := by simp [State.refreshFe]

@[simp] theorem kept_acceptFades (s : State) (g : Group) : (acceptFades s g).kept = s.kept := by
  unfold acceptFades
  exact kept_foldl _ (fun x a => by dsimp only; split <;> simp) _ _

@[simp] theorem kept_commitFrontEnd (s : State) (g : Group) (_old : Nat → Nat) : (commitFrontEnd s g _old).kept = s.kept := by simp [commitFrontEnd]

@[simp] theorem State.kept_putHostRing (s : State) (n : Nat) (x : HostRing) : (State.putHostRing s n x).kept = s.kept := by simp [State.putHostRing]

@[simp] theorem State.kept_ringVector (s : State) (n : Nat) : (State.ringVector s n).kept = s.kept := by simp [State.ringVector]

@[simp] theorem State.kept_writeEntry (s : State) (n : Nat) (cls : Nat) (kind : Nat) (payload : Bytes) (record : Option (Nat × Nat)) : (State.writeEntry s n cls kind payload record).2.kept = s.kept := by simp [State.writeEntry]

@[simp] theorem State.kept_putVrtStream (s : State) (n : Nat) (x : VrtStream) : (State.putVrtStream s n x).kept = s.kept := by simp [State.putVrtStream]

@[simp] theorem State.kept_vrtQueue (s : State) (n : Nat) (records : List VrtRecord) : (State.vrtQueue s n records).kept = s.kept := by
  unfold State.vrtQueue
  exact kept_foldl _ (fun x a => by simp) _ _

@[simp] theorem State.kept_vrtOffer (s : State) (n : Nat) (r : VrtRecord) : (State.vrtOffer s n r).kept = s.kept := by simp [State.vrtOffer]

@[simp] theorem State.kept_putViewPort (s : State) (v : Nat) (p : Nat) (x : ViewPort) : (State.putViewPort s v p x).kept = s.kept := by simp [State.putViewPort]

@[simp] theorem State.kept_publishView (s : State) (v : Nat) (p : Nat) (record : Bytes) (format : Nat) (flags : Nat) (t : KTime) : (State.publishView s v p record format flags t).kept = s.kept := by simp [State.publishView]

@[simp] theorem State.kept_closeTrace (s : State) (v : Nat) (p : Nat) (early : Bool) : (State.closeTrace s v p early).kept = s.kept := by
  simp only [State.closeTrace]
  split <;> simp

@[simp] theorem State.kept_traceStep (s : State) (v : Nat) (p : Nat) (k : Nat) (t : KTime) (epoch : Nat) (frame : Option Frame) (gap : Bool) : (State.traceStep s v p k t epoch frame gap).kept = s.kept := by
  simp only [State.traceStep]
  split <;> simp

@[simp] theorem State.kept_viewRuns (s : State) (v : Nat) (p : Nat) (deg : Nat) (calPier : Nat) (t : Nat) : (State.viewRuns s v p deg calPier t).kept = s.kept := by
  unfold State.viewRuns
  exact kept_foldl _ (fun x a => by simp) _ _

@[simp] theorem State.kept_endViewRun (s : State) (v : Nat) (p : Nat) : (State.endViewRun s v p).kept = s.kept := by
  simp only [State.endViewRun]
  split <;> simp

@[simp] theorem State.kept_viewGap (s : State) (v : Nat) (p : Nat) (cause : Nat) (pier : Nat) (t : Nat) : (State.viewGap s v p cause pier t).kept = s.kept := by
  unfold State.viewGap
  split <;> simp

@[simp] theorem State.kept_endSuspension (s : State) (v : Nat) (p : Nat) : (State.endSuspension s v p).kept = s.kept := by
  simp only [State.endSuspension]
  split <;> simp

@[simp] theorem State.kept_deliverFrame (s : State) (v : Nat) (p : Nat) (f : Frame) : (State.deliverFrame s v p f).kept = s.kept := by
  unfold State.deliverFrame
  split
  · simp
  · split <;> simp

@[simp] theorem State.kept_deliverReady (s : State) (v : Nat) (p : Nat) (n : Nat) : (State.deliverReady s v p n).kept = s.kept := by
  induction n generalizing s with
  | zero => rfl
  | succ n ih =>
    simp only [State.deliverReady]
    split <;> simp [ih]

@[simp] theorem State.kept_regrid (s : State) (v : Nat) (p : Nat) (anchor : Nat) (te : KTime) : (State.regrid s v p anchor te).kept = s.kept := by simp [State.regrid]

@[simp] theorem State.kept_viewLeaves (s : State) (v : Nat) (p : Nat) : (State.viewLeaves s v p).kept = s.kept := by simp [State.viewLeaves]

/-- Do the states that the next frame index of a view leads to keep q? -/
def State.NextFrame.keeps (q : List Instr × List Host.Cell × Bool × Bool × List Group) : State.NextFrame → Prop
  | .waiting => True
  | .passed t => t.kept = q
  | .ready t _ => t.kept = q

theorem State.leaveOr_keeps {q : List Instr × List Host.Cell × Bool × Bool × List Group} (s : State) (v p : Nat) (x : ViewPort) {other : State.NextFrame}
    (hs : s.kept = q) (ho : other.keeps q) : (s.leaveOr v p x other).keeps q := by
  unfold State.leaveOr
  split_ifs
  · exact ho
  · simpa [State.NextFrame.keeps] using hs
  · trivial

theorem State.frameAt_keeps (s : State) (v p : Nat) (x : ViewPort) (outs : List FeOut) (i : Nat) : (s.frameAt v p x outs i).keeps s.kept := by
  simp only [State.frameAt]
  split
  · split_ifs
    · exact s.leaveOr_keeps v p x rfl trivial
    · trivial
  · split_ifs
    · exact s.leaveOr_keeps v p x rfl (by simp [State.NextFrame.keeps])
    · exact s.leaveOr_keeps v p x rfl trivial
    · trivial
    · simp [State.NextFrame.keeps]
    · simp [State.NextFrame.keeps]
    · split <;> simp [State.NextFrame.keeps]

theorem State.nextFrame_keeps (s : State) (v p : Nat) : (s.nextFrame v p).keeps s.kept := by
  simp only [State.nextFrame]
  split_ifs
  · split
    · trivial
    · split_ifs
      · simp [State.NextFrame.keeps]
      · trivial
  · split
    · split_ifs
      · exact s.frameAt_keeps ..
      · exact s.leaveOr_keeps v p _ rfl (by simp [State.NextFrame.keeps])
      · simp [State.NextFrame.keeps]
      · trivial
    · exact s.frameAt_keeps ..

theorem State.passFrames_kept (s : State) (v p n : Nat) :
    (s.passFrames v p n).1.kept = s.kept ∧ ∀ e ∈ (s.passFrames v p n).2, e.1.kept = s.kept := by
  induction n generalizing s with
  | zero => simp [State.passFrames]
  | succ n ih =>
    have hnext := s.nextFrame_keeps v p
    unfold State.passFrames
    split <;> rename_i heq <;> rw [heq] at hnext
    · simp
    · rw [← show _ = s.kept from hnext]
      exact ih _
    · simpa [State.NextFrame.keeps] using hnext

@[simp] theorem State.kept_suspendViews (s : State) (n : List Nat) : (State.suspendViews s n).kept = s.kept := by
  induction n generalizing s with
  | nil => rfl
  | cons w r ih => simp [State.suspendViews, ih]

@[simp] theorem State.kept_refreshLoads (s : State) : (State.refreshLoads s).kept = s.kept := by simp [State.refreshLoads]

@[simp] theorem State.kept_refreshAdmitted (s : State) : (State.refreshAdmitted s).kept = s.kept := by simp [State.refreshAdmitted]

@[simp] theorem State.kept_refreshSpares (s : State) : (State.refreshSpares s).kept = s.kept := by simp [State.refreshSpares]

@[simp] theorem State.kept_dataMemoryUe (s : State) : (State.dataMemoryUe s).kept = s.kept := by simp [State.dataMemoryUe]

@[simp] theorem State.kept_readmit (s : State) : (State.readmit s).kept = s.kept := by simp [State.readmit]

@[simp] theorem State.kept_putGirder (s : State) (g : Nat) (x : Girder) : (State.putGirder s g x).kept = s.kept := by simp [State.putGirder]

@[simp] theorem State.kept_updFrame (s : State) (v : Nat) (p : Nat) (f : Frame) : (State.updFrame s v p f).kept = s.kept := by simp [State.updFrame]

@[simp] theorem State.kept_countGirders (s : State) : (State.countGirders s).kept = s.kept := by simp [State.countGirders]

@[simp] theorem State.kept_bringSpare (s : State) (g : Nat) : (State.bringSpare s g).kept = s.kept := by simp [State.bringSpare]

@[simp] theorem State.kept_rerunFrames (s : State) (g : Nat) : (State.rerunFrames s g).kept = s.kept := by
  unfold State.rerunFrames
  split <;> simp

@[simp] theorem State.kept_retireGirder (s : State) (g : Nat) : (State.retireGirder s g).kept = s.kept := by
  simp only [State.retireGirder]
  split <;> simp

@[simp] theorem State.kept_failFrame (s : State) (v : Nat) (p : Nat) (f : Frame) (g : Nat) : (State.failFrame s v p f g).kept = s.kept := by simp [State.failFrame]

@[simp] theorem kept_immGirderRetire (g : Nat) (s : State) : (immGirderRetire g s).2.kept = s.kept := by simp [immGirderRetire]

@[simp] theorem kept_commitViews (s : State) (g : Group) (old : Nat → Nat) : (commitViews s g old).kept = s.kept := by simp [commitViews]

@[simp] theorem State.kept_putMover (s : State) (m : Nat) (x : Mover) : (State.putMover s m x).kept = s.kept := by simp [State.putMover]

@[simp] theorem State.kept_settleMover (s : State) (m : Nat) : (State.settleMover s m).kept = s.kept := by simp [State.settleMover]

@[simp] theorem State.kept_startMover (s : State) (m : Nat) : (State.startMover s m).kept = s.kept := by simp [State.startMover]

@[simp] theorem State.kept_moverEvent (s : State) (code : Nat) : (State.moverEvent s code).kept = s.kept := by
  unfold State.moverEvent
  exact kept_foldl _ (fun x a => by simp) _ _

@[simp] theorem State.kept_ringRecord (s : State) (o : Owner) (base : Nat) (size : Nat) (place : Nat) (record : Bytes) : (State.ringRecord s o base size place record).2.kept = s.kept := by simp [State.ringRecord]

@[simp] theorem State.kept_putMerge (s : State) (g : Nat) (x : Merge) : (State.putMerge s g x).kept = s.kept := by simp [State.putMerge]

@[simp] theorem State.kept_mergeAcked (s : State) (g : Nat) (n : Nat) : (State.mergeAcked s g n).kept = s.kept := by
  induction n generalizing s with
  | zero => rfl
  | succ n ih =>
    simp only [State.mergeAcked]
    split <;> simp [ih]

@[simp] theorem State.kept_mergeWrite (s : State) (g : Nat) (slot : MergeSlot) : (State.mergeWrite s g slot).kept = s.kept := by
  simp only [State.mergeWrite]
  split <;> simp

@[simp] theorem State.kept_mergeSettle (s : State) (g : Nat) : (State.mergeSettle s g).kept = s.kept := by
  unfold State.mergeSettle
  exact kept_foldl _ (fun x a => by simp) _ _

@[simp] theorem State.kept_mergeArrive (s : State) (g : Nat) (node : Nat) (start : KTime) (record : Bytes) : (State.mergeArrive s g node start record).kept = s.kept := by simp [State.mergeArrive]

@[simp] theorem State.kept_mergeSend (s : State) (kind : Nat) (n : Nat) (start : KTime) (record : Bytes) : (State.mergeSend s kind n start record).kept = s.kept := by
  unfold State.mergeSend
  exact kept_foldl _ (fun x a => by simp) _ _

@[simp] theorem State.kept_putProduct (s : State) (k : Nat) (n : Nat) (x : Product) : (State.putProduct s k n x).kept = s.kept := by simp [State.putProduct]

@[simp] theorem State.kept_occEvent (s : State) (m : Nat) (t : Nat) (frame : Option Nat) : (State.occEvent s m t frame).kept = s.kept := by
  simp only [State.occEvent, State.kept_ite]
  cases frame <;> simp

@[simp] theorem State.kept_imageZero (s : State) (m : Nat) (t : Nat) : (State.imageZero s m t).kept = s.kept := by simp [State.imageZero]

@[simp] theorem State.kept_densZero (s : State) (m : Nat) (t : Nat) (before : Nat) : (State.densZero s m t before).kept = s.kept := by simp [State.densZero]

@[simp] theorem State.kept_densDecay (s : State) (m : Nat) (t : Nat) : (State.densDecay s m t).kept = s.kept := by simp [State.densDecay]

@[simp] theorem State.kept_densFrame (s : State) (m : Nat) (f : Frame) : (State.densFrame s m f).kept = s.kept := by simp [State.densFrame]

@[simp] theorem State.kept_pairFrame (s : State) (n : Nat) (fx : Frame) (fy : Frame) : (State.pairFrame s n fx fy).kept = s.kept := by simp [State.pairFrame]

@[simp] theorem State.kept_intFrame (s : State) (i : Nat) (f : Frame) : (State.intFrame s i f).kept = s.kept := by
  unfold State.intFrame
  split <;> simp

@[simp] theorem State.kept_prodPayload (s : State) (k : Nat) (n : Nat) : (State.prodPayload s k n).2.kept = s.kept := by simp [State.prodPayload]

@[simp] theorem State.kept_closeInterval (s : State) (k : Nat) (n : Nat) (stop : Nat) (early : Bool) : (State.closeInterval s k n stop early).kept = s.kept := by simp [State.closeInterval]

@[simp] theorem State.kept_freshInterval (s : State) (k : Nat) (n : Nat) (start : Nat) (part : Bool) : (State.freshInterval s k n start part).kept = s.kept := by simp [State.freshInterval]

@[simp] theorem State.kept_advanceTo (s : State) (k : Nat) (n : Nat) (tb : Nat) (td : Nat) (z : Nat) : (State.advanceTo s k n tb td z).kept = s.kept := by
  induction z generalizing s with
  | zero => rfl
  | succ z ih =>
    simp only [State.advanceTo]
    generalize (if k = 1 then s.nextDecay n else none) = d
    split_ifs
    · rfl
    · simp [ih]
    · split <;> simp [ih]

@[simp] theorem State.kept_decaysTo (s : State) (m : Nat) (t : Nat) (n : Nat) : (State.decaysTo s m t n).kept = s.kept := by
  induction n generalizing s with
  | zero => rfl
  | succ n ih =>
    simp only [State.decaysTo]
    split <;> simp [ih]

@[simp] theorem State.kept_closeAt (s : State) (k : Nat) (n : Nat) (T : Nat) : (State.closeAt s k n T).kept = s.kept := by simp [State.closeAt]

@[simp] theorem State.kept_prodCloses (s : State) (k : Nat) (n : Nat) (z : Nat) : (State.prodCloses s k n z).kept = s.kept := by
  induction z generalizing s with
  | zero => rfl
  | succ z ih =>
    simp only [State.prodCloses]
    split <;> simp [ih]

@[simp] theorem State.kept_prodGap (s : State) (k : Nat) (n : Nat) (f : Frame) : (State.prodGap s k n f).kept = s.kept := by simp [State.prodGap]

@[simp] theorem State.kept_takeSingle (s : State) (k : Nat) (n : Nat) (f : Frame) : (State.takeSingle s k n f).kept = s.kept := by simp [State.takeSingle]

@[simp] theorem State.kept_takeAlone (s : State) (n : Nat) (f : Frame) : (State.takeAlone s n f).kept = s.kept := by simp [State.takeAlone]

@[simp] theorem State.kept_takePair (s : State) (n : Nat) (a : Frame) (b : Frame) : (State.takePair s n a b).kept = s.kept := by simp [State.takePair]

@[simp] theorem State.kept_pairInput (s : State) (n : Nat) : (State.pairInput s n).kept = s.kept := by
  simp only [State.pairInput]
  split <;> simp

@[simp] theorem State.kept_putSpectro (s : State) (g : Nat) (x : Spectro) : (State.putSpectro s g x).kept = s.kept := by simp [State.putSpectro]

@[simp] theorem State.kept_refreshSw (s : State) (n : Nat) : (State.refreshSw s n).kept = s.kept := by simp [State.refreshSw]

@[simp] theorem State.kept_fectlStep (s : State) : (State.fectlStep s).kept = s.kept := by simp [State.fectlStep]

@[simp] theorem State.kept_fectlSkip (s : State) : (State.fectlSkip s).kept = s.kept := by
  unfold State.fectlSkip
  split <;> simp

@[simp] theorem State.kept_fectlCatchUp (s : State) (n : Nat) : (State.fectlCatchUp s n).kept = s.kept := by
  induction n generalizing s with
  | zero => rfl
  | succ n ih =>
    simp only [State.fectlCatchUp]
    split <;> simp [ih]

@[simp] theorem kept_commitProducts (s : State) (g : Group) (old : Nat → Nat) : (commitProducts s g old).kept = s.kept := by simp [commitProducts]

@[simp] theorem State.kept_putMask (s : State) (m : Nat) (x : Mask) : (State.putMask s m x).kept = s.kept := by simp [State.putMask]

@[simp] theorem State.kept_maskEmpty (s : State) (m : Nat) : (State.maskEmpty s m).kept = s.kept := by simp [State.maskEmpty]

@[simp] theorem State.kept_maskArmed (s : State) (m : Nat) (t : Nat) (flags : Nat) (bad : List Nat) : (State.maskArmed s m t flags bad).kept = s.kept := by simp [State.maskArmed]

@[simp] theorem State.kept_maskDisarmed (s : State) (m : Nat) (t : Nat) (u : Nat) : (State.maskDisarmed s m t u).kept = s.kept := by simp [State.maskDisarmed]

@[simp] theorem State.kept_maskSpectrum (s : State) (m : Nat) (v : Nat) (f : Frame) : (State.maskSpectrum s m v f).kept = s.kept := by simp [State.maskSpectrum]

@[simp] theorem State.kept_countStale (s : State) : (State.countStale s).kept = s.kept := by simp [State.countStale]

@[simp] theorem State.kept_channelMark (s : State) (c : Nat) (t : KTime) : (State.channelMark s c t).kept = s.kept := by simp [State.channelMark]

@[simp] theorem State.kept_maskEnd (s : State) (m : Nat) : (State.maskEnd s m).kept = s.kept := by
  unfold State.maskEnd
  split
  · rfl
  · split <;> simp

@[simp] theorem State.kept_occEnd (s : State) (m : Nat) : (State.occEnd s m).kept = s.kept := by
  unfold State.occEnd
  split
  · rfl
  · split <;> simp

@[simp] theorem State.kept_logEvent (s : State) (e : Event) : (State.logEvent s e).kept = s.kept := by simp [State.logEvent]

@[simp] theorem kept_commitTriggers (s : State) (g : Group) (old : Nat → Nat) : (commitTriggers s g old).kept = s.kept := by simp [commitTriggers]

@[simp] theorem State.kept_refreshAcq (s : State) : (State.refreshAcq s).kept = s.kept := by simp [State.refreshAcq]

@[simp] theorem State.kept_fixRecord (s : State) (r : Record) : (State.fixRecord s r).kept = s.kept := by simp [State.fixRecord]

@[simp] theorem State.kept_closeRecord (s : State) (c : Nat) : (State.closeRecord s c).kept = s.kept := by
  simp only [State.closeRecord]
  split <;> simp

@[simp] theorem State.kept_refreshCtx (s : State) (c : Nat) : (State.refreshCtx s c).kept = s.kept := by simp [State.refreshCtx]

@[simp] theorem State.kept_takeGeneration (s : State) (c : Nat) (T : Nat) : (State.takeGeneration s c T).kept = s.kept := by
  simp only [State.takeGeneration]
  split <;> simp

@[simp] theorem State.kept_takeArm (s : State) (c : Nat) (T : Nat) : (State.takeArm s c T).kept = s.kept := by
  unfold State.takeArm
  split <;> simp

@[simp] theorem State.kept_newRecord (s : State) (c : Nat) (t : Nat) (flags : Nat) : (State.newRecord s c t flags).kept = s.kept := by simp [State.newRecord]

@[simp] theorem State.kept_offerFiring_hold (c t flags : Nat) (y : State) : (State.offerFiring.hold c t flags y).kept = y.kept := by
  simp [State.offerFiring.hold]

@[simp] theorem State.kept_offerFiring (s : State) (c t flags : Nat) : (s.offerFiring c t flags).kept = s.kept := by
  simp only [State.offerFiring]
  split
  · simp
  · split <;> simp


@[simp] theorem State.kept_takeTurns (s : State) (c : Nat) (n : Nat) : (State.takeTurns s c n).kept = s.kept := by
  induction n generalizing s with
  | zero => rfl
  | succ n ih =>
    simp only [State.takeTurns]
    split <;> simp [ih]

@[simp] theorem State.kept_ctxEvent (s : State) (c : Nat) (e : Event) : (State.ctxEvent s c e).kept = s.kept := by
  unfold State.ctxEvent
  extract_lets x s2 ignored
  split
  · simp [s2]
  · cases termsStep (s2.ctxExprNow c) e { terms := x.terms, stages := x.stages }
      ((termsUsed (s2.ctxExprNow c)).filter fun j => termMatches (s2.ctxExprNow c) j e).reverse with
    | mk st fires => cases fires <;> simp [s2]

@[simp] theorem State.kept_ctxDone (s : State) (c : Nat) : (State.ctxDone s c).kept = s.kept := by simp [State.ctxDone]

theorem State.kept_of_abortRecord {s t : State} {r : Record} (h : s.abortRecord r = some t) : t.kept = s.kept := by
  unfold State.abortRecord at h
  split_ifs at h
  split at h
  · contradiction
  · split_ifs at h
    obtain rfl := Option.some.inj h
    simp

@[simp] theorem kept_immCtxAbort (c : Nat) (s : State) : (immCtxAbort c s).2.kept = s.kept := by
  simp only [immCtxAbort]
  split
  · rfl
  · rw [State.kept_refreshCtx]
    refine kept_foldl_snd _ (fun a r => ?_) _ _
    split
    · exact State.kept_of_abortRecord ‹_›
    · rfl

@[simp] theorem State.kept_extractOn (s : State) (r : Record) (x : RecStream) (n : Nat) : (s.extractOn r x n).2.kept = s.kept := by
  induction n generalizing x with
  | zero => rfl
  | succ n ih =>
    simp only [State.extractOn, snd_ite, State.kept_ite]
    cases s.nextPart (x.port + if x.fe = true then 1024 else 0) r x <;> simp [ih]

@[simp] theorem State.kept_takeReturned (s : State) (r : Record) (x : RecStream) : (State.takeReturned s r x).2.kept = s.kept := by
  unfold State.takeReturned
  split <;> simp

@[simp] theorem State.kept_assemble (s : State) (r : Record) : (State.assemble s r).kept = s.kept := by
  unfold State.assemble
  split <;> simp

@[simp] theorem State.kept_extract (s : State) (r : Record) : (s.extract r).kept = s.kept := by
  simp only [State.extract]
  split <;> simp

@[simp] theorem State.kept_placeRecord (s : State) (r : Record) : (State.placeRecord s r).kept = s.kept := by simp [State.placeRecord]

@[simp] theorem State.kept_completeRecord (s : State) (r : Record) : (State.completeRecord s r).kept = s.kept := by simp [State.completeRecord]

@[simp] theorem State.kept_putCore (s : State) (k : Nat) (c : Core) : (State.putCore s k c).kept = s.kept := by simp [State.putCore]

@[simp] theorem State.kept_setCoreState (s : State) (k : Nat) (v : Nat) : (State.setCoreState s k v).kept = s.kept := by simp [State.setCoreState]

@[simp] theorem State.kept_endProgram (s : State) (k : Nat) (r : Record) (mstatus : Nat) (results : Bytes) : (State.endProgram s k r mstatus results).kept = s.kept := by simp [State.endProgram]

@[simp] theorem State.kept_trapCore (s : State) (k : Nat) (r : Record) (c : Core) (cause : Nat) : (State.trapCore s k r c cause).kept = s.kept := by
  unfold State.trapCore
  split <;> simp

@[simp] theorem kept_runRom (s : State) (k : Nat) (r : Record) (img : Bytes) (c : Core) (n : Nat) : (runRom s k r img c n).kept = s.kept := by
  induction n generalizing s c with
  | zero => simp [runRom]
  | succ n ih =>
    simp only [runRom]
    split_ifs
    · simp
    · split <;> simp [ih]

@[simp] theorem kept_afterInstr (s : State) (k : Nat) (r : Record) (img : Bytes) (c : Core) (landed : Bool) : (afterInstr s k r img c landed).kept = s.kept := by simp [afterInstr]

@[simp] theorem kept_acceptContexts (s : State) (g : Group) : (acceptContexts s g).kept = s.kept := by simp [acceptContexts]

@[simp] theorem kept_commitContexts (s : State) (g : Group) (_old : Nat → Nat) : (commitContexts s g _old).kept = s.kept := by simp [commitContexts]

@[simp] theorem kept_commitTrestle (s : State) (g : Group) (_old : Nat → Nat) : (commitTrestle s g _old).kept = s.kept := by
  unfold commitTrestle
  exact kept_foldl _ (fun x a => by simp) _ _

@[simp] theorem State.kept_putHead (s : State) (h : Nat) (x : Head) : (State.putHead s h x).kept = s.kept := by simp [State.putHead]

@[simp] theorem State.kept_abandonFetches (s : State) (h : Nat) : (State.abandonFetches s h).kept = s.kept := by simp [State.abandonFetches]

@[simp] theorem State.kept_dropFetched (s : State) (h : Nat) : (State.dropFetched s h).kept = s.kept := by simp [State.dropFetched]

@[simp] theorem State.kept_fetchBurst (s : State) (h : Nat) (l : Nat) (a : Nat) : (State.fetchBurst s h l a).kept = s.kept := by simp [State.fetchBurst]

@[simp] theorem State.kept_refillHead (s : State) (h : Nat) : (State.refillHead s h).kept = s.kept := by
  unfold State.refillHead
  exact kept_foldl _ (fun x a => by simp) _ _

@[simp] theorem State.kept_refreshHeadPanic (s : State) (h : Nat) : (State.refreshHeadPanic s h).kept = s.kept := by simp [State.refreshHeadPanic]

@[simp] theorem State.kept_serveHead (s : State) (h : Nat) : (State.serveHead s h).kept = s.kept := by simp [State.serveHead]

@[simp] theorem State.kept_abortFrame (s : State) (h : Nat) : (State.abortFrame s h).kept = s.kept := by simp [State.abortFrame]

@[simp] theorem State.kept_requestFlip (s : State) (h : Nat) : (State.requestFlip s h).kept = s.kept := by simp [State.requestFlip]

@[simp] theorem State.kept_adoptSet (s : State) (h : Nat) : (State.adoptSet s h).kept = s.kept := by simp [State.adoptSet]

@[simp] theorem State.kept_trainHead (s : State) (h : Nat) : (State.trainHead s h).kept = s.kept := by simp [State.trainHead]

@[simp] theorem State.kept_noSink (s : State) (h : Nat) : (State.noSink s h).kept = s.kept := by simp [State.noSink]

@[simp] theorem kept_commitDisplay (s : State) (g : Group) (old : Nat → Nat) : (commitDisplay s g old).kept = s.kept := by simp [commitDisplay]

@[simp] theorem State.kept_promote (s : State) (k : Nat) : (State.promote s k).kept = s.kept := by simp [State.promote]

@[simp] theorem State.kept_freeze (s : State) (k : Nat) (cause : Nat) (r : Option MemReq) (syndrome : Nat) : (State.freeze s k cause r syndrome).kept = s.kept := by simp [State.freeze]

@[simp] theorem State.kept_enterStage (s : State) (st : Nat) : (State.enterStage s st).kept = s.kept := by simp [State.enterStage]

@[simp] theorem State.kept_retrainAll (s : State) (rate : Nat) : (State.retrainAll s rate).kept = s.kept := by
  unfold State.retrainAll
  exact kept_foldl _ (fun x a => by simp) _ _

@[simp] theorem State.kept_applyDeferred (s : State) : (State.applyDeferred s).kept = s.kept := by
  unfold State.applyDeferred
  split <;> simp

@[simp] theorem kept_readerServed (o : Owner) (s : State) : (readerServed o s).kept = s.kept := by
  unfold readerServed
  split <;> simp

@[simp] theorem kept_immMemSpeedReq (rate : Nat) (s : State) : (immMemSpeedReq rate s).2.kept = s.kept := by simp [immMemSpeedReq]

@[simp] theorem kept_immMemchRetrain (k : Nat) (s : State) : (immMemchRetrain k s).2.kept = s.kept := by simp [immMemchRetrain]

@[simp] theorem kept_trainAtStart (s : State) (report : List ChanReport) : (trainAtStart s report).kept = s.kept := by simp [trainAtStart]

@[simp] theorem State.kept_discardQueued (s : State) (i : Nat) : (State.discardQueued s i).kept = s.kept := by simp [State.discardQueued]

@[simp] theorem State.kept_ethPll (s : State) (p : Nat) : (State.ethPll s p).kept = s.kept := by simp [State.ethPll]

@[simp] theorem State.kept_restartIface (s : State) (i : Nat) : (State.restartIface s i).kept = s.kept := by simp [State.restartIface]

@[simp] theorem State.kept_answerArp (s : State) (i : Nat) (f : EthFrame) : (State.answerArp s i f).kept = s.kept := by simp [State.answerArp]

@[simp] theorem State.kept_answerIcmpv6 (s : State) (i : Nat) (f : EthFrame) (msg : Bytes) : (State.answerIcmpv6 s i f msg).kept = s.kept := by simp [State.answerIcmpv6]

@[simp] theorem State.kept_answerIcmp (s : State) (i : Nat) (f : EthFrame) (msg : Bytes) : (State.answerIcmp s i f msg).kept = s.kept := by simp [State.answerIcmp]

@[simp] theorem State.kept_acceptFrame (s : State) (i : Nat) (f : EthFrame) : (State.acceptFrame s i f).kept = s.kept := by
  unfold State.acceptFrame
  split
  · simp
  · split <;> simp

@[simp] theorem State.kept_ptpSync (s : State) (rx : KTime) (master : Nat) : (State.ptpSync s rx master).kept = s.kept := by simp [State.ptpSync]

@[simp] theorem State.kept_sendVrt (s : State) (i : Nat) (n : Nat) : (State.sendVrt s i n).kept = s.kept := by
  simp only [State.sendVrt]
  split <;> simp

@[simp] theorem State.kept_packetise (s : State) (n : Nat) (host : Bool) (addr : Nat) (len : Nat) : (State.packetise s n host addr len).kept = s.kept := by simp [State.packetise]

@[simp] theorem kept_commitNetwork (s : State) (g : Group) (old : Nat → Nat) : (commitNetwork s g old).kept = s.kept := by simp [commitNetwork]

@[simp] theorem State.kept_dropFetch (s : State) (m : Nat) : (State.dropFetch s m).kept = s.kept := by simp [State.dropFetch]

@[simp] theorem State.kept_moverTake (s : State) (m : Nat) (a : Nat) (n : Nat) : (State.moverTake s m a n).2.kept = s.kept := by simp [State.moverTake]

@[simp] theorem State.kept_haltMover (s : State) (m : Nat) (cause : Nat) (code : Nat) : (State.haltMover s m cause code).kept = s.kept := by simp [State.haltMover]

@[simp] theorem State.kept_mvFail (s : State) (m : Nat) (cause : Nat) : (State.mvFail s m cause).kept = s.kept := by simp [State.mvFail]

@[simp] theorem State.kept_mvBoundary (s : State) (m : Nat) : (State.mvBoundary s m).kept = s.kept := by simp [State.mvBoundary]

@[simp] theorem State.kept_publishRing (s : State) (n : Nat) (host : Bool) (e : Int × Int) : (State.publishRing s n host e).kept = s.kept := by simp [State.publishRing]

@[simp] theorem State.kept_pulseTarget (s : State) (d : MvDesc) (code : Nat) : (State.pulseTarget s d code).kept = s.kept := by
  unfold State.pulseTarget
  split <;> simp

@[simp] theorem State.kept_mvComplete (s : State) (m : Nat) (d : MvDesc) : (State.mvComplete s m d).kept = s.kept := by simp [State.mvComplete]

@[simp] theorem State.kept_mvAdvance (s : State) (m : Nat) (d : MvDesc) (n : Nat) : (State.mvAdvance s m d n).kept = s.kept := by simp [State.mvAdvance]

@[simp] theorem State.kept_mvWrite (s : State) (m off : Nat) (be : BitVec 4) (takes : Bool) (f : State → State) (hf : (f s).kept = s.kept) :
    (s.mvWrite m off be takes f).kept = s.kept := by
  simp [State.mvWrite, hf]

@[simp] theorem State.kept_descTaken (s : State) (k : Nat) (raw : Bytes) (table : Bytes) : (State.descTaken s k raw table).kept = s.kept := by
  unfold State.descTaken
  cases s.descRefused (mvDesc raw) table with
  | some c => simp
  | none => exact (State.kept_putMover ..).trans (State.kept_withMem _ _ rfl)

@[simp] theorem State.kept_tableFetch (s : State) (k : Nat) (raw : Bytes) (ok : Bool) (data : Bytes) : (State.tableFetch s k raw ok data).kept = s.kept := by simp [State.tableFetch]

@[simp] theorem State.kept_descCome (s : State) (k : Nat) (raw : Bytes) (ok : Bool) (data : Bytes) : (State.descCome s k raw ok data).kept = s.kept := by simp [State.descCome]

@[simp] theorem State.kept_burstWrite (s : State) (k : Nat) (d : MvDesc) (b : Nat) (n : Nat) (data : Bytes) : (State.burstWrite s k d b n data).kept = s.kept := by simp [State.burstWrite]

@[simp] theorem kept_commitHost (s : State) (g : Group) (old : Nat → Nat) : (commitHost s g old).kept = s.kept := by simp [commitHost]

@[simp] theorem State.kept_putSess (s : State) (n : Nat) (x : Session) : (State.putSess s n x).kept = s.kept := by simp [State.putSess]

@[simp] theorem State.kept_refreshAnchor (s : State) : (State.refreshAnchor s).kept = s.kept := by simp [State.refreshAnchor]

@[simp] theorem State.kept_ppSend (s : State) (iface : Nat) (to' : NetAddr) (frame : Bytes) : (State.ppSend s iface to' frame).kept = s.kept := by simp [State.ppSend]

@[simp] theorem State.kept_respond (s : State) (r : PpRequest) (code : Code) (body : Bytes) : (State.respond s r code body).kept = s.kept := by
  unfold State.respond
  split <;> simp

@[simp] theorem State.kept_refreshForwards (s : State) : (State.refreshForwards s).kept = s.kept := by simp [State.refreshForwards]

@[simp] theorem State.kept_closeSession (s : State) (n : Nat) : (State.closeSession s n).kept = s.kept := by simp [State.closeSession]

@[simp] theorem State.kept_forwardRequest (s : State) (r : PpRequest) (body : Bytes) : (State.forwardRequest s r body).kept = s.kept := by simp [State.forwardRequest]

@[simp] theorem State.kept_resendForwards (s : State) (node : Nat) : (State.resendForwards s node).kept = s.kept := by
  unfold State.resendForwards
  exact kept_foldl _ (fun x a => by simp) _ _

@[simp] theorem State.kept_forwardAnswered (s : State) (node : Nat) (id : Nat) (full : Bytes) : (State.forwardAnswered s node id full).kept = s.kept := by
  unfold State.forwardAnswered
  split <;> simp

@[simp] theorem State.kept_groupResponse (s : State) (b : Broadcast) : (State.groupResponse s b).kept = s.kept := by simp [State.groupResponse]

@[simp] theorem State.kept_groupAnswered (s : State) (id : Nat) (node : Nat) (code : Nat) (index : Nat) : (State.groupAnswered s id node code index).kept = s.kept := by
  unfold State.groupAnswered
  split <;> simp

@[simp] theorem State.kept_putLaneState (s : State) (p : Nat) (l : Nat) (st : Nat) : (State.putLaneState s p l st).kept = s.kept := by simp [State.putLaneState]

@[simp] theorem State.kept_refreshLanes (s : State) (p : Nat) : (State.refreshLanes s p).kept = s.kept := by
  simp only [State.refreshLanes]
  split <;> simp

@[simp] theorem State.kept_freshLanes (s : State) (p : Nat) : (State.freshLanes s p).kept = s.kept := by simp [State.freshLanes]

@[simp] theorem State.kept_bringUp (s : State) (p : Nat) : (State.bringUp s p).kept = s.kept := by simp [State.bringUp]

@[simp] theorem State.kept_refreshSpan (s : State) : (State.refreshSpan s).kept = s.kept := by simp [State.refreshSpan]

@[simp] theorem State.kept_nodeNews (s : State) (n : Nat) (lost : Bool) (from' : Option Nat) : (State.nodeNews s n lost from').kept = s.kept := by simp [State.nodeNews]

@[simp] theorem State.kept_sendHello (s : State) (p : Nat) : (State.sendHello s p).kept = s.kept := by simp [State.sendHello]

@[simp] theorem State.kept_enterTruss (s : State) (p : Nat) : (State.enterTruss s p).kept = s.kept := by simp [State.enterTruss]

@[simp] theorem State.kept_portDown (s : State) (p : Nat) : (State.portDown s p).kept = s.kept := by
  simp only [State.portDown]
  split <;> simp

@[simp] theorem State.kept_retireLane (s : State) (p : Nat) (l : Nat) (tell : Bool) : (State.retireLane s p l tell).kept = s.kept := by simp [State.retireLane]

@[simp] theorem State.kept_broadcastOn (s : State) (p : Nat) (cls : Nat) (system : Bool) (origin : Nat) (packet : Bytes) : (State.broadcastOn s p cls system origin packet).kept = s.kept := by
  unfold State.broadcastOn
  exact kept_foldl _ (fun x a => by simp) _ _

@[simp] theorem State.kept_deliverTrigger (s : State) (p : Nat) (packet : Bytes) : (State.deliverTrigger s p packet).kept = s.kept := by
  unfold State.deliverTrigger
  split <;> simp

@[simp] theorem State.kept_deliverControl (s : State) (p : Nat) (packet : Bytes) : (State.deliverControl s p packet).kept = s.kept := by
  unfold State.deliverControl
  split <;> simp

@[simp] theorem State.kept_deliverBody (s : State) (origin : Nat) (kind : Nat) (id : Nat) (body : Bytes) : (State.deliverBody s origin kind id body).kept = s.kept := by
  unfold State.deliverBody
  split
  · split <;> simp
  all_goals simp

@[simp] theorem State.kept_assembleBody (s : State) (payload : Bytes) : (State.assembleBody s payload).kept = s.kept := by simp [State.assembleBody]

@[simp] theorem State.kept_deliverData (s : State) (p : Nat) (packet : Bytes) : (State.deliverData s p packet).kept = s.kept := by
  unfold State.deliverData
  extract_lets dest payload
  split
  · simp
  · split
    · simp
    · split <;> simp

@[simp] theorem State.kept_trussAcked (s : State) (p : Nat) (c : Nat) (n : Nat) : (State.trussAcked s p c n).kept = s.kept := by simp [State.trussAcked]

@[simp] theorem State.kept_trussResend (s : State) (p : Nat) (c : Nat) : (State.trussResend s p c).kept = s.kept := by
  unfold State.trussResend
  exact kept_foldl _ (fun x a => by simp) _ _

@[simp] theorem State.kept_sendAck (s : State) (p : Nat) (kind : Nat) (c : Nat) (seq : Nat) : (State.sendAck s p kind c seq).kept = s.kept := by simp [State.sendAck]

@[simp] theorem kept_immTrussRestart (p : Nat) (s : State) : (immTrussRestart p s).2.kept = s.kept := by simp [immTrussRestart]

@[simp] theorem kept_bringUpPort (s : State) (p : Nat) : (commitTruss.bringUpPort s p).kept = s.kept := by
  simp [commitTruss.bringUpPort]

@[simp] theorem kept_commitTruss (s : State) (g : Group) (old : Nat → Nat) : (commitTruss s g old).kept = s.kept := by
  simp [commitTruss]

@[simp] theorem kept_commitTruss.bringUpPort (y : State) (p : Nat) : (commitTruss.bringUpPort y p).kept = y.kept := by simp [commitTruss.bringUpPort]

@[simp] theorem State.kept_refreshPower (s : State) : (State.refreshPower s).kept = s.kept := by simp [State.refreshPower]

@[simp] theorem State.kept_boostStep (s : State) : (State.boostStep s).kept = s.kept := by simp [State.boostStep]

@[simp] theorem State.kept_avsSlot (s : State) (ok : Bool) (reading : Option (Nat × Nat)) : (State.avsSlot s ok reading).kept = s.kept := by
  unfold State.avsSlot
  split <;> simp

@[simp] theorem State.kept_supplyCheck (s : State) (vset : Nat) (dieMv : Nat) (rails : Bool) : (State.supplyCheck s vset dieMv rails).kept = s.kept := by simp [State.supplyCheck]

@[simp] theorem State.kept_slotEnd (s : State) (requests : Tab Nat) : (State.slotEnd s requests).kept = s.kept := by simp [State.slotEnd]

@[simp] theorem State.kept_acceptPower (s : State) (g : Group) : (State.acceptPower s g).kept = s.kept := by
  unfold State.acceptPower
  split <;> simp

@[simp] theorem State.kept_readSensor (s : State) (i : Nat) (reading : Int) : (State.readSensor s i reading).kept = s.kept := by simp [State.readSensor]

@[simp] theorem State.kept_countOvertemp (s : State) : (State.countOvertemp s).kept = s.kept := by simp [State.countOvertemp]

@[simp] theorem State.kept_derateCheck (s : State) : (State.derateCheck s).kept = s.kept := by simp [State.derateCheck]

@[simp] theorem State.kept_endDc (s : State) (code : Code) : (State.endDc s code).kept = s.kept := by simp [State.endDc]

@[simp] theorem State.kept_endBadOp (s : State) : (State.endBadOp s).kept = s.kept := by simp [State.endBadOp]

@[simp] theorem State.kept_holdSensor (s : State) (unit : Nat) (item : Nat) (held : Bool) : (State.holdSensor s unit item held).kept = s.kept := by simp [State.holdSensor]

@[simp] theorem State.kept_beginCal (s : State) (unit : Nat) (item : Nat) : (State.beginCal s unit item).kept = s.kept := by simp [State.beginCal]

@[simp] theorem State.kept_takeOutGirder (s : State) (g : Nat) : (State.takeOutGirder s g).kept = s.kept := by
  unfold State.takeOutGirder
  extract_lets s1
  have h1 : s1.kept = s.kept := by
    simp only [s1]
    split
    · split <;> simp
    · rfl
  simp [h1]

@[simp] theorem State.kept_returnGirder (s : State) (g : Nat) : (State.returnGirder s g).kept = s.kept := by simp [State.returnGirder]

@[simp] theorem State.kept_staleEffect (s : State) (unit : Nat) (item : Nat) : (State.staleEffect s unit item).kept = s.kept := by simp [State.staleEffect]

@[simp] theorem State.kept_returnAll (s : State) : (State.returnAll s).kept = s.kept := by
  unfold State.returnAll
  exact kept_foldl _ (fun x a => by simp) _ _

@[simp] theorem State.kept_endCal (s : State) (unit : Nat) (item : Nat) : (State.endCal s unit item).kept = s.kept := by simp [State.endCal]

@[simp] theorem State.kept_startRun (s : State) (e : Nat) : (State.startRun s e).kept = s.kept := by simp [State.startRun]

@[simp] theorem State.kept_promoteStart (s : State) (t : Nat) : (State.promoteStart s t).kept = s.kept := by simp [State.promoteStart]

@[simp] theorem State.kept_convert (s : State) (r : MonRun) (input : Int) : (State.convert s r input).kept = s.kept := by simp [State.convert]

@[simp] theorem State.kept_compare (s : State) (c : MonCode) (w : Nat) : (State.compare s c w).kept = s.kept := by
  simp only [State.compare, State.kept_ite, State.kept_bump, State.kept_raiseEvent, State.kept_pulseNow, State.kept_raiseTrigger, State.kept_setObj, State.kept_withMon,
    ite_self]

@[simp] theorem kept_commitPower (s : State) (g : Group) (old : Nat → Nat) : (commitPower s g old).kept = s.kept := by simp [commitPower]

@[simp] theorem kept_immRingSlabs (n : Nat) (s : State) : (immRingSlabs n s).2.kept = s.kept := by simp [immRingSlabs]

@[simp] theorem kept_commitRing (s : State) (g : Group) (old : Nat → Nat) : (commitRing s g old).kept = s.kept := by simp [commitRing]

@[simp] theorem State.kept_firmwareEvent (s : State) : (State.firmwareEvent s).kept = s.kept := by simp [State.firmwareEvent]

@[simp] theorem State.kept_endLoad (s : State) (st : Nat) (code : Nat) : (State.endLoad s st code).kept = s.kept := by simp [State.endLoad]

@[simp] theorem State.kept_immFwLoad (addr : Nat) (len : Nat) (s : State) : (State.immFwLoad addr len s).2.kept = s.kept := by simp [State.immFwLoad]

@[simp] theorem State.kept_immFwSwap (s : State) : (State.immFwSwap s).2.kept = s.kept := by simp [State.immFwSwap]

@[simp] theorem State.kept_immFwConfirm (s : State) : (State.immFwConfirm s).2.kept = s.kept := by simp [State.immFwConfirm]

@[simp] theorem State.kept_swapFails (s : State) : (State.swapFails s).kept = s.kept := by simp [State.swapFails]

@[simp] theorem State.kept_immAttNonce (nonce : Bytes) (s : State) : (State.immAttNonce nonce s).2.kept = s.kept := by simp [State.immAttNonce]

@[simp] theorem State.kept_immSecOwnerKey (key : Bytes) (s : State) : (State.immSecOwnerKey key s).2.kept = s.kept := by simp [State.immSecOwnerKey]

@[simp] theorem State.kept_immSessClose (n : Nat) (s : State) : (State.immSessClose n s).2.kept = s.kept := by simp [State.immSessClose]

@[simp] theorem State.kept_applyWrite (t : KTime) (s : State) (w : Nat × Nat) : (State.applyWrite t s w).kept = s.kept := by simp [State.applyWrite]

@[simp] theorem State.kept_stepControls (s : State) (t : KTime) : (State.stepControls s t).kept = s.kept := by simp [State.stepControls]

@[simp] theorem State.kept_regWrite (s : State) (bar dword : Nat) (be : BitVec 4) (busy refused : Bool) (f : State → State) (hf : (f s).kept = s.kept) :
    (s.regWrite bar dword be busy refused f).kept = s.kept := by
  simp [State.regWrite, hf]

@[simp] theorem State.kept_writeControl (s : State) (be : BitVec 4) (v : Nat) : (State.writeControl s be v).kept = s.kept := by simp [State.writeControl]

@[simp] theorem State.kept_writeApBase (s : State) (be : BitVec 4) (v : Nat) : (State.writeApBase s be v).kept = s.kept := by simp [State.writeApBase]

@[simp] theorem State.kept_writeMboxSel (s : State) (be : BitVec 4) (v : Nat) : (State.writeMboxSel s be v).kept = s.kept := by simp [State.writeMboxSel]

@[simp] theorem State.kept_writeDcCtrl (s : State) (be : BitVec 4) (v : Nat) : (State.writeDcCtrl s be v).kept = s.kept := by simp [State.writeDcCtrl]

@[simp] theorem State.kept_writeMvCtrl (s : State) (m : Nat) (be : BitVec 4) (v : Nat) : (State.writeMvCtrl s m be v).kept = s.kept := by simp [State.writeMvCtrl]

@[simp] theorem State.kept_writeMvTail (s : State) (m : Nat) (be : BitVec 4) (v : Nat) : (State.writeMvTail s m be v).kept = s.kept := by simp [State.writeMvTail]

@[simp] theorem State.kept_writeHrRptr (s : State) (n : Nat) (be : BitVec 4) (v : Nat) : (State.writeHrRptr s n be v).kept = s.kept := by simp [State.writeHrRptr]

@[simp] theorem State.kept_putPlain (s : State) (off : Nat) (v : Nat) : (State.putPlain s off v).kept = s.kept := by
  unfold State.putPlain
  split
  · simp
  · split
    · simp
    · split <;> simp

@[simp] theorem State.kept_bar0Write (s : State) (off : Nat) (be : BitVec 4) (v : Nat) : (State.bar0Write s off be v).kept = s.kept := by simp [State.bar0Write]

@[simp] theorem State.kept_ringBlockWrite (s : State) (off : Nat) (be : BitVec 4) (v : Nat) : (State.ringBlockWrite s off be v).kept = s.kept := by simp [State.ringBlockWrite]

@[simp] theorem State.kept_bulkWrite (s : State) (a : Nat) (b : Bytes) : (State.bulkWrite s a b).kept = s.kept := by simp [State.bulkWrite]

@[simp] theorem State.kept_closeGroup (s : State) : (State.closeGroup s).kept = s.kept := by simp [State.closeGroup]

@[simp] theorem State.kept_apertureWrite (s : State) (a : Nat) (be : BitVec 4) (data : Bytes) : (State.apertureWrite s a be data).kept = s.kept := by
  unfold State.apertureWrite
  exact kept_foldl _ (fun x a => by simp) _ _

@[simp] theorem State.kept_aperture (s : State) (write : Bool) (off : Nat) (be : BitVec 4) (data : Bytes) : (State.aperture s write off be data).kept = s.kept := by simp [State.aperture]

@[simp] theorem State.kept_losePierPll (s : State) (p : Nat) : (State.losePierPll s p).kept = s.kept := by
  simp only [State.losePierPll]
  split
  · split <;> simp
  · simp

@[simp] theorem State.kept_loseTrussPll (s : State) (p : Nat) : (State.loseTrussPll s p).kept = s.kept := by
  unfold State.loseTrussPll
  exact kept_foldl _ (fun x a => by simp) _ _

@[simp] theorem State.kept_loseEthPll (s : State) (p : Nat) : (State.loseEthPll s p).kept = s.kept := by
  unfold State.loseEthPll
  exact kept_foldl _ (fun x a => by simp) _ _

@[simp] theorem State.kept_loseHeadPll (s : State) (h : Nat) : (State.loseHeadPll s h).kept = s.kept := by simp [State.loseHeadPll]

@[simp] theorem State.kept_ppAdmit (s : State) (n : Nat) (epoch : Nat) (tid : Nat) : (State.ppAdmit s n epoch tid).kept = s.kept := by simp [State.ppAdmit]

@[simp] theorem State.kept_ppAck (s : State) (r : PpRequest) (key : Bytes) (code : Code) (dup : Bool) : (State.ppAck s r key code dup).kept = s.kept := by simp [State.ppAck]

@[simp] theorem State.kept_ppEnqueue (s : State) (r : PpRequest) : (State.ppEnqueue s r).kept = s.kept := by simp [State.ppEnqueue]

@[simp] theorem State.kept_ppHandshake (s : State) (r : PpRequest) (key : Bytes) : (State.ppHandshake s r key).kept = s.kept := by simp [State.ppHandshake]

@[simp] theorem State.kept_ppRequest (s : State) (r : PpRequest) (key : Bytes) : (State.ppRequest s r key).kept = s.kept := by
  simp only [State.ppRequest]
  split
  · simp
  · split <;> simp
  · split <;> simp

theorem State.kept_of_takeRequest {s t : State} {want : PpRequest → Bool} {r : PpRequest} (h : s.takeRequest want = some (r, t)) : t.kept = s.kept := by
  unfold State.takeRequest at h
  split at h
  · contradiction
  · split_ifs at h
    obtain ⟨-, rfl⟩ := Prod.mk.inj (Option.some.inj h)
    simp

@[simp] theorem State.kept_passOn (s : State) (r : PpRequest) (body : Bytes) : (State.passOn s r body).kept = s.kept := by simp [State.passOn]

@[simp] theorem State.kept_putGroups (s : State) (r : PpRequest) (gs : List PpGroup) : (State.putGroups s r gs).kept = s.kept := by simp [State.putGroups]

theorem State.kept_of_boardEntries {n off : Nat} {b : Bytes} {s t : State} (h : State.boardEntries n off b s = .inr t) : t.kept = s.kept := by
  induction n generalizing off b s with
  | zero =>
    unfold State.boardEntries at h
    split_ifs at h
    rw [Sum.inr.inj h]
  | succ n ih =>
    simp only [State.boardEntries] at h
    split at h
    · split_ifs at h
      · rw [ih h]
        simp
      · rw [ih h]
        simp
    · contradiction

@[simp] theorem State.kept_applyBoard (s : State) (area : Bytes) : (s.applyBoard area).kept = s.kept := by
  simp only [State.applyBoard]
  split_ifs <;> try simp
  split
  · simp
  · simpa using State.kept_of_boardEntries ‹_›

@[simp] theorem State.kept_startItem (s : State) (failed : Bool) (unit : Nat) (item : Nat) : (State.startItem s failed unit item).kept = s.kept := by simp [State.startItem]

@[simp] theorem State.kept_startLinks (s : State) : (State.startLinks s).kept = s.kept := by simp [State.startLinks]

end Sys2Proof.Machine
end

section
namespace Sys2Proof.Machine

/-- What a command that answers a next state leaves of the queue, the contents of DRAM, the locks and the pending groups. -/
def keptOf : Out → Option (List Instr × List Host.Cell × Bool × Bool × List Group)
  | .next t => some t.kept
  | _ => none

@[simp] theorem keptOf_next (t : State) : keptOf (.next t) = some t.kept := rfl

@[simp] theorem keptOf_ite (c : Prop) [Decidable c] (a b : Out) : keptOf (if c then a else b) = if c then keptOf a else keptOf b := apply_ite _ c a b

@[simp] theorem execRefclkLoss_keeps (s : State) : keptOf (execRefclkLoss s) = some s.kept := by simp [execRefclkLoss]

@[simp] theorem execRefclkValid_keeps (offset : Int) (s : State) : keptOf (execRefclkValid offset s) = some s.kept := by simp [execRefclkValid]

@[simp] theorem execSysrefEdge_keeps (s : State) : keptOf (execSysrefEdge s) = some s.kept := by
  unfold execSysrefEdge
  split <;> simp

@[simp] theorem execPpsEdge_keeps (rising : Bool) (pos : Fin 64) (s : State) : keptOf (execPpsEdge rising pos s) = some s.kept := by simp [execPpsEdge]

@[simp] theorem execKsLoad_keeps (v : Nat) (s : State) : keptOf (execKsLoad v s) = some s.kept := by simp [execKsLoad]

@[simp] theorem execSlewComplete_keeps (s : State) : keptOf (execSlewComplete s) = some s.kept := by simp [execSlewComplete]

@[simp] theorem execTaiHoldover_keeps (s : State) : keptOf (execTaiHoldover s) = some s.kept := by simp [execTaiHoldover]

@[simp] theorem execLoRelock_keeps (s : State) : keptOf (execLoRelock s) = some s.kept := by
  unfold execLoRelock
  split
  · extract_lets s1
    split <;> simp [s1]
  · rfl

@[simp] theorem execLoLockConfirmed_keeps (s : State) : keptOf (execLoLockConfirmed s) = some s.kept := by simp [execLoLockConfirmed]

@[simp] theorem execLoLockTimeout_keeps (s : State) : keptOf (execLoLockTimeout s) = some s.kept := by simp [execLoLockTimeout]

@[simp] theorem execLoLockLoss_keeps (s : State) : keptOf (execLoLockLoss s) = some s.kept := by simp [execLoLockLoss]

@[simp] theorem execLoRampSegment_keeps (s : State) : keptOf (execLoRampSegment s) = some s.kept := by simp [execLoRampSegment]

@[simp] theorem execNvmeWriteComplete_keeps (drive : Fin 4) (ok : Bool) (s : State) : keptOf (execNvmeWriteComplete drive ok s) = some s.kept := by
  unfold execNvmeWriteComplete
  extract_lets d x s1
  split
  · rfl
  · rename_i w rest _
    split
    · split <;> simp [s1]
    · extract_lets s1 stored s2 s3
      have hs3 : s3.kept = s.kept := by
        simp only [s3]
        split <;> simp [s2, s1]
      split
      · split <;> simp [hs3]
      · split <;> simp [hs3]

@[simp] theorem execNvmeLinkLoss_keeps (drive : Fin 4) (s : State) : keptOf (execNvmeLinkLoss drive s) = some s.kept := by simp [execNvmeLinkLoss]

@[simp] theorem execManifestSigned_keeps (s : State) : keptOf (execManifestSigned s) = some s.kept := by
  unfold execManifestSigned
  split
  · rfl
  · extract_lets sig s1
    split
    · simp [s1]
    · rename_i hplace
      simp [State.kept_of_placeItem hplace, s1]

@[simp] theorem execRecDriveRestart_keeps (drive : Fin 4) (s : State) : keptOf (execRecDriveRestart drive s) = some s.kept := by simp [execRecDriveRestart]

@[simp] theorem execDrvPerstRelease_keeps (drive : Fin 4) (s : State) : keptOf (execDrvPerstRelease drive s) = some s.kept := by simp [execDrvPerstRelease]

@[simp] theorem execNvmeDriveReady_keeps (drive : Fin 4) (width : Nat) (model : Bytes) (nsids : List (Nat × Nat × Bool)) (labels : List (Fin 16 × Nat × Nat)) (s : State) : keptOf (execNvmeDriveReady drive width model nsids labels s) = some s.kept := by simp [execNvmeDriveReady]

@[simp] theorem execRecNsFormat_keeps (ns : Fin 16) (s : State) : keptOf (execRecNsFormat ns s) = some s.kept := by
  simp only [execRecNsFormat]
  split <;> simp

@[simp] theorem execRecNsClose_keeps (ns : Fin 16) (s : State) : keptOf (execRecNsClose ns s) = some s.kept := by simp [execRecNsClose]

@[simp] theorem execRecNsRead_keeps (ns : Fin 16) (offset : Nat) (count : Nat) (addr : Nat) (s : State) : keptOf (execRecNsRead ns offset count addr s) = some s.kept := by simp [execRecNsRead]

@[simp] theorem execRecNsReadDone_keeps (ns : Fin 16) (ok : Bool) (s : State) : keptOf (execRecNsReadDone ns ok s) = some s.kept := by simp [execRecNsReadDone]

@[simp] theorem execLinksCleanRestore_keeps (s : State) : keptOf (execLinksCleanRestore s) = some s.kept := by simp [execLinksCleanRestore]

@[simp] theorem execAbutmentClear_keeps (s : State) : keptOf (execAbutmentClear s) = some s.kept := by simp [execAbutmentClear]

@[simp] theorem execLaneMultiblockRx_keeps (lane : Fin 128) (badHeaders : BitVec 32) (crcBad : Bool) (markers : EndMarkers) (octets : Bytes) (s : State) : keptOf (execLaneMultiblockRx lane badHeaders crcBad markers octets s) = some s.kept := by
  simp only [execLaneMultiblockRx]
  split <;> simp

@[simp] theorem execCdrLossOfLock_keeps (lane : Fin 128) (s : State) : keptOf (execCdrLossOfLock lane s) = some s.kept := by
  unfold execCdrLossOfLock
  split <;> simp

@[simp] theorem execLinkRelease_keeps (link : Fin 128) (s : State) : keptOf (execLinkRelease link s) = some s.kept := by
  unfold execLinkRelease
  extract_lets k c l edge st s1
  split
  · rfl
  · split_ifs
    · simp [s1]
    · simp [s1]
    · simp
    · split
      · simp
      · split_ifs <;> simp
    · split
      · simp
      · split_ifs <;> simp
    · rfl
    · simp

@[simp] theorem execPierRecoveryResume_keeps (pier : Fin 16) (s : State) : keptOf (execPierRecoveryResume pier s) = some s.kept := by simp [execPierRecoveryResume]

@[simp] theorem execPierFailedMarker_keeps (pier : Fin 16) (s : State) : keptOf (execPierFailedMarker pier s) = some s.kept := by simp [execPierFailedMarker]

@[simp] theorem execPierRestart_keeps (pier : Fin 16) (s : State) : keptOf (execPierRestart pier s) = some s.kept := by simp [execPierRestart]

@[simp] theorem execLinkArrivalClear_keeps (link : Fin 128) (s : State) : keptOf (execLinkArrivalClear link s) = some s.kept := by simp [execLinkArrivalClear]

@[simp] theorem execFeInputSample_keeps (port : Fin 1024) (s : State) : keptOf (execFeInputSample port s) = some s.kept := by
  unfold execFeInputSample
  extract_lets p
  split
  · rfl
  · split
    · rfl
    · rename_i it s1 htake
      have hs1 : s1.kept = s.kept := by rw [← s.kept_takeItem p, htake]
      extract_lets f inputs grid s2 tj d phi g left fe s3 s4
      split
      · simp [hs1]
      · split
        · extract_lets y
          split <;> simp [y, hs1]
        · have hs4 : s4.kept = s.kept := by
            simp only [s4]
            split <;> simp [s3, s2, hs1]
          simp [hs4]

@[simp] theorem execSyncNow_keeps (s : State) : keptOf (execSyncNow s) = some s.kept := by simp [execSyncNow]

@[simp] theorem execSyncLEdge_keeps (s : State) : keptOf (execSyncLEdge s) = some s.kept := by simp [execSyncLEdge]

@[simp] theorem execSyncReset_keeps (s : State) : keptOf (execSyncReset s) = some s.kept := by
  unfold execSyncReset
  split <;> simp

@[simp] theorem execTrigoPulseEnd_keeps (pin : Fin 8) (s : State) : keptOf (execTrigoPulseEnd pin s) = some s.kept := by simp [execTrigoPulseEnd]

@[simp] theorem execHrEntryAcked_keeps (n : Fin 64) (s : State) : keptOf (execHrEntryAcked n s) = some s.kept := by
  simp only [execHrEntryAcked]
  split <;> simp

@[simp] theorem execFrameDispatch_keeps (view : Fin 512) (port : Fin 1024) (girders : List (Fin 68)) (s : State) : keptOf (execFrameDispatch view port girders s) = some s.kept := by
  unfold execFrameDispatch
  extract_lets v p gs free
  split
  · rfl
  · split
    · split <;> simp
    · obtain ⟨hpassed, hready⟩ := s.passFrames_kept v p 4096
      split
      split
      · simpa [*] using hpassed
      · rename_i hr
        split
        · simp_all
        · simp_all

@[simp] theorem execFrameComplete_keeps (girder : Fin 68) (checkOk : Bool) (memoryUe : Bool) (s : State) : keptOf (execFrameComplete girder checkOk memoryUe s) = some s.kept := by
  unfold execFrameComplete
  split
  · rfl
  · extract_lets g last s0
    split
    · rfl
    · split
      · extract_lets s1
        split <;> simp [s1]
      · have hs0 : s0.kept = s.kept := by
          simp only [s0]
          split <;> simp
        simp [hs0]

@[simp] theorem execGirderTimeout_keeps (girder : Fin 68) (s : State) : keptOf (execGirderTimeout girder s) = some s.kept := by
  simp only [execGirderTimeout]
  split <;> simp

@[simp] theorem execSpareReady_keeps (girder : Fin 68) (s : State) : keptOf (execSpareReady girder s) = some s.kept := by simp [execSpareReady]

@[simp] theorem execGirderRetire_keeps (girder : Fin 68) (s : State) : keptOf (execGirderRetire girder s) = some s.kept := by simp [execGirderRetire]

@[simp] theorem execProductFrame_keeps (kind : BuilderKind) (n : Fin kind.count) (s : State) : keptOf (execProductFrame kind n s) = some s.kept := by
  unfold execProductFrame
  split
  · rfl
  · extract_lets k n s1 p
    split_ifs
    · simp [s1]
    · simp [s1]
    · split
      split <;> simp [s1]

@[simp] theorem execProductRecordAcked_keeps (kind : BuilderKind) (n : Fin kind.count) (s : State) : keptOf (execProductRecordAcked kind n s) = some s.kept := by
  simp only [execProductRecordAcked]
  split <;> simp

@[simp] theorem execProductClear_keeps (kind : BuilderKind) (n : Fin kind.count) (s : State) : keptOf (execProductClear kind n s) = some s.kept := by simp [execProductClear]

@[simp] theorem execSpectrogramTrace_keeps (s' : Fin 64) (s : State) : keptOf (execSpectrogramTrace s' s) = some s.kept := by
  unfold execSpectrogramTrace
  extract_lets g x
  split
  · rfl
  · split
    · rfl
    · extract_lets v p cut traces passed
      clear_value cut traces passed
      split
      · split
        · split <;> simp
        · rfl
      · extract_lets on
        split <;> simp

@[simp] theorem execSpectrogramRowAcked_keeps (s' : Fin 64) (s : State) : keptOf (execSpectrogramRowAcked s' s) = some s.kept := by
  simp only [execSpectrogramRowAcked]
  split <;> simp

@[simp] theorem execSwBoundary_keeps (n : Fin 8) (s : State) : keptOf (execSwBoundary n s) = some s.kept := by simp [execSwBoundary]

@[simp] theorem execFectlEvent_keeps (s : State) : keptOf (execFectlEvent s) = some s.kept := by simp [execFectlEvent]

@[simp] theorem execMaskSpectrum_keeps (m : Fin 256) (s : State) : keptOf (execMaskSpectrum m s) = some s.kept := by
  unfold execMaskSpectrum
  split
  · simp
  · split <;> simp

@[simp] theorem execTrigiEdge_keeps (n : Fin 8) (rising : Bool) (pos : Fin 64) (s : State) : keptOf (execTrigiEdge n rising pos s) = some s.kept := by simp [execTrigiEdge]

@[simp] theorem execTrigCmd_keeps (c : Fin 16) (s : State) : keptOf (execTrigCmd c s) = some s.kept := by simp [execTrigCmd]

@[simp] theorem execRtrigWatermarkSend_keeps (s : State) : keptOf (execRtrigWatermarkSend s) = some s.kept := by simp [execRtrigWatermarkSend]

@[simp] theorem execRtrigStale_keeps (c : Fin 64) (s : State) : keptOf (execRtrigStale c s) = some s.kept := by simp [execRtrigStale]

@[simp] theorem execTrigLogEvent_keeps (s : State) : keptOf (execTrigLogEvent s) = some s.kept := by
  unfold execTrigLogEvent
  split
  · simp
  · split <;> simp

@[simp] theorem execTrigLogAcked_keeps (s : State) : keptOf (execTrigLogAcked s) = some s.kept := by simp [execTrigLogAcked]

@[simp] theorem execExprEvent_keeps (ctx : Fin 1024) (s : State) : keptOf (execExprEvent ctx s) = some s.kept := by
  unfold execExprEvent
  split
  · rfl
  · extract_lets c s1
    split
    · simp [s1]
    · split <;> simp [s1]

@[simp] theorem execCtxSettledAdvance_keeps (ctx : Fin 1024) (s : State) : keptOf (execCtxSettledAdvance ctx s) = some s.kept := by
  unfold execCtxSettledAdvance
  split
  · rfl
  · extract_lets c s1 x advance
    have hadvance (y : State) (t : Nat) : (advance y t).kept = y.kept := by simp [advance]
    split
    · split <;> simp [hadvance, s1]
    · split_ifs
      · simp [hadvance, s1]
      · split <;> simp [hadvance, s1]

@[simp] theorem execCtxArm_keeps (ctx : Fin 1024) (s : State) : keptOf (execCtxArm ctx s) = some s.kept := by simp [execCtxArm]

@[simp] theorem execCtxAbort_keeps (ctx : Fin 1024) (s : State) : keptOf (execCtxAbort ctx s) = some s.kept := by simp [execCtxAbort]

@[simp] theorem execStagingSpaceGrant_keeps (s : State) : keptOf (execStagingSpaceGrant s) = some s.kept := by
  unfold execStagingSpaceGrant
  split
  · rfl
  · extract_lets n
    split <;> simp

@[simp] theorem execExtractBlockReturn_keeps (ctx : Fin 1024) (record : Nat) (s : State) : keptOf (execExtractBlockReturn ctx record s) = some s.kept := by
  unfold execExtractBlockReturn
  split <;> simp

@[simp] theorem execRecordDelivered_keeps (ctx : Fin 1024) (record : Nat) (s : State) : keptOf (execRecordDelivered ctx record s) = some s.kept := by
  unfold execRecordDelivered
  split <;> simp

@[simp] theorem execCompletionEntryAcked_keeps (s : State) : keptOf (execCompletionEntryAcked s) = some s.kept := by
  unfold execCompletionEntryAcked
  split <;> simp

@[simp] theorem runInstr_keeps (k : Nat) (w : Nat) (control : Bool) (f : State → Record → Bytes → Core → Work) (s : State) : keptOf (runInstr k w control f s) = some s.kept := by
  unfold runInstr
  split
  · rfl
  · extract_lets c
    split
    · rfl
    · extract_lets img
      split_ifs
      · rfl
      · simp
      · rfl
      · simp
      · simp
      · split <;> simp

@[simp] theorem runPlain_keeps (k : Nat) (w : Nat) (f : Core → Core) (s : State) : keptOf (runPlain k w f s) = some s.kept := by simp [runPlain]

@[simp] theorem runRanged_keeps (k : Nat) (w : Nat) (ok : Bool) (f : Core → Core) (s : State) : keptOf (runRanged k w ok f s) = some s.kept := by simp [runRanged]

@[simp] theorem execTrestleDispatch_keeps (core : Fin 32) (s : State) : keptOf (execTrestleDispatch core s) = some s.kept := by
  unfold execTrestleDispatch
  split
  · rfl
  · extract_lets k
    split
    · rename_i r0 _ _
      rw [← State.kept_stagedRecord s r0]
      generalize s.stagedRecord r0 = y
      obtain ⟨r, t⟩ := y
      dsimp only
      split <;> simp
    · rfl

@[simp] theorem execBlockDelivered_keeps (core : Fin 32) (s : State) : keptOf (execBlockDelivered core s) = some s.kept := by
  unfold execBlockDelivered
  split
  · rfl
  · extract_lets k c
    split
    · rfl
    · extract_lets img x base words c1
      split
      · rfl
      · split <;> simp

@[simp] theorem execBudgetExhausted_keeps (core : Fin 32) (s : State) : keptOf (execBudgetExhausted core s) = some s.kept := by
  unfold execBudgetExhausted
  split
  · rfl
  · extract_lets k c
    split
    · rfl
    · split_ifs
      · simp
      · rfl
      · rfl
      · split <;> simp

@[simp] theorem execTrClear_keeps (slot : Fin 32) (s : State) : keptOf (execTrClear slot s) = some s.kept := by
  simp only [execTrClear]
  split <;> simp

@[simp] theorem execHpdEdge_keeps (head : Fin 2) (edid : Bytes) (s : State) : keptOf (execHpdEdge head edid s) = some s.kept := by simp [execHpdEdge]

@[simp] theorem execHpdLow_keeps (head : Fin 2) (s : State) : keptOf (execHpdLow head s) = some s.kept := by simp [execHpdLow]

@[simp] theorem execDisplayLinkTrained_keeps (head : Fin 2) (ok : Bool) (s : State) : keptOf (execDisplayLinkTrained head ok s) = some s.kept := by simp [execDisplayLinkTrained]

@[simp] theorem execDpTrainingRetry_keeps (head : Fin 2) (s : State) : keptOf (execDpTrainingRetry head s) = some s.kept := by simp [execDpTrainingRetry]

@[simp] theorem execDisplayFrameStart_keeps (head : Fin 2) (s : State) : keptOf (execDisplayFrameStart head s) = some s.kept := by simp [execDisplayFrameStart]

@[simp] theorem execLatchPoint_keeps (head : Fin 2) (s : State) : keptOf (execLatchPoint head s) = some s.kept := by simp [execLatchPoint]

@[simp] theorem execDispFlip_keeps (head : Fin 2) (s : State) : keptOf (execDispFlip head s) = some s.kept := by simp [execDispFlip]

@[simp] theorem execScanoutUnderrun_keeps (head : Fin 2) (s : State) : keptOf (execScanoutUnderrun head s) = some s.kept := by simp [execScanoutUnderrun]

@[simp] theorem execScanoutPanic_keeps (head : Fin 2) (s : State) : keptOf (execScanoutPanic head s) = some s.kept := by simp [execScanoutPanic]

@[simp] theorem execMemReadComplete_keeps (chan : Fin 16) (result : ReadEnd) (s : State) : keptOf (execMemReadComplete chan result s) = some s.kept := by
  unfold execMemReadComplete
  extract_lets k c
  split
  · rfl
  · split
    · rfl
    · extract_lets deliver s1 burst newer
      have hdeliver : (deliver s).kept = s.kept := by
        simp only [deliver]
        split <;> simp
      cases result with
      | clean => simp [hdeliver]
      | corrected =>
        have hs1 : s1.kept = s.kept := by simp [s1, hdeliver]
        have hback : (if newer then s1 else s1.enqueue .writeBack 3 true burst 64 (s1.mem.bytes burst 64)).kept = s.kept := by
          split <;> simp [hs1]
        exact congrArg some hback
      | uncorrectable syn => simp

@[simp] theorem execRcdAlert_keeps (chan : Fin 16) (s : State) : keptOf (execRcdAlert chan s) = some s.kept := by simp [execRcdAlert]

@[simp] theorem execWriteCrcError_keeps (chan : Fin 16) (s : State) : keptOf (execWriteCrcError chan s) = some s.kept := by
  simp only [execWriteCrcError]
  split <;> simp

@[simp] theorem execRefresh_keeps (due : RefreshDue) (s : State) : keptOf (execRefresh due s) = some s.kept := by simp [execRefresh]

@[simp] theorem execSelfRefreshEntry_keeps (chan : Fin 16) (s : State) : keptOf (execSelfRefreshEntry chan s) = some s.kept := by simp [execSelfRefreshEntry]

@[simp] theorem execSelfRefreshExit_keeps (chan : Fin 16) (s : State) : keptOf (execSelfRefreshExit chan s) = some s.kept := by simp [execSelfRefreshExit]

@[simp] theorem execScrubRead_keeps (chan : Fin 16) (s : State) : keptOf (execScrubRead chan s) = some s.kept := by simp [execScrubRead]

@[simp] theorem execMemSpeedReq_keeps (rate : Nat) (s : State) : keptOf (execMemSpeedReq rate s) = some s.kept := by simp [execMemSpeedReq]

@[simp] theorem execMemchRetrain_keeps (chan : Fin 16) (s : State) : keptOf (execMemchRetrain chan s) = some s.kept := by simp [execMemchRetrain]

@[simp] theorem execNetLinkUp_keeps (port : Fin 2) (s : State) : keptOf (execNetLinkUp port s) = some s.kept := by simp [execNetLinkUp]

@[simp] theorem execNetLinkLoss_keeps (iface : Fin 8) (s : State) : keptOf (execNetLinkLoss iface s) = some s.kept := by simp [execNetLinkLoss]

@[simp] theorem execEthFrameRx_keeps (iface : Fin 8) (fcsOk : Bool) (frame : Bytes) (s : State) : keptOf (execEthFrameRx iface fcsOk frame s) = some s.kept := by simp [execEthFrameRx]

@[simp] theorem execPtpEventRx_keeps (port : Fin 2) (msg : PtpMsg) (s : State) : keptOf (execPtpEventRx port msg s) = some s.kept := by
  unfold execPtpEventRx
  split
  · rfl
  · cases msg with
    | announce master best => simp
    | sync twoStep master rx interval =>
      dsimp only
      split <;> simp
    | followUp master =>
      dsimp only
      split <;> simp
    | delayResp master =>
      dsimp only
      split <;> simp

@[simp] theorem execPtpDelayReq_keeps (s : State) : keptOf (execPtpDelayReq s) = some s.kept := by
  unfold execPtpDelayReq
  split <;> simp

@[simp] theorem execVrtPacketSend_keeps (iface : Fin 8) (s : State) : keptOf (execVrtPacketSend iface s) = some s.kept := by
  unfold execVrtPacketSend
  extract_lets i from'
  split
  · rfl
  · split <;> simp

@[simp] theorem execVrtContextPeriodic_keeps (stream : Fin 256) (s : State) : keptOf (execVrtContextPeriodic stream s) = some s.kept := by simp [execVrtContextPeriodic]

@[simp] theorem execMvTailWrite_keeps (m : Fin 16) (byteEnables : BitVec 4) (value : BitVec 32) (s : State) : keptOf (execMvTailWrite m byteEnables value s) = some s.kept := by simp [execMvTailWrite]

@[simp] theorem execMvRun_keeps (m : Fin 16) (byteEnables : BitVec 4) (run : Bool) (s : State) : keptOf (execMvRun m byteEnables run s) = some s.kept := by simp [execMvRun]

@[simp] theorem execMvResume_keeps (m : Fin 16) (byteEnables : BitVec 4) (s : State) : keptOf (execMvResume m byteEnables s) = some s.kept := by simp [execMvResume]

@[simp] theorem execMvSkip_keeps (m : Fin 16) (byteEnables : BitVec 4) (s : State) : keptOf (execMvSkip m byteEnables s) = some s.kept := by simp [execMvSkip]

@[simp] theorem execMoverDescFetched_keeps (m : Fin 16) (readOk : Bool) (hostData : Bytes) (indexOk : Bool) (indexData : Bytes) (s : State) : keptOf (execMoverDescFetched m readOk hostData indexOk indexData s) = some s.kept := by simp [execMoverDescFetched]

@[simp] theorem execMoverBurstDone_keeps (m : Fin 16) (readOk : Bool) (hostData : Bytes) (s : State) : keptOf (execMoverBurstDone m readOk hostData s) = some s.kept := by
  simp only [execMoverBurstDone]
  split <;> simp

@[simp] theorem execMoverBarrierDone_keeps (m : Fin 16) (flushOk : Bool) (s : State) : keptOf (execMoverBarrierDone m flushOk s) = some s.kept := by
  simp only [execMoverBarrierDone]
  split <;> simp

@[simp] theorem execTrussPacketRx_keeps (port : Fin 4) (cls : Fin 3) (seq : BitVec 8) (packet : Bytes) (s : State) : keptOf (execTrussPacketRx port cls seq packet s) = some s.kept := by simp [execTrussPacketRx]

@[simp] theorem execTrussAckTimeout_keeps (port : Fin 4) (cls : Fin 3) (s : State) : keptOf (execTrussAckTimeout port cls s) = some s.kept := by simp [execTrussAckTimeout]

@[simp] theorem execTrussLaneFail_keeps (port : Fin 4) (lane : Fin 5) (s : State) : keptOf (execTrussLaneFail port lane s) = some s.kept := by simp [execTrussLaneFail]

@[simp] theorem execTrussSpareJoin_keeps (port : Fin 4) (s : State) : keptOf (execTrussSpareJoin port s) = some s.kept := by
  simp only [execTrussSpareJoin]
  split <;> simp

@[simp] theorem execTrussSleep_keeps (port : Fin 4) (lane : Fin 5) (s : State) : keptOf (execTrussSleep port lane s) = some s.kept := by
  simp only [execTrussSleep]
  split <;> simp

@[simp] theorem execTrussWake_keeps (port : Fin 4) (lane : Fin 5) (s : State) : keptOf (execTrussWake port lane s) = some s.kept := by
  simp only [execTrussWake]
  split <;> simp

@[simp] theorem execTrussRestart_keeps (port : Fin 4) (s : State) : keptOf (execTrussRestart port s) = some s.kept := by simp [execTrussRestart]

@[simp] theorem execTrussAlignBlock_keeps (port : Fin 4) (lane : Fin 5) (frame : BitVec 16) (crcOk : Bool) (s : State) : keptOf (execTrussAlignBlock port lane frame crcOk s) = some s.kept := by
  unfold execTrussAlignBlock
  extract_lets p l st s0 x step first y port s1 s2 s3 spare s4 done was
  split
  · rfl
  · have hs0 : s0.kept = s.kept := by
      simp only [s0]
      split <;> simp
    split
    · simp [hs0]
    · have hs2 : s2.kept = s.kept := by
        simp only [s2]
        split <;> simp [s1, hs0]
      have hs4 : s4.kept = s.kept := by
        simp only [s4, State.kept_refreshLanes]
        cases hspare : spare <;> simp [s3, hs2]
      split
      · split
        · split <;> simp [hs4]
        · split <;> simp [hs2]
      · split <;> simp [hs2]

@[simp] theorem execTollhouseSlot_keeps (requests : List (Fin 256 × Nat)) (avsOk : Bool) (dieMv : Nat) (reading : Option (Nat × Nat)) (railsOk : Bool) (s : State) : keptOf (execTollhouseSlot requests avsOk dieMv reading railsOk s) = some s.kept := by simp [execTollhouseSlot]

@[simp] theorem execBoostRemoval_keeps (s : State) : keptOf (execBoostRemoval s) = some s.kept := by simp [execBoostRemoval]

@[simp] theorem execTempRead_keeps (readings : List Int) (s : State) : keptOf (execTempRead readings s) = some s.kept := by simp [execTempRead]

@[simp] theorem execDerateStep_keeps (s : State) : keptOf (execDerateStep s) = some s.kept := by simp [execDerateStep]

@[simp] theorem execCalItemStart_keeps (s : State) : keptOf (execCalItemStart s) = some s.kept := by
  unfold execCalItemStart
  split
  · simp
  · split <;> simp

@[simp] theorem execCalItemDone_keeps (codes : List Nat) (s : State) : keptOf (execCalItemDone codes s) = some s.kept := by
  unfold execCalItemDone
  split <;> simp

@[simp] theorem execCalAgeTimeout_keeps (calUnit : Fin 6) (item : Fin 128) (s : State) : keptOf (execCalAgeTimeout calUnit item s) = some s.kept := by simp [execCalAgeTimeout]

@[simp] theorem execCalFull_keeps (s : State) : keptOf (execCalFull s) = some s.kept := by
  unfold execCalFull
  split
  · rfl
  · extract_lets items s1 s2 s3
    have hs2 : s2.kept = s.kept := by
      simp only [s2]
      split <;> simp [s1]
    have hs3 : s3.kept = s.kept := by
      simp only [s3]
      rw [kept_foldl _ (fun y g => by split <;> simp), hs2]
    simp [hs3]

@[simp] theorem execCalRun_keeps (calUnit : Fin 6) (s : State) : keptOf (execCalRun calUnit s) = some s.kept := by simp [execCalRun]

@[simp] theorem execMonStartEvent_keeps (s : State) : keptOf (execMonStartEvent s) = some s.kept := by
  unfold execMonStartEvent
  split <;> simp

@[simp] theorem execMonConversion_keeps (input : Int) (s : State) : keptOf (execMonConversion input s) = some s.kept := by
  simp only [execMonConversion]
  split <;> simp

@[simp] theorem execMonCodeReady_keeps (s : State) : keptOf (execMonCodeReady s) = some s.kept := by
  unfold execMonCodeReady
  split <;> simp

@[simp] theorem execRingFlush_keeps (port : Fin 1024) (fe : Bool) (s : State) : keptOf (execRingFlush port fe s) = some s.kept := by
  unfold execRingFlush
  split <;> simp

@[simp] theorem execRingBlockWritten_keeps (port : Fin 1024) (fe : Bool) (s : State) : keptOf (execRingBlockWritten port fe s) = some s.kept := by simp [execRingBlockWritten]

@[simp] theorem execRingSlabs_keeps (slabs : Nat) (s : State) : keptOf (execRingSlabs slabs s) = some s.kept := by simp [execRingSlabs]

@[simp] theorem execFwLoad_keeps (addr : Nat) (len : Nat) (s : State) : keptOf (execFwLoad addr len s) = some s.kept := by simp [execFwLoad]

@[simp] theorem execFwLoadChecked_keeps (s : State) : keptOf (execFwLoadChecked s) = some s.kept := by
  unfold execFwLoadChecked
  split <;> simp

@[simp] theorem execFwLoadVerified_keeps (ok : Bool) (s : State) : keptOf (execFwLoadVerified ok s) = some s.kept := by simp [execFwLoadVerified]

@[simp] theorem execFwSwap_keeps (s : State) : keptOf (execFwSwap s) = some s.kept := by simp [execFwSwap]

@[simp] theorem execFwPrepareDone_keeps (ok : Bool) (s : State) : keptOf (execFwPrepareDone ok s) = some s.kept := by simp [execFwPrepareDone]

@[simp] theorem execFwHandoverDone_keeps (s : State) : keptOf (execFwHandoverDone s) = some s.kept := by simp [execFwHandoverDone]

@[simp] theorem execFwHandoverTimeout_keeps (s : State) : keptOf (execFwHandoverTimeout s) = some s.kept := by simp [execFwHandoverTimeout]

@[simp] theorem execFwConfirm_keeps (s : State) : keptOf (execFwConfirm s) = some s.kept := by simp [execFwConfirm]

@[simp] theorem execAttNonce_keeps (nonce : Bytes) (s : State) : keptOf (execAttNonce nonce s) = some s.kept := by simp [execAttNonce]

@[simp] theorem execAttReportReady_keeps (s : State) : keptOf (execAttReportReady s) = some s.kept := by simp [execAttReportReady]

@[simp] theorem execSecOwnerKey_keeps (key : Bytes) (s : State) : keptOf (execSecOwnerKey key s) = some s.kept := by simp [execSecOwnerKey]

@[simp] theorem execConfigScrub_keeps (corrected : Nat) (uncorrectable : Nat) (s : State) : keptOf (execConfigScrub corrected uncorrectable s) = some s.kept := by simp [execConfigScrub]

@[simp] theorem execConfigRestoreDone_keeps (s : State) : keptOf (execConfigRestoreDone s) = some s.kept := by simp [execConfigRestoreDone]

@[simp] theorem execUeExcursionEnd_keeps (s : State) : keptOf (execUeExcursionEnd s) = some s.kept := by
  unfold execUeExcursionEnd
  split <;> simp

@[simp] theorem execAccClear_keeps (byteEnables : BitVec 4) (value : BitVec 32) (s : State) : keptOf (execAccClear byteEnables value s) = some s.kept := by simp [execAccClear]

@[simp] theorem execRegisterWrite_keeps (bar2 : Bool) (offset : Nat) (byteEnables : BitVec 4) (value : BitVec 32) (s : State) : keptOf (execRegisterWrite bar2 offset byteEnables value s) = some s.kept := by simp [execRegisterWrite]

@[simp] theorem execApBaseWrite_keeps (byteEnables : BitVec 4) (value : BitVec 32) (s : State) : keptOf (execApBaseWrite byteEnables value s) = some s.kept := by simp [execApBaseWrite]

@[simp] theorem execApMoveDone_keeps (s : State) : keptOf (execApMoveDone s) = some s.kept := by simp [execApMoveDone]

@[simp] theorem execMboxSelWrite_keeps (byteEnables : BitVec 4) (value : BitVec 32) (s : State) : keptOf (execMboxSelWrite byteEnables value s) = some s.kept := by simp [execMboxSelWrite]

@[simp] theorem execMboxSnapshotDone_keeps (s : State) : keptOf (execMboxSnapshotDone s) = some s.kept := by simp [execMboxSnapshotDone]

@[simp] theorem execDcRead_keeps (bulk : Bool) (s : State) : keptOf (execDcRead bulk s) = some s.kept := by simp [execDcRead]

@[simp] theorem execGroupOpen_keeps (s : State) : keptOf (execGroupOpen s) = some s.kept := by simp [execGroupOpen]

@[simp] theorem execGroupAdd_keeps (bulk : Bool) (s : State) : keptOf (execGroupAdd bulk s) = some s.kept := by
  unfold execGroupAdd
  split_ifs
  · rfl
  · simp
  · simp
  · split <;> simp

@[simp] theorem execGroupDiscard_keeps (s : State) : keptOf (execGroupDiscard s) = some s.kept := by simp [execGroupDiscard]

@[simp] theorem execMsixMessage_keeps (vector : Fin 64) (s : State) : keptOf (execMsixMessage vector s) = some s.kept := by simp [execMsixMessage]

@[simp] theorem execApertureAccess_keeps (write : Bool) (offset : Nat) (byteEnables : BitVec 4) (data : Bytes) (s : State) : keptOf (execApertureAccess write offset byteEnables data s) = some s.kept := by simp [execApertureAccess]

@[simp] theorem execHrRptrWrite_keeps (n : Fin 64) (byteEnables : BitVec 4) (value : BitVec 32) (s : State) : keptOf (execHrRptrWrite n byteEnables value s) = some s.kept := by simp [execHrRptrWrite]

@[simp] theorem execHostInterfaceReset_keeps (kind : HostResetKind) (s : State) : keptOf (execHostInterfaceReset kind s) = some s.kept := by simp [execHostInterfaceReset]

@[simp] theorem execPcieLinkUp_keeps (s : State) : keptOf (execPcieLinkUp s) = some s.kept := by simp [execPcieLinkUp]

@[simp] theorem execConfigurationRequest_keeps (busMaster : Option Bool) (d3hot : Option Bool) (s : State) : keptOf (execConfigurationRequest busMaster d3hot s) = some s.kept := by simp [execConfigurationRequest]

@[simp] theorem execLanePllLoss_keeps (pll : Fin 24) (s : State) : keptOf (execLanePllLoss pll s) = some s.kept := by simp [execLanePllLoss]

@[simp] theorem execPelpinRequestRx_keeps (iface : Fin 8) (src : NetAddr) (payload : Bytes) (s : State) : keptOf (execPelpinRequestRx iface src payload s) = some s.kept := by simp [execPelpinRequestRx]

@[simp] theorem execPelpinRead_keeps (s : State) : keptOf (execPelpinRead s) = some s.kept := by
  unfold execPelpinRead
  split
  · rfl
  · rename_i htake
    rw [← State.kept_of_takeRequest htake]

    extract_lets count ks bad
    split_ifs <;> simp

@[simp] theorem execGroupAssemblyTimeout_keeps (session : Fin 16) (group : Fin 2) (s : State) : keptOf (execGroupAssemblyTimeout session group s) = some s.kept := by simp [execGroupAssemblyTimeout]

@[simp] theorem execSubscribe_keeps (s : State) : keptOf (execSubscribe s) = some s.kept := by
  unfold execSubscribe
  split
  · rfl
  · rename_i htake
    rw [← State.kept_of_takeRequest htake]

    extract_lets b k mode
    split_ifs <;> simp

@[simp] theorem execNotify_keeps (session : Fin 16) (sub : Fin 64) (s : State) : keptOf (execNotify session sub s) = some s.kept := by
  simp only [execNotify]
  split <;> simp

@[simp] theorem execBulkStage_keeps (s : State) : keptOf (execBulkStage s) = some s.kept := by
  unfold execBulkStage
  split
  · rfl
  · rename_i htake
    rw [← State.kept_of_takeRequest htake]

    split
    · simp
    · extract_lets
      split_ifs <;> simp

@[simp] theorem execBulkRead_keeps (s : State) : keptOf (execBulkRead s) = some s.kept := by
  unfold execBulkRead
  split
  · rfl
  · rename_i htake
    rw [← State.kept_of_takeRequest htake]

    extract_lets k offset total
    split_ifs <;> simp

@[simp] theorem execBulkClear_keeps (s : State) : keptOf (execBulkClear s) = some s.kept := by
  unfold execBulkClear
  split
  · rfl
  · rename_i htake
    rw [← State.kept_of_takeRequest htake]

    split
    · simp
    · split_ifs <;> simp

@[simp] theorem execOpen1_keeps (s : State) : keptOf (execOpen1 s) = some s.kept := by
  unfold execOpen1
  split
  · rfl
  · rename_i htake
    rw [← State.kept_of_takeRequest htake]

    extract_lets b slot
    split
    · simp
    · split_ifs
      · simp
      · simp
      · split <;> simp

@[simp] theorem execOpen3_keeps (s : State) : keptOf (execOpen3 s) = some s.kept := by
  unfold execOpen3
  split
  · rfl
  · rename_i htake
    rw [← State.kept_of_takeRequest htake]

    extract_lets n x
    split_ifs <;> simp

@[simp] theorem execClose_keeps (s : State) : keptOf (execClose s) = some s.kept := by
  unfold execClose
  split
  · rfl
  · rename_i htake
    rw [← State.kept_of_takeRequest htake]

    split_ifs <;> simp

@[simp] theorem execSessionIdleTimeout_keeps (session : Fin 16) (s : State) : keptOf (execSessionIdleTimeout session s) = some s.kept := by simp [execSessionIdleTimeout]

@[simp] theorem execOpen3Timeout_keeps (session : Fin 16) (s : State) : keptOf (execOpen3Timeout session s) = some s.kept := by simp [execOpen3Timeout]

@[simp] theorem execPpSessClose_keeps (session : Fin 16) (s : State) : keptOf (execPpSessClose session s) = some s.kept := by simp [execPpSessClose]

@[simp] theorem execPerstRelease_keeps (straps : Straps) (s : State) : keptOf (execPerstRelease straps s) = some s.kept := by simp [execPerstRelease]

@[simp] theorem execBootDone_keeps (report : BootReport) (board : Bytes) (s : State) : keptOf (execBootDone report board s) = some s.kept := by
  unfold execBootDone
  split
  · rfl
  · extract_lets b0 stop stage1 s1 sec
    have hstop (y : State) (bits : Nat) : (stop y bits).kept = y.kept := by simp [stop]
    split
    · simp [hstop]
    · split
      · simp [hstop, s1]
      · extract_lets fw s2 s3 sb s4 s5
        have hsb : sb.kept = s.kept := by simp [sb, s3, s2, sec, s1]
        have hs4 : s4.kept = s.kept := by
          simp only [s4]
          split <;> simp [hsb]
        have hs5 : s5.kept = s.kept := by
          simp only [s5]
          rw [kept_foldl _ (fun y g => by simp), hs4]
        simp [hs5]

@[simp] theorem execStartupCalibrationDone_keeps (report : StartupCalibration) (s : State) : keptOf (execStartupCalibrationDone report s) = some s.kept := by simp [execStartupCalibrationDone]

@[simp] theorem execTrainingComplete_keeps (report : List ChanReport) (s : State) : keptOf (execTrainingComplete report s) = some s.kept := by
  unfold execTrainingComplete
  split
  · simp
  · extract_lets found s1 mem s2
    have hs1 : s1.kept = s.kept := by
      simp only [s1]
      refine kept_foldl _ (fun y k => ?_) _ _
      split
      · rfl
      · split_ifs
        · simp
        · simp
        · simp
        · simp
        · rfl
    have hs2 : s2.kept = s.kept := by
      simp only [s2]
      split
      · exact hs1
      · simp [mem, hs1]
    simp [hs2]

@[simp] theorem execLinksStageEnd_keeps (s : State) : keptOf (execLinksStageEnd s) = some s.kept := by simp [execLinksStageEnd]

@[simp] theorem execMpy_keeps (core : Fin 32) (sat : Bool) (ax : Fin 4) (ra : Fin 16) (rb : Fin 16) (s : State) : keptOf (execMpy core sat ax ra rb s) = some s.kept := by simp [execMpy]

@[simp] theorem execMac_keeps (core : Fin 32) (sat : Bool) (ax : Fin 4) (ra : Fin 16) (rb : Fin 16) (s : State) : keptOf (execMac core sat ax ra rb s) = some s.kept := by simp [execMac]

@[simp] theorem execMsu_keeps (core : Fin 32) (sat : Bool) (ax : Fin 4) (ra : Fin 16) (rb : Fin 16) (s : State) : keptOf (execMsu core sat ax ra rb s) = some s.kept := by simp [execMsu]

@[simp] theorem execAdda_keeps (core : Fin 32) (sat : Bool) (ax : Fin 4) (ay : Fin 4) (s : State) : keptOf (execAdda core sat ax ay s) = some s.kept := by simp [execAdda]

@[simp] theorem execSuba_keeps (core : Fin 32) (sat : Bool) (ax : Fin 4) (ay : Fin 4) (s : State) : keptOf (execSuba core sat ax ay s) = some s.kept := by simp [execSuba]

@[simp] theorem execClra_keeps (core : Fin 32) (ax : Fin 4) (s : State) : keptOf (execClra core ax s) = some s.kept := by simp [execClra]

@[simp] theorem execLdac_keeps (core : Fin 32) (sat : Bool) (ax : Fin 4) (ra : Fin 16) (n : BitVec 7) (s : State) : keptOf (execLdac core sat ax ra n s) = some s.kept := by simp [execLdac]

@[simp] theorem execSha_keeps (core : Fin 32) (sat : Bool) (ax : Fin 4) (n : BitVec 7) (s : State) : keptOf (execSha core sat ax n s) = some s.kept := by simp [execSha]

@[simp] theorem execRnd_keeps (core : Fin 32) (sat : Bool) (rd : Fin 16) (ay : Fin 4) (n : BitVec 7) (s : State) : keptOf (execRnd core sat rd ay n s) = some s.kept := by simp [execRnd]

@[simp] theorem execMfa_keeps (core : Fin 32) (rd : Fin 16) (ay : Fin 4) (p : BitVec 7) (s : State) : keptOf (execMfa core rd ay p s) = some s.kept := by simp [execMfa]

@[simp] theorem execMta_keeps (core : Fin 32) (ax : Fin 4) (ra : Fin 16) (p : BitVec 7) (s : State) : keptOf (execMta core ax ra p s) = some s.kept := by simp [execMta]

@[simp] theorem execCmpa_keeps (core : Fin 32) (ax : Fin 4) (ay : Fin 4) (s : State) : keptOf (execCmpa core ax ay s) = some s.kept := by simp [execCmpa]

@[simp] theorem execNorm_keeps (core : Fin 32) (rd : Fin 16) (ay : Fin 4) (s : State) : keptOf (execNorm core rd ay s) = some s.kept := by simp [execNorm]

@[simp] theorem execMula_keeps (core : Fin 32) (sat : Bool) (ax : Fin 4) (ay : Fin 4) (rb : Fin 16) (s : State) : keptOf (execMula core sat ax ay rb s) = some s.kept := by simp [execMula]

@[simp] theorem execNop_keeps (core : Fin 32) (s : State) : keptOf (execNop core s) = some s.kept := by simp [execNop]

@[simp] theorem execHalt_keeps (core : Fin 32) (s : State) : keptOf (execHalt core s) = some s.kept := by
  unfold execHalt
  split
  · rfl
  · extract_lets c
    split
    · rfl
    · split
      · extract_lets params n
        split_ifs <;> simp
      · simp

@[simp] theorem execTrap_keeps (core : Fin 32) (code : BitVec 8) (s : State) : keptOf (execTrap core code s) = some s.kept := by simp [execTrap]

@[simp] theorem execSync_keeps (core : Fin 32) (s : State) : keptOf (execSync core s) = some s.kept := by simp [execSync]

@[simp] theorem execRete_keeps (core : Fin 32) (s : State) : keptOf (execRete core s) = some s.kept := by simp [execRete]

@[simp] theorem execBr_keeps (core : Fin 32) (cond : Fin 16) (target : BitVec 15) (s : State) : keptOf (execBr core cond target s) = some s.kept := by simp [execBr]

@[simp] theorem execCall_keeps (core : Fin 32) (target : BitVec 15) (s : State) : keptOf (execCall core target s) = some s.kept := by simp [execCall]

@[simp] theorem execRet_keeps (core : Fin 32) (s : State) : keptOf (execRet core s) = some s.kept := by simp [execRet]

@[simp] theorem execLoop_keeps (core : Fin 32) (count : BitVec 16) (last : BitVec 15) (s : State) : keptOf (execLoop core count last s) = some s.kept := by simp [execLoop]

@[simp] theorem execLoopr_keeps (core : Fin 32) (ra : Fin 16) (last : BitVec 15) (s : State) : keptOf (execLoopr core ra last s) = some s.kept := by simp [execLoopr]

@[simp] theorem execReservedOpcode_keeps (core : Fin 32) (s : State) : keptOf (execReservedOpcode core s) = some s.kept := by
  simp only [execReservedOpcode]
  split <;> simp

@[simp] theorem execMovi_keeps (core : Fin 32) (rd : Fin 16) (imm : BitVec 24) (s : State) : keptOf (execMovi core rd imm s) = some s.kept := by simp [execMovi]

@[simp] theorem execLd_keeps (core : Fin 32) (rd : Fin 16) (an : Fin 8) (off : BitVec 16) (mod : Fin 4) (s : State) : keptOf (execLd core rd an off mod s) = some s.kept := by simp [execLd]

@[simp] theorem execSt_keeps (core : Fin 32) (rd : Fin 16) (an : Fin 8) (off : BitVec 16) (mod : Fin 4) (s : State) : keptOf (execSt core rd an off mod s) = some s.kept := by simp [execSt]

@[simp] theorem execLea_keeps (core : Fin 32) (ad : Fin 8) (an : Fin 8) (off : BitVec 16) (s : State) : keptOf (execLea core ad an off s) = some s.kept := by simp [execLea]

@[simp] theorem execMvda_keeps (core : Fin 32) (ad : Fin 8) (ra : Fin 16) (s : State) : keptOf (execMvda core ad ra s) = some s.kept := by simp [execMvda]

@[simp] theorem execMvad_keeps (core : Fin 32) (rd : Fin 16) (an : Fin 8) (s : State) : keptOf (execMvad core rd an s) = some s.kept := by simp [execMvad]

@[simp] theorem execAdd_keeps (core : Fin 32) (sat : Bool) (rd : Fin 16) (ra : Fin 16) (rb : Fin 16) (s : State) : keptOf (execAdd core sat rd ra rb s) = some s.kept := by simp [execAdd]

@[simp] theorem execSub_keeps (core : Fin 32) (sat : Bool) (rd : Fin 16) (ra : Fin 16) (rb : Fin 16) (s : State) : keptOf (execSub core sat rd ra rb s) = some s.kept := by simp [execSub]

@[simp] theorem execAddi_keeps (core : Fin 32) (sat : Bool) (rd : Fin 16) (ra : Fin 16) (imm : BitVec 24) (s : State) : keptOf (execAddi core sat rd ra imm s) = some s.kept := by simp [execAddi]

@[simp] theorem execNeg_keeps (core : Fin 32) (sat : Bool) (rd : Fin 16) (ra : Fin 16) (s : State) : keptOf (execNeg core sat rd ra s) = some s.kept := by simp [execNeg]

@[simp] theorem execAbs_keeps (core : Fin 32) (sat : Bool) (rd : Fin 16) (ra : Fin 16) (s : State) : keptOf (execAbs core sat rd ra s) = some s.kept := by simp [execAbs]

@[simp] theorem execMul_keeps (core : Fin 32) (sat : Bool) (rd : Fin 16) (ra : Fin 16) (rb : Fin 16) (s : State) : keptOf (execMul core sat rd ra rb s) = some s.kept := by simp [execMul]

@[simp] theorem execShl_keeps (core : Fin 32) (sat : Bool) (rd : Fin 16) (ra : Fin 16) (n : BitVec 7) (s : State) : keptOf (execShl core sat rd ra n s) = some s.kept := by simp [execShl]

@[simp] theorem execAsr_keeps (core : Fin 32) (sat : Bool) (rd : Fin 16) (ra : Fin 16) (n : BitVec 7) (s : State) : keptOf (execAsr core sat rd ra n s) = some s.kept := by simp [execAsr]

@[simp] theorem execMin_keeps (core : Fin 32) (rd : Fin 16) (ra : Fin 16) (rb : Fin 16) (s : State) : keptOf (execMin core rd ra rb s) = some s.kept := by simp [execMin]

@[simp] theorem execMax_keeps (core : Fin 32) (rd : Fin 16) (ra : Fin 16) (rb : Fin 16) (s : State) : keptOf (execMax core rd ra rb s) = some s.kept := by simp [execMax]

@[simp] theorem execCmp_keeps (core : Fin 32) (ra : Fin 16) (rb : Fin 16) (s : State) : keptOf (execCmp core ra rb s) = some s.kept := by simp [execCmp]

@[simp] theorem execCmpi_keeps (core : Fin 32) (ra : Fin 16) (imm : BitVec 24) (s : State) : keptOf (execCmpi core ra imm s) = some s.kept := by simp [execCmpi]

@[simp] theorem execAnd_keeps (core : Fin 32) (rd : Fin 16) (ra : Fin 16) (rb : Fin 16) (s : State) : keptOf (execAnd core rd ra rb s) = some s.kept := by simp [execAnd]

@[simp] theorem execOr_keeps (core : Fin 32) (rd : Fin 16) (ra : Fin 16) (rb : Fin 16) (s : State) : keptOf (execOr core rd ra rb s) = some s.kept := by simp [execOr]

@[simp] theorem execXor_keeps (core : Fin 32) (rd : Fin 16) (ra : Fin 16) (rb : Fin 16) (s : State) : keptOf (execXor core rd ra rb s) = some s.kept := by simp [execXor]

@[simp] theorem execLsr_keeps (core : Fin 32) (rd : Fin 16) (ra : Fin 16) (n : BitVec 7) (s : State) : keptOf (execLsr core rd ra n s) = some s.kept := by simp [execLsr]

@[simp] theorem execMfs_keeps (core : Fin 32) (rd : Fin 16) (imm : BitVec 24) (s : State) : keptOf (execMfs core rd imm s) = some s.kept := by simp [execMfs]

@[simp] theorem execMff_keeps (core : Fin 32) (rd : Fin 16) (s : State) : keptOf (execMff core rd s) = some s.kept := by simp [execMff]

@[simp] theorem execClrf_keeps (core : Fin 32) (imm : BitVec 24) (s : State) : keptOf (execClrf core imm s) = some s.kept := by simp [execClrf]

end Sys2Proof.Machine
end

section
/-! The commands that write the DRAM contents or set a lock, and with them the invariants of every command: the queue stays, the DRAM contents
stay canonical, locks stay set, and a next state is answered (00; 10; 13 R355). -/

namespace Sys2Proof.Machine

/-- The queue stays, canonical DRAM contents stay canonical, and a lock that is set stays set. -/
structure State.Stays (s t : State) : Prop where
  pending : t.pending = s.pending
  cells : s.mem.wf = true → t.mem.wf = true
  boardLock : s.sec.boardLock = true → t.sec.boardLock = true
  keysLock : s.sec.keysLock = true → t.sec.keysLock = true

namespace State

theorem Stays.refl (s : State) : s.Stays s := ⟨rfl, id, id, id⟩

theorem Stays.trans {s t u : State} (h : s.Stays t) (k : t.Stays u) : s.Stays u :=
  ⟨k.pending.trans h.pending, k.cells ∘ h.cells, k.boardLock ∘ h.boardLock, k.keysLock ∘ h.keysLock⟩

/-- A state that kept the four parts unchanged stays in the sense of `Stays`. -/
theorem Stays.of_kept {s t : State} (h : t.kept = s.kept) : s.Stays t := by
  simp only [kept, Prod.mk.injEq] at h
  obtain ⟨hpending, hcells, hboard, hkeys, -⟩ := h
  exact ⟨hpending, fun hw => by rwa [Mem.wf, hcells], fun hb => hboard.trans hb, fun hk => hkeys.trans hk⟩

theorem Stays.foldl {α : Type} {f : State → α → State} (hf : ∀ x a, Stays x (f x a)) (l : List α) (s : State) : s.Stays (l.foldl f s) := by
  induction l generalizing s with
  | nil => exact .refl s
  | cons a l ih => exact (hf s a).trans (ih _)

theorem stays_storeBytes (s : State) (w : MemReq) : s.Stays (s.storeBytes w) :=
  ⟨rfl, MemReq.store_wf w _, id, id⟩

theorem stays_withGroups (s : State) (gs : List Group) : s.Stays (s.withGroups gs) := ⟨rfl, id, id, id⟩

theorem stays_remapLane (s : State) (lane : Nat) : s.Stays (s.remapLane lane) := by
  refine ⟨?_, remapLane_wf s lane, ?_, ?_⟩ <;> (unfold remapLane; split) <;> simp

theorem stays_remapAll (s : State) : s.Stays s.remapAll :=
  (Stays.foldl stays_remapLane _ s).trans (.of_kept (kept_refreshRingAvail _))

theorem stays_issue (s : State) (k b : Nat) (r : MemReq) : s.Stays (s.issue k b r) := by
  unfold issue
  extract_lets c q c1 s1
  split
  · have hs1 : s.Stays s1 := (Stays.of_kept (by simp)).trans (stays_storeBytes _ r)
    split
    · exact hs1.trans (.of_kept (by simp))
    · exact hs1
  · exact .of_kept (by simp)


/-- Remapping and regridding at T of a group (10 R271, R286). -/
theorem stays_commitMemory (s : State) (g : Group) (old : Nat → Nat) : s.Stays (commitMemory s g old) := by
  unfold commitMemory
  split
  · exact .refl s
  · split
    · exact (Stays.of_kept (by simp)).trans (stays_remapAll _)
    · extract_lets before
      refine Stays.trans ?_ (stays_remapAll _)
      exact ⟨rfl, fun _ => regrainedCells_wf before _, id, id⟩

theorem stays_commitChapters (s : State) (g : Group) (old : Nat → Nat) : s.Stays (s.commitChapters g old) := by
  unfold commitChapters
  extract_lets s1 s2 s3 s4 s5 s6
  have h4 : s.Stays s4 := .of_kept (by simp [s4, s3, s2, s1])
  have hmem : s.Stays (commitMemory s4 g old) := h4.trans (stays_commitMemory s4 g old)
  have h5 : s.Stays s5 := hmem.trans (.of_kept (by simp [s5]))
  exact h5.trans (.of_kept (by simp [s6]))

theorem stays_takeGroup (s : State) (t : KTime) : s.Stays (s.takeGroup t).2 := by
  unfold takeGroup
  extract_lets g s1 s2
  have hgroups : s.Stays s1 := stays_withGroups s _
  have h1 : s.Stays (g.writes.foldl (applyWrite t) s1) := hgroups.trans (.of_kept (by simp))
  have h2 : s.Stays s2 := (h1.trans (stays_commitChapters _ g s.obj)).trans (.of_kept (by simp [s2]))
  split
  · exact h2
  · exact h2.trans (.of_kept (by simp))

theorem stays_takeJumped (s : State) (fuel : Nat) : s.Stays (s.takeJumped fuel) := by
  induction fuel generalizing s with
  | zero => exact .refl s
  | succ fuel ih =>
    unfold takeJumped
    split
    · exact .refl s
    · exact ((Stays.of_kept (by simp)).trans (stays_takeGroup _ _)).trans (ih _)

theorem stays_finishStep (s : State) : s.Stays s.finishStep := by
  unfold finishStep
  extract_lets s1 s2
  have h1 : s.Stays s1 := stays_takeJumped s _
  exact h1.trans (.of_kept (by simp [s2]))

/-! ### Commit groups -/

theorem stays_acceptGroup (s : State) (g : Group) : s.Stays (s.acceptGroup g) := by
  unfold acceptGroup
  extract_lets s1
  have h1 : s.Stays s1 := .of_kept (by simp [s1])
  exact h1.trans (stays_withGroups s1 _)

theorem stays_submitGroup (s : State) (t : KTime) (ws : List RawWrite) (iface : Option Nat) : s.Stays (s.submitGroup t ws iface).2 := by
  unfold submitGroup
  extract_lets r
  split
  · exact stays_acceptGroup s _
  · exact .refl s

theorem stays_submitAssembled (s : State) (r : PpRequest) (g : PpGroup) : s.Stays (s.submitAssembled r g) := by
  unfold submitAssembled
  extract_lets me iface x others id span s1 y answers b
  split
  · have hx : s.Stays x.2 := stays_submitGroup s _ _ _
    exact hx.trans (.of_kept (by simp))
  · split
    · exact .of_kept (by simp)
    · have h1 : s.Stays s1 := .of_kept (by simp [s1])
      have hy : s.Stays y.2 := h1.trans (stays_submitGroup s1 _ _ _)
      split <;> exact hy.trans (.of_kept (by simp))

theorem stays_addPart (s : State) (r : PpRequest) (ws : List RawWrite) : s.Stays (s.addPart r ws) := by
  unfold addPart
  extract_lets n part all others mine start g g1
  split
  · exact .of_kept (by simp)
  · split
    · exact (Stays.of_kept (by simp)).trans (stays_submitAssembled _ r g1)
    · exact .of_kept (by simp)

theorem stays_groupArrives (s : State) (r : PpRequest) : s.Stays (s.groupArrives r) := by
  unfold groupArrives
  split
  extract_lets answer
  split
  · exact .of_kept (by simp [answer])
  · extract_lets x
    have hx : s.Stays x.2 := stays_submitGroup s _ _ _
    exact hx.trans (.of_kept (by simp [answer]))

/-! ### Writes of the dictionary -/

theorem stays_immBoardLock (s : State) : s.Stays (immBoardLock s).2 := by
  unfold immBoardLock
  split
  · exact .refl s
  · exact ⟨rfl, id, fun _ => rfl, id⟩

theorem stays_immKeysLock (s : State) : s.Stays (immKeysLock s).2 := by
  unfold immKeysLock
  split
  · exact .refl s
  · exact ⟨rfl, id, id, fun _ => rfl⟩

theorem stays_snd_ite {s : State} {c : Prop} [Decidable c] {x y : Code × State} (hx : s.Stays x.2) (hy : s.Stays y.2) : s.Stays (if c then x else y).2 := by
  split
  · exact hx
  · exact hy

theorem stays_immediate (k : Nat) (b : Bytes) (s : State) : s.Stays (immediate k b s).2 := by
  unfold immediate
  extract_lets ix v
  iterate 11 refine stays_snd_ite (.of_kept (by simp)) ?_
  refine stays_snd_ite (stays_immBoardLock s) (stays_snd_ite (stays_immKeysLock s) ?_)
  iterate 7 refine stays_snd_ite (.of_kept (by simp)) ?_
  exact .refl s

theorem stays_writeImmediate (s : State) (w : RawWrite) : s.Stays (s.writeImmediate w).2 := by
  unfold writeImmediate
  extract_lets c r
  split_ifs
  · exact .refl s
  · exact .refl s
  · exact stays_immediate w.key w.value s
  · exact .refl s

theorem stays_writeEntries (r : PpRequest) (es : List PpEntry) (s : State) : s.Stays (writeEntries r es s).2 := by
  induction es generalizing s with
  | nil => exact .refl s
  | cons e es ih =>
    unfold writeEntries
    extract_lets x y
    have hx : s.Stays x.2 := by
      simp only [x]
      split
      · exact .refl s
      · split
        · exact .refl s
        · exact stays_writeImmediate s _
    exact hx.trans (ih _)

end State

/-! ### Commands -/

/-- A command answers a next state that stays in the sense of `State.Stays`. -/
def Answers (s : State) (o : Out) : Prop := ∃ t, o = .next t ∧ s.Stays t

theorem Answers.next {s t : State} (h : s.Stays t) : Answers s (.next t) := ⟨t, rfl, h⟩

theorem Answers.of_kept {s : State} {o : Out} (h : keptOf o = some s.kept) : Answers s o := by
  cases o with
  | next t => exact .next (.of_kept (Option.some.inj h))
  | fault r => exact nomatch h
  | refused r => exact nomatch h

theorem execBankSchedule_answers (chan : Fin 16) (bank : Fin 256) (s : State) : Answers s (execBankSchedule chan bank s) := by
  unfold execBankSchedule
  extract_lets k s1
  have h1 : s.Stays s1 := .of_kept (by simp [s1])
  split
  · exact .next (.refl s)
  · split
    · exact .next h1
    · refine .next ((h1.trans ?_).trans (State.stays_issue _ k bank.val _))
      split
      · exact .of_kept (by simp)
      · exact .refl s1

theorem execRemapComplete_answers (s : State) : Answers s (execRemapComplete s) := by
  unfold execRemapComplete
  split
  · exact .next (.refl s)
  · rename_i lane _ rest _
    extract_lets s1 mem s2 s3
    have h1 : s.Stays s1 := (State.stays_remapLane s lane).trans (.of_kept (State.kept_refreshRingAvail _))
    have h3 : s3.kept = s1.kept := by
      simp only [s3]
      rw [kept_foldl _ (fun y r => by simp)]
      simp [s2, mem]
    exact .next (h1.trans (.of_kept (by simp [h3])))

theorem execCommitTakesEffect_answers (s : State) : Answers s (execCommitTakesEffect s) := by
  unfold execCommitTakesEffect
  split
  · exact .next (.refl s)
  · rename_i t _
    refine .next ((State.stays_takeGroup s t).trans ?_)
    split
    · exact State.stays_finishStep _
    · exact .refl _

/-- A command of the dictionary stays when what it does on receipt stays. -/
theorem State.stays_act (s : State) {f : State → Code × State} (hf : s.Stays (f s).2) : s.Stays (s.act f) := by
  have hreceipt : s.Stays (s.onReceipt f).2 := by
    unfold State.onReceipt
    split
    · exact hf
    · exact .refl s
  exact hreceipt.trans (.of_kept (by simp [State.act]))

theorem execWriteNow_answers (bulk : Bool) (s : State) : Answers s (execWriteNow bulk s) := by
  unfold execWriteNow
  split
  · exact .next (.refl s)
  · split
    · exact .next (.of_kept (by simp))
    · rename_i w _
      exact .next ((State.stays_writeImmediate s w).trans (.of_kept (by simp)))

theorem execPelpinWrite_answers (s : State) : Answers s (execPelpinWrite s) := by
  unfold execPelpinWrite
  split
  · exact .next (.refl s)
  · rename_i r s1 htake
    have h1 : s.Stays s1 := .of_kept (State.kept_of_takeRequest htake)
    extract_lets count
    split
    · exact .next (h1.trans (.of_kept (by simp)))
    · rename_i es _
      split_ifs
      · exact .next (h1.trans (.of_kept (by simp)))
      · split
        · exact .next (h1.trans (.of_kept (by simp)))
        · exact .next (h1.trans (.of_kept (by simp)))
      · exact .next ((h1.trans (State.stays_writeEntries r es s1)).trans (.of_kept (by simp)))

theorem execGroupCommit_answers (s : State) : Answers s (execGroupCommit s) := by
  unfold execGroupCommit
  split
  · exact .next (.refl s)
  · split
    · exact .next (.of_kept (by simp))
    · exact .next ((State.stays_submitGroup s s.pev.groupT s.pev.group none).trans (.of_kept (by simp)))

theorem execPelpinCommit_answers (s : State) : Answers s (execPelpinCommit s) := by
  unfold execPelpinCommit
  split
  · exact .next (.refl s)
  · rename_i r s1 htake
    have h1 : s.Stays s1 := .of_kept (State.kept_of_takeRequest htake)
    have range : Answers s (.next (s1.respond r Res.range [])) := .next (h1.trans (.of_kept (by simp)))
    split_ifs
    · exact .next (h1.trans (State.stays_groupArrives s1 r))
    · exact .next (h1.trans (.of_kept (by simp)))
    · extract_lets b bad
      split
      · exact range
      · split
        · exact range
        · exact .next (h1.trans (.of_kept (by simp)))
    · extract_lets b bad
      split
      · exact range
      · split
        · exact range
        · exact .next (h1.trans (State.stays_addPart s1 r _))

/-- What power-on reset does to the queue and the DRAM contents. -/
theorem execPowerOnReset_answers (s : State) : ∃ t, execPowerOnReset s = .next t ∧ t.pending = s.pending ∧ t.mem.wf = true := by
  unfold execPowerOnReset
  extract_lets keys drives flash fresh
  have hkept := kept_foldl (fun y k => y.setObj k (s.obj k)) (fun y k => by simp) keys fresh
  refine ⟨_, rfl, ?_⟩
  simp only [State.kept, Prod.mk.injEq] at hkept
  obtain ⟨hpending, hcells, -⟩ := hkept
  exact ⟨hpending, by rw [Mem.wf, hcells]; exact reset_mem_wf⟩

/-- Every command but power-on reset. -/
theorem exec_answers (c : Instr) (s : State) (hc : c ≠ .powerOnReset) : Answers s (exec c s) := by
  cases c
  case powerOnReset => exact absurd rfl hc
  case bankSchedule chan bank => exact execBankSchedule_answers chan bank s
  case remapComplete => exact execRemapComplete_answers s
  case commitTakesEffect => exact execCommitTakesEffect_answers s
  case boardLock => exact .next (s.stays_act (State.stays_immBoardLock s))
  case ppKeysLock => exact .next (s.stays_act (State.stays_immKeysLock s))
  case writeNow bulk => exact execWriteNow_answers bulk s
  case groupCommit => exact execGroupCommit_answers s
  case pelpinCommit => exact execPelpinCommit_answers s
  case pelpinWrite => exact execPelpinWrite_answers s
  all_goals exact .of_kept (by simp)

theorem tickEdge_stays (s : State) : s.Stays (tickEdge s) := .of_kept (by simp)

/-- Settles O6, by the commands' answers. -/
theorem everyCommandAnswers : Obligations.EveryCommandAnswers := by
  intro c s
  by_cases hc : c = .powerOnReset
  · obtain ⟨t, ht, -⟩ := execPowerOnReset_answers s
    exact ⟨t, by rw [hc]; exact ht⟩
  · obtain ⟨t, ht, -⟩ := exec_answers c s hc
    exact ⟨t, ht⟩

/-- Settles O4: every command stays, power-on reset keeps the queue by itself. -/
theorem commandsKeepQueue : Obligations.CommandsKeepQueue := by
  intro c s t hst
  by_cases hc : c = .powerOnReset
  · obtain ⟨u, hu, hpending, -⟩ := execPowerOnReset_answers s
    obtain rfl := Host.Outcome.next.inj (hst.symm.trans (by rw [hc]; exact hu))
    exact hpending
  · obtain ⟨u, hu, hstays⟩ := exec_answers c s hc
    obtain rfl := Host.Outcome.next.inj (hst.symm.trans hu)
    exact hstays.pending

/-- A step whose front is not power-on reset stays, but for the queue. -/
theorem step_keeps {s t : State} (hfront : s.pending.head? ≠ some .powerOnReset) (hst : step s = .next t) :
    (s.mem.wf = true → t.mem.wf = true) ∧ (s.sec.boardLock = true → t.sec.boardLock = true) ∧ (s.sec.keysLock = true → t.sec.keysLock = true) := by
  unfold step at hst
  split at hst
  · obtain rfl := Host.Outcome.next.inj hst
    exact ⟨(tickEdge_stays s).cells, (tickEdge_stays s).boardLock, (tickEdge_stays s).keysLock⟩
  · rename_i c rest hqueue
    have hc : c ≠ .powerOnReset := by simpa [hqueue] using hfront
    obtain ⟨u, hu, hstays⟩ := exec_answers c (s.withPending rest) hc
    obtain rfl := Host.Outcome.next.inj (hst.symm.trans hu)
    exact ⟨hstays.cells, hstays.boardLock, hstays.keysLock⟩

/-- Settles O5, by the step lemma. -/
theorem locksHold : Obligations.LocksHold := fun _ _ hfront hst => (step_keeps hfront hst).2

/-- Settles O3: power-on reset lists nothing, every other step keeps the form. -/
theorem memoryStaysCanonical : Obligations.MemoryStaysCanonical := by
  intro s t hwf hst
  by_cases hfront : s.pending.head? = some .powerOnReset
  · obtain ⟨rest, hqueue⟩ : ∃ rest, s.pending = .powerOnReset :: rest := ⟨_, List.eq_cons_of_mem_head? hfront⟩
    obtain ⟨u, hu, -, hcells⟩ := execPowerOnReset_answers (s.withPending rest)
    have hstep : step s = execPowerOnReset (s.withPending rest) := by simp [step, hqueue]
    obtain rfl := Host.Outcome.next.inj (hst.symm.trans (hstep.trans hu))
    exact hcells
  · exact (step_keeps hfront hst).1 hwf

end Sys2Proof.Machine
end

section
/-! What the shared operations of the rim change: status bits, conditions, Keystone and TAI states (01 R17, R22; 02 Table 2-3). -/

namespace Sys2Proof.Machine.State

/-! ### What an update changes, as the parts it gives the state anew -/

theorem setObj_changes (s : State) (k v : Nat) : ∃ d, s.setObj k v = s.withDict d := ⟨_, rfl⟩

theorem bump_changes (s : State) (k : Nat) : ∃ d, s.bump k = s.withDict d := ⟨_, rfl⟩

theorem raiseEvent_changes (s : State) (n : Nat) : ∃ p, s.raiseEvent n = s.withPev p := ⟨_, raiseEvent_eq s n⟩

theorem setOffset_changes (s : State) (off : Int) : ∃ d, s.setOffset off = s.withDict d := ⟨_, rfl⟩

/-! ### Status bits -/

/-- A write of the status bits changes the dictionary and the event registers. -/
theorem putPromise_changes (s : State) (v : Nat) : ∃ d p, s.putPromise v = (s.withDict d).withPev p := by
  unfold putPromise
  extract_lets v'
  split
  · exact ⟨s.dict, s.pev, rfl⟩
  · exact ⟨_, _, raiseEvent_eq _ 1⟩

theorem obj_putPromise_of_ne (s : State) (v : Nat) {k : Nat} (hk : k ≠ Key.statusPromise) : (s.putPromise v).obj k = s.obj k := by
  unfold putPromise
  extract_lets v'
  split
  · rfl
  · simp [hk]

theorem setPromise_changes (s : State) (b : Nat) (x : Bool) : ∃ d p, s.setPromise b x = (s.withDict d).withPev p := putPromise_changes s _

theorem obj_setPromise_of_ne (s : State) (b : Nat) (x : Bool) {k : Nat} (hk : k ≠ Key.statusPromise) : (s.setPromise b x).obj k = s.obj k :=
  obj_putPromise_of_ne s _ hk

theorem noteCauses_changes (s : State) : ∃ c, s.noteCauses = s.withCond c := by
  unfold noteCauses
  extract_lets c o
  split
  · exact ⟨s.cond, rfl⟩
  · exact ⟨_, rfl⟩

@[simp] theorem obj_noteCauses (s : State) (k : Nat) : s.noteCauses.obj k = s.obj k := by
  obtain ⟨c, h⟩ := noteCauses_changes s
  rw [h, withCond_obj]

theorem refreshConditions_changes (s : State) : ∃ d p c, s.refreshConditions = ((s.withDict d).withPev p).withCond c := by
  obtain ⟨d, p, hp⟩ := setPromise_changes s 2 (s.cond.supplies && s.cond.temperature && s.cond.timebase && s.cond.excursionUntil.isNone)
  obtain ⟨c, hc⟩ := noteCauses_changes ((s.withDict d).withPev p)
  exact ⟨d, p, c, by rw [refreshConditions, hp, hc]⟩

theorem obj_refreshConditions_of_ne (s : State) {k : Nat} (hk : k ≠ Key.statusPromise) : s.refreshConditions.obj k = s.obj k := by
  rw [refreshConditions, obj_noteCauses, obj_setPromise_of_ne _ _ _ hk]

/-! ### Keystone states -/

theorem enterKs_changes (s : State) (st : Nat) : ∃ d p c, s.enterKs st = ((s.withDict d).withPev p).withCond c := by
  unfold enterKs
  extract_lets s1
  split
  · exact ⟨s.dict, s.pev, s.cond, rfl⟩
  · obtain ⟨d, p, c, h⟩ := refreshConditions_changes (s1.withCond { s1.cond with timebase := st == ksLocked || st == ksSlewing })
    exact ⟨d, p, c, by rw [h]; simp only [s1]; rw [raiseEvent_eq]; rfl⟩

theorem obj_enterKs_ksState (s : State) {st : Nat} (hst : st < 256) : (s.enterKs st).obj Key.ksState = st := by
  unfold enterKs
  extract_lets s1
  split
  · assumption
  · rw [obj_refreshConditions_of_ne _ (by decide)]
    simpa [s1] using hst

theorem obj_enterKs_of_ne (s : State) (st : Nat) {k : Nat} (hs : k ≠ Key.ksState) (hp : k ≠ Key.statusPromise) : (s.enterKs st).obj k = s.obj k := by
  unfold enterKs
  extract_lets s1
  split
  · rfl
  · rw [obj_refreshConditions_of_ne _ hp]
    simp [s1, hs]

theorem slewFrom_changes (s : State) (off : Int) : ∃ d p c, s.slewFrom off = ((s.withDict d).withPev p).withCond c := by
  have changes (st : Nat) : ∃ d p c, (s.setOffset off).enterKs st = ((s.withDict d).withPev p).withCond c := by
    obtain ⟨d, p, c, h⟩ := enterKs_changes (s.setOffset off) st
    exact ⟨d, p, c, by rw [h]; rfl⟩
  unfold slewFrom
  split
  · exact changes _
  · exact changes _

theorem enterTai_changes (s : State) (st : Nat) : ∃ d p, s.enterTai st = (s.withDict d).withPev p := by
  unfold enterTai
  split
  · exact ⟨s.dict, s.pev, rfl⟩
  · exact ⟨_, _, raiseEvent_eq _ 8⟩

theorem obj_enterTai (s : State) {st : Nat} (hst : st < 256) (k : Nat) : (s.enterTai st).obj k = if k = Key.taiState then st else s.obj k := by
  unfold enterTai
  split
  · split <;> simp_all
  · simp [Nat.mod_eq_of_lt hst]

theorem objI_of_obj_eq {s t : State} {k : Nat} (h : t.obj k = s.obj k) : t.objI k = s.objI k := by simp [objI, h]

end Sys2Proof.Machine.State
end

section
/-! The transitions of Keystone and of TAI holdover (02 Table 2-3). -/

namespace Sys2Proof.Machine

/-- A signed value in range reads back from the bits it is stored in. -/
theorem toSigned_ofSigned {w : Nat} (hw : 0 < w) {x : Int} (hlo : -2 ^ (w - 1) ≤ x) (hhi : x < 2 ^ (w - 1)) : toSigned w (ofSigned w x) = x := by
  obtain ⟨n, rfl⟩ : ∃ n, w = n + 1 := ⟨w - 1, by omega⟩
  have hpow : (2 : Int) ^ (n + 1) = 2 * 2 ^ n := by ring
  simp only [Nat.add_sub_cancel] at hlo hhi
  unfold toSigned ofSigned
  simp only [Nat.add_sub_cancel, hpow]
  have hpos : (0 : Int) < 2 ^ n := by positivity
  have hmod : 0 ≤ x % (2 * 2 ^ n) := Int.emod_nonneg _ (by omega)
  have hcast : ((2 ^ n : Nat) : Int) = 2 ^ n := by push_cast; rfl
  rcases lt_or_ge x 0 with hx | hx
  · have : x % (2 * 2 ^ n) = x + 2 * 2 ^ n := by
      rw [← Int.add_emod_right, Int.emod_eq_of_lt (by omega) (by omega)]
    split <;> omega
  · have : x % (2 * 2 ^ n) = x := Int.emod_eq_of_lt hx (by omega)
    split <;> omega

namespace State

theorem objI_setOffset (s : State) {off : Int} (hlo : -2 ^ 63 ≤ off) (hhi : off < 2 ^ 63) : (s.setOffset off).objI Key.ksOffset = off := by
  have hobj : (s.setOffset off).obj Key.ksOffset = ofSigned 64 off := by
    have : ofSigned 64 off < 2 ^ 64 := by unfold ofSigned; omega
    simp +decide [setOffset]
    omega
  rw [objI, hobj]
  exact toSigned_ofSigned (by decide) hlo hhi

end State

open State in
/-- Settles O8, transition by transition. -/
theorem keystoneTransitions : Obligations.KeystoneTransitions := by
  refine ⟨?_, ?_, ?_, ?_, ?_⟩
  · intro s hs
    refine ⟨((s.setOffset 0).bump Key.ksHoldoverCount).enterKs ksHoldover, by simp [execRefclkLoss, hs], ?_, ?_, ?_, ?_⟩
    · exact obj_enterKs_ksState _ (by decide)
    · rw [objI_of_obj_eq ((obj_enterKs_of_ne _ _ (by decide) (by decide)).trans (by simp [Key.ksOffset, Key.ksHoldoverCount] : _ = (s.setOffset 0).obj Key.ksOffset))]
      exact objI_setOffset s (by decide) (by decide)
    · rw [obj_enterKs_of_ne _ _ (by decide) (by decide)]
      simp +decide [setOffset]
    · obtain ⟨d, p, c, h⟩ := enterKs_changes ((s.setOffset 0).bump Key.ksHoldoverCount) ksHoldover
      obtain ⟨d1, h1⟩ := bump_changes (s.setOffset 0) Key.ksHoldoverCount
      obtain ⟨d0, h0⟩ := setOffset_changes s 0
      rw [h, h1, h0]
      rfl
  · intro s off hs hoff
    refine ⟨(s.withTime 0).enterKs ksLocked, by simp [execRefclkValid, hs, hoff], obj_enterKs_ksState _ (by decide), ?_⟩
    obtain ⟨d, p, c, h⟩ := enterKs_changes (s.withTime 0) ksLocked
    rw [h]
    exact ⟨rfl, rfl⟩
  · intro s off hs hlo hhi
    refine ⟨s.slewFrom (s.wrapOffset off), by simp [execRefclkValid, hs, ksHoldover, ksLocking], ?_, ?_, ?_⟩
    · unfold slewFrom
      split <;> exact obj_enterKs_ksState _ (by decide)
    · have hoffset (st : Nat) : ((s.setOffset (s.wrapOffset off)).enterKs st).objI Key.ksOffset = s.wrapOffset off := by
        rw [objI_of_obj_eq (obj_enterKs_of_ne _ _ (by decide) (by decide))]
        exact objI_setOffset s (by omega) (by omega)
      unfold slewFrom
      split <;> exact hoffset _
    · obtain ⟨d, p, c, h⟩ := slewFrom_changes s (s.wrapOffset off)
      rw [h]
      rfl
  · intro s hs hoff
    refine ⟨s.enterKs ksLocked, by simp [execSlewComplete, hs, hoff], obj_enterKs_ksState _ (by decide), ?_⟩
    obtain ⟨d, p, c, h⟩ := enterKs_changes s ksLocked
    rw [h]
    rfl
  · intro s hstate hlo hhi hwall
    refine ⟨s.enterTai 3, by simp [execTaiHoldover, hstate, hlo, hhi, hwall], ?_, ?_, ?_, ?_⟩
    · simp [obj_enterTai]
    · exact objI_of_obj_eq (by rw [obj_enterTai _ (by decide)]; simp [Key.taiRate, Key.taiState])
    · obtain ⟨d, p, h⟩ := enterTai_changes s 3
      rw [h]
      rfl
    · intro k hk
      rw [obj_enterTai _ (by decide)]
      simp_all

end Sys2Proof.Machine
end

section
/-! A step with no command waiting, and the edge test (00; 02 Table 2-2; 04 R98). -/

namespace Sys2Proof.Machine

namespace State

theorem rampTick_changes (s : State) : ∃ l, s.rampTick = s.withLo l := by
  unfold rampTick
  split
  · exact ⟨s.lo, rfl⟩
  · split
    · exact ⟨s.lo, rfl⟩
    · exact ⟨_, rfl⟩

theorem loTick_changes (s : State) : ∃ l, s.loTick = s.withLo l := by
  obtain ⟨l, h⟩ := rampTick_changes s
  unfold loTick
  rw [h]
  split
  · exact ⟨l, rfl⟩
  · exact ⟨_, rfl⟩

/-- One tick of Keystone time changes it, the offset objects and the slew's remainder. -/
theorem keystoneTick_changes (s : State) : ∃ d k t, s.keystoneTick = ((s.withDict d).withKs k).withTime t := by
  unfold keystoneTick
  extract_lets st p off u d ks s1
  split
  · exact ⟨s.dict, s.ks, s.time, rfl⟩
  · split
    · obtain ⟨e, h⟩ := setOffset_changes s1 (off - d)
      exact ⟨e, _, _, h⟩
    · exact ⟨s.dict, s.ks, _, rfl⟩

theorem obj_keystoneTick_of_ne (s : State) {k : Nat} (ho : k ≠ Key.ksOffset) (hr : k ≠ Key.ksSlewRemaining) : s.keystoneTick.obj k = s.obj k := by
  unfold keystoneTick
  extract_lets st p off u d ks s1
  split
  · rfl
  · split
    · simp [setOffset, ho, hr, s1]
    · simp

theorem time_keystoneTick_of_locking {s : State} (h : s.obj Key.ksState = ksLocking) : s.keystoneTick.time = s.time := by
  simp [keystoneTick, h]

theorem time_keystoneTick_of_ne_slewing {s : State} (hl : s.obj Key.ksState ≠ ksLocking) (hs : s.obj Key.ksState ≠ ksSlewing) :
    s.keystoneTick.time = (s.time + tick) % 2 ^ 80 := by
  simp [keystoneTick, hl, hs]

/-- The part of a tick before Keystone time: wall time, the LO modulator and the modulators of the lane PLLs. -/
theorem tickEdge_eq (s : State) : ∃ l k, tickEdge s = (((s.withWall (s.wall + 1)).withLo l).withKs k).keystoneTick := by
  obtain ⟨l, h⟩ := loTick_changes (s.withWall (s.wall + 1))
  exact ⟨l, _, by rw [tickEdge, h]; rfl⟩

end State

open State in
/-- Settles O11. -/
theorem idleStepIsOneTick : Obligations.IdleStepIsOneTick := by
  intro s hs
  obtain ⟨l, k, htick⟩ := tickEdge_eq s
  obtain ⟨d, k', t, hchange⟩ := keystoneTick_changes (((s.withWall (s.wall + 1)).withLo l).withKs k)
  refine ⟨tickEdge s, by simp [step, hs], ?_, ?_, ?_, ?_, ?_⟩
  · rw [htick, hchange]
    rfl
  · intro hstate
    rw [htick]
    exact time_keystoneTick_of_locking hstate
  · intro hstate
    rw [htick]
    refine time_keystoneTick_of_ne_slewing ?_ ?_ <;>
    · rcases hstate with hstate | hstate <;> simp [hstate, ksLocking, ksLocked, ksHoldover, ksSlewing]
  · rw [htick, hchange]
    rfl
  · intro j hj
    simp only [List.mem_cons, List.not_mem_nil, or_false, not_or] at hj
    rw [htick, obj_keystoneTick_of_ne _ hj.1 hj.2]
    rfl

/-! ### The edge test -/

theorem riseStep_fires {c : EdgeCfg} {v : Int} {d : Detector} (h : (riseStep c v d).1 = true) :
    d.armed = true ∧ (if c.quantity = 0 then c.level else c.level * c.level) ≤ v ∧ (riseStep c v d).2 = { armed := false, since := 0 } := by
  by_cases hfire : d.armed = true ∧ (if c.quantity = 0 then c.level else c.level * c.level) ≤ v
  · exact ⟨hfire.1, hfire.2, by simp only [riseStep, Bool.and_eq_true, decide_eq_true_eq, if_pos hfire]⟩
  · simp only [riseStep, Bool.and_eq_true, decide_eq_true_eq, if_neg hfire, Bool.false_eq_true] at h

theorem riseStep_arms {c : EdgeCfg} {v : Int} {d : Detector} (hd : d.armed = false) (h : (riseStep c v d).2.armed = true) :
    c.dead ≤ d.since + 1 ∧ v < (if c.quantity = 0 then c.level - c.hyst else (c.level - c.hyst) * (c.level - c.hyst)) := by
  simpa [riseStep, hd, and_comm] using h

theorem fallStep_fires {c : EdgeCfg} {v : Int} {d : Detector} (h : (fallStep c v d).1 = true) :
    d.armed = true ∧ v ≤ (if c.quantity = 0 then c.level else c.level * c.level) ∧ (fallStep c v d).2 = { armed := false, since := 0 } := by
  by_cases hfire : d.armed = true ∧ v ≤ (if c.quantity = 0 then c.level else c.level * c.level)
  · exact ⟨hfire.1, hfire.2, by simp only [fallStep, Bool.and_eq_true, decide_eq_true_eq, if_pos hfire]⟩
  · simp only [fallStep, Bool.and_eq_true, decide_eq_true_eq, if_neg hfire, Bool.false_eq_true] at h

theorem fallStep_arms {c : EdgeCfg} {v : Int} {d : Detector} (hd : d.armed = false) (h : (fallStep c v d).2.armed = true) :
    c.dead ≤ d.since + 1 ∧ (if c.quantity = 0 then c.level + c.hyst else (c.level + c.hyst) * (c.level + c.hyst)) < v := by
  simpa [fallStep, hd, and_comm] using h

/-- Settles O15, from what firing and arming need. -/
theorem edgeDetector : Obligations.EdgeDetector := by
  refine ⟨?_, ?_, ?_, ?_⟩
  · intro c v d h
    obtain ⟨harmed, hlevel, hnext⟩ := riseStep_fires h
    exact ⟨harmed, hnext, fun hq => by simpa [hq] using hlevel, fun hq => by simpa [hq] using hlevel⟩
  · intro c v d hd h
    obtain ⟨hdead, hlevel⟩ := riseStep_arms hd h
    exact ⟨hdead, fun hq => by simpa [hq] using hlevel, fun hq => by simpa [hq] using hlevel⟩
  · intro c v d h
    obtain ⟨harmed, hlevel, hnext⟩ := fallStep_fires h
    exact ⟨harmed, hnext, fun hq => by simpa [hq] using hlevel, fun hq => by simpa [hq] using hlevel⟩
  · intro c v d hd h
    obtain ⟨hdead, hlevel⟩ := fallStep_arms hd h
    exact ⟨hdead, fun hq => by simpa [hq] using hlevel, fun hq => by simpa [hq] using hlevel⟩

end Sys2Proof.Machine
end

section
/-! Commits taking effect, LINKS_CLEAN and abutment.clear (01 R17, R22, R33, R35, R87). -/

namespace Sys2Proof.Machine

/-! ### Bits of the status word -/

theorem bit_succ (v b : Nat) : bit v (b + 1) = bit (v / 2) b := Nat.testBit_succ v b

/-- Setting a bit works on the half of the number, below its lowest bit. -/
theorem setBit_succ (v b : Nat) (x : Bool) : setBit v (b + 1) x = 2 * setBit (v / 2) b x + v % 2 := by
  have hpow : 2 ^ (b + 1) = 2 * 2 ^ b := Nat.pow_succ'
  by_cases hbit : bit (v / 2) b = true
  · have hle : 2 ^ b ≤ v / 2 := Nat.ge_two_pow_of_testBit hbit
    cases x <;> simp only [setBit, bit_succ, hbit, if_true, Bool.false_eq_true, if_false] <;> omega
  · cases x <;> simp only [setBit, bit_succ, hbit, if_true, Bool.false_eq_true, if_false] <;> omega

/-- A bit reads back what was set, every other bit keeps its value. -/
theorem bit_setBit (v b j : Nat) (x : Bool) : bit (setBit v b x) j = if j = b then x else bit v j := by
  induction b generalizing v j with
  | zero =>
    have hv : bit v 0 = decide (v % 2 = 1) := Nat.testBit_zero v
    cases j with
    | zero => cases x <;> simp only [setBit, hv, bit, Nat.testBit_zero] <;> split <;> simp_all <;> omega
    | succ j =>
      have hhalf : setBit v 0 x / 2 = v / 2 := by
        cases x <;> simp only [setBit, hv] <;> split <;> simp_all <;> omega
      simp [bit_succ, hhalf]
  | succ b ih =>
    rw [setBit_succ]
    cases j with
    | zero =>
      have hmod : (2 * setBit (v / 2) b x + v % 2) % 2 = v % 2 := by omega
      simp [bit, Nat.testBit_zero]
    | succ j =>
      have hhalf : (2 * setBit (v / 2) b x + v % 2) / 2 = setBit (v / 2) b x := by omega
      rw [bit_succ, hhalf, ih, bit_succ]
      simp

theorem bit_mod_two_pow (v n j : Nat) : bit (v % 2 ^ n) j = (decide (j < n) && bit v j) := Nat.testBit_mod_two_pow v n j

namespace State

/-- The four status bits read back as they were put. -/
theorem bit_obj_putPromise (s : State) (v : Nat) {b : Nat} (hb : b < 4) : bit ((s.putPromise v).obj Key.statusPromise) b = bit v b := by
  have hput : bit (setBit v 4 (bit v 0 && bit v 1 && bit v 2 && bit v 3)) b = bit v b := by rw [bit_setBit, if_neg (by omega)]
  unfold putPromise
  extract_lets v'
  split
  · rename_i heq
    rw [← heq, hput]
  · have hlen : lenOf Key.statusPromise = 4 := by decide
    rw [obj_raiseEvent, obj_setObj, if_pos rfl, hlen, show 256 ^ 4 = 2 ^ 32 from rfl, bit_mod_two_pow, hput]
    simp [show b < 32 by omega]

theorem bit_obj_setPromise (s : State) {b j : Nat} (hj : j < 4) (x : Bool) :
    bit ((s.setPromise b x).obj Key.statusPromise) j = if j = b then x else bit (s.obj Key.statusPromise) j := by
  rw [setPromise, bit_obj_putPromise _ _ hj, bit_setBit]

/-! ### Commits -/

theorem groups_of_kept {s t : State} (h : t.kept = s.kept) : t.groups = s.groups := by
  simp only [kept, Prod.mk.injEq] at h
  exact h.2.2.2.2

theorem cells_of_kept {s t : State} (h : t.kept = s.kept) : t.mem.cells = s.mem.cells := by
  simp only [kept, Prod.mk.injEq] at h
  exact h.2.1

theorem groups_remapLane (s : State) (lane : Nat) : (s.remapLane lane).groups = s.groups := by
  unfold remapLane
  split <;> rfl

theorem groups_remapAll (s : State) : s.remapAll.groups = s.groups := by
  have hfold (l : List Nat) (x : State) : (l.foldl remapLane x).groups = x.groups := by
    induction l generalizing x with
    | nil => rfl
    | cons lane l ih => rw [List.foldl_cons, ih, groups_remapLane]
  rw [remapAll, groups_of_kept (kept_refreshRingAvail _), hfold]

theorem groups_commitMemory (s : State) (g : Group) (old : Nat → Nat) : (commitMemory s g old).groups = s.groups := by
  unfold commitMemory
  split
  · rfl
  · split
    · rw [groups_remapAll]
      exact groups_of_kept (by simp)
    · rw [groups_remapAll]
      rfl

/-- A group that leaves the lanes where they are leaves the DRAM contents. -/
theorem kept_commitMemory (s : State) {g : Group} (old : Nat → Nat) (hsize : g.has Key.memFixedSize = false) (hgrain : g.has Key.memGrain = false) :
    (commitMemory s g old).kept = s.kept := by
  simp [commitMemory, hsize, hgrain]

theorem groups_commitChapters (s : State) (g : Group) (old : Nat → Nat) : (s.commitChapters g old).groups = s.groups := by
  unfold commitChapters
  extract_lets s1 s2 s3 s4 s5 s6
  have h4 : s4.groups = s.groups := groups_of_kept (by simp [s4, s3, s2, s1])
  have h5 : s5.groups = (commitMemory s4 g old).groups := groups_of_kept (by simp [s5])
  have h6 := groups_of_kept (s := s5) (t := commitPower (commitDisplay (commitTruss s6 g old) g old) g old) (by simp [s6])
  rw [h6, h5, groups_commitMemory, h4]

theorem kept_commitChapters (s : State) {g : Group} (old : Nat → Nat) (hsize : g.has Key.memFixedSize = false) (hgrain : g.has Key.memGrain = false) :
    (s.commitChapters g old).kept = s.kept := by
  simp [commitChapters, kept_commitMemory _ old hsize hgrain]

/-- The groups with one T, as one group. -/
def groupAt (s : State) (t : KTime) : Group := { t := t, writes := (s.groups.filter fun g => g.t == t).flatMap (·.writes) }

theorem groupAt_has_eq_false {s : State} {t : KTime} {k : Nat} (h : ∀ x ∈ s.groups, x.t = t → x.has k = false) : (s.groupAt t).has k = false := by
  simp only [groupAt, Group.has, List.any_eq_false, List.mem_flatMap, List.mem_filter, beq_iff_eq] at h ⊢
  rintro w ⟨x, ⟨hx, ht⟩, hw⟩
  exact h x hx ht w hw

theorem groups_takeGroup (s : State) (t : KTime) : (s.takeGroup t).2.groups = s.groups.filter fun x => x.t != t := by
  unfold takeGroup
  extract_lets g s1 s2
  have hwrites : (g.writes.foldl (applyWrite t) s1).groups = s1.groups := groups_of_kept (by simp)
  have h2 : s2.groups = s1.groups := by
    have hchapters := groups_commitChapters (g.writes.foldl (applyWrite t) s1) g s.obj
    rw [← hwrites, ← hchapters]
    exact groups_of_kept (by simp [s2])
  split
  · exact h2
  · exact (groups_of_kept (by simp)).trans h2

theorem takeGroup_of_no_step {s : State} {t : KTime} (h : ∀ x ∈ s.groups, x.t = t → x.has Key.ksStep = false) : (s.takeGroup t).1 = false := by
  have hnone : (s.groupAt t).write? Key.ksStep = none := by
    have hhas := groupAt_has_eq_false h
    simp only [Group.has, List.any_eq_false, beq_iff_eq] at hhas
    simpa [Group.write?] using hhas
  unfold takeGroup
  extract_lets g s1 s2
  rw [show g = s.groupAt t from rfl, hnone]

theorem cells_takeGroup {s : State} {t : KTime} (h : ∀ x ∈ s.groups, x.t = t → x.has Key.memFixedSize = false ∧ x.has Key.memGrain = false) :
    (s.takeGroup t).2.mem.cells = s.mem.cells := by
  have hsize := groupAt_has_eq_false fun x hx ht => (h x hx ht).1
  have hgrain := groupAt_has_eq_false fun x hx ht => (h x hx ht).2
  unfold takeGroup
  extract_lets g s1 s2
  have h2 : s2.mem.cells = s.mem.cells := by
    have : s2.kept = s1.kept := by simp [s2, kept_commitChapters _ s.obj hsize hgrain, show g = s.groupAt t from rfl]
    exact (cells_of_kept this).trans rfl
  split
  · exact h2
  · exact (cells_of_kept (by simp)).trans h2

theorem groups_takeJumped_subset (s : State) (fuel : Nat) : (s.takeJumped fuel).groups ⊆ s.groups := by
  induction fuel generalizing s with
  | zero => exact fun _ => id
  | succ fuel ih =>
    unfold takeJumped
    split
    · exact fun _ => id
    · rename_i t _
      have htake : ((s.stepControls t).takeGroup t).2.groups = s.groups.filter fun x => x.t != t := by
        rw [groups_takeGroup, groups_of_kept (s := s) (by simp)]
      have hsub : ((s.stepControls t).takeGroup t).2.groups ⊆ s.groups := fun x hx => List.mem_of_mem_filter (htake ▸ hx)
      exact fun x hx => hsub (ih _ hx)

theorem groups_finishStep_subset (s : State) : s.finishStep.groups ⊆ s.groups := by
  unfold finishStep
  extract_lets s1 s2
  have h1 : s1.groups ⊆ s.groups := groups_takeJumped_subset s _
  have h : ((s2.stepControls s2.time).skipEdges).groups = s1.groups := groups_of_kept (by simp [s2])
  rw [h]
  exact h1

theorem foldl_min_eq (l : List Group) (a : Option Nat) (m : Nat) (hle : ∀ x ∈ l, m ≤ x.t) (ha : ∀ b ∈ a, m ≤ b) (hm : a = some m ∨ ∃ x ∈ l, x.t = m) :
    l.foldl (fun a g => match a with | none => some g.t | some b => some (min b g.t)) a = some m := by
  induction l generalizing a with
  | nil => simpa using hm
  | cons x l ih =>
    have hx : m ≤ x.t := hle x (by simp)
    rw [List.foldl_cons]
    apply ih
    · exact fun y hy => hle y (by simp [hy])
    · cases a with
      | none => simpa using hx
      | some b => simpa using ⟨ha b rfl, hx⟩
    · rcases hm with rfl | ⟨y, hy, hyt⟩
      · exact .inl (by simp [hx])
      · rcases List.mem_cons.mp hy with rfl | hy
        · cases a with
          | none => exact .inl (by simp [hyt])
          | some b => exact .inl (by simp [hyt, ha b rfl])
        · exact .inr ⟨y, hy, hyt⟩

/-- The earliest T of the groups is due once it has come. -/
theorem dueTime_of_earliest {s : State} {g : Group} (hg : g ∈ s.groups) (hdue : g.t ≤ s.time) (hmin : ∀ g' ∈ s.groups, g.t ≤ g'.t) : s.dueTime = some g.t := by
  refine foldl_min_eq _ none g.t (fun x hx => hmin x (List.mem_of_mem_filter hx)) (by simp) (.inr ⟨g, ?_, rfl⟩)
  simp [hg, hdue]

end State

open State

theorem execCommitTakesEffect_of_due {s : State} {t : KTime} (h : s.dueTime = some t) :
    execCommitTakesEffect s = .next (if (s.takeGroup t).1 then (s.takeGroup t).2.finishStep else (s.takeGroup t).2) := by
  simp [execCommitTakesEffect, h]

theorem completes_commitTakesEffect {s : State} {g : Group} (hg : g ∈ s.groups) (hdue : g.t ≤ s.time) (hmin : ∀ g' ∈ s.groups, g.t ≤ g'.t) :
    Completes .commitTakesEffect s fun t => t.pending = s.pending ∧ (∀ x ∈ t.groups, x ∈ s.groups ∧ x.t ≠ g.t) ∧
      ((∀ x ∈ s.groups, x.t = g.t → x.has Key.ksStep = false) → t.groups = s.groups.filter (fun x => x.t != g.t) ∧
        ((∀ x ∈ s.groups, x.t = g.t → x.has Key.memFixedSize = false ∧ x.has Key.memGrain = false) → t.mem.cells = s.mem.cells)) := by
  have hexec : exec .commitTakesEffect s = _ := execCommitTakesEffect_of_due (dueTime_of_earliest hg hdue hmin)
  refine ⟨_, hexec, commandsKeepQueue _ _ _ hexec, fun x hx => ?_, fun hstep => ?_⟩
  · have hsub : x ∈ (s.takeGroup g.t).2.groups := by
      split at hx
      · exact groups_finishStep_subset _ hx
      · exact hx
    simpa [groups_takeGroup] using hsub
  · rw [takeGroup_of_no_step hstep]
    exact ⟨groups_takeGroup s g.t, cells_takeGroup⟩

theorem completes_linksCleanRestore {s : State} (hwall : s.cond.linkErrorAt + 400000 ≤ s.wall)
    (hlanes : ∀ k ∈ s.linksOn, ∀ n ∈ (s.link k).lanes, s.obj (Key.pierState (n / 8)) ≠ 3 ∧ s.obj (Key.pierState (n / 8)) ≠ 4) :
    Completes .linksCleanRestore s fun t => bit (t.obj Key.statusPromise) 1 = true ∧ t = { s with dict := t.dict, pev := t.pev } ∧
      KeepsObjects [Key.statusPromise] s t := by
  have hrecovering : (s.linksOn.any fun k => (s.link k).lanes.any fun n => s.obj (Key.pierState (n / 8)) == 3 || s.obj (Key.pierState (n / 8)) == 4) = false := by
    simpa using hlanes
  refine ⟨s.setPromise 1 true, by simp [execLinksCleanRestore, hwall, hrecovering], ?_, ?_, fun k hk => ?_⟩
  · rw [bit_obj_setPromise s (by decide), if_pos rfl]
  · obtain ⟨d, p, h⟩ := setPromise_changes s 1 true
    rw [h]
    rfl
  · exact obj_setPromise_of_ne s 1 true (by simpa using hk)

/-- The peaks of the piers so far are set, the others stand. -/
theorem obj_abutmentClear (s : State) (n : Nat) (hn : n ≤ 16) (k : Nat) :
    ((List.range n).foldl (fun x p => x.setObj (Key.abutmentPeak p) (x.obj (Key.abutmentLag p))) s).obj k =
      if Key.abutmentPeak 0 ≤ k ∧ k < Key.abutmentPeak n then s.obj (Key.abutmentLag (k - Key.abutmentPeak 0)) % 2 ^ 32 else s.obj k := by
  induction n generalizing k with
  | zero => rw [if_neg (by omega)]; rfl
  | succ n ih =>
    have hlen : lenOf (Key.abutmentPeak n) = 4 := lenOf_abutmentPeak n (by omega)
    rw [List.range_succ, List.foldl_append, List.foldl_cons, List.foldl_nil, obj_setObj, ih (by omega), ih (by omega), hlen]
    by_cases hk : k = Key.abutmentPeak n
    · have hlag : ¬(Key.abutmentPeak 0 ≤ Key.abutmentLag n ∧ Key.abutmentLag n < Key.abutmentPeak n) := by
        simp only [Key.abutmentPeak, Key.abutmentLag]
        omega
      have hin : Key.abutmentPeak 0 ≤ k ∧ k < Key.abutmentPeak (n + 1) := by
        simp only [Key.abutmentPeak] at hk ⊢
        omega
      have hsub : k - Key.abutmentPeak 0 = n := by
        simp only [Key.abutmentPeak] at hk ⊢
        omega
      rw [if_pos hk, if_neg hlag, if_pos hin, hsub]
      rfl
    · have hiff : (Key.abutmentPeak 0 ≤ k ∧ k < Key.abutmentPeak n) ↔ Key.abutmentPeak 0 ≤ k ∧ k < Key.abutmentPeak (n + 1) := by
        simp only [Key.abutmentPeak] at hk ⊢
        omega
      rw [if_neg hk]
      simp only [hiff]

/-- Setting the peaks changes the dictionary alone. -/
theorem abutmentClear_changes (s : State) (l : List Nat) :
    ∃ d, l.foldl (fun x p => x.setObj (Key.abutmentPeak p) (x.obj (Key.abutmentLag p))) s = s.withDict d := by
  induction l generalizing s with
  | nil => exact ⟨s.dict, rfl⟩
  | cons p l ih =>
    obtain ⟨d, h⟩ := ih (s.setObj (Key.abutmentPeak p) (s.obj (Key.abutmentLag p)))
    exact ⟨d, by rw [List.foldl_cons, h]; rfl⟩

theorem completes_abutmentClear {s : State} (hready : s.ready = true) :
    Completes .abutmentClear s fun t => (∀ p < 16, t.obj (Key.abutmentPeak p) = s.obj (Key.abutmentLag p) % 2 ^ 32) ∧ t.result = Res.done ∧
      t = { s with dict := t.dict, result := t.result } ∧ KeepsObjects ((List.range 16).map Key.abutmentPeak) s t := by
  have hclear := obj_abutmentClear s 16 (by decide)
  obtain ⟨d, hd⟩ := abutmentClear_changes s (List.range 16)
  rw [hd] at hclear
  refine ⟨(s.withDict d).withResult Res.done, by simp [execAbutmentClear, act, onReceipt, hready, immAbutmentClear, hd], fun p hp => ?_, rfl, rfl, fun k hk => ?_⟩
  · rw [withResult_obj, hclear, if_pos (by simp only [Key.abutmentPeak]; omega)]
    simp [Key.abutmentPeak]
  · rw [withResult_obj, hclear, if_neg]
    intro hin
    refine hk (List.mem_map.mpr ⟨k - Key.abutmentPeak 0, ?_, ?_⟩)
    · simp only [Key.abutmentPeak, List.mem_range] at hin ⊢
      omega
    · simp only [Key.abutmentPeak] at hin ⊢
      omega

/-- Settles O7, command by command. -/
theorem rimCommands : Obligations.RimCommands :=
  ⟨fun _ _ hg hdue hmin => completes_commitTakesEffect hg hdue hmin,
    fun _ hwall hlanes => completes_linksCleanRestore hwall hlanes, fun _ hready => completes_abutmentClear hready⟩

end Sys2Proof.Machine
end

section
/-! Instructions of the trestle cores (09 R251 to R253): how a core runs one, and what it leaves alone. -/

namespace Sys2Proof.Machine

theorem lenOf_trCoreInstr (n : Nat) (h : n < 32) : lenOf (Key.trCoreInstr n) = 8 := by revert n; decide

namespace Core

/-- Pending results that take their places change data registers, flags and sticky flags. -/
theorem foldl_land_changes (l : List LateWrite) (c : Core) : ∃ d flags sticky, l.foldl land c = { c with d := d, flags := flags, sticky := sticky } := by
  induction l generalizing c with
  | nil => exact ⟨c.d, c.flags, c.sticky, rfl⟩
  | cons w l ih =>
    have hland : ∃ d flags sticky, land c w = { c with d := d, flags := flags, sticky := sticky } := by
      unfold land
      split <;> exact ⟨_, _, _, rfl⟩
    obtain ⟨d, flags, sticky, hland⟩ := hland
    obtain ⟨d', flags', sticky', h⟩ := ih (land c w)
    exact ⟨d', flags', sticky', by rw [List.foldl_cons, h, hland]⟩

theorem settle_changes (c : Core) : ∃ d flags sticky late, c.settle = { c with d := d, flags := flags, sticky := sticky, late := late } := by
  obtain ⟨d, flags, sticky, h⟩ := foldl_land_changes (c.late.filter fun w => w.at' ≤ c.pos) { c with late := c.late.filter fun w => c.pos < w.at' }
  exact ⟨d, flags, sticky, _, h⟩

theorem flush_changes (c : Core) : ∃ d flags sticky, c.flush = { c with d := d, flags := flags, sticky := sticky, late := [] } := by
  obtain ⟨d, flags, sticky, h⟩ := foldl_land_changes c.late { c with late := [] }
  exact ⟨d, flags, sticky, h⟩

@[simp] theorem settle_prog (c : Core) : c.settle.prog = c.prog := by
  obtain ⟨d, flags, sticky, late, h⟩ := settle_changes c
  rw [h]

@[simp] theorem settle_transfer (c : Core) : c.settle.transfer = c.transfer := by
  obtain ⟨d, flags, sticky, late, h⟩ := settle_changes c
  rw [h]

@[simp] theorem settle_loop (c : Core) : c.settle.loop = c.loop := by
  obtain ⟨d, flags, sticky, late, h⟩ := settle_changes c
  rw [h]

end Core

/-- A core steps on where its instruction left the place alone. -/
theorem stepsTo_advance {c c' : Core} (hpos : c'.pos = c.pos) (hpc : c'.pc = c.pc) (htransfer : c'.transfer = c.transfer) (hloop : c'.loop = c.loop) :
    StepsTo c c' c'.advance := by
  unfold Core.advance
  refine ⟨?_, fun ht hl => ?_⟩
  · rw [hpos]
    split
    · split <;> rfl
    · split
      · split
        · split <;> rfl
        · rfl
      · rfl
  · simp [htransfer, hloop, ht, hl, hpc]

theorem transfer_advance_pc {c : Core} {n t : Nat} (h : c.transfer = some (n, t)) (hn : n ≤ 1) : c.advance.pc = t := by
  simp [Core.advance, h, hn]

namespace State

theorem core_putCore (s : State) (k j : Nat) (c : Core) : (s.putCore k c).core j = if j = k then c else s.core j := by
  simp [putCore, core]

@[simp] theorem core_putCore_self (s : State) (k : Nat) (c : Core) : (s.putCore k c).core k = c := by simp [core_putCore]

@[simp] theorem obj_putCore (s : State) (k : Nat) (c : Core) (j : Nat) : (s.putCore k c).obj j = s.obj j := rfl

/-- Counting the instruction and putting the core is all that an instruction does. -/
theorem ranOn_putCore (s : State) (k : Fin 32) (c : Core) : RanOn s ((s.bump (Key.trCoreInstr k.val)).putCore k.val c) k.val := by
  refine ⟨?_, fun j hj => ?_, fun j hj => ?_, rfl⟩
  · simp [lenOf_trCoreInstr k.val k.isLt]
  · simp only [List.mem_singleton] at hj
    simp [hj]
  · rw [core_putCore, if_neg hj]
    rfl

end State

/-- A core whose transfer does not come to the library ROM is put as it is. -/
theorem afterInstr_of_ne {s : State} {k : Nat} {r : Record} {img : Bytes} {c : Core} {landed : Bool} (h : landed = true → c.pc ≠ 0x4000) :
    afterInstr s k r img c landed = s.putCore k c := by
  unfold afterInstr
  split
  · rename_i hl
    cases s.budgetOf r with
    | zero => rfl
    | succ n => simp [runRom, h hl]
  · rfl

/-- What becomes of the state with an instruction's own work. -/
def Work.outcome (s : State) (k : Nat) (r : Record) : Work → State
  | .trap cause => s.trapCore k r (s.core k) cause
  | .halt c => (s.bump (Key.trCoreInstr k)).endProgram k r 0 (State.resultBytes c)
  | .jump c =>
    if c.waiting then ((s.bump (Key.trCoreInstr k)).putCore k { c with pos := c.pos + 1 }).setCoreState k 2
    else (s.bump (Key.trCoreInstr k)).putCore k { c with pos := c.pos + 1 }
  | .next c => (s.bump (Key.trCoreInstr k)).putCore k c.advance

/-- The word at the PC of a core that runs it is executed. -/
theorem runInstr_of_runsWord {s : State} {k w : Nat} {r : Record} {control : Bool} {f : State → Record → Bytes → Core → Work} {x : Work} (hr : RunsWord s k r w)
    (hfree : control = true → (s.core k).transfer = none ∧ (s.core k).loop = none) (hx : f s r (s.imageOf (s.core k).prog r) (s.core k).settle = x)
    (hrom : ∀ c, x = .next c → ∀ n t, c.transfer = some (n, t) → n ≤ 1 → t ≠ 0x4000) :
    runInstr k w control f s = .next (x.outcome s k r) := by
  obtain ⟨hdeck, hrec, hwait, hlo, hhi, hbudget, hpc, hword⟩ := hr
  have hslots : ¬(control = true ∧ (s.core k).transfer.isSome = true) := fun h => by simp [hfree h.1] at h
  have hbody : ¬(control = true ∧ (s.core k).loop.isSome = true) := fun h => by simp [hfree h.1] at h
  unfold runInstr
  rw [if_neg (by simp [hdeck])]
  simp only [hrec]
  rw [if_neg (by simp [hwait]; omega), if_neg (by omega), if_neg (by simp [hword]), if_neg hslots, if_neg hbody, hx]
  cases x with
  | trap cause => rfl
  | halt c => rfl
  | jump c => rfl
  | next c =>
    refine congrArg Host.Outcome.next (afterInstr_of_ne fun hl => ?_)
    cases htransfer : c.transfer with
    | none => simp [htransfer] at hl
    | some nt =>
      obtain ⟨n, t⟩ := nt
      have hn : n ≤ 1 := by simpa [htransfer] using hl
      rw [transfer_advance_pc htransfer hn]
      exact hrom c rfl n t htransfer hn

/-- An instruction that leaves the place alone completes: the core steps on from what the instruction made of it. -/
theorem completes_of_next {s : State} {k : Fin 32} {r : Record} {i : Instr} {w : Nat} {control : Bool} {f : State → Record → Bytes → Core → Work} {c' : Core}
    {P : Core → Core → Prop} (hr : Runs s k r i) (hw : trestleWord i = some (k, w)) (hexec : exec i s = runInstr k.val w control f s)
    (hfree : control = true → (s.core k.val).transfer = none ∧ (s.core k.val).loop = none)
    (hf : f s r (s.imageOf (s.core k.val).prog r) (s.core k.val).settle = .next c') (htransfer : c'.transfer = (s.core k.val).transfer)
    (hP : P (s.core k.val).settle c'.advance) :
    Completes i s fun t => RanOn s t k.val ∧ P (s.core k.val).settle (t.core k.val) := by
  obtain ⟨⟨w', hw', hword⟩, hrom⟩ := hr
  obtain rfl : w' = w := by simpa using hw'.symm.trans hw
  refine ⟨_, hexec.trans (runInstr_of_runsWord hword hfree hf fun c hc n t hct hn => ?_), ?_⟩
  · obtain rfl := Work.next.inj hc
    exact hrom n t (htransfer ▸ hct) hn
  · exact ⟨State.ranOn_putCore s k _, by simpa [Work.outcome] using hP⟩

end Sys2Proof.Machine
end

section
/-! The data, accumulator and control instructions of the trestle cores (09 R251 to R259). -/

namespace Sys2Proof.Machine

theorem inWidth_eq_not_outside (w : Nat) (x : Int) : inWidth w x = !outside w x := by
  rw [Bool.eq_iff_iff]
  simp only [inWidth, outside, decide_eq_true_eq, Bool.not_eq_true', Bool.or_eq_false_iff, decide_eq_false_iff_not]
  omega

/-- Wrapping to w bits, as the residue in the signed range. -/
theorem toSigned_ofSigned_eq_emod {w : Nat} (hw : 0 < w) (x : Int) : toSigned w (ofSigned w x) = (x + 2 ^ (w - 1)) % 2 ^ w - 2 ^ (w - 1) := by
  obtain ⟨n, rfl⟩ : ∃ n, w = n + 1 := ⟨w - 1, by omega⟩
  have hpow : (2 : Int) ^ (n + 1) = 2 * 2 ^ n := by ring
  have hpos : (0 : Int) < 2 ^ n := by positivity
  have hcast : ((2 ^ n : Nat) : Int) = 2 ^ n := by push_cast; rfl
  have hlo := Int.emod_nonneg x (show (2 * 2 ^ n : Int) ≠ 0 by omega)
  have hhi := Int.emod_lt_of_pos x (show (0 : Int) < 2 * 2 ^ n by omega)
  unfold toSigned ofSigned
  simp only [Nat.add_sub_cancel, hpow]
  rw [← Int.emod_add_emod x]
  generalize x % (2 * 2 ^ n) = y at hlo hhi ⊢
  split
  · rw [Int.emod_eq_of_lt (by omega) (by omega)]
    omega
  · rw [← Int.sub_emod_right, Int.emod_eq_of_lt (by omega) (by omega)]
    omega

theorem narrowed_eq_fitted {w : Nat} (hw : 0 < w) (sat : Bool) (x : Int) : narrowed w sat x = fitted w sat x := by
  have hiff : inWidth w x = true ↔ -(2 : Int) ^ (w - 1) ≤ x ∧ x ≤ (2 : Int) ^ (w - 1) - 1 := by
    simp only [inWidth, decide_eq_true_eq]
    omega
  simp only [narrowed, fitted, hiff, toSigned_ofSigned_eq_emod hw]

theorem ofSigned_mod (w : Nat) (x : Int) : ofSigned w x % 2 ^ w = (x % 2 ^ w).toNat := by
  have hpos : (0 : Int) < 2 ^ w := by positivity
  have hlt := Int.emod_lt_of_pos x hpos
  have hcast : ((2 ^ w : Nat) : Int) = 2 ^ w := by push_cast; rfl
  exact Nat.mod_eq_of_lt (by unfold ofSigned; omega)

namespace Core

theorem putFlags_eq (c : Core) (v : Int) (out : Bool) : c.putFlags (v == 0) (decide (v < 0)) out = { c with late := c.late ++ [flagWrite c v out] } := by
  have hz : b2n (v == 0) = if v = 0 then 1 else 0 := by by_cases h : v = 0 <;> simp [h, b2n]
  have hn : 2 * b2n (decide (v < 0)) = if v < 0 then 2 else 0 := by by_cases h : v < 0 <;> simp [h, b2n]
  have hv : 4 * b2n out = if out then 4 else 0 := by cases out <;> rfl
  simp only [putFlags, later, flagWrite, hz, hn, hv]

theorem putD_eq (c : Core) (n v : Nat) : c.putD n v = { c with late := c.late ++ [dataWrite c n (v % 2 ^ 24)] } := rfl

theorem stickyOut_eq (c : Core) (out : Bool) (b : Nat) : c.stickyOut out b = { c with late := c.late ++ stickyWrite c out b } := by
  cases out with
  | false => simp [stickyOut, stickyWrite]
  | true => rfl

theorem arith_eq (c : Core) (sat : Bool) (rd : Nat) (x : Int) : c.arith sat rd x =
    { c with late := c.late ++ (dataWrite c rd (fitted 24 sat x % 2 ^ 24).toNat :: flagWrite c (fitted 24 sat x) (outside 24 x) ::
      stickyWrite c (outside 24 x) (if sat then 8 else 9)) } := by
  simp only [arith, inWidth_eq_not_outside, Bool.not_not, narrowed_eq_fitted (show 0 < 24 by decide), putD_eq, putFlags_eq, stickyOut_eq, ofSigned_mod]
  simp [flagWrite, stickyWrite]

theorem arithAcc_eq (c : Core) (sat : Bool) (ax : Nat) (x : Int) : c.arithAcc sat ax x =
    { c with acc := tabSet 0 c.acc ax (fitted 56 sat x % 2 ^ 56).toNat,
             late := c.late ++ (flagWrite c (fitted 56 sat x) (outside 56 x) :: stickyWrite c (outside 56 x) ((if sat then 16 else 20) + ax)) } := by
  simp only [arithAcc, putAcc, inWidth_eq_not_outside, Bool.not_not, narrowed_eq_fitted (show 0 < 56 by decide), putFlags_eq, stickyOut_eq, ofSigned_mod]
  simp [flagWrite, stickyWrite]

theorem compare_eq (c : Core) (x : Int) : c.compare x = { c with late := c.late ++ [flagWrite c x false] } := putFlags_eq c x false

end Core

theorem dataResult_arith (c : Core) (sat : Bool) (rd : Nat) (x : Int) : DataResult c (c.arith sat rd x).advance sat rd x := by
  rw [Core.arith_eq]
  exact stepsTo_advance rfl rfl rfl rfl

theorem accResult_arithAcc (c : Core) (sat : Bool) (ax : Nat) (x : Int) : AccResult c (c.arithAcc sat ax x).advance sat ax x := by
  rw [Core.arithAcc_eq]
  exact stepsTo_advance rfl rfl rfl rfl

/-! ### Instructions that compute -/

section
variable {s : State} {k : Fin 32} {r : Record} {i : Instr} {w : Nat}

theorem completes_arith {sat : Bool} {rd : Nat} {x : Core → Int} (hr : Runs s k r i) (hw : trestleWord i = some (k, w))
    (hexec : exec i s = runPlain k.val w (fun c => c.arith sat rd (x c)) s) :
    Completes i s fun t => RanOn s t k.val ∧ DataResult (s.core k.val).settle (t.core k.val) sat rd (x (s.core k.val).settle) :=
  completes_of_next (P := fun c t => DataResult c t sat rd (x c)) hr hw hexec (fun h => nomatch h) rfl
    (by simp [Core.arith_eq]) (dataResult_arith _ sat rd _)

theorem completes_arith_ranged {sat ok : Bool} {rd : Nat} {x : Core → Int} (hr : Runs s k r i) (hw : trestleWord i = some (k, w)) (hok : ok = true)
    (hexec : exec i s = runRanged k.val w ok (fun c => c.arith sat rd (x c)) s) :
    Completes i s fun t => RanOn s t k.val ∧ DataResult (s.core k.val).settle (t.core k.val) sat rd (x (s.core k.val).settle) :=
  completes_arith hr hw (by rw [hexec, hok]; rfl)

theorem completes_arithAcc {sat : Bool} {ax : Nat} {x : Core → Int} (hr : Runs s k r i) (hw : trestleWord i = some (k, w))
    (hexec : exec i s = runPlain k.val w (fun c => c.arithAcc sat ax (x c)) s) :
    Completes i s fun t => RanOn s t k.val ∧ AccResult (s.core k.val).settle (t.core k.val) sat ax (x (s.core k.val).settle) :=
  completes_of_next (P := fun c t => AccResult c t sat ax (x c)) hr hw hexec (fun h => nomatch h) rfl
    (by simp [Core.arithAcc_eq]) (accResult_arithAcc _ sat ax _)

theorem completes_arithAcc_ranged {sat ok : Bool} {ax : Nat} {x : Core → Int} (hr : Runs s k r i) (hw : trestleWord i = some (k, w)) (hok : ok = true)
    (hexec : exec i s = runRanged k.val w ok (fun c => c.arithAcc sat ax (x c)) s) :
    Completes i s fun t => RanOn s t k.val ∧ AccResult (s.core k.val).settle (t.core k.val) sat ax (x (s.core k.val).settle) :=
  completes_arithAcc hr hw (by rw [hexec, hok]; rfl)

/-- An instruction that computes f, which leaves the place alone, steps on to what f gives. -/
theorem completes_plain {f g : Core → Core} (hr : Runs s k r i) (hw : trestleWord i = some (k, w)) (hexec : exec i s = runPlain k.val w f s)
    (hfg : ∀ c, f c = g c) (hpos : ∀ c, (g c).pos = c.pos) (hpc : ∀ c, (g c).pc = c.pc) (htransfer : ∀ c, (g c).transfer = c.transfer) (hloop : ∀ c, (g c).loop = c.loop) :
    Completes i s fun t => RanOn s t k.val ∧ StepsTo (s.core k.val).settle (g (s.core k.val).settle) (t.core k.val) :=
  completes_of_next (P := fun c t => StepsTo c (g c) t) hr hw hexec (fun h => nomatch h) (congrArg Work.next (hfg _))
    ((htransfer _).trans (s.core k.val).settle_transfer) (stepsTo_advance (hpos _) (hpc _) (htransfer _) (hloop _))

theorem completes_plain_ranged {ok : Bool} {f g : Core → Core} (hr : Runs s k r i) (hw : trestleWord i = some (k, w)) (hok : ok = true)
    (hexec : exec i s = runRanged k.val w ok f s)
    (hfg : ∀ c, f c = g c) (hpos : ∀ c, (g c).pos = c.pos) (hpc : ∀ c, (g c).pc = c.pc) (htransfer : ∀ c, (g c).transfer = c.transfer) (hloop : ∀ c, (g c).loop = c.loop) :
    Completes i s fun t => RanOn s t k.val ∧ StepsTo (s.core k.val).settle (g (s.core k.val).settle) (t.core k.val) :=
  completes_plain hr hw (by rw [hexec, hok]; rfl) hfg hpos hpc htransfer hloop

end

/-- Settles O26, instruction by instruction. -/
theorem dataArithmetic : Obligations.DataArithmetic := by
  rintro s k r sat rd ra rb imm n c rfl
  refine ⟨fun hr => ?_, fun hr => ?_, fun hr => ?_, fun hr => ?_, fun hr => ?_, fun hr => ?_, fun hr hn => ?_, fun hr hn => ?_⟩
  · exact completes_arith (x := fun c => c.dval ra.val + c.dval rb.val) hr rfl rfl
  · exact completes_arith (x := fun c => c.dval ra.val - c.dval rb.val) hr rfl rfl
  · exact completes_arith (x := fun c => c.dval ra.val + imm.toInt) hr rfl rfl
  · exact completes_arith (x := fun c => -c.dval ra.val) hr rfl rfl
  · exact completes_arith (x := fun c => (c.dval ra.val).natAbs) hr rfl rfl
  · exact completes_arith (x := fun c => roundHalfEven (c.dval ra.val * c.dval rb.val) (2 ^ 23)) hr rfl rfl
  · exact completes_arith_ranged (x := fun c => c.dval ra.val * 2 ^ n.toNat) hr rfl (by simpa using hn) rfl
  · exact completes_arith_ranged (x := fun c => c.dval ra.val / 2 ^ n.toNat) hr rfl (by simpa using hn) rfl

/-! ### Moves, memory and logic -/

theorem effective_eq (base : Nat) (off : BitVec 16) : effective base off.toNat = (((base : Int) + off.toInt) % 2 ^ 16).toNat := by
  have h : toSigned 16 off.toNat = off.toInt := by
    rw [BitVec.toInt_eq_toNat_cond]
    unfold toSigned
    split <;> split <;> omega
  rw [effective, h]
  rfl

theorem effective_lt (base off : Nat) : effective base off < 65536 := by
  unfold effective
  omega

theorem postMod_eq (mod : Fin 4) : postMod mod.val = [0, 1, 2, -2].getD mod.val 0 := by
  revert mod
  decide

theorem Core.modify_eq (c : Core) (an : Nat) (mod : Fin 4) :
    c.modify an mod.val = { c with a := tabSet 0 c.a (8 * c.bank + an) (((c.areg an : Int) + [0, 1, 2, -2].getD mod.val 0) % 2 ^ 16).toNat } := by
  have hlt : (((c.areg an : Int) + postMod mod.val) % 65536).toNat < 65536 := by omega
  rw [modify, putA, Nat.mod_eq_of_lt hlt, postMod_eq]
  rfl

theorem specialSource_lt (s : State) (c : Core) (n : Nat) : specialSource s c n < 2 ^ 24 := by
  unfold specialSource
  split <;> omega

section
variable {s : State} {k : Fin 32} {r : Record} {i : Instr} {w : Nat}

theorem completes_putD (rd : Nat) (x : Core → Nat) (hr : Runs s k r i) (hw : trestleWord i = some (k, w)) (hexec : exec i s = runPlain k.val w (fun c => c.putD rd (x c)) s) :
    Completes i s fun t => RanOn s t k.val ∧
      StepsTo (s.core k.val).settle { (s.core k.val).settle with late := (s.core k.val).settle.late ++ [dataWrite (s.core k.val).settle rd (x (s.core k.val).settle % 2 ^ 24)] } (t.core k.val) :=
  completes_plain (g := fun c => { c with late := c.late ++ [dataWrite c rd (x c % 2 ^ 24)] }) hr hw hexec (fun c => c.putD_eq rd (x c)) (fun _ => rfl) (fun _ => rfl) (fun _ => rfl) fun _ => rfl

theorem completes_putD_ranged {ok : Bool} (rd : Nat) (x : Core → Nat) (hr : Runs s k r i) (hw : trestleWord i = some (k, w)) (hok : ok = true)
    (hexec : exec i s = runRanged k.val w ok (fun c => c.putD rd (x c)) s) :
    Completes i s fun t => RanOn s t k.val ∧
      StepsTo (s.core k.val).settle { (s.core k.val).settle with late := (s.core k.val).settle.late ++ [dataWrite (s.core k.val).settle rd (x (s.core k.val).settle % 2 ^ 24)] } (t.core k.val) :=
  completes_putD rd x hr hw (by rw [hexec, hok]; rfl)

theorem completes_compare (x : Core → Int) (hr : Runs s k r i) (hw : trestleWord i = some (k, w)) (hexec : exec i s = runPlain k.val w (fun c => c.compare (x c)) s) :
    Completes i s fun t => RanOn s t k.val ∧
      StepsTo (s.core k.val).settle { (s.core k.val).settle with late := (s.core k.val).settle.late ++ [flagWrite (s.core k.val).settle (x (s.core k.val).settle) false] } (t.core k.val) :=
  completes_plain (g := fun c => { c with late := c.late ++ [flagWrite c (x c) false] }) hr hw hexec (fun c => c.compare_eq (x c)) (fun _ => rfl) (fun _ => rfl) (fun _ => rfl) fun _ => rfl

theorem completes_putA (ad : Nat) (x : Core → Nat) (hr : Runs s k r i) (hw : trestleWord i = some (k, w)) (hexec : exec i s = runPlain k.val w (fun c => c.putA ad (x c)) s) :
    Completes i s fun t => RanOn s t k.val ∧
      StepsTo (s.core k.val).settle { (s.core k.val).settle with a := tabSet 0 (s.core k.val).settle.a (8 * (s.core k.val).settle.bank + ad) (x (s.core k.val).settle % 2 ^ 16) } (t.core k.val) :=
  completes_plain (g := fun c => { c with a := tabSet 0 c.a (8 * c.bank + ad) (x c % 2 ^ 16) }) hr hw hexec (fun _ => rfl) (fun _ => rfl) (fun _ => rfl) (fun _ => rfl) fun _ => rfl

/-- An instruction whose work depends on the state too, and leaves the place alone. -/
theorem completes_work {f : State → Record → Bytes → Core → Work} {c c' : Core} (hc : c = (s.core k.val).settle) (hr : Runs s k r i) (hw : trestleWord i = some (k, w))
    (hexec : exec i s = runInstr k.val w false f s) (hf : f s r (s.imageOf c.prog r) c = .next c')
    (hpos : c'.pos = c.pos) (hpc : c'.pc = c.pc) (htransfer : c'.transfer = c.transfer) (hloop : c'.loop = c.loop) :
    Completes i s fun t => RanOn s t k.val ∧ StepsTo c c' (t.core k.val) := by
  subst hc
  rw [Core.settle_prog] at hf
  exact completes_of_next (P := fun c t => StepsTo c c' t) hr hw hexec (fun h => nomatch h) hf (htransfer.trans (s.core k.val).settle_transfer)
    (stepsTo_advance hpos hpc htransfer hloop)

theorem completes_ld {rd : Fin 16} {an : Fin 8} {off : BitVec 16} {mod : Fin 4} {c : Core} (hc : c = (s.core k.val).settle) (hr : Runs s k r (.ld k rd an off mod))
    (hfill : s.filling r (s.imageOf c.prog r) c (((c.areg an.val : Int) + off.toInt) % 2 ^ 16).toNat = false) :
    Completes (.ld k rd an off mod) s fun t => RanOn s t k.val ∧
      StepsTo c { c with a := tabSet 0 c.a (8 * c.bank + an.val) (((c.areg an.val : Int) + [0, 1, 2, -2].getD mod.val 0) % 2 ^ 16).toNat,
                         late := c.late ++ [dataWrite c rd.val (tabGet 0 c.mem (((c.areg an.val : Int) + off.toInt) % 2 ^ 16).toNat % 2 ^ 24)] } (t.core k.val) := by
  rw [← effective_eq] at hfill ⊢
  have hword : tabGet 0 c.mem (effective (c.areg an.val) off.toNat) = c.word (effective (c.areg an.val) off.toNat) := by
    rw [Core.word, Nat.mod_eq_of_lt (effective_lt _ _)]
  have hmodify := Core.modify_eq (c.putD rd.val (c.word (effective (c.areg an.val) off.toNat))) an.val mod
  rw [hword]
  refine completes_work hc hr (w := encMem 0x0B rd.val an.val off.toNat mod.val) rfl (by rw [exec_ld, execLd]) ?_ rfl rfl rfl rfl
  simp only [accessTrap, hfill, hmodify]
  rfl

theorem completes_st {rd : Fin 16} {an : Fin 8} {off : BitVec 16} {mod : Fin 4} {c : Core} (hc : c = (s.core k.val).settle) (hr : Runs s k r (.st k rd an off mod))
    (hfill : s.filling r (s.imageOf c.prog r) c (((c.areg an.val : Int) + off.toInt) % 2 ^ 16).toNat = false)
    (harea : inRecordArea (((c.areg an.val : Int) + off.toInt) % 2 ^ 16).toNat = true → inResults (((c.areg an.val : Int) + off.toInt) % 2 ^ 16).toNat = true) :
    Completes (.st k rd an off mod) s fun t => RanOn s t k.val ∧
      StepsTo c { c with a := tabSet 0 c.a (8 * c.bank + an.val) (((c.areg an.val : Int) + [0, 1, 2, -2].getD mod.val 0) % 2 ^ 16).toNat,
                         mem := tabSet 0 c.mem (((c.areg an.val : Int) + off.toInt) % 2 ^ 16).toNat (c.dreg rd.val % 2 ^ 24) } (t.core k.val) := by
  rw [← effective_eq] at hfill harea ⊢
  have hput : c.putWord (effective (c.areg an.val) off.toNat) (c.dreg rd.val) =
      { c with mem := tabSet 0 c.mem (effective (c.areg an.val) off.toNat) (c.dreg rd.val % 2 ^ 24) } := by
    rw [Core.putWord, Nat.mod_eq_of_lt (effective_lt _ _)]
  have hstore : (inRecordArea (effective (c.areg an.val) off.toNat) && !inResults (effective (c.areg an.val) off.toNat)) = false := by
    simpa using harea
  have hmodify := Core.modify_eq (c.putWord (effective (c.areg an.val) off.toNat) (c.dreg rd.val)) an.val mod
  rw [hput] at hmodify
  refine completes_work hc hr (w := encMem 0x0C rd.val an.val off.toNat mod.val) rfl (by rw [exec_st, execSt]) ?_ rfl rfl rfl rfl
  simp only [accessTrap, hfill, Bool.true_and, hstore, hput, hmodify]
  rfl

theorem completes_mfs {rd : Fin 16} {imm : BitVec 24} {c : Core} (hc : c = (s.core k.val).settle) (hr : Runs s k r (.mfs k rd imm)) (himm : imm.toNat ≤ 4) :
    Completes (.mfs k rd imm) s fun t => RanOn s t k.val ∧ StepsTo c { c with late := c.late ++ [dataWrite c rd.val (specialSource s c imm.toNat)] } (t.core k.val) := by
  have hput := c.putD_eq rd.val (specialSource s c imm.toNat)
  rw [Nat.mod_eq_of_lt (specialSource_lt s c _)] at hput
  refine completes_work hc hr (w := encData 0x2E false rd.val 0 0 imm.toNat) rfl (by rw [exec_mfs, execMfs]) ?_ rfl rfl rfl rfl
  rw [if_neg (by omega), hput]

end

/-- Settles O27. -/
theorem dataMovesAndLogic : Obligations.DataMovesAndLogic := by
  constructor
  · rintro s k r rd ra rb imm n c rfl
    refine ⟨fun hr => ?_, fun hr => ?_, fun hr => ?_, fun hr => ?_, fun hr => ?_, fun hr hn => ?_, fun hr => ?_, fun hr => ?_⟩
    · exact completes_putD rd.val (fun c => if c.dval ra.val ≤ c.dval rb.val then c.dreg ra.val else c.dreg rb.val) hr rfl rfl
    · exact completes_putD rd.val (fun c => if c.dval ra.val ≤ c.dval rb.val then c.dreg rb.val else c.dreg ra.val) hr rfl rfl
    · exact completes_putD rd.val (fun c => c.dreg ra.val &&& c.dreg rb.val) hr rfl rfl
    · exact completes_putD rd.val (fun c => c.dreg ra.val ||| c.dreg rb.val) hr rfl rfl
    · exact completes_putD rd.val (fun c => c.dreg ra.val ^^^ c.dreg rb.val) hr rfl rfl
    · exact completes_putD_ranged rd.val (fun c => c.dreg ra.val / 2 ^ n.toNat) hr rfl (by simpa using hn) rfl
    · exact completes_compare (fun c => c.dval ra.val - c.dval rb.val) hr rfl rfl
    · exact completes_compare (fun c => c.dval ra.val - imm.toInt) hr rfl rfl
  · rintro s k r rd ra an ad off mod imm c rfl
    refine ⟨fun hr => ?_, fun hr => ?_, fun hr => ?_, fun hr => ?_, completes_ld rfl, completes_st rfl, completes_mfs rfl, fun hr => ?_, fun hr => ?_⟩
    · simpa [Nat.mod_eq_of_lt imm.isLt] using completes_putD rd.val (fun _ => imm.toNat) hr rfl rfl
    · exact completes_putD rd.val (fun c => c.areg an.val) hr rfl rfl
    · exact completes_putA ad.val (fun c => c.dreg ra.val) hr rfl rfl
    · have h := completes_putA ad.val (fun c => effective (c.areg an.val) off.toNat) hr rfl rfl
      rwa [Nat.mod_eq_of_lt (show _ < 2 ^ 16 from effective_lt _ _), effective_eq] at h
    · exact completes_putD rd.val (fun c => tabGet 0 c.flags c.bank % 8 ||| c.sticky) hr rfl rfl
    · exact completes_plain (f := fun c => c.later 3 0 imm.toNat) (g := fun c => c.later 3 0 imm.toNat) hr rfl rfl (fun _ => rfl) (fun _ => rfl) (fun _ => rfl) (fun _ => rfl) fun _ => rfl

end Sys2Proof.Machine
end

section
/-! The accumulator instructions of the trestle cores (09 R254 to R256, R258). -/

namespace Sys2Proof.Machine

/-- The bits from the top that equal the top bit, one less, and where they end. -/
theorem leadingSigns_spec (v : Nat) : leadingSigns v ≤ 55 ∧ (∀ i ≤ leadingSigns v, v.testBit (55 - i) = v.testBit 55) ∧
    (leadingSigns v < 55 → v.testBit (54 - leadingSigns v) ≠ v.testBit 55) := by
  let bits : List Bool := (List.range 56).map fun i => bit v (55 - i)
  have hlen : bits.length = 56 := by simp [bits]
  have hbit (i : Nat) (hi : i < 56) : bits[i]'(hlen ▸ hi) = v.testBit (55 - i) := by simp [bits, bit]
  have hcount : leadingSigns v = bits.findIdx (fun b => !(b == bit v 55)) - 1 := by
    rw [leadingSigns, List.takeWhile_eq_take_findIdx_not, List.length_take, Nat.min_eq_left List.findIdx_le_length]
  have hle : bits.findIdx (fun b => !(b == bit v 55)) ≤ 56 := hlen ▸ List.findIdx_le_length
  have hsame (i : Nat) (hi : i < bits.findIdx (fun b => !(b == bit v 55))) : v.testBit (55 - i) = v.testBit 55 := by
    have := List.not_of_lt_findIdx hi
    rw [hbit i (by omega)] at this
    simpa [bit] using this
  have hend (hlt : bits.findIdx (fun b => !(b == bit v 55)) < 56) : v.testBit (55 - bits.findIdx (fun b => !(b == bit v 55))) ≠ v.testBit 55 := by
    have := List.findIdx_getElem (w := hlen.symm ▸ hlt)
    rw [hbit _ hlt] at this
    simpa [bit] using this
  have hpos : 0 < bits.findIdx (fun b => !(b == bit v 55)) := by
    rw [Nat.pos_iff_ne_zero]
    intro h0
    exact hend (by omega) (by rw [h0])
  refine ⟨by omega, fun i hi => hsame i (by omega), fun hlt => ?_⟩
  rw [show 54 - leadingSigns v = 55 - bits.findIdx (fun b => !(b == bit v 55)) by omega]
  exact hend (by omega)

theorem accPart_two (v : Nat) : accPart v 2 % 2 ^ 24 = ((((v / 2 ^ 48 : Nat) + 128 : Int) % 2 ^ 8 - 128) % 2 ^ 24).toNat := by
  have hmod : ((v / 2 ^ 48 % 256 : Nat) : Int) = ((v / 2 ^ 48 : Nat) : Int) % 256 := by push_cast; rfl
  have hsigned : toSigned 8 (v / 2 ^ 48 % 256) = (((v / 2 ^ 48 : Nat) + 128 : Int) % 2 ^ 8 - 128) := by
    unfold toSigned
    split <;> omega
  rw [accPart, if_neg (by decide), if_neg (by decide), hsigned, ofSigned_mod]

section
variable {s : State} {k : Fin 32} {r : Record} {i : Instr} {w : Nat}

theorem completes_putAcc (ax : Nat) (x : Core → Nat) (hr : Runs s k r i) (hw : trestleWord i = some (k, w)) (hexec : exec i s = runPlain k.val w (fun c => c.putAcc ax (x c)) s) :
    Completes i s fun t => RanOn s t k.val ∧
      StepsTo (s.core k.val).settle { (s.core k.val).settle with acc := tabSet 0 (s.core k.val).settle.acc ax (x (s.core k.val).settle % 2 ^ 56) } (t.core k.val) :=
  completes_plain (g := fun c => { c with acc := tabSet 0 c.acc ax (x c % 2 ^ 56) }) hr hw hexec (fun _ => rfl) (fun _ => rfl) (fun _ => rfl) (fun _ => rfl) fun _ => rfl

theorem completes_mta {ax : Fin 4} {ra : Fin 16} {n : BitVec 7} (hr : Runs s k r (.mta k ax ra n)) (hn : n.toNat ≤ 2) :
    Completes (.mta k ax ra n) s fun t => RanOn s t k.val ∧
      StepsTo (s.core k.val).settle { (s.core k.val).settle with acc := tabSet 0 (s.core k.val).settle.acc ax.val ((if n = 0 then (s.core k.val).settle.dreg ra.val else if n = 1 then tabGet 0 (s.core k.val).settle.acc ax.val % 2 ^ 24 + (s.core k.val).settle.dreg ra.val * 2 ^ 24
          else tabGet 0 (s.core k.val).settle.acc ax.val % 2 ^ 48 + (s.core k.val).settle.dreg ra.val % 2 ^ 8 * 2 ^ 48) % 2 ^ 56) } (t.core k.val) := by
  have h := completes_putAcc ax.val (fun c => withAccPart (c.areg56 ax.val) n.toNat (c.dreg ra.val)) hr rfl
    (by rw [exec_mta, execMta, runRanged, decide_eq_true hn]; rfl)
  have h0 : n.toNat = 0 ↔ n = 0 := by rw [← BitVec.toNat_inj]; rfl
  have h1 : n.toNat = 1 ↔ n = 1 := by rw [← BitVec.toNat_inj]; rfl
  simpa only [withAccPart, Core.areg56, h0, h1, Nat.reducePow] using h

end

/-- Settles O28. -/
theorem accumulators : Obligations.Accumulators := by
  constructor
  · rintro s k r sat ax ay ra rb n c rfl
    refine ⟨fun hr => ?_, fun hr => ?_, fun hr => ?_, fun hr => ?_, fun hr => ?_, fun hr hn => ?_, fun hr hlo hhi => ?_, fun hr => ?_⟩
    · exact completes_arithAcc (x := fun c => c.dval ra.val * c.dval rb.val) hr rfl rfl
    · exact completes_arithAcc (x := fun c => c.aval ax.val + c.dval ra.val * c.dval rb.val) hr rfl rfl
    · exact completes_arithAcc (x := fun c => c.aval ax.val - c.dval ra.val * c.dval rb.val) hr rfl rfl
    · exact completes_arithAcc (x := fun c => c.aval ax.val + c.aval ay.val) hr rfl rfl
    · exact completes_arithAcc (x := fun c => c.aval ax.val - c.aval ay.val) hr rfl rfl
    · exact completes_arithAcc_ranged (x := fun c => c.dval ra.val * 2 ^ n.toNat) hr rfl (by simpa using hn) rfl
    · exact completes_arithAcc_ranged (x := fun c => shifted (c.aval ax.val) n.toInt) hr rfl (by simpa using ⟨hlo, hhi⟩) rfl
    · exact completes_arithAcc (x := fun c => roundHalfEven (c.aval ay.val * c.dval rb.val) (2 ^ 23)) hr rfl rfl
  · rintro s k r sat ax ay rd ra n c rfl
    refine ⟨fun hr => ?_, fun hr hn => ?_, fun hr => ?_, fun hr => ?_, fun hr => ?_, completes_mta, fun hr => ?_, fun hr => ?_⟩
    · exact completes_putAcc ax.val (fun _ => 0) hr rfl rfl
    · exact completes_arith_ranged (x := fun c => roundHalfEven (c.aval ay.val) (2 ^ n.toNat)) hr rfl (by simpa using hn) rfl
    · have h := completes_putD_ranged rd.val (fun c => accPart (c.areg56 ay.val) 0) hr rfl rfl rfl
      simpa only [accPart, ite_true, Nat.mod_mod, Core.areg56] using h
    · have h := completes_putD_ranged rd.val (fun c => accPart (c.areg56 ay.val) 1) hr rfl rfl rfl
      simpa only [accPart, if_neg Nat.one_ne_zero, ite_true, Nat.mod_mod, Core.areg56] using h
    · have h := completes_putD_ranged rd.val (fun c => accPart (c.areg56 ay.val) 2) hr rfl rfl rfl
      simpa only [accPart_two, Core.areg56] using h
    · obtain ⟨hle, hsame, hend⟩ := leadingSigns_spec (tabGet 0 (s.core k.val).settle.acc ay.val)
      obtain ⟨t, ht, hran, hstep⟩ := completes_putD rd.val (fun c => leadingSigns (c.areg56 ay.val)) hr rfl rfl
      refine ⟨t, ht, hran, leadingSigns (tabGet 0 (s.core k.val).settle.acc ay.val), ?_, hle, hsame, hend⟩
      have hlt : leadingSigns ((s.core k.val).settle.areg56 ay.val) % 2 ^ 24 = leadingSigns (tabGet 0 (s.core k.val).settle.acc ay.val) :=
        Nat.mod_eq_of_lt (lt_of_le_of_lt hle (by decide))
      rwa [hlt] at hstep
    · exact completes_compare (fun c => c.aval ax.val - c.aval ay.val) hr rfl rfl

end Sys2Proof.Machine
end

section
/-! Branches, calls, returns and loops of the trestle cores (09 R252, R253, R259). -/

namespace Sys2Proof.Machine

/-! ### One step of the program counter -/

theorem Core.advance_of_free {c : Core} (htransfer : c.transfer = none) (hloop : c.loop = none) : c.advance = { c with pos := c.pos + 1, pc := c.pc + 1 } := by
  simp [Core.advance, htransfer, hloop]

theorem Core.advance_of_transfer {c : Core} {n t : Nat} (htransfer : c.transfer = some (n, t)) :
    c.advance = if n ≤ 1 then { c with pos := c.pos + 1, transfer := none, pc := t } else { c with pos := c.pos + 1, transfer := some (n - 1, t), pc := c.pc + 1 } := by
  simp [Core.advance, htransfer]

theorem Core.advance_of_loopEnd {c : Core} {first last left : Nat} (htransfer : c.transfer = none) (hloop : c.loop = some (first, last, left)) (hpc : c.pc = last) :
    c.advance = if 1 < left then { c with pos := c.pos + 1, loop := some (first, last, left - 1), pc := first } else { c with pos := c.pos + 1, loop := none, pc := last + 1 } := by
  simp [Core.advance, htransfer, hloop, hpc]

theorem Core.advance_of_loopBody {c : Core} {first last left : Nat} (htransfer : c.transfer = none) (hloop : c.loop = some (first, last, left)) (hpc : c.pc ≠ last) :
    c.advance = { c with pos := c.pos + 1, pc := c.pc + 1 } := by
  simp [Core.advance, htransfer, hloop, hpc]

theorem Core.advance_transferTo (c : Core) (target : Nat) : (c.transferTo target).advance = { c with pos := c.pos + 1, pc := c.pc + 1, transfer := some (2, target) } := by
  simp [Core.advance, Core.transferTo]

/-- What a loop makes of the core, from its first word on or past its end. -/
theorem startLoop_of_range {c : Core} {count last : Nat} (hlo : c.pc < last) (hhi : last ≤ c.pc + 4096) :
    startLoop c count last = .next (if count = 0 then { c with pc := last } else { c with loop := some (c.pc + 1, last, count) }) := by
  rw [startLoop, if_neg (by omega)]
  split <;> rfl

theorem advance_startLoop {c : Core} {count last : Nat} (htransfer : c.transfer = none) (hloop : c.loop = none) (hlo : c.pc < last) :
    (if count = 0 then { c with pc := last } else { c with loop := some (c.pc + 1, last, count) } : Core).advance =
      if count = 0 then { c with pos := c.pos + 1, pc := last + 1 } else { c with pos := c.pos + 1, pc := c.pc + 1, loop := some (c.pc + 1, last, count) } := by
  split
  · rw [Core.advance_of_free (by exact htransfer) (by exact hloop)]
  · rw [Core.advance_of_loopBody (by exact htransfer) rfl (by exact hlo.ne)]

section
variable {s : State} {k : Fin 32} {r : Record} {i : Instr} {w : Nat} {f : State → Record → Bytes → Core → Work} {c' : Core}

/-- A control instruction outside delay slots and loop bodies completes: the core steps on from what the instruction made of it. -/
theorem completes_control (hr : RunsFree s k r i) (hw : trestleWord i = some (k, w)) (hexec : exec i s = runInstr k.val w true f s)
    (hf : f s r (s.imageOf (s.core k.val).prog r) (s.core k.val).settle = .next c') (htransfer : ∀ n t, c'.transfer = some (n, t) → 1 < n) :
    Completes i s fun t => RanOn s t k.val ∧ t.core k.val = c'.advance := by
  obtain ⟨⟨⟨w', hw', hword⟩, -⟩, hfree⟩ := hr
  obtain rfl : w' = w := by simpa using hw'.symm.trans hw
  refine ⟨_, hexec.trans (runInstr_of_runsWord hword (fun _ => hfree) hf fun c hc n t hct hn => ?_), State.ranOn_putCore s k _, by simp [Work.outcome]⟩
  obtain rfl := Work.next.inj hc
  have := htransfer n t hct
  omega

theorem completes_transferTo {target : Nat} {c : Core} (hr : RunsFree s k r i) (hw : trestleWord i = some (k, w)) (hexec : exec i s = runInstr k.val w true f s)
    (hf : f s r (s.imageOf (s.core k.val).prog r) (s.core k.val).settle = .next (c.transferTo target)) :
    Completes i s fun t => RanOn s t k.val ∧ t.core k.val = { c with pos := c.pos + 1, pc := c.pc + 1, transfer := some (2, target) } := by
  rw [← Core.advance_transferTo]
  refine completes_control hr hw hexec hf fun n t h => ?_
  simp only [Core.transferTo, Option.some.injEq, Prod.mk.injEq] at h
  omega

theorem completes_startLoop {count last : Nat} (hr : RunsFree s k r i) (hlo : (s.core k.val).settle.pc < last) (hhi : last ≤ (s.core k.val).settle.pc + 4096)
    (hw : trestleWord i = some (k, w)) (hexec : exec i s = runInstr k.val w true f s)
    (hf : f s r (s.imageOf (s.core k.val).prog r) (s.core k.val).settle = startLoop (s.core k.val).settle count last) :
    Completes i s fun t => RanOn s t k.val ∧ t.core k.val = if count = 0 then { (s.core k.val).settle with pos := (s.core k.val).settle.pos + 1, pc := last + 1 }
      else { (s.core k.val).settle with pos := (s.core k.val).settle.pos + 1, pc := (s.core k.val).settle.pc + 1, loop := some ((s.core k.val).settle.pc + 1, last, count) } := by
  have htransfer : (s.core k.val).settle.transfer = none := (s.core k.val).settle_transfer.trans hr.2.1
  have hloop : (s.core k.val).settle.loop = none := (s.core k.val).settle_loop.trans hr.2.2
  rw [startLoop_of_range hlo hhi] at hf
  rw [← advance_startLoop htransfer hloop hlo]
  refine completes_control hr hw hexec hf fun n t h => ?_
  split at h <;> exact nomatch htransfer.symm.trans h

end

/-- Settles O29. -/
theorem controlTransfers : Obligations.ControlTransfers := by
  rintro s k r cond ra target count c rfl
  refine ⟨fun hr => ?_, fun hr hcond => ?_, fun hr => ?_, fun hr => ?_, fun hr hlo hhi => ?_, fun hr hlo hhi => ?_, fun b n T h => ⟨?_, ?_⟩,
    fun b first last left ht hl hpc => ⟨fun h2 => ?_, fun h1 => ?_⟩⟩
  · exact completes_plain (f := id) (g := fun c => c) hr rfl rfl (fun _ => rfl) (fun _ => rfl) (fun _ => rfl) (fun _ => rfl) fun _ => rfl
  · exact completes_transferTo hr rfl (by rw [exec_br, execBr]) (if_neg (not_le.mpr (Nat.lt_succ_of_le hcond)))
  · exact completes_transferTo hr rfl (by rw [exec_call, execCall]) rfl
  · exact completes_transferTo hr rfl (by rw [exec_ret, execRet]) rfl
  · have h0 : count.toNat = 0 ↔ count = 0 := by rw [← BitVec.toNat_inj]; rfl
    have h := completes_startLoop (count := count.toNat) hr hlo hhi rfl (by rw [exec_loop, execLoop]) rfl
    simpa only [h0] using h
  · exact completes_startLoop hr hlo hhi rfl (by rw [exec_loopr, execLoopr]) rfl
  · rintro rfl
    simp [Core.advance_of_transfer h]
  · rintro rfl
    simp [Core.advance_of_transfer h]
  · simp [Core.advance_of_loopEnd ht hl hpc, show 1 < left from h2]
  · simp [Core.advance_of_loopEnd ht hl hpc, show ¬1 < left by omega]

end Sys2Proof.Machine
end

section
/-! Events, ends and traps of the trestle cores (09 R249, R260, R261, R265, Table 9-8). -/

namespace Sys2Proof.Machine

theorem lenOf_trFaults (n : Nat) (h : n < 32) : lenOf (Key.trFaults n) = 8 := by revert n; decide
theorem lenOf_trFaultCause (n : Nat) (h : n < 32) : lenOf (Key.trFaultCause n) = 2 := by revert n; decide
theorem lenOf_trFaultPc (n : Nat) (h : n < 32) : lenOf (Key.trFaultPc n) = 2 := by revert n; decide

namespace State

@[simp] theorem core_setObj (s : State) (k v j : Nat) : (s.setObj k v).core j = s.core j := rfl

/-! ### Records -/

/-- The record that a core runs is the one of its context and number. -/
theorem record?_of_coreRecord {s : State} {c : Core} {r : Record} (h : s.coreRecord c = some r) : s.record? r.ctx r.number = some r := by
  obtain ⟨⟨x, n⟩, -, hfind⟩ := Option.bind_eq_some_iff.mp h
  have hkey := List.find?_some hfind
  simp only [Bool.and_eq_true, beq_iff_eq] at hkey
  rw [hkey.1, hkey.2]
  exact hfind

theorem record?_updRecord {s : State} {r r' : Record} (h : s.record? r'.ctx r'.number = some r) : (s.updRecord r').record? r'.ctx r'.number = some r' := by
  have hkey := List.find?_some h
  have hfun : (fun y : Record => y.ctx == r'.ctx && y.number == r'.number) ∘ (fun y => if y.ctx = r'.ctx ∧ y.number = r'.number then r' else y) =
      fun y => y.ctx == r'.ctx && y.number == r'.number := by
    funext y
    by_cases hy : y.ctx = r'.ctx ∧ y.number = r'.number
    · simp [hy]
    · simp only [Function.comp_apply, if_neg hy]
  simp only [Bool.and_eq_true, beq_iff_eq] at hkey
  show (s.acq.records.map _).find? _ = _
  rw [List.find?_map, hfun]
  exact (congrArg _ h).trans (by simp [hkey])

theorem refreshAcq_changes (s : State) : ∃ d, s.refreshAcq = s.withDict d := ⟨_, rfl⟩

@[simp] theorem record?_refreshAcq (s : State) (c n : Nat) : s.refreshAcq.record? c n = s.record? c n := rfl

@[simp] theorem core_refreshAcq (s : State) (k : Nat) : s.refreshAcq.core k = s.core k := rfl

/-- The counts over the records that are not finished. -/
theorem obj_refreshAcq_of_ne (s : State) {k : Nat} (hu : k ≠ Key.acqStageUsed) (ho : k ≠ Key.acqOpen) (hq : k ≠ Key.trQueue) : s.refreshAcq.obj k = s.obj k := by
  simp [refreshAcq, hu, ho, hq]

/-! ### The end of a program -/

/-- The end of a program changes the core, the records and the dictionary. -/
theorem endProgram_changes (s : State) (k : Nat) (r : Record) (m : Nat) (x : Bytes) : ∃ d a, s.endProgram k r m x = ((s.withCores (tabSet {} s.cores k {})).withDict d).withAcq a := by
  unfold endProgram
  obtain ⟨d, h⟩ := refreshAcq_changes (((s.putCore k {}).setCoreState k 0).updRecord { r with state := 2, running := false, mstatus := m, results := if m = 0 then x else zeros 56 })
  exact ⟨_, _, h⟩

theorem core_endProgram (s : State) (k j : Nat) (r : Record) (m : Nat) (x : Bytes) : (s.endProgram k r m x).core j = if j = k then {} else s.core j :=
  core_putCore s k j {}

theorem obj_endProgram_of_ne (s : State) (k : Nat) (r : Record) (m : Nat) (x : Bytes) {j : Nat} (hs : j ≠ Key.trCoreState k) (hu : j ≠ Key.acqStageUsed) (ho : j ≠ Key.acqOpen)
    (hq : j ≠ Key.trQueue) : (s.endProgram k r m x).obj j = s.obj j := by
  rw [endProgram, obj_refreshAcq_of_ne _ hu ho hq]
  show ((s.putCore k {}).setObj _ 0).obj j = _
  simp [hs]

theorem record?_endProgram {s : State} {k m : Nat} {r : Record} {x : Bytes} (h : s.record? r.ctx r.number = some r) :
    (s.endProgram k r m x).record? r.ctx r.number = some { r with state := 2, running := false, mstatus := m, results := if m = 0 then x else zeros 56 } :=
  record?_updRecord (r' := { r with state := 2, running := false, mstatus := m, results := if m = 0 then x else zeros 56 }) h

theorem coreState_endProgram (s : State) (k : Fin 32) (r : Record) (m : Nat) (x : Bytes) : (s.endProgram k.val r m x).obj (Key.trCoreState k.val) = 0 := by
  have hu : Key.trCoreState k.val ≠ Key.acqStageUsed := by simp only [Key.trCoreState, Key.acqStageUsed]; omega
  have ho : Key.trCoreState k.val ≠ Key.acqOpen := by simp only [Key.trCoreState, Key.acqOpen]; omega
  have hq : Key.trCoreState k.val ≠ Key.trQueue := by simp only [Key.trCoreState, Key.trQueue]; omega
  rw [endProgram, obj_refreshAcq_of_ne _ hu ho hq]
  show ((s.putCore k.val {}).setObj _ 0).obj _ = _
  simp

end State

namespace State

@[simp] theorem record?_setObj (s : State) (k v c n : Nat) : (s.setObj k v).record? c n = s.record? c n := rfl

@[simp] theorem record?_bump (s : State) (k c n : Nat) : (s.bump k).record? c n = s.record? c n := rfl

@[simp] theorem record?_addObj (s : State) (k v c n : Nat) : (s.addObj k v).record? c n = s.record? c n := rfl

/-- The report of a slot whose program trapped. -/
def trapReport (s : State) (n cause pc : Nat) : State := ((s.bump (Key.trFaults n)).setObj (Key.trFaultCause n) cause).setObj (Key.trFaultPc n) pc

theorem trapCore_of_user (s : State) (k : Nat) (r : Record) (c : Core) (cause : Nat) (hlo : 0x8000 ≤ c.prog) (hhi : c.prog ≤ 0x801F) :
    s.trapCore k r c cause = (s.trapReport (c.prog - 0x8000) cause c.pc).endProgram k r 5 [] := by
  rw [trapCore, slotOf, if_pos ⟨hlo, hhi⟩, trapReport]

theorem trapReport_changes (s : State) (n cause pc : Nat) : ∃ d, s.trapReport n cause pc = s.withDict d := ⟨_, rfl⟩

theorem obj_trapReport (s : State) {n : Nat} (hn : n < 32) (cause pc : Nat) :
    (s.trapReport n cause pc).obj (Key.trFaultCause n) = cause % 2 ^ 16 ∧ (s.trapReport n cause pc).obj (Key.trFaultPc n) = pc % 2 ^ 16 ∧
      (s.trapReport n cause pc).obj (Key.trFaults n) = (s.obj (Key.trFaults n) + 1) % 2 ^ 64 := by
  have hfc : Key.trFaultCause n ≠ Key.trFaultPc n := by simp [Key.trFaultCause, Key.trFaultPc]
  have hff : Key.trFaults n ≠ Key.trFaultPc n := by simp [Key.trFaults, Key.trFaultPc]
  have hfd : Key.trFaults n ≠ Key.trFaultCause n := by simp [Key.trFaults, Key.trFaultCause]
  simp [trapReport, hfc, hff, hfd, lenOf_trFaultCause n hn, lenOf_trFaultPc n hn, lenOf_trFaults n hn]

end State

/-- A trap of a user program ends it with its cause and PC in the slot's report. -/
theorem trapped_trapCore {s : State} {k : Fin 32} {r : Record} (cause : Nat) (hrec : s.coreRecord (s.core k.val) = some r) (hlo : 0x8000 ≤ (s.core k.val).prog)
    (hhi : (s.core k.val).prog ≤ 0x801F) : Trapped s (s.trapCore k.val r (s.core k.val) cause) k.val r cause := by
  have hn : (s.core k.val).prog - 0x8000 < 32 := by omega
  rw [State.trapCore_of_user s k.val r _ cause hlo hhi]
  unfold Trapped
  generalize (s.core k.val).pc = pc
  generalize (s.core k.val).prog - 0x8000 = n at hn ⊢
  have hkeep (j : Nat) (hj : j = Key.trFaults n ∨ j = Key.trFaultCause n ∨ j = Key.trFaultPc n) :
      ((s.trapReport n cause pc).endProgram k.val r 5 []).obj j = (s.trapReport n cause pc).obj j := by
    have hk := k.isLt
    apply State.obj_endProgram_of_ne <;>
      simp only [Key.trFaults, Key.trFaultCause, Key.trFaultPc, Key.trCoreState, Key.acqStageUsed, Key.acqOpen, Key.trQueue] at hj ⊢ <;> omega
  obtain ⟨hcause, hpc, hfaults⟩ := State.obj_trapReport s hn cause pc
  obtain ⟨d, hreport⟩ := State.trapReport_changes s n cause pc
  have hrecord := State.record?_of_coreRecord hrec
  refine ⟨?_, ?_, ?_, ?_, ?_, fun j hj => ?_, ?_⟩
  · exact State.record?_endProgram (by rw [hreport]; exact hrecord)
  · rw [State.core_endProgram, if_pos rfl]
  · rw [hkeep _ (.inr (.inl rfl)), hcause]
  · rw [hkeep _ (.inr (.inr rfl)), hpc]
  · rw [hkeep _ (.inl rfl), hfaults]
  · rw [State.core_endProgram, if_neg hj, hreport]
    rfl
  · obtain ⟨d', a, hend⟩ := State.endProgram_changes (s.withDict d) k.val r 5 []
    rw [hreport, hend]
    rfl

section
variable {s : State} {k : Fin 32} {r : Record} {i : Instr} {w : Nat} {control : Bool} {f : State → Record → Bytes → Core → Work}

theorem trapped_of_runsWord (cause : Nat) (h : RunsWord s k.val r w) : Trapped s (s.trapCore k.val r (s.core k.val) cause) k.val r cause :=
  let ⟨_, hrec, _, hlo, hhi, _⟩ := h
  trapped_trapCore cause hrec hlo hhi

/-- An instruction whose own work is a trap. -/
theorem completes_trap {cause : Nat} (hr : Runs s k r i) (hw : trestleWord i = some (k, w)) (hexec : exec i s = runInstr k.val w control f s)
    (hfree : control = true → (s.core k.val).transfer = none ∧ (s.core k.val).loop = none)
    (hf : f s r (s.imageOf (s.core k.val).prog r) (s.core k.val).settle = .trap cause) : Completes i s fun t => Trapped s t k.val r cause := by
  obtain ⟨⟨w', hw', hword⟩, -⟩ := hr
  obtain rfl : w' = w := by simpa using hw'.symm.trans hw
  exact ⟨_, hexec.trans (runInstr_of_runsWord hword hfree hf fun _ h => nomatch h), trapped_of_runsWord cause hword⟩

/-- A control instruction in a delay slot traps with cause 3. -/
theorem completes_trap_slot (hr : Runs s k r i) (hw : trestleWord i = some (k, w)) (hexec : exec i s = runInstr k.val w true f s) (htransfer : (s.core k.val).transfer ≠ none) :
    Completes i s fun t => Trapped s t k.val r 3 := by
  obtain ⟨⟨w', hw', hword⟩, -⟩ := hr
  obtain rfl : w' = w := by simpa using hw'.symm.trans hw
  refine ⟨_, hexec.trans ?_, trapped_of_runsWord 3 hword⟩
  obtain ⟨hdeck, hrec, hwait, hlo, hhi, hbudget, hpc, hat⟩ := hword
  have hsome : (s.core k.val).transfer.isSome = true := Option.isSome_iff_ne_none.mpr htransfer
  simp [runInstr, hdeck, hrec, hwait, not_lt.mpr hlo, not_le.mpr hbudget, not_le.mpr hpc, hat, hsome]

/-- A control instruction in a loop body traps with cause 4. -/
theorem completes_trap_body (hr : Runs s k r i) (hw : trestleWord i = some (k, w)) (hexec : exec i s = runInstr k.val w true f s) (htransfer : (s.core k.val).transfer = none)
    (hloop : (s.core k.val).loop ≠ none) : Completes i s fun t => Trapped s t k.val r 4 := by
  obtain ⟨⟨w', hw', hword⟩, -⟩ := hr
  obtain rfl : w' = w := by simpa using hw'.symm.trans hw
  refine ⟨_, hexec.trans ?_, trapped_of_runsWord 4 hword⟩
  obtain ⟨hdeck, hrec, hwait, hlo, hhi, hbudget, hpc, hat⟩ := hword
  have hsome : (s.core k.val).loop.isSome = true := Option.isSome_iff_ne_none.mpr hloop
  simp [runInstr, hdeck, hrec, hwait, not_lt.mpr hlo, not_le.mpr hbudget, not_le.mpr hpc, hat, htransfer, hsome]

/-- A PC outside the program traps with cause 2. -/
theorem runInstr_of_pc_outside (hdeck : s.deckStopped = false) (hrec : s.coreRecord (s.core k.val) = some r) (hwait : (s.core k.val).waiting = false)
    (hlo : 0x8000 ≤ (s.core k.val).prog) (hbudget : (s.core k.val).pos < s.budgetOf r) (hpc : imgPwords (s.imageOf (s.core k.val).prog r) ≤ (s.core k.val).pc) :
    runInstr k.val w control f s = .next (s.trapCore k.val r (s.core k.val) 2) := by
  simp [runInstr, hdeck, hrec, hwait, not_lt.mpr hlo, not_le.mpr hbudget, hpc]

/-- Outside delay slots and loop bodies, a control instruction whose own work is a jump or an end. -/
theorem runInstr_of_runsFree {x : Work} (hr : RunsFree s k r i) (hw : trestleWord i = some (k, w)) (hexec : exec i s = runInstr k.val w true f s)
    (hf : f s r (s.imageOf (s.core k.val).prog r) (s.core k.val).settle = x) (hx : ∀ c, x ≠ .next c) : exec i s = .next (x.outcome s k.val r) := by
  obtain ⟨⟨⟨w', hw', hword⟩, -⟩, hfree⟩ := hr
  obtain rfl : w' = w := by simpa using hw'.symm.trans hw
  exact hexec.trans (runInstr_of_runsWord hword (fun _ => hfree) hf fun c hc => absurd hc (hx c))

theorem completes_jump {c : Core} (hr : RunsFree s k r i) (hw : trestleWord i = some (k, w)) (hexec : exec i s = runInstr k.val w true f s)
    (hf : f s r (s.imageOf (s.core k.val).prog r) (s.core k.val).settle = .jump c) (hwait : c.waiting = false) :
    Completes i s fun t => RanOn s t k.val ∧ t.core k.val = { c with pos := c.pos + 1 } := by
  refine ⟨_, runInstr_of_runsFree hr hw hexec hf fun _ h => (nomatch h), ?_⟩
  rw [Work.outcome, hwait]
  exact ⟨State.ranOn_putCore s k _, State.core_putCore_self _ _ _⟩

end

/-! ### Events -/

@[simp] theorem Core.settle_waiting (c : Core) : c.settle.waiting = c.waiting := by
  obtain ⟨d, flags, sticky, late, h⟩ := settle_changes c
  rw [h]

theorem waiting_of_runs {s : State} {k : Fin 32} {r : Record} {i : Instr} (hr : Runs s k r i) : (s.core k.val).waiting = false := by
  obtain ⟨⟨_, _, hword⟩, _⟩ := hr
  obtain ⟨_, _, hwait, _⟩ := hword
  exact hwait

/-- What a core keeps and takes as it enters an event. -/
theorem enterEvent_fields (s : State) (r : Record) (img : Bytes) (c : Core) :
    (s.enterEvent r img c).bank = 1 ∧ (s.enterEvent r img c).pc = imgEvec img ∧ (s.enterEvent r img c).late = c.late ∧ (s.enterEvent r img c).ret = c.ret ∧
      (s.enterEvent r img c).pos = c.pos ∧ (s.enterEvent r img c).mem = c.mem ∧ (s.enterEvent r img c).acc = c.acc ∧ (s.enterEvent r img c).waiting = false ∧
      (s.enterEvent r img c).dreg 1 = (if s.blockCount r img ≤ c.events then 2 else 1) ∧ (s.enterEvent r img c).ended = decide (s.blockCount r img ≤ c.events) := by
  refine ⟨rfl, rfl, rfl, rfl, rfl, rfl, rfl, rfl, ?_, rfl⟩
  unfold State.enterEvent
  by_cases h : s.blockCount r img ≤ c.events <;> simp [h, Core.dreg, Core.putA, List.zipIdx]

theorem completes_sync_event {s : State} {k : Fin 32} {r : Record} (hr : RunsFree s k r (.sync k)) {c : Core} (hc : c = (s.core k.val).settle) (hbank : c.bank = 0) (hended : c.ended = false)
    (hblock : s.blockCount r (s.imageOf c.prog r) ≤ c.events ∨ c.events < c.inPlace) :
    Completes (.sync k) s fun t => RanOn s t k.val ∧
      t.core k.val = { s.enterEvent r (s.imageOf c.prog r) { c.flush with ret := c.pc + 1 } with pos := (s.enterEvent r (s.imageOf c.prog r) { c.flush with ret := c.pc + 1 }).pos + 1 } := by
  subst hc
  refine completes_jump hr rfl (by rw [exec_sync, execSync]) ?_ rfl
  rw [Core.settle_prog] at hblock ⊢
  rw [if_neg (by simp [hbank, hended]), if_pos hblock]

theorem resultBytes_eq (c : Core) : State.resultBytes c = ((List.range 19).flatMap fun i => natLE 3 (tabGet 0 c.mem (0xE8A0 + i))).take 56 := by
  have hword (i : Nat) (hi : i ∈ List.range 19) : c.word (0xE8A0 + i) = tabGet 0 c.mem (0xE8A0 + i) := by
    rw [Core.word, Nat.mod_eq_of_lt]
    have := List.mem_range.mp hi
    omega
  rw [State.resultBytes, List.flatMap_congr fun i hi => congrArg (natLE 3) (hword i hi)]

theorem exec_halt_of_user {s : State} {k : Fin 32} {r : Record} (hdeck : s.deckStopped = false) (hrec : s.coreRecord (s.core k.val) = some r) (hlo : 0x8000 ≤ (s.core k.val).prog) :
    exec (.halt k) s = runInstr k.val (encPlain 0x01) true (fun _ _ _ x => .halt x.flush) s := by
  rw [exec_halt, execHalt, if_neg (by simp [hdeck])]
  simp only [hrec]
  rw [if_neg (by omega)]

/-- Settles O30. -/
theorem eventsAndHalt : Obligations.EventsAndHalt := by
  rintro s k r c hc
  refine ⟨fun hr hbank hended hblock => ?_, fun hr hbank hended hevents hplace => ?_, fun hr hbank => ?_, fun hr => ?_, fun hdeck hrec hprog htraps hbudget => ?_⟩
  · obtain ⟨t, ht, hran, hcore⟩ := completes_sync_event hr hc hbank hended hblock
    obtain ⟨d, flags, sticky, hflush⟩ := Core.flush_changes c
    obtain ⟨hb, hpc, hlate, hret, hpos, hmem, hacc, -, hd, he⟩ := enterEvent_fields s r (s.imageOf c.prog r) { c.flush with ret := c.pc + 1 }
    refine ⟨t, ht, hran, ?_⟩
    rw [hcore]
    refine ⟨hb, hpc, hlate.trans ?_, hret, congrArg (· + 1) (hpos.trans ?_), hmem.trans ?_, hacc.trans ?_, hd.trans ?_, he.trans ?_⟩ <;> simp [hflush]
  · subst hc
    obtain ⟨d, flags, sticky, hflush⟩ := Core.flush_changes (s.core k.val).settle
    refine ⟨_, runInstr_of_runsFree (x := .jump { (s.core k.val).settle.flush with ret := (s.core k.val).settle.pc + 1, waiting := true }) hr rfl (by rw [exec_sync, execSync]) ?_ fun _ h => (nomatch h), ?_⟩
    · rw [Core.settle_prog] at hevents
      rw [if_neg (by simp [hbank, hended]), if_neg (by omega)]
    · simp [Work.outcome, State.setCoreState, hflush, hbank]
  · subst hc
    obtain ⟨d, flags, sticky, hflush⟩ := Core.flush_changes (s.core k.val).settle
    obtain ⟨t, ht, hran, hcore⟩ := completes_jump (c := { (s.core k.val).settle.flush with bank := 0, pc := (s.core k.val).settle.ret }) hr rfl (by rw [exec_rete, execRete])
      (by simp [hbank]) (by simpa [hflush] using waiting_of_runs hr.1)
    exact ⟨t, ht, hran, by simp [hcore, hflush]⟩
  · subst hc
    obtain ⟨⟨_, _, hword⟩, _⟩ := id hr.1
    obtain ⟨hdeck, hrec, _, hlo, _⟩ := hword
    obtain ⟨d, flags, sticky, hflush⟩ := Core.flush_changes (s.core k.val).settle
    refine ⟨_, runInstr_of_runsFree hr rfl (exec_halt_of_user hdeck hrec hlo) rfl fun _ h => (nomatch h), ?_, ?_, ?_⟩
    · exact (State.core_endProgram _ _ _ _ _ _).trans (if_pos rfl)
    · exact State.coreState_endProgram _ k _ _ _
    · refine (State.record?_endProgram ((State.record?_bump _ _ _ _).trans (State.record?_of_coreRecord hrec))).trans ?_
      rw [if_pos rfl, resultBytes_eq, hflush]
  · have hexec : exec (.halt k) s = .next ((s.addObj (Key.trCoreInstr k.val) (libraryLength (s.core k.val).prog (natLE 256 (s.objAt (Key.ctxMeasParams r.ctx) r.trigger)) (s.measured r))).endProgram
        k.val r 0 (libraryResults (s.core k.val).prog (natLE 256 (s.objAt (Key.ctxMeasParams r.ctx) r.trigger)) (s.measured r))) := by
      rw [exec_halt, execHalt, if_neg (by simp [hdeck])]
      simp only [hrec]
      rw [if_pos hprog, if_neg (by simp [htraps]), if_neg (by omega)]
    exact ⟨_, hexec, (State.core_endProgram _ _ _ _ _ _).trans (if_pos rfl), _, State.record?_endProgram ((State.record?_addObj _ _ _ _ _).trans (State.record?_of_coreRecord hrec)), rfl, rfl⟩

/-- Settles O31, trap by trap. -/
theorem trestleTraps : Obligations.TrestleTraps := by
  rintro s k r c rfl
  refine ⟨fun code hr => ?_, fun w hw henc => ?_, fun sat rd ra n hr hn => ?_, fun cond target hr hcond => ?_, fun hr ht => ?_, fun hr ht hl => ?_, fun rd an off mod hr hfill => ?_,
    fun rd an off mod hr hfill harea hresults => ?_, fun hr hbank => ?_, fun hdeck hrec hwait hlo hhi hbudget hpc => ?_, fun hdeck hrec hprog htraps => ?_⟩
  · exact completes_trap (control := false) hr rfl (by rw [exec_trap, execTrap]) (fun h => nomatch h) rfl
  · have hexec : exec (.reservedOpcode k) s = runInstr k.val w false (fun _ _ _ _ => .trap 1) s := by
      obtain ⟨_, hrec, _, _, _, _, _, hat⟩ := hw
      rw [exec_reservedOpcode, execReservedOpcode]
      simp only [hrec, hat, henc]
      rfl
    exact ⟨_, hexec.trans (runInstr_of_runsWord hw (fun h => nomatch h) rfl fun _ h => nomatch h), trapped_of_runsWord 1 hw⟩
  · refine completes_trap (control := false) hr rfl (by rw [exec_shl, execShl, runRanged]) (fun h => nomatch h) ?_
    exact if_neg (by simpa using hn)
  · exact completes_trap hr.1 rfl (by rw [exec_br, execBr]) (fun _ => hr.2) (if_pos hcond)
  · exact completes_trap_slot hr rfl (by rw [exec_sync, execSync]) ht
  · obtain ⟨⟨_, _, hword⟩, _⟩ := id hr
    obtain ⟨hdeck, hrec, _, hlo, _⟩ := hword
    exact completes_trap_body hr rfl (exec_halt_of_user hdeck hrec hlo) ht hl
  · rw [← effective_eq] at hfill
    rw [Core.settle_prog] at hfill
    refine completes_trap (control := false) hr rfl (by rw [exec_ld, execLd]) (fun h => nomatch h) ?_
    simp [accessTrap, hfill]
  · rw [← effective_eq] at hfill harea hresults
    rw [Core.settle_prog] at hfill
    refine completes_trap (control := false) hr rfl (by rw [exec_st, execSt]) (fun h => nomatch h) ?_
    simp [accessTrap, hfill, harea, hresults]
  · exact completes_trap hr.1 rfl (by rw [exec_sync, execSync]) (fun _ => hr.2) (if_pos (Or.inr hbank))
  · exact ⟨_, (by rw [exec_nop, execNop, runPlain, runInstr_of_pc_outside hdeck hrec hwait hlo hbudget hpc]), trapped_trapCore 2 hrec hlo hhi⟩
  · have hexec : exec (.halt k) s = .next (s.trapCore k.val r (s.core k.val) 1) := by
      rw [exec_halt, execHalt, if_neg (by simp [hdeck])]
      simp only [hrec]
      rw [if_pos hprog, if_pos htraps]
    have htrap : s.trapCore k.val r (s.core k.val) 1 = s.endProgram k.val r 5 [] := by
      rw [State.trapCore, State.slotOf, if_neg (by omega)]
    exact ⟨_, hexec, by rw [htrap, State.core_endProgram, if_pos rfl], by rw [htrap, State.record?_endProgram (State.record?_of_coreRecord hrec)]; rfl⟩

end Sys2Proof.Machine
end

section
/-! What memory requests leave alone as they enter their queues (10 R276, R285). -/

namespace Sys2Proof.Machine.State

/-- Every entry of the dictionary's list stood there before, but those whose keys have the property. -/
def ListsBut (P : Nat → Prop) (s t : State) : Prop := ∀ e ∈ t.dict, ¬P e.1 → e ∈ s.dict

section
variable {P Q : Nat → Prop} {s t u : State}

theorem ListsBut.refl (s : State) : ListsBut P s s := fun _ he _ => he

theorem ListsBut.trans (h : ListsBut P s t) (h' : ListsBut P t u) : ListsBut P s u := fun e he hk => h e (h' e he hk) hk

theorem ListsBut.mono (h : ListsBut P s t) (hPQ : ∀ k, P k → Q k) : ListsBut Q s t := fun e he hk => h e he fun hp => hk (hPQ _ hp)

theorem listsBut_of_dict (h : t.dict = s.dict) : ListsBut P s t := fun _ he _ => h ▸ he

theorem mem_tabInsert {α : Type} {k : Nat} {v : α} {t : Tab α} {e : Nat × α} (h : e ∈ tabInsert k v t) : e ∈ t ∨ e = (k, v) := by
  induction t with
  | nil => exact .inr (List.mem_singleton.mp h)
  | cons x t ih =>
    unfold tabInsert at h
    split at h
    · exact (List.mem_cons.mp h).symm
    · rcases List.mem_cons.mp h with h | h
      · exact .inl (h ▸ List.mem_cons_self)
      · exact (ih h).imp_left (List.mem_cons_of_mem _)

theorem listsBut_setObj {k : Nat} (hk : P k) (s : State) (v : Nat) : ListsBut P s (s.setObj k v) := fun e he hn => by
  have hmem : e ∈ s.dict ∨ e = (k, v % 256 ^ lenOf k) := by
    have he' : e ∈ tabSet (defaultOf k) s.dict k (v % 256 ^ lenOf k) := he
    unfold tabSet at he'
    extract_lets rest at he'
    split at he'
    · exact .inl (List.mem_filter.mp he').1
    · exact (mem_tabInsert he').imp_left fun h => (List.mem_filter.mp h).1
  rcases hmem with h | rfl
  · exact h
  · exact absurd hk hn

end

/-- The counters that a request may count: lost writes and reads, and the in-order modes entered. -/
def isMemCounter (k : Nat) : Prop := k = Key.memLostWrites ∨ k = Key.memLostReads ∨ ∃ n < 16, k = Key.memchInorder n

/-- Requests were made and nothing else: memory but for its contents, and the counters of requests. -/
def OnlyRequests (s t : State) : Prop :=
  (∃ d m, t = (s.withDict d).withMem m ∧ m.cells = s.mem.cells) ∧ (∀ k, ¬isMemCounter k → t.obj k = s.obj k) ∧
    ListsBut isMemCounter s t

theorem OnlyRequests.refl (s : State) : OnlyRequests s s := ⟨⟨s.dict, s.mem, rfl, rfl⟩, fun _ _ => rfl, .refl s⟩

theorem OnlyRequests.trans {s t u : State} (h : OnlyRequests s t) (h' : OnlyRequests t u) : OnlyRequests s u := by
  obtain ⟨⟨d, m, rfl, hm⟩, hk, hl⟩ := h
  obtain ⟨⟨d', m', rfl, hm'⟩, hk', hl'⟩ := h'
  exact ⟨⟨d', m', rfl, hm'.trans hm⟩, fun k hn => (hk' k hn).trans (hk k hn), hl.trans hl'⟩

theorem onlyRequests_withMem (s : State) {m : Mem} (hm : m.cells = s.mem.cells) : OnlyRequests s (s.withMem m) := ⟨⟨s.dict, m, rfl, hm⟩, fun _ _ => rfl, .refl s⟩

theorem onlyRequests_bump (s : State) {k : Nat} (hk : isMemCounter k) : OnlyRequests s (s.bump k) := by
  refine ⟨⟨(s.bump k).dict, s.mem, rfl, rfl⟩, fun j hj => ?_, listsBut_setObj hk s _⟩
  rw [obj_bump, if_neg]
  rintro rfl
  exact hj hk

theorem onlyRequests_foldl {α : Type} (l : List α) (f : State → α → State) (h : ∀ s x, OnlyRequests s (f s x)) (s : State) : OnlyRequests s (l.foldl f s) := by
  induction l generalizing s with
  | nil => exact .refl s
  | cons x l ih => exact (h s x).trans (ih _)

/-- A request lost on a frozen channel is counted, and its owner may be told. -/
theorem onlyRequests_loseReq (s : State) (r : MemReq) : OnlyRequests s (s.loseReq r) := by
  have hw : isMemCounter Key.memLostWrites := .inl rfl
  have hr : isMemCounter Key.memLostReads := .inr (.inl rfl)
  unfold loseReq
  split
  · have htold : OnlyRequests s (s.withMem { s.mem with lostWrites := s.mem.lostWrites ++ [(r.owner, r.addr)] }) := onlyRequests_withMem s rfl
    unfold loseWrite
    extract_lets told
    split
    · exact htold
    · split
      · exact htold.trans (onlyRequests_bump _ hw)
      · exact onlyRequests_bump _ hw
    · exact onlyRequests_bump _ hw
  · have htold : OnlyRequests s (s.withMem { s.mem with arrived := s.mem.arrived ++ [(r.owner, r.addr, zeros r.len, true)] }) := onlyRequests_withMem s rfl
    unfold loseRead
    extract_lets told
    split
    · exact htold
    · exact htold
    · exact .refl s
    · exact onlyRequests_bump _ hr
    · exact onlyRequests_bump _ hr
    · exact htold.trans (onlyRequests_bump _ hr)

theorem chanOf_lt {s : State} {a k : Nat} (h : s.chanOf a = some k) : k < 16 := by
  unfold chanOf at h
  split at h
  · cases h
  · exact List.mem_range.mp (List.mem_of_find?_eq_some h)

theorem onlyRequests_enqueue (s : State) (o : Owner) (cls : Nat) (w : Bool) (a n : Nat) (d : Bytes) (mask : List Bool) : OnlyRequests s (s.enqueue o cls w a n d mask) := by
  unfold enqueue
  extract_lets r m0 s0
  have h0 : OnlyRequests s s0 := onlyRequests_withMem s rfl
  split
  · exact h0.trans (onlyRequests_loseReq s0 r)
  · rename_i k hk
    split
    · split
      · exact h0.trans (onlyRequests_withMem s0 rfl)
      · exact h0.trans (onlyRequests_loseReq s0 r)
    · extract_lets c b row q clash enters s1
      have h1 : OnlyRequests s s1 := h0.trans (onlyRequests_withMem s0 rfl)
      split
      · exact h1.trans (onlyRequests_bump s1 (.inr (.inr ⟨k, chanOf_lt hk, rfl⟩)))
      · exact h1

theorem onlyRequests_memWrite (s : State) (o : Owner) (cls a : Nat) (d : Bytes) : OnlyRequests s (s.memWrite o cls a d) :=
  onlyRequests_foldl _ _ (fun _ _ => onlyRequests_enqueue ..) s

theorem onlyRequests_memRead (s : State) (o : Owner) (cls a n : Nat) : OnlyRequests s (s.memRead o cls a n) :=
  onlyRequests_foldl _ _ (fun _ _ => onlyRequests_enqueue ..) s

theorem onlyRequests_memTake (s : State) (cls a n : Nat) : OnlyRequests s (s.memTake cls a n).2 := onlyRequests_memRead ..

/-- Of a record in staging space only its streams change, as they are read. -/
theorem stagedRecord_changes (s : State) (r : Record) : (∃ x, (s.stagedRecord r).1 = { r with streams := x }) ∧ OnlyRequests s (s.stagedRecord r).2 := by
  unfold stagedRecord
  split
  · exact ⟨⟨_, rfl⟩, .refl s⟩
  · exact ⟨⟨_, rfl⟩, onlyRequests_memTake ..⟩

end Sys2Proof.Machine.State
end

section
/-! Units of the trestle cores: dispatch, blocks, budgets and the unloading of slots (09 R244, R248, R260, R264). -/

namespace Sys2Proof.Machine

theorem lenOf_trRecords (n : Nat) (h : n < 32) : lenOf (Key.trRecords n) = 8 := by revert n; decide

namespace State

@[simp] theorem core_updRecord (s : State) (r : Record) (k : Nat) : (s.updRecord r).core k = s.core k := rfl

@[simp] theorem obj_updRecord (s : State) (r : Record) (k : Nat) : (s.updRecord r).obj k = s.obj k := rfl

@[simp] theorem core_setCoreState (s : State) (k v j : Nat) : (s.setCoreState k v).core j = s.core j := rfl

@[simp] theorem record?_withDict (s : State) (d : Tab Nat) (c n : Nat) : (s.withDict d).record? c n = s.record? c n := rfl

/-- An update of a record is found where some record has its context and number. -/
theorem record?_updRecord_of_mem {s : State} {r r' : Record} (hmem : r ∈ s.acq.records) (hc : r.ctx = r'.ctx) (hn : r.number = r'.number) :
    (s.updRecord r').record? r'.ctx r'.number = some r' := by
  have hsome : (s.record? r'.ctx r'.number).isSome = true := List.find?_isSome.mpr ⟨r, hmem, by simp [hc, hn]⟩
  obtain ⟨x, hx⟩ := Option.isSome_iff_exists.mp hsome
  exact record?_updRecord hx

@[simp] theorem core_withDict (s : State) (d : Tab Nat) (k : Nat) : (s.withDict d).core k = s.core k := rfl

/-- A slot counts a record that it serves, where the program is a user's. -/
def countSlot (s : State) (prog : Nat) : State := match slotOf prog with | some n => s.bump (Key.trRecords n) | none => s

theorem countSlot_changes (s : State) (prog : Nat) : ∃ d, s.countSlot prog = s.withDict d := by
  unfold countSlot
  split
  · exact ⟨_, rfl⟩
  · exact ⟨s.dict, rfl⟩

theorem obj_countSlot_of_ne (s : State) (prog : Nat) {j : Nat} (h : ∀ n < 32, j ≠ Key.trRecords n) : (s.countSlot prog).obj j = s.obj j := by
  unfold countSlot slotOf
  split
  · rename_i n hn
    split at hn
    · obtain rfl := Option.some.inj hn
      exact (obj_bump s _ j).trans (if_neg (h _ (by omega)))
    · cases hn
  · rfl

/-- A core as it takes a record: a library program needs nothing of its image. -/
def dispatchedCore (s : State) (r : Record) (prog : Nat) : Core :=
  if prog < 0x8000 then { record := some (r.ctx, r.number), prog := prog }
  else { record := some (r.ctx, r.number), prog := prog, pc := imgEntry (s.imageOf prog r), mem := s.coreMemory r (s.imageOf prog r) }

theorem dispatchedCore_fields (s : State) (r : Record) (prog : Nat) :
    (s.dispatchedCore r prog).record = some (r.ctx, r.number) ∧ (s.dispatchedCore r prog).pos = 0 ∧ (s.dispatchedCore r prog).bank = 0 := by
  unfold dispatchedCore
  split <;> exact ⟨rfl, rfl, rfl⟩

/-- A core takes a record whose samples have been read. -/
def dispatched (s : State) (k : Nat) (r : Record) (prog : Nat) : State :=
  ((((s.putCore k (s.dispatchedCore r prog)).setCoreState k 1).updRecord { r with running := true }).countSlot prog).refreshAcq

theorem core_dispatched (s : State) (k : Nat) (r : Record) (prog j : Nat) : (s.dispatched k r prog).core j = if j = k then s.dispatchedCore r prog else s.core j := by
  obtain ⟨d, h⟩ := countSlot_changes (((s.putCore k (s.dispatchedCore r prog)).setCoreState k 1).updRecord { r with running := true }) prog
  rw [dispatched, h, core_refreshAcq, core_withDict, core_updRecord, core_setCoreState, core_putCore]

theorem coreState_dispatched (s : State) (k : Fin 32) (r : Record) (prog : Nat) : (s.dispatched k.val r prog).obj (Key.trCoreState k.val) = 1 := by
  have hk := k.isLt
  rw [dispatched, obj_refreshAcq_of_ne, obj_countSlot_of_ne]
  · rw [obj_updRecord, setCoreState, obj_setObj, if_pos rfl, lenOf_trCoreState _ hk]
    decide
  all_goals
    simp only [Key.trRecords, Key.trCoreState, Key.acqStageUsed, Key.acqOpen, Key.trQueue]
    omega

theorem record?_dispatched {s : State} (k : Nat) {r r0 : Record} (prog : Nat) (hmem : r0 ∈ s.acq.records) (hc : r0.ctx = r.ctx) (hn : r0.number = r.number) :
    (s.dispatched k r prog).record? r.ctx r.number = some { r with running := true } := by
  obtain ⟨d, hd⟩ := countSlot_changes (((s.putCore k (s.dispatchedCore r prog)).setCoreState k 1).updRecord { r with running := true }) prog
  have hmem' : r0 ∈ ((s.putCore k (s.dispatchedCore r prog)).setCoreState k 1).acq.records := hmem
  rw [dispatched, hd, record?_refreshAcq, record?_withDict]
  exact record?_updRecord_of_mem (r' := { r with running := true }) hmem' hc hn

end State

theorem completes_trestleDispatch {s : State} {k : Fin 32} {r : Record} (hdeck : s.deckStopped = false) (hcore : (s.core k.val).record = none)
    (hfind : (s.acq.records.find? fun r => r.state == 1 && !r.running) = some r) :
    Completes (.trestleDispatch k) s fun t => (t.core k.val).record = some (r.ctx, r.number) ∧ (t.core k.val).pos = 0 ∧ (t.core k.val).bank = 0 ∧ t.obj (Key.trCoreState k.val) = 1 ∧
      (∃ r', t.record? r.ctx r.number = some r' ∧ r'.running = true ∧ r'.streams = (s.stagedRecord r).1.streams) ∧ ∀ j, j ≠ k.val → t.core j = s.core j := by
  obtain ⟨⟨x, hx⟩, ⟨d, m, hs, -⟩, -⟩ := State.stagedRecord_changes s r
  have hexec : exec (.trestleDispatch k) s =
      .next ((s.stagedRecord r).2.dispatched k.val (s.stagedRecord r).1 ((s.stagedRecord r).2.objAt (Key.ctxMeasProg (s.stagedRecord r).1.ctx) (s.stagedRecord r).1.trigger)) := by
    rw [exec_trestleDispatch, execTrestleDispatch, if_neg (by simp [hdeck])]
    simp only [hcore, hfind]
    rfl
  generalize (s.stagedRecord r).2.objAt (Key.ctxMeasProg (s.stagedRecord r).1.ctx) (s.stagedRecord r).1.trigger = prog at hexec
  have hacq : (s.stagedRecord r).2.acq.records = s.acq.records := by rw [hs]; rfl
  have hcores (j : Nat) : (s.stagedRecord r).2.core j = s.core j := by rw [hs]; rfl
  have hc : r.ctx = (s.stagedRecord r).1.ctx := by rw [hx]
  have hn : r.number = (s.stagedRecord r).1.number := by rw [hx]
  obtain ⟨hrecord, hpos, hbank⟩ := State.dispatchedCore_fields (s.stagedRecord r).2 (s.stagedRecord r).1 prog
  refine ⟨_, hexec, ?_⟩
  simp only [State.core_dispatched, if_pos, State.coreState_dispatched]
  rw [hc, hn]
  refine ⟨hrecord, hpos, hbank, trivial, ⟨_, State.record?_dispatched k.val prog ?_ hc hn, rfl, rfl⟩, fun j hj => (if_neg hj).trans (hcores j)⟩
  rw [hacq]
  exact List.mem_of_find?_eq_some hfind

/-- Settles O25, command by command. -/
theorem trestleUnits : Obligations.TrestleUnits := by
  refine ⟨fun s k r hdeck hcore hfind => completes_trestleDispatch hdeck hcore hfind, fun s k hcore => ?_, fun s k r hdeck hrec hlo hblock hplace hwait => ?_,
    fun s k r hdeck hrec hlo hhi hbudget hwait => ?_, fun s n T hdue => ?_⟩
  · rw [exec_trestleDispatch, execTrestleDispatch]
    obtain ⟨x, hx⟩ := Option.ne_none_iff_exists'.mp hcore
    simp [hx]
  · refine ⟨_, by rw [exec_blockDelivered, execBlockDelivered, if_neg (by simp [hdeck])]; simp only [hrec]; rw [if_neg (by omega), if_neg (by simp [hwait])], ?_⟩
    simp
    rfl
  · have hn : (s.core k.val).prog - 0x8000 < 32 := by omega
    have hexec : exec (.budgetExhausted k) s = .next ((s.bump (Key.trBudgets ((s.core k.val).prog - 0x8000))).endProgram k.val r 4 []) := by
      rw [exec_budgetExhausted, execBudgetExhausted, if_neg (by simp [hdeck])]
      simp only [hrec]
      rw [if_neg (by omega), if_neg (by simp [hwait]; omega), State.slotOf, if_pos ⟨hlo, hhi⟩]
    refine ⟨_, hexec, (State.core_endProgram _ _ _ _ _ _).trans (if_pos rfl), State.record?_endProgram ((State.record?_bump _ _ _ _).trans (State.record?_of_coreRecord hrec)), ?_⟩
    generalize (s.core k.val).prog - 0x8000 = n at hn ⊢
    have hk := k.isLt
    rw [State.obj_endProgram_of_ne, State.obj_bump, if_pos rfl, lenOf_trBudgets n hn]
    all_goals
      simp only [Key.trBudgets, Key.trCoreState, Key.acqStageUsed, Key.acqOpen, Key.trQueue]
      omega
  · have hli : Key.trImage n.val ≠ Key.trLoaded n.val := by simp [Key.trImage, Key.trLoaded]
    have hld : Key.trLoaded n.val ≠ Key.trDigest n.val := by simp [Key.trDigest, Key.trLoaded]
    have hid : Key.trImage n.val ≠ Key.trDigest n.val := by simp [Key.trDigest, Key.trImage]
    have hexec : exec (.trClear n) s = .next (((((s.withDue []).withUndo (s.undo ++ [(T, Key.trImage n.val, s.obj (Key.trImage n.val))])).setObj (Key.trImage n.val) 0).setObj (Key.trLoaded n.val) 0).setObj
        (Key.trDigest n.val) 0) := by
      rw [exec_trClear, execTrClear]
      simp only [hdue, List.find?_cons, beq_self_eq_true]
      simp
    refine ⟨_, hexec, rfl, ?_, ?_, ?_, rfl, fun j hj => ?_⟩
    · simp only [State.obj_setObj, hid, hli, if_true, if_false, Nat.zero_mod]
    · simp only [State.obj_setObj, hld, if_true, if_false, Nat.zero_mod]
    · simp only [State.obj_setObj, if_true, Nat.zero_mod]
    · simp only [List.mem_cons, List.not_mem_nil, not_or, or_false] at hj
      simp [hj]

end Sys2Proof.Machine
end

section
/-! The cases of a write of ring.slabs (11 R304), and the order that a bank keeps (10 R277, R278). -/

namespace Sys2Proof.Machine

namespace State

/-! ### ring.slabs -/

theorem slabsOk_eq_false_iff (s : State) (n : Nat) :
    s.slabsOk n = false ↔ n ≠ 0 ∧ (n < 4096 ∨ 475136 < n ∨ s.obj Key.memFixedSize = 0 ∨ (s.obj Key.memSize - s.obj Key.memFixedSize) / 4194304 < n) := by
  unfold slabsOk regionSlabs
  by_cases hf : s.obj Key.memFixedSize = 0
  · simp [hf]
    omega
  · simp [hf, memSize]
    omega

theorem anySelected_iff (s : State) : s.anySelected = true ↔ s.obj Key.ringSelectRaw ≠ 0 ∨ s.obj Key.ringSelectFe ≠ 0 ∨
    ∃ g ∈ s.groups, ∃ w ∈ g.writes, (w.1 = Key.ringSelectRaw ∨ w.1 = Key.ringSelectFe) ∧ w.2 ≠ 0 := by
  simp [anySelected, or_assoc]

theorem anyCapturing_iff (s : State) : s.anyCapturing = true ↔ ∃ r ∈ s.acq.records, r.state = 0 := by simp [anyCapturing]

theorem act_of_ready {s : State} {f : State → Code × State} {c : Code} {t : State} (hready : s.ready = true) (h : f s = (c, t)) : s.act f = t.withResult c := by
  simp [act, onReceipt, hready, h]

/-- A choice that keeps what it has or takes the next takes one of the list. -/
theorem mem_of_foldl_choice {α : Type} (f : Option α → α → Option α) (hf : ∀ b r, f b r = b ∨ f b r = some r) (l : List α) (b : Option α) (x : α) (h : l.foldl f b = some x) :
    x ∈ l ∨ b = some x := by
  induction l generalizing b with
  | nil => exact .inr h
  | cons r l ih =>
    rcases ih _ h with hl | hb
    · exact .inl (List.mem_cons_of_mem r hl)
    · rcases hf b r with hkeep | htake
      · exact .inr (hkeep.symm.trans hb)
      · exact .inl (Option.some.inj (htake.symm.trans hb) ▸ List.mem_cons_self)

/-- A request that may be issued passes every earlier one of its bank. -/
theorem split_of_mem_issuable {s : State} {k : Nat} {x : MemReq} (l earlier : List MemReq) (h : x ∈ s.issuable k earlier l) :
    ∃ l1 l2, l = l1 ++ x :: l2 ∧ s.mayPass k (earlier ++ l1) x = true := by
  induction l generalizing earlier with
  | nil => cases h
  | cons r l ih =>
    rcases List.mem_append.mp h with hr | hl
    · split at hr
      · rename_i hpass
        obtain rfl := List.mem_singleton.mp hr
        exact ⟨[], l, rfl, by simpa using hpass⟩
      · cases hr
    · obtain ⟨l1, l2, rfl, hpass⟩ := ih _ hl
      exact ⟨r :: l1, l2, rfl, by simpa using hpass⟩

end State

/-- Settles O36: the refusals and the two ends, in the order of R304. -/
theorem ringSlabsCases : Obligations.RingSlabsCases := by
  intro s n hready hn
  rw [exec_ringSlabs, execRingSlabs]
  have hfixed : (n ≠ 0 ∧ s.groups.any (fun g => s.staged g Key.memFixedSize != s.before g Key.memFixedSize) = true) ↔
      n ≠ 0 ∧ ∃ g ∈ s.groups, s.staged g Key.memFixedSize ≠ s.before g Key.memFixedSize := by simp
  have hslabs : (!s.slabsOk n) = true ↔ _ := (by simp : (!s.slabsOk n) = true ↔ s.slabsOk n = false).trans (s.slabsOk_eq_false_iff n)
  refine congrArg Host.Outcome.next ?_
  simp only [← hfixed, ← hslabs, ← s.anySelected_iff, ← s.anyCapturing_iff]
  split_ifs with h1 h2 h3 h4 h5
  · exact State.act_of_ready hready (by simp only [immRingSlabs, if_pos h1])
  · exact State.act_of_ready hready (by simp only [immRingSlabs, if_neg h1, if_pos h2])
  · exact State.act_of_ready hready (by simp only [immRingSlabs, if_neg h1, if_neg h2, if_pos h3])
  · exact State.act_of_ready hready (by simp only [immRingSlabs, if_neg h1, if_neg h2, if_neg h3, if_pos h4])
  · exact State.act_of_ready hready (by simp only [immRingSlabs, if_neg h1, if_neg h2, if_neg h3, if_neg h4, if_pos h5])
  · exact State.act_of_ready hready (by simp only [immRingSlabs, if_neg h1, if_neg h2, if_neg h3, if_neg h4, if_neg h5]; rfl)

/-- Settles O34: in in-order mode the head of the bank's requests, else one that may pass those before it. -/
theorem serviceKeepsOrder : Obligations.ServiceKeepsOrder := by
  intro s k b r hpick
  unfold State.pick at hpick
  extract_lets c mine at hpick
  split at hpick
  · rename_i hmode
    obtain ⟨l2, hmine⟩ := List.head?_eq_some_iff.mp hpick
    exact ⟨[], l2, hmine, fun _ => rfl, fun _ _ h => nomatch h⟩
  · rename_i hmode
    have hchoice : r ∈ s.issuable k [] mine ∨ (none : Option MemReq) = some r := by
      refine State.mem_of_foldl_choice _ (fun best x => ?_) _ _ _ hpick
      cases best with
      | none => exact .inr rfl
      | some y => by_cases h : s.precedence k x < s.precedence k y <;> simp [h]
    rcases hchoice with hmem | hnone
    · obtain ⟨l1, l2, hmine, hpass⟩ := State.split_of_mem_issuable mine [] hmem
      refine ⟨l1, l2, hmine, fun h => absurd h hmode, fun hw e he => ?_⟩
      simp only [State.mayPass, hw, List.nil_append, Bool.not_true, Bool.false_or, List.all_eq_true] at hpass
      have := hpass e he
      cases hwrite : e.write <;> simp_all
    · cases hnone

end Sys2Proof.Machine
end

section
/-! A density counts every point, or a saturation (06 R165, R166). -/

namespace Sys2Proof.Machine

theorem tabInsert_perm {α : Type} (k : Nat) (v : α) (t : Tab α) : (tabInsert k v t).Perm ((k, v) :: t) := by
  induction t with
  | nil => exact .refl _
  | cons e t ih =>
    obtain ⟨k', v'⟩ := e
    simp only [tabInsert]
    split
    · exact .refl _
    · exact (ih.cons _).trans (.swap ..)

theorem tabGet_eq_default_of_keysAbove {α : Type} {d : α} {k : Nat} {t : Tab α} (h : keysAbove k t) : tabGet d t k = d := by
  induction t with
  | nil => rfl
  | cons e t ih =>
    obtain ⟨k', v'⟩ := e
    have hk : k < k' := h (k', v') List.mem_cons_self
    rw [tabGet, if_neg hk.ne]
    exact ih fun e he => h e (List.mem_cons_of_mem _ he)

/-- A table gives its default or what one of its entries holds. -/
theorem tabGet_eq_default_or_mem {α : Type} (d : α) (t : Tab α) (k : Nat) : tabGet d t k = d ∨ (k, tabGet d t k) ∈ t := by
  induction t with
  | nil => exact .inl rfl
  | cons e t ih =>
    obtain ⟨k', v'⟩ := e
    rw [tabGet]
    split
    · rename_i h
      exact .inr (h ▸ List.mem_cons_self)
    · exact ih.imp_right (List.mem_cons_of_mem _)

theorem filter_ne_of_keysAbove {α : Type} {k : Nat} {t : Tab α} (h : keysAbove k t) : t.filter (fun e => e.1 != k) = t :=
  List.filter_eq_self.mpr fun e he => by simpa using (h e he).ne'

/-- The entries but one add up to the total less that one. -/
theorem sum_filter_ne {t : Tab Int} (h : tabWf 0 t = true) (k : Nat) : ((t.filter fun e => e.1 != k).map (·.2)).sum = (t.map (·.2)).sum - tabGet 0 t k := by
  induction t with
  | nil => simp [tabGet]
  | cons e t ih =>
    obtain ⟨k', v'⟩ := e
    obtain ⟨-, habove, hwf⟩ := (tabWf_cons _ _ _ _).mp h
    by_cases hk : k' = k
    · subst hk
      simp [tabGet, filter_ne_of_keysAbove habove]
    · have hb : (k' != k) = true := by simpa using hk
      simp only [List.filter_cons, hb, if_true, List.map_cons, List.sum_cons, ih hwf, tabGet, if_neg (Ne.symm hk)]
      omega

theorem sum_tabSet {t : Tab Int} (h : tabWf 0 t = true) (k : Nat) (v : Int) : ((tabSet 0 t k v).map (·.2)).sum = (t.map (·.2)).sum - tabGet 0 t k + v := by
  unfold tabSet
  extract_lets rest
  have hrest : (rest.map (·.2)).sum = (t.map (·.2)).sum - tabGet 0 t k := sum_filter_ne h k
  split
  · rename_i hv
    rw [hrest, hv, add_zero]
  · rw [((tabInsert_perm k v rest).map _).sum_eq, List.map_cons, List.sum_cons, hrest, add_comm]

theorem mem_of_mem_tabSet {α : Type} [DecidableEq α] {d : α} {t : Tab α} {k : Nat} {v : α} {e : Nat × α} (h : e ∈ tabSet d t k v) : e ∈ t ∨ e = (k, v) := by
  unfold tabSet at h
  extract_lets rest at h
  split at h
  · exact .inl (List.mem_of_mem_filter h)
  · rcases List.mem_cons.mp ((tabInsert_perm k v rest).mem_iff.mp h) with rfl | hrest
    · exact .inr rfl
    · exact .inl (List.mem_of_mem_filter hrest)

/-- Cells in their range, in canonical form, with n points counted or saturated beyond those of another table. -/
def DensityCells (start : Tab Int) (n : Nat) (x : Tab Int × Nat × Nat) : Prop :=
  tabWf 0 x.1 = true ∧ (∀ e ∈ x.1, 0 ≤ e.2 ∧ e.2 ≤ 65535) ∧ (x.1.map (·.2)).sum + (x.2.2 : Int) = (start.map (·.2)).sum + n

/-- A point counts in its cell, or as a saturation. -/
theorem DensityCells.count {start cs : Tab Int} {n clips sats : Nat} (h : DensityCells start n (cs, clips, sats)) (c clips' : Nat) :
    DensityCells start (n + 1) (if tabGet 0 cs c < 65535 then (tabSet 0 cs c (tabGet 0 cs c + 1), clips', sats) else (cs, clips', sats + 1)) := by
  obtain ⟨hwf, hrange, hsum⟩ := h
  dsimp only at hwf hrange hsum
  split
  · rename_i hlt
    have hnonneg : 0 ≤ tabGet 0 cs c := by
      rcases tabGet_eq_default_or_mem (0 : Int) cs c with h0 | hmem
      · exact h0.ge
      · exact (hrange _ hmem).1
    refine ⟨tabWf_tabSet _ _ _ _ hwf, fun e he => ?_, ?_⟩
    · rcases mem_of_mem_tabSet he with hold | rfl
      · exact hrange e hold
      · exact ⟨by dsimp only; omega, by dsimp only; omega⟩
    · rw [sum_tabSet hwf]
      push_cast
      omega
  · refine ⟨hwf, hrange, ?_⟩
    push_cast
    omega

theorem densityCells_foldl (top : Int) (step nc nr dc : Nat) (start : Tab Int) (l : List (Int × Nat)) (n : Nat) (x : Tab Int × Nat × Nat) (h : DensityCells start n x) :
    DensityCells start (n + l.length) (l.foldl (fun (cs, clips, sats) (w, i) =>
      let (c, clip) := State.densCell top step nc nr dc i w
      let v := tabGet 0 cs c
      if v < 65535 then (tabSet 0 cs c (v + 1), clips + b2n clip, sats) else (cs, clips + b2n clip, sats + 1)) x) := by
  induction l generalizing n x with
  | nil => exact h
  | cons p l ih =>
    obtain ⟨w, i⟩ := p
    obtain ⟨cs, clips, sats⟩ := x
    have := ih (n + 1) _ (h.count (State.densCell top step nc nr dc i w).1 (clips + b2n (State.densCell top step nc nr dc i w).2))
    rw [List.length_cons, List.foldl_cons, Nat.add_comm l.length, ← Nat.add_assoc]
    exact this

/-- Settles O18, by induction on the points. -/
theorem densityCountsEveryPoint : Obligations.DensityCountsEveryPoint := by
  intro top step nc nr dc cells words hwf hrange
  have hstart : DensityCells cells 0 (cells, 0, 0) := ⟨hwf, hrange, by simp⟩
  have h := densityCells_foldl top step nc nr dc cells words.zipIdx 0 _ hstart
  rw [List.length_zipIdx, Nat.zero_add] at h
  exact h

end Sys2Proof.Machine
end

section
/-! A record is cut into packets (14 R389, R392). -/

namespace Sys2Proof.Machine

/-! ### Pieces of a byte image -/

theorem flatten_pieces {n : Nat} (hn : 1 ≤ n) (fuel : Nat) (b : Bytes) (h : b.length < fuel) : (pieces n fuel b).flatten = b := by
  induction fuel generalizing b with
  | zero => omega
  | succ fuel ih =>
    rw [pieces]
    split
    · simp
    · have hshort : (b.drop n).length < fuel := by rw [List.length_drop]; omega
      rw [List.flatten_cons, ih _ hshort, List.take_append_drop]

theorem pieces_ne_nil (n fuel : Nat) (b : Bytes) (h : b.length < fuel) : pieces n fuel b ≠ [] := by
  cases fuel with
  | zero => omega
  | succ fuel =>
    rw [pieces]
    split <;> simp

/-- Every piece holds something and no more than n bytes, and every one but the last is full. -/
theorem length_of_getElem?_pieces {n : Nat} (hn : 1 ≤ n) (fuel : Nat) (b : Bytes) (h : b.length < fuel) (hb : b ≠ []) (i : Nat) (p : Bytes) (hp : (pieces n fuel b)[i]? = some p) :
    1 ≤ p.length ∧ p.length ≤ n ∧ (i + 1 < (pieces n fuel b).length → p.length = n) := by
  induction fuel generalizing b i with
  | zero => omega
  | succ fuel ih =>
    have hpos := List.length_pos_iff.mpr hb
    rw [pieces] at hp ⊢
    split at hp
    · rename_i hle
      rw [if_pos hle]
      obtain ⟨rfl, rfl⟩ : i = 0 ∧ b = p := by simpa [List.getElem?_singleton] using hp
      simp only [List.length_singleton]
      omega
    · rename_i hgt
      rw [if_neg hgt]
      cases i with
      | zero =>
        obtain rfl : b.take n = p := by simpa using hp
        rw [List.length_take]
        omega
      | succ i =>
        have hdrop : (b.drop n).length = b.length - n := List.length_drop
        have hrest : b.drop n ≠ [] := List.length_pos_iff.mp (by omega)
        obtain ⟨h1, h2, h3⟩ := ih (b.drop n) (by omega) hrest i (by simpa using hp)
        exact ⟨h1, h2, fun hlt => h3 (by simpa using hlt)⟩

/-! ### The Class ID -/

theorem classLow_bits (first last : Bool) {sid : Nat} (hsid : sid < 2 ^ 32) (format : Nat) :
    Nat.testBit (classLow first last sid format) 15 = first ∧ Nat.testBit (classLow first last sid format) 14 = last ∧ classLow first last sid format / 65536 = 1 ∧
      classLow first last sid format / 256 % 64 = sid / 2 ^ 28 ∧ classLow first last sid format % 256 = format % 256 := by
  have hs : sid / 2 ^ 28 < 16 := by omega
  have hf : format % 256 < 256 := Nat.mod_lt _ (by decide)
  simp only [Nat.testBit_eq_decide_div_mod_eq, classLow]
  generalize sid / 2 ^ 28 = x at hs
  generalize format % 256 = y at hf
  cases first <;> cases last <;> simp only [b2n, decide_eq_true_eq, decide_eq_false_iff_not] <;> simp <;> omega

/-- Settles O52. -/
theorem recordsIntoPackets : Obligations.RecordsIntoPackets := by
  rintro n r ps hn hne hsid rfl
  have hmax : max 1 n = n := by omega
  unfold recordPackets
  rw [hmax]
  extract_lets bodies
  have hlen : r.first.length < r.first.length + 1 := Nat.lt_succ_self _
  refine ⟨?_, fun i p hp => ?_⟩
  · have hflat : bodies.flatten = r.first := flatten_pieces hn _ _ hlen
    have hmap : (bodies.zipIdx.map fun x => x.1) = bodies := List.zipIdx_map_fst 0 bodies
    rw [List.flatMap_map, List.flatMap_def, hmap, hflat]
  · obtain ⟨b, hb, rfl⟩ : ∃ b, bodies[i]? = some b ∧ _ = p := by
      simpa [List.getElem?_map, List.getElem?_zipIdx] using hp
    obtain ⟨hpos, hle, hfull⟩ := length_of_getElem?_pieces hn _ _ hlen hne i b hb
    obtain ⟨h15, h14, hcls, hsrc, hfmt⟩ := classLow_bits (i == 0) (i + 1 == bodies.length) hsid r.format
    rw [List.length_map, List.length_zipIdx]
    exact ⟨rfl, rfl, rfl, rfl, hfull, hpos, hle, h15, h14, hcls, hsrc, hfmt⟩

end Sys2Proof.Machine
end

section
/-! Unicast routes come one hop nearer at every node (15 R400, R401, R410). -/

namespace Sys2Proof.Machine

namespace State

/-! ### Rings -/

theorem ringUp_eq {n a b : Nat} (ha : a < n) (hb : b < n) : ringUp n a b = if a ≤ b then b - a else b + n - a := by
  rw [ringUp, Nat.max_eq_right (by omega), Nat.mod_eq_of_lt ha]
  split
  · rw [show b + n - a = (b - a) + n by omega, Nat.add_mod_right, Nat.mod_eq_of_lt (by omega)]
  · exact Nat.mod_eq_of_lt (by omega)

theorem ringUp_eq_zero_iff {n a b : Nat} (ha : a < n) (hb : b < n) : ringUp n a b = 0 ↔ a = b := by
  rw [ringUp_eq ha hb]
  split <;> omega

theorem step_mod {n a : Nat} (ha : a < n) (up : Bool) :
    (a + if up then 1 else n - 1) % n = if up then (if a + 1 = n then 0 else a + 1) else (if a = 0 then n - 1 else a - 1) := by
  cases up
  · by_cases h0 : a = 0
    · simp [h0, Nat.mod_eq_of_lt (show n - 1 < n by omega)]
    · rw [if_neg (by decide), if_neg (by decide), if_neg h0, show a + (n - 1) = (a - 1) + n by omega, Nat.add_mod_right, Nat.mod_eq_of_lt (by omega)]
  · by_cases hn : a + 1 = n
    · simp [hn]
    · simpa [hn] using Nat.mod_eq_of_lt (show a + 1 < n by omega)

/-- A step the shorter way round a ring comes one nearer. -/
theorem ring_step_nearer {n a b : Nat} (ha : a < n) (hb : b < n) (hne : a ≠ b) :
    (a + if 2 * ringUp n a b ≤ n then 1 else n - 1) % n < n ∧
      min (ringUp n ((a + if 2 * ringUp n a b ≤ n then 1 else n - 1) % n) b) (ringUp n b ((a + if 2 * ringUp n a b ≤ n then 1 else n - 1) % n)) + 1 = min (ringUp n a b) (ringUp n b a) := by
  have hlt : (a + if 2 * ringUp n a b ≤ n then 1 else n - 1) % n < n := Nat.mod_lt _ (by omega)
  refine ⟨hlt, ?_⟩
  have hstep := step_mod ha (decide (2 * ringUp n a b ≤ n))
  simp only [decide_eq_true_eq] at hstep
  generalize (a + if 2 * ringUp n a b ≤ n then 1 else n - 1) % n = c at hlt hstep ⊢
  rw [ringUp_eq hlt hb, ringUp_eq hb hlt, ringUp_eq ha hb, ringUp_eq hb ha]
  rw [ringUp_eq ha hb] at hstep
  split_ifs at hstep ⊢ <;> omega

/-! ### Nodes by column and global row -/

/-- A node is given by its column and its global row. -/
theorem isNode_iff (s : State) (d : Nat) : s.isNode d = true ↔ d < 512 ∧ nodeX d < s.obj Key.spanX ∧ nodeRow d < s.obj Key.spanY ∧ nodeSpan d < s.obj Key.spanCount := by
  simp [isNode, and_assoc]

theorem globalRow_lt {s : State} {d : Nat} (h : s.isNode d = true) : s.globalRow d < s.obj Key.spanY * s.obj Key.spanCount := by
  obtain ⟨-, -, hrow, hspan⟩ := (s.isNode_iff d).mp h
  unfold globalRow
  have := Nat.mul_le_mul_right (s.obj Key.spanY) (Nat.succ_le_of_lt hspan)
  rw [Nat.succ_mul, Nat.mul_comm (s.obj Key.spanCount)] at this
  omega

theorem eq_of_nodeX_of_globalRow {s : State} {d e : Nat} (hd : s.isNode d = true) (he : s.isNode e = true) (hx : nodeX d = nodeX e) (hrow : s.globalRow d = s.globalRow e) : d = e := by
  obtain ⟨hd512, -, hdrow, -⟩ := (s.isNode_iff d).mp hd
  obtain ⟨he512, -, herow, -⟩ := (s.isNode_iff e).mp he
  have hdiv (n : Nat) (h : nodeRow n < s.obj Key.spanY) : s.globalRow n / s.obj Key.spanY = nodeSpan n ∧ s.globalRow n % s.obj Key.spanY = nodeRow n := by
    unfold globalRow
    rw [Nat.add_comm, Nat.add_mul_div_right _ _ (by omega), Nat.div_eq_of_lt h, Nat.add_mul_mod_self_right, Nat.mod_eq_of_lt h, Nat.zero_add]
    exact ⟨rfl, rfl⟩
  obtain ⟨hds, hdr⟩ := hdiv d hdrow
  obtain ⟨hes, her⟩ := hdiv e herow
  have hspan : nodeSpan d = nodeSpan e := by rw [← hds, ← hes, hrow]
  have hnode : nodeRow d = nodeRow e := by rw [← hdr, ← her, hrow]
  unfold nodeX nodeRow nodeSpan at *
  omega

theorem nodeAt_spec {s : State} (hX : s.obj Key.spanX ≤ 8) (hY : s.obj Key.spanY ≤ 8) (hC : s.obj Key.spanCount ≤ 8) {x row : Nat} (hx : x < s.obj Key.spanX)
    (hrow : row < s.obj Key.spanY * s.obj Key.spanCount) : s.isNode (s.nodeAt x row) = true ∧ nodeX (s.nodeAt x row) = x ∧ s.globalRow (s.nodeAt x row) = row := by
  have hpos : 0 < s.obj Key.spanY := Nat.pos_of_ne_zero fun h => by simp [h] at hrow
  have hmod := Nat.mod_lt row hpos
  have hdiv : row / s.obj Key.spanY < s.obj Key.spanCount := Nat.div_lt_of_lt_mul hrow
  have hjoin := Nat.div_add_mod row (s.obj Key.spanY)
  rw [Nat.mul_comm] at hjoin
  rw [isNode_iff, globalRow, nodeAt, Nat.max_eq_right hpos]
  generalize row / s.obj Key.spanY = q at hdiv hjoin
  generalize row % s.obj Key.spanY = r at hmod hjoin
  have hq : nodeSpan (q * 64 + r * 8 + x) = q := by unfold nodeSpan; omega
  have hr : nodeRow (q * 64 + r * 8 + x) = r := by unfold nodeRow; omega
  have hcol : nodeX (q * 64 + r * 8 + x) = x := by unfold nodeX; omega
  rw [hq, hr, hcol]
  exact ⟨⟨by omega, hx, hmod, hdiv⟩, rfl, hjoin⟩

end State

/-- Settles O56: around the X ring first, then around the Y ring. -/
theorem unicastRoutes : Obligations.UnicastRoutes := by
  intro s d hstate hme hd hX hY hC hne
  obtain ⟨-, hmx, -, -⟩ := (s.isNode_iff _).mp hme
  obtain ⟨-, hdx, -, -⟩ := (s.isNode_iff d).mp hd
  have hmrow := State.globalRow_lt hme
  have hdrow := State.globalRow_lt hd
  have hzx := State.ringUp_eq_zero_iff hmx hdx
  have hzy := State.ringUp_eq_zero_iff hmrow hdrow
  simp only [State.unicastPort, State.neighbourOf, if_neg hstate]
  by_cases hcol : State.nodeX (s.obj Key.spanNode) = State.nodeX d
  · have hrow : s.globalRow (s.obj Key.spanNode) ≠ s.globalRow d := fun h => hne (State.eq_of_nodeX_of_globalRow hme hd hcol h).symm
    obtain ⟨hlt, hnear⟩ := State.ring_step_nearer hmrow hdrow hrow
    obtain ⟨hnode, hx, hr⟩ := State.nodeAt_spec hX hY hC hmx hlt
    have hring : ¬s.obj Key.spanY * s.obj Key.spanCount ≤ 1 := by omega
    have hport (up : Prop) [Decidable up] : (if (if up then 2 else 3 : Nat) = 2 then 1 else s.obj Key.spanY * s.obj Key.spanCount - 1) =
        if up then 1 else s.obj Key.spanY * s.obj Key.spanCount - 1 := by split <;> simp
    refine ⟨if 2 * State.ringUp (s.obj Key.spanY * s.obj Key.spanCount) (s.globalRow (s.obj Key.spanNode)) (s.globalRow d) ≤ s.obj Key.spanY * s.obj Key.spanCount then 2 else 3,
      _, ?_, ?_, hnode, fun h => absurd hcol.symm h, fun _ => ⟨hx.trans hcol, by rw [hr]; exact hnear⟩⟩
    · rw [if_neg (not_not.mpr (hzx.mpr hcol)), if_pos (fun h => hrow (hzy.mp h))]
      split <;> rfl
    · rw [if_neg (by split <;> decide), if_neg hring, hport]
  · obtain ⟨hlt, hnear⟩ := State.ring_step_nearer hmx hdx hcol
    obtain ⟨hnode, hx, hr⟩ := State.nodeAt_spec hX hY hC hlt hmrow
    have hring : ¬s.obj Key.spanX ≤ 1 := by omega
    have hport (up : Prop) [Decidable up] : (if (if up then 0 else 1 : Nat) = 0 then 1 else s.obj Key.spanX - 1) = if up then 1 else s.obj Key.spanX - 1 := by
      split <;> simp
    refine ⟨if 2 * State.ringUp (s.obj Key.spanX) (State.nodeX (s.obj Key.spanNode)) (State.nodeX d) ≤ s.obj Key.spanX then 0 else 1,
      _, ?_, ?_, hnode, fun _ => ⟨hr, by rw [hx]; exact hnear⟩, fun h => absurd h.symm hcol⟩
    · rw [if_pos (fun h => hcol (hzx.mp h))]
      split <;> rfl
    · rw [if_pos (by split <;> decide), if_neg hring, hport]

end Sys2Proof.Machine
end

section
/-! Retirement of girders and their spares (05 R151, R153, R524). -/

namespace Sys2Proof.Machine

namespace State

/-- The lowest-numbered free spare depends on which girders are spares and on nothing else. -/
theorem freeSpare_congr {s t : State} (h : ∀ g < 68, (t.obj (Key.girderState g) = girderSpare ↔ s.obj (Key.girderState g) = girderSpare)) : t.freeSpare = s.freeSpare := by
  unfold freeSpare
  refine List.find?_congr fun g hg => ?_
  rw [Bool.eq_iff_iff]
  simpa using h g (List.mem_range.mp hg)

theorem freeSpare_spec {s : State} {x : Nat} (h : s.freeSpare = some x) : x < 68 ∧ s.obj (Key.girderState x) = girderSpare :=
  ⟨List.mem_range.mp (List.mem_of_find?_eq_some h), by simpa using List.find?_some h⟩

theorem updFrame_changes (s : State) (v p : Nat) (f : Frame) : ∃ x, s.updFrame v p f = s.withViews x := ⟨_, rfl⟩

theorem rerunFrames_changes (s : State) (g : Nat) : ∃ x, s.rerunFrames g = s.withViews x := by
  unfold rerunFrames
  split
  · exact updFrame_changes ..
  · exact ⟨s.views, rfl⟩

theorem countGirders_changes (s : State) : ∃ d, s.countGirders = s.withDict d := ⟨_, rfl⟩

theorem obj_countGirders_of_ne (s : State) {k : Nat} (hs : k ≠ Key.deckGirdersService) (hf : k ≠ Key.deckSparesFree) : s.countGirders.obj k = s.obj k := by
  simp [countGirders, hs, hf]

theorem bringSpare_changes (s : State) (x : Nat) : ∃ d, s.bringSpare x = (s.withGirders (tabSet {} s.girders x { s.girder x with coming := true })).withDict d := ⟨_, rfl⟩

/-- The spare that takes a girder's place is the one that was free before. -/
theorem freeSpare_retired {s : State} {g : Nat} (hg : g < 68) (hstate : s.obj (Key.girderState g) = girderInService) {v : Views} :
    (((s.withViews v).setObj (Key.girderState g) girderRetired).raiseEvent 3).freeSpare = s.freeSpare := by
  refine freeSpare_congr fun h hh => ?_
  rw [raiseEvent_eq, withPev_obj, obj_setObj]
  split
  · rename_i hk
    rw [hk, lenOf_girderState g hg, hstate]
    decide
  · exact Iff.rfl

/-- What retirement leaves, where a spare is free: the girder retired, the spare in service and on its way. -/
theorem retireGirder_of_spare {s : State} {g x : Nat} (hg : g < 68) (hstate : s.obj (Key.girderState g) = girderInService) (hx : s.freeSpare = some x) :
    ∃ v p d, s.retireGirder g = (((s.withViews v).withPev p).withGirders (tabSet {} s.girders x { s.girder x with coming := true })).withDict d ∧
      (s.retireGirder g).obj (Key.girderState g) = girderRetired ∧ (s.retireGirder g).obj (Key.girderState x) = girderInService ∧
      (s.retireGirder g).obj (Key.girderFaults g) = s.obj (Key.girderFaults g) := by
  obtain ⟨v, hv⟩ := rerunFrames_changes s g
  obtain ⟨hx68, hspare⟩ := freeSpare_spec hx
  have hne : x ≠ g := by
    rintro rfl
    exact absurd (hstate.symm.trans hspare) (by decide)
  have hretire : s.retireGirder g = ((((s.withViews v).setObj (Key.girderState g) girderRetired).raiseEvent 3).bringSpare x).countGirders := by
    unfold retireGirder
    rw [hv]
    simp only [freeSpare_retired hg hstate, hx]
  have hgs : Key.girderState g ≠ Key.deckGirdersService ∧ Key.girderState g ≠ Key.deckSparesFree := by
    simp only [Key.girderState, Key.deckGirdersService, Key.deckSparesFree]; omega
  have hxs : Key.girderState x ≠ Key.deckGirdersService ∧ Key.girderState x ≠ Key.deckSparesFree := by
    simp only [Key.girderState, Key.deckGirdersService, Key.deckSparesFree]; omega
  have hfs : Key.girderFaults g ≠ Key.deckGirdersService ∧ Key.girderFaults g ≠ Key.deckSparesFree ∧ Key.girderFaults g ≠ Key.girderState g ∧ Key.girderFaults g ≠ Key.girderState x := by
    simp only [Key.girderFaults, Key.girderState, Key.deckGirdersService, Key.deckSparesFree]; omega
  have hgx : Key.girderState g ≠ Key.girderState x := by simp only [Key.girderState]; omega
  obtain ⟨d1, h1⟩ := setObj_changes (s.withViews v) (Key.girderState g) girderRetired
  obtain ⟨p, h2⟩ := raiseEvent_changes ((s.withViews v).withDict d1) 3
  obtain ⟨d2, h3⟩ := bringSpare_changes (((s.withViews v).withDict d1).withPev p) x
  obtain ⟨d3, h4⟩ := countGirders_changes (((((s.withViews v).withDict d1).withPev p).withGirders (tabSet {} s.girders x { s.girder x with coming := true })).withDict d2)
  rw [hretire]
  refine ⟨v, p, d3, ?_, ?_, ?_, ?_⟩
  · rw [h1, h2, h3]
    exact h4
  · rw [obj_countGirders_of_ne _ hgs.1 hgs.2]
    simp [bringSpare, putGirder, hgx, lenOf_girderState g hg, girderRetired]
  · rw [obj_countGirders_of_ne _ hxs.1 hxs.2]
    simp [bringSpare, lenOf_girderState x hx68, girderInService]
  · rw [obj_countGirders_of_ne _ hfs.1 hfs.2.1]
    simp [bringSpare, putGirder, hfs.2.2.1, hfs.2.2.2]

/-- A failed frame is taken from its girders and counted. -/
theorem failFrame_changes (s : State) (v p : Nat) (f : Frame) {g : Nat} (hg : g < 68) :
    ∃ w d, s.failFrame v p f g = (s.withViews w).withDict d ∧ (∀ h < 68, (s.failFrame v p f g).obj (Key.girderState h) = s.obj (Key.girderState h)) ∧
      (s.failFrame v p f g).obj (Key.girderFaults g) = (s.obj (Key.girderFaults g) + 1) % 2 ^ 32 := by
  obtain ⟨w, hw⟩ := updFrame_changes s v p { f with girders := [], failedOn := f.girders }
  refine ⟨w, ((s.withViews w).bump (Key.girderFaults g)).dict, by rw [failFrame, hw]; rfl, fun h hh => ?_, ?_⟩
  · have hne : Key.girderState h ≠ Key.girderFaults g := by simp only [Key.girderState, Key.girderFaults]; omega
    simp [failFrame, hw, hne]
  · simp [failFrame, hw, lenOf_girderFaults g hg]

end State

/-- Settles O17, command by command. -/
theorem girderRetirement : Obligations.GirderRetirement := by
  refine ⟨fun s g hready hstate x hx => ?_, fun s g hready hstate => ?_, fun s g hready hne hor => ?_, fun s g v p f hwork hlimit hstate hx => ?_, fun s g => ?_⟩
  · obtain ⟨v, p, d, hretire, hg, hxs, hfaults⟩ := State.retireGirder_of_spare g.isLt hstate hx
    refine ⟨(s.retireGirder g.val).withResult Res.done, ?_, hg, hxs, ?_, rfl, hfaults, ?_, ?_⟩
    · rw [exec_girderRetire, execGirderRetire, State.act, State.onReceipt, if_pos hready, immGirderRetire, hstate]
      simp [hx, girderInService, girderRetired]
    · rw [hretire]
      simp [State.girder]
    · rw [hretire]
      rfl
    · rw [hretire]
      rfl
  · rw [exec_girderRetire, execGirderRetire, State.act, State.onReceipt, if_pos hready, immGirderRetire, hstate]
    rfl
  · rw [exec_girderRetire, execGirderRetire, State.act, State.onReceipt, if_pos hready, immGirderRetire, if_neg hne, if_neg]
    rintro ⟨hin, hspare⟩
    rcases hor with hout | hnone
    · exact hout hin
    · simp [hnone] at hspare
  · obtain ⟨x, hx⟩ := hx
    obtain ⟨w, d, hfail, hkeep, hcount⟩ := State.failFrame_changes s v p f g.isLt
    have hstate' : (s.failFrame v p f g.val).obj (Key.girderState g.val) = girderInService := (hkeep _ g.isLt).trans hstate
    have hx' : (s.failFrame v p f g.val).freeSpare = some x := (State.freeSpare_congr fun h hh => by rw [hkeep h hh]).trans hx
    obtain ⟨w', q, d', hretire, hg, -, hfaults⟩ := State.retireGirder_of_spare g.isLt hstate' hx'
    refine ⟨(s.failFrame v p f g.val).retireGirder g.val, ?_, hg, hfaults.trans hcount, ?_⟩
    · rw [exec_girderTimeout, execGirderTimeout]
      simp only [hwork]
      rw [if_neg (by omega)]
    · rw [hretire, hfail]
      rfl
  · refine ⟨_, by rw [exec_spareReady, execSpareReady], ?_, rfl, fun h hne => ?_⟩
    · simp [State.girder, State.putGirder]
    · simp [State.girder, State.putGirder, hne]

end Sys2Proof.Machine
end

section
/-! The replay window of a Pelpin session (13 R374 to R376). -/

namespace Sys2Proof.Machine

namespace State

@[simp] theorem ppAck_pel (s : State) (r : PpRequest) (key : Bytes) (code : Code) (dup : Bool) : (s.ppAck r key code dup).pel = s.pel := by
  simp only [ppAck]
  split_ifs <;> rfl

@[simp] theorem ppSend_pel (s : State) (i : Nat) (a : NetAddr) (f : Bytes) : (s.ppSend i a f).pel = s.pel := rfl

@[simp] theorem sess_ppAck (s : State) (r : PpRequest) (key : Bytes) (code : Code) (dup : Bool) (n : Nat) : (s.ppAck r key code dup).sess n = s.sess n := by
  unfold sess
  rw [ppAck_pel]

@[simp] theorem sess_ppEnqueue (s : State) (r : PpRequest) (n : Nat) : (s.ppEnqueue r).sess n = s.sess n := rfl

@[simp] theorem sess_putSess (s : State) (n : Nat) (x : Session) (m : Nat) : (s.putSess n x).sess m = if m = n then x else s.sess m := by
  simp [sess, putSess]

@[simp] theorem putSess_queue (s : State) (n : Nat) (x : Session) : (s.putSess n x).pel.queue = s.pel.queue := rfl

@[simp] theorem putSess_time (s : State) (n : Nat) (x : Session) : (s.putSess n x).time = s.time := rfl

@[simp] theorem ppAdmit_time (s : State) (n epoch tid : Nat) : (s.ppAdmit n epoch tid).time = s.time := rfl

@[simp] theorem ppAdmit_queue (s : State) (n epoch tid : Nat) : (s.ppAdmit n epoch tid).pel.queue = s.pel.queue := rfl

theorem ppEnqueue_queue (s : State) (r : PpRequest) : (s.ppEnqueue r).pel.queue = s.pel.queue ++ [{ r with at' := s.time }] := rfl

/-- The TID of an admitted request is pending in the window. -/
theorem pending_ppAdmit (s : State) (n epoch tid : Nat) : ∃ x ∈ ((s.ppAdmit n epoch tid).sess n).window, x.tid = tid ∧ x.response = none := by
  have hwindow : ∃ kept, ((s.ppAdmit n epoch tid).sess n).window = kept ++ [{ tid := tid, response := none }] := by
    unfold ppAdmit
    extract_lets x e h fresh h' kept s1
    refine ⟨kept, ?_⟩
    have hs1 : (s1.sess n).window = kept ++ [{ tid := tid, response := none }] := by simp [s1]
    exact hs1
  obtain ⟨kept, hw⟩ := hwindow
  exact ⟨{ tid := tid, response := none }, by simp [hw], rfl, rfl⟩

/-! ### What arrives, by its class -/

section
variable {s : State} {r : PpRequest} {key : Bytes}

theorem ppRequest_of_stale (h : ppClassify (s.sess r.session).begun (s.obj (Key.ppSessEpoch r.session)) (s.obj (Key.ppSessTid r.session)) (s.sess r.session).window r.epoch r.tid = .stale) :
    s.ppRequest r key = s.ppAck r key Res.staleId false := by
  simp only [ppRequest, h]

theorem ppRequest_of_duplicate {x : PpTid} {c : Code} {b : Bytes}
    (h : ppClassify (s.sess r.session).begun (s.obj (Key.ppSessEpoch r.session)) (s.obj (Key.ppSessTid r.session)) (s.sess r.session).window r.epoch r.tid = .duplicate)
    (hx : ((s.sess r.session).window.find? fun w => w.tid == r.tid) = some x) (hc : x.response = some (c, b)) :
    s.ppRequest r key = ((s.putSess r.session { s.sess r.session with validAt := s.wall }).ppAck r key Res.done true).ppSend r.iface r.src
      (ppFrame key r.op 9 c r.session r.epoch r.tid r.node b) := by
  simp only [ppRequest, h, hx, Option.bind_some, hc]

theorem ppRequest_of_accept
    (h : ppClassify (s.sess r.session).begun (s.obj (Key.ppSessEpoch r.session)) (s.obj (Key.ppSessTid r.session)) (s.sess r.session).window r.epoch r.tid = .accept) :
    s.ppRequest r key = if s.ppRoom r.session = true then
        (((s.putSess r.session { s.sess r.session with validAt := s.wall }).ppAdmit r.session r.epoch r.tid).ppEnqueue r).ppAck r key Res.done false
      else (s.putSess r.session { s.sess r.session with validAt := s.wall }).ppAck r key Res.busy false := by
  simp only [ppRequest, h]

end

theorem ppAck_obj_ppBusy (s : State) (r : PpRequest) (key : Bytes) (dup : Bool) : (s.ppAck r key Res.busy dup).obj Key.ppBusy = (s.obj Key.ppBusy + 1) % 2 ^ 64 := by
  simp +decide [ppAck]

theorem ppAck_obj_ppStale (s : State) (r : PpRequest) (key : Bytes) (dup : Bool) : (s.ppAck r key Res.staleId dup).obj Key.ppStale = (s.obj Key.ppStale + 1) % 2 ^ 64 := by
  simp +decide [ppAck]

end State

/-- The window of R374, with distances around 2^8 epochs and 2^16 TIDs. -/
theorem ppClassify_eq {e h : Nat} (w : List PpTid) {epoch tid : Nat} (he : e < 256) (hh : h < 65536) (ht : tid < 65536) : ppClassify true e h w epoch tid =
    if 128 ≤ (epoch + 256 - e) % 256 then .stale
    else if 1 ≤ (epoch + 256 - e) % 256 then .accept
    else if 1 ≤ (tid + 65536 - h) % 65536 ∧ (tid + 65536 - h) % 65536 ≤ 32767 then .accept
    else if (h + 65536 - tid) % 65536 ≤ 63 then (if ∃ x ∈ w, x.tid = tid then .duplicate else .accept)
    else .stale := by
  have hany : (w.any fun x => x.tid == tid) = true ↔ ∃ x ∈ w, x.tid = tid := by simp
  simp only [ppClassify, tidAhead, Nat.mod_eq_of_lt he, Nat.mod_eq_of_lt hh, Nat.mod_eq_of_lt ht, hany]
  rfl

/-- Settles O48, class by class. -/
theorem replayWindow : Obligations.ReplayWindow := by
  refine ⟨fun e h w epoch tid he hh _ ht => ppClassify_eq w he hh ht, fun s r k hclass => ⟨fun hroom => ?_, fun hroom => ?_⟩, fun s r k x c b hclass hx hc => ?_, fun s r k hclass => ?_⟩
  · rw [State.ppRequest_of_accept hclass, if_pos hroom]
    refine ⟨by simp [State.ppEnqueue_queue], ?_⟩
    rw [State.sess_ppAck, State.sess_ppEnqueue]
    exact State.pending_ppAdmit ..
  · rw [State.ppRequest_of_accept hclass, if_neg (by simp [hroom])]
    exact ⟨by simp, by simp, by simp [State.ppAck_obj_ppBusy]⟩
  · rw [State.ppRequest_of_duplicate hclass hx hc]
    exact ⟨by simp, by simp [b2n, Res.done]⟩
  · rw [State.ppRequest_of_stale hclass]
    exact ⟨State.ppAck_pel .., State.ppAck_obj_ppStale ..⟩

end Sys2Proof.Machine
end

section
/-! The checks of a write, in their order (13 R351, R352, R356). -/

namespace Sys2Proof.Machine

/-- fe.decim is a U32 of 4 bytes, and a write that is marked as another type fails on it before its path is looked at. -/
theorem checkWrite_feDecim_zero (s : State) : s.checkWrite true { key := Key.feDecim 0, ty := 0x03, value := zeros 2 } = Res.type := by
  rw [State.checkWrite, if_neg (by decide), if_neg (by decide), if_pos (by decide)]

/-- Refutes O46: its sixth clause writes fe.decim of port 0 at once as a U16 of 2 bytes, and the check answers TYPE and not ACCESS, since the type and the length
come before the path (R351, R352). -/
theorem not_locksAndChecks : ¬ Obligations.LocksAndChecks := by
  rintro ⟨-, -, -, -, -, hdecim, -⟩
  have h := hdecim State.reset 0 (by decide)
  rw [checkWrite_feDecim_zero] at h
  exact absurd h (by decide)

end Sys2Proof.Machine
end

section
/-! The acceptance procedure of firings (08 R219 to R222). -/

namespace Sys2Proof.Machine

namespace State

@[simp] theorem ctx_putCtx (s : State) (c : Nat) (x : Ctx) (d : Nat) : (s.putCtx c x).ctx d = if d = c then x else s.ctx d := by simp [ctx, putCtx]

@[simp] theorem ctx_setObj (s : State) (k v c : Nat) : (s.setObj k v).ctx c = s.ctx c := rfl

@[simp] theorem ctx_bump (s : State) (k c : Nat) : (s.bump k).ctx c = s.ctx c := rfl

@[simp] theorem ctx_refreshAcq (s : State) (c : Nat) : s.refreshAcq.ctx c = s.ctx c := rfl

@[simp] theorem obj_putCtx (s : State) (c : Nat) (x : Ctx) (k : Nat) : (s.putCtx c x).obj k = s.obj k := rfl

@[simp] theorem records_putCtx (s : State) (c : Nat) (x : Ctx) : (s.putCtx c x).acq.records = s.acq.records := rfl

@[simp] theorem records_refreshAcq (s : State) : s.refreshAcq.acq = s.acq := rfl

theorem keeps_bump (s : State) (k : Nat) : KeepsObjects [k] s (s.bump k) := by
  intro j hj
  rw [obj_bump, if_neg (by simpa using hj)]

/-! ### A new record -/

/-- The record that a firing at t opens, with its window and its capture entries. -/
def openedRecord (s : State) (c t flags : Nat) : Record :=
  { ctx := c, number := s.obj (Key.ctxRecords c), gen := (s.ctx c).genNo % 256, trigger := t, start := t - s.objAt (Key.ctxPre c) t * tick, stop := t + s.objAt (Key.ctxPost c) t * tick,
    flags := flags % 32, streams := (captureEntries (s.objAt (Key.ctxCapture c) t)).map fun e => { port := e.1, fe := e.2 } }

theorem newRecord_eq (s : State) (c t flags : Nat) : s.newRecord c t flags =
    ((((s.withAcq { s.acq with records := s.acq.records ++ [s.openedRecord c t flags] }).putCtx c { s.ctx c with openRec := some (s.obj (Key.ctxRecords c)) }).bump (Key.ctxRecords c)).setObj
      (Key.ctxLast c) t).refreshAcq := rfl

theorem records_newRecord (s : State) (c t flags : Nat) : (s.newRecord c t flags).acq.records = s.acq.records ++ [s.openedRecord c t flags] := by
  rw [newRecord_eq]
  rfl

theorem openRec_newRecord (s : State) (c t flags : Nat) : ((s.newRecord c t flags).ctx c).openRec = some (s.obj (Key.ctxRecords c)) := by simp [newRecord_eq]

theorem obj_newRecord (s : State) {c : Nat} (hc : c < 1024) (t flags : Nat) :
    (s.newRecord c t flags).obj (Key.ctxRecords c) = (s.obj (Key.ctxRecords c) + 1) % 2 ^ 64 ∧ (s.newRecord c t flags).obj (Key.ctxLast c) = t % 2 ^ 80 := by
  have hne : Key.ctxRecords c ≠ Key.ctxLast c := by simp only [Key.ctxRecords, Key.ctxLast]; omega
  rw [newRecord_eq, obj_refreshAcq_of_ne, obj_refreshAcq_of_ne]
  · simp [hne, lenOf_ctxRecords c hc, lenOf_ctxLast c hc]
  all_goals
    simp only [Key.ctxRecords, Key.ctxLast, Key.acqStageUsed, Key.acqOpen, Key.trQueue]
    omega

/-! ### A firing, case by case -/

section
variable {s : State} {c t : Nat} (fl : Nat)

theorem offerFiring_of_shut (h : s.flagAt (Key.ctxEnable c) t = false ∨ (s.ctx c).stopped = true ∨ t < (s.ctx c).from') : s.offerFiring c t fl = s.bump (Key.ctxIgnored c) := by
  unfold offerFiring
  extract_lets ignore x rec?
  rw [if_pos (by simpa [or_assoc] using h)]

variable (hon : s.flagAt (Key.ctxEnable c) t = true) (hrun : (s.ctx c).stopped = false) (hfrom : (s.ctx c).from' ≤ t)
include hon hrun hfrom

theorem offerFiring_of_record {n : Nat} {r : Record} (hopen : (s.ctx c).openRec = some n) (hr : s.record? c n = some r) (hstop : t < r.stop) : s.offerFiring c t fl =
    if s.flagAt (Key.ctxExtend c) t = true then
      (s.updRecord { r with stop := min (t + s.objAt (Key.ctxPost c) t * tick) (r.start + s.objAt (Key.ctxRecMax c) t * tick), flags := r.flags ||| 128 }).bump (Key.ctxRetriggers c)
    else s.bump (Key.ctxIgnored c) := by
  unfold offerFiring
  extract_lets ignore x rec?
  have hrec : rec? = some r := by simp only [rec?, x, hopen, Option.bind_some, hr]
  rw [if_neg (by simp [x, hon, hrun]; omega), hrec]
  exact if_pos hstop

theorem offerFiring_of_no_record (hopen : (s.ctx c).openRec = none) : s.offerFiring c t fl = offerFiring.hold c t fl s := by
  unfold offerFiring
  extract_lets ignore x rec?
  have hrec : rec? = none := by simp only [rec?, x, hopen, Option.bind_none]
  rw [if_neg (by simp [x, hon, hrun]; omega), hrec]

end

end State

/-- Settles O22: the cases of the acceptance procedure. -/
theorem firingsOpenRecords : Obligations.FiringsOpenRecords := by
  refine ⟨fun s c t fl h => State.offerFiring_of_shut fl h, fun s c t fl n r hon hrun hfrom hopen hr hstop => ?_, fun s c t fl hon hrun hfrom hopen => ?_⟩
  · have hoffer := State.offerFiring_of_record fl hon hrun hfrom hopen hr hstop
    obtain ⟨hctx, hnumber⟩ : r.ctx = c.val ∧ r.number = n := by simpa using List.find?_some hr
    refine ⟨fun hext => by rw [hoffer, if_neg (by simp [hext])], fun hext => ?_⟩
    rw [hoffer, if_pos hext]
    refine ⟨?_, ?_, ?_⟩
    · rw [State.record?_bump, ← hctx, ← hnumber]
      refine State.record?_updRecord (r' := { r with stop := _, flags := _ }) (r := r) ?_
      rw [hctx, hnumber]
      exact hr
    · simp [lenOf_ctxRetriggers c.val c.isLt]
    · exact State.keeps_bump (s.updRecord _) (Key.ctxRetriggers c.val)
  · rw [State.offerFiring_of_no_record fl hon hrun hfrom hopen]
    refine ⟨fun hmode hrearm => ?_, fun hmode hleft => ?_, fun hmode hrearm => ?_⟩
    · rw [State.offerFiring.hold, if_pos ⟨hmode, hrearm⟩]
    · rw [State.offerFiring.hold, if_neg (by omega), if_pos ⟨hmode, hleft⟩]
      refine ⟨by simp, rfl, State.keeps_bump (s.putCtx _ _) _⟩
    · rw [State.offerFiring.hold, if_neg (fun h => absurd h.2 (not_lt.mpr hrearm)), if_neg (by simp [hmode])]
      obtain ⟨hrecords, hlast⟩ := State.obj_newRecord s c.isLt t fl
      exact ⟨hrecords, hlast, State.openRec_newRecord .., _, State.records_newRecord .., rfl, rfl, rfl, rfl, rfl, rfl⟩

end Sys2Proof.Machine
end

section
/-! What trigger events and pulses leave alone (07 R185, R207, R211; 15 R409), and the packets that carry them. -/

namespace Sys2Proof.Machine.State

/-! ### Packets on the truss -/

/-- Packets were queued and sent, and nothing else. -/
def OnlyPackets (s t : State) : Prop := ∃ x o, t = (s.withSpan x).withOutbox o

theorem OnlyPackets.refl (s : State) : OnlyPackets s s := ⟨s.span, s.outbox, rfl⟩

theorem OnlyPackets.trans {s t u : State} (h : OnlyPackets s t) (h' : OnlyPackets t u) : OnlyPackets s u := by
  obtain ⟨x, o, rfl⟩ := h
  obtain ⟨x', o', rfl⟩ := h'
  exact ⟨x', o', rfl⟩

theorem onlyPackets_foldl {α : Type} (l : List α) (f : State → α → State) (h : ∀ s x, OnlyPackets s (f s x)) (s : State) : OnlyPackets s (l.foldl f s) := by
  induction l generalizing s with
  | nil => exact .refl s
  | cons x l ih => exact (h s x).trans (ih _)

theorem onlyPackets_putTrussPort (s : State) (p : Nat) (x : TrussPort) : OnlyPackets s (s.putTrussPort p x) := ⟨(s.putTrussPort p x).span, s.outbox, rfl⟩

theorem onlyPackets_putTrussClass (s : State) (p c : Nat) (x : TrussClass) : OnlyPackets s (s.putTrussClass p c x) := onlyPackets_putTrussPort ..

theorem onlyPackets_emit (s : State) (e : Emission) : OnlyPackets s (s.emit e) := ⟨s.span, _, rfl⟩

theorem onlyPackets_trussPump (s : State) (p c fuel : Nat) : OnlyPackets s (s.trussPump p c fuel) := by
  induction fuel generalizing s with
  | zero => exact .refl s
  | succ fuel ih =>
    unfold trussPump
    extract_lets x
    split
    · exact .refl s
    · split
      · exact .refl s
      · extract_lets s1
        exact ((onlyPackets_putTrussClass ..).trans (onlyPackets_emit ..)).trans (ih _)

theorem onlyPackets_trussSend (s : State) (p c : Nat) (b : Bytes) : OnlyPackets s (s.trussSend p c b) := by
  unfold trussSend
  extract_lets x y s1
  split
  · exact onlyPackets_putTrussClass ..
  · split
    · exact .refl s
    · have h1 : OnlyPackets s s1 := by
        simp only [s1]
        split
        · exact onlyPackets_putTrussPort ..
        · exact .refl s
      exact (h1.trans (onlyPackets_putTrussClass ..)).trans (onlyPackets_trussPump ..)

theorem onlyPackets_trussBroadcast (s : State) (c : Nat) (system : Bool) (b : Bytes) : OnlyPackets s (s.trussBroadcast c system b) :=
  onlyPackets_foldl _ _ (fun _ _ => onlyPackets_trussSend ..) s

/-! ### Events and pulses -/

/-- The counters of events and of pulses. -/
def isTrigCounter (k : Nat) : Prop :=
  k = Key.trigEvents ∨ k = Key.trigLate ∨ (∃ n < 8, k = Key.trigoCount n) ∨ ∃ c < 64, k = Key.rtrigEvents c ∨ k = Key.rtrigLate c

/-- Events were raised and pulses started, packets sent with them, and nothing else: every event there was still stands. -/
def OnlyTriggers (s t : State) : Prop :=
  (∃ d g x o, t = (((s.withDict d).withTrig g).withSpan x).withOutbox o ∧ (∃ l, g.events = s.trig.events ++ l) ∧ g.lastEdge = s.trig.lastEdge) ∧
    ∀ k, ¬isTrigCounter k → t.obj k = s.obj k

theorem OnlyTriggers.refl (s : State) : OnlyTriggers s s := ⟨⟨s.dict, s.trig, s.span, s.outbox, rfl, ⟨[], by simp⟩, rfl⟩, fun _ _ => rfl⟩

theorem OnlyTriggers.trans {s t u : State} (h : OnlyTriggers s t) (h' : OnlyTriggers t u) : OnlyTriggers s u := by
  obtain ⟨⟨d, g, x, o, rfl, ⟨l, hl⟩, he⟩, hk⟩ := h
  obtain ⟨⟨d', g', x', o', rfl, ⟨l', hl'⟩, he'⟩, hk'⟩ := h'
  refine ⟨⟨d', g', x', o', rfl, ⟨l ++ l', ?_⟩, he'.trans he⟩, fun k hn => (hk' k hn).trans (hk k hn)⟩
  rw [hl', ← List.append_assoc]
  exact congrArg (· ++ l') hl

theorem onlyTriggers_of_onlyPackets {s t : State} (h : OnlyPackets s t) : OnlyTriggers s t := by
  obtain ⟨x, o, rfl⟩ := h
  exact ⟨⟨s.dict, s.trig, x, o, rfl, ⟨[], by simp⟩, rfl⟩, fun _ _ => rfl⟩

theorem onlyTriggers_withTrig (s : State) {g : Trig} (hg : ∃ l, g.events = s.trig.events ++ l) (he : g.lastEdge = s.trig.lastEdge) : OnlyTriggers s (s.withTrig g) :=
  ⟨⟨s.dict, g, s.span, s.outbox, rfl, hg, he⟩, fun _ _ => rfl⟩

theorem onlyTriggers_addObj (s : State) {k : Nat} (n : Nat) (hk : isTrigCounter k) : OnlyTriggers s (s.addObj k n) := by
  refine ⟨⟨(s.addObj k n).dict, s.trig, s.span, s.outbox, rfl, ⟨[], by simp⟩, rfl⟩, fun j hj => ?_⟩
  rw [obj_addObj, if_neg]
  rintro rfl
  exact hj hk

theorem onlyTriggers_bump (s : State) {k : Nat} (hk : isTrigCounter k) : OnlyTriggers s (s.bump k) := onlyTriggers_addObj s 1 hk

theorem onlyTriggers_foldl_of_mem {α : Type} (l : List α) (f : State → α → State) (h : ∀ s, ∀ x ∈ l, OnlyTriggers s (f s x)) (s : State) : OnlyTriggers s (l.foldl f s) := by
  induction l generalizing s with
  | nil => exact .refl s
  | cons x l ih => exact (h s x List.mem_cons_self).trans (ih (fun s y hy => h s y (List.mem_cons_of_mem x hy)) _)

theorem onlyTriggers_pulsePin (s : State) (driver width at' : Nat) {pin : Nat} (hpin : pin < 8) : OnlyTriggers s (s.pulsePin driver width at' pin) := by
  unfold pulsePin
  extract_lets mine rest g s1
  have h1 : OnlyTriggers s s1 := onlyTriggers_withTrig s ⟨[], by simp [g]⟩ rfl
  split
  · exact h1
  · exact h1.trans (onlyTriggers_bump _ (.inr (.inr (.inl ⟨pin, hpin, rfl⟩))))

theorem onlyTriggers_pulse (s : State) (driver pins : Nat) (width : Nat → Nat) : OnlyTriggers s (s.pulse driver pins width) := by
  refine onlyTriggers_foldl_of_mem _ _ (fun x n hn => ?_) s
  split
  · exact onlyTriggers_pulsePin x _ _ _ (List.mem_range.mp hn)
  · exact .refl x

theorem onlyTriggers_pulseNow (s : State) (driver pins : Nat) : OnlyTriggers s (s.pulseNow driver pins) := onlyTriggers_pulse ..

theorem onlyTriggers_remoteEvent (s : State) {c : Nat} (hc : c < 64) (e : Event) : OnlyTriggers s (s.remoteEvent c e) := by
  unfold remoteEvent
  extract_lets log missed r n g s1
  have h1 : OnlyTriggers s s1 := onlyTriggers_withTrig s ⟨[r], rfl⟩ rfl
  exact (((h1.trans (onlyTriggers_bump _ (.inr (.inr (.inr ⟨c, hc, .inl rfl⟩))))).trans (onlyTriggers_addObj _ n (.inr (.inr (.inr ⟨c, hc, .inr rfl⟩))))).trans
    (onlyTriggers_addObj _ n (.inr (.inl rfl)))).trans (onlyTriggers_pulseNow ..)

theorem onlyTriggers_publish (s : State) (e : Event) : OnlyTriggers s (s.publish e) := by
  refine onlyTriggers_foldl_of_mem _ _ (fun x c hc => ?_) s
  have hsent : OnlyTriggers x (x.trussBroadcast 0 (x.objAt (Key.rtrigScope c) e.time == 1) (x.eventPacket c e)) := onlyTriggers_of_onlyPackets (onlyPackets_trussBroadcast ..)
  extract_lets y
  split
  · exact hsent.trans (onlyTriggers_remoteEvent _ (List.mem_range.mp (List.mem_of_mem_filter hc)) e)
  · exact hsent

/-- An event of a local source stands among the events, with its source, time and values. -/
theorem raiseTrigger_spec (s : State) (source time flags qual d0 d1 : Nat) : OnlyTriggers s (s.raiseTrigger source time flags qual d0 d1) ∧
    ∃ e ∈ (s.raiseTrigger source time flags qual d0 d1).trig.events, e.source = source ∧ e.time = time ∧ e.node = s.obj Key.spanNode ∧ e.qual = qual ∧ e.d0 = d0 ∧ e.d1 = d1 := by
  unfold raiseTrigger
  extract_lets n e g0
  generalize hg : { g0 with events := g0.events ++ [e], counts := tabSet 0 g0.counts source (n + 1) } = g
  have hg1 : g.events = s.trig.events ++ [e] := hg ▸ rfl
  have h1 : OnlyTriggers s (s.withTrig g) := onlyTriggers_withTrig s ⟨[e], hg1⟩ (hg ▸ rfl)
  have h2 : OnlyTriggers (s.withTrig g) (((s.withTrig g).bump Key.trigEvents).publish e) := (onlyTriggers_bump _ (.inl rfl)).trans (onlyTriggers_publish ..)
  refine ⟨h1.trans h2, e, ?_, rfl, rfl, rfl, rfl, rfl, rfl⟩
  obtain ⟨⟨d, g', x, o, ht, ⟨l, hl⟩, -⟩, -⟩ := h2
  have hevents : (((s.withTrig g).bump Key.trigEvents).publish e).trig.events = g'.events := by rw [ht]; rfl
  rw [hevents, hl]
  simp [hg1]

theorem onlyTriggers_raiseTrigger (s : State) (source time flags qual d0 d1 : Nat) : OnlyTriggers s (s.raiseTrigger source time flags qual d0 d1) :=
  (raiseTrigger_spec s source time flags qual d0 d1).1

/-- What stood among the events still stands. -/
theorem OnlyTriggers.mem_events {s t : State} (h : OnlyTriggers s t) {e : Event} (he : e ∈ s.trig.events) : e ∈ t.trig.events := by
  obtain ⟨⟨d, g, x, o, rfl, ⟨l, hl⟩, -⟩, -⟩ := h
  exact hl ▸ List.mem_append_left l he

theorem OnlyTriggers.lastEdge {s t : State} (h : OnlyTriggers s t) : t.trig.lastEdge = s.trig.lastEdge := by
  obtain ⟨⟨d, g, x, o, rfl, -, hedge⟩, -⟩ := h
  exact hedge

end Sys2Proof.Machine.State
end

section
/-! TRIGI edges, command triggers, remote channels and the trigger log (07 R203, R206, R207, R209, R215). -/

namespace Sys2Proof.Machine

namespace State

theorem objAt_setObj_of_ne (s : State) {k j : Nat} (v t : Nat) (h : k ≠ j) : (s.setObj j v).objAt k t = s.objAt k t := by
  have hobj : (s.setObj j v).obj k = s.obj k := by simp [h]
  unfold objAt
  rw [hobj]
  rfl

theorem objIAt_setObj_of_ne (s : State) {k j : Nat} (v t : Nat) (h : k ≠ j) : (s.setObj j v).objIAt k t = s.objIAt k t := by
  simp [objIAt, objAt_setObj_of_ne s v t h]

@[simp] theorem ticks_setObj (s : State) (k v : Nat) : (s.setObj k v).ticks = s.ticks := rfl

/-! ### TRIGI edges -/

/-- The place of an edge in Keystone time. -/
def edgePlace (s : State) (pos : Fin 64) : Nat := s.ticks * tick + pos.val * 1024

/-- An edge that is not selected, or falls in the dead time, changes only the level of its pin. -/
theorem exec_trigiEdge_of_ignored {s : State} {n : Fin 8} {r : Bool} {pos : Fin 64}
    (h : s.objAt (Key.trigiEdge n.val) (s.edgePlace pos) = 0 ∨
      (tabGet 0 s.trig.lastEdge n.val ≠ 0 ∧ s.edgePlace pos < tabGet 0 s.trig.lastEdge n.val - 1 + s.objAt (Key.trigiDead n.val) (s.edgePlace pos) * tick)) :
    exec (.trigiEdge n r pos) s = .next (s.setObj (Key.trigiLevel n.val) (b2n r)) := by
  have hedge : Key.trigiEdge n.val ≠ Key.trigiLevel n.val := by simp [Key.trigiEdge, Key.trigiLevel]
  have hdead : Key.trigiDead n.val ≠ Key.trigiLevel n.val := by simp [Key.trigiDead, Key.trigiLevel]
  rw [exec_trigiEdge]
  unfold execTrigiEdge
  extract_lets i s1 a sel fires last dead t
  have hsel : sel = s.objAt (Key.trigiEdge n.val) (s.edgePlace pos) := objAt_setObj_of_ne s _ _ hedge
  have hlast : last = tabGet 0 s.trig.lastEdge n.val := rfl
  have hd : dead = (last != 0 && decide (s.edgePlace pos < last - 1 + s.objAt (Key.trigiDead n.val) (s.edgePlace pos) * tick)) := by
    simp only [dead, a, s1, i, objAt_setObj_of_ne s _ _ hdead]
    rfl
  rw [if_pos]
  rcases h with h0 | ⟨hne, hlt⟩
  · simp [fires, hsel, h0]
  · simp [hd, hlast, hne, hlt]

/-- What an edge that is taken makes of the state: its event, its counters, and a pulse on the pins. -/
def edgeTaken (s : State) (n : Nat) (a T pins : Nat) : State :=
  (((((s.setObj (Key.trigiLevel n) (b2n true)).withTrig { s.trig with lastEdge := tabSet 0 s.trig.lastEdge n (a + 1) }).raiseTrigger (0x5000 + n) T 0 (b2n (!true)) 0 0).bump
    (Key.trigiCount n)).setObj (Key.trigiLast n) T).pulseNow (0x5000 + n) pins

theorem exec_trigiEdge_of_taken {s : State} {n : Fin 8} {pos : Fin 64} (hsel : s.objAt (Key.trigiEdge n.val) (s.edgePlace pos) = 1) (hlast : tabGet 0 s.trig.lastEdge n.val = 0)
    (hle : s.objIAt (Key.trigiDelay n.val) (s.edgePlace pos) ≤ (s.edgePlace pos : Nat)) :
    ∃ T pins : Nat, (T : Int) = (s.edgePlace pos : Nat) - s.objIAt (Key.trigiDelay n.val) (s.edgePlace pos) ∧
      exec (.trigiEdge n true pos) s = .next (s.edgeTaken n.val (s.edgePlace pos) T pins) := by
  have hedge : Key.trigiEdge n.val ≠ Key.trigiLevel n.val := by simp [Key.trigiEdge, Key.trigiLevel]
  have hdelay : Key.trigiDelay n.val ≠ Key.trigiLevel n.val := by simp [Key.trigiDelay, Key.trigiLevel]
  rw [exec_trigiEdge]
  unfold execTrigiEdge
  extract_lets i s1 a sel fires last dead t
  have ht : t = (s.edgePlace pos : Nat) - s.objIAt (Key.trigiDelay n.val) (s.edgePlace pos) := by
    simp only [t, s1, i, objIAt_setObj_of_ne s _ _ hdelay]
    rfl
  have hs : sel = 1 := (objAt_setObj_of_ne s _ _ hedge).trans hsel
  have hl : last = 0 := hlast
  have hnonneg : 0 ≤ t := by omega
  refine ⟨t.toNat, s1.objAt (Key.trigiPins i) a, by rw [Int.toNat_of_nonneg hnonneg, ht], ?_⟩
  rw [if_neg (by simp [fires, dead, hs, hl, hnonneg])]
  rfl

/-- The level, the counters and the last edge of a TRIGI pin are no counters of events. -/
theorem trigi_not_trigCounter {n : Nat} (hn : n < 8) : ¬isTrigCounter (Key.trigiCount n) ∧ ¬isTrigCounter (Key.trigiLast n) := by
  constructor <;>
  · rintro (h | h | ⟨m, hm, h⟩ | ⟨c, hc, h | h⟩) <;>
      simp only [Key.trigiCount, Key.trigiLast, Key.trigEvents, Key.trigLate, Key.trigoCount, Key.rtrigEvents, Key.rtrigLate] at h <;> omega

theorem edgeTaken_spec (s : State) {n : Nat} (hn : n < 8) (a T pins : Nat) (hT : T < 2 ^ 80) :
    (s.edgeTaken n a T pins).obj (Key.trigiCount n) = (s.obj (Key.trigiCount n) + 1) % 2 ^ 64 ∧ (s.edgeTaken n a T pins).obj (Key.trigiLast n) = T ∧
      tabGet 0 (s.edgeTaken n a T pins).trig.lastEdge n = a + 1 ∧ ∃ e ∈ (s.edgeTaken n a T pins).trig.events, e.source = 0x5000 + n ∧ e.qual = 0 ∧ e.time = T := by
  obtain ⟨hcount, hlast⟩ := trigi_not_trigCounter hn
  have hcl : Key.trigiCount n ≠ Key.trigiLast n := by simp [Key.trigiCount, Key.trigiLast]
  have hcv : Key.trigiCount n ≠ Key.trigiLevel n := by simp [Key.trigiCount, Key.trigiLevel]
  unfold edgeTaken
  obtain ⟨hraise, e, he, hsource, htime, -, hqual, -⟩ := raiseTrigger_spec ((s.setObj (Key.trigiLevel n) (b2n true)).withTrig { s.trig with lastEdge := tabSet 0 s.trig.lastEdge n (a + 1) })
    (0x5000 + n) T 0 (b2n (!true)) 0 0
  have hedges := hraise.lastEdge
  generalize ((s.setObj (Key.trigiLevel n) (b2n true)).withTrig _).raiseTrigger _ _ _ _ _ _ = u at hraise he hedges ⊢
  have hpulse := onlyTriggers_pulseNow ((u.bump (Key.trigiCount n)).setObj (Key.trigiLast n) T) (0x5000 + n) pins
  refine ⟨?_, ?_, ?_, e, ?_, hsource, hqual, htime⟩
  · rw [hpulse.2 _ hcount, obj_setObj, if_neg hcl, obj_bump, if_pos rfl, lenOf_trigiCount n hn, hraise.2 _ hcount]
    simp [hcv]
  · rw [hpulse.2 _ hlast, obj_setObj, if_pos rfl, lenOf_trigiLast n hn]
    exact Nat.mod_eq_of_lt hT
  · rw [hpulse.lastEdge]
    show tabGet 0 u.trig.lastEdge n = a + 1
    rw [hedges]
    simp
  · exact hpulse.mem_events he

/-! ### Command triggers and remote channels -/

theorem exec_trigCmd_of_due {s : State} {c : Fin 16} {T : KTime} (hdue : s.due = [(Key.trigCmd c.val, T)]) :
    exec (.trigCmd c) s = .next (((s.withDue []).raiseTrigger (0x7000 + c.val) T 0 0 0 0).pulseNow (0x7000 + c.val) ((s.withDue []).objAt Key.trigCmdPins (s.withDue []).time)) := by
  rw [exec_trigCmd]
  unfold execTrigCmd
  simp [hdue]

theorem channelMark_changes (s : State) (c : Nat) (t : KTime) : ∃ d g, s.channelMark c t = (s.withDict d).withTrig g ∧ g.events = s.trig.events := by
  unfold channelMark
  extract_lets s1 g s2
  have h2 : ∃ d g, s2 = (s.withDict d).withTrig g ∧ g.events = s.trig.events := by
    simp only [s2]
    split
    · exact ⟨_, _, rfl, rfl⟩
    · exact ⟨s1.dict, s.trig, rfl, rfl⟩
  obtain ⟨d, g', h, hg⟩ := h2
  exact ⟨_, g', by rw [h]; rfl, hg⟩

theorem foldl_channelMark_changes (l : List Nat) (own : State → Nat → Bool) (at' : KTime) (s : State) :
    ∃ d g, l.foldl (fun x c => if own x c then x.channelMark c at' else x) s = (s.withDict d).withTrig g ∧ g.events = s.trig.events := by
  induction l generalizing s with
  | nil => exact ⟨s.dict, s.trig, rfl, rfl⟩
  | cons c l ih =>
    rw [List.foldl_cons]
    split
    · obtain ⟨d, g, h, hg⟩ := channelMark_changes s c at'
      obtain ⟨d', g', h', hg'⟩ := ih (s.channelMark c at')
      exact ⟨d', g', by rw [h', h]; rfl, by rw [hg', h]; exact hg⟩
    · exact ih s

/-! ### The trigger log -/

theorem logEvent_spec (s : State) (e : Event) : ∃ d m, s.logEvent e = ((s.withDict d).withMem m).withTrig { s.trig with logUnacked := s.trig.logUnacked + 1 } := by
  unfold logEvent
  extract_lets size off s1 g
  obtain ⟨⟨d, m, h, -⟩, -⟩ := onlyRequests_memWrite s .trigLog 2 (s.obj Key.trigLogBase + off) e.image
  have h1 : s1 = (s.withDict d).withMem m := h
  exact ⟨d, m, by simp only [g, h1]; rfl⟩

end State

theorem completes_iff_of_exec {c : Instr} {s : State} {o : Out} {P : State → Prop} (h : exec c s = o) : Completes c s P ↔ ∃ t, o = .next t ∧ P t := by
  rw [← h, Completes]

/-- Settles O21, command by command. -/
theorem triggerUnits : Obligations.TriggerUnits := by
  refine ⟨⟨fun s n r pos hsel => State.exec_trigiEdge_of_ignored (.inl hsel), fun s n pos hsel hlast h0 hle htime => ?_,
    fun s n r pos hne hlt => State.exec_trigiEdge_of_ignored (.inr ⟨hne, hlt⟩), fun s c T hdue => ?_⟩,
    ⟨fun s c hstate hlate => ?_, fun s c hstate => ?_, fun s hnone => ?_, fun s hsome => ?_⟩, fun s e r hlate => ?_, fun s e hlate hnext hsettled => ?_, fun s e hlate hnext hsettled => ?_,
    fun s hpending hacked hsize => ?_⟩
  · obtain ⟨T, pins, hT, hexec⟩ := State.exec_trigiEdge_of_taken hsel hlast hle
    have hplace : s.edgePlace pos < 2 ^ 80 := by
      have hpos := pos.isLt
      have htime' : @LT.lt Nat _ s.time (2 ^ 80) := htime
      unfold State.edgePlace State.ticks tick
      omega
    have hdelay : 0 ≤ s.objIAt (Key.trigiDelay n.val) (s.edgePlace pos) := h0
    have hbound : T < 2 ^ 80 := by omega
    obtain ⟨hcount, hl, hedge, e, he, hsource, hqual, htime'⟩ := State.edgeTaken_spec s n.isLt (s.edgePlace pos) T pins hbound
    exact ⟨_, hexec, hcount, by rw [hl]; exact hT, hedge, e, he, hsource, hqual, by rw [htime']; exact hT⟩
  · obtain ⟨hraise, e, he, hsource, htime, hnode, -⟩ := State.raiseTrigger_spec (s.withDue []) (0x7000 + c.val) T 0 0 0 0
    have hpulse := State.onlyTriggers_pulseNow ((s.withDue []).raiseTrigger (0x7000 + c.val) T 0 0 0 0) (0x7000 + c.val) ((s.withDue []).objAt Key.trigCmdPins (s.withDue []).time)
    obtain ⟨⟨d, g, x, o, ht, -⟩, -⟩ := hraise.trans hpulse
    refine ⟨_, State.exec_trigCmd_of_due hdue, ?_, ?_, ?_, e, hpulse.mem_events he, hsource, htime, hnode⟩ <;> rw [ht] <;> rfl
  · have hne : Key.rtrigState c.val ≠ Key.trigStale := by simp only [Key.rtrigState, Key.trigStale]; omega
    refine ⟨_, by rw [exec_rtrigStale, execRtrigStale, if_neg (by simp only [hstate]; simp; exact hlate)], ?_, rfl, fun k hk => ?_⟩
    · simp [State.countStale, hne, lenOf_rtrigState c.val c.isLt]
    · simp only [List.mem_cons, List.not_mem_nil, or_false, not_or] at hk
      simp [State.countStale, hk]
  · rw [exec_rtrigStale, execRtrigStale, if_pos (.inl hstate)]
  · rw [exec_rtrigWatermarkSend, execRtrigWatermarkSend, hnone]
    rfl
  · rw [completes_iff_of_exec (exec_rtrigWatermarkSend s)]
    unfold execRtrigWatermarkSend
    extract_lets cs w own system s1 s2 g
    rw [if_neg (by simpa [cs] using hsome)]
    obtain ⟨x, o, h1⟩ := State.onlyPackets_trussBroadcast s 0 system (messageBytes 3 (natBE 1 2 ++ natBE 1 (b2n system) ++ natBE 2 (s.obj Key.spanNode) ++ natBE 6 w))
    obtain ⟨d, g', h2, hevents⟩ := State.foldl_channelMark_changes cs own (w * tick) s1
    have hs2 : s2 = (s1.withDict d).withTrig g' := h2
    have hs1 : s1 = (s.withSpan x).withOutbox o := h1
    refine ⟨_, rfl, ?_, ?_, ?_, ?_⟩
    · show s2.wall = s.wall
      rw [hs2, hs1]
      rfl
    · show s2.trig.events = s.trig.events
      rw [hs2, hs1]
      exact hevents.trans (by rw [hs1]; rfl)
    · show s2.mem = s.mem
      rw [hs2, hs1]
      rfl
    · show s2.time = s.time
      rw [hs2, hs1]
      rfl
  · obtain ⟨d, m, h⟩ := State.logEvent_spec (s.withTrig { s.trig with lateLog := r }) e
    exact ⟨_, by rw [exec_trigLogEvent, execTrigLogEvent, hlate], by rw [h]; rfl, by rw [h]; rfl, by rw [h]; rfl⟩
  · obtain ⟨d, m, h⟩ := State.logEvent_spec (s.withTrig { s.trig with logCursor := some e }) e
    refine ⟨_, by rw [exec_trigLogEvent, execTrigLogEvent, hlate]; simp only [hnext]; rw [if_neg (by simp [hsettled])], by rw [h]; rfl, by rw [h]; rfl, by rw [h]; rfl⟩
  · rw [exec_trigLogEvent, execTrigLogEvent, hlate]
    simp only [hnext]
    rw [if_pos (by simp [hsettled])]
  · have hmax : max 1 (s.obj Key.trigLogSize) = s.obj Key.trigLogSize := by omega
    refine ⟨_, by rw [exec_trigLogAcked, execTrigLogAcked, if_neg (by simp [hpending, hacked]), hmax], ?_⟩
    rw [State.raiseEvent_eq]
    refine ⟨by simp, rfl, fun k hk => ?_, rfl⟩
    simp only [List.mem_cons, List.not_mem_nil, or_false] at hk
    simp [hk]

end Sys2Proof.Machine
end

section
/-! Masks take spectra, fire and arm again (07 R194 to R197). -/

namespace Sys2Proof.Machine

namespace State

/-! ### The history of a mask -/

@[simp] theorem mask_putMask (s : State) (m : Nat) (x : Mask) (n : Nat) : (s.putMask m x).mask n = if n = m then x else s.mask n := by simp [mask, putMask]

@[simp] theorem mask_setObj (s : State) (k v m : Nat) : (s.setObj k v).mask m = s.mask m := rfl

@[simp] theorem mask_bump (s : State) (k m : Nat) : (s.bump k).mask m = s.mask m := rfl

@[simp] theorem obj_putMask (s : State) (m : Nat) (x : Mask) (k : Nat) : (s.putMask m x).obj k = s.obj k := rfl

@[simp] theorem objAt_putMask (s : State) (m : Nat) (x : Mask) (k t : Nat) : (s.putMask m x).objAt k t = s.objAt k t := rfl

theorem mask_maskEmpty (s : State) (m : Nat) : (s.maskEmpty m).mask m = { s.mask m with history := [], clear := 0 } := by simp [maskEmpty]

theorem obj_maskEmpty (s : State) (m k : Nat) : (s.maskEmpty m).obj k = if k = Key.maskHistory m then 0 else s.obj k := by
  simp [maskEmpty]

theorem maskEmpty_changes (s : State) (m : Nat) : ∃ d, s.maskEmpty m = (s.withMasks (tabSet {} s.masks m { s.mask m with history := [], clear := 0 })).withDict d := ⟨_, rfl⟩

/-- The objects of a mask that its spectra change, but for its two counters of spectra. -/
def isMaskReport (m k : Nat) : Prop := k = Key.maskHistory m ∨ k = Key.maskState m ∨ k = Key.maskEvents m ∨ k = Key.maskLast m

/-- A mask changed with what it reports, events were raised and pulses started, and nothing else. -/
def OnlyMask (m : Nat) (s t : State) : Prop :=
  (∃ d y g x o, t = { s with dict := d, masks := y, trig := g, span := x, outbox := o }) ∧ ∀ k, ¬isMaskReport m k → ¬isTrigCounter k → t.obj k = s.obj k

theorem OnlyMask.refl (m : Nat) (s : State) : OnlyMask m s s := ⟨⟨s.dict, s.masks, s.trig, s.span, s.outbox, rfl⟩, fun _ _ _ => rfl⟩

theorem OnlyMask.trans {m : Nat} {s t u : State} (h : OnlyMask m s t) (h' : OnlyMask m t u) : OnlyMask m s u := by
  obtain ⟨⟨d, y, g, x, o, rfl⟩, hk⟩ := h
  obtain ⟨⟨d', y', g', x', o', rfl⟩, hk'⟩ := h'
  exact ⟨⟨d', y', g', x', o', rfl⟩, fun k hm ht => (hk' k hm ht).trans (hk k hm ht)⟩

theorem onlyMask_of_onlyTriggers {m : Nat} {s t : State} (h : OnlyTriggers s t) : OnlyMask m s t := by
  obtain ⟨⟨d, g, x, o, rfl, -, -⟩, hk⟩ := h
  exact ⟨⟨d, s.masks, g, x, o, rfl⟩, fun k _ ht => hk k ht⟩

theorem onlyMask_putMask (m : Nat) (s : State) (x : Mask) : OnlyMask m s (s.putMask m x) := ⟨⟨s.dict, tabSet {} s.masks m x, s.trig, s.span, s.outbox, rfl⟩, fun _ _ _ => rfl⟩

theorem onlyMask_setObj {m : Nat} (s : State) {k : Nat} (v : Nat) (hk : isMaskReport m k) : OnlyMask m s (s.setObj k v) := by
  refine ⟨⟨(s.setObj k v).dict, s.masks, s.trig, s.span, s.outbox, rfl⟩, fun j hj _ => ?_⟩
  rw [obj_setObj, if_neg]
  rintro rfl
  exact hj hk

theorem onlyMask_maskEmpty (m : Nat) (s : State) : OnlyMask m s (s.maskEmpty m) := (onlyMask_putMask ..).trans (onlyMask_setObj _ _ (.inl rfl))

/-! ### An armed mask -/

/-- What firing makes of the state. -/
def maskFired (s : State) (m t flags v d1 : Nat) : State :=
  ((((((s.maskEmpty m).setObj (Key.maskState m) 2).raiseTrigger (0x2000 + m) t flags 0 v d1).bump (Key.maskEvents m)).setObj (Key.maskLast m) t).pulseNow (0x2000 + m) (s.objAt (Key.maskPins m) t))

theorem onlyMask_maskFired (m : Nat) (s : State) (t flags v d1 : Nat) : OnlyMask m s (s.maskFired m t flags v d1) :=
  (((((onlyMask_maskEmpty m s).trans (onlyMask_setObj _ _ (.inr (.inl rfl)))).trans (onlyMask_of_onlyTriggers (onlyTriggers_raiseTrigger ..))).trans
    (onlyMask_setObj _ _ (.inr (.inr (.inl rfl))))).trans (onlyMask_setObj _ _ (.inr (.inr (.inr rfl))))).trans (onlyMask_of_onlyTriggers (onlyTriggers_pulseNow ..))

theorem mask_of_onlyTriggers {s t : State} (h : OnlyTriggers s t) (m : Nat) : t.mask m = s.mask m := by
  obtain ⟨⟨d, g, x, o, rfl, -⟩, -⟩ := h
  rfl

theorem maskReport_not_trigCounter {m : Nat} (hm : m < 256) : ¬isTrigCounter (Key.maskState m) ∧ ¬isTrigCounter (Key.maskEvents m) := by
  constructor <;>
  · rintro (h | h | ⟨n, hn, h⟩ | ⟨c, hc, h | h⟩) <;>
      simp only [Key.maskState, Key.maskEvents, Key.trigEvents, Key.trigLate, Key.trigoCount, Key.rtrigEvents, Key.rtrigLate] at h <;> omega

theorem maskFired_spec (s : State) {m : Nat} (hm : m < 256) (t flags v d1 : Nat) :
    ((s.maskFired m t flags v d1).mask m).history = [] ∧ ((s.maskFired m t flags v d1).mask m).clear = 0 ∧ (s.maskFired m t flags v d1).obj (Key.maskState m) = 2 ∧
      (s.maskFired m t flags v d1).obj (Key.maskEvents m) = (s.obj (Key.maskEvents m) + 1) % 2 ^ 64 ∧
      ∃ e ∈ (s.maskFired m t flags v d1).trig.events, e.source = 0x2000 + m ∧ e.time = t ∧ e.d0 = v ∧ e.d1 = d1 := by
  obtain ⟨hstate, hevents⟩ := maskReport_not_trigCounter hm
  have hes : Key.maskEvents m ≠ Key.maskState m ∧ Key.maskEvents m ≠ Key.maskLast m ∧ Key.maskEvents m ≠ Key.maskHistory m := by
    simp [Key.maskEvents, Key.maskState, Key.maskLast, Key.maskHistory]
  have hsl : Key.maskState m ≠ Key.maskLast m ∧ Key.maskState m ≠ Key.maskEvents m := by simp [Key.maskState, Key.maskLast, Key.maskEvents]
  unfold maskFired
  obtain ⟨hraise, e, he, hsource, htime, -, -, h0, h1⟩ := raiseTrigger_spec ((s.maskEmpty m).setObj (Key.maskState m) 2) (0x2000 + m) t flags 0 v d1
  have hpulse := onlyTriggers_pulseNow ((((((s.maskEmpty m).setObj (Key.maskState m) 2).raiseTrigger (0x2000 + m) t flags 0 v d1).bump (Key.maskEvents m)).setObj (Key.maskLast m) t)) (0x2000 + m)
    (s.objAt (Key.maskPins m) t)
  refine ⟨?_, ?_, ?_, ?_, e, hpulse.mem_events he, hsource, htime, h0, h1⟩
  · rw [mask_of_onlyTriggers hpulse, mask_setObj, mask_bump, mask_of_onlyTriggers hraise, mask_setObj, mask_maskEmpty]
  · rw [mask_of_onlyTriggers hpulse, mask_setObj, mask_bump, mask_of_onlyTriggers hraise, mask_setObj, mask_maskEmpty]
  · rw [hpulse.2 _ hstate, obj_setObj, if_neg hsl.1, obj_bump, if_neg hsl.2, hraise.2 _ hstate, obj_setObj, if_pos rfl, lenOf_maskState m hm]
    decide
  · rw [hpulse.2 _ hevents, obj_setObj, if_neg hes.2.1, obj_bump, if_pos rfl, hraise.2 _ hevents, obj_setObj, if_neg hes.1, obj_maskEmpty, if_neg hes.2.2, lenOf_maskEvents m hm]
    rfl

theorem maskArmed_eq (s : State) (m t flags : Nat) (bad : List Nat) (hist : List (Bool × Nat))
    (hhist : hist = ((decide (s.objAt (Key.maskK m) t ≤ bad.length), flags % 32) :: (s.mask m).history).take (s.objAt (Key.maskJ m) t)) :
    s.maskArmed m t flags bad = if (hist.filter (·.1)).length < s.objAt (Key.maskM m) t then (s.putMask m { s.mask m with history := hist }).setObj (Key.maskHistory m) (historyBits hist)
      else s.maskFired m t (hist.foldl (fun a e => a ||| e.2) 0) bad.length (bad.headD 0) := by
  subst hhist
  rfl

theorem maskDisarmed_eq (s : State) (m t u : Nat) : s.maskDisarmed m t u =
    if s.objAt (Key.maskRearm m) t ≤ (if u < s.objAt (Key.maskK m) t then (s.mask m).clear + 1 else 0) ∧ 0 < (if u < s.objAt (Key.maskK m) t then (s.mask m).clear + 1 else 0) then
      (s.maskEmpty m).setObj (Key.maskState m) 1
    else s.putMask m { s.mask m with clear := if u < s.objAt (Key.maskK m) t then (s.mask m).clear + 1 else 0 } := rfl

theorem onlyMask_maskArmed (m : Nat) (s : State) (t flags : Nat) (bad : List Nat) : OnlyMask m s (s.maskArmed m t flags bad) := by
  rw [maskArmed_eq s m t flags bad _ rfl]
  split
  · exact (onlyMask_putMask ..).trans (onlyMask_setObj _ _ (.inl rfl))
  · exact onlyMask_maskFired ..

theorem onlyMask_maskDisarmed (m : Nat) (s : State) (t u : Nat) : OnlyMask m s (s.maskDisarmed m t u) := by
  rw [maskDisarmed_eq]
  generalize (if u < s.objAt (Key.maskK m) t then (s.mask m).clear + 1 else 0) = n
  split
  · exact (onlyMask_maskEmpty ..).trans (onlyMask_setObj _ _ (.inr (.inl rfl)))
  · exact onlyMask_putMask ..

/-! ### A spectrum -/

/-- The mask as it takes a position of its view, with its arming after a write. -/
def maskReady (s : State) (m : Nat) (f : Frame) : State :=
  let s1 := if s.maskArms m f.t ∨ s.obj (Key.maskState m) = 0 then (s.maskEmpty m).setObj (Key.maskState m) 1 else s
  s1.putMask m { s1.mask m with seen := f.t + 1 }

theorem onlyMask_maskReady (m : Nat) (s : State) (f : Frame) : OnlyMask m s (s.maskReady m f) ∧ (s.maskReady m f).trig = s.trig := by
  unfold maskReady
  extract_lets s1 x
  have h1 : OnlyMask m s s1 ∧ s1.trig = s.trig := by
    simp only [s1]
    split
    · exact ⟨(onlyMask_maskEmpty ..).trans (onlyMask_setObj _ _ (.inr (.inl rfl))), rfl⟩
    · exact ⟨.refl m s, rfl⟩
  exact ⟨h1.1.trans (onlyMask_putMask ..), h1.2⟩

theorem maskSpectrum_eq (s : State) (m v : Nat) (f : Frame) : ∃ bad u, s.maskSpectrum m v f =
    if ((s.maskReady m f).objAt (Key.maskReject m) f.t &&& f.flags) ≠ 0 then (s.maskReady m f).bump (Key.maskRejected m)
    else if ((s.maskReady m f).bump (Key.maskSpectra m)).obj (Key.maskState m) = 1 then ((s.maskReady m f).bump (Key.maskSpectra m)).maskArmed m f.t f.flags bad
    else ((s.maskReady m f).bump (Key.maskSpectra m)).maskDisarmed m f.t u := by
  let s3 := (s.maskReady m f).bump (Key.maskSpectra m)
  refine ⟨violating (s3.objAt (Key.maskTable m) f.t) 0 (s3.frameWords v f), (violating (s3.objAt (Key.maskTable m) f.t) (s3.objAt (Key.maskHyst m) f.t) (s3.frameWords v f)).length, ?_⟩
  unfold maskSpectrum
  simp only [bne_iff_ne]
  rfl

/-- The mask as it comes to a position of its view: its search moved past it, its watermark there, and its history emptied in a new epoch. -/
def maskReached (s : State) (m : Nat) (f : Frame) : State :=
  let s1 := s.putMask m { s.mask m with next := f.t + 1 }
  let s2 := s1.setWatermark (0x2000 + m) f.t
  if (s2.mask m).epoch ≠ f.epoch then (s2.maskEmpty m).putMask m { (s2.maskEmpty m).mask m with epoch := f.epoch } else s2

theorem maskReached_spec (s : State) (m : Nat) (f : Frame) : (∃ d y g, s.maskReached m f = { s with dict := d, masks := y, trig := g } ∧ g.events = s.trig.events) ∧
    (∀ k, k ≠ Key.maskHistory m → (s.maskReached m f).obj k = s.obj k) ∧ ((s.maskReached m f).mask m).next = f.t + 1 := by
  unfold maskReached
  extract_lets x s1 s2 y
  have hs2 : ∃ g, s2 = { s with masks := tabSet {} s.masks m { s.mask m with next := f.t + 1 }, trig := g } ∧ g.events = s.trig.events := ⟨_, rfl, rfl⟩
  have hmask : (s2.mask m).next = f.t + 1 := by
    show (s1.mask m).next = f.t + 1
    simp [s1]
  have hobj (k : Nat) : s2.obj k = s.obj k := rfl
  clear_value s2
  obtain ⟨g, hs2, hg⟩ := hs2
  split
  · refine ⟨⟨_, _, g, by rw [hs2]; rfl, hg⟩, fun k hk => ?_, ?_⟩
    · rw [obj_putMask, obj_maskEmpty, if_neg hk, hobj]
    · rw [mask_putMask, if_pos rfl]
      show y.next = f.t + 1
      simp only [y, mask_maskEmpty]
      exact hmask
  · exact ⟨⟨s.dict, _, g, hs2, hg⟩, fun k _ => hobj k, hmask⟩

theorem exec_maskSpectrum_of_enabled {s : State} {m : Fin 256} {v p : Nat} {f : Frame} (hdeck : s.deckHeld = false)
    (hnext : s.maskNext m.val (s.mask m.val).next State.maskFuel = ((v, p), some f)) (hon : s.flagAt (Key.maskEnable m.val) f.t = true) (hskip : f.skip = none) :
    exec (.maskSpectrum m) s = .next (if f.gap.isSome = true then (s.maskReached m.val f).maskEmpty m.val else (s.maskReached m.val f).maskSpectrum m.val v f) := by
  have hon' : (s.putMask m.val { s.mask m.val with next := f.t + 1 }).flagAt (Key.maskEnable m.val) f.t = true := hon
  rw [exec_maskSpectrum, execMaskSpectrum, if_neg (by simp [hdeck])]
  simp only [hnext, hon', hskip]
  rw [if_neg (by decide), if_neg (by decide)]
  split <;> rfl

end State

theorem objAt_congr {s t : State} {k : Nat} (hundo : t.undo = s.undo) (hgroups : t.groups = s.groups) (hobj : t.obj k = s.obj k) (at' : Nat) : t.objAt k at' = s.objAt k at' := by
  unfold State.objAt
  rw [hundo, hgroups, hobj]

/-- The mask that has come to a spectrum and is armed by what was written: what the spectrum finds. -/
theorem maskReady_maskReached_spec (s : State) (m : Nat) (f : Frame) : ∃ u, u = (s.maskReached m f).maskReady m f ∧ u.trig.events = s.trig.events ∧ u.mem = s.mem ∧
    (∀ k, ¬State.isMaskReport m k → ¬State.isTrigCounter k → u.obj k = s.obj k) ∧ ∀ k, ¬State.isMaskReport m k → ¬State.isTrigCounter k → u.objAt k f.t = s.objAt k f.t := by
  obtain ⟨⟨d, y, g, h, hg⟩, hobj, -⟩ := State.maskReached_spec s m f
  obtain ⟨⟨⟨d', y', g', x', o', h'⟩, hobj'⟩, htrig⟩ := State.onlyMask_maskReady m (s.maskReached m f) f
  have hkeep (k : Nat) (hk : ¬State.isMaskReport m k) (ht : ¬State.isTrigCounter k) : ((s.maskReached m f).maskReady m f).obj k = s.obj k :=
    (hobj' k hk ht).trans (hobj k fun hh => hk (.inl hh))
  refine ⟨_, rfl, ?_, ?_, hkeep, fun k hk ht => objAt_congr ?_ ?_ (hkeep k hk ht) f.t⟩
  · rw [htrig, h]
    exact hg
  all_goals rw [h', h]

theorem maskCounters_not_report (m : Nat) : ¬State.isMaskReport m (Key.maskRejected m) ∧ ¬State.isMaskReport m (Key.maskSpectra m) ∧ ¬State.isMaskReport m (Key.maskReject m) := by
  simp [State.isMaskReport, Key.maskRejected, Key.maskSpectra, Key.maskReject, Key.maskHistory, Key.maskState, Key.maskEvents, Key.maskLast]

theorem maskCounters_not_trigCounter {m : Nat} (hm : m < 256) :
    ¬State.isTrigCounter (Key.maskRejected m) ∧ ¬State.isTrigCounter (Key.maskSpectra m) ∧ ¬State.isTrigCounter (Key.maskReject m) := by
  refine ⟨?_, ?_, ?_⟩ <;>
  · rintro (h | h | ⟨n, hn, h⟩ | ⟨c, hc, h | h⟩) <;>
      simp only [Key.maskRejected, Key.maskSpectra, Key.maskReject, Key.trigEvents, Key.trigLate, Key.trigoCount, Key.rtrigEvents, Key.rtrigLate] at h <;> omega

section
variable {s : State} {m : Fin 256} {v p : Nat} {f : Frame} (hdeck : s.deckHeld = false) (hnext : s.maskNext m.val (s.mask m.val).next State.maskFuel = ((v, p), some f))
  (hon : s.flagAt (Key.maskEnable m.val) f.t = true) (hskip : f.skip = none)
include hdeck hnext hon hskip

theorem completes_maskSpectrum_of_gap (hgap : f.gap.isSome = true) :
    Completes (.maskSpectrum m) s fun t => (t.mask m.val).history = [] ∧ (t.mask m.val).clear = 0 ∧ (t.mask m.val).next = f.t + 1 ∧
      t.obj (Key.maskHistory m.val) = 0 ∧ t = { s with dict := t.dict, masks := t.masks, trig := t.trig } ∧ t.trig.events = s.trig.events ∧ KeepsObjects [Key.maskHistory m.val] s t := by
  obtain ⟨⟨d, y, g, h, hg⟩, hobj, hmask⟩ := State.maskReached_spec s m.val f
  refine ⟨_, State.exec_maskSpectrum_of_enabled hdeck hnext hon hskip, ?_⟩
  rw [if_pos hgap]
  refine ⟨by rw [State.mask_maskEmpty], by rw [State.mask_maskEmpty], by rw [State.mask_maskEmpty]; exact hmask, by rw [State.obj_maskEmpty, if_pos rfl], ?_, ?_, fun k hk => ?_⟩
  · rw [h]
    rfl
  · rw [h]
    exact hg
  · rw [State.obj_maskEmpty, if_neg (by simpa using hk), hobj k (by simpa using hk)]

/-- A spectrum that shares a flag with mask.reject is counted as rejected. -/
theorem completes_maskSpectrum_of_rejected (hgap : f.gap = none) (hflags : (s.objAt (Key.maskReject m.val) f.t &&& f.flags) ≠ 0) :
    Completes (.maskSpectrum m) s fun t => t.obj (Key.maskRejected m.val) = (s.obj (Key.maskRejected m.val) + 1) % 2 ^ 64 ∧
      t.obj (Key.maskSpectra m.val) = s.obj (Key.maskSpectra m.val) ∧ t.trig.events = s.trig.events ∧ t.mem = s.mem := by
  obtain ⟨u, hu, hevents, hmem, hobj, hobjAt⟩ := maskReady_maskReached_spec s m.val f
  obtain ⟨hrejected, hspectra, hreject⟩ := maskCounters_not_report m.val
  obtain ⟨hrejected', hspectra', hreject'⟩ := maskCounters_not_trigCounter m.isLt
  have hne : Key.maskSpectra m.val ≠ Key.maskRejected m.val := by simp [Key.maskSpectra, Key.maskRejected]
  obtain ⟨bad, n, hspectrum⟩ := State.maskSpectrum_eq (s.maskReached m.val f) m.val v f
  rw [← hu] at hspectrum
  refine ⟨_, State.exec_maskSpectrum_of_enabled hdeck hnext hon hskip, ?_⟩
  rw [if_neg (by simp [hgap]), hspectrum, if_pos (by rw [hobjAt _ hreject hreject']; exact hflags)]
  refine ⟨?_, ?_, hevents, hmem⟩
  · rw [State.obj_bump, if_pos rfl, lenOf_maskRejected m.val m.isLt, hobj _ hrejected hrejected']
    rfl
  · rw [State.obj_bump, if_neg hne, hobj _ hspectra hspectra']

/-- Any other spectrum is entered and counted. -/
theorem completes_maskSpectrum_of_entered (hgap : f.gap = none) (hflags : (s.objAt (Key.maskReject m.val) f.t &&& f.flags) = 0) :
    Completes (.maskSpectrum m) s fun t => t.obj (Key.maskSpectra m.val) = (s.obj (Key.maskSpectra m.val) + 1) % 2 ^ 64 ∧
      t.obj (Key.maskRejected m.val) = s.obj (Key.maskRejected m.val) ∧ t.mem.cells = s.mem.cells := by
  obtain ⟨u, hu, hevents, hmem, hobj, hobjAt⟩ := maskReady_maskReached_spec s m.val f
  obtain ⟨hrejected, hspectra, hreject⟩ := maskCounters_not_report m.val
  obtain ⟨hrejected', hspectra', hreject'⟩ := maskCounters_not_trigCounter m.isLt
  have hne : Key.maskSpectra m.val ≠ Key.maskRejected m.val := by simp [Key.maskSpectra, Key.maskRejected]
  obtain ⟨bad, n, hspectrum⟩ := State.maskSpectrum_eq (s.maskReached m.val f) m.val v f
  rw [← hu] at hspectrum
  refine ⟨_, State.exec_maskSpectrum_of_enabled hdeck hnext hon hskip, ?_⟩
  rw [if_neg (by simp [hgap]), hspectrum, if_neg (by rw [hobjAt _ hreject hreject']; exact not_not.mpr hflags)]
  have henter (t : State) (ht : State.OnlyMask m.val (u.bump (Key.maskSpectra m.val)) t) : t.obj (Key.maskSpectra m.val) = (s.obj (Key.maskSpectra m.val) + 1) % 2 ^ 64 ∧
      t.obj (Key.maskRejected m.val) = s.obj (Key.maskRejected m.val) ∧ t.mem.cells = s.mem.cells := by
    obtain ⟨⟨d, y, g, x, o, rfl⟩, hkeep⟩ := ht
    refine ⟨?_, ?_, congrArg Mem.cells hmem⟩
    · rw [hkeep _ hspectra hspectra', State.obj_bump, if_pos rfl, lenOf_maskSpectra m.val m.isLt, hobj _ hspectra hspectra']
      rfl
    · rw [hkeep _ hrejected hrejected', State.obj_bump, if_neg hne.symm, hobj _ hrejected hrejected']
  split
  · exact henter _ (State.onlyMask_maskArmed ..)
  · exact henter _ (State.onlyMask_maskDisarmed ..)

end

/-- Settles O20: a position of the view, then an armed and a disarmed mask. -/
theorem masks : Obligations.Masks := by
  refine ⟨⟨fun s m hheld => ?_, fun s m hdeck hnext => ?_, fun s m v p f hdeck hnext hon hskip hgap => completes_maskSpectrum_of_gap hdeck hnext hon hskip hgap,
    fun s m v p f hdeck hnext hon hskip hgap hflags => completes_maskSpectrum_of_rejected hdeck hnext hon hskip hgap hflags,
    fun s m v p f hdeck hnext hon hskip hgap hflags => completes_maskSpectrum_of_entered hdeck hnext hon hskip hgap hflags⟩,
    fun s m t flags bad hist hhist => ⟨fun hfew => ?_, fun hhits hstate => ?_⟩, fun s m t u hrearm => ⟨fun hu => ?_, fun hu hfew => ?_, fun hu hclear => ?_⟩⟩
  · rw [exec_maskSpectrum, execMaskSpectrum, if_pos hheld]
  · obtain ⟨vp, hvp⟩ : ∃ vp, s.maskNext m.val (s.mask m.val).next State.maskFuel = (vp, none) := ⟨_, Prod.ext rfl hnext⟩
    rw [exec_maskSpectrum, execMaskSpectrum, if_neg (by simp [hdeck]), hvp]
  · rw [State.maskArmed_eq s m.val t flags bad hist hhist, if_pos hfew]
    refine ⟨by simp, rfl, fun k hk => ?_⟩
    have hne : k ≠ Key.maskHistory m.val := by simpa using hk
    simp [hne]
  · rw [State.maskArmed_eq s m.val t flags bad hist hhist, if_neg (by omega)]
    exact State.maskFired_spec s m.isLt ..
  · rw [State.maskDisarmed_eq, if_neg (show ¬u < s.objAt (Key.maskK m.val) t by omega), if_neg (by omega)]
    exact ⟨by simp, rfl⟩
  · rw [State.maskDisarmed_eq, if_pos hu, if_neg (by omega)]
    exact ⟨by simp, rfl⟩
  · rw [State.maskDisarmed_eq, if_pos hu, if_pos ⟨hclear, by omega⟩]
    refine ⟨by rw [State.mask_setObj, State.mask_maskEmpty], by rw [State.mask_setObj, State.mask_maskEmpty], ?_⟩
    simp [lenOf_maskState m.val m.isLt]

end Sys2Proof.Machine
end

section
/-! Frames run on girders and are delivered or run again (05 R128, R150). -/

namespace Sys2Proof.Machine

theorem eraseDups_of_nodup {l : List Nat} (h : l.Nodup) : l.eraseDups = l := by
  induction l with
  | nil => rfl
  | cons a l ih =>
    obtain ⟨ha, hl⟩ := List.nodup_cons.mp h
    have hfilter : l.filter (fun b => !b == a) = l := List.filter_eq_self.mpr fun b hb => by
      have : b ≠ a := fun h => ha (h ▸ hb)
      simpa using this
    rw [List.eraseDups_cons, hfilter, ih hl]

section
variable {s : State} {v : Fin 512} {p : Fin 1024} {gs : List (Fin 68)} (hdeck : s.deckHeld = false) (hfree : ∀ g ∈ gs, s.girderFree g.val = true) (hnodup : gs.Nodup)

include hfree hnodup in
/-- The girders named are free, and none is named twice. -/
theorem girders_free : ((gs.map (·.val)).all (fun g => s.girderFree g) && (gs.map (·.val)).eraseDups.length == (gs.map (·.val)).length) = true := by
  rw [eraseDups_of_nodup (hnodup.map Fin.val_injective)]
  simpa using hfree

include hdeck hfree hnodup

theorem exec_frameDispatch_of_failed {f : Frame} (hfind : ((s.viewPort v.val p.val).frames.find? fun f => !f.done && f.girders.isEmpty) = some f) (hothers : ∀ g ∈ gs, g.val ∉ f.failedOn)
    (hsize : gs.length = gangSize f.size) : exec (.frameDispatch v p gs) s = .next (s.updFrame v.val p.val { f with girders := gs.map (·.val), startedAt := s.wall }) := by
  have hfree' := girders_free hfree hnodup
  rw [exec_frameDispatch]
  unfold execFrameDispatch
  extract_lets v' p' gs' free
  rw [if_neg (by simp [hdeck])]
  simp only [v', p', hfind]
  exact if_pos ⟨hfree', by simpa [gs'] using hsize, by simpa [gs'] using hothers⟩

theorem exec_frameDispatch_of_ready {s1 s2 : State} {f : Frame} (hfind : ((s.viewPort v.val p.val).frames.find? fun f => !f.done && f.girders.isEmpty) = none)
    (hpass : s.passFrames v.val p.val 4096 = (s1, some (s2, f))) (hsize : gs.length = gangSize f.size) : exec (.frameDispatch v p gs) s =
      .next (s2.putViewPort v.val p.val { s2.viewPort v.val p.val with frames := (s2.viewPort v.val p.val).frames ++ [{ f with girders := gs.map (·.val), startedAt := s2.wall }] }) := by
  have hfree' := girders_free hfree hnodup
  rw [exec_frameDispatch]
  unfold execFrameDispatch
  extract_lets v' p' gs' free
  rw [if_neg (by simp [hdeck])]
  simp only [v', p', hfind, hpass]
  exact if_pos ⟨hfree', by simpa [gs'] using hsize⟩

end

namespace State

@[simp] theorem viewPort_putViewPort (s : State) (v p : Nat) (x : ViewPort) : (s.putViewPort v p x).viewPort v p = x := by simp [viewPort, putViewPort]

end State

/-- Settles O16, case by case. -/
theorem framesOnGirders : Obligations.FramesOnGirders := by
  refine ⟨fun s v p gs f hdeck hfind hfree hothers hnodup hsize => exec_frameDispatch_of_failed hdeck hfree hnodup hfind hothers hsize,
    fun s s1 s2 v p gs f hdeck hfind hpass hfree hnodup hsize => ?_, fun s g v p f hdeck hwork => ?_, fun s g v p f ue hdeck hwork hfailed => ?_, fun s v p gs hheld => ?_⟩
  · refine ⟨_, exec_frameDispatch_of_ready hdeck hfree hnodup hfind hpass hsize, by rw [State.viewPort_putViewPort], rfl, rfl⟩
  · rw [exec_frameComplete, execFrameComplete, if_neg (by simp [hdeck])]
    simp only [hwork]
    rfl
  · obtain ⟨w, d, hfail, -, hcount⟩ := State.failFrame_changes s v p f g.isLt
    have hexec : exec (.frameComplete g false ue) s = .next ((s.failFrame v p f g.val).putGirder g.val { (s.failFrame v p f g.val).girder g.val with failedAt := s.wall + 1 }) := by
      rw [exec_frameComplete, execFrameComplete, if_neg (by simp [hdeck])]
      simp only [hwork, hfailed]
      rfl
    refine ⟨_, hexec, hcount, rfl, ?_, ?_, fun k hk => ?_⟩
    · simp [State.girder, State.putGirder]
    · rw [hfail]
      rfl
    · show (s.failFrame v p f g.val).obj k = s.obj k
      rw [State.failFrame, State.obj_bump, if_neg (by simpa using hk)]
      rfl
  · rw [exec_frameDispatch, execFrameDispatch]
    exact if_pos hheld

end Sys2Proof.Machine
end

section
/-! The ring's slabs: what taking one changes (11 R299), and what a block of another allocation gives (11 R301). -/

namespace Sys2Proof.Machine.State

@[simp] theorem ringStream_putRingStream (s : State) (id : Nat) (x : RingStream) (j : Nat) :
    (s.putRingStream id x).ringStream j = if j = id then x else s.ringStream j := by simp [putRingStream, ringStream]

theorem slabs_putRingStream (s : State) (id : Nat) (x : RingStream) : (s.putRingStream id x).ring.slabs = s.ring.slabs := rfl

theorem next_putRingStream (s : State) (id : Nat) (x : RingStream) : (s.putRingStream id x).ring.next = s.ring.next := rfl

theorem obj_putRingStream (s : State) (id : Nat) (x : RingStream) (k : Nat) : (s.putRingStream id x).obj k = s.obj k := rfl

/-- A stream gets slab k as a new allocation. -/
def giveSlab (s : State) (id k : Nat) : State :=
  let s1 := s.withRing { s.ring with next := k + 1, slabs := tabUpd ({} : Slab) s.ring.slabs k fun (x : Slab) => { alloc := (x.alloc + 1) % 2 ^ 32, owner := id + 1 } }
  s1.putRingStream id { s1.ringStream id with slab := some k, place := 0 }

theorem slab_giveSlab (s : State) (id k j : Nat) : tabGet ({} : Slab) (s.giveSlab id k).ring.slabs j =
    if j = k then { alloc := ((tabGet ({} : Slab) s.ring.slabs k).alloc + 1) % 2 ^ 32, owner := id + 1 } else tabGet ({} : Slab) s.ring.slabs j := by
  simp [giveSlab, putRingStream, tabUpd]

theorem slab_ringStream_giveSlab (s : State) (id k : Nat) : ((s.giveSlab id k).ringStream id).slab = some k := by simp [giveSlab]

theorem blocks_giveSlab (s : State) (id k o : Nat) : ((s.giveSlab id k).ringStream o).blocks = (s.ringStream o).blocks := by
  simp only [giveSlab, ringStream_putRingStream]
  split
  case isTrue h => rw [h]; rfl
  case isFalse => rfl

theorem obj_retireSlab (s : State) (r k : Nat) : (s.retireSlab r).obj k = s.obj k := by
  unfold retireSlab
  split <;> rfl

theorem next_retireSlab (s : State) (r : Nat) : (s.retireSlab r).ring.next = s.ring.next := by
  unfold retireSlab
  split <;> rfl

theorem slab_retireSlab_of_ne (s : State) {r k : Nat} (h : k ≠ r) : tabGet {} (s.retireSlab r).ring.slabs k = tabGet ({} : Slab) s.ring.slabs k := by
  unfold retireSlab
  split
  · rfl
  · simp [tabUpd, h, slabs_putRingStream]

theorem owner_retireSlab (s : State) (r : Nat) : (tabGet ({} : Slab) (s.retireSlab r).ring.slabs r).owner = 0 := by
  unfold retireSlab
  split
  case h_1 h => exact h
  case h_2 => simp [tabUpd]

/-- With slabs left before the wrap, the stream takes the next one. -/
theorem takeSlab_of_lt (s : State) (id : Nat) {k r : Nat} (hk : k = s.ring.next) (hlt : k < s.obj Key.ringSlabsNow)
    (hr : r = (k + 2048) % s.obj Key.ringSlabsNow) : s.takeSlab id = (s.retireSlab r).giveSlab id k := by
  unfold takeSlab
  extract_lets wrap g s1 k' s2 g2 s3 g3
  have hs1 : s1 = s := if_neg (show ¬ s.obj Key.ringSlabsNow ≤ s.ring.next by omega)
  have hk' : k' = k := by rw [hk, ← hs1]
  have hs2 : s2 = s.retireSlab r := by
    change s1.retireSlab ((k' + 2048) % max 1 (s1.obj Key.ringSlabsNow)) = _
    rw [hs1, hk', show max 1 (s.obj Key.ringSlabsNow) = s.obj Key.ringSlabsNow by omega, ← hr]
  rw [hs1, if_neg (by omega)]
  simp only [giveSlab, g3, s3, g2, hk', hs2]

/-- The stream that held the retired slab holds none of its blocks. -/
theorem blocks_retireSlab (s : State) {r o : Nat} (h : (tabGet ({} : Slab) s.ring.slabs r).owner = o + 1) :
    ((s.retireSlab r).ringStream o).blocks = (s.ringStream o).blocks.filter fun b => b.slab != r := by
  unfold retireSlab
  rw [h]
  simp [ringStream, putRingStream]

end Sys2Proof.Machine.State
namespace Sys2Proof.Machine
open State

/-- A miss adds zeros for its positions and the MISSING flag, and nothing when there are none. -/
theorem RecStream.miss_spec (x : RecStream) (g : Exact) (step i n cause : Nat) :
    (x.miss g step i n cause).reading = x.reading ∧ (x.miss g step i n cause).data = x.data ++ zeros (n * formatBytes x.format) ∧
      (0 < n → bit (x.miss g step i n cause).flags 5 = true) := by
  unfold RecStream.miss
  split
  case isTrue h => exact ⟨rfl, by simp [h, zeros], by omega⟩
  case isFalse h =>
    refine ⟨by simp [RecStream.take, h, RecStream.addRun], rfl, fun _ => ?_⟩
    simp [bit, Nat.testBit_or, show Nat.testBit 32 5 = true by decide]

/-- What a block of another allocation gives: its positions are missed, whatever memory returned. -/
theorem takeReturned_of_other_alloc {s : State} {r : Record} {x : RecStream} {b : Block} (hread : x.reading = some b)
    (hdone : s.outstandingIn (.extract r.ctx r.number) (s.blockAddr b.slab b.place) 4096 = false)
    (halloc : (tabGet ({} : Slab) s.ring.slabs b.slab).alloc ≠ b.alloc) :
    ∃ i n cause, (s.takeReturned r x).1 = ({ x with reading := none } : RecStream).miss b.first b.step i n cause := by
  unfold takeReturned
  rw [hread]
  simp only [hdone, Bool.false_eq_true, if_false]
  have hring : (s.takeRead (.extract r.ctx r.number) (s.blockAddr b.slab b.place) 4096).2.ring = s.ring := rfl
  generalize s.takeRead (.extract r.ctx r.number) (s.blockAddr b.slab b.place) 4096 = w at hring ⊢
  obtain ⟨⟨img, lost⟩, s1⟩ := w
  rw [← hring] at halloc
  by_cases hlost : lost = true
  · rw [if_pos hlost]
    exact ⟨_, _, _, rfl⟩
  · rw [if_neg hlost, if_pos (.inl halloc)]
    exact ⟨_, _, _, rfl⟩

/-- Settles O38: a slab that is taken retires the one 2,048 ahead, and a block of another allocation is missed. -/
theorem slabsAndExtraction : Obligations.SlabsAndExtraction := by
  refine ⟨fun s id k r hk hlt hmin hr => ?_, fun s r x b hread hdone halloc => ?_⟩
  · have hne : k ≠ r := by
      rw [hr]
      intro h
      rcases Nat.lt_or_ge (k + 2048) (s.obj Key.ringSlabsNow) with hl | hl
      · rw [Nat.mod_eq_of_lt hl] at h; omega
      · rw [Nat.mod_eq_sub_mod hl, Nat.mod_eq_of_lt (by omega)] at h; omega
    rw [takeSlab_of_lt s id hk hlt hr]
    have hslab := slab_giveSlab (s.retireSlab r) id k
    refine ⟨slab_ringStream_giveSlab .., ?_, ?_, ?_, rfl, fun o ho b hb => ?_⟩
    · rw [hslab, if_pos rfl, slab_retireSlab_of_ne s hne]
    · rw [hslab, if_pos rfl]
    · rw [hslab, if_neg hne.symm, owner_retireSlab]
    · rw [blocks_giveSlab, blocks_retireSlab s ho, List.mem_filter] at hb
      exact bne_iff_ne.mp hb.2
  · obtain ⟨i, n, cause, h⟩ := takeReturned_of_other_alloc hread hdone halloc
    rw [h]
    obtain ⟨h1, h2, h3⟩ := RecStream.miss_spec ({ x with reading := none } : RecStream) b.first b.step i n cause
    exact ⟨h1, n, h2, h3⟩

end Sys2Proof.Machine
end

section
/-! Ring blocks: what closing a block changes, and what memory's acknowledgement makes of one (11 R297, R302). -/

namespace Sys2Proof.Machine.State

/-! ### What finding a place for a block leaves alone -/

/-- Slabs were taken and retired: memory is the same, and every stream's open block and count of positions. -/
def OnlySlabs (s t : State) : Prop :=
  t.mem = s.mem ∧ ∀ id, (t.ringStream id).openBlock = (s.ringStream id).openBlock ∧ (t.ringStream id).positions = (s.ringStream id).positions

theorem OnlySlabs.refl (s : State) : OnlySlabs s s := ⟨rfl, fun _ => ⟨rfl, rfl⟩⟩

theorem OnlySlabs.trans {s t u : State} (h : OnlySlabs s t) (h' : OnlySlabs t u) : OnlySlabs s u := by
  obtain ⟨hm, hk⟩ := h
  obtain ⟨hm', hk'⟩ := h'
  exact ⟨hm'.trans hm, fun id => ⟨(hk' id).1.trans (hk id).1, (hk' id).2.trans (hk id).2⟩⟩

theorem onlySlabs_putRingStream (s : State) (id : Nat) (x : RingStream) (ho : x.openBlock = (s.ringStream id).openBlock)
    (hp : x.positions = (s.ringStream id).positions) : OnlySlabs s (s.putRingStream id x) := by
  refine ⟨rfl, fun j => ?_⟩
  rw [ringStream_putRingStream]
  split
  case isTrue h => rw [h]; exact ⟨ho, hp⟩
  case isFalse => exact ⟨rfl, rfl⟩

theorem onlySlabs_withRing (s : State) (g : Ring) (h : g.streams = s.ring.streams) : OnlySlabs s (s.withRing g) := by
  refine ⟨rfl, fun id => ?_⟩
  rw [ringStream, withRing_ring, h]
  exact ⟨rfl, rfl⟩

theorem onlySlabs_foldl {α : Type} (l : List α) (f : State → α → State) (h : ∀ s x, OnlySlabs s (f s x)) (s : State) : OnlySlabs s (l.foldl f s) := by
  induction l generalizing s with
  | nil => exact .refl s
  | cons x l ih => exact (h s x).trans (ih _)

theorem onlySlabs_retireSlab (s : State) (r : Nat) : OnlySlabs s (s.retireSlab r) := by
  unfold retireSlab
  split
  · exact .refl s
  · extract_lets st s1 g
    have h1 : OnlySlabs s s1 := onlySlabs_putRingStream _ _ _ rfl rfl
    exact h1.trans (onlySlabs_withRing s1 _ rfl)

theorem tabGet_map_slab (l : Tab RingStream) (id : Nat) :
    tabGet ({} : RingStream) (l.map fun (e : Nat × RingStream) => (e.1, { e.2 with slab := none })) id = { tabGet ({} : RingStream) l id with slab := none } := by
  induction l with
  | nil => rfl
  | cons e l ih =>
    simp only [List.map_cons, tabGet]
    split
    · rfl
    · exact ih

theorem onlySlabs_applyResize (s : State) : OnlySlabs s s.applyResize := by
  unfold applyResize
  split
  · exact .refl s
  · split
    · exact .refl s
    · refine (onlySlabs_foldl _ _ (fun s k => onlySlabs_retireSlab s k) s).trans ⟨rfl, fun id => ?_⟩
      generalize (List.range (s.obj Key.ringSlabsNow)).foldl (fun x k => x.retireSlab k) s = u
      rw [show ((((u.withRing { u.ring with resize := none, next := 0, streams := u.ring.streams.map fun (e : Nat × RingStream) => (e.1, { e.2 with slab := none }) }).setObj Key.ringSlabsNow _).setObj Key.ringResizeState 0).ringStream id) = { u.ringStream id with slab := none } from tabGet_map_slab ..]
      exact ⟨rfl, rfl⟩

theorem onlySlabs_giveSlab (s : State) (id k : Nat) : OnlySlabs s (s.giveSlab id k) := onlySlabs_putRingStream _ _ _ rfl rfl

theorem onlySlabs_takeSlab (s : State) (id : Nat) : OnlySlabs s (s.takeSlab id) := by
  unfold takeSlab
  extract_lets wrap g s1 k s2 g2 s3 g3
  have h1 : OnlySlabs s s1 := by
    unfold s1
    split
    · exact OnlySlabs.trans ⟨rfl, fun _ => ⟨rfl, rfl⟩⟩ (onlySlabs_applyResize _)
    · exact .refl s
  split
  · exact h1
  · exact (h1.trans (onlySlabs_retireSlab s1 _)).trans (onlySlabs_giveSlab s2 id k)

theorem onlySlabs_placeBlock (id n : Nat) (s : State) : OnlySlabs s (s.placeBlock id n).2 := by
  induction n generalizing s with
  | zero => exact .refl s
  | succ n ih =>
    unfold placeBlock
    split
    · exact .refl s
    · extract_lets st
      split
      · split
        · exact onlySlabs_putRingStream _ _ _ rfl rfl
        · exact (onlySlabs_takeSlab s id).trans (ih _)
      · exact (onlySlabs_takeSlab s id).trans (ih _)

theorem onlySlabs_settleBlock (s : State) (id : Nat) (b : Block) : OnlySlabs s (s.settleBlock id b).2 := by
  unfold settleBlock
  split
  · exact .refl s
  · exact onlySlabs_placeBlock id 4096 s

theorem settleBlock_of_placeStands {s : State} {id : Nat} {b : Block} (h : s.placeStands id b = true) : s.settleBlock id b = (some b, s) := by
  rw [settleBlock, if_pos h]

theorem onlySlabs_loseBlock (s : State) (id cause : Nat) (b : Block) : OnlySlabs s (s.loseBlock id cause b) := onlySlabs_putRingStream _ _ _ rfl rfl

/-! ### The writer's panic line -/

/-- A panic line changes memory's queues only. -/
theorem refreshWriterPanic_changes (s : State) (pier : Nat) : ∃ m, s.refreshWriterPanic pier = s.withMem m ∧ m.cells = s.mem.cells := by
  unfold refreshWriterPanic
  extract_lets h
  split
  · exact ⟨_, rfl, rfl⟩
  · split
    · exact ⟨_, rfl, rfl⟩
    · exact ⟨s.mem, rfl, rfl⟩

/-! ### Closing a block -/

/-- A stream's block is closed from s to t: its stream has none, with the count of its positions, and memory's contents stand. -/
def ClosedFrom (s : State) (id : Nat) (t : State) : Prop :=
  (t.ringStream id).openBlock = none ∧ (t.ringStream id).positions = (s.ringStream id).positions ∧ t.mem.cells = s.mem.cells

theorem ClosedFrom.onlySlabs {s t u : State} {id : Nat} (h : ClosedFrom s id t) (h' : OnlySlabs t u) : ClosedFrom s id u := by
  obtain ⟨ho, hp, hm⟩ := h
  obtain ⟨hm', hk⟩ := h'
  exact ⟨(hk id).1.trans ho, (hk id).2.trans hp, (congrArg Mem.cells hm').trans hm⟩

/-- A closed block's image is written: a request enters memory's queues, and the panic line may change. -/
theorem writeOut_changes (s : State) (o : Owner) (a pier : Nat) (img : Bytes) :
    (((s.memWrite o 0 a img).refreshWriterPanic pier).ring = s.ring) ∧ ((s.memWrite o 0 a img).refreshWriterPanic pier).mem.cells = s.mem.cells := by
  obtain ⟨m, hm, hcells⟩ := refreshWriterPanic_changes (s.memWrite o 0 a img) pier
  obtain ⟨⟨d, m', hw, hcells'⟩, -⟩ := onlyRequests_memWrite s o 0 a img
  rw [hm, hw]
  rw [hw] at hcells
  exact ⟨rfl, hcells.trans hcells'⟩

/-- A closed block leaves its stream without one; with its place standing, the other streams stay as they are. -/
theorem closeBlock_spec {s : State} {id : Nat} {b : Block} (h : (s.ringStream id).openBlock = some b) :
    ClosedFrom s id (s.closeBlock id) ∧ (s.placeStands id b = true → ∀ j, j ≠ id → (s.closeBlock id).ringStream j = s.ringStream j) := by
  generalize hc : s.closeBlock id = c
  unfold closeBlock at hc
  extract_lets st at hc
  split at hc
  case h_1 heq => exact nomatch h.symm.trans heq
  rename_i s0 _ b0 heq
  obtain rfl : b = b0 := Option.some.inj (h.symm.trans heq)
  have hs0 : s.putRingStream id { st with openBlock := none } = s0 := rfl
  have h0 : ClosedFrom s id s0 := by
    rw [← hs0]
    exact ⟨congrArg RingStream.openBlock (tabGet_tabSet_self ..), (congrArg RingStream.positions (tabGet_tabSet_self ..)).trans rfl, rfl⟩
  have hother : ∀ j, j ≠ id → s0.ringStream j = s.ringStream j := fun j hj => by
    rw [← hs0, ringStream_putRingStream, if_neg hj]
  have hlose : ∀ (u : State) (j : Nat), j ≠ id → (u.loseBlock id 0 b).ringStream j = u.ringStream j := fun u j hj => by
    rw [loseBlock, ringStream_putRingStream, if_neg hj]
  split at hc
  case isTrue =>
    subst hc
    have hbump : ClosedFrom s id (s0.bump Key.ringBlocksLost) := h0
    exact ⟨hbump.onlySlabs (onlySlabs_loseBlock ..), fun _ j hj => (hlose _ j hj).trans (hother j hj)⟩
  case isFalse =>
    have hsettle := onlySlabs_settleBlock s0 id b
    have hstands : s.placeStands id b = true → s0.settleBlock id b = (some b, s0) := fun hp => settleBlock_of_placeStands (by rw [← hs0]; exact hp)
    generalize s0.settleBlock id b = w at hsettle hstands hc
    obtain ⟨place, s1⟩ := w
    have h1 : ClosedFrom s id s1 := h0.onlySlabs hsettle
    cases place with
    | none =>
      subst hc
      exact ⟨h1.onlySlabs (onlySlabs_loseBlock ..), fun hp => by cases hstands hp⟩
    | some b' =>
      dsimp only at hc
      subst hc
      generalize hs2 : s1.putRingStream id { s1.ringStream id with blocks := (s1.ringStream id).blocks ++ [{ b' with data := [] }] } = s2
      have h2 : ClosedFrom s id s2 := by
        rw [← hs2]
        exact h1.onlySlabs (onlySlabs_putRingStream _ _ _ rfl rfl)
      obtain ⟨hring, hcells⟩ := writeOut_changes s2 (.ringWriter id b'.seq) (s2.blockAddr b'.slab b'.place) st.pier
        (padTo 4096 (blockHeader (id % 1024) (id / 1024) st.format b' ++ b'.data))
      generalize (s2.memWrite _ 0 _ _).refreshWriterPanic st.pier = u at hring hcells ⊢
      have hstream : ∀ j, u.ringStream j = s2.ringStream j := fun j => congrArg (fun g : Ring => tabGet ({} : RingStream) g.streams j) hring
      obtain ⟨ho, hp, hm⟩ := h2
      refine ⟨⟨(congrArg RingStream.openBlock (hstream id)).trans ho, (congrArg RingStream.positions (hstream id)).trans hp, hcells.trans hm⟩, fun hpl j hj => ?_⟩
      cases hstands hpl
      rw [hstream j, ← hs2, ringStream_putRingStream, if_neg hj, hother j hj]

end Sys2Proof.Machine.State
namespace Sys2Proof.Machine
open State

theorem execRingFlush_of_open {s : State} {p : Fin 1024} {fe : Bool} {b : Block} (h : (s.ringStream (streamId p.val fe)).openBlock = some b) :
    execRingFlush p fe s = if s.wall < b.openedAt + s.obj Key.ringFlush then .next s else .next (s.closeBlock (streamId p.val fe)) := by
  rw [execRingFlush, h]

theorem streamId_mod (p : Fin 1024) (fe : Bool) : streamId p.val fe % 1024 = p.val := by
  unfold streamId
  split <;> omega

/-- The oldest unwritten block, written and not lost, is a written one. -/
theorem blockWritten_of_kept {s : State} {id : Nat} {b : Block} (hb : ((s.ringStream id).blocks.find? fun b => !b.written) = some b)
    (hout : s.outstanding (.ringWriter id b.seq) = false) (hkept : ∀ x ∈ s.mem.lostWrites, x.1 ≠ .ringWriter id b.seq) :
    s.blockWritten id = ((s.withMem { s.mem with lostWrites := s.mem.lostWrites.filter fun x => x.1 != .ringWriter id b.seq }).putRingStream id
      { s.ringStream id with blocks := (s.ringStream id).blocks.map fun x => if x.seq = b.seq then { x with written := true } else x }).refreshWriterPanic (s.ringStream id).pier := by
  have hlost : (s.mem.lostWrites.any fun x => x.1 == .ringWriter id b.seq) = false := by
    rw [List.any_eq_false]
    intro x hx
    simp [hkept x hx]
  unfold blockWritten
  extract_lets st
  rw [hb]
  simp only [hout, hlost, Bool.false_eq_true, if_false]
  rfl

/-- The oldest unwritten block, lost in a freeze, leaves its positions not held, with a MEMORY_LOSS marker. -/
theorem blockWritten_of_lost {s : State} {id : Nat} {b : Block} (hb : ((s.ringStream id).blocks.find? fun b => !b.written) = some b)
    (hout : s.outstanding (.ringWriter id b.seq) = false) (hlost : ∃ x ∈ s.mem.lostWrites, x.1 = .ringWriter id b.seq) :
    s.blockWritten id = (((s.withMem { s.mem with lostWrites := s.mem.lostWrites.filter fun x => x.1 != .ringWriter id b.seq }).putRingStream id
      { s.ringStream id with blocks := (s.ringStream id).blocks.filter (fun x => x.seq != b.seq),
                             notHeld := (s.ringStream id).notHeld ++ [{ first := b.first, step := b.step, count := b.count, cause := causeMemoryLoss }] }).issueMarker
        causeMemoryLoss (id % 1024) 0xFF (id / 1024) (b.first.n / b.first.d).toNat 0xFFFF b.count).refreshWriterPanic (s.ringStream id).pier := by
  have hany : (s.mem.lostWrites.any fun x => x.1 == .ringWriter id b.seq) = true := by
    rw [List.any_eq_true]
    obtain ⟨x, hx, he⟩ := hlost
    exact ⟨x, hx, by simp [he]⟩
  unfold blockWritten
  extract_lets st
  rw [hb]
  simp only [hout, hany, Bool.false_eq_true, if_false, if_true]
  rfl

theorem issueMarker_ring (s : State) (cause port pier stream first view count : Nat) : (s.issueMarker cause port pier stream first view count).ring = s.ring := by
  unfold issueMarker
  extract_lets s1 img
  clear_value img
  rw [raiseEvent_eq]
  rfl

theorem portGapSeq_issueMarker (s : State) (cause : Nat) {port : Nat} (hport : port < 1024) (pier stream first view count : Nat) :
    (s.issueMarker cause port pier stream first view count).obj (Key.portGapSeq port) = (s.obj (Key.portGapSeq port) + 1) % 2 ^ 32 := by
  unfold issueMarker
  extract_lets s1 img
  have h1 : Key.portGapSeq port ≠ Key.statusGapCount := by unfold Key.portGapSeq Key.statusGapCount; omega
  have h2 : Key.portGapSeq port ≠ Key.statusGapLast := by unfold Key.portGapSeq Key.statusGapLast; omega
  rw [obj_emit, obj_raiseEvent, obj_bump, if_neg h1, obj_setObj, if_neg h2, obj_bump, if_pos rfl, lenOf_portGapSeq port hport, show (256 : Nat) ^ 4 = 2 ^ 32 from rfl]

/-- Settles O37: an open block is closed when ring.flush has passed, and the acknowledgement makes a block written or lost. -/
theorem ringBlocks : Obligations.RingBlocks := by
  refine ⟨fun s p fe b hopen hearly => ?_, fun s p fe b hopen hdue => ?_, fun s p fe b hb hout hkept => ?_, fun s p fe b hb hout hlost => ?_⟩
  · rw [exec_ringFlush, execRingFlush_of_open hopen, if_pos hearly]
  · obtain ⟨⟨ho, hp, hm⟩, hother⟩ := closeBlock_spec hopen
    exact ⟨_, by rw [exec_ringFlush, execRingFlush_of_open hopen, if_neg (by omega)], ho, hp, hm, hother⟩
  · refine ⟨_, exec_ringBlockWritten .., ?_⟩
    rw [blockWritten_of_kept hb hout hkept]
    generalize hu : State.putRingStream _ _ _ = u
    obtain ⟨m, hm, hcells⟩ := refreshWriterPanic_changes u (s.ringStream (streamId p.val fe)).pier
    rw [hm]
    subst hu
    exact ⟨congrArg RingStream.blocks (tabGet_tabSet_self ..), rfl, hcells⟩
  · refine ⟨_, exec_ringBlockWritten .., ?_⟩
    rw [blockWritten_of_lost hb hout hlost, streamId_mod]
    generalize hu : State.issueMarker _ _ _ _ _ _ _ _ = u
    obtain ⟨m, hm, -⟩ := refreshWriterPanic_changes u (s.ringStream (streamId p.val fe)).pier
    have hring : (u.withMem m).ring = _ := (congrArg State.ring hu.symm).trans (issueMarker_ring ..)
    rw [hm, ringStream, hring, putRingStream, withRing_ring, tabGet_tabSet_self]
    refine ⟨fun x hx => ?_, ⟨_, List.mem_append_right _ (List.mem_singleton_self _), rfl, rfl, rfl⟩, ?_⟩
    · simpa using (List.mem_filter.mp hx).2
    · change u.obj _ = _
      rw [← hu, portGapSeq_issueMarker _ _ p.isLt]
      rfl

end Sys2Proof.Machine
end

section
/-! Objects do not depend on the parts of the state beside the dictionary. -/

namespace Sys2Proof.Machine.State

@[simp] theorem obj_withPending (s : State) (x : List Instr) (k : Nat) : (s.withPending x).obj k = s.obj k := rfl
@[simp] theorem obj_withFree (s : State) (x : Nat) (k : Nat) : (s.withFree x).obj k = s.obj k := rfl
@[simp] theorem obj_withWall (s : State) (x : Nat) (k : Nat) : (s.withWall x).obj k = s.obj k := rfl
@[simp] theorem obj_withTime (s : State) (x : KTime) (k : Nat) : (s.withTime x).obj k = s.obj k := rfl
@[simp] theorem obj_withUndo (s : State) (x : List (KTime × Nat × Nat)) (k : Nat) : (s.withUndo x).obj k = s.obj k := rfl
@[simp] theorem obj_withGroups (s : State) (x : List Group) (k : Nat) : (s.withGroups x).obj k = s.obj k := rfl
@[simp] theorem obj_withDue (s : State) (x : List (Nat × KTime)) (k : Nat) : (s.withDue x).obj k = s.obj k := rfl
@[simp] theorem obj_withResult (s : State) (x : Nat) (k : Nat) : (s.withResult x).obj k = s.obj k := rfl
@[simp] theorem obj_withOutbox (s : State) (x : List Emission) (k : Nat) : (s.withOutbox x).obj k = s.obj k := rfl
@[simp] theorem obj_withMem (s : State) (x : Mem) (k : Nat) : (s.withMem x).obj k = s.obj k := rfl
@[simp] theorem obj_withPcie (s : State) (x : Pcie) (k : Nat) : (s.withPcie x).obj k = s.obj k := rfl
@[simp] theorem obj_withPev (s : State) (x : PcieEvents) (k : Nat) : (s.withPev x).obj k = s.obj k := rfl
@[simp] theorem obj_withKs (s : State) (x : Ks) (k : Nat) : (s.withKs x).obj k = s.obj k := rfl
@[simp] theorem obj_withLo (s : State) (x : Lo) (k : Nat) : (s.withLo x).obj k = s.obj k := rfl
@[simp] theorem obj_withCond (s : State) (x : Conditions) (k : Nat) : (s.withCond x).obj k = s.obj k := rfl
@[simp] theorem obj_withIng (s : State) (x : Ingest) (k : Nat) : (s.withIng x).obj k = s.obj k := rfl
@[simp] theorem obj_withRing (s : State) (x : Ring) (k : Nat) : (s.withRing x).obj k = s.obj k := rfl
@[simp] theorem obj_withTrig (s : State) (x : Trig) (k : Nat) : (s.withTrig x).obj k = s.obj k := rfl
@[simp] theorem obj_withFes (s : State) (x : FrontEnds) (k : Nat) : (s.withFes x).obj k = s.obj k := rfl
@[simp] theorem obj_withCal (s : State) (x : Calibration) (k : Nat) : (s.withCal x).obj k = s.obj k := rfl
@[simp] theorem obj_withAcq (s : State) (x : Acq) (k : Nat) : (s.withAcq x).obj k = s.obj k := rfl
@[simp] theorem obj_withSpan (s : State) (x : Span) (k : Nat) : (s.withSpan x).obj k = s.obj k := rfl
@[simp] theorem obj_withHrs (s : State) (x : Tab HostRing) (k : Nat) : (s.withHrs x).obj k = s.obj k := rfl
@[simp] theorem obj_withNet (s : State) (x : Net) (k : Nat) : (s.withNet x).obj k = s.obj k := rfl
@[simp] theorem obj_withViews (s : State) (x : Views) (k : Nat) : (s.withViews x).obj k = s.obj k := rfl
@[simp] theorem obj_withGirders (s : State) (x : Tab Girder) (k : Nat) : (s.withGirders x).obj k = s.obj k := rfl
@[simp] theorem obj_withToll (s : State) (x : Toll) (k : Nat) : (s.withToll x).obj k = s.obj k := rfl
@[simp] theorem obj_withProds (s : State) (x : Products) (k : Nat) : (s.withProds x).obj k = s.obj k := rfl
@[simp] theorem obj_withMasks (s : State) (x : Tab Mask) (k : Nat) : (s.withMasks x).obj k = s.obj k := rfl
@[simp] theorem obj_withMovers (s : State) (x : Tab Mover) (k : Nat) : (s.withMovers x).obj k = s.obj k := rfl
@[simp] theorem obj_withCores (s : State) (x : Tab Core) (k : Nat) : (s.withCores x).obj k = s.obj k := rfl
@[simp] theorem obj_withRecd (s : State) (x : Recorder) (k : Nat) : (s.withRecd x).obj k = s.obj k := rfl
@[simp] theorem obj_withHeads (s : State) (x : Tab Head) (k : Nat) : (s.withHeads x).obj k = s.obj k := rfl
@[simp] theorem obj_withMon (s : State) (x : Monitor) (k : Nat) : (s.withMon x).obj k = s.obj k := rfl
@[simp] theorem obj_withSec (s : State) (x : Security) (k : Nat) : (s.withSec x).obj k = s.obj k := rfl
@[simp] theorem obj_withStart (s : State) (x : Startup) (k : Nat) : (s.withStart x).obj k = s.obj k := rfl
@[simp] theorem obj_withPel (s : State) (x : Pelpin) (k : Nat) : (s.withPel x).obj k = s.obj k := rfl

end Sys2Proof.Machine.State
end

section
/-! SYSREF and PPS edges and the load of Keystone time (02 R49, R51). -/

namespace Sys2Proof.Machine
open State

theorem rebase_changes (s : State) (old new : KTime) :
    ∃ f v a g c, s.rebase old new = { s with undo := [], fes := f, views := v, acq := a, trig := g, cond := c } := by
  unfold State.rebase
  exact ⟨_, _, _, _, _, rfl⟩

/-- A load that has become due: Keystone time is its value, and what was kept of the times before is put in force. -/
theorem execSysrefEdge_of_load {s : State} {v : Nat} (hload : s.ks.load = some v) (hdue : s.ks.loadDue = true) (hv : v < 2 ^ 80) (ht : v % tick = 0)
    (hmode : s.obj Key.sysrefMode = 0) : execSysrefEdge s =
      .next ((((s.rebase s.time v).withTime v).withKs { s.ks with load := none, loadDue := false }).setObj Key.sysrefLast v) := by
  unfold execSysrefEdge
  extract_lets g s1 c s2 g2
  have hs1 : s1 = ((s.rebase s.time v).withTime v).withKs { s.ks with load := none, loadDue := false } := by
    simp only [s1, hload, hdue, if_true, Nat.mod_eq_of_lt hv, g]
  have hc : c * tick = v := by
    simp only [c, hs1, edgeTick, withKs_time, withTime_time]
    simp only [tick] at ht ⊢
    omega
  have hdict : s1.dict = s.dict := by
    rw [hs1]
    obtain ⟨f, v', a, g, c', h⟩ := rebase_changes s s.time v
    rw [h]
    rfl
  have hs2 : s2.obj Key.sysrefMode = 0 := by
    rw [show s2 = s1.setObj Key.sysrefLast (c * tick) from rfl, obj_setObj, if_neg (by decide), obj_of_dict s s1 hdict, hmode]
  rw [if_neg (by rw [hs2]; decide), if_neg (by rw [hs2]; decide), show s2 = s1.setObj Key.sysrefLast (c * tick) from rfl, hc, hs1]

/-- The first edge after a write of mode 1 gives the phase. -/
theorem execSysrefEdge_of_align {s : State} (hload : s.ks.load = none) (hmode : s.obj Key.sysrefMode = 1) (harm : s.ks.alignArmed = true) :
    execSysrefEdge s = .next (((s.setObj Key.sysrefLast (s.edgeTick * tick)).withKs { s.ks with alignArmed := false }).setObj Key.sysrefPhase
      (s.edgeTick % s.obj Key.sysrefPeriod)) := by
  unfold execSysrefEdge
  extract_lets g s1 c s2 g2
  have hs1 : s1 = s := by simp only [s1, hload]
  have hs2 : s2 = s.setObj Key.sysrefLast (s.edgeTick * tick) := by simp only [s2, c, hs1]
  have hobj : ∀ k, k ≠ Key.sysrefLast → s2.obj k = s.obj k := fun k hk => by rw [hs2, obj_setObj, if_neg hk]
  rw [if_pos (by rw [hobj _ (by decide), hmode]), if_pos (by rw [hs2]; exact harm), hobj _ (by decide)]
  simp only [g2, c, hs2, hs1]
  rfl

theorem execPpsEdge_rising {s : State} {pos : Fin 64} (hedge : s.obj Key.ppsEdge = 0) (hsrc : s.obj Key.taiSource ≠ 3) :
    execPpsEdge true pos s = .next (((s.setObj Key.ppsLast (s.ticks * tick + pos.val * 1024)).bump Key.ppsCount).withKs
      { s.ks with loadDue := s.ks.load.isSome || s.ks.loadDue }) := by
  unfold execPpsEdge
  extract_lets k s1 g s2
  have hs2 : s2 = s1.withKs { s.ks with loadDue := s.ks.load.isSome || s.ks.loadDue } := by
    have hg : g = s.ks := rfl
    simp only [s2, show s1.ks = s.ks from rfl, hg]
    cases h : s.ks.load.isSome
    · simp only [Bool.false_eq_true, if_false, Bool.false_or]
      rfl
    · simp only [if_true, Bool.true_or]
  have hsrc2 : s2.obj Key.taiSource ≠ 3 := by
    rw [hs2, obj_withKs, show s1 = (s.setObj Key.ppsLast k).bump Key.ppsCount from rfl, obj_bump, if_neg (by decide), obj_setObj, if_neg (by decide)]
    exact hsrc
  rw [if_neg (by simp [hedge]), if_pos hsrc2, hs2]

/-- The codes of a write of ks.load in the order in which they are tried. -/
theorem immKsLoad_eq (s : State) (v : Nat) : s.immKsLoad v =
    if s.obj Key.ksState ≠ ksLocked ∨ s.anyPort = true ∨ s.obj Key.sysrefMode = 0 then (Res.state, s)
    else if v % tick ≠ 0 ∨ v / tick % s.obj Key.sysrefPeriod ≠ s.obj Key.sysrefPhase then (Res.range, s)
    else (Res.deferred, (s.withKs { s.ks with load := some v, loadDue := false }).setObj Key.ksLoad v) := by
  unfold immKsLoad
  by_cases hport : s.obj Key.ksState ≠ ksLocked ∨ s.anyPort = true
  · rw [if_pos hport, if_pos (by tauto)]
  · by_cases hmode : s.obj Key.sysrefMode = 0
    · rw [if_neg hport, if_pos hmode, if_pos (by tauto)]
    · rw [if_neg hport, if_neg hmode, if_neg (show ¬(_ ∨ _ ∨ _) by tauto)]
      by_cases htick : v % tick ≠ 0
      · rw [if_pos htick, if_pos (.inl htick)]
      · rw [if_neg htick]
        simp only [htick, false_or]

/-- Settles O9: edges are stamped, a due load takes effect at one, and ks.load is refused by the first case that applies. -/
theorem sysrefPpsAndLoad : Obligations.SysrefPpsAndLoad := by
  refine ⟨fun s v hload hdue hv ht hmode => ?_, fun s hload hmode harm => ?_, fun s pos hedge hsrc => ?_, fun s v hready hv => ?_⟩
  · refine ⟨_, (exec_sysrefEdge s).trans (execSysrefEdge_of_load hload hdue hv ht hmode), ?_⟩
    obtain ⟨f, v', a, g, c, h⟩ := rebase_changes s s.time v
    rw [h]
    refine ⟨rfl, rfl, ?_, rfl, fun k hk => ?_⟩
    · rw [obj_setObj, if_pos rfl, lenOf_sysrefLast, Nat.mod_eq_of_lt (lt_of_lt_of_eq hv (by decide))]
    · rw [obj_setObj, if_neg (by simpa using hk)]
      rfl
  · refine ⟨_, (exec_sysrefEdge s).trans (execSysrefEdge_of_align hload hmode harm), ?_, rfl, rfl, fun k hk => ?_⟩
    · rw [obj_setObj, if_pos rfl, lenOf_sysrefPhase]
      rfl
    · obtain ⟨hlast, hphase⟩ : k ≠ Key.sysrefLast ∧ k ≠ Key.sysrefPhase := by simpa using hk
      rw [obj_setObj, if_neg hphase, obj_withKs, obj_setObj, if_neg hlast]
  · refine ⟨_, (exec_ppsEdge ..).trans (execPpsEdge_rising hedge hsrc), ?_⟩
    refine ⟨?_, ?_, rfl, rfl, fun k hk => ?_⟩
    · rw [obj_withKs, obj_bump, if_pos rfl, obj_setObj, if_neg (by decide), lenOf_ppsCount, show (256 : Nat) ^ 4 = 2 ^ 32 from rfl]
    · rw [obj_withKs, obj_bump, if_neg (by decide), obj_setObj, if_pos rfl, lenOf_ppsLast, show (256 : Nat) ^ 10 = 2 ^ 80 from rfl]
    · obtain ⟨hlast, hcount⟩ : k ≠ Key.ppsLast ∧ k ≠ Key.ppsCount := by simpa using hk
      rw [obj_withKs, obj_bump, if_neg hcount, obj_setObj, if_neg hlast]
  · rw [exec_ksLoad, execKsLoad, if_neg (by omega)]
    have himm := immKsLoad_eq s v
    by_cases hstate : s.obj Key.ksState ≠ ksLocked ∨ s.anyPort = true ∨ s.obj Key.sysrefMode = 0
    · rw [if_pos hstate] at himm ⊢
      exact congrArg _ (act_of_ready hready himm)
    · by_cases hrange : v % tick ≠ 0 ∨ v / tick % s.obj Key.sysrefPeriod ≠ s.obj Key.sysrefPhase
      · rw [if_neg hstate, if_pos hrange] at himm ⊢
        exact congrArg _ (act_of_ready hready himm)
      · rw [if_neg hstate, if_neg hrange] at himm ⊢
        exact congrArg _ (act_of_ready hready himm)

end Sys2Proof.Machine
end

section
/-! The objects that may change from one state to another, named by a property of their keys. -/

namespace Sys2Proof.Machine.State

/-- Every object is the same in two states but those whose keys have the property. -/
def KeepsBut (P : Nat → Prop) (s t : State) : Prop := ∀ k, ¬P k → t.obj k = s.obj k

section
variable {P Q : Nat → Prop} {s t u : State}

theorem KeepsBut.refl (s : State) : KeepsBut P s s := fun _ _ => rfl

theorem KeepsBut.trans (h : KeepsBut P s t) (h' : KeepsBut P t u) : KeepsBut P s u := fun k hk => (h' k hk).trans (h k hk)

theorem KeepsBut.mono (h : KeepsBut P s t) (hPQ : ∀ k, P k → Q k) : KeepsBut Q s t := fun k hk => h k fun hp => hk (hPQ k hp)

theorem keepsObjects_iff (l : List Nat) (s t : State) : KeepsObjects l s t ↔ KeepsBut (· ∈ l) s t := Iff.rfl

theorem keepsBut_of_dict (h : t.dict = s.dict) : KeepsBut P s t := fun k _ => obj_of_dict s t h k

theorem keepsBut_setObj {k : Nat} (hk : P k) (s : State) (v : Nat) : KeepsBut P s (s.setObj k v) := fun j hj => by
  rw [obj_setObj, if_neg]
  rintro rfl
  exact hj hk

theorem keepsBut_setObjI {k : Nat} (hk : P k) (s : State) (v : Int) : KeepsBut P s (s.setObjI k v) := keepsBut_setObj hk s _

theorem keepsBut_addObj {k : Nat} (hk : P k) (s : State) (n : Nat) : KeepsBut P s (s.addObj k n) := keepsBut_setObj hk s _

theorem keepsBut_bump {k : Nat} (hk : P k) (s : State) : KeepsBut P s (s.bump k) := keepsBut_addObj hk s 1

theorem keepsBut_raiseEvent (s : State) (n : Nat) : KeepsBut P s (s.raiseEvent n) := fun k _ => obj_raiseEvent s n k

theorem keepsBut_setPromise (hP : P Key.statusPromise) (s : State) (b : Nat) (x : Bool) : KeepsBut P s (s.setPromise b x) := by
  unfold setPromise putPromise
  extract_lets v
  split
  · exact .refl s
  · exact (keepsBut_setObj hP s v).trans (keepsBut_raiseEvent _ 1)

theorem listsBut_raiseEvent (s : State) (n : Nat) : ListsBut P s (s.raiseEvent n) := listsBut_of_dict (by rw [raiseEvent_eq]; rfl)

theorem listsBut_setPromise (hP : P Key.statusPromise) (s : State) (b : Nat) (x : Bool) : ListsBut P s (s.setPromise b x) := by
  unfold setPromise putPromise
  extract_lets v
  split
  · exact .refl s
  · exact (listsBut_setObj hP s v).trans (listsBut_raiseEvent _ 1)

theorem listsBut_foldl {α : Type} (l : List α) (f : State → α → State) (h : ∀ s x, ListsBut P s (f s x)) (s : State) : ListsBut P s (l.foldl f s) := by
  induction l generalizing s with
  | nil => exact .refl s
  | cons x l ih => exact (h s x).trans (ih _)

theorem keepsBut_onlyRequests (hP : ∀ k, isMemCounter k → P k) (h : OnlyRequests s t) : KeepsBut P s t := fun k hk => h.2.1 k fun hm => hk (hP k hm)

theorem keepsBut_onlyPackets (h : OnlyPackets s t) : KeepsBut P s t := by
  obtain ⟨x, o, rfl⟩ := h
  exact .refl s

theorem keepsBut_foldl_of_mem {α : Type} (l : List α) (f : State → α → State) (h : ∀ s, ∀ x ∈ l, KeepsBut P s (f s x)) (s : State) : KeepsBut P s (l.foldl f s) := by
  induction l generalizing s with
  | nil => exact .refl s
  | cons x l ih => exact (h s x List.mem_cons_self).trans (ih (fun s y hy => h s y (List.mem_cons_of_mem x hy)) _)

theorem keepsBut_foldl {α : Type} (l : List α) (f : State → α → State) (h : ∀ s x, KeepsBut P s (f s x)) (s : State) : KeepsBut P s (l.foldl f s) :=
  keepsBut_foldl_of_mem l f (fun s x _ => h s x) s

end

end Sys2Proof.Machine.State
end

section
/-! Byte fields of a value: what is read after a write (13 R351). -/

namespace Sys2Proof.Machine

theorem fieldAt_one (v off : Nat) : fieldAt v off 1 = v / 256 ^ off % 256 := by
  rw [fieldAt, Nat.shiftRight_eq_div_pow, Nat.pow_mul, Nat.pow_one]

/-- Values that agree below the end of a byte have that byte in common. -/
theorem fieldAt_congr_of_mod {a b j n : Nat} (h : a % 256 ^ n = b % 256 ^ n) (hj : j < n) : fieldAt a j 1 = fieldAt b j 1 := by
  have hd : 256 ^ (j + 1) ∣ 256 ^ n := Nat.pow_dvd_pow 256 hj
  have hmod : a % 256 ^ (j + 1) = b % 256 ^ (j + 1) := by rw [← Nat.mod_mod_of_dvd a hd, h, Nat.mod_mod_of_dvd b hd]
  rw [fieldAt_one, fieldAt_one, ← Nat.mod_mul_right_div_self, ← Nat.mod_mul_right_div_self, ← Nat.pow_succ, hmod]

/-- Values that agree above a byte have every byte above it in common. -/
theorem fieldAt_congr_of_div {a b j n : Nat} (h : a / 256 ^ n = b / 256 ^ n) (hj : n ≤ j) : fieldAt a j 1 = fieldAt b j 1 := by
  obtain ⟨e, rfl⟩ := Nat.exists_eq_add_of_le hj
  rw [fieldAt_one, fieldAt_one, Nat.pow_add, ← Nat.div_div_eq_div_mul, ← Nat.div_div_eq_div_mul, h]

/-- Fields below a bound do not see what lies at or above it. -/
theorem fieldAt_mod (v : Nat) {n j : Nat} (h : j < n) : fieldAt (v % 256 ^ n) j 1 = fieldAt v j 1 := fieldAt_congr_of_mod (Nat.mod_mod _ _) h

/-- A value with its byte at off replaced: what lies above, the byte, and what lies below. -/
theorem setFieldAt_one (v off x : Nat) : setFieldAt v off 1 x = 256 ^ off * (256 * (v / 256 ^ (off + 1)) + x % 256) + v % 256 ^ off := by
  have h1 : 256 ^ off * (v / 256 ^ off) + v % 256 ^ off = v := Nat.div_add_mod ..
  have h2 : 256 * (v / 256 ^ off / 256) + v / 256 ^ off % 256 = v / 256 ^ off := Nat.div_add_mod ..
  rw [setFieldAt, fieldAt_one, Nat.pow_one, Nat.pow_succ, ← Nat.div_div_eq_div_mul]
  generalize v / 256 ^ off / 256 = hi at *
  generalize v / 256 ^ off % 256 = d at *
  generalize v % 256 ^ off = lo at *
  rw [← h2, Nat.mul_add] at h1
  rw [Nat.mul_add, Nat.mul_comm d, Nat.mul_comm (x % 256)]
  omega

theorem fieldAt_setFieldAt_self (v off x : Nat) : fieldAt (setFieldAt v off 1 x) off 1 = x % 256 := by
  have hpos : 0 < 256 ^ off := Nat.pow_pos (by decide)
  rw [fieldAt_one, setFieldAt_one, Nat.mul_add_div hpos, Nat.div_eq_of_lt (Nat.mod_lt _ hpos)]
  omega

theorem fieldAt_setFieldAt_of_ne (v x : Nat) {off j : Nat} (h : j ≠ off) : fieldAt (setFieldAt v off 1 x) j 1 = fieldAt v j 1 := by
  have hpos : 0 < 256 ^ off := Nat.pow_pos (by decide)
  rcases Nat.lt_or_gt_of_ne h with hlt | hgt
  · refine fieldAt_congr_of_mod (n := off) ?_ hlt
    rw [setFieldAt_one, Nat.mul_add_mod, Nat.mod_mod]
  · refine fieldAt_congr_of_div (n := off + 1) ?_ hgt
    rw [Nat.pow_succ, ← Nat.div_div_eq_div_mul, setFieldAt_one, Nat.mul_add_div hpos, Nat.div_eq_of_lt (Nat.mod_lt _ hpos), Nat.pow_succ]
    omega

end Sys2Proof.Machine
end

section
/-! The lanes of a truss port, and what the news of a port and its nodes leaves alone (15 R403, R417, R420). -/

namespace Sys2Proof.Machine.State

/-! ### Lane states -/

theorem laneState_putLaneState (s : State) {p l j : Nat} (hp : p < 4) (st : Nat) (hj : j < 5) :
    (s.putLaneState p l st).laneState p j = if j = l then st % 256 else s.laneState p j := by
  rw [laneState, putLaneState, obj_setObj, if_pos rfl, lenOf_trussLaneState p hp, fieldAt_mod _ hj]
  split
  case isTrue h => rw [h, fieldAt_setFieldAt_self]
  case isFalse h => rw [fieldAt_setFieldAt_of_ne _ _ h, laneState]

theorem laneState_of_obj {s t : State} {p : Nat} (h : t.obj (Key.trussLaneState p) = s.obj (Key.trussLaneState p)) (l : Nat) : t.laneState p l = s.laneState p l := by
  rw [laneState, laneState, h]

theorem laneIn_of_obj {s t : State} {p : Nat} (h : t.obj (Key.trussLaneState p) = s.obj (Key.trussLaneState p)) (l : Nat) : t.laneIn p l = s.laneIn p l := by
  simp only [laneIn, laneState_of_obj h]

theorem logicalLanes_of_obj {s t : State} {p : Nat} (h : t.obj (Key.trussLaneState p) = s.obj (Key.trussLaneState p)) : t.logicalLanes p = s.logicalLanes p := by
  simp only [logicalLanes, laneIn_of_obj h]

theorem mem_logicalLanes {s : State} {p l : Nat} : l ∈ s.logicalLanes p ↔ l < 5 ∧ s.laneIn p l = true := by simp [logicalLanes]

theorem laneIn_iff (s : State) (p l : Nat) : s.laneIn p l = true ↔ s.laneState p l = 1 ∨ s.laneState p l = 2 := by
  simp [laneIn, laneActive, laneAsleep]

/-- The lanes in service after a lane takes another state. -/
theorem laneIn_putLaneState (s : State) {p l j : Nat} (hp : p < 4) (st : Nat) (hj : j < 5) :
    (s.putLaneState p l st).laneIn p j = if j = l then decide (st % 256 = 1 ∨ st % 256 = 2) else s.laneIn p j := by
  rw [Bool.eq_iff_iff, laneIn_iff, laneState_putLaneState s hp st hj]
  split
  · rw [decide_eq_true_iff]
  · rw [laneIn_iff]

/-! ### What refreshing the map of a port changes -/

/-- The objects of a port's map. -/
def isMapKey (p k : Nat) : Prop := k = Key.trussMap p ∨ k = Key.trussLanes p ∨ k = Key.trussLaneState p

/-- A port's map is written anew and its lowest lane in service woken; no other lane changes, and the same lanes are in service. -/
structure MapFresh (s : State) (p : Nat) (t : State) : Prop where
  dict : ∃ d, t = s.withDict d
  keeps : KeepsBut (isMapKey p) s t
  lanes : t.obj (Key.trussLanes p) = (s.logicalLanes p).length
  laneState : ∀ j < 5, s.laneState p j ≠ 2 → t.laneState p j = s.laneState p j
  laneIn : ∀ j < 5, t.laneIn p j = s.laneIn p j

theorem refreshLanes_spec (s : State) {p : Nat} (hp : p < 4) : MapFresh s p (s.refreshLanes p) := by
  unfold refreshLanes
  extract_lets ls s1
  have hkeeps : KeepsBut (isMapKey p) s s1 := (keepsBut_setObj (.inl rfl) _ _).trans (keepsBut_setObj (.inr (.inl rfl)) _ _)
  have hstate : s1.obj (Key.trussLaneState p) = s.obj (Key.trussLaneState p) := by
    simp only [s1, obj_setObj]
    rw [if_neg (by unfold Key.trussLaneState Key.trussLanes; omega), if_neg (by unfold Key.trussLaneState Key.trussMap; omega)]
  have hlen : (s.logicalLanes p).length ≤ 5 := (List.length_filter_le _ _).trans (by simp)
  have hlanes : s1.obj (Key.trussLanes p) = (s.logicalLanes p).length := by
    simp only [s1, obj_setObj, if_true, lenOf_trussLanes p hp, ls]
    omega
  have hdict : ∃ d, s1 = s.withDict d := ⟨_, rfl⟩
  have hls : ls = s.logicalLanes p := rfl
  clear_value s1 ls
  have hsame : MapFresh s p s1 := ⟨hdict, hkeeps, hlanes, fun j _ _ => laneState_of_obj hstate j, fun j _ => laneIn_of_obj hstate j⟩
  split
  case h_1 => exact hsame
  case h_2 l r =>
    split
    case isFalse => exact hsame
    case isTrue hasleep =>
      have hasleep' : s.laneState p l = 2 := (laneState_of_obj hstate l).symm.trans hasleep
      obtain ⟨d, rfl⟩ := hdict
      refine ⟨⟨((s.withDict d).putLaneState p l laneActive).dict, rfl⟩, hkeeps.trans (keepsBut_setObj (.inr (.inr rfl)) _ _), ?_, fun j hj hne => ?_, fun j hj => ?_⟩
      · rw [putLaneState, obj_setObj, if_neg (by unfold Key.trussLaneState Key.trussLanes; omega), hlanes]
      · rw [laneState_putLaneState _ hp _ hj, if_neg, laneState_of_obj hstate]
        rintro rfl
        exact hne hasleep'
      · rw [laneIn_putLaneState _ hp _ hj]
        split
        case isTrue h => rw [h, (laneIn_iff s p l).mpr (.inr hasleep')]; rfl
        case isFalse => exact laneIn_of_obj hstate j

/-! ### The news of a port, and the span's state -/

/-- The objects that the news of a node changes: the span's state and lost nodes, the promise, merge groups' rings, and the counters of requests. -/
def isNewsKey (k : Nat) : Prop :=
  isMemCounter k ∨ k = Key.spanLost ∨ k = Key.spanState ∨ k = Key.statusPromise ∨ (0x1640 ≤ k / 256 ∧ k / 256 < 0x1660)

theorem isNewsKey_merge {k g : Nat} (hg : g < 32) (h : ∃ j, 1 ≤ j ∧ j ≤ 11 ∧ k = 0x164000 + 256 * g + j) : isNewsKey k := by
  obtain ⟨j, h1, h2, rfl⟩ := h
  exact .inr (.inr (.inr (.inr ⟨by omega, by omega⟩)))

theorem keepsBut_refreshSpan (s : State) : KeepsBut isNewsKey s s.refreshSpan := by
  have hkey : isNewsKey Key.spanState := .inr (.inr (.inl rfl))
  unfold refreshSpan
  split
  · exact .refl s
  · split
    · exact keepsBut_setObj hkey _ _
    · exact keepsBut_setObj hkey _ _

theorem keepsBut_refreshSpares (s : State) : KeepsBut isNewsKey s s.refreshSpares := keepsBut_setPromise (.inr (.inr (.inr (.inl rfl)))) _ _ _

theorem keepsBut_ringRecord (s : State) (o : Owner) (base size place : Nat) (record : Bytes) : KeepsBut isMemCounter s (s.ringRecord o base size place record).2 := by
  unfold ringRecord
  extract_lets total wraps s1 off s2
  have h1 : KeepsBut isMemCounter s s1 := by
    simp only [s1]
    split
    · exact keepsBut_onlyRequests (fun _ h => h) (onlyRequests_memWrite ..)
    · exact .refl s
  exact (h1.trans (keepsBut_onlyRequests (fun _ h => h) (onlyRequests_memWrite ..))).trans (keepsBut_onlyRequests (fun _ h => h) (onlyRequests_memWrite ..))

theorem keepsBut_mergeAcked {g : Nat} (hg : g < 32) (n : Nat) (s : State) : KeepsBut isNewsKey s (s.mergeAcked g n) := by
  induction n generalizing s with
  | zero => exact .refl s
  | succ n ih =>
    unfold mergeAcked
    extract_lets x
    split
    · exact .refl s
    · split
      · exact .refl s
      · refine KeepsBut.trans ?_ (ih _)
        have hput : ∀ y, KeepsBut isNewsKey s (s.putMerge g y) := fun y => keepsBut_of_dict rfl
        exact (((hput _).trans (keepsBut_setObj (isNewsKey_merge hg ⟨8, by omega, by omega, by unfold Key.mergeRingWptr; omega⟩) _ _)).trans
          (keepsBut_bump (isNewsKey_merge hg ⟨9, by omega, by omega, by unfold Key.mergeRecords; omega⟩) _)).trans (keepsBut_raiseEvent _ 7)

theorem keepsBut_mergeWrite {g : Nat} (hg : g < 32) (s : State) (slot : MergeSlot) : KeepsBut isNewsKey s (s.mergeWrite g slot) := by
  unfold mergeWrite
  extract_lets short recs x gone
  clear_value recs
  split
  · exact .refl s
  · extract_lets same left body merged fl s1 record
    have h1 : KeepsBut isNewsKey s s1 := (keepsBut_addObj (isNewsKey_merge hg ⟨11, by omega, by omega, by unfold Key.mergeMismatch; omega⟩) _ _).trans
      (keepsBut_addObj (isNewsKey_merge hg ⟨10, by omega, by omega, by unfold Key.mergeIncomplete; omega⟩) _ _)
    have h2 := (keepsBut_ringRecord s1 (.merge g) (s.obj (Key.mergeRingBase g)) (s.obj (Key.mergeRingSize g)) x.next record).mono (Q := isNewsKey) fun _ h => .inl h
    generalize s1.ringRecord (.merge g) (s.obj (Key.mergeRingBase g)) (s.obj (Key.mergeRingSize g)) x.next record = w at h2 ⊢
    obtain ⟨⟨off, next, total⟩, s2⟩ := w
    have hput : ∀ (u : State) y, KeepsBut isNewsKey u (u.putMerge g y) := fun u y => keepsBut_of_dict rfl
    exact ((h1.trans h2).trans (hput _ _)).trans (keepsBut_mergeAcked hg 64 _)

theorem keepsBut_mergeSettle {g : Nat} (hg : g < 32) (s : State) : KeepsBut isNewsKey s (s.mergeSettle g) := by
  unfold mergeSettle
  extract_lets full m s1
  have h1 : KeepsBut isNewsKey s s1 := keepsBut_of_dict rfl
  exact h1.trans (keepsBut_foldl _ _ (fun _ _ => keepsBut_mergeWrite hg _ _) _)

theorem onlyPackets_sendData (s : State) (dest kind id : Nat) (body : Bytes) : OnlyPackets s (s.sendData dest kind id body) := by
  unfold sendData
  extract_lets parts
  split
  · exact onlyPackets_foldl _ _ (fun _ _ => onlyPackets_trussBroadcast ..) s
  · split
    · exact onlyPackets_foldl _ _ (fun _ _ => onlyPackets_trussSend ..) s
    · exact .refl s

theorem onlyPackets_resendForwards (s : State) (node : Nat) : OnlyPackets s (s.resendForwards node) := onlyPackets_foldl _ _ (fun _ _ => onlyPackets_sendData ..) s

theorem keepsBut_nodeNews (s : State) (n : Nat) (lost : Bool) (from' : Option Nat) : KeepsBut isNewsKey s (s.nodeNews n lost from') := by
  unfold nodeNews
  split
  · exact .refl s
  · extract_lets s1 s2
    have h1 : KeepsBut isNewsKey s s1 := (keepsBut_setObj (.inr (.inl rfl)) _ _).trans (keepsBut_refreshSpan _)
    have h2 : KeepsBut isNewsKey s s2 := by
      refine h1.trans (keepsBut_foldl _ _ (fun y p => ?_) s1)
      split
      · exact .refl y
      · exact keepsBut_onlyPackets (onlyPackets_trussSend ..)
    split
    · refine h2.trans (keepsBut_foldl_of_mem _ _ (fun y g hg => ?_) s2)
      split
      · exact keepsBut_mergeSettle (List.mem_range.mp hg) y
      · exact .refl y
    · exact h2.trans (keepsBut_onlyPackets (onlyPackets_resendForwards ..))

theorem not_isNewsKey_truss {k p : Nat} (hp : p < 4) (h : ∃ j, 1 ≤ j ∧ j ≤ 8 ∧ k = 0x160800 + 256 * p + j) : ¬isNewsKey k := by
  obtain ⟨j, h1, h2, rfl⟩ := h
  unfold isNewsKey isMemCounter Key.memLostWrites Key.memLostReads Key.memchInorder Key.spanLost Key.spanState Key.statusPromise
  rintro ((h | h | ⟨n, hn, h⟩) | h | h | h | h) <;> omega

/-- A port that goes DOWN says so in its state; the rest is news of its neighbour. -/
theorem portDown_spec (s : State) {p : Nat} (hp : p < 4) : KeepsBut (fun k => isNewsKey k ∨ k = Key.trussState p) s (s.portDown p) ∧
    (s.portDown p).obj (Key.trussState p) = 5 := by
  unfold portDown
  extract_lets g s1 s2
  have h1 : KeepsBut (· = Key.trussState p) s s1 := (keepsBut_setObj (P := (· = Key.trussState p)) rfl s 5).trans (keepsBut_of_dict rfl)
  have hstate : s1.obj (Key.trussState p) = 5 := by
    rw [obj_of_dict (s.setObj (Key.trussState p) 5) s1 rfl, obj_setObj, if_pos rfl, lenOf_trussState p hp]
    rfl
  have h2 : KeepsBut isNewsKey s1 s2 := by
    simp only [s2]
    split
    · exact keepsBut_nodeNews s1 _ _ _
    · exact .refl s1
  have h3 : KeepsBut isNewsKey s1 s2.refreshSpan.refreshSpares := (h2.trans (keepsBut_refreshSpan s2)).trans (keepsBut_refreshSpares _)
  refine ⟨(h1.mono fun _ h => .inr h).trans (h3.mono fun _ h => .inl h), ?_⟩
  rw [h3 _ (not_isNewsKey_truss hp ⟨1, by omega, by omega, by unfold Key.trussState; omega⟩), hstate]

end Sys2Proof.Machine.State
end

section
/-! The lanes of a truss port: failures, the spare, sleep, restart and frames (15 R416 to R418, R426). -/

namespace Sys2Proof.Machine

namespace State

/-! ### A lane that fails -/

/-- Two keys of a truss port's objects are different. -/
theorem not_isMapKey_of_sub {p k j : Nat} (hk : k = 0x160800 + 256 * p + j) (hj : j ≠ 3 ∧ j ≠ 4 ∧ j ≠ 5) : ¬isMapKey p k := by
  unfold isMapKey Key.trussMap Key.trussLanes Key.trussLaneState
  omega

theorem logicalLanes_eq_nil_iff {s : State} {p : Nat} : s.logicalLanes p = [] ↔ ∀ j < 5, s.laneIn p j = false := by
  simp [logicalLanes]

/-- A lane is failed and counted, and the port's map written anew; the other lanes in service stay. -/
structure LaneOut (s : State) (p l : Nat) (t : State) : Prop where
  keeps : KeepsBut (fun k => k = Key.trussFailovers p ∨ isMapKey p k) s t
  dict : ∃ d, t = s.withDict d
  laneState : t.laneState p l = 4
  failovers : t.obj (Key.trussFailovers p) = (s.obj (Key.trussFailovers p) + 1) % 2 ^ 32
  laneIn : ∀ j < 5, t.laneIn p j = (s.laneIn p j && decide (j ≠ l))
  last : s.logicalLanes p = [l] → t.obj (Key.trussLanes p) = 0

theorem laneOut_of_failed (s : State) {p l : Nat} (hp : p < 4) (hl : l < 5) :
    LaneOut s p l (((s.putLaneState p l laneFailed).bump (Key.trussFailovers p)).refreshLanes p) := by
  generalize hu : (s.putLaneState p l laneFailed).bump (Key.trussFailovers p) = u
  have hkey : Key.trussFailovers p ≠ Key.trussLaneState p := by unfold Key.trussFailovers Key.trussLaneState; omega
  have hobj : u.obj (Key.trussLaneState p) = (s.putLaneState p l laneFailed).obj (Key.trussLaneState p) := by rw [← hu, obj_bump, if_neg hkey.symm]
  have hkeeps : KeepsBut (fun k => k = Key.trussFailovers p ∨ isMapKey p k) s u :=
    hu ▸ (keepsBut_setObj (P := fun k => k = Key.trussFailovers p ∨ isMapKey p k) (.inr (.inr (.inr rfl))) s _).trans (keepsBut_bump (.inl rfl) _)
  have hstate : ∀ j < 5, u.laneState p j = if j = l then 4 else s.laneState p j := fun j hj => by
    rw [laneState_of_obj hobj, laneState_putLaneState s hp _ hj]
    rfl
  have hin : ∀ j < 5, u.laneIn p j = (s.laneIn p j && decide (j ≠ l)) := fun j hj => by
    rw [laneIn_of_obj hobj, laneIn_putLaneState s hp _ hj]
    by_cases h : j = l <;> simp [h, laneFailed]
  have hcount : u.obj (Key.trussFailovers p) = (s.obj (Key.trussFailovers p) + 1) % 2 ^ 32 := by
    rw [← hu, obj_bump, if_pos rfl, putLaneState, obj_setObj, if_neg hkey, lenOf_trussFailovers p hp]
    rfl
  obtain ⟨⟨d, hd⟩, hmap, hlanes, hsame, hins⟩ := refreshLanes_spec u hp
  have hl4 : u.laneState p l = 4 := by rw [hstate l hl, if_pos rfl]
  refine ⟨hkeeps.trans (hmap.mono fun _ h => .inr h), ⟨d, by rw [hd, ← hu]; rfl⟩, ?_, ?_, fun j hj => (hins j hj).trans (hin j hj), fun hone => ?_⟩
  · rw [hsame l hl (by omega), hl4]
  · rw [hmap _ (not_isMapKey_of_sub (j := 8) (by unfold Key.trussFailovers; omega) (by omega)), hcount]
  · have hnil : u.logicalLanes p = [] := by
      rw [logicalLanes_eq_nil_iff]
      intro j hj
      rw [hin j hj]
      by_cases hin' : s.laneIn p j = true
      · have hmem : j ∈ s.logicalLanes p := mem_logicalLanes.mpr ⟨hj, hin'⟩
        rw [hone, List.mem_singleton] at hmem
        simp [hmem]
      · simp [hin']
    rw [hlanes, hnil, List.length_nil]

/-- The objects that a retired lane changes: those of its port, and the news it makes. -/
def isRetireKey (p k : Nat) : Prop := isNewsKey k ∨ k = Key.trussState p ∨ k = Key.trussFailovers p ∨ isMapKey p k

/-- A lane is retired: failed and counted, the other lanes in service stay, and a port whose last lane it was is DOWN. -/
structure Retired (s : State) (p l : Nat) (t : State) : Prop where
  keeps : KeepsBut (isRetireKey p) s t
  laneState : t.laneState p l = 4
  failovers : t.obj (Key.trussFailovers p) = (s.obj (Key.trussFailovers p) + 1) % 2 ^ 32
  laneIn : ∀ j < 5, t.laneIn p j = (s.laneIn p j && decide (j ≠ l))
  down : s.logicalLanes p = [l] → t.obj (Key.trussState p) = 5

theorem retireLane_of_not_laneIn {s : State} {p l : Nat} (h : s.laneIn p l = false) (tell : Bool) : s.retireLane p l tell = s := by
  simp [retireLane, h]

/-- What follows a lane's failure leaves its port's lanes and count alone. -/
theorem LaneOut.retired {s t u : State} {p l : Nat} (h : LaneOut s p l t) (hk : KeepsBut (fun k => isNewsKey k ∨ k = Key.trussState p) t u) (hp : p < 4)
    (hdown : s.logicalLanes p = [l] → u.obj (Key.trussState p) = 5) : Retired s p l u := by
  obtain ⟨hkeeps, -, hstate, hcount, hin, -⟩ := h
  have hlane : u.obj (Key.trussLaneState p) = t.obj (Key.trussLaneState p) := hk _ (by
    rintro (h | h)
    · exact not_isNewsKey_truss hp ⟨5, by omega, by omega, by unfold Key.trussLaneState; omega⟩ h
    · unfold Key.trussLaneState Key.trussState at h; omega)
  have hfail : u.obj (Key.trussFailovers p) = t.obj (Key.trussFailovers p) := hk _ (by
    rintro (h | h)
    · exact not_isNewsKey_truss hp ⟨8, by omega, by omega, by unfold Key.trussFailovers; omega⟩ h
    · unfold Key.trussFailovers Key.trussState at h; omega)
  refine ⟨(hkeeps.mono ?_).trans (hk.mono ?_), by rw [laneState_of_obj hlane, hstate], by rw [hfail, hcount], fun j hj => by rw [laneIn_of_obj hlane, hin j hj], hdown⟩
  · exact fun _ h => .inr (.inr h)
  · exact fun _ h => h.elim .inl fun h => .inr (.inl h)

theorem retireLane_spec {s : State} {p l : Nat} (hp : p < 4) (hl : l < 5) (hin : s.laneIn p l = true) (tell : Bool) : Retired s p l (s.retireLane p l tell) := by
  unfold retireLane
  rw [if_neg (by simp [hin])]
  extract_lets spare s1 g s2 s3 s4
  have hout : LaneOut s p l s1 := laneOut_of_failed s hp hl
  have h2 : s2.dict = s1.dict := by
    simp only [s2]
    split <;> rfl
  clear_value s1 s2
  have hk2 : ∀ {P}, KeepsBut P s1 s2 := keepsBut_of_dict h2
  split
  case isTrue =>
    obtain ⟨hk, hstate⟩ := portDown_spec s2 hp
    exact hout.retired (hk2.trans hk) hp fun _ => hstate
  case isFalse hsome =>
    have hk3 : KeepsBut (fun k => isNewsKey k ∨ k = Key.trussState p) s2 s3 := by
      simp only [s3]
      split
      · exact keepsBut_onlyPackets (onlyPackets_trussSend ..)
      · exact .refl s2
    have hk4 : KeepsBut (fun k => isNewsKey k ∨ k = Key.trussState p) s3 s4 := by
      simp only [s4]
      split
      · exact keepsBut_setObj (.inr rfl) _ _
      · exact .refl s3
    refine hout.retired (((hk2.trans hk3).trans hk4).trans ((keepsBut_refreshSpares s4).mono fun _ h => .inl h)) hp fun hone => absurd ?_ hsome
    rw [obj_of_dict s1 s2 h2, hout.last hone]

/-! ### Spares, sleep and bring-up -/

theorem trussLane_key (p : Nat) {P : Nat → Prop} (hp : p < 4) (hP : ∀ k, P k → isNewsKey k ∨ k = Key.trussState p) : ¬P (Key.trussLaneState p) := fun h => by
  rcases hP _ h with h | h
  · exact not_isNewsKey_truss hp ⟨5, by omega, by omega, by unfold Key.trussLaneState; omega⟩ h
  · unfold Key.trussLaneState Key.trussState at h; omega

theorem span_setPromise (s : State) (b : Nat) (x : Bool) : (s.setPromise b x).span = s.span := by
  obtain ⟨d, p, h⟩ := setPromise_changes s b x
  rw [h]
  rfl

theorem span_setObj (s : State) (k v : Nat) : (s.setObj k v).span = s.span := rfl

theorem span_refreshSpares (s : State) : s.refreshSpares.span = s.span := span_setPromise ..

theorem span_refreshSpan (s : State) : s.refreshSpan.span = s.span := by
  unfold refreshSpan
  split
  · rfl
  · split <;> rfl

@[simp] theorem trussPort_putTrussPort (s : State) (p : Nat) (x : TrussPort) (q : Nat) : (s.putTrussPort p x).trussPort q = if q = p then x else s.trussPort q := by
  simp [putTrussPort, trussPort]

theorem obj_refreshSpares_truss (s : State) {p j : Nat} (hp : p < 4) (h1 : 1 ≤ j) (h2 : j ≤ 8) :
    s.refreshSpares.obj (0x160800 + 256 * p + j) = s.obj (0x160800 + 256 * p + j) :=
  keepsBut_refreshSpares s _ (not_isNewsKey_truss hp ⟨j, h1, h2, rfl⟩)

theorem obj_refreshSpan_truss (s : State) {p j : Nat} (hp : p < 4) (h1 : 1 ≤ j) (h2 : j ≤ 8) :
    s.refreshSpan.obj (0x160800 + 256 * p + j) = s.obj (0x160800 + 256 * p + j) :=
  keepsBut_refreshSpan s _ (not_isNewsKey_truss hp ⟨j, h1, h2, rfl⟩)

theorem trussState_eq (p : Nat) : Key.trussState p = 0x160800 + 256 * p + 1 := by unfold Key.trussState; omega

theorem trussNeighbour_eq (p : Nat) : Key.trussNeighbour p = 0x160800 + 256 * p + 2 := by unfold Key.trussNeighbour; omega

theorem trussLanes_eq (p : Nat) : Key.trussLanes p = 0x160800 + 256 * p + 3 := by unfold Key.trussLanes; omega

theorem trussLaneState_eq (p : Nat) : Key.trussLaneState p = 0x160800 + 256 * p + 5 := by unfold Key.trussLaneState; omega

theorem trussFrameCrc_eq (p : Nat) : Key.trussFrameCrc p = 0x160800 + 256 * p + 6 := by unfold Key.trussFrameCrc; omega

theorem trussFailovers_eq (p : Nat) : Key.trussFailovers p = 0x160800 + 256 * p + 8 := by unfold Key.trussFailovers; omega

/-- The only lane in deep sleep, lane 4, is the spare that joins. -/
theorem find_spare {s : State} {p : Nat} (hrest : ∀ l < 4, s.laneState p l ≠ 3) (hspare : s.laneState p 4 = 3) :
    ((List.range 5).find? fun l => s.laneState p l == laneDeep) = some 4 := by
  simp [List.range_succ, List.find?_append, hrest, hspare, laneDeep]

theorem logicalLanes_wake_spare {s u : State} {p : Nat} (hspare : s.laneIn p 4 = false) (h : ∀ j < 5, u.laneIn p j = (s.laneIn p j || decide (j = 4))) :
    u.logicalLanes p = s.logicalLanes p ++ [4] := by
  have h' : ∀ j < 4, u.laneIn p j = s.laneIn p j := fun j hj => by rw [h j (by omega)]; simp [show j ≠ 4 by omega]
  have h4 : u.laneIn p 4 = true := by simp [h 4 (by omega)]
  unfold logicalLanes
  rw [show List.range 5 = List.range 4 ++ [4] from rfl, List.filter_append, List.filter_append]
  have hnone : [4].filter (fun l => s.laneIn p l) = [] := by simp [hspare]
  have hone : [4].filter (fun l => u.laneIn p l) = [4] := by simp [h4]
  rw [hnone, hone, List.append_nil]
  congr 1
  exact List.filter_congr fun j hj => h' j (List.mem_range.mp hj)

/-! ### What codes that wait for a frame change (17 R459) -/

/-- Waiting codes of a unit are applied: its last calibration and stale items change. -/
theorem applyCal_changes (s : State) (unit item : Nat) : (∃ d p c x, s.applyCal unit item = { s with dict := d, pev := p, cond := c, cal := x }) ∧
    KeepsBut (fun k => k = Key.calLast unit ∨ k = Key.calStaleItems unit ∨ k = Key.calStale) s (s.applyCal unit item) := by
  unfold applyCal
  extract_lets x
  split
  · exact ⟨⟨s.dict, s.pev, s.cond, s.cal, rfl⟩, .refl s⟩
  · rename_i codes
    extract_lets s1
    unfold refreshStale
    extract_lets n
    generalize hu : ((s1.setObj (Key.calLast unit) s.time).setObj (Key.calStaleItems unit) n).setObj Key.calStale _ = u
    obtain ⟨c, hc⟩ := noteCauses_changes u
    rw [raiseEvent_eq, hc]
    have h1 : KeepsBut (fun k => k = Key.calLast unit ∨ k = Key.calStaleItems unit ∨ k = Key.calStale) s u := by
      have h0 : KeepsBut (fun k => k = Key.calLast unit ∨ k = Key.calStaleItems unit ∨ k = Key.calStale) s s1 := keepsBut_of_dict rfl
      exact hu ▸ ((h0.trans (keepsBut_setObj (.inl rfl) _ _)).trans (keepsBut_setObj (.inr (.inl rfl)) _ _)).trans (keepsBut_setObj (.inr (.inr rfl)) _ _)
    have hform : ∃ d x, u = (s.withDict d).withCal x := ⟨u.dict, s1.cal, by rw [← hu]; rfl⟩
    refine ⟨?_, h1.trans (keepsBut_of_dict rfl)⟩
    generalize ((u.withCond c).raiseEvent 10).pev = q
    obtain ⟨d, y, rfl⟩ := hform
    exact ⟨d, q, c, y, rfl⟩

theorem span_applyCal (s : State) (unit item : Nat) : (s.applyCal unit item).span = s.span := by
  obtain ⟨⟨d, e, c, z, h⟩, -⟩ := applyCal_changes s unit item
  rw [h]

theorem keeps_truss_applyCal (s : State) (item : Nat) {p j : Nat} (hp : p < 4) (hj : j ≤ 8) : (s.applyCal 2 item).obj (0x160800 + 256 * p + j) = s.obj (0x160800 + 256 * p + j) :=
  (applyCal_changes s 2 item).2 _ (by unfold Key.calLast Key.calStaleItems Key.calStale; omega)

end State

open State

/-- The spare has joined: its lane is in service, and a port of three lanes and the spare has four. -/
theorem completes_trussSpareJoin {s : State} {p : Fin 4} {w : Nat} (hjoin : (s.trussPort p.val).joining = some w) (hrest : ∀ l < 4, s.laneState p.val l ≠ 3)
    (hspare : s.laneState p.val 4 = 3) : Completes (.trussSpareJoin p) s fun t => t.laneState p.val 4 = 1 ∧ (t.trussPort p.val).joining = none ∧
      t.obj (Key.trussLanes p.val) = (s.logicalLanes p.val).length + 1 ∧
      (s.obj (Key.trussState p.val) = 3 → (s.logicalLanes p.val).length = 3 → t.obj (Key.trussState p.val) = 2) := by
  have hp := p.isLt
  generalize hu : (s.putLaneState p.val 4 laneActive).putTrussPort p.val { s.trussPort p.val with joining := none } = u
  have hdict : u.dict = (s.putLaneState p.val 4 laneActive).dict := by rw [← hu]; rfl
  have hlane : u.obj (Key.trussLaneState p.val) = (s.putLaneState p.val 4 laneActive).obj (Key.trussLaneState p.val) := obj_of_dict _ _ hdict _
  have hstate4 : u.laneState p.val 4 = 1 := by rw [laneState_of_obj hlane, laneState_putLaneState s hp _ (by omega), if_pos rfl]; rfl
  have hin4 : s.laneIn p.val 4 = false := by simp [laneIn, hspare, laneActive, laneAsleep]
  have hin : ∀ j < 5, u.laneIn p.val j = (s.laneIn p.val j || decide (j = 4)) := fun j hj => by
    rw [laneIn_of_obj hlane, laneIn_putLaneState s hp _ hj]
    by_cases h : j = 4 <;> simp [h, laneActive]
  have hport : (u.trussPort p.val).joining = none := by rw [← hu, trussPort_putTrussPort, if_pos rfl]
  have hstate : u.obj (Key.trussState p.val) = s.obj (Key.trussState p.val) := by
    rw [obj_of_dict _ _ hdict, putLaneState, obj_setObj, if_neg (by unfold Key.trussState Key.trussLaneState; omega)]
  obtain ⟨⟨d, hd⟩, hmap, hlanes, hsame, -⟩ := refreshLanes_spec u hp
  have hlen : (u.refreshLanes p.val).obj (Key.trussLanes p.val) = (s.logicalLanes p.val).length + 1 := by
    rw [hlanes, logicalLanes_wake_spare hin4 hin, List.length_append, List.length_singleton]
  have hspan : (u.refreshLanes p.val).span = u.span := by rw [hd]; rfl
  have hstate1 : (u.refreshLanes p.val).obj (Key.trussState p.val) = s.obj (Key.trussState p.val) := by
    rw [hmap _ (not_isMapKey_of_sub (j := 1) (by unfold Key.trussState; omega) (by omega)), hstate]
  have hlane1 : (u.refreshLanes p.val).laneState p.val 4 = 1 := by rw [hsame 4 (by omega) (by omega), hstate4]
  refine ⟨((if (u.refreshLanes p.val).obj (Key.trussState p.val) = 3 ∧ 4 ≤ (u.refreshLanes p.val).obj (Key.trussLanes p.val) then
    (u.refreshLanes p.val).setObj (Key.trussState p.val) 2 else u.refreshLanes p.val).refreshSpares), ?_, ?_⟩
  · rw [exec_trussSpareJoin, execTrussSpareJoin]
    simp only [hjoin, find_spare hrest hspare, hu]
  · generalize u.refreshLanes p.val = s1 at *
    have hstate2 : ∀ v, (s1.setObj (Key.trussState p.val) v).laneState p.val 4 = s1.laneState p.val 4 := fun v =>
      laneState_of_obj (by rw [obj_setObj, if_neg (by rw [trussLaneState_eq, trussState_eq]; omega)]) 4
    split
    case isTrue hfull =>
      refine ⟨?_, ?_, ?_, fun _ _ => ?_⟩
      · rw [laneState, trussLaneState_eq, obj_refreshSpares_truss _ hp (by omega) (by omega), ← trussLaneState_eq, ← laneState, hstate2, hlane1]
      · rw [trussPort, span_refreshSpares, span_setObj, hspan]
        exact hport
      · rw [trussLanes_eq, obj_refreshSpares_truss _ hp (by omega) (by omega), ← trussLanes_eq, obj_setObj,
          if_neg (by rw [trussLanes_eq, trussState_eq]; omega), hlen]
      · rw [trussState_eq, obj_refreshSpares_truss _ hp (by omega) (by omega), ← trussState_eq, obj_setObj, if_pos rfl, lenOf_trussState _ hp]
        rfl
    case isFalse hnot =>
      refine ⟨?_, ?_, ?_, fun h3 hl3 => absurd ⟨hstate1.trans h3, by omega⟩ hnot⟩
      · rw [laneState, trussLaneState_eq, obj_refreshSpares_truss _ hp (by omega) (by omega), ← trussLaneState_eq, ← laneState, hlane1]
      · rw [trussPort, span_refreshSpares, hspan]
        exact hport
      · rw [trussLanes_eq, obj_refreshSpares_truss _ hp (by omega) (by omega), ← trussLanes_eq, hlen]

/-- A lane that sleeps or wakes: its own state changes and nothing else. -/
theorem putLaneState_only (s : State) {p k : Nat} (hp : p < 4) (hk : k < 5) {st : Nat} (hst : st < 256) :
    (s.putLaneState p k st).laneState p k = st ∧ (∀ j < 5, j ≠ k → (s.putLaneState p k st).laneState p j = s.laneState p j) ∧
      KeepsObjects [Key.trussLaneState p] s (s.putLaneState p k st) ∧ s.putLaneState p k st = { s with dict := (s.putLaneState p k st).dict } := by
  refine ⟨?_, fun j hj hne => ?_, fun i hi => ?_, rfl⟩
  · rw [laneState_putLaneState s hp st hk, if_pos rfl, Nat.mod_eq_of_lt hst]
  · rw [laneState_putLaneState s hp st hj, if_neg hne]
  · rw [putLaneState, obj_setObj, if_neg (by simpa using hi)]

theorem lt_of_getElem?_logicalLanes {s : State} {p i k : Nat} (h : (s.logicalLanes p)[i]? = some k) : k < 5 :=
  (mem_logicalLanes.mp (List.mem_of_getElem? h)).1

/-- A port in use trains anew: lanes 0 to 3, with lane 4 as the spare. -/
theorem bringUp_spec {s : State} {p n : Nat} (hp : p < 4) (hnext : s.neighbourOf p = some n) (hstandby : s.flag Key.trussStandby = false) :
    (s.bringUp p).obj (Key.trussState p) = 1 ∧ (s.bringUp p).obj (Key.trussNeighbour p) = 0xFFFF ∧ (s.bringUp p).obj (Key.trussLanes p) = 4 ∧
      ((s.bringUp p).trussPort p).lanes = [] ∧ ((s.bringUp p).trussPort p).rate = s.obj Key.trussRate := by
  unfold bringUp
  extract_lets s1 off
  rw [if_neg (by simp [hnext]), if_neg (by simp [hstandby])]
  generalize hu : (((s1.setObj (Key.trussState p) 1).setObj (Key.trussNeighbour p) 0xFFFF).setObj (Key.trussLaneState p) 0x0301010101).startPll (16 + p) (s1.trussBaud p) = u
  have hobj : ∀ {j}, j ≤ 8 → u.obj (0x160800 + 256 * p + j) = if j = 5 then 0x0301010101 else if j = 2 then 0xFFFF else if j = 1 then 1
      else s1.obj (0x160800 + 256 * p + j) := fun {j} hj => by
    have hpll : 0x160800 + 256 * p + j ≠ Key.lanepllState (16 + p) := by unfold Key.lanepllState; omega
    rw [← hu, startPll, obj_setObj, if_neg hpll, obj_withKs, obj_setObj, obj_setObj, obj_setObj, lenOf_trussLaneState p hp, lenOf_trussNeighbour p hp,
      lenOf_trussState p hp, trussLaneState_eq, trussNeighbour_eq, trussState_eq]
    simp only [Nat.add_left_cancel_iff]
    rfl
  have hspan : u.span = s1.span := by rw [← hu]; rfl
  have hlanes : u.logicalLanes p = [0, 1, 2, 3] := by
    have hstate : ∀ l, u.laneState p l = fieldAt 0x0301010101 l 1 := fun l => by rw [laneState, trussLaneState_eq, hobj (by omega), if_pos rfl]
    simp only [logicalLanes, laneIn, hstate]
    decide
  obtain ⟨⟨d, hd⟩, hmap, hcount, -, -⟩ := refreshLanes_spec u hp
  have hkept : ∀ {j}, j ≤ 2 → (u.refreshLanes p).obj (0x160800 + 256 * p + j) = u.obj (0x160800 + 256 * p + j) :=
    fun {j} hj => hmap _ (not_isMapKey_of_sub rfl (by omega))
  have hport : (u.refreshLanes p).trussPort p = s1.trussPort p := by rw [hd, trussPort, withDict_span, hspan, trussPort]
  have hfresh : s1.trussPort p = _ := (trussPort_putTrussPort s p _ p).trans (if_pos rfl)
  refine ⟨?_, ?_, by rw [hcount, hlanes]; rfl, by rw [hport, hfresh], by rw [hport, hfresh]⟩
  · rw [trussState_eq, hkept (by omega), hobj (by omega)]
    rfl
  · rw [trussNeighbour_eq, hkept (by omega), hobj (by omega)]
    rfl

/-- What a lane in service of a port in service does with a frame: it is followed and, where the frame before was wrong, counted; a lane that lost frames or
saw too many wrong ones is retired. -/
theorem execTrussAlignBlock_of_up {s : State} {p : Fin 4} {l : Fin 5} (f : BitVec 16) (ok : Bool) (hup : s.trussUp p.val = true) (hin : s.laneIn p.val l.val = true) :
    ∃ s2, (∀ {j}, j ≤ 8 → j ≠ 6 → s2.obj (0x160800 + 256 * p.val + j) = s.obj (0x160800 + 256 * p.val + j)) ∧
      s2.obj (Key.trussFrameCrc p.val) = (if ok = true then s.obj (Key.trussFrameCrc p.val) else (s.obj (Key.trussFrameCrc p.val) + 1) % 2 ^ 64) ∧
      (tabGet ({} : TrussLane) (s2.trussPort p.val).lanes l.val).frame = f.toNat ∧
      execTrussAlignBlock p l f ok s = .next (
        if ((tabGet ({} : TrussLane) (s.trussPort p.val).lanes l.val).alignAt ≠ 0 ∧
            3 ≤ (f.toNat + 65536 - (tabGet ({} : TrussLane) (s.trussPort p.val).lanes l.val).frame) % 65536) ∨
          4 ≤ ((((!ok) :: (tabGet ({} : TrussLane) (s.trussPort p.val).lanes l.val).crcs).take 16).filter id).length
        then s2.retireLane p.val l.val true else s2) := by
  have hp := p.isLt
  have hst : s.obj (Key.trussState p.val) = 2 ∨ s.obj (Key.trussState p.val) = 3 := by simpa [trussUp] using hup
  unfold execTrussAlignBlock
  extract_lets q i st s0 x step first y g s1 s2
  have hs0 : s0 = s := if_neg (by simp only [st, q]; omega)
  have hx : x = tabGet ({} : TrussLane) (s.trussPort p.val).lanes l.val := by simp only [x, hs0, q, i]
  have h1 : ∀ {j}, j ≤ 8 → s1.obj (0x160800 + 256 * p.val + j) = s.obj (0x160800 + 256 * p.val + j) := fun {j} hj =>
    (keeps_truss_applyCal (s0.putTrussPort q { g with lanes := tabSet {} g.lanes i y }) _ hp hj).trans (by rw [hs0]; rfl)
  have hspan1 : s1.span = (s0.putTrussPort q { g with lanes := tabSet {} g.lanes i y }).span := span_applyCal ..
  have hspan2 : s2.span = s1.span := by
    simp only [s2]
    split <;> rfl
  have h2 : ∀ {j}, j ≤ 8 → j ≠ 6 → s2.obj (0x160800 + 256 * p.val + j) = s.obj (0x160800 + 256 * p.val + j) := fun {j} hj hne => by
    simp only [s2]
    split
    · exact h1 hj
    · rw [obj_bump, if_neg (by simp only [q]; rw [trussFrameCrc_eq]; omega), h1 hj]
  have hcrc : s2.obj (Key.trussFrameCrc p.val) = (if ok = true then s.obj (Key.trussFrameCrc p.val) else (s.obj (Key.trussFrameCrc p.val) + 1) % 2 ^ 64) := by
    simp only [s2, q]
    split
    · rw [trussFrameCrc_eq, h1 (by omega)]
    · rw [obj_bump, if_pos rfl, lenOf_trussFrameCrc _ hp, trussFrameCrc_eq, h1 (by omega)]
      rfl
  have hlane : tabGet ({} : TrussLane) (s2.trussPort p.val).lanes l.val = y := by
    rw [trussPort, hspan2, hspan1, ← trussPort, trussPort_putTrussPort, if_pos rfl]
    exact tabGet_tabSet_self ..
  have hstate2 : s2.obj (Key.trussState q) = s.obj (Key.trussState q) := by
    simp only [q]
    rw [trussState_eq, h2 (by omega) (by omega)]
  rw [← hx]
  refine ⟨s2, h2, hcrc, congrArg TrussLane.frame hlane, ?_⟩
  rw [if_neg (by simp only [st, q]; omega), if_neg (by simp [q, i, hin, hs0]), if_neg (by rw [hstate2]; simp only [q]; omega)]
  by_cases hout : (x.alignAt ≠ 0 ∧ 3 ≤ step) ∨ 4 ≤ (y.crcs.filter id).length
  · rw [if_pos (by simpa [first] using hout), if_pos hout]
  · rw [if_neg (by simpa [first] using hout), if_neg hout]

/-- Settles O55: a failed lane is retired, the spare joins, idle lanes sleep and wake, and wrong frames are counted. -/
theorem trussLanes : Obligations.TrussLanes := by
  refine ⟨fun s p l h => ?_, fun s p l hup hin => ?_, fun s p h => ?_, fun s p w hjoin hrest hspare => completes_trussSpareJoin hjoin hrest hspare, fun s p => ?_,
    fun s p l k hk h0 hup hactive hidle hdue => ?_, fun s p l k hk hasleep hkept => ?_, fun s p l hkept hwait => ?_, fun s p n hready hnext hstandby => ?_,
    fun s p l f ok h => ?_, fun s p l f ok x hup hin hx hal hf hcrcs => ?_, fun s p l f ok x hup hin hx hcrcs => ?_⟩
  · rw [exec_trussLaneFail, execTrussLaneFail, retireLane_of_not_laneIn h]
    split <;> rfl
  · obtain ⟨-, hstate, hcount, -, hdown⟩ := retireLane_spec p.isLt l.isLt hin true
    exact ⟨_, by rw [exec_trussLaneFail, execTrussLaneFail, if_pos (.inl hup)], hstate, hcount, hdown⟩
  · rw [exec_trussSpareJoin, execTrussSpareJoin]
    simp only [h]
  · rw [exec_trussSleep, execTrussSleep]
    split
    · rfl
    · rw [if_pos (.inl rfl)]
  · have hput := putLaneState_only s p.isLt (lt_of_getElem?_logicalLanes hk) (show laneAsleep < 256 by decide)
    refine ⟨s.putLaneState p.val k laneAsleep, ?_, hput⟩
    rw [exec_trussSleep, execTrussSleep]
    simp only [hk]
    rw [if_neg]
    simp [h0, hidle, hup, hactive, laneActive]
    omega
  · have hput := putLaneState_only s p.isLt (lt_of_getElem?_logicalLanes hk) (show laneActive < 256 by decide)
    refine ⟨s.putLaneState p.val k laneActive, ?_, hput⟩
    rw [exec_trussWake, execTrussWake]
    simp only [hk]
    rw [if_pos ⟨hasleep, .inl (by simpa using hkept)⟩]
  · rw [exec_trussWake, execTrussWake]
    simp only [hkept, hwait]
    split
    · rfl
    · rw [if_neg (by simp)]
  · have hp := p.isLt
    obtain ⟨hstate, hneighbour, hlanes, hport, hrate⟩ := bringUp_spec hp hnext hstandby
    have hobj : ∀ {j}, 1 ≤ j → j ≤ 8 → ((s.bringUp p.val).refreshSpan.refreshSpares).obj (0x160800 + 256 * p.val + j) = (s.bringUp p.val).obj (0x160800 + 256 * p.val + j) :=
      fun h1 h2 => (obj_refreshSpares_truss _ hp h1 h2).trans (obj_refreshSpan_truss _ hp h1 h2)
    have hspan : ((s.bringUp p.val).refreshSpan.refreshSpares).span = (s.bringUp p.val).span := (span_refreshSpares _).trans (span_refreshSpan _)
    refine ⟨_, by rw [exec_trussRestart, execTrussRestart, act_of_ready (f := immTrussRestart p.val) hready rfl], rfl, ?_, ?_, ?_, ?_, ?_⟩
    · rw [obj_withResult, trussState_eq, hobj (by omega) (by omega), ← trussState_eq, hstate]
    · rw [obj_withResult, trussNeighbour_eq, hobj (by omega) (by omega), ← trussNeighbour_eq, hneighbour]
    · rw [obj_withResult, trussLanes_eq, hobj (by omega) (by omega), ← trussLanes_eq, hlanes]
    · rw [trussPort, withResult_span, hspan]
      exact hport
    · rw [trussPort, withResult_span, hspan]
      exact hrate
  · rw [exec_trussAlignBlock, execTrussAlignBlock]
    simp only
    rw [if_pos h]
  · obtain ⟨s2, hobj, hcrc, hframe, hexec⟩ := execTrussAlignBlock_of_up f ok hup hin
    subst hx
    rw [if_neg (by omega)] at hexec
    refine ⟨s2, (exec_trussAlignBlock ..).trans hexec, hframe, laneState_of_obj ?_ _, hcrc, ?_⟩
    · rw [trussLaneState_eq, hobj (by omega) (by omega)]
    · rw [trussFailovers_eq, hobj (by omega) (by omega)]
  · obtain ⟨s2, hobj, -, -, hexec⟩ := execTrussAlignBlock_of_up f ok hup hin
    subst hx
    rw [if_pos (.inr hcrcs)] at hexec
    have hin2 : s2.laneIn p.val l.val = true := by
      rw [laneIn_of_obj (s := s) (by rw [trussLaneState_eq, hobj (by omega) (by omega)]), hin]
    exact ⟨_, (exec_trussAlignBlock ..).trans hexec, (retireLane_spec p.isLt l.isLt hin2 true).laneState⟩

end Sys2Proof.Machine
end

section
/-! What appending to the ring's streams leaves alone (11 R293 to R302). -/

namespace Sys2Proof.Machine.State

/-- The objects of the ring that its streams change, and the counters of requests. -/
def isRingKey (k : Nat) : Prop := isMemCounter k ∨ k = Key.ringWraps ∨ k = Key.ringBlocksLost ∨ k = Key.ringSlabsNow ∨ k = Key.ringResizeState

/-- The ring's streams went on, with requests to memory and its panic lines, and nothing else. -/
structure OnlyRing (s t : State) : Prop where
  form : ∃ d r m, t = ((s.withDict d).withRing r).withMem m ∧ m.cells = s.mem.cells
  keeps : KeepsBut isRingKey s t
  lists : ListsBut isRingKey s t

theorem OnlyRing.refl (s : State) : OnlyRing s s := ⟨⟨s.dict, s.ring, s.mem, rfl, rfl⟩, .refl s, .refl s⟩

theorem OnlyRing.trans {s t u : State} (h : OnlyRing s t) (h' : OnlyRing t u) : OnlyRing s u := by
  obtain ⟨⟨d, r, m, rfl, hm⟩, hk, hl⟩ := h
  obtain ⟨⟨d', r', m', rfl, hm'⟩, hk', hl'⟩ := h'
  exact ⟨⟨d', r', m', rfl, hm'.trans hm⟩, hk.trans hk', hl.trans hl'⟩

theorem onlyRing_withRing (s : State) (g : Ring) : OnlyRing s (s.withRing g) := ⟨⟨s.dict, g, s.mem, rfl, rfl⟩, .refl s, .refl s⟩

theorem onlyRing_putRingStream (s : State) (id : Nat) (x : RingStream) : OnlyRing s (s.putRingStream id x) := onlyRing_withRing s _

theorem onlyRing_setObj (s : State) {k : Nat} (hk : isRingKey k) (v : Nat) : OnlyRing s (s.setObj k v) :=
  ⟨⟨(s.setObj k v).dict, s.ring, s.mem, rfl, rfl⟩, keepsBut_setObj hk s v, listsBut_setObj hk s v⟩

theorem onlyRing_bump (s : State) {k : Nat} (hk : isRingKey k) : OnlyRing s (s.bump k) := onlyRing_setObj s hk _

theorem onlyRing_of_requests {s t : State} (h : OnlyRequests s t) : OnlyRing s t := by
  obtain ⟨⟨d, m, rfl, hm⟩, hk, hl⟩ := h
  exact ⟨⟨d, s.ring, m, rfl, hm⟩, fun k hn => hk k fun h => hn (.inl h), hl.mono fun _ h => .inl h⟩

theorem onlyRing_foldl {α : Type} (l : List α) (f : State → α → State) (h : ∀ s x, OnlyRing s (f s x)) (s : State) : OnlyRing s (l.foldl f s) := by
  induction l generalizing s with
  | nil => exact .refl s
  | cons x l ih => exact (h s x).trans (ih _)

theorem onlyRing_retireSlab (s : State) (r : Nat) : OnlyRing s (s.retireSlab r) := by
  unfold retireSlab
  split
  · exact .refl s
  · exact (onlyRing_putRingStream ..).trans (onlyRing_withRing ..)

theorem onlyRing_applyResize (s : State) : OnlyRing s s.applyResize := by
  unfold applyResize
  split
  · exact .refl s
  · split
    · exact .refl s
    · exact (((onlyRing_foldl _ _ (fun s k => onlyRing_retireSlab s k) s).trans (onlyRing_withRing ..)).trans
        (onlyRing_setObj _ (.inr (.inr (.inr (.inl rfl)))) _)).trans (onlyRing_setObj _ (.inr (.inr (.inr (.inr rfl)))) _)

theorem onlyRing_takeSlab (s : State) (id : Nat) : OnlyRing s (s.takeSlab id) := by
  unfold takeSlab
  extract_lets wrap g s1 k s2 g2 s3 g3
  have h1 : OnlyRing s s1 := by
    unfold s1
    split
    · exact ((onlyRing_withRing s _).trans (onlyRing_bump _ (.inr (.inl rfl)))).trans (onlyRing_applyResize _)
    · exact .refl s
  split
  · exact h1
  · exact ((h1.trans (onlyRing_retireSlab s1 _)).trans (onlyRing_withRing s2 _)).trans (onlyRing_putRingStream s3 id _)

theorem onlyRing_placeBlock (id n : Nat) (s : State) : OnlyRing s (s.placeBlock id n).2 := by
  induction n generalizing s with
  | zero => exact .refl s
  | succ n ih =>
    unfold placeBlock
    split
    · exact .refl s
    · extract_lets st
      split
      · split
        · exact onlyRing_putRingStream ..
        · exact (onlyRing_takeSlab s id).trans (ih _)
      · exact (onlyRing_takeSlab s id).trans (ih _)

theorem onlyRing_settleBlock (s : State) (id : Nat) (b : Block) : OnlyRing s (s.settleBlock id b).2 := by
  unfold settleBlock
  split
  · exact .refl s
  · exact onlyRing_placeBlock id 4096 s

theorem onlyRing_loseBlock (s : State) (id cause : Nat) (b : Block) : OnlyRing s (s.loseBlock id cause b) := onlyRing_putRingStream ..

theorem onlyRing_refreshWriterPanic (s : State) (pier : Nat) : OnlyRing s (s.refreshWriterPanic pier) := by
  obtain ⟨m, h, hm⟩ := refreshWriterPanic_changes s pier
  exact ⟨⟨s.dict, s.ring, m, h, hm⟩, keepsBut_of_dict (by rw [h]; rfl), listsBut_of_dict (by rw [h]; rfl)⟩

theorem onlyRing_closeBlock (s : State) (id : Nat) : OnlyRing s (s.closeBlock id) := by
  unfold closeBlock
  extract_lets st
  split
  · exact .refl s
  · rename_i s0 _ b0 _
    have h0 : OnlyRing s s0 := onlyRing_putRingStream ..
    split
    · exact (h0.trans (onlyRing_bump s0 (.inr (.inr (.inl rfl))))).trans (onlyRing_loseBlock ..)
    · have h1 := h0.trans (onlyRing_settleBlock s0 id b0)
      generalize s0.settleBlock id b0 = w at h1 ⊢
      obtain ⟨b, s1⟩ := w
      cases b with
      | none => exact h1.trans (onlyRing_loseBlock ..)
      | some b => exact ((h1.trans (onlyRing_putRingStream ..)).trans (onlyRing_of_requests (onlyRequests_memWrite ..))).trans (onlyRing_refreshWriterPanic ..)

theorem onlyRing_openBlockAt (s : State) (id : Nat) (gap : Bool) (p : Position) : OnlyRing s (s.openBlockAt id gap p) := by
  have h1 := onlyRing_placeBlock id 4096 s
  unfold openBlockAt
  generalize s.placeBlock id 4096 = w at h1 ⊢
  obtain ⟨pl, s1⟩ := w
  cases pl with
  | none => exact h1
  | some x => exact h1.trans (onlyRing_putRingStream ..)

theorem onlyRing_ringAppend (s : State) (id : Nat) (p : Position) (n : Nat) : OnlyRing s (s.ringAppend id p n) := by
  unfold ringAppend
  extract_lets gap st0 g s0 same s1 st1 next st2
  have h0 : OnlyRing s s0 := by
    simp only [s0]
    split
    · exact (onlyRing_closeBlock ..).trans (onlyRing_putRingStream ..)
    · exact .refl s
  have h1 : OnlyRing s s1 := by
    simp only [s1]
    split
    · exact h0
    · exact (h0.trans (onlyRing_closeBlock ..)).trans (onlyRing_openBlockAt ..)
  split
  · exact h1.trans (onlyRing_putRingStream ..)
  · exact h1.trans (onlyRing_putRingStream ..)

theorem onlyRing_endStream (s : State) (id : Nat) : OnlyRing s (s.endStream id) := by
  unfold endStream
  split
  · exact .refl s
  · exact (onlyRing_closeBlock ..).trans (onlyRing_putRingStream ..)

theorem onlyRing_passUnselected (s : State) (id : Nat) (t : KTime) : OnlyRing s (s.passUnselected id t) := by
  unfold passUnselected
  split
  · split
    · exact (onlyRing_endStream ..).trans (onlyRing_putRingStream ..)
    · exact .refl s
  · exact .refl s

theorem onlyRing_rawTap (s : State) (pier port step format : Nat) (samples : List (Exact × Int × Int × Bool × Nat)) (bad : Bool) :
    OnlyRing s (s.rawTap pier port step format samples bad) := by
  unfold rawTap
  split
  · exact .refl s
  · refine onlyRing_foldl _ _ (fun x e => ?_) s
    obtain ⟨t, i, q, ov, deg⟩ := e
    dsimp only
    split
    · exact onlyRing_passUnselected ..
    · exact (onlyRing_putRingStream ..).trans (onlyRing_ringAppend ..)

theorem onlyRing_rawGap (s : State) (pier port step format : Nat) (t : Exact) (n cause : Nat) : OnlyRing s (s.rawGap pier port step format t n cause) := by
  unfold rawGap
  split
  · exact .refl s
  · refine onlyRing_foldl _ _ (fun x e => ?_) s
    obtain ⟨a, m⟩ := e
    dsimp only
    split
    · exact (onlyRing_putRingStream ..).trans (onlyRing_ringAppend ..)
    · exact onlyRing_passUnselected ..

end Sys2Proof.Machine.State
end

section
/-! What the samples of a link change as they go on or are lost (03 R80 to R91; 01 R18 to R31). -/

namespace Sys2Proof.Machine.State

/-! ### The objects that the flow of samples changes -/

/-- Counters of requests, the ring's objects, the promise, gap markers, abutments, and the error counters of links and ports. -/
def isFlowKey (k : Nat) : Prop :=
  isRingKey k ∨ k = Key.statusPromise ∨ k = Key.statusGapCount ∨ k = Key.statusGapLast ∨ (0x101201 ≤ k ∧ k ≤ 0x101230) ∨
    (∃ j < 128, k = Key.linkErrors j) ∨ (∃ p < 1024, k = Key.portGapSeq p ∨ k = Key.portOverloadCount p)

/-- Samples went on or were lost: the lanes and piers stand, every link has but another gap and another extended multiblock waiting, and the
promise's bits 0 to 3 stand. -/
structure Flow (s t : State) : Prop where
  form : ∃ d p o g r m x, t = { s with dict := d, pev := p, outbox := o, ing := g, ring := r, mem := m, toll := x }
  keeps : KeepsBut isFlowKey s t
  promise : ∀ b < 4, bit (t.obj Key.statusPromise) b = bit (s.obj Key.statusPromise) b
  lanes : t.ing.lanes = s.ing.lanes
  piers : t.ing.piers = s.ing.piers
  links : ∀ j, ∃ g w, t.linkSt j = { s.linkSt j with gap := g, waiting := w }
  lists : ListsBut isFlowKey s t

theorem Flow.refl (s : State) : Flow s s := ⟨⟨s.dict, s.pev, s.outbox, s.ing, s.ring, s.mem, s.toll, rfl⟩, .refl s, fun _ _ => rfl, rfl, rfl, fun _ => ⟨_, _, rfl⟩, .refl s⟩

theorem Flow.trans {s t u : State} (h : Flow s t) (h' : Flow t u) : Flow s u := by
  refine ⟨?_, h.keeps.trans h'.keeps, fun b hb => (h'.promise b hb).trans (h.promise b hb), h'.lanes.trans h.lanes, h'.piers.trans h.piers, fun j => ?_, h.lists.trans h'.lists⟩
  · obtain ⟨d, p, o, g, r, m, x, rfl⟩ := h.form
    obtain ⟨d', p', o', g', r', m', x', h2⟩ := h'.form
    exact ⟨d', p', o', g', r', m', x', h2⟩
  · obtain ⟨g, w, h1⟩ := h.links j
    obtain ⟨g', w', h2⟩ := h'.links j
    exact ⟨g', w', by rw [h2, h1]⟩

theorem flow_foldl_of_mem {α : Type} (l : List α) (f : State → α → State) (h : ∀ s, ∀ x ∈ l, Flow s (f s x)) (s : State) : Flow s (l.foldl f s) := by
  induction l generalizing s with
  | nil => exact .refl s
  | cons x l ih => exact (h s x List.mem_cons_self).trans (ih (fun s y hy => h s y (List.mem_cons_of_mem x hy)) _)

theorem flow_foldl {α : Type} (l : List α) (f : State → α → State) (h : ∀ s x, Flow s (f s x)) (s : State) : Flow s (l.foldl f s) :=
  flow_foldl_of_mem l f (fun s x _ => h s x) s

theorem not_isRingKey_promise : ¬isRingKey Key.statusPromise := by
  unfold isRingKey isMemCounter Key.memLostWrites Key.memLostReads Key.memchInorder Key.ringWraps Key.ringBlocksLost Key.ringSlabsNow Key.ringResizeState Key.statusPromise
  rintro ((h | h | ⟨n, hn, h⟩) | h | h | h | h) <;> omega

theorem flow_of_onlyRing {s t : State} (h : OnlyRing s t) : Flow s t := by
  obtain ⟨⟨d, r, m, rfl, -⟩, hk, hl⟩ := h
  exact ⟨⟨d, s.pev, s.outbox, s.ing, r, m, s.toll, rfl⟩, hk.mono fun _ h => .inl h, fun b _ => congrArg (bit · b) (hk _ not_isRingKey_promise), rfl, rfl,
    fun _ => ⟨_, _, rfl⟩, hl.mono fun _ h => .inl h⟩

/-- Another part of the input side that is neither a lane nor a pier nor a link. -/
theorem flow_withIng (s : State) (g : Ingest) (hl : g.lanes = s.ing.lanes) (hp : g.piers = s.ing.piers) (hk : g.links = s.ing.links) : Flow s (s.withIng g) := by
  refine ⟨⟨s.dict, s.pev, s.outbox, g, s.ring, s.mem, s.toll, rfl⟩, .refl s, fun _ _ => rfl, hl, hp, fun j => ⟨(s.linkSt j).gap, (s.linkSt j).waiting, ?_⟩, .refl s⟩
  rw [linkSt, withIng_ing, hk]
  rfl

@[simp] theorem linkSt_putLink (s : State) (k : Nat) (x : Link) (j : Nat) : (s.putLink k x).linkSt j = if j = k then x else s.linkSt j := by
  simp [putLink, linkSt]

theorem flow_putLink (s : State) (k : Nat) (x : Link) (h : ∃ g w, x = { s.linkSt k with gap := g, waiting := w }) : Flow s (s.putLink k x) := by
  refine ⟨⟨s.dict, s.pev, s.outbox, (s.putLink k x).ing, s.ring, s.mem, s.toll, rfl⟩, .refl s, fun _ _ => rfl, rfl, rfl, fun j => ?_, .refl s⟩
  rw [linkSt_putLink]
  split
  case isTrue hj => rw [hj]; exact h
  case isFalse => exact ⟨_, _, rfl⟩

theorem flow_setObj (s : State) {k : Nat} (hk : isFlowKey k) (hne : k ≠ Key.statusPromise) (v : Nat) : Flow s (s.setObj k v) :=
  ⟨⟨(s.setObj k v).dict, s.pev, s.outbox, s.ing, s.ring, s.mem, s.toll, rfl⟩, keepsBut_setObj hk s v, fun b _ => by rw [obj_setObj, if_neg hne.symm], rfl, rfl,
    fun _ => ⟨_, _, rfl⟩, listsBut_setObj hk s v⟩

theorem flow_bump (s : State) {k : Nat} (hk : isFlowKey k) (hne : k ≠ Key.statusPromise) : Flow s (s.bump k) := flow_setObj s hk hne _

theorem flow_raiseEvent (s : State) (n : Nat) : Flow s (s.raiseEvent n) := by
  rw [raiseEvent_eq]
  exact ⟨⟨s.dict, (s.raiseEvent n).pev, s.outbox, s.ing, s.ring, s.mem, s.toll, rfl⟩, .refl s, fun _ _ => rfl, rfl, rfl, fun _ => ⟨_, _, rfl⟩, .refl s⟩

theorem flow_emit (s : State) (e : Emission) : Flow s (s.emit e) :=
  ⟨⟨s.dict, s.pev, _, s.ing, s.ring, s.mem, s.toll, rfl⟩, .refl s, fun _ _ => rfl, rfl, rfl, fun _ => ⟨_, _, rfl⟩, .refl s⟩

theorem flow_withToll (s : State) (x : Toll) : Flow s (s.withToll x) :=
  ⟨⟨s.dict, s.pev, s.outbox, s.ing, s.ring, s.mem, x, rfl⟩, .refl s, fun _ _ => rfl, rfl, rfl, fun _ => ⟨_, _, rfl⟩, .refl s⟩

theorem flow_setPromise (s : State) {b : Nat} (hb : 4 ≤ b) (x : Bool) : Flow s (s.setPromise b x) := by
  obtain ⟨d, p, h⟩ := setPromise_changes s b x
  refine ⟨⟨d, p, s.outbox, s.ing, s.ring, s.mem, s.toll, h⟩, keepsBut_setPromise (.inr (.inl rfl)) s b x, fun j hj => ?_, by rw [h]; rfl, by rw [h]; rfl, fun _ => ?_, listsBut_setPromise (.inr (.inl rfl)) s b x⟩
  · rw [bit_obj_setPromise s hj x, if_neg (by omega)]
  · rw [h]
    exact ⟨_, _, rfl⟩

/-! ### Markers and runs -/

theorem flow_issueMarker (s : State) (cause : Nat) {port : Nat} (hport : port < 1024) (pier stream first view count : Nat) :
    Flow s (s.issueMarker cause port pier stream first view count) := by
  unfold issueMarker
  extract_lets s1 img
  have hseq : isFlowKey (Key.portGapSeq port) := .inr (.inr (.inr (.inr (.inr (.inr ⟨port, hport, .inl rfl⟩)))))
  have h1 : Flow s s1 := flow_bump s hseq (by unfold Key.portGapSeq Key.statusPromise; omega)
  exact (((h1.trans (flow_setObj s1 (.inr (.inr (.inr (.inl rfl)))) (by decide) img)).trans (flow_bump _ (.inr (.inr (.inl rfl))) (by decide))).trans
    (flow_raiseEvent _ 2)).trans (flow_emit ..)

theorem flow_putLostRun (s : State) (p : Nat) (x : LostRun) : Flow s (s.putLostRun p x) := flow_withIng s _ rfl rfl rfl

theorem flow_putQueue (s : State) (p : Nat) (x : List Item) : Flow s (s.putQueue p x) := flow_withIng s _ rfl rfl rfl

theorem flow_putAbutment (s : State) (p : Nat) (x : Abutment) : Flow s (s.putAbutment p x) := flow_withIng s _ rfl rfl rfl

theorem flow_pushItem (s : State) (port : Nat) (it : Item) : Flow s (s.pushItem port it) := by
  unfold pushItem
  extract_lets q a b
  split
  · split <;> exact flow_putQueue ..
  · exact flow_putQueue ..

theorem flow_storeSample (s : State) (port : Nat) (it : Item) : Flow s (s.storeSample port it) := by
  unfold storeSample
  extract_lets a
  split <;> exact (flow_putAbutment ..).trans (flow_pushItem ..)

theorem flow_runStep (s : State) (get : State → Run) (put : State → Run → State) (hput : ∀ u r, Flow u (put u r)) (on : Bool) (t : KTime) (pier cause : Nat) {port : Nat}
    (hport : port < 1024) (stream view : Nat) : Flow s (s.runStep get put on t pier cause port stream view) := by
  unfold runStep
  extract_lets r s1
  have h1 : Flow s s1 := by
    simp only [s1]
    split
    · exact (hput ..).trans (flow_issueMarker _ _ hport ..)
    · exact .refl s
  split
  · exact h1
  · split <;> exact h1.trans (hput ..)

theorem flow_rawRuns (s : State) {port : Nat} (hport : port < 1024) (deg calPier : Nat) (t : KTime) : Flow s (s.rawRuns port deg calPier t) := by
  refine flow_foldl _ _ (fun x _ => flow_runStep x _ _ (fun u r => ?_) _ _ _ _ hport _ _) s
  exact flow_withIng u _ rfl rfl rfl

theorem flow_endLost (s : State) {port : Nat} (hport : port < 1024) : Flow s (s.endLost port) := by
  unfold endLost
  extract_lets r
  split
  · exact .refl s
  · exact (flow_putLostRun ..).trans (flow_issueMarker _ _ hport ..)

theorem flow_lose {port : Nat} (hport : port < 1024) (g : LinkGap) (step fuel : Nat) (s : State) (t : Exact) (n : Nat) : Flow s (s.lose port g t step fuel n) := by
  induction fuel generalizing s t n with
  | zero => exact .refl s
  | succ fuel ih =>
    unfold lose
    extract_lets r first m full s1 s2
    have h1 : Flow s s1 := flow_putLostRun ..
    have h2 : Flow s s2 := by
      simp only [s2]
      split
      · exact h1.trans (flow_endLost s1 hport)
      · exact h1
    split
    · exact h2.trans (ih ..)
    · exact h2

theorem flow_endEra (s : State) {port : Nat} (hport : port < 1024) (era : KTime) : Flow s (s.endEra port era) := by
  unfold endEra
  extract_lets done g s1
  split
  · exact .refl s
  · have h1 : Flow s s1 := flow_withIng s _ rfl rfl rfl
    exact (((h1.trans (flow_rawRuns s1 hport 0 0xFF 0)).trans (flow_endLost _ hport)).trans (flow_of_onlyRing (onlyRing_endStream ..))).trans (flow_pushItem ..)

theorem knownPorts_lt {s : State} {p : Nat} (h : p ∈ s.knownPorts) : p < 1024 := by
  unfold knownPorts at h
  rw [List.mem_eraseDups] at h
  obtain ⟨e, he, rfl⟩ := List.mem_map.mp h
  have := (List.mem_filter.mp he).2
  simp only [Bool.and_eq_true, decide_eq_true_eq] at this
  omega

theorem flow_endPorts (s : State) (k : Nat) (upTo : KTime) : Flow s (s.endPorts k upTo) :=
  flow_foldl_of_mem _ _ (fun _ _ hp => flow_foldl _ _ (fun y _ => flow_endEra y (knownPorts_lt hp) _) _) s

/-! ### Release and loss -/

theorem flow_loseEdges (s : State) (k first stop : Nat) (raw : Bool) : Flow s (s.loseEdges k first stop raw) := by
  unfold loseEdges
  extract_lets c t0 w s1
  have h1 : Flow s s1 := by
    simp only [s1]
    split
    · exact .refl s
    · refine flow_foldl_of_mem _ _ (fun x p hp => flow_foldl _ _ (fun y e => ?_) x) s
      obtain ⟨a, n⟩ := e
      dsimp only
      split
      · exact ((flow_of_onlyRing (onlyRing_rawGap ..)).trans (flow_lose (knownPorts_lt hp) ..)).trans (flow_pushItem ..)
      · exact (flow_lose (knownPorts_lt hp) ..).trans (flow_pushItem ..)
  clear_value s1
  split
  · exact .refl s
  · exact h1.trans (flow_endPorts ..)

theorem flow_rawBlock (s : State) {p : Nat} (hp : p < 1024) (c : LinkCfg) (bad : Bool) (b : Nat × List (Nat × Item)) : Flow s (s.rawBlock p c bad b) := by
  unfold rawBlock
  extract_lets items s1
  have h1 : Flow s s1 := flow_of_onlyRing (onlyRing_rawTap ..)
  refine h1.trans (flow_foldl _ _ (fun x it => Flow.trans ?_ (flow_rawRuns _ hp _ _ _)) s1)
  have hkey : isFlowKey (Key.portOverloadCount p) := .inr (.inr (.inr (.inr (.inr (.inr ⟨p, hp, .inr rfl⟩)))))
  split
  · exact flow_bump x hkey (by unfold Key.portOverloadCount Key.statusPromise; omega)
  · exact .refl x

theorem flow_refreshAbutment (s : State) {p : Nat} (hp : p < 32) : Flow s (s.refreshAbutment p) := by
  unfold refreshAbutment
  extract_lets a g s0 s1 anyLag anyDrop
  have h0 : Flow s s0 := by
    simp only [s0]
    split
    · exact flow_withToll ..
    · exact .refl s
  have hlag : isFlowKey (Key.abutmentLag p) := .inr (.inr (.inr (.inr (.inl (by unfold Key.abutmentLag; omega)))))
  have hpeak : isFlowKey (Key.abutmentPeak p) := .inr (.inr (.inr (.inr (.inl (by unfold Key.abutmentPeak; omega)))))
  have h1 : Flow s s1 := ((h0.trans (flow_putAbutment s0 p a)).trans (flow_setObj _ hlag (by unfold Key.abutmentLag Key.statusPromise; omega) _)).trans
    (flow_setObj _ hpeak (by unfold Key.abutmentPeak Key.statusPromise; omega) _)
  exact (h1.trans (flow_setPromise s1 (by omega) _)).trans (flow_setPromise _ (by omega) _)

theorem lanes_lt {s : State} {k n : Nat} (h : n ∈ (s.link k).lanes) : n < 256 := by
  obtain ⟨i, -, rfl⟩ := List.mem_map.mp (show n ∈ lanesOf (s.obj (Key.linkLanes k)) (s.obj (Key.linkL k)) from h)
  rw [fieldAt_one]
  exact Nat.mod_lt _ (by decide)

theorem pierOfLink_lt (s : State) (k : Nat) : s.pierOfLink k < 32 := by
  unfold pierOfLink
  cases h : (s.link k).lanes with
  | nil => decide
  | cons n l =>
    have : n < 256 := lanes_lt (s := s) (k := k) (h ▸ List.mem_cons_self)
    simp only [List.headD_cons]
    omega

theorem flow_finishEdge (s : State) {k : Nat} (hk : k < 128) (w : Released) (lost : Bool) : Flow s (s.finishEdge k w lost) := by
  unfold finishEdge
  extract_lets c bad l s1 l1 s2 blocks s3 s4
  have hport : ∀ e ∈ blocks, e.1 < 1024 := fun e he => by
    obtain ⟨p, hp, rfl⟩ := List.mem_map.mp (List.mem_filter.mp he).1
    exact knownPorts_lt hp
  have herr : isFlowKey (Key.linkErrors k) := .inr (.inr (.inr (.inr (.inr (.inl ⟨k, hk, rfl⟩)))))
  have h1 : Flow s s1 := by
    simp only [s1]
    split
    · exact (flow_bump s herr (by unfold Key.linkErrors Key.statusPromise; omega)).trans (flow_putLink _ k _ ⟨_, _, rfl⟩)
    · exact .refl s
  have h2 : Flow s s2 := by
    simp only [s2]
    split
    · exact h1.trans (flow_loseEdges ..)
    · exact h1.trans (flow_putLink _ k _ ⟨_, _, rfl⟩)
  have h3 : Flow s s3 := by
    refine h2.trans (flow_foldl_of_mem _ _ (fun x e he => ?_) s2)
    obtain ⟨p, b⟩ := e
    refine Flow.trans ?_ (flow_foldl _ _ (fun y z => flow_rawBlock y (hport _ he) c bad z) _)
    split
    · exact .refl x
    · exact flow_endLost x (hport _ he)
  have h4 : Flow s s4 := by
    simp only [s4]
    split
    · exact h3
    · refine h3.trans (flow_foldl _ _ (fun x i => flow_foldl _ _ (fun y e => ?_) x) s3)
      obtain ⟨p, b⟩ := e
      dsimp only
      split
      · exact flow_storeSample ..
      · exact .refl y
  exact (h4.trans (flow_endPorts ..)).trans (flow_refreshAbutment _ (pierOfLink_lt ..))

theorem flow_finishWaiting (s : State) {k : Nat} (hk : k < 128) (lost : Bool) : Flow s (s.finishWaiting k lost) := by
  unfold finishWaiting
  split
  · exact .refl s
  · exact (flow_putLink s k _ ⟨_, _, rfl⟩).trans (flow_finishEdge _ hk _ _)

end Sys2Proof.Machine.State
end

section
/-! What the recovery of a pier changes (03 R87 to R91). -/

namespace Sys2Proof.Machine.State

/-- What the recovery of a pier changes beside the flow of samples: the states of lanes and links. -/
def isRecoverKey (k : Nat) : Prop := isFlowKey k ∨ (0x150401 ≤ k ∧ k ≤ 0x150500) ∨ ∃ j < 128, k = Key.linkState j

/-- Lanes restarted and links lost what follows: no pier but by its links, and every link is in recovery or in the state it was in. -/
structure Recovers (s t : State) : Prop where
  form : ∃ d p o g r m x, t = { s with dict := d, pev := p, outbox := o, ing := g, ring := r, mem := m, toll := x }
  keeps : KeepsBut isRecoverKey s t
  promise : ∀ b < 4, bit (t.obj Key.statusPromise) b = bit (s.obj Key.statusPromise) b
  piers : t.ing.piers = s.ing.piers
  linkState : ∀ j < 128, t.obj (Key.linkState j) = s.obj (Key.linkState j) ∨ t.obj (Key.linkState j) = 3

theorem Recovers.refl (s : State) : Recovers s s :=
  ⟨⟨s.dict, s.pev, s.outbox, s.ing, s.ring, s.mem, s.toll, rfl⟩, .refl s, fun _ _ => rfl, rfl, fun _ _ => .inl rfl⟩

theorem Recovers.trans {s t u : State} (h : Recovers s t) (h' : Recovers t u) : Recovers s u := by
  refine ⟨?_, h.keeps.trans h'.keeps, fun b hb => (h'.promise b hb).trans (h.promise b hb), h'.piers.trans h.piers, fun j hj => ?_⟩
  · obtain ⟨d, p, o, g, r, m, x, rfl⟩ := h.form
    obtain ⟨d', p', o', g', r', m', x', h2⟩ := h'.form
    exact ⟨d', p', o', g', r', m', x', h2⟩
  · rcases h'.linkState j hj with h2 | h2
    · rw [h2]
      exact h.linkState j hj
    · exact .inr h2

theorem recovers_foldl_of_mem {α : Type} (l : List α) (f : State → α → State) (h : ∀ s, ∀ x ∈ l, Recovers s (f s x)) (s : State) : Recovers s (l.foldl f s) := by
  induction l generalizing s with
  | nil => exact .refl s
  | cons x l ih => exact (h s x List.mem_cons_self).trans (ih (fun s y hy => h s y (List.mem_cons_of_mem x hy)) _)

theorem not_isFlowKey_linkState (j : Nat) (hj : j < 128) : ¬isFlowKey (Key.linkState j) := by
  unfold isFlowKey isRingKey isMemCounter Key.memLostWrites Key.memLostReads Key.memchInorder Key.ringWraps Key.ringBlocksLost Key.ringSlabsNow Key.ringResizeState
    Key.statusPromise Key.statusGapCount Key.statusGapLast Key.linkErrors Key.portGapSeq Key.portOverloadCount Key.linkState
  rintro (((h | h | ⟨n, hn, h⟩) | h | h | h | h) | h | h | h | h | ⟨n, hn, h⟩ | ⟨n, hn, h | h⟩) <;> omega

theorem recovers_of_flow {s t : State} (h : Flow s t) : Recovers s t :=
  ⟨h.form, h.keeps.mono fun _ h => .inl h, h.promise, h.piers, fun j hj => .inl (h.keeps _ (not_isFlowKey_linkState j hj))⟩

/-- Lanes and links change, no pier, and no object. -/
theorem recovers_withIng (s : State) (g : Ingest) (hp : g.piers = s.ing.piers) : Recovers s (s.withIng g) :=
  ⟨⟨s.dict, s.pev, s.outbox, g, s.ring, s.mem, s.toll, rfl⟩, .refl s, fun _ _ => rfl, hp, fun _ _ => .inl rfl⟩

theorem recovers_putLink (s : State) (k : Nat) (x : Link) : Recovers s (s.putLink k x) := recovers_withIng s _ rfl

theorem recovers_putLane (s : State) (n : Nat) (x : Lane) : Recovers s (s.putLane n x) := recovers_withIng s _ rfl

theorem recovers_setLaneState (s : State) {n : Nat} (hn : n < 256) (v : Nat) : Recovers s (s.setObj (Key.laneState n) v) := by
  have hkey : isRecoverKey (Key.laneState n) := .inr (.inl (by unfold Key.laneState; omega))
  refine ⟨⟨(s.setObj (Key.laneState n) v).dict, s.pev, s.outbox, s.ing, s.ring, s.mem, s.toll, rfl⟩, keepsBut_setObj hkey s v, fun b _ => ?_, rfl, fun j _ => .inl ?_⟩
  · rw [obj_setObj, if_neg (by unfold Key.statusPromise Key.laneState; omega)]
  · rw [obj_setObj, if_neg (by unfold Key.linkState Key.laneState; omega)]

theorem recovers_restartLane (s : State) {n : Nat} (hn : n < 256) : Recovers s (s.restartLane n) := (recovers_putLane ..).trans (recovers_setLaneState _ hn 1)

theorem recovers_restartLanes (s : State) {k : Nat} (hk : k < 128) : Recovers s (s.restartLanes k) :=
  (recovers_of_flow (flow_finishWaiting s hk false)).trans (recovers_foldl_of_mem _ _ (fun x _ hn => recovers_restartLane x (lanes_lt (List.mem_of_mem_filter hn))) _)

theorem recovers_setLinkState (s : State) {k : Nat} (hk : k < 128) : Recovers s (s.setObj (Key.linkState k) 3) := by
  refine ⟨⟨(s.setObj (Key.linkState k) 3).dict, s.pev, s.outbox, s.ing, s.ring, s.mem, s.toll, rfl⟩, keepsBut_setObj (.inr (.inr ⟨k, hk, rfl⟩)) s 3, fun b _ => ?_, rfl,
    fun j hj => ?_⟩
  · rw [obj_setObj, if_neg (by unfold Key.statusPromise Key.linkState; omega)]
  · rw [obj_setObj]
    split
    case isTrue => exact .inr (by rw [lenOf_linkState k hk]; rfl)
    case isFalse => exact .inl rfl

theorem recovers_loseLink (s : State) {k : Nat} (hk : k < 128) (p e : Nat) : Recovers s (s.loseLink k p e) := by
  unfold loseLink
  split
  · exact .refl s
  · extract_lets l held s1 from' nearer g s2 s3
    have h1 : Recovers s s1 := by
      simp only [s1]
      split
      · exact (recovers_putLink ..).trans (recovers_of_flow (flow_finishWaiting _ hk true))
      · exact .refl s
    have h2 : Recovers s s2 := by
      simp only [s2]
      split
      · exact h1.trans (recovers_putLink ..)
      · exact h1
    have h3 : Recovers s s3 := h2.trans (recovers_setLinkState s2 hk)
    split
    · exact h3.trans (recovers_restartLanes s3 hk)
    · exact h3

/-- A link that releases is in recovery once it loses what follows. -/
theorem linkState_loseLink {s : State} {k : Nat} (hk : k < 128) (p e : Nat) (hs : s.obj (Key.linkState k) = 2 ∨ s.obj (Key.linkState k) = 3) :
    (s.loseLink k p e).obj (Key.linkState k) = 3 := by
  by_cases h3 : s.obj (Key.linkState k) = 3
  · exact ((recovers_loseLink s hk p e).linkState k hk).elim (fun h => h.trans h3) id
  · have h2 : s.obj (Key.linkState k) = 2 := hs.resolve_right h3
    unfold loseLink
    rw [if_neg (by simp [h2, linkLost])]
    extract_lets l held s1 from' nearer g s2 s3
    have hs3 : s3.obj (Key.linkState k) = 3 := by
      simp only [s3]
      rw [obj_setObj, if_pos rfl, lenOf_linkState k hk]
      rfl
    clear_value s3
    split
    · exact ((recovers_restartLanes s3 hk).linkState k hk).elim (fun h => h.trans hs3) id
    · exact hs3

/-! ### Attempts -/

theorem linksOn_lt {s : State} {k : Nat} (h : k ∈ s.linksOn) : k < 128 := by
  obtain ⟨e, he, rfl⟩ := List.mem_map.mp h
  have := (List.mem_filter.mp he).2
  simp only [Bool.and_eq_true, decide_eq_true_eq] at this
  omega

theorem linksOfPier_lt {s : State} {p k : Nat} (h : k ∈ s.linksOfPier p) : k < 128 := linksOn_lt (List.mem_of_mem_filter h)

@[simp] theorem pierSt_putPier (s : State) (p : Nat) (x : Pier) (q : Nat) : (s.putPier p x).pierSt q = if q = p then x else s.pierSt q := by simp [putPier, pierSt]

@[simp] theorem obj_putPier (s : State) (p : Nat) (x : Pier) (k : Nat) : (s.putPier p x).obj k = s.obj k := rfl

theorem startPll_changes (s : State) (n rate : Nat) : ∃ k d, s.startPll n rate = (s.withKs k).withDict d := ⟨_, _, rfl⟩

theorem keepsBut_startPll (s : State) (n rate : Nat) : KeepsBut (· = Key.lanepllState n) s (s.startPll n rate) := by
  intro k hk
  rw [startPll, obj_setObj, if_neg hk, obj_withKs]

/-- What an attempt of a pier changes: what its links' recovery changes, its count of attempts and its lane PLL. -/
def isAttemptKey (p k : Nat) : Prop := isRecoverKey k ∨ k = Key.pierRecoveries p ∨ k = Key.lanepllState p

/-- An attempt of a pier has begun. -/
structure Attempted (s : State) (p : Nat) (ef : KTime) (t : State) : Prop where
  form : ∃ d q o g r m x k, t = { s with dict := d, pev := q, outbox := o, ing := g, ring := r, mem := m, toll := x, ks := k }
  keeps : KeepsBut (isAttemptKey p) s t
  promise : ∀ b < 4, bit (t.obj Key.statusPromise) b = bit (s.obj Key.statusPromise) b
  piers : t.ing.piers = (s.putPier p { s.pierSt p with ef := ef, passed := (s.linksOfPier p).filter fun k => s.obj (Key.linkState k) == 1 }).ing.piers
  linkState : ∀ j < 128, t.obj (Key.linkState j) = s.obj (Key.linkState j) ∨ t.obj (Key.linkState j) = 3
  count : t.obj (Key.pierRecoveries p) = (s.obj (Key.pierRecoveries p) + 1) % 2 ^ 32

theorem not_isRecoverKey_pier {j k : Nat} (hj : j < 256) (hk : k = 0x150101 + j ∨ k = 0x150001 + j ∨ k = 0x140601 + j) : ¬isRecoverKey k := by
  unfold isRecoverKey isFlowKey isRingKey isMemCounter Key.memLostWrites Key.memLostReads Key.memchInorder Key.ringWraps Key.ringBlocksLost Key.ringSlabsNow
    Key.ringResizeState Key.statusPromise Key.statusGapCount Key.statusGapLast Key.linkErrors Key.portGapSeq Key.portOverloadCount Key.linkState
  rintro ((((h | h | ⟨n, hn, h⟩) | h | h | h | h) | h | h | h | h | ⟨n, hn, h⟩ | ⟨n, hn, h | h⟩) | h | ⟨n, hn, h⟩) <;> omega

theorem beginAttempt_spec (s : State) {p : Nat} (hp : p < 16) (ef : KTime) : Attempted s p ef (s.beginAttempt p ef) := by
  unfold beginAttempt
  extract_lets ks g s1 s2
  have hlens : lenOf (Key.pierRecoveries p) = 4 := lenOf_pierRecoveries p hp
  have hkeep1 : KeepsBut (isAttemptKey p) s s1 := KeepsBut.trans (t := s.putPier p { g with ef := ef, passed := ks.filter fun k => s.obj (Key.linkState k) == 1 })
    (keepsBut_of_dict rfl) (keepsBut_bump (.inr (.inl rfl)) _)
  have hkeep2 : KeepsBut (· = Key.lanepllState p) s1 s2 := by
    simp only [s2]
    split
    · exact keepsBut_startPll _ _ _
    · exact .refl s1
  have hform : ∃ d k, s2 = { s with dict := d, ing := (s.putPier p { g with ef := ef, passed := ks.filter fun k => s.obj (Key.linkState k) == 1 }).ing, ks := k } := by
    obtain ⟨d1, h1⟩ := bump_changes (s.putPier p { g with ef := ef, passed := ks.filter fun k => s.obj (Key.linkState k) == 1 }) (Key.pierRecoveries p)
    simp only [s2, s1, h1]
    split
    · obtain ⟨k, d, h⟩ := startPll_changes ((s.putPier p { g with ef := ef, passed := ks.filter fun k => s.obj (Key.linkState k) == 1 }).withDict d1) p
        (((s.putPier p { g with ef := ef, passed := ks.filter fun k => s.obj (Key.linkState k) == 1 }).withDict d1).obj (Key.pierRate p))
      exact ⟨d, k, h⟩
    · exact ⟨d1, s.ks, rfl⟩
  have hcount : s2.obj (Key.pierRecoveries p) = (s.obj (Key.pierRecoveries p) + 1) % 2 ^ 32 := by
    rw [hkeep2 _ (show Key.pierRecoveries p ≠ Key.lanepllState p by unfold Key.pierRecoveries Key.lanepllState; omega)]
    simp only [s1]
    rw [obj_bump, if_pos rfl, hlens, obj_putPier, show (256 : Nat) ^ 4 = 2 ^ 32 from rfl]
  have hsame : ∀ k, k ≠ Key.pierRecoveries p → k ≠ Key.lanepllState p → s2.obj k = s.obj k := fun k hr hl =>
    (hkeep2 k hl).trans (by simp only [s1]; rw [obj_bump, if_neg hr, obj_putPier])
  have hrec : Recovers s2 (ks.foldl (fun x k =>
      if x.linkLost k ∨ x.obj (Key.linkState k) = 1 then (x.lanesIn p k).foldl restartLane x else x.loseLink k p ((x.link k).edgeFrom ef)) s2) := by
    refine recovers_foldl_of_mem _ _ (fun x k hk => ?_) s2
    split
    · exact recovers_foldl_of_mem _ _ (fun y n hn => recovers_restartLane y (lanes_lt (List.mem_of_mem_filter hn))) x
    · exact recovers_loseLink x (linksOfPier_lt hk) _ _
  generalize ks.foldl (fun x k =>
      if x.linkLost k ∨ x.obj (Key.linkState k) = 1 then (x.lanesIn p k).foldl restartLane x else x.loseLink k p ((x.link k).edgeFrom ef)) s2 = t at hrec ⊢
  obtain ⟨⟨d, q, o, g', r, m, x, ht⟩, hkeep, hprom, hpiers, hstate⟩ := hrec
  refine ⟨?_, (hkeep1.trans (hkeep2.mono fun _ h => .inr (.inr h))).trans (hkeep.mono fun _ h => .inl h), fun b hb => ?_, ?_, fun j hj => ?_, ?_⟩
  · obtain ⟨d', k, h⟩ := hform
    rw [h] at ht
    exact ⟨d, q, o, g', r, m, x, k, ht⟩
  · rw [hprom b hb, hsame _ (by unfold Key.statusPromise Key.pierRecoveries; omega) (by unfold Key.statusPromise Key.lanepllState; omega)]
  · obtain ⟨d', k, h⟩ := hform
    rw [hpiers, h]
  · rw [← hsame (Key.linkState j) (by unfold Key.linkState Key.pierRecoveries; omega) (by unfold Key.linkState Key.lanepllState; omega)]
    exact hstate j hj
  · rw [hkeep _ (not_isRecoverKey_pier (j := p + 16) (by omega) (.inl (by unfold Key.pierRecoveries; omega))), hcount]

/-- A link error clears LINKS_CLEAN. -/
theorem linkError_spec (s : State) : (∃ d p c, s.linkError = { s with dict := d, pev := p, cond := c }) ∧ bit (s.linkError.obj Key.statusPromise) 1 = false ∧
    KeepsBut (· = Key.statusPromise) s s.linkError := by
  unfold linkError
  extract_lets c
  obtain ⟨d, p, h⟩ := setPromise_changes (s.withCond { c with linkErrorAt := s.wall }) 1 false
  refine ⟨⟨d, p, _, h⟩, ?_, KeepsBut.trans (t := s.withCond { c with linkErrorAt := s.wall }) (keepsBut_of_dict rfl) (keepsBut_setPromise (P := (· = Key.statusPromise)) rfl _ 1 false)⟩
  rw [bit_obj_setPromise _ (by omega), if_pos rfl]

/-- A pier in service begins recovering: LINKS_CLEAN is cleared and an attempt begins. -/
structure RecoveryStarted (s : State) (p : Nat) (t : State) : Prop where
  form : ∃ d q o g r m x k c, t = { s with dict := d, pev := q, outbox := o, ing := g, ring := r, mem := m, toll := x, ks := k, cond := c }
  keeps : KeepsBut (fun k => isAttemptKey p k ∨ k = Key.pierState p) s t
  clean : bit (t.obj Key.statusPromise) 1 = false
  linkState : ∀ j < 128, t.obj (Key.linkState j) = s.obj (Key.linkState j) ∨ t.obj (Key.linkState j) = 3
  pierState : t.obj (Key.pierState p) = 3
  count : t.obj (Key.pierRecoveries p) = (s.obj (Key.pierRecoveries p) + 1) % 2 ^ 32

theorem startRecovery_of_service {s : State} {p : Nat} (hp : p < 16) (hs : s.obj (Key.pierState p) = 2) (ef : KTime) : RecoveryStarted s p (s.startRecovery p ef) := by
  unfold startRecovery
  extract_lets st
  rw [if_pos hs]
  obtain ⟨⟨d, q, c, herr⟩, hclean, hkerr⟩ := linkError_spec s
  generalize hu : (s.linkError.setObj (Key.pierState p) 3).putPier p { markedTo := ef } = u
  have hobj : ∀ k, k ≠ Key.statusPromise → k ≠ Key.pierState p → u.obj k = s.obj k := fun k h1 h2 => by
    rw [← hu, obj_putPier, obj_setObj,
      if_neg h2, hkerr k h1]
  have hprom : bit (u.obj Key.statusPromise) 1 = false := by
    rw [← hu, obj_putPier, obj_setObj, if_neg (by unfold Key.statusPromise Key.pierState; omega), hclean]
  have hstate : u.obj (Key.pierState p) = 3 := by
    rw [← hu, obj_putPier, obj_setObj, if_pos rfl, lenOf_pierState p hp]
    rfl
  have hform : ∃ d g, u = { s with dict := d, pev := q, cond := c, ing := g } := by
    obtain ⟨d1, h1⟩ := setObj_changes s.linkError (Key.pierState p) 3
    rw [h1, herr] at hu
    exact ⟨d1, _, hu.symm⟩
  obtain ⟨⟨d', q', o, g, r, m, x, k, ht⟩, hkeep, hp', -, hls, hcount⟩ := beginAttempt_spec u hp ef
  refine ⟨?_, fun k hk => ?_, ?_, fun j hj => ?_, ?_, ?_⟩
  · obtain ⟨d'', g'', h⟩ := hform
    rw [h] at ht
    exact ⟨d', q', o, g, r, m, x, k, c, by rw [h]; exact ht⟩
  · rw [hkeep k fun h => hk (.inl h), hobj k (fun h => hk (.inl (.inl (.inl (.inr (.inl h)))))) fun h => hk (.inr h)]
  · rw [hp' 1 (by omega), hprom]
  · rw [← hobj (Key.linkState j) (by unfold Key.linkState Key.statusPromise; omega) (by unfold Key.linkState Key.pierState; omega)]
    exact hls j hj
  · rw [hkeep, hstate]
    rintro (h | h | h)
    · exact not_isRecoverKey_pier (j := p) (by omega) (.inl rfl) h
    · unfold Key.pierState Key.pierRecoveries at h; omega
    · unfold Key.pierState Key.lanepllState at h; omega
  · rw [hcount, hobj _ (by unfold Key.pierRecoveries Key.statusPromise; omega) (by unfold Key.pierRecoveries Key.pierState; omega)]

end Sys2Proof.Machine.State
end

section
/-! The LO synthesiser and the lane PLLs (02 R57, R60 to R64). -/

namespace Sys2Proof.Machine

namespace State

/-! ### Acquisition -/

theorem keepsBut_loAcquire (s : State) : KeepsObjects [Key.loState, Key.loMuteStart, Key.loMuteEnd] s s.loAcquire := by
  rw [keepsObjects_iff]
  unfold loAcquire
  extract_lets muted g s1 s2
  have h2 : KeepsBut (· ∈ [Key.loState, Key.loMuteStart, Key.loMuteEnd]) s s2 := KeepsBut.trans (t := s1) (keepsBut_of_dict rfl) (keepsBut_setObj (by simp) s1 1)
  split
  · exact h2
  · exact ((h2.trans (keepsBut_setObj (by simp) _ _)).trans (keepsBut_setObj (by simp) _ _)).trans (keepsBut_raiseEvent _ 9)

theorem loAcquire_form (s : State) : ∃ d p, s.loAcquire = { s with dict := d, pev := p, lo := { s.lo with acquiredFrom := s.wall, mash := { lfsr := s.obj Key.loSeed } } } := by
  unfold loAcquire
  extract_lets muted g s1 s2
  split
  · exact ⟨s2.dict, s.pev, rfl⟩
  · rw [raiseEvent_eq]
    exact ⟨_, _, rfl⟩

theorem loState_loAcquire (s : State) : s.loAcquire.obj Key.loState = 1 := by
  unfold loAcquire
  extract_lets muted g s1 s2
  have h2 : s2.obj Key.loState = 1 := by simp only [s2]; rw [obj_setObj, if_pos rfl]; rfl
  split
  · exact h2
  · rw [obj_raiseEvent, obj_setObj, if_neg (by decide), obj_setObj, if_neg (by decide), h2]

theorem mute_loAcquire {s : State} (h : s.obj Key.loState = 2) : s.loAcquire.obj Key.loMuteStart = s.time % 2 ^ 80 ∧ s.loAcquire.obj Key.loMuteEnd = 0 := by
  unfold loAcquire
  extract_lets muted g s1 s2
  rw [if_neg (by simp [muted, h])]
  refine ⟨?_, ?_⟩
  · rw [obj_raiseEvent, obj_setObj, if_neg (by decide), obj_setObj, if_pos rfl, lenOf_loMuteStart, show (256 : Nat) ^ 10 = 2 ^ 80 from rfl]
  · rw [obj_raiseEvent, obj_setObj, if_pos rfl, Nat.zero_mod]

/-- Lock confirmed: the mute's end is recorded. -/
theorem loConfirm_spec (s : State) : s.loConfirm.obj Key.loState = 2 ∧ s.loConfirm.obj Key.loMuteEnd = s.time % 2 ^ 80 ∧
    s.loConfirm = { s with dict := s.loConfirm.dict, pev := s.loConfirm.pev } ∧ KeepsObjects [Key.loState, Key.loMuteEnd] s s.loConfirm := by
  unfold loConfirm
  refine ⟨?_, ?_, ?_, fun k hk => ?_⟩
  · rw [obj_raiseEvent, obj_setObj, if_neg (by decide), obj_setObj, if_pos rfl]
    rfl
  · rw [obj_raiseEvent, obj_setObj, if_pos rfl, lenOf_loMuteEnd, show (256 : Nat) ^ 10 = 2 ^ 80 from rfl]
  · rw [raiseEvent_eq]
    rfl
  · obtain ⟨h1, h2⟩ : k ≠ Key.loState ∧ k ≠ Key.loMuteEnd := by simpa using hk
    rw [obj_raiseEvent, obj_setObj, if_neg h2, obj_setObj, if_neg h1]

/-- Lock that is not found in time is a failure. -/
theorem loFailed_spec (s : State) : (s.setObj Key.loState 3).obj Key.loState = 3 ∧ s.setObj Key.loState 3 = { s with dict := (s.setObj Key.loState 3).dict } ∧
    KeepsObjects [Key.loState] s (s.setObj Key.loState 3) := by
  refine ⟨by rw [obj_setObj, if_pos rfl]; rfl, rfl, fun k hk => ?_⟩
  rw [obj_setObj, if_neg (by simpa using hk)]

end State

open State

/-- A commit of lo.word alone leaves the synthesiser as it is. -/
theorem commitLo_of_loWord {s : State} {g : Group} {old : Nat → Nat} (hg : ∀ w ∈ g.writes, w.1 = Key.loWord) (he : old Key.loEnable = s.obj Key.loEnable)
    (hd : old Key.loDivider = s.obj Key.loDivider) : commitLo s g old = s := by
  have hhas : ∀ k, k ≠ Key.loWord → g.has k = false := fun k hk => by
    rw [Group.has, List.any_eq_false]
    intro w hw
    rw [hg w hw]
    simpa using hk.symm
  unfold commitLo
  simp only [hhas Key.loRampMode (by decide), hhas Key.loRampCount (by decide), hhas Key.loRampPeriod (by decide), hhas Key.loRampTable (by decide), Bool.or_self,
    Bool.false_eq_true, if_false, he, hd, State.flag]
  simp

/-! ### The profile -/

/-- The segment whose START has come last, of a profile whose STARTs rise. -/
theorem segmentAt_of_last {s : State} {i : Nat} (hmode : s.obj Key.loRampMode = 1) (hi : i < s.obj Key.loRampCount)
    (hcome : ∀ j ≤ i, rampStart (s.obj Key.loRampTable) j ≤ s.ticks)
    (hwait : ∀ j < s.obj Key.loRampCount, i < j → s.ticks < rampStart (s.obj Key.loRampTable) j) :
    s.segmentAt s.ticks = some (i, rampStart (s.obj Key.loRampTable) i, 0) := by
  have hlist : (List.range (s.obj Key.loRampCount)).filter (fun j => rampStart (s.obj Key.loRampTable) j ≤ s.ticks) = List.range (i + 1) := by
    obtain ⟨m, hm⟩ := Nat.exists_eq_add_of_lt hi
    rw [show s.obj Key.loRampCount = (i + 1) + m by omega, List.range_add, List.filter_append, List.filter_eq_self.mpr, List.filter_eq_nil_iff.mpr, List.append_nil]
    · intro j hj
      obtain ⟨a, ha, rfl⟩ := List.mem_map.mp hj
      have := hwait (i + 1 + a) (by rw [List.mem_range] at ha; omega) (by omega)
      simpa using this
    · intro j hj
      simpa using hcome j (by rw [List.mem_range] at hj; omega)
  have hlast : (List.range (i + 1)).getLastD 0 = i := by rw [List.range_succ, List.getLastD_concat]
  unfold segmentAt
  rw [if_neg (by rw [hmode]; have := hcome 0 (Nat.zero_le _); omega)]
  simp only [hmode, show ¬ (1 = 2 ∧ 0 < s.obj Key.loRampPeriod) by omega, if_false, Nat.add_zero, hlist, hlast]

/-- The active segment is taken anew: its initial value plus the slope's steps since its START. -/
theorem rampTo_of_segment {s : State} {i st : Nat} (hseg : s.segmentAt s.ticks = some (i, st, 0)) (hi : i + 1 < s.obj Key.loRampCount) (hne : s.lo.segment ≠ some i) :
    s.rampTo s.ticks false = (s.withLo { s.lo with segment := some i, advance := 0, ramp := ((rampInitial (s.obj Key.loRampTable) i +
      rampSlope (s.obj Key.loRampTable) i * (s.ticks - st : Nat)) % 2 ^ 53).toNat }).setObj Key.loRampSegment i := by
  unfold rampTo
  rw [hseg]
  simp only [hne, false_and, and_false, if_false, show ¬ s.obj Key.loRampCount ≤ i + 1 by omega]

theorem rampTo_of_running {s : State} {i st : Nat} (hseg : s.segmentAt s.ticks = some (i, st, 0)) (hi : s.lo.segment = some i) (ha : s.lo.advance = 0) :
    s.rampTo s.ticks false = s := by
  unfold rampTo
  rw [hseg]
  simp [hi, ha]

theorem completes_loRampSegment {s : State} {i : Nat} (hi : i + 1 < s.obj Key.loRampCount) (hmax : s.obj Key.loRampCount ≤ 256)
    (hseg : s.segmentAt s.ticks = some (i, rampStart (s.obj Key.loRampTable) i, 0)) (hne : s.lo.segment ≠ some i) :
    Completes .loRampSegment s fun t => t.obj Key.loRampSegment = i ∧ t.lo.segment = some i ∧
      (t.lo.ramp : Int) = (rampInitial (s.obj Key.loRampTable) i + rampSlope (s.obj Key.loRampTable) i * (s.ticks - rampStart (s.obj Key.loRampTable) i : Nat)) % 2 ^ 53 ∧
      t = { s with dict := t.dict, lo := t.lo } ∧ KeepsObjects [Key.loRampSegment] s t := by
  refine ⟨_, (exec_loRampSegment s).trans (congrArg Host.Outcome.next (rampTo_of_segment hseg hi hne)), ?_, rfl, ?_, rfl, fun k hk => ?_⟩
  · rw [obj_setObj, if_pos rfl, lenOf_loRampSegment]
    omega
  · exact Int.toNat_of_nonneg (Int.emod_nonneg _ (by decide))
  · rw [obj_setObj, if_neg (by simpa using hk), obj_withLo]

/-! ### Lane PLLs -/

theorem netState_eq (i : Nat) : Key.netState i = 0x170006 + 256 * i := rfl

theorem keepsBut_discardQueued (s : State) (i : Nat) : KeepsBut (· = Key.netTxDropped i) s (s.discardQueued i) := by
  refine keepsBut_foldl _ _ (fun y n => ?_) s
  split
  · exact .refl y
  · extract_lets x
    split
    · exact .refl y
    · exact KeepsBut.trans (t := y.putVrtStream n { x with queue := [] }) (keepsBut_of_dict rfl) (keepsBut_addObj (P := (· = Key.netTxDropped i)) rfl _ _)

theorem keepsBut_stopPll (s : State) (n : Nat) : KeepsBut (· = Key.lanepllState n) s (s.stopPll n) := by
  intro k hk
  rw [stopPll, obj_setObj, if_neg hk, obj_withKs]

theorem keepsBut_ethPll (s : State) (p : Nat) : KeepsBut (· = Key.lanepllState (20 + p)) s (s.ethPll p) := by
  unfold ethPll
  split
  · exact keepsBut_stopPll s _
  · split
    · exact keepsBut_startPll s _ _
    · exact .refl s

/-- An interface that restarts is not in service, and the others stay in their states. -/
theorem netState_restartIface (s : State) {i : Nat} (hi : i < 8) : (s.restartIface i).obj (Key.netState i) ≠ 2 ∧
    ∀ j < 8, j ≠ i → (s.restartIface i).obj (Key.netState j) = s.obj (Key.netState j) := by
  unfold restartIface
  extract_lets s1
  have hpll : ∀ j < 8, Key.netState j ≠ Key.lanepllState (20 + i / 4) := fun j hj => by unfold Key.netState Key.lanepllState; omega
  have h1 : ∀ j < 8, s1.obj (Key.netState j) = s.obj (Key.netState j) := fun j hj => by
    simp only [s1]
    split
    · exact keepsBut_discardQueued s i _ (by unfold Key.netState Key.netTxDropped; omega)
    · rfl
  refine ⟨?_, fun j hj hne => ?_⟩
  · rw [keepsBut_ethPll _ _ _ (hpll i hi), obj_setObj, if_pos rfl, lenOf_netState i hi, b2n]
    split <;> decide
  · rw [keepsBut_ethPll _ _ _ (hpll j hj), obj_setObj, if_neg (by unfold Key.netState; omega), h1 j hj]

/-- A port whose PLL loses lock has no interface in service. -/
theorem netState_loseEthPll (s : State) {p l : Nat} (hp : p < 2) (hl : l < 4) : (s.loseEthPll p).obj (Key.netState (4 * p + l)) ≠ 2 := by
  unfold loseEthPll
  have hstep : ∀ (x : State) (i : Nat), i < 4 → (if x.ifaceUp (4 * p + i) then x.restartIface (4 * p + i) else x).obj (Key.netState (4 * p + i)) ≠ 2 ∧
      ∀ j < 4, j ≠ i → (if x.ifaceUp (4 * p + i) then x.restartIface (4 * p + i) else x).obj (Key.netState (4 * p + j)) = x.obj (Key.netState (4 * p + j)) := fun x i hi => by
    split
    case isTrue => exact ⟨(netState_restartIface x (by omega)).1, fun j hj hne => (netState_restartIface x (by omega)).2 _ (by omega) (by omega)⟩
    case isFalse hdown => exact ⟨by simpa [ifaceUp] using hdown, fun _ _ _ => rfl⟩
  have hall : ∀ n ≤ 4, ∀ j < n, ((List.range n).foldl (fun x l => if x.ifaceUp (4 * p + l) then x.restartIface (4 * p + l) else x) s).obj (Key.netState (4 * p + j)) ≠ 2 := by
    intro n
    induction n with
    | zero => omega
    | succ n ih =>
      intro hn j hj
      rw [List.range_succ, List.foldl_append, List.foldl_cons, List.foldl_nil]
      by_cases h : j = n
      · rw [h]
        exact (hstep _ n (by omega)).1
      · rw [(hstep _ n (by omega)).2 j (by omega) h]
        exact ih (by omega) j (by omega)
  exact hall 4 (by omega) l hl

/-- A head without its PLL is in NO_SINK. -/
theorem loseHeadPll_spec {s : State} {h : Nat} (hh : h < 2) (hs : s.obj (Key.dispState h) = 2) :
    (s.loseHeadPll h).obj (Key.lanepllState (22 + h)) = 3 ∧ (s.loseHeadPll h).obj (Key.dispState h) = 3 := by
  unfold loseHeadPll noSink
  rw [if_pos (.inr hs)]
  refine ⟨?_, ?_⟩
  · rw [obj_setObj, if_pos rfl, lenOf_lanepllState _ (by omega)]
    rfl
  · rw [obj_setObj, if_neg (by unfold Key.dispState Key.lanepllState; omega), obj_setObj, if_pos rfl, lenOf_dispState h hh]
    rfl

theorem nodup_logicalLanes (s : State) (p : Nat) : (s.logicalLanes p).Nodup := List.nodup_range.filter _

theorem State.Retired.logicalLanes {s t : State} {p l : Nat} (h : Retired s p l t) : t.logicalLanes p = (s.logicalLanes p).filter (· ≠ l) := by
  unfold State.logicalLanes
  rw [List.filter_filter]
  exact List.filter_congr fun j hj => by rw [h.laneIn j (List.mem_range.mp hj), Bool.and_comm]

theorem not_isRetireKey_lanepll {p n : Nat} (hn : n < 24) : ¬isRetireKey p (Key.lanepllState n) := by
  unfold isRetireKey isNewsKey isMemCounter isMapKey Key.memLostWrites Key.memLostReads Key.memchInorder Key.spanLost Key.spanState Key.statusPromise Key.trussState
    Key.trussFailovers Key.trussMap Key.trussLanes Key.trussLaneState Key.lanepllState
  rintro (((h | h | ⟨m, hm, h⟩) | h | h | h | h) | h | h | h | h | h) <;> omega

/-- A port whose lanes in service are all retired is DOWN. -/
theorem trussState_retireLanes {p : Nat} (hp : p < 4) (ls : List Nat) (s : State) (hls : s.logicalLanes p = ls) (hne : ls ≠ []) :
    (ls.foldl (fun x l => x.retireLane p l false) s).obj (Key.trussState p) = 5 := by
  induction ls generalizing s with
  | nil => exact absurd rfl hne
  | cons l r ih =>
    obtain ⟨hl, hin⟩ := mem_logicalLanes.mp (hls ▸ List.mem_cons_self : l ∈ s.logicalLanes p)
    have hret := retireLane_spec hp hl hin false
    have hnodup : (l :: r).Nodup := hls ▸ nodup_logicalLanes s p
    have hrest : (s.retireLane p l false).logicalLanes p = r := by
      rw [hret.logicalLanes, hls, List.filter_cons_of_neg (by simp), List.filter_eq_self]
      rintro j hj
      exact decide_eq_true fun h => (List.nodup_cons.mp hnodup).1 (h ▸ hj)
    cases r with
    | nil => exact hret.down hls
    | cons l' r' => exact ih _ hrest (by simp)

theorem lanepllState_retireLanes {p n : Nat} (hp : p < 4) (hn : n < 24) (ls : List Nat) (hls : ∀ l ∈ ls, l < 5) (s : State) :
    (ls.foldl (fun x l => x.retireLane p l false) s).obj (Key.lanepllState n) = s.obj (Key.lanepllState n) := by
  refine keepsBut_foldl_of_mem (P := isRetireKey p) ls _ (fun x l hl => ?_) s _ (not_isRetireKey_lanepll hn)
  by_cases hin : x.laneIn p l = true
  · exact (retireLane_spec hp (hls l hl) hin false).keeps
  · rw [retireLane_of_not_laneIn (by simpa using hin)]
    exact .refl x

/-- A link's configuration is read from its own objects, its pier's rate and the phase of SYSREF. -/
theorem link_congr {s t : State} (k : Nat) (hown : ∀ j, 2 ≤ j → j ≤ 13 → t.obj (0x158000 + j + 256 * k) = s.obj (0x158000 + j + 256 * k))
    (hrate : ∀ q < 32, t.obj (Key.pierRate q) = s.obj (Key.pierRate q)) (hphase : t.obj Key.sysrefPhase = s.obj Key.sysrefPhase) : t.link k = s.link k := by
  have hlanes : t.obj (Key.linkLanes k) = s.obj (Key.linkLanes k) := hown 11 (by omega) (by omega)
  have hl : t.obj (Key.linkL k) = s.obj (Key.linkL k) := hown 2 (by omega) (by omega)
  have hpier : (lanesOf (s.obj (Key.linkLanes k)) (s.obj (Key.linkL k))).headD 0 / 8 < 32 := pierOfLink_lt s k
  unfold State.link
  simp only [hl, hlanes, hphase, hrate _ hpier, objI]
  rw [show t.obj (Key.linkM k) = s.obj (Key.linkM k) from hown 3 (by omega) (by omega), show t.obj (Key.linkF k) = s.obj (Key.linkF k) from hown 4 (by omega) (by omega),
    show t.obj (Key.linkS k) = s.obj (Key.linkS k) from hown 5 (by omega) (by omega), show t.obj (Key.linkN k) = s.obj (Key.linkN k) from hown 6 (by omega) (by omega),
    show t.obj (Key.linkNp k) = s.obj (Key.linkNp k) from hown 7 (by omega) (by omega), show t.obj (Key.linkCs k) = s.obj (Key.linkCs k) from hown 8 (by omega) (by omega),
    show t.obj (Key.linkE k) = s.obj (Key.linkE k) from hown 9 (by omega) (by omega), show t.obj (Key.linkRbd k) = s.obj (Key.linkRbd k) from hown 12 (by omega) (by omega),
    show t.obj (Key.linkLatency k) = s.obj (Key.linkLatency k) from hown 13 (by omega) (by omega)]

theorem mem_tabSet_of_ne {α : Type} [DecidableEq α] {d v : α} {t : Tab α} {k : Nat} {e : Nat × α} (he : e ∈ t) (hne : e.1 ≠ k) : e ∈ tabSet d t k v := by
  have hrest : e ∈ t.filter fun e => e.1 != k := List.mem_filter.mpr ⟨he, by simpa using hne⟩
  unfold tabSet
  extract_lets rest
  split
  · exact hrest
  · exact (tabInsert_perm k v _).mem_iff.mpr (List.mem_cons_of_mem _ hrest)

/-- Links stay enabled and configured as the state of a lane PLL changes. -/
theorem linksOfPier_setObj_lanepll {s : State} {n p : Nat} (hn : n < 24) (v : Nat) (h : s.linksOfPier p ≠ []) : (s.setObj (Key.lanepllState n) v).linksOfPier p ≠ [] := by
  obtain ⟨k, hk⟩ := List.exists_mem_of_ne_nil _ h
  obtain ⟨hon, hin⟩ := List.mem_filter.mp hk
  have hlink : (s.setObj (Key.lanepllState n) v).link k = s.link k := by
    refine link_congr k (fun j h2 h13 => ?_) (fun q hq => ?_) ?_
    · rw [obj_setObj, if_neg (by unfold Key.lanepllState; omega)]
    · rw [obj_setObj, if_neg (by unfold Key.lanepllState Key.pierRate; omega)]
    · rw [obj_setObj, if_neg (by unfold Key.lanepllState Key.sysrefPhase; omega)]
  have hon' : k ∈ (s.setObj (Key.lanepllState n) v).linksOn := by
    obtain ⟨e, he, rfl⟩ := List.mem_map.mp hon
    obtain ⟨hmem, hkey⟩ := List.mem_filter.mp he
    have hrange : 0x1580 * 256 ≤ e.1 := by
      simp only [Bool.and_eq_true, decide_eq_true_eq] at hkey
      exact hkey.1.1.1
    exact List.mem_map.mpr ⟨e, List.mem_filter.mpr ⟨mem_tabSet_of_ne hmem (by unfold Key.lanepllState; omega), hkey⟩, rfl⟩
  exact List.ne_nil_of_mem (List.mem_filter.mpr ⟨hon', by rw [hlink]; exact hin⟩)

theorem execLanePllLoss_of_locked {s : State} {pll : Fin 24} (hlock : s.obj (Key.lanepllState pll.val) = 2) (hks : s.obj Key.ksState ≠ ksHoldover) :
    exec (.lanePllLoss pll) s = .next (if pll.val < 16 then (s.setObj (Key.lanepllState pll.val) 3).losePierPll pll.val
      else if pll.val < 20 then (s.setObj (Key.lanepllState pll.val) 3).loseTrussPll (pll.val - 16)
      else if pll.val < 22 then (s.setObj (Key.lanepllState pll.val) 3).loseEthPll (pll.val - 20)
      else (s.setObj (Key.lanepllState pll.val) 3).loseHeadPll (pll.val - 22)) := by
  rw [exec_lanePllLoss, execLanePllLoss, if_neg (by simp [hlock, hks])]

/-- A pier in service whose PLL loses lock recovers. -/
theorem losePierPll_spec {s : State} {p : Nat} (hp : p < 16) (hlinks : s.linksOfPier p ≠ []) (hs : s.obj (Key.pierState p) = 2) :
    (s.losePierPll p).obj (Key.pierState p) = 3 ∧ bit ((s.losePierPll p).obj Key.statusPromise) 1 = false := by
  unfold losePierPll
  extract_lets ks s1
  rw [if_pos hs]
  split
  case h_1 h => exact absurd (List.map_eq_nil_iff.mp h) hlinks
  case h_2 e r h =>
    have hstart := startRecovery_of_service hp hs (r.foldl min e)
    exact ⟨hstart.pierState, hstart.clean⟩

/-- Settles O10: the synthesiser's lock and mute, its profile, and what runs from a lane PLL that loses lock. -/
theorem loSynthesiser : Obligations.LoSynthesiser := by
  refine ⟨⟨fun s hs hdue => ?_, fun s g old hg he hd => commitLo_of_loWord hg he hd, fun s hs hcmd => ?_, fun s hs hlate => ?_, fun s hs hmin hmax => ?_, fun s hs => ?_⟩,
    fun s i hmode hi hmax hcome hwait => ?_, fun s pll hlock hks => ⟨fun p hp hpll hlanes => ?_, fun p hp hpll => ?_, fun h hh hpll hstate => ?_, fun hpll hlinks hpier => ?_⟩,
    fun s pll hlock => ?_⟩
  · exact ⟨_, by rw [exec_loLockTimeout, execLoLockTimeout, if_pos ⟨hs, hdue⟩], loFailed_spec s⟩
  · generalize hu : s.withDue (s.due.filter (fun d => d.1 != Key.loRelock)) = u
    have hobj : ∀ k, u.obj k = s.obj k := fun k => by rw [← hu, obj_withDue]
    refine ⟨u.loAcquire, ?_, loState_loAcquire u, ?_⟩
    · rw [exec_loRelock, execLoRelock, if_pos (by simpa using hcmd)]
      simp only [hu, hobj, if_neg hs]
    · have hkeep : KeepsObjects [Key.loState, Key.loMuteStart, Key.loMuteEnd] s u.loAcquire := fun k hk => (keepsBut_loAcquire u k hk).trans (hobj k)
      obtain ⟨d, p, h⟩ := loAcquire_form u
      rw [h] at hkeep ⊢
      rw [hobj] at hkeep ⊢
      subst hu
      exact ⟨rfl, rfl, rfl, hkeep⟩
  · refine ⟨s.setObj Key.loState 3, ?_, loFailed_spec s⟩
    rw [exec_loLockConfirmed, execLoLockConfirmed, if_neg (by omega), if_pos hlate]
  · refine ⟨s.loConfirm, ?_, loConfirm_spec s⟩
    rw [exec_loLockConfirmed, execLoLockConfirmed, if_neg (by omega), if_neg (by omega)]
  · exact ⟨_, by rw [exec_loLockLoss, execLoLockLoss, if_pos hs], loState_loAcquire s, (mute_loAcquire hs).1, (mute_loAcquire hs).2, keepsBut_loAcquire s⟩
  · have hseg := segmentAt_of_last hmode (by omega) hcome hwait
    refine ⟨fun hne => completes_loRampSegment hi hmax hseg hne, fun hrun hadv => ?_⟩
    rw [exec_loRampSegment, execLoRampSegment, rampTo_of_running hseg hrun hadv]
  · generalize hu : s.setObj (Key.lanepllState pll.val) 3 = u
    have hlane : u.obj (Key.trussLaneState p) = s.obj (Key.trussLaneState p) := by
      rw [← hu, obj_setObj, if_neg (by unfold Key.trussLaneState Key.lanepllState; omega)]
    have hpllState : u.obj (Key.lanepllState pll.val) = 3 := by
      rw [← hu, obj_setObj, if_pos rfl, lenOf_lanepllState _ pll.isLt]
      rfl
    refine ⟨u.loseTrussPll p, ?_, ?_, trussState_retireLanes hp _ u rfl (by rwa [logicalLanes_of_obj hlane])⟩
    · rw [execLanePllLoss_of_locked hlock hks, if_neg (by omega), if_pos (by omega), hu, show pll.val - 16 = p by omega]
    · rw [loseTrussPll, lanepllState_retireLanes hp pll.isLt _ (fun l hl => (mem_logicalLanes.mp hl).1), hpllState]
  · refine ⟨_, ?_, fun l hl => netState_loseEthPll (s.setObj (Key.lanepllState pll.val) 3) hp hl⟩
    rw [execLanePllLoss_of_locked hlock hks, if_neg (by omega), if_neg (by omega), if_pos (by omega), show pll.val - 20 = p by omega]
  · have hstate' : (s.setObj (Key.lanepllState pll.val) 3).obj (Key.dispState h) = 2 := by
      rw [obj_setObj, if_neg (by unfold Key.dispState Key.lanepllState; omega), hstate]
    refine ⟨_, ?_, by rw [hpll]; exact loseHeadPll_spec hh (hpll ▸ hstate')⟩
    rw [execLanePllLoss_of_locked hlock hks, if_neg (by omega), if_neg (by omega), if_neg (by omega), show pll.val - 22 = h by omega, hpll]
  · have hpier' : (s.setObj (Key.lanepllState pll.val) 3).obj (Key.pierState pll.val) = 2 := by
      rw [obj_setObj, if_neg (by unfold Key.pierState Key.lanepllState; omega), hpier]
    have hlinks' : (s.setObj (Key.lanepllState pll.val) 3).linksOfPier pll.val ≠ [] := linksOfPier_setObj_lanepll pll.isLt 3 hlinks
    exact ⟨_, by rw [execLanePllLoss_of_locked hlock hks, if_pos hpll], losePierPll_spec hpll hlinks' hpier'⟩
  · rw [exec_lanePllLoss, execLanePllLoss, if_pos (.inl hlock)]

end Sys2Proof.Machine
end

section
/-! Reception on a lane: headers, CRC results, alignment and the loss of CDR lock (03 R68 to R91). -/

namespace Sys2Proof.Machine

namespace State

@[simp] theorem laneSt_putLane (s : State) (n : Nat) (x : Lane) (m : Nat) : (s.putLane n x).laneSt m = if m = n then x else s.laneSt m := by simp [putLane, laneSt]

@[simp] theorem obj_putLane (s : State) (n : Nat) (x : Lane) (k : Nat) : (s.putLane n x).obj k = s.obj k := rfl

@[simp] theorem obj_putLink (s : State) (n : Nat) (x : Link) (k : Nat) : (s.putLink n x).obj k = s.obj k := rfl

@[simp] theorem laneSt_setObj (s : State) (k v m : Nat) : (s.setObj k v).laneSt m = s.laneSt m := rfl

theorem laneSt_of_lanes {s t : State} (h : t.ing.lanes = s.ing.lanes) (n : Nat) : t.laneSt n = s.laneSt n := by rw [laneSt, h, laneSt]

theorem linkOfLane_lt {s : State} {n k : Nat} (h : s.linkOfLane n = some k) : k < 128 := linksOn_lt (List.mem_of_find?_eq_some h)

/-! ### A late extended multiblock -/

/-- The measurements of a link's arrivals. -/
def isArrivalKey (k j : Nat) : Prop := j = Key.linkArrivalMin k ∨ j = Key.linkArrivalMax k

/-- An arrival is measured: the link's two measurements change, and no lane. -/
theorem measure_spec (s : State) (k : Nat) (c : LinkCfg) (edge : Nat) (at' : KTime) :
    (∃ d g, s.measure k c edge at' = { s with dict := d, ing := g } ∧ g.lanes = s.ing.lanes ∧ g.piers = s.ing.piers ∧
      ∀ j, ∃ m, tabGet ({} : Link) g.links j = { s.linkSt j with measured := m }) ∧ KeepsBut (isArrivalKey k) s (s.measure k c edge at') := by
  unfold measure
  extract_lets t l
  split
  · exact ⟨⟨_, s.ing, rfl, rfl, rfl, fun j => ⟨_, rfl⟩⟩, (keepsBut_setObjI (.inl rfl) _ _).trans (keepsBut_setObjI (.inr rfl) _ _)⟩
  · refine ⟨⟨_, _, rfl, rfl, rfl, fun j => ?_⟩, ((keepsBut_setObjI (.inl rfl) _ _).trans (keepsBut_setObjI (.inr rfl) _ _)).trans (keepsBut_of_dict rfl)⟩
    rw [tabGet_tabSet]
    split
    case isTrue h => rw [h]; exact ⟨true, rfl⟩
    case isFalse => exact ⟨_, rfl⟩

/-- A lane's late multiblock: its count goes down or its link's arrival is measured. -/
theorem lateBlock_spec (s : State) (n k : Nat) : (∃ d g, s.lateBlock n k = { s with dict := d, ing := g }) ∧ KeepsBut (isArrivalKey k) s (s.lateBlock n k) ∧
    ∀ m, ∃ e, (s.lateBlock n k).laneSt m = { s.laneSt m with late := e } := by
  unfold lateBlock
  split
  · exact ⟨⟨s.dict, s.ing, rfl⟩, .refl s, fun m => ⟨_, rfl⟩⟩
  · rename_i e m _
    extract_lets l
    have hput : ∀ x m, ∃ e, (s.putLane n { l with late := x }).laneSt m = { s.laneSt m with late := e } := fun x m => by
      rw [laneSt_putLane]
      split
      case isTrue h => rw [h]; exact ⟨x, rfl⟩
      case isFalse => exact ⟨_, rfl⟩
    split
    · exact ⟨⟨s.dict, _, rfl⟩, keepsBut_of_dict rfl, hput _⟩
    · obtain ⟨⟨d, g, h, hl, -⟩, hkeep⟩ := measure_spec (s.putLane n { l with late := none }) k (s.link k) e s.time
      refine ⟨⟨d, g, h⟩, KeepsBut.trans (t := s.putLane n { l with late := none }) (keepsBut_of_dict rfl) hkeep, fun m => ?_⟩
      rw [laneSt_of_lanes (s := s.putLane n { l with late := none }) (by rw [h]; exact hl)]
      exact hput none m

/-! ### CRC results and the pin route -/

/-- A CRC result is told: samples may go on, and with a clean one every lane stands. -/
theorem crcResult_spec (s : State) (n : Nat) {k : Nat} (hk : k < 128) (bad : Bool) : (s.crcResult n k bad).time = s.time ∧ KeepsBut isFlowKey s (s.crcResult n k bad) ∧
    (∀ b < 4, bit ((s.crcResult n k bad).obj Key.statusPromise) b = bit (s.obj Key.statusPromise) b) ∧
    (bad = false → ∀ m, (s.crcResult n k bad).laneSt m = s.laneSt m) := by
  have hput : ∀ x, (bad = false → x = s.laneSt n) → (s.putLane n x).time = s.time ∧ KeepsBut isFlowKey s (s.putLane n x) ∧
      (∀ b < 4, bit ((s.putLane n x).obj Key.statusPromise) b = bit (s.obj Key.statusPromise) b) ∧ (bad = false → ∀ m, (s.putLane n x).laneSt m = s.laneSt m) :=
    fun x hx => ⟨rfl, keepsBut_of_dict rfl, fun b _ => by rw [obj_putLane], fun hb m => by
      rw [laneSt_putLane]
      split
      case isTrue h => rw [hx hb, h]
      case isFalse => rfl⟩
  have hflow : ∀ {t}, Flow s t → t.time = s.time ∧ KeepsBut isFlowKey s t ∧ (∀ b < 4, bit (t.obj Key.statusPromise) b = bit (s.obj Key.statusPromise) b) ∧
      (bad = false → ∀ m, t.laneSt m = s.laneSt m) := fun {t} h => by
    obtain ⟨d, p, o, g, r, m, x, ht⟩ := h.form
    exact ⟨by rw [ht], h.keeps, h.promise, fun _ => laneSt_of_lanes h.lanes⟩
  unfold crcResult
  extract_lets l
  split
  · exact hput _ fun hb => by rw [hb, Bool.or_false]
  · split
    · rename_i e he
      refine hput _ fun hb => ?_
      have hlist : l.buffer.dropLast ++ [e] = l.buffer := List.dropLast_append_getLast? e he
      rw [hb]
      simp only [Bool.or_false]
      rw [show ({ octets := e.octets, bad := e.bad, at' := e.at' } : Emb) = e from rfl, hlist]
    · refine hflow ?_
      unfold crcOfReleased
      split
      · exact .refl s
      · rename_i w hw
        split
        · exact .refl s
        · extract_lets w1 g s1
          have h1 : Flow s s1 := flow_putLink s k _ ⟨_, _, rfl⟩
          clear_value s1
          split
          · exact h1.trans (flow_finishWaiting s1 hk false)
          · exact h1

/-- The pin route takes samples: pulses start, and no lane changes. -/
structure Pinned (s t : State) : Prop where
  keeps : KeepsBut isTrigCounter s t
  lanes : t.ing.lanes = s.ing.lanes

theorem Pinned.refl (s : State) : Pinned s s := ⟨.refl s, rfl⟩

theorem Pinned.trans {s t u : State} (h : Pinned s t) (h' : Pinned t u) : Pinned s u := ⟨h.keeps.trans h'.keeps, h'.lanes.trans h.lanes⟩

theorem pinned_foldl_of_mem {α : Type} (l : List α) (f : State → α → State) (h : ∀ s, ∀ x ∈ l, Pinned s (f s x)) (s : State) : Pinned s (l.foldl f s) := by
  induction l generalizing s with
  | nil => exact .refl s
  | cons x l ih => exact (h s x List.mem_cons_self).trans (ih (fun s y hy => h s y (List.mem_cons_of_mem x hy)) _)

theorem pinned_foldl {α : Type} (l : List α) (f : State → α → State) (h : ∀ s x, Pinned s (f s x)) (s : State) : Pinned s (l.foldl f s) :=
  pinned_foldl_of_mem l f (fun s x _ => h s x) s

theorem pinned_pulseFrom (s : State) (driver pins at' : Nat) (width : Nat → Nat) : Pinned s (s.pulseFrom driver pins at' width) := by
  refine pinned_foldl_of_mem _ _ (fun x n hn => ?_) s
  split
  · obtain ⟨⟨d, g, y, o, h, -⟩, hk⟩ := onlyTriggers_pulsePin x driver (width n) at' (List.mem_range.mp hn)
    exact ⟨hk, by rw [h]; rfl⟩
  · exact .refl x

theorem pinned_putPinComparator (s : State) (p : Nat) (x : PinComparator) : Pinned s (s.putPinComparator p x) := ⟨keepsBut_of_dict rfl, rfl⟩

theorem pinned_pinSample (s : State) (p : Nat) (t : KTime) (w : Nat) (era : KTime) (at' : Nat) (i q : Int) : Pinned s (s.pinSample p t w era at' i q) := by
  unfold pinSample
  extract_lets
  split
  · exact pinned_putPinComparator ..
  · split
    split
    extract_lets s1
    split
    · exact (pinned_putPinComparator ..).trans (pinned_pulseFrom ..)
    · exact pinned_putPinComparator ..

theorem pinned_pinFrames (s : State) (k : Nat) : Pinned s (s.pinFrames k) := by
  unfold pinFrames
  extract_lets c l e from' embs done s1
  refine Pinned.trans (t := s1) ⟨keepsBut_of_dict rfl, rfl⟩ (pinned_foldl _ _ (fun x f => ?_) s1)
  split
  · exact .refl x
  · refine pinned_foldl _ _ (fun y p => pinned_foldl _ _ (fun z j => ?_) y) x
    extract_lets t
    split
    · split
      · exact pinned_pinSample ..
      · exact .refl z
    · exact .refl z

/-! ### A clean multiblock -/

theorem scanl_valid (m r d : Nat) : ((List.replicate m false).scanl (fun r b => if b then 0 else r + 1) r).getLastD d = r + m ∧
    (((List.replicate m false).scanl (fun r b => if b then 0 else r + 1) r).any (1024 ≤ ·) = decide (1024 ≤ r + m)) := by
  induction m generalizing r d with
  | zero => simp
  | succ m ih =>
    obtain ⟨hl, ha⟩ := ih (r + 1) r
    rw [List.replicate_succ, List.scanl_cons]
    simp only [Bool.false_eq_true, if_false] at hl ha ⊢
    refine ⟨by rw [List.getLastD_cons, hl]; omega, ?_⟩
    rw [List.any_cons, ha, ← Bool.decide_or, decide_eq_decide]
    omega

theorem headers_zero : ((List.range 32).map fun i => bit (0 : BitVec 32).toNat i) = List.replicate 32 false := by decide

/-- Fewer than 16 invalid headers in the history show no 16 of them in 64 after a clean multiblock. -/
theorem no_loss_of_few {l : List Bool} (h : (l.filter id).length < 16) :
    ((List.range 32).any fun i => 16 ≤ (((((List.replicate 32 false).reverse ++ l).drop i).take 64).filter id).length) = false := by
  rw [List.any_eq_false]
  intro i _
  rw [decide_eq_true_eq, Nat.not_le]
  have hsub : List.Sublist (((((List.replicate 32 false).reverse ++ l).drop i).take 64).filter id) (((List.replicate 32 false).reverse ++ l).filter id) :=
    ((List.take_sublist _ _).trans (List.drop_sublist _ _)).filter _
  have hall : (((List.replicate 32 false).reverse ++ l).filter id).length = (l.filter id).length := by simp
  exact lt_of_le_of_lt (hall ▸ hsub.length_le) h

/-- The octets of a multiblock as its lane receives them. -/
def received (s : State) (n : Nat) (b : Bytes) : Bytes := b.map fun x => if fieldAt (s.obj Key.laneEq) (4 * n + 3) 1 % 2 = 1 then ~~~x else x

/-- What a multiblock without errors does, by the state of its lane. -/
theorem exec_cleanMultiblock {s : State} {n : Fin 128} {k : Nat} {m : EndMarkers} {b : Bytes} (hk : s.linkOfLane n.val = some k) :
    ∃ s3 l1 data cdr, s3 = (s.addObj (Key.laneShErrors n.val) 0).lateBlock n.val k ∧
      (∃ hd er h, l1 = { s3.laneSt n.val with validRun := (s3.laneSt n.val).validRun + 32, headers := hd, errors := er, history := h }) ∧
      data = (descramble (s3.laneSt n.val).history (received s n.val b)).1 ∧ (((s3.laneSt n.val).headers.filter id).length < 16 → cdr = false) ∧
      exec (.laneMultiblockRx n 0 false m b) s = .next (
        if s3.obj (Key.laneState n.val) = 1 then
          (if 1024 ≤ (s3.laneSt n.val).validRun + 32 then (s3.putLane n.val l1).setObj (Key.laneState n.val) 2 else s3.putLane n.val l1)
        else if s3.obj (Key.laneState n.val) = 2 then (if cdr then (s3.putLane n.val l1).setObj (Key.laneState n.val) 1
          else if m.multiblock ∧ m.extended then
            ((s3.putLane n.val l1).setObj (Key.laneState n.val) 3).putLane n.val { validRun := l1.validRun, headers := l1.headers, errors := [false], history := l1.history, late := l1.late }
          else s3.putLane n.val l1)
        else if s3.obj (Key.laneState n.val) = 3 ∨ (s3.obj (Key.laneState n.val) = 4 ∧ (s3.putLane n.val l1).linkDrains k) then
          (s3.putLane n.val l1).alignedBlock n.val k false false cdr false false m data
        else s3.putLane n.val l1) := by
  obtain ⟨s3, hs3⟩ : ∃ s3, s3 = (s.addObj (Key.laneShErrors n.val) 0).lateBlock n.val k := ⟨_, rfl⟩
  refine ⟨s3, _, _, _, hs3, ⟨((List.replicate 32 false).reverse ++ (s3.laneSt n.val).headers).take 64,
    (false :: (match (s3.laneSt n.val).errors with | [] => [] | b :: r => b :: r)).take 16,
    (descramble (s3.laneSt n.val).history (received s n.val b)).2, rfl⟩, rfl, no_loss_of_few, ?_⟩
  obtain ⟨hlast, hany⟩ := scanl_valid 32 (s3.laneSt n.val).validRun 0
  rw [exec_laneMultiblockRx, execLaneMultiblockRx, hk]
  simp only [headers_zero]
  have hcount : ((List.replicate 32 false).filter id).length = 0 := by simp
  simp only [hcount, bne_self_eq_false, Bool.or_false, Bool.false_and, Bool.false_eq_true, if_false, ← hs3, hany, hlast, decide_eq_true_eq, and_true, beq_iff_eq]
  simp only [apply_ite Host.Outcome.next]
  rfl

/-! ### A lane that is aligned -/

/-- The objects that configure a link: its own, the rates of the piers and the phase of SYSREF. -/
def isLinkCfgKey (k j : Nat) : Prop := (∃ i, 2 ≤ i ∧ i ≤ 13 ∧ j = 0x158000 + i + 256 * k) ∨ (∃ q < 32, j = Key.pierRate q) ∨ j = Key.sysrefPhase

theorem link_of_keepsBut {P : Nat → Prop} {s t : State} {k : Nat} (h : KeepsBut P s t) (hP : ∀ j, isLinkCfgKey k j → ¬P j) : t.link k = s.link k :=
  link_congr k (fun i h2 h13 => h _ (hP _ (.inl ⟨i, h2, h13, rfl⟩))) (fun q hq => h _ (hP _ (.inr (.inl ⟨q, hq, rfl⟩)))) (h _ (hP _ (.inr (.inr rfl))))

theorem not_isFlowKey_cfg {k j : Nat} (hk : k < 128) (h : isLinkCfgKey k j) : ¬isFlowKey j := by
  unfold isFlowKey isRingKey isMemCounter Key.memLostWrites Key.memLostReads Key.memchInorder Key.ringWraps Key.ringBlocksLost Key.ringSlabsNow Key.ringResizeState
    Key.statusPromise Key.statusGapCount Key.statusGapLast Key.linkErrors Key.portGapSeq Key.portOverloadCount
  unfold isLinkCfgKey Key.pierRate Key.sysrefPhase at h
  rintro (((h' | h' | ⟨n, hn, h'⟩) | h' | h' | h' | h') | h' | h' | h' | h' | ⟨n, hn, h'⟩ | ⟨n, hn, h' | h'⟩) <;>
    rcases h with ⟨i, hi, hi', h⟩ | ⟨q, hq, h⟩ | h <;> omega

theorem not_isArrivalKey_cfg {k j : Nat} (h : isLinkCfgKey k j) : ¬isArrivalKey k j := by
  unfold isArrivalKey Key.linkArrivalMin Key.linkArrivalMax
  unfold isLinkCfgKey Key.pierRate Key.sysrefPhase at h
  rcases h with ⟨i, hi, hi', h⟩ | ⟨q, hq, h⟩ | h <;> omega

/-- What a multiblock of an aligned lane changes: the flow of samples and the pulses of the pin route. -/
def isAlignedKey (j : Nat) : Prop := isFlowKey j ∨ isTrigCounter j

theorem not_isAlignedKey_lane {n j : Nat} (hn : n < 128) (h : j = Key.laneState n ∨ j = Key.laneCrcErrors n) : ¬isAlignedKey j := by
  unfold isAlignedKey isTrigCounter isFlowKey isRingKey isMemCounter Key.memLostWrites Key.memLostReads Key.memchInorder Key.ringWraps Key.ringBlocksLost Key.ringSlabsNow
    Key.ringResizeState Key.statusPromise Key.statusGapCount Key.statusGapLast Key.linkErrors Key.portGapSeq Key.portOverloadCount Key.trigEvents Key.trigLate
    Key.trigoCount Key.rtrigEvents Key.rtrigLate
  unfold Key.laneState Key.laneCrcErrors at h
  rintro ((((h | h | ⟨n, hn, h⟩) | h | h | h | h) | h | h | h | h | ⟨n, hn, h⟩ | ⟨n, hn, h | h⟩) | (h | h | ⟨n, hn, h⟩ | ⟨n, hn, h | h⟩)) <;> omega

theorem receiveBlock_form (s : State) (n k : Nat) (bad : Bool) (m : EndMarkers) (b : Bytes) : ∃ x, s.receiveBlock n k bad m b = s.putLane n x ∧
    x.markerRun ≤ (s.laneSt n).markerRun + 1 := by
  unfold receiveBlock
  extract_lets c l markerOk l1 emb
  split
  · exact ⟨_, rfl, Nat.le_succ _⟩
  · refine ⟨_, rfl, ?_⟩
    simp only
    split
    · exact Nat.le_refl _
    · exact Nat.zero_le _

/-- A multiblock that is a whole extended multiblock, with its end markers, goes into the buffer. -/
theorem receiveBlock_whole {s : State} {n k : Nat} (he : (s.link k).e = 1) (hpart : (s.laneSt n).part = []) (hblocks : (s.laneSt n).partBlocks = 0)
    (hbad : (s.laneSt n).partBad = false) (hmark : (s.laneSt n).partMarker = false) (hbuf : (s.laneSt n).buffer.length < 4) (b : Bytes) :
    ((s.receiveBlock n k false ⟨true, true⟩ b).laneSt n).markerRun = 0 ∧
      ((s.receiveBlock n k false ⟨true, true⟩ b).laneSt n).buffer = (s.laneSt n).buffer ++ [{ octets := b, bad := false, at' := s.time }] := by
  unfold receiveBlock
  extract_lets c l markerOk l1 emb
  have hl1 : l1.partMarker = false := by simp [l1, l, markerOk, c, hmark, hblocks, he]
  rw [if_neg (by simp [l1, l, c, hblocks, he]), laneSt_putLane, if_pos rfl]
  refine ⟨by simp [hl1], ?_⟩
  simp [l1, l, emb, hpart, hbad, hbuf]

/-- An aligned lane without errors stays aligned and takes the multiblock. -/
theorem alignedBlock_clean {s : State} {n k : Nat} (hn : n < 128) (hk : k < 128) (h3 : s.obj (Key.laneState n) = 3) {m : EndMarkers} {b : Bytes}
    (hrun : ∀ s1 : State, s1.laneSt n = s.laneSt n → s1.link k = s.link k → ((s1.receiveBlock n k false m b).laneSt n).markerRun ≤ 1) :
    KeepsBut isAlignedKey s (s.alignedBlock n k false false false false false m b) ∧
    ∃ s1 : State, s1.time = s.time ∧ s1.laneSt n = s.laneSt n ∧ s1.link k = s.link k ∧
      (s.alignedBlock n k false false false false false m b).laneSt n = (s1.receiveBlock n k false m b).laneSt n := by
  obtain ⟨htime, hkeep, -, hlanes⟩ := crcResult_spec s n hk false
  have hlane := hlanes rfl n
  have hstate : (s.crcResult n k false).obj (Key.laneState n) = 3 := (hkeep _ fun h => not_isAlignedKey_lane hn (.inl rfl) (.inl h)).trans h3
  have hlink : (s.crcResult n k false).link k = s.link k := link_of_keepsBut hkeep fun j hj => not_isFlowKey_cfg hk hj
  obtain ⟨x, hx, -⟩ := receiveBlock_form (s.crcResult n k false) n k false m b
  unfold alignedBlock
  extract_lets c last prev s1 s2 edge s3
  have hs1 : s2 = s.crcResult n k false := rfl
  have hs3 : s3 = (s.crcResult n k false).putLane n x := hx
  have hstate3 : s3.obj (Key.laneState n) = 3 := by rw [hs3, obj_putLane, hstate]
  have hrun3 : (s3.laneSt n).markerRun ≤ 1 := hrun _ hlane hlink
  have hkeep3 : KeepsBut isAlignedKey s s3 := by
    rw [hs3]
    exact (hkeep.mono fun _ h => .inl h).trans (keepsBut_of_dict rfl)
  have hlane3 : s3.laneSt n = ((s.crcResult n k false).receiveBlock n k false m b).laneSt n := rfl
  rw [if_neg (by rw [hs1, hstate]; omega), if_neg (by rw [hstate3]; omega), if_neg (by simp; omega), if_neg (by simp)]
  clear_value s3
  split
  · have hpin := pinned_pinFrames s3 k
    exact ⟨hkeep3.trans (hpin.keeps.mono fun _ h => .inr h), _, htime, hlane, hlink, (laneSt_of_lanes hpin.lanes n).trans hlane3⟩
  · exact ⟨hkeep3, _, htime, hlane, hlink, hlane3⟩

/-- A lane in error stays so through a multiblock, and LINKS_CLEAN with it. -/
theorem alignedBlock_of_error {s : State} {n k : Nat} (hn : n < 128) (hk : k < 128) (h4 : s.obj (Key.laneState n) = 4) (crc cdr four bad : Bool) (m : EndMarkers) (b : Bytes) :
    KeepsBut isFlowKey s (s.alignedBlock n k crc false cdr four bad m b) ∧
      bit ((s.alignedBlock n k crc false cdr four bad m b).obj Key.statusPromise) 1 = bit (s.obj Key.statusPromise) 1 := by
  obtain ⟨-, hkeep, hprom, -⟩ := crcResult_spec s n hk crc
  have hstate : (s.crcResult n k crc).obj (Key.laneState n) = 4 := (hkeep _ fun h => not_isAlignedKey_lane hn (.inl rfl) (.inl h)).trans h4
  obtain ⟨x, hx, -⟩ := receiveBlock_form (s.crcResult n k crc) n k bad m b
  unfold alignedBlock
  extract_lets c last prev s1 s2 edge s3
  have hs3 : s3 = (s.crcResult n k crc).putLane n x := hx
  rw [if_neg (by rw [show s2 = s.crcResult n k crc from rfl, hstate]; omega), if_pos (by rw [hs3, obj_putLane, hstate]), hs3]
  exact ⟨hkeep.trans (keepsBut_of_dict rfl), by rw [obj_putLane]; exact hprom 1 (by omega)⟩

/-- A multiblock with a CRC mismatch on a lane in error. -/
theorem exec_badMultiblock {s : State} {n : Fin 128} {k : Nat} {h : BitVec 32} {m : EndMarkers} {b : Bytes} (hk : s.linkOfLane n.val = some k)
    (h4 : ∀ i, ((((s.addObj (Key.laneShErrors n.val) i).bump (Key.laneCrcErrors n.val)).linkError).lateBlock n.val k).obj (Key.laneState n.val) = 4) :
    ∃ i l cdr four bad data, let s4 := ((((s.addObj (Key.laneShErrors n.val) i).bump (Key.laneCrcErrors n.val)).linkError).lateBlock n.val k).putLane n.val l
      exec (.laneMultiblockRx n h true m b) s = .next (if s4.linkDrains k then s4.alignedBlock n.val k true false cdr four bad m data else s4) := by
  rw [exec_laneMultiblockRx, execLaneMultiblockRx, hk]
  simp only [Bool.true_or, if_true, h4, OfNat.ofNat_ne_one, show ¬(4 : Nat) = 2 by decide, show ¬(4 : Nat) = 3 by decide, false_or, true_and, if_false,
    show ((4 : Nat) == 3) = false from rfl, Bool.and_false, apply_ite Host.Outcome.next]
  exact ⟨_, _, _, _, _, _, rfl⟩

/-- The counts of a multiblock keep the lane's state, and what they leave of a lane is all but its late count. -/
theorem lateBlock_counted {s u : State} {n k : Nat} (hn : n < 128) (hk : k < 128) (hu : KeepsBut (fun j => j = Key.statusPromise ∨ j = Key.laneShErrors n ∨ j = Key.laneCrcErrors n) s u) :
    (u.lateBlock n k).obj (Key.laneState n) = s.obj (Key.laneState n) ∧ (u.lateBlock n k).obj (Key.laneCrcErrors n) = u.obj (Key.laneCrcErrors n) ∧
      (u.lateBlock n k).obj Key.statusPromise = u.obj Key.statusPromise ∧ (u.lateBlock n k).link k = s.link k := by
  obtain ⟨-, hkeep, -⟩ := lateBlock_spec u n k
  refine ⟨(hkeep _ ?_).trans (hu _ ?_), hkeep _ ?_, hkeep _ ?_, (link_of_keepsBut hkeep fun j => not_isArrivalKey_cfg).trans (link_of_keepsBut hu fun j hj => ?_)⟩
  · unfold isArrivalKey Key.laneState Key.linkArrivalMin Key.linkArrivalMax; omega
  · unfold Key.laneState Key.statusPromise Key.laneShErrors Key.laneCrcErrors; omega
  · unfold isArrivalKey Key.laneCrcErrors Key.linkArrivalMin Key.linkArrivalMax; omega
  · unfold isArrivalKey Key.statusPromise Key.linkArrivalMin Key.linkArrivalMax; omega
  · unfold isLinkCfgKey Key.pierRate Key.sysrefPhase at hj
    unfold Key.statusPromise Key.laneShErrors Key.laneCrcErrors
    rcases hj with ⟨i, hi, hi', h⟩ | ⟨q, hq, h⟩ | h <;> omega

/-- The count of invalid headers alone. -/
theorem lateBlock_clean (s : State) {n k : Nat} (hn : n < 128) (hk : k < 128) :
    ((s.addObj (Key.laneShErrors n) 0).lateBlock n k).obj (Key.laneState n) = s.obj (Key.laneState n) ∧
      ((s.addObj (Key.laneShErrors n) 0).lateBlock n k).obj (Key.laneCrcErrors n) = s.obj (Key.laneCrcErrors n) ∧
      ((s.addObj (Key.laneShErrors n) 0).lateBlock n k).link k = s.link k ∧
      (∃ d g, (s.addObj (Key.laneShErrors n) 0).lateBlock n k = { s with dict := d, ing := g }) ∧
      ∃ e, ((s.addObj (Key.laneShErrors n) 0).lateBlock n k).laneSt n = { s.laneSt n with late := e } := by
  obtain ⟨hst, hcrc, -, hlink⟩ := lateBlock_counted (s := s) (u := s.addObj (Key.laneShErrors n) 0) hn hk (keepsBut_addObj (.inr (.inl rfl)) s 0)
  obtain ⟨⟨d, g, hform⟩, -, hlane⟩ := lateBlock_spec (s.addObj (Key.laneShErrors n) 0) n k
  refine ⟨hst, hcrc.trans ?_, hlink, ⟨d, g, hform⟩, hlane n⟩
  rw [obj_addObj, if_neg (by unfold Key.laneCrcErrors Key.laneShErrors; omega)]

end State

open State

/-- Settles O12: what a multiblock does to its lane in each of its states, and what the loss of lock does. -/
theorem laneReception : Obligations.LaneReception := by
  refine ⟨⟨fun s n h crc m1 m2 b hk => ?_, fun s n k b m1 m2 hk h1 hlate => ?_, fun s n k b hk h2 hfew => ?_, fun s n k b m1 m2 hk h3 hfew herr hrun => ?_,
    fun s n k b hk h3 hfew he hpart hblocks hbad hmark hbuf => ?_, fun s n k h m1 m2 b hk h4 => ?_⟩, fun s n k hk h3 hp => ?_, fun s n k hk h2 => ?_, fun s n hk => ?_⟩
  · rw [exec_laneMultiblockRx, execLaneMultiblockRx, hk]
  · obtain ⟨s3, l1, data, cdr, rfl, ⟨hd, er, h, rfl⟩, rfl, -, hexec⟩ := exec_cleanMultiblock (m := ⟨m1, m2⟩) (b := b) hk
    have hu : (s.addObj (Key.laneShErrors n.val) 0).lateBlock n.val k = s.addObj (Key.laneShErrors n.val) 0 := by
      unfold lateBlock
      rw [show (s.addObj (Key.laneShErrors n.val) 0).laneSt n.val = s.laneSt n.val from rfl, hlate]
    obtain ⟨hst, -⟩ := lateBlock_clean s (k := k) n.isLt (linkOfLane_lt hk)
    rw [hst, h1, if_pos rfl, hu] at hexec
    rw [hu, h1] at hst
    refine ⟨_, hexec, ?_⟩
    rw [show (s.addObj (Key.laneShErrors n.val) 0).laneSt n.val = s.laneSt n.val from rfl]
    have hkeep : KeepsBut (· ∈ [Key.laneState n.val, Key.laneShErrors n.val]) s (s.addObj (Key.laneShErrors n.val) 0) := keepsBut_addObj (by simp) s 0
    split
    · refine ⟨?_, ?_, rfl, hkeep.trans (KeepsBut.trans (keepsBut_of_dict rfl) (keepsBut_setObj (by simp) _ 2))⟩
      · rw [obj_setObj, if_pos rfl, lenOf_laneState n.val n.isLt]; rfl
      · rw [laneSt_setObj, laneSt_putLane, if_pos rfl]
    · refine ⟨?_, ?_, rfl, hkeep.trans (keepsBut_of_dict rfl)⟩
      · rw [obj_putLane, hst]
      · rw [laneSt_putLane, if_pos rfl]
  · obtain ⟨s3, l1, data, cdr, rfl, ⟨hd, er, h, rfl⟩, rfl, hcdr, hexec⟩ := exec_cleanMultiblock (m := ⟨true, true⟩) (b := b) hk
    obtain ⟨hst, -, -, ⟨d, g, hform⟩, e, hlane⟩ := lateBlock_clean s (k := k) n.isLt (linkOfLane_lt hk)
    rw [hst, h2, if_neg (by omega), if_pos rfl, hcdr (by rw [hlane]; exact hfew), if_neg (by simp), if_pos ⟨rfl, rfl⟩] at hexec
    refine ⟨_, hexec, ?_, ?_, ?_⟩
    · rw [obj_putLane, obj_setObj, if_pos rfl, lenOf_laneState n.val n.isLt]; rfl
    · rw [laneSt_putLane, if_pos rfl]
    · rw [hform]; rfl
  · obtain ⟨s3, l1, data, cdr, rfl, ⟨hd, er, h, hl1⟩, rfl, hcdr, hexec⟩ := exec_cleanMultiblock (m := ⟨m1, m2⟩) (b := b) hk
    obtain ⟨hst, hcrc, -, -, e, hlane⟩ := lateBlock_clean s (k := k) n.isLt (linkOfLane_lt hk)
    rw [hst, h3, if_neg (by omega), if_neg (by omega), if_pos (.inl rfl), hcdr (by rw [hlane]; exact hfew)] at hexec
    refine ⟨_, hexec, ?_⟩
    obtain ⟨hkeep, -⟩ := alignedBlock_clean (s := ((s.addObj (Key.laneShErrors n.val) 0).lateBlock n.val k).putLane n.val l1) n.isLt (linkOfLane_lt hk)
      (m := ⟨m1, m2⟩)
      (b := (descramble (((s.addObj (Key.laneShErrors n.val) 0).lateBlock n.val k).laneSt n.val).history (received s n.val b)).1) (by rw [obj_putLane, hst, h3]) fun s1 h _ => by
        obtain ⟨x, hx, hrunx⟩ := receiveBlock_form s1 n.val k false ⟨m1, m2⟩
          (descramble (((s.addObj (Key.laneShErrors n.val) 0).lateBlock n.val k).laneSt n.val).history (received s n.val b)).1
        rw [h, laneSt_putLane, if_pos rfl, hl1, hlane] at hrunx
        rw [hx, laneSt_putLane, if_pos rfl]
        exact hrunx.trans (le_of_eq (congrArg (· + 1) hrun))
    exact ⟨(hkeep _ (not_isAlignedKey_lane n.isLt (.inl rfl))).trans (by rw [obj_putLane, hst, h3]), (hkeep _ (not_isAlignedKey_lane n.isLt (.inr rfl))).trans (by rw [obj_putLane, hcrc])⟩
  · obtain ⟨s3, l1, data, cdr, hs3, ⟨hd, er, h, hl1⟩, hdata, hcdr, hexec⟩ := exec_cleanMultiblock (m := ⟨true, true⟩) (b := b) hk
    obtain ⟨hst, -, hlink, ⟨d, g, hform⟩, e, hlane⟩ := lateBlock_clean s (k := k) n.isLt (linkOfLane_lt hk)
    rw [← hs3] at hst hlink hform hlane
    rw [hst, h3, if_neg (by omega), if_neg (by omega), if_pos (.inl rfl), hcdr (by rw [hlane]; exact hfew)] at hexec
    have hput : (s3.putLane n.val l1).laneSt n.val = l1 := by rw [laneSt_putLane, if_pos rfl]
    have hl1e : l1 = { s.laneSt n.val with late := e, validRun := (s.laneSt n.val).validRun + 32, headers := hd, errors := er, history := h } := by rw [hl1, hlane]
    have hwhole : ∀ s1 : State, s1.laneSt n.val = (s3.putLane n.val l1).laneSt n.val → s1.link k = (s3.putLane n.val l1).link k →
        ((s1.receiveBlock n.val k false ⟨true, true⟩ data).laneSt n.val).markerRun = 0 ∧
          ((s1.receiveBlock n.val k false ⟨true, true⟩ data).laneSt n.val).buffer = (s.laneSt n.val).buffer ++ [{ octets := data, bad := false, at' := s1.time }] := fun s1 h1 h2 => by
      rw [hput, hl1e] at h1
      rw [show (s3.putLane n.val l1).link k = s3.link k from rfl, hlink] at h2
      have := receiveBlock_whole (s := s1) (n := n.val) (k := k) (by rw [h2, he]) (by rw [h1]; exact hpart) (by rw [h1]; exact hblocks) (by rw [h1]; exact hbad)
        (by rw [h1]; exact hmark) (by rw [h1]; exact hbuf) data
      rw [h1] at this
      exact this
    obtain ⟨hkeep, s1, htime, hlane1, hlink1, hrec⟩ := alignedBlock_clean (s := s3.putLane n.val l1) n.isLt (linkOfLane_lt hk) (m := ⟨true, true⟩) (b := data)
      (by rw [obj_putLane, hst, h3]) fun s1 h1 h2 => by rw [(hwhole s1 h1 h2).1]; omega
    obtain ⟨hrun1, hbuf1⟩ := hwhole s1 hlane1 hlink1
    refine ⟨_, hexec, (hkeep _ (not_isAlignedKey_lane n.isLt (.inl rfl))).trans (by rw [obj_putLane, hst, h3]), ?_⟩
    have htime1 : s1.time = s.time := htime.trans (by rw [show (s3.putLane n.val l1).time = s3.time from rfl, hform])
    refine ⟨by rw [hrec, hrun1], by rw [hrec, hbuf1]; simp, ?_⟩
    rw [hrec, hbuf1, hdata, hlane, htime1]
    simp [received]
  · have hcount : ∀ i, KeepsBut (fun j => j = Key.statusPromise ∨ j = Key.laneShErrors n.val ∨ j = Key.laneCrcErrors n.val) s
        ((s.addObj (Key.laneShErrors n.val) i).bump (Key.laneCrcErrors n.val)).linkError := fun i =>
      ((keepsBut_addObj (.inr (.inl rfl)) s i).trans (keepsBut_bump (.inr (.inr rfl)) _)).trans ((linkError_spec _).2.2.mono fun _ h => .inl h)
    have hu := fun i => lateBlock_counted n.isLt (linkOfLane_lt hk) (hcount i)
    obtain ⟨i, l, cdr, four, bad, data, hexec⟩ := exec_badMultiblock (m := ⟨m1, m2⟩) (b := b) (h := h) hk fun i => (hu i).1.trans h4
    refine ⟨_, hexec, ?_⟩
    obtain ⟨hst, hcrc, hprom, -⟩ := hu i
    obtain ⟨-, hclean, -⟩ := linkError_spec ((s.addObj (Key.laneShErrors n.val) i).bump (Key.laneCrcErrors n.val))
    have hcrc1 : ((s.addObj (Key.laneShErrors n.val) i).bump (Key.laneCrcErrors n.val)).linkError.obj (Key.laneCrcErrors n.val) = (s.obj (Key.laneCrcErrors n.val) + 1) % 2 ^ 32 := by
      rw [(linkError_spec _).2.2 _ (by unfold Key.laneCrcErrors Key.statusPromise; omega), obj_bump, if_pos rfl, lenOf_laneCrcErrors n.val n.isLt, obj_addObj,
        if_neg (by unfold Key.laneCrcErrors Key.laneShErrors; omega), show (256 : Nat) ^ 4 = 2 ^ 32 from rfl]
    rw [h4] at hst
    generalize ((s.addObj (Key.laneShErrors n.val) i).bump (Key.laneCrcErrors n.val)).linkError = u at hst hcrc hprom hclean hcrc1 ⊢
    have hput : ((u.lateBlock n.val k).putLane n.val l).obj (Key.laneState n.val) = 4 := by rw [obj_putLane, hst]
    split
    · obtain ⟨hkeep, hbit⟩ := alignedBlock_of_error n.isLt (linkOfLane_lt hk) hput true cdr four bad ⟨m1, m2⟩ data
      refine ⟨?_, ?_⟩
      · rw [hkeep _ fun h => not_isAlignedKey_lane n.isLt (.inr rfl) (.inl h), obj_putLane, hcrc, hcrc1]
      · rw [hbit, obj_putLane, hprom, hclean]
    · exact ⟨by rw [obj_putLane, hcrc, hcrc1], by rw [obj_putLane, hprom, hclean]⟩
  · have hkl := linkOfLane_lt hk
    have hexec : exec (.cdrLossOfLock n) s = .next (s.laneFails n.val k (s.linkSt k).next) := by
      rw [exec_cdrLossOfLock, execCdrLossOfLock, hk]
      simp only [h3]
      rfl
    have hne : ∀ j, j ≠ Key.laneState n.val → (s.setObj (Key.laneState n.val) 4).obj j = s.obj j := fun j hj => by rw [obj_setObj, if_neg hj]
    have hstart := startRecovery_of_service (s := s.setObj (Key.laneState n.val) 4) (p := n.val / 8) (by omega)
      (by rw [hne _ (by unfold Key.pierState Key.laneState; omega), hp]) ((s.link k).edge (s.linkSt k).next)
    have hlost := recovers_loseLink ((s.setObj (Key.laneState n.val) 4).startRecovery (n.val / 8) ((s.link k).edge (s.linkSt k).next)) hkl (n.val / 8) (s.linkSt k).next
    refine ⟨_, hexec, ?_, ?_, ?_, fun h2 => ?_, ?_⟩
    · exact (hlost.keeps _ (not_isRecoverKey_pier (j := n.val / 8) (by omega) (.inl rfl))).trans hstart.pierState
    · refine (hlost.keeps _ (not_isRecoverKey_pier (j := n.val / 8 + 16) (by omega) (.inl (by unfold Key.pierRecoveries; omega)))).trans (hstart.count.trans ?_)
      rw [hne _ (by unfold Key.pierRecoveries Key.laneState; omega)]
    · exact (hlost.promise 1 (by omega)).trans hstart.clean
    · refine linkState_loseLink hkl _ _ ((hstart.linkState k hkl).imp_left fun h => ?_)
      rw [h, hne _ (by unfold Key.linkState Key.laneState; omega), h2]
    · exact commandsKeepQueue _ _ _ hexec
  · have hkl := linkOfLane_lt hk
    have hexec : exec (.cdrLossOfLock n) s = .next (s.linkError.restartLane n.val) := by
      rw [exec_cdrLossOfLock, execCdrLossOfLock, hk]
      simp only [h2]
      rfl
    refine ⟨_, hexec, ?_, ?_⟩
    · rw [restartLane, obj_setObj, if_pos rfl, lenOf_laneState n.val n.isLt]; rfl
    · rw [(recovers_restartLane s.linkError (by omega)).promise 1 (by omega), (linkError_spec s).2.1]
  · rw [exec_cdrLossOfLock, execCdrLossOfLock, hk]

end Sys2Proof.Machine
end

section
/-! Release edges of links, and the recovery of piers (03 R76 to R78, R89 to R91). -/

namespace Sys2Proof.Machine

namespace State

/-! ### Objects and the dictionary's list together -/

/-- Only objects whose keys have the property change, and only such are listed anew. -/
structure Writes (P : Nat → Prop) (s t : State) : Prop where
  keeps : KeepsBut P s t
  lists : ListsBut P s t

section
variable {P Q : Nat → Prop} {s t u : State}

theorem Writes.refl (s : State) : Writes P s s := ⟨.refl s, .refl s⟩

theorem Writes.trans (h : Writes P s t) (h' : Writes P t u) : Writes P s u := ⟨h.keeps.trans h'.keeps, h.lists.trans h'.lists⟩

theorem Writes.mono (h : Writes P s t) (hPQ : ∀ k, P k → Q k) : Writes Q s t := ⟨h.keeps.mono hPQ, h.lists.mono hPQ⟩

theorem writes_of_dict (h : t.dict = s.dict) : Writes P s t := ⟨keepsBut_of_dict h, listsBut_of_dict h⟩

theorem writes_setObj {k : Nat} (hk : P k) (s : State) (v : Nat) : Writes P s (s.setObj k v) := ⟨keepsBut_setObj hk s v, listsBut_setObj hk s v⟩

theorem writes_raiseEvent (s : State) (n : Nat) : Writes P s (s.raiseEvent n) := ⟨keepsBut_raiseEvent s n, listsBut_raiseEvent s n⟩

theorem writes_foldl {α : Type} (l : List α) (f : State → α → State) (h : ∀ s x, Writes P s (f s x)) (s : State) : Writes P s (l.foldl f s) := by
  induction l generalizing s with
  | nil => exact .refl s
  | cons x l ih => exact (h s x).trans (ih _)

end

/-! ### Calibration codes of lanes -/

/-- The objects of calibration. -/
def isCalKey (j : Nat) : Prop := 0x130000 ≤ j ∧ j < 0x132000

/-- Calibration went on: its objects, and nothing of the input side. -/
structure Calibrates (s t : State) : Prop where
  writes : Writes isCalKey s t
  ing : t.ing = s.ing

theorem Calibrates.refl (s : State) : Calibrates s s := ⟨.refl s, rfl⟩

theorem Calibrates.trans {s t u : State} (h : Calibrates s t) (h' : Calibrates t u) : Calibrates s u := ⟨h.writes.trans h'.writes, h'.ing.trans h.ing⟩

theorem calibrates_foldl_of_mem {α : Type} (l : List α) (f : State → α → State) (h : ∀ s, ∀ x ∈ l, Calibrates s (f s x)) (s : State) : Calibrates s (l.foldl f s) := by
  induction l generalizing s with
  | nil => exact .refl s
  | cons x l ih => exact (h s x List.mem_cons_self).trans (ih (fun s y hy => h s y (List.mem_cons_of_mem x hy)) _)

theorem calibrates_setObj (s : State) {k : Nat} (hk : isCalKey k) (v : Nat) : Calibrates s (s.setObj k v) := ⟨writes_setObj hk s v, rfl⟩

theorem calibrates_putCalItem (s : State) (unit item : Nat) (x : CalItem) : Calibrates s (s.putCalItem unit item x) := ⟨writes_of_dict rfl, rfl⟩

theorem calibrates_raiseEvent (s : State) (n : Nat) : Calibrates s (s.raiseEvent n) := ⟨writes_raiseEvent s n, by rw [raiseEvent_eq]; rfl⟩

theorem calibrates_refreshStale (s : State) {unit : Nat} (hu : unit < 6) : Calibrates s (s.refreshStale unit) := by
  unfold refreshStale
  extract_lets n
  have hitems : isCalKey (Key.calStaleItems unit) := by unfold isCalKey Key.calStaleItems; omega
  refine ((calibrates_setObj s hitems n).trans (calibrates_setObj _ (k := Key.calStale) (by unfold isCalKey Key.calStale; omega)
    (setBit (s.obj Key.calStale) unit (n != 0)))).trans ?_
  obtain ⟨c, hc⟩ := noteCauses_changes ((s.setObj (Key.calStaleItems unit) n).setObj Key.calStale (setBit (s.obj Key.calStale) unit (n != 0)))
  rw [hc]
  exact ⟨writes_of_dict rfl, rfl⟩

theorem calibrates_applyCal (s : State) {unit : Nat} (hu : unit < 6) (item : Nat) : Calibrates s (s.applyCal unit item) := by
  unfold applyCal
  extract_lets x
  split
  · exact .refl s
  · extract_lets s1
    have h1 : Calibrates s s1 := calibrates_putCalItem ..
    exact ((h1.trans (calibrates_setObj s1 (by unfold isCalKey Key.calLast; omega) _)).trans (calibrates_refreshStale _ hu)).trans (calibrates_raiseEvent _ 10)

theorem calibrates_offerSet (s : State) {unit : Nat} (hu : unit < 6) (item : Nat) (codes : List Nat) (limited : Bool) : Calibrates s (s.offerSet unit item codes limited) := by
  unfold offerSet
  extract_lets x s1
  split
  · exact calibrates_putCalItem ..
  · have h1 : Calibrates s s1 := (((calibrates_putCalItem ..).trans (calibrates_setObj _ (k := Key.calFails) (by unfold isCalKey Key.calFails; omega) _)).trans
      (calibrates_setObj _ (k := Key.calUnitFails unit) (by unfold isCalKey Key.calUnitFails; omega) _)).trans (calibrates_raiseEvent _ 10)
    split
    · exact (h1.trans (calibrates_putCalItem ..)).trans (calibrates_refreshStale _ hu)
    · exact h1

theorem calibrates_drawCodes (bits n : Nat) (s : State) : Calibrates s (s.drawCodes bits n).2 := by
  induction n generalizing s with
  | zero => exact .refl s
  | succ n ih => exact Calibrates.trans (t := (s.drawNat (2 ^ bits)).2) ⟨writes_of_dict rfl, rfl⟩ (ih _)

theorem calibrates_calibratePier (s : State) (p : Nat) : Calibrates s (s.calibratePier p) := by
  refine calibrates_foldl_of_mem _ _ (fun x i _ => ?_) s
  have hdraw := calibrates_drawCodes 7 4 x
  generalize x.drawCodes 7 4 = w at hdraw ⊢
  exact hdraw.trans (calibrates_offerSet _ (by omega) ..)

/-! ### A release -/

/-- The objects that a release of link k changes beside the states of the link, its piers and their PLLs. -/
def isAsideKey (k j : Nat) : Prop := isFlowKey j ∨ isArrivalKey k j ∨ isCalKey j ∨ j = Key.suStage ∨ j = Key.suStageTime

/-- What a release does aside: the lanes and piers stand, and of the link k its next edge and whether it has released. -/
structure Aside (k : Nat) (s t : State) : Prop where
  writes : Writes (isAsideKey k) s t
  lanes : t.ing.lanes = s.ing.lanes
  piers : t.ing.piers = s.ing.piers
  next : (t.linkSt k).next = (s.linkSt k).next
  released : (t.linkSt k).released = (s.linkSt k).released

theorem Aside.refl {k : Nat} (s : State) : Aside k s s := ⟨.refl s, rfl, rfl, rfl, rfl⟩

theorem Aside.trans {k : Nat} {s t u : State} (h : Aside k s t) (h' : Aside k t u) : Aside k s u :=
  ⟨h.writes.trans h'.writes, h'.lanes.trans h.lanes, h'.piers.trans h.piers, h'.next.trans h.next, h'.released.trans h.released⟩

theorem aside_foldl {α : Type} {k : Nat} (l : List α) (f : State → α → State) (h : ∀ s x, Aside k s (f s x)) (s : State) : Aside k s (l.foldl f s) := by
  induction l generalizing s with
  | nil => exact .refl s
  | cons x l ih => exact (h s x).trans (ih _)

theorem aside_of_flow {k : Nat} {s t : State} (h : Flow s t) : Aside k s t := by
  obtain ⟨g, w, hl⟩ := h.links k
  exact ⟨⟨h.keeps.mono fun _ h => .inl h, h.lists.mono fun _ h => .inl h⟩, h.lanes, h.piers, by rw [hl], by rw [hl]⟩

theorem aside_of_calibrates {k : Nat} {s t : State} (h : Calibrates s t) : Aside k s t :=
  ⟨h.writes.mono fun _ h => .inr (.inr (.inl h)), by rw [h.ing], by rw [h.ing], by rw [linkSt, h.ing, linkSt], by rw [linkSt, h.ing, linkSt]⟩

theorem aside_measure (s : State) (k : Nat) (c : LinkCfg) (edge : Nat) (at' : KTime) : Aside k s (s.measure k c edge at') := by
  obtain ⟨⟨d, g, h, hl, hp, hlink⟩, hkeep⟩ := measure_spec s k c edge at'
  obtain ⟨m, hm⟩ := hlink k
  have hst : (s.measure k c edge at').linkSt k = { s.linkSt k with measured := m } := by rw [h]; exact hm
  refine ⟨⟨hkeep.mono fun _ h => .inr (.inl h), ?_⟩, by rw [h]; exact hl, by rw [h]; exact hp, by rw [hst], by rw [hst]⟩
  have hmin : isAsideKey k (Key.linkArrivalMin k) := .inr (.inl (.inl rfl))
  have hmax : isAsideKey k (Key.linkArrivalMax k) := .inr (.inl (.inr rfl))
  unfold measure
  extract_lets t l
  split
  · exact (listsBut_setObj hmin _ _).trans (listsBut_setObj hmax _ _)
  · exact ((listsBut_setObj hmin _ _).trans (listsBut_setObj hmax _ _)).trans (listsBut_of_dict rfl)

theorem aside_measureArrival (s : State) (k edge : Nat) (c : LinkCfg) : Aside k s (s.measureArrival k edge c) :=
  aside_foldl _ _ (fun x _ => aside_foldl _ _ (fun y _ => aside_measure y ..) x) s

theorem aside_enterService (s : State) (k : Nat) : Aside k s s.enterService := by
  unfold enterService
  split
  · refine ⟨?_, by rw [raiseEvent_eq]; rfl, by rw [raiseEvent_eq]; rfl, by rw [raiseEvent_eq]; rfl, by rw [raiseEvent_eq]; rfl⟩
    exact ((writes_setObj (.inr (.inr (.inr (.inl rfl)))) _ _).trans (writes_setObj (.inr (.inr (.inr (.inr rfl)))) _ _)).trans (writes_raiseEvent _ 15)
  · exact .refl s

/-- The piers' states and their PLLs. -/
def isPierKey (j : Nat) : Prop := ∃ q < 32, j = Key.pierState q ∨ j = Key.lanepllState q

/-- Piers in start-up may have come into service. -/
def Serves (s t : State) : Prop :=
  (∀ q < 32, t.obj (Key.pierState q) = s.obj (Key.pierState q) ∨ (s.obj (Key.pierState q) = 1 ∧ t.obj (Key.pierState q) = 2)) ∧
    ∀ q < 16, t.obj (Key.lanepllState q) = s.obj (Key.lanepllState q) ∨ t.obj (Key.lanepllState q) = 2

theorem Serves.trans {s t u : State} (h : Serves s t) (h' : Serves t u) : Serves s u := by
  refine ⟨fun q hq => ?_, fun q hq => ?_⟩
  · rcases h.1 q hq with h1 | h1 <;> rcases h'.1 q hq with h2 | h2 <;> omega
  · rcases h.2 q hq with h1 | h1 <;> rcases h'.2 q hq with h2 | h2 <;> omega

theorem two_mod_pierState : ∀ q < 32, 2 % 256 ^ lenOf (Key.pierState q) = 2 := by decide

theorem two_mod_lanepllState : ∀ q < 16, 2 % 256 ^ lenOf (Key.lanepllState q) = 2 := by decide

theorem piers_lt {s : State} {k p : Nat} (h : p ∈ pierList (s.link k)) : p < 32 := by
  unfold pierList at h
  rw [List.mem_eraseDups] at h
  obtain ⟨n, hn, rfl⟩ := List.mem_map.mp h
  have := lanes_lt hn
  omega

theorem piersInService_spec (l : List Nat) (hl : ∀ p ∈ l, p < 32) (s : State) :
    let t := l.foldl (fun x p => if x.obj (Key.pierState p) = 1 then (x.setObj (Key.pierState p) 2).lockPll p else x) s
    Writes isPierKey s t ∧ t.ing = s.ing ∧ Serves s t := by
  induction l generalizing s with
  | nil => exact ⟨.refl s, rfl, fun _ _ => .inl rfl, fun _ _ => .inl rfl⟩
  | cons p l ih =>
    have hp : p < 32 := hl p List.mem_cons_self
    have h1 : Writes isPierKey s (if s.obj (Key.pierState p) = 1 then (s.setObj (Key.pierState p) 2).lockPll p else s) ∧
        (if s.obj (Key.pierState p) = 1 then (s.setObj (Key.pierState p) 2).lockPll p else s).ing = s.ing ∧
        Serves s (if s.obj (Key.pierState p) = 1 then (s.setObj (Key.pierState p) 2).lockPll p else s) := by
      split
      case isTrue h1 =>
        refine ⟨(writes_setObj ⟨p, hp, .inl rfl⟩ s 2).trans (writes_setObj ⟨p, hp, .inr rfl⟩ _ 2), rfl, fun q hq => ?_, fun q hq => ?_⟩
        · rw [lockPll, obj_setObj, if_neg (by unfold Key.pierState Key.lanepllState; omega), obj_setObj]
          split
          case isTrue h =>
            obtain rfl : q = p := by unfold Key.pierState at h; omega
            exact .inr ⟨h1, two_mod_pierState q hq⟩
          case isFalse => exact .inl rfl
        · rw [lockPll, obj_setObj]
          split
          case isTrue h => exact .inr (h ▸ two_mod_lanepllState q hq)
          case isFalse => exact .inl (by rw [obj_setObj, if_neg (by unfold Key.pierState Key.lanepllState; omega)])
      case isFalse => exact ⟨.refl s, rfl, fun _ _ => .inl rfl, fun _ _ => .inl rfl⟩
    obtain ⟨hw, hi, hs⟩ := ih (fun q hq => hl q (List.mem_cons_of_mem p hq)) (if s.obj (Key.pierState p) = 1 then (s.setObj (Key.pierState p) 2).lockPll p else s)
    exact ⟨h1.1.trans hw, hi.trans h1.2.1, h1.2.2.trans hs⟩

/-- What a release of link k changes of the objects. -/
def isReleaseKey (k j : Nat) : Prop := isAsideKey k j ∨ j = Key.linkState k ∨ isPierKey j

/-- Link k has released the extended multiblock of an edge. -/
structure ReleasedAt (s : State) (k edge : Nat) (t : State) : Prop where
  writes : Writes (isReleaseKey k) s t
  piers : t.ing.piers = s.ing.piers
  serves : Serves s t
  linkState : t.obj (Key.linkState k) = 2
  next : (t.linkSt k).next = edge + 1
  released : (t.linkSt k).released = true
  lanes : s.oneEach (s.link k) = true → ∀ n ∈ (s.link k).lanes, (t.laneSt n).buffer = []

theorem not_isAsideKey {k j : Nat} (hk : k < 128) (h : (∃ m, j = Key.linkState m) ∨ isPierKey j) : ¬isAsideKey k j := by
  unfold isAsideKey isFlowKey isRingKey isMemCounter isArrivalKey isCalKey Key.memLostWrites Key.memLostReads Key.memchInorder Key.ringWraps Key.ringBlocksLost
    Key.ringSlabsNow Key.ringResizeState Key.statusPromise Key.statusGapCount Key.statusGapLast Key.linkErrors Key.portGapSeq Key.portOverloadCount Key.linkArrivalMin
    Key.linkArrivalMax Key.suStage Key.suStageTime
  unfold isPierKey Key.pierState Key.lanepllState Key.linkState at h
  rintro ((((h' | h' | ⟨n, hn, h'⟩) | h' | h' | h' | h') | h' | h' | h' | h' | ⟨n, hn, h'⟩ | ⟨n, hn, h' | h'⟩) | (h' | h') | h' | h' | h') <;>
    rcases h with ⟨m, h⟩ | ⟨q, hq, h | h⟩ <;> omega

theorem serves_of_aside {k : Nat} (hk : k < 128) {s t : State} (h : Aside k s t) : Serves s t :=
  ⟨fun q hq => .inl (h.writes.keeps _ (not_isAsideKey hk (.inr ⟨q, hq, .inl rfl⟩))),
    fun q hq => .inl (h.writes.keeps _ (not_isAsideKey hk (.inr ⟨q, by omega, .inr rfl⟩)))⟩

/-- Each of the lanes of a list gives up its oldest extended multiblock: one that holds a single one is empty then. -/
theorem dropOldest_spec (l : List Nat) (s : State) :
    let t := l.foldl (fun x n => x.putLane n { x.laneSt n with buffer := (x.laneSt n).buffer.drop 1 }) s
    t = { s with ing := t.ing } ∧ t.ing.piers = s.ing.piers ∧ t.ing.links = s.ing.links ∧
      ∀ n, ((s.laneSt n).buffer.length ≤ 1 → (t.laneSt n).buffer.length ≤ 1) ∧ ((s.laneSt n).buffer = [] ∨ (n ∈ l ∧ (s.laneSt n).buffer.length ≤ 1) → (t.laneSt n).buffer = []) := by
  induction l generalizing s with
  | nil => exact ⟨rfl, rfl, rfl, fun n => ⟨id, fun h => h.elim id fun h => absurd h.1 List.not_mem_nil⟩⟩
  | cons a l ih =>
    obtain ⟨hform, hp, hl, hlane⟩ := ih (s.putLane a { s.laneSt a with buffer := (s.laneSt a).buffer.drop 1 })
    refine ⟨hform, hp, hl, fun n => ?_⟩
    obtain ⟨h1, h2⟩ := hlane n
    rw [laneSt_putLane] at h1 h2
    simp only [List.foldl_cons]
    by_cases hn : n = a
    · subst hn
      simp only [if_true, List.length_drop] at h1 h2
      exact ⟨fun h => h1 (by omega), fun h => h2 (.inl (List.drop_eq_nil_of_le (h.elim (fun h => by rw [h]; exact Nat.zero_le 1) (·.2))))⟩
    · simp only [if_neg hn] at h1 h2
      refine ⟨h1, fun h => h2 (h.imp_right fun h => ⟨(List.mem_cons.mp h.1).resolve_left hn, h.2⟩)⟩

theorem releaseEdge_spec (s : State) {k : Nat} (hk : k < 128) (edge : Nat) : ReleasedAt s k edge (s.releaseEdge k edge false) := by
  unfold releaseEdge
  extract_lets c w s1 s2 l s3 s4
  have h1 : Aside k s s1 := (aside_measureArrival s k edge c).trans (aside_of_flow (flow_finishWaiting _ hk false))
  obtain ⟨h2, hpiers2, hlinks2, hlanes2⟩ := dropOldest_spec c.lanes s1
  obtain ⟨hw4, hi4, hs4⟩ := piersInService_spec (pierList c) (fun p hp => piers_lt hp) s3
  have hcal : Calibrates (s3.piersInService c) s4 := calibrates_foldl_of_mem c.lanes _ (fun x n _ => calibrates_applyCal x (by omega) n) _
  have hfin : Aside k s4 ((if w.lanes.isEmpty then s4.finishWaiting k false else s4).enterService) := by
    refine Aside.trans ?_ (aside_enterService _ k)
    split
    · exact aside_of_flow (flow_finishWaiting _ hk false)
    · exact .refl s4
  have h4 : Aside k (s3.piersInService c) ((if w.lanes.isEmpty then s4.finishWaiting k false else s4).enterService) := (aside_of_calibrates hcal).trans hfin
  generalize (if w.lanes.isEmpty then s4.finishWaiting k false else s4).enterService = t at h4 ⊢
  have hs3 : s3 = (s2.putLink k { l with next := edge + 1, waiting := some w, lostFrom := none, resumeAt := none, attempts := 0, released := true }).setObj
    (Key.linkState k) 2 := rfl
  have hing3 : s3.ing = (s2.putLink k { l with next := edge + 1, waiting := some w, lostFrom := none, resumeAt := none, attempts := 0, released := true }).ing := rfl
  have hlink3 : ∀ u : State, u.ing = s3.ing → (u.linkSt k).next = edge + 1 ∧ (u.linkSt k).released = true := fun u hu => by
    rw [linkSt, hu, hing3]
    change ((s2.putLink k _).linkSt k).next = _ ∧ ((s2.putLink k _).linkSt k).released = _
    rw [linkSt_putLink, if_pos rfl]
    exact ⟨rfl, rfl⟩
  have hw3 : Writes (isReleaseKey k) s s3 := by
    rw [hs3]
    exact ((h1.writes.mono fun _ h => .inl h).trans (writes_of_dict (by rw [show s2 = _ from h2]; rfl))).trans (writes_setObj (.inr (.inl rfl)) _ 2)
  have hserve3 : Serves s s3 := by
    obtain ⟨ha, hb⟩ := serves_of_aside hk h1
    have hobj : ∀ j, j ≠ Key.linkState k → s3.obj j = s1.obj j := fun j hj => by
      rw [hs3, obj_setObj, if_neg hj, obj_putLink, show s2 = _ from h2]
      rfl
    refine ⟨fun q hq => ?_, fun q hq => ?_⟩
    · rw [hobj _ (by unfold Key.pierState Key.linkState; omega)]; exact ha q hq
    · rw [hobj _ (by unfold Key.lanepllState Key.linkState; omega)]; exact hb q hq
  have hstate3 : s3.obj (Key.linkState k) = 2 := by
    rw [hs3, obj_setObj, if_pos rfl, lenOf_linkState k hk]
    rfl
  refine ⟨(hw3.trans (hw4.mono fun _ h => .inr (.inr h))).trans (h4.writes.mono fun _ h => .inl h), ?_, (hserve3.trans hs4).trans (serves_of_aside hk h4), ?_, ?_, ?_, fun hone n hn => ?_⟩
  · rw [h4.piers, show (s3.piersInService c).ing = s3.ing from hi4, hing3]
    exact hpiers2.trans h1.piers
  · rw [h4.writes.keeps _ (not_isAsideKey hk (.inl ⟨k, rfl⟩)), show (s3.piersInService c).obj (Key.linkState k) = _ from hw4.keeps _ ?_, hstate3]
    rintro ⟨q, hq, h | h⟩ <;> unfold Key.linkState at h
    · unfold Key.pierState at h; omega
    · unfold Key.lanepllState at h; omega
  · rw [h4.next]; exact (hlink3 _ hi4).1
  · rw [h4.released]; exact (hlink3 _ hi4).2
  · have hlen : (s.laneSt n).buffer.length = 1 := by simpa using List.all_eq_true.mp hone n hn
    rw [laneSt_of_lanes h4.lanes, laneSt, show (s3.piersInService c).ing = s3.ing from hi4, hing3]
    refine (hlanes2 n).2 (.inr ⟨hn, ?_⟩)
    rw [laneSt_of_lanes h1.lanes, hlen]

/-! ### A release that fails -/

theorem keepsBut_beginAttempt (s : State) (p : Nat) (ef : KTime) : KeepsBut (isAttemptKey p) s (s.beginAttempt p ef) := by
  unfold beginAttempt
  extract_lets ks g s1 s2
  have h1 : KeepsBut (isAttemptKey p) s s1 := KeepsBut.trans (t := s.putPier p { g with ef := ef, passed := ks.filter fun k => s.obj (Key.linkState k) == 1 })
    (keepsBut_of_dict rfl) (keepsBut_bump (.inr (.inl rfl)) _)
  have h2 : KeepsBut (isAttemptKey p) s s2 := by
    simp only [s2]
    split
    · exact h1.trans ((keepsBut_startPll _ _ _).mono fun _ h => .inr (.inr h))
    · exact h1
  refine h2.trans (keepsBut_foldl_of_mem _ _ (fun x k hk => KeepsBut.mono (P := isRecoverKey) ?_ fun _ h => .inl h) s2)
  split
  · exact (recovers_foldl_of_mem _ _ (fun y n hn => recovers_restartLane y (lanes_lt (List.mem_of_mem_filter hn))) x).keeps
  · exact (recovers_loseLink x (linksOfPier_lt hk) _ _).keeps

theorem keepsBut_startRecovery (s : State) (p : Nat) (ef : KTime) : KeepsBut (fun k => isAttemptKey p k ∨ k = Key.pierState p) s (s.startRecovery p ef) := by
  have herr : KeepsBut (fun k => isAttemptKey p k ∨ k = Key.pierState p) s s.linkError := (linkError_spec s).2.2.mono fun _ h => .inl (.inl (.inl (.inr (.inl h))))
  unfold startRecovery
  extract_lets st
  split
  · generalize hu : (s.linkError.setObj (Key.pierState p) 3).putPier p { markedTo := ef } = u
    have h1 : KeepsBut (fun k => isAttemptKey p k ∨ k = Key.pierState p) s.linkError u := hu ▸ fun k hk => by
      rw [obj_putPier, obj_setObj, if_neg fun h => hk (.inr h)]
    exact (herr.trans h1).trans ((keepsBut_beginAttempt u p ef).mono fun _ h => .inl h)
  · split
    · exact herr.trans ((keepsBut_startPll _ _ _).mono fun _ h => .inl (.inr (.inr h)))
    · exact herr

theorem not_recovery_linkReleaseErrors {p k : Nat} (hp : p < 32) : ¬(isAttemptKey p (Key.linkReleaseErrors k) ∨ Key.linkReleaseErrors k = Key.pierState p) := by
  unfold isAttemptKey isRecoverKey isFlowKey isRingKey isMemCounter Key.memLostWrites Key.memLostReads Key.memchInorder Key.ringWraps Key.ringBlocksLost Key.ringSlabsNow
    Key.ringResizeState Key.statusPromise Key.statusGapCount Key.statusGapLast Key.linkErrors Key.portGapSeq Key.portOverloadCount Key.linkState Key.linkReleaseErrors
    Key.pierRecoveries Key.lanepllState Key.pierState
  rintro ((((((h | h | ⟨n, hn, h⟩) | h | h | h | h) | h | h | h | h | ⟨n, hn, h⟩ | ⟨n, hn, h | h⟩) | h | ⟨n, hn, h⟩) | h | h) | h) <;> omega

/-- A release error is counted. -/
theorem linkReleaseErrors_releaseFails (s : State) {k : Nat} (hk : k < 128) (edge : Nat) :
    (s.releaseFails k edge).obj (Key.linkReleaseErrors k) = (s.obj (Key.linkReleaseErrors k) + 1) % 2 ^ 32 := by
  unfold releaseFails
  extract_lets c s1
  have harr : (s.measureArrival k edge c).obj (Key.linkReleaseErrors k) = s.obj (Key.linkReleaseErrors k) := by
    refine (aside_measureArrival s k edge c).writes.keeps _ ?_
    unfold isAsideKey isFlowKey isRingKey isMemCounter isArrivalKey isCalKey Key.memLostWrites Key.memLostReads Key.memchInorder Key.ringWraps Key.ringBlocksLost
      Key.ringSlabsNow Key.ringResizeState Key.statusPromise Key.statusGapCount Key.statusGapLast Key.linkErrors Key.portGapSeq Key.portOverloadCount Key.linkArrivalMin
      Key.linkArrivalMax Key.suStage Key.suStageTime Key.linkReleaseErrors
    rintro ((((h | h | ⟨n, hn, h⟩) | h | h | h | h) | h | h | h | h | ⟨n, hn, h⟩ | ⟨n, hn, h | h⟩) | (h | h) | h | h | h) <;> omega
  have hlate : ∀ u : State, (u.noteLate edge c).obj (Key.linkReleaseErrors k) = u.obj (Key.linkReleaseErrors k) := fun u => by
    refine keepsBut_foldl (P := fun _ => False) _ _ (fun x n => ?_) u _ id
    dsimp only
    split
    · exact keepsBut_of_dict rfl
    · exact .refl x
  have hs1 : s1.obj (Key.linkReleaseErrors k) = (s.obj (Key.linkReleaseErrors k) + 1) % 2 ^ 32 := by
    simp only [s1]
    rw [obj_bump, if_pos rfl, lenOf_linkReleaseErrors k hk, hlate, harr, show (256 : Nat) ^ 4 = 2 ^ 32 from rfl]
  rw [(recovers_loseLink _ hk _ _).keeps _ fun h => not_recovery_linkReleaseErrors (p := 0) (k := k) (by omega) (.inl (.inl h)), ← hs1]
  exact keepsBut_foldl_of_mem (P := fun j => ∃ p < 32, isAttemptKey p j ∨ j = Key.pierState p) _ _
    (fun x p hp => (keepsBut_startRecovery x p _).mono fun _ h => ⟨p, piers_lt hp, h⟩) s1 _ fun ⟨p, hp, h⟩ => not_recovery_linkReleaseErrors hp h

/-! ### A FAILED pier's marker -/

/-- A link loses its edges up to one, and goes on there. -/
theorem linkSt_loseTo (s : State) (k first e : Nat) (raw : Bool) (j : Nat) :
    (((s.loseEdges k first e raw).putLink k { (s.loseEdges k first e raw).linkSt k with next := e }).linkSt j).next = if j = k then e else (s.linkSt j).next := by
  rw [linkSt_putLink]
  split
  · rfl
  · obtain ⟨g, w, h⟩ := (flow_loseEdges s k first e raw).links j
    rw [h]

/-- The links of a list lose their edges up to a time. -/
theorem loseTo_spec (stop : KTime) (l : List Nat) (hl : ∀ k ∈ l, k < 128) (s : State) :
    let t := l.foldl (fun x k => ((x.loseEdges k (x.linkSt k).next (max (x.linkSt k).next ((x.link k).edgeFrom stop)) true).putLink k
      { (x.loseEdges k (x.linkSt k).next (max (x.linkSt k).next ((x.link k).edgeFrom stop)) true).linkSt k with next := max (x.linkSt k).next ((x.link k).edgeFrom stop) })) s
    KeepsBut isFlowKey s t ∧ ∀ k < 128, (t.linkSt k).next = if k ∈ l then max (s.linkSt k).next ((s.link k).edgeFrom stop) else (s.linkSt k).next := by
  induction l generalizing s with
  | nil => exact ⟨.refl s, fun k _ => rfl⟩
  | cons a l ih =>
    have hflow := flow_loseEdges s a (s.linkSt a).next (max (s.linkSt a).next ((s.link a).edgeFrom stop)) true
    have hnext := linkSt_loseTo s a (s.linkSt a).next (max (s.linkSt a).next ((s.link a).edgeFrom stop)) true
    rw [List.foldl_cons]
    generalize hu : (s.loseEdges a (s.linkSt a).next (max (s.linkSt a).next ((s.link a).edgeFrom stop)) true).putLink a _ = u at hnext ⊢
    have hkeep : KeepsBut isFlowKey s u := hu ▸ hflow.keeps.trans (keepsBut_of_dict rfl)
    obtain ⟨hk, hall⟩ := ih (fun k hk => hl k (List.mem_cons_of_mem a hk)) u
    refine ⟨hkeep.trans hk, fun k hk => ?_⟩
    rw [hall k hk, link_of_keepsBut hkeep fun j hj => not_isFlowKey_cfg hk hj, hnext k]
    by_cases hka : k = a
    · subst hka
      simp
    · simp [hka]

/-! ### pier.restart -/

/-- Lanes restarted: their states and the lanes. -/
theorem restartLanes_form (l : List Nat) (s : State) : ∃ d g, l.foldl restartLane s = { s with dict := d, ing := g } := by
  induction l generalizing s with
  | nil => exact ⟨s.dict, s.ing, rfl⟩
  | cons n l ih =>
    obtain ⟨d, g, h⟩ := ih (s.restartLane n)
    exact ⟨d, g, h⟩

/-- The links that do not release begin again at their lanes, in start-up with a new attempt. -/
def restartPier (p : Nat) (until' : KTime) (s : State) (k : Nat) : State :=
  let x1 := (s.lanesIn p k).foldl restartLane s
  if x1.obj (Key.linkState k) = 1 then x1.putLink k { x1.linkSt k with attempts := 0, resumeAt := some until' } else x1

theorem restartPier_spec (p : Nat) (until' : KTime) (l : List Nat) (s : State) :
    (∃ d g, l.foldl (restartPier p until') s = { s with dict := d, ing := g }) ∧ Recovers s (l.foldl (restartPier p until') s) := by
  induction l generalizing s with
  | nil => exact ⟨⟨s.dict, s.ing, rfl⟩, .refl s⟩
  | cons k l ih =>
    have h1 : (∃ d g, restartPier p until' s k = { s with dict := d, ing := g }) ∧ Recovers s (restartPier p until' s k) := by
      obtain ⟨d, g, h⟩ := restartLanes_form (s.lanesIn p k) s
      have hrec : Recovers s ((s.lanesIn p k).foldl restartLane s) := recovers_foldl_of_mem _ _ (fun y n hn => recovers_restartLane y (lanes_lt (List.mem_of_mem_filter hn))) s
      unfold restartPier
      extract_lets x1
      split
      · exact ⟨⟨d, _, by rw [putLink, show x1 = _ from h]; rfl⟩, hrec.trans (recovers_putLink ..)⟩
      · exact ⟨⟨d, g, h⟩, hrec⟩
    obtain ⟨⟨d, g, h⟩, hrec⟩ := ih (restartPier p until' s k)
    obtain ⟨⟨d1, g1, h1f⟩, hrec1⟩ := h1
    exact ⟨⟨d, g, h.trans (by rw [h1f])⟩, hrec1.trans hrec⟩

theorem immPierRestart_spec {s : State} {p : Nat} (hp : p < 16) (h : s.obj (Key.pierState p) = 4) :
    ∃ t, immPierRestart p s = (Res.done, t) ∧ t.obj (Key.pierState p) = 3 ∧ (t.pierSt p).attempts = 0 ∧
      t.obj (Key.pierRecoveries p) = (s.obj (Key.pierRecoveries p) + 1) % 2 ^ 32 ∧ t.mem = s.mem ∧ t.outbox = s.outbox := by
  unfold immPierRestart
  rw [if_neg (by simp [h])]
  extract_lets ks s' g s1
  have hs' : (∃ k d, s' = (s.withKs k).withDict d) ∧ KeepsBut (· = Key.lanepllState p) s s' := by
    simp only [s']
    split
    · exact ⟨startPll_changes .., keepsBut_startPll _ _ _⟩
    · exact ⟨⟨s.ks, s.dict, rfl⟩, .refl s⟩
  obtain ⟨⟨k', d', hform'⟩, hkeep'⟩ := hs'
  have hpier : ∀ x, ((((s'.setObj (Key.pierState p) 3).putPier p x).bump (Key.pierRecoveries p)).pierSt p) = x := fun x => by
    change (((s'.setObj (Key.pierState p) 3).putPier p x).pierSt p) = x
    rw [pierSt_putPier, if_pos rfl]
  have hobj : ∀ x, (((s'.setObj (Key.pierState p) 3).putPier p x).bump (Key.pierRecoveries p)).obj (Key.pierState p) = 3 ∧
      (((s'.setObj (Key.pierState p) 3).putPier p x).bump (Key.pierRecoveries p)).obj (Key.pierRecoveries p) = (s.obj (Key.pierRecoveries p) + 1) % 2 ^ 32 := fun x => by
    rw [obj_bump, if_neg (by unfold Key.pierState Key.pierRecoveries; omega), obj_putPier, obj_setObj, if_pos rfl, lenOf_pierState p hp, obj_bump, if_pos rfl,
      lenOf_pierRecoveries p hp, obj_putPier, obj_setObj, if_neg (by unfold Key.pierState Key.pierRecoveries; omega),
      hkeep' _ (by unfold Key.lanepllState Key.pierRecoveries; omega), show (256 : Nat) ^ 4 = 2 ^ 32 from rfl]
    exact ⟨rfl, rfl⟩
  have hmem : ∀ x, ((((s'.setObj (Key.pierState p) 3).putPier p x).bump (Key.pierRecoveries p)).mem = s.mem ∧
      (((s'.setObj (Key.pierState p) 3).putPier p x).bump (Key.pierRecoveries p)).outbox = s.outbox) := fun x => by
    change s'.mem = s.mem ∧ s'.outbox = s.outbox
    rw [hform']
    exact ⟨rfl, rfl⟩
  obtain ⟨⟨d, g', hform⟩, hrec⟩ := restartPier_spec p (s'.time + 720000 * tick) (ks.filter fun k => s'.obj (Key.linkState k) != 2) s1
  refine ⟨_, rfl, ?_, ?_, ?_, ?_, ?_⟩
  · exact (hrec.keeps _ (not_isRecoverKey_pier (j := p) (by omega) (.inl rfl))).trans (hobj _).1
  · have : ∀ u : State, u.ing.piers = s1.ing.piers → (u.pierSt p).attempts = 0 := fun u hu => by
      rw [pierSt, hu]
      exact congrArg Pier.attempts (hpier { g with ef := s'.time, attempts := 0, passed := ks.filter fun k => s'.obj (Key.linkState k) == 2 })
    exact this _ hrec.piers
  · exact (hrec.keeps _ (not_isRecoverKey_pier (j := p + 16) (by omega) (.inl (by unfold Key.pierRecoveries; omega)))).trans (hobj _).2
  · exact (congrArg State.mem hform).trans (hmem {}).1
  · exact (congrArg State.outbox hform).trans (hmem {}).2

/-! ### The end of a pier's attempt -/

theorem recovers_passEdge (s : State) (k edge : Nat) : Recovers s (s.passEdge k edge) := by
  unfold passEdge
  extract_lets l s0 s1
  have h0 : Recovers s s0 := by
    simp only [s0]
    split
    · exact .refl s
    · exact recovers_putLink ..
  have h1 : Recovers s s1 := (h0.trans (recovers_of_flow (flow_loseEdges ..))).trans (recovers_foldl_of_mem _ _ (fun x n _ => recovers_putLane x ..) _)
  exact h1.trans (recovers_putLink ..)

/-- A link enabled in a later state was enabled before, where no enable is listed anew. -/
theorem linksOn_of_lists {P : Nat → Prop} {s t : State} (h : ListsBut P s t) (hP : ∀ j < 128, ¬P (Key.linkEnable j)) {k : Nat} (hk : k ∈ t.linksOn) : k ∈ s.linksOn := by
  obtain ⟨e, he, rfl⟩ := List.mem_map.mp hk
  obtain ⟨hmem, hkey⟩ := List.mem_filter.mp he
  refine List.mem_map.mpr ⟨e, List.mem_filter.mpr ⟨h e hmem ?_, hkey⟩, rfl⟩
  simp only [Bool.and_eq_true, decide_eq_true_eq, beq_iff_eq, bne_iff_ne] at hkey
  have heq : e.1 = Key.linkEnable (e.1 / 256 - 0x1580) := by unfold Key.linkEnable; omega
  rw [heq]
  exact hP _ (by omega)

/-- What the links of a pier change as they resume. -/
def isResumeKey (j : Nat) : Prop := ∃ k < 128, isReleaseKey k j

theorem not_isResumeKey {k j : Nat} (h : isLinkCfgKey k j ∨ j = Key.linkEnable k) (hk : k < 128) : ¬isResumeKey j := by
  unfold isResumeKey isReleaseKey isPierKey isAsideKey isFlowKey isRingKey isMemCounter isArrivalKey isCalKey Key.memLostWrites Key.memLostReads Key.memchInorder
    Key.ringWraps Key.ringBlocksLost Key.ringSlabsNow Key.ringResizeState Key.statusPromise Key.statusGapCount Key.statusGapLast Key.linkErrors Key.portGapSeq
    Key.portOverloadCount Key.linkArrivalMin Key.linkArrivalMax Key.suStage Key.suStageTime Key.linkState Key.pierState Key.lanepllState
  unfold isLinkCfgKey Key.pierRate Key.sysrefPhase Key.linkEnable at h
  rintro ⟨m, hm, (((((h' | h' | ⟨n, hn, h'⟩) | h' | h' | h' | h') | h' | h' | h' | h' | ⟨n, hn, h'⟩ | ⟨n, hn, h' | h'⟩) | (h' | h') | h' | h' | h') | h' | ⟨n, hn, h' | h'⟩)⟩ <;>
    rcases h with (⟨i, hi, hi', h⟩ | ⟨q, hq, h⟩ | h) | h <;> omega

/-- A link that passes resumes, unless another of its piers still recovers. -/
def resumeLink (p : Nat) (x : State) (k : Nat) : State := (if x.otherRecovers p k then x else x.releaseEdge k (x.linkSt k).next false).passPier k p

/-- The links of a list have passed at their resume edges: the pier is in service, or still waits for one of its links. -/
structure Resumed (s : State) (p : Nat) (ks : List Nat) (x : State) : Prop where
  writes : Writes isResumeKey s x
  others : ∀ q < 32, q ≠ p → x.pierSt q = s.pierSt q ∧
    (x.obj (Key.pierState q) = s.obj (Key.pierState q) ∨ (s.obj (Key.pierState q) = 1 ∧ x.obj (Key.pierState q) = 2))
  pier : (x.obj (Key.pierState p) = 3 ∧ (∀ k, k ∈ (s.pierSt p).passed ∨ k ∈ ks → k ∈ (x.pierSt p).passed) ∧ ∃ j ∈ s.linksOfPier p, j ∉ (x.pierSt p).passed) ∨
    (x.obj (Key.pierState p) = 2 ∧ x.obj (Key.lanepllState p) = 2)
  links : ∀ k ∈ ks, s.otherRecovers p k = false → x.obj (Key.linkState k) = 2

theorem Resumed.link {s x : State} {p k : Nat} {ks : List Nat} (h : Resumed s p ks x) (hk : k < 128) : x.link k = s.link k :=
  link_of_keepsBut h.writes.keeps fun _ hj => not_isResumeKey (.inl hj) hk

theorem Resumed.otherRecovers {s x : State} {p k : Nat} {ks : List Nat} (h : Resumed s p ks x) (hk : k < 128) : x.otherRecovers p k = s.otherRecovers p k := by
  unfold State.otherRecovers
  rw [h.link hk, Bool.eq_iff_iff, List.any_eq_true, List.any_eq_true]
  refine exists_congr fun q => and_congr_right fun hq => ?_
  by_cases hqp : q = p
  · simp [hqp]
  · obtain ⟨hst, hs | ⟨h1, h2⟩⟩ := h.others q (piers_lt hq) hqp
    · rw [hst, hs]
    · simp [hst, h1, h2]

theorem resumed_step {s x : State} {p k : Nat} {ks : List Nat} (hp : p < 16) (hk : k < 128) (h : Resumed s p ks x) : Resumed s p (k :: ks) (resumeLink p x k) := by
  -- The release first: the link is released, or another of its piers recovers.
  have hrel : Resumed s p ks (if x.otherRecovers p k then x else x.releaseEdge k (x.linkSt k).next false) ∧
      (s.otherRecovers p k = false → (if x.otherRecovers p k then x else x.releaseEdge k (x.linkSt k).next false).obj (Key.linkState k) = 2) := by
    rw [h.otherRecovers hk]
    split
    case isTrue ho => exact ⟨h, fun hn => absurd (ho.symm.trans hn) (by decide)⟩
    case isFalse =>
      have hspec := releaseEdge_spec x hk (x.linkSt k).next
      generalize x.releaseEdge k (x.linkSt k).next false = y at hspec ⊢
      have hpiers : ∀ q, y.pierSt q = x.pierSt q := fun q => by rw [pierSt, hspec.piers, pierSt]
      refine ⟨⟨h.writes.trans (hspec.writes.mono fun j hj => ⟨k, hk, hj⟩), fun q hq hqp => ?_, ?_, fun j hj hn => ?_⟩, fun _ => hspec.linkState⟩
      · obtain ⟨hst, hs⟩ := h.others q hq hqp
        refine ⟨(hpiers q).trans hst, ?_⟩
        rcases hspec.serves.1 q hq with h1 | h1 <;> omega
      · rw [hpiers p]
        rcases h.pier with ⟨h3, hpass⟩ | ⟨h2, hpll⟩
        · refine .inl ⟨?_, hpass⟩
          rcases hspec.serves.1 p (by omega) with h1 | h1 <;> omega
        · refine .inr ⟨?_, ?_⟩
          · rcases hspec.serves.1 p (by omega) with h1 | h1 <;> omega
          · rcases hspec.serves.2 p hp with h1 | h1 <;> omega
      · by_cases hjk : j = k
        · rw [hjk]; exact hspec.linkState
        · rw [hspec.writes.keeps (Key.linkState j), h.links j hj hn]
          rintro (h | h | ⟨q, hq, h | h⟩)
          · exact not_isAsideKey hk (.inl ⟨j, rfl⟩) h
          · unfold Key.linkState at h; omega
          · unfold Key.linkState Key.pierState at h; omega
          · unfold Key.linkState Key.lanepllState at h; omega
  obtain ⟨hrel, hlink⟩ := hrel
  unfold resumeLink
  generalize (if x.otherRecovers p k then x else x.releaseEdge k (x.linkSt k).next false) = y at hrel hlink ⊢
  have hlinks : ∀ j ∈ k :: ks, s.otherRecovers p j = false → y.obj (Key.linkState j) = 2 := fun j hj hn => (List.mem_cons.mp hj).elim (fun h => h ▸ hlink (h ▸ hn)) fun h => hrel.links j h hn
  unfold passPier
  rcases hrel.pier with ⟨h3, hpass, -⟩ | ⟨h2, hpll⟩
  · rw [if_pos h3]
    generalize hz : y.putPier p { y.pierSt p with passed := k :: (y.pierSt p).passed } = z
    have hobj : ∀ j, z.obj j = y.obj j := fun j => by rw [← hz, obj_putPier]
    have hpassed : (z.pierSt p).passed = k :: (y.pierSt p).passed := by rw [← hz, pierSt_putPier, if_pos rfl]
    have hother : ∀ q, q ≠ p → z.pierSt q = y.pierSt q := fun q hq => by rw [← hz, pierSt_putPier, if_neg hq]
    have hwz : Writes isResumeKey s z := hrel.writes.trans (writes_of_dict (by rw [← hz]; rfl))
    unfold pierDone
    split
    · -- Every link of the pier has passed.
      have hcal := calibrates_calibratePier ((z.setObj (Key.pierState p) 2).lockPll p) p
      generalize ((z.setObj (Key.pierState p) 2).lockPll p).calibratePier p = t at hcal ⊢
      have hkeep : ∀ j, ¬isCalKey j → j ≠ Key.pierState p → j ≠ Key.lanepllState p → t.obj j = y.obj j := fun j h1 h2 h3 => by
        rw [hcal.writes.keeps j h1, lockPll, obj_setObj, if_neg h3, obj_setObj, if_neg h2, hobj]
      refine ⟨(hwz.trans ((writes_setObj ⟨k, hk, .inr (.inr ⟨p, by omega, .inl rfl⟩)⟩ _ 2).trans (writes_setObj ⟨k, hk, .inr (.inr ⟨p, by omega, .inr rfl⟩)⟩ _ 2))).trans
        (hcal.writes.mono fun j hj => ⟨k, hk, .inl (.inr (.inr (.inl hj)))⟩), fun q hq hqp => ?_, .inr ⟨?_, ?_⟩, fun j hj hn => ?_⟩
      · obtain ⟨hst, hs⟩ := hrel.others q hq hqp
        refine ⟨?_, ?_⟩
        · rw [pierSt, hcal.ing]
          exact (hother q hqp).trans hst
        · rwa [hkeep _ (by unfold isCalKey Key.pierState; omega) (by unfold Key.pierState; omega) (by unfold Key.pierState Key.lanepllState; omega)]
      · rw [hcal.writes.keeps _ (by unfold isCalKey Key.pierState; omega), lockPll, obj_setObj, if_neg (by unfold Key.pierState Key.lanepllState; omega), obj_setObj, if_pos rfl]
        exact two_mod_pierState p (by omega)
      · rw [hcal.writes.keeps _ (by unfold isCalKey Key.lanepllState; omega), lockPll, obj_setObj, if_pos rfl]
        exact two_mod_lanepllState p hp
      · rw [hkeep _ (by unfold isCalKey Key.linkState; omega) (by unfold Key.linkState Key.pierState; omega) (by unfold Key.linkState Key.lanepllState; omega)]
        exact hlinks j hj hn
    case isFalse hnot =>
      -- A link of the pier has still to pass.
      refine ⟨hwz, fun q hq hqp => ?_, .inl ⟨(hobj _).trans h3, fun j hj => ?_, ?_⟩, fun j hj hn => (hobj _).trans (hlinks j hj hn)⟩
      · obtain ⟨hst, hs⟩ := hrel.others q hq hqp
        exact ⟨(hother q hqp).trans hst, by rwa [hobj]⟩
      · rw [hpassed]
        rcases hj with hj | hj
        · exact List.mem_cons_of_mem k (hpass j (.inl hj))
        · exact (List.mem_cons.mp hj).elim (fun h => h ▸ List.mem_cons_self) fun h => List.mem_cons_of_mem k (hpass j (.inr h))
      · have hall : ¬(z.linksOfPier p).all (fun k => (z.pierSt p).passed.contains k) = true := fun ha => hnot ⟨(hobj _).trans h3, ha⟩
        simp only [List.all_eq_true, not_forall] at hall
        obtain ⟨j, hj, hno⟩ := hall
        have hj128 := linksOfPier_lt hj
        obtain ⟨hon, hin⟩ := List.mem_filter.mp hj
        rw [link_of_keepsBut hwz.keeps fun _ hj => not_isResumeKey (.inl hj) hj128] at hin
        exact ⟨j, List.mem_filter.mpr ⟨linksOn_of_lists hwz.lists (fun i hi => not_isResumeKey (.inr rfl) hi) hon, hin⟩, by simpa using hno⟩
  · rw [if_neg (by omega)]
    exact ⟨hrel.writes, hrel.others, .inr ⟨h2, hpll⟩, hlinks⟩

theorem resumed_foldl {s : State} {p : Nat} (hp : p < 16) (l : List Nat) (hl : ∀ k ∈ l, k < 128) (ks : List Nat) (x : State) (h : Resumed s p ks x) :
    Resumed s p (l.reverse ++ ks) (l.foldl (resumeLink p) x) := by
  induction l generalizing x ks with
  | nil => exact h
  | cons k l ih =>
    rw [List.reverse_cons, List.append_assoc]
    exact ih (fun j hj => hl j (List.mem_cons_of_mem k hj)) _ _ (resumed_step hp (hl k List.mem_cons_self) h)

theorem mem_resumeDue {s : State} {p k : Nat} (h : k ∈ s.resumeDue p) : k ∈ s.linksOfPier p ∧ s.obj (Key.pierState p) = 3 ∧ k ∉ (s.pierSt p).passed := by
  unfold resumeDue awaits at h
  rw [List.mem_filter] at h
  simp only [Bool.and_eq_true, decide_eq_true_eq, beq_iff_eq, Bool.not_eq_true', List.contains_eq_mem, decide_eq_false_iff_not] at h
  exact ⟨h.1, h.2.1.2.1.1, h.2.1.2.1.2⟩

end State

open State

/-- Settles O13: releases and their errors, the markers of a FAILED pier, its restart, and how an attempt ends. -/
theorem linksAndPiers : Obligations.LinksAndPiers := by
  refine ⟨⟨fun s k hon hst hdue => ⟨fun hone => ?_, fun hone => ?_⟩, fun s k hlate => ?_⟩, fun s p hst hdue => ?_, fun s p hready hst => ?_, fun s p hready hst => ?_,
    fun s p hdue hpass hall => ?_, fun s p hfail => ?_, fun s k hready => ?_⟩
  · have hexec : exec (.linkRelease k) s = .next (s.releaseEdge k.val (s.linkSt k.val).next false) := by
      rw [exec_linkRelease, execLinkRelease]
      simp [hon, hst, hone, Nat.not_lt.mpr hdue]
    have hspec := releaseEdge_spec s k.isLt (s.linkSt k.val).next
    exact ⟨_, hexec, hspec.linkState, hspec.next, hspec.released, hspec.lanes hone⟩
  · have hexec : exec (.linkRelease k) s = .next (s.releaseFails k.val (s.linkSt k.val).next) := by
      rw [exec_linkRelease, execLinkRelease]
      simp [hon, hst, hone, Nat.not_lt.mpr hdue]
    exact ⟨_, hexec, linkReleaseErrors_releaseFails s k.isLt _⟩
  · rw [exec_linkRelease, execLinkRelease]
    simp [hlate]
  · obtain ⟨-, hnext⟩ := loseTo_spec ((s.pierSt p.val).markedTo + 400000000 * tick) ((s.linksOfPier p.val).filter fun k => s.obj (Key.linkState k) != 2)
      (fun k hk => linksOfPier_lt (List.mem_of_mem_filter hk)) s
    have hexec := exec_pierFailedMarker s p
    rw [execPierFailedMarker] at hexec
    simp only at hexec
    rw [if_neg (by simp [hst]; omega)] at hexec
    refine ⟨_, hexec, ?_, fun k hk hne => ?_⟩
    · rw [pierSt_putPier, if_pos rfl]
    · have := hnext k (linksOfPier_lt hk)
      rw [if_pos (List.mem_filter.mpr ⟨hk, by simpa using hne⟩)] at this
      exact this
  · obtain ⟨t, ht, hpier, hatt, hrec, hmem, hout⟩ := immPierRestart_spec p.isLt hst
    exact ⟨_, (exec_pierRestart s p).trans (congrArg Host.Outcome.next (act_of_ready hready ht)), hpier, hatt, rfl, hrec, hmem, hout⟩
  · rw [exec_pierRestart, execPierRestart, act_of_ready hready (c := Res.state) (t := s) (by rw [immPierRestart, if_pos hst])]
  · obtain ⟨k0, hk0⟩ := List.exists_mem_of_ne_nil _ hdue
    obtain ⟨hin0, hst, hnot0⟩ := mem_resumeDue hk0
    have hexec : exec (.pierRecoveryResume p) s = .next ((s.resumeDue p.val).foldl (resumeLink p.val) s.linkError) := by
      rw [exec_pierRecoveryResume, execPierRecoveryResume]
      simp only
      rw [if_neg (by simpa using hdue), if_pos (List.all_eq_true.mpr hpass)]
      rfl
    obtain ⟨⟨d, q, c, herr⟩, -, hkeep⟩ := linkError_spec s
    have hpiers : ∀ q, s.linkError.pierSt q = s.pierSt q := fun q => by rw [herr]; rfl
    have hstate : ∀ q, s.linkError.obj (Key.pierState q) = s.obj (Key.pierState q) := fun q => hkeep _ (by unfold Key.pierState Key.statusPromise; omega)
    have hstart : Resumed s p.val [] s.linkError := by
      refine ⟨⟨hkeep.mono fun j hj => ⟨0, by omega, .inl (.inl (.inr (.inl hj)))⟩, ?_⟩, fun q _ _ => ⟨hpiers q, .inl (hstate q)⟩, .inl ⟨(hstate _).trans hst, fun k hk => ?_, k0, hin0, ?_⟩,
        fun k hk => absurd hk List.not_mem_nil⟩
      · unfold linkError
        exact ListsBut.trans (t := s.withCond { s.cond with linkErrorAt := s.wall }) (listsBut_of_dict rfl) (listsBut_setPromise ⟨0, by omega, .inl (.inl (.inr (.inl rfl)))⟩ _ 1 false)
      · rw [hpiers]; exact hk.elim id fun h => absurd h List.not_mem_nil
      · rw [hpiers]; exact hnot0
    have hend := resumed_foldl p.isLt (s.resumeDue p.val) (fun k hk => linksOfPier_lt (mem_resumeDue hk).1) [] s.linkError hstart
    rw [List.append_nil] at hend
    refine ⟨_, hexec, ?_⟩
    have hdone := hend.pier.resolve_left fun ⟨_, hpassed, j, hj, hno⟩ => hno (hpassed j ((hall j hj).imp_right List.mem_reverse.mpr))
    exact ⟨hdone.1, hdone.2, fun k hk hn => hend.links k (List.mem_reverse.mpr hk) hn⟩
  · obtain ⟨k0, hk0, hno⟩ := hfail
    obtain ⟨-, hst, -⟩ := mem_resumeDue hk0
    have hexec := exec_pierRecoveryResume s p
    rw [execPierRecoveryResume] at hexec
    simp only at hexec
    rw [if_neg (by rw [List.isEmpty_iff]; exact List.ne_nil_of_mem hk0), if_neg (fun h => by rw [List.all_eq_true.mp h k0 hk0] at hno; cases hno)] at hexec
    have hrec : Recovers s ((s.resumeDue p.val).foldl (fun x k => x.passEdge k (x.linkSt k).next) s) := recovers_foldl_of_mem _ _ (fun x k _ => recovers_passEdge x k _) s
    refine ⟨_, hexec, ?_⟩
    generalize (s.resumeDue p.val).foldl (fun x k => x.passEdge k (x.linkSt k).next) s = u at hrec ⊢
    generalize (s.resumeDue p.val).foldl (fun m k => max m ((s.link k).edge (s.linkSt k).next)) 0 = ef
    have hbegin := beginAttempt_spec (u.putPier p.val { s.pierSt p.val with attempts := (s.pierSt p.val).attempts + 1 }) p.isLt ef
    have hpier : (((u.putPier p.val { s.pierSt p.val with attempts := (s.pierSt p.val).attempts + 1 }).beginAttempt p.val ef).pierSt p.val).attempts =
        (s.pierSt p.val).attempts + 1 := by
      rw [pierSt, hbegin.piers]
      change ((putPier _ p.val _).pierSt p.val).attempts = _
      rw [pierSt_putPier, if_pos rfl]
      simp only [pierSt_putPier, if_true]
    have hstate : ((u.putPier p.val { s.pierSt p.val with attempts := (s.pierSt p.val).attempts + 1 }).beginAttempt p.val ef).obj (Key.pierState p.val) = 3 := by
      rw [hbegin.keeps, obj_putPier, hrec.keeps (Key.pierState p.val) (not_isRecoverKey_pier (j := p.val) (by omega) (.inl rfl)), hst]
      rintro (h | h | h)
      · exact not_isRecoverKey_pier (j := p.val) (by omega) (.inl rfl) h
      · unfold Key.pierState Key.pierRecoveries at h; omega
      · unfold Key.pierState Key.lanepllState at h; omega
    generalize (u.putPier p.val { s.pierSt p.val with attempts := (s.pierSt p.val).attempts + 1 }).beginAttempt p.val ef = v at hpier hstate ⊢
    split
    · refine ⟨hpier, ?_⟩
      rw [obj_setObj, if_neg (by unfold Key.pierState Key.pierRecoveries; omega), obj_setObj, if_pos rfl, lenOf_pierState p.val p.isLt]
      rfl
    · exact ⟨hpier, hstate⟩
  · rw [exec_linkArrivalClear, execLinkArrivalClear, act_of_ready hready (by rw [immLinkArrivalClear])]

end Sys2Proof.Machine
end

section
/-! The front ends take input; synchronising resets and pulses (03 R80, R85; 04 R94, R102, R115, R116). -/

namespace Sys2Proof.Machine

namespace State

/-! ### What the Deck's work on a sample leaves alone -/

/-- The abutments' queues and the aligners' histories stand. -/
structure Aligns (s t : State) : Prop where
  queues : t.ing.queues = s.ing.queues
  inputs : ∀ q, (t.fe q).grid.inputs = (s.fe q).grid.inputs

theorem Aligns.refl (s : State) : Aligns s s := ⟨rfl, fun _ => rfl⟩

theorem Aligns.trans {s t u : State} (h : Aligns s t) (h' : Aligns t u) : Aligns s u := ⟨h'.queues.trans h.queues, fun q => (h'.inputs q).trans (h.inputs q)⟩

theorem aligns_foldl {α : Type} (l : List α) (f : State → α → State) (h : ∀ s x, Aligns s (f s x)) (s : State) : Aligns s (l.foldl f s) := by
  induction l generalizing s with
  | nil => exact .refl s
  | cons x l ih => exact (h s x).trans (ih _)

@[simp] theorem fe_putFe (s : State) (p : Nat) (x : Fe) (q : Nat) : (s.putFe p x).fe q = if q = p then x else s.fe q := by simp [putFe, fe]

/-- A front end takes a state with the history that it had. -/
theorem Aligns.putFe {s u : State} {p : Nat} {x : Fe} (h : Aligns s u) (hx : x.grid.inputs = (s.fe p).grid.inputs) : Aligns s (u.putFe p x) :=
  ⟨h.queues, fun q => by
    rw [fe_putFe]
    split
    case isTrue hq => rw [hq, hx]
    case isFalse => exact h.inputs q⟩

theorem aligns_putFe {s : State} {p : Nat} {x : Fe} (hx : x.grid.inputs = (s.fe p).grid.inputs) : Aligns s (s.putFe p x) := (Aligns.refl s).putFe hx

/-- Neither the input side nor the front ends change. -/
theorem aligns_of_same {s t : State} (hi : t.ing = s.ing) (hf : t.fes = s.fes) : Aligns s t := ⟨by rw [hi], fun q => by rw [fe, hf, fe]⟩

theorem aligns_setObj (s : State) (k v : Nat) : Aligns s (s.setObj k v) := aligns_of_same rfl rfl

theorem aligns_addObj (s : State) (k n : Nat) : Aligns s (s.addObj k n) := aligns_setObj s k _

theorem aligns_bump (s : State) (k : Nat) : Aligns s (s.bump k) := aligns_addObj s k 1

theorem aligns_raiseEvent (s : State) (n : Nat) : Aligns s (s.raiseEvent n) := by
  obtain ⟨p, h⟩ := raiseEvent_changes s n
  exact aligns_of_same (by rw [h]; rfl) (by rw [h]; rfl)

theorem aligns_emit (s : State) (e : Emission) : Aligns s (s.emit e) := aligns_of_same rfl rfl

theorem aligns_setWatermark (s : State) (source : Nat) (t : KTime) : Aligns s (s.setWatermark source t) := aligns_of_same rfl rfl

theorem aligns_onlyRing {s t : State} (h : OnlyRing s t) : Aligns s t := by
  obtain ⟨d, r, m, h, -⟩ := h.form
  exact aligns_of_same (by rw [h]; rfl) (by rw [h]; rfl)

theorem aligns_onlyTriggers {s t : State} (h : OnlyTriggers s t) : Aligns s t := by
  obtain ⟨⟨d, g, x, o, h, -⟩, -⟩ := h
  exact aligns_of_same (by rw [h]; rfl) (by rw [h]; rfl)

theorem aligns_issueMarker (s : State) (cause port pier stream first view count : Nat) : Aligns s (s.issueMarker cause port pier stream first view count) := by
  unfold issueMarker
  extract_lets s1 img
  exact ((((aligns_bump s _).trans (aligns_setObj s1 _ img)).trans (aligns_bump _ _)).trans (aligns_raiseEvent _ 2)).trans (aligns_emit ..)

theorem aligns_endGapRun (s : State) (p : Nat) : Aligns s (s.endGapRun p) := by
  unfold endGapRun
  split
  · exact .refl s
  · exact (aligns_issueMarker ..).putFe rfl

theorem aligns_gapOutput (s : State) (p t cause pier : Nat) : Aligns s (s.gapOutput p t cause pier) := by
  unfold gapOutput
  extract_lets s0 f
  have h0 : Aligns s s0 := by
    simp only [s0]
    split
    · split
      · exact aligns_endGapRun s p
      · exact .refl s
    · exact .refl s
  exact h0.putFe (h0.inputs p)

theorem aligns_startFe (s : State) (p : Nat) (t : KTime) : Aligns s (s.startFe p t) := Aligns.putFe (u := s.withFes _) ⟨rfl, fun _ => rfl⟩ rfl

theorem aligns_noteAnchor (s : State) (p te : Nat) : Aligns s (s.noteAnchor p te) :=
  aligns_foldl _ _ (fun x v => by
    extract_lets g y
    have hy : Aligns x y := aligns_of_same rfl rfl
    clear_value y
    exact hy.trans (aligns_setObj ..)) s

theorem aligns_showFade (s : State) (p : Nat) : Aligns s (s.showFade p) := by
  unfold showFade
  split
  · exact (aligns_setObj s _ 2).trans (aligns_setObj _ _ _)
  · exact (aligns_setObj s _ 1).trans (aligns_setObj _ _ _)
  · exact aligns_setObj s _ 0

theorem aligns_replanFades (s : State) (p : Nat) (t : KTime) : Aligns s (s.replanFades p t) := by
  unfold replanFades
  extract_lets keep g
  have h : ∀ l, Aligns s (s.withFes { g with fades := l }) := fun l => ⟨rfl, fun _ => rfl⟩
  exact (h _).trans (aligns_showFade ..)

theorem aligns_resetFe (s : State) (p : Nat) (t : Exact) (step : Nat) (te : KTime) : Aligns s (s.resetFe p t step te) := by
  unfold resetFe
  extract_lets f c e newest g f1 s1 s2 unstarted s3
  have h1 : Aligns s s1 := (aligns_onlyRing (onlyRing_closeBlock ..)).putFe rfl
  have h3 : Aligns s s3 := (h1.trans (aligns_setObj ..)).trans (aligns_replanFades ..)
  split
  · exact h3.trans (aligns_setObj ..)
  · exact h3

theorem aligns_edgeFire (s : State) (p t flags qual : Nat) (v : Int) (c : EdgeCfg) : Aligns s (s.edgeFire p t flags qual v c) := by
  unfold edgeFire
  extract_lets s1
  have h1 : Aligns s s1 := ((aligns_onlyTriggers (onlyTriggers_raiseTrigger ..)).trans (aligns_setObj ..)).trans (aligns_setObj ..)
  split
  · exact h1.trans (aligns_onlyTriggers (onlyTriggers_pulse ..))
  · exact h1

theorem aligns_edgeSample (s : State) (p t flags : Nat) (i q : Int) (c : EdgeCfg) (rise fall : Detector) : Aligns s (s.edgeSample p t flags i q c rise fall).2 := by
  unfold edgeSample
  extract_lets v
  split
  split
  extract_lets s1 s2
  have h1 : Aligns s s1 := by
    simp only [s1]
    split
    · exact aligns_edgeFire ..
    · exact .refl s
  have h2 : Aligns s s2 := by
    simp only [s2]
    split
    · exact h1.trans (aligns_edgeFire ..)
    · exact h1
  exact h2.trans (aligns_setWatermark ..)

theorem aligns_rawEdge (s : State) (p : Nat) (it : Item) (settling : Bool) : Aligns s (s.rawEdge p it settling) := by
  unfold rawEdge
  extract_lets t c f g f0 sh flags
  have hf0 : f0.grid.inputs = (s.fe p).grid.inputs := by
    simp only [f0]
    split <;> rfl
  split
  · exact aligns_putFe hf0
  · split
    · exact Aligns.trans (t := s.putFe p { f0 with rawRise := c.fresh, rawFall := c.fresh }) (aligns_putFe hf0) (aligns_setWatermark ..)
    · have hs := aligns_edgeSample s p t flags (it.i * sh) (it.q * sh) c f0.rawRise f0.rawFall
      generalize s.edgeSample p t flags (it.i * sh) (it.q * sh) c f0.rawRise f0.rawFall = w at hs ⊢
      exact hs.putFe hf0

theorem aligns_feRuns (s : State) (port deg calPier t : Nat) : Aligns s (s.feRuns port deg calPier t) := by
  refine aligns_foldl _ _ (fun x b => ?_) s
  have hput : ∀ (y : State) (r : Run), Aligns y (y.withFes { y.fes with runs := tabSet {} y.fes.runs (4 * port + b) r }) := fun y r => ⟨rfl, fun _ => rfl⟩
  generalize (if b = 0 then calPier else 0xFF) = pier
  unfold runStep
  extract_lets r s1
  have h1 : Aligns x s1 := by
    simp only [s1]
    split
    · exact (hput x _).trans (aligns_issueMarker ..)
    · exact .refl x
  clear_value s1
  split
  · exact h1
  · split <;> exact h1.trans (hput s1 _)

theorem aligns_feTap (s : State) (p step : Nat) (t : Exact) (o : Option (Int × Int)) (flags deg cause : Nat) : Aligns s (s.feTap p step t o flags deg cause) := by
  unfold feTap
  extract_lets id g s1
  split
  · exact aligns_onlyRing (onlyRing_passUnselected ..)
  · have h1 : Aligns s s1 := aligns_onlyRing (onlyRing_putRingStream ..)
    split <;> exact h1.trans (aligns_onlyRing (onlyRing_ringAppend ..))

theorem aligns_pushFeOut (s : State) (p : Nat) (x : FeOut) : Aligns s (s.pushFeOut p x) := ⟨rfl, fun _ => rfl⟩

theorem aligns_deliver (s : State) (p : Nat) (t : Exact) (o : Smp) : Aligns s (s.deliver p t o) := by
  unfold deliver
  extract_lets f c st n ct ext ostep s0 e
  have h0 : Aligns s s0 := aligns_putFe rfl
  clear_value s0
  split
  · extract_lets s1 s2 s3
    have h3 : Aligns s s3 := (((h0.trans (aligns_gapOutput ..)).trans (aligns_feRuns ..)).trans (aligns_feTap ..)).trans (aligns_pushFeOut ..)
    clear_value s3
    split
    · exact (h3.trans (Aligns.trans (t := s3.putFe p { s3.fe p with outRise := e.fresh, outFall := e.fresh }) (aligns_putFe rfl) (aligns_setWatermark ..)))
    · exact h3
  · rename_i fill settle deg flags withheld s1 s2 s3 g _ _
    have h3 : Aligns s s3 := (((h0.trans (aligns_endGapRun ..)).trans (aligns_feRuns ..)).trans (aligns_feTap ..)).trans (aligns_pushFeOut ..)
    clear_value g s3
    split
    · exact h3
    · split
      · exact h3.trans (aligns_setWatermark ..)
      · have h4 := aligns_edgeSample s3 p ct (2 * b2n (deg != 0) + 4 * b2n settle + 8 * b2n o.overload + 16 * b2n fill) (edgeScale o.i) (edgeScale o.q) e g.outRise g.outFall
        generalize s3.edgeSample p ct (2 * b2n (deg != 0) + 4 * b2n settle + 8 * b2n o.overload + 16 * b2n fill) (edgeScale o.i) (edgeScale o.q) e g.outRise g.outFall = w at h4 ⊢
        exact (h3.trans h4).trans (aligns_putFe rfl)

theorem aligns_finalOutput (s : State) (p : Nat) (t : KTime) (c : FeCfg) (hist : List Smp) : Aligns s (s.finalOutput p t c hist).2 := by
  unfold finalOutput
  extract_lets f src starts T fade
  clear_value fade
  split
  split
  · exact aligns_putFe rfl
  · split
    extract_lets l mixIn o last s1
    have h1 : Aligns s s1 := aligns_putFe rfl
    clear_value s1
    dsimp only
    split
    · exact h1.trans (aligns_replanFades ..)
    · split
      · exact h1.trans (aligns_showFade ..)
      · exact h1

theorem aligns_decimate (s : State) (p : Nat) (t : Exact) (c : FeCfg) (x : Smp) : Aligns s (s.decimate p t c x) := by
  unfold decimate
  extract_lets f
  split
  · rename_i acc old sum s1 _
    have h1 : Aligns s s1 := aligns_putFe rfl
    clear_value s1
    split
    · exact h1.trans (aligns_deliver ..)
    · exact h1
  · split
    extract_lets s1
    have h1 : Aligns s s1 := by
      refine Aligns.trans (aligns_putFe ?_) (aligns_addObj ..)
      rfl
    clear_value s1
    split
    · exact h1
    · rename_i f1 _ z _
      extract_lets fir s2
      have h2 : Aligns s s2 := h1.trans (aligns_putFe rfl)
      split
      · exact h2
      · have h3 := aligns_finalOutput s2 p t.floor c fir.hist
        generalize s2.finalOutput p t.floor c fir.hist = w at h3 ⊢
        exact ((h2.trans h3).trans (aligns_setObj ..)).trans (aligns_deliver ..)

theorem aligns_mixStep (s : State) (p : Nat) (t : Exact) (c : FeCfg) (x : Smp) : Aligns s (s.mixStep p t c x) := by
  unfold mixStep
  extract_lets f fw po tuned r x1
  split
  extract_lets s1
  have h1 : Aligns s s1 := by
    refine Aligns.trans (aligns_putFe ?_) (aligns_addObj ..)
    rfl
  exact h1.trans (aligns_decimate ..)

theorem aligns_feAligned (s : State) (p : Nat) (it : Item) (settling : Bool) : Aligns s (s.feAligned p it settling) := by
  unfold feAligned
  extract_lets t f c events
  split
  · extract_lets y
    have h : Aligns s y := aligns_gapOutput ..
    split
    · exact h.trans (aligns_setWatermark ..)
    · exact h
  · rename_i s0 s1 f1 bind switched sw n _ s2 s3 _ x f3 _ _ _
    have h0 : Aligns s s0 := by
      simp only [s0]
      split
      · exact .refl s
      · exact (aligns_endGapRun ..).trans (aligns_startFe ..)
    have h1 : Aligns s s1 := by
      simp only [s1]
      split
      · exact h0
      · exact (h0.trans (aligns_resetFe ..)).trans (aligns_foldl _ _ (fun _ _ => aligns_noteAnchor ..) _)
    have h2 : Aligns s s2 := by
      refine h1.trans (aligns_putFe ?_)
      rfl
    have h3 : Aligns s s3 := h2.trans (aligns_rawEdge ..)
    clear_value s3
    split
    · exact h3.trans (aligns_mixStep ..)
    · split
      extract_lets s4
      have h4 : Aligns s s4 := by
        refine h3.trans (Aligns.trans (aligns_putFe ?_) (aligns_addObj ..))
        rfl
      clear_value s4
      split
      · exact h4
      · exact h4.trans (aligns_mixStep ..)

theorem aligns_setPromise (s : State) (b : Nat) (x : Bool) : Aligns s (s.setPromise b x) := by
  obtain ⟨d, q, h⟩ := setPromise_changes s b x
  exact aligns_of_same (by rw [h]; rfl) (by rw [h]; rfl)

theorem aligns_putAbutment (s : State) (p : Nat) (a : Abutment) : Aligns s (s.putAbutment p a) := ⟨rfl, fun _ => rfl⟩

theorem aligns_refreshAbutment (s : State) (p : Nat) : Aligns s (s.refreshAbutment p) := by
  unfold refreshAbutment
  extract_lets a g s0 s1 anyLag anyDrop
  have h0 : Aligns s s0 := by
    simp only [s0]
    split
    · exact aligns_of_same rfl rfl
    · exact .refl s
  have h1 : Aligns s s1 := ((h0.trans (aligns_putAbutment ..)).trans (aligns_setObj ..)).trans (aligns_setObj ..)
  exact (h1.trans (aligns_setPromise ..)).trans (aligns_setPromise ..)

/-! ### Input samples -/

theorem queue_of_aligns {s t : State} (h : Aligns s t) (p : Nat) : t.queue p = s.queue p := by rw [queue, h.queues, queue]

@[simp] theorem queue_putQueue (s : State) (p : Nat) (x : List Item) (q : Nat) : (s.putQueue p x).queue q = if q = p then x else s.queue q := by simp [putQueue, queue]

theorem takeItem_of_waits {s : State} {p : Nat} {it : Item} {r : List Item} (hq : s.queue p = it :: r) (hera : s.eraClear p it.era = false) : s.takeItem p = (none, s) := by
  rw [takeItem, hq]
  simp [hera]

theorem takeItem_of_sample {s : State} {p : Nat} {it : Item} {r : List Item} (hq : s.queue p = it :: r) (hera : s.eraClear p it.era = true) (hgap : it.gap = none)
    (hcount : it.count = 1) : s.takeItem p = (some it, s.putQueue p r) := by
  have hit : ({ it with count := 1 } : Item) = it := by rw [← hcount]
  rw [takeItem, hq]
  simp only [hera, Bool.not_true, Bool.false_eq_true, if_false, if_neg (show ¬(it.gap.isSome ∧ 1 < it.count) by simp [hgap]), hit]

/-- A sample that a front end takes joins the history, and the Deck works on what the aligner gives. -/
theorem takeSample_spec (s : State) (p : Nat) (it : Item) (hended : it.ended = false) (hgap : it.gap = none) (hheld : s.deckHeld = false) {r : List Item}
    (htake : s.takeItem p = (some it, s.putQueue p r)) {port : Fin 1024} (hport : port.val = p) :
    ∃ t, exec (.feInputSample port) s = .next t ∧ t.queue p = r ∧ (t.fe p).grid.inputs = (it :: (s.fe p).grid.inputs).take 4200 := by
  subst hport
  refine ⟨_, by rw [exec_feInputSample, execFeInputSample]; simp only [hheld, htake, hended, hgap, Bool.false_eq_true, if_false]; rfl, ?_⟩
  generalize hu : (s.putQueue port.val r).putFe port.val _ = u
  have hfe : (u.fe port.val).grid.inputs = (it :: (s.fe port.val).grid.inputs).take 4200 := by
    rw [← hu, fe_putFe, if_pos rfl]
    rfl
  have hqu : u.queue port.val = r := by
    rw [← hu]
    change (s.putQueue port.val r).queue port.val = r
    rw [queue_putQueue, if_pos rfl]
  have hend : ∀ t, Aligns u t → t.queue port.val = r ∧ (t.fe port.val).grid.inputs = (it :: (s.fe port.val).grid.inputs).take 4200 :=
    fun t h => ⟨(queue_of_aligns h _).trans hqu, (h.inputs _).trans hfe⟩
  refine hend _ (Aligns.trans ?_ (aligns_refreshAbutment ..))
  split
  · exact .refl u
  · exact Aligns.trans (aligns_putFe (by rfl)) (aligns_feAligned ..)

/-! ### Synchronising resets -/

theorem fes_relaySync (s : State) (ts : KTime) : ∃ x o, s.relaySync ts = (s.withSpan x).withOutbox o := by
  unfold relaySync
  split
  · exact ⟨s.span, s.outbox, rfl⟩
  · exact onlyPackets_trussBroadcast ..

/-- The first tick of SYSREF's grid at or after a tick. -/
theorem gridTick_spec (e phase : Nat) {per : Nat} (hper : 0 < per) : let c := e + (((phase : Int) - e) % (per : Int)).toNat
    e ≤ c ∧ c < e + per ∧ ((c : Int) - phase) % (per : Int) = 0 := by
  intro c
  have hnn := Int.emod_nonneg ((phase : Int) - e) (b := (per : Int)) (by omega)
  have hlt := Int.emod_lt_of_pos ((phase : Int) - e) (b := (per : Int)) (by omega)
  refine ⟨by omega, by omega, ?_⟩
  have hc : (c : Int) - phase = ((phase : Int) - e) % per - ((phase : Int) - e) := by
    simp only [c]
    omega
  rw [hc, Int.sub_emod, Int.emod_emod_of_dvd _ (Int.dvd_refl _), sub_self]
  exact Int.zero_emod _

theorem mem_scheduleReset (s : State) (ts : KTime) : ∃ r ∈ (s.scheduleReset ts).fes.resets, r.1 = ts := by
  unfold scheduleReset
  split
  case isTrue h =>
    obtain ⟨r, hr, heq⟩ := List.any_eq_true.mp h
    exact ⟨r, hr, by simpa using heq⟩
  case isFalse => exact ⟨(ts, false), List.mem_append_right _ (List.mem_singleton.mpr rfl), rfl⟩

end State

open State

/-- Settles O14: input samples, the schedule of synchronising resets and the end of pulses. -/
theorem frontEnds : Obligations.FrontEnds := by
  refine ⟨⟨fun s p it r hheld hq hera hgap hcount hended => ?_, fun s p it r hq hera => ?_, fun s p hq => ?_, fun s p hheld => ?_⟩,
    fun s T hdue hnew => ?_, fun s hon hlate => ?_, fun s hon hdue hper => ?_, fun s T hres hT hlt => ?_, fun s n => ?_⟩
  · obtain ⟨t, hexec, hqueue, hin⟩ := takeSample_spec s p.val it hended hgap hheld (takeItem_of_sample hq hera hgap hcount) rfl
    exact ⟨t, hexec, hqueue, hin, commandsKeepQueue _ _ _ hexec⟩
  · rw [exec_feInputSample, execFeInputSample, takeItem_of_waits hq hera]
    exact ite_self _
  · rw [exec_feInputSample, execFeInputSample, takeItem, hq]
    exact ite_self _
  · rw [exec_feInputSample, execFeInputSample]
    exact if_pos hheld
  · have hnone : (s.fes.resets.any fun r => r.1 == T) = false := by
      rw [List.any_eq_false]
      exact fun r hr => by simpa using hnew r hr
    obtain ⟨x, o, h⟩ := fes_relaySync ((s.withDue []).withFes { s.fes with resets := s.fes.resets ++ [(T, false)] }) T
    have hexec : exec .syncNow s = .next (((s.withDue []).withFes { s.fes with resets := s.fes.resets ++ [(T, false)] }).relaySync T) := by
      have hsched : (s.withDue []).scheduleReset T = (s.withDue []).withFes { s.fes with resets := s.fes.resets ++ [(T, false)] } := if_neg (by rw [show (s.withDue []).fes.resets = s.fes.resets from rfl, hnone]; exact Bool.false_ne_true)
      rw [exec_syncNow, execSyncNow, State.syncNow, hdue, ← hsched]
      simp
    refine ⟨_, hexec, ?_⟩
    rw [h]
    exact ⟨rfl, rfl, rfl⟩
  · rw [exec_syncLEdge, execSyncLEdge]
    simp [hon, hlate]
  · have hexec := exec_syncLEdge s
    rw [execSyncLEdge] at hexec
    simp only [hon, Bool.not_true, Bool.false_eq_true, if_false, if_neg (Nat.not_lt.mpr hdue)] at hexec
    refine ⟨_, hexec, s.ticks + s.obj Key.syncPinLead + (((s.obj Key.sysrefPhase : Int) - (s.ticks + s.obj Key.syncPinLead : Nat)) % (s.obj Key.sysrefPeriod : Int)).toNat, ?_⟩
    generalize hts : (s.ticks + s.obj Key.syncPinLead + (((s.obj Key.sysrefPhase : Int) - (s.ticks + s.obj Key.syncPinLead : Nat)) % (s.obj Key.sysrefPeriod : Int)).toNat) * tick = ts
    obtain ⟨x, o, h⟩ := fes_relaySync ((s.scheduleReset ts).withFes { (s.scheduleReset ts).fes with lastPinTs := ts }) ts
    rw [h]
    obtain ⟨hle, hlt, hgrid⟩ := gridTick_spec (s.ticks + s.obj Key.syncPinLead) (s.obj Key.sysrefPhase) hper
    exact ⟨hts ▸ rfl, hle, hlt, hgrid, (mem_scheduleReset s ts).imp fun _ h => ⟨h.1, by rw [h.2]⟩⟩
  · have hexec : exec .syncReset s = .next (((s.withFes { s.fes with resets := [(T, true)] }).setObj Key.syncLast T).bump Key.syncCount) := by
      rw [exec_syncReset, execSyncReset, hres]
      simp [hT]
    refine ⟨_, hexec, ?_, ?_, rfl, rfl, ?_⟩
    · rw [obj_bump, if_neg (by decide), obj_setObj, if_pos rfl, lenOf_syncLast]
      exact Nat.mod_eq_of_lt hlt
    · rw [obj_bump, if_pos rfl, lenOf_syncCount, obj_setObj, if_neg (by decide)]
      rfl
    · exact KeepsBut.trans (t := (s.withFes { s.fes with resets := [(T, true)] }).setObj Key.syncLast T)
        (KeepsBut.trans (t := s.withFes { s.fes with resets := [(T, true)] }) (keepsBut_of_dict rfl) (keepsBut_setObj (by simp) _ _)) (keepsBut_bump (by simp) _)
  · refine ⟨_, exec_trigoPulseEnd .., fun q => ?_, rfl⟩
    simp [List.mem_filter]

end Sys2Proof.Machine
end

section
/-! The builders of products, spectrogram rows, switching outputs and front-end controls (06 R158 to R180). -/

namespace Sys2Proof.Machine

namespace State

/-! ### Movers started by an event -/

/-- The counters of starts that a mover missed. -/
def isStartKey (k : Nat) : Prop := ∃ m < 16, k = Key.mvStartOverruns m

/-- Movers started: their states and their counters of missed starts. -/
theorem moverEvent_spec (s : State) (code : Nat) : (∃ d x, s.moverEvent code = (s.withDict d).withMovers x) ∧ KeepsBut isStartKey s (s.moverEvent code) := by
  have hfold : ∀ (l : List Nat) (u : State), (∀ m ∈ l, m < 16) → (∃ d x, l.foldl startMover u = (u.withDict d).withMovers x) ∧ KeepsBut isStartKey u (l.foldl startMover u) := by
    intro l
    induction l with
    | nil => exact fun u _ => ⟨⟨u.dict, u.movers, rfl⟩, .refl u⟩
    | cons m l ih =>
      intro u hl
      have h1 : (∃ d x, u.startMover m = (u.withDict d).withMovers x) ∧ KeepsBut isStartKey u (u.startMover m) := by
        unfold startMover
        extract_lets x t
        split
        · exact ⟨⟨(u.bump (Key.mvStartOverruns m)).dict, u.movers, rfl⟩, keepsBut_bump ⟨m, hl m List.mem_cons_self, rfl⟩ u⟩
        · unfold settleMover
          extract_lets y
          split
          · exact ⟨⟨u.dict, _, rfl⟩, keepsBut_of_dict rfl⟩
          · exact ⟨⟨u.dict, _, rfl⟩, keepsBut_of_dict rfl⟩
      obtain ⟨⟨d, x, h⟩, hk⟩ := h1
      obtain ⟨⟨d', x', h'⟩, hk'⟩ := ih (u.startMover m) fun n hn => hl n (List.mem_cons_of_mem m hn)
      exact ⟨⟨d', x', h'.trans (by rw [h]; rfl)⟩, hk.trans hk'⟩
  exact hfold _ s fun m hm => List.mem_range.mp (List.mem_of_mem_filter hm)

/-! ### Builders -/

@[simp] theorem product_putProduct (s : State) (k n : Nat) (x : Product) : (s.putProduct k n x).product k n = x := by simp [putProduct, product]

@[simp] theorem spectro_putSpectro (s : State) (g : Nat) (x : Spectro) : (s.putSpectro g x).spectro g = x := by simp [putSpectro, spectro]

theorem rowsAt_density {ix : Nat} (h : 0x2A00 ≤ ix ∧ ix ≤ 0x2A3F) : rowsAt ix = rowsDensity := by
  unfold rowsAt
  repeat rw [if_neg (by omega)]
  rw [if_pos h]

theorem rowsAt_crossPower {ix : Nat} (h : 0x2B00 ≤ ix ∧ ix ≤ 0x2CFF) : rowsAt ix = rowsCrossPower := by
  unfold rowsAt
  repeat rw [if_neg (by omega)]
  rw [if_pos h]

/-- A write pointer and a count of dumps have 8 bytes. -/
theorem lenOf_prodKey (kind : BuilderKind) (n : Fin kind.count) {j : Nat} (hj : j = 9 ∨ j = 10) : lenOf (prodKey kind.code n.val j) = 8 := by
  obtain ⟨i, hi⟩ := n
  cases kind with
  | dens =>
    have hi : i < 64 := hi
    change lenOf (prodKey 1 i j) = 8
    have hk : prodKey 1 i j / 256 = 0x2A00 + i ∧ prodKey 1 i j % 256 = j := by unfold prodKey prodBase; simp only [if_true]; omega
    obtain ⟨hq, hr⟩ := hk
    rcases hj with rfl | rfl
    · exact lenOf_page rowsDensity 0x2A00 64 9 8 _ (rowsAt_density (by omega)) (by omega) hr (by omega) (by omega) (by decide)
    · exact lenOf_page rowsDensity 0x2A00 64 10 8 _ (rowsAt_density (by omega)) (by omega) hr (by omega) (by omega) (by decide)
  | xp =>
    have hi : i < 512 := hi
    change lenOf (prodKey 2 i j) = 8
    have hk : prodKey 2 i j / 256 = 0x2B00 + i ∧ prodKey 2 i j % 256 = j := by unfold prodKey prodBase; simp only [OfNat.ofNat_ne_one, if_false, if_true]; omega
    obtain ⟨hq, hr⟩ := hk
    rcases hj with rfl | rfl
    · exact lenOf_page rowsCrossPower 0x2B00 512 9 8 _ (rowsAt_crossPower (by omega)) (by omega) hr (by omega) (by omega) (by decide)
    · exact lenOf_page rowsCrossPower 0x2B00 512 10 8 _ (rowsAt_crossPower (by omega)) (by omega) hr (by omega) (by omega) (by decide)
  | int =>
    have hi : i < 256 := hi
    change lenOf (prodKey 3 i j) = 8
    have hk : prodKey 3 i j / 256 = 0x2D00 + i ∧ prodKey 3 i j % 256 = j := by
      unfold prodKey prodBase
      rw [if_neg (by decide), if_neg (by decide)]
      omega
    obtain ⟨hq, hr⟩ := hk
    rcases hj with rfl | rfl
    · exact lenOf_page rowsIntegrators 0x2D00 256 9 8 _ (rowsAt_Integrators _ (by omega)) (by omega) hr (by omega) (by omega) (by decide)
    · exact lenOf_page rowsIntegrators 0x2D00 256 10 8 _ (rowsAt_Integrators _ (by omega)) (by omega) hr (by omega) (by omega) (by decide)

theorem not_isStartKey_prodKey (kind : BuilderKind) (n j : Nat) (hj : j < 256) : ¬isStartKey (prodKey kind.code n j) := by
  rintro ⟨m, hm, h⟩
  unfold prodKey Key.mvStartOverruns at h
  have hbase : 0x2A00 ≤ prodBase kind.code := by cases kind <;> decide
  omega

/-- A product whose dump still runs advances nothing. -/
theorem advanceTo_of_running {s : State} {k n tb td : Nat} (hk : k ≠ 1) (hb : tb < s.dumpBoundary k n (s.product k n).start) (fuel : Nat) : s.advanceTo k n tb td fuel = s := by
  cases fuel with
  | zero => rfl
  | succ fuel =>
    unfold advanceTo
    simp [hk, Nat.not_le.mpr hb]

theorem takeSingle_of_rejected {s : State} {n : Nat} {f : Frame} (hstart : (s.product 3 n).start ≤ f.t)
    (hb : f.t < s.dumpBoundary 3 n (s.product 3 n).start) (hgap : f.gap = none) (hrej : s.rejects 3 n f = true) :
    s.takeSingle 3 n f = (s.putProduct 3 n { s.product 3 n with nextX := f.t + 1 }).bump (Key.intFramesRejected n) := by
  have hp := product_putProduct s 3 n { s.product 3 n with nextX := f.t + 1 }
  have hkey : prodKey 3 n 0x0B = Key.intFramesRejected n := by unfold prodKey prodBase Key.intFramesRejected; simp; omega
  unfold takeSingle
  extract_lets p s1 s2
  have hs1 : s1 = s.putProduct 3 n { s.product 3 n with nextX := f.t + 1 } := advanceTo_of_running (by decide) (by rw [hp]; exact hb) _
  have hs2 : s2 = s1 := if_neg (by decide)
  rw [hs2, hs1, if_neg (by rw [hp]; exact Nat.not_lt.mpr hstart), if_neg (by simp [hgap]), hkey]
  exact if_pos hrej

/-! ### Writes to memory -/

/-- A write enters its queue, or is lost and counted: no read is, and no bank enters in-order mode. -/
theorem keepsBut_enqueue_write (s : State) (o : Owner) (cls a n : Nat) (d : Bytes) (mask : List Bool) : KeepsBut (· = Key.memLostWrites) s (s.enqueue o cls true a n d mask) := by
  have hlose : ∀ (u : State) (r : MemReq), r.write = true → KeepsBut (· = Key.memLostWrites) u (u.loseReq r) := fun u r hr => by
    unfold loseReq
    rw [if_pos hr]
    unfold loseWrite
    extract_lets m told
    have htold : KeepsBut (· = Key.memLostWrites) u told := keepsBut_of_dict rfl
    clear_value told
    split
    · exact htold
    · split
      · exact htold.trans (keepsBut_bump (P := (· = Key.memLostWrites)) rfl _)
      · exact keepsBut_bump (P := (· = Key.memLostWrites)) rfl _
    · exact keepsBut_bump (P := (· = Key.memLostWrites)) rfl _
  unfold enqueue
  extract_lets r m s0
  have h0 : KeepsBut (· = Key.memLostWrites) s s0 := keepsBut_of_dict rfl
  split
  · exact h0.trans (hlose s0 r rfl)
  · split
    · split
      · exact h0.trans (keepsBut_of_dict rfl)
      · exact h0.trans (hlose s0 r rfl)
    · extract_lets c b row q clash enters s1
      rw [if_neg (by simp [enters, clash])]
      exact h0.trans (keepsBut_of_dict rfl)

theorem keepsBut_memWrite (s : State) (o : Owner) (cls a : Nat) (d : Bytes) : KeepsBut (· = Key.memLostWrites) s (s.memWrite o cls a d) :=
  keepsBut_foldl _ _ (fun _ _ => keepsBut_enqueue_write _ _ _ _ _ _ _) s

/-! ### Switching outputs and front-end controls -/

theorem refreshSw_spec (s : State) {n : Nat} (hn : n < 8) :
    (s.refreshSw n).obj (Key.swPhase n) = (match s.swPhaseAt n s.time with | some x => x.1 % 256 | none => 255) ∧
      bit (s.refreshSw n).prods.swPins n = (match s.swPhaseAt n s.time with | some x => bit (s.objAt (Key.swLevels n) s.time) x.1 | none => false) ∧
      s.refreshSw n = { s with dict := (s.refreshSw n).dict, prods := (s.refreshSw n).prods } ∧ KeepsObjects [Key.swPhase n] s (s.refreshSw n) := by
  have hset : ∀ (ph : Nat) (level : Bool), let t := (s.setObj (Key.swPhase n) ph).withProds { s.prods with swPins := setBit s.prods.swPins n level }
      t.obj (Key.swPhase n) = ph % 256 ∧ bit t.prods.swPins n = level ∧ t = { s with dict := t.dict, prods := t.prods } ∧ KeepsObjects [Key.swPhase n] s t := fun ph level => by
    refine ⟨?_, ?_, rfl, KeepsBut.trans (t := s.setObj (Key.swPhase n) ph) (keepsBut_setObj (by simp) s ph) (keepsBut_of_dict rfl)⟩
    · rw [obj_withProds, obj_setObj, if_pos rfl, lenOf_swPhase n hn, Nat.pow_one]
    · exact (bit_setBit ..).trans (if_pos rfl)
  unfold refreshSw
  cases s.swPhaseAt n s.time with
  | none => exact hset 0xFF false
  | some x => exact hset x.1 _

/-- The bits that a mask names come from the value, the others stand. -/
theorem bit_masked {lv value mask b : Nat} (hm : mask < 2 ^ 32) (hb : b < 32) :
    bit (((lv &&& (2 ^ 32 - 1 - mask)) ||| (value &&& mask)) % 2 ^ 32) b = if bit mask b then bit value b else bit lv b := by
  have hinv : Nat.testBit (2 ^ 32 - 1 - mask) b = !Nat.testBit mask b := by
    rw [Nat.sub_sub, Nat.add_comm 1, Nat.testBit_two_pow_sub_succ hm]
    simp [hb]
  simp only [bit, Nat.testBit_mod_two_pow, hb, decide_true, Bool.true_and, Nat.testBit_or, Nat.testBit_and, hinv]
  by_cases h : mask.testBit b = true <;> simp [h]

/-- The last entry of a schedule that runs once. -/
theorem fectlCatchUp_of_last {s : State} {e : Nat} (hnext : s.fectlNextTime = some e) (hle : e ≤ s.ticks) (hpend : s.fectlPending e = false)
    (hlast : s.prods.fectlNext + 1 = s.obj Key.fectlCount) (hmode : s.obj Key.fectlMode = 0) (fuel : Nat) :
    s.fectlCatchUp (fuel + 2) = s.fectlStep ∧ s.fectlStep.prods.fectlNext = s.prods.fectlNext + 1 ∧
      (∀ b < 32, bit (s.fectlStep.obj Key.fectlLevel) b = (if bit (fectlEntry (s.obj Key.fectlTable) s.prods.fectlNext).2.1 b
        then bit (fectlEntry (s.obj Key.fectlTable) s.prods.fectlNext).2.2 b else bit (s.obj Key.fectlLevel) b)) ∧
      s.fectlStep = { s with dict := s.fectlStep.dict, prods := s.fectlStep.prods, fes := s.fectlStep.fes } ∧ KeepsObjects [Key.fectlLevel] s s.fectlStep := by
  have hmask : (fectlEntry (s.obj Key.fectlTable) s.prods.fectlNext).2.1 < 2 ^ 32 := Nat.mod_lt _ (by decide)
  obtain ⟨v, x, hstep, hv⟩ : ∃ v x, s.fectlStep = ((s.withFes x).setObj Key.fectlLevel v).withProds { s.prods with fectlNext := s.prods.fectlNext + 1 } ∧
      v = ((s.obj Key.fectlLevel &&& (2 ^ 32 - 1 - (fectlEntry (s.obj Key.fectlTable) s.prods.fectlNext).2.1)) |||
        ((fectlEntry (s.obj Key.fectlTable) s.prods.fectlNext).2.2 &&& (fectlEntry (s.obj Key.fectlTable) s.prods.fectlNext).2.1)) := by
    have hset : ∀ lv v T, ∃ x, s.setFectl lv v T = (s.withFes x).setObj Key.fectlLevel v := fun _ _ _ => ⟨_, rfl⟩
    obtain ⟨x, hx⟩ := hset (s.obj Key.fectlLevel) ((s.obj Key.fectlLevel &&& (2 ^ 32 - 1 - (fectlEntry (s.obj Key.fectlTable) s.prods.fectlNext).2.1)) |||
      ((fectlEntry (s.obj Key.fectlTable) s.prods.fectlNext).2.2 &&& (fectlEntry (s.obj Key.fectlTable) s.prods.fectlNext).2.1)) ((s.fectlNextTime.getD 0) * tick)
    refine ⟨_, x, ?_, rfl⟩
    rw [← hx]
    simp only [fectlStep, hmode, OfNat.zero_ne_ofNat, zero_ne_one, and_false, if_false]
    rfl
  have hkeep : KeepsObjects [Key.fectlLevel] s s.fectlStep := by
    rw [hstep]
    exact KeepsBut.trans (t := s.withFes x) (keepsBut_of_dict rfl) (KeepsBut.trans (keepsBut_setObj (P := (· ∈ [Key.fectlLevel])) (by simp) (s.withFes x) v) (keepsBut_of_dict rfl))
  have hcount : s.fectlStep.obj Key.fectlCount = s.obj Key.fectlCount := hkeep _ (by decide)
  have hprods : s.fectlStep.prods.fectlNext = s.prods.fectlNext + 1 := by rw [hstep]; rfl
  refine ⟨?_, hprods, fun b hb => ?_, ?_, hkeep⟩
  · have hend : s.fectlStep.fectlNextTime = none := if_pos (by rw [hcount, hprods, hlast])
    rw [fectlCatchUp, hnext]
    simp only [hle, hpend, Bool.not_false, and_self, if_true]
    rw [fectlCatchUp, hend]
  · rw [hstep, obj_withProds, obj_setObj, if_pos rfl, lenOf_fectlLevel, hv]
    exact bit_masked hmask hb
  · rw [hstep]
    rfl

end State

open State

/-- Settles O19: what each command of the products does, case by case. -/
theorem productCommands : Obligations.ProductCommands := by
  refine ⟨⟨fun s kind n f hheld hk hon hin => ?_, fun s n hheld hon => ?_, fun s n f hon hstart hb hgap hrej => ?_, fun s kind n r rest hun hout hera hnext => ?_, fun s kind n => rfl⟩,
    fun s g a b era tr later hheld hon hbind htr hera => ?_, fun s g r rest hun hrow hhead hera => ?_, fun s n => ⟨_, exec_swBoundary .., refreshSw_spec s n.isLt⟩,
    fun s e hnext hle hpend hlast hmode => ?_⟩
  · refine (exec_productFrame s kind n).trans ?_
    unfold execProductFrame
    rw [if_neg (by simp [hheld])]
    extract_lets k n' s1 p
    rw [if_neg (by simp [p, s1, k, n', hon]), if_neg hk]
    exact (by rw [hin] : (match s1.viewInput (s1.prodX k n' p.start).1 (s1.prodX k n' p.start).2 p.nextX with
      | none => Host.Outcome.next s1
      | some f => Host.Outcome.next (s1.takeSingle k n' f)) = _)
  · refine (exec_productFrame s .xp n).trans ?_
    unfold execProductFrame
    simp [hheld, hon, BuilderKind.code]
  · rw [takeSingle_of_rejected hstart hb hgap hrej]
    refine ⟨?_, ?_, ?_⟩
    · rw [obj_bump, if_pos rfl, lenOf_intFramesRejected n.val n.isLt]
      rfl
    · rw [show ∀ (u : State) (k : Nat), (u.bump k).product 3 n.val = u.product 3 n.val from fun _ _ => rfl, product_putProduct]
    · exact KeepsBut.trans (t := s.putProduct 3 n.val { s.product 3 n.val with nextX := f.t + 1 }) (keepsBut_of_dict rfl) (keepsBut_bump (by simp) _)
  · obtain ⟨⟨d, x, hform⟩, hkeep⟩ := moverEvent_spec ((((s.putProduct kind.code n.val { s.product kind.code n.val with unacked := rest }).setObj (prodKey kind.code n.val 9) r.next).bump
      (prodKey kind.code n.val 10)).raiseEvent 7) (prodStart kind.code n.val)
    have hexec : exec (.productRecordAcked kind n) s = .next (((((s.putProduct kind.code n.val { s.product kind.code n.val with unacked := rest }).setObj
        (prodKey kind.code n.val 9) r.next).bump (prodKey kind.code n.val 10)).raiseEvent 7).moverEvent (prodStart kind.code n.val)) := by
      refine (exec_productRecordAcked s kind n).trans ?_
      unfold execProductRecordAcked
      simp [hun, hout, hera]
    have hne : prodKey kind.code n.val 9 ≠ prodKey kind.code n.val 10 := by unfold prodKey; omega
    refine ⟨_, hexec, ?_, ?_, ?_, ?_⟩
    · have hprod : ∀ u : State, (∃ d p x, u = (((s.putProduct kind.code n.val { s.product kind.code n.val with unacked := rest }).withDict d).withPev p).withMovers x) →
          (u.product kind.code n.val).unacked = rest := fun u ⟨d, p, x, h⟩ => by
        rw [h]
        exact congrArg Product.unacked (product_putProduct s kind.code n.val { s.product kind.code n.val with unacked := rest })
      obtain ⟨p, hp⟩ := raiseEvent_changes (((s.putProduct kind.code n.val { s.product kind.code n.val with unacked := rest }).setObj (prodKey kind.code n.val 9) r.next).bump
        (prodKey kind.code n.val 10)) 7
      exact hprod _ ⟨d, p, x, by rw [hform, hp]; rfl⟩
    · rw [hkeep _ (not_isStartKey_prodKey kind n.val 9 (by omega)), obj_raiseEvent, obj_bump, if_neg hne, obj_setObj, if_pos rfl, lenOf_prodKey kind n (.inl rfl)]
      exact Nat.mod_eq_of_lt hnext
    · rw [hkeep _ (not_isStartKey_prodKey kind n.val 10 (by omega)), obj_raiseEvent, obj_bump, if_pos rfl, lenOf_prodKey kind n (.inr rfl), obj_setObj, if_neg hne.symm]
      rfl
    · rw [hform]
      exact raiseEvent_count _ 7
  · have hexec := exec_spectrogramTrace s g
    unfold execSpectrogramTrace at hexec
    simp only [hheld, Bool.false_eq_true, if_false, hon, hbind, Bool.and_true, htr, hera, Option.map_some, ne_eq, not_true_eq_false, Option.getD_some] at hexec
    have hkeep : ∀ (o : Owner) (a1 a2 : Nat) (b1 b2 : Bytes) (x : Spectro), KeepsObjects [Key.memLostWrites] s (((s.memWrite o 2 a1 b1).memWrite o 2 a2 b2).putSpectro g.val x) :=
      fun o a1 a2 b1 b2 x => KeepsBut.trans (t := (s.memWrite o 2 a1 b1).memWrite o 2 a2 b2)
        (((keepsBut_memWrite s o 2 a1 b1).trans (keepsBut_memWrite _ o 2 a2 b2)).mono fun k h => List.mem_singleton.mpr h) (keepsBut_of_dict rfl)
    refine ⟨_, hexec, ?_⟩
    dsimp only
    rw [spectro_putSpectro]
    exact ⟨rfl, rfl, rfl, by simp, hkeep _ _ _ _ _ _⟩
  · obtain ⟨⟨d, x, hform⟩, hkeep⟩ := moverEvent_spec (((s.putSpectro g.val { s.spectro g.val with unacked := rest }).setObj (Key.spgSeq g.val) (r.trace + 1)).raiseEvent 7) (0x2000 + g.val)
    have hexec : exec (.spectrogramRowAcked g) s = .next ((((s.putSpectro g.val { s.spectro g.val with unacked := rest }).setObj (Key.spgSeq g.val) (r.trace + 1)).raiseEvent 7).moverEvent
        (0x2000 + g.val)) := by
      rw [exec_spectrogramRowAcked, execSpectrogramRowAcked]
      simp [hun, hrow, hhead, hera]
    refine ⟨_, hexec, ?_, ?_, ?_⟩
    · rw [hkeep _ (by rintro ⟨m, hm, h⟩; unfold Key.spgSeq Key.mvStartOverruns at h; omega), obj_raiseEvent, obj_setObj, if_pos rfl, lenOf_spgSeq g.val g.isLt]
      rfl
    · obtain ⟨p, hp⟩ := raiseEvent_changes ((s.putSpectro g.val { s.spectro g.val with unacked := rest }).setObj (Key.spgSeq g.val) (r.trace + 1)) 7
      rw [hform, hp]
      exact congrArg Spectro.unacked (spectro_putSpectro s g.val { s.spectro g.val with unacked := rest })
    · rw [hform]
      exact raiseEvent_count _ 7
  · obtain ⟨hcatch, hspec⟩ := fectlCatchUp_of_last hnext hle hpend hlast hmode 8190
    exact ⟨_, (exec_fectlEvent s).trans (congrArg Host.Outcome.next hcatch), hspec⟩

end Sys2Proof.Machine
end

section
/-! What extraction and the closing of segments touch (08 R228, R234; 11 R315, R316). -/

namespace Sys2Proof.Machine

namespace State

/-! ### Segments that close -/

/-- Closing segments changes the recorder and its count of waiting manifests. -/
def OnlySegments (s t : State) : Prop := (∃ d r, t = (s.withDict d).withRecd r) ∧ KeepsBut (fun k => k = Key.recSignQueue) s t

theorem OnlySegments.refl (s : State) : OnlySegments s s := ⟨⟨s.dict, s.recd, rfl⟩, .refl s⟩

theorem OnlySegments.trans {s t u : State} (h : OnlySegments s t) (h' : OnlySegments t u) : OnlySegments s u := by
  obtain ⟨⟨d, r, rfl⟩, hk⟩ := h
  obtain ⟨⟨d', r', rfl⟩, hk'⟩ := h'
  exact ⟨⟨d', r', rfl⟩, hk.trans hk'⟩

theorem onlySegments_withRecd (s : State) (r : Recorder) : OnlySegments s (s.withRecd r) := ⟨⟨s.dict, r, rfl⟩, keepsBut_of_dict rfl⟩

theorem onlySegments_putSegments (s : State) (l : List Segment) : OnlySegments s (s.putSegments l) :=
  (onlySegments_withRecd s { s.recd with segments := l }).trans
    ⟨⟨((s.withRecd { s.recd with segments := l }).setObj Key.recSignQueue (l.filter fun (x : Segment) => x.stage == 1).length).dict, { s.recd with segments := l }, rfl⟩,
      keepsBut_setObj (P := fun k => k = Key.recSignQueue) rfl (s.withRecd { s.recd with segments := l }) _⟩

theorem onlySegments_closeSegment (s : State) (x : Segment) (cause : Nat) : OnlySegments s (s.closeSegment x cause) := by
  unfold closeSegment
  exact (onlySegments_withRecd s _).trans (onlySegments_putSegments _ _)

theorem onlySegments_foldl {α : Type} (l : List α) (f : State → α → State) (h : ∀ s x, OnlySegments s (f s x)) (s : State) : OnlySegments s (l.foldl f s) := by
  induction l generalizing s with
  | nil => exact .refl s
  | cons x l ih => exact (h s x).trans (ih _)

theorem onlySegments_closeDue (s : State) : OnlySegments s s.closeDue :=
  onlySegments_foldl _ _ (fun y x => by
    split
    · exact onlySegments_closeSegment ..
    · exact .refl y) s

/-! ### Extraction -/

theorem onlyRequests_takeRead (s : State) (o : Owner) (a n : Nat) : OnlyRequests s (s.takeRead o a n).2 := onlyRequests_withMem s rfl

theorem onlyRequests_takeReturned (s : State) (r : Record) (x : RecStream) : OnlyRequests s (s.takeReturned r x).2 := by
  unfold takeReturned
  split
  · exact .refl s
  · rename_i b hb
    extract_lets id o a
    split
    · exact .refl s
    · have hread := onlyRequests_takeRead s o a 4096
      generalize s.takeRead o a 4096 = p at hread ⊢
      obtain ⟨⟨img, lost⟩, s1⟩ := p
      dsimp only
      split
      · exact hread
      · split <;> exact hread

theorem onlyRequests_extractOn (s : State) (r : Record) (x : RecStream) (fuel : Nat) : OnlyRequests s (s.extractOn r x fuel).2 := by
  induction fuel generalizing s x with
  | zero => exact .refl s
  | succ fuel ih =>
    unfold extractOn
    extract_lets id stop past
    split
    · exact .refl s
    · split
      · extract_lets x1
        dsimp only
        split
        · exact .refl s
        · exact ih s _
      · extract_lets x1
        dsimp only
        split
        · exact .refl s
        · exact onlyRequests_memRead ..
      · exact .refl s
      · split
        · exact .refl s
        · exact .refl s

/-- What one stream of a record takes and reads. -/
def extractOne (r : Record) (a : List RecStream × State) (x : RecStream) : List RecStream × State :=
  let x0 := { x with format := if x.count = 0 ∧ x.reading.isNone then a.2.formatOf x.port r.trigger x.fe else x.format }
  let p := a.2.takeReturned r x0
  let q := p.2.extractOn r p.1 4096
  (a.1 ++ [q.1], q.2)

/-- What every stream of a record takes and reads. -/
def extractStreams (s : State) (r : Record) : List RecStream × State := r.streams.foldl (extractOne r) ([], s)

theorem extractOne_spec (r : Record) (a : List RecStream × State) (x : RecStream) :
    (extractOne r a x).1.length = a.1.length + 1 ∧ OnlyRequests a.2 (extractOne r a x).2 := by
  refine ⟨?_, (onlyRequests_takeReturned ..).trans (onlyRequests_extractOn ..)⟩
  simp [extractOne]

theorem foldl_extractOne_spec (r : Record) (l : List RecStream) (a : List RecStream × State) :
    (l.foldl (extractOne r) a).1.length = a.1.length + l.length ∧ OnlyRequests a.2 (l.foldl (extractOne r) a).2 := by
  induction l generalizing a with
  | nil => exact ⟨rfl, .refl _⟩
  | cons x l ih =>
    obtain ⟨hlen, hreq⟩ := extractOne_spec r a x
    obtain ⟨ihlen, ihreq⟩ := ih (extractOne r a x)
    exact ⟨by rw [List.foldl_cons, ihlen, hlen, List.length_cons]; omega, hreq.trans ihreq⟩

theorem extractStreams_spec (s : State) (r : Record) : (s.extractStreams r).1.length = r.streams.length ∧ OnlyRequests s (s.extractStreams r).2 := by
  obtain ⟨hlen, hreq⟩ := foldl_extractOne_spec r r.streams ([], s)
  exact ⟨hlen.trans (Nat.zero_add _), hreq⟩

theorem extract_eq (s : State) (r : Record) : s.extract r =
    if r.fixed ∧ (s.extractStreams r).1.all (fun x => streamDone { r with streams := (s.extractStreams r).1 } x ((s.extractStreams r).2.updRecord { r with streams := (s.extractStreams r).1 }))
    then ((s.extractStreams r).2.updRecord { r with streams := (s.extractStreams r).1 }).assemble { r with streams := (s.extractStreams r).1 }
    else (s.extractStreams r).2.updRecord { r with streams := (s.extractStreams r).1 } := by
  unfold extract extractStreams
  generalize hf : (fun (a : List RecStream × State) (x : RecStream) => _) = f
  have hone : f = extractOne r := by
    subst hf
    funext a x
    unfold extractOne
    extract_lets x0 p q
    generalize hp : a.2.takeReturned r x0 = p'
    obtain ⟨x1, y1⟩ := p'
    dsimp only
    unfold q p
    rw [hp]
  rw [hone]

/-! ### Records that are replaced -/

theorem updRecord_updRecord (s : State) {r r' : Record} (hc : r.ctx = r'.ctx) (hn : r.number = r'.number) : (s.updRecord r).updRecord r' = s.updRecord r' := by
  refine congrArg s.withAcq (congrArg (fun l => { s.acq with records := l }) ?_)
  refine (List.map_map ..).trans (List.map_congr_left fun y _ => ?_)
  by_cases hy : y.ctx = r.ctx ∧ y.number = r.number
  · simp [hy, hc, hn]
  · rw [hc, hn] at hy
    simp [hc, hn, hy]

/-- A record that is extracted keeps its window and its staging space, and as many streams. -/
theorem extract_spec (s : State) (r : Record) : ∃ xs flags state mstatus results, xs.length = r.streams.length ∧ ∃ d m, s.extract r =
    ((s.updRecord { r with streams := xs, flags := flags, state := state, mstatus := mstatus, results := results }).withDict d).withMem m := by
  obtain ⟨hlen, ⟨d, m, hform, -⟩, -, -⟩ := extractStreams_spec s r
  rw [extract_eq]
  generalize s.extractStreams r = p at hlen hform ⊢
  obtain ⟨xs, s1⟩ := p
  dsimp only at hlen hform ⊢
  subst hform
  split
  · unfold assemble
    extract_lets flags early r1 s1 s2
    have hs2 : OnlyRequests s1 s2 := by
      unfold s2
      split
      · exact onlyRequests_memWrite ..
      · exact .refl _
    obtain ⟨⟨d2, m2, hform2, -⟩, -, -⟩ := hs2
    obtain ⟨d3, h3⟩ := refreshAcq_changes s2
    refine ⟨xs, r1.flags, r1.state, r1.mstatus, r1.results, hlen, d3, m2, ?_⟩
    have hs1 : s1 = ((s.updRecord r1).withDict d).withMem m := congrArg (fun u => (u.withDict d).withMem m) (updRecord_updRecord s (r := { r with streams := xs }) (r' := r1) rfl rfl)
    clear_value s2 s1
    rw [h3, hform2, hs1]
    rfl
  · exact ⟨xs, r.flags, r.state, r.mstatus, r.results, hlen, d, m, rfl⟩

end State
end Sys2Proof.Machine
end

section
/-! The record pipeline (08 R231, R234, R240). -/

namespace Sys2Proof.Machine

namespace State

theorem record?_eq_some {s : State} {c n : Nat} {r : Record} (h : s.record? c n = some r) : r ∈ s.acq.records ∧ r.ctx = c ∧ r.number = n := by
  have hp := List.find?_some h
  simp only [Bool.and_eq_true, beq_iff_eq] at hp
  exact ⟨List.mem_of_find?_eq_some h, hp⟩

/-- The record that waits for staging space is one of the records. -/
theorem stageNext_mem {s : State} {r : Record} (h : s.stageNext = some r) : r ∈ s.acq.records := List.mem_of_find?_eq_some h

/-- A record that is extracted is found with its window and staging space. -/
theorem record?_extract {s : State} {r r0 : Record} (hmem : r0 ∈ s.acq.records) (hc : r0.ctx = r.ctx) (hn : r0.number = r.number) :
    ∃ r', (s.extract r).record? r.ctx r.number = some r' ∧ r'.stage = r.stage ∧ r'.start = r.start ∧ r'.stop = r.stop ∧ r'.trigger = r.trigger ∧ r'.streams.length = r.streams.length := by
  obtain ⟨xs, flags, state, mstatus, results, hlen, d, m, h⟩ := extract_spec s r
  refine ⟨{ r with streams := xs, flags := flags, state := state, mstatus := mstatus, results := results }, ?_, rfl, rfl, rfl, rfl, hlen⟩
  rw [h]
  exact record?_updRecord_of_mem (r' := { r with streams := xs, flags := flags, state := state, mstatus := mstatus, results := results }) hmem hc hn

/-- A record for no destination, in its turn. -/
def keptHere (r : Record) : Record := { r with placed := true, acked := true, location := 0 }

theorem placeRecord_of_none {s : State} {r : Record} (hstate : r.state = 2) (hplaced : r.placed = false) (hturn : s.inTurn r = true) (hkind : s.objAt (Key.ctxDestKind r.ctx) r.trigger = 0) :
    s.placeRecord r = s.updRecord (keptHere r) := by
  unfold placeRecord
  simp [hstate, hplaced, hturn, hkind, keptHere]

/-- A record that becomes COMPLETE while no completion ring is set up. -/
def completed (r : Record) : Record := { r with state := 3, stage := none, streams := r.streams.map fun (x : RecStream) => { x with data := [], runs := [] } }

theorem completeRecord_of_no_ring {s : State} (r : Record) (h : s.obj Key.acqDoneSize = 0) :
    s.completeRecord r = ((((s.updRecord (completed r)).bump (Key.ctxCompleted r.ctx)).addObj Key.acqMissing (b2n (bit r.flags 5))).refreshAcq).closeDue := by
  unfold completeRecord
  dsimp only
  rw [if_pos h]
  rfl

/-- A record that completes without a ring is COMPLETE, frees its space and is counted. -/
theorem completeRecord_spec {s : State} {r : Record} (hc : r.ctx < 1024) (hr : s.record? r.ctx r.number = some r) (h : s.obj Key.acqDoneSize = 0) :
    (s.completeRecord r).record? r.ctx r.number = some (completed r) ∧
      (s.completeRecord r).obj (Key.ctxCompleted r.ctx) = (s.obj (Key.ctxCompleted r.ctx) + 1) % 2 ^ 64 ∧ (s.completeRecord r).mem = s.mem := by
  rw [completeRecord_of_no_ring r h]
  have hne : ∀ k < 0x300000, Key.ctxCompleted r.ctx ≠ k := by unfold Key.ctxCompleted; omega
  have hform : ∀ u : State, ∃ d, ((u.bump (Key.ctxCompleted r.ctx)).addObj Key.acqMissing (b2n (bit r.flags 5))).refreshAcq = u.withDict d := fun u =>
    refreshAcq_changes ((u.bump (Key.ctxCompleted r.ctx)).addObj Key.acqMissing (b2n (bit r.flags 5)))
  have hcount : ∀ u : State, (((u.bump (Key.ctxCompleted r.ctx)).addObj Key.acqMissing (b2n (bit r.flags 5))).refreshAcq).obj (Key.ctxCompleted r.ctx) =
      (u.obj (Key.ctxCompleted r.ctx) + 1) % 2 ^ 64 := fun u => by
    rw [obj_refreshAcq_of_ne _ (hne _ (by decide)) (hne _ (by decide)) (hne _ (by decide)), obj_addObj, if_neg (hne _ (by decide)), obj_bump, if_pos rfl, lenOf_ctxCompleted r.ctx hc]
    rfl
  obtain ⟨d, hd⟩ := hform (s.updRecord (completed r))
  have hcount := hcount (s.updRecord (completed r))
  rw [hd] at hcount ⊢
  obtain ⟨⟨d', x, hclose⟩, hkeep⟩ := onlySegments_closeDue ((s.updRecord (completed r)).withDict d)
  refine ⟨?_, (hkeep _ (hne _ (by decide))).trans hcount, ?_⟩
  · rw [hclose]
    exact record?_updRecord (r' := completed r) hr
  · rw [hclose]
    rfl

end State

open State

/-- Settles O24: a record keeps its window through extraction (`extract_spec`), and completion without a ring touches the record, two counters and the recorder's segments. -/
theorem recordPipeline : Obligations.RecordPipeline := by
  refine ⟨?_, ?_, ?_, ?_, ?_, ?_⟩
  · rintro s (h | ⟨r, h, hplace⟩)
    · rw [exec_stagingSpaceGrant, execStagingSpaceGrant, h]
    · rw [exec_stagingSpaceGrant, execStagingSpaceGrant, h]
      simp only [hplace]
  · intro s r a h hplace
    have hexec := exec_stagingSpaceGrant s
    unfold execStagingSpaceGrant at hexec
    simp only [h, hplace] at hexec
    refine ⟨_, hexec, ?_⟩
    have hmem := stageNext_mem h
    obtain ⟨r', hr', hstage, -, hstop, htrigger, -⟩ := record?_extract
      (s := s.updRecord { r with stage := some (a, if r.fixed = true then min (s.stageNeed r) (s.stageUsed r) else s.stageNeed r) })
      (r := { r with stage := some (a, if r.fixed = true then min (s.stageNeed r) (s.stageUsed r) else s.stageNeed r) })
      (record?_eq_some (record?_updRecord_of_mem (r' := { r with stage := some (a, if r.fixed = true then min (s.stageNeed r) (s.stageUsed r) else s.stageNeed r) }) hmem rfl rfl)).1 rfl rfl
    exact ⟨r', hr', hstage, hstop, htrigger⟩
  · intro s c n r hr hcond
    rw [exec_extractBlockReturn, execExtractBlockReturn, hr]
    simp only
    rw [if_pos]
    simpa using hcond
  · intro s c n r hr hstate hstage
    obtain ⟨hmem, hc, hn⟩ := record?_eq_some hr
    have hexec := exec_extractBlockReturn s c n
    unfold execExtractBlockReturn at hexec
    have hnone : r.stage.isNone = false := by simpa using hstage
    simp only [hr, hstate, hnone, ne_eq, not_true_eq_false, Bool.false_eq_true, or_self, if_false] at hexec
    obtain ⟨r', hr', h1, h2, h3, -, h5⟩ := record?_extract hmem rfl rfl
    rw [hc, hn] at hr'
    exact ⟨_, hexec, r', hr', h1, h2, h3, h5⟩
  · intro s c n r hr hstate hplaced hturn hkind hearlier hsize
    obtain ⟨hmem, hc, hn⟩ := record?_eq_some hr
    have hplace := placeRecord_of_none hstate hplaced hturn hkind
    have hfound : (s.updRecord (keptHere r)).record? r.ctx r.number = some (keptHere r) := record?_updRecord_of_mem (r' := keptHere r) hmem rfl rfl
    have hall : (s.updRecord (keptHere r)).acq.records.all (fun y => y.ctx != r.ctx || y.number ≥ r.number || y.state == 3) = true := by
      refine List.all_eq_true.mpr fun y hy => ?_
      obtain ⟨z, hz, rfl⟩ := List.mem_map.mp hy
      split
      · simp [keptHere]
      · rcases eq_or_ne z.ctx r.ctx with hzc | hzc
        · rcases hearlier z hz (hzc.trans hc) with h | h
          · simp [hn, h]
          · simp [h]
        · simp [hzc]
    have hexec : exec (.recordDelivered c n) s =
        .next ((s.updRecord (keptHere r)).completeRecord (keptHere r)) := by
      rw [exec_recordDelivered, execRecordDelivered, hr]
      simp only [hstate, ne_eq, not_true_eq_false, if_false, hplace, ← hc, ← hn, hfound, Option.getD_some]
      rw [if_pos ⟨by simp [recordAcked, keptHere], hall⟩]
    refine ⟨_, hexec, ?_⟩
    obtain ⟨h1, h2, h3⟩ := completeRecord_spec (s := s.updRecord (keptHere r)) (r := (keptHere r))
      (show r.ctx < 1024 from hc ▸ c.isLt) hfound hsize
    rw [← hc, ← hn]
    exact ⟨⟨_, h1, rfl, rfl, rfl⟩, h2, h3⟩
  · intro s off rest hun hout hsize
    have hexec : exec .completionEntryAcked s = .next
        ((((s.withAcq { s.acq with doneUnacked := rest }).setObj Key.acqDoneWptr ((off + 128) % s.obj Key.acqDoneSize)).raiseEvent 6).moverEvent 0x6000) := by
      rw [exec_completionEntryAcked, execCompletionEntryAcked]
      have hmax : max 1 (s.obj Key.acqDoneSize) = s.obj Key.acqDoneSize := Nat.max_eq_right (Nat.pos_of_ne_zero hsize)
      simp [hun, hout, hmax]
    refine ⟨_, hexec, ?_⟩
    obtain ⟨⟨d, x, hform⟩, hkeep⟩ := moverEvent_spec (((s.withAcq { s.acq with doneUnacked := rest }).setObj Key.acqDoneWptr ((off + 128) % s.obj Key.acqDoneSize)).raiseEvent 6) 0x6000
    obtain ⟨p, hp⟩ := raiseEvent_changes ((s.withAcq { s.acq with doneUnacked := rest }).setObj Key.acqDoneWptr ((off + 128) % s.obj Key.acqDoneSize)) 6
    refine ⟨?_, ?_, ?_, ?_⟩
    · rw [hkeep _ (by rintro ⟨m, hm, h⟩; unfold Key.acqDoneWptr Key.mvStartOverruns at h; omega), obj_raiseEvent, obj_setObj, if_pos rfl, lenOf_acqDoneWptr]
      rfl
    · rw [hform, hp]
      rfl
    · rw [hform, hp]
      rfl
    · rw [hform]
      exact raiseEvent_count _ 6

end Sys2Proof.Machine
end

section
/-! Contexts take settled events, arm and abort (08 R190, R213, R221, R223, R226, R232). -/

namespace Sys2Proof.Machine
namespace State

/-! ### What settles does not read the commands that arm contexts -/

/-- The state without the due commands that arm a context. -/
def withoutArm (s : State) (c : Nat) : State := s.withDue (s.due.filter fun d => d.1 != Key.ctxArm c)

theorem maskNext_withoutArm (s : State) (c m t fuel : Nat) : (s.withoutArm c).maskNext m t fuel = s.maskNext m t fuel := by
  induction fuel generalizing t with
  | zero => rfl
  | succ fuel ih =>
    unfold maskNext
    simp only [ih]
    rfl

theorem nextTrigCmd_withoutArm (s : State) {c : Nat} (hc : c < 1024) (n : Nat) : (s.withoutArm c).nextTrigCmd n = s.nextTrigCmd n := by
  have hfilter : (s.due.filter fun d => d.1 != Key.ctxArm c).filter (fun d => d.1 == Key.trigCmd n) = s.due.filter fun d => d.1 == Key.trigCmd n := by
    rw [List.filter_filter]
    refine List.filter_congr fun d _ => ?_
    have hne : Key.trigCmd n ≠ Key.ctxArm c := by unfold Key.trigCmd Key.ctxArm; omega
    by_cases hd : d.1 = Key.trigCmd n
    · simp [hd, hne]
    · simp [hd]
  unfold nextTrigCmd
  rw [show (s.withoutArm c).due = s.due.filter fun d => d.1 != Key.ctxArm c from rfl, hfilter]
  rfl

theorem localMark_withoutArm (s : State) {c : Nat} (hc : c < 1024) (src : Nat) : (s.withoutArm c).localMark src = s.localMark src := by
  unfold localMark
  rw [nextTrigCmd_withoutArm s hc]
  rfl

theorem sourceMark_withoutArm (s : State) {c : Nat} (hc : c < 1024) (src : Nat) : (s.withoutArm c).sourceMark src = s.sourceMark src := by
  unfold sourceMark
  rw [localMark_withoutArm s hc]
  rfl

theorem dealtBefore_withoutArm (s : State) {c : Nat} (hc : c < 1024) (src t : Nat) : (s.withoutArm c).dealtBefore src t = s.dealtBefore src t := by
  unfold dealtBefore
  simp only [maskNext_withoutArm, sourceMark_withoutArm s hc, localMark_withoutArm s hc]
  rfl

theorem settled_withoutArm (s : State) {c : Nat} (hc : c < 1024) (src t : Nat) : (s.withoutArm c).settled src t = s.settled src t := by
  unfold settled
  simp only [sourceMark_withoutArm s hc, dealtBefore_withoutArm s hc]
  rfl

theorem ctxClear_withoutArm (s : State) {c : Nat} (hc : c < 1024) (d t : Nat) : (s.withoutArm c).ctxClear d t = s.ctxClear d t := by
  unfold ctxClear exprSettled
  simp only [settled_withoutArm s hc]
  rfl

/-! ### What a context touches -/

/-- Records, contexts, segments and the dictionary change, and nothing else. -/
def Acquires (s t : State) : Prop := ∃ d a r, t = ((s.withDict d).withAcq a).withRecd r

theorem Acquires.refl (s : State) : Acquires s s := ⟨s.dict, s.acq, s.recd, rfl⟩

theorem Acquires.trans {s t u : State} (h : Acquires s t) (h' : Acquires t u) : Acquires s u := by
  obtain ⟨d, a, r, rfl⟩ := h
  obtain ⟨d', a', r', rfl⟩ := h'
  exact ⟨d', a', r', rfl⟩

theorem Acquires.keeps {s t : State} (h : Acquires s t) : t.trig = s.trig ∧ t.mem = s.mem ∧ t.time = s.time := by
  obtain ⟨d, a, r, rfl⟩ := h
  exact ⟨rfl, rfl, rfl⟩

/-- A context changes what acquisition holds, and c keeps the event that it took last. -/
def Takes (c : Nat) (s t : State) : Prop := Acquires s t ∧ (t.ctx c).taken = (s.ctx c).taken

theorem Takes.refl (c : Nat) (s : State) : Takes c s s := ⟨.refl s, rfl⟩

theorem Takes.trans {c : Nat} {s t u : State} (h : Takes c s t) (h' : Takes c t u) : Takes c s u := ⟨h.1.trans h'.1, h'.2.trans h.2⟩

theorem takes_withDict (c : Nat) (s : State) (d : Tab Nat) : Takes c s (s.withDict d) := ⟨⟨d, s.acq, s.recd, rfl⟩, rfl⟩

theorem takes_bump (c : Nat) (s : State) (k : Nat) : Takes c s (s.bump k) := takes_withDict c s (s.bump k).dict

theorem takes_setObj (c : Nat) (s : State) (k v : Nat) : Takes c s (s.setObj k v) := takes_withDict c s (s.setObj k v).dict

theorem takes_refreshAcq (c : Nat) (s : State) : Takes c s s.refreshAcq := by
  obtain ⟨d, h⟩ := refreshAcq_changes s
  rw [h]
  exact takes_withDict c s d

theorem takes_putCtx (s : State) {c : Nat} {x : Ctx} (h : x.taken = (s.ctx c).taken) : Takes c s (s.putCtx c x) := by
  refine ⟨⟨s.dict, (s.putCtx c x).acq, s.recd, rfl⟩, ?_⟩
  rw [ctx_putCtx, if_pos rfl]
  exact h

theorem takes_updRecord (c : Nat) (s : State) (r : Record) : Takes c s (s.updRecord r) := ⟨⟨s.dict, (s.updRecord r).acq, s.recd, rfl⟩, rfl⟩

theorem takes_fixRecord (c : Nat) (s : State) (r : Record) : Takes c s (s.fixRecord r) := (takes_updRecord c s _).trans (takes_refreshAcq c _)

theorem takes_closeRecord (c : Nat) (s : State) : Takes c s (s.closeRecord c) := by
  unfold closeRecord
  extract_lets x
  split
  · exact takes_putCtx s rfl
  · extract_lets hold byTime x1
    exact (show Takes c s (s.putCtx c x1) from takes_putCtx s rfl).trans (takes_fixRecord c _ _)

theorem takes_takeGeneration (c : Nat) (s : State) (T : KTime) : Takes c s (s.takeGeneration c T) := by
  unfold takeGeneration
  extract_lets x s1
  have h1 : Takes c s s1 := by
    unfold s1
    split
    · exact takes_fixRecord ..
    · exact .refl c s
  exact h1.trans (takes_putCtx s1 rfl)

theorem takes_takeArm (c : Nat) (s : State) (T : KTime) : Takes c s (s.takeArm c T) := by
  unfold takeArm
  extract_lets s1 x x1
  have h1 : Takes c s s1 := by
    unfold s1
    split
    · split
      · exact takes_closeRecord ..
      · exact .refl c s
    · exact .refl c s
  refine h1.trans (takes_putCtx s1 ?_)
  split <;> rfl

theorem takes_takeTurns (c : Nat) (s : State) (fuel : Nat) : Takes c s (s.takeTurns c fuel) := by
  induction fuel generalizing s with
  | zero => exact .refl c s
  | succ fuel ih =>
    unfold takeTurns
    extract_lets due
    have hgen : ∀ T, Takes c s ((s.takeGeneration c T).takeTurns c fuel) := fun T => (takes_takeGeneration c s T).trans (ih _)
    have harm : ∀ T, Takes c s ((s.takeArm c T).takeTurns c fuel) := fun T => (takes_takeArm c s T).trans (ih _)
    split
    · split <;> split
      exacts [harm _, .refl c s, hgen _, .refl c s]
    · split
      exacts [hgen _, .refl c s]
    · split
      exacts [harm _, .refl c s]
    · exact .refl c s

theorem takes_newRecord (c : Nat) (s : State) (t flags : Nat) : Takes c s (s.newRecord c t flags) := by
  unfold newRecord
  extract_lets n r a s1 x s2
  have h1 : Takes c s s1 := ⟨⟨s.dict, s1.acq, s.recd, rfl⟩, rfl⟩
  have h2 : Takes c s1 s2 := takes_putCtx s1 rfl
  exact h1.trans (h2.trans ((takes_bump c s2 _).trans ((takes_setObj c _ _ _).trans (takes_refreshAcq c _))))

theorem takes_hold (c t flags : Nat) (s : State) : Takes c s (offerFiring.hold c t flags s) := by
  unfold offerFiring.hold
  extract_lets x
  split
  · exact takes_bump ..
  · split
    · refine Takes.trans (t := s.putCtx c { x with left := x.left - 1 }) (takes_putCtx s ?_) (takes_bump ..)
      rfl
    · exact takes_newRecord ..

theorem takes_offerFiring (c : Nat) (s : State) (t flags : Nat) : Takes c s (s.offerFiring c t flags) := by
  unfold offerFiring
  extract_lets ignore x rec? s1
  split
  · exact takes_bump ..
  · clear_value rec?
    rcases rec? with _ | r
    · exact takes_hold ..
    · dsimp only
      split
      · split
        · exact (takes_updRecord c s _).trans (takes_bump ..)
        · exact takes_bump ..
      · have h1 : Takes c s s1 := takes_closeRecord c s
        split
        · exact h1.trans (takes_bump ..)
        · exact h1.trans (takes_hold ..)

theorem takes_ctxDone (c : Nat) (s : State) : Takes c s (s.ctxDone c) := by
  obtain ⟨⟨d, r, h⟩, -⟩ := onlySegments_closeDue (s.refreshCtx c)
  refine (takes_setObj c s _ _ : Takes c s (s.refreshCtx c)).trans ?_
  unfold ctxDone
  rw [h]
  exact ⟨⟨d, _, r, rfl⟩, rfl⟩

/-- An event that a context takes is its last; records and contexts change with it, and nothing outside acquisition. -/
theorem ctxEvent_spec (s : State) (c : Nat) (e : Event) : Acquires s (s.ctxEvent c e) ∧ ((s.ctxEvent c e).ctx c).taken = some e := by
  unfold ctxEvent
  extract_lets x s2 ignored expr
  have hs2 : (s2.ctx c).taken = some e := by
    unfold s2
    rw [ctx_putCtx, if_pos rfl]
  have hform : Acquires s s2 := ⟨s.dict, s2.acq, s.recd, rfl⟩
  have htakes : ∀ t, Takes c s2 t → Acquires s t ∧ (t.ctx c).taken = some e := fun t h => ⟨hform.trans h.1, h.2.trans hs2⟩
  split
  · exact htakes _ (.refl c s2)
  · dsimp only
    split
    · refine htakes _ (takes_putCtx s2 ?_)
      rfl
    · refine htakes _ (Takes.trans (takes_putCtx s2 ?_) (takes_offerFiring ..))
      rfl

/-! ### A record that closes -/

/-- A context whose record closes at r's END. -/
def closedCtx (s : State) (c : Nat) (r : Record) : Ctx :=
  { s.ctx c with
    openRec := none, rearm := if s.objAt (Key.ctxHoldoffMode c) r.trigger == 0 then r.stop + s.objAt (Key.ctxHoldoff c) r.trigger * tick else (s.ctx c).rearm,
    left := if s.objAt (Key.ctxHoldoffMode c) r.trigger == 0 then (s.ctx c).left else s.objAt (Key.ctxHoldoff c) r.trigger,
    stopped := s.objAt (Key.ctxMode c) r.trigger == 1 }

theorem closeRecord_of_record {s : State} {c n : Nat} {r : Record} (hopen : (s.ctx c).openRec = some n) (hr : s.record? c n = some r) :
    s.closeRecord c = (s.putCtx c (s.closedCtx c r)).fixRecord r := by
  unfold closeRecord
  simp only [hopen, Option.bind_some, hr]
  rfl

/-- A record whose END is fixed. -/
def fixedRecord (s : State) (r : Record) : Record := { r with fixed := true, stage := r.stage.map fun (a, n) => (a, min n (s.stageUsed r)) }

theorem record?_fixRecord {s : State} {r : Record} (hr : s.record? r.ctx r.number = some r) : (s.fixRecord r).record? r.ctx r.number = some (s.fixedRecord r) :=
  record?_updRecord (r' := s.fixedRecord r) hr

theorem ctx_fixRecord (s : State) (r : Record) (c : Nat) : (s.fixRecord r).ctx c = s.ctx c := rfl

theorem obj_fixRecord_of_ctx (s : State) (r : Record) {k : Nat} (hk : 0x300000 ≤ k) : (s.fixRecord r).obj k = s.obj k :=
  obj_refreshAcq_of_ne _ (by unfold Key.acqStageUsed; omega) (by unfold Key.acqOpen; omega) (by unfold Key.trQueue; omega)

theorem ctx_refreshCtx (s : State) (c d : Nat) : (s.refreshCtx c).ctx d = s.ctx d := rfl

theorem acq_ctxDone (s : State) (c : Nat) : (s.ctxDone c).acq = s.acq := by
  obtain ⟨⟨d, r, h⟩, -⟩ := onlySegments_closeDue (s.refreshCtx c)
  unfold ctxDone
  rw [h]
  rfl

theorem ctx_ctxDone (s : State) (c d : Nat) : (s.ctxDone c).ctx d = s.ctx d := by
  unfold State.ctx
  rw [acq_ctxDone]

theorem record?_ctxDone (s : State) (c d n : Nat) : (s.ctxDone c).record? d n = s.record? d n := by
  unfold record?
  rw [acq_ctxDone]

/-! ### Contexts that are armed -/

/-- A stopped context that is armed from T on. -/
def armedCtx (x : Ctx) (T : KTime) : Ctx := { x with arms := x.arms ++ [T], passed := max x.passed T, stopped := false, from' := T, rearm := T, left := 0 }

/-- A context that takes an arming while no record is open. -/
theorem takeArm_of_no_record {s : State} {c : Nat} (T : KTime) (hopen : (s.ctx c).openRec = none) : s.takeArm c T =
    s.putCtx c (if (s.ctx c).stopped then armedCtx (s.ctx c) T
      else { s.ctx c with arms := (s.ctx c).arms ++ [T], passed := max (s.ctx c).passed T }) := by
  unfold takeArm armedCtx
  simp only [hopen, Option.bind_none]

/-- A context whose commands to arm are taken has none to take. -/
theorem nextArm_eq_none {s : State} {c : Nat} (h : ∀ w ∈ s.allWrites, w.2 = Key.ctxArm c → w.1 ∈ (s.ctx c).arms) : s.nextArm c = none := by
  have hnil : (s.allWrites.filter fun w => w.2 == Key.ctxArm c && !(s.ctx c).arms.contains w.1) = [] := by
    refine List.filter_eq_nil_iff.mpr fun w hw hcond => ?_
    simp only [Bool.and_eq_true, beq_iff_eq, Bool.not_eq_true', List.contains_eq_mem, decide_eq_false_iff_not] at hcond
    exact hcond.2 (h w hw hcond.1)
  unfold nextArm
  rw [hnil]
  rfl

/-- Without a generation or an arming to take, no turn is taken. -/
theorem takeTurns_of_none {s : State} {c : Nat} (hgen : s.nextGen c = none) (harm : s.nextArm c = none) (fuel : Nat) : s.takeTurns c fuel = s := by
  cases fuel with
  | zero => rfl
  | succ fuel =>
    unfold takeTurns
    simp only [hgen, harm]

theorem takeTurns_of_arm {s : State} {c : Nat} {T : KTime} (hgen : s.nextGen c = none) (harm : s.nextArm c = some T) (hT : T ≤ s.time) (hclear : s.ctxClear c (T - 1) = true)
    (fuel : Nat) : s.takeTurns c (fuel + 1) = (s.takeArm c T).takeTurns c fuel := by
  conv_lhs => unfold takeTurns
  simp [hgen, harm, hT, hclear]

/-! ### Records that are cut -/

/-- A record cut at its commit point C. -/
def cutRecord (r : Record) (C : KTime) : Record := { r with stop := max C r.trigger, flags := r.flags ||| 64 }

theorem bit_cutRecord (r : Record) (C : KTime) : bit (cutRecord r C).flags 6 = true := by
  unfold bit cutRecord
  rw [Nat.testBit_or, show Nat.testBit 64 6 = true from rfl, Bool.or_true]

/-- A state whose record r is cut at C: its END is fixed, and an open record closes. -/
def afterCut (s : State) (r : Record) (C : KTime) : State :=
  if (((s.updRecord (cutRecord r C)).bump (Key.ctxAborts r.ctx)).ctx r.ctx).openRec = some r.number
  then ((s.updRecord (cutRecord r C)).bump (Key.ctxAborts r.ctx)).closeRecord r.ctx else ((s.updRecord (cutRecord r C)).bump (Key.ctxAborts r.ctx)).fixRecord (cutRecord r C)

theorem abortRecord_of_commit {s : State} {r : Record} {C : KTime} (hstate : r.state = 0) (hC : s.recordCommit r = some C) (hstop : C < r.stop) :
    s.abortRecord r = some (s.afterCut r C) := by
  unfold abortRecord
  rw [if_neg (by simpa using hstate)]
  simp only [hC]
  rw [if_neg (Nat.not_le.mpr hstop)]
  rfl

/-- What a record must be for a cut. -/
theorem abortRecord_eq_some {s t : State} {r : Record} {C : KTime} (hC : s.recordCommit r = some C) (h : s.abortRecord r = some t) : r.state = 0 ∧ C < r.stop := by
  unfold abortRecord at h
  split at h
  · cases h
  · rename_i hstate
    simp only [hC] at h
    split at h
    · cases h
    · rename_i hlt
      exact ⟨by simpa using hstate, Nat.not_le.mp hlt⟩

theorem abortRecord_takes {s t : State} {r : Record} (h : s.abortRecord r = some t) : Takes r.ctx s t := by
  unfold abortRecord at h
  split at h
  · cases h
  · split at h
    · cases h
    · rename_i C hC
      split at h
      · cases h
      · obtain rfl := Option.some.inj h
        refine ((takes_updRecord r.ctx s (cutRecord r C)).trans (takes_bump r.ctx _ (Key.ctxAborts r.ctx))).trans ?_
        split
        · exact takes_closeRecord ..
        · exact takes_fixRecord ..

/-- One record of a context that is aborted. -/
def abortOne (a : Nat × State) (r : Record) : Nat × State := match a.2.abortRecord r with
  | some y => (a.1 + 1, y)
  | none => a

theorem immCtxAbort_eq (c : Nat) (s : State) : immCtxAbort c s =
    if ((s.acq.records.filter fun r => r.ctx == c).foldl abortOne (0, s)).1 = 0 then (Res.already, s)
    else (Res.done, ((s.acq.records.filter fun r => r.ctx == c).foldl abortOne (0, s)).2.refreshCtx c) := rfl

theorem foldl_abortOne_of_none {s : State} {l : List Record} (h : ∀ r ∈ l, s.abortRecord r = none) : l.foldl abortOne (0, s) = (0, s) := by
  induction l with
  | nil => rfl
  | cons r l ih =>
    have hr : abortOne (0, s) r = (0, s) := by
      unfold abortOne
      rw [h r List.mem_cons_self]
    rw [List.foldl_cons, hr]
    exact ih fun x hx => h x (List.mem_cons_of_mem _ hx)

theorem abortOne_spec (a : Nat × State) (r : Record) : a.1 ≤ (abortOne a r).1 ∧ ((abortOne a r).1 = 0 → abortOne a r = a ∧ a.2.abortRecord r = none) ∧
    Acquires a.2 (abortOne a r).2 := by
  unfold abortOne
  split
  · rename_i y hy
    exact ⟨Nat.le_succ _, fun h => absurd h (Nat.succ_ne_zero _), (abortRecord_takes hy).1⟩
  · rename_i hnone
    exact ⟨le_rfl, fun _ => ⟨rfl, hnone⟩, .refl _⟩

/-- While no record has been cut nothing has changed, so a record that can be cut is. -/
theorem foldl_abortOne_spec (l : List Record) (a : Nat × State) : a.1 ≤ (l.foldl abortOne a).1 ∧ ((l.foldl abortOne a).1 = 0 → ∀ r ∈ l, a.2.abortRecord r = none) ∧
    Acquires a.2 (l.foldl abortOne a).2 := by
  induction l generalizing a with
  | nil => exact ⟨le_rfl, fun _ r hr => (List.not_mem_nil hr).elim, .refl _⟩
  | cons r l ih =>
    obtain ⟨hle, hnone, hform⟩ := abortOne_spec a r
    obtain ⟨ihle, ihnone, ihform⟩ := ih (abortOne a r)
    refine ⟨hle.trans ihle, fun h0 => ?_, hform.trans ihform⟩
    · have h1 : (abortOne a r).1 = 0 := Nat.le_zero.mp (ihle.trans h0.le)
      obtain ⟨hsame, hr⟩ := hnone h1
      have htail := ihnone h0
      rw [hsame] at htail
      rintro y hy
      rcases List.mem_cons.mp hy with rfl | hy
      · exact hr
      · exact htail y hy

/-- A record that is cut counts, and is found with its END fixed, whether it was open or not. -/
theorem afterCut_spec {s : State} {r : Record} (hc : r.ctx < 1024) (hr : s.record? r.ctx r.number = some r) (C : KTime) :
    (s.afterCut r C).obj (Key.ctxAborts r.ctx) = (s.obj (Key.ctxAborts r.ctx) + 1) % 2 ^ 32 ∧
      ∃ u : State, (s.afterCut r C).record? r.ctx r.number = some (u.fixedRecord (cutRecord r C)) := by
  have hcount : ((s.updRecord (cutRecord r C)).bump (Key.ctxAborts r.ctx)).obj (Key.ctxAborts r.ctx) = (s.obj (Key.ctxAborts r.ctx) + 1) % 2 ^ 32 := by
    rw [obj_bump, if_pos rfl, lenOf_ctxAborts r.ctx hc]
    rfl
  have hfound : ((s.updRecord (cutRecord r C)).bump (Key.ctxAborts r.ctx)).record? r.ctx r.number = some (cutRecord r C) := record?_updRecord (r' := cutRecord r C) hr
  unfold afterCut
  generalize (s.updRecord (cutRecord r C)).bump (Key.ctxAborts r.ctx) = u at hcount hfound ⊢
  have hkey : 0x300000 ≤ Key.ctxAborts r.ctx := by unfold Key.ctxAborts; omega
  split
  · rename_i hopen
    rw [closeRecord_of_record hopen hfound]
    exact ⟨(obj_fixRecord_of_ctx _ _ hkey).trans hcount, _, record?_fixRecord (s := u.putCtx r.ctx (u.closedCtx r.ctx (cutRecord r C))) (r := cutRecord r C) hfound⟩
  · exact ⟨(obj_fixRecord_of_ctx _ _ hkey).trans hcount, u, record?_fixRecord (r := cutRecord r C) hfound⟩

end State

open State

/-- Settles O23: turns, firings and the end of a record keep to records, contexts and segments (`Takes`), and closing a record is one equation (`closeRecord_of_record`). -/
theorem contexts : Obligations.Contexts := by
  refine ⟨⟨?_, ?_, ?_, ?_⟩, ?_, ?_, ?_, ?_, ?_⟩
  · intro s c hdeck hnext
    rw [exec_exprEvent, execExprEvent, if_neg (by simp [hdeck])]
    simp only [hnext]
  · intro s c e hdeck hnext hsettled
    rw [exec_exprEvent, execExprEvent, if_neg (by simp [hdeck])]
    simp only [hnext, hsettled, Bool.false_eq_true, if_false]
  · intro s c e hdeck hnext hsettled
    have hexec : exec (.exprEvent c) s = .next (((s.takeTurns c.val State.turnFuel).ctxEvent c.val e).ctxDone c.val) := by
      rw [exec_exprEvent, execExprEvent, if_neg (by simp [hdeck])]
      simp only [hnext, hsettled, if_true]
    refine ⟨_, hexec, ?_⟩
    obtain ⟨hturns, -⟩ := takes_takeTurns c.val s State.turnFuel
    obtain ⟨hevent, htaken⟩ := ctxEvent_spec (s.takeTurns c.val State.turnFuel) c.val e
    obtain ⟨hdone, htaken'⟩ := takes_ctxDone c.val ((s.takeTurns c.val State.turnFuel).ctxEvent c.val e)
    exact ⟨htaken'.trans htaken, (hturns.trans (hevent.trans hdone)).keeps⟩
  · intro s s1 c n r hdeck hs1 hopen hr hclear
    have hexec : exec (.ctxSettledAdvance c) s = .next
        (((s1.closeRecord c.val).putCtx c.val { (s1.closeRecord c.val).ctx c.val with passed := max ((s1.closeRecord c.val).ctx c.val).passed (r.stop + 1) }).ctxDone c.val) := by
      rw [exec_ctxSettledAdvance, execCtxSettledAdvance, if_neg (by simp [hdeck])]
      simp only [← hs1, hopen, Option.bind_some, hr, Option.map_some, hclear, if_true]
    refine ⟨_, hexec, ?_⟩
    obtain ⟨-, hrc, hrn⟩ := record?_eq_some hr
    have hclosed := closeRecord_of_record hopen hr
    have hctx : (s1.closeRecord c.val).ctx c.val = s1.closedCtx c.val r := by rw [hclosed, ctx_fixRecord, ctx_putCtx, if_pos rfl]
    have hrec : (s1.closeRecord c.val).record? c.val n = some ((s1.putCtx c.val (s1.closedCtx c.val r)).fixedRecord r) := by
      rw [hclosed, ← hrn]
      conv_lhs => rw [← hrc]
      exact record?_fixRecord (by rw [hrc, hrn]; exact hr)
    rw [ctx_ctxDone, record?_ctxDone, ctx_putCtx, if_pos rfl, hctx]
    refine ⟨rfl, le_max_right _ _, fun hmode => ?_, rfl, _, hrec, rfl, rfl⟩
    simp [closedCtx, hmode]
  · intro s c T hgen harm hall hT hclear hopen hstopped
    have hgen' : (s.withoutArm c.val).nextGen c.val = none := hgen
    have harm' : (s.withoutArm c.val).nextArm c.val = some T := harm
    have hclear' := (ctxClear_withoutArm s c.isLt c.val (T - 1)).trans hclear
    have hopen' : ((s.withoutArm c.val).ctx c.val).openRec = none := hopen
    have hstopped' : ((s.withoutArm c.val).ctx c.val).stopped = true := hstopped
    have htake := takeArm_of_no_record T hopen'
    rw [hstopped', if_pos rfl] at htake
    have hturns : (s.withoutArm c.val).takeTurns c.val State.turnFuel = (s.withoutArm c.val).putCtx c.val
        (armedCtx (s.ctx c.val) T) := by
      rw [show State.turnFuel = 4095 + 1 from rfl, takeTurns_of_arm hgen' harm' hT hclear', htake, takeTurns_of_none]
      · rfl
      · unfold nextGen at hgen ⊢
        rw [ctx_putCtx, if_pos rfl]
        exact hgen
      · refine nextArm_eq_none fun w hw hkey => ?_
        rw [ctx_putCtx, if_pos rfl]
        exact List.mem_append.mpr ((hall w hw hkey).imp_right List.mem_singleton.mpr)
    have hexec : exec (.ctxArm c) s = .next (((s.withoutArm c.val).putCtx c.val
        (armedCtx (s.ctx c.val) T)).refreshCtx c.val) := by
      rw [← hturns, exec_ctxArm]
      rfl
    refine ⟨_, hexec, ?_⟩
    dsimp only
    rw [ctx_refreshCtx, ctx_putCtx, if_pos rfl]
    refine ⟨rfl, rfl, rfl, rfl, rfl, rfl, ?_⟩
    exact keepsBut_setObj (P := (· ∈ [Key.ctxState c.val])) (List.mem_singleton.mpr rfl) ((s.withoutArm c.val).putCtx c.val (armedCtx (s.ctx c.val) T)) _
  · intro s c T hopen hstopped
    rw [takeArm_of_no_record T hopen, hstopped]
    simp only [Bool.false_eq_true, if_false, ctx_putCtx, if_true]
    exact ⟨hstopped, trivial, trivial, trivial, rfl, rfl⟩
  · intro s c hready hnone
    rw [exec_ctxAbort, execCtxAbort]
    refine congrArg _ (act_of_ready hready ?_)
    rw [immCtxAbort_eq, foldl_abortOne_of_none fun r hr => ?_, if_pos rfl]
    simp only [List.mem_filter, beq_iff_eq] at hr
    exact hnone r hr.1 hr.2
  · intro s c r C hready hmem hrc hstate hC hstop
    obtain ⟨-, hnone, hform⟩ := foldl_abortOne_spec (s.acq.records.filter fun r => r.ctx == c.val) (0, s)
    have hpos : ((s.acq.records.filter fun r => r.ctx == c.val).foldl abortOne (0, s)).1 ≠ 0 := by
      intro h0
      have := hnone h0 r (List.mem_filter.mpr ⟨hmem, by simpa using hrc⟩)
      rw [abortRecord_of_commit hstate hC hstop] at this
      cases this
    have himm : immCtxAbort c.val s = (Res.done, ((s.acq.records.filter fun r => r.ctx == c.val).foldl abortOne (0, s)).2.refreshCtx c.val) := by
      rw [immCtxAbort_eq, if_neg hpos]
    have hexec : exec (.ctxAbort c) s = .next ((((s.acq.records.filter fun r => r.ctx == c.val).foldl abortOne (0, s)).2.refreshCtx c.val).withResult Res.done) := by
      rw [exec_ctxAbort, execCtxAbort, act_of_ready hready himm]
    obtain ⟨-, hmem, htime⟩ := hform.keeps
    exact ⟨_, hexec, rfl, htime, hmem, commandsKeepQueue _ _ _ hexec⟩
  · intro s t r C hlt hr hC habort
    obtain ⟨hstate, hstop⟩ := abortRecord_eq_some hC habort
    rw [abortRecord_of_commit hstate hC hstop] at habort
    obtain rfl := Option.some.inj habort
    obtain ⟨hcount, u, hfound⟩ := afterCut_spec hlt hr C
    exact ⟨hstop, hcount, _, hfound, rfl, bit_cutRecord r C, rfl⟩

end Sys2Proof.Machine
end

section
/-! What attending to requests changes: the reads and writes that enter queues, and who is served (10 R276, R281, R283). -/

namespace Sys2Proof.Machine
namespace State

/-! ### Channels -/

theorem memChan_putMemChan (s : State) (k j : Nat) (c : MemChan) : (s.putMemChan k c).memChan j = if j = k then c else s.memChan j := by simp [memChan, putMemChan]

theorem memChan_putMemChan_same (s : State) (k : Nat) (c : MemChan) : (s.putMemChan k c).memChan k = c := by rw [memChan_putMemChan, if_pos rfl]

theorem obj_putMemChan (s : State) (k : Nat) (c : MemChan) (j : Nat) : (s.putMemChan k c).obj j = s.obj j := rfl

theorem memChan_of_chans {s t : State} (h : t.mem.chans = s.mem.chans) (k : Nat) : t.memChan k = s.memChan k := congrArg (fun x => tabGet ({} : MemChan) x k) h

/-! ### Attending to requests -/

/-- The objects that attending to requests changes: counters of requests, blocked reads of heads, the rings of merge groups and the promise. -/
def isServedKey (k : Nat) : Prop := isMemCounter k ∨ (∃ h, k = Key.dispBlocked h) ∨ k = Key.statusPromise ∨ (0x1640 ≤ k / 256 ∧ k / 256 < 0x1660)

theorem not_isServedKey_of_byte {k : Nat} (h : 0x190000 ≤ k) (hbyte : k % 256 < 13) : ¬isServedKey k := by
  unfold isServedKey isMemCounter Key.memLostWrites Key.memLostReads Key.memchInorder Key.dispBlocked Key.statusPromise
  rintro ((h1 | h1 | ⟨n, -, h1⟩) | ⟨g, h1⟩ | h1 | h1) <;> omega

/-- Requests are made, taken or told lost: what is stored, what was issued, and the queue of a FROZEN channel stand. -/
structure Attends (s t : State) : Prop where
  keys : KeepsBut isServedKey s t
  cells : t.mem.cells = s.mem.cells
  lanes : t.mem.frozenLanes = s.mem.frozenLanes
  remaps : t.mem.remaps = s.mem.remaps
  issued : ∀ k, (t.memChan k).issued = (s.memChan k).issued
  aside : ∀ k, (t.memChan k).kept = (s.memChan k).kept
  queue : ∀ k, s.obj (Key.memchState k) = 5 → (t.memChan k).queue = (s.memChan k).queue
  waits : s.mem.remaps = [] → s.mem.waiting = [] → t.mem.waiting = []
  event : tabGet 0 t.pev.evtCount 4 = tabGet 0 s.pev.evtCount 4

theorem Attends.refl (s : State) : Attends s s := ⟨.refl s, rfl, rfl, rfl, fun _ => rfl, fun _ => rfl, fun _ _ => rfl, fun _ h => h, rfl⟩

theorem Attends.state {s t : State} (h : Attends s t) (k : Nat) : t.obj (Key.memchState k) = s.obj (Key.memchState k) :=
  h.keys _ (not_isServedKey_of_byte (by unfold Key.memchState; omega) (by unfold Key.memchState; omega))

theorem Attends.trans {s t u : State} (h : Attends s t) (h' : Attends t u) : Attends s u where
  keys := h.keys.trans h'.keys
  cells := h'.cells.trans h.cells
  lanes := h'.lanes.trans h.lanes
  remaps := h'.remaps.trans h.remaps
  issued k := (h'.issued k).trans (h.issued k)
  aside k := (h'.aside k).trans (h.aside k)
  queue k hk := (h'.queue k ((h.state k).trans hk)).trans (h.queue k hk)
  waits hr hw := h'.waits (h.remaps.trans hr) (h.waits hr hw)
  event := h'.event.trans h.event

/-- Memory stands, and the objects but for those served. -/
theorem attends_of_mem {s t : State} (hkeys : KeepsBut isServedKey s t) (hmem : t.mem = s.mem) (hev : tabGet 0 t.pev.evtCount 4 = tabGet 0 s.pev.evtCount 4) : Attends s t where
  keys := hkeys
  cells := by rw [hmem]
  lanes := by rw [hmem]
  remaps := by rw [hmem]
  issued k := by rw [memChan_of_chans (congrArg Mem.chans hmem) k]
  aside k := by rw [memChan_of_chans (congrArg Mem.chans hmem) k]
  queue k _ := by rw [memChan_of_chans (congrArg Mem.chans hmem) k]
  waits _ hw := by rw [hmem]; exact hw
  event := hev

/-- Of memory, what has arrived and what was lost. -/
theorem attends_withMem (s : State) {m : Mem} (hcells : m.cells = s.mem.cells) (hlanes : m.frozenLanes = s.mem.frozenLanes) (hremaps : m.remaps = s.mem.remaps)
    (hchans : m.chans = s.mem.chans) (hwait : s.mem.remaps = [] → s.mem.waiting = [] → m.waiting = []) : Attends s (s.withMem m) where
  keys := keepsBut_of_dict rfl
  cells := hcells
  lanes := hlanes
  remaps := hremaps
  issued k := by rw [memChan_of_chans (t := s.withMem m) hchans k]
  aside k := by rw [memChan_of_chans (t := s.withMem m) hchans k]
  queue k _ := by rw [memChan_of_chans (t := s.withMem m) hchans k]
  waits := hwait
  event := rfl

theorem attends_bump (s : State) {k : Nat} (hk : isServedKey k) : Attends s (s.bump k) := attends_of_mem (keepsBut_bump hk s) rfl rfl

theorem attends_setObj (s : State) {k : Nat} (hk : isServedKey k) (v : Nat) : Attends s (s.setObj k v) := attends_of_mem (keepsBut_setObj hk s v) rfl rfl

theorem attends_foldl {α : Type} (l : List α) (f : State → α → State) (h : ∀ s, ∀ x ∈ l, Attends s (f s x)) (s : State) : Attends s (l.foldl f s) := by
  induction l generalizing s with
  | nil => exact .refl s
  | cons x l ih => exact (h s x List.mem_cons_self).trans (ih (fun s y hy => h s y (List.mem_cons_of_mem _ hy)) _)

theorem attends_loseReq (s : State) (r : MemReq) : Attends s (s.loseReq r) := by
  have hw : isServedKey Key.memLostWrites := .inl (.inl rfl)
  have hr : isServedKey Key.memLostReads := .inl (.inr (.inl rfl))
  unfold loseReq
  split
  · have htold : Attends s (s.withMem { s.mem with lostWrites := s.mem.lostWrites ++ [(r.owner, r.addr)] }) := attends_withMem s rfl rfl rfl rfl fun _ h => h
    unfold loseWrite
    extract_lets m told
    split
    · exact htold
    · split
      · exact htold.trans (attends_bump told hw)
      · exact attends_bump s hw
    · exact attends_bump s hw
  · have htold : Attends s (s.withMem { s.mem with arrived := s.mem.arrived ++ [(r.owner, r.addr, zeros r.len, true)] }) := attends_withMem s rfl rfl rfl rfl fun _ h => h
    unfold loseRead
    extract_lets m told
    split
    · exact htold
    · exact htold
    · exact .refl s
    · exact attends_bump s hr
    · exact attends_bump s hr
    · exact htold.trans (attends_bump told hr)

theorem attends_enqueue (s : State) (o : Owner) (cls : Nat) (w : Bool) (a n : Nat) (d : Bytes) (mask : List Bool) : Attends s (s.enqueue o cls w a n d mask) := by
  unfold enqueue
  extract_lets r m0 s0
  have h0 : Attends s s0 := attends_withMem s rfl rfl rfl rfl fun _ h => h
  refine h0.trans ?_
  split
  · exact attends_loseReq s0 r
  · rename_i k hk
    split
    · split
      · rename_i hwaits
        have hne : s0.mem.remaps ≠ [] := by
          intro hnil
          unfold remapWaits at hwaits
          simp [hnil] at hwaits
        exact attends_withMem s0 rfl rfl rfl rfl fun h => absurd h hne
      · exact attends_loseReq s0 r
    · rename_i hlive
      extract_lets c b row q clash enters s1
      have h1 : Attends s0 s1 := {
        keys := keepsBut_of_dict rfl
        cells := rfl
        lanes := rfl
        remaps := rfl
        issued := fun j => by
          unfold s1
          rw [memChan_putMemChan]
          split
          · rename_i hj
            rw [hj]
          · rfl
        aside := fun j => by
          unfold s1
          rw [memChan_putMemChan]
          split
          · rename_i hj
            rw [hj]
          · rfl
        queue := fun j hj => by
          unfold s1
          rw [memChan_putMemChan, if_neg]
          rintro rfl
          exact hlive hj
        waits := fun _ h => h
        event := rfl }
      split
      · exact h1.trans (attends_bump s1 (.inl (.inr (.inr ⟨k, chanOf_lt hk, rfl⟩))))
      · exact h1

theorem attends_memRead (s : State) (o : Owner) (cls a n : Nat) : Attends s (s.memRead o cls a n) :=
  attends_foldl _ _ (fun s _ _ => attends_enqueue s ..) s

theorem attends_raiseEvent (s : State) {n : Nat} (hn : n ≠ 4) : Attends s (s.raiseEvent n) := by
  refine attends_of_mem (keepsBut_raiseEvent s n) ?_ ?_
  · rw [raiseEvent_eq]
    rfl
  · simp only [raiseEvent]
    split <;> simp [pendVector, tabUpd, hn.symm]

theorem attends_setPromise (s : State) (b : Nat) (x : Bool) : Attends s (s.setPromise b x) := by
  unfold setPromise putPromise
  extract_lets v
  split
  · exact .refl s
  · exact (attends_setObj s (.inr (.inr (.inl rfl))) v).trans (attends_raiseEvent _ (by decide))

/-! ### Aperture reads, heads and merge groups -/

theorem attends_finishAperture (s : State) : Attends s s.finishAperture := by
  refine attends_foldl _ _ (fun y r _ => ?_) s
  split
  · exact .refl y
  · have hread : Attends y (y.takeRead (.aperture r.tag) r.addr r.len).2 := attends_withMem y rfl rfl rfl rfl fun _ h => h
    generalize y.takeRead (.aperture r.tag) r.addr r.len = p at hread ⊢
    obtain ⟨⟨data, lost⟩, y1⟩ := p
    dsimp only
    have hpcie : ∀ (u : State) (x : Pcie), Attends u (u.withPcie x) := fun u x => attends_of_mem (keepsBut_of_dict rfl) rfl rfl
    have hemit : ∀ (u : State) (e : Emission), Attends u (u.emit e) := fun u e => attends_of_mem (keepsBut_of_dict rfl) rfl rfl
    split
    · exact (hread.trans ((hpcie y1 _).trans ((hpcie _ _).trans (attends_raiseEvent _ (by decide))))).trans (hemit _ _)
    · exact (hread.trans (hpcie y1 _)).trans (hemit _ _)

theorem tabGet_map_postponed (l : Tab MemChan) (k : Nat) :
    tabGet ({} : MemChan) (l.map fun (e : Nat × MemChan) => (e.1, { e.2 with postponed := 0 })) k = { tabGet ({} : MemChan) l k with postponed := 0 } := by
  induction l with
  | nil => rfl
  | cons e l ih =>
    rw [List.map_cons]
    unfold tabGet
    split
    · rfl
    · exact ih

/-- A panic line that is withdrawn ends the postponing of refreshes. -/
theorem memChan_setPanic (s : State) (port : Nat) (on : Bool) (k : Nat) : ∃ n, (s.setPanic port on).memChan k = { s.memChan k with postponed := n } := by
  by_cases h : ((tabSet 0 s.mem.panic port (b2n on)).isEmpty && !s.mem.panic.isEmpty) = true
  · refine ⟨0, ?_⟩
    unfold setPanic memChan
    simp only [h, if_true]
    exact tabGet_map_postponed s.mem.chans k
  · refine ⟨(s.memChan k).postponed, ?_⟩
    unfold setPanic memChan
    simp only [h, if_false]
    rfl

theorem attends_setPanic (s : State) (port : Nat) (on : Bool) : Attends s (s.setPanic port on) where
  keys := keepsBut_of_dict rfl
  cells := rfl
  lanes := rfl
  remaps := rfl
  issued k := by
    obtain ⟨n, h⟩ := memChan_setPanic s port on k
    rw [h]
  aside k := by
    obtain ⟨n, h⟩ := memChan_setPanic s port on k
    rw [h]
  queue k _ := by
    obtain ⟨n, h⟩ := memChan_setPanic s port on k
    rw [h]
  waits _ h := h
  event := rfl

theorem attends_refillHead (s : State) (h : Nat) : Attends s (s.refillHead h) := by
  unfold refillHead
  extract_lets room x
  refine Attends.trans (t := s.putHead h { x with todo := x.todo.drop room }) (attends_of_mem (keepsBut_of_dict rfl) rfl rfl) (attends_foldl _ _ (fun y z _ => ?_) _)
  obtain ⟨j, l, a⟩ := z
  dsimp only
  unfold fetchBurst
  split
  · refine Attends.trans (attends_withMem y ?_ ?_ ?_ ?_ ?_) (attends_bump _ (.inr (.inl ⟨h, rfl⟩)))
    exacts [rfl, rfl, rfl, rfl, fun _ h => h]
  · exact attends_memRead ..

theorem attends_serveHead (s : State) (h : Nat) : Attends s (s.serveHead h) := by
  unfold serveHead
  split
  · refine (attends_refillHead s h).trans ?_
    unfold refreshHeadPanic
    extract_lets held
    split
    · exact attends_setPanic ..
    · split
      · exact attends_setPanic ..
      · exact .refl _
  · exact .refl s

theorem attends_mergeAcked {g : Nat} (hg : g < 32) (n : Nat) (s : State) : Attends s (s.mergeAcked g n) := by
  induction n generalizing s with
  | zero => exact .refl s
  | succ n ih =>
    unfold mergeAcked
    extract_lets x
    split
    · exact .refl s
    · split
      · exact .refl s
      · refine Attends.trans ?_ (ih _)
        have hput : ∀ y, Attends s (s.putMerge g y) := fun y => attends_of_mem (keepsBut_of_dict rfl) rfl rfl
        exact (((hput _).trans (attends_setObj _ (.inr (.inr (.inr ⟨by unfold Key.mergeRingWptr; omega, by unfold Key.mergeRingWptr; omega⟩))) _)).trans
          (attends_bump _ (.inr (.inr (.inr ⟨by unfold Key.mergeRecords; omega, by unfold Key.mergeRecords; omega⟩))))).trans (attends_raiseEvent _ (by decide))

end State
end Sys2Proof.Machine
end

section
/-! Little-endian images: fields of images that are joined (00 R5). -/

namespace Sys2Proof.Machine

theorem leNat_append (a b : Bytes) : leNat (a ++ b) = leNat a + 256 ^ a.length * leNat b := by
  induction a with
  | nil => simp [leNat]
  | cons x a ih =>
    rw [List.cons_append, leNat, leNat, ih, List.length_cons, Nat.pow_succ]
    ring

theorem fieldAt_eq_div (v off n : Nat) : fieldAt v off n = v / 256 ^ off % 256 ^ n := by
  rw [fieldAt, Nat.shiftRight_eq_div_pow, Nat.pow_mul]

/-- A field that lies below a bound does not see what is cut off there. -/
theorem fieldAt_mod_of_le (v : Nat) {off n m : Nat} (h : off + n ≤ m) : fieldAt (v % 256 ^ m) off n = fieldAt v off n := by
  have hd : 256 ^ (off + n) ∣ 256 ^ m := Nat.pow_dvd_pow 256 h
  rw [fieldAt_eq_div, fieldAt_eq_div, ← Nat.mod_mul_right_div_self, ← Nat.mod_mul_right_div_self, ← Nat.pow_add, Nat.mod_mod_of_dvd v hd]

/-- The field that an image holds behind others. -/
theorem fieldAt_leNat_append (a : Bytes) (n v : Nat) (b : Bytes) : fieldAt (leNat (a ++ (natLE n v ++ b))) a.length n = v % 256 ^ n := by
  have hpos : 0 < 256 ^ a.length := Nat.pow_pos (by decide)
  rw [fieldAt_eq_div, leNat_append, Nat.add_mul_div_left _ _ hpos, Nat.div_eq_of_lt (leNat_lt a), Nat.zero_add, leNat_append, length_natLE, Nat.add_mul_mod_self_left,
    leNat_natLE, Nat.mod_mod]

/-- The first field of an image. -/
theorem fieldAt_leNat_head (n v : Nat) (b : Bytes) : fieldAt (leNat (natLE n v ++ b)) 0 n = v % 256 ^ n := fieldAt_leNat_append [] n v b

end Sys2Proof.Machine
end

section
/-! Requests enter the memory queues, are served and end; a channel that freezes (10 R276 to R285). -/

namespace Sys2Proof.Machine
namespace State

/-! ### A channel that freezes -/

/-- The objects of a channel that freezes. -/
def frozenObjs (s : State) (k diag : Nat) : State :=
  (((s.setObj (Key.memchDiag k) diag).setObj (Key.memchState k) 5).bump Key.memFreezes).setObj Key.memService ((s.setObj (Key.memchDiag k) diag).obj Key.memService - 1)

/-- A lane that froze, and a remap to come. -/
def frozenLane (s : State) (lane wall : Nat) : State := s.withMem { s.mem with frozenLanes := s.mem.frozenLanes ++ [lane], remaps := s.mem.remaps ++ [(lane, wall)] }

/-- A frozen channel, before the requests that it held are told lost. -/
def frozen (s : State) (k : Nat) (diag : Nat) : State :=
  ((s.frozenObjs k diag).putMemChan k { s.memChan k with queue := [], issued := [], kept := (s.memChan k).queue ++ (s.memChan k).issued }).frozenLane (s.obj (Key.memchLane k)) s.wall

theorem attends_freeze (s : State) (k cause : Nat) (r : Option MemReq) (syndrome : Nat) :
    Attends (s.frozen k (leNat (s.diagImage k cause (s.memChan k).queue.length r syndrome))) (s.freeze k cause r syndrome) := by
  unfold freeze
  extract_lets c lane s1 s2 m s3 s4
  have h4 : Attends s3 s4 := (attends_foldl _ _ (fun s _ _ => attends_loseReq s _) s3).trans (attends_foldl _ _ (fun s _ hg => attends_mergeAcked (List.mem_range.mp hg) 64 s) _)
  have h3 : s3 = s.frozen k (leNat (s.diagImage k cause (s.memChan k).queue.length r syndrome)) := by
    unfold s3 m s2 s1 lane c frozen frozenLane frozenObjs
    rfl
  rw [← h3]
  clear_value s3 s4
  exact h4.trans ((attends_finishAperture s4).trans ((attends_serveHead _ 0).trans ((attends_serveHead _ 1).trans (attends_setPromise ..))))

theorem mem_frozenObjs (s : State) (k diag : Nat) : (s.frozenObjs k diag).mem = s.mem := rfl

theorem memChan_frozenLane (s : State) (lane wall k : Nat) : (s.frozenLane lane wall).memChan k = s.memChan k := rfl

theorem obj_frozenLane (s : State) (lane wall k : Nat) : (s.frozenLane lane wall).obj k = s.obj k := rfl

theorem frozen_mem (s : State) (k diag : Nat) :
    (s.frozen k diag).memChan k = { s.memChan k with queue := [], issued := [], kept := (s.memChan k).queue ++ (s.memChan k).issued } ∧
    (s.frozen k diag).mem.cells = s.mem.cells ∧ (s.frozen k diag).mem.frozenLanes = s.mem.frozenLanes ++ [s.obj (Key.memchLane k)] ∧
    (s.frozen k diag).mem.remaps = s.mem.remaps ++ [(s.obj (Key.memchLane k), s.wall)] := by
  unfold frozen
  have hmem := mem_frozenObjs s k diag
  generalize s.frozenObjs k diag = u at hmem ⊢
  generalize s.obj (Key.memchLane k) = lane
  rw [memChan_frozenLane, memChan_putMemChan_same]
  refine ⟨rfl, ?_, ?_, ?_⟩
  · rw [← hmem]; rfl
  · rw [← hmem]; rfl
  · rw [← hmem]; rfl

theorem obj_frozen (s : State) {k : Nat} (hk : k < 16) (diag : Nat) : (s.frozen k diag).obj (Key.memchState k) = 5 ∧
    (s.frozen k diag).obj Key.memFreezes = (s.obj Key.memFreezes + 1) % 2 ^ 8 ∧ (s.frozen k diag).obj (Key.memchDiag k) = diag % 256 ^ 48 := by
  have h1 : Key.memchState k ≠ Key.memService := by unfold Key.memchState Key.memService; omega
  have h2 : Key.memchState k ≠ Key.memFreezes := by unfold Key.memchState Key.memFreezes; omega
  have h3 : Key.memchDiag k ≠ Key.memService := by unfold Key.memchDiag Key.memService; omega
  have h4 : Key.memchDiag k ≠ Key.memFreezes := by unfold Key.memchDiag Key.memFreezes; omega
  have h5 : Key.memchDiag k ≠ Key.memchState k := by unfold Key.memchDiag Key.memchState; omega
  have h6 : Key.memFreezes ≠ Key.memService := by decide
  simp only [frozen, obj_frozenLane, obj_putMemChan, frozenObjs]
  refine ⟨?_, ?_, ?_⟩
  · rw [obj_setObj, if_neg h1, obj_bump, if_neg h2, obj_setObj, if_pos rfl, lenOf_memchState k hk]
    rfl
  · rw [obj_setObj, if_neg h6, obj_bump, if_pos rfl, obj_setObj, if_neg h2.symm, obj_setObj, if_neg h4.symm, lenOf_memFreezes]
    rfl
  · rw [obj_setObj, if_neg h3, obj_bump, if_neg h4, obj_setObj, if_neg h5, obj_setObj, if_pos rfl, lenOf_memchDiag k hk]

/-- What a freeze leaves: the channel FROZEN with its record, its requests aside, and a remap to come. -/
structure Froze (s t : State) (k cause : Nat) (diag : Nat) : Prop where
  state : t.obj (Key.memchState k) = 5
  freezes : t.obj Key.memFreezes = (s.obj Key.memFreezes + 1) % 2 ^ 8
  queue : (t.memChan k).queue = []
  issued : (t.memChan k).issued = []
  aside : (t.memChan k).kept = (s.memChan k).queue ++ (s.memChan k).issued
  cause : fieldAt (t.obj (Key.memchDiag k)) 0 1 = cause
  diag : t.obj (Key.memchDiag k) = diag % 256 ^ 48
  lanes : t.mem.frozenLanes = s.mem.frozenLanes ++ [s.obj (Key.memchLane k)]
  remaps : t.mem.remaps = s.mem.remaps ++ [(s.obj (Key.memchLane k), s.wall)]
  cells : t.mem.cells = s.mem.cells

theorem diagImage_head (s : State) (k cause pending : Nat) (r : Option MemReq) (syndrome : Nat) : ∃ rest, s.diagImage k cause pending r syndrome = natLE 1 cause ++ rest := by
  unfold diagImage
  extract_lets place cls addr
  simp only [List.append_assoc]
  exact ⟨_, rfl⟩

theorem freeze_spec (s : State) {k cause : Nat} (hk : k < 16) (hcause : cause < 256) (r : Option MemReq) (syndrome : Nat) :
    Froze s (s.freeze k cause r syndrome) k cause (leNat (s.diagImage k cause (s.memChan k).queue.length r syndrome)) := by
  have h := attends_freeze s k cause r syndrome
  obtain ⟨rest, hrest⟩ := diagImage_head s k cause (s.memChan k).queue.length r syndrome
  have hdiag : ∀ d, KeepsBut isServedKey (s.frozen k d) (s.freeze k cause r syndrome) → (s.freeze k cause r syndrome).obj (Key.memchDiag k) = d % 256 ^ 48 := fun d hkeys =>
    (hkeys _ (not_isServedKey_of_byte (by unfold Key.memchDiag; omega) (by unfold Key.memchDiag; omega))).trans (obj_frozen s hk d).2.2
  have hcauses : fieldAt ((s.freeze k cause r syndrome).obj (Key.memchDiag k)) 0 1 = cause := by
    rw [hdiag _ h.keys, fieldAt_mod_of_le _ (by decide), hrest, fieldAt_leNat_head]
    exact Nat.mod_eq_of_lt hcause
  have hobj := hdiag _ h.keys
  generalize leNat (s.diagImage k cause (s.memChan k).queue.length r syndrome) = d at h hobj ⊢
  obtain ⟨hchan, hcells, hlanes, hremaps⟩ := frozen_mem s k d
  obtain ⟨hstate, hfreezes, -⟩ := obj_frozen s hk d
  exact {
    state := (h.state k).trans hstate
    freezes := (h.keys _ (by unfold isServedKey isMemCounter Key.memLostWrites Key.memLostReads Key.memchInorder Key.dispBlocked Key.statusPromise Key.memFreezes; omega)).trans hfreezes
    queue := (h.queue k hstate).trans (by rw [hchan])
    issued := (h.issued k).trans (by rw [hchan])
    aside := (h.aside k).trans (by rw [hchan])
    cause := hcauses
    diag := hobj
    lanes := h.lanes.trans hlanes
    remaps := h.remaps.trans hremaps
    cells := h.cells.trans hcells }

/-! ### Requests that are served -/

/-- Requests that grew old in a channel's queue: the queue's promotions and their count change. -/
theorem promote_spec (s : State) (k : Nat) : (∃ d m, s.promote k = (s.withDict d).withMem m) ∧ KeepsBut (· = Key.memchPromoted k) s (s.promote k) ∧
    (s.promote k).mem.cells = s.mem.cells ∧ ((s.promote k).memChan k).issued = (s.memChan k).issued ∧ ∀ j, j ≠ k → (s.promote k).memChan j = s.memChan j := by
  unfold promote
  extract_lets c due n
  split
  · exact ⟨⟨s.dict, s.mem, rfl⟩, .refl s, rfl, rfl, fun _ _ => rfl⟩
  · have hchan : ∀ (x : MemChan) (d : Nat) (j : Nat), ((s.putMemChan k x).addObj (Key.memchPromoted k) d).memChan j = if j = k then x else s.memChan j := fun x d j => memChan_putMemChan s k j x
    refine ⟨⟨_, (s.putMemChan k _).mem, rfl⟩, (keepsBut_addObj (P := (· = Key.memchPromoted k)) rfl (s.putMemChan k _) _), rfl, ?_, fun j hj => ?_⟩
    · rw [hchan, if_pos rfl]
    · rw [hchan, if_neg hj]

/-- The span, counters and events change, and nothing else. -/
def OnlyMerges (s t : State) : Prop := ∃ x d p, t = ((s.withSpan x).withDict d).withPev p

theorem OnlyMerges.refl (s : State) : OnlyMerges s s := ⟨s.span, s.dict, s.pev, rfl⟩

theorem OnlyMerges.trans {s t u : State} (h : OnlyMerges s t) (h' : OnlyMerges t u) : OnlyMerges s u := by
  obtain ⟨x, d, p, rfl⟩ := h
  obtain ⟨x', d', p', rfl⟩ := h'
  exact ⟨x', d', p', rfl⟩

theorem onlyMerges_raiseEvent (s : State) (n : Nat) : OnlyMerges s (s.raiseEvent n) := by
  obtain ⟨p, h⟩ := raiseEvent_changes s n
  exact ⟨s.span, s.dict, p, h⟩

/-- Merge groups take the acknowledgements of their records. -/
theorem onlyMerges_mergeAcked (g n : Nat) (s : State) : OnlyMerges s (s.mergeAcked g n) := by
  have hput : ∀ (u : State) (y : Merge), OnlyMerges u (u.putMerge g y) := fun u y => ⟨(u.putMerge g y).span, u.dict, u.pev, rfl⟩
  have hset : ∀ (u : State) (k v : Nat), OnlyMerges u (u.setObj k v) := fun u k v => ⟨u.span, (u.setObj k v).dict, u.pev, rfl⟩
  have hbump : ∀ (u : State) (k : Nat), OnlyMerges u (u.bump k) := fun u k => ⟨u.span, (u.bump k).dict, u.pev, rfl⟩
  induction n generalizing s with
  | zero => exact .refl s
  | succ n ih =>
    unfold mergeAcked
    extract_lets x
    split
    · exact .refl s
    · split
      · exact .refl s
      · exact ((((hput s _).trans (hset _ _ _)).trans (hbump _ _)).trans (onlyMerges_raiseEvent _ 7)).trans (ih _)

theorem OnlyMerges.keeps {s t : State} (h : OnlyMerges s t) : t.mem = s.mem ∧ t.time = s.time := by
  obtain ⟨x, d, p, rfl⟩ := h
  exact ⟨rfl, rfl⟩

/-- A write that is issued puts its bytes into the contents and leaves the queue. -/
theorem issue_write (s : State) (k b : Nat) {r : MemReq} (hw : r.write = true) : ∃ x, (s.issue k b r).mem = { s.mem with chans := tabSet {} s.mem.chans k x, cells := r.store s.mem.cells } ∧
    x.queue = (s.memChan k).queue.filter (fun y => y.id != r.id) ∧ x.issued = (s.memChan k).issued ∧ (s.issue k b r).time = s.time := by
  unfold issue
  extract_lets c q c1 s1 m
  rw [if_pos hw]
  have hmem : s1.mem = { s.mem with chans := tabSet {} s.mem.chans k { c1 with lastWrite := some r, crcTries := 0 }, cells := r.store s.mem.cells } := rfl
  have htime : s1.time = s.time := rfl
  clear_value s1
  refine ⟨{ c1 with lastWrite := some r, crcTries := 0 }, ?_, rfl, rfl, ?_⟩
  · split
    · exact (onlyMerges_mergeAcked _ 64 s1).keeps.1.trans hmem
    · exact hmem
  · split
    · exact (onlyMerges_mergeAcked _ 64 s1).keeps.2.trans htime
    · exact htime

/-- A read that is issued takes the bytes that stand and leaves the queue. -/
theorem issue_read (s : State) (k b : Nat) {r : MemReq} (hw : r.write = false) : ∃ x, s.issue k b r = s.putMemChan k x ∧
    x.queue = (s.memChan k).queue.filter (fun y => y.id != r.id) ∧ x.issued = (s.memChan k).issued ++ [{ r with data := s.mem.bytes r.addr r.len }] := by
  unfold issue
  extract_lets c q c1
  rw [if_neg (by simp [hw])]
  exact ⟨_, rfl, rfl, rfl⟩

theorem not_mem_filter_id (l : List MemReq) (n : Nat) : ∀ x ∈ l.filter (fun y => y.id != n), x.id ≠ n := fun x hx => by
  simpa using (List.mem_filter.mp hx).2

/-- The state in which a bank serves a request. -/
def readied (s : State) (k : Nat) (r : MemReq) : State := if (s.promote k).panicked r then (s.promote k).bump (Key.memchPanicCount k) else s.promote k

theorem readied_spec (s : State) (k : Nat) (r : MemReq) : (∃ d m, s.readied k r = (s.withDict d).withMem m) ∧ KeepsObjects [Key.memchPromoted k, Key.memchPanicCount k] s (s.readied k r) ∧
    (s.readied k r).mem = (s.promote k).mem := by
  obtain ⟨⟨d, m, hform⟩, hkeeps, -⟩ := promote_spec s k
  have hpromote := hkeeps.mono (Q := (· ∈ [Key.memchPromoted k, Key.memchPanicCount k])) fun j hj => hj ▸ List.mem_cons_self
  unfold readied
  split
  · refine ⟨⟨((s.promote k).bump (Key.memchPanicCount k)).dict, m, ?_⟩, hpromote.trans (keepsBut_bump (by simp) _), rfl⟩
    conv_lhs => rw [hform]
    rw [hform]
    rfl
  · exact ⟨⟨d, m, hform⟩, hpromote, rfl⟩

/-- The bytes that stand do not change with the promotions. -/
theorem bytes_readied (s : State) (k : Nat) (r : MemReq) (a n : Nat) : (s.readied k r).mem.bytes a n = s.mem.bytes a n := by
  unfold Mem.bytes Mem.byte
  rw [(readied_spec s k r).2.2, (promote_spec s k).2.2.1]

theorem exec_bankSchedule_of_pick {s : State} {k : Fin 16} {b : Fin 256} {r : MemReq} (hstate : s.obj (Key.memchState k.val) = 3) (hpick : (s.promote k.val).pick k.val b.val = some r) :
    exec (.bankSchedule k b) s = .next ((s.readied k.val r).issue k.val b.val r) := by
  rw [exec_bankSchedule, execBankSchedule]
  simp only [hstate, ne_eq, not_true_eq_false, if_false, hpick]
  rfl

/-! ### Requests that enter a queue -/

/-- A request as it enters. -/
def requestOf (s : State) (o : Owner) (cls : Nat) (w : Bool) (a n : Nat) (d : Bytes) : MemReq :=
  { id := s.mem.nextId, owner := o, cls := cls, write := w, addr := a, len := n, data := d, arrival := s.wall, promoted := false }

/-- Does a request put its bank into in-order mode: a read behind a write of its row, outside that mode? -/
def entersInOrder (s : State) (k : Nat) (q : List MemReq) (w : Bool) (a : Nat) : Bool :=
  (!w && q.any fun x => x.write && s.bankOf k x.addr == s.bankOf k a && s.rowAt k x.addr == s.rowAt k a) && tabGet 0 (s.memChan k).inOrder (s.bankOf k a) == 0

/-- The requests that a request finds in its queue: a write takes the place of a write-back of its burst. -/
def queueBefore (s : State) (k : Nat) (w : Bool) (a : Nat) : List MemReq :=
  if w then (s.memChan k).queue.filter fun x => !(x.owner == .writeBack && x.addr / 64 == a / 64) else (s.memChan k).queue

/-- A channel as a request enters its queue. -/
def enteredChan (s : State) (k : Nat) (r : MemReq) : MemChan :=
  { s.memChan k with
    queue := s.queueBefore k r.write r.addr ++ [r], lastRequest := s.wall,
    inOrder := if s.entersInOrder k (s.queueBefore k r.write r.addr) r.write r.addr then tabSet 0 (s.memChan k).inOrder (s.bankOf k r.addr) (r.id + 1) else (s.memChan k).inOrder }

/-- A request enters the queue of a channel that is not frozen. -/
theorem enqueue_of_live (s : State) (o : Owner) (cls : Nat) (w : Bool) (a n : Nat) (d : Bytes) {k : Nat} (hk : s.chanOf a = some k) (hlive : s.obj (Key.memchState k) ≠ 5) :
    s.enqueue o cls w a n d = if s.entersInOrder k (s.queueBefore k w a) w a
      then ((s.withMem { s.mem with nextId := s.mem.nextId + 1 }).putMemChan k (s.enteredChan k (s.requestOf o cls w a n d))).bump (Key.memchInorder k)
      else (s.withMem { s.mem with nextId := s.mem.nextId + 1 }).putMemChan k (s.enteredChan k (s.requestOf o cls w a n d)) := by
  unfold enqueue
  extract_lets r m s0 
  have hk0 : s0.chanOf a = some k := hk
  have hlive0 : ¬s0.obj (Key.memchState k) = 5 := hlive
  simp only [hk0]
  rw [if_neg hlive0]
  rfl

theorem enqueue_spec (s : State) (o : Owner) (cls : Nat) (w : Bool) (a n : Nat) (d : Bytes) {k : Nat} (hk : s.chanOf a = some k) (hlive : s.obj (Key.memchState k) ≠ 5) :
    (s.enqueue o cls w a n d).memChan k = s.enteredChan k (s.requestOf o cls w a n d) ∧ (s.entersInOrder k (s.queueBefore k w a) w a = true →
      (s.enqueue o cls w a n d).obj (Key.memchInorder k) = (s.obj (Key.memchInorder k) + 1) % 2 ^ 64) := by
  rw [enqueue_of_live s o cls w a n d hk hlive]
  have hchan : ∀ x, ((s.withMem { s.mem with nextId := s.mem.nextId + 1 }).putMemChan k x).memChan k = x := fun x => memChan_putMemChan_same _ k x
  have hbump : ∀ (u : State), (u.bump (Key.memchInorder k)).memChan k = u.memChan k := fun _ => rfl
  split
  · refine ⟨(hbump _).trans (hchan _), fun _ => ?_⟩
    rw [obj_bump, if_pos rfl, lenOf_memchInorder k (chanOf_lt hk)]
    rfl
  · rename_i h
    exact ⟨hchan _, fun h' => absurd h' h⟩

/-- A request that is lost enters no queue. -/
theorem loseReq_stands (s : State) (r : MemReq) : (s.loseReq r).mem.chans = s.mem.chans ∧ (s.loseReq r).mem.waiting = s.mem.waiting := by
  unfold loseReq loseWrite loseRead
  split
  · extract_lets m told
    split
    · exact ⟨rfl, rfl⟩
    · split <;> exact ⟨rfl, rfl⟩
    · exact ⟨rfl, rfl⟩
  · extract_lets m told
    split <;> exact ⟨rfl, rfl⟩

theorem enqueue_of_frozen (s : State) (o : Owner) (cls : Nat) (w : Bool) (a n : Nat) (d : Bytes) {k : Nat} (hk : s.chanOf a = some k) (hfrozen : s.obj (Key.memchState k) = 5)
    (hwaits : s.remapWaits a = false) : (s.enqueue o cls w a n d).mem.chans = s.mem.chans ∧ (s.enqueue o cls w a n d).mem.waiting = s.mem.waiting := by
  have hlost : s.enqueue o cls w a n d = (s.withMem { s.mem with nextId := s.mem.nextId + 1 }).loseReq (s.requestOf o cls w a n d) := by
    unfold enqueue
    extract_lets r m s0
    have hk0 : s0.chanOf a = some k := hk
    have hfrozen0 : s0.obj (Key.memchState k) = 5 := hfrozen
    have hwaits0 : s0.remapWaits a = false := hwaits
    simp only [hk0, hfrozen0, hwaits0, if_true, Bool.false_eq_true, if_false]
    rfl
  rw [hlost]
  exact loseReq_stands ..

/-- A read behind a write of its row. -/
theorem entersInOrder_of_write {s : State} {k a : Nat} (hmode : tabGet 0 (s.memChan k).inOrder (s.bankOf k a) = 0)
    (h : ∃ x ∈ (s.memChan k).queue, x.write = true ∧ s.bankOf k x.addr = s.bankOf k a ∧ s.rowAt k x.addr = s.rowAt k a) :
    s.entersInOrder k (s.queueBefore k false a) false a = true := by
  obtain ⟨x, hx, hw, hbank, hrow⟩ := h
  have hany : (s.memChan k).queue.any (fun x => x.write && s.bankOf k x.addr == s.bankOf k a && s.rowAt k x.addr == s.rowAt k a) = true :=
    List.any_eq_true.mpr ⟨x, hx, by simp [hw, hbank, hrow]⟩
  simp [entersInOrder, queueBefore, hany, hmode]

theorem mem_queueBefore {s : State} {k a : Nat} {w : Bool} {x : MemReq} (h : x ∈ s.queueBefore k w a) : x ∈ (s.memChan k).queue := by
  unfold queueBefore at h
  split at h
  · exact (List.mem_filter.mp h).1
  · exact h

/-! ### The end of a read -/

/-- A channel's read is over: its requester has the data, where it asked for any. -/
def delivered (s : State) (k : Nat) (r : MemReq) (rest : List MemReq) : State :=
  if dataDropped r.owner then s.putMemChan k { s.memChan k with issued := rest }
  else readerServed r.owner ((s.putMemChan k { s.memChan k with issued := rest }).withMem
    { (s.putMemChan k { s.memChan k with issued := rest }).mem with arrived := s.mem.arrived ++ [(r.owner, r.addr, r.data, false)] })

/-- The correction of a burst is written back, unless a newer write stands or waits. -/
def writtenBack (s : State) (k : Nat) (r : MemReq) : State :=
  if (s.memChan k).queue.any (fun x => x.write && x.addr / 64 == r.addr / 64) || s.mem.bytes r.addr r.len != r.data then s
  else s.enqueue .writeBack 3 true (r.addr / 64 * 64) 64 (s.mem.bytes (r.addr / 64 * 64) 64)

theorem exec_memReadComplete_of_read {s : State} {k : Fin 16} {r : MemReq} {rest : List MemReq} (hissued : (s.memChan k.val).issued = r :: rest) (hserves : s.chanServes k.val = true) (e : ReadEnd) :
    exec (.memReadComplete k e) s = .next (match e with
      | .clean => s.delivered k.val r rest
      | .corrected => ((s.delivered k.val r rest).bump (Key.memchCeCount k.val)).writtenBack k.val r
      | .uncorrectable syn => s.freeze k.val (if r.owner = .scrub then 2 else 1) (some r) syn) := by
  rw [exec_memReadComplete, execMemReadComplete]
  simp only [hissued, hserves, Bool.not_true, Bool.false_eq_true, if_false]
  cases e <;> rfl

theorem attends_readerServed (o : Owner) (s : State) : Attends s (readerServed o s) := by
  unfold readerServed
  split
  · exact attends_serveHead ..
  · exact attends_finishAperture s
  · exact .refl s

/-- A read that was delivered has left the channel. -/
theorem delivered_spec (s : State) (k : Nat) (r : MemReq) (rest : List MemReq) :
    ((s.delivered k r rest).memChan k).issued = rest ∧ KeepsBut isServedKey s (s.delivered k r rest) ∧ (s.delivered k r rest).mem.cells = s.mem.cells := by
  have hchan : ((s.putMemChan k { s.memChan k with issued := rest }).memChan k).issued = rest := by rw [memChan_putMemChan_same]
  unfold delivered
  split
  · exact ⟨hchan, keepsBut_of_dict rfl, rfl⟩
  · have h := attends_readerServed r.owner ((s.putMemChan k { s.memChan k with issued := rest }).withMem
      { (s.putMemChan k { s.memChan k with issued := rest }).mem with arrived := s.mem.arrived ++ [(r.owner, r.addr, r.data, false)] })
    exact ⟨(h.issued k).trans hchan, KeepsBut.trans (keepsBut_of_dict rfl) h.keys, h.cells⟩

theorem attends_writtenBack (s : State) (k : Nat) (r : MemReq) : Attends s (s.writtenBack k r) := by
  unfold writtenBack
  split
  · exact .refl s
  · exact attends_enqueue ..

end State

open State

/-- Settles O33: attending to requests leaves the contents and what was issued alone (`Attends`), and a request enters, is served or ends by one equation each. -/
theorem memoryRequests : Obligations.MemoryRequests := by
  refine ⟨⟨?_, ?_, ?_⟩, ⟨?_, ?_⟩, ?_, ?_, ?_, ?_, ?_⟩
  · intro s k b hstate
    rw [exec_bankSchedule, execBankSchedule, if_pos hstate]
  · intro s k b r hstate hpick hw
    refine ⟨_, exec_bankSchedule_of_pick hstate hpick, ?_⟩
    obtain ⟨⟨d, m, hform⟩, -, hmem⟩ := readied_spec s k.val r
    obtain ⟨-, -, hcells, hissued, hother⟩ := promote_spec s k.val
    obtain ⟨x, hissue, hq, hi, htime⟩ := issue_write (s.readied k.val r) k.val b.val hw
    have hchan : ∀ j, ((s.readied k.val r).issue k.val b.val r).memChan j = if j = k.val then x else (s.promote k.val).memChan j := fun j => by
      unfold memChan
      rw [hissue, hmem, tabGet_tabSet]
    have hsame : (s.readied k.val r).memChan k.val = (s.promote k.val).memChan k.val := memChan_of_chans (congrArg Mem.chans hmem) _
    refine ⟨?_, ?_, ?_, fun j hj => ?_, ?_⟩
    · rw [hissue, hmem, hcells]
    · rw [hchan, if_pos rfl, hq]
      exact not_mem_filter_id _ _
    · rw [hchan, if_pos rfl, hi, hsame, hissued]
    · rw [hchan, if_neg hj, hother j hj]
    · rw [htime, hform]
      rfl
  · intro s k b r hstate hpick hw
    refine ⟨_, exec_bankSchedule_of_pick hstate hpick, ?_⟩
    obtain ⟨⟨d, m, hform⟩, hkeeps, hmem⟩ := readied_spec s k.val r
    obtain ⟨-, -, hcells, hissued, hother⟩ := promote_spec s k.val
    obtain ⟨x, hissue, hq, hi⟩ := issue_read (s.readied k.val r) k.val b.val hw
    have hsame : (s.readied k.val r).memChan k.val = (s.promote k.val).memChan k.val := memChan_of_chans (congrArg Mem.chans hmem) _
    rw [hissue]
    refine ⟨?_, ?_, ?_, ?_, ?_⟩
    · exact (congrArg Mem.cells hmem).trans hcells
    · rw [memChan_putMemChan_same, hq]
      exact not_mem_filter_id _ _
    · rw [memChan_putMemChan_same, hi, hsame, hissued, bytes_readied]
    · rw [hform]
      rfl
    · exact KeepsBut.trans (P := (· ∈ [Key.memchPromoted k.val, Key.memchPanicCount k.val])) hkeeps (keepsBut_of_dict rfl)
  · intro s o cls w a n d k hk hlive
    obtain ⟨hchan, hcount⟩ := enqueue_spec s o cls w a n d hk hlive
    refine ⟨⟨s.queueBefore k w a, ?_, fun x hx => mem_queueBefore hx, fun hw => by simp [queueBefore, hw]⟩, (attends_enqueue s o cls w a n d []).cells, ?_⟩
    · rw [hchan]
      rfl
    · rintro rfl hmode hx
      have henters := entersInOrder_of_write hmode hx
      refine ⟨hcount henters, ?_⟩
      rw [hchan]
      unfold enteredChan
      simp only [requestOf, henters, if_true, tabGet_tabSet]
  · intro s o cls w a n d k hk hfrozen hwaits
    exact ⟨(attends_enqueue s o cls w a n d []).cells, enqueue_of_frozen s o cls w a n d hk hfrozen hwaits⟩
  · intro s k r rest hissued hserves hnoscan hnoap hdrop
    refine ⟨_, exec_memReadComplete_of_read hissued hserves .clean, ?_⟩
    have hserved : ∀ u : State, readerServed r.owner u = u := fun u => by
      unfold readerServed
      split
      · rename_i h l hown
        exact absurd hown (hnoscan h l)
      · rename_i g hown
        exact absurd hown (hnoap g)
      · rfl
    have hdelivered : s.delivered k.val r rest = (s.putMemChan k.val { s.memChan k.val with issued := rest }).withMem
        { (s.putMemChan k.val { s.memChan k.val with issued := rest }).mem with arrived := s.mem.arrived ++ [(r.owner, r.addr, r.data, false)] } := by
      unfold delivered
      rw [if_neg (by simp [hdrop]), hserved]
    obtain ⟨h1, -, h3⟩ := delivered_spec s k.val r rest
    refine ⟨h1, ?_, h3, ?_⟩ <;> rw [hdelivered] <;> rfl
  · intro s k r rest hissued hserves hdrop
    refine ⟨_, exec_memReadComplete_of_read hissued hserves .clean, ?_⟩
    have hdelivered : s.delivered k.val r rest = s.putMemChan k.val { s.memChan k.val with issued := rest } := if_pos hdrop
    obtain ⟨h1, -, h3⟩ := delivered_spec s k.val r rest
    refine ⟨h1, ?_, h3, ?_⟩ <;> rw [hdelivered] <;> rfl
  · intro s k r rest hissued hserves
    refine ⟨_, exec_memReadComplete_of_read hissued hserves .corrected, ?_⟩
    obtain ⟨h1, h2, h3⟩ := delivered_spec s k.val r rest
    have h := attends_writtenBack ((s.delivered k.val r rest).bump (Key.memchCeCount k.val)) k.val r
    have hkey : ¬isServedKey (Key.memchCeCount k.val) := not_isServedKey_of_byte (by unfold Key.memchCeCount; omega) (by unfold Key.memchCeCount; omega)
    refine ⟨(h.issued k.val).trans h1, (h.keys _ hkey).trans ?_, h.cells.trans h3⟩
    rw [obj_bump, if_pos rfl, lenOf_memchCeCount k.val k.isLt, h2 _ hkey]
    rfl
  · intro s k r rest syn hissued hserves
    refine ⟨_, exec_memReadComplete_of_read hissued hserves (.uncorrectable syn.toNat), ?_⟩
    have h := freeze_spec s k.isLt (cause := if r.owner = .scrub then 2 else 1) (by split <;> decide) (some r) syn.toNat
    exact ⟨h.state, h.queue, h.issued, h.aside, h.cause, h.cells⟩
  · intro s k e hissued
    rw [exec_memReadComplete, execMemReadComplete]
    simp only [hissued]

end Sys2Proof.Machine
end

section
/-! Errors, upkeep and data rate of memory channels (10 R279 to R289; 18 R489). -/

namespace Sys2Proof.Machine

theorem lenOf_memchTemp (n : Nat) (h : n < 16) : lenOf (Key.memchTemp n) = 2 :=
  lenOf_page rowsMemory 0x1980 16 0xF 2 _ (rowsAt_Memory _ (by unfold Key.memchTemp; omega)) (by unfold Key.memchTemp; omega) (by unfold Key.memchTemp; omega)
    (by unfold Key.memchTemp; omega) (by unfold Key.memchTemp; omega) (by decide)

namespace State

/-! ### The record of a parity error -/

/-- What a parity error's record holds ahead of its time. -/
def alertHead (cause : Nat) : Bytes := natLE 1 cause ++ (natLE 1 0xFF ++ natLE 1 0xFF ++ natLE 1 0xFF ++ natLE 1 0xFF ++ natLE 1 0xFF ++ zeros 4) ++ natLE 1 0xFF ++ [0] ++ natLE 8 (2 ^ 64 - 1)

theorem diagImage_none (s : State) (k cause pending syndrome : Nat) :
    s.diagImage k cause pending none syndrome = alertHead cause ++ (natLE 10 s.time ++ (natLE 2 (min pending 65535) ++ natLE 16 syndrome)) := by
  unfold diagImage alertHead
  simp only [List.append_assoc]

theorem length_alertHead (cause : Nat) : (alertHead cause).length = 20 := by
  unfold alertHead
  simp [zeros]

theorem fieldAt_diagImage_time (s : State) (k cause pending syndrome : Nat) : fieldAt (leNat (s.diagImage k cause pending none syndrome) % 256 ^ 48) 20 10 = s.time % 256 ^ 10 := by
  rw [fieldAt_mod_of_le _ (by decide), diagImage_none]
  have h := fieldAt_leNat_append (alertHead cause) 10 s.time (natLE 2 (min pending 65535) ++ natLE 16 syndrome)
  rwa [length_alertHead] at h

/-! ### Remaps -/

theorem mem_raiseEvent (s : State) (n : Nat) : (s.raiseEvent n).mem = s.mem := by
  rw [raiseEvent_eq]
  rfl

theorem foldl_setObj_changes {α : Type} (l : List α) (key : α → Nat) (v : State → α → Nat) (u : State) : ∃ d, l.foldl (fun x w => x.setObj (key w) (v x w)) u = u.withDict d := by
  induction l generalizing u with
  | nil => exact ⟨u.dict, rfl⟩
  | cons w l ih =>
    obtain ⟨d, h⟩ := ih (u.setObj (key w) (v u w))
    refine ⟨d, ?_⟩
    rw [List.foldl_cons, h]
    rfl

theorem refreshLoads_changes (s : State) : ∃ d, s.refreshLoads = s.withDict d := by
  unfold refreshLoads
  extract_lets b views shown s1 s2
  obtain ⟨d1, h1⟩ := foldl_setObj_changes shown Key.viewCost (fun _ w => millionUp (viewCostOf s.obj w b)) s
  have hset : ∀ (u : State) (k v : Nat), (∃ d, u = s.withDict d) → ∃ d, u.setObj k v = s.withDict d := fun u k v h => by
    obtain ⟨d, rfl⟩ := h
    exact ⟨((s.withDict d).setObj k v).dict, rfl⟩
  have h2 : ∃ d, s2 = s.withDict d := hset _ _ _ (hset _ _ _ (hset _ _ _ ⟨d1, h1⟩))
  clear_value s2
  exact hset _ _ _ (hset _ _ _ (hset _ _ _ (hset _ _ _ (hset _ _ _ (hset _ _ _ h2)))))

theorem readmit_spec (s : State) : s.readmit.mem = s.mem ∧ tabGet 0 s.readmit.pev.evtCount 4 = tabGet 0 s.pev.evtCount 4 := by
  have hsuspend : ∀ (l : List Nat) (u : State), ∃ d, u.suspendViews l = u.withDict d := by
    intro l
    induction l with
    | nil => exact fun u => ⟨u.dict, rfl⟩
    | cons w l ih =>
      intro u
      unfold suspendViews
      split
      · exact ⟨u.dict, rfl⟩
      · split
        · exact ih u
        · obtain ⟨d, h⟩ := ih (u.setObj (Key.viewSuspended w) 1)
          exact ⟨d, by rw [h]; rfl⟩
  obtain ⟨d, hd⟩ := hsuspend (unitsOn s.obj 0x2800 512).reverse s
  obtain ⟨d', hd'⟩ := refreshLoads_changes (s.withDict d)
  have hpromise : ∀ (u : State) (x : Bool), (u.setPromise 0 x).mem = u.mem ∧ tabGet 0 (u.setPromise 0 x).pev.evtCount 4 = tabGet 0 u.pev.evtCount 4 := fun u x => by
    refine ⟨?_, (attends_setPromise u 0 x).event⟩
    obtain ⟨d, p, h⟩ := setPromise_changes u 0 x
    rw [h]
    rfl
  unfold readmit refreshAdmitted
  extract_lets s1
  have h1 : s1 = (s.withDict d).withDict d' := by
    unfold s1
    rw [hd, hd']
  rw [h1]
  exact hpromise _ _

/-- A lane whose chunks are placed anew, before the requests that waited enter again. -/
def remapping (s : State) (lane : Nat) (rest : List (Nat × Nat)) : State :=
  (s.remapLane lane).refreshRingAvail.withMem { (s.remapLane lane).refreshRingAvail.mem with remaps := rest, waiting := [] }

/-- A lane whose chunks are placed anew, when the requests that waited have entered. -/
def remapped (s : State) (lane : Nat) (rest : List (Nat × Nat)) : State :=
  (((s.remapLane lane).refreshRingAvail.mem.waiting.foldl (fun y r => y.enqueue r.owner r.cls r.write r.addr r.len r.data r.mask) (s.remapping lane rest)).finishAperture.serveHead 0).serveHead 1

theorem attends_remapped (s : State) (lane : Nat) (rest : List (Nat × Nat)) : Attends (s.remapping lane rest) (s.remapped lane rest) :=
  (((attends_foldl _ _ (fun y _ _ => attends_enqueue y ..) _).trans (attends_finishAperture _)).trans (attends_serveHead _ 0)).trans (attends_serveHead _ 1)

theorem mem_remapping (s : State) (lane : Nat) (rest : List (Nat × Nat)) : (s.remapping lane rest).mem.remaps = rest ∧ (s.remapping lane rest).mem.waiting = [] := ⟨rfl, rfl⟩

theorem event_remapping (s : State) (lane : Nat) (rest : List (Nat × Nat)) : tabGet 0 (s.remapping lane rest).pev.evtCount 4 = tabGet 0 s.pev.evtCount 4 := by
  have hlane : (s.remapLane lane).pev = s.pev := by
    unfold remapLane
    split <;> rfl
  have havail : (s.remapLane lane).refreshRingAvail.pev = (s.remapLane lane).pev := by
    unfold refreshRingAvail
    split <;> rfl
  unfold remapping
  rw [withMem_pev, havail, hlane]

/-- The rate of every channel in service. -/
theorem foldl_setState_spec (l : List Nat) (hl : ∀ k ∈ l, k < 16) (u : State) : (∃ d, l.foldl (fun y k => y.setObj (Key.memchState k) 2) u = u.withDict d) ∧
    ∀ j, (l.foldl (fun y k => y.setObj (Key.memchState k) 2) u).obj j = if ∃ k ∈ l, j = Key.memchState k then 2 else u.obj j := by
  induction l generalizing u with
  | nil => exact ⟨⟨u.dict, rfl⟩, fun j => by simp⟩
  | cons k l ih =>
    obtain ⟨⟨d, hd⟩, hobj⟩ := ih (fun k hk => hl k (List.mem_cons_of_mem _ hk)) (u.setObj (Key.memchState k) 2)
    refine ⟨⟨d, ?_⟩, fun j => ?_⟩
    · rw [List.foldl_cons, hd]
      rfl
    · rw [List.foldl_cons, hobj, obj_setObj, lenOf_memchState k (hl k List.mem_cons_self)]
      by_cases hj : j = Key.memchState k
      · simp [hj]
      · simp [hj]

/-! ### Scrubbing -/

theorem nextId_loseReq (s : State) (r : MemReq) : (s.loseReq r).mem.nextId = s.mem.nextId := by
  unfold loseReq loseWrite loseRead
  split
  · extract_lets m told
    split
    · rfl
    · split <;> rfl
    · rfl
  · extract_lets m told
    split <;> rfl

theorem nextId_enqueue (s : State) (o : Owner) (cls : Nat) (w : Bool) (a n : Nat) (d : Bytes) (mask : List Bool) : (s.enqueue o cls w a n d mask).mem.nextId = s.mem.nextId + 1 := by
  unfold enqueue
  extract_lets r m s0
  split
  · exact nextId_loseReq s0 r
  · split
    · split
      · rfl
      · exact nextId_loseReq s0 r
    · extract_lets c b row q clash enters s1
      split <;> rfl

/-- A channel whose next burst has been asked for, at the end of a pass or within one. -/
def scrubbing (s : State) (k : Nat) : State :=
  let s1 := s.putMemChan k { s.memChan k with scrubNext := if s.mem.capacity ≤ 64 * (s.memChan k).scrubNext + 64 then 0 else (s.memChan k).scrubNext + 1 }
  if s.mem.capacity ≤ 64 * (s.memChan k).scrubNext + 64 then s1.bump Key.scrubPasses else s1

/-- A channel's next burst is asked for. -/
def scrubbed (s : State) (k : Nat) : State :=
  (s.scrubbing k).enqueue .scrub 3 false
    ((64 * (s.memChan k).scrubNext / s.grain * s.lanes0 + s.obj (Key.memchLane k)) * s.grain + 64 * (s.memChan k).scrubNext % s.grain) 64 []

theorem scrubbing_spec (s : State) (k : Nat) : (∃ d m, s.scrubbing k = (s.withDict d).withMem m ∧ m.cells = s.mem.cells ∧ m.nextId = s.mem.nextId) ∧
    (s.scrubbing k).obj Key.scrubPasses = if s.mem.capacity ≤ 64 * (s.memChan k).scrubNext + 64 then (s.obj Key.scrubPasses + 1) % 256 ^ lenOf Key.scrubPasses else s.obj Key.scrubPasses := by
  unfold scrubbing
  extract_lets c s1
  have h1 : ∃ m, s1 = s.withMem m ∧ m.cells = s.mem.cells ∧ m.nextId = s.mem.nextId := ⟨_, rfl, rfl, rfl⟩
  clear_value s1
  obtain ⟨m, rfl, hcells, hid⟩ := h1
  split
  · exact ⟨⟨((s.withMem m).bump Key.scrubPasses).dict, m, rfl, hcells, hid⟩, (obj_bump ..).trans (if_pos rfl)⟩
  · exact ⟨⟨s.dict, m, rfl, hcells, hid⟩, rfl⟩

theorem scrubbed_spec (s : State) (k : Nat) : (s.scrubbed k).mem.cells = s.mem.cells ∧ (s.scrubbed k).mem.nextId = s.mem.nextId + 1 ∧ (s.scrubbed k).time = s.time ∧
    (s.scrubbed k).obj Key.scrubPasses = if s.mem.capacity ≤ 64 * (s.memChan k).scrubNext + 64 then (s.obj Key.scrubPasses + 1) % 256 ^ lenOf Key.scrubPasses else s.obj Key.scrubPasses := by
  obtain ⟨⟨d, m, hform, hcells, hid⟩, hpasses⟩ := scrubbing_spec s k
  have hid' : (s.scrubbing k).mem.nextId = s.mem.nextId := by rw [hform]; exact hid
  have hcells' : (s.scrubbing k).mem.cells = s.mem.cells := by rw [hform]; exact hcells
  have htime : (s.scrubbing k).time = s.time := by rw [hform]; rfl
  unfold scrubbed
  generalize (64 * (s.memChan k).scrubNext / s.grain * s.lanes0 + s.obj (Key.memchLane k)) * s.grain + 64 * (s.memChan k).scrubNext % s.grain = a
  obtain ⟨⟨d', m', henqueue, hsame⟩, hkeeps, -⟩ := onlyRequests_enqueue (s.scrubbing k) .scrub 3 false a 64 [] []
  refine ⟨?_, ?_, ?_, ?_⟩
  · rw [henqueue]
    exact hsame.trans hcells'
  · rw [nextId_enqueue, hid']
  · rw [henqueue]
    exact htime
  · rw [hkeeps _ (by unfold isMemCounter Key.scrubPasses Key.memLostWrites Key.memLostReads Key.memchInorder; omega), hpasses]

theorem serving_lt (s : State) : ∀ k ∈ s.serving, k < 16 := fun _ hk => List.mem_range.mp (List.mem_filter.mp hk).1

theorem mem_serving {s : State} {k : Nat} (hk : k < 16) : k ∈ s.serving ↔ s.chanServes k = true := by
  unfold serving
  rw [List.mem_filter, List.mem_range]
  exact ⟨fun h => h.2, fun h => ⟨hk, h⟩⟩

/-- Rates that modules support fit their object. -/
theorem rate_lt {r d : Nat} (h : r ∈ ratesOf d) : r < 65536 := by
  unfold ratesOf at h
  split at h <;> simp only [List.mem_cons, List.not_mem_nil, or_false] at h <;> omega

/-- Every channel in service retrains at the new rate. -/
theorem retrainAll_spec (s : State) {r : Nat} (hr : r < 65536) : (s.retrainAll r).obj Key.memSpeed = r ∧
    (∀ k < 16, (s.retrainAll r).obj (Key.memchState k) = if s.chanServes k = true then 2 else s.obj (Key.memchState k)) ∧ (s.retrainAll r).mem.cells = s.mem.cells := by
  have hserving : (s.setObj Key.memSpeed r).obj Key.memSpeed = r := by
    rw [obj_setObj, if_pos rfl, lenOf_memSpeed]
    exact Nat.mod_eq_of_lt hr
  obtain ⟨⟨d, hd⟩, hobj⟩ := foldl_setState_spec s.serving (serving_lt s) (s.setObj Key.memSpeed r)
  have hret : ∀ j, (s.retrainAll r).obj j = (s.serving.foldl (fun y k => y.setObj (Key.memchState k) 2) (s.setObj Key.memSpeed r)).obj j := fun _ => rfl
  refine ⟨?_, fun k hk => ?_, ?_⟩
  · rw [hret, hobj, if_neg, hserving]
    rintro ⟨k, -, h⟩
    unfold Key.memSpeed Key.memchState at h
    omega
  · have hsome : (∃ j ∈ s.serving, Key.memchState k = Key.memchState j) ↔ s.chanServes k = true := by
      rw [← mem_serving hk]
      refine ⟨?_, fun h => ⟨k, h, rfl⟩⟩
      rintro ⟨j, hj, h⟩
      obtain rfl : k = j := by unfold Key.memchState at h; omega
      exact hj
    have hspeed : Key.memchState k ≠ Key.memSpeed := by unfold Key.memchState Key.memSpeed; omega
    rw [hret, hobj, obj_setObj, if_neg hspeed]
    exact if_congr hsome rfl rfl
  · unfold retrainAll
    dsimp only
    rw [hd]
    rfl

end State

open State

/-- A remap that completes lets the requests that waited for it enter again, and is an event. -/
theorem completes_remapComplete {s : State} {lane w : Nat} {rest : List (Nat × Nat)} (hremaps : s.mem.remaps = (lane, w) :: rest) :
    Completes .remapComplete s fun t => t.mem.remaps = rest ∧ (rest = [] → t.mem.waiting = []) ∧ tabGet 0 t.pev.evtCount 4 = (tabGet 0 s.pev.evtCount 4 + 1) % 2 ^ 32 := by
  have hexec : exec .remapComplete s = .next ((s.remapped lane rest).raiseEvent 4).readmit.refreshSpares := by
    refine (exec_remapComplete s).trans ?_
    unfold execRemapComplete remapped remapping
    rw [hremaps]
  refine ⟨_, hexec, ?_⟩
  have h := attends_remapped s lane rest
  obtain ⟨hmem, hcount⟩ := readmit_spec ((s.remapped lane rest).raiseEvent 4)
  have hspares : Attends ((s.remapped lane rest).raiseEvent 4).readmit ((s.remapped lane rest).raiseEvent 4).readmit.refreshSpares := attends_setPromise ..
  have hraised : ((s.remapped lane rest).raiseEvent 4).mem = (s.remapped lane rest).mem := mem_raiseEvent _ 4
  have hremapped := mem_remapping s lane rest
  refine ⟨?_, fun hrest => ?_, ?_⟩
  · rw [hspares.remaps, hmem, hraised, h.remaps, hremapped.1]
  · refine hspares.waits ?_ ?_
    · rw [hmem, hraised, h.remaps, hremapped.1, hrest]
    · rw [hmem, hraised]
      exact h.waits (hremapped.1.trans hrest) hremapped.2
  · rw [hspares.event, hcount, raiseEvent_count, h.event, event_remapping]

/-- Settles O35: a freeze is O33's (`freeze_spec`), a remap lets the requests that waited enter again (`attends_remapped`), and a new rate retrains the channels in service. -/
theorem channelCommands : Obligations.ChannelCommands := by
  refine ⟨⟨?_, ?_, ?_, ?_⟩, ⟨?_, ?_, ?_, ?_, ?_, ?_, ?_⟩, ?_, ?_, ?_, ?_, ?_, ?_⟩
  · intro s k hserves htime
    refine ⟨_, by rw [exec_rcdAlert, execRcdAlert, if_pos hserves], ?_⟩
    have h := freeze_spec s k.isLt (cause := 3) (by decide) none 0
    refine ⟨h.state, h.freezes, h.queue, h.issued, h.aside, h.cause, ?_, h.lanes, h.remaps, h.cells⟩
    rw [h.diag, fieldAt_diagImage_time]
    exact Nat.mod_eq_of_lt htime
  · intro s k hserves
    rw [exec_rcdAlert, execRcdAlert, if_neg (by simp [hserves])]
  · intro s k w hlast hserves htries
    have hexec : exec (.writeCrcError k) s = .next ((s.putMemChan k.val { s.memChan k.val with crcTries := (s.memChan k.val).crcTries + 1 }).bump (Key.memchCrcRetries k.val)) := by
      rw [exec_writeCrcError, execWriteCrcError]
      simp [hlast, hserves, Nat.not_le.mpr htries]
    refine ⟨_, hexec, ?_, ?_, rfl, ?_⟩
    · exact congrArg MemChan.crcTries (memChan_putMemChan_same s k.val _)
    · rw [obj_bump, if_pos rfl, lenOf_memchCrcRetries k.val k.isLt]
      rfl
    · exact KeepsBut.trans (P := (· ∈ [Key.memchCrcRetries k.val])) (t := s.putMemChan k.val _) (keepsBut_of_dict rfl) (keepsBut_bump (List.mem_singleton.mpr rfl) _)
  · intro s k w hlast hserves htries
    have hexec : exec (.writeCrcError k) s = .next ((s.loseWrite w).freeze k.val 4 (some w) 0) := by
      rw [exec_writeCrcError, execWriteCrcError]
      simp [hlast, hserves, htries]
    have h := freeze_spec (s.loseWrite w) k.isLt (cause := 4) (by decide) (some w) 0
    exact ⟨_, hexec, h.state, h.cause⟩
  · intro s hremaps
    rw [exec_remapComplete, execRemapComplete]
    simp only [hremaps]
  · rintro s ⟨lane, w⟩ rest hremaps
    exact completes_remapComplete hremaps
  · intro s k d hstate
    have hexec : exec (.refresh ⟨k, d⟩) s = .next ((s.setObj (Key.memchTemp k.val) d.toNat).putMemChan k.val
        { s.memChan k.val with postponed := if s.anyPanic then min Config.postponeMax ((s.memChan k.val).postponed + 1) else 0 }) := by
      rw [exec_refresh, execRefresh]
      simp only [hstate, ne_eq, not_true_eq_false, if_false]
      rfl
    refine ⟨_, hexec, ?_⟩
    dsimp only
    rw [memChan_putMemChan_same, obj_putMemChan, obj_setObj, if_pos rfl, lenOf_memchTemp k.val k.isLt]
    refine ⟨rfl, rfl, Nat.mod_eq_of_lt d.isLt, rfl, ?_, rfl⟩
    exact KeepsBut.trans (P := (· ∈ [Key.memchTemp k.val])) (keepsBut_setObj (List.mem_singleton.mpr rfl) s d.toNat) (keepsBut_of_dict rfl)
  · intro s k hstate hq hi hidle
    have hexec : exec (.selfRefreshEntry k) s = .next ((s.setObj (Key.memchState k.val) 4).bump (Key.memchSrEntries k.val)) := by
      rw [exec_selfRefreshEntry, execSelfRefreshEntry]
      simp [hstate, hq, hi, Nat.not_lt.mpr hidle]
    have hne : Key.memchState k.val ≠ Key.memchSrEntries k.val := by unfold Key.memchState Key.memchSrEntries; omega
    refine ⟨_, hexec, ?_, ?_, rfl, ?_⟩
    · rw [obj_bump, if_neg hne, obj_setObj, if_pos rfl, lenOf_memchState k.val k.isLt]
      rfl
    · rw [obj_bump, if_pos rfl, obj_setObj, if_neg hne.symm, lenOf_memchSrEntries k.val k.isLt]
      rfl
    · exact KeepsBut.trans (P := (· ∈ [Key.memchState k.val, Key.memchSrEntries k.val])) (keepsBut_setObj (by simp) s 4) (keepsBut_bump (by simp) _)
  · intro s k hq
    rw [exec_selfRefreshEntry, execSelfRefreshEntry]
    simp [hq]
  · intro s k hstate hq
    rw [exec_selfRefreshExit, execSelfRefreshExit]
    simp [hstate, hq]
  · intro s k hserves hlanes
    have hexec : exec (.scrubRead k) s = .next (s.scrubbed k.val) := by
      rw [exec_scrubRead, execScrubRead]
      simp only [hserves, Bool.not_true, Bool.false_eq_true, hlanes, or_self, if_false]
      rfl
    obtain ⟨hcells, hid, htime, hpasses⟩ := scrubbed_spec s k.val
    refine ⟨_, hexec, hcells, hid, htime, fun h => ?_, fun h => ?_⟩
    · rw [hpasses, if_neg (Nat.not_le.mpr h)]
    · rw [hpasses, if_pos h]
  · intro s r hready hrate
    rw [exec_memSpeedReq, execMemSpeedReq]
    refine congrArg _ (act_of_ready hready ?_)
    simp [immMemSpeedReq, hrate]
  · intro s r hready hrate htrain
    have himm : immMemSpeedReq r s = (Res.deferred, (s.withMem { s.mem with speedReq := some r }).setObj Key.memSpeedReq r) := by simp [immMemSpeedReq, hrate, htrain]
    refine ⟨_, by rw [exec_memSpeedReq, execMemSpeedReq, act_of_ready hready himm], rfl, rfl, ?_⟩
    exact (obj_setObj ..).trans (if_neg (by decide))
  · intro s r hready hrate htrain hreal
    rw [exec_memSpeedReq, execMemSpeedReq]
    refine congrArg _ (act_of_ready hready ?_)
    simp [immMemSpeedReq, hrate, htrain, hreal]
  · intro s r hready hrate htrain hreal
    have himm : immMemSpeedReq r s = (Res.done, (s.setObj Key.memSpeedReq r).retrainAll r) := by simp [immMemSpeedReq, hrate, htrain, hreal]
    obtain ⟨hspeed, hstate, hcells⟩ := retrainAll_spec (s.setObj Key.memSpeedReq r) (rate_lt hrate)
    have hkey : ∀ k, (s.setObj Key.memSpeedReq r).obj (Key.memchState k) = s.obj (Key.memchState k) := fun k => (obj_setObj ..).trans (if_neg (by unfold Key.memchState Key.memSpeedReq; omega))
    have hserves : ∀ k, (s.setObj Key.memSpeedReq r).chanServes k = s.chanServes k := fun k => by
      unfold chanServes
      rw [hkey]
    have hexec : exec (.memSpeedReq r) s = .next (((s.setObj Key.memSpeedReq r).retrainAll r).withResult Res.done) := by rw [exec_memSpeedReq, execMemSpeedReq, act_of_ready hready himm]
    refine ⟨_, hexec, rfl, hspeed, fun k hk hk' => ?_, fun k hk hk' => ?_, hcells⟩
    · exact (hstate k hk).trans (if_pos ((hserves k).trans hk'))
    · exact ((hstate k hk).trans (if_neg (by rw [hserves, hk']; decide))).trans (hkey k)
  · intro s k hready hstate
    rw [exec_memchRetrain, execMemchRetrain]
    refine congrArg _ (act_of_ready hready ?_)
    simp [immMemchRetrain, hstate]
  · intro s k hready hstate
    have himm : immMemchRetrain k.val s = (Res.done, s.putMemChan k.val { s.memChan k.val with diagTraining := true }) := by simp [immMemchRetrain, hstate]
    have hexec : exec (.memchRetrain k) s = .next ((s.putMemChan k.val { s.memChan k.val with diagTraining := true }).withResult Res.done) := by
      rw [exec_memchRetrain, execMemchRetrain, act_of_ready hready himm]
    exact ⟨_, hexec, rfl, congrArg MemChan.diagTraining (memChan_putMemChan_same s k.val _), hstate, rfl⟩

end Sys2Proof.Machine
end

section
/-! Drive writes, failures and restarts (11 R306, R309, R311, R318; 19 R508). -/

namespace Sys2Proof.Machine
namespace State

theorem drive_putDrive (s : State) (d j : Nat) (x : Drive) : (s.putDrive d x).drive j = if j = d then x else s.drive j := by simp [drive, putDrive]

theorem drive_putDrive_same (s : State) (d : Nat) (x : Drive) : (s.putDrive d x).drive d = x := by rw [drive_putDrive, if_pos rfl]

theorem obj_putDrive (s : State) (d : Nat) (x : Drive) (k : Nat) : (s.putDrive d x).obj k = s.obj k := rfl

/-- Objects of several units that take one value. -/
theorem foldl_setConst_spec {key : Nat → Nat} {v : Nat} {l : List Nat} (hl : ∀ k ∈ l, v % 256 ^ lenOf (key k) = v) (u : State) :
    (∃ d, l.foldl (fun y k => y.setObj (key k) v) u = u.withDict d) ∧ ∀ j, (l.foldl (fun y k => y.setObj (key k) v) u).obj j = if ∃ k ∈ l, j = key k then v else u.obj j := by
  induction l generalizing u with
  | nil => exact ⟨⟨u.dict, rfl⟩, fun j => by simp⟩
  | cons k l ih =>
    obtain ⟨⟨d, hd⟩, hobj⟩ := ih (fun k hk => hl k (List.mem_cons_of_mem _ hk)) (u.setObj (key k) v)
    refine ⟨⟨d, ?_⟩, fun j => ?_⟩
    · rw [List.foldl_cons, hd]
      rfl
    · rw [List.foldl_cons, hobj, obj_setObj, hl k List.mem_cons_self]
      by_cases hj : j = key k
      · simp [hj]
      · simp [hj]

/-! ### A drive that fails -/

/-- Records are dropped and reads fail: segments stand, and the objects but for those counted. -/
def Drops (s t : State) : Prop := t.recd.segments = s.recd.segments ∧ KeepsBut (fun k => k = Key.recDropped ∨ ∃ n, k = Key.recNsReadState n) s t

theorem Drops.refl (s : State) : Drops s s := ⟨rfl, .refl s⟩

theorem Drops.trans {s t u : State} (h : Drops s t) (h' : Drops t u) : Drops s u := ⟨h'.1.trans h.1, h.2.trans h'.2⟩

theorem drops_foldl {α : Type} (l : List α) (f : State → α → State) (h : ∀ s x, Drops s (f s x)) (s : State) : Drops s (l.foldl f s) := by
  induction l generalizing s with
  | nil => exact .refl s
  | cons x l ih => exact (h s x).trans (ih _)

theorem drops_dropRecord (s : State) (r : Record) : Drops s (s.dropRecord r) :=
  ⟨rfl, KeepsBut.trans (t := s.updRecord { r with placed := true, acked := true, location := notStored }) (keepsBut_of_dict rfl) (keepsBut_bump (.inl rfl) _)⟩

/-- A drive that failed, before the namespaces that it serves follow. -/
def driveFailed (s : State) (d : Nat) : State :=
  let s1 := ((s.setObj (Key.recDriveState d) 3).putDrive d { s.drive d with writes := [] }).raiseEvent 14
  s1.withRecd { s1.recd with failed := s1.recd.failed ++ (List.range 16).filter fun n => s.obj (Key.recNsDrive n) == d && !s.recd.failed.contains n }

/-- The namespaces of a drive that failed, their segments abandoned. -/
def spacesFailed (s : State) (d : Nat) : State :=
  let s2 := (s.driveSpaces d).foldl (fun y n => y.setObj (Key.recNsState n) 3) (s.driveFailed d)
  s2.putSegments (s2.recd.segments.filter fun x => !(s.driveSpaces d).contains x.ns)

theorem drops_failDrive (s : State) (d : Nat) : Drops (s.spacesFailed d) (s.failDrive d) := by
  unfold failDrive
  extract_lets spaces x s1 r s1' s2 s3 s4
  have h3 : s3 = s.spacesFailed d := rfl
  have h4 : Drops s3 s4 := drops_foldl _ _ drops_dropRecord s3
  rw [← h3]
  refine h4.trans (drops_foldl _ _ (fun y n => ?_) s4)
  split
  · exact ⟨rfl, KeepsBut.trans (t := y.withRecd _) (keepsBut_of_dict rfl) (keepsBut_setObj (.inr ⟨n, rfl⟩) _ _)⟩
  · exact .refl y

theorem driveSpaces_lt {s : State} {d n : Nat} (h : n ∈ s.driveSpaces d) : n < 16 := List.mem_range.mp (List.mem_filter.mp h).1

theorem mem_driveSpaces {s : State} {d n : Nat} (hn : n < 16) : n ∈ s.driveSpaces d ↔ s.obj (Key.recNsDrive n) = d ∧ s.obj (Key.recNsState n) ≠ 0 := by
  unfold driveSpaces
  rw [List.mem_filter, List.mem_range]
  simp [hn]

theorem obj_driveFailed (s : State) {d : Nat} (hd : d < 4) (k : Nat) : (s.driveFailed d).obj k = if k = Key.recDriveState d then 3 else s.obj k := by
  have h : (s.driveFailed d).obj k = (((s.setObj (Key.recDriveState d) 3).putDrive d { s.drive d with writes := [] }).raiseEvent 14).obj k := rfl
  rw [h, obj_raiseEvent, obj_putDrive, obj_setObj, lenOf_recDriveState d hd]
  rfl

theorem obj_spacesFailed (s : State) {d : Nat} (hd : d < 4) {k : Nat} (hk : k ≠ Key.recSignQueue) :
    (s.spacesFailed d).obj k = if ∃ n ∈ s.driveSpaces d, k = Key.recNsState n then 3 else if k = Key.recDriveState d then 3 else s.obj k := by
  obtain ⟨-, hobj⟩ := foldl_setConst_spec (key := Key.recNsState) (v := 3) (l := s.driveSpaces d) (fun n hn => by rw [lenOf_recNsState n (driveSpaces_lt hn)]; rfl) (s.driveFailed d)
  unfold spacesFailed
  extract_lets s2
  have hput := (onlySegments_putSegments s2 (s2.recd.segments.filter fun x => !(s.driveSpaces d).contains x.ns)).2 k hk
  rw [hput, hobj, obj_driveFailed s hd]

theorem segments_spacesFailed (s : State) (d : Nat) : ∀ x ∈ (s.spacesFailed d).recd.segments, x.ns ∉ s.driveSpaces d := by
  intro x hx
  have := (List.mem_filter.mp (hx : x ∈ ((s.driveSpaces d).foldl (fun y n => y.setObj (Key.recNsState n) 3) (s.driveFailed d)).recd.segments.filter fun x => !(s.driveSpaces d).contains x.ns)).2
  simpa using this

/-- A drive that fails is FAILED with the namespaces that it serves, and no others; their segments are gone. -/
theorem failDrive_spec (s : State) {d : Nat} (hd : d < 4) : (s.failDrive d).obj (Key.recDriveState d) = 3 ∧
    (∀ n < 16, s.obj (Key.recNsDrive n) = d → s.obj (Key.recNsState n) ≠ 0 → (s.failDrive d).obj (Key.recNsState n) = 3 ∧ ∀ x ∈ (s.failDrive d).recd.segments, x.ns ≠ n) ∧
    (∀ n < 16, s.obj (Key.recNsDrive n) ≠ d → (s.failDrive d).obj (Key.recNsState n) = s.obj (Key.recNsState n)) := by
  obtain ⟨hseg, hkeys⟩ := drops_failDrive s d
  have hstate : ∀ n, n < 16 → (s.failDrive d).obj (Key.recNsState n) = if n ∈ s.driveSpaces d then 3 else s.obj (Key.recNsState n) := fun n hn => by
    have hsome : (∃ j ∈ s.driveSpaces d, Key.recNsState n = Key.recNsState j) ↔ n ∈ s.driveSpaces d := by
      refine ⟨?_, fun h => ⟨n, h, rfl⟩⟩
      rintro ⟨j, hj, h⟩
      obtain rfl : n = j := by unfold Key.recNsState at h; omega
      exact hj
    rw [hkeys _ (by unfold Key.recNsState Key.recDropped Key.recNsReadState; omega), obj_spacesFailed s hd (by unfold Key.recNsState Key.recSignQueue; omega), if_congr hsome rfl rfl,
      if_neg (show Key.recNsState n ≠ Key.recDriveState d by unfold Key.recNsState Key.recDriveState; omega)]
  refine ⟨?_, fun n hn hdrive hon => ⟨?_, fun x hx => ?_⟩, fun n hn hdrive => ?_⟩
  · rw [hkeys _ (by unfold Key.recDriveState Key.recDropped Key.recNsReadState; omega), obj_spacesFailed s hd (by unfold Key.recDriveState Key.recSignQueue; omega), if_pos rfl, ite_self]
  · rw [hstate n hn, if_pos ((mem_driveSpaces hn).mpr ⟨hdrive, hon⟩)]
  · rw [hseg] at hx
    rintro rfl
    exact segments_spacesFailed s d x hx ((mem_driveSpaces hn).mpr ⟨hdrive, hon⟩)
  · rw [hstate n hn, if_neg fun h => hdrive ((mem_driveSpaces hn).mp h).1]

/-! ### A drive that comes up -/

/-- A namespace of a drive that has come up. -/
def readyOn (d : Nat) (y : State) (n : Nat) : State := if y.obj (Key.recNsDrive n) = d then y.spaceReady n else y

/-- May a namespace be ready with its drive? -/
def MayReady (d : Nat) (y : State) (n : Nat) : Prop :=
  y.obj (Key.recNsDrive n) = d ∧ y.flag (Key.recNsEnable n) = true ∧ y.obj (Key.recNsState n) = 0 ∧ y.obj (Key.recDriveState d) = 2 ∧ y.recd.failed.contains n = false

theorem readyOn_cases (d : Nat) (y : State) (n : Nat) : (¬MayReady d y n ∧ readyOn d y n = y) ∨ (MayReady d y n ∧ readyOn d y n = y.setObj (Key.recNsState n) 1) := by
  unfold readyOn spaceReady
  by_cases hd : y.obj (Key.recNsDrive n) = d
  · rw [if_pos hd]
    by_cases h : MayReady d y n
    · obtain ⟨h1, h2, h3, h4, h5⟩ := h
      exact .inr ⟨⟨h1, h2, h3, h4, h5⟩, if_pos ⟨h2, h3, by rw [h1]; exact h4, by simp only [h5]; rfl⟩⟩
    · refine .inl ⟨h, if_neg ?_⟩
      rintro ⟨h2, h3, h4, h5⟩
      exact h ⟨hd, h2, h3, by rwa [hd] at h4, by simpa using h5⟩
  · rw [if_neg hd]
    exact .inl ⟨fun h => hd h.1, rfl⟩

theorem foldl_readyOn_spec (d : Nat) (l : List Nat) (hl : ∀ n ∈ l, n < 16) (y : State) : (∃ x, l.foldl (readyOn d) y = y.withDict x) ∧
    (∀ j, (∀ n ∈ l, y.obj (Key.recNsDrive n) = d → j ≠ Key.recNsState n) → (l.foldl (readyOn d) y).obj j = y.obj j) ∧
    (∀ n, y.obj (Key.recNsState n) = 1 → (l.foldl (readyOn d) y).obj (Key.recNsState n) = 1) ∧
    (∀ n ∈ l, MayReady d y n → (l.foldl (readyOn d) y).obj (Key.recNsState n) = 1) := by
  induction l generalizing y with
  | nil => exact ⟨⟨y.dict, rfl⟩, fun _ _ => rfl, fun _ h => h, fun n hn => (List.not_mem_nil hn).elim⟩
  | cons k l ih =>
    rw [List.foldl_cons]
    have hl' : ∀ n ∈ l, n < 16 := fun n hn => hl n (List.mem_cons_of_mem _ hn)
    rcases readyOn_cases d y k with ⟨hno, hstep⟩ | ⟨hmay, hstep⟩
    · rw [hstep]
      obtain ⟨hform, hkeep, hone, hready⟩ := ih hl' y
      refine ⟨hform, fun j hj => hkeep j fun n hn => hj n (List.mem_cons_of_mem _ hn), hone, fun n hn hn' => ?_⟩
      rcases List.mem_cons.mp hn with rfl | hn
      · exact absurd hn' hno
      · exact hready n hn hn'
    · rw [hstep]
      obtain ⟨⟨x, hform⟩, hkeep, hone, hready⟩ := ih hl' (y.setObj (Key.recNsState k) 1)
      have hself : (y.setObj (Key.recNsState k) 1).obj (Key.recNsState k) = 1 := by
        rw [obj_setObj, if_pos rfl, lenOf_recNsState k (hl k List.mem_cons_self)]
        rfl
      have hother : ∀ j, j ≠ Key.recNsState k → (y.setObj (Key.recNsState k) 1).obj j = y.obj j := fun j hj => by rw [obj_setObj, if_neg hj]
      have hdrive : ∀ n, (y.setObj (Key.recNsState k) 1).obj (Key.recNsDrive n) = y.obj (Key.recNsDrive n) := fun n => hother _ (by unfold Key.recNsDrive Key.recNsState; omega)
      refine ⟨⟨x, by rw [hform]; rfl⟩, fun j hj => ?_, fun n hn => hone n ?_, fun n hn hn' => ?_⟩
      · rw [hkeep j fun n hn hdn => hj n (List.mem_cons_of_mem _ hn) (by rwa [hdrive] at hdn), hother j (hj k List.mem_cons_self hmay.1)]
      · by_cases hnk : Key.recNsState n = Key.recNsState k
        · rw [hnk]
          exact hself
        · rw [hother _ hnk, hn]
      · by_cases hnk : n = k
        · rw [hnk]
          exact hone k hself
        · rcases List.mem_cons.mp hn with h | hn
          · exact absurd h hnk
          · obtain ⟨h1, h2, h3, h4, h5⟩ := hn'
            refine hready n hn ⟨(hdrive n).trans h1, ?_, ?_, ?_, h5⟩
            · unfold flag
              rw [hother _ (by unfold Key.recNsEnable Key.recNsState; omega)]
              exact h2
            · rw [hother _ (by unfold Key.recNsState; omega), h3]
            · rw [hother _ (by unfold Key.recDriveState Key.recNsState; omega), h4]

/-! ### Writes that complete -/

/-- A drive that has written its oldest item: what it holds, and the bytes written. -/
def wrote (s : State) (d : Nat) (w : DriveWrite) (rest : List DriveWrite) : State :=
  let s1 := s.putDrive d { s.drive d with writes := rest }
  (s1.withRecd { s1.recd with stored := { drive := d, nsid := s.obj (Key.recNsNsid w.ns), lba := w.lba, data := w.data } :: s1.recd.stored }).addObj Key.recWritten w.data.length

theorem wrote_changes (s : State) (d : Nat) (w : DriveWrite) (rest : List DriveWrite) : ∃ x r, s.wrote d w rest = (s.withDict x).withRecd r := by
  unfold wrote
  exact ⟨_, _, rfl⟩

theorem obj_wrote (s : State) (d : Nat) (w : DriveWrite) (rest : List DriveWrite) (k : Nat) :
    (s.wrote d w rest).obj k = if k = Key.recWritten then (s.obj Key.recWritten + w.data.length) % 2 ^ 64 else s.obj k := by
  unfold wrote
  rw [obj_addObj, lenOf_recWritten]
  rfl

theorem drive_wrote (s : State) (d : Nat) (w : DriveWrite) (rest : List DriveWrite) : ((s.wrote d w rest).drive d).writes = rest :=
  congrArg Drive.writes (drive_putDrive_same s d { s.drive d with writes := rest })

/-- A segment whose manifest is written leaves the recorder and counts. -/
def logged (s : State) (id : Nat) : State := ((s.putSegments (s.recd.segments.filter fun y => y.id != id)).bump Key.recSegments).raiseEvent 14

theorem logged_spec (s : State) (id : Nat) : (s.logged id).recd.segments = s.recd.segments.filter (fun y => y.id != id) ∧ (s.logged id).outbox = s.outbox ∧
    ∀ k, k ≠ Key.recSignQueue → (s.logged id).obj k = if k = Key.recSegments then (s.obj k + 1) % 2 ^ 64 else s.obj k := by
  unfold logged
  have hseg : (s.putSegments (s.recd.segments.filter fun y => y.id != id)).recd.segments = s.recd.segments.filter fun y => y.id != id := rfl
  have hbox : (s.putSegments (s.recd.segments.filter fun y => y.id != id)).outbox = s.outbox := rfl
  have hkeep : ∀ k, k ≠ Key.recSignQueue → (s.putSegments (s.recd.segments.filter fun y => y.id != id)).obj k = s.obj k :=
    (onlySegments_putSegments s (s.recd.segments.filter fun y => y.id != id)).2
  generalize s.putSegments (s.recd.segments.filter fun y => y.id != id) = u at hseg hbox hkeep ⊢
  have hraise : ∀ y : State, (y.raiseEvent 14).recd = y.recd ∧ (y.raiseEvent 14).outbox = y.outbox := fun y => by
    obtain ⟨p, h⟩ := raiseEvent_changes y 14
    rw [h]
    exact ⟨rfl, rfl⟩
  refine ⟨?_, ?_, fun k hk => ?_⟩
  · rw [(hraise _).1]
    exact hseg
  · rw [(hraise _).2]
    exact hbox
  · rw [obj_raiseEvent, obj_bump, lenOf_recSegments, hkeep k hk, hkeep _ (by decide)]
    split
    · rename_i h
      rw [h]
      rfl
    · rfl

theorem writeLabel_spec (s : State) (n : Nat) : (s.writeLabel n).recd.segments = s.recd.segments ∧ (∀ k, (s.writeLabel n).obj k = s.obj k) ∧
    (s.writeLabel n).outbox = s.outbox ++ [.nvme (s.obj (Key.recNsDrive n)) (s.obj (Key.recNsNsid n)) (s.obj (Key.recNsFirst n)) (s.labelBytes n)] := ⟨rfl, fun _ => rfl, rfl⟩

end State

open State

theorem completes_recordWritten {s : State} {d : Fin 4} {w : DriveWrite} {rest : List DriveWrite} {r : Record} (hw : (s.drive d.val).writes = w :: rest) (hkind : w.kind = 0)
    (hr : s.record? w.ctx w.number = some r) : Completes (.nvmeWriteComplete d true) s fun t => t.record? w.ctx w.number = some { r with acked := true } ∧
      (t.drive d.val).writes = rest ∧ t.outbox = s.outbox ∧ t.obj Key.recWritten = (s.obj Key.recWritten + w.data.length) % 2 ^ 64 ∧ KeepsObjects [Key.recWritten] s t := by
  obtain ⟨-, hc, hn⟩ := record?_eq_some hr
  obtain ⟨x, y, hform⟩ := wrote_changes s d.val w rest
  have hrec : (s.wrote d.val w rest).record? w.ctx w.number = some r := by rw [hform]; exact hr
  have hexec : exec (.nvmeWriteComplete d true) s = .next ((s.wrote d.val w rest).updRecord { r with acked := true }) := by
    rw [exec_nvmeWriteComplete, execNvmeWriteComplete]
    simp only [hw, Bool.not_true, Bool.false_eq_true, if_false, hkind, if_true, OfNat.zero_ne_ofNat]
    have := hrec
    unfold wrote at this
    simp only [this]
    rfl
  refine ⟨_, hexec, ?_, drive_wrote s d.val w rest, ?_, ?_, fun k hk => ?_⟩
  · rw [← hc, ← hn]
    exact record?_updRecord (r' := { r with acked := true }) (by rw [hc, hn]; exact hrec)
  · rw [hform]
    rfl
  · rw [obj_updRecord, obj_wrote, if_pos rfl]
  · rw [obj_updRecord, obj_wrote, if_neg (List.ne_of_not_mem_cons hk)]

theorem completes_manifestWritten {s : State} {d : Fin 4} {w : DriveWrite} {rest : List DriveWrite} (hw : (s.drive d.val).writes = w :: rest) (hkind : w.kind = 1) :
    Completes (.nvmeWriteComplete d true) s fun t => t.obj Key.recSegments = (s.obj Key.recSegments + 1) % 2 ^ 64 ∧ (∀ y ∈ t.recd.segments, y.id ≠ w.number) ∧
      ∃ label, t.outbox = s.outbox ++ [.nvme (s.obj (Key.recNsDrive w.ns)) (s.obj (Key.recNsNsid w.ns)) (s.obj (Key.recNsFirst w.ns)) label] := by
  obtain ⟨x, y, hform⟩ := wrote_changes s d.val w rest
  have hexec : exec (.nvmeWriteComplete d true) s = .next (((s.wrote d.val w rest).logged w.number).writeLabel w.ns) := by
    rw [exec_nvmeWriteComplete, execNvmeWriteComplete]
    simp only [hw, Bool.not_true, Bool.false_eq_true, if_false, hkind, if_true, OfNat.one_ne_ofNat, one_ne_zero]
    rfl
  have hbox : (s.wrote d.val w rest).outbox = s.outbox := by rw [hform]; rfl
  obtain ⟨hseg, hbox', hobj⟩ := logged_spec (s.wrote d.val w rest) w.number
  obtain ⟨hseg', hobj', hbox''⟩ := writeLabel_spec ((s.wrote d.val w rest).logged w.number) w.ns
  have hsame : ∀ k, 0x1A1000 ≤ k → ((s.wrote d.val w rest).logged w.number).obj k = s.obj k := fun k hk => by
    rw [hobj k (by unfold Key.recSignQueue; omega), if_neg (by unfold Key.recSegments; omega), obj_wrote, if_neg (by unfold Key.recWritten; omega)]
  refine ⟨_, hexec, ?_, fun z hz => ?_, ((s.wrote d.val w rest).logged w.number).labelBytes w.ns, ?_⟩
  · rw [hobj', hobj _ (by decide), if_pos rfl, obj_wrote, if_neg (by decide)]
  · rw [hseg', hseg] at hz
    simpa using (List.mem_filter.mp hz).2
  · rw [hbox'', hbox', hbox, hsame _ (by unfold Key.recNsDrive; omega), hsame _ (by unfold Key.recNsNsid; omega), hsame _ (by unfold Key.recNsFirst; omega)]

theorem linkLanes_le (split : Nat) : linkLanes split ≤ 16 := Nat.div_le_self _ _

namespace State

/-- A drive that has come up, before its namespaces are ready. -/
def broughtUp (s : State) (d w : Nat) (m : Bytes) (ids : List (Nat × Nat × Bool)) : State :=
  (((s.setObj (Key.recDriveState d) 2).setObj (Key.recDriveWidth d) (min w (linkLanes (s.obj Key.recBifurcation)))).setObj (Key.recDriveModel d) (leNat (m.take 40))).putDrive d
    { s.drive d with nsids := ids }

theorem broughtUp_spec (s : State) {d : Nat} (hd : d < 4) (w : Nat) (m : Bytes) (ids : List (Nat × Nat × Bool)) : (s.broughtUp d w m ids).obj (Key.recDriveState d) = 2 ∧
    (s.broughtUp d w m ids).obj (Key.recDriveWidth d) = min w (linkLanes (s.obj Key.recBifurcation)) ∧ ((s.broughtUp d w m ids).drive d).nsids = ids ∧
    (s.broughtUp d w m ids).recd.failed = s.recd.failed ∧ KeepsObjects [Key.recDriveState d, Key.recDriveWidth d, Key.recDriveModel d] s (s.broughtUp d w m ids) := by
  have hws : Key.recDriveState d ≠ Key.recDriveWidth d := by unfold Key.recDriveState Key.recDriveWidth; omega
  have hms : Key.recDriveState d ≠ Key.recDriveModel d := by unfold Key.recDriveState Key.recDriveModel; omega
  have hmw : Key.recDriveWidth d ≠ Key.recDriveModel d := by unfold Key.recDriveWidth Key.recDriveModel; omega
  have hwidth : min w (linkLanes (s.obj Key.recBifurcation)) < 256 ^ 1 := (Nat.min_le_right _ _).trans_lt ((linkLanes_le _).trans_lt (by decide))
  unfold broughtUp
  refine ⟨?_, ?_, ?_, rfl, fun k hk => ?_⟩
  · rw [obj_putDrive, obj_setObj, if_neg hms, obj_setObj, if_neg hws, obj_setObj, if_pos rfl, lenOf_recDriveState d hd]
    rfl
  · rw [obj_putDrive, obj_setObj, if_neg hmw, obj_setObj, if_pos rfl, lenOf_recDriveWidth d hd]
    exact Nat.mod_eq_of_lt hwidth
  · exact congrArg Drive.nsids (drive_putDrive_same _ d _)
  · simp only [List.mem_cons, List.not_mem_nil, or_false, not_or] at hk
    rw [obj_putDrive, obj_setObj, if_neg hk.2.2, obj_setObj, if_neg hk.2.1, obj_setObj, if_neg hk.1]

end State

theorem completes_nvmeDriveReady {s : State} {d : Fin 4} {w : Nat} {m : Bytes} {ids : List (Nat × Nat × Bool)} (hstate : s.obj (Key.recDriveState d.val) = 1)
    (hrestart : (s.drive d.val).restartAt = 0) (hswap : s.obj Key.fwSwapState ≠ 2) :
    Completes (.nvmeDriveReady d w m ids []) s fun t => t.obj (Key.recDriveState d.val) = 2 ∧ t.obj (Key.recDriveWidth d.val) = min w (linkLanes (s.obj Key.recBifurcation)) ∧ (t.drive d.val).nsids = ids ∧
      (∀ n < 16, s.obj (Key.recNsDrive n) ≠ d.val → t.obj (Key.recNsState n) = s.obj (Key.recNsState n)) ∧
      (∀ n < 16, s.obj (Key.recNsDrive n) = d.val → s.flag (Key.recNsEnable n) = true → s.obj (Key.recNsState n) = 0 → s.recd.failed.contains n = false → t.obj (Key.recNsState n) = 1) ∧
      KeepsObjects ([Key.recDriveState d.val, Key.recDriveWidth d.val, Key.recDriveModel d.val] ++ (List.range 16).map Key.recNsState) s t := by
  have hexec : exec (.nvmeDriveReady d w m ids []) s = .next ((List.range 16).foldl (readyOn d.val) (s.broughtUp d.val w m ids)) := by
    rw [exec_nvmeDriveReady, execNvmeDriveReady]
    dsimp only
    rw [if_neg (by simp [hstate, hrestart, hswap]), List.foldl_nil]
    generalize List.range 16 = l
    rfl
  obtain ⟨hup, hwidth, hids, hfailed, hkeep⟩ := broughtUp_spec s d.isLt w m ids
  obtain ⟨⟨x, hform⟩, hsame, -, hready⟩ := foldl_readyOn_spec d.val (List.range 16) (fun n hn => List.mem_range.mp hn) (s.broughtUp d.val w m ids)
  have hns : ∀ k, 0x1A1000 ≤ k → (s.broughtUp d.val w m ids).obj k = s.obj k := fun k hk => hkeep k (by
    simp only [List.mem_cons, List.not_mem_nil, or_false]
    unfold Key.recDriveState Key.recDriveWidth Key.recDriveModel
    omega)
  have hdrives : ∀ k, k < 0x1A1000 → ((List.range 16).foldl (readyOn d.val) (s.broughtUp d.val w m ids)).obj k = (s.broughtUp d.val w m ids).obj k := fun k hk =>
    hsame k fun n _ _ => by unfold Key.recNsState; omega
  refine ⟨_, hexec, ?_, ?_, ?_, fun n hn hdn => ?_, fun n hn hdn hon hoff hfree => ?_, fun k hk => ?_⟩
  · rw [hdrives _ (by unfold Key.recDriveState; omega), hup]
  · rw [hdrives _ (by unfold Key.recDriveWidth; omega), hwidth]
  · rw [hform]
    exact hids
  · rw [hsame _ fun j hj hdj h => ?_, hns _ (by unfold Key.recNsState; omega)]
    obtain rfl : n = j := by unfold Key.recNsState at h; omega
    exact hdn ((hns _ (by unfold Key.recNsDrive; omega)).symm.trans hdj)
  · refine hready n (List.mem_range.mpr hn) ⟨?_, ?_, ?_, hup, ?_⟩
    · rw [hns _ (by unfold Key.recNsDrive; omega), hdn]
    · unfold flag
      rw [hns _ (by unfold Key.recNsEnable; omega)]
      exact hon
    · rw [hns _ (by unfold Key.recNsState; omega), hoff]
    · rw [hfailed, hfree]
  · rw [List.mem_append, not_or] at hk
    rw [hsame k fun n hn _ h => hk.2 (List.mem_map.mpr ⟨n, hn, h.symm⟩)]
    exact hkeep k hk.1

/-- Settles O39: a failed drive takes its namespaces with it (`failDrive_spec`), and a drive that comes up readies those that may be (`foldl_readyOn_spec`). -/
theorem drives : Obligations.Drives := by
  refine ⟨⟨?_, ?_, ?_, ?_, ?_⟩, ?_, ?_, ?_, ?_, ?_⟩
  · exact fun s d w rest r hw hkind hr => completes_recordWritten hw hkind hr
  · exact fun s d w rest hw hkind => completes_manifestWritten hw hkind
  · intro s d w rest hw htries
    have hexec : exec (.nvmeWriteComplete d false) s = .next (((s.bump (Key.recDriveErrors d.val)).putDrive d.val { s.drive d.val with writes := { w with tries := w.tries + 1 } :: rest }).emit
        (.nvme d.val (s.obj (Key.recNsNsid w.ns)) w.lba w.data)) := by
      rw [exec_nvmeWriteComplete, execNvmeWriteComplete]
      simp [hw, Nat.not_le.mpr htries]
    refine ⟨_, hexec, congrArg Drive.writes (drive_putDrive_same (s.bump (Key.recDriveErrors d.val)) d.val _), ?_, rfl⟩
    rw [obj_emit, obj_putDrive, obj_bump, if_neg (by unfold Key.recDriveState Key.recDriveErrors; omega)]
  · intro s d w rest hw htries
    have hexec : exec (.nvmeWriteComplete d false) s = .next ((s.bump (Key.recDriveErrors d.val)).failDrive d.val) := by
      rw [exec_nvmeWriteComplete, execNvmeWriteComplete]
      simp [hw, htries]
    exact ⟨_, hexec, (failDrive_spec _ d.isLt).1⟩
  · intro s d hstate
    have hexec : exec (.nvmeLinkLoss d) s = .next (s.failDrive d.val) := by
      rw [exec_nvmeLinkLoss, execNvmeLinkLoss, if_neg (by omega)]
    exact ⟨_, hexec, failDrive_spec s d.isLt⟩
  · intro s d hready hstate
    rw [exec_recDriveRestart, execRecDriveRestart]
    exact congrArg _ (act_of_ready hready (if_pos hstate))
  · intro s d hready hstate
    have himm : immRecDriveRestart d.val s = (Res.done, (s.setObj (Key.recDriveState d.val) 1).putDrive d.val { s.drive d.val with restartAt := s.wall + 1, writes := [] }) :=
      if_neg (by simpa using hstate)
    have hexec : exec (.recDriveRestart d) s = .next (((s.setObj (Key.recDriveState d.val) 1).putDrive d.val { s.drive d.val with restartAt := s.wall + 1, writes := [] }).withResult Res.done) := by
      rw [exec_recDriveRestart, execRecDriveRestart, act_of_ready hready himm]
    refine ⟨_, hexec, rfl, ?_, congrArg Drive.restartAt (drive_putDrive_same (s.setObj (Key.recDriveState d.val) 1) d.val _), ?_⟩
    · rw [obj_withResult, obj_putDrive, obj_setObj, if_pos rfl, lenOf_recDriveState d.val d.isLt]
      rfl
    · exact keepsBut_setObj (P := (· ∈ [Key.recDriveState d.val])) (List.mem_singleton.mpr rfl) s 1
  · intro s d hrestart htime
    have hexec : exec (.drvPerstRelease d) s = .next (s.putDrive d.val { s.drive d.val with restartAt := 0 }) := by
      rw [exec_drvPerstRelease, execDrvPerstRelease]
      exact if_neg (by omega)
    exact ⟨_, hexec, congrArg Drive.restartAt (drive_putDrive_same s d.val _), rfl⟩
  · exact fun s d w m ids hstate hrestart hswap => completes_nvmeDriveReady hstate hrestart hswap
  · intro s d w m ids l h
    rw [exec_nvmeDriveReady, execNvmeDriveReady]
    exact if_pos (h.imp_right .inr)

end Sys2Proof.Machine
end

section
/-! Segments, manifests and namespaces of the recorder (11 R311, R315 to R317, R320). -/

namespace Sys2Proof.Machine

theorem merkle_one (fuel : Nat) (x : Bytes) : merkle (fuel + 1) [x] = x := rfl

theorem merkle_two (fuel : Nat) (x y : Bytes) : merkle (fuel + 2) [x, y] = sha384 (1 :: (x ++ y)) := by
  rw [merkle]
  · rfl
  all_goals simp

theorem merkle_four (fuel : Nat) (a b c d : Bytes) : merkle (fuel + 3) [a, b, c, d] = sha384 (1 :: (sha384 (1 :: (a ++ b)) ++ sha384 (1 :: (c ++ d)))) := by
  rw [merkle]
  · rw [show splitPoint [a, b, c, d].length = 2 by simp only [List.length_cons, List.length_nil]; decide]
    exact congrArg (fun x => sha384 (1 :: x)) (congrArg₂ (· ++ ·) (merkle_two fuel a b) (merkle_two fuel c d))
  all_goals simp

theorem merkle_six (fuel : Nat) (a b c d e f : Bytes) : merkle (fuel + 4) [a, b, c, d, e, f] =
    sha384 (1 :: (sha384 (1 :: (sha384 (1 :: (a ++ b)) ++ sha384 (1 :: (c ++ d)))) ++ sha384 (1 :: (e ++ f)))) := by
  rw [merkle]
  · rw [show splitPoint [a, b, c, d, e, f].length = 4 by simp only [List.length_cons, List.length_nil]; decide]
    exact congrArg (fun x => sha384 (1 :: x)) (congrArg₂ (· ++ ·) (merkle_four fuel a b c d) (merkle_two (fuel + 1) e f))
  all_goals simp

namespace State

/-! ### Manifests -/

/-- Placing an item leaves the segments. -/
theorem segments_placeItem {s u : State} {ns n off : Nat} (h : s.placeItem ns n = some (off, u)) : u.recd.segments = s.recd.segments := by
  unfold placeItem at h
  extract_lets app lbas wraps take pad s1 at h
  split at h
  · split at h
    · obtain ⟨-, rfl⟩ := Prod.mk.inj (Option.some.inj h)
      rfl
    · cases h
  · split at h
    · obtain ⟨-, rfl⟩ := Prod.mk.inj (Option.some.inj h)
      have h1 : s1.recd.segments = s.recd.segments := by
        unfold s1
        split <;> rfl
      exact h1
    · cases h

theorem segments_nvmeWrite (s : State) (w : DriveWrite) : (s.nvmeWrite w).recd.segments = s.recd.segments := rfl

theorem mem_updSegment {s : State} {x y : Segment} (h : y ∈ s.recd.segments) (hid : y.id = x.id) : x ∈ (s.updSegment x).recd.segments :=
  List.mem_map.mpr ⟨y, h, if_pos hid⟩

/-- The signature of the manifest that is signed, of 96 bytes. -/
def manifestSig (s : State) (x : Segment) : Bytes := padTo 96 ((Config.signature s.free x.manifest).take 96)

theorem length_manifestSig (s : State) (x : Segment) : (s.manifestSig x).length = 96 := by
  unfold manifestSig padTo
  simp only [List.length_append, List.length_take, zeros, List.length_replicate]
  omega

/-- A segment whose manifest is signed and placed. -/
def signedSegment (s : State) (x : Segment) (off : Nat) : Segment :=
  { x with stage := 2, places := x.places ++ [(off, itemLbas 384)], manifest := x.manifest ++ s.manifestSig x }

/-- The Write of a manifest item. -/
def manifestWrite (s u : State) (x : Segment) (off : Nat) : DriveWrite :=
  { kind := 1, ns := x.ns, lba := u.obj (Key.recNsFirst x.ns) + off, number := x.id,
    data := itemBytes 2 x.ns x.ctx (x.genNo % 256) (u.obj (Key.recNsLap x.ns)) x.index x.items (if x.items = 0 then notStored else x.prev) (x.manifest ++ s.manifestSig x) }

theorem exec_manifestSigned_of_place {s u : State} {x : Segment} {off : Nat} (hx : (s.recd.segments.find? fun x => x.stage == 1) = some x)
    (hplace : (s.withFree (s.free + 1)).placeItem x.ns 1 = some (off, u)) :
    exec .manifestSigned s = .next ((u.updSegment (s.signedSegment x off)).nvmeWrite (s.manifestWrite u x off)) := by
  have hlbas : itemLbas 384 = 1 := by decide
  rw [exec_manifestSigned, execManifestSigned]
  simp only [hx, hlbas, hplace]
  unfold signedSegment
  rw [hlbas]
  rfl

/-! ### Formats -/

theorem tabGet_filter_of_not {α : Type} (d : α) (t : Tab α) (p : Nat → Bool) {k : Nat} (hk : p k = false) : tabGet d (t.filter fun e => p e.1) k = d := by
  induction t with
  | nil => rfl
  | cons e t ih =>
    rw [List.filter_cons]
    split
    · rename_i hp
      rw [tabGet, if_neg]
      · exact ih
      · rintro rfl
        rw [hk] at hp
        cases hp
    · exact ih

/-- A namespace that is formatted: its open segments are gone, and log and chain start anew. -/
def formatted (s : State) (n : Nat) (T : KTime) : State :=
  let s1 := s.withDue (s.due.filter fun e => e.1 != Key.recNsFormat n)
  let s2 := s1.putSegments (s1.recd.segments.filter fun x => !(x.ns == n && x.stage == 0))
  let s3 := s2.withRecd { s2.recd with formatted := tabSet 0 s2.recd.formatted n (T + 1), failed := s2.recd.failed.filter (· != n), chains := s2.recd.chains.filter fun e => e.1 % 16 != n }
  (s3.setObj (Key.recNsAppend n) 1).setObj (Key.recNsLap n) 0

theorem formatted_spec (s : State) {n : Nat} (hn : n < 16) (T : KTime) : (s.formatted n T).due = s.due.filter (fun e => e.1 != Key.recNsFormat n) ∧
    (s.formatted n T).obj (Key.recNsAppend n) = 1 ∧ (s.formatted n T).obj (Key.recNsLap n) = 0 ∧ (∀ x ∈ (s.formatted n T).recd.segments, x.ns = n → x.stage ≠ 0) ∧
    (∀ c, tabGet 0 (s.formatted n T).recd.chains (16 * c + n) = 0) ∧ tabGet 0 (s.formatted n T).recd.formatted n = T + 1 ∧ (s.formatted n T).mem = s.mem := by
  have hrecd : (s.formatted n T).recd = { s.recd with
      segments := s.recd.segments.filter (fun x => !(x.ns == n && x.stage == 0)), formatted := tabSet 0 s.recd.formatted n (T + 1), failed := s.recd.failed.filter (· != n),
      chains := s.recd.chains.filter fun e => e.1 % 16 != n } := rfl
  have hobj : ∀ u : State, ((u.setObj (Key.recNsAppend n) 1).setObj (Key.recNsLap n) 0).obj (Key.recNsAppend n) = 1 ∧
      ((u.setObj (Key.recNsAppend n) 1).setObj (Key.recNsLap n) 0).obj (Key.recNsLap n) = 0 := fun u => by
    constructor
    · rw [obj_setObj, if_neg (by unfold Key.recNsAppend Key.recNsLap; omega), obj_setObj, if_pos rfl, lenOf_recNsAppend n hn]
      rfl
    · rw [obj_setObj, if_pos rfl, Nat.zero_mod]
  rw [hrecd]
  refine ⟨rfl, (hobj _).1, (hobj _).2, fun x hx hns hstage => ?_, fun c => ?_, ?_, rfl⟩
  · simpa [hns, hstage] using (List.mem_filter.mp hx).2
  · refine tabGet_filter_of_not 0 s.recd.chains (fun k => k % 16 != n) ?_
    simp [Nat.mul_add_mod, Nat.mod_eq_of_lt hn]
  · exact (tabGet_tabSet 0 s.recd.formatted n (T + 1) n).trans (if_pos rfl)

/-- A namespace that becomes ready and whose label is written: its state, the drive's writes and what goes to the drive. -/
theorem labelled_spec (s : State) (n : Nat) : ∃ d x o, (((if s.obj (Key.recNsState n) = 1 then s else s.setObj (Key.recNsState n) 0).spaceReady n).writeLabel n) =
      ((s.withDict d).withRecd { s.recd with drives := x }).withOutbox o ∧
    KeepsBut (· = Key.recNsState n) s (((if s.obj (Key.recNsState n) = 1 then s else s.setObj (Key.recNsState n) 0).spaceReady n).writeLabel n) := by
  have hready : ∀ u : State, (∃ d, u.spaceReady n = u.withDict d) ∧ KeepsBut (· = Key.recNsState n) u (u.spaceReady n) := fun u => by
    unfold spaceReady
    split
    · exact ⟨⟨_, rfl⟩, keepsBut_setObj (P := (· = Key.recNsState n)) rfl u 1⟩
    · exact ⟨⟨u.dict, rfl⟩, .refl u⟩
  have hlabel : ∀ u : State, (∃ x o, u.writeLabel n = (u.withRecd { u.recd with drives := x }).withOutbox o) ∧ KeepsBut (· = Key.recNsState n) u (u.writeLabel n) := fun u =>
    ⟨⟨_, _, rfl⟩, keepsBut_of_dict rfl⟩
  have hstate : (∃ d, (if s.obj (Key.recNsState n) = 1 then s else s.setObj (Key.recNsState n) 0) = s.withDict d) ∧
      KeepsBut (· = Key.recNsState n) s (if s.obj (Key.recNsState n) = 1 then s else s.setObj (Key.recNsState n) 0) := by
    split
    · exact ⟨⟨s.dict, rfl⟩, .refl s⟩
    · exact ⟨⟨_, rfl⟩, keepsBut_setObj (P := (· = Key.recNsState n)) rfl s 0⟩
  generalize (if s.obj (Key.recNsState n) = 1 then s else s.setObj (Key.recNsState n) 0) = u at hstate ⊢
  obtain ⟨⟨d, rfl⟩, hk⟩ := hstate
  obtain ⟨⟨d', hd'⟩, hk'⟩ := hready (s.withDict d)
  obtain ⟨⟨x, o, hx⟩, hk''⟩ := hlabel ((s.withDict d).spaceReady n)
  refine ⟨d', x, o, ?_, (hk.trans hk').trans hk''⟩
  rw [hx, hd']
  rfl

theorem find?_due_single (k : Nat) (T : KTime) : ([(k, T)] : List (Nat × KTime)).find? (fun e => e.1 == k) = some (k, T) := by simp

theorem filter_due_single (k : Nat) (T : KTime) : ([(k, T)] : List (Nat × KTime)).filter (fun e => e.1 != k) = [] := by simp

/-- Closing segments leaves the times of closes, the due commands, memory and what was sent. -/
def KeepsCloses (s t : State) : Prop := t.recd.closes = s.recd.closes ∧ t.outbox = s.outbox ∧ t.due = s.due ∧ t.mem = s.mem

theorem KeepsCloses.trans {s t u : State} (h : KeepsCloses s t) (h' : KeepsCloses t u) : KeepsCloses s u :=
  ⟨h'.1.trans h.1, h'.2.1.trans h.2.1, h'.2.2.1.trans h.2.2.1, h'.2.2.2.trans h.2.2.2⟩

theorem closes_putSegments (s : State) (l : List Segment) : (s.putSegments l).recd.closes = s.recd.closes := rfl

theorem keepsCloses_closeSegment (s : State) (x : Segment) (c : Nat) : KeepsCloses s (s.closeSegment x c) := by
  obtain ⟨⟨d, r, hform⟩, -⟩ := onlySegments_closeSegment s x c
  refine ⟨?_, ?_, ?_, ?_⟩
  · unfold closeSegment
    extract_lets key prev root chain y r' s1
    have h1 : s1.recd.closes = s.recd.closes := rfl
    clear_value s1
    exact (closes_putSegments ..).trans h1
  all_goals rw [hform]; rfl

theorem keepsCloses_foldl {α : Type} (l : List α) (f : State → α → State) (h : ∀ s x, KeepsCloses s (f s x)) (s : State) : KeepsCloses s (l.foldl f s) := by
  induction l generalizing s with
  | nil => exact ⟨rfl, rfl, rfl, rfl⟩
  | cons x l ih => exact (h s x).trans (ih _)

theorem keepsCloses_closeDue (s : State) : KeepsCloses s s.closeDue :=
  keepsCloses_foldl _ _ (fun y x => by
    split
    · exact keepsCloses_closeSegment ..
    · exact ⟨rfl, rfl, rfl, rfl⟩) s

end State

open State

theorem completes_recNsFormat {s : State} {n : Fin 16} {T : KTime} (hdue : s.due = [(Key.recNsFormat n.val, T)]) :
    Completes (.recNsFormat n) s fun t => t.due = [] ∧ t.obj (Key.recNsAppend n.val) = 1 ∧ t.obj (Key.recNsLap n.val) = 0 ∧ (∀ x ∈ t.recd.segments, x.ns = n.val → x.stage ≠ 0) ∧
      (∀ c, tabGet 0 t.recd.chains (16 * c + n.val) = 0) ∧ tabGet 0 t.recd.formatted n.val = T + 1 ∧ t.mem = s.mem := by
  have hexec : exec (.recNsFormat n) s = .next (((if (s.formatted n.val T).obj (Key.recNsState n.val) = 1 then s.formatted n.val T else
      (s.formatted n.val T).setObj (Key.recNsState n.val) 0).spaceReady n.val).writeLabel n.val) := by
    rw [exec_recNsFormat, execRecNsFormat]
    dsimp only
    rw [show (s.due.find? fun e => e.1 == Key.recNsFormat n.val) = some (Key.recNsFormat n.val, T) from by rw [hdue]; exact find?_due_single _ T]
    rfl
  obtain ⟨h1, h2, h3, h4, h5, h6, h7⟩ := formatted_spec s n.isLt T
  obtain ⟨d, x, o, hform, hkeep⟩ := labelled_spec (s.formatted n.val T) n.val
  refine ⟨_, hexec, ?_, ?_, ?_, ?_, ?_, ?_, ?_⟩
  · rw [hform]
    refine h1.trans ?_
    rw [hdue]
    exact filter_due_single _ T
  · rw [hkeep _ (by unfold Key.recNsAppend Key.recNsState; omega), h2]
  · rw [hkeep _ (by unfold Key.recNsLap Key.recNsState; omega), h3]
  · rw [hform]
    exact h4
  · rw [hform]
    exact h5
  · rw [hform]
    exact h6
  · rw [hform]
    exact h7

/-- Settles O40: the tree hash by its equation, the manifest by the item that is placed, and the commands by one equation each. -/
theorem segmentsAndNamespaces : Obligations.SegmentsAndNamespaces := by
  refine ⟨fun l0 l1 l2 l3 l4 l5 => merkle_six 3 l0 l1 l2 l3 l4 l5, ?_, ?_, ?_, ?_, ?_, ?_, ?_, ?_, ?_, ?_⟩
  · intro s x c
    refine ⟨_, List.mem_append_right _ (List.mem_singleton.mpr rfl), rfl, rfl, ?_⟩
    rfl
  · intro s hnone
    rw [exec_manifestSigned, execManifestSigned, List.find?_eq_none.mpr fun x hx => by simpa using hnone x hx]
  · intro s x off u hx hplace
    refine ⟨_, exec_manifestSigned_of_place hx hplace, s.signedSegment x off, ?_, rfl, rfl, ?_, ?_, ?_⟩
    · rw [segments_nvmeWrite]
      refine mem_updSegment (y := x) ?_ rfl
      rw [segments_placeItem hplace]
      exact List.mem_of_find?_eq_some hx
    · exact List.take_left
    · exact (List.length_append ..).trans (congrArg (x.manifest.length + ·) (length_manifestSig s x))
    · exact List.mem_append_right _ (List.mem_singleton.mpr rfl)
  · exact fun s n T hdue => completes_recNsFormat hdue
  · intro s n T hdue
    have hmine : s.due.filter (fun e => e.1 == Key.recNsClose n.val) = [(Key.recNsClose n.val, T)] := by simp [hdue]
    have hrest : s.due.filter (fun e => e.1 != Key.recNsClose n.val) = [] := by simp [hdue]
    have hexec : exec (.recNsClose n) s = .next (((s.withDue []).withRecd { s.recd with closes := s.recd.closes ++ [(n.val, T)] }).closeDue) := by
      rw [exec_recNsClose, execRecNsClose]
      dsimp only
      rw [hmine, hrest]
      rfl
    obtain ⟨h1, h2, h3, h4⟩ := keepsCloses_closeDue ((s.withDue []).withRecd { s.recd with closes := s.recd.closes ++ [(n.val, T)] })
    exact ⟨_, hexec, h3, h1, h2, h4⟩
  · intro s n off count addr hready hstate
    rw [exec_recNsRead, execRecNsRead]
    exact congrArg _ (act_of_ready hready (if_pos hstate))
  · intro s n off count addr hready hstate hrange
    rw [exec_recNsRead, execRecNsRead]
    refine congrArg _ (act_of_ready hready ((if_neg hstate).trans (if_pos ?_)))
    simpa using hrange
  · intro s n off count addr hready hstate hpos hmax hlbas hfixed
    have himm : immRecNsRead n.val off count addr s = (Res.done, ((s.withRecd { s.recd with reads := tabSet (0, 0, 0) s.recd.reads n.val (off, count, addr) }).setObj (Key.recNsReadState n.val) 1).emit
        (.nvmeRead (s.obj (Key.recNsDrive n.val)) (s.obj (Key.recNsNsid n.val)) (s.obj (Key.recNsFirst n.val) + off) count)) := by
      refine (if_neg hstate).trans (if_neg ?_)
      simp only [hfixed, Bool.not_true, Bool.false_eq_true, or_false]
      omega
    have hexec : exec (.recNsRead n off count addr) s = .next ((((s.withRecd { s.recd with reads := tabSet (0, 0, 0) s.recd.reads n.val (off, count, addr) }).setObj (Key.recNsReadState n.val) 1).emit
        (.nvmeRead (s.obj (Key.recNsDrive n.val)) (s.obj (Key.recNsNsid n.val)) (s.obj (Key.recNsFirst n.val) + off) count)).withResult Res.done) := by
      rw [exec_recNsRead, execRecNsRead, act_of_ready hready himm]
    refine ⟨_, hexec, rfl, ?_, rfl, ?_⟩
    · rw [obj_withResult, obj_emit, obj_setObj, if_pos rfl, lenOf_recNsReadState n.val n.isLt]
      rfl
    · exact keepsBut_setObj (P := (· ∈ [Key.recNsReadState n.val])) (List.mem_singleton.mpr rfl) (s.withRecd { s.recd with reads := tabSet (0, 0, 0) s.recd.reads n.val (off, count, addr) }) 1
  · intro s n hstate
    have hexec : exec (.recNsReadDone n false) s = .next ((s.withRecd { s.recd with reads := tabSet (0, 0, 0) s.recd.reads n.val (0, 0, 0) }).setObj (Key.recNsReadState n.val) 3) := by
      rw [exec_recNsReadDone, execRecNsReadDone]
      simp [hstate]
    refine ⟨_, hexec, ?_, rfl⟩
    rw [obj_setObj, if_pos rfl, lenOf_recNsReadState n.val n.isLt]
    rfl
  · intro s n hstate hdrive
    have hexec : ∃ (u : State) (a : Nat) (data : Bytes), exec (.recNsReadDone n true) s = .next ((u.memWrite (.nsRead n.val) 3 a data).setObj (Key.recNsReadState n.val) 2) ∧ u.mem = s.mem := by
      rw [exec_recNsReadDone, execRecNsReadDone]
      simp only [hstate, ne_eq, not_true_eq_false, if_false, Bool.not_true, Bool.false_eq_true, hdrive, or_self]
      exact ⟨_, _, _, rfl, rfl⟩
    obtain ⟨u, a, data, hexec, hmem⟩ := hexec
    obtain ⟨⟨d, m, hform, hcells⟩, -⟩ := onlyRequests_memWrite u (.nsRead n.val) 3 a data
    refine ⟨_, hexec, ?_, ?_⟩
    · rw [obj_setObj, if_pos rfl, lenOf_recNsReadState n.val n.isLt]
      rfl
    · rw [hform]
      exact hcells.trans (by rw [hmem])

end Sys2Proof.Machine
end

section
/-! Host registers, the mailbox and the capture of access errors (12 R326, R328, R329). -/

namespace Sys2Proof.Machine

theorem fieldAt_two_two (v : Nat) : fieldAt v 2 2 = v / 65536 % 65536 := fieldAt_eq_div v 2 2

/-- A count in the upper half leaves the lower half alone. -/
theorem setFieldAt_two_two (v x : Nat) (hx : x < 65536) : setFieldAt v 2 2 x % 65536 = v % 65536 ∧ setFieldAt v 2 2 x / 65536 % 65536 = x := by
  have h : setFieldAt v 2 2 x = v - v / 65536 % 65536 * 65536 + x % 65536 * 65536 := by
    unfold setFieldAt
    rw [fieldAt_two_two]
    rfl
  omega

namespace State

/-- An access error is captured, and nothing else happens. -/
theorem captured_accessError (s : State) {cause bar be : Nat} (dword : Nat) (hcause : cause < 16) (hbar : bar < 16) (hbe : be < 16) : Captured s (s.accessError cause bar be dword) cause bar be dword := by
  unfold accessError
  extract_lets p cnt p'
  have hcnt : cnt = min 65535 (fieldAt s.pcie.accInfo 2 2 + 1) := rfl
  have hlt : cnt < 65536 := (Nat.min_le_left _ _).trans_lt (by decide)
  have hpcie : ((s.withPcie p').raiseEvent 0).pcie = p' := by
    rw [raiseEvent_eq]
    rfl
  obtain ⟨q, hq⟩ := raiseEvent_changes (s.withPcie p') 0
  have hform : (s.withPcie p').raiseEvent 0 = { s with pcie := p', pev := ((s.withPcie p').raiseEvent 0).pev } := by
    rw [hq]
    rfl
  unfold Captured
  rw [hpcie]
  have hsame : p'.accErr = true ∧ fieldAt p'.accInfo 2 2 = cnt ∧ (s.pcie.accErr = false → p'.accAddr = dword ∧ p'.accInfo % 65536 = cause + 16 * bar + 256 * be) ∧
      (s.pcie.accErr = true → p'.accAddr = s.pcie.accAddr ∧ p'.accInfo % 65536 = s.pcie.accInfo % 65536) := by
    unfold p'
    by_cases herr : p.accErr = true
    · rw [if_pos herr, fieldAt_two_two]
      obtain ⟨h1, h2⟩ := setFieldAt_two_two p.accInfo cnt hlt
      refine ⟨herr, h2, fun h => ?_, fun _ => ⟨rfl, h1⟩⟩
      rw [show s.pcie.accErr = true from herr] at h
      cases h
    · rw [if_neg herr, fieldAt_two_two]
      refine ⟨rfl, ?_, fun _ => ⟨rfl, ?_⟩, fun h => absurd h herr⟩
      · show (cause + 16 * bar + 256 * (be % 16) + 65536 * cnt) / 65536 % 65536 = cnt
        omega
      · show (cause + 16 * bar + 256 * (be % 16) + 65536 * cnt) % 65536 = cause + 16 * bar + 256 * be
        omega
  obtain ⟨h1, h2, h3, h4⟩ := hsame
  exact ⟨h1, raiseEvent_count (s.withPcie p') 0, h2.trans hcnt, h3, h4, hform⟩

/-- Byte enables that do not cover the dword are below 15. -/
theorem be_lt_of_narrow {be : BitVec 4} (h : be ≠ 15#4) : be.toNat ≠ 15 ∧ be.toNat < 16 :=
  ⟨fun h' => h (BitVec.eq_of_toNat_eq h'), be.isLt⟩

/-- A narrow write of a register is captured. -/
theorem captured_regWrite_narrow (s : State) {bar : Nat} (dword : Nat) {be : BitVec 4} (busy refused : Bool) (f : State → State) (hbe : be ≠ 15#4) (hbar : bar < 16) :
    Captured s (s.regWrite bar dword be busy refused f) 1 bar be.toNat dword := by
  obtain ⟨hne, hlt⟩ := be_lt_of_narrow hbe
  unfold regWrite
  rw [if_pos hne]
  exact captured_accessError s dword (by decide) hbar hlt

theorem captured_regWrite_busy (s : State) {bar : Nat} (dword : Nat) (refused : Bool) (f : State → State) (hbar : bar < 16) :
    Captured s (s.regWrite bar dword 15 true refused f) 2 bar 15 dword :=
  captured_accessError s dword (by decide) hbar (by decide)

theorem captured_regWrite_refused (s : State) {bar : Nat} (dword : Nat) (f : State → State) (hbar : bar < 16) :
    Captured s (s.regWrite bar dword 15 false true f) 3 bar 15 dword :=
  captured_accessError s dword (by decide) hbar (by decide)

/-- A whole write of a register that is not busy and takes it acts. -/
theorem regWrite_whole (s : State) (bar dword : Nat) (f : State → State) : s.regWrite bar dword 15 false false f = f s := rfl

theorem captured_mvWrite_narrow (s : State) (m off : Nat) {be : BitVec 4} (takes : Bool) (f : State → State) (hbe : be ≠ 15#4) :
    Captured s (s.mvWrite m off be takes f) 1 0 be.toNat (mvDword m off) := by
  obtain ⟨hne, hlt⟩ := be_lt_of_narrow hbe
  unfold mvWrite
  rw [if_pos hne]
  exact captured_accessError s (mvDword m off) (by decide) (by decide) hlt

theorem captured_mvWrite_refused (s : State) (m off : Nat) {takes : Bool} (f : State → State) (h : takes = false) :
    Captured s (s.mvWrite m off 15 takes f) 3 0 15 (mvDword m off) := by
  rw [h]
  exact captured_accessError s (mvDword m off) (by decide) (by decide) (by decide)

/-- The model's list of registers is that of Table 12-2. -/
theorem isBar0_eq_isRegister {off : Nat} (h : off % 4 = 0) : isBar0 off = isRegister off := by
  rw [Bool.eq_iff_iff]
  simp only [isBar0, isRegister, Bool.or_eq_true, decide_eq_true_eq, List.contains_iff_mem, List.mem_cons, List.not_mem_nil, or_false]
  omega

/-- A register that has no rule of its own is a plain one. -/
theorem bar0Write_plain (s : State) {off : Nat} (be : BitVec 4) (v : Nat) (hown : off ∉ [0x0C, 0x18, 0x40, 0x80]) (hmover : off < 0x400 ∨ 0x800 ≤ off) (hreg : isBar0 off = true) :
    s.bar0Write off be v = s.regWrite 0 (off / 4) be false false fun y => y.putPlain off v := by
  simp only [List.mem_cons, List.not_mem_nil, or_false, not_or] at hown
  obtain ⟨h1, h2, h3, h4⟩ := hown
  unfold bar0Write
  rw [if_neg h1, if_neg h2, if_neg h3, if_neg h4, if_neg (by omega), if_neg (by omega), if_pos hreg]

/-- A narrow write of any register of BAR0 is captured. -/
theorem captured_bar0Write_narrow (s : State) {off : Nat} {be : BitVec 4} (v : Nat) (hbe : be ≠ 15#4) (hoff : off % 4 = 0) (hreg : isRegister off = true) :
    Captured s (s.bar0Write off be v) 1 0 be.toNat (off / 4) := by
  have hbar : (0 : Nat) < 16 := by decide
  unfold bar0Write
  split
  next h => exact (show off / 4 = 3 by omega) ▸ captured_regWrite_narrow s 3 _ _ _ hbe hbar
  split
  next h => exact (show off / 4 = 6 by omega) ▸ captured_regWrite_narrow s 6 _ _ _ hbe hbar
  split
  next h => exact (show off / 4 = 16 by omega) ▸ captured_regWrite_narrow s 16 _ _ _ hbe hbar
  split
  next h => exact (show off / 4 = 32 by omega) ▸ captured_regWrite_narrow s 32 _ _ _ hbe hbar
  split
  next h =>
    have hd : off / 4 = mvDword ((off - 0x400) / 0x40) 0 := by unfold mvDword; omega
    rw [hd]
    exact captured_mvWrite_narrow s _ 0 _ _ hbe
  split
  next h =>
    have hd : off / 4 = mvDword ((off - 0x400) / 0x40) 0x0C := by unfold mvDword; omega
    rw [hd]
    exact captured_mvWrite_narrow s _ 0x0C _ _ hbe
  rw [isBar0_eq_isRegister hoff, if_pos hreg]
  exact captured_regWrite_narrow s _ _ _ _ hbe hbar

/-- A write elsewhere in BAR0 is ignored. -/
theorem bar0Write_of_not_register (s : State) {off : Nat} (be : BitVec 4) (v : Nat) (hoff : off % 4 = 0) (hreg : isRegister off = false) : s.bar0Write off be v = s := by
  have hbar := (isBar0_eq_isRegister hoff).trans hreg
  have hno := hbar
  simp only [isBar0, Bool.or_eq_false_iff, decide_eq_false_iff_not, List.contains_eq_mem, List.mem_cons, List.not_mem_nil, or_false, not_or] at hno
  unfold bar0Write
  rw [if_neg (by omega), if_neg (by omega), if_neg (by omega), if_neg (by omega), if_neg (by omega), if_neg (by omega), hbar]
  rfl

end State

open State

theorem completes_narrowWrites (s : State) (be : BitVec 4) (v : BitVec 32) (hbe : be ≠ 15#4) :
    Completes (.accClear be v) s (fun t => Captured s t 1 0 be.toNat 3) ∧ Completes (.apBaseWrite be v) s (fun t => Captured s t 1 0 be.toNat 6) ∧
    Completes (.mboxSelWrite be v) s (fun t => Captured s t 1 0 be.toNat 16) ∧
    (∀ n : Fin 64, Completes (.hrRptrWrite n be v) s (fun t => Captured s t 1 2 be.toNat ((0x800004 + 0x40 * n.val) / 4))) ∧
    (∀ m : Fin 16, Completes (.mvTailWrite m be v) s (fun t => Captured s t 1 0 be.toNat ((0x40C + 0x40 * m.val) / 4)) ∧
      (∀ b, Completes (.mvRun m be b) s (fun t => Captured s t 1 0 be.toNat ((0x400 + 0x40 * m.val) / 4))) ∧
      Completes (.mvResume m be) s (fun t => Captured s t 1 0 be.toNat ((0x400 + 0x40 * m.val) / 4)) ∧
      Completes (.mvSkip m be) s (fun t => Captured s t 1 0 be.toNat ((0x400 + 0x40 * m.val) / 4))) ∧
    (∀ off : Nat, off % 4 = 0 → isRegister off = true → Completes (.registerWrite false off be v) s (fun t => Captured s t 1 0 be.toNat (off / 4))) ∧
    (∀ off : Nat, off % 4 = 0 → isRegister off = false → exec (.registerWrite false off be v) s = .next s) := by
  have htail : ∀ m : Fin 16, (0x40C + 0x40 * m.val) / 4 = mvDword m.val 0x0C := fun m => by unfold mvDword; omega
  have hctrl : ∀ m : Fin 16, (0x400 + 0x40 * m.val) / 4 = mvDword m.val 0 := fun m => by unfold mvDword; omega
  have hrptr : ∀ n : Fin 64, (0x800004 + 0x40 * n.val) / 4 = (0x800000 + 0x40 * n.val + 4) / 4 := fun n => by omega
  refine ⟨⟨_, rfl, captured_regWrite_narrow s 3 _ _ _ hbe (by decide)⟩, ⟨_, rfl, captured_regWrite_narrow s 6 _ _ _ hbe (by decide)⟩,
    ⟨_, rfl, captured_regWrite_narrow s 16 _ _ _ hbe (by decide)⟩, fun n => ⟨_, rfl, hrptr n ▸ captured_regWrite_narrow s _ _ _ _ hbe (by decide)⟩, fun m => ⟨?_, fun b => ?_, ?_, ?_⟩, ?_, ?_⟩
  · exact ⟨_, rfl, htail m ▸ captured_mvWrite_narrow s m.val 0x0C _ _ hbe⟩
  · exact ⟨_, rfl, hctrl m ▸ captured_mvWrite_narrow s m.val 0 _ _ hbe⟩
  · exact ⟨_, rfl, hctrl m ▸ captured_mvWrite_narrow s m.val 0 _ _ hbe⟩
  · exact ⟨_, rfl, hctrl m ▸ captured_mvWrite_narrow s m.val 0 _ _ hbe⟩
  · exact fun off hoff hreg => ⟨_, rfl, captured_bar0Write_narrow s v.toNat hbe hoff hreg⟩
  · exact fun off hoff hreg => congrArg Host.Outcome.next (bar0Write_of_not_register s be v.toNat hoff hreg)

/-- A write of a register that holds a plain value is read back, and no other part of the block changes. -/
theorem completes_plainWrite (s : State) (off w : Nat) (v : BitVec 32) (h : (off, w) ∈ [(0x84, 24), (0x88, 23), (0x8C, 24), (0x90, 32), (0x100, 32), (0x104, 16)]) :
    Completes (.registerWrite false off 15 v) s fun t => t.bar0Read off = v.toNat % 2 ^ w ∧ t = { s with pcie := t.pcie, pev := t.pev } := by
  have hv : v.toNat % 2 ^ 32 = v.toNat := Nat.mod_eq_of_lt v.isLt
  simp only [List.mem_cons, Prod.mk.injEq, List.not_mem_nil, or_false] at h
  rcases h with ⟨rfl, rfl⟩ | ⟨rfl, rfl⟩ | ⟨rfl, rfl⟩ | ⟨rfl, rfl⟩ | ⟨rfl, rfl⟩ | ⟨rfl, rfl⟩
  · exact ⟨s.withPcie { s.pcie with dcIndex := v.toNat % 2 ^ 24 }, rfl, rfl, rfl⟩
  · exact ⟨s.withPcie { s.pcie with dcOffset := v.toNat % 2 ^ 23 }, rfl, rfl, rfl⟩
  · exact ⟨s.withPcie { s.pcie with dcLen := v.toNat % 2 ^ 24 }, rfl, rfl, rfl⟩
  · exact ⟨s.withPcie { s.pcie with dcData := v.toNat }, rfl, hv.symm, rfl⟩
  · exact ⟨s.withPev { s.pev with evtEnable := v.toNat }, rfl, hv.symm, rfl⟩
  · exact ⟨s.withPev { s.pev with intGap := v.toNat % 65536 }, rfl, rfl, rfl⟩

/-- An entry of the MSI-X table holds what is written. -/
theorem completes_msixWrite (s : State) {i : Nat} (v : BitVec 32) (hi : i < 256) :
    Completes (.registerWrite false (0xE000 + 4 * i) 15 v) s fun t => t.bar0Read (0xE000 + 4 * i) = v.toNat ∧ t.pcie = s.pcie := by
  have hreg : isBar0 (0xE000 + 4 * i) = true := by
    have hin : decide (0xE000 ≤ 0xE000 + 4 * i ∧ 0xE000 + 4 * i < 0xE400) = true := decide_eq_true (by omega)
    unfold isBar0
    rw [hin, Bool.or_true, Bool.true_or]
  have hown : 0xE000 + 4 * i ∉ [0x0C, 0x18, 0x40, 0x80] := by
    simp only [List.mem_cons, List.not_mem_nil, or_false]
    omega
  have hentry : (0xE000 + 4 * i - 0xE000) / 4 = i := by omega
  have hput : ∀ x : Nat, s.putPlain (0xE000 + 4 * i) x = s.withPev { s.pev with msixTable := tabSet (msixDefault i) s.pev.msixTable i x } := by
    intro x
    unfold putPlain
    rw [if_neg (by omega), if_pos (by omega), hentry]
  refine ⟨s.bar0Write (0xE000 + 4 * i) 15 v.toNat, rfl, ?_⟩
  rw [bar0Write_plain s 15 v.toNat hown (.inr (by omega)) hreg, regWrite_whole, hput]
  refine ⟨?_, rfl⟩
  unfold bar0Read
  rw [if_neg (by omega), if_neg (by omega), if_neg (by omega), if_pos (by omega), hentry]
  exact tabGet_tabSet_self _ _ _ _

/-- What the mailbox writes when the snapshot fails: the code, and VALID 0. -/
theorem mboxStat_failed (x code : Nat) : bit (x / 65536 * 65536 + 256 * code) 0 = false ∧ fieldAt (x / 65536 * 65536 + 256 * code) 1 1 = code % 256 := by
  refine ⟨?_, ?_⟩
  · have h : (x / 65536 * 65536 + 256 * code) % 2 = 0 := by omega
    simp [bit, Nat.testBit, h]
  · rw [fieldAt_eq_div]
    omega

theorem completes_mboxSnapshotFailed {s : State} {c : Code} {b : Bytes} (hbusy : s.pcie.mboxBusy = true) (hread : s.readReceived s.pcie.mboxAt s.pcie.mboxSel = (c, b))
    (hfail : c ≠ Res.done ∨ (typeAt s.pcie.mboxSel).image = true) :
    Completes .mboxSnapshotDone s fun t => t.pcie.mboxBusy = false ∧ bit t.pcie.mboxStat 0 = false ∧ fieldAt t.pcie.mboxStat 1 1 = (if c = Res.done then Res.type else c) % 256 ∧
      t.pcie.mboxData = s.pcie.mboxData ∧ t = { s with pcie := t.pcie } := by
  have hcode : (if c = Res.done ∧ (typeAt s.pcie.mboxSel).image = true then Res.type else c) = if c = Res.done then Res.type else c := by
    by_cases hc : c = Res.done
    · rw [if_pos ⟨hc, hfail.resolve_left fun h => h hc⟩, if_pos hc]
    · rw [if_neg fun h => hc h.1, if_neg hc]
  have hne : (if c = Res.done then Res.type else c) ≠ Res.done := by
    split
    · decide
    · assumption
  have hexec : exec .mboxSnapshotDone s =
      .next (s.withPcie { s.pcie with mboxBusy := false, mboxStat := s.pcie.mboxStat / 65536 * 65536 + 256 * (if c = Res.done then Res.type else c) }) := by
    rw [exec_mboxSnapshotDone, execMboxSnapshotDone, if_neg (by rw [hbusy]; decide)]
    dsimp only
    rw [hread]
    dsimp only
    rw [hcode, if_neg hne]
  obtain ⟨hvalid, hfield⟩ := mboxStat_failed s.pcie.mboxStat (if c = Res.done then Res.type else c)
  exact ⟨_, hexec, rfl, hvalid, hfield, rfl, rfl⟩

/-- Settles O41: each write of a register is captured, posted or stored by the rule of its register. -/
theorem hostRegisters : Obligations.HostRegisters := by
  unfold Obligations.HostRegisters
  have htail : ∀ m : Fin 16, (0x40C + 0x40 * m.val) / 4 = mvDword m.val 0x0C := fun m => by unfold mvDword; omega
  have hctrl : ∀ m : Fin 16, (0x400 + 0x40 * m.val) / 4 = mvDword m.val 0 := fun m => by unfold mvDword; omega
  refine ⟨⟨fun s be v hbe => completes_narrowWrites s be v hbe, ?_, ?_, ?_, ?_, ?_, ?_⟩, ?_, ?_, ?_, ?_, ?_, ?_, ?_, ?_, ?_⟩
  · intro s v hbusy
    refine ⟨s.writeApBase 15 v.toNat, rfl, ?_⟩
    rw [writeApBase, hbusy]
    exact captured_regWrite_busy s 6 false _ (by decide)
  · intro s v hbusy
    refine ⟨s.writeMboxSel 15 v.toNat, rfl, ?_⟩
    rw [writeMboxSel, hbusy]
    exact captured_regWrite_busy s 16 false _ (by decide)
  · intro s v hbusy
    refine ⟨s.writeDcCtrl 15 v.toNat, rfl, ?_⟩
    rw [writeDcCtrl, hbusy]
    exact captured_regWrite_busy s 32 false _ (by decide)
  · intro s n v h
    have hrefused : (v.toNat % 64 != 0 || decide (s.obj (Key.hrSize n.val) ≤ v.toNat)) = true := by
      simpa only [Bool.or_eq_true, bne_iff_ne, decide_eq_true_eq] using h
    refine ⟨s.writeHrRptr n.val 15 v.toNat, rfl, ?_⟩
    rw [writeHrRptr, hrefused, show (0x800004 + 0x40 * n.val) / 4 = (0x800000 + 0x40 * n.val + 4) / 4 by omega]
    exact captured_regWrite_refused s _ _ (by decide)
  · intro s m v h
    refine ⟨_, rfl, ?_⟩
    rw [htail m]
    refine captured_mvWrite_refused s m.val 0x0C _ ?_
    simp only [Bool.and_eq_false_iff, bne_eq_false_iff_eq, beq_eq_false_iff_ne, decide_eq_false_iff_not, Nat.not_lt]
    exact or_assoc.mpr h
  · intro s m h
    have htakes : ((s.mover m.val).state == mvHalted) = false := beq_eq_false_iff_ne.mpr h
    exact ⟨⟨_, rfl, hctrl m ▸ captured_mvWrite_refused s m.val 0 _ htakes⟩, ⟨_, rfl, hctrl m ▸ captured_mvWrite_refused s m.val 0 _ htakes⟩⟩
  · exact fun s v => rfl
  · intro s v hfree
    rw [exec_apBaseWrite, execApBaseWrite, writeApBase, hfree]
    rfl
  · intro s hbusy
    rw [exec_apMoveDone, execApMoveDone, if_neg (by rw [hbusy]; decide)]
  · intro s v hfree
    have hexec : exec (.mboxSelWrite 15 v) s =
        .next (s.withPcie { s.pcie with mboxSel := v.toNat % 2 ^ 24, mboxBusy := true, mboxAt := s.time, mboxStat := setBit s.pcie.mboxStat 0 false }) := by
      rw [exec_mboxSelWrite, execMboxSelWrite, writeMboxSel, hfree]
      rfl
    exact ⟨_, hexec, rfl, rfl, (bit_setBit _ _ _ _).trans (if_pos rfl), rfl, rfl⟩
  · intro s b hbusy hread himage
    rw [exec_mboxSnapshotDone, execMboxSnapshotDone, if_neg (by rw [hbusy]; decide)]
    dsimp only
    rw [hread]
    dsimp only
    have hcode : (if Res.done = Res.done ∧ (typeAt s.pcie.mboxSel).image = true then Res.type else Res.done) = Res.done := if_neg fun h => by rw [himage] at h; cases h.2
    rw [hcode, if_pos rfl]
    rfl
  · exact fun s c b hbusy hread hfail => completes_mboxSnapshotFailed hbusy hread hfail
  · exact fun s off w v h => completes_plainWrite s off w v h
  · exact fun s i v hi => completes_msixWrite s v hi
  · intro s v hfree hlow hhigh
    have hop : ¬ (v.toNat % 32 % 16 = 0 ∨ 6 < v.toNat % 32 % 16) := by omega
    have hexec : exec (.registerWrite false 0x80 15 v) s = .next ((s.withPcie { s.pcie with dcCtrl := v.toNat % 32, dcBusy := true }).endBadOp) := by
      show Host.Outcome.next (s.writeDcCtrl 15 v.toNat) = _
      rw [writeDcCtrl, hfree]
      rfl
    rw [hexec, endBadOp, if_neg fun h => hop h.2.2]

end Sys2Proof.Machine
end

section
/-! The dictionary port (12 R330). -/

namespace Sys2Proof.Machine
namespace State

/-! ### The end of an operation -/

/-- An operation's end sets the port's status and counts its event. -/
theorem endDc_spec (s : State) (c : Code) :
    DcEnded s (s.endDc c) c ∧ (∃ q, s.endDc c = (s.withPcie { s.pcie with dcBusy := false, dcStat := c + 256 * (s.pcie.dcCtrl % 16) + 65536 * s.pev.group.length }).withPev q) ∧
      (s.endDc c).pev.group = s.pev.group ∧ (s.endDc c).pev.groupT = s.pev.groupT ∧ (s.endDc c).pev.bulk = s.pev.bulk := by
  unfold endDc
  extract_lets p
  refine ⟨⟨?_, ?_, raiseEvent_count _ 16⟩, raiseEvent_changes _ 16, ?_⟩
  · rw [raiseEvent_eq]
    rfl
  · rw [raiseEvent_eq]
    rfl
  · unfold raiseEvent
    extract_lets s1
    split
    · exact ⟨rfl, rfl, rfl⟩
    · exact ⟨rfl, rfl, rfl⟩

theorem dcEnded_endDc (s : State) (c : Code) : DcEnded s (s.endDc c) c := (endDc_spec s c).1

/-- The end changes the port and its events only. -/
theorem endDc_changes (s : State) (c : Code) : s.endDc c = { s with pcie := (s.endDc c).pcie, pev := (s.endDc c).pev } := by
  obtain ⟨-, ⟨q, hq⟩, -⟩ := endDc_spec s c
  rw [hq]
  rfl

theorem pcie_endDc (s : State) (c : Code) :
    (s.endDc c).pcie = { s.pcie with dcBusy := false, dcStat := c + 256 * (s.pcie.dcCtrl % 16) + 65536 * s.pev.group.length } := by
  obtain ⟨-, ⟨q, hq⟩, -⟩ := endDc_spec s c
  rw [hq]
  rfl

/-- An operation that began on a state with other port registers ends on what that state was. -/
theorem endDc_changes_of {s u : State} (c : Code) (hu : u = { s with pcie := u.pcie, pev := u.pev }) : u.endDc c = { s with pcie := (u.endDc c).pcie, pev := (u.endDc c).pev } := by
  have h := endDc_changes u c
  rw [h]
  show { u with pcie := _, pev := _ } = _
  rw [hu]

/-- The low byte of the status is the code's. -/
theorem dcStat_mod (c x n : Nat) : (c + 256 * x + 65536 * n) % 256 = c % 256 := by omega

theorem code_dcStat {c : Nat} (hc : c < 256) (x n : Nat) : fieldAt (c + 256 * x + 65536 * n) 0 1 = c := by
  rw [fieldAt_eq_div, Nat.pow_zero, Nat.div_one, Nat.pow_one, dcStat_mod, Nat.mod_eq_of_lt hc]

/-! ### The bulk window -/

/-- Bytes put into the window stand there, and the others stay. -/
theorem tabGet_foldl_zipIdx (a : Nat) (b : Bytes) (k : Nat) (t : Tab Byte) (i : Nat) :
    tabGet 0 ((b.zipIdx k).foldl (fun t e => tabSet 0 t (a + e.2) e.1) t) i = if a + k ≤ i then b.getD (i - (a + k)) (tabGet 0 t i) else tabGet 0 t i := by
  induction b generalizing k t with
  | nil => simp
  | cons x b ih =>
    rw [List.zipIdx_cons, List.foldl_cons, ih]
    simp only [tabGet_tabSet]
    split
    next h =>
      rw [if_neg (by omega), if_pos (by omega), show i - (a + k) = (i - (a + (k + 1))) + 1 by omega]
      rfl
    next h =>
      by_cases hi : i = a + k
      · rw [if_pos hi, if_pos (by omega), hi, Nat.sub_self]
        rfl
      · rw [if_neg hi, if_neg (by omega)]

theorem bulkBytes_bulkWrite (s : State) (a : Nat) (b : Bytes) : (s.bulkWrite a b).bulkBytes a b.length = b := by
  refine List.ext_getElem (by simp [bulkBytes]) fun i hi hb => ?_
  have hget : tabGet 0 (s.bulkWrite a b).pev.bulk (a + i) = b[i] := by
    have h := tabGet_foldl_zipIdx a b 0 s.pev.bulk (a + i)
    rw [if_pos (by omega), show a + i - (a + 0) = i by omega, List.getD_eq_getElem _ _ hb] at h
    exact h
  simpa [bulkBytes] using hget

/-- A scalar of a signed type keeps its value in DC_DATA. -/
theorem toSigned_dcWord {ty : ObjTy} {b : Bytes} (hs : ty.signed = true) (h1 : 1 ≤ b.length) (h4 : b.length ≤ 4) : toSigned 32 (dcWord ty b) = toSigned (8 * b.length) (leNat b) := by
  have hlt := leNat_lt b
  unfold dcWord
  rw [if_pos hs]
  refine toSigned_ofSigned (by decide) ?_ ?_
  all_goals
    unfold toSigned
    generalize leNat b = v at hlt
    generalize hn : b.length = n at *
    interval_cases n <;> norm_num at hlt ⊢ <;> split <;> omega

/-! ### A group that is accepted -/

/-- What the acceptance of a group may change: objects, fades, the budget's raises and contexts. -/
def Books (s t : State) : Prop := ∃ d f x a, t = { s with dict := d, fes := f, toll := x, acq := a }

theorem Books.refl (s : State) : Books s s := ⟨_, _, _, _, rfl⟩

theorem Books.trans {s t u : State} (h1 : Books s t) (h2 : Books t u) : Books s u := by
  obtain ⟨d, f, x, a, rfl⟩ := h1
  obtain ⟨d', f', x', a', rfl⟩ := h2
  exact ⟨d', f', x', a', rfl⟩

theorem books_foldl {α : Type} (l : List α) (f : State → α → State) (h : ∀ s x, Books s (f s x)) (s : State) : Books s (l.foldl f s) := by
  induction l generalizing s with
  | nil => exact .refl s
  | cons x l ih => exact (h s x).trans (ih _)

theorem books_showFade (s : State) (p : Nat) : Books s (s.showFade p) := by
  unfold showFade
  split
  · exact ⟨_, _, _, _, rfl⟩
  · exact ⟨_, _, _, _, rfl⟩
  · exact ⟨_, _, _, _, rfl⟩

theorem books_acceptFades (s : State) (g : Group) : Books s (acceptFades s g) := by
  unfold acceptFades
  refine books_foldl _ _ (fun x p => ?_) s
  split
  · exact .refl x
  · dsimp only
    split
    · exact (Books.trans (t := x.withFes _) ⟨_, _, _, _, rfl⟩ (books_showFade _ _))
    · exact .refl x

theorem books_acceptPower (s : State) (g : Group) : Books s (s.acceptPower g) := by
  unfold acceptPower
  split
  · exact .refl s
  · split
    · exact ⟨_, _, _, _, rfl⟩
    · exact .refl s

theorem books_acceptContexts (s : State) (g : Group) : Books s (acceptContexts s g) := by
  unfold acceptContexts
  exact books_foldl _ _ (fun x c => ⟨_, _, _, _, rfl⟩) s

/-- A group that is accepted waits behind the others. -/
theorem acceptGroup_spec (s : State) (g : Group) : ∃ u, Books s u ∧ s.acceptGroup g = u.withGroups (s.groups ++ [g]) := by
  refine ⟨acceptContexts ((acceptFades s g).acceptPower g) g, ((books_acceptFades s g).trans (books_acceptPower _ g)).trans (books_acceptContexts _ g), ?_⟩
  have h := ((books_acceptFades s g).trans (books_acceptPower _ g)).trans (books_acceptContexts _ g)
  unfold acceptGroup
  extract_lets s1
  have hgroups : s1.groups = s.groups := by
    obtain ⟨d, f, x, a, hform⟩ : Books s s1 := h
    rw [hform]
  rw [hgroups]

end State

open State

/-- A scalar of at most 32 bits is read into DC_DATA. -/
theorem completes_dcReadScalar {s : State} {b : Bytes} (hdue : s.dcDue 1 = true) (hbulk : s.dcBulk false = true) (hread : s.readObject s.pcie.dcIndex = (Res.done, b))
    (himage : (typeAt s.pcie.dcIndex).image = false) (h1 : 1 ≤ b.length) (h4 : b.length ≤ 4) :
    Completes (.dcRead false) s fun t => DcEnded s t Res.done ∧ (if (typeAt s.pcie.dcIndex).signed = true then toSigned 32 t.pcie.dcData = toSigned (8 * b.length) (leNat b) else
      t.pcie.dcData = leNat b) ∧ t = { s with pcie := t.pcie, pev := t.pev } := by
  have hexec : exec (.dcRead false) s = .next ((s.withPcie { s.pcie with dcData := dcWord (typeAt s.pcie.dcIndex) b }).endDc Res.done) := by
    rw [exec_dcRead, execDcRead, if_neg (by rw [hdue, hbulk]; simp)]
    dsimp only
    rw [hread]
    dsimp only
    rw [if_neg (by simp), if_neg (by rw [himage]; simp; omega)]
    rfl
  refine ⟨_, hexec, dcEnded_endDc _ Res.done, ?_, endDc_changes_of Res.done rfl⟩
  rw [pcie_endDc]
  show if (typeAt s.pcie.dcIndex).signed = true then toSigned 32 (dcWord (typeAt s.pcie.dcIndex) b) = _ else dcWord (typeAt s.pcie.dcIndex) b = leNat b
  split
  next hs => exact toSigned_dcWord hs h1 h4
  next hs => rw [dcWord, if_neg hs]

/-- A BLOB is read into the bulk window. -/
theorem completes_dcReadBulk {s : State} {b : Bytes} (hdue : s.dcDue 1 = true) (hbulk : s.dcBulk true = true) (hread : s.readObject s.pcie.dcIndex = (Res.done, b))
    (himage : (typeAt s.pcie.dcIndex).image = true) (hroom : s.pcie.dcOffset + b.length ≤ 8388608) :
    Completes (.dcRead true) s fun t => DcEnded s t Res.done ∧ t.bulkBytes s.pcie.dcOffset b.length = b ∧ t = { s with pcie := t.pcie, pev := t.pev } := by
  have hexec : exec (.dcRead true) s = .next ((s.bulkWrite s.pcie.dcOffset b).endDc Res.done) := by
    rw [exec_dcRead, execDcRead, if_neg (by rw [hdue, hbulk]; simp)]
    dsimp only
    rw [hread]
    dsimp only
    rw [if_neg (by simp), if_neg (by rw [himage]; simp), if_pos rfl, show bulkSize = 8388608 from rfl, if_neg (Nat.not_lt.mpr hroom)]
  refine ⟨_, hexec, dcEnded_endDc _ Res.done, ?_, endDc_changes_of Res.done rfl⟩
  have hwindow : ((s.bulkWrite s.pcie.dcOffset b).endDc Res.done).pev.bulk = (s.bulkWrite s.pcie.dcOffset b).pev.bulk := (endDc_spec _ _).2.2.2.2
  rw [bulkBytes, hwindow]
  exact bulkBytes_bulkWrite s s.pcie.dcOffset b

/-- A scalar wider than 32 bits is refused with TYPE. -/
theorem completes_dcReadWide {s : State} {b : Bytes} (hdue : s.dcDue 1 = true) (hbulk : s.dcBulk false = true) (hread : s.readObject s.pcie.dcIndex = (Res.done, b)) (hwide : 4 < b.length) :
    Completes (.dcRead false) s fun t => DcEnded s t Res.type ∧ t.pcie.dcData = s.pcie.dcData ∧ t = { s with pcie := t.pcie, pev := t.pev } := by
  have hexec : exec (.dcRead false) s = .next (s.endDc Res.type) := by
    rw [exec_dcRead, execDcRead, if_neg (by rw [hdue, hbulk]; simp)]
    dsimp only
    rw [hread]
    dsimp only
    rw [if_neg (by simp), if_pos (.inr ⟨rfl, hwide⟩)]
  exact ⟨_, hexec, dcEnded_endDc s Res.type, (congrArg Pcie.dcData (pcie_endDc s Res.type)).trans rfl, endDc_changes s Res.type⟩

/-- WRITE_NOW ends with the code of the write and keeps what the write did. -/
theorem exec_writeNow_of_some {s : State} {bulk : Bool} {w : RawWrite} {c : Code} {u : State} (hdue : s.dcDue 2 = true) (hbulk : s.dcBulk bulk = true) (hw : s.dcWrite bulk = some w)
    (h : s.writeImmediate w = (c, u)) : exec (.writeNow bulk) s = .next (u.endDc c) := by
  rw [exec_writeNow, execWriteNow, if_neg (by rw [hdue, hbulk]; simp), hw]
  dsimp only
  rw [h]

theorem writeImmediate_refused {s : State} {w : RawWrite} {c : Code} (h : s.ready = false ∧ c = Res.state ∨ s.ready = true ∧ s.checkWrite true w = c ∧ c ≠ Res.done) :
    s.writeImmediate w = (c, s) := by
  unfold writeImmediate
  rcases h with ⟨hready, rfl⟩ | ⟨hready, hcheck, hne⟩
  · rw [if_pos (by rw [hready]; rfl)]
  · rw [if_neg (by rw [hready]; decide)]
    dsimp only
    rw [hcheck, if_pos hne]

theorem writeImmediate_done {s u : State} {w : RawWrite} (hready : s.ready = true) (hcheck : s.checkWrite true w = Res.done) (h : immediate w.key w.value s = (Res.done, u)) :
    s.writeImmediate w = (Res.done, u) := by
  unfold writeImmediate
  rw [if_neg (by rw [hready]; decide)]
  dsimp only
  rw [hcheck, if_neg (not_not.mpr rfl), h, if_pos (.inl rfl)]

/-- GROUP_OPEN takes DC_TIME as the group's T. -/
theorem completes_groupOpen {s : State} (hdue : s.dcDue 3 = true) (hready : s.ready = true) (hopen : s.pcie.groupOpen = false) :
    Completes .groupOpen s fun t => t.pcie.groupOpen = true ∧ t.pev.group = [] ∧ t.pev.groupT = s.pcie.dcTime ∧ t.pcie.dcBusy = false ∧ fieldAt t.pcie.dcStat 0 1 = Res.done ∧
      t = { s with pcie := t.pcie, pev := t.pev } := by
  have hexec : exec .groupOpen s = .next (((s.withPcie { s.pcie with groupOpen := true }).withPev { s.pev with groupT := s.pcie.dcTime, group := [] }).endDc Res.done) := by
    rw [exec_groupOpen, execGroupOpen, if_neg (by rw [hdue]; decide), if_neg (by rw [hready, hopen]; decide)]
  obtain ⟨-, -, hgroup, ht, -⟩ := endDc_spec ((s.withPcie { s.pcie with groupOpen := true }).withPev { s.pev with groupT := s.pcie.dcTime, group := [] }) Res.done
  refine ⟨_, hexec, ?_, hgroup, ht, ?_, ?_, endDc_changes_of Res.done rfl⟩
  all_goals rw [pcie_endDc]
  · rfl
  · exact code_dcStat (by decide) _ _

/-- GROUP_ADD appends the write that the port carries. -/
theorem completes_groupAdd {s : State} {bulk : Bool} {w : RawWrite} (hdue : s.dcDue 4 = true) (hbulk : s.dcBulk bulk = true) (hopen : s.pcie.groupOpen = true) (hlt : s.pev.group.length < 1024)
    (hw : s.dcWrite bulk = some w) :
    Completes (.groupAdd bulk) s fun t => t.pev.group = s.pev.group ++ [w] ∧ t.pcie.groupOpen = true ∧ t.pcie.dcBusy = false ∧ fieldAt t.pcie.dcStat 0 1 = Res.done ∧
      t = { s with pcie := t.pcie, pev := t.pev } := by
  have hexec : exec (.groupAdd bulk) s = .next ((s.withPev { s.pev with group := s.pev.group ++ [w] }).endDc Res.done) := by
    rw [exec_groupAdd, execGroupAdd, if_neg (by rw [hdue, hbulk]; simp), if_neg (by rw [hopen]; decide), if_neg (Nat.not_le.mpr hlt), hw]
  obtain ⟨-, -, hgroup, -⟩ := endDc_spec (s.withPev { s.pev with group := s.pev.group ++ [w] }) Res.done
  refine ⟨_, hexec, hgroup, ?_, ?_, ?_, endDc_changes_of Res.done rfl⟩
  all_goals rw [pcie_endDc]
  · exact hopen
  · exact code_dcStat (by decide) _ _

/-- What closes the open group, with the code that its operation answers. -/
theorem closed_endDc (u : State) (c : Code) :
    (u.closeGroup.endDc c).pcie.groupOpen = false ∧ (u.closeGroup.endDc c).pev.group = [] ∧ (u.closeGroup.endDc c).pcie.dcStat % 256 = c % 256 ∧ (u.closeGroup.endDc c).pcie.dcBusy = false ∧
      u.closeGroup.endDc c = { u with pcie := (u.closeGroup.endDc c).pcie, pev := (u.closeGroup.endDc c).pev } := by
  obtain ⟨-, -, hgroup, -⟩ := endDc_spec u.closeGroup c
  refine ⟨?_, hgroup, ?_, ?_, endDc_changes_of c rfl⟩
  all_goals rw [pcie_endDc]
  · rfl
  · exact dcStat_mod c (u.pcie.dcCtrl % 16) 0

theorem exec_groupCommit_of_open {s : State} (hdue : s.dcDue 5 = true) (hopen : s.pcie.groupOpen = true) :
    exec .groupCommit s = .next ((s.submitGroup s.pev.groupT s.pev.group none).2.closeGroup.endDc (s.submitGroup s.pev.groupT s.pev.group none).1.1) := by
  rw [exec_groupCommit, execGroupCommit, if_neg (by rw [hdue]; decide), if_neg (by rw [hopen]; decide)]

/-- GROUP_COMMIT of a valid group submits it. -/
theorem completes_groupCommit {s : State} {i : Nat} (hdue : s.dcDue 5 = true) (hopen : s.pcie.groupOpen = true) (h : s.validateGroup s.pev.groupT s.pev.group none = (Res.done, i)) :
    Completes .groupCommit s fun t => t.pcie.groupOpen = false ∧ t.pev.group = [] ∧ t.pcie.dcStat % 256 = Res.done ∧
      t.groups = s.groups ++ [State.groupOf s.pev.groupT s.pev.group] ∧ t.time = s.time ∧ t.mem = s.mem := by
  have hsubmit : s.submitGroup s.pev.groupT s.pev.group none = ((Res.done, i), s.acceptGroup (groupOf s.pev.groupT s.pev.group)) := by
    rw [submitGroup, h, if_pos rfl]
  obtain ⟨u, ⟨d, f, x, a, hu⟩, haccept⟩ := acceptGroup_spec s (groupOf s.pev.groupT s.pev.group)
  have hexec := exec_groupCommit_of_open hdue hopen
  rw [hsubmit, haccept] at hexec
  generalize hw : u.withGroups (s.groups ++ [groupOf s.pev.groupT s.pev.group]) = w at hexec
  obtain ⟨hclosed, hempty, hstat, -, hform⟩ := closed_endDc w Res.done
  refine ⟨_, hexec, hclosed, hempty, hstat, ?_, ?_, ?_⟩
  all_goals rw [hform, ← hw]
  · rfl
  · show u.time = s.time
    rw [hu]
  · show u.mem = s.mem
    rw [hu]

/-- Settles O42: each operation of the port by the case it ends in. -/
theorem dictionaryPort : Obligations.DictionaryPort := by
  unfold Obligations.DictionaryPort
  refine ⟨?_, ?_, ?_, ?_, ?_, ?_, ?_, ?_, ?_, ?_, ?_, ?_⟩
  · exact fun s b hdue hbulk hread himage h1 h4 => completes_dcReadScalar hdue hbulk hread himage h1 h4
  · exact fun s b hdue hbulk hread hwide _ => completes_dcReadWide hdue hbulk hread hwide
  · exact fun s b hdue hbulk hread himage hroom => completes_dcReadBulk hdue hbulk hread himage hroom
  · intro s bulk w u hdue hbulk hw hready hcheck himm
    exact ⟨_, exec_writeNow_of_some hdue hbulk hw (writeImmediate_done hready hcheck himm), dcEnded_endDc u Res.done, endDc_changes u Res.done⟩
  · intro s bulk w c hdue hbulk hw h
    exact ⟨_, exec_writeNow_of_some hdue hbulk hw (writeImmediate_refused h), dcEnded_endDc s c, endDc_changes s c⟩
  · exact fun s hdue hready hopen => completes_groupOpen hdue hready hopen
  · intro s hdue hopen
    refine ⟨s.endDc Res.state, ?_, dcEnded_endDc s Res.state, endDc_changes s Res.state⟩
    rw [exec_groupOpen, execGroupOpen, if_neg (by rw [hdue]; decide), if_pos (.inr hopen)]
  · exact fun s bulk w hdue hbulk hopen hlt hw => completes_groupAdd hdue hbulk hopen hlt hw
  · intro s bulk hdue hbulk hopen hfull
    refine ⟨s.endDc Res.range, ?_, dcEnded_endDc s Res.range, endDc_changes s Res.range⟩
    rw [exec_groupAdd, execGroupAdd, if_neg (by rw [hdue, hbulk]; simp), if_neg (by rw [hopen]; decide), if_pos hfull]
  · intro s c i hdue hopen h hne
    have hsubmit : s.submitGroup s.pev.groupT s.pev.group none = ((c, i), s) := by
      rw [submitGroup, h, if_neg hne]
    have hexec := exec_groupCommit_of_open hdue hopen
    rw [hsubmit] at hexec
    exact ⟨_, hexec, closed_endDc s c⟩
  · exact fun s i hdue hopen h => completes_groupCommit hdue hopen h
  · intro s hdue hopen
    have hexec : exec .groupDiscard s = .next (s.closeGroup.endDc Res.done) := by
      rw [exec_groupDiscard, execGroupDiscard, if_neg (by rw [hdue]; decide), if_neg (by rw [hopen]; decide)]
    obtain ⟨hclosed, hempty, hstat, hbusy, hform⟩ := closed_endDc s Res.done
    refine ⟨_, hexec, hclosed, hempty, hbusy, ?_, hform⟩
    rw [pcie_endDc]
    exact code_dcStat (by decide) _ _

end Sys2Proof.Machine
end

section
/-! The windows of BAR2 (12 R333, R334). -/

namespace Sys2Proof.Machine

/-- A state whose map of lanes is empty, while the remap of lane 0 has not come: chunk 0 has no channel, and yet waits for a remap. -/
def unmappedState : State := (State.reset.withDict [(Key.memFixedSize, 1048576)]).withMem { State.reset.mem with remaps := [(0, 0)] }

/-- The read of one byte at address 0 is given up as it enters memory, and so completes at once with an access error. -/
theorem reads_unmappedState : (unmappedState.aperture false 0 15 [0]).pcie.reads = [] := by decide

theorem readLost_unmappedState : unmappedState.readLost 0 1 = false := by decide

theorem fixedEnd_unmappedState : unmappedState.fixedEnd = 1048576 := by decide

/-- Refutes O43: its third clause takes a chunk that waits for a remap to have a channel. In a state with an empty lane map and a remap of lane 0 to come, `readLost`
says that nothing is lost, but a request of chunk 0 finds no channel and is lost, and the aperture read ends at once. -/
theorem not_hostWindows : ¬ Obligations.HostWindows := by
  rintro ⟨-, -, hread, -⟩
  obtain ⟨t, ht, hreads, -⟩ := hread unmappedState 0xC00000 0 15 [0] (by decide) (by decide) (by decide) (by rw [fixedEnd_unmappedState]; decide) (by decide) readLost_unmappedState rfl
  have hexec : exec (.apertureAccess false 0xC00000 15 [0]) unmappedState = .next (unmappedState.aperture false 0 15 [0]) := rfl
  have ht' : unmappedState.aperture false 0 15 [0] = t := Host.Outcome.next.inj (hexec.symm.trans ht)
  rw [← ht', reads_unmappedState] at hreads
  exact absurd hreads (List.cons_ne_nil _ _).symm

end Sys2Proof.Machine
end

section
/-! Mover channels (12 R338 to R347). -/

namespace Sys2Proof.Machine
namespace State

/-! ### The table of channels -/

@[simp] theorem mover_putMover (s : State) (m : Nat) (x : Mover) (j : Nat) : (s.putMover m x).mover j = if j = m then x else s.mover j := by
  unfold mover putMover
  exact tabGet_tabSet ..

theorem mover_putMover_same (s : State) (m : Nat) (x : Mover) : (s.putMover m x).mover m = x := by rw [mover_putMover, if_pos rfl]

/-- Every channel but one is the same in two states. -/
def OtherMovers (m : Nat) (s t : State) : Prop := ∀ j, j ≠ m → t.mover j = s.mover j

theorem OtherMovers.of_eq {m : Nat} {s t : State} (h : t.movers = s.movers) : OtherMovers m s t := fun j _ => by rw [mover, mover, h]

theorem OtherMovers.trans {m : Nat} {s t u : State} (h : OtherMovers m s t) (h' : OtherMovers m t u) : OtherMovers m s u := fun j hj => (h' j hj).trans (h j hj)

theorem otherMovers_putMover (s : State) (m : Nat) (x : Mover) : OtherMovers m s (s.putMover m x) := fun j hj => by rw [mover_putMover, if_neg hj]

/-! ### The state word -/

/-- STATE of a channel that has settled. -/
def settledState (x : Mover) : Nat :=
  if x.state = mvDisabled ∨ x.state = mvHalted ∨ x.state = mvBarrier then x.state else if x.head = x.tail then mvIdle else if x.run then mvRunning else mvStopped

/-- A channel that settles changes its state word only. -/
theorem settleMover_spec (s : State) (m : Nat) :
    (s.settleMover m).mover m = { s.mover m with state := settledState (s.mover m) } ∧ OtherMovers m s (s.settleMover m) ∧ ∃ t, s.settleMover m = s.withMovers t := by
  unfold settleMover settledState
  dsimp only
  split
  · exact ⟨rfl, .of_eq rfl, s.movers, rfl⟩
  · exact ⟨mover_putMover_same .., otherMovers_putMover _ _ _, _, rfl⟩

/-- A channel put in place and settled. -/
theorem put_settleMover_spec (s : State) (m : Nat) (x : Mover) :
    ((s.putMover m x).settleMover m).mover m = { x with state := settledState x } ∧ OtherMovers m s ((s.putMover m x).settleMover m) ∧
      ∃ t, (s.putMover m x).settleMover m = s.withMovers t := by
  obtain ⟨hsame, hothers, t, ht⟩ := settleMover_spec (s.putMover m x) m
  rw [mover_putMover_same] at hsame
  exact ⟨hsame, (otherMovers_putMover s m x).trans hothers, t, ht⟩

/-- A channel that runs is not halted when it has settled. -/
theorem settled_of_running {x : Mover} (h : x.state = mvRunning) : settledState x = if x.head = x.tail then mvIdle else if x.run then mvRunning else mvStopped := by
  unfold settledState
  rw [if_neg (by rw [h]; decide)]

theorem settled_ne_halted {x : Mover} (h : x.state = mvRunning) : settledState x ≠ mvHalted := by
  rw [settled_of_running h]
  split
  · decide
  · split <;> decide

/-- At a burst boundary a channel that is not to stop settles. -/
theorem mvBoundary_of_not_stopping {s : State} {m : Nat} (h : (s.mover m).stopping = false) : s.mvBoundary m = s.settleMover m := by
  unfold mvBoundary
  dsimp only
  rw [if_neg (by rw [h]; decide)]

/-- A burst boundary leaves all but the channel's state word, its burst and its descriptor. -/
theorem mvBoundary_spec (s : State) (m : Nat) :
    (∃ st stop d r, (s.mvBoundary m).mover m = { s.mover m with state := st, stopping := stop, desc := d, redo := r } ∧ (d = none ∨ d = (s.mover m).desc)) ∧ OtherMovers m s (s.mvBoundary m) ∧
      ∃ t, s.mvBoundary m = s.withMovers t := by
  unfold mvBoundary
  dsimp only
  split
  · exact ⟨⟨_, _, _, _, mover_putMover_same .., .inl rfl⟩, otherMovers_putMover _ _ _, _, rfl⟩
  · obtain ⟨hsame, hothers, hform⟩ := settleMover_spec s m
    exact ⟨⟨_, _, _, _, hsame, .inr rfl⟩, hothers, hform⟩

/-! ### Halts and retries -/

/-- The fetch or read that a channel waited for is given up. -/
theorem dropFetch_spec (s : State) (m : Nat) :
    (s.dropFetch m).mover m = { s.mover m with phase := 0, fetched := [] } ∧ OtherMovers m s (s.dropFetch m) ∧ ∃ x t, s.dropFetch m = (s.withMem x).withMovers t := by
  unfold dropFetch
  exact ⟨mover_putMover_same .., otherMovers_putMover _ _ _, _, _, rfl⟩

/-- A halt: the state word with its cause and code, the count of halts and event source 17. -/
theorem haltMover_spec (s : State) {m : Nat} (hm : m < 16) (cause code : Nat) :
    (s.haltMover m cause code).mover m = { s.mover m with phase := 0, fetched := [], state := 4, cause := cause, code := code } ∧ OtherMovers m s (s.haltMover m cause code) ∧
      (s.haltMover m cause code).obj (Key.mvHalts m) = (s.obj (Key.mvHalts m) + 1) % 2 ^ 32 ∧
      tabGet 0 (s.haltMover m cause code).pev.evtCount 17 = (tabGet 0 s.pev.evtCount 17 + 1) % 2 ^ 32 := by
  obtain ⟨hsame, hothers, x, t, hform⟩ := dropFetch_spec s m
  have hobj : (s.dropFetch m).obj (Key.mvHalts m) = s.obj (Key.mvHalts m) := by
    rw [hform]
    rfl
  have hpev : (s.dropFetch m).pev = s.pev := by
    rw [hform]
    rfl
  unfold haltMover
  extract_lets s1
  have hmover : ∀ (u : State) (j : Nat), (u.raiseEvent 17).mover j = u.mover j := fun u j => by
    rw [raiseEvent_eq]
    rfl
  refine ⟨?_, fun j hj => ?_, ?_, ?_⟩
  · rw [hmover]
    show (s1.putMover m _).mover m = _
    rw [mover_putMover_same]
    show { s1.mover m with state := mvHalted, cause := cause, code := code } = _
    rw [show s1.mover m = _ from hsame]
    rfl
  · rw [hmover]
    show (s1.putMover m _).mover j = _
    rw [mover_putMover, if_neg hj]
    exact hothers j hj
  · rw [obj_raiseEvent, obj_bump, if_pos rfl, lenOf_mvHalts m hm]
    show (s1.obj (Key.mvHalts m) + 1) % 256 ^ 4 = _
    rw [hobj]
    norm_num
  · rw [raiseEvent_count]
    show (tabGet 0 s1.pev.evtCount 17 + 1) % 2 ^ 32 = _
    rw [hpev]

theorem halted_boundary {s : State} {m : Nat} (hstop : (s.mover m).stopping = false) (hstate : (s.mover m).state = mvHalted) : s.mvBoundary m = s := by
  rw [mvBoundary_of_not_stopping hstop, settleMover]
  rw [if_pos (.inr (.inl hstate))]

/-- A failure with a retry left: the burst is tried again. -/
theorem mvFail_retried {s : State} {m : Nat} (cause : Nat) (h : (s.mover m).retries < s.obj (Key.mvRetry m)) :
    s.mvFail m cause = (s.putMover m { s.mover m with retries := (s.mover m).retries + 1, phase := 0, fetched := [] }).bump (Key.mvRetries m) := by
  unfold mvFail
  dsimp only
  rw [if_pos h]

theorem mvFail_halts {s : State} {m : Nat} (cause : Nat) (h : s.obj (Key.mvRetry m) ≤ (s.mover m).retries) : s.mvFail m cause = s.haltMover m cause 0 := by
  unfold mvFail
  dsimp only
  rw [if_neg (Nat.not_lt.mpr h)]

/-- After a failure with a retry left the channel settles on the next try. -/
theorem retried_spec {s : State} {m : Nat} (hm : m < 16) (cause : Nat) (h : (s.mover m).retries < s.obj (Key.mvRetry m)) (hstop : (s.mover m).stopping = false) :
    (∃ st, ((s.mvFail m cause).mvBoundary m).mover m = { s.mover m with retries := (s.mover m).retries + 1, phase := 0, fetched := [], state := st }) ∧
      ((s.mvFail m cause).mvBoundary m).obj (Key.mvRetries m) = (s.obj (Key.mvRetries m) + 1) % 2 ^ 64 ∧ ((s.mvFail m cause).mvBoundary m).mem = s.mem := by
  have hmover : (s.mvFail m cause).mover m = { s.mover m with retries := (s.mover m).retries + 1, phase := 0, fetched := [] } := by
    rw [mvFail_retried cause h]
    exact mover_putMover_same s m _
  rw [mvBoundary_of_not_stopping (by rw [hmover]; exact hstop)]
  obtain ⟨hsame, -, t, ht⟩ := settleMover_spec (s.mvFail m cause) m
  refine ⟨⟨_, hsame.trans (by rw [hmover])⟩, ?_, ?_⟩
  · rw [ht, mvFail_retried cause h, obj_withMovers, obj_bump, if_pos rfl, lenOf_mvRetries m hm]
    show (s.obj (Key.mvRetries m) + 1) % 256 ^ 8 = _
    norm_num
  · rw [ht, mvFail_retried cause h]
    rfl

theorem moverTake_changes (s : State) (m a n : Nat) : ∃ x, (s.moverTake m a n).2 = s.withMem x ∧ x.cells = s.mem.cells := ⟨_, rfl, rfl⟩

/-! ### Bursts and the end of a descriptor -/

theorem noteTries_changes (x : Mover) (b : Nat × Nat) : ∃ ts, x.noteTries b = { x with tries := ts } := by
  unfold Mover.noteTries
  split
  · exact ⟨x.tries, rfl⟩
  · exact ⟨_, rfl⟩

/-- A burst sent to its destination and counted in mv.bytes. -/
def sent (s : State) (k : Nat) (d : MvDesc) (b n : Nat) (data : Bytes) : State :=
  (if d.dstHost then s.emit (.hostWrite b data) else s.memWrite (.mover k (s.mover k).serial) 3 b data).addObj (Key.mvBytes k) n

theorem not_isMemCounter_mvDescCount (k : Nat) : ¬ isMemCounter (Key.mvDescCount k) := by
  simp only [isMemCounter, Key.mvDescCount, Key.memLostWrites, Key.memLostReads, Key.memchInorder]
  omega

theorem sent_spec (s : State) (k : Nat) (d : MvDesc) (b n : Nat) (data : Bytes) : (s.sent k d b n data).movers = s.movers ∧ (s.sent k d b n data).obj (Key.mvDescCount k) = s.obj (Key.mvDescCount k) := by
  have hkey : Key.mvDescCount k ≠ Key.mvBytes k := by unfold Key.mvDescCount Key.mvBytes; omega
  unfold sent
  rw [obj_addObj, if_neg hkey]
  split
  · exact ⟨rfl, rfl⟩
  · obtain ⟨⟨dd, m, hform, -⟩, hobj, -⟩ := onlyRequests_memWrite s (.mover k (s.mover k).serial) 3 b data
    refine ⟨?_, hobj _ (not_isMemCounter_mvDescCount k)⟩
    show (s.memWrite (.mover k (s.mover k).serial) 3 b data).movers = s.movers
    rw [hform]
    rfl

/-- The channel's next descriptor, behind the one that has completed. -/
theorem mvComplete_spec {s : State} {m : Nat} {d : MvDesc} (hevent : d.event = false) :
    ((s.mvComplete m d).mover m).head = ((s.mover m).head + 1) % max 1 (s.obj (Key.mvDescCount m)) ∧ ((s.mvComplete m d).mover m).done = ((s.mover m).done + 1) % 2 ^ 32 ∧
      ((s.mvComplete m d).mover m).pos = (s.mover m).pos ∧ ((s.mvComplete m d).mover m).elem = (s.mover m).elem ∧ ((s.mvComplete m d).mover m).desc = none ∧
      OtherMovers m s (s.mvComplete m d) := by
  unfold mvComplete
  extract_lets x s1 s2
  rw [if_pos (by rw [hevent]; rfl)]
  obtain ⟨⟨st, stop, dd, r, hsame, hdesc⟩, hothers, -⟩ := mvBoundary_spec s1 m
  have h1 : s1.mover m = _ := mover_putMover_same s m _
  have hdd : dd = none := hdesc.elim id fun h => h.trans (by rw [h1])
  have h2 : s2.mover m = _ := hsame
  rw [h2, h1]
  exact ⟨rfl, rfl, rfl, rfl, hdd, (otherMovers_putMover s m _).trans hothers⟩

theorem mvAdvance_spec (s : State) (m : Nat) (d : MvDesc) (n : Nat) :
    (s.mvAdvance m d n).mover m = { s.mover m with pos := (s.mover m).pos + n, elem := if d.size ≤ (s.mover m).inElem + n then (s.mover m).elem + 1 else (s.mover m).elem,
                                                   inElem := if d.size ≤ (s.mover m).inElem + n then 0 else (s.mover m).inElem + n, retries := 0 } ∧ OtherMovers m s (s.mvAdvance m d n) := by
  unfold mvAdvance
  extract_lets x whole
  refine ⟨(mover_putMover_same ..).trans ?_, otherMovers_putMover _ _ _⟩
  simp only [x, whole, decide_eq_true_eq]

/-- The channel as a burst is written: its data sent, its phase 0. -/
def burstSent (s : State) (k : Nat) (d : MvDesc) (b n : Nat) (data : Bytes) : State :=
  (s.sent k d b n data).putMover k { (s.mover k).noteTries ((s.mover k).redo.headD ((s.mover k).elem, (s.mover k).inElem)) with phase := 0 }

theorem burstSent_spec (s : State) (k : Nat) (d : MvDesc) (b n : Nat) (data : Bytes) :
    (∃ ts, (s.burstSent k d b n data).mover k = { s.mover k with tries := ts, phase := 0 }) ∧ (s.burstSent k d b n data).obj (Key.mvDescCount k) = s.obj (Key.mvDescCount k) := by
  obtain ⟨ts, hts⟩ := noteTries_changes (s.mover k) ((s.mover k).redo.headD ((s.mover k).elem, (s.mover k).inElem))
  refine ⟨⟨ts, ?_⟩, (sent_spec s k d b n data).2⟩
  unfold burstSent
  rw [mover_putMover_same, hts]

/-- Of a burst that is not written again: it is counted, or ends the descriptor. -/
theorem burstWrite_of_first {s : State} {k : Nat} (d : MvDesc) (b n : Nat) (data : Bytes) (hredo : (s.mover k).redo = []) :
    s.burstWrite k d b n data =
      if d.elements ≤ (s.mover k).elem + 1 ∧ d.size ≤ (s.mover k).inElem + n then
        (if d.barrier = true then ((s.burstSent k d b n data).putMover k { (s.burstSent k d b n data).mover k with state := mvBarrier }).mvBoundary k
          else ((s.burstSent k d b n data).mvAdvance k d n).mvComplete k d)
      else ((s.burstSent k d b n data).mvAdvance k d n).mvBoundary k := by
  unfold burstWrite
  extract_lets x noted s1 last
  have h1 : s1 = s.burstSent k d b n data := rfl
  rw [if_pos (by rw [show x.redo = [] from hredo]; rfl), h1]
  by_cases h : d.elements ≤ (s.mover k).elem + 1 ∧ d.size ≤ (s.mover k).inElem + n
  · have hlast : last = true := decide_eq_true h
    rw [if_neg (by rw [hlast]; decide), if_pos h]
    rfl
  · have hlast : last = false := decide_eq_false h
    rw [if_pos (by rw [hlast]; rfl), if_neg h]

/-- A burst that is not the last one of its element: the channel goes on behind it. -/
theorem burstWrite_within {s : State} {k : Nat} {d : MvDesc} (b : Nat) {n : Nat} (data : Bytes) (hstate : (s.mover k).state = 2) (hstop : (s.mover k).stopping = false)
    (hredo : (s.mover k).redo = []) (hrun : (s.mover k).run = true) (hready : (s.mover k).head ≠ (s.mover k).tail) (hsize : (s.mover k).inElem + n < d.size) :
    ((s.burstWrite k d b n data).mover k).pos = (s.mover k).pos + n ∧ ((s.burstWrite k d b n data).mover k).elem = (s.mover k).elem ∧
      ((s.burstWrite k d b n data).mover k).inElem = (s.mover k).inElem + n ∧ ((s.burstWrite k d b n data).mover k).state = 2 ∧ ((s.burstWrite k d b n data).mover k).retries = 0 := by
  rw [burstWrite_of_first d b n data hredo, if_neg fun h => Nat.not_le.mpr hsize h.2]
  obtain ⟨⟨ts, hsent⟩, -⟩ := burstSent_spec s k d b n data
  generalize s.burstSent k d b n data = u at hsent
  obtain ⟨hadv, -⟩ := mvAdvance_spec u k d n
  have hnot : ¬ d.size ≤ (u.mover k).inElem + n := by
    rw [hsent]
    exact Nat.not_le.mpr hsize
  rw [if_neg hnot, if_neg hnot, hsent] at hadv
  rw [mvBoundary_of_not_stopping (by rw [hadv]; exact hstop), (settleMover_spec _ k).1, hadv]
  refine ⟨rfl, rfl, rfl, (settled_of_running ?_).trans ?_, rfl⟩
  · exact hstate
  · exact (if_neg hready).trans (if_pos hrun)

/-- The last burst of a descriptor: it completes, or waits for its writes under BARRIER. -/
theorem burstWrite_last {s : State} {k : Nat} {d : MvDesc} (b : Nat) {n : Nat} (data : Bytes) (hstop : (s.mover k).stopping = false) (hredo : (s.mover k).redo = [])
    (hsize : d.size ≤ (s.mover k).inElem + n) (helems : d.elements ≤ (s.mover k).elem + 1) (hevent : d.event = false) (hcount : 2 ≤ s.obj (Key.mvDescCount k)) :
    if d.barrier = true then ((s.burstWrite k d b n data).mover k).state = 5 ∧ ((s.burstWrite k d b n data).mover k).head = (s.mover k).head ∧
        ((s.burstWrite k d b n data).mover k).pos = (s.mover k).pos
    else ((s.burstWrite k d b n data).mover k).head = ((s.mover k).head + 1) % s.obj (Key.mvDescCount k) ∧
      ((s.burstWrite k d b n data).mover k).done = ((s.mover k).done + 1) % 2 ^ 32 ∧ ((s.burstWrite k d b n data).mover k).pos = (s.mover k).pos + n ∧
      ((s.burstWrite k d b n data).mover k).elem = (s.mover k).elem + 1 ∧ ((s.burstWrite k d b n data).mover k).desc = none := by
  rw [burstWrite_of_first d b n data hredo, if_pos (And.intro helems hsize)]
  obtain ⟨⟨ts, hsent⟩, hobj⟩ := burstSent_spec s k d b n data
  generalize s.burstSent k d b n data = u at hsent hobj
  by_cases hbarrier : d.barrier = true
  · rw [if_pos hbarrier, if_pos hbarrier]
    have hput : (u.putMover k { u.mover k with state := mvBarrier }).mover k = { u.mover k with state := mvBarrier } := mover_putMover_same ..
    rw [mvBoundary_of_not_stopping (by rw [hput, hsent]; exact hstop), (settleMover_spec _ k).1, hput, hsent]
    exact ⟨rfl, rfl, rfl⟩
  · rw [if_neg hbarrier, if_neg hbarrier]
    obtain ⟨hadv, -⟩ := mvAdvance_spec u k d n
    have hwhole : d.size ≤ (u.mover k).inElem + n := by
      rw [hsent]
      exact hsize
    rw [if_pos hwhole, if_pos hwhole, hsent] at hadv
    obtain ⟨hhead, hdone, hpos, helem, hdesc, -⟩ := mvComplete_spec (s := u.mvAdvance k d n) (m := k) hevent
    rw [hadv] at hhead hdone hpos helem
    have hcount' : max 1 ((u.mvAdvance k d n).obj (Key.mvDescCount k)) = s.obj (Key.mvDescCount k) := by
      show max 1 (u.obj (Key.mvDescCount k)) = _
      rw [hobj]
      omega
    rw [hcount'] at hhead
    exact ⟨hhead, hdone, hpos, helem, hdesc⟩

end State

open State

theorem State.mvOutside_of_dict {s t : State} (h : t.dict = s.dict) (host : Bool) (e : Int × Int) : t.mvOutside host e = s.mvOutside host e := by
  have hend : t.fixedEnd = s.fixedEnd := by
    unfold State.fixedEnd State.memSize State.obj
    rw [h]
  unfold State.mvOutside State.inFixed
  rw [hend]

/-- What a descriptor is refused for depends on the objects alone. -/
theorem State.descBad_of_dict {s t : State} (h : t.dict = s.dict) (d : MvDesc) : t.descBad d = s.descBad d := by
  unfold State.descBad
  rw [mvOutside_of_dict h, mvOutside_of_dict h, mvOutside_of_dict h]

theorem State.descRefused_of_dict {s t : State} (h : t.dict = s.dict) (d : MvDesc) (table : Bytes) : t.descRefused d table = s.descRefused d table := by
  unfold State.descRefused
  rw [descBad_of_dict h, mvOutside_of_dict h]

/-- What a burst over the host link comes to. -/
theorem exec_moverBurstDone_of_host {s : State} {m : Fin 16} {raw : Bytes} (ok : Bool) (hd : Bytes) (hstate : (s.mover m.val).state = 2) (hdesc : (s.mover m.val).desc = some raw)
    (hflows : s.hostFlows = true) (hsrc : (mvDesc raw).srcHost = true) : ∃ b n data,
      exec (.moverBurstDone m ok hd) s = .next (if ok then s.burstWrite m.val (mvDesc raw) b n data else (s.mvFail m.val 1).mvBoundary m.val) ∧
        ((s.mover m.val).redo = [] → n = (mvDesc raw).burstLen (s.mover m.val).index (s.mover m.val).elem (s.mover m.val).inElem) := by
  generalize hpos : (s.mover m.val).redo.headD ((s.mover m.val).elem, (s.mover m.val).inElem) = e
  obtain ⟨i, off⟩ := e
  refine ⟨((mvDesc raw).dstAt i + off).toNat, (mvDesc raw).burstLen (s.mover m.val).index i off,
    padTo ((mvDesc raw).burstLen (s.mover m.val).index i off) (hd.take ((mvDesc raw).burstLen (s.mover m.val).index i off)), ?_, fun hredo => ?_⟩
  · rw [exec_moverBurstDone, execMoverBurstDone]
    dsimp only
    rw [hdesc]
    dsimp only
    rw [if_neg (by rw [hstate, hflows]; simp [mvRunning]), hpos]
    dsimp only
    rw [if_pos hsrc]
  · rw [hredo] at hpos
    cases hpos
    rfl

/-- What a burst from DRAM comes to once its reads have been answered. -/
theorem exec_moverBurstDone_of_dram {s : State} {m : Fin 16} {raw : Bytes} (ok : Bool) (hd : Bytes) (hstate : (s.mover m.val).state = 2) (hdesc : (s.mover m.val).desc = some raw)
    (hflows : (mvDesc raw).dstHost = false ∨ s.hostFlows = true) (hsrc : (mvDesc raw).srcHost = false) (hphase : (s.mover m.val).phase = 1) (hredo : (s.mover m.val).redo = [])
    (hreads : s.readsOutstanding (moverOwner m.val) = false) {r : (Bytes × Bool) × State} {n : Nat}
    (hn : n = (mvDesc raw).burstLen (s.mover m.val).index (s.mover m.val).elem (s.mover m.val).inElem)
    (hr : r = s.moverTake m.val ((mvDesc raw).srcAt (s.mover m.val).index (s.mover m.val).elem + (s.mover m.val).inElem).toNat n) :
    exec (.moverBurstDone m ok hd) s = .next (if r.1.2 then (r.2.mvFail m.val 1).mvBoundary m.val
      else r.2.burstWrite m.val (mvDesc raw) ((mvDesc raw).dstAt (s.mover m.val).elem + (s.mover m.val).inElem).toNat n r.1.1) := by
  rw [exec_moverBurstDone, execMoverBurstDone]
  dsimp only
  rw [hdesc]
  dsimp only
  have hgo : ¬ ((s.mover m.val).state ≠ mvRunning ∨ (((mvDesc raw).srcHost || (mvDesc raw).dstHost) = true ∧ (!s.hostFlows) = true)) := by
    rw [hstate, hsrc]
    rcases hflows with h | h <;> simp [h, mvRunning]
  rw [if_neg hgo, hredo]
  dsimp only [List.headD_nil]
  rw [if_neg (by rw [hsrc]; decide), if_neg (by rw [hphase]; decide), hreads, if_neg (by decide), hr, hn]
  rfl

/-- The data of a burst has come, over the host link or from DRAM: it is written. -/
theorem exec_moverBurstDone_come {s : State} {m : Fin 16} {x : Mover} {raw : Bytes} {n : Nat} (hd : Bytes) (hx : x = s.mover m.val) (hstate : x.state = 2) (hdesc : x.desc = some raw)
    (hflows : s.hostFlows = true) (hredo : x.redo = []) (hn : n = (mvDesc raw).burstLen x.index x.elem x.inElem)
    (hcome : (mvDesc raw).srcHost = true ∨ x.phase = 1 ∧ s.readsOutstanding (State.moverOwner m.val) = false ∧
      (s.moverTake m.val ((mvDesc raw).srcAt x.index x.elem + x.inElem).toNat n).1.2 = false) :
    ∃ y b data, exec (.moverBurstDone m true hd) s = .next ((s.withMem y).burstWrite m.val (mvDesc raw) b n data) ∧ y.cells = s.mem.cells := by
  subst hx
  by_cases hsrc : (mvDesc raw).srcHost = true
  · obtain ⟨b, n', data, hexec, hn'⟩ := exec_moverBurstDone_of_host true hd hstate hdesc hflows hsrc
    obtain rfl : n' = n := (hn' hredo).trans hn.symm
    exact ⟨s.mem, b, data, hexec, rfl⟩
  · obtain ⟨hphase, hreads, hlost⟩ := hcome.resolve_left hsrc
    have hexec := exec_moverBurstDone_of_dram true hd hstate hdesc (.inr hflows) (Bool.eq_false_iff.mpr hsrc) hphase hredo hreads hn rfl
    rw [if_neg (by rw [hlost]; decide)] at hexec
    exact ⟨_, _, _, hexec, rfl⟩

/-- A read that memory answered has come: the 64 bytes of a descriptor. -/
theorem exec_moverDescFetched_come {s : State} {m : Fin 16} {raw : Bytes} (ok : Bool) (hd : Bytes) (ok' : Bool) (ix : Bytes) (hstate : (s.mover m.val).state = 2) (hdesc : (s.mover m.val).desc = none)
    (hready : (s.mover m.val).head ≠ (s.mover m.val).tail) (hphase : (s.mover m.val).phase = 1) (hreads : s.readsOutstanding (moverOwner m.val) = false)
    (hraw : (s.moverTake m.val (s.obj (Key.mvDescBase m.val) + 64 * (s.mover m.val).head) 64).1 = (raw, false)) :
    ∃ y, exec (.moverDescFetched m ok hd ok' ix) s = .next ((s.withMem y).descCome m.val raw ok' ix) ∧ y.cells = s.mem.cells := by
  obtain ⟨y, hform, hcells⟩ := moverTake_changes s m.val (s.obj (Key.mvDescBase m.val) + 64 * (s.mover m.val).head) 64
  refine ⟨y, ?_, hcells⟩
  rw [exec_moverDescFetched, execMoverDescFetched]
  dsimp only
  rw [if_neg (by rw [hstate, hdesc]; simpa [mvRunning] using hready), if_neg (by rw [hphase]; simp), if_neg (by rw [hphase]; decide), if_neg (by rw [hphase]; decide), hreads,
    if_neg (by decide), if_pos hphase, if_neg (by rw [congrArg Prod.snd hraw]; exact Bool.false_ne_true), congrArg Prod.fst hraw, hform]

/-- A descriptor that is refused halts its channel with RANGE. -/
theorem completes_descBad {s : State} {m : Fin 16} {raw : Bytes} (ok : Bool) (hd : Bytes) (ok' : Bool) (ix : Bytes) (hstate : (s.mover m.val).state = 2) (hdesc : (s.mover m.val).desc = none)
    (hready : (s.mover m.val).head ≠ (s.mover m.val).tail) (hphase : (s.mover m.val).phase = 1) (hreads : s.readsOutstanding (moverOwner m.val) = false)
    (hraw : (s.moverTake m.val (s.obj (Key.mvDescBase m.val) + 64 * (s.mover m.val).head) 64).1 = (raw, false)) (hbad : s.descBad (mvDesc raw) = true) :
    Completes (.moverDescFetched m ok hd ok' ix) s fun t => (t.mover m.val).state = 4 ∧ (t.mover m.val).cause = 5 ∧ (t.mover m.val).code = Res.range ∧
      (t.mover m.val).head = (s.mover m.val).head ∧ t.mem.cells = s.mem.cells ∧ tabGet 0 t.pev.evtCount 17 = (tabGet 0 s.pev.evtCount 17 + 1) % 2 ^ 32 := by
  obtain ⟨y, hexec, hcells⟩ := exec_moverDescFetched_come ok hd ok' ix hstate hdesc hready hphase hreads hraw
  have hcome : (s.withMem y).descCome m.val raw ok' ix =
      ((s.withMem y).putMover m.val { s.mover m.val with pos := 0, elem := 0, inElem := 0 }).haltMover m.val 5 Res.range := if_pos hbad
  rw [hcome] at hexec
  obtain ⟨hsame, -, -, hevent⟩ := haltMover_spec ((s.withMem y).putMover m.val { s.mover m.val with pos := 0, elem := 0, inElem := 0 }) m.isLt 5 Res.range
  rw [mover_putMover_same] at hsame
  refine ⟨_, hexec, ?_, ?_, ?_, ?_, ?_, hevent⟩
  · rw [hsame]
  · rw [hsame]
  · rw [hsame]
  · rw [hsame]
  · exact (cells_of_kept (kept_haltMover _ _ _ _)).trans hcells

/-- A channel with a descriptor that it has just fetched. -/
def Mover.taken (x : Mover) (raw : Bytes) : Mover :=
  { x with desc := some raw, index := [], retries := 0, redo := [], tries := [], pos := 0, elem := 0, inElem := 0, phase := 0, fetched := [], serial := x.serial + 1 }

theorem State.tableFetch_of_pattern {s : State} {k : Nat} {raw : Bytes} {ok : Bool} {ix : Bytes} (h : (mvDesc raw).pattern ≠ 2) : s.tableFetch k raw ok ix = s.descTaken k raw [] := if_pos h

theorem State.descTaken_of_not_refused {s : State} {k : Nat} {raw : Bytes} (h : s.descRefused (mvDesc raw) [] = none) :
    (s.descTaken k raw []).mover k = { s.mover k with desc := some raw, index := [], retries := 0, redo := [], tries := [], phase := 0, fetched := [], serial := (s.mover k).serial + 1 } ∧
      OtherMovers k s (s.descTaken k raw []) ∧ ∃ q t, s.descTaken k raw [] = (s.withMem q).withMovers t ∧ q.cells = s.mem.cells := by
  unfold descTaken
  rw [h]
  exact ⟨mover_putMover_same .., OtherMovers.trans (.of_eq rfl) (otherMovers_putMover _ _ _), _, _, rfl, rfl⟩

/-- A descriptor that names no index table and is not refused is taken. -/
theorem State.descCome_taken {s : State} {k : Nat} {raw : Bytes} (ok : Bool) (ix : Bytes) (hpattern : (mvDesc raw).pattern ≠ 2) (hgood : s.descBad (mvDesc raw) = false)
    (hok : s.descRefused (mvDesc raw) [] = none) :
    (s.descCome k raw ok ix).mover k = (s.mover k).taken raw ∧ OtherMovers k s (s.descCome k raw ok ix) ∧ ∃ q t, s.descCome k raw ok ix = (s.withMem q).withMovers t ∧ q.cells = s.mem.cells := by
  unfold descCome
  extract_lets src s1
  have h1 : s1.mover k = { src with pos := 0, elem := 0, inElem := 0 } := mover_putMover_same ..
  have hbad1 : s1.descBad (mvDesc raw) = false := (descBad_of_dict (s := s) rfl _).trans hgood
  have hok1 : s1.descRefused (mvDesc raw) [] = none := (descRefused_of_dict (s := s) rfl _ _).trans hok
  rw [if_neg (by rw [hbad1]; decide), tableFetch_of_pattern hpattern]
  obtain ⟨hsame, hothers, q, t, hform, hq⟩ := descTaken_of_not_refused hok1
  refine ⟨hsame.trans ?_, (otherMovers_putMover s k _).trans hothers, q, t, hform, hq⟩
  rw [h1]
  rfl

/-- A descriptor that names no index table and is not refused is the channel's current one. -/
theorem completes_descTaken {s : State} {m : Fin 16} {raw : Bytes} (ok : Bool) (hd : Bytes) (ok' : Bool) (ix : Bytes) (hstate : (s.mover m.val).state = 2) (hdesc : (s.mover m.val).desc = none)
    (hready : (s.mover m.val).head ≠ (s.mover m.val).tail) (hphase : (s.mover m.val).phase = 1) (hreads : s.readsOutstanding (moverOwner m.val) = false)
    (hraw : (s.moverTake m.val (s.obj (Key.mvDescBase m.val) + 64 * (s.mover m.val).head) 64).1 = (raw, false)) (hpattern : (mvDesc raw).pattern ≠ 2) (hok : s.descRefused (mvDesc raw) [] = none) :
    Completes (.moverDescFetched m ok hd ok' ix) s fun t => t.mover m.val = (s.mover m.val).taken raw ∧
      (∀ j, j ≠ m.val → t.mover j = s.mover j) ∧ t.mem.cells = s.mem.cells ∧ t = { s with movers := t.movers, mem := t.mem } := by
  obtain ⟨y, hexec, hcells⟩ := exec_moverDescFetched_come ok hd ok' ix hstate hdesc hready hphase hreads hraw
  have hgood : s.descBad (mvDesc raw) = false := by
    rw [descRefused] at hok
    by_contra hbad
    rw [if_pos (.inl (Bool.eq_true_of_not_eq_false hbad))] at hok
    cases hok
  obtain ⟨hsame, hothers, q, t, hform, hq⟩ := descCome_taken (s := s.withMem y) (k := m.val) ok' ix hpattern ((descBad_of_dict (s := s) rfl _).trans hgood)
    ((descRefused_of_dict (s := s) rfl _ _).trans hok)
  refine ⟨_, hexec, hsame, hothers, ?_, ?_⟩
  all_goals rw [hform]
  · exact hq.trans hcells
  · rfl

/-- The state that a channel leaves behind its lost writes. -/
def State.forgetLost (s : State) (k : Nat) : State := s.withMem { s.mem with lostWrites := s.mem.lostWrites.filter fun e => !moverOwner k e.1 }

/-- With every write acknowledged and none lost the barrier ends. -/
theorem exec_moverBarrierDone_of_acked {s : State} {m : Fin 16} {raw : Bytes} (hstate : (s.mover m.val).state = 5) (hdesc : (s.mover m.val).desc = some raw) (hdst : (mvDesc raw).dstHost = false)
    (hout : s.outstanding (.mover m.val (s.mover m.val).serial) = false) (hlost : ∀ e ∈ s.mem.lostWrites, e.1 ≠ .mover m.val (s.mover m.val).serial) :
    exec (.moverBarrierDone m true) s = .next ((((s.forgetLost m.val).putMover m.val { s.mover m.val with state := mvRunning }).mvAdvance m.val (mvDesc raw)
      ((mvDesc raw).burstLen (s.mover m.val).index (s.mover m.val).elem (s.mover m.val).inElem)).mvComplete m.val (mvDesc raw)) := by
  have hmine : (s.mem.lostWrites.filter fun e => e.1 == Owner.mover m.val (s.mover m.val).serial) = [] :=
    List.filter_eq_nil_iff.mpr fun e he => by rw [beq_eq_false_iff_ne.mpr (hlost e he)]; exact Bool.false_ne_true
  rw [exec_moverBarrierDone, execMoverBarrierDone]
  dsimp only
  rw [hdesc]
  dsimp only
  rw [if_neg (by rw [hstate, hdst, hout]; simp [mvBarrier]), hmine, hdst]
  rfl

/-- A flush that fails with no retry left halts the channel. -/
theorem exec_moverBarrierDone_of_failed {s : State} {m : Fin 16} {raw : Bytes} (hstate : (s.mover m.val).state = 5) (hdesc : (s.mover m.val).desc = some raw) (hdst : (mvDesc raw).dstHost = true)
    (hflows : s.hostFlows = true) (hspent : s.obj (Key.mvRetry m.val) ≤ (s.mover m.val).triesOf ((s.mover m.val).elem, (s.mover m.val).inElem)) :
    ∃ redo tries, exec (.moverBarrierDone m false) s = .next (((s.forgetLost m.val).putMover m.val { s.mover m.val with redo := redo, tries := tries }).haltMover m.val 2 0) := by
  refine ⟨[((s.mover m.val).elem, (s.mover m.val).inElem)], (((s.mover m.val).elem, (s.mover m.val).inElem), (s.mover m.val).triesOf ((s.mover m.val).elem, (s.mover m.val).inElem) + 1) ::
    (s.mover m.val).tries.filter fun e => !([((s.mover m.val).elem, (s.mover m.val).inElem)].contains e.1), ?_⟩
  rw [exec_moverBarrierDone, execMoverBarrierDone]
  dsimp only
  rw [hdesc]
  dsimp only
  rw [if_neg (by rw [hstate, hdst, hflows]; simp [mvBarrier]), if_pos hdst, if_neg Bool.false_ne_true, if_neg (by exact Bool.false_ne_true), if_pos (by simpa using hspent)]
  rfl

theorem completes_barrierAcked {s : State} {m : Fin 16} {raw : Bytes} (hstate : (s.mover m.val).state = 5) (hdesc : (s.mover m.val).desc = some raw) (hdst : (mvDesc raw).dstHost = false)
    (hevent : (mvDesc raw).event = false) (hout : s.outstanding (.mover m.val (s.mover m.val).serial) = false) (hlost : ∀ e ∈ s.mem.lostWrites, e.1 ≠ .mover m.val (s.mover m.val).serial)
    (hcount : 2 ≤ s.obj (Key.mvDescCount m.val)) :
    Completes (.moverBarrierDone m true) s fun t => (t.mover m.val).head = ((s.mover m.val).head + 1) % s.obj (Key.mvDescCount m.val) ∧
      (t.mover m.val).done = ((s.mover m.val).done + 1) % 2 ^ 32 ∧ (t.mover m.val).desc = none ∧ t.mem.cells = s.mem.cells ∧ (∀ j, j ≠ m.val → t.mover j = s.mover j) := by
  have hexec := exec_moverBarrierDone_of_acked hstate hdesc hdst hout hlost
  generalize hu : (s.forgetLost m.val).putMover m.val { s.mover m.val with state := mvRunning } = u at hexec
  generalize (mvDesc raw).burstLen (s.mover m.val).index (s.mover m.val).elem (s.mover m.val).inElem = n at hexec
  have hsame : u.mover m.val = { s.mover m.val with state := mvRunning } := hu ▸ mover_putMover_same ..
  have hobj : max 1 (u.obj (Key.mvDescCount m.val)) = s.obj (Key.mvDescCount m.val) := by
    rw [← hu]
    show max 1 (s.obj (Key.mvDescCount m.val)) = _
    omega
  obtain ⟨hadv, hothers⟩ := mvAdvance_spec u m.val (mvDesc raw) n
  obtain ⟨hhead, hdone, -, -, hnone, hothers'⟩ := mvComplete_spec (s := u.mvAdvance m.val (mvDesc raw) n) (m := m.val) hevent
  rw [hadv, hsame] at hhead hdone
  refine ⟨_, hexec, ?_, hdone, hnone, ?_, ?_⟩
  · exact hhead.trans (congrArg _ hobj)
  · have hkept : ((u.mvAdvance m.val (mvDesc raw) n).mvComplete m.val (mvDesc raw)).kept = s.kept := by
      rw [kept_mvComplete, ← hu]
      rfl
    exact cells_of_kept hkept
  · have hput : OtherMovers m.val s u := hu ▸ OtherMovers.trans (t := s.forgetLost m.val) (.of_eq rfl) (otherMovers_putMover _ _ _)
    exact (hput.trans hothers).trans hothers'

theorem completes_barrierFailed {s : State} {m : Fin 16} {raw : Bytes} (hstate : (s.mover m.val).state = 5) (hdesc : (s.mover m.val).desc = some raw) (hdst : (mvDesc raw).dstHost = true)
    (hflows : s.hostFlows = true) (hspent : s.obj (Key.mvRetry m.val) ≤ (s.mover m.val).triesOf ((s.mover m.val).elem, (s.mover m.val).inElem)) :
    Completes (.moverBarrierDone m false) s fun t => (t.mover m.val).state = 4 ∧ (t.mover m.val).cause = 2 ∧
      t.obj (Key.mvHalts m.val) = (s.obj (Key.mvHalts m.val) + 1) % 2 ^ 32 ∧ t.mem.cells = s.mem.cells ∧ (∀ j, j ≠ m.val → t.mover j = s.mover j) := by
  obtain ⟨redo, tries, hexec⟩ := exec_moverBarrierDone_of_failed hstate hdesc hdst hflows hspent
  generalize hu : (s.forgetLost m.val).putMover m.val { s.mover m.val with redo := redo, tries := tries } = u at hexec
  obtain ⟨hsame, hothers, hhalts, -⟩ := haltMover_spec u m.isLt 2 0
  have hput : OtherMovers m.val s u := hu ▸ OtherMovers.trans (t := s.forgetLost m.val) (.of_eq rfl) (otherMovers_putMover _ _ _)
  refine ⟨_, hexec, by rw [hsame], by rw [hsame], ?_, ?_, hput.trans hothers⟩
  · rw [hhalts, ← hu]
    rfl
  · exact cells_of_kept ((kept_haltMover _ _ _ _).trans (by rw [← hu]; rfl))

/-- A whole write of a mover register that the channel takes acts. -/
theorem mvWrite_whole (s : State) (m off : Nat) {takes : Bool} (h : takes = true) (f : State → State) : s.mvWrite m off 15 takes f = f s := by
  rw [h]
  rfl

theorem completes_mvTailWrite {s : State} {m : Fin 16} {v : BitVec 32} (hstate : (s.mover m.val).state ≠ 0) (hsource : s.obj (Key.mvStartSource m.val) = 0)
    (hcount : v.toNat < s.obj (Key.mvDescCount m.val)) (hv : v.toNat < 65536) :
    Completes (.mvTailWrite m 15 v) s fun t => (t.mover m.val).tail = v.toNat ∧ t = { s with movers := t.movers } ∧ (∀ j, j ≠ m.val → t.mover j = s.mover j) ∧
      ((s.mover m.val).state = 1 → (s.mover m.val).run = true → v.toNat ≠ (s.mover m.val).head → (t.mover m.val).state = 2) := by
  have hmod : v.toNat % 65536 = v.toNat := Nat.mod_eq_of_lt hv
  have htakes : ((s.mover m.val).state != mvDisabled && s.obj (Key.mvStartSource m.val) == 0 && decide (v.toNat % 65536 < s.obj (Key.mvDescCount m.val))) = true := by
    rw [hmod, hsource, decide_eq_true hcount, bne_iff_ne.mpr (show (s.mover m.val).state ≠ mvDisabled from hstate)]
    rfl
  have hexec : exec (.mvTailWrite m 15 v) s = .next ((s.putMover m.val { s.mover m.val with tail := v.toNat }).settleMover m.val) := by
    rw [exec_mvTailWrite, execMvTailWrite]
    dsimp only
    rw [mvWrite_whole s m.val 0x0C htakes, hmod]
  obtain ⟨hsame, hothers, t, hform⟩ := put_settleMover_spec s m.val { s.mover m.val with tail := v.toNat }
  refine ⟨_, hexec, by rw [hsame], by rw [hform]; rfl, hothers, fun hidle hrun hhead => ?_⟩
  rw [hsame]
  show settledState { s.mover m.val with tail := v.toNat } = 2
  unfold settledState
  rw [if_neg (by simp [hidle, mvDisabled, mvHalted, mvBarrier]), if_neg hhead.symm, if_pos hrun]
  rfl

theorem completes_mvRun (s : State) (m : Fin 16) (b : Bool) :
    Completes (.mvRun m 15 b) s fun t => (t.mover m.val).run = b ∧ t = { s with movers := t.movers } ∧ (∀ j, j ≠ m.val → t.mover j = s.mover j) ∧
      (t.mover m.val).head = (s.mover m.val).head ∧ (t.mover m.val).desc = (s.mover m.val).desc := by
  refine ⟨_, rfl, ?_⟩
  rw [mvWrite_whole s m.val 0 rfl]
  dsimp only
  split
  · rw [mover_putMover_same]
    exact ⟨rfl, rfl, otherMovers_putMover _ _ _, rfl, rfl⟩
  · obtain ⟨hsame, hothers, t, hform⟩ := put_settleMover_spec s m.val { s.mover m.val with run := b }
    rw [hsame]
    exact ⟨rfl, by rw [hform]; rfl, hothers, rfl, rfl⟩

theorem completes_mvResume {s : State} {m : Fin 16} (hstate : (s.mover m.val).state = 4) :
    Completes (.mvResume m 15) s fun t => (t.mover m.val).state ≠ 4 ∧ (t.mover m.val).cause = 0 ∧ (t.mover m.val).retries = 0 ∧
      (t.mover m.val).head = (s.mover m.val).head ∧ (t.mover m.val).desc = (s.mover m.val).desc ∧ t = { s with movers := t.movers } := by
  refine ⟨_, rfl, ?_⟩
  rw [mvWrite_whole s m.val 0 (takes := (s.mover m.val).state == mvHalted) (beq_iff_eq.mpr hstate)]
  dsimp only
  generalize hx : ({ s.mover m.val with state := mvRunning, cause := 0, code := 0, retries := 0, tries := [] } : Mover) = x
  obtain ⟨hsame, -, t, hform⟩ := put_settleMover_spec s m.val x
  have hne : settledState x ≠ mvHalted := settled_ne_halted (by rw [← hx])
  rw [hsame]
  exact ⟨hne, by rw [← hx], by rw [← hx], by rw [← hx], by rw [← hx], by rw [hform]; rfl⟩

theorem completes_mvSkip {s : State} {m : Fin 16} (hstate : (s.mover m.val).state = 4) (hcount : 2 ≤ s.obj (Key.mvDescCount m.val)) :
    Completes (.mvSkip m 15) s fun t => (t.mover m.val).state ≠ 4 ∧ (t.mover m.val).desc = none ∧
      (t.mover m.val).head = ((s.mover m.val).head + 1) % s.obj (Key.mvDescCount m.val) ∧ (t.mover m.val).done = (s.mover m.val).done ∧ t = { s with movers := t.movers } := by
  refine ⟨_, rfl, ?_⟩
  rw [mvWrite_whole s m.val 0 (takes := (s.mover m.val).state == mvHalted) (beq_iff_eq.mpr hstate)]
  dsimp only
  rw [show max 1 (s.obj (Key.mvDescCount m.val)) = s.obj (Key.mvDescCount m.val) by omega]
  generalize hx : ({ s.mover m.val with state := mvRunning, cause := 0, code := 0, retries := 0, tries := [], desc := none, index := [], redo := [], pos := 0, elem := 0, inElem := 0,
                                        head := ((s.mover m.val).head + 1) % s.obj (Key.mvDescCount m.val) } : Mover) = x
  obtain ⟨hsame, -, t, hform⟩ := put_settleMover_spec s m.val x
  have hne : settledState x ≠ mvHalted := settled_ne_halted (by rw [← hx])
  rw [hsame]
  exact ⟨hne, by rw [← hx], by rw [← hx], by rw [← hx], by rw [hform]; rfl⟩

/-- A read of memory issued for a channel, which then waits for it. -/
theorem issued_read (s : State) (m a n : Nat) (o : Owner) (x : Mover) :
    ((s.memRead o 3 a n).putMover m x).mover m = x ∧ (∀ j, j ≠ m → ((s.memRead o 3 a n).putMover m x).mover j = s.mover j) ∧ ((s.memRead o 3 a n).putMover m x).mem.cells = s.mem.cells ∧
      ((s.memRead o 3 a n).putMover m x).outbox = s.outbox := by
  obtain ⟨⟨d, y, hform, hcells⟩, -⟩ := onlyRequests_memRead s o 3 a n
  refine ⟨mover_putMover_same .., ?_, ?_, ?_⟩
  all_goals rw [hform]
  · exact fun j hj => (mover_putMover ..).trans (if_neg hj)
  · exact hcells
  · rfl

/-- A burst whose requests failed with retries left. -/
theorem completes_burstRetried {s : State} {m : Fin 16} {raw : Bytes} (hd : Bytes) (hstate : (s.mover m.val).state = 2) (hdesc : (s.mover m.val).desc = some raw)
    (hsrc : (mvDesc raw).srcHost = true) (hflows : s.hostFlows = true) (hstop : (s.mover m.val).stopping = false) (hleft : (s.mover m.val).retries < s.obj (Key.mvRetry m.val)) :
    Completes (.moverBurstDone m false hd) s fun t => (t.mover m.val).retries = (s.mover m.val).retries + 1 ∧ (t.mover m.val).pos = (s.mover m.val).pos ∧
      (t.mover m.val).elem = (s.mover m.val).elem ∧ (t.mover m.val).head = (s.mover m.val).head ∧ t.obj (Key.mvRetries m.val) = (s.obj (Key.mvRetries m.val) + 1) % 2 ^ 64 ∧ t.mem = s.mem := by
  obtain ⟨b, n, data, hexec, -⟩ := exec_moverBurstDone_of_host false hd hstate hdesc hflows hsrc
  obtain ⟨⟨st, hsame⟩, hobj, hmem⟩ := retried_spec m.isLt 1 hleft hstop
  rw [if_neg Bool.false_ne_true] at hexec
  exact ⟨_, hexec, by rw [hsame], by rw [hsame], by rw [hsame], by rw [hsame], hobj, hmem⟩

/-- A burst whose requests failed with no retry left. -/
theorem completes_burstHalts {s : State} {m : Fin 16} {raw : Bytes} (hd : Bytes) (hstate : (s.mover m.val).state = 2) (hdesc : (s.mover m.val).desc = some raw)
    (hsrc : (mvDesc raw).srcHost = true) (hflows : s.hostFlows = true) (hstop : (s.mover m.val).stopping = false) (hspent : s.obj (Key.mvRetry m.val) ≤ (s.mover m.val).retries) :
    Completes (.moverBurstDone m false hd) s fun t => (t.mover m.val).state = 4 ∧ (t.mover m.val).cause = 1 ∧
      t.obj (Key.mvHalts m.val) = (s.obj (Key.mvHalts m.val) + 1) % 2 ^ 32 ∧ (t.mover m.val).pos = (s.mover m.val).pos ∧ t.mem.cells = s.mem.cells := by
  obtain ⟨b, n, data, hexec, -⟩ := exec_moverBurstDone_of_host false hd hstate hdesc hflows hsrc
  obtain ⟨hsame, -, hhalts, -⟩ := haltMover_spec s m.isLt 1 0
  rw [if_neg Bool.false_ne_true, mvFail_halts 1 hspent, halted_boundary (by rw [hsame]; exact hstop) (by rw [hsame]; rfl)] at hexec
  exact ⟨_, hexec, by rw [hsame], by rw [hsame], hhalts, by rw [hsame], cells_of_kept (kept_haltMover _ _ _ _)⟩

/-- A burst whose reads memory gave up, with retries left. -/
theorem completes_burstLost {s : State} {m : Fin 16} {raw : Bytes} (ok : Bool) (hd : Bytes) (hstate : (s.mover m.val).state = 2) (hdesc : (s.mover m.val).desc = some raw)
    (hsrc : (mvDesc raw).srcHost = false) (hdst : (mvDesc raw).dstHost = false) (hphase : (s.mover m.val).phase = 1) (hredo : (s.mover m.val).redo = [])
    (hstop : (s.mover m.val).stopping = false) (hreads : s.readsOutstanding (moverOwner m.val) = false)
    (hlost : (s.moverTake m.val ((mvDesc raw).srcAt (s.mover m.val).index (s.mover m.val).elem + (s.mover m.val).inElem).toNat
      ((mvDesc raw).burstLen (s.mover m.val).index (s.mover m.val).elem (s.mover m.val).inElem)).1.2 = true) (hleft : (s.mover m.val).retries < s.obj (Key.mvRetry m.val)) :
    Completes (.moverBurstDone m ok hd) s fun t => (t.mover m.val).retries = (s.mover m.val).retries + 1 ∧ (t.mover m.val).phase = 0 ∧ (t.mover m.val).pos = (s.mover m.val).pos ∧
      t.mem.cells = s.mem.cells := by
  obtain ⟨y, hform, hcells⟩ := moverTake_changes s m.val ((mvDesc raw).srcAt (s.mover m.val).index (s.mover m.val).elem + (s.mover m.val).inElem).toNat
    ((mvDesc raw).burstLen (s.mover m.val).index (s.mover m.val).elem (s.mover m.val).inElem)
  have hexec := exec_moverBurstDone_of_dram ok hd hstate hdesc (.inl hdst) hsrc hphase hredo hreads rfl rfl
  rw [if_pos hlost, hform] at hexec
  obtain ⟨⟨st, hsame⟩, -, hmem⟩ := retried_spec (s := s.withMem y) m.isLt 1 hleft hstop
  exact ⟨_, hexec, by rw [hsame]; rfl, by rw [hsame], by rw [hsame]; rfl, (congrArg Mem.cells hmem).trans hcells⟩

/-- A channel that runs issues the read of its current burst. -/
theorem completes_burstIssued {s : State} {m : Fin 16} {raw : Bytes} (ok : Bool) (hd : Bytes) (hstate : (s.mover m.val).state = 2) (hdesc : (s.mover m.val).desc = some raw)
    (hsrc : (mvDesc raw).srcHost = false) (hdst : (mvDesc raw).dstHost = false) (hphase : (s.mover m.val).phase = 0) :
    Completes (.moverBurstDone m ok hd) s fun t => t.mover m.val = { s.mover m.val with phase := 1 } ∧ (∀ j, j ≠ m.val → t.mover j = s.mover j) ∧ t.mem.cells = s.mem.cells ∧
      t.outbox = s.outbox := by
  generalize hpos : (s.mover m.val).redo.headD ((s.mover m.val).elem, (s.mover m.val).inElem) = e
  obtain ⟨i, off⟩ := e
  refine ⟨_, ?_, issued_read s m.val ((mvDesc raw).srcAt (s.mover m.val).index i + off).toNat ((mvDesc raw).burstLen (s.mover m.val).index i off)
    (.mover m.val (s.mover m.val).serial) { s.mover m.val with phase := 1 }⟩
  rw [exec_moverBurstDone, execMoverBurstDone]
  dsimp only
  rw [hdesc]
  dsimp only
  rw [if_neg (by rw [hstate, hsrc, hdst]; simp [mvRunning]), hpos]
  dsimp only
  rw [if_neg (by rw [hsrc]; decide), if_pos hphase]

/-- A channel that runs with no descriptor issues the read of the one at MV_HEAD. -/
theorem completes_descIssued {s : State} {m : Fin 16} (ok : Bool) (hd : Bytes) (ok' : Bool) (ix : Bytes) (hstate : (s.mover m.val).state = 2) (hdesc : (s.mover m.val).desc = none)
    (hready : (s.mover m.val).head ≠ (s.mover m.val).tail) (hphase : (s.mover m.val).phase = 0) (hdram : s.flag (Key.mvDescHost m.val) = false) :
    Completes (.moverDescFetched m ok hd ok' ix) s fun t => t.mover m.val = { s.mover m.val with phase := 1 } ∧ (∀ j, j ≠ m.val → t.mover j = s.mover j) ∧ t.mem.cells = s.mem.cells ∧
      t.outbox = s.outbox := by
  refine ⟨_, ?_, issued_read s m.val (s.obj (Key.mvDescBase m.val) + 64 * (s.mover m.val).head) 64 (.mover m.val (s.mover m.val).serial) { s.mover m.val with phase := 1 }⟩
  rw [exec_moverDescFetched, execMoverDescFetched]
  dsimp only
  rw [if_neg (by rw [hstate, hdesc]; simpa [mvRunning] using hready), if_neg (by rw [hdram]; simp), if_pos hphase]

/-- A burst within its element, written. -/
theorem completes_burstWithin {s : State} {m : Fin 16} {x : Mover} {raw : Bytes} {n : Nat} (hd : Bytes) (hx : x = s.mover m.val) (hstate : x.state = 2) (hdesc : x.desc = some raw)
    (hflows : s.hostFlows = true) (hstop : x.stopping = false) (hredo : x.redo = []) (hrun : x.run = true) (hready : x.head ≠ x.tail)
    (hn : n = (mvDesc raw).burstLen x.index x.elem x.inElem) (hsize : x.inElem + n < (mvDesc raw).size)
    (hcome : (mvDesc raw).srcHost = true ∨ x.phase = 1 ∧ s.readsOutstanding (State.moverOwner m.val) = false ∧
      (s.moverTake m.val ((mvDesc raw).srcAt x.index x.elem + x.inElem).toNat n).1.2 = false) :
    Completes (.moverBurstDone m true hd) s fun t => (t.mover m.val).pos = x.pos + n ∧ (t.mover m.val).elem = x.elem ∧ (t.mover m.val).inElem = x.inElem + n ∧ (t.mover m.val).state = 2 ∧
      (t.mover m.val).retries = 0 ∧ t.mem.cells = s.mem.cells := by
  obtain ⟨y, b, data, hexec, hcells⟩ := exec_moverBurstDone_come hd hx hstate hdesc hflows hredo hn hcome
  subst hx
  obtain ⟨h1, h2, h3, h4, h5⟩ := burstWrite_within (s := s.withMem y) b data hstate hstop hredo hrun hready hsize
  exact ⟨_, hexec, h1, h2, h3, h4, h5, (cells_of_kept (kept_burstWrite _ _ _ _ _ _)).trans hcells⟩

/-- Settles O44: the registers, the fetch, the bursts and the barrier of a channel, each by the case it ends in. -/
theorem moverChannels : Obligations.MoverChannels := by
  unfold Obligations.MoverChannels
  refine ⟨?_, ?_, ?_, ?_, ?_, ?_, ?_, ?_, ?_, ?_, ?_, ?_, ?_, ?_, ?_, ?_⟩
  · exact fun s m v hstate hsource hcount hv => completes_mvTailWrite hstate hsource hcount hv
  · exact fun s m b => completes_mvRun s m b
  · exact fun s m hstate => completes_mvResume hstate
  · exact fun s m hstate hcount => completes_mvSkip hstate hcount
  · rintro s m hd ix ok ok' x rfl hstate hdesc hready hphase hdram
    exact completes_descIssued ok hd ok' ix hstate hdesc hready hphase hdram
  · rintro s m hd ix ok ok' x raw rfl hstate hdesc hready hphase hreads hraw hbad
    exact completes_descBad ok hd ok' ix hstate hdesc hready hphase hreads hraw hbad
  · rintro s m hd ix ok ok' x raw rfl hstate hdesc hready hphase hreads hraw hpattern hok
    exact completes_descTaken ok hd ok' ix hstate hdesc hready hphase hreads hraw hpattern hok
  · rintro s m ok hd x raw rfl hstate hdesc hsrc hdst hphase
    exact completes_burstIssued ok hd hstate hdesc hsrc hdst hphase
  · rintro s m hd x raw rfl hstate hdesc hsrc hflows hstop hleft
    exact completes_burstRetried hd hstate hdesc hsrc hflows hstop hleft
  · rintro s m hd x raw rfl hstate hdesc hsrc hflows hstop hspent
    exact completes_burstHalts hd hstate hdesc hsrc hflows hstop hspent
  · rintro s m ok hd x raw rfl hstate hdesc hsrc hdst hphase hredo hstop hreads hlost hleft
    exact completes_burstLost ok hd hstate hdesc hsrc hdst hphase hredo hstop hreads hlost hleft
  · intro s m hd x raw n hx hstate hdesc hflows hstop hredo hrun hready hn hsize hcome
    exact completes_burstWithin hd hx hstate hdesc hflows hstop hredo hrun hready hn hsize hcome
  · intro s m hd x raw n hx hstate hdesc hflows hstop hredo hn hsize helems hevent hcount hcome
    obtain ⟨y, b, data, hexec, -⟩ := exec_moverBurstDone_come hd hx hstate hdesc hflows hredo hn hcome
    subst hx
    exact ⟨_, hexec, burstWrite_last (s := s.withMem y) b data hstop hredo hsize helems hevent hcount⟩
  · rintro s m x raw rfl hstate hdesc hdst hevent hout hlost hcount
    exact completes_barrierAcked hstate hdesc hdst hevent hout hlost hcount
  · rintro s m x raw rfl hstate hdesc hdst hflows hspent
    exact completes_barrierFailed hstate hdesc hdst hflows hspent
  · rintro s m x raw rfl hstate hdesc hdst hout
    rw [exec_moverBarrierDone, execMoverBarrierDone]
    dsimp only
    rw [hdesc]
    exact if_pos (.inr (.inr ⟨by rw [hdst]; rfl, hout⟩))

end Sys2Proof.Machine
end

section
/-! Pelpin requests: fields of a body, entries, and responses (13 R362, R365, R366). -/

namespace Sys2Proof.Machine

/-! ### Fields of a body -/

@[simp] theorem length_zeros (n : Nat) : (zeros n).length = n := by simp [zeros]

theorem leNat_zeros (n : Nat) : leNat (zeros n) = 0 := by
  induction n with
  | zero => rfl
  | succ n ih =>
    show (0 : Byte).toNat + 256 * leNat (zeros n) = 0
    rw [ih]
    rfl

theorem beAt_natBE (n v : Nat) : beAt (natBE n v) 0 n = v % 256 ^ n := by
  have h := beAt_natBE_append n v []
  rwa [List.append_nil] at h

theorem beAt_zeros {m off n : Nat} : beAt (zeros m) off n = 0 := by
  unfold beAt beNat
  simp only [zeros, List.drop_replicate, List.take_replicate, List.reverse_replicate]
  exact leNat_zeros _

/-- Zero bytes read as 0. -/
theorem beAt_zeros_append {m off n : Nat} (h : off + n ≤ m) (c : Bytes) : beAt (zeros m ++ c) off n = 0 := by
  have htake : ((zeros m ++ c).drop off).take n = ((zeros m).drop off).take n := by
    rw [List.drop_append_of_le_length (by rw [length_zeros]; omega), List.take_append_of_le_length (by rw [List.length_drop, length_zeros]; omega)]
  unfold beAt
  rw [htake]
  exact beAt_zeros

/-- A field that lies in the head of a body. -/
theorem beAt_append_left {a : Bytes} {off n : Nat} (h : off + n ≤ a.length) (c : Bytes) : beAt (a ++ c) off n = beAt a off n := by
  unfold beAt
  rw [List.drop_append_of_le_length (by omega), List.take_append_of_le_length (by rw [List.length_drop]; omega)]

/-! ### Entries -/

/-- The body of a READ: a row of four bytes for each key. -/
def keyRows (ks : List Nat) : Bytes := ks.flatMap fun k => natBE 3 k ++ zeros 1

theorem length_keyRows (ks : List Nat) : (keyRows ks).length = 4 * ks.length := by
  induction ks with
  | nil => rfl
  | cons k ks ih =>
    show ((natBE 3 k ++ zeros 1) ++ keyRows ks).length = _
    simp [ih]
    omega

/-- Row i of a READ holds its key and a zero byte. -/
theorem beAt_keyRows {ks : List Nat} (hks : ∀ k ∈ ks, k < 2 ^ 24) {i : Nat} (hi : i < ks.length) :
    beAt (keyRows ks) (4 * i) 3 = ks[i] ∧ beAt (keyRows ks) (4 * i + 3) 1 = 0 := by
  induction ks generalizing i with
  | nil => exact absurd hi (Nat.not_lt_zero i)
  | cons k ks ih =>
    have hcons : keyRows (k :: ks) = (natBE 3 k ++ zeros 1) ++ keyRows ks := rfl
    cases i with
    | zero =>
      refine ⟨?_, ?_⟩
      · rw [hcons, List.append_assoc, Nat.mul_zero, beAt_natBE_append, Nat.mod_eq_of_lt (show k < 256 ^ 3 from hks k List.mem_cons_self)]
        rfl
      · rw [hcons, List.append_assoc, beAt_append_of_le (by simp), length_natBE]
        exact beAt_zeros_append (by decide) _
    | succ i =>
      obtain ⟨hkey, hzero⟩ := ih (fun x hx => hks x (List.mem_cons_of_mem k hx)) (Nat.lt_of_succ_lt_succ hi)
      have hlen : (natBE 3 k ++ zeros 1).length = 4 := by simp
      rw [hcons, beAt_append_of_le (by rw [hlen]; omega), beAt_append_of_le (by rw [hlen]; omega), hlen]
      exact ⟨(congrArg (beAt (keyRows ks) · 3) (by omega)).trans hkey, (congrArg (beAt (keyRows ks) · 1) (by omega)).trans hzero⟩

theorem length_fromWire (ty : Nat) (b : Bytes) : (fromWire ty b).length = b.length := by
  unfold fromWire
  split <;> simp

theorem fromWire_fromWire (ty : Nat) (b : Bytes) : fromWire ty (fromWire ty b) = b := by
  unfold fromWire
  split <;> simp

theorem length_pad4 (b : Bytes) : (pad4 b).length = (b.length + 3) / 4 * 4 := by
  unfold pad4 padTo
  rw [List.length_append, length_zeros]
  omega

/-- An entry written inline is read back. -/
theorem ppEntries_entryInline {w : RawWrite} (hkey : w.key < 2 ^ 24) (hty : w.ty < 256) (hlen : w.value.length ≤ 1024) :
    ppEntries 1 (entryInline w) = some ([{ key := w.key, ty := w.ty, slot := none, value := fromWire w.ty w.value }], []) := by
  have hshape : entryInline w = natBE 3 w.key ++ (natBE 1 w.ty ++ (zeros 2 ++ (natBE 2 w.value.length ++ pad4 (fromWire w.ty w.value)))) := by
    unfold entryInline
    simp only [List.append_assoc]
  have hk : beAt (entryInline w) 0 3 = w.key := by rw [hshape, beAt_natBE_append, Nat.mod_eq_of_lt (show w.key < 256 ^ 3 from hkey)]
  have ht : beAt (entryInline w) 3 1 = w.ty := by
    rw [hshape, beAt_append_of_le (by simp), length_natBE, beAt_natBE_append, Nat.mod_eq_of_lt (show w.ty < 256 ^ 1 from hty)]
  have hsrc : beAt (entryInline w) 4 1 = 0 := by
    rw [hshape, beAt_append_of_le (by simp), beAt_append_of_le (by simp)]
    exact beAt_zeros_append (by simp) _
  have hslot : beAt (entryInline w) 5 1 = 0 := by
    rw [hshape, beAt_append_of_le (by simp), beAt_append_of_le (by simp)]
    exact beAt_zeros_append (by simp) _
  have hn : beAt (entryInline w) 6 2 = w.value.length := by
    rw [hshape, beAt_append_of_le (by simp), beAt_append_of_le (by simp), beAt_append_of_le (by simp)]
    simp only [length_natBE, length_zeros]
    rw [beAt_natBE_append, Nat.mod_eq_of_lt (by omega)]
  have hlength : (entryInline w).length = 8 + (w.value.length + 3) / 4 * 4 := by
    rw [hshape]
    simp only [List.length_append, length_natBE, length_zeros, length_pad4, length_fromWire]
    omega
  have hdrop : (entryInline w).drop 8 = pad4 (fromWire w.ty w.value) := by
    rw [hshape, ← List.append_assoc, ← List.append_assoc, ← List.append_assoc]
    exact List.drop_left' (by simp)
  have hvalue : ((entryInline w).drop 8).take w.value.length = fromWire w.ty w.value := by
    rw [hdrop, pad4, padTo]
    exact List.take_left' (length_fromWire _ _)
  have hpad : ((entryInline w).drop (8 + w.value.length)).all (· == 0) = true := by
    rw [← List.drop_drop, hdrop, pad4, padTo, List.drop_left' (length_fromWire _ _)]
    simp [zeros]
  unfold ppEntries
  dsimp only
  rw [hk, ht, hsrc, hslot, hn, if_neg]
  · rw [List.drop_of_length_le (by rw [hlength]), ppEntries, hvalue]
    rfl
  · have hall : (((entryInline w).drop (8 + w.value.length)).take (8 + (w.value.length + 3) / 4 * 4 - 8 - w.value.length)).all (· == 0) = true :=
      List.all_eq_true.mpr fun x hx => List.all_eq_true.mp hpad x (List.mem_of_mem_take hx)
    rw [hall, hlength]
    simp

/-- The one entry of a body that ends with it. -/
theorem bodyEntries_inline {r : PpRequest} {head : Bytes} {w : RawWrite} (off : Nat) (hbody : r.body = head ++ entryInline w) (hoff : head.length = off) (hkey : w.key < 2 ^ 24) (hty : w.ty < 256)
    (hlen : w.value.length ≤ 1024) : bodyEntries r 1 off = some [{ key := w.key, ty := w.ty, slot := none, value := fromWire w.ty w.value }] := by
  unfold bodyEntries
  rw [hbody, List.drop_left' hoff, ppEntries_entryInline hkey hty hlen]
  exact if_pos rfl

theorem State.entryWrite_inline (s : State) (r : PpRequest) (w : RawWrite) : s.entryWrite r { key := w.key, ty := w.ty, slot := none, value := fromWire w.ty w.value } = some w := by
  unfold State.entryWrite
  dsimp only
  rw [fromWire_fromWire]

namespace State

/-! ### Responses -/

section
variable {s : State} {r : PpRequest}

/-- What a response leaves: the frame, the session with its window, and for AUTH and BUSY a counter. -/
theorem respond_of_session (code : Code) (body : Bytes) (horigin : r.origin = none) (hkey : (s.sess r.session).keyOut ≠ []) :
    Answered s (s.respond r code body) r code body ∧ (s.respond r code body).pel.queue = s.pel.queue ∧
      (∃ w, (s.respond r code body).sess r.session = { s.sess r.session with window := w }) ∧ (∀ j, j ≠ r.session → (s.respond r code body).sess j = s.sess j) ∧
      s.respond r code body = { s with dict := (s.respond r code body).dict, pel := (s.respond r code body).pel, outbox := (s.respond r code body).outbox } ∧
      (code ≠ Res.auth → code ≠ Res.busy → (s.respond r code body).dict = s.dict) := by
  unfold respond
  rw [horigin]
  dsimp only
  rw [if_neg fun h => hkey (List.isEmpty_iff.mp h.2)]
  by_cases hauth : code = Res.auth
  · rw [if_pos hauth]
    exact ⟨rfl, rfl, ⟨_, (sess_putSess ..).trans (if_pos rfl)⟩, fun j hj => (sess_putSess ..).trans (if_neg hj), rfl, fun h => absurd hauth h⟩
  · rw [if_neg hauth]
    by_cases hbusy : code = Res.busy
    · rw [if_pos hbusy]
      exact ⟨rfl, rfl, ⟨_, (sess_putSess ..).trans (if_pos rfl)⟩, fun j hj => (sess_putSess ..).trans (if_neg hj), rfl, fun _ h => absurd hbusy h⟩
    · rw [if_neg hbusy]
      exact ⟨rfl, rfl, ⟨_, (sess_putSess ..).trans (if_pos rfl)⟩, fun j hj => (sess_putSess ..).trans (if_neg hj), rfl, fun _ _ => rfl⟩

end

/-- The state as the front of the queue has been taken. -/
def unqueued (s : State) (rest : List PpRequest) : State := s.withPel { s.pel with queue := rest }

section
variable {s : State} {r : PpRequest} {rest : List PpRequest} {op : Nat}

theorem takeRequest_of_serves {want : PpRequest → Bool} (h : Sys2Proof.Serves s r rest op) (hwant : want r = true) : s.takeRequest want = some (r, s.unqueued rest) := by
  obtain ⟨hqueue, hfw, -⟩ := h
  unfold takeRequest
  rw [hqueue]
  dsimp only
  rw [hfw, hwant]
  rfl

/-- A response that is sent as the front of the queue is taken, and changes nothing else. -/
theorem respond_unqueued {code : Code} (body : Bytes) (h : Sys2Proof.Serves s r rest op) (hauth : code ≠ Res.auth) (hbusy : code ≠ Res.busy) :
    Answered s ((s.unqueued rest).respond r code body) r code body ∧ ((s.unqueued rest).respond r code body).pel.queue = rest ∧
      (s.unqueued rest).respond r code body = { s with pel := ((s.unqueued rest).respond r code body).pel, outbox := ((s.unqueued rest).respond r code body).outbox } := by
  obtain ⟨-, -, -, horigin, -, -, hkey⟩ := h
  obtain ⟨hans, hqueue, -, -, hform, hdict⟩ := respond_of_session (s := s.unqueued rest) code body horigin hkey
  refine ⟨hans, hqueue, hform.trans ?_⟩
  rw [hdict hauth hbusy]
  rfl

/-- A response that is sent with the session changed otherwise too. -/
theorem respond_putSess {code : Code} (body : Bytes) (x : Session) (h : Sys2Proof.Serves s r rest op) (hauth : code ≠ Res.auth) (hbusy : code ≠ Res.busy) (hx : x.keyOut = (s.sess r.session).keyOut) :
    Answered s (((s.unqueued rest).putSess r.session x).respond r code body) r code body ∧
      (∃ w, (((s.unqueued rest).putSess r.session x).respond r code body).sess r.session = { x with window := w }) ∧
      ((s.unqueued rest).putSess r.session x).respond r code body =
        { s with pel := (((s.unqueued rest).putSess r.session x).respond r code body).pel, outbox := (((s.unqueued rest).putSess r.session x).respond r code body).outbox } := by
  obtain ⟨-, -, -, horigin, -, -, hkey⟩ := h
  have hsame : ((s.unqueued rest).putSess r.session x).sess r.session = x := (sess_putSess ..).trans (if_pos rfl)
  obtain ⟨hans, -, ⟨w, hsess⟩, -, hform, hdict⟩ := respond_of_session (s := (s.unqueued rest).putSess r.session x) code body horigin (by rw [hsame, hx]; exact hkey)
  refine ⟨?_, ⟨w, hsess.trans (by rw [hsame])⟩, hform.trans ?_⟩
  · unfold Answered at hans ⊢
    rw [hans, hsame, hx]
    rfl
  · rw [hdict hauth hbusy]
    rfl

end

end State

open State

section
variable {s : State} {r : PpRequest} {rest : List PpRequest}

theorem keyRows_read {ks : List Nat} (hks : ∀ k ∈ ks, k < 2 ^ 24) {head : Bytes} (hhead : head.length = 4) :
    ((List.range ks.length).map fun i => beAt (head ++ keyRows ks) (4 + 4 * i) 3) = ks ∧
      ((List.range ks.length).any fun i => beAt (head ++ keyRows ks) (7 + 4 * i) 1 != 0) = false := by
  refine ⟨List.ext_getElem (by simp) fun i hi hk => ?_, List.any_eq_false.mpr fun i hi => ?_⟩
  · simp only [List.getElem_map, List.getElem_range]
    rw [beAt_append_of_le (by rw [hhead]; omega), hhead, Nat.add_sub_cancel_left]
    exact (beAt_keyRows hks hk).1
  · rw [beAt_append_of_le (by rw [hhead]; omega), hhead, show 7 + 4 * i - 4 = 4 * i + 3 by omega, (beAt_keyRows hks (List.mem_range.mp hi)).2]
    decide

/-- READ answers an entry for each of its objects. -/
theorem completes_pelpinRead {ks : List Nat} (h : Serves s r rest opRead) (h1 : 1 ≤ ks.length) (h64 : ks.length ≤ 64) (hks : ∀ k ∈ ks, k < 2 ^ 24)
    (hbody : r.body = natBE 1 ks.length ++ zeros 3 ++ ks.flatMap (fun k => natBE 3 k ++ zeros 1)) (hroom : (ks.flatMap (readEntry (s.unqueued rest) r.at')).length ≤ 1364) :
    Completes .pelpinRead s fun t => Answered s t r Res.done (ks.flatMap (readEntry (s.unqueued rest) r.at')) ∧ t.pel.queue = rest ∧ t = { s with pel := t.pel, outbox := t.outbox } := by
  have hrows : r.body = (natBE 1 ks.length ++ zeros 3) ++ keyRows ks := hbody
  have hhead : (natBE 1 ks.length ++ zeros 3).length = 4 := by simp
  have hcount : beAt r.body 0 1 = ks.length := by
    rw [hrows, List.append_assoc, beAt_natBE_append]
    exact Nat.mod_eq_of_lt (by omega)
  have hzero : beAt r.body 1 3 = 0 := by
    rw [hrows, List.append_assoc, beAt_append_of_le (by simp), length_natBE]
    exact beAt_zeros_append (by decide) _
  have hlength : r.body.length = 4 + 4 * ks.length := by rw [hrows, List.length_append, hhead, length_keyRows]
  obtain ⟨hmap, hany⟩ := keyRows_read hks hhead
  rw [← hrows] at hmap hany
  have hbad : r.bad = false := h.2.2.2.2.1
  have hremote : (s.unqueued rest).isRemote r = false := h.2.2.2.2.2.1
  have hends : bodyEnds r (r.body.drop (4 + 4 * ks.length)) = true := by
    rw [List.drop_of_length_le (by rw [hlength])]
    rfl
  have hexec : exec .pelpinRead s = .next ((s.unqueued rest).respond r Res.done (ks.flatMap (readEntry (s.unqueued rest) r.at'))) := by
    rw [exec_pelpinRead, execPelpinRead, takeRequest_of_serves (want := fun r => r.op == opRead) h (beq_iff_eq.mpr h.2.2.1)]
    dsimp only
    rw [hcount, hmap, hany, hbad, hzero, hends, hremote, hlength, beq_eq_false_iff_ne.mpr (by omega : ks.length ≠ 0), decide_eq_false (by omega : ¬ 64 < ks.length), if_neg (by simp),
      if_neg (by decide), if_neg (Nat.not_lt.mpr hroom)]
  exact ⟨_, hexec, respond_unqueued _ h (by decide) (by decide)⟩

/-- The body of a WRITE of one command object. -/
theorem bodyEntries_command {k : Nat} (hk : k < 2 ^ 24) (hbody : r.body = natBE 1 1 ++ zeros 3 ++ natBE 3 k ++ zeros 5) :
    bodyEntries r 1 4 = some [{ key := k, ty := 0, slot := none, value := [] }] ∧ beAt r.body 0 1 = 1 ∧ beAt r.body 1 3 = 0 := by
  have hform : r.body = (natBE 1 1 ++ zeros 3) ++ entryInline { key := k, ty := 0, value := [] } := by
    have htail : natBE 1 0 ++ (zeros 2 ++ (natBE 2 0 ++ pad4 (fromWire 0 []))) = zeros 5 := by decide
    unfold entryInline
    simp only [hbody, List.append_assoc, List.length_nil, htail]
  refine ⟨bodyEntries_inline 4 hform (by simp) hk (Nat.zero_lt_succ _) (Nat.zero_le _), ?_, ?_⟩
  · rw [hform, List.append_assoc, beAt_natBE_append]
    rfl
  · rw [hform, List.append_assoc, beAt_append_of_le (by simp), length_natBE]
    exact beAt_zeros_append (by decide) _

/-- What a WRITE of one command object comes to. -/
theorem exec_pelpinWrite_one {k : Nat} {c : Code} {u : State} (h : Serves s r rest opWrite) (hk : k < 2 ^ 24) (hbody : r.body = natBE 1 1 ++ zeros 3 ++ natBE 3 k ++ zeros 5)
    (hwrite : writeEntries r [{ key := k, ty := 0, slot := none, value := [] }] (s.unqueued rest) = ([c], u)) :
    exec .pelpinWrite s = .next (u.respond r Res.done (natBE 1 1 ++ zeros 3 ++ pad4 [BitVec.ofNat 8 c])) := by
  obtain ⟨hentries, hcount, hzero⟩ := bodyEntries_command hk hbody
  have hbad : r.bad = false := h.2.2.2.2.1
  have hremote : (s.unqueued rest).isRemote r = false := h.2.2.2.2.2.1
  rw [exec_pelpinWrite, execPelpinWrite, takeRequest_of_serves (want := fun r => r.op == opWrite) h (beq_iff_eq.mpr h.2.2.1)]
  dsimp only
  rw [hcount, hentries, hzero, hbad, hremote]
  dsimp only
  rw [if_neg (by decide), if_neg (by decide), hwrite]
  rfl

/-- The writes of an observer give ACCESS. -/
theorem completes_pelpinWrite_observer {k : Nat} (h : Serves s r rest opWrite) (hrole : r.role = 0) (hk : k < 2 ^ 24) (hbody : r.body = natBE 1 1 ++ zeros 3 ++ natBE 3 k ++ zeros 5) :
    Completes .pelpinWrite s fun t => Answered s t r Res.done (natBE 1 1 ++ zeros 3 ++ [3, 0, 0, 0]) ∧ t.pel.queue = rest ∧ t = { s with pel := t.pel, outbox := t.outbox } := by
  have hwrite : writeEntries r [{ key := k, ty := 0, slot := none, value := [] }] (s.unqueued rest) = ([Res.access], s.unqueued rest) := by
    simp only [writeEntries, hrole, if_true]
  exact ⟨_, exec_pelpinWrite_one h hk hbody hwrite, respond_unqueued _ h (by decide) (by decide)⟩

/-- A WRITE performs its write and gives its code. -/
theorem completes_pelpinWrite {k : Nat} {c : Code} {u : State} (h : Serves s r rest opWrite) (hrole : r.role ≠ 0) (hk : k < 2 ^ 24) (hbody : r.body = natBE 1 1 ++ zeros 3 ++ natBE 3 k ++ zeros 5)
    (hdo : (s.unqueued rest).writeImmediate { key := k, ty := 0, value := [] } = (c, u)) (hsess : u.sess r.session = s.sess r.session) :
    Completes .pelpinWrite s fun t => Answered s { t with outbox := s.outbox ++ t.outbox.drop u.outbox.length } r Res.done (natBE 1 1 ++ zeros 3 ++ natLE 4 (c % 256)) ∧
      t.dict = u.dict ∧ t.mem = u.mem := by
  have hwrite : writeEntries r [{ key := k, ty := 0, slot := none, value := [] }] (s.unqueued rest) = ([c], u) := by
    have hentry : (s.unqueued rest).entryWrite r { key := k, ty := 0, slot := none, value := [] } = some { key := k, ty := 0, value := [] } := rfl
    simp only [writeEntries, if_neg hrole, hentry, hdo]
  have hpad : pad4 [BitVec.ofNat 8 c] = natLE 4 (c % 256) := by
    have hmod : BitVec.ofNat 8 c = BitVec.ofNat 8 (c % 256) := BitVec.eq_of_toNat_eq (by simp)
    have hhigh : c % 256 / 256 = 0 := Nat.div_eq_of_lt (Nat.mod_lt c (by decide))
    have hzeros : natLE 3 0 = zeros 3 := by decide
    have hone : ∀ x : Byte, pad4 [x] = x :: zeros 3 := fun x => by
      unfold pad4 padTo
      rw [List.length_singleton]
      rfl
    rw [hmod, natLE, hhigh, hzeros, hone]
  have hexec := exec_pelpinWrite_one h hk hbody hwrite
  rw [hpad] at hexec
  obtain ⟨hans, -, -, -, hform, hdict⟩ := respond_of_session (s := u) Res.done (natBE 1 1 ++ zeros 3 ++ natLE 4 (c % 256)) h.2.2.2.1 (by rw [hsess]; exact h.2.2.2.2.2.2)
  refine ⟨_, hexec, ?_, hdict (by decide) (by decide), (congrArg State.mem hform).trans rfl⟩
  unfold Answered at hans ⊢
  show s.outbox ++ List.drop u.outbox.length (u.respond r Res.done _).outbox = _
  rw [hans, List.drop_left, hsess]

/-! ### COMMIT -/

/-- The one part of a group of a device, with one write. -/
def commitBody (g : Nat) (T : KTime) (w : RawWrite) : Bytes := natBE 1 g ++ zeros 2 ++ natBE 1 1 ++ natBE 10 T ++ zeros 2 ++ entryInline w

/-- Eight bytes and two of a time of ten. -/
theorem beAt_time (T : Nat) (c : Bytes) (hT : T < 2 ^ 80) : beAt (natBE 10 T ++ c) 0 8 * 65536 + beAt (natBE 10 T ++ c) 8 2 = T := by
  have hsplit : natBE 10 T = natBE 8 (T / 65536) ++ natBE 2 T := by
    simp only [natBE, natLE, List.reverse_cons, List.reverse_nil, List.nil_append, List.append_assoc, List.cons_append, Nat.div_div_eq_div_mul]
  have hlow : beAt (natBE 10 T ++ c) 8 2 = T % 65536 := by
    rw [hsplit, List.append_assoc, beAt_append_of_le (by simp), length_natBE, beAt_natBE_append]
    norm_num
  have hhigh : beAt (natBE 10 T ++ c) 0 8 = T / 65536 := by
    rw [hsplit, List.append_assoc, beAt_natBE_append, Nat.mod_eq_of_lt]
    omega
  omega

/-- The fields of a part of one write. -/
theorem commit_fields {g : Nat} {T : KTime} {w : RawWrite} (hbody : r.body = commitBody g T w) (hg : g < 2) (hT : T < 2 ^ 80) (hkey : w.key < 2 ^ 24) (hty : w.ty < 256)
    (hlen : w.value.length ≤ 1024) :
    beAt r.body 0 1 = g ∧ beAt r.body 1 1 = 0 ∧ beAt r.body 2 1 = 0 ∧ beAt r.body 3 1 = 1 ∧ beAt r.body 4 8 * tick + beAt r.body 12 2 = T ∧ beAt r.body 14 2 = 0 ∧ 16 ≤ r.body.length ∧
      bodyEntries r 1 16 = some [{ key := w.key, ty := w.ty, slot := none, value := fromWire w.ty w.value }] := by
  have hhead : r.body = (natBE 1 g ++ zeros 2 ++ natBE 1 1 ++ natBE 10 T ++ zeros 2) ++ entryInline w := hbody
  have hshape : r.body = natBE 1 g ++ (zeros 2 ++ (natBE 1 1 ++ (natBE 10 T ++ (zeros 2 ++ entryInline w)))) := by
    rw [hhead]
    simp only [List.append_assoc]
  have htime : ∀ off n, 4 ≤ off → beAt r.body off n = beAt (natBE 10 T ++ (zeros 2 ++ entryInline w)) (off - 4) n := by
    intro off n hoff
    rw [hshape, beAt_append_of_le (by simp; omega), beAt_append_of_le (by simp; omega), beAt_append_of_le (by simp; omega)]
    simp only [length_natBE, length_zeros, Nat.sub_sub]
  refine ⟨?_, ?_, ?_, ?_, ?_, ?_, ?_, bodyEntries_inline 16 hhead (by simp) hkey hty hlen⟩
  · rw [hshape, beAt_natBE_append]
    exact Nat.mod_eq_of_lt (by omega)
  · rw [hshape, beAt_append_of_le (by simp), length_natBE]
    exact beAt_zeros_append (by decide) _
  · rw [hshape, beAt_append_of_le (by simp), length_natBE]
    exact beAt_zeros_append (by decide) _
  · rw [hshape, beAt_append_of_le (by simp), beAt_append_of_le (by simp), length_natBE, length_zeros, beAt_natBE_append]
    rfl
  · rw [htime 4 8 (by decide), htime 12 2 (by decide)]
    exact beAt_time T _ hT
  · rw [htime 14 2 (by decide), beAt_append_of_le (by simp), length_natBE]
    exact beAt_zeros_append (by decide) _
  · rw [hhead, List.length_append]
    simp only [List.length_append, length_natBE, length_zeros]
    omega

/-- A response leaves the groups, memory and time alone. -/
theorem respond_of_local (u : State) (code : Code) (body : Bytes) (horigin : r.origin = none) : ∃ d p o, u.respond r code body = { u with dict := d, pel := p, outbox := o } := by
  unfold respond
  rw [horigin]
  dsimp only
  split
  · exact ⟨_, _, _, rfl⟩
  · split
    · exact ⟨_, _, _, rfl⟩
    · split
      · exact ⟨_, _, _, rfl⟩
      · exact ⟨_, _, _, rfl⟩

theorem groupResponse_of_local (u : State) (b : Broadcast) (horigin : b.request.origin = none) : ∃ d p o, u.groupResponse b = { u with dict := d, pel := p, outbox := o } :=
  respond_of_local u _ _ horigin

/-- A group of this device is submitted and answered. -/
theorem submitAssembled_of_scope (u : State) {g : PpGroup} (horigin : r.origin = none) (hscope : g.scope = 0) :
    ∃ b, b.request = r ∧ u.submitAssembled r g = (u.submitGroup g.t g.writes (some r.iface)).2.groupResponse b := by
  refine ⟨{ id := 0, nodes := [], answers := [(u.obj Key.spanNode, (u.submitGroup g.t g.writes (some r.iface)).1.1, (u.submitGroup g.t g.writes (some r.iface)).1.2)], request := r }, rfl, ?_⟩
  unfold submitAssembled
  rw [horigin]
  exact if_pos hscope

/-- The only part of a group is submitted as it comes. -/
theorem addPart_only {u : State} {T : KTime} {w : RawWrite} (horigin : r.origin = none) (hlast : r.last = true) (hpart : beAt r.body 1 1 = 0) (hscope : beAt r.body 2 1 = 0)
    (ht : beAt r.body 4 8 * tick + beAt r.body 12 2 = T) (hnew : ∀ y ∈ (u.sess r.session).groups, y.group ≠ beAt r.body 0 1) :
    u.addPart r [w] = (u.putGroups r ((u.sess (assembler r)).groups.filter fun g => g.group != beAt r.body 0 1)).submitAssembled r
      { group := beAt r.body 0 1, part := 1, scope := 0, t := T, writes := [w], since := u.wall } := by
  have hmine : ((u.sess (assembler r)).groups.find? fun g => g.group == beAt r.body 0 1 && decide (u.wall < g.since + 400000000)) = none := by
    have hasm : assembler r = r.session := by
      unfold assembler
      rw [horigin]
    rw [hasm]
    exact List.find?_eq_none.mpr fun y hy => by simp [hnew y hy]
  unfold addPart
  dsimp only
  rw [hmine, hpart, hscope, ht]
  exact (if_neg (by simp)).trans (if_pos hlast)

/-- The last part of a COMMIT submits its group. -/
theorem completes_pelpinCommit {g : Nat} {T : KTime} {w : RawWrite} (h : Serves s r rest opCommit) (hrole : r.role ≠ 0) (hlast : r.last = true) (hg : g < 2) (hT : T < 2 ^ 80)
    (hkey : w.key < 2 ^ 24) (hty : w.ty < 256) (hlen : w.value.length ≤ 1024) (hbody : r.body = commitBody g T w) (hnew : ∀ y ∈ (s.sess r.session).groups, y.group ≠ g) :
    Completes .pelpinCommit s fun t => ∃ u : State, u = { s with pel := u.pel } ∧ t.groups = (u.submitGroup T [w] (some r.iface)).2.groups ∧
      ((u.submitGroup T [w] (some r.iface)).1.1 ≠ Res.done → t.groups = s.groups ∧ t.mem = s.mem ∧ t.time = s.time) := by
  obtain ⟨hgroup, hpart, hscope, hcount, htime, hzero, hlength, hentries⟩ := commit_fields hbody hg hT hkey hty hlen
  have hop : r.op = opCommit := h.2.2.1
  have horigin : r.origin = none := h.2.2.2.1
  have hbad : r.bad = false := h.2.2.2.2.1
  have hremote : (s.unqueued rest).isRemote r = false := h.2.2.2.2.2.1
  have hwrites : (bodyEntries r 1 16).bind (fun es => allSome (es.map ((s.unqueued rest).entryWrite r))) = some [w] := by
    rw [hentries]
    show allSome [(s.unqueued rest).entryWrite r _] = some [w]
    rw [entryWrite_inline]
    rfl
  have hexec : exec .pelpinCommit s = .next ((s.unqueued rest).addPart r [w]) := by
    rw [exec_pelpinCommit, execPelpinCommit, takeRequest_of_serves (want := fun r => r.op == opCommit || r.op == opGroup) h (by rw [hop]; rfl)]
    dsimp only
    rw [hcount, hwrites, if_neg (by rw [hop]; decide), if_neg hrole]
    dsimp only
    rw [if_neg, hremote, if_neg Bool.false_ne_true]
    rw [hbad, hgroup, hscope, hzero]
    simp
    omega
  rw [addPart_only (u := s.unqueued rest) horigin hlast hpart hscope htime (by rw [hgroup]; exact hnew)] at hexec
  generalize hu : (s.unqueued rest).putGroups r (((s.unqueued rest).sess (assembler r)).groups.filter fun g => g.group != beAt r.body 0 1) = u at hexec
  obtain ⟨b, hb, hsubmit⟩ := submitAssembled_of_scope u (g := { group := beAt r.body 0 1, part := 1, scope := 0, t := T, writes := [w], since := (s.unqueued rest).wall }) horigin rfl
  rw [hsubmit] at hexec
  refine ⟨_, hexec, u, hu ▸ rfl, congrArg (·.2.2.2.2) (kept_groupResponse _ b), fun hrefused => ?_⟩
  have hsame : (u.submitGroup T [w] (some r.iface)).2 = u := by
    unfold submitGroup at hrefused ⊢
    dsimp only at hrefused ⊢
    split at hrefused
    next hdone => exact absurd hdone hrefused
    next hnot => rw [if_neg hnot]
  obtain ⟨d, p, o, hform⟩ := groupResponse_of_local u b (hb ▸ horigin)
  dsimp only
  rw [hsame, hform, ← hu]
  exact ⟨rfl, rfl, rfl⟩

/-! ### SUBSCRIBE and BULK -/

/-- SUBSCRIBE starts the first subscription of a session. -/
theorem completes_subscribe {k iv : Nat} (h : Serves s r rest opSubscribe) (hk : k < 2 ^ 24) (hexists : existsCode k = Res.done) (hread : mayRead k = true) (himage : (typeAt k).image = false)
    (hmin : 40000 ≤ iv) (hiv : iv < 2 ^ 32) (hbody : r.body = natBE 3 k ++ natBE 1 1 ++ natBE 4 iv) (hsubs : (s.sess r.session).subs = []) :
    Completes .subscribe s fun t => Answered s t r Res.done (zeros 4) ∧ (t.sess r.session).subs = [(0, { key := k, mode := 1, interval := iv, sent := none, at' := s.wall })] ∧
      t = { s with pel := t.pel, outbox := t.outbox } := by
  have hbad : r.bad = false := h.2.2.2.2.1
  have hremote : (s.unqueued rest).isRemote r = false := h.2.2.2.2.2.1
  have hkey : beAt r.body 0 3 = k := by
    rw [hbody, List.append_assoc, beAt_natBE_append]
    exact Nat.mod_eq_of_lt hk
  have hmode : beAt r.body 3 1 = 1 := by
    rw [hbody, List.append_assoc, beAt_append_of_le (by simp), length_natBE, beAt_natBE_append]
    rfl
  have hinterval : beAt r.body 4 4 = iv := by
    rw [hbody, beAt_append_of_le (by simp)]
    simp only [List.length_append, length_natBE, Nat.sub_self, Nat.reduceAdd]
    rw [beAt_natBE]
    exact Nat.mod_eq_of_lt hiv
  have hlength : r.body.length = 8 := by rw [hbody]; simp
  have hsub : subscribeTo [] k 1 iv s.wall = (Res.done, 0, [(0, { key := k, mode := 1, interval := iv, sent := none, at' := s.wall })]) := by
    unfold subscribeTo
    dsimp only
    rw [if_neg (by decide), if_neg (Nat.not_lt.mpr hmin)]
    rfl
  have hempty : ((s.unqueued rest).sess r.session).subs = [] := hsubs
  generalize hx : ({ (s.unqueued rest).sess r.session with subs := [(0, { key := k, mode := 1, interval := iv, sent := none, at' := s.wall })], iface := r.iface, addr := r.src } : Session) = x
  have hexec : exec .subscribe s = .next (((s.unqueued rest).putSess r.session x).respond r Res.done (zeros 4)) := by
    rw [exec_subscribe, execSubscribe, takeRequest_of_serves (want := fun r => r.op == opSubscribe) h (beq_iff_eq.mpr h.2.2.1)]
    dsimp only
    rw [hkey, hmode, hinterval, hbad, hlength, hremote, if_neg (by decide), if_neg Bool.false_ne_true, hexists, if_neg (not_not.mpr rfl), hread, if_neg (by decide), himage, if_neg Bool.false_ne_true,
      hempty, show (s.unqueued rest).wall = s.wall from rfl, hsub]
    dsimp only
    rw [if_neg (not_not.mpr rfl), ← hx]
    rfl
  obtain ⟨hans, ⟨w, hsess⟩, hform⟩ := respond_putSess (zeros 4) x h (code := Res.done) (by decide) (by decide) (by rw [← hx]; rfl)
  refine ⟨_, hexec, hans, ?_, hform⟩
  rw [hsess, ← hx]

/-- The fields of a stage. -/
theorem stage_fields {k off total : Nat} {d : Bytes} (hk : k < 8) (htotal : total ≤ 1048576) (hfit : off + d.length ≤ total)
    (hbody : r.body = natBE 1 0 ++ natBE 1 k ++ zeros 6 ++ natBE 4 off ++ natBE 4 total ++ d) :
    beAt r.body 0 1 = 0 ∧ beAt r.body 1 1 = k ∧ beAt r.body 5 3 = 0 ∧ beAt r.body 8 4 = off ∧ beAt r.body 12 4 = total ∧ r.body.drop 16 = d ∧ 16 ≤ r.body.length := by
  have hshape : r.body = natBE 1 0 ++ (natBE 1 k ++ (zeros 6 ++ (natBE 4 off ++ (natBE 4 total ++ d)))) := by
    rw [hbody]
    simp only [List.append_assoc]
  have htail : ∀ o n, 8 ≤ o → beAt r.body o n = beAt (natBE 4 off ++ (natBE 4 total ++ d)) (o - 8) n := by
    intro o n ho
    rw [hshape, beAt_append_of_le (by simp; omega), beAt_append_of_le (by simp; omega), beAt_append_of_le (by simp; omega)]
    simp only [length_natBE, length_zeros, Nat.sub_sub]
  refine ⟨?_, ?_, ?_, ?_, ?_, ?_, ?_⟩
  · rw [hshape, beAt_natBE_append]
    rfl
  · rw [hshape, beAt_append_of_le (by simp), length_natBE, beAt_natBE_append]
    exact Nat.mod_eq_of_lt (by omega)
  · rw [hshape, beAt_append_of_le (by simp), beAt_append_of_le (by simp), length_natBE, length_natBE]
    exact beAt_zeros_append (by decide) _
  · rw [htail 8 4 (by decide), beAt_natBE_append]
    exact Nat.mod_eq_of_lt (by omega)
  · rw [htail 12 4 (by decide), beAt_append_of_le (by simp), length_natBE, beAt_natBE_append]
    exact Nat.mod_eq_of_lt (by omega)
  · rw [hbody]
    exact List.drop_left' (by simp)
  · rw [hbody, List.length_append]
    simp only [List.length_append, length_natBE, length_zeros]
    omega

/-- A request of a session for a slot that is well formed is not refused. -/
theorem slotRefusal_eq_none (horigin : r.origin = none) (hbad : bulkBad r = false) (hslot : beAt r.body 1 1 < 8) : slotRefusal r = none := by
  unfold slotRefusal
  rw [horigin, if_neg (by simp), if_neg]
  rw [hbad]
  simp
  omega

theorem bulkBad_eq_false (hbad : r.bad = false) (hlength : 16 ≤ r.body.length) (hzero : beAt r.body 5 3 = 0) (haction : beAt r.body 0 1 ≤ 2) : bulkBad r = false := by
  unfold bulkBad
  rw [hbad, hzero, decide_eq_false (Nat.not_lt.mpr hlength), decide_eq_false (Nat.not_lt.mpr haction)]
  rfl

/-- Data staged at an offset leaves the cells before it. -/
theorem tabGet_staged_of_lt (off : Nat) (d : Bytes) (k : Nat) (t : Tab Nat) {i : Nat} (hi : i < off + k) :
    tabGet 0 ((d.zipIdx k).foldl (fun t e => tabSet 0 t (off + e.2) (e.1.toNat + 1)) t) i = tabGet 0 t i := by
  induction d generalizing k t with
  | nil => rfl
  | cons y d ih =>
    rw [List.zipIdx_cons, List.foldl_cons, ih (k + 1) _ (by omega)]
    exact tabGet_tabSet_ne _ _ _ _ _ _ (by omega)

/-- Data staged at an offset stands there, each byte plus one. -/
theorem tabGet_staged (off : Nat) (d : Bytes) (k : Nat) (t : Tab Nat) {i : Nat} {x : Byte} (hx : d[i]? = some x) :
    tabGet 0 ((d.zipIdx k).foldl (fun t e => tabSet 0 t (off + e.2) (e.1.toNat + 1)) t) (off + (k + i)) = x.toNat + 1 := by
  induction d generalizing k t i with
  | nil => simp at hx
  | cons y d ih =>
    rw [List.zipIdx_cons, List.foldl_cons]
    cases i with
    | zero =>
      obtain rfl : y = x := by simpa using hx
      exact (tabGet_staged_of_lt off d (k + 1) _ (by omega)).trans (tabGet_tabSet_self _ _ _ _)
    | succ i =>
      rw [show off + (k + (i + 1)) = off + (k + 1 + i) by omega]
      exact ih (k + 1) _ (by simpa using hx)

/-- A session with the content of one slot replaced. -/
def Session.withSlot (x : Session) (k : Nat) (b : SlotBuf) : Session := { x with slots := tabSet ({} : SlotBuf) x.slots k b }

theorem slot_withSlot (x : Session) (k : Nat) (b : SlotBuf) : tabGet ({} : SlotBuf) (x.withSlot k b).slots k = b := tabGet_tabSet_self _ _ _ _

/-- A stage fills its slot from OFFSET. -/
theorem completes_bulkStage {k off total : Nat} {d : Bytes} (h : Serves s r rest opBulk) (hk : k < 8) (htotal : total ≤ 1048576) (hfit : off + d.length ≤ total)
    (hbody : r.body = natBE 1 0 ++ natBE 1 k ++ zeros 6 ++ natBE 4 off ++ natBE 4 total ++ d) :
    (r.role = 0 → Completes .bulkStage s fun t => Answered s t r Res.access [] ∧ t.pel.queue = rest ∧ t = { s with pel := t.pel, outbox := t.outbox }) ∧
    (r.role ≠ 0 → Completes .bulkStage s fun t => Answered s t r Res.done [] ∧ (tabGet ({} : SlotBuf) (t.sess r.session).slots k).total = total ∧ (∀ i x, d[i]? = some x →
      tabGet 0 (tabGet ({} : SlotBuf) (t.sess r.session).slots k).cells (off + i) = x.toNat + 1) ∧ t = { s with pel := t.pel, outbox := t.outbox }) := by
  obtain ⟨haction, hslot, hzero, hoff, htot, hdata, hlength⟩ := stage_fields hk htotal hfit hbody
  have hbulk : bulkAction r = 0 := by
    unfold bulkAction
    rw [haction]
    rfl
  have hnone : slotRefusal r = none := slotRefusal_eq_none h.2.2.2.1 (bulkBad_eq_false h.2.2.2.2.1 hlength hzero (by omega)) (by omega)
  have htake := takeRequest_of_serves (want := fun r => r.op == opBulk && bulkAction r == 0) h (by rw [h.2.2.1, hbulk]; rfl)
  refine ⟨fun hrole => ?_, fun hrole => ?_⟩
  · have hexec : exec .bulkStage s = .next ((s.unqueued rest).respond r Res.access []) := by
      rw [exec_bulkStage, execBulkStage, htake]
      dsimp only
      rw [hnone]
      dsimp only
      rw [if_pos hrole]
    exact ⟨_, hexec, respond_unqueued [] h (by decide) (by decide)⟩
  · obtain ⟨cells, hexec⟩ : ∃ base : Tab Nat, exec .bulkStage s = .next (((s.unqueued rest).putSess r.session
        (((s.unqueued rest).sess r.session).withSlot k { total := total, cells := d.zipIdx.foldl (fun t e => tabSet 0 t (off + e.2) (e.1.toNat + 1)) base })).respond r Res.done []) := by
      rw [exec_bulkStage, execBulkStage, htake]
      dsimp only
      rw [hnone]
      dsimp only
      rw [if_neg hrole, hslot, hoff, htot, hdata, if_neg (by omega)]
      by_cases hold : (tabGet ({} : SlotBuf) ((s.unqueued rest).sess r.session).slots k).total = total
      · exact ⟨(tabGet ({} : SlotBuf) ((s.unqueued rest).sess r.session).slots k).cells, by rw [if_pos hold, hold]; rfl⟩
      · exact ⟨[], by rw [if_neg hold]; rfl⟩
    generalize hx : ((s.unqueued rest).sess r.session).withSlot k { total := total, cells := d.zipIdx.foldl (fun t e => tabSet 0 t (off + e.2) (e.1.toNat + 1)) cells } = x at hexec
    obtain ⟨hans, ⟨w, hsess⟩, hform⟩ := respond_putSess [] x h (code := Res.done) (by decide) (by decide) (by rw [← hx]; rfl)
    have hslots : tabGet ({} : SlotBuf) ((((s.unqueued rest).putSess r.session x).respond r Res.done []).sess r.session).slots k =
        { total := total, cells := d.zipIdx.foldl (fun t e => tabSet 0 t (off + e.2) (e.1.toNat + 1)) cells } := by
      rw [hsess, ← hx]
      exact slot_withSlot ..
    refine ⟨_, hexec, hans, by rw [hslots], fun i y hy => ?_, hform⟩
    have hcell := tabGet_staged off d 0 cells hy
    rw [Nat.zero_add] at hcell
    rw [hslots]
    exact hcell

/-- The fields of a BULK read. -/
theorem bulkRead_fields {k off n : Nat} (hk : k < 2 ^ 24) (hn : n ≤ 1336) (hoff : off < 2 ^ 32) (hbody : r.body = natBE 1 1 ++ zeros 1 ++ natBE 3 k ++ zeros 3 ++ natBE 4 off ++ natBE 4 n) :
    beAt r.body 0 1 = 1 ∧ beAt r.body 2 3 = k ∧ beAt r.body 5 3 = 0 ∧ beAt r.body 8 4 = off ∧ beAt r.body 12 4 = n ∧ r.body.length = 16 := by
  have hshape : r.body = natBE 1 1 ++ (zeros 1 ++ (natBE 3 k ++ (zeros 3 ++ (natBE 4 off ++ natBE 4 n)))) := by
    rw [hbody]
    simp only [List.append_assoc]
  refine ⟨?_, ?_, ?_, ?_, ?_, ?_⟩
  · rw [hshape, beAt_natBE_append]
    rfl
  · rw [hshape, beAt_append_of_le (by simp), beAt_append_of_le (by simp), length_natBE, length_zeros, beAt_natBE_append]
    exact Nat.mod_eq_of_lt hk
  · rw [hshape, beAt_append_of_le (by simp), beAt_append_of_le (by simp), beAt_append_of_le (by simp), length_natBE, length_zeros, length_natBE]
    exact beAt_zeros_append (by decide) _
  · rw [hshape, beAt_append_of_le (by simp), beAt_append_of_le (by simp), beAt_append_of_le (by simp), beAt_append_of_le (by simp)]
    simp only [length_natBE, length_zeros]
    rw [beAt_natBE_append]
    exact Nat.mod_eq_of_lt hoff
  · rw [hbody, beAt_append_of_le (by simp)]
    simp only [List.length_append, length_natBE, length_zeros]
    rw [beAt_natBE]
    exact Nat.mod_eq_of_lt (by omega)
  · rw [hbody]
    simp

/-- A BULK read answers the bytes from OFFSET. -/
theorem completes_bulkRead {k off n : Nat} {b : Bytes} (h : Serves s r rest opBulk) (hk : k < 2 ^ 24) (h1 : 1 ≤ n) (hn : n ≤ 1336) (hoff : off < 2 ^ 32)
    (hbody : r.body = natBE 1 1 ++ zeros 1 ++ natBE 3 k ++ zeros 3 ++ natBE 4 off ++ natBE 4 n) (hread : (s.unqueued rest).readReceived r.at' k = (Res.done, b)) (hlt : off < b.length) :
    Completes .bulkRead s fun t => Answered s t r Res.done (natBE 4 off ++ natBE 4 (min n (b.length - off)) ++ ((fromWire (typeAt k).code b).drop off).take n) ∧
      t = { s with pel := t.pel, outbox := t.outbox } := by
  obtain ⟨haction, hkey, hzero, hoffset, htotal, hlength⟩ := bulkRead_fields hk hn hoff hbody
  have hbulk : bulkAction r = 1 := by
    unfold bulkAction
    rw [haction]
    rfl
  have hbad : bulkBad r = false := bulkBad_eq_false h.2.2.2.2.1 (by omega) hzero (by omega)
  have hremote : (s.unqueued rest).isRemote r = false := h.2.2.2.2.2.1
  have hends : bodyEnds r (r.body.drop 16) = true := by
    rw [List.drop_of_length_le (by rw [hlength])]
    rfl
  have hdata : (((fromWire (typeAt k).code b).drop off).take n).length = min n (b.length - off) := by
    rw [List.length_take, List.length_drop, length_fromWire]
  have hexec : exec .bulkRead s = .next ((s.unqueued rest).respond r Res.done
      (natBE 4 off ++ natBE 4 (min n (b.length - off)) ++ ((fromWire (typeAt k).code b).drop off).take n)) := by
    rw [exec_bulkRead, execBulkRead, takeRequest_of_serves (want := fun r => r.op == opBulk && bulkAction r == 1) h (by rw [h.2.2.1, hbulk]; rfl)]
    dsimp only
    rw [hbad, hends, hkey, hoffset, htotal, hremote, if_neg (by simp; omega), if_neg Bool.false_ne_true, hread]
    dsimp only
    rw [if_neg (not_not.mpr rfl), if_neg (Nat.not_le.mpr hlt), hdata]
  obtain ⟨hans, -, hform⟩ := respond_unqueued (code := Res.done) (natBE 4 off ++ natBE 4 (min n (b.length - off)) ++ ((fromWire (typeAt k).code b).drop off).take n) h (by decide) (by decide)
  exact ⟨_, hexec, hans, hform⟩

/-- A clear empties its slot. -/
theorem completes_bulkClear {k : Nat} (h : Serves s r rest opBulk) (hrole : r.role ≠ 0) (hk : k < 8) (hbody : r.body = natBE 1 2 ++ natBE 1 k ++ zeros 14) :
    Completes .bulkClear s fun t => Answered s t r Res.done [] ∧ tabGet ({} : SlotBuf) (t.sess r.session).slots k = {} ∧ t = { s with pel := t.pel, outbox := t.outbox } := by
  have haction : beAt r.body 0 1 = 2 := by
    rw [hbody, List.append_assoc, beAt_natBE_append]
    rfl
  have hslot : beAt r.body 1 1 = k := by
    rw [hbody, List.append_assoc, beAt_append_of_le (by simp), length_natBE, beAt_natBE_append]
    exact Nat.mod_eq_of_lt (by omega)
  have hzero : beAt r.body 5 3 = 0 := by
    rw [hbody, beAt_append_of_le (by simp)]
    exact beAt_zeros
  have hlength : r.body.length = 16 := by
    rw [hbody]
    simp
  have hbulk : bulkAction r = 2 := by
    unfold bulkAction
    rw [haction]
    rfl
  have hnone : slotRefusal r = none := slotRefusal_eq_none h.2.2.2.1 (bulkBad_eq_false h.2.2.2.2.1 (by omega) hzero (by omega)) (by omega)
  generalize hx : ((s.unqueued rest).sess r.session).withSlot k {} = x
  have hexec : exec .bulkClear s = .next (((s.unqueued rest).putSess r.session x).respond r Res.done []) := by
    rw [exec_bulkClear, execBulkClear, takeRequest_of_serves (want := fun r => r.op == opBulk && bulkAction r == 2) h (by rw [h.2.2.1, hbulk]; rfl)]
    dsimp only
    rw [hnone]
    dsimp only
    rw [if_neg (by omega), if_neg hrole, hslot, ← hx]
    rfl
  obtain ⟨hans, ⟨w, hsess⟩, hform⟩ := respond_putSess [] x h (code := Res.done) (by decide) (by decide) (by rw [← hx]; rfl)
  refine ⟨_, hexec, hans, ?_, hform⟩
  rw [hsess, ← hx]
  exact slot_withSlot ((s.unqueued rest).sess r.session) k {}

end

/-- Settles O49, operation by operation. -/
theorem pelpinOperations : Obligations.PelpinOperations := by
  unfold Obligations.PelpinOperations
  refine ⟨?_, ?_, ?_, ?_, ?_, ?_, ?_, ?_, ?_⟩
  · exact fun s r rest ks h h1 h64 hks hbody hroom => completes_pelpinRead h h1 h64 hks hbody hroom
  · exact fun s r rest k h hrole hk hbody => completes_pelpinWrite_observer h hrole hk hbody
  · exact fun s r rest k c u h hrole hk hbody hdo hsess => completes_pelpinWrite h hrole hk hbody hdo hsess
  · intro s r rest h hrole
    have hexec : exec .pelpinCommit s = .next ((s.unqueued rest).respond r Res.access []) := by
      rw [exec_pelpinCommit, execPelpinCommit, takeRequest_of_serves (want := fun r => r.op == opCommit || r.op == opGroup) h (by rw [h.2.2.1]; rfl)]
      dsimp only
      rw [if_neg (by rw [h.2.2.1]; decide), if_pos hrole]
    exact ⟨_, hexec, respond_unqueued [] h (by decide) (by decide)⟩
  · exact fun s r rest g T w h hrole hlast hg hT hkey hty hlen hbody hnew => completes_pelpinCommit h hrole hlast hg hT hkey hty hlen hbody hnew
  · exact fun s r rest k iv h hk hexists hread himage hmin hiv hbody hsubs => completes_subscribe h hk hexists hread himage hmin hiv hbody hsubs
  · exact fun s r rest k off total d h hk htotal hfit hbody => completes_bulkStage h hk htotal hfit hbody
  · exact fun s r rest k off n b h hk h1 hn hoff hbody hread hlt => completes_bulkRead h hk h1 hn hoff hbody hread hlt
  · exact fun s r rest k h hrole hk hbody => completes_bulkClear h hrole hk hbody

end Sys2Proof.Machine
end

section
/-! Pelpin sessions (13 R369, R370, R372, R377). -/

namespace Sys2Proof.Machine

theorem lenOf_ppSessState {n : Nat} (h1 : 1 ≤ n) (h : n ≤ 16) : lenOf (Key.ppSessState n) = 1 :=
  lenOf_page rowsPelpin 0x1731 16 0x1 1 _ (rowsAt_Pelpin _ (by unfold Key.ppSessState; omega)) (by unfold Key.ppSessState; omega) (by unfold Key.ppSessState; omega)
    (by unfold Key.ppSessState; omega) (by unfold Key.ppSessState; omega) (by decide)

/-- Where a session's state stands among the objects that Pelpin writes. -/
theorem ppSessState_ne (n m : Nat) : Key.ppSessState n ≠ Key.ppSessions ∧ Key.ppSessState n ≠ Key.spanAnchor ∧ Key.ppSessState n ≠ Key.ppSessEpoch m ∧ Key.ppSessState n ≠ Key.ppSessTid m ∧
    Key.ppSessState n ≠ Key.ppSessSlot m ∧ Key.ppSessState n ≠ Key.ppAuthFail ∧ Key.ppSessState n ≠ Key.ppBusy ∧ Key.ppSessState n ≠ Key.spanFwdPending := by
  unfold Key.ppSessState Key.ppSessions Key.spanAnchor Key.ppSessEpoch Key.ppSessTid Key.ppSessSlot Key.ppAuthFail Key.ppBusy Key.spanFwdPending
  omega

namespace State

/-- The anchor's state and the number of sessions are the only objects that change. -/
theorem refreshAnchor_spec (s : State) : (∀ n, s.refreshAnchor.obj (Key.ppSessState n) = s.obj (Key.ppSessState n)) ∧ ∃ d, s.refreshAnchor = s.withDict d := by
  refine ⟨fun n => ?_, _, rfl⟩
  obtain ⟨h1, h2, -⟩ := ppSessState_ne n n
  unfold refreshAnchor
  rw [obj_setObj, if_neg h2, obj_setObj, if_neg h1]

/-- The objects of a session that closes. -/
theorem closeObjects_spec (u : State) (n : Nat) :
    ((((u.refreshForwards.setObj (Key.ppSessState n) 0).setObj (Key.ppSessEpoch n) 0).setObj (Key.ppSessTid n) 0).refreshAnchor).obj (Key.ppSessState n) = 0 ∧
      ∃ d, (((u.refreshForwards.setObj (Key.ppSessState n) 0).setObj (Key.ppSessEpoch n) 0).setObj (Key.ppSessTid n) 0).refreshAnchor = u.withDict d := by
  obtain ⟨-, -, hepoch, htid, -⟩ := ppSessState_ne n n
  obtain ⟨hstate, d, hform⟩ := refreshAnchor_spec (((u.refreshForwards.setObj (Key.ppSessState n) 0).setObj (Key.ppSessEpoch n) 0).setObj (Key.ppSessTid n) 0)
  refine ⟨?_, d, hform⟩
  rw [hstate, obj_setObj, if_neg htid, obj_setObj, if_neg hepoch, obj_setObj, if_pos rfl, Nat.zero_mod]

/-- A session that closes: its state, what it held, and the requests that wait for it. -/
theorem closeSession_spec (s : State) (n : Nat) :
    (s.closeSession n).obj (Key.ppSessState n) = 0 ∧ (s.closeSession n).sess n = {} ∧ (∀ j, j ≠ n → (s.closeSession n).sess j = s.sess j) ∧
      (s.closeSession n).pel.queue = s.pel.queue.filter (fun r => r.origin.isSome || r.session != n) ∧ ∃ d p x, s.closeSession n = { s with dict := d, pel := p, span := x } := by
  have hsess : ∀ j, tabGet ({} : Session) (tabSet ({} : Session) s.pel.sessions n {}) j = if j = n then {} else s.sess j := fun j => tabGet_tabSet ..
  unfold closeSession
  extract_lets other pel s1 span s2
  have hpel : s2.pel = { s.pel with sessions := tabSet ({} : Session) s.pel.sessions n {}, queue := s.pel.queue.filter other } := rfl
  have hrest : s2 = { s with pel := s2.pel, span := s2.span } := rfl
  obtain ⟨hstate, d, hform⟩ := closeObjects_spec s2 n
  refine ⟨hstate, ?_, fun j hj => ?_, ?_, d, s2.pel, s2.span, ?_⟩
  all_goals clear_value s2
  all_goals rw [hform]
  · show tabGet {} s2.pel.sessions n = {}
    rw [hpel]
    exact (hsess n).trans (if_pos rfl)
  · show tabGet {} s2.pel.sessions j = _
    rw [hpel]
    exact (hsess j).trans (if_neg hj)
  · show s2.pel.queue = _
    rw [hpel]
  · rw [hrest]
    rfl

/-- Requests of a session that has closed are gone from the queue. -/
theorem not_of_closeSession {s : State} {n : Nat} {x : PpRequest} (hx : x ∈ (s.closeSession n).pel.queue) (horigin : x.origin = none) : x.session ≠ n := by
  rw [(closeSession_spec s n).2.2.2.1] at hx
  have h := (List.mem_filter.mp hx).2
  rw [horigin] at h
  simpa using h

/-- A response with DONE changes no object. -/
theorem obj_respond_done (s : State) {r : PpRequest} {body : Bytes} (horigin : r.origin = none) {k : Nat} : (s.respond r Res.done body).obj k = s.obj k := by
  unfold respond
  rw [horigin]
  dsimp only
  split
  · rfl
  · rw [if_neg (by decide), if_neg (by decide)]
    rfl

/-- A response in the handshake: it is sent though no key stands yet, and leaves the states of sessions alone. -/
theorem respond_handshake {s : State} {r : PpRequest} (code : Code) (body : Bytes) (horigin : r.origin = none) (hsession : r.session = 0) :
    (s.respond r code body).pel.queue = s.pel.queue ∧ (∀ n, (s.respond r code body).obj (Key.ppSessState n) = s.obj (Key.ppSessState n)) ∧
      (∀ j, j ≠ 0 → (s.respond r code body).sess j = s.sess j) ∧ (s.respond r code body).outbox.length = s.outbox.length + 1 ∧
      (code = Res.auth → (s.respond r code body).obj Key.ppAuthFail = (s.obj Key.ppAuthFail + 1) % 2 ^ 64) ∧
      (code = Res.busy → (s.respond r code body).obj Key.ppBusy = (s.obj Key.ppBusy + 1) % 2 ^ 64) ∧
      (code ≠ Res.auth → code ≠ Res.busy → ∀ k, (s.respond r code body).obj k = s.obj k) := by
  have hauthfail : ∀ n, Key.ppSessState n ≠ Key.ppAuthFail := fun n => (ppSessState_ne n n).2.2.2.2.2.1
  have hbusyfail : ∀ n, Key.ppSessState n ≠ Key.ppBusy := fun n => (ppSessState_ne n n).2.2.2.2.2.2.1
  have hcount : ∀ v : Nat, v % 256 ^ 8 = v % 2 ^ 64 := fun v => by norm_num
  unfold respond
  rw [horigin]
  dsimp only
  rw [if_neg fun h => h.1 hsession, hsession]
  have hsess : ∀ (x : Session) (j : Nat), j ≠ 0 → (s.putSess 0 x).sess j = s.sess j := fun x j hj => (sess_putSess ..).trans (if_neg hj)
  by_cases hauth : code = Res.auth
  · rw [if_pos hauth]
    refine ⟨rfl, fun n => ?_, hsess _, ?_, fun _ => ?_, fun h => ?_, fun h => absurd hauth h⟩
    · rw [ppSend_obj, obj_bump, if_neg (hauthfail n), putSess_obj]
    · simp
    · rw [ppSend_obj, obj_bump, if_pos rfl, lenOf_ppAuthFail, putSess_obj, hcount]
    · rw [hauth] at h
      exact absurd h (by decide)
  · rw [if_neg hauth]
    by_cases hbusy : code = Res.busy
    · rw [if_pos hbusy]
      refine ⟨rfl, fun n => ?_, hsess _, ?_, fun h => absurd h hauth, fun _ => ?_, fun _ h => absurd hbusy h⟩
      · rw [ppSend_obj, obj_bump, if_neg (hbusyfail n), putSess_obj]
      · simp
      · rw [ppSend_obj, obj_bump, if_pos rfl, lenOf_ppBusy, putSess_obj, hcount]
    · rw [if_neg hbusy]
      exact ⟨rfl, fun n => rfl, hsess _, by simp, fun h => absurd h hauth, fun h => absurd h hbusy, fun _ _ k => rfl⟩

end State

open State

section
variable {s : State} {r : PpRequest} {rest : List PpRequest}

theorem takeRequest_of_front {want : PpRequest → Bool} (hqueue : s.pel.queue = r :: rest) (hfw : s.fwReady = true) (hwant : want r = true) : s.takeRequest want = some (r, s.unqueued rest) := by
  unfold takeRequest
  rw [hqueue]
  dsimp only
  rw [hfw, hwant]
  rfl

/-- What OPEN1 with a well-formed body comes to. -/
theorem exec_open1_of_wellFormed {slot : Nat} {q : Nat × Nat} (hqueue : s.pel.queue = r :: rest) (hfw : s.fwReady = true) (hop : r.op = opOpen) (hbad : r.bad = false) (hsession : r.session = 0)
    (hlength : r.body.length = 133) (hpoint : pointOf ((r.body.drop 4).take 97) = some q) (hslot : beAt r.body 0 1 = slot) (h7 : slot ≤ 7) (hzero : beAt r.body 1 3 = 0) :
    (s.obj (Key.ppKey slot) = 0 → exec .open1 s = .next ((s.unqueued rest).respond r Res.auth [])) ∧
    (s.obj (Key.ppKey slot) ≠ 0 → (∀ n, 1 ≤ n → n ≤ 16 → s.obj (Key.ppSessState n) ≠ 0) → exec .open1 s = .next ((s.unqueued rest).respond r Res.busy [])) ∧
    (s.obj (Key.ppKey slot) ≠ 0 → s.obj (Key.ppSessState 1) = 0 → ∃ f x b, exec .open1 s =
      .next ((((((s.unqueued rest).withFree f).putSess 1 x).setObj (Key.ppSessState 1) 1).setObj (Key.ppSessSlot 1) slot).respond r Res.done b) ∧
        x.role = s.obj (Key.ppRole slot) ∧ x.openedAt = s.wall ∧ x.begun = false ∧ x.window = []) := by
  have htake := takeRequest_of_front (want := fun r => r.op == opOpen && r.session == 0) hqueue hfw (by rw [hop, hsession]; rfl)
  have hwell : ¬ (r.bad = true ∨ r.body.length ≠ 133 ∨ 7 < slot ∨ beAt r.body 1 3 ≠ 0) := by
    rw [hbad, hlength, hzero]
    simp
    omega
  refine ⟨fun hkey => ?_, fun hkey hnone => ?_, fun hkey hfree => ?_⟩
  · rw [exec_open1, execOpen1, htake]
    dsimp only
    rw [hpoint, hslot]
    dsimp only
    rw [if_neg hwell]
    exact if_pos hkey
  · have hroom : ((List.range 16).find? fun i => (s.unqueued rest).obj (Key.ppSessState (i + 1)) == 0) = none :=
      List.find?_eq_none.mpr fun i hi => by
        have := hnone (i + 1) (Nat.succ_pos i) (List.mem_range.mp hi)
        exact beq_eq_false_iff_ne.mpr this ▸ Bool.false_ne_true
    rw [exec_open1, execOpen1, htake]
    dsimp only
    rw [hpoint, hslot, hroom]
    dsimp only
    rw [if_neg hwell]
    exact if_neg hkey
  · have hroom : ((List.range 16).find? fun i => (s.unqueued rest).obj (Key.ppSessState (i + 1)) == 0) = some 0 := by
      have hfirst : ((s.unqueued rest).obj (Key.ppSessState (0 + 1)) == 0) = true := beq_iff_eq.mpr hfree
      exact List.find?_cons_of_pos hfirst
    rw [exec_open1, execOpen1, htake]
    dsimp only
    rw [hpoint, hslot, hroom]
    dsimp only
    rw [if_neg hwell, if_neg (show ¬ (s.unqueued rest).obj (Key.ppKey slot) = 0 from hkey)]
    refine ⟨s.free + 1 + 1 + 1, ?_⟩
    apply Exists.intro
    apply Exists.intro
    constructor
    · rfl
    · exact ⟨rfl, rfl, rfl, rfl⟩

/-- OPEN1 with a free session: it is assigned and answered. -/
theorem completes_open1 {slot : Nat} {q : Nat × Nat} (hqueue : s.pel.queue = r :: rest) (hfw : s.fwReady = true) (hop : r.op = opOpen) (horigin : r.origin = none) (hbad : r.bad = false)
    (hsession : r.session = 0) (hlength : r.body.length = 133) (hpoint : pointOf ((r.body.drop 4).take 97) = some q) (hslot : beAt r.body 0 1 = slot) (h7 : slot ≤ 7)
    (hzero : beAt r.body 1 3 = 0) (hkey : s.obj (Key.ppKey slot) ≠ 0) (hfree : s.obj (Key.ppSessState 1) = 0) :
    Completes .open1 s fun t => t.pel.queue = rest ∧ t.obj (Key.ppSessState 1) = 1 ∧ t.obj (Key.ppSessSlot 1) = slot ∧ (t.sess 1).role = s.obj (Key.ppRole slot) ∧ (t.sess 1).openedAt = s.wall ∧
      (t.sess 1).begun = false ∧ (t.sess 1).window = [] ∧ t.outbox.length = s.outbox.length + 1 := by
  obtain ⟨-, -, hopens⟩ := exec_open1_of_wellFormed hqueue hfw hop hbad hsession hlength hpoint hslot h7 hzero
  obtain ⟨f, x, b, hexec, hrole, hopened, hbegun, hwindow⟩ := hopens hkey hfree
  generalize hu : ((((s.unqueued rest).withFree f).putSess 1 x).setObj (Key.ppSessState 1) 1).setObj (Key.ppSessSlot 1) slot = u at hexec
  obtain ⟨hq, hstate, hsess, houtbox, -, -, hobj⟩ := respond_handshake (s := u) Res.done b horigin hsession
  have hsame : (u.respond r Res.done b).sess 1 = x := by
    rw [hsess 1 (by decide), ← hu]
    exact tabGet_tabSet_self _ _ _ _
  refine ⟨_, hexec, ?_, ?_, ?_, by rw [hsame, hrole], by rw [hsame, hopened], by rw [hsame, hbegun], by rw [hsame, hwindow], ?_⟩
  · rw [hq, ← hu]
    rfl
  · rw [hstate, ← hu, obj_setObj, if_neg (by decide), obj_setObj, if_pos rfl]
    decide
  · rw [hobj (by decide) (by decide), ← hu, obj_setObj, if_pos rfl, show lenOf (Key.ppSessSlot 1) = 1 by decide]
    exact Nat.mod_eq_of_lt (by omega)
  · rw [houtbox, ← hu]
    rfl

/-- OPEN3 opens its session or releases it, as the signature tells. -/
theorem completes_open3 (hqueue : s.pel.queue = r :: rest) (hfw : s.fwReady = true) (hop : r.op = opOpen) (horigin : r.origin = none) (hbad : r.bad = false) (h1 : 1 ≤ r.session)
    (h16 : r.session ≤ 16) (hlength : r.body.length = 96) (hstate : s.obj (Key.ppSessState r.session) = 1) :
    Completes .open3 s fun t => t.obj (Key.ppSessState r.session) =
      if verifySig (natLE 97 (s.obj (Key.ppKey (s.obj (Key.ppSessSlot r.session))))) (natBE 1 0x43 ++ (s.sess r.session).hash) r.body = true then 2 else 0 := by
  have htake := takeRequest_of_front (want := fun r => r.op == opOpen && r.session != 0) hqueue hfw (by rw [hop, bne_iff_ne.mpr (by omega : r.session ≠ 0)]; rfl)
  have hfresh : (s.unqueued rest).obj (Key.ppSessState r.session) = 1 := hstate
  have hwell : ¬ (r.bad = true ∨ r.body.length ≠ 96) := by
    rw [hbad, hlength]
    simp
  generalize hv : verifySig (natLE 97 (s.obj (Key.ppKey (s.obj (Key.ppSessSlot r.session))))) (natBE 1 0x43 ++ (s.sess r.session).hash) r.body = v
  have hv' : verifySig (natLE 97 ((s.unqueued rest).obj (Key.ppKey ((s.unqueued rest).obj (Key.ppSessSlot r.session))))) (natBE 1 0x43 ++ ((s.unqueued rest).sess r.session).hash) r.body = v := hv
  cases v
  · have hexec : exec .open3 s = .next (((s.unqueued rest).respond r Res.auth []).closeSession r.session) := by
      rw [exec_open3, execOpen3, htake]
      dsimp only
      rw [if_neg hwell, if_neg (not_not.mpr hfresh), hv', if_pos (show (!false) = true from rfl)]
    exact ⟨_, hexec, (closeSession_spec _ _).1⟩
  · generalize hx : ({ (s.unqueued rest).sess r.session with validAt := (s.unqueued rest).wall } : Session) = x
    have hexec : exec .open3 s = .next (((((s.unqueued rest).setObj (Key.ppSessState r.session) 2).putSess r.session x).refreshAnchor).respond r Res.done []) := by
      rw [exec_open3, execOpen3, htake]
      dsimp only
      rw [if_neg hwell, if_neg (not_not.mpr hfresh), hv', if_neg (by decide), hx]
    have hopened : ((((s.unqueued rest).setObj (Key.ppSessState r.session) 2).putSess r.session x).refreshAnchor).obj (Key.ppSessState r.session) = 2 := by
      rw [(refreshAnchor_spec _).1, putSess_obj, obj_setObj, if_pos rfl, lenOf_ppSessState h1 h16]
      rfl
    refine ⟨_, hexec, ?_⟩
    dsimp only
    generalize (((s.unqueued rest).setObj (Key.ppSessState r.session) 2).putSess r.session x).refreshAnchor = u at hopened
    rw [if_pos rfl, ← hopened]
    exact obj_respond_done u horigin

/-- CLOSE answers, and then the session is closed. -/
theorem completes_close (h : Serves s r rest opClose) (hbody : r.body = []) :
    Completes .close s fun t => Answered s t r Res.done [] ∧ t.obj (Key.ppSessState r.session) = 0 ∧ t.sess r.session = {} ∧ (∀ x ∈ t.pel.queue, x.origin = none → x.session ≠ r.session) ∧
      t.groups = s.groups := by
  have hexec : exec .close s = .next (((s.unqueued rest).respond r Res.done []).closeSession r.session) := by
    rw [exec_close, execClose, takeRequest_of_serves (want := fun r => r.op == opClose) h (beq_iff_eq.mpr h.2.2.1)]
    dsimp only
    rw [h.2.2.2.2.1, hbody]
    rfl
  obtain ⟨hans, -, hform⟩ := respond_unqueued (code := Res.done) [] h (by decide) (by decide)
  generalize (s.unqueued rest).respond r Res.done [] = u at *
  obtain ⟨hstate, hsess, -, -, d, p, x, hclose⟩ := closeSession_spec u r.session
  refine ⟨_, hexec, ?_, hstate, hsess, fun y hy ho => not_of_closeSession hy ho, ?_⟩
  · have hout : (u.closeSession r.session).outbox = u.outbox := by rw [hclose]
    exact hout.trans hans
  · rw [hclose, hform]

/-- NOTIFY of the one subscription of a session whose period has come. -/
theorem completes_notify {k : Fin 16} {n : Fin 64} {u : PpSub} (hopen : s.sessOpen (k.val + 1) = true) (hfw : s.fwReady = true) (hsubs : (s.sess (k.val + 1)).subs = [(n.val, u)]) (hmode : u.mode = 2)
    (hdue : u.at' + u.interval ≤ s.wall) :
    Completes (.notify k n) s fun t => (t.sess (k.val + 1)).subs = [(n.val, { u with sent := some (leNat (s.readObject u.key).2), at' := s.wall, seq := (u.seq + 1) % 2 ^ 32 })] ∧
      ∃ f, t.outbox = s.outbox ++ [.udp (s.sess (k.val + 1)).iface (s.sess (k.val + 1)).addr.mac (s.sess (k.val + 1)).addr.ip (s.sess (k.val + 1)).addr.udp 47321 f] := by
  have hfind : (s.sess (k.val + 1)).subs.find? (fun e => e.1 == n.val) = some (n.val, u) := by
    rw [hsubs]
    exact List.find?_cons_of_pos (beq_iff_eq.mpr rfl)
  have hput : ∀ y, putSub (s.sess (k.val + 1)).subs n.val y = [(n.val, y)] := fun y => by
    rw [hsubs]
    simp [putSub]
  have hnotify : notifyDue u (leNat (s.readObject u.key).2) s.wall = true := by
    unfold notifyDue
    rw [if_neg (by rw [hmode]; decide), decide_eq_true hdue]
  rw [Completes, exec_notify, execNotify]
  dsimp only
  rw [hfind]
  dsimp only
  rw [if_neg (by rw [hopen, hfw, hnotify]; decide), hput]
  refine ⟨_, rfl, ?_, ?_⟩
  · exact congrArg Session.subs (tabGet_tabSet_self _ _ _ _)
  · exact ⟨_, rfl⟩

end

/-- Settles O50: each message and each timeout of a session by the case it ends in. -/
theorem pelpinSessions : Obligations.PelpinSessions := by
  unfold Obligations.PelpinSessions
  refine ⟨?_, ?_, ?_, ?_, ?_, ?_, ?_, ?_, ?_, ?_⟩
  · intro s r rest slot q hqueue hfw hop horigin hbad hsession hlength hpoint hslot h7 hzero
    obtain ⟨hauth, hbusy, -⟩ := exec_open1_of_wellFormed hqueue hfw hop hbad hsession hlength hpoint hslot h7 hzero
    refine ⟨fun hkey => ?_, fun hkey hnone => ?_, fun hkey hfree => completes_open1 hqueue hfw hop horigin hbad hsession hlength hpoint hslot h7 hzero hkey hfree⟩
    · obtain ⟨hq, hstate, -, -, hcount, -⟩ := respond_handshake (s := s.unqueued rest) Res.auth [] horigin hsession
      exact ⟨_, hauth hkey, hq, hcount rfl, hstate⟩
    · obtain ⟨hq, hstate, -, -, -, hcount, -⟩ := respond_handshake (s := s.unqueued rest) Res.busy [] horigin hsession
      exact ⟨_, hbusy hkey hnone, hq, hcount rfl, hstate⟩
  · exact fun s r rest hqueue hfw hop horigin hbad h1 h16 hlength hstate => completes_open3 hqueue hfw hop horigin hbad h1 h16 hlength hstate
  · exact fun s r rest h _ _ hbody => completes_close h hbody
  · intro s k hready hstate
    rw [exec_ppSessClose, execPpSessClose, act_of_ready hready (if_pos hstate)]
  · intro s k hready hstate
    obtain ⟨hclosed, hsess, hothers, -, d, p, x, hform⟩ := closeSession_spec s (k.val + 1)
    have hexec : exec (.ppSessClose k) s = .next ((s.closeSession (k.val + 1)).withResult Res.done) := by
      rw [exec_ppSessClose, execPpSessClose, act_of_ready hready (if_neg hstate)]
    have hgroups : (s.closeSession (k.val + 1)).groups = s.groups := by rw [hform]
    generalize s.closeSession (k.val + 1) = u at *
    exact ⟨_, hexec, rfl, hclosed, hsess, hothers, hgroups⟩
  · intro s k hstate hidle
    obtain ⟨hclosed, hsess, -, -, d, p, x, hform⟩ := closeSession_spec s (k.val + 1)
    have hopen : s.sessOpen (k.val + 1) = true := by
      unfold sessOpen
      rw [hstate, decide_eq_true (by omega)]
      rfl
    have hexec : exec (.sessionIdleTimeout k) s = .next (s.closeSession (k.val + 1)) := by
      rw [exec_sessionIdleTimeout, execSessionIdleTimeout]
      exact if_pos ⟨hopen, hidle⟩
    exact ⟨_, hexec, hclosed, hsess, by rw [hform]⟩
  · intro s k hearly
    rw [exec_sessionIdleTimeout, execSessionIdleTimeout]
    exact if_neg fun h => Nat.not_le.mpr hearly h.2
  · intro s k hstate hlate
    obtain ⟨hclosed, hsess, -⟩ := closeSession_spec s (k.val + 1)
    have hexec : exec (.open3Timeout k) s = .next (s.closeSession (k.val + 1)) := by
      rw [exec_open3Timeout, execOpen3Timeout]
      exact if_pos ⟨hstate, hlate⟩
    exact ⟨_, hexec, hclosed, hsess⟩
  · intro s k g
    refine ⟨_, rfl, fun y => ?_, rfl⟩
    rw [sess_putSess, if_pos rfl]
    simp only [List.mem_filter, Bool.not_eq_true', Bool.and_eq_false_iff, beq_eq_false_iff_ne, decide_eq_false_iff_not, Nat.not_le]
  · exact fun s k n u hopen hfw hsubs hmode hdue => completes_notify hopen hfw hsubs hmode hdue

end Sys2Proof.Machine
end

section
/-! Ethernet frames and links, VITA 49.2 sending and precision time (14 R380 to R396). -/

namespace Sys2Proof.Machine

theorem lenOf_vrtPackets {n : Nat} (h : n < 256) : lenOf (Key.vrtPackets n) = 8 := by
  have hcover : ∀ b < 16, rowsCover 0x1710 16 (0xE + 16 * b) 8 rowsNetwork = true := by decide
  exact lenOf_page rowsNetwork 0x1710 16 (0xE + 16 * (n % 16)) 8 _ (rowsAt_Network _ (by unfold Key.vrtPackets; omega)) (by unfold Key.vrtPackets; omega) (by unfold Key.vrtPackets; omega)
    (by unfold Key.vrtPackets; omega) (by unfold Key.vrtPackets; omega) (hcover _ (Nat.mod_lt n (by decide)))

/-- A fold whose steps do nothing. -/
theorem foldl_eq_self {α β : Type} (f : β → α → β) {l : List α} {s : β} (h : ∀ x ∈ l, f s x = s) : l.foldl f s = s := by
  induction l with
  | nil => rfl
  | cons x l ih => rw [List.foldl_cons, h x List.mem_cons_self, ih fun y hy => h y (List.mem_cons_of_mem x hy)]

/-- A fold over a range in which one step alone does something. -/
theorem foldl_range_one {β : Type} (f : β → Nat → β) {m n : Nat} (hn : n < m) (s : β) (hbefore : ∀ j < m, j ≠ n → f s j = s) (hafter : ∀ j < m, j ≠ n → f (f s n) j = f s n) :
    (List.range m).foldl f s = f s n := by
  obtain ⟨l1, l2, hl⟩ := List.append_of_mem (List.mem_range.mpr hn)
  have hnodup : (l1 ++ n :: l2).Nodup := hl ▸ List.nodup_range
  have hlt : ∀ x ∈ l1 ++ n :: l2, x < m := fun x hx => List.mem_range.mp (hl ▸ hx)
  rw [List.nodup_middle, List.nodup_cons, List.mem_append, not_or] at hnodup
  obtain ⟨⟨h1, h2⟩, -⟩ := hnodup
  have hself : l1.foldl f s = s := foldl_eq_self f fun x hx => hbefore x (hlt x (List.mem_append_left _ hx)) fun h => h1 (h ▸ hx)
  rw [hl, List.foldl_append, List.foldl_cons, hself]
  exact foldl_eq_self f fun x hx => hafter x (hlt x (List.mem_append_right _ (List.mem_cons_of_mem n hx))) fun h => h2 (h ▸ hx)

/-! ### Bytes of a frame -/

theorem part_head {a : Bytes} {n : Nat} (h : a.length = n) (c : Bytes) : part (a ++ c) 0 n = a := by
  simp [part, ← h]

theorem part_skip {a : Bytes} {off : Nat} (h : a.length ≤ off) (c : Bytes) (n : Nat) : part (a ++ c) off n = part c (off - a.length) n := by
  simp [part, List.drop_append, List.drop_eq_nil_of_le h]

theorem part_through {a : Bytes} {n : Nat} (h : a.length ≤ n) (c : Bytes) : part (a ++ c) 0 n = a ++ part c 0 (n - a.length) := by
  simp [part, List.take_append, List.take_of_length_le h]

/-- An untagged frame whose type is that of ARP taken apart. -/
theorem ethFrame_arp (dst src : Nat) (body : Bytes) :
    ethFrame (natBE 6 dst ++ (natBE 6 src ++ (natBE 2 0x0806 ++ body))) = { dst := dst % 256 ^ 6, src := src % 256 ^ 6, tag := none, type := 0x0806, body := body } := by
  have hkind : part (natBE 6 dst ++ (natBE 6 src ++ (natBE 2 0x0806 ++ body))) 12 2 = natBE 2 0x0806 := by
    rw [part_skip (by simp), part_skip (by simp), length_natBE, length_natBE, part_head (length_natBE ..)]
  have hsrc : part (natBE 6 dst ++ (natBE 6 src ++ (natBE 2 0x0806 ++ body))) 6 6 = natBE 6 src := by
    rw [part_skip (by simp), length_natBE, part_head (length_natBE ..)]
  have htype : beNat (natBE 2 0x0806) = 0x0806 := by decide
  have hbody : (natBE 6 dst ++ (natBE 6 src ++ (natBE 2 0x0806 ++ body))).drop 14 = body := by
    rw [← List.append_assoc, ← List.append_assoc]
    exact List.drop_left' (by simp)
  unfold ethFrame
  simp only [hkind, htype, hsrc, part_head (length_natBE 6 dst), beNat_natBE]
  exact congrArg (EthFrame.mk _ _ none 0x0806) hbody

/-- An ARP request of a sender for an IPv4 address (RFC 826). -/
def arpRequest (mac ip own : Nat) (tail : Bytes) : Bytes :=
  natBE 6 0x000108000604 ++ (natBE 2 1 ++ (natBE 6 mac ++ (natBE 4 ip ++ (zeros 6 ++ (natBE 4 own ++ tail)))))

theorem part_arpRequest (mac ip own : Nat) (tail : Bytes) :
    part (arpRequest mac ip own tail) 0 8 = natBE 6 0x000108000604 ++ natBE 2 1 ∧ part (arpRequest mac ip own tail) 8 6 = natBE 6 mac ∧
      part (arpRequest mac ip own tail) 8 10 = natBE 6 mac ++ natBE 4 ip ∧ part (arpRequest mac ip own tail) 24 4 = natBE 4 own := by
  unfold arpRequest
  refine ⟨?_, ?_, ?_, ?_⟩
  · rw [part_through (by simp), length_natBE, part_head (length_natBE ..)]
  · rw [part_skip (by simp), part_skip (by simp), length_natBE, length_natBE, part_head (length_natBE ..)]
  · rw [part_skip (by simp), part_skip (by simp), length_natBE, length_natBE, part_through (by simp), length_natBE, part_head (length_natBE ..)]
  · rw [part_skip (by simp), part_skip (by simp), part_skip (by simp), part_skip (by simp), part_skip (by simp), length_natBE, length_natBE, length_natBE, length_natBE, length_zeros,
      part_head (length_natBE ..)]

namespace State

@[simp] theorem vrtStream_putVrtStream (s : State) (n : Nat) (x : VrtStream) (j : Nat) : (s.putVrtStream n x).vrtStream j = if j = n then x else s.vrtStream j := by
  unfold vrtStream putVrtStream
  exact tabGet_tabSet ..

theorem tagAccepted_untagged {s : State} {i : Nat} {f : EthFrame} (hvlan : s.obj (Key.netVlan i) = 0) (htag : f.tag = none) : s.tagAccepted i f = true := by
  unfold tagAccepted
  rw [htag]
  exact beq_iff_eq.mpr hvlan

/-! ### Links -/

/-- What one stream of an interface that leaves service gives up. -/
def discardOne (s : State) (i n : Nat) : State :=
  if (s.vrtStream n).queue = [] then s else (s.putVrtStream n { s.vrtStream n with queue := [] }).addObj (Key.netTxDropped i) (s.vrtStream n).queue.length

theorem discardOne_spec (s : State) {i : Nat} (hi : i < 8) (n : Nat) :
    ((s.discardOne i n).vrtStream n).queue = [] ∧ (∀ j, j ≠ n → (s.discardOne i n).vrtStream j = s.vrtStream j) ∧
      (s.discardOne i n).obj (Key.netTxDropped i) = (if (s.vrtStream n).queue = [] then s.obj (Key.netTxDropped i) else (s.obj (Key.netTxDropped i) + (s.vrtStream n).queue.length) % 2 ^ 64) ∧
      ∀ j, (s.discardOne i n).obj (Key.vrtInterface j) = s.obj (Key.vrtInterface j) ∨ 256 ≤ j := by
  unfold discardOne
  split
  next hempty => exact ⟨hempty, fun j _ => rfl, rfl, fun j => .inl rfl⟩
  next hqueue =>
    have hstream : ∀ j, ((s.putVrtStream n { s.vrtStream n with queue := [] }).addObj (Key.netTxDropped i) (s.vrtStream n).queue.length).vrtStream j =
        if j = n then { s.vrtStream n with queue := [] } else s.vrtStream j := fun j => vrtStream_putVrtStream ..
    refine ⟨?_, fun j hj => (hstream j).trans (if_neg hj), ?_, fun j => ?_⟩
    · rw [hstream, if_pos rfl]
    · rw [obj_addObj, if_pos rfl, lenOf_netTxDropped i hi]
      show (s.obj (Key.netTxDropped i) + _) % 256 ^ 8 = _
      norm_num
    · rw [obj_addObj, if_neg]
      · exact .inl rfl
      · unfold Key.vrtInterface Key.netTxDropped
        omega

/-- With one stream on an interface, its queue alone is discarded. -/
theorem discardQueued_of_one {s : State} {i n : Nat} (hi : i < 8) (hn : n < 256) (hothers : ∀ j < 256, j ≠ n → s.obj (Key.vrtInterface j) ≠ i) (hone : s.obj (Key.vrtInterface n) = i) :
    s.discardQueued i = s.discardOne i n := by
  unfold discardQueued
  obtain ⟨-, -, -, hkeep⟩ := discardOne_spec s hi n
  have hstep : (if s.obj (Key.vrtInterface n) ≠ i then s else
      let x := s.vrtStream n
      if x.queue.isEmpty then s else (s.putVrtStream n { x with queue := [] }).addObj (Key.netTxDropped i) x.queue.length) = s.discardOne i n := by
    rw [if_neg (not_not.mpr hone)]
    unfold discardOne
    simp only [List.isEmpty_iff]
  refine (foldl_range_one _ hn s (fun j hj hne => if_pos (hothers j hj hne)) fun j hj hne => ?_).trans hstep
  rw [hstep]
  refine if_pos ?_
  rw [(hkeep j).resolve_right (Nat.not_le.mpr hj)]
  exact hothers j hj hne

/-- A lane PLL of a port may be started or stopped. -/
theorem ethPll_changes (s : State) (p : Nat) : ∃ k d, s.ethPll p = (s.withKs k).withDict d := by
  unfold ethPll
  split
  · exact ⟨_, _, rfl⟩
  · split
    · exact ⟨_, _, rfl⟩
    · exact ⟨s.ks, s.dict, rfl⟩

/-- An interface that restarts with one stream on it. -/
theorem restartIface_of_one {s : State} {i n : Nat} (hi : i < 8) (hup : s.obj (Key.netState i) = 2) (hn : n < 256) (hothers : ∀ j < 256, j ≠ n → s.obj (Key.vrtInterface j) ≠ i)
    (hone : s.obj (Key.vrtInterface n) = i) :
    ((s.restartIface i).vrtStream n).queue = [] ∧ (∀ j, j ≠ n → (s.restartIface i).vrtStream j = s.vrtStream j) ∧
      (s.restartIface i).obj (Key.netTxDropped i) =
        (if (s.vrtStream n).queue = [] then s.obj (Key.netTxDropped i) else (s.obj (Key.netTxDropped i) + (s.vrtStream n).queue.length) % 2 ^ 64) ∧
      KeepsObjects [Key.netState i, Key.netTxDropped i, Key.lanepllState (20 + i / 4)] s (s.restartIface i) := by
  obtain ⟨hqueue, hstreams, hdropped, -⟩ := discardOne_spec s hi n
  have hdiscard : KeepsBut (· = Key.netTxDropped i) s (s.discardOne i n) := discardQueued_of_one hi hn hothers hone ▸ keepsBut_discardQueued s i
  have hform : s.restartIface i = ((s.discardOne i n).setObj (Key.netState i) (b2n (ifaceConfigured (s.discardOne i n).obj i))).ethPll (i / 4) := by
    unfold restartIface
    dsimp only
    rw [if_pos (show s.ifaceUp i = true from beq_iff_eq.mpr hup), discardQueued_of_one hi hn hothers hone]
  generalize s.discardOne i n = u at *
  generalize b2n (ifaceConfigured u.obj i) = v at hform
  obtain ⟨k, d, hpll⟩ := ethPll_changes (u.setObj (Key.netState i) v) (i / 4)
  have hkeep := keepsBut_ethPll (u.setObj (Key.netState i) v) (i / 4)
  refine ⟨?_, fun j hj => ?_, ?_, fun x hx => ?_⟩
  · rw [hform, hpll]
    exact hqueue
  · rw [hform, hpll]
    exact hstreams j hj
  · rw [hform, hkeep _ (by unfold Key.netTxDropped Key.lanepllState; omega), obj_setObj, if_neg (by unfold Key.netTxDropped Key.netState; omega), hdropped]
  · simp only [List.mem_cons, List.not_mem_nil, or_false, not_or] at hx
    obtain ⟨h1, h2, h3⟩ := hx
    rw [hform, hkeep x h3, obj_setObj, if_neg h1, hdiscard x h2]

/-- An ARP request for an interface's address is answered (14 R381). -/
theorem answerArp_arpRequest {s : State} {i mac ip : Nat} {f : EthFrame} {tail : Bytes} (hmac : mac < 2 ^ 48) (hown : s.obj (Key.netIpv4 i) ≠ 0) (hlt : s.obj (Key.netIpv4 i) < 2 ^ 32)
    (hvlan : s.obj (Key.netVlan i) = 0) (hbody : f.body = arpRequest mac ip (s.obj (Key.netIpv4 i)) tail) :
    s.answerArp i f = s.emit (.frame i (natBE 6 mac ++ natBE 6 (s.obj (Key.netMac i)) ++ natBE 2 0x0806 ++ natBE 6 0x000108000604 ++ natBE 2 2 ++
      natBE 6 (s.obj (Key.netMac i)) ++ natBE 4 (s.obj (Key.netIpv4 i)) ++ natBE 6 mac ++ natBE 4 ip ++ zeros 18)) := by
  obtain ⟨hhead, hsender, hfields, htarget⟩ := part_arpRequest mac ip (s.obj (Key.netIpv4 i)) tail
  have haddr : beNat (natBE 4 (s.obj (Key.netIpv4 i))) = s.obj (Key.netIpv4 i) := by
    rw [beNat_natBE]
    exact Nat.mod_eq_of_lt (by norm_num; exact hlt)
  have hto : beNat (natBE 6 mac) = mac := by
    rw [beNat_natBE]
    exact Nat.mod_eq_of_lt (by norm_num; exact hmac)
  unfold answerArp
  dsimp only
  rw [hbody, hhead, htarget, haddr, hfields, hsender, hto, if_neg (by rintro (h | h | h); exacts [hown h, h rfl, h rfl])]
  unfold ownFrame padTo
  simp only [hvlan, if_true, List.append_assoc, List.nil_append, List.length_append, length_natBE]

/-- A port that completes training: its lane PLL locks and its training interfaces are in service. -/
theorem netLinkUp_spec (s : State) {p : Nat} (hp : p < 2) (l : Nat) (hl : l ≤ 4) :
    (∀ i < 8, ((List.range l).foldl (fun y l => if y.obj (Key.netState (4 * p + l)) = 1 then y.setObj (Key.netState (4 * p + l)) 2 else y) s).obj (Key.netState i) =
        if i / 4 = p ∧ i % 4 < l ∧ s.obj (Key.netState i) = 1 then 2 else s.obj (Key.netState i)) ∧
      ∃ d, (List.range l).foldl (fun y l => if y.obj (Key.netState (4 * p + l)) = 1 then y.setObj (Key.netState (4 * p + l)) 2 else y) s = s.withDict d := by
  induction l with
  | zero => exact ⟨fun i hi => (if_neg (by rintro ⟨-, h, -⟩; omega)).symm, _, rfl⟩
  | succ l ih =>
    obtain ⟨hobj, d, hform⟩ := ih (by omega)
    rw [List.range_succ, List.foldl_append]
    generalize (List.range l).foldl (fun y l => if y.obj (Key.netState (4 * p + l)) = 1 then y.setObj (Key.netState (4 * p + l)) 2 else y) s = u at *
    have hat := hobj (4 * p + l) (by omega)
    rw [if_neg (by rintro ⟨-, h, -⟩; omega)] at hat
    have hkey : ∀ i, (Key.netState i = Key.netState (4 * p + l)) ↔ i = 4 * p + l := fun i => by unfold Key.netState; omega
    rw [List.foldl_cons, List.foldl_nil]
    split
    next hone =>
      refine ⟨fun i hi => ?_, _, by rw [hform]; rfl⟩
      rw [obj_setObj]
      by_cases hthis : i = 4 * p + l
      · subst hthis
        rw [if_pos rfl, if_pos ⟨by omega, by omega, hat ▸ hone⟩, lenOf_netState (4 * p + l) hi]
        rfl
      · rw [if_neg (mt (hkey i).mp hthis), hobj i hi]
        have hsame : (i / 4 = p ∧ i % 4 < l ∧ s.obj (Key.netState i) = 1) ↔ (i / 4 = p ∧ i % 4 < l + 1 ∧ s.obj (Key.netState i) = 1) := by omega
        simp only [hsame]
    next hother =>
      refine ⟨fun i hi => ?_, d, hform⟩
      rw [hobj i hi]
      by_cases hthis : i = 4 * p + l
      · subst hthis
        rw [hat] at hother
        rw [if_neg (by rintro ⟨-, -, h⟩; exact hother h), if_neg (by rintro ⟨-, -, h⟩; exact hother h)]
      · have hsame : (i / 4 = p ∧ i % 4 < l ∧ s.obj (Key.netState i) = 1) ↔ (i / 4 = p ∧ i % 4 < l + 1 ∧ s.obj (Key.netState i) = 1) := by omega
        simp only [hsame]

/-! ### Sending -/

/-- The one stream of an interface that can send is served, wherever the round robin stands. -/
theorem find_canSend {s : State} {i n : Nat} (hn : n < 256) (hcan : s.canSend i n = true) (honly : ∀ j < 256, s.canSend i j = true → j = n) (from' : Nat) :
    ((List.range 256).map fun j => (from' + j) % 256).find? (fun n => s.canSend i n) = some n := by
  cases hfind : ((List.range 256).map fun j => (from' + j) % 256).find? (fun n => s.canSend i n) with
  | none =>
    refine absurd hcan (List.find?_eq_none.mp hfind n (List.mem_map.mpr ⟨(n + 256 - from' % 256) % 256, List.mem_range.mpr (Nat.mod_lt _ (by decide)), ?_⟩))
    omega
  | some m =>
    obtain ⟨j, -, rfl⟩ := List.mem_map.mp (List.mem_of_find?_eq_some hfind)
    rw [honly _ (Nat.mod_lt _ (by decide)) (List.find?_some (p := fun n => s.canSend i n) hfind)]

theorem wireBytes_of_canSend {s : State} {i n : Nat} {p : VrtPacket} {rest : List VrtPacket} (hcan : s.canSend i n = true) (hqueue : (s.vrtStream n).queue = p :: rest) :
    3200 * s.wireBytes n p ≤ s.creditNow n := by
  unfold canSend at hcan
  rw [hqueue, Bool.and_eq_true] at hcan
  exact of_decide_eq_true hcan.2

/-- The sending of a packet whose Stream ID is the stream's only one. -/
theorem sendVrt_of_one {s : State} {i n : Nat} {p : VrtPacket} {rest : List VrtPacket} {d : VrtId} (hqueue : (s.vrtStream n).queue = p :: rest) (hids : (s.vrtStream n).ids = [d]) (hd : d.sid = p.sid) :
    ∃ x v, x.queue = rest ∧ x.ids = [{ d with count := (d.count + 1) % 16 }] ∧ x.credit = s.creditNow n - 3200 * s.wireBytes n p ∧
      s.sendVrt i n = (((s.putVrtStream n x).withNet v).bump (Key.vrtPackets n)).emit
        (.udp i (s.obj (Key.vrtDstMac n)) (beNat (natLE 16 (s.obj (Key.vrtDstIp n)))) (s.obj (Key.vrtDstUdp n)) (s.obj (Key.vrtSrcUdp n)) (s.packetBytes p d.count)) ∧
      v.streams = (s.putVrtStream n x).net.streams := by
  have hfind : [d].find? (fun d => d.sid == p.sid) = some d := List.find?_cons_of_pos (p := fun d : VrtId => d.sid == p.sid) (beq_iff_eq.mpr hd)
  have hmap : [d].map (fun d => if d.sid = p.sid then { d with count := (d.count + 1) % 16 } else d) = [{ d with count := (d.count + 1) % 16 }] := by
    rw [List.map_singleton, if_pos hd]
  unfold sendVrt
  dsimp only
  rw [hqueue]
  dsimp only
  rw [hids, hfind, hmap]
  exact ⟨_, _, rfl, rfl, rfl, rfl, rfl⟩

end State

open State

/-! ### The commands complete -/

theorem ethFrameRx_of_down {s : State} {i : Fin 8} (h : s.obj (Key.netState i.val) ≠ 2) (ok : Bool) (b : Bytes) : exec (.ethFrameRx i ok b) s = .next s := by
  rw [exec_ethFrameRx, execEthFrameRx]
  exact if_pos (.inl (by simpa [ifaceUp] using h))

theorem ethFrameRx_of_tag {s : State} {i : Fin 8} {b : Bytes} (h : s.tagAccepted i.val (ethFrame b) = false) (ok : Bool) : exec (.ethFrameRx i ok b) s = .next s := by
  rw [exec_ethFrameRx, execEthFrameRx]
  exact if_pos (.inr (by rw [h]; rfl))

theorem ethFrameRx_of_taken {s : State} {i : Fin 8} {b : Bytes} (hup : s.obj (Key.netState i.val) = 2) (htag : s.tagAccepted i.val (ethFrame b) = true) (ok : Bool) :
    exec (.ethFrameRx i ok b) s = if s.frameBad i.val ok b then .next (s.bump (Key.netRxDropped i.val)) else .next (s.acceptFrame i.val (ethFrame b)) := by
  rw [exec_ethFrameRx, execEthFrameRx]
  exact if_neg (by simp [ifaceUp, hup, htag])

theorem completes_arp {s : State} {i : Fin 8} (dst : Nat) {mac ip : Nat} {tail : Bytes} (hup : s.obj (Key.netState i.val) = 2) (hvlan : s.obj (Key.netVlan i.val) = 0)
    (hown : s.obj (Key.netIpv4 i.val) ≠ 0) (hlt : s.obj (Key.netIpv4 i.val) < 2 ^ 32) (hmac : mac < 2 ^ 48) (htail : tail.length = 18) (hmtu : 46 ≤ s.obj (Key.netMtu i.val)) :
    exec (.ethFrameRx i true (natBE 6 dst ++ natBE 6 mac ++ natBE 2 0x0806 ++ natBE 6 0x000108000604 ++ natBE 2 1 ++ natBE 6 mac ++ natBE 4 ip ++ zeros 6 ++ natBE 4 (s.obj (Key.netIpv4 i.val)) ++ tail)) s =
      .next (s.emit (.frame i.val (natBE 6 mac ++ natBE 6 (s.obj (Key.netMac i.val)) ++ natBE 2 0x0806 ++ natBE 6 0x000108000604 ++ natBE 2 2 ++
        natBE 6 (s.obj (Key.netMac i.val)) ++ natBE 4 (s.obj (Key.netIpv4 i.val)) ++ natBE 6 mac ++ natBE 4 ip ++ zeros 18))) := by
  have hlen : (arpRequest mac ip (s.obj (Key.netIpv4 i.val)) tail).length = 46 := by simp [arpRequest, htail]
  have hsplit : natBE 6 dst ++ natBE 6 mac ++ natBE 2 0x0806 ++ natBE 6 0x000108000604 ++ natBE 2 1 ++ natBE 6 mac ++ natBE 4 ip ++ zeros 6 ++ natBE 4 (s.obj (Key.netIpv4 i.val)) ++ tail =
      natBE 6 dst ++ (natBE 6 mac ++ (natBE 2 0x0806 ++ arpRequest mac ip (s.obj (Key.netIpv4 i.val)) tail)) := by
    simp only [arpRequest, List.append_assoc]
  have hframe := ethFrame_arp dst mac (arpRequest mac ip (s.obj (Key.netIpv4 i.val)) tail)
  rw [hsplit]
  generalize hb : natBE 6 dst ++ (natBE 6 mac ++ (natBE 2 0x0806 ++ arpRequest mac ip (s.obj (Key.netIpv4 i.val)) tail)) = b at hframe
  have hbad : s.frameBad i.val true b = false := by
    unfold frameBad
    rw [hframe]
    simp [ipUpper, hlen, hmtu]
  rw [ethFrameRx_of_taken hup (tagAccepted_untagged hvlan (by rw [hframe])), hbad, if_neg Bool.false_ne_true, acceptFrame, if_pos (by rw [hframe])]
  exact congrArg Host.Outcome.next (answerArp_arpRequest hmac hown hlt hvlan (congrArg EthFrame.body hframe))

theorem completes_netLinkUp (s : State) (p : Fin 2) :
    Completes (.netLinkUp p) s fun t => (∀ i < 8, t.obj (Key.netState i) = if i / 4 = p.val ∧ s.obj (Key.netState i) = 1 then 2 else s.obj (Key.netState i)) ∧ t = { s with dict := t.dict } := by
  obtain ⟨s1, hs1, hobj, d1, hform⟩ : ∃ s1, s1 = (if s.obj (Key.netMode p.val) = 0 then s else s.lockPll (20 + p.val)) ∧ (∀ i < 8, s1.obj (Key.netState i) = s.obj (Key.netState i)) ∧
      ∃ d, s1 = s.withDict d := by
    refine ⟨_, rfl, fun i hi => ?_, ?_⟩
    · split
      · rfl
      · rw [lockPll, obj_setObj, if_neg (by unfold Key.netState Key.lanepllState; omega)]
    · split
      · exact ⟨s.dict, rfl⟩
      · exact ⟨_, rfl⟩
  have hexec : exec (.netLinkUp p) s = .next ((List.range 4).foldl (fun y l => if y.obj (Key.netState (4 * p.val + l)) = 1 then y.setObj (Key.netState (4 * p.val + l)) 2 else y) s1) := by
    rw [hs1]
    rfl
  obtain ⟨hstates, d, hd⟩ := netLinkUp_spec s1 p.isLt 4 (Nat.le_refl 4)
  refine ⟨_, hexec, fun i hi => ?_, by rw [hd, hform]; rfl⟩
  rw [hstates i hi, hobj i hi]
  have hsame : (i / 4 = p.val ∧ i % 4 < 4 ∧ s.obj (Key.netState i) = 1) ↔ (i / 4 = p.val ∧ s.obj (Key.netState i) = 1) := by omega
  simp only [hsame]

theorem vrtPacketSend_of_none {s : State} {i : Fin 8} (h : ∀ n < 256, s.canSend i.val n = false) : exec (.vrtPacketSend i) s = .next s := by
  rw [exec_vrtPacketSend, execVrtPacketSend]
  dsimp only
  have hnone : ((List.range 256).map fun j => (tabGet 0 s.net.served i.val + j) % 256).find? (fun n => s.canSend i.val n) = none := by
    refine List.find?_eq_none.mpr fun n hn => ?_
    obtain ⟨j, -, rfl⟩ := List.mem_map.mp hn
    rw [h _ (Nat.mod_lt _ (by decide))]
    exact Bool.false_ne_true
  rw [hnone]
  exact ite_self _

theorem completes_vrtPacketSend {s : State} {i : Fin 8} {n : Nat} {p : VrtPacket} {rest : List VrtPacket} {d : VrtId} (hup : s.obj (Key.netState i.val) = 2) (hn : n < 256)
    (hcan : s.canSend i.val n = true) (honly : ∀ j < 256, s.canSend i.val j = true → j = n) (hqueue : (s.vrtStream n).queue = p :: rest) (hids : (s.vrtStream n).ids = [d]) (hd : d.sid = p.sid) :
    Completes (.vrtPacketSend i) s fun t => (t.vrtStream n).queue = rest ∧ (t.vrtStream n).ids = [{ d with count := (d.count + 1) % 16 }] ∧
      (t.vrtStream n).credit + 3200 * s.wireBytes n p = s.creditNow n ∧ t.obj (Key.vrtPackets n) = (s.obj (Key.vrtPackets n) + 1) % 2 ^ 64 ∧
      t.outbox = s.outbox ++ [.udp i.val (s.obj (Key.vrtDstMac n)) (beNat (natLE 16 (s.obj (Key.vrtDstIp n)))) (s.obj (Key.vrtDstUdp n)) (s.obj (Key.vrtSrcUdp n)) (s.packetBytes p d.count)] ∧
      (∀ j, j ≠ n → t.vrtStream j = s.vrtStream j) ∧ KeepsObjects [Key.vrtPackets n] s t := by
  have hexec : exec (.vrtPacketSend i) s = .next (s.sendVrt i.val n) := by
    rw [exec_vrtPacketSend, execVrtPacketSend]
    dsimp only
    rw [if_neg (by simp [ifaceUp, hup]), find_canSend hn hcan honly]
  have hcredit := wireBytes_of_canSend hcan hqueue
  obtain ⟨x, v, hxqueue, hxids, hxcredit, hform, hv⟩ := sendVrt_of_one (i := i.val) hqueue hids hd
  have hstream : ∀ j, (s.sendVrt i.val n).vrtStream j = if j = n then x else s.vrtStream j := by
    intro j
    rw [← vrtStream_putVrtStream, hform]
    exact congrArg (tabGet {} · j) hv
  refine ⟨_, hexec, ?_, ?_, ?_, ?_, by rw [hform]; rfl, fun j hj => (hstream j).trans (if_neg hj), fun k hk => ?_⟩
  · rw [hstream, if_pos rfl, hxqueue]
  · rw [hstream, if_pos rfl, hxids]
  · rw [hstream, if_pos rfl, hxcredit]
    exact Nat.sub_add_cancel hcredit
  · rw [hform, emit, obj_withOutbox, obj_bump, if_pos rfl, lenOf_vrtPackets hn]
    show (s.obj (Key.vrtPackets n) + 1) % 256 ^ 8 = _
    norm_num
  · rw [hform, emit, obj_withOutbox, obj_bump, if_neg (by simpa using hk)]
    rfl

theorem vrtContextPeriodic_of_early {s : State} {n : Fin 256} (h : s.wall < (s.vrtStream n.val).ctxAt + s.obj Key.vrtCtxInterval) : exec (.vrtContextPeriodic n) s = .next s := by
  rw [exec_vrtContextPeriodic, execVrtContextPeriodic]
  exact if_pos (.inr (.inr h))

theorem completes_vrtContextPeriodic {s : State} {n : Fin 256} {d : VrtId} {vs : List Nat} (hon : s.flag (Key.vrtEnable n.val) = true) (hctx : s.flag (Key.vrtCtx n.val) = true)
    (hdue : (s.vrtStream n.val).ctxAt + s.obj Key.vrtCtxInterval ≤ s.wall) (hids : (s.vrtStream n.val).ids = [d]) (hsent : d.sent = some vs)
    (hroom : State.queuedBytes (s.vrtStream n.val) + 76 ≤ 524288) :
    Completes (.vrtContextPeriodic n) s fun t => ∃ p : VrtPacket, p.sid = d.sid ∧ p.context = true ∧ p.k = d.last ∧ (t.vrtStream n.val).queue = (s.vrtStream n.val).queue ++ [p] ∧
      (t.vrtStream n.val).ctxAt = s.wall ∧ t = { s with net := t.net } := by
  have hknown : [d].filter (fun d => d.sent.isSome) = [d] := List.filter_cons_of_pos (by rw [hsent]; rfl)
  obtain ⟨x, hx, hqueue, hat⟩ : ∃ x, exec (.vrtContextPeriodic n) s = .next (s.putVrtStream n.val x) ∧
      x.queue = (s.vrtStream n.val).queue ++ [(s.contextPacket d vs (d.sid / 2 ^ 28 != 1) false d.last d.flags).1] ∧ x.ctxAt = s.wall := by
    rw [exec_vrtContextPeriodic, execVrtContextPeriodic]
    dsimp only
    rw [if_neg (by simp [hon, hctx, hdue]), hids, hknown, List.map_singleton, hsent, List.length_singleton, if_pos (decide_eq_true (show _ + 76 * 1 ≤ 524288 from hroom))]
    exact ⟨_, rfl, rfl, rfl⟩
  refine ⟨_, hx, (s.contextPacket d vs (d.sid / 2 ^ 28 != 1) false d.last d.flags).1, rfl, rfl, rfl, ?_, ?_, rfl⟩
  · rw [vrtStream_putVrtStream, if_pos rfl, hqueue]
  · rw [vrtStream_putVrtStream, if_pos rfl, hat]

theorem ptpPort_of_source {s : State} {p : Nat} (hp : p < 2) (h : s.obj Key.taiSource = p + 1) : s.ptpPort = some p := by
  unfold ptpPort
  rw [h]
  obtain rfl | rfl : p = 0 ∨ p = 1 := by omega
  · rfl
  · rfl

theorem ptpPort_ne {s : State} {p : Nat} (h : s.obj Key.taiSource ≠ p + 1) : s.ptpPort ≠ some p := by
  unfold ptpPort
  split
  next h1 =>
    rintro ⟨⟩
    exact h h1
  next =>
    split
    next h2 =>
      rintro ⟨⟩
      exact h h2
    next => exact nofun

theorem ptpEventRx_of_other {s : State} {p : Fin 2} (h : s.obj Key.taiSource ≠ p.val + 1) (m : PtpMsg) : exec (.ptpEventRx p m) s = .next s := by
  rw [exec_ptpEventRx, execPtpEventRx.eq_def]
  exact if_pos (ptpPort_ne h)

theorem announce_of_port {s : State} {p : Fin 2} (h : s.obj Key.taiSource = p.val + 1) (m : Nat) (best : Bool) :
    exec (.ptpEventRx p (.announce m best)) s = .next (if best then s.setObj Key.ptpMaster m else s) := by
  rw [exec_ptpEventRx, execPtpEventRx.eq_def]
  exact if_neg (not_not.mpr (ptpPort_of_source p.isLt h))

theorem sync_of_twoStep {s : State} {p : Fin 2} (h : s.obj Key.taiSource = p.val + 1) (m iv : Nat) (rx : KTime) :
    exec (.ptpEventRx p (.sync true m rx iv)) s = .next (s.withKs { s.ks with syncInterval := iv, syncRx := some (s.ptpStamp rx false) }) := by
  rw [exec_ptpEventRx, execPtpEventRx.eq_def]
  exact if_neg (not_not.mpr (ptpPort_of_source p.isLt h))

theorem followUp_of_none {s : State} {p : Fin 2} (h : s.obj Key.taiSource = p.val + 1) (hnone : s.ks.syncRx = none) (m : Nat) : exec (.ptpEventRx p (.followUp m)) s = .next s := by
  rw [exec_ptpEventRx, execPtpEventRx.eq_def, if_neg (not_not.mpr (ptpPort_of_source p.isLt h)), hnone]

theorem delayResp_of_both {s : State} {p : Fin 2} {t2 t3 : KTime} (h : s.obj Key.taiSource = p.val + 1) (ht2 : s.ks.syncRx = some t2) (ht3 : s.ks.delayReqAt = some t3) (m : Nat) :
    exec (.ptpEventRx p (.delayResp m)) s =
      .next ((s.withKs { s.ks with delayReqAt := none }).setObjI Key.ptpPath (((m : Int) - s.ks.syncTx - s.taiSpan t2 t3) / 2)) := by
  rw [exec_ptpEventRx, execPtpEventRx.eq_def, if_neg (not_not.mpr (ptpPort_of_source p.isLt h))]
  dsimp only
  rw [ht2, ht3]

theorem completes_delayResp {s : State} {p : Fin 2} {t2 t3 : KTime} (h : s.obj Key.taiSource = p.val + 1) (ht2 : s.ks.syncRx = some t2) (ht3 : s.ks.delayReqAt = some t3) (m : Nat) :
    Completes (.ptpEventRx p (.delayResp m)) s fun t => t.ks.delayReqAt = none ∧
      t.obj Key.ptpPath = ofSigned 64 (((m : Int) - s.ks.syncTx - ((t3 : Int) - t2) * 2500 * (1000000000000 + s.objI Key.taiRate) / (65536 * 1000000000000)) / 2) ∧
      KeepsObjects [Key.ptpPath] s t := by
  refine ⟨_, delayResp_of_both h ht2 ht3 m, rfl, ?_, fun k hk => ?_⟩
  · rw [obj_setObjI, if_pos rfl, lenOf_ptpPath]
    show ofSigned 64 _ % 256 ^ 8 = _
    rw [show (256 : Nat) ^ 8 = 2 ^ 64 by norm_num, ofSigned_mod]
    rfl
  · rw [obj_setObjI, if_neg (by simpa using hk)]
    rfl

theorem ptpDelayReq_of_none {s : State} (h1 : s.obj Key.taiSource ≠ 1) (h2 : s.obj Key.taiSource ≠ 2) : exec .ptpDelayReq s = .next s := by
  rw [exec_ptpDelayReq, execPtpDelayReq, ptpIface, ptpPort, if_neg h1, if_neg h2]
  rfl

theorem completes_ptpDelayReq {s : State} {p : Nat} (hp : p < 2) (h : s.obj Key.taiSource = p + 1) (hmode : s.obj (Key.netMode p) ≠ 3) (hup : s.obj (Key.netState (4 * p)) = 2) :
    Completes .ptpDelayReq s fun t => t.ks.delayReqAt = some (((s.time / 1024 * 1024 : Nat) : Int) - s.objI Key.ptpAsym).toNat ∧ t.net.ptpSeq = (s.net.ptpSeq + 1) % 65536 ∧
      t.outbox.length = s.outbox.length + 1 ∧ t.dict = s.dict ∧ t.net.streams = s.net.streams := by
  have hiface : s.ptpIface = some (4 * p) := by
    rw [ptpIface, ptpPort_of_source hp h, Option.map_some, if_neg hmode, Nat.add_zero]
  obtain ⟨e, hexec⟩ : ∃ e, exec .ptpDelayReq s =
      .next (((s.emit e).withKs { (s.emit e).ks with delayReqAt := some (s.ptpStamp s.time true) }).withNet { (s.emit e).net with ptpSeq := ((s.emit e).net.ptpSeq + 1) % 65536 }) := by
    rw [exec_ptpDelayReq, execPtpDelayReq, hiface]
    dsimp only
    rw [if_neg (by simp [ifaceUp, hup])]
    exact ⟨_, rfl⟩
  exact ⟨_, hexec, rfl, rfl, List.length_append, rfl, rfl⟩

/-- Settles O51: every command by the case of its `exec` that its conditions select; the bytes of a frame field by field, and the fold over the streams of an interface by the one that is on it. -/
theorem network : Obligations.Network := by
  unfold Obligations.Network
  refine ⟨⟨?_, ?_, ?_, ?_, ?_, ?_, ?_, ?_, ?_⟩, ⟨?_, ?_, ?_, ?_, ?_⟩, ?_, ?_, ?_, ?_, ?_, ?_, ?_⟩
  · exact fun s i ok b hdown => ethFrameRx_of_down hdown ok b
  · intro s i b hup hvlan htag
    rw [ethFrameRx_of_taken hup (tagAccepted_untagged hvlan htag)]
    exact if_pos rfl
  · intro s i b hup hvlan htag hmtu
    rw [ethFrameRx_of_taken hup (tagAccepted_untagged hvlan htag)]
    exact if_pos (by simp [frameBad, hmtu])
  · intro s i ok b v hvlan htag
    exact ethFrameRx_of_tag (by simp [tagAccepted, htag, hvlan]) ok
  · intro s i ok b hvlan htag
    refine ethFrameRx_of_tag ?_ ok
    unfold tagAccepted
    split
    next => exact beq_eq_false_iff_ne.mpr hvlan
    next v hv => rw [beq_eq_false_iff_ne.mpr (fun h => htag (hv.trans (congrArg some h))), Bool.and_false]
  · intro s i dst mac ip tail hup hvlan hown hlt hmac hip htail hmtu
    exact ⟨_, completes_arp dst hup hvlan hown hlt hmac htail hmtu, rfl, rfl⟩
  · exact completes_netLinkUp
  · intro s i hdown
    rw [exec_netLinkLoss, execNetLinkLoss]
    exact if_neg (by simpa [ifaceUp] using hdown)
  · intro s i n hup hn hothers hone
    have hexec : exec (.netLinkLoss i) s = .next (s.restartIface i.val) := by
      rw [exec_netLinkLoss, execNetLinkLoss]
      exact if_pos (by simpa [ifaceUp] using hup)
    obtain ⟨hqueue, hstreams, hdropped, hkeep⟩ := restartIface_of_one i.isLt hup hn hothers hone
    exact ⟨_, hexec, (netState_restartIface s i.isLt).1, hqueue, hdropped, hstreams, hkeep⟩
  · intro s i hdown
    rw [exec_vrtPacketSend, execVrtPacketSend]
    exact if_pos (by simpa [ifaceUp] using hdown)
  · exact fun s i hnone => vrtPacketSend_of_none hnone
  · exact fun s i n p rest d hup hn hcan honly hqueue hids hd => completes_vrtPacketSend hup hn hcan honly hqueue hids hd
  · exact fun s n hearly => vrtContextPeriodic_of_early hearly
  · exact fun s n d vs hon hctx hdue hids hsent hroom => completes_vrtContextPeriodic hon hctx hdue hids hsent hroom
  · exact fun s p m hother => ptpEventRx_of_other hother m
  · exact fun s p m hport => ⟨announce_of_port hport m true, announce_of_port hport m false⟩
  · exact fun s p m iv rx hport _ => ⟨_, sync_of_twoStep hport m iv rx, rfl, rfl, rfl⟩
  · exact fun s p m hport hnone => followUp_of_none hport hnone m
  · exact fun s p m t2 t3 hport ht2 ht3 => completes_delayResp hport ht2 ht3 m
  · exact fun s h1 h2 => ptpDelayReq_of_none h1 h2
  · exact fun s p hp hport hmode hup => completes_ptpDelayReq hp hport hmode hup

end Sys2Proof.Machine
end

section
/-! Delivery in order over the truss, and what delivered packets do (15 R407 to R421). -/

namespace Sys2Proof.Machine

/-! ### Packets -/

theorem crc32_lt (b : Bytes) : crc32 b < 2 ^ 32 := BitVec.isLt _

/-- Bytes followed by their CRC-32 pass its check. -/
theorem crc32_checked (body : Bytes) :
    (decide (4 ≤ (body ++ natBE 4 (crc32 body)).length) && crc32 ((body ++ natBE 4 (crc32 body)).take ((body ++ natBE 4 (crc32 body)).length - 4)) ==
      beNat ((body ++ natBE 4 (crc32 body)).drop ((body ++ natBE 4 (crc32 body)).length - 4))) = true := by
  have hlen : (body ++ natBE 4 (crc32 body)).length = body.length + 4 := by simp
  rw [hlen, Nat.add_sub_cancel, List.take_left' rfl, List.drop_left' rfl, beNat_natBE, Nat.mod_eq_of_lt (show crc32 body < 256 ^ 4 from crc32_lt body)]
  simp

theorem packetOk_messageBytes {c : Nat} (hc : c ≠ 2) (n : Nat) (content : Bytes) : State.packetOk c (messageBytes n content) = true := by
  unfold State.packetOk
  rw [if_neg hc]
  exact crc32_checked _

theorem packetOk_dataBytes (dest origin kind : Nat) (last : Bool) (id offset : Nat) (body : Bytes) : State.packetOk 2 (dataBytes dest origin kind last id offset body) = true := by
  unfold State.packetOk dataBytes
  dsimp only
  rw [if_pos rfl, List.append_assoc, List.drop_left' (length_natBE 2 dest)]
  exact crc32_checked _

theorem messageBytes_eq (n : Nat) (content : Bytes) : ∃ tail, messageBytes n content = content ++ tail :=
  ⟨_, List.append_assoc ..⟩

theorem beAt_messageBytes {content : Bytes} {off m : Nat} (h : off + m ≤ content.length) (n : Nat) : beAt (messageBytes n content) off m = beAt content off m := by
  obtain ⟨tail, ht⟩ := messageBytes_eq n content
  rw [ht, beAt_append_left h]

/-- One byte after another is a field of its own. -/
theorem beAt_cons_natBE {n v off m : Nat} (h : n ≤ off) (c : Bytes) : beAt (natBE n v ++ c) off m = beAt c (off - n) m := by
  rw [beAt_append_of_le (by rw [length_natBE]; exact h), length_natBE]

theorem beAt_first {n v : Nat} (h : v < 256 ^ n) (c : Bytes) : beAt (natBE n v ++ c) 0 n = v := by
  rw [beAt_natBE_append, Nat.mod_eq_of_lt h]

theorem beAt_only {n v : Nat} (h : v < 256 ^ n) : beAt (natBE n v) 0 n = v := by
  rw [beAt_natBE, Nat.mod_eq_of_lt h]

/-- The fields of an acknowledgement. -/
theorem beAt_ack {kind c seq : Nat} (hkind : kind < 256) (hc : c < 256) (hseq : seq < 256) :
    let b := messageBytes 2 (natBE 1 kind ++ natBE 1 c ++ natBE 1 seq)
    beAt b 0 1 = kind ∧ beAt b 1 1 = c ∧ beAt b 2 1 = seq := by
  have hlen : (natBE 1 kind ++ natBE 1 c ++ natBE 1 seq).length = 3 := by simp
  refine ⟨?_, ?_, ?_⟩
  · rw [beAt_messageBytes (by omega), List.append_assoc, beAt_first (by omega)]
  · rw [beAt_messageBytes (by omega), List.append_assoc, beAt_cons_natBE (by omega), beAt_first (by omega)]
  · rw [beAt_messageBytes (by omega), List.append_assoc, beAt_cons_natBE (by omega), beAt_cons_natBE (by omega), beAt_only (by omega)]

namespace State

/-! ### The kept packets of a class -/

theorem trussClass_putTrussClass_same (s : State) (p c : Nat) (x : TrussClass) : (s.putTrussClass p c x).trussClass p c = x := by
  unfold trussClass putTrussClass
  rw [trussPort_putTrussPort, if_pos rfl, tabGet_tabSet_self]

theorem trussPump_of_nothing {s : State} {p c : Nat} (h : (s.trussClass p c).waiting = []) (n : Nat) : s.trussPump p c n = s := by
  cases n with
  | zero => rfl
  | succ n =>
    unfold trussPump
    dsimp only
    rw [h]

/-- The packets after the acknowledged one stay. -/
theorem trussAcked_of_kept {s : State} {p c : Nat} {l1 l2 : List TrussKept} {k : TrussKept} (hkept : (s.trussClass p c).kept = l1 ++ k :: l2) (hbefore : ∀ x ∈ l1, x.seq ≠ k.seq)
    (hwaiting : (s.trussClass p c).waiting = []) : s.trussAcked p c k.seq = s.putTrussClass p c { s.trussClass p c with kept := l2, ackAt := s.wall } := by
  have hany : (s.trussClass p c).kept.any (fun x => x.seq == k.seq) = true := by rw [hkept]; simp
  have hdrop : ((s.trussClass p c).kept.dropWhile fun x => x.seq != k.seq).drop 1 = l2 := by
    rw [hkept, List.dropWhile_append_of_pos fun x hx => bne_iff_ne.mpr (hbefore x hx), List.dropWhile_cons_of_neg (by simp)]
    rfl
  unfold trussAcked
  dsimp only
  rw [if_neg (by rw [hany]; exact Bool.false_ne_true), hdrop]
  exact trussPump_of_nothing (by rw [trussClass_putTrussClass_same]; exact hwaiting) 64

theorem foldl_emit {α : Type} (f : α → Emission) (l : List α) (s : State) : l.foldl (fun y k => y.emit (f k)) s = s.withOutbox (s.outbox ++ l.map f) := by
  induction l generalizing s with
  | nil => exact congrArg s.withOutbox (List.append_nil _).symm
  | cons k l ih =>
    rw [List.foldl_cons, ih]
    exact congrArg s.withOutbox (List.append_assoc ..)

/-- Every kept packet goes out again, is counted and stays kept. -/
theorem trussResend_spec (s : State) {p : Nat} (hp : p < 4) (c : Nat) :
    (s.trussResend p c).outbox = s.outbox ++ (s.trussClass p c).kept.map (fun x => .truss p c x.seq x.packet) ∧ (s.trussResend p c).trussClass p c = { s.trussClass p c with ackAt := s.wall } ∧
      (s.trussResend p c).obj (Key.trussReplays p) = (s.obj (Key.trussReplays p) + (s.trussClass p c).kept.length) % 2 ^ 64 ∧ KeepsObjects [Key.trussReplays p] s (s.trussResend p c) := by
  unfold trussResend
  dsimp only
  rw [foldl_emit]
  refine ⟨rfl, trussClass_putTrussClass_same .., ?_, fun x hx => ?_⟩
  · rw [obj_addObj, if_pos rfl, lenOf_trussReplays p hp]
    show (s.obj (Key.trussReplays p) + _) % 256 ^ 8 = _
    norm_num
  · rw [obj_addObj, if_neg (by simpa using hx)]
    rfl

/-! ### Packets that travel on -/

/-- A change of the packets of ports other than one. -/
def SendsElsewhere (p : Nat) (s t : State) : Prop := OnlyPackets s t ∧ t.trussPort p = s.trussPort p

theorem SendsElsewhere.trans {p : Nat} {s t u : State} (h : SendsElsewhere p s t) (h' : SendsElsewhere p t u) : SendsElsewhere p s u := ⟨h.1.trans h'.1, h'.2.trans h.2⟩

theorem sendsElsewhere_putTrussPort (s : State) {p q : Nat} (h : q ≠ p) (x : TrussPort) : SendsElsewhere p s (s.putTrussPort q x) :=
  ⟨onlyPackets_putTrussPort .., by rw [trussPort_putTrussPort, if_neg h.symm]⟩

theorem sendsElsewhere_trussPump (s : State) {p q : Nat} (h : q ≠ p) (c n : Nat) : SendsElsewhere p s (s.trussPump q c n) := by
  induction n generalizing s with
  | zero => exact ⟨.refl s, rfl⟩
  | succ n ih =>
    unfold trussPump
    extract_lets x
    split
    next => exact ⟨.refl s, rfl⟩
    next =>
      extract_lets s1
      split
      · exact ⟨.refl s, rfl⟩
      · exact ((sendsElsewhere_putTrussPort s h _).trans ⟨onlyPackets_emit .., rfl⟩).trans (ih _)

theorem sendsElsewhere_trussSend (s : State) {p q : Nat} (h : q ≠ p) (c : Nat) (b : Bytes) : SendsElsewhere p s (s.trussSend q c b) := by
  unfold trussSend
  extract_lets x y s1
  split
  · exact sendsElsewhere_putTrussPort s h _
  · split
    · exact ⟨.refl s, rfl⟩
    · have h1 : SendsElsewhere p s s1 := by
        simp only [s1]
        split
        · exact sendsElsewhere_putTrussPort s h _
        · exact ⟨.refl s, rfl⟩
      exact (h1.trans (sendsElsewhere_putTrussPort s1 h _)).trans (sendsElsewhere_trussPump _ h c 64)

theorem sendsElsewhere_broadcastOn {s : State} {p : Nat} {system : Bool} {origin : Nat} (h : (s.broadcastPorts system origin (some p)).all (· != p) = true) (c : Nat) (b : Bytes) :
    SendsElsewhere p s (s.broadcastOn p c system origin b) := by
  unfold broadcastOn
  generalize s.broadcastPorts system origin (some p) = l at *
  induction l generalizing s with
  | nil => exact ⟨.refl s, rfl⟩
  | cons q l ih =>
    rw [List.all_cons, Bool.and_eq_true] at h
    exact (sendsElsewhere_trussSend s (bne_iff_ne.mp h.1) c b).trans (ih h.2)

/-! ### Acceptance -/

/-- A packet that is the next of its class has been taken and acknowledged. -/
def taken (s : State) (p c : Nat) (q : BitVec 8) : State := (s.putTrussClass p c { s.trussClass p c with delivered := q.toNat }).sendAck p 0x10 c q.toNat

theorem onlyPackets_taken (s : State) (p c : Nat) (q : BitVec 8) : OnlyPackets s (s.taken p c q) := (onlyPackets_putTrussClass ..).trans (onlyPackets_emit ..)

theorem delivered_taken (s : State) (p c : Nat) (q : BitVec 8) : ((s.taken p c q).trussClass p c).delivered = q.toNat :=
  congrArg TrussClass.delivered (trussClass_putTrussClass_same s p c _)

end State

open State

/-- What the answer to a packet rests on. -/
theorem execTrussPacketRx_of_up {s : State} {p : Fin 4} (hup : s.trussUp p.val = true) (c : Fin 3) (q : BitVec 8) {b : Bytes}
    (hkind : ¬(c.val = 1 ∧ State.packetOk c.val b ∧ (beAt b 0 1 = 0x10 ∨ beAt b 0 1 = 0x11))) :
    exec (.trussPacketRx p c q b) s = if !State.packetOk c.val b ∨ q.toNat ≠ ((s.trussClass p.val c.val).delivered + 1) % 256 then
      .next (s.sendAck p.val 0x11 c.val (s.trussClass p.val c.val).delivered) else
      .next (if c.val = 0 then (s.taken p.val c.val q).deliverTrigger p.val b else if c.val = 1 then (s.taken p.val c.val q).deliverControl p.val b else (s.taken p.val c.val q).deliverData p.val b) := by
  rw [exec_trussPacketRx, execTrussPacketRx]
  dsimp only
  rw [if_neg (by simp [hup]), if_neg hkind]
  rfl

theorem trussPacketRx_nak {s : State} {p : Fin 4} {c : Fin 3} {q : BitVec 8} {b : Bytes} (hup : s.trussUp p.val = true) (hc : c.val ≠ 1)
    (hbad : State.packetOk c.val b = false ∨ q.toNat ≠ ((s.trussClass p.val c.val).delivered + 1) % 256) :
    exec (.trussPacketRx p c q b) s = .next (s.emit (.truss p.val 1 0 (messageBytes 2 (natBE 1 0x11 ++ natBE 1 c.val ++ natBE 1 (s.trussClass p.val c.val).delivered)))) := by
  rw [execTrussPacketRx_of_up hup c q fun h => hc h.1]
  exact if_pos (hbad.imp_left fun h => by rw [h]; rfl)

theorem trussPacketRx_of_down {s : State} {p : Fin 4} (h : s.obj (Key.trussState p.val) ∉ [1, 2, 3]) (c : Fin 3) (q : BitVec 8) (b : Bytes) : exec (.trussPacketRx p c q b) s = .next s := by
  simp only [List.mem_cons, List.not_mem_nil, or_false, not_or] at h
  obtain ⟨h1, h2, h3⟩ := h
  rw [exec_trussPacketRx, execTrussPacketRx]
  exact if_pos (by simp [trussUp, h1, h2, h3])

/-- An acknowledgement reaches a port in service. -/
theorem trussPacketRx_ack {s : State} {p : Fin 4} (hup : s.trussUp p.val = true) {kind seq : Nat} (hkind : kind = 0x10 ∨ kind = 0x11) (c : Fin 3) (hseq : seq < 256) (q : BitVec 8) :
    exec (.trussPacketRx p 1 q (messageBytes 2 (natBE 1 kind ++ natBE 1 c.val ++ natBE 1 seq))) s =
      .next (if kind = 0x11 then (s.trussAcked p.val c.val seq).trussResend p.val c.val else s.trussAcked p.val c.val seq) := by
  obtain ⟨h0, h1, h2⟩ := beAt_ack (show kind < 256 by omega) (show c.val < 256 by omega) hseq
  have hc : c.val % 3 = c.val := Nat.mod_eq_of_lt c.isLt
  rw [exec_trussPacketRx, execTrussPacketRx]
  dsimp only
  rw [if_neg (by simp [hup]), h0, h1, h2, hc]
  exact if_pos ⟨rfl, packetOk_messageBytes (by decide) 2 _, hkind⟩

/-- A packet that is the next of its class is delivered. -/
theorem trussPacketRx_next {s : State} {p : Fin 4} {c : Fin 3} {q : BitVec 8} {b : Bytes} (hup : s.trussUp p.val = true) (hok : State.packetOk c.val b = true)
    (hkind : c.val = 1 → beAt b 0 1 ≠ 0x10 ∧ beAt b 0 1 ≠ 0x11) (hseq : q.toNat = ((s.trussClass p.val c.val).delivered + 1) % 256) :
    exec (.trussPacketRx p c q b) s =
      .next (if c.val = 0 then (s.taken p.val c.val q).deliverTrigger p.val b else if c.val = 1 then (s.taken p.val c.val q).deliverControl p.val b else (s.taken p.val c.val q).deliverData p.val b) := by
  rw [execTrussPacketRx_of_up hup c q fun h => h.2.2.elim (hkind h.1).1 (hkind h.1).2]
  exact if_neg (by rintro (h | h); exacts [by simp [hok] at h, h hseq])


/-! ### What delivered packets hold -/

/-- The fields of an event on a trigger channel. -/
theorem event_fields {c : Nat} {ev : Bytes} (hc : c < 64) (hev : ev.length = 32) :
    let b := messageBytes 7 (natBE 1 1 ++ natBE 1 0 ++ natBE 2 0 ++ natBE 1 c ++ ev)
    beAt b 0 1 = 1 ∧ beAt b 1 1 = 0 ∧ beAt b 2 2 = 0 ∧ beAt b 4 1 = c ∧ (b.drop 5).take 32 = ev := by
  have hassoc : natBE 1 1 ++ natBE 1 0 ++ natBE 2 0 ++ natBE 1 c ++ ev = natBE 1 1 ++ (natBE 1 0 ++ (natBE 2 0 ++ (natBE 1 c ++ ev))) := by simp only [List.append_assoc]
  have hlen : (natBE 1 1 ++ (natBE 1 0 ++ (natBE 2 0 ++ (natBE 1 c ++ ev)))).length = 37 := by simp [hev]
  rw [hassoc]
  refine ⟨?_, ?_, ?_, ?_, ?_⟩
  · rw [beAt_messageBytes (by omega), beAt_first (by omega)]
  · rw [beAt_messageBytes (by omega), beAt_cons_natBE (by omega), beAt_first (by omega)]
  · rw [beAt_messageBytes (by omega), beAt_cons_natBE (by omega), beAt_cons_natBE (by omega), beAt_first (by omega)]
  · rw [beAt_messageBytes (by omega), beAt_cons_natBE (by omega), beAt_cons_natBE (by omega), beAt_cons_natBE (by omega), beAt_first (by omega)]
  · obtain ⟨tail, ht⟩ := messageBytes_eq 7 (natBE 1 1 ++ (natBE 1 0 ++ (natBE 2 0 ++ (natBE 1 c ++ ev))))
    have hsplit : natBE 1 1 ++ (natBE 1 0 ++ (natBE 2 0 ++ (natBE 1 c ++ ev))) ++ tail = (natBE 1 1 ++ (natBE 1 0 ++ (natBE 2 0 ++ natBE 1 c))) ++ (ev ++ tail) := by
      simp only [List.append_assoc]
    rw [ht, hsplit, List.drop_left' (by simp), List.take_left' hev]

/-- The fields of a SYNC. -/
theorem sync_fields {ts : KTime} (hts : ts < 2 ^ 80) :
    let b := messageBytes 4 (natBE 1 3 ++ natBE 1 1 ++ natBE 2 0 ++ natBE 10 ts)
    beAt b 0 1 = 3 ∧ beAt b 1 1 = 1 ∧ beAt b 2 2 = 0 ∧ beAt b 4 8 * tick + beAt b 12 2 = ts := by
  obtain ⟨tail, ht⟩ := messageBytes_eq 4 (natBE 1 3 ++ natBE 1 1 ++ natBE 2 0 ++ natBE 10 ts)
  rw [ht]
  simp only [List.append_assoc]
  refine ⟨?_, ?_, ?_, ?_⟩
  · rw [beAt_first (by omega)]
  · rw [beAt_cons_natBE (by omega), beAt_first (by omega)]
  · rw [beAt_cons_natBE (by omega), beAt_cons_natBE (by omega), beAt_first (by omega)]
  · have hticks : beAt (natBE 1 3 ++ (natBE 1 1 ++ (natBE 2 0 ++ (natBE 10 ts ++ tail)))) 4 8 = beAt (natBE 10 ts ++ tail) 0 8 := by
      rw [beAt_cons_natBE (by omega), beAt_cons_natBE (by omega), beAt_cons_natBE (by omega)]
    have hrest : beAt (natBE 1 3 ++ (natBE 1 1 ++ (natBE 2 0 ++ (natBE 10 ts ++ tail)))) 12 2 = beAt (natBE 10 ts ++ tail) 8 2 := by
      rw [beAt_cons_natBE (by omega), beAt_cons_natBE (by omega), beAt_cons_natBE (by omega)]
    rw [hticks, hrest]
    exact beAt_time ts tail hts

/-- The fields of a LANE. -/
theorem lane_fields {l : Nat} (hl : l < 5) :
    let b := messageBytes 2 (natBE 1 0x13 ++ natBE 1 l)
    beAt b 0 1 = 0x13 ∧ beAt b 1 1 = l := by
  have hlen : (natBE 1 0x13 ++ natBE 1 l).length = 2 := by simp
  constructor
  · rw [beAt_messageBytes (by omega), beAt_first (by omega)]
  · rw [beAt_messageBytes (by omega), beAt_cons_natBE (by omega), beAt_only (by omega)]

/-- The payload of a data packet whose part fills its blocks. -/
def dataPayload (origin kind : Nat) (last : Bool) (id offset : Nat) (part : Bytes) : Bytes :=
  natBE 2 origin ++ (natBE 1 kind ++ (natBE 1 (b2n last) ++ (natBE 4 id ++ (natBE 4 offset ++ (zeros 4 ++ part)))))

theorem dataBytes_of_full {part : Bytes} (h : part.length % 8 = 4) (dest origin kind : Nat) (last : Bool) (id offset : Nat) :
    dataBytes dest origin kind last id offset part =
      natBE 2 dest ++ (dataPayload origin kind last id offset part ++ natBE 4 (crc32 (dataPayload origin kind last id offset part))) := by
  have hhead : natBE 2 origin ++ natBE 1 kind ++ natBE 1 (b2n last) ++ natBE 4 id ++ natBE 4 offset ++ zeros 4 ++ part = dataPayload origin kind last id offset part := by
    simp only [dataPayload, List.append_assoc]
  have hlen : (dataPayload origin kind last id offset part).length = 16 + part.length := by simp [dataPayload]; omega
  have htotal : max 16 (cdiv (16 + part.length + 4) 8 * 8) - 4 - (16 + part.length) = 0 := by
    unfold cdiv
    omega
  unfold dataBytes padTo
  dsimp only
  rw [hhead, hlen, htotal, List.append_assoc]
  simp [zeros]

theorem dataPayload_fields {origin kind id offset : Nat} (horigin : origin < 2 ^ 16) (hkind : kind < 256) (hid : id < 2 ^ 32) (hoffset : offset < 2 ^ 32) (last : Bool) (part tail : Bytes) :
    let b := dataPayload origin kind last id offset part ++ tail
    beAt b 0 2 = origin ∧ beAt b 2 1 = kind ∧ beAt b 3 1 = b2n last ∧ beAt b 4 4 = id ∧ beAt b 8 4 = offset ∧ b.drop 16 = part ++ tail := by
  have hlast : b2n last < 256 := by cases last <;> decide
  unfold dataPayload
  simp only [List.append_assoc]
  refine ⟨?_, ?_, ?_, ?_, ?_, ?_⟩
  · rw [beAt_first (by omega)]
  · rw [beAt_cons_natBE (by omega), beAt_first (by omega)]
  · rw [beAt_cons_natBE (by omega), beAt_cons_natBE (by omega), beAt_first (by omega)]
  · rw [beAt_cons_natBE (by omega), beAt_cons_natBE (by omega), beAt_cons_natBE (by omega), beAt_first (by omega)]
  · rw [beAt_cons_natBE (by omega), beAt_cons_natBE (by omega), beAt_cons_natBE (by omega), beAt_cons_natBE (by omega), beAt_first (by omega)]
  · have hsplit : natBE 2 origin ++ (natBE 1 kind ++ (natBE 1 (b2n last) ++ (natBE 4 id ++ (natBE 4 offset ++ (zeros 4 ++ (part ++ tail)))))) =
        (natBE 2 origin ++ (natBE 1 kind ++ (natBE 1 (b2n last) ++ (natBE 4 id ++ (natBE 4 offset ++ zeros 4))))) ++ (part ++ tail) := by simp only [List.append_assoc]
    rw [hsplit, List.drop_left' (by simp)]

/-! ### What delivered packets do -/

/-- A trigger packet that has travelled on, at a port that does not send it back. -/
theorem travelled {s : State} {p : Nat} {system : Bool} (q : BitVec 8) (h : (s.broadcastPorts system 0 (some p)).all (· != p) = true) (b : Bytes) :
    OnlyPackets s ((s.taken p 0 q).broadcastOn p 0 system 0 b) ∧ (((s.taken p 0 q).broadcastOn p 0 system 0 b).trussClass p 0).delivered = q.toNat := by
  have htaken := onlyPackets_taken s p 0 q
  have hports : ((s.taken p 0 q).broadcastPorts system 0 (some p)).all (· != p) = true := by
    obtain ⟨x, o, hform⟩ := htaken
    rw [hform]
    exact h
  obtain ⟨hsends, hport⟩ := sendsElsewhere_broadcastOn hports 0 b
  refine ⟨htaken.trans hsends, ?_⟩
  unfold trussClass
  rw [hport]
  exact delivered_taken s p 0 q

theorem completes_foreignEvent {s : State} {p : Fin 4} {q : BitVec 8} {c : Nat} {ev : Bytes} (hup : s.trussUp p.val = true) (hports : (s.broadcastPorts false 0 (some p.val)).all (· != p.val) = true)
    (hc : c < 64) (hev : ev.length = 32) (hseq : q.toNat = ((s.trussClass p.val 0).delivered + 1) % 256) (hforeign : s.objAt (Key.rtrigFrom c) (State.eventOf ev).time ≠ 0) :
    Completes (.trussPacketRx p 0 q (messageBytes 7 (natBE 1 1 ++ natBE 1 0 ++ natBE 2 0 ++ natBE 1 c ++ ev))) s fun t =>
      t.obj (Key.rtrigForeign c) = (s.obj (Key.rtrigForeign c) + 1) % 2 ^ 64 ∧ (t.trussClass p.val 0).delivered = q.toNat ∧ t.trig = s.trig := by
  obtain ⟨h0, h1, h2, h4, hdata⟩ := event_fields hc hev
  have hok : State.packetOk 0 (messageBytes 7 (natBE 1 1 ++ natBE 1 0 ++ natBE 2 0 ++ natBE 1 c ++ ev)) = true := packetOk_messageBytes (by decide) 7 _
  generalize messageBytes 7 (natBE 1 1 ++ natBE 1 0 ++ natBE 2 0 ++ natBE 1 c ++ ev) = b at *
  obtain ⟨⟨x, o, hform⟩, hdelivered⟩ := travelled q hports b
  have hexec : exec (.trussPacketRx p 0 q b) s = .next (((s.taken p.val 0 q).broadcastOn p.val 0 false 0 b).bump (Key.rtrigForeign c)) := by
    rw [trussPacketRx_next hup hok (fun h => absurd h (by decide)) hseq]
    refine congrArg Host.Outcome.next ((if_pos rfl).trans ?_)
    unfold deliverTrigger
    dsimp only
    rw [h0, h1, h2, h4, hdata]
    rw [show ((0 : Nat) == 1) = false from rfl, show ((0 : Fin 3) : Nat) = 0 from rfl, hform, if_neg (fun h => hforeign h.2), if_pos hc]
    rfl
  refine ⟨_, hexec, ?_, hdelivered, by rw [hform]; rfl⟩
  rw [obj_bump, if_pos rfl, lenOf_rtrigForeign c hc, hform]
  show (s.obj (Key.rtrigForeign c) + 1) % 256 ^ 8 = _
  norm_num

/-- A SYNC reaches a device that takes it. -/
theorem trussPacketRx_sync {s : State} {p : Fin 4} {q : BitVec 8} {ts : KTime} (hup : s.trussUp p.val = true) (hports : (s.broadcastPorts true 0 (some p.val)).all (· != p.val) = true)
    (hts : ts < 2 ^ 80) (hseq : q.toNat = ((s.trussClass p.val 0).delivered + 1) % 256) (haccept : s.flag Key.spanSyncAccept = true) :
    ∃ u : State, OnlyPackets s u ∧ (u.trussClass p.val 0).delivered = q.toNat ∧
      exec (.trussPacketRx p 0 q (messageBytes 4 (natBE 1 3 ++ natBE 1 1 ++ natBE 2 0 ++ natBE 10 ts))) s =
        .next (if s.time + 16 * tick ≤ ts then u.scheduleReset ts else u.bump Key.spanSyncLate) := by
  obtain ⟨h0, h1, h2, htime⟩ := sync_fields hts
  have hok : State.packetOk 0 (messageBytes 4 (natBE 1 3 ++ natBE 1 1 ++ natBE 2 0 ++ natBE 10 ts)) = true := packetOk_messageBytes (by decide) 4 _
  generalize messageBytes 4 (natBE 1 3 ++ natBE 1 1 ++ natBE 2 0 ++ natBE 10 ts) = b at *
  obtain ⟨hpackets, hdelivered⟩ := travelled q hports b
  refine ⟨_, hpackets, hdelivered, ?_⟩
  obtain ⟨x, o, hform⟩ := hpackets
  rw [trussPacketRx_next hup hok (fun h => absurd h (by decide)) hseq]
  refine congrArg Host.Outcome.next ((if_pos rfl).trans ?_)
  unfold deliverTrigger
  dsimp only
  rw [h0, h1, h2, htime]
  rw [show ((1 : Nat) == 1) = true from rfl, show ((0 : Fin 3) : Nat) = 0 from rfl, hform]
  exact if_neg (by rw [show ((s.withSpan x).withOutbox o).flag Key.spanSyncAccept = s.flag Key.spanSyncAccept from rfl, haccept]; exact Bool.false_ne_true)

theorem scheduleReset_spec (s : State) (ts : KTime) : (∃ r ∈ (s.scheduleReset ts).fes.resets, r.1 = ts) ∧ (s.scheduleReset ts).dict = s.dict ∧ (s.scheduleReset ts).span = s.span := by
  unfold scheduleReset
  split
  next h =>
    obtain ⟨r, hr, hrt⟩ := List.any_eq_true.mp h
    exact ⟨⟨r, hr, beq_iff_eq.mp hrt⟩, rfl, rfl⟩
  next => exact ⟨⟨(ts, false), List.mem_append_right _ (List.mem_singleton_self _), rfl⟩, rfl, rfl⟩

theorem completes_lane {s : State} {p : Fin 4} {q : BitVec 8} {l : Nat} (hup : s.trussUp p.val = true) (hl : l < 5) (hseq : q.toNat = ((s.trussClass p.val 1).delivered + 1) % 256)
    (hin : s.laneIn p.val l = true) :
    Completes (.trussPacketRx p 1 q (messageBytes 2 (natBE 1 0x13 ++ natBE 1 l))) s fun t =>
      t.laneState p.val l = 4 ∧ t.obj (Key.trussFailovers p.val) = (s.obj (Key.trussFailovers p.val) + 1) % 2 ^ 32 := by
  obtain ⟨h0, h1⟩ := lane_fields hl
  have hok : State.packetOk 1 (messageBytes 2 (natBE 1 0x13 ++ natBE 1 l)) = true := packetOk_messageBytes (by decide) 2 _
  generalize messageBytes 2 (natBE 1 0x13 ++ natBE 1 l) = b at *
  have hexec : exec (.trussPacketRx p 1 q b) s = .next ((s.taken p.val 1 q).retireLane p.val l false) := by
    rw [trussPacketRx_next hup hok (fun _ => by rw [h0]; decide) hseq]
    refine congrArg Host.Outcome.next (((if_neg (by decide)).trans (if_pos rfl)).trans ?_)
    unfold deliverControl
    rw [h0]
    dsimp only
    rw [h1]
    rfl
  have hsame : ∀ k, (s.taken p.val 1 q).obj k = s.obj k := fun _ => rfl
  have hretired := retireLane_spec p.isLt hl ((laneIn_of_obj (hsame _) l).trans hin) false
  exact ⟨_, hexec, hretired.laneState, hretired.failovers⟩

/-- The request that the truss brings. -/
def trussRequest (s : State) (o id role op : Nat) (body : Bytes) : PpRequest :=
  { session := 0, origin := some (o, id), role := role, op := op, last := false, at' := s.time, body := body }

theorem completes_request {s : State} {p : Fin 4} {q : BitVec 8} {o id role op : Nat} {body : Bytes} (hup : s.trussUp p.val = true) (ho : o < 2 ^ 16) (hid : id < 2 ^ 32) (hrole : role < 2)
    (hop : op ∈ [1, 2, 3, 6]) (hlen : body.length % 8 = 2) (hnode : s.obj Key.spanNode < 512) (hseq : q.toNat = ((s.trussClass p.val 2).delivered + 1) % 256) (hkept : s.span.kept = [])
    (hbodies : s.span.bodies = []) (hqueue : s.pel.queue = []) :
    Completes (.trussPacketRx p 2 q (dataBytes (s.obj Key.spanNode) o 1 true id 0 (natBE 1 role ++ natBE 1 op ++ body))) s fun t =>
      ∃ r, t.pel.queue = [r] ∧ r.origin = some (o, id) ∧ r.role = role ∧ r.op = op ∧ r.body = body ∧ t.dict = s.dict := by
  have hop' : op = 1 ∨ op = 2 ∨ op = 3 ∨ op = 6 := by simpa using hop
  have hpart : (natBE 1 role ++ natBE 1 op ++ body).length % 8 = 4 := by
    simp only [List.length_append, length_natBE]
    omega
  have hok := packetOk_dataBytes (s.obj Key.spanNode) o 1 true id 0 (natBE 1 role ++ natBE 1 op ++ body)
  have hbytes := dataBytes_of_full hpart (s.obj Key.spanNode) o 1 true id 0
  obtain ⟨horigin, hkind, hlast, hidf, hoffset, hrest⟩ := dataPayload_fields ho (show 1 < 256 by decide) hid (show 0 < 2 ^ 32 by decide) true (natBE 1 role ++ natBE 1 op ++ body)
    (natBE 4 (crc32 (dataPayload o 1 true id 0 (natBE 1 role ++ natBE 1 op ++ body))))
  have hdest : beAt (dataBytes (s.obj Key.spanNode) o 1 true id 0 (natBE 1 role ++ natBE 1 op ++ body)) 0 2 = s.obj Key.spanNode := by
    rw [hbytes, beAt_first (by omega)]
  have hdrop : (dataBytes (s.obj Key.spanNode) o 1 true id 0 (natBE 1 role ++ natBE 1 op ++ body)).drop 2 = dataPayload o 1 true id 0 (natBE 1 role ++ natBE 1 op ++ body) ++
      natBE 4 (crc32 (dataPayload o 1 true id 0 (natBE 1 role ++ natBE 1 op ++ body))) := by
    rw [hbytes, List.drop_left' (length_natBE ..)]
  have hplen : (dataPayload o 1 true id 0 (natBE 1 role ++ natBE 1 op ++ body) ++ natBE 4 (crc32 (dataPayload o 1 true id 0 (natBE 1 role ++ natBE 1 op ++ body)))).length - 20 =
      (natBE 1 role ++ natBE 1 op ++ body).length := by
    simp only [dataPayload, List.length_append, length_natBE, length_zeros]
    omega
  have hrolef : beAt (natBE 1 role ++ natBE 1 op ++ body) 0 1 = role := by rw [List.append_assoc, beAt_first (by omega)]
  have hopf : beAt (natBE 1 role ++ natBE 1 op ++ body) 1 1 = op := by
    rw [List.append_assoc, beAt_cons_natBE (by omega), beAt_first (by omega)]
  have hbody : (natBE 1 role ++ natBE 1 op ++ body).drop 2 = body := List.drop_left' (by simp)
  generalize natBE 1 role ++ natBE 1 op ++ body = part at *
  generalize dataPayload o 1 true id 0 part ++ natBE 4 (crc32 (dataPayload o 1 true id 0 part)) = payload at *
  generalize dataBytes (s.obj Key.spanNode) o 1 true id 0 part = b at *
  have htaken : ∃ x w, s.taken p.val 2 q = (s.withSpan x).withOutbox w ∧ x.kept = [] ∧ x.bodies = [] := ⟨_, _, rfl, hkept, hbodies⟩
  obtain ⟨x, w, hform, hxkept, hxbodies⟩ := htaken
  have hexec : exec (.trussPacketRx p 2 q b) s = .next ((s.taken p.val 2 q).deliverData p.val b) := by
    rw [trussPacketRx_next hup hok (fun h => absurd h (by decide)) hseq]
    exact congrArg Host.Outcome.next ((if_neg (by decide)).trans (if_neg (by decide)))
  have hdeliver : (s.taken p.val 2 q).deliverData p.val b =
      (((s.withSpan x).withOutbox w).withSpan { x with bodies := [] }).withPel { s.pel with queue := [trussRequest s o id role op body] } := by
    unfold deliverData
    dsimp only
    rw [hform, hdest, hdrop, if_neg (by omega), if_pos (show s.obj Key.spanNode = ((s.withSpan x).withOutbox w).obj Key.spanNode from rfl)]
    unfold assembleBody
    dsimp only
    rw [horigin, hkind, hlast, hidf, hoffset, hrest, hplen]
    rw [show ((s.withSpan x).withOutbox w).span.bodies = [] from hxbodies]
    dsimp only [List.find?_nil, List.filter_nil]
    refine (if_neg (by simp)).trans ((if_neg (by decide)).trans ?_)
    rw [List.take_left' rfl, List.nil_append]
    unfold deliverBody
    dsimp only
    rw [show (((s.withSpan x).withOutbox w).withSpan { ((s.withSpan x).withOutbox w).span with bodies := [] }).span.kept = [] from hxkept]
    dsimp only [List.find?_nil]
    rw [show (((s.withSpan x).withOutbox w).withSpan { ((s.withSpan x).withOutbox w).span with bodies := [] }).pel.queue = [] from hqueue, hrolef, hopf, hbody]
    have hmod : op % 128 = op := Nat.mod_eq_of_lt (by omega)
    rw [List.any_nil, if_neg Bool.false_ne_true, hmod, if_neg (by omega), decide_eq_false (by omega), List.nil_append]
    rfl
  rw [hdeliver] at hexec
  exact ⟨_, hexec, trussRequest s o id role op body, rfl, rfl, rfl, rfl, rfl, rfl⟩

/-- Settles O54: what the answer to a packet rests on, the kept packets that an acknowledgement drops, and each delivered packet by its fields. -/
theorem trussMessages : Obligations.TrussMessages := by
  unfold Obligations.TrussMessages
  refine ⟨⟨?_, ?_, ?_, ?_, ?_⟩, fun s p q hup _ hsystem hspan => ⟨?_, ?_, ?_, ?_, ?_⟩⟩
  · exact fun s p c q b hup hc hbad => trussPacketRx_nak hup hc hbad
  · exact fun s p c q b hdown => trussPacketRx_of_down hdown c q b
  · intro s p c q l1 l2 k hup hkept hseq hbefore hwaiting
    have hacked := trussAcked_of_kept hkept hbefore hwaiting
    have hclass := trussClass_putTrussClass_same s p.val c.val { s.trussClass p.val c.val with kept := l2, ackAt := s.wall }
    rw [← hacked] at hclass
    constructor
    · refine ⟨_, trussPacketRx_ack hup (.inl rfl) c hseq q, by rw [if_neg (by decide), hclass], by rw [if_neg (by decide), hclass], by rw [if_neg (by decide), hacked]; rfl⟩
    · obtain ⟨hout, hkeptAgain, hcount, -⟩ := trussResend_spec (s.trussAcked p.val c.val k.seq) p.isLt c.val
      refine ⟨_, trussPacketRx_ack hup (.inr rfl) c hseq q, by rw [if_pos rfl, hkeptAgain, hclass], ?_, ?_⟩
      · rw [if_pos rfl, hout, hclass, hacked]
        rfl
      · rw [if_pos rfl, hcount, hclass, hacked]
        rfl
  · intro s p c hwait
    rw [exec_trussAckTimeout, execTrussAckTimeout]
    exact if_pos (hwait.imp_left fun h => List.isEmpty_iff.mpr h)
  · intro s p c hkept hdue
    have hexec : exec (.trussAckTimeout p c) s = .next (s.trussResend p.val c.val) := by
      rw [exec_trussAckTimeout, execTrussAckTimeout]
      exact if_neg (by rintro (h | h); exacts [hkept (List.isEmpty_iff.mp h), Nat.not_lt.mpr hdue h])
    obtain ⟨hout, hclass, hcount, hkeep⟩ := trussResend_spec s p.isLt c.val
    exact ⟨_, hexec, hout, by rw [hclass], by rw [hclass], hcount, hkeep⟩
  · exact fun c ev hc hev hseq hforeign => completes_foreignEvent hup hspan hc hev hseq hforeign
  · intro ts hts hseq haccept hahead
    obtain ⟨u, ⟨x, o, hform⟩, hdelivered, hexec⟩ := trussPacketRx_sync hup hsystem hts hseq haccept
    rw [if_pos hahead] at hexec
    obtain ⟨hresets, hdict, hspan'⟩ := scheduleReset_spec u ts
    refine ⟨_, hexec, hresets, ?_, ?_⟩
    · rw [← hdelivered]
      exact congrArg (fun z : Span => (tabGet ({} : TrussClass) (tabGet ({} : TrussPort) z.ports p.val).cls 0).delivered) hspan'
    · rw [obj_of_dict u _ hdict, hform]
      rfl
  · intro ts hts hseq haccept hlate
    obtain ⟨u, ⟨x, o, hform⟩, -, hexec⟩ := trussPacketRx_sync hup hsystem hts hseq haccept
    rw [if_neg (Nat.not_le.mpr hlate)] at hexec
    refine ⟨_, hexec, by rw [hform]; rfl, ?_⟩
    rw [obj_bump, if_pos rfl, lenOf_spanSyncLate, hform]
    rfl
  · exact fun l hl hseq hin => completes_lane hup hl hseq hin
  · exact fun o id role op body ho hid hrole hop _ hlen hnode hseq hkept hbodies hqueue => completes_request hup ho hid hrole hop hlen hnode hseq hkept hbodies hqueue

end Sys2Proof.Machine
end

section
/-! Display links, frames and flips (16 R429 to R441). -/

namespace Sys2Proof.Machine
namespace State

/-! ### Heads -/

@[simp] theorem head_putHead (s : State) (h : Nat) (x : Head) (j : Nat) : (s.putHead h x).head j = if j = h then x else s.head j := by
  unfold head putHead
  exact tabGet_tabSet ..

theorem head_putHead_same (s : State) (h : Nat) (x : Head) : (s.putHead h x).head h = x := by rw [head_putHead, if_pos rfl]

theorem head_of_heads {s t : State} (h : t.heads = s.heads) (j : Nat) : t.head j = s.head j := congrArg (fun x => tabGet ({} : Head) x j) h

/-! ### The link of a head -/

theorem trainHead_spec (s : State) {h : Nat} (hh : h < 2) :
    (s.trainHead h).obj (Key.dispState h) = 1 ∧ (s.trainHead h).obj (Key.dispEdid h) = leNat (s.head h).sink % 256 ^ 512 ∧ (s.trainHead h).head h = s.head h ∧
      KeepsObjects [Key.dispState h, Key.dispEdid h, Key.lanepllState (22 + h)] s (s.trainHead h) := by
  unfold trainHead
  generalize dpRate (s.obj (Key.dispLinkRate h)) * 10000 = rate
  have hkeep := keepsBut_startPll (s.setObj (Key.dispEdid h) (leNat (s.head h).sink)) (22 + h) rate
  refine ⟨?_, ?_, rfl, fun k hk => ?_⟩
  · rw [obj_setObj, if_pos rfl, lenOf_dispState h hh]
    rfl
  · rw [obj_setObj, if_neg (by unfold Key.dispEdid Key.dispState; omega), hkeep _ (by unfold Key.dispEdid Key.lanepllState; omega), obj_setObj, if_pos rfl, lenOf_dispEdid h hh]
  · simp only [List.mem_cons, List.not_mem_nil, or_false, not_or] at hk
    obtain ⟨h1, h2, h3⟩ := hk
    rw [obj_setObj, if_neg h1, hkeep k h3, obj_setObj, if_neg h2]

theorem noSink_spec (s : State) {h : Nat} (hh : h < 2) :
    (s.noSink h).obj (Key.dispState h) = 3 ∧ (s.noSink h).head h = { s.head h with retryAt := s.wall } ∧ KeepsObjects [Key.dispState h, Key.lanepllState (22 + h)] s (s.noSink h) := by
  unfold noSink
  have hkeep := keepsBut_stopPll (s.putHead h { s.head h with retryAt := s.wall }) (22 + h)
  refine ⟨?_, head_putHead_same .., fun k hk => ?_⟩
  · rw [obj_setObj, if_pos rfl, lenOf_dispState h hh]
    rfl
  · simp only [List.mem_cons, List.not_mem_nil, or_false, not_or] at hk
    obtain ⟨h1, h2⟩ := hk
    rw [obj_setObj, if_neg h1, hkeep k h2]
    rfl

/-! ### Fetches -/

/-- What the fetches of a head change: memory, and the counters of requests and of blocked fetches. -/
def Fetches (h : Nat) (s t : State) : Prop := (∃ d m, t = (s.withDict d).withMem m) ∧ KeepsBut (fun k => isMemCounter k ∨ k = Key.dispBlocked h) s t

theorem Fetches.trans {h : Nat} {s t u : State} (h1 : Fetches h s t) (h2 : Fetches h t u) : Fetches h s u := by
  obtain ⟨⟨d, m, rfl⟩, hk⟩ := h1
  obtain ⟨⟨d', m', rfl⟩, hk'⟩ := h2
  exact ⟨⟨d', m', rfl⟩, hk.trans hk'⟩

theorem Fetches.heads {h : Nat} {s t : State} (hf : Fetches h s t) : t.heads = s.heads := by
  obtain ⟨⟨d, m, rfl⟩, -⟩ := hf
  rfl

/-- The objects of a head that fetches leave alone. -/
theorem Fetches.obj {h k : Nat} {s t : State} (hf : Fetches h s t) (hlow : 0x180000 ≤ k ∧ k < 0x190000) (hk : k ≠ Key.dispBlocked h) : t.obj k = s.obj k := by
  refine hf.2 k ?_
  rintro ((h1 | h1 | ⟨n, -, h1⟩) | h1)
  · unfold Key.memLostWrites at h1
    omega
  · unfold Key.memLostReads at h1
    omega
  · unfold Key.memchInorder at h1
    omega
  · exact hk h1

theorem fetches_withMem (h : Nat) (s : State) (m : Mem) : Fetches h s (s.withMem m) := ⟨⟨s.dict, m, rfl⟩, fun _ _ => rfl⟩

theorem fetches_fetchBurst (s : State) (h l a : Nat) : Fetches h s (s.fetchBurst h l a) := by
  unfold fetchBurst
  split
  · exact ⟨⟨_, _, rfl⟩, (keepsBut_of_dict rfl).trans (keepsBut_bump (.inr rfl) _)⟩
  · obtain ⟨⟨d, m, hform, -⟩, hkeep, -⟩ := onlyRequests_memRead s (.scanout h l) 0 a 64
    exact ⟨⟨d, m, hform⟩, fun k hk => hkeep k fun hc => hk (.inl hc)⟩

theorem fetches_foldl {α : Type} {h : Nat} (l : List α) (f : State → α → State) (hf : ∀ s x, Fetches h s (f s x)) (s : State) : Fetches h s (l.foldl f s) := by
  induction l generalizing s with
  | nil => exact fetches_withMem h s s.mem
  | cons x l ih => exact (hf s x).trans (ih _)

/-- A refill fetches as many bursts as the buffer has room for. -/
theorem refillHead_spec (s : State) (h : Nat) :
    Fetches h (s.putHead h { s.head h with todo := (s.head h).todo.drop ((524288 - s.headHeld h - s.headAsked h) / 64) }) (s.refillHead h) := by
  unfold refillHead
  exact fetches_foldl _ _ (fun _ _ => fetches_fetchBurst ..) _

theorem fetches_setPanic (h : Nat) (s : State) (port : Nat) (on : Bool) : Fetches h s (s.setPanic port on) := fetches_withMem ..

theorem fetches_refreshHeadPanic (s : State) (h : Nat) : Fetches h s (s.refreshHeadPanic h) := by
  unfold refreshHeadPanic
  extract_lets held
  split
  · exact fetches_setPanic ..
  · split
    · exact fetches_setPanic ..
    · exact fetches_withMem h s s.mem

/-- A frame in progress is served: only what is left to fetch, and what the fetches change. -/
theorem serveHead_spec {s : State} {h : Nat} (hin : (s.head h).inFrame = true) :
    Fetches h (s.putHead h { s.head h with todo := (s.head h).todo.drop ((524288 - s.headHeld h - s.headAsked h) / 64) }) (s.serveHead h) := by
  unfold serveHead
  rw [if_pos hin]
  exact (refillHead_spec s h).trans (fetches_refreshHeadPanic ..)

/-! ### Panic lines -/

theorem panicRaised_setPanic (s : State) (port : Nat) (on : Bool) : (s.setPanic port on).panicRaised port = on := by
  unfold panicRaised setPanic
  dsimp only
  rw [show (s.withMem _).mem.panic = tabSet 0 s.mem.panic port (b2n on) from rfl, tabGet_tabSet_self]
  cases on <;> rfl

theorem readsOutstanding_setPanic (s : State) (port : Nat) (on : Bool) (p : Owner → Bool) : (s.setPanic port on).readsOutstanding p = s.readsOutstanding p := by
  unfold readsOutstanding setPanic
  dsimp only [withMem_mem]
  split
  · rw [List.any_map]
    rfl
  · rfl

theorem headFetching_setPanic (s : State) (port : Nat) (on : Bool) (h : Nat) : (s.setPanic port on).headFetching h = s.headFetching h := by
  unfold headFetching
  rw [readsOutstanding_setPanic]
  rfl

/-- A head's panic line follows its level. -/
theorem refreshHeadPanic_spec (s : State) (h : Nat) :
    ((s.refreshHeadPanic h).headFetching h = true → (s.refreshHeadPanic h).headHeld h < 131072 → (s.refreshHeadPanic h).panicRaised (16 + h) = true) ∧
      (262144 ≤ (s.refreshHeadPanic h).headHeld h → (s.refreshHeadPanic h).panicRaised (16 + h) = false) := by
  have hheld : ∀ on, (s.setPanic (16 + h) on).headHeld h = s.headHeld h := fun _ => rfl
  unfold refreshHeadPanic
  dsimp only
  split
  next hlow =>
    refine ⟨fun hfetch hlevel => ?_, fun _ => panicRaised_setPanic ..⟩
    rw [headFetching_setPanic] at hfetch
    rw [hheld] at hlevel
    rcases hlow with h1 | h1
    · omega
    · rw [hfetch] at h1
      exact absurd h1 Bool.false_ne_true
  next hhigh =>
    rw [not_or, Nat.not_le] at hhigh
    split
    next hlevel =>
      refine ⟨fun _ _ => panicRaised_setPanic .., fun h2 => ?_⟩
      rw [hheld] at h2
      omega
    next hlevel => exact ⟨fun _ h2 => absurd h2 hlevel, fun h2 => absurd h2 (Nat.not_le.mpr hhigh.1)⟩

/-! ### Frames that are aborted -/

theorem readsOutstanding_abandonReads (s : State) (p : Owner → Bool) (h : p .abandoned = false) : (s.abandonReads p).readsOutstanding p = false := by
  have hfiltered : ∀ l : List MemReq, (l.filter fun r => !(!r.write && p r.owner)).any (fun r => !r.write && p r.owner) = false := by
    intro l
    rw [List.any_eq_false]
    intro r hr
    rw [Bool.eq_false_of_not_eq_true' (List.mem_filter.mp hr).2]
    exact Bool.false_ne_true
  have hissued : ∀ l : List MemReq, (l.map fun r => if !r.write && p r.owner then { r with owner := .abandoned } else r).any (fun r => !r.write && p r.owner) = false := by
    intro l
    rw [List.any_map, List.any_eq_false]
    intro r _
    dsimp only [Function.comp]
    split
    next => simp [h]
    next hno => exact hno
  unfold readsOutstanding abandonReads
  dsimp only [withMem_mem]
  rw [hfiltered, Bool.false_or, List.any_map, List.any_eq_false]
  intro c _
  dsimp only [Function.comp]
  rw [hfiltered, hissued]
  exact Bool.false_ne_true

/-- An aborted frame: at some place, its fetches abandoned and counted. -/
theorem abortFrame_eq (s : State) (h : Nat) :
    ∃ n, s.abortFrame h = (((s.withFree (s.free + 1)).putHead h { s.head h with abortAt := some n }).abandonFetches h).bump (Key.dispAborted h) := ⟨_, rfl⟩

theorem head_abandonFetches (s : State) (h : Nat) : (s.abandonFetches h).head h = { s.head h with todo := [] } := head_putHead_same ..

theorem headFetching_abandonFetches (s : State) (h : Nat) : (s.abandonFetches h).headFetching h = false := by
  unfold headFetching
  rw [head_abandonFetches]
  exact readsOutstanding_abandonReads _ _ rfl

theorem abortFrame_spec (s : State) {h : Nat} (hh : h < 2) :
    (∃ n, (s.abortFrame h).head h = { s.head h with abortAt := some n, todo := [] }) ∧ (s.abortFrame h).headFetching h = false ∧
      (s.abortFrame h).obj (Key.dispAborted h) = (s.obj (Key.dispAborted h) + 1) % 2 ^ 64 ∧ KeepsObjects [Key.dispAborted h] s (s.abortFrame h) ∧ (s.abortFrame h).outbox = s.outbox := by
  obtain ⟨n, hform⟩ := abortFrame_eq s h
  rw [hform]
  have hobj : ∀ k, (((s.withFree (s.free + 1)).putHead h { s.head h with abortAt := some n }).abandonFetches h).obj k = s.obj k := fun _ => rfl
  refine ⟨⟨n, ?_⟩, headFetching_abandonFetches .., ?_, fun k hk => ?_, rfl⟩
  · refine (head_abandonFetches ((s.withFree (s.free + 1)).putHead h { s.head h with abortAt := some n }) h).trans ?_
    rw [head_putHead_same]
  · rw [obj_bump, if_pos rfl, lenOf_dispAborted h hh, hobj]
    show (s.obj (Key.dispAborted h) + 1) % 256 ^ 8 = _
    norm_num
  · rw [obj_bump, if_neg (by simpa using hk), hobj]

/-! ### Frames and flips -/

theorem headFetching_of {s t : State} {h : Nat} (hmem : t.mem = s.mem) (htodo : (t.head h).todo = (s.head h).todo) : t.headFetching h = s.headFetching h := by
  unfold headFetching readsOutstanding
  rw [hmem, htodo]

theorem headFetching_dropFetched (s : State) (h : Nat) : (s.dropFetched h).headFetching h = s.headFetching h := rfl

/-- The pending set becomes active. -/
theorem adoptSet_spec (s : State) (h : Nat) :
    ∃ d start, s.adoptSet h =
        (s.putHead h { s.head h with active := (List.range 3).map (fun l => (layerKeys (4 * h + l)).map s.obj), sel := (s.head h).pend, start := start, asked := false }).withDict d ∧
      ∀ k < 0x180800, (s.adoptSet h).obj k = s.obj k := by
  unfold adoptSet
  extract_lets x follow start s1
  obtain ⟨d, hd⟩ := foldl_setObj_changes (List.range 3) (fun l => Key.laySelect (4 * h + l)) (fun _ l => x.pend.getD l 0) s1
  have hkeep : KeepsBut (fun k => 0x180800 ≤ k) s1 ((List.range 3).foldl (fun y l => y.setObj (Key.laySelect (4 * h + l)) (x.pend.getD l 0)) s1) :=
    keepsBut_foldl _ _ (fun y l => keepsBut_setObj (by unfold Key.laySelect; omega) y _) s1
  exact ⟨d, start, hd, fun k hk => hkeep k (Nat.not_le.mpr hk)⟩

/-- The first tick boundary at or after a time is a time. -/
theorem nextTick_lt {t : Nat} (h : t < 2 ^ 79) : cdiv t tick * tick < 256 ^ 10 := by
  unfold cdiv tick
  omega

/-- The layer objects stand clear of the head's counters. -/
theorem layerKeys_above {k u : Nat} (h : k ∈ layerKeys u) : 0x180801 ≤ k ∧ (k - 0x180801) % 256 < 15 := by
  simp only [layerKeys, List.mem_cons, List.not_mem_nil, or_false, Key.layEnable, Key.layBase0, Key.layBase1, Key.layDbuf, Key.layPitch, Key.laySrcW, Key.laySrcH, Key.layDstX, Key.layDstY,
    Key.layDstW, Key.layDstH, Key.layOffset, Key.layGain, Key.layFollow, Key.layStart] at h
  omega

end State

open State

theorem completes_displayFrameStart {s : State} {h : Fin 2} (hon : s.flag (Key.dispEnable h.val) = true) (hidle : (s.head h.val).inFrame = false) (htime : s.time < 2 ^ 79) :
    Completes (.displayFrameStart h) s fun t =>
      t.obj (Key.dispFrame h.val) = (s.obj (Key.dispFrame h.val) + 1) % 2 ^ 64 ∧ (t.head h.val).inFrame = true ∧ (t.head h.val).abortAt = none ∧ t.mem.cells = s.mem.cells ∧
      ((s.head h.val).flipped = true → t.obj (Key.dispFlipFrame h.val) = s.obj (Key.dispFrame h.val) % 2 ^ 64 ∧ t.obj (Key.dispFlipTime h.val) = (s.time + 65535) / 65536 * 65536 ∧
        t.obj (Key.dispFlips h.val) = (s.obj (Key.dispFlips h.val) + 1) % 2 ^ 64) ∧
      ((s.head h.val).flipped = false → t.obj (Key.dispFlipFrame h.val) = s.obj (Key.dispFlipFrame h.val) ∧ t.obj (Key.dispFlips h.val) = s.obj (Key.dispFlips h.val)) := by
  obtain ⟨u, hu⟩ : ∃ u, u = (s.bump (Key.dispFrame h.val)).putHead h.val
      { s.head h.val with inFrame := true, flipped := false, abortAt := none, since := s.wall, todo := s.frameBursts h.val } := ⟨_, rfl⟩
  obtain ⟨v, hv⟩ : ∃ v, v = (if (s.head h.val).flipped then
      (((u.setObj (Key.dispFlipFrame h.val) (s.obj (Key.dispFrame h.val))).setObj (Key.dispFlipTime h.val) (cdiv s.time tick * tick)).bump (Key.dispFlips h.val)).raiseEvent (12 + h.val) else u) := ⟨_, rfl⟩
  have hexec : exec (.displayFrameStart h) s = .next (v.serveHead h.val) := by
    rw [exec_displayFrameStart, execDisplayFrameStart]
    dsimp only
    rw [if_neg (by simp [hon, hidle]), hv, hu]
  have hheads : v.heads = u.heads := by
    rw [hv]
    split
    · rw [raiseEvent_eq]
      rfl
    · rfl
  have hhead : v.head h.val = { s.head h.val with inFrame := true, flipped := false, abortAt := none, since := s.wall, todo := s.frameBursts h.val } := by
    rw [head_of_heads hheads, hu, head_putHead_same]
  have hcells : v.mem.cells = s.mem.cells := by
    rw [hv, hu]
    exact cells_of_kept (by simp)
  have hserved := serveHead_spec (s := v) (h := h.val) (by rw [hhead])
  have hobj : ∀ k, 0x180000 ≤ k ∧ k < 0x190000 → k ≠ Key.dispBlocked h.val → (v.serveHead h.val).obj k = v.obj k := fun k hlow hk => (hserved.obj hlow hk).trans rfl
  have hserve : (v.serveHead h.val).head h.val = { v.head h.val with todo := (v.head h.val).todo.drop ((524288 - v.headHeld h.val - v.headAsked h.val) / 64) } := by
    rw [head_of_heads hserved.heads, head_putHead_same]
  have hubump : ∀ k, u.obj k = if k = Key.dispFrame h.val then (s.obj (Key.dispFrame h.val) + 1) % 256 ^ lenOf (Key.dispFrame h.val) else s.obj k := by
    intro k
    rw [hu]
    exact obj_bump ..
  have hlt : h.val < 2 := h.isLt
  have hflip : (s.head h.val).flipped = true → ∀ k, v.obj k = if k = Key.dispFlips h.val then (u.obj (Key.dispFlips h.val) + 1) % 256 ^ lenOf (Key.dispFlips h.val) else
      if k = Key.dispFlipTime h.val then cdiv s.time tick * tick % 256 ^ lenOf (Key.dispFlipTime h.val) else
      if k = Key.dispFlipFrame h.val then s.obj (Key.dispFrame h.val) % 256 ^ lenOf (Key.dispFlipFrame h.val) else u.obj k := by
    intro hf k
    rw [hv, if_pos hf, obj_raiseEvent, obj_bump, obj_setObj, obj_setObj, obj_setObj, obj_setObj,
      if_neg (show Key.dispFlips h.val ≠ Key.dispFlipTime h.val by unfold Key.dispFlips Key.dispFlipTime; omega),
      if_neg (show Key.dispFlips h.val ≠ Key.dispFlipFrame h.val by unfold Key.dispFlips Key.dispFlipFrame; omega)]
  have hstill : (s.head h.val).flipped = false → v = u := fun hf => by rw [hv, hf, if_neg Bool.false_ne_true]
  refine ⟨_, hexec, ?_, by rw [hserve, hhead], by rw [hserve, hhead], (cells_of_kept (kept_serveHead ..)).trans hcells, fun hf => ⟨?_, ?_, ?_⟩, fun hf => ⟨?_, ?_⟩⟩
  · rw [hobj _ (by unfold Key.dispFrame; omega) (by unfold Key.dispFrame Key.dispBlocked; omega)]
    have hcount : u.obj (Key.dispFrame h.val) = (s.obj (Key.dispFrame h.val) + 1) % 2 ^ 64 := by
      rw [hubump, if_pos rfl, lenOf_dispFrame _ hlt]
      norm_num
    cases hf : (s.head h.val).flipped with
    | false => rw [hstill hf, hcount]
    | true =>
      rw [hflip hf, if_neg (by unfold Key.dispFrame Key.dispFlips; omega), if_neg (by unfold Key.dispFrame Key.dispFlipTime; omega),
        if_neg (by unfold Key.dispFrame Key.dispFlipFrame; omega), hcount]
  · rw [hobj _ (by unfold Key.dispFlipFrame; omega) (by unfold Key.dispFlipFrame Key.dispBlocked; omega), hflip hf, if_neg (by unfold Key.dispFlipFrame Key.dispFlips; omega),
      if_neg (by unfold Key.dispFlipFrame Key.dispFlipTime; omega), if_pos rfl, lenOf_dispFlipFrame _ hlt]
    norm_num
  · rw [hobj _ (by unfold Key.dispFlipTime; omega) (by unfold Key.dispFlipTime Key.dispBlocked; omega), hflip hf, if_neg (by unfold Key.dispFlipTime Key.dispFlips; omega),
      if_pos rfl, lenOf_dispFlipTime _ hlt]
    exact Nat.mod_eq_of_lt (nextTick_lt htime)
  · rw [hobj _ (by unfold Key.dispFlips; omega) (by unfold Key.dispFlips Key.dispBlocked; omega), hflip hf, if_pos rfl, lenOf_dispFlips _ hlt, hubump,
      if_neg (by unfold Key.dispFlips Key.dispFrame; omega)]
    norm_num
  · rw [hobj _ (by unfold Key.dispFlipFrame; omega) (by unfold Key.dispFlipFrame Key.dispBlocked; omega), hstill hf, hubump, if_neg (by unfold Key.dispFlipFrame Key.dispFrame; omega)]
  · rw [hobj _ (by unfold Key.dispFlips; omega) (by unfold Key.dispFlips Key.dispBlocked; omega), hstill hf, hubump, if_neg (by unfold Key.dispFlips Key.dispFrame; omega)]


/-- The frame that has ended, aborted where its fetches have not all returned. -/
def State.ended (s : State) (h : Nat) : State := if s.headFetching h then s.abortFrame h else s

theorem ended_spec (s : State) {h : Nat} (hh : h < 2) :
    (∃ a todo, (s.ended h).head h = { s.head h with abortAt := a, todo := todo }) ∧ (s.ended h).headFetching h = false ∧
      (s.ended h).obj (Key.dispAborted h) = (if s.headFetching h = true then (s.obj (Key.dispAborted h) + 1) % 2 ^ 64 else s.obj (Key.dispAborted h)) ∧
      KeepsObjects [Key.dispAborted h] s (s.ended h) ∧ (s.ended h).outbox = s.outbox ∧ (s.ended h).mem.cells = s.mem.cells := by
  unfold State.ended
  split
  next hfetch =>
    obtain ⟨⟨n, hhead⟩, hfetching, haborted, hkeep, hout⟩ := abortFrame_spec s hh
    exact ⟨⟨some n, [], hhead⟩, hfetching, haborted, hkeep, hout, cells_of_kept (kept_abortFrame ..)⟩
  next hdone => exact ⟨⟨_, _, rfl⟩, Bool.eq_false_of_not_eq_true hdone, rfl, fun _ _ => rfl, rfl, rfl⟩

/-- The frame goes out where the head runs, its data is dropped and its panic line withdrawn, and the fence reaches it. -/
def State.sentOut (u : State) (h n lost : Nat) : State :=
  (((((if u.obj (Key.dispState h) = 2 then u.emit (.video h n (u.framePixels h)) else u).addObj (Key.dispLost h) lost).dropFetched h).setPanic (16 + h) false).setObj (Key.dispFence h) n)

theorem sentOut_spec (u : State) {h : Nat} (hh : h < 2) (n lost : Nat) :
    (u.sentOut h n lost).heads = u.heads ∧ (u.sentOut h n lost).headFetching h = u.headFetching h ∧ (u.sentOut h n lost).obj (Key.dispFence h) = n % 2 ^ 64 ∧
      KeepsObjects [Key.dispFence h, Key.dispLost h] u (u.sentOut h n lost) ∧ (u.sentOut h n lost).mem.cells = u.mem.cells ∧
      (u.sentOut h n lost).outbox = if u.obj (Key.dispState h) = 2 then u.outbox ++ [.video h n (u.framePixels h)] else u.outbox := by
  unfold State.sentOut
  obtain ⟨w, hw, hheads, hmem, hobj, hout⟩ : ∃ w, w = (if u.obj (Key.dispState h) = 2 then u.emit (.video h n (u.framePixels h)) else u) ∧ w.heads = u.heads ∧ w.mem = u.mem ∧
      (∀ k, w.obj k = u.obj k) ∧ w.outbox = if u.obj (Key.dispState h) = 2 then u.outbox ++ [.video h n (u.framePixels h)] else u.outbox := by
    refine ⟨_, rfl, ?_, ?_, ?_, ?_⟩
    · split <;> rfl
    · split <;> rfl
    · split
      · exact fun _ => rfl
      · exact fun _ => rfl
    · split <;> rfl
  rw [← hw]
  have hdrop : ∀ k, (((w.addObj (Key.dispLost h) lost).dropFetched h).setPanic (16 + h) false).obj k = (w.addObj (Key.dispLost h) lost).obj k := fun _ => rfl
  refine ⟨hheads, ?_, ?_, fun k hk => ?_, (cells_of_kept (by simp)).trans (congrArg Mem.cells hmem), hout⟩
  · have hpanic := headFetching_setPanic ((w.addObj (Key.dispLost h) lost).dropFetched h) (16 + h) false h
    exact hpanic.trans ((headFetching_dropFetched (w.addObj (Key.dispLost h) lost) h).trans (headFetching_of hmem (congrArg Head.todo (head_of_heads hheads h))))
  · rw [obj_setObj, if_pos rfl, lenOf_dispFence h hh]
    norm_num
  · simp only [List.mem_cons, List.not_mem_nil, or_false, not_or] at hk
    rw [obj_setObj, if_neg hk.1, hdrop, obj_addObj, if_neg hk.2, hobj]

/-- The pending set is adopted, and the frame is over. -/
def State.closed (w : State) (h : Nat) : State :=
  (w.adoptSet h).putHead h { (w.adoptSet h).head h with inFrame := false, flipped := ((w.adoptSet h).head h).sel != (w.head h).sel }

/-- A head with the pending set active and its frame over. -/
def Head.closed (x : Head) (active : List (List Nat)) (start : Nat) : Head :=
  { x with active := active, sel := x.pend, start := start, asked := false, inFrame := false, flipped := x.pend != x.sel }

theorem head_closed (w : State) (h : Nat) : ∃ start, (w.closed h).head h = (w.head h).closed ((List.range 3).map (fun l => (layerKeys (4 * h + l)).map w.obj)) start := by
  obtain ⟨d, start, hform, -⟩ := adoptSet_spec w h
  have hhead : (w.adoptSet h).head h = { w.head h with active := (List.range 3).map (fun l => (layerKeys (4 * h + l)).map w.obj), sel := (w.head h).pend, start := start, asked := false } := by
    rw [hform]
    exact (head_of_heads (withDict_heads ..) h).trans (head_putHead_same ..)
  refine ⟨start, ?_⟩
  rw [State.closed, head_putHead_same, hhead]
  rfl

theorem closed_keeps (w : State) (h : Nat) : (w.closed h).mem = w.mem ∧ (w.closed h).outbox = w.outbox := by
  obtain ⟨d, start, hform, -⟩ := adoptSet_spec w h
  unfold State.closed putHead
  rw [withHeads_mem, withHeads_outbox, hform]
  exact ⟨rfl, rfl⟩

theorem obj_closed (w : State) {h k : Nat} (hk : k < 0x180800) : (w.closed h).obj k = w.obj k := by
  obtain ⟨d, start, -, hadopt⟩ := adoptSet_spec w h
  unfold State.closed putHead
  rw [obj_withHeads, hadopt k hk]

theorem latchPoint_of_frame {s : State} {h : Fin 2} (hon : s.flag (Key.dispEnable h.val) = true) (hframe : (s.head h.val).inFrame = true) :
    ∃ w lost, w = (s.ended h.val).sentOut h.val (s.obj (Key.dispFrame h.val) - 1) lost ∧
      exec (.latchPoint h) s = .next (w.closed h.val) := by
  rw [exec_latchPoint, execLatchPoint]
  dsimp only
  rw [if_neg (by simp [hon, hframe])]
  exact ⟨_, _, rfl, congrArg Host.Outcome.next rfl⟩

theorem length_framePixels (s : State) (h : Nat) : (s.framePixels h).length = s.obj (Key.dispHActive h) * s.obj (Key.dispVActive h) := by
  unfold State.framePixels
  dsimp only
  rw [List.length_map, List.length_range]

/-- The objects of the layers and of the head's timing that the end of a frame leaves alone. -/
theorem sentOut_keeps {s : State} {h k : Nat} (hh : h < 2) (hk : k < 0x180011 + 256 * h ∨ 0x180800 ≤ k ∨ k = Key.dispState h) (n lost : Nat) :
    ((s.ended h).sentOut h n lost).obj k = s.obj k := by
  have h1 : k ∉ [Key.dispFence h, Key.dispLost h] := by
    simp only [List.mem_cons, List.not_mem_nil, or_false, Key.dispFence, Key.dispLost, Key.dispState] at hk ⊢
    omega
  have h2 : k ∉ [Key.dispAborted h] := by
    simp only [List.mem_cons, List.not_mem_nil, or_false, Key.dispAborted, Key.dispState] at hk ⊢
    omega
  rw [(sentOut_spec _ hh n lost).2.2.2.1 k h1, (ended_spec s hh).2.2.2.1 k h2]

theorem completes_latchPoint {s : State} {h : Fin 2} (hon : s.flag (Key.dispEnable h.val) = true) (hframe : (s.head h.val).inFrame = true) :
    Completes (.latchPoint h) s fun t =>
      t.obj (Key.dispFence h.val) = (s.obj (Key.dispFrame h.val) - 1) % 2 ^ 64 ∧ (t.head h.val).inFrame = false ∧ (t.head h.val).asked = false ∧ (t.head h.val).sel = (s.head h.val).pend ∧
      (t.head h.val).flipped = decide ((s.head h.val).pend ≠ (s.head h.val).sel) ∧ (t.head h.val).active = (List.range 3).map (fun l => (layerKeys (4 * h.val + l)).map s.obj) ∧
      t.headFetching h.val = false ∧ t.obj (Key.dispAborted h.val) = (if s.headFetching h.val = true then (s.obj (Key.dispAborted h.val) + 1) % 2 ^ 64 else s.obj (Key.dispAborted h.val)) ∧ t.mem.cells = s.mem.cells ∧
      (s.obj (Key.dispState h.val) ≠ 2 → t.outbox = s.outbox) ∧ (s.obj (Key.dispState h.val) = 2 → ∃ px, t.outbox = s.outbox ++ [.video h.val (s.obj (Key.dispFrame h.val) - 1) px] ∧
        px.length = s.obj (Key.dispHActive h.val) * s.obj (Key.dispVActive h.val)) := by
  have hlt : h.val < 2 := h.isLt
  obtain ⟨w, lost, hw, hexec⟩ := latchPoint_of_frame hon hframe
  obtain ⟨⟨a, todo, hhead⟩, hfetching, haborted, hkeep, hout, hcells⟩ := ended_spec s hlt
  obtain ⟨hwheads, hwfetching, hwfence, hwkeep, hwcells, hwout⟩ := sentOut_spec (s.ended h.val) hlt (s.obj (Key.dispFrame h.val) - 1) lost
  have hwobj : ∀ k, (k < 0x180011 + 256 * h.val ∨ 0x180800 ≤ k ∨ k = Key.dispState h.val) → w.obj k = s.obj k := fun k hk => hw ▸ sentOut_keeps hlt hk _ lost
  rw [← hw] at hwheads hwfetching hwfence hwkeep hwcells hwout
  have hwhead : w.head h.val = { s.head h.val with abortAt := a, todo := todo } := (head_of_heads hwheads h.val).trans hhead
  obtain ⟨start, hchead⟩ := head_closed w h.val
  obtain ⟨hcmem, hcout⟩ := closed_keeps w h.val
  rw [hwhead] at hchead
  have hstate : (s.ended h.val).obj (Key.dispState h.val) = s.obj (Key.dispState h.val) := hkeep _ (by simp [Key.dispState, Key.dispAborted])
  refine ⟨_, hexec, ?_, by rw [hchead]; rfl, by rw [hchead]; rfl, by rw [hchead]; rfl, ?_, ?_, ?_, ?_, ?_, fun hno => ?_, fun hrun => ?_⟩
  · rw [obj_closed w (by unfold Key.dispFence; omega), hwfence]
  · rw [hchead]
    unfold Head.closed
    by_cases heq : (s.head h.val).pend = (s.head h.val).sel
    · simp [heq]
    · simp [heq]
  · rw [hchead]
    refine List.map_congr_left fun l _ => List.map_congr_left fun k hk => hwobj k (.inr (.inl ?_))
    have := layerKeys_above hk
    omega
  · have htodo : ((w.closed h.val).head h.val).todo = (w.head h.val).todo := by
      rw [hchead, hwhead]
      rfl
    rw [headFetching_of hcmem htodo, hwfetching, hfetching]
  · rw [obj_closed w (by unfold Key.dispAborted; omega), hwkeep _ (by simp [Key.dispAborted, Key.dispFence, Key.dispLost]), haborted]
  · rw [hcmem, hwcells, hcells]
  · rw [hcout, hwout, hstate, if_neg hno, hout]
  · refine ⟨(s.ended h.val).framePixels h.val, ?_, ?_⟩
    · rw [hcout, hwout, hstate, if_pos hrun, hout]
    · rw [length_framePixels, hkeep _ (by simp only [List.mem_singleton, Key.dispHActive, Key.dispAborted]; omega), hkeep _ (by simp only [List.mem_singleton, Key.dispVActive, Key.dispAborted]; omega)]

theorem dispFlip_of_due {s : State} {h : Fin 2} {T : KTime} (hdue : s.due = [(Key.dispFlip h.val, T)]) : exec (.dispFlip h) s = .next ((s.withDue []).requestFlip h.val) := by
  rw [exec_dispFlip, execDispFlip, if_neg (by simp [flipDue, hdue]), hdue]
  simp

theorem completes_scanoutUnderrun {s : State} {h : Fin 2} (hon : s.flag (Key.dispEnable h.val) = true) (hframe : (s.head h.val).inFrame = true) (hsound : (s.head h.val).abortAt = none) :
    Completes (.scanoutUnderrun h) s fun t => (t.head h.val).abortAt.isSome = true ∧ t.headFetching h.val = false ∧
      t.obj (Key.dispAborted h.val) = (s.obj (Key.dispAborted h.val) + 1) % 2 ^ 64 ∧ t.mem.cells = s.mem.cells ∧ KeepsObjects [Key.dispAborted h.val] s t := by
  have hexec : exec (.scanoutUnderrun h) s = .next (s.abortFrame h.val) := by
    rw [exec_scanoutUnderrun, execScanoutUnderrun]
    exact if_neg (by simp [hon, hframe, hsound])
  obtain ⟨⟨n, hhead⟩, hfetching, haborted, hkeep, -⟩ := abortFrame_spec s h.isLt
  exact ⟨_, hexec, by rw [hhead]; rfl, hfetching, haborted, cells_of_kept (kept_abortFrame ..), hkeep⟩

theorem completes_scanoutPanic {s : State} {h : Fin 2} (hon : s.flag (Key.dispEnable h.val) = true) (hframe : (s.head h.val).inFrame = true) :
    Completes (.scanoutPanic h) s fun t => t.mem.cells = s.mem.cells ∧ (t.head h.val).inFrame = true ∧
      (t.head h.val).todo = (s.head h.val).todo.drop ((524288 - s.headHeld h.val - s.headAsked h.val) / 64) ∧ (t.headFetching h.val = true → t.headHeld h.val < 131072 → t.panicRaised (16 + h.val) = true) ∧
      (262144 ≤ t.headHeld h.val → t.panicRaised (16 + h.val) = false) := by
  have hexec : exec (.scanoutPanic h) s = .next (s.serveHead h.val) := by
    rw [exec_scanoutPanic, execScanoutPanic]
    exact if_neg (by simp [hon])
  have hhead : (s.serveHead h.val).head h.val = { s.head h.val with todo := (s.head h.val).todo.drop ((524288 - s.headHeld h.val - s.headAsked h.val) / 64) } := by
    rw [head_of_heads (serveHead_spec hframe).heads, head_putHead_same]
  have hserve : s.serveHead h.val = (s.refillHead h.val).refreshHeadPanic h.val := if_pos hframe
  exact ⟨_, hexec, cells_of_kept (kept_serveHead ..), by rw [hhead]; exact hframe, by rw [hhead], hserve ▸ refreshHeadPanic_spec (s.refillHead h.val) h.val⟩

/-- The link of a head (16 R429). -/
theorem completes_link (s : State) (h : Fin 2) (e : Bytes) :
    (s.flag (Key.dispEnable h.val) = true → Completes (.hpdEdge h e) s fun t => t.obj (Key.dispState h.val) = 1 ∧ t.obj (Key.dispEdid h.val) = leNat e % 256 ^ 512 ∧ (t.head h.val).hpd = true ∧
      KeepsObjects [Key.dispState h.val, Key.dispEdid h.val, Key.lanepllState (22 + h.val)] s t) ∧
    (s.flag (Key.dispEnable h.val) = false → Completes (.hpdEdge h e) s fun t => (t.head h.val).hpd = true ∧ t = { s with heads := t.heads }) ∧
    (s.flag (Key.dispEnable h.val) = true → Completes (.hpdLow h) s fun t => t.obj (Key.dispState h.val) = 3 ∧ (t.head h.val).hpd = false ∧ (t.head h.val).retryAt = s.wall ∧
      KeepsObjects [Key.dispState h.val, Key.lanepllState (22 + h.val)] s t) ∧
    (s.flag (Key.dispEnable h.val) = false → Completes (.hpdLow h) s fun t => (t.head h.val).hpd = false ∧ t = { s with heads := t.heads }) := by
  have hedge : exec (.hpdEdge h e) s = .next (if s.flag (Key.dispEnable h.val) then (s.putHead h.val { s.head h.val with hpd := true, sink := e }).trainHead h.val else
      s.putHead h.val { s.head h.val with hpd := true, sink := e }) := rfl
  have hlow : exec (.hpdLow h) s = .next (if s.flag (Key.dispEnable h.val) then (s.putHead h.val { s.head h.val with hpd := false }).noSink h.val else
      s.putHead h.val { s.head h.val with hpd := false }) := rfl
  refine ⟨fun hon => ?_, fun hoff => ?_, fun hon => ?_, fun hoff => ?_⟩
  · obtain ⟨hstate, hedid, hhead, hkeep⟩ := trainHead_spec (s.putHead h.val { s.head h.val with hpd := true, sink := e }) h.isLt
    rw [if_pos hon] at hedge
    rw [head_putHead_same] at hedid hhead
    exact ⟨_, hedge, hstate, hedid, by rw [hhead], hkeep⟩
  · rw [hoff, if_neg Bool.false_ne_true] at hedge
    exact ⟨_, hedge, by rw [head_putHead_same], rfl⟩
  · obtain ⟨hstate, hhead, hkeep⟩ := noSink_spec (s.putHead h.val { s.head h.val with hpd := false }) h.isLt
    rw [if_pos hon] at hlow
    rw [head_putHead_same] at hhead
    exact ⟨_, hlow, hstate, by rw [hhead], by rw [hhead]; rfl, hkeep⟩
  · rw [hoff, if_neg Bool.false_ne_true] at hlow
    exact ⟨_, hlow, by rw [head_putHead_same], rfl⟩

/-- Settles O57: what training, fetching, aborting and adopting a set each change, and every command by the case of its `exec`. -/
theorem displayHeads : Obligations.DisplayHeads := by
  unfold Obligations.DisplayHeads
  refine ⟨fun s h e => ?_, fun s h => ⟨?_, ?_, ?_, ?_, ?_, ?_, ?_, ?_, ?_, ?_⟩⟩
  · obtain ⟨h1, h2, h3, h4⟩ := completes_link s h e
    refine ⟨h1, h2, h3, h4, fun htrain => ⟨?_, ?_⟩, fun ok hother => ?_, fun hno hdue => ?_, fun hwait => ?_⟩
    · rw [exec_displayLinkTrained, execDisplayLinkTrained]
      exact if_neg (not_not.mpr htrain)
    · have hexec : exec (.displayLinkTrained h false) s = .next (s.noSink h.val) := by
        rw [exec_displayLinkTrained, execDisplayLinkTrained]
        exact if_neg (not_not.mpr htrain)
      obtain ⟨hstate, hhead, -⟩ := noSink_spec s h.isLt
      exact ⟨_, hexec, hstate, by rw [hhead]⟩
    · rw [exec_displayLinkTrained, execDisplayLinkTrained]
      exact if_pos hother
    · have hexec : exec (.dpTrainingRetry h) s = .next (if (s.head h.val).hpd then s.trainHead h.val else s.noSink h.val) := by
        rw [exec_dpTrainingRetry, execDpTrainingRetry]
        exact if_neg (by rintro (hc | hc); exacts [hc hno, Nat.not_lt.mpr hdue hc])
      obtain ⟨htrained, -⟩ := trainHead_spec s h.isLt
      obtain ⟨hstate, hhead, -⟩ := noSink_spec s h.isLt
      cases hhpd : (s.head h.val).hpd with
      | true =>
        rw [hhpd, if_pos rfl] at hexec
        exact ⟨_, hexec, htrained, fun hc => absurd hc (by decide)⟩
      | false =>
        rw [hhpd, if_neg Bool.false_ne_true] at hexec
        exact ⟨_, hexec, hstate, fun _ => by rw [hhead]⟩
    · rw [exec_dpTrainingRetry, execDpTrainingRetry]
      exact if_pos hwait
  · intro hidle
    rw [exec_displayFrameStart, execDisplayFrameStart]
    exact if_pos (hidle.imp_left fun hoff => by rw [hoff]; rfl)
  · exact fun hon hidle htime => completes_displayFrameStart hon hidle htime
  · intro hidle
    rw [exec_latchPoint, execLatchPoint]
    exact if_pos (hidle.imp (fun hoff => by rw [hoff]; rfl) fun hno => by rw [hno]; rfl)
  · exact fun hon hframe _ => completes_latchPoint hon hframe
  · intro T hdue hon hasked
    have hflip : (s.withDue []).requestFlip h.val = (s.withDue []).putHead h.val
        { s.head h.val with pend := (List.range 3).map (fun l => if s.flag (Key.layDbuf (4 * h.val + l)) then 1 - (s.head h.val).sel.getD l 0 else (s.head h.val).pend.getD l 0), asked := true } := by
      unfold requestFlip
      exact (if_neg (by rw [show (s.withDue []).flag (Key.dispEnable h.val) = true from hon]; exact Bool.false_ne_true)).trans (if_neg (by rw [show ((s.withDue []).head h.val).asked = (s.head h.val).asked from rfl, hasked]; exact Bool.false_ne_true))
    exact ⟨_, dispFlip_of_due hdue, by rw [hflip]; rfl, by rw [hflip, head_putHead_same], by rw [hflip, head_putHead_same], by rw [hflip, head_putHead_same], by rw [hflip]; rfl⟩
  · intro T hdue hon hasked
    have hflip : (s.withDue []).requestFlip h.val = (s.withDue []).bump (Key.dispFlipMerged h.val) := by
      unfold requestFlip
      exact (if_neg (by rw [show (s.withDue []).flag (Key.dispEnable h.val) = true from hon]; exact Bool.false_ne_true)).trans (if_pos hasked)
    refine ⟨_, dispFlip_of_due hdue, by rw [hflip]; rfl, by rw [hflip]; rfl, ?_⟩
    rw [hflip, obj_bump, if_pos rfl, lenOf_dispFlipMerged _ h.isLt]
    show (s.obj (Key.dispFlipMerged h.val) + 1) % 256 ^ 8 = _
    norm_num
  · exact fun hon hframe hsound => completes_scanoutUnderrun hon hframe hsound
  · intro hidle
    rw [exec_scanoutUnderrun, execScanoutUnderrun]
    exact if_pos (.inl (by rw [hidle]; rfl))
  · exact fun hon hframe => completes_scanoutPanic hon hframe
  · intro hidle
    rw [exec_scanoutPanic, execScanoutPanic]
    have hserve : s.serveHead h.val = s := if_neg (by rw [hidle]; exact Bool.false_ne_true)
    rw [hserve]
    exact ite_self _

end Sys2Proof.Machine
end

section
/-! The Tollhouse's slot (17 R448 to R454; 01 R23, R24). -/

namespace Sys2Proof.Machine

/-! ### Tokens -/

/-- The sum of a table over the first n units. -/
def tabSum (t : Tab Nat) (n : Nat) : Nat := (List.range n).foldl (fun a i => a + tabGet 0 t i) 0

theorem tabSum_succ (t : Tab Nat) (n : Nat) : tabSum t (n + 1) = tabSum t n + tabGet 0 t n := by
  unfold tabSum
  rw [List.range_succ, List.foldl_append]
  rfl

theorem tabSum_nil (n : Nat) : tabSum [] n = 0 := by
  induction n with
  | zero => rfl
  | succ n ih => rw [tabSum_succ, ih]; rfl

theorem tabSum_tabSet_le (t : Tab Nat) (k v n : Nat) : tabSum (tabSet 0 t k v) n ≤ tabSum t n + v ∧ (n ≤ k → tabSum (tabSet 0 t k v) n = tabSum t n) := by
  induction n with
  | zero => exact ⟨Nat.zero_le _, fun _ => rfl⟩
  | succ n ih =>
    obtain ⟨hle, heq⟩ := ih
    rw [tabSum_succ, tabSum_succ, tabGet_tabSet]
    constructor
    · by_cases h : n = k
      · rw [if_pos h, heq (by omega)]
        omega
      · rw [if_neg h]
        omega
    · intro hn
      rw [if_neg (by omega), heq (by omega)]

namespace State

theorem tabGet_grantTokens_le (requests : Tab Nat) (order : List Nat) (left n : Nat) : tabGet 0 (grantTokens requests order left) n ≤ tabGet 0 requests n := by
  induction order generalizing left with
  | nil => exact Nat.zero_le _
  | cons m order ih =>
    unfold grantTokens
    dsimp only
    rw [tabGet_tabSet]
    split
    next h => exact h ▸ Nat.min_le_left _ _
    next => exact ih _

theorem tabSum_grantTokens_le (requests : Tab Nat) (order : List Nat) (left n : Nat) : tabSum (grantTokens requests order left) n ≤ left := by
  induction order generalizing left with
  | nil => exact (tabSum_nil n).le.trans (Nat.zero_le _)
  | cons m order ih =>
    unfold grantTokens
    dsimp only
    have hset := (tabSum_tabSet_le (grantTokens requests order (left - min (tabGet 0 requests m) left)) m (min (tabGet 0 requests m) left) n).1
    have hrest := ih (left - min (tabGet 0 requests m) left)
    have hmin := Nat.min_le_right (tabGet 0 requests m) left
    omega

/-! ### What the parts of a slot leave alone -/

/-- The objects that a slot's boost, transactions and checks change. -/
def isSlotKey (k : Nat) : Prop :=
  k ∈ [Key.tolBoost, Key.tolBoosts, Key.tolVset, Key.tolVdd, Key.tolIdd, Key.tolAvsErrors, Key.tolAvsState, Key.statusPromise]

/-- The times, the limit and the objects that a slot's boost, transactions and checks leave alone. -/
structure InSlot (s t : State) : Prop where
  time : t.time = s.time
  undo : t.undo = s.undo
  groups : t.groups = s.groups
  limit : t.toll.limit = s.toll.limit
  keeps : KeepsBut isSlotKey s t

theorem InSlot.trans {s t u : State} (h : InSlot s t) (h' : InSlot t u) : InSlot s u :=
  ⟨h'.time.trans h.time, h'.undo.trans h.undo, h'.groups.trans h.groups, h'.limit.trans h.limit, h.keeps.trans h'.keeps⟩

theorem InSlot.slotTokens {s t : State} (h : InSlot s t) : t.slotTokens = s.slotTokens := by
  have hderate : t.obj Key.tolDerate = s.obj Key.tolDerate := h.keeps _ (by unfold isSlotKey; decide)
  have hmax : t.obj Key.tolTempMax = s.obj Key.tolTempMax := h.keeps _ (by unfold isSlotKey; decide)
  have hbudget : t.obj Key.tolBudget = s.obj Key.tolBudget := h.keeps _ (by unfold isSlotKey; decide)
  unfold State.slotTokens objAt objI
  rw [h.time, h.undo, h.groups, h.limit, hderate, hmax, hbudget]

/-- A slot may raise or lower the boost steps. -/
theorem boostStep_changes (s : State) : ∃ d b r, s.boostStep = (s.withDict d).withToll { s.toll with boostAt := b, removing := r } := by
  unfold boostStep
  dsimp only
  split
  · split
    · exact ⟨s.dict, _, _, rfl⟩
    · exact ⟨_, _, _, rfl⟩
  · split
    · exact ⟨_, s.toll.boostAt, _, rfl⟩
    · exact ⟨s.dict, s.toll.boostAt, s.toll.removing, rfl⟩

theorem keepsBut_boostStep (s : State) : KeepsBut (fun k => k = Key.tolBoost ∨ k = Key.tolBoosts) s s.boostStep := by
  unfold boostStep
  extract_lets b src s1
  split
  · split
    · exact keepsBut_of_dict rfl
    · exact ((keepsBut_of_dict (t := s1) rfl).trans (keepsBut_setObj (.inl rfl) s1 _)).trans (keepsBut_bump (.inr rfl) _)
  · split
    · exact (keepsBut_setObj (.inl rfl) s _).trans (keepsBut_of_dict rfl)
    · exact .refl s

theorem inSlot_boostStep (s : State) : InSlot s s.boostStep := by
  have hkeep : KeepsBut isSlotKey s s.boostStep := (keepsBut_boostStep s).mono fun k hk => by rcases hk with rfl | rfl <;> unfold isSlotKey <;> decide
  obtain ⟨d, b, r, h⟩ := boostStep_changes s
  exact ⟨by rw [h]; rfl, by rw [h]; rfl, by rw [h]; rfl, by rw [h]; rfl, hkeep⟩

theorem boostStep_raises {s : State} (hwant : s.boostWanted = true) (hstate : s.obj Key.tolAvsState ≠ 2) (hderate : s.obj Key.tolDerate ≠ 3) (hsteps : s.obj Key.tolBoost < 4) :
    s.boostStep.obj Key.tolBoost = s.obj Key.tolBoost + 1 ∧ s.boostStep.obj Key.tolBoosts = (s.obj Key.tolBoosts + 1) % 2 ^ 64 := by
  unfold boostStep
  dsimp only
  rw [if_pos hwant, if_neg (by rintro (h | h | h); exacts [hstate h, hderate h, Nat.not_le.mpr hsteps h])]
  constructor
  · rw [obj_bump, if_neg (by decide), obj_setObj, if_pos rfl, lenOf_tolBoost]
    omega
  · rw [obj_bump, if_pos rfl, lenOf_tolBoosts, obj_setObj, if_neg (by decide)]
    show (s.obj Key.tolBoosts + 1) % 256 ^ 8 = _
    norm_num

theorem boostStep_rests {s : State} (hwant : s.boostWanted = false) (hremoving : s.toll.removing = false) : s.boostStep = s := by
  unfold boostStep
  rw [hwant, hremoving]
  rfl

theorem boostStep_lowers {s : State} (hwant : s.boostWanted = false) (hremoving : s.toll.removing = true) : s.boostStep.obj Key.tolBoost = (s.obj Key.tolBoost - 1) % 256 := by
  unfold boostStep
  dsimp only
  rw [hwant, hremoving, if_neg Bool.false_ne_true, if_pos rfl, obj_withToll, obj_setObj, if_pos rfl, lenOf_tolBoost]
  rfl

/-! ### Transactions -/

/-- What the transactions of a slot change. -/
def isAvsKey (k : Nat) : Prop := k ∈ [Key.tolVset, Key.tolVdd, Key.tolIdd, Key.tolAvsErrors, Key.tolAvsState]

/-- The readings of a slot. -/
theorem reading_spec (s : State) (reading : Option (Nat × Nat)) (c : Prop) [Decidable c] :
    let t : State := match reading with
      | some (mv, ma) => if c then (s.setObj Key.tolVdd mv).setObj Key.tolIdd ma else s
      | none => s
    (∃ d, t = s.withDict d) ∧ KeepsBut (fun k => k = Key.tolVdd ∨ k = Key.tolIdd) s t := by
  cases reading with
  | none => exact ⟨⟨s.dict, rfl⟩, .refl s⟩
  | some r =>
    dsimp only
    split
    · exact ⟨⟨_, rfl⟩, (keepsBut_setObj (.inl rfl) s _).trans (keepsBut_setObj (.inr rfl) _ _)⟩
    · exact ⟨⟨s.dict, rfl⟩, .refl s⟩

/-- The retries that a slot leaves. -/
def avsTries (s : State) (ok : Bool) (reading : Option (Nat × Nat)) : Nat :=
  let write := !(s.obj Key.tolAvsState == 2) && s.obj Key.tolVset != s.supplyTarget (s.obj Key.tolBoost)
  let read := s.toll.readDue || s.toll.slots % 64 == 0
  if b2n (write && !ok) + b2n (read && !(ok && reading.isSome)) ≠ 0 then s.toll.retries + 1 else if write || read then 0 else s.toll.retries

/-- The set point that a slot leaves. -/
def nextVset (s : State) (ok : Bool) : Nat :=
  let v := s.obj Key.tolVset
  let target := s.supplyTarget (s.obj Key.tolBoost)
  if s.obj Key.tolAvsState = 2 ∨ ok = false ∨ v = target then v else (if v < target then v + 5 else v - 5) % 65536

theorem avsSlot_spec {s : State} (ok : Bool) (reading : Option (Nat × Nat)) (hserved : avsTries s ok reading < 4 ∨ 4 ≤ s.obj Key.suStage) :
    (∃ d r x, s.avsSlot ok reading = (s.withDict d).withToll { s.toll with retries := r, readDue := x }) ∧ KeepsBut isAvsKey s (s.avsSlot ok reading) ∧
      (s.avsSlot ok reading).obj Key.tolVset = s.nextVset ok ∧ (4 ≤ avsTries s ok reading → s.obj Key.tolAvsState ≠ 2 → (s.avsSlot ok reading).obj Key.tolAvsState = 2) := by
  unfold avsSlot
  extract_lets v target fault write read readOk errors tries src s1 s2 s3 s4
  have htries : tries = avsTries s ok reading := rfl
  have h1 : (∃ d r x, s1 = (s.withDict d).withToll { s.toll with retries := r, readDue := x }) ∧ KeepsBut (· = Key.tolAvsErrors) s s1 :=
    ⟨⟨_, _, _, rfl⟩, (keepsBut_of_dict rfl).trans (keepsBut_addObj (P := (· = Key.tolAvsErrors)) rfl _ _)⟩
  have h2 : (∃ d, s2 = s1.withDict d) ∧ KeepsBut (· = Key.tolVset) s1 s2 ∧ s2.obj Key.tolVset = s.nextVset ok := by
    have hvset : s1.obj Key.tolVset = v := h1.2 _ (by decide)
    simp only [s2]
    split
    next hw =>
      simp only [Bool.and_eq_true, write, fault, Bool.not_eq_true', beq_eq_false_iff_ne, bne_iff_ne] at hw
      obtain ⟨⟨hfault, hne⟩, hok⟩ := hw
      refine ⟨⟨_, rfl⟩, keepsBut_setObj (P := (· = Key.tolVset)) rfl _ _, ?_⟩
      rw [obj_setObj, if_pos rfl, lenOf_tolVset]
      exact (if_neg (by rintro (h | h | h); exacts [hfault h, Bool.false_ne_true (h.symm.trans hok), hne h])).symm
    next hw =>
      refine ⟨⟨s1.dict, rfl⟩, .refl s1, hvset.trans (if_pos ?_).symm⟩
      simp only [Bool.and_eq_true, write, fault, Bool.not_eq_true', beq_eq_false_iff_ne, bne_iff_ne] at hw
      by_contra hno
      rw [not_or, not_or] at hno
      exact hw ⟨⟨hno.1, hno.2.2⟩, Bool.eq_true_of_not_eq_false hno.2.1⟩
  have h3 : (∃ d, s3 = s2.withDict d) ∧ KeepsBut (fun k => k = Key.tolVdd ∨ k = Key.tolIdd) s2 s3 := reading_spec s2 reading ((read && ok) = true)
  clear_value s1 s2 s3
  obtain ⟨⟨d1, r, x, hf1⟩, hk1⟩ := h1
  obtain ⟨⟨d2, hf2⟩, hk2, hvset⟩ := h2
  obtain ⟨⟨d3, hf3⟩, hk3⟩ := h3
  have hform : s3 = (s.withDict d3).withToll { s.toll with retries := r, readDue := x } := by
    rw [hf3, hf2, hf1]
    rfl
  have hkeep : KeepsBut isAvsKey s s3 := ((hk1.mono fun k hk => ?_).trans (hk2.mono fun k hk => ?_)).trans (hk3.mono fun k hk => ?_)
  rotate_left
  · rw [hk]
    unfold isAvsKey
    decide
  · rw [hk]
    unfold isAvsKey
    decide
  · rcases hk with rfl | rfl <;> unfold isAvsKey <;> decide
  have hvset3 : s3.obj Key.tolVset = s.nextVset ok := (hk3 _ (by decide)).trans hvset
  split
  next hfail =>
    have hstage : ¬s4.obj Key.suStage < 4 := by
      have : s4.obj Key.suStage = s.obj Key.suStage := by
        rw [obj_setObj, if_neg (by decide), hkeep _ (by unfold isAvsKey; decide)]
      omega
    rw [if_neg hstage]
    refine ⟨⟨_, r, x, by simp only [s4]; rw [hform]; rfl⟩, hkeep.trans (keepsBut_setObj (by unfold isAvsKey; decide) s3 2), ?_, fun _ _ => ?_⟩
    · rw [obj_setObj, if_neg (by decide), hvset3]
    · rw [obj_setObj, if_pos rfl, lenOf_tolAvsState]
      rfl
  next hgood =>
    refine ⟨⟨d3, r, x, hform⟩, hkeep, hvset3, fun h4 hno => absurd ⟨htries ▸ h4, ?_⟩ hgood⟩
    simpa [fault] using hno

theorem inSlot_avsSlot {s : State} (ok : Bool) (reading : Option (Nat × Nat)) (hserved : avsTries s ok reading < 4 ∨ 4 ≤ s.obj Key.suStage) : InSlot s (s.avsSlot ok reading) := by
  obtain ⟨⟨d, r, x, h⟩, hkeep, -⟩ := avsSlot_spec ok reading hserved
  refine ⟨by rw [h]; rfl, by rw [h]; rfl, by rw [h]; rfl, by rw [h]; rfl, hkeep.mono fun k hk => ?_⟩
  simp only [isAvsKey, isSlotKey, List.mem_cons, List.not_mem_nil, or_false] at hk ⊢
  tauto

/-! ### Checks and the end of a slot -/

theorem supplyCheck_spec (s : State) (v mv : Nat) (rails : Bool) : InSlot s (s.supplyCheck v mv rails) ∧ KeepsBut (· = Key.statusPromise) s (s.supplyCheck v mv rails) := by
  unfold supplyCheck
  extract_lets far left x vOut vIn vOk railOut railIn railsOk
  generalize hu : (s.withToll { x with vOut := vOut, vIn := vIn, vOk := vOk, railOut := railOut, railIn := railIn, railsOk := railsOk }).withCond { s.cond with supplies := vOk && railsOk } = u
  have hkeep : KeepsBut (· = Key.statusPromise) s u.refreshConditions := fun k hk => by
    rw [obj_refreshConditions_of_ne u hk, ← hu]
    rfl
  obtain ⟨d, p, c, h⟩ := refreshConditions_changes u
  refine ⟨⟨?_, ?_, ?_, ?_, hkeep.mono fun k hk => ?_⟩, hkeep⟩
  · rw [h, ← hu]
    rfl
  · rw [h, ← hu]
    rfl
  · rw [h, ← hu]
    rfl
  · rw [h, ← hu]
    rfl
  · rw [hk]
    unfold isSlotKey
    decide

/-- The end of a slot: its grants, and the figures reported. -/
theorem slotEnd_spec (s : State) (requests : Tab Nat) :
    (s.slotEnd requests).toll.slotAt = s.ticks + 1 ∧ (s.slotEnd requests).toll.grants = grantTokens requests s.grantOrder s.slotTokens ∧
      KeepsBut (fun k => k ∈ [Key.tolEff, Key.tolVop, Key.tolLeak, Key.tolTokens, Key.statusPromise]) s (s.slotEnd requests) := by
  unfold slotEnd
  extract_lets k s1
  refine ⟨rfl, rfl, KeepsBut.trans (t := s1) ?_ (keepsBut_of_dict rfl)⟩
  refine KeepsBut.trans ?_ (keepsBut_setPromise (by decide) _ _ _)
  refine KeepsBut.trans ?_ (keepsBut_setObj (by decide) _ _)
  refine KeepsBut.trans ?_ (keepsBut_setObj (by decide) _ _)
  exact (keepsBut_setObj (by decide) _ _).trans (keepsBut_setObj (by decide) _ _)

end State

open State

/-! ### The slot -/

/-- The raises that have come are forgotten at a slot. -/
def State.pastRaises (s : State) : State := s.withToll { s.toll with raise := s.toll.raise.filter fun r => decide (s.time < r.1) }

/-- A slot before its end. -/
def State.slotBody (s : State) (ok : Bool) (mv : Nat) (rd : Option (Nat × Nat)) (rails : Bool) : State :=
  (s.pastRaises.boostStep.avsSlot ok rd).supplyCheck (s.obj Key.tolVset) mv rails

theorem tollhouseSlot_of_due {s : State} (hreleased : s.start.released = true) (hstage : s.obj Key.suStage ≠ 0) (hdue : s.ticks % 400 = 0) (hnew : s.toll.slotAt ≠ s.ticks + 1)
    (r : List (Fin 256 × Nat)) (ok : Bool) (mv : Nat) (rd : Option (Nat × Nat)) (rails : Bool) :
    exec (.tollhouseSlot r ok mv rd rails) s = .next ((s.slotBody ok mv rd rails).slotEnd (r.foldl (fun a e => tabSet 0 a e.1.val e.2) [])) := by
  rw [exec_tollhouseSlot, execTollhouseSlot]
  exact if_neg (by rintro (h | h | h | h); exacts [by simp [hreleased] at h, hstage h, h hdue, hnew h])

theorem avsTries_le (s : State) (ok : Bool) (rd : Option (Nat × Nat)) : avsTries s ok rd ≤ s.toll.retries + 1 := by
  unfold avsTries
  dsimp only
  split
  · exact Nat.le_refl _
  · split
    · exact Nat.zero_le _
    · exact Nat.le_succ _

theorem boosted_keeps (s : State) : (s.pastRaises.boostStep).toll.retries = s.toll.retries ∧ (s.pastRaises.boostStep).toll.readDue = s.toll.readDue ∧
    KeepsBut (fun k => k = Key.tolBoost ∨ k = Key.tolBoosts) s s.pastRaises.boostStep := by
  obtain ⟨d, b, r, h⟩ := boostStep_changes s.pastRaises
  exact ⟨by rw [h]; rfl, by rw [h]; rfl, (keepsBut_of_dict (t := s.pastRaises) rfl).trans (keepsBut_boostStep _)⟩

theorem inSlot_slotBody {s : State} {ok : Bool} {mv : Nat} {rd : Option (Nat × Nat)} {rails : Bool} (hserved : avsTries s.pastRaises.boostStep ok rd < 4 ∨ 4 ≤ s.obj Key.suStage) :
    InSlot s (s.slotBody ok mv rd rails) ∧ (∀ k ∈ [Key.tolBoost, Key.tolBoosts], (s.slotBody ok mv rd rails).obj k = s.pastRaises.boostStep.obj k) ∧
      (s.slotBody ok mv rd rails).obj Key.tolVset = s.pastRaises.boostStep.nextVset ok ∧
      (4 ≤ avsTries s.pastRaises.boostStep ok rd → s.obj Key.tolAvsState ≠ 2 → (s.slotBody ok mv rd rails).obj Key.tolAvsState = 2) := by
  obtain ⟨-, -, hboost⟩ := boosted_keeps s
  have hstage : s.pastRaises.boostStep.obj Key.suStage = s.obj Key.suStage := hboost _ (by decide)
  have hstate : s.pastRaises.boostStep.obj Key.tolAvsState = s.obj Key.tolAvsState := hboost _ (by decide)
  rw [← hstage] at hserved
  have hpast : InSlot s s.pastRaises := ⟨rfl, rfl, rfl, rfl, keepsBut_of_dict rfl⟩
  obtain ⟨-, hkeep, hvset, hfault⟩ := avsSlot_spec ok rd hserved
  obtain ⟨hslot, hcheck⟩ := supplyCheck_spec (s.pastRaises.boostStep.avsSlot ok rd) (s.obj Key.tolVset) mv rails
  refine ⟨((hpast.trans (inSlot_boostStep _)).trans (inSlot_avsSlot ok rd hserved)).trans hslot, fun k hk => ?_, (hcheck _ (by decide)).trans hvset, fun h4 hno => ?_⟩
  · have hk' : k = Key.tolBoost ∨ k = Key.tolBoosts := by simpa using hk
    refine (hcheck k ?_).trans (hkeep k ?_)
    · rcases hk' with rfl | rfl <;> decide
    · rcases hk' with rfl | rfl <;> unfold isAvsKey <;> decide
  · exact (hcheck _ (by decide)).trans (hfault h4 (by rw [hstate]; exact hno))

/-- The end of a slot leaves the steps, the set point and the state of the supply alone. -/
theorem obj_slotEnd (s : State) (requests : Tab Nat) {k : Nat} (hk : k ∈ [Key.tolBoost, Key.tolBoosts, Key.tolVset, Key.tolAvsState]) : (s.slotEnd requests).obj k = s.obj k := by
  obtain ⟨-, -, hkeep⟩ := slotEnd_spec s requests
  refine hkeep k ?_
  simp only [List.mem_cons, List.not_mem_nil, or_false] at hk
  rcases hk with rfl | rfl | rfl | rfl <;> decide

/-- The set point of a slot that follows no boost and no raise. -/
theorem nextVset_of_rest {s : State} {ok : Bool} {v : Nat} (hv : v = s.obj Key.tolVset) (hlt : v < 60000) (hraise : s.toll.raise = []) (hderate : s.obj Key.tolDerate ≠ 3) :
    s.pastRaises.nextVset ok =
      if s.obj Key.tolAvsState = 2 ∨ ok = false then v
      else if v < vopOf (min (s.obj Key.tolBudget) s.toll.limit) + 5 * s.obj Key.tolBoost then v + 5
      else if vopOf (min (s.obj Key.tolBudget) s.toll.limit) + 5 * s.obj Key.tolBoost < v then v - 5 else v := by
  have htarget : s.pastRaises.supplyTarget (s.pastRaises.obj Key.tolBoost) = vopOf (min (s.obj Key.tolBudget) s.toll.limit) + 5 * s.obj Key.tolBoost := by
    unfold supplyTarget pastRaises
    rw [hraise]
    exact if_neg hderate
  unfold nextVset
  rw [htarget]
  dsimp only
  rw [show s.pastRaises.obj Key.tolVset = v from hv.symm, show s.pastRaises.obj Key.tolAvsState = s.obj Key.tolAvsState from rfl]
  generalize vopOf (min (s.obj Key.tolBudget) s.toll.limit) + 5 * s.obj Key.tolBoost = target
  by_cases hstop : s.obj Key.tolAvsState = 2 ∨ ok = false
  · rw [if_pos hstop, if_pos (hstop.imp_right .inl)]
  · rw [if_neg hstop]
    rw [not_or] at hstop
    rcases Nat.lt_trichotomy v target with h | h | h
    · rw [if_neg (by rintro (h1 | h1 | h1); exacts [hstop.1 h1, hstop.2 h1, h.ne h1]), if_pos h, if_pos h]
      exact Nat.mod_eq_of_lt (by omega)
    · rw [if_pos (.inr (.inr h)), if_neg (by omega), if_neg (by omega)]
    · rw [if_neg (by rintro (h1 | h1 | h1); exacts [hstop.1 h1, hstop.2 h1, h.ne' h1]), if_neg (by omega), if_neg (by omega), if_pos h]
      exact Nat.mod_eq_of_lt (by omega)

theorem completes_tollhouseSlot {s : State} (r : List (Fin 256 × Nat)) (ok rails : Bool) (mv : Nat) {v : Nat} (rd : Option (Nat × Nat)) (hreleased : s.start.released = true)
    (hstage : s.obj Key.suStage ≠ 0) (hdue : s.ticks % 400 = 0) (hnew : s.toll.slotAt ≠ s.ticks + 1) (hretries : s.toll.retries < 3) (hv : v = s.obj Key.tolVset) (hlt : v < 60000) :
    Completes (.tollhouseSlot r ok mv rd rails) s fun t => t.toll.slotAt = s.ticks + 1 ∧
      (s.boostWanted = true → s.obj Key.tolAvsState ≠ 2 → s.obj Key.tolDerate ≠ 3 → s.obj Key.tolBoost < 4 → t.obj Key.tolBoost = s.obj Key.tolBoost + 1 ∧ t.obj Key.tolBoosts = (s.obj Key.tolBoosts + 1) % 2 ^ 64) ∧
      (s.boostWanted = false → s.toll.removing = false → t.obj Key.tolBoost = s.obj Key.tolBoost ∧ (s.toll.raise = [] → s.obj Key.tolDerate ≠ 3 → t.obj Key.tolVset =
        if s.obj Key.tolAvsState = 2 ∨ ok = false then v
        else if v < vopOf (min (s.obj Key.tolBudget) s.toll.limit) + 5 * s.obj Key.tolBoost then v + 5
        else if vopOf (min (s.obj Key.tolBudget) s.toll.limit) + 5 * s.obj Key.tolBoost < v then v - 5 else v)) ∧
      (s.boostWanted = false → s.toll.removing = true → t.obj Key.tolBoost = (s.obj Key.tolBoost - 1) % 256) ∧
      (s.obj Key.tolAvsState = 2 → t.obj Key.tolVset = v) ∧
      (∀ n, tabGet 0 t.toll.grants n ≤ tabGet 0 (r.foldl (fun a e => tabSet 0 a e.1.val e.2) []) n) ∧
      ((List.range stageCount).foldl (fun a n => a + tabGet 0 t.toll.grants n) 0 ≤ if s.obj Key.tolDerate = 3 then 0 else 16 * min (s.objAt Key.tolBudget s.time) s.toll.limit - Config.leakage (s.objI Key.tolTempMax)) := by
  obtain ⟨hretry, -, hboosted⟩ := boosted_keeps s
  have htries : avsTries s.pastRaises.boostStep ok rd < 4 := (Nat.lt_succ_of_le (avsTries_le ..)).trans_le (by omega)
  obtain ⟨hslot, hboost, hvset, -⟩ := inSlot_slotBody (s := s) (ok := ok) (mv := mv) (rd := rd) (rails := rails) (.inl htries)
  obtain ⟨hat, hgrants, -⟩ := slotEnd_spec (s.slotBody ok mv rd rails) (r.foldl (fun a e => tabSet 0 a e.1.val e.2) [])
  have htokens : (s.slotBody ok mv rd rails).slotTokens = s.slotTokens := hslot.slotTokens
  have hticks : (s.slotBody ok mv rd rails).ticks = s.ticks := congrArg (· / tick) hslot.time
  refine ⟨_, tollhouseSlot_of_due hreleased hstage hdue hnew r ok mv rd rails, by rw [hat, hticks], fun hwant hstate hderate hsteps => ?_, fun hwant hremoving => ⟨?_, fun hraise hderate => ?_⟩,
    fun hwant hremoving => ?_, fun hstate => ?_, fun n => ?_, ?_⟩
  · obtain ⟨h1, h2⟩ := boostStep_raises (s := s.pastRaises) hwant hstate hderate hsteps
    rw [obj_slotEnd _ _ (by decide), obj_slotEnd _ _ (by decide), hboost _ (by decide), hboost _ (by decide)]
    exact ⟨h1, h2⟩
  · rw [obj_slotEnd _ _ (by decide), hboost _ (by decide), boostStep_rests (s := s.pastRaises) hwant hremoving]
    rfl
  · rw [obj_slotEnd _ _ (by decide), hvset, boostStep_rests (s := s.pastRaises) hwant hremoving]
    exact nextVset_of_rest hv hlt hraise hderate
  · rw [obj_slotEnd _ _ (by decide), hboost _ (by decide)]
    exact boostStep_lowers (s := s.pastRaises) hwant hremoving
  · rw [obj_slotEnd _ _ (by decide), hvset]
    have hstate' : s.pastRaises.boostStep.obj Key.tolAvsState = 2 := (hboosted _ (by decide)).trans hstate
    exact (if_pos (.inl hstate')).trans ((hboosted _ (by decide)).trans hv.symm)
  · rw [hgrants]
    exact tabGet_grantTokens_le ..
  · rw [hgrants, htokens]
    exact tabSum_grantTokens_le ..

theorem completes_tollhouseFault {s : State} (r : List (Fin 256 × Nat)) (rails : Bool) (mv : Nat) (rd : Option (Nat × Nat)) (hreleased : s.start.released = true) (hstage : 4 ≤ s.obj Key.suStage)
    (hdue : s.ticks % 400 = 0) (hnew : s.toll.slotAt ≠ s.ticks + 1) (hretries : s.toll.retries = 3) (hstate : s.obj Key.tolAvsState ≠ 2) (hread : s.toll.readDue = true) :
    Completes (.tollhouseSlot r false mv rd rails) s fun t => t.obj Key.tolAvsState = 2 ∧ t.obj Key.tolVset = s.obj Key.tolVset := by
  obtain ⟨hretry, hreadDue, hboosted⟩ := boosted_keeps s
  obtain ⟨-, -, hvset, hfault⟩ := inSlot_slotBody (s := s) (ok := false) (mv := mv) (rd := rd) (rails := rails) (.inr hstage)
  have htries : avsTries s.pastRaises.boostStep false rd = 4 := by
    unfold avsTries
    dsimp only
    rw [hretry, hreadDue, hretries, hread]
    exact if_pos (by simp [b2n])
  refine ⟨_, tollhouseSlot_of_due hreleased (by omega) hdue hnew r false mv rd rails, ?_, ?_⟩
  · rw [obj_slotEnd _ _ (by decide)]
    exact hfault (by omega) hstate
  · rw [obj_slotEnd _ _ (by decide), hvset]
    exact (if_pos (.inr (.inl rfl))).trans (hboosted _ (by decide))

end Sys2Proof.Machine
end

section
/-! Temperature, derating and the thermal trip (17 R455 to R458). -/

namespace Sys2Proof.Machine

theorem sensorValue_reading {x : Int} (hlo : -16384 ≤ x) (hhi : x < 16384) : sensorValue (x % 32768).toNat = x := by
  unfold sensorValue
  dsimp only
  split <;> omega

theorem sensorWord_fresh (x : Int) : sensorWord x false = (x % 32768).toNat ∧ (x % 32768).toNat < 32768 := by
  unfold sensorWord
  constructor
  · rfl
  · omega

/-- The largest of some values and a start. -/
theorem foldl_max_spec {α : Type} (f : α → Int) (l : List α) (a : Int) :
    (∀ i ∈ l, f i ≤ l.foldl (fun a i => max a (f i)) a) ∧ a ≤ l.foldl (fun a i => max a (f i)) a ∧
      (l.foldl (fun a i => max a (f i)) a = a ∨ ∃ i ∈ l, l.foldl (fun a i => max a (f i)) a = f i) := by
  induction l generalizing a with
  | nil => exact ⟨fun i hi => absurd hi List.not_mem_nil, le_refl a, .inl rfl⟩
  | cons x l ih =>
    rw [List.foldl_cons]
    obtain ⟨hall, hstart, hone⟩ := ih (max a (f x))
    refine ⟨fun i hi => ?_, (le_max_left _ _).trans hstart, ?_⟩
    · rcases List.mem_cons.mp hi with rfl | hi
      · exact (le_max_right _ _).trans hstart
      · exact hall i hi
    · rcases hone with h | ⟨i, hi, h⟩
      · rcases max_choice a (f x) with hm | hm
        · exact .inl (h.trans hm)
        · exact .inr ⟨x, List.mem_cons_self, h.trans hm⟩
      · exact .inr ⟨i, List.mem_cons_of_mem x hi, h⟩

namespace State

/-- The objects of the sensors. -/
def isSensorKey (k : Nat) : Prop := ∃ i < 24, k = Key.tolTemp i

/-- One sensor that no calibration holds is read. -/
theorem readSensor_spec {s : State} {i : Nat} (x : Int) (hrun : s.cal.running = none) (hi : i < 24) :
    (∃ d, s.readSensor i x = (s.withDict d).withToll { s.toll with hot := tabSet 0 s.toll.hot i (if 460 ≤ x then tabGet 0 s.toll.hot i + 1 else 0) }) ∧
      ∀ k, (s.readSensor i x).obj k = if k = Key.tolTemp i then (x % 32768).toNat else s.obj k := by
  have hlt := (sensorWord_fresh x).2
  unfold readSensor
  rw [hrun, if_neg (by simp)]
  dsimp only
  refine ⟨⟨_, rfl⟩, fun k => ?_⟩
  rw [obj_withToll, obj_setObj, lenOf_tolTemp i hi, (sensorWord_fresh x).1]
  split
  · exact Nat.mod_eq_of_lt (by omega)
  · rfl

/-- Sensors from one on are read. -/
theorem readSensors_spec (rs : List Int) {k : Nat} {u : State} (hrun : u.cal.running = none) (hlen : k + rs.length ≤ 24) :
    (∃ d h, (rs.zipIdx k).foldl (fun x r => x.readSensor r.2 r.1) u = (u.withDict d).withToll { u.toll with hot := h } ∧
      (∀ i < k, tabGet 0 h i = tabGet 0 u.toll.hot i) ∧ ∀ i x, rs[i]? = some x → tabGet 0 h (k + i) = if 460 ≤ x then tabGet 0 u.toll.hot (k + i) + 1 else 0) ∧
      (∀ j, (∀ i < 24, k ≤ i → j ≠ Key.tolTemp i) → ((rs.zipIdx k).foldl (fun x r => x.readSensor r.2 r.1) u).obj j = u.obj j) ∧
      ∀ i x, rs[i]? = some x → ((rs.zipIdx k).foldl (fun x r => x.readSensor r.2 r.1) u).obj (Key.tolTemp (k + i)) = (x % 32768).toNat := by
  induction rs generalizing k u with
  | nil => exact ⟨⟨u.dict, u.toll.hot, rfl, fun _ _ => rfl, fun i x h => nomatch h⟩, fun _ _ => rfl, fun i x h => nomatch h⟩
  | cons r rs ih =>
    rw [List.length_cons] at hlen
    obtain ⟨⟨d, hform⟩, hobj⟩ := readSensor_spec (s := u) r hrun (show k < 24 by omega)
    rw [List.zipIdx_cons, List.foldl_cons]
    have hrun' : (u.readSensor k r).cal.running = none := by rw [hform]; exact hrun
    have hhot : ∀ i, tabGet 0 (u.readSensor k r).toll.hot i = if i = k then (if 460 ≤ r then tabGet 0 u.toll.hot k + 1 else 0) else tabGet 0 u.toll.hot i := by
      intro i
      rw [hform]
      exact tabGet_tabSet ..
    obtain ⟨⟨d', h, hform', hbefore, hafter⟩, hkeep, htemp⟩ := ih (k := k + 1) hrun' (by omega)
    refine ⟨⟨d', h, ?_, fun i hi => ?_, fun i x hx => ?_⟩, fun j hj => ?_, fun i x hx => ?_⟩
    · rw [hform', hform]
      rfl
    · rw [hbefore i (by omega), hhot, if_neg (by omega)]
    · cases i with
      | zero =>
        obtain rfl : r = x := Option.some.inj hx
        rw [Nat.add_zero, hbefore k (by omega), hhot, if_pos rfl]
      | succ i =>
        rw [show k + (i + 1) = k + 1 + i by omega, hafter i x hx, hhot, if_neg (show ¬k + 1 + i = k by omega)]
    · rw [hkeep j fun i hi hk => hj i hi (by omega), hobj, if_neg (hj k (by omega) (Nat.le_refl k))]
    · cases i with
      | zero =>
        obtain rfl : r = x := Option.some.inj hx
        rw [hkeep _ (fun i _ hk => by unfold Key.tolTemp; omega), hobj, if_pos (congrArg Key.tolTemp (Nat.add_zero k))]
      | succ i => rw [show k + (i + 1) = k + 1 + i by omega, htemp i x hx]

/-- The largest reading. -/
def hottest (s : State) : Int := (List.range 24).foldl (fun a i => max a (sensorValue (s.obj (Key.tolTemp i)))) (sensorValue (s.obj (Key.tolTemp 0)))

/-- The sensors are read, but nothing yet follows from them. -/
def tempsRead (s : State) (readings : List Int) : State :=
  let s1 := (readings.take 24).zipIdx.foldl (fun x r => x.readSensor r.2 r.1) s.countOvertemp
  let s2 := s1.setObjI Key.tolTempMax s1.hottest
  (s2.withCond { s2.cond with temperature := decide (0 ≤ s1.hottest ∧ s1.hottest ≤ 420) }).refreshConditions

/-- A number of 16 bits survives its object. -/
theorem toSigned_ofSigned_word {x : Int} (hlo : -16384 ≤ x) (hhi : x < 16384) : toSigned (8 * 2) (ofSigned (8 * 2) x % 256 ^ 2) = x := by
  unfold toSigned ofSigned
  norm_num
  split <;> omega

/-- What the readings leave. -/
structure Temps (s : State) (rs : List Int) (t : State) : Prop where
  form : ∃ d p c st h, t = ((((s.withDict d).withPev p).withCond c).withStart st).withToll { s.toll with hot := h } ∧
    ∀ i x, rs[i]? = some x → tabGet 0 h i = if 460 ≤ x then tabGet 0 s.toll.hot i + 1 else 0
  temp : ∀ i x, rs[i]? = some x → t.obj (Key.tolTemp i) = (x % 32768).toNat
  keeps : ∀ k, k ≠ Key.svcOvertemp → k ≠ Key.tolTempMax → k ≠ Key.statusPromise → (∀ i < 24, k ≠ Key.tolTemp i) → t.obj k = s.obj k
  max_mem : t.objI Key.tolTempMax ∈ rs
  le_max : ∀ r ∈ rs, r ≤ t.objI Key.tolTempMax

theorem temps_tempsRead {s : State} {rs : List Int} (hlen : rs.length = 24) (hrange : ∀ r ∈ rs, -16384 ≤ r ∧ r < 16384) (hrun : s.cal.running = none) : Temps s rs (s.tempsRead rs) := by
  unfold tempsRead
  extract_lets s1 s2
  have hcount : (∃ d st, s.countOvertemp = (s.withDict d).withStart st) ∧ ∀ k, k ≠ Key.svcOvertemp → s.countOvertemp.obj k = s.obj k := by
    unfold countOvertemp
    refine ⟨⟨_, _, rfl⟩, fun k hk => ?_⟩
    dsimp only
    rw [obj_addObj, if_neg hk]
    rfl
  obtain ⟨⟨d0, st, hover⟩, hoverobj⟩ := hcount
  have hall : s1 = rs.zipIdx.foldl (fun x r => x.readSensor r.2 r.1) s.countOvertemp := by
    simp only [s1]
    rw [List.take_of_length_le hlen.le]
  obtain ⟨⟨d1, h, hform, -, hhot⟩, hkeep, htemp⟩ := readSensors_spec rs (k := 0) (u := s.countOvertemp) (by rw [hover]; exact hrun) (by omega)
  rw [← hall] at hform hkeep htemp
  clear_value s1
  simp only [Nat.zero_add] at hhot htemp
  have hget : ∀ i < 24, ∃ x, rs[i]? = some x ∧ sensorValue (s1.obj (Key.tolTemp i)) = x := fun i hi => by
    have hx := List.getElem?_eq_getElem (hlen.symm ▸ hi)
    have hmem := List.getElem_mem (hlen.symm ▸ hi : i < rs.length)
    exact ⟨_, hx, by rw [htemp i _ hx, sensorValue_reading (hrange _ hmem).1 (hrange _ hmem).2]⟩
  obtain ⟨hle, hfirst, hone⟩ := foldl_max_spec (fun i => sensorValue (s1.obj (Key.tolTemp i))) (List.range 24) (sensorValue (s1.obj (Key.tolTemp 0)))
  have hmem : s1.hottest ∈ rs := by
    rcases hone with hmax | ⟨i, hi, hmax⟩
    · obtain ⟨x, hx, hval⟩ := hget 0 (by decide)
      exact List.mem_of_getElem? (hx.trans (congrArg some (hmax.trans hval).symm))
    · obtain ⟨x, hx, hval⟩ := hget i (List.mem_range.mp hi)
      exact List.mem_of_getElem? (hx.trans (congrArg some (hmax.trans hval).symm))
  have hmax : ∀ r ∈ rs, r ≤ s1.hottest := fun r hr => by
    obtain ⟨i, hi, hr⟩ := List.getElem_of_mem hr
    obtain ⟨x, hx, hval⟩ := hget i (hlen ▸ hi)
    rw [List.getElem?_eq_getElem hi, hr] at hx
    rw [Option.some.inj hx, ← hval]
    exact hle i (List.mem_range.mpr (hlen ▸ hi))
  generalize hhottest : s1.hottest = m at *
  obtain ⟨hlo, hhi⟩ := hrange m hmem
  generalize hu : s2.withCond { s2.cond with temperature := decide (0 ≤ m ∧ m ≤ 420) } = u
  obtain ⟨d, p, c, hcond⟩ := refreshConditions_changes u
  have hobj2 : ∀ k, k ≠ Key.statusPromise → u.refreshConditions.obj k = if k = Key.tolTempMax then ofSigned (8 * 2) m % 256 ^ 2 else s1.obj k := fun k hk => by
    rw [obj_refreshConditions_of_ne u hk, ← hu]
    show s2.obj k = _
    simp only [s2]
    rw [obj_setObjI, lenOf_tolTempMax, hhottest]
  have hm : u.refreshConditions.objI Key.tolTempMax = m := by
    rw [objI, hobj2 _ (by decide), if_pos rfl, lenOf_tolTempMax, toSigned_ofSigned_word hlo hhi]
  refine ⟨⟨d, p, c, st, h, ?_, fun i x hx => ?_⟩, fun i x hx => ?_, fun k h1 h2 h3 h4 => ?_, by rw [hm]; exact hmem, fun r hr => by rw [hm]; exact hmax r hr⟩
  · rw [hcond, ← hu]
    simp only [s2]
    rw [hform, hover]
    rfl
  · rw [hhot i x hx, hover]
    rfl
  · have hi : i < 24 := hlen ▸ (List.getElem?_eq_some_iff.mp hx).1
    rw [hobj2 _ (by unfold Key.tolTemp Key.statusPromise; omega), if_neg (by unfold Key.tolTemp Key.tolTempMax; omega), htemp i x hx]
  · rw [hobj2 k h3, if_neg h2, hkeep k fun i hi _ => h4 i hi, hoverobj k h1]

end State

open State

/-! ### The commands -/

theorem tempRead_of_released {s : State} (hreleased : s.start.released = true) (rs : List Int) :
    exec (.tempRead rs) s = if (s.tempsRead rs).obj Key.tolDerate = 3 then .next (s.tempsRead rs)
      else if (List.range 24).any fun i => decide (2 ≤ tabGet 0 (s.tempsRead rs).toll.hot i) then .next ((s.tempsRead rs).setObj Key.tolDerate 3)
      else .next (s.tempsRead rs).derateCheck := by
  rw [exec_tempRead, execTempRead]
  exact if_neg (by simp [hreleased])

/-- Derating leaves the sensors alone. -/
theorem derateCheck_spec (s : State) :
    (∃ d x, s.derateCheck = (s.withDict d).withToll x) ∧ (∀ k, k ≠ Key.tolDerate → s.derateCheck.obj k = s.obj k) ∧
      (s.obj Key.tolDerate = 0 → 4 * (s.obj Key.tolThermLimit : Int) ≤ s.objI Key.tolTempMax →
        s.derateCheck.obj Key.tolDerate = 1 ∧ s.derateCheck.toll.limit = s.budget ∧ s.derateCheck.toll.stepAt = s.wall) ∧
      (s.objI Key.tolTempMax < 4 * (s.obj Key.tolThermLimit : Int) → s.derateCheck.obj Key.tolDerate = s.obj Key.tolDerate) := by
  unfold derateCheck
  extract_lets m limit src s1 st d
  obtain ⟨x, hx, hlimit⟩ : ∃ x, s1 = s.withToll x ∧ x.limit = s.toll.limit := by
    simp only [s1]
    split
    · exact ⟨_, rfl, rfl⟩
    · exact ⟨s.toll, rfl, rfl⟩
  have hst : st = s.obj Key.tolDerate := by
    simp only [st]
    rw [hx]
    rfl
  have hobj : ∀ k, s1.obj k = s.obj k := fun k => by
    rw [hx]
    rfl
  have hbudget : s1.budget = s.budget := by
    unfold budget
    rw [hobj, hx]
    exact congrArg _ hlimit
  have hwall : s1.wall = s.wall := by
    rw [hx]
    rfl
  have hd : s.obj Key.tolDerate = 0 → d = s.budget := fun h0 => (if_pos (hst.trans h0)).trans hbudget
  clear_value d st src s1
  split
  next hbegin =>
    refine ⟨⟨((s1.withToll { s1.toll with limit := d, stepAt := s1.wall }).setObj Key.tolDerate 1).dict, { s1.toll with limit := d, stepAt := s1.wall }, ?_⟩, fun k hk => ?_, fun h0 _ => ⟨?_, ?_, hwall⟩,
      fun hcool => absurd hbegin.1 (not_le.mpr hcool)⟩
    · subst hx
      rfl
    · rw [obj_setObj, if_neg hk]
      exact hobj k
    · rw [obj_setObj, if_pos rfl, lenOf_tolDerate]
      rfl
    · exact hd h0
  next hbegin =>
    refine ⟨⟨s.dict, x, hx⟩, fun k _ => hobj k, fun h0 hhot => absurd ⟨hhot, .inl (hst.trans h0)⟩ hbegin, fun _ => hobj _⟩

theorem completes_tempRead {s : State} {rs : List Int} (hreleased : s.start.released = true) (hlen : rs.length = 24) (hrange : ∀ r ∈ rs, -16384 ≤ r ∧ r < 16384) (hrun : s.cal.running = none) :
    Completes (.tempRead rs) s fun t => (∀ i x, rs[i]? = some x → t.obj (Key.tolTemp i) = (x % 32768).toNat) ∧
      ((∃ i x, rs[i]? = some x ∧ 460 ≤ x ∧ 1 ≤ tabGet 0 s.toll.hot i) → t.obj Key.tolDerate = 3) ∧
      ((∀ r ∈ rs, r < 460) → s.obj Key.tolDerate = 0 → (∃ r ∈ rs, 4 * (s.obj Key.tolThermLimit : Int) ≤ r) → t.obj Key.tolDerate = 1 ∧ t.toll.limit = s.budget ∧ t.toll.stepAt = s.wall) ∧
      ((∀ r ∈ rs, r < 460 ∧ r < 4 * (s.obj Key.tolThermLimit : Int)) → t.obj Key.tolDerate = s.obj Key.tolDerate) ∧ t.time = s.time ∧ t.mem = s.mem := by
  have hexec := tempRead_of_released hreleased rs
  obtain ⟨⟨d, p, c, st, h, hform, hhot⟩, htemp, hkeep, hmem, hmax⟩ := temps_tempsRead hlen hrange hrun
  generalize s.tempsRead rs = u at *
  have hkeep' : ∀ k ∈ [Key.tolDerate, Key.tolThermLimit, Key.tolBudget], u.obj k = s.obj k := fun k hk => by
    simp only [List.mem_cons, List.not_mem_nil, or_false, Key.tolDerate, Key.tolThermLimit, Key.tolBudget] at hk
    exact hkeep k (by unfold Key.svcOvertemp; omega) (by unfold Key.tolTempMax; omega) (by unfold Key.statusPromise; omega) fun i _ => by unfold Key.tolTemp; omega
  have hderate := hkeep' Key.tolDerate (by decide)
  have htherm := hkeep' Key.tolThermLimit (by decide)
  have hbudget : u.budget = s.budget := by
    unfold budget
    rw [hkeep' Key.tolBudget (by decide), hform]
    rfl
  have htoll : u.toll.hot = h := by rw [hform]; rfl
  have hcool : (∀ r ∈ rs, r < 460) → (List.range 24).any (fun i => decide (2 ≤ tabGet 0 u.toll.hot i)) = false := fun hlow => by
    rw [List.any_eq_false]
    intro i hi
    have hx := List.getElem?_eq_getElem (hlen.symm ▸ List.mem_range.mp hi : i < rs.length)
    rw [htoll, hhot i _ hx, if_neg (not_le.mpr (hlow _ (List.getElem_mem _)))]
    decide
  have htempne : ∀ i, Key.tolTemp i ≠ Key.tolDerate := fun i => by unfold Key.tolTemp Key.tolDerate; omega
  obtain ⟨⟨d', x', hcform⟩, hckeep, hcbegin, hccool⟩ := derateCheck_spec u
  by_cases h3 : u.obj Key.tolDerate = 3
  · rw [if_pos h3] at hexec
    exact ⟨_, hexec, htemp, fun _ => h3, fun _ h0 _ => absurd (h0.symm.trans (hderate.symm.trans h3)) (by decide), fun _ => hderate, by rw [hform]; rfl, by rw [hform]; rfl⟩
  · rw [if_neg h3] at hexec
    cases hany : (List.range 24).any fun i => decide (2 ≤ tabGet 0 u.toll.hot i) with
    | true =>
      rw [hany, if_pos rfl] at hexec
      refine ⟨_, hexec, fun i x hx => ?_, fun _ => ?_, fun hlow => absurd hany (by rw [hcool hlow]; decide), fun hlow => absurd hany (by rw [hcool fun r hr => (hlow r hr).1]; decide),
        by rw [hform]; rfl, by rw [hform]; rfl⟩
      · rw [obj_setObj, if_neg (htempne i), htemp i x hx]
      · rw [obj_setObj, if_pos rfl, lenOf_tolDerate]
        rfl
    | false =>
      rw [hany, if_neg Bool.false_ne_true] at hexec
      refine ⟨_, hexec, fun i x hx => (hckeep _ (htempne i)).trans (htemp i x hx), fun ⟨i, x, hx, hhigh, hrow⟩ => ?_, fun _ h0 ⟨r, hr, hlimit⟩ => ?_, fun hlow => ?_, by rw [hcform, hform]; rfl, by rw [hcform, hform]; rfl⟩
      · have hi : i < 24 := hlen ▸ (List.getElem?_eq_some_iff.mp hx).1
        have hno := List.any_eq_false.mp hany i (List.mem_range.mpr hi)
        rw [htoll, hhot i x hx, if_pos hhigh] at hno
        exact absurd (decide_eq_true (by omega)) hno
      · obtain ⟨h1, h2, h4⟩ := hcbegin (hderate.trans h0) (by rw [htherm]; exact hlimit.trans (hmax r hr))
        exact ⟨h1, h2.trans hbudget, h4.trans (by rw [hform]; rfl)⟩
      · exact (hccool (by rw [htherm]; exact (hlow _ hmem).2)).trans hderate

end Sys2Proof.Machine
end

section
/-! Derating steps and calibration items (17 R456, R459 to R464). -/

namespace Sys2Proof.Machine
namespace State

/-! ### Admission leaves power alone -/

/-- Objects outside those of the Tollhouse and of calibration. -/
def isAdmissionKey (k : Nat) : Prop := k < 0x110000 ∨ 0x180000 ≤ k

theorem keepsBut_refreshLoads (s : State) : KeepsBut isAdmissionKey s s.refreshLoads := by
  have hset : ∀ {k : Nat}, isAdmissionKey k → ∀ (v : Nat) {u : State}, KeepsBut isAdmissionKey s u → KeepsBut isAdmissionKey s (u.setObj k v) := by
    intro k hk v u hu
    exact hu.trans (keepsBut_setObj hk u v)
  unfold refreshLoads
  extract_lets b views shown s1 s2
  split
  next ds dl as al _ =>
    extract_lets s3
    have h1 : KeepsBut isAdmissionKey s s1 := keepsBut_foldl shown _ (fun x w => keepsBut_setObj (by unfold isAdmissionKey Key.viewCost; omega) x _) s
    clear_value s1
    have h2 : KeepsBut isAdmissionKey s s2 :=
      hset (by unfold isAdmissionKey; decide) _ (hset (by unfold isAdmissionKey; decide) _ (hset (by unfold isAdmissionKey; decide) _ h1))
    clear_value s2
    have h3 : KeepsBut isAdmissionKey s s3 :=
      hset (by unfold isAdmissionKey; decide) _ (hset (by unfold isAdmissionKey; decide) _ (hset (by unfold isAdmissionKey; decide) _ (hset (by unfold isAdmissionKey; decide) _ h2)))
    clear_value s3
    exact hset (by unfold isAdmissionKey; decide) _ (hset (by unfold isAdmissionKey; decide) _ h3)

theorem suspendViews_spec (l : List Nat) (s : State) : (∃ d, s.suspendViews l = s.withDict d) ∧ KeepsBut isAdmissionKey s (s.suspendViews l) := by
  induction l generalizing s with
  | nil => exact ⟨⟨s.dict, rfl⟩, .refl s⟩
  | cons w l ih =>
    unfold suspendViews
    split
    · exact ⟨⟨s.dict, rfl⟩, .refl s⟩
    · split
      · exact ih s
      · obtain ⟨⟨d, h⟩, hkeep⟩ := ih (s.setObj (Key.viewSuspended w) 1)
        exact ⟨⟨d, by rw [h]; rfl⟩, (keepsBut_setObj (by unfold isAdmissionKey Key.viewSuspended; omega) s 1).trans hkeep⟩

theorem readmit_changes (s : State) : (∃ d p, s.readmit = (s.withDict d).withPev p) ∧ KeepsBut isAdmissionKey s s.readmit := by
  unfold readmit refreshAdmitted
  obtain ⟨⟨d1, h1⟩, hk1⟩ := suspendViews_spec (unitsOn s.obj 0x2800 512).reverse s
  generalize s.suspendViews (unitsOn s.obj 0x2800 512).reverse = u at *
  obtain ⟨d2, h2⟩ := refreshLoads_changes u
  have hk2 := keepsBut_refreshLoads u
  dsimp only
  generalize u.refreshLoads = v at *
  obtain ⟨d3, p3, h3⟩ := setPromise_changes v 0 v.admittedNow
  refine ⟨⟨d3, p3, ?_⟩, (hk1.trans hk2).trans (keepsBut_setPromise (by unfold isAdmissionKey; decide) v 0 _)⟩
  rw [h3, h2, h1]
  rfl

theorem refreshPower_readmit_spec (s : State) : s.refreshPower.readmit.toll = s.toll ∧ s.refreshPower.readmit.obj Key.tolDerate = s.obj Key.tolDerate := by
  obtain ⟨⟨d, p, h⟩, hkeep⟩ := readmit_changes s.refreshPower
  refine ⟨by rw [h]; rfl, (hkeep _ (by unfold isAdmissionKey; decide)).trans ?_⟩
  rw [refreshPower, obj_setObj, if_neg (by decide), obj_setObj, if_neg (by decide)]

/-! ### Items -/

@[simp] theorem calItem_putCalItem_same (s : State) (u i : Nat) (x : CalItem) : (s.putCalItem u i x).calItem u i = x := by
  unfold calItem putCalItem
  exact tabGet_tabSet_self ..

theorem calItem_of_cal {s t : State} (h : t.cal.items = s.cal.items) (u i : Nat) : t.calItem u i = s.calItem u i := congrArg (fun x => tabGet ({} : CalItem) x (256 * u + i)) h

/-- A value other than the default stands in a table. -/
theorem mem_of_tabGet_ne {α : Type} {d : α} {t : Tab α} {k : Nat} (h : tabGet d t k ≠ d) : (k, tabGet d t k) ∈ t := by
  induction t with
  | nil => exact absurd rfl h
  | cons e t ih =>
    obtain ⟨k', v⟩ := e
    unfold tabGet at h ⊢
    split
    next hk =>
      rw [hk]
      exact List.mem_cons_self
    next hk =>
      rw [if_neg hk] at h
      exact List.mem_cons_of_mem _ (ih h)

theorem refreshStale_spec (s : State) (u : Nat) :
    (∃ d c, s.refreshStale u = (s.withDict d).withCond c) ∧ KeepsBut (fun k => k = Key.calStaleItems u ∨ k = Key.calStale) s (s.refreshStale u) := by
  unfold refreshStale
  extract_lets n
  obtain ⟨c, h⟩ := noteCauses_changes ((s.setObj (Key.calStaleItems u) n).setObj Key.calStale (setBit (s.obj Key.calStale) u (n != 0)))
  rw [h]
  exact ⟨⟨_, c, rfl⟩, ((keepsBut_setObj (.inl rfl) s _).trans (keepsBut_setObj (.inr rfl) _ _)).trans (keepsBut_of_dict rfl)⟩

/-- A stale item shows in cal.stale. -/
theorem bit_refreshStale {s : State} {u i : Nat} (hu : u < 6) (hi : i < 256) (hstale : s.calStale u i = true) : bit ((s.refreshStale u).obj Key.calStale) u = true := by
  unfold refreshStale
  extract_lets n
  have hmem : (256 * u + i, s.calItem u i) ∈ s.cal.items := mem_of_tabGet_ne (d := ({} : CalItem)) fun h => by
    unfold calStale calItem at hstale
    rw [h] at hstale
    exact Bool.false_ne_true hstale
  have hn : n ≠ 0 := by
    refine (List.length_pos_of_mem (List.mem_filter.mpr ⟨hmem, ?_⟩)).ne'
    rw [Bool.and_eq_true]
    exact ⟨beq_iff_eq.mpr (by dsimp only; omega), hstale⟩
  rw [obj_noteCauses, obj_setObj, if_pos rfl, lenOf_calStale]
  unfold bit
  rw [show (256 : Nat) ^ 1 = 2 ^ 8 by norm_num, Nat.testBit_mod_two_pow, decide_eq_true (by omega), Bool.true_and]
  exact (bit_setBit ..).trans ((if_pos rfl).trans (bne_iff_ne.mpr hn))

theorem calStaleNow_spec (s : State) {u i : Nat} (hu : u < 6) (hi : i < 256) :
    (s.calStaleNow u i).calItem u i = { s.calItem u i with stale := true } ∧ bit ((s.calStaleNow u i).obj Key.calStale) u = true ∧
      (∃ d c, s.calStaleNow u i = ((s.putCalItem u i { s.calItem u i with stale := true }).withDict d).withCond c) ∧
      KeepsBut (fun k => k = Key.calStaleItems u ∨ k = Key.calStale) s (s.calStaleNow u i) := by
  unfold calStaleNow
  obtain ⟨⟨d, c, h⟩, hkeep⟩ := refreshStale_spec (s.putCalItem u i { s.calItem u i with stale := true }) u
  have hitem : (s.putCalItem u i { s.calItem u i with stale := true }).calItem u i = { s.calItem u i with stale := true } := calItem_putCalItem_same ..
  refine ⟨?_, bit_refreshStale hu hi (congrArg CalItem.stale hitem), ⟨d, c, h⟩, (keepsBut_of_dict rfl).trans hkeep⟩
  rw [h]
  exact hitem

/-- Only girders and truss lanes lead to anything. -/
theorem staleEffect_of_other {u : Nat} (h0 : u ≠ 0) (h2 : u ≠ 2) (s : State) (i : Nat) : s.staleEffect u i = s := by
  unfold staleEffect
  rw [if_neg h0, if_neg h2]

theorem holdSensor_spec (s : State) (u i : Nat) (held : Bool) : (∃ d, s.holdSensor u i held = s.withDict d) ∧ KeepsBut (· = Key.tolTemp i) s (s.holdSensor u i held) := by
  unfold holdSensor
  split
  · exact ⟨⟨_, rfl⟩, keepsBut_setObj (P := (· = Key.tolTemp i)) rfl s _⟩
  · exact ⟨⟨s.dict, rfl⟩, .refl s⟩

end State

open State

/-! ### The commands -/

theorem completes_derateFall {s : State} (hst : s.obj Key.tolDerate = 1) (hdue : s.toll.stepAt + 400000 ≤ s.wall) (hhot : 4 * (s.obj Key.tolThermLimit : Int) ≤ s.objI Key.tolTempMax) :
    Completes .derateStep s fun t => t.toll.limit = max 120 (s.toll.limit - 5) ∧ t.toll.stepAt = s.wall ∧ t.obj Key.tolDerate = 1 := by
  have hexec : exec .derateStep s = .next ((s.withToll { s.toll with limit := max 120 (s.toll.limit - 5), stepAt := s.wall }).refreshPower.readmit) := by
    rw [exec_derateStep, execDerateStep]
    dsimp only
    rw [if_neg (by omega)]
    exact if_pos ⟨hst, hhot⟩
  obtain ⟨htoll, hderate⟩ := refreshPower_readmit_spec (s.withToll { s.toll with limit := max 120 (s.toll.limit - 5), stepAt := s.wall })
  exact ⟨_, hexec, by rw [htoll]; rfl, by rw [htoll]; rfl, hderate.trans hst⟩

theorem completes_derateRise {s : State} (hst : s.obj Key.tolDerate = 2) (hdue : s.toll.stepAt + 400000 ≤ s.wall) :
    Completes .derateStep s fun t => t.toll.limit = min 260 (s.toll.limit + 5) ∧ t.toll.stepAt = s.wall ∧ t.obj Key.tolDerate = if 255 ≤ s.toll.limit then 0 else 2 := by
  have hexec : exec .derateStep s = .next (((s.withToll { s.toll with limit := min 260 (s.toll.limit + 5), stepAt := s.wall }).setObj Key.tolDerate (if min 260 (s.toll.limit + 5) = 260 then 0 else 2)).refreshPower.readmit) := by
    rw [exec_derateStep, execDerateStep]
    dsimp only
    rw [if_neg (by omega), if_neg (by omega)]
    exact if_pos (.inl hst)
  obtain ⟨htoll, hderate⟩ := refreshPower_readmit_spec ((s.withToll { s.toll with limit := min 260 (s.toll.limit + 5), stepAt := s.wall }).setObj Key.tolDerate (if min 260 (s.toll.limit + 5) = 260 then 0 else 2))
  refine ⟨_, hexec, by rw [htoll]; rfl, by rw [htoll]; rfl, ?_⟩
  rw [hderate, obj_setObj, if_pos rfl, lenOf_tolDerate]
  by_cases h : 255 ≤ s.toll.limit
  · rw [if_pos h, if_pos (by omega)]
    rfl
  · rw [if_neg h, if_neg (by omega)]
    rfl

theorem calItemStart_of_item {s : State} {u i : Nat} (hrun : s.cal.running = none) (hswap : s.obj Key.fwSwapState ≠ 2) (hstage : 2 ≤ s.obj Key.suStage) (hfailed : s.obj Key.suStage ≠ 6)
    (hnext : s.nextCal = some (u, i)) (hu : u ≠ 0) (hmon : u = 4 → s.monRunningAt s.ticks = false) : exec .calItemStart s = .next (s.beginCal u i) := by
  obtain ⟨v, rfl⟩ := Nat.exists_eq_succ_of_ne_zero hu
  rw [exec_calItemStart, execCalItemStart, if_neg (by rw [hrun]; simp [hswap, hfailed]; omega), hnext]
  exact if_neg fun h => by simp [hmon h.1] at h

theorem completes_calItemStart {s : State} {u i : Nat} (hrun : s.cal.running = none) (hfull : s.cal.full = none) (hswap : s.obj Key.fwSwapState ≠ 2) (hstage : 2 ≤ s.obj Key.suStage)
    (hfailed : s.obj Key.suStage ≠ 6) (hnext : s.nextCal = some (u, i)) (hu : u ≠ 0) (hlt : u < 6) (hi : i < 128) (hmon : u = 4 → s.monRunningAt s.ticks = false) :
    Completes .calItemStart s fun t => t.cal.running = some (u, i) ∧ t.cal.startedAt = s.wall ∧ t.obj (Key.calItem u) = i ∧ t.obj Key.calState = 1 ∧
      KeepsObjects [Key.calItem u, Key.calState, Key.tolTemp i] s t := by
  refine ⟨_, calItemStart_of_item hrun hswap hstage hfailed hnext hu hmon, ?_⟩
  unfold beginCal
  obtain ⟨⟨d, hform⟩, hkeep⟩ := holdSensor_spec s u i true
  have hcal : (s.holdSensor u i true).cal = s.cal := by rw [hform]; rfl
  generalize s.holdSensor u i true = v at *
  rw [hfull]
  refine ⟨rfl, rfl, ?_, ?_, fun k hk => ?_⟩
  · rw [obj_setObj, if_neg (by unfold Key.calItem Key.calState; omega), obj_setObj, if_pos rfl, lenOf_calItem u hlt]
    exact Nat.mod_eq_of_lt (by omega)
  · rw [obj_setObj, if_pos rfl, lenOf_calState]
    rfl
  · simp only [List.mem_cons, List.not_mem_nil, or_false, not_or] at hk
    rw [obj_setObj, if_neg hk.2.1, obj_setObj, if_neg hk.1]
    exact hkeep k hk.2.2

/-- The engine's end of an item of the timebase delay line, with no full run. -/
theorem endCal_delayLine {s : State} (hfull : s.cal.full = none) :
    (s.endCal 3 0).cal.running = none ∧ (s.endCal 3 0).obj Key.calState = 0 ∧ (s.endCal 3 0).obj (Key.calItem 3) = 0xFFFF ∧ (s.endCal 3 0).calItem 3 0 = s.calItem 3 0 ∧
      ∀ k, k ≠ Key.calState → k ≠ Key.calItem 3 → (s.endCal 3 0).obj k = s.obj k := by
  have hform : s.endCal 3 0 = ((s.withCal { s.cal with running := none, full := none }).setObj (Key.calItem 3) 0xFFFF).setObj Key.calState 0 := by
    unfold endCal
    rw [hfull]
    rfl
  rw [hform]
  refine ⟨rfl, ?_, ?_, rfl, fun k h1 h2 => ?_⟩
  · rw [obj_setObj, if_pos rfl, lenOf_calState]
    rfl
  · rw [obj_setObj, if_neg (by decide), obj_setObj, if_pos rfl, lenOf_calItem 3 (by decide)]
    rfl
  · rw [obj_setObj, if_neg h1, obj_setObj, if_neg h2]
    rfl

/-- Do the codes of the timebase delay line pass their checks? -/
theorem calPasses_delayLine (c o : Nat) : calPasses 3 [o] [c] true = true ↔ 2 ≤ c ∧ c ≤ 1021 ∧ c ≤ o + 8 ∧ o ≤ c + 8 := by
  simp [calPasses, calShape]
  omega

/-- An item of the timebase delay line that is done. -/
theorem calItemDone_of_delayLine {s : State} (c : Nat) (hrun : s.cal.running = some (3, 0)) (hfull : s.cal.full = none) (hstart : s.cal.startedAt ≤ s.wall) :
    ∃ due, exec (.calItemDone [c]) s = .next ((((s.offerSet 3 0 [c] true).applyCal 3 0).putCalItem 3 0 { ((s.offerSet 3 0 [c] true).applyCal 3 0).calItem 3 0 with due := due }).endCal 3 0) := by
  rw [exec_calItemDone, execCalItemDone, hrun]
  dsimp only
  rw [if_neg (by simp; omega), hfull]
  refine ⟨(((s.offerSet 3 0 [c] true).applyCal 3 0).calItem 3 0).due + ((s.offerSet 3 0 [c] true).applyCal 3 0).obj (Key.calPeriod 3), ?_⟩
  rw [staleEffect_of_other (by decide) (by decide)]
  exact congrArg Host.Outcome.next (ite_self _)


namespace State

/-- A waiting set is applied. -/
theorem applyCal_of_waiting {s : State} {u i : Nat} {codes : List Nat} (hwait : (s.calItem u i).waiting = some codes) (hu : u < 6) :
    (s.applyCal u i).calItem u i = { s.calItem u i with codes := codes, waiting := none, applied := s.wall, fails := 0, stale := false } ∧ (s.applyCal u i).cal.full = s.cal.full ∧
      (s.applyCal u i).obj (Key.calLast u) = s.time % 256 ^ 10 ∧ KeepsBut (fun k => k = Key.calLast u ∨ k = Key.calStaleItems u ∨ k = Key.calStale) s (s.applyCal u i) := by
  have hkeep := (applyCal_changes s u i).2
  unfold applyCal at hkeep ⊢
  dsimp only at hkeep ⊢
  rw [hwait] at hkeep ⊢
  dsimp only at hkeep ⊢
  generalize hx : ({ s.calItem u i with codes := codes, waiting := none, applied := s.wall, fails := 0, stale := false } : CalItem) = x at *
  obtain ⟨⟨d, c, h⟩, hstale⟩ := refreshStale_spec ((s.putCalItem u i x).setObj (Key.calLast u) s.time) u
  have hitem : (((s.putCalItem u i x).setObj (Key.calLast u) s.time).refreshStale u).calItem u i = x := by
    rw [h]
    exact calItem_putCalItem_same s u i x
  have hfull : (((s.putCalItem u i x).setObj (Key.calLast u) s.time).refreshStale u).cal.full = s.cal.full := by
    rw [h]
    rfl
  have hlast : (((s.putCalItem u i x).setObj (Key.calLast u) s.time).refreshStale u).obj (Key.calLast u) = s.time % 256 ^ 10 := by
    rw [hstale _ (by unfold Key.calLast Key.calStaleItems Key.calStale; omega), obj_setObj, if_pos rfl, lenOf_calLast u hu]
  generalize ((s.putCalItem u i x).setObj (Key.calLast u) s.time).refreshStale u = v at *
  refine ⟨?_, ?_, (obj_raiseEvent v 10 _).trans hlast, hkeep⟩
  · refine (calItem_of_cal ?_ u i).trans hitem
    rw [raiseEvent_eq]
    rfl
  · rw [raiseEvent_eq]
    exact hfull

/-- What a failed set leaves. -/
structure SetFailed (s : State) (u i : Nat) (t : State) : Prop where
  codes : (t.calItem u i).codes = (s.calItem u i).codes
  waiting : (t.calItem u i).waiting = (s.calItem u i).waiting
  fails : (t.calItem u i).fails = (s.calItem u i).fails + 1
  stale : 2 ≤ (s.calItem u i).fails → (t.calItem u i).stale = true
  full : t.cal.full = s.cal.full
  count : t.obj Key.calFails = (s.obj Key.calFails + 1) % 2 ^ 64
  unit : t.obj (Key.calUnitFails u) = (s.obj (Key.calUnitFails u) + 1) % 2 ^ 32

theorem offerSet_of_failed {s : State} {u i : Nat} {codes : List Nat} {limited : Bool} (hfail : calPasses u (s.calItem u i).codes codes limited = false) (hu : u < 6) (hi : i < 256) :
    SetFailed s u i (s.offerSet u i codes limited) := by
  unfold offerSet
  dsimp only
  rw [hfail, if_neg Bool.false_ne_true]
  generalize hx : ({ s.calItem u i with fails := (s.calItem u i).fails + 1 } : CalItem) = x
  obtain ⟨v, hv⟩ : ∃ v, v = ((s.putCalItem u i x).bump Key.calFails).bump (Key.calUnitFails u) := ⟨_, rfl⟩
  have hne : Key.calFails ≠ Key.calUnitFails u := by unfold Key.calFails Key.calUnitFails; omega
  have hitem : (v.raiseEvent 10).calItem u i = x := by
    refine (calItem_of_cal (s := s.putCalItem u i x) ?_ u i).trans (calItem_putCalItem_same ..)
    rw [raiseEvent_eq, hv]
    rfl
  have hfull : (v.raiseEvent 10).cal.full = s.cal.full := by
    rw [raiseEvent_eq, hv]
    rfl
  have hcount : (v.raiseEvent 10).obj Key.calFails = (s.obj Key.calFails + 1) % 2 ^ 64 := by
    rw [obj_raiseEvent, hv, obj_bump, if_neg hne, obj_bump, if_pos rfl, lenOf_calFails]
    show (s.obj Key.calFails + 1) % 256 ^ 8 = _
    norm_num
  have hunit : (v.raiseEvent 10).obj (Key.calUnitFails u) = (s.obj (Key.calUnitFails u) + 1) % 2 ^ 32 := by
    rw [obj_raiseEvent, hv, obj_bump, if_pos rfl, lenOf_calUnitFails u hu, obj_bump, if_neg hne.symm]
    show (s.obj (Key.calUnitFails u) + 1) % 256 ^ 4 = _
    norm_num
  rw [← hv]
  generalize v.raiseEvent 10 = w at *
  split
  next h3 =>
    obtain ⟨hstale, -, ⟨d, c, hform⟩, hkeep⟩ := calStaleNow_spec w hu hi
    refine ⟨?_, ?_, ?_, fun _ => ?_, ?_, ?_, ?_⟩
    · rw [hstale, hitem, ← hx]
    · rw [hstale, hitem, ← hx]
    · rw [hstale, hitem, ← hx]
    · rw [hstale]
    · rw [hform]
      exact hfull
    · rw [hkeep _ (by unfold Key.calFails Key.calStaleItems Key.calStale; omega), hcount]
    · rw [hkeep _ (by unfold Key.calUnitFails Key.calStaleItems Key.calStale; omega), hunit]
  next h3 =>
    refine ⟨by rw [hitem, ← hx], by rw [hitem, ← hx], by rw [hitem, ← hx], fun h2 => absurd (show 3 ≤ (s.calItem u i).fails + 1 by omega) h3, hfull, hcount, hunit⟩

end State

theorem completes_calItemDone {s : State} {c o : Nat} (hrun : s.cal.running = some (3, 0)) (hfull : s.cal.full = none) (hstart : s.cal.startedAt ≤ s.wall) (hcodes : (s.calItem 3 0).codes = [o])
    (hwait : (s.calItem 3 0).waiting = none) (htime : s.time < 2 ^ 80) :
    Completes (.calItemDone [c]) s fun t => t.cal.running = none ∧ t.obj Key.calState = 0 ∧ t.obj (Key.calItem 3) = 0xFFFF ∧
      if 2 ≤ c ∧ c ≤ 1021 ∧ c ≤ o + 8 ∧ o ≤ c + 8 then (t.calItem 3 0).codes = [c] ∧ (t.calItem 3 0).stale = false ∧ (t.calItem 3 0).fails = 0 ∧ t.obj (Key.calLast 3) = s.time ∧
          t.obj Key.calFails = s.obj Key.calFails
        else (t.calItem 3 0).codes = [o] ∧ (t.calItem 3 0).fails = (s.calItem 3 0).fails + 1 ∧ t.obj Key.calFails = (s.obj Key.calFails + 1) % 2 ^ 64 ∧
          t.obj (Key.calUnitFails 3) = (s.obj (Key.calUnitFails 3) + 1) % 2 ^ 32 ∧ (2 ≤ (s.calItem 3 0).fails → (t.calItem 3 0).stale = true) := by
  obtain ⟨due, hexec⟩ := calItemDone_of_delayLine c hrun hfull hstart
  refine ⟨_, hexec, ?_⟩
  by_cases hpass : 2 ≤ c ∧ c ≤ 1021 ∧ c ≤ o + 8 ∧ o ≤ c + 8
  · have hoffer : s.offerSet 3 0 [c] true = s.putCalItem 3 0 { s.calItem 3 0 with waiting := some [c] } := by
      unfold offerSet
      exact if_pos (by rw [hcodes]; exact (calPasses_delayLine c o).mpr hpass)
    have happly := applyCal_of_waiting (s := s.offerSet 3 0 [c] true) (u := 3) (i := 0) (codes := [c]) (by rw [hoffer, calItem_putCalItem_same]) (by decide)
    generalize s.offerSet 3 0 [c] true = v at *
    obtain ⟨hitem, hvfull, hlast, hkeep⟩ := happly
    generalize v.applyCal 3 0 = w at *
    have hwfull : (w.putCalItem 3 0 { w.calItem 3 0 with due := due }).cal.full = none := hvfull.trans (by rw [hoffer]; exact hfull)
    obtain ⟨h1, h2, h3, h4, h5⟩ := endCal_delayLine hwfull
    rw [calItem_putCalItem_same] at h4
    refine ⟨h1, h2, h3, ?_⟩
    rw [if_pos hpass, h4, h5 _ (by decide) (by decide), h5 _ (by decide) (by decide)]
    refine ⟨by rw [hitem], by rw [hitem], by rw [hitem], hlast.trans ?_, (hkeep _ (by decide)).trans (by rw [hoffer]; rfl)⟩
    rw [hoffer]
    exact Nat.mod_eq_of_lt (by norm_num; exact htime)
  · have hfailed : SetFailed s 3 0 (s.offerSet 3 0 [c] true) := offerSet_of_failed (by
      rw [hcodes]
      exact Bool.eq_false_of_not_eq_true fun h => hpass ((calPasses_delayLine c o).mp h)) (by decide) (by decide)
    generalize s.offerSet 3 0 [c] true = v at *
    obtain ⟨hvcodes, hvwait, hvfails, hvstale, hvfull, hvcount, hvunit⟩ := hfailed
    have happly : v.applyCal 3 0 = v := by
      unfold applyCal
      dsimp only
      rw [hvwait, hwait]
    rw [happly]
    have hwfull : (v.putCalItem 3 0 { v.calItem 3 0 with due := due }).cal.full = none := hvfull.trans hfull
    obtain ⟨h1, h2, h3, h4, h5⟩ := endCal_delayLine hwfull
    rw [calItem_putCalItem_same] at h4
    refine ⟨h1, h2, h3, ?_⟩
    rw [if_neg hpass, h4, h5 _ (by decide) (by decide), h5 _ (by decide) (by decide)]
    exact ⟨hvcodes.trans hcodes, hvfails, hvcount, hvunit, hvstale⟩

theorem completes_calAgeTimeout {s : State} {u : Fin 6} {i : Fin 128} (h0 : u.val ≠ 0) (h2 : u.val ≠ 2) (hi : i.val < calCount u.val) (hstage : 2 ≤ s.obj Key.suStage)
    (hfresh : (s.calItem u.val i.val).stale = false) (hdue : (s.calItem u.val i.val).applied + 4 * s.obj (Key.calPeriod u.val) ≤ s.wall) :
    Completes (.calAgeTimeout u i) s fun t => (t.calItem u.val i.val).stale = true ∧ bit (t.obj Key.calStale) u.val = true := by
  have hexec : exec (.calAgeTimeout u i) s = .next (s.calStaleNow u.val i.val) := by
    rw [exec_calAgeTimeout, execCalAgeTimeout]
    rw [if_neg (by rw [hfresh]; simp [h0]; omega), staleEffect_of_other h0 h2]
  obtain ⟨hitem, hbit, -⟩ := calStaleNow_spec s u.isLt (show i.val < 256 by omega)
  exact ⟨_, hexec, by rw [hitem], hbit⟩

/-- Every girder of the first n that is not retired is taken out. -/
theorem takeOutAll_spec (u : State) {n : Nat} (hn : n ≤ 68) :
    let t := (List.range n).foldl (fun x g => if x.obj (Key.girderState g) = girderRetired then x else (x.rerunFrames g).setObj (Key.girderState g) girderCalibrating) u
    (∃ d v, t = (u.withDict d).withViews v) ∧ ∀ g < 68, t.obj (Key.girderState g) = if g < n ∧ u.obj (Key.girderState g) ≠ girderRetired then girderCalibrating else u.obj (Key.girderState g) := by
  induction n with
  | zero => exact ⟨⟨u.dict, u.views, rfl⟩, fun g _ => (if_neg (by rintro ⟨h, -⟩; omega)).symm⟩
  | succ n ih =>
    obtain ⟨⟨d, v, hform⟩, hobj⟩ := ih (by omega)
    rw [List.range_succ, List.foldl_append]
    generalize (List.range n).foldl (fun x g => if x.obj (Key.girderState g) = girderRetired then x else (x.rerunFrames g).setObj (Key.girderState g) girderCalibrating) u = t at *
    have hat := hobj n (by omega)
    rw [if_neg (by rintro ⟨h, -⟩; omega)] at hat
    have hkey : ∀ g, (Key.girderState g = Key.girderState n) ↔ g = n := fun g => by unfold Key.girderState; omega
    simp only [List.foldl_cons, List.foldl_nil]
    split
    next hretired =>
      refine ⟨⟨d, v, hform⟩, fun g hg => ?_⟩
      rw [hobj g hg]
      by_cases hgn : g = n
      · subst hgn
        rw [if_neg (by rintro ⟨h, -⟩; omega), if_neg (by rintro ⟨-, h⟩; exact h (hat ▸ hretired))]
      · have hsame : (g < n ∧ u.obj (Key.girderState g) ≠ girderRetired) ↔ (g < n + 1 ∧ u.obj (Key.girderState g) ≠ girderRetired) := and_congr_left fun _ => by omega
        simp only [hsame]
    next hworking =>
      obtain ⟨w, hw⟩ := rerunFrames_changes t n
      rw [hw]
      refine ⟨⟨_, w, by rw [hform]; rfl⟩, fun g hg => ?_⟩
      rw [obj_setObj]
      by_cases hgn : g = n
      · subst hgn
        rw [if_pos rfl, if_pos ⟨by omega, fun h => hworking (hat.trans h)⟩, lenOf_girderState g hg]
        rfl
      · rw [if_neg (mt (hkey g).mp hgn), obj_withViews, hobj g hg]
        have hsame : (g < n ∧ u.obj (Key.girderState g) ≠ girderRetired) ↔ (g < n + 1 ∧ u.obj (Key.girderState g) ≠ girderRetired) := and_congr_left fun _ => by omega
        simp only [hsame]

/-- The item in progress gives way to a full run. -/
def State.yielded (s : State) : State :=
  match s.cal.running with | some (u, i) => (s.holdSensor u i false).setObj (Key.calItem u) 0xFFFF | none => s

/-- Every girder that is not retired is taken out. -/
def State.allOut (s : State) : State :=
  (List.range 68).foldl (fun x g => if x.obj (Key.girderState g) = girderRetired then x else (x.rerunFrames g).setObj (Key.girderState g) girderCalibrating) s

theorem yielded_spec (s : State) : (∃ d, s.yielded = s.withDict d) ∧ ∀ g < 68, s.yielded.obj (Key.girderState g) = s.obj (Key.girderState g) := by
  unfold State.yielded
  split
  next u i _ =>
    obtain ⟨⟨d, hd⟩, hk⟩ := holdSensor_spec s u i false
    refine ⟨⟨_, by rw [hd]; rfl⟩, fun g hg => ?_⟩
    rw [obj_setObj, if_neg (by unfold Key.girderState Key.calItem; omega), hk _ (by unfold Key.girderState Key.tolTemp; omega)]
  next => exact ⟨⟨s.dict, rfl⟩, fun _ _ => rfl⟩

theorem completes_calFull {s : State} {T : KTime} (hdue : s.due = [(Key.calFull, T)]) (hswap : s.obj Key.fwSwapState ≠ 2) :
    Completes .calFull s fun t => t.due = [] ∧ t.obj Key.calState = 2 ∧ t.cal.full.isSome = true ∧ t.cal.running = none ∧
      ∀ g < 68, t.obj (Key.girderState g) = if s.obj (Key.girderState g) = girderRetired then girderRetired else girderCalibrating := by
  obtain ⟨items, hexec⟩ : ∃ items, exec .calFull s =
      .next (((s.withDue []).yielded.allOut.withCal { (s.withDue []).yielded.allOut.cal with running := none, full := some items, startedAt := (s.withDue []).yielded.allOut.wall }).setObj Key.calState 2) := by
    have hfilter : s.due.filter (fun d => d.1 != Key.calFull) = [] := by rw [hdue]; simp
    rw [exec_calFull, execCalFull]
    dsimp only
    rw [if_neg (by rw [hdue]; simp [hswap]), hfilter]
    unfold State.allOut State.yielded
    cases hrun : (s.withDue []).cal.running with
    | none =>
      dsimp only
      exact ⟨_, rfl⟩
    | some r =>
      dsimp only
      exact ⟨_, rfl⟩
  obtain ⟨⟨d0, hyield⟩, hyobj⟩ := yielded_spec (s.withDue [])
  obtain ⟨⟨d, v, hout⟩, houtobj⟩ := takeOutAll_spec (s.withDue []).yielded (n := 68) (Nat.le_refl _)
  have hform : (s.withDue []).yielded.allOut = (((s.withDue []).withDict d0).withDict d).withViews v := hout.trans (by rw [hyield])
  refine ⟨_, hexec, by rw [hform]; rfl, ?_, rfl, rfl, fun g hg => ?_⟩
  · rw [obj_setObj, if_pos rfl, lenOf_calState]
    rfl
  · rw [obj_setObj, if_neg (by unfold Key.girderState Key.calState; omega), obj_withCal]
    refine (houtobj g hg).trans ?_
    rw [hyobj g hg]
    by_cases hr : s.obj (Key.girderState g) = girderRetired
    · rw [if_pos hr]
      exact (if_neg (by rintro ⟨-, h⟩; exact h hr)).trans hr
    · rw [if_neg hr]
      exact if_pos ⟨hg, hr⟩

/-- The first n items of a unit come due. -/
theorem makeDue_spec (s : State) (w u : Nat) {n : Nat} (hn : n ≤ 256) :
    let t := (List.range n).foldl (fun x i => x.putCalItem u i { x.calItem u i with due := min (x.calItem u i).due w }) s
    (∃ c, t = s.withCal c) ∧ (∀ i < 256, (t.calItem u i).codes = (s.calItem u i).codes) ∧ ∀ i < n, (t.calItem u i).due ≤ w := by
  induction n with
  | zero => exact ⟨⟨s.cal, rfl⟩, fun _ _ => rfl, fun i hi => absurd hi (Nat.not_lt_zero i)⟩
  | succ n ih =>
    obtain ⟨⟨c, hform⟩, hcodes, hdue⟩ := ih (by omega)
    rw [List.range_succ, List.foldl_append]
    generalize (List.range n).foldl (fun x i => x.putCalItem u i { x.calItem u i with due := min (x.calItem u i).due w }) s = t at *
    simp only [List.foldl_cons, List.foldl_nil]
    have hother : ∀ (x : CalItem) (i : Nat), i ≠ n → (t.putCalItem u n x).calItem u i = t.calItem u i := fun x i hi => by
      unfold calItem putCalItem
      exact (tabGet_tabSet ..).trans (if_neg (by omega))
    refine ⟨⟨_, by rw [hform]; rfl⟩, fun i hi => ?_, fun i hi => ?_⟩
    · by_cases hin : i = n
      · subst hin
        rw [calItem_putCalItem_same]
        exact hcodes i hi
      · rw [hother _ i hin, hcodes i hi]
    · by_cases hin : i = n
      · subst hin
        rw [calItem_putCalItem_same]
        exact Nat.min_le_right _ _
      · rw [hother _ i hin]
        exact hdue i (by omega)

theorem calCount_le (u : Fin 6) : calCount u.val ≤ 256 := by
  revert u
  decide

theorem completes_calRun {s : State} {u : Fin 6} {T : KTime} (hdue : s.due = [(Key.calRun u.val, T)]) :
    Completes (.calRun u) s fun t => t.due = [] ∧ (∀ i < calCount u.val, (t.calItem u.val i).due ≤ s.wall ∧ (t.calItem u.val i).codes = (s.calItem u.val i).codes) ∧ t.dict = s.dict := by
  have hfilter : s.due.filter (fun d => d.1 != Key.calRun u.val) = [] := by rw [hdue]; simp
  have hexec : exec (.calRun u) s =
      .next ((List.range (calCount u.val)).foldl (fun x i => x.putCalItem u.val i { x.calItem u.val i with due := min (x.calItem u.val i).due s.wall }) (s.withDue [])) := by
    rw [exec_calRun, execCalRun]
    dsimp only
    rw [if_neg (by rw [hdue]; simp), hfilter]
  obtain ⟨⟨c, hform⟩, hcodes, hdues⟩ := makeDue_spec (s.withDue []) s.wall u.val (calCount_le u)
  refine ⟨_, hexec, by rw [hform]; rfl, fun i hi => ⟨hdues i hi, hcodes i (hi.trans_le (calCount_le u))⟩, by rw [hform]; rfl⟩

end Sys2Proof.Machine
end

section
/-! The monitor converter (17 R465 to R472), and the settling of O58. -/

namespace Sys2Proof.Machine

open State

theorem promoteStart_of_unlatched {s : State} (h : s.mon.latched = false) (t : Nat) : s.promoteStart t = s := by
  unfold promoteStart
  dsimp only
  exact if_pos (by simp [h])

theorem monStartEvent_of_off {s : State} (h : s.objAt Key.monSource (s.mon.from' * tick) = 0) : exec .monStartEvent s = .next s := by
  have hnone : s.nextStart s.mon.from' = none := by
    unfold nextStart
    dsimp only
    rw [h]
    rfl
  rw [exec_monStartEvent, execMonStartEvent, hnone]

theorem completes_monStartEvent {s : State} {st : Nat} (hsource : s.objAt Key.monSource (s.mon.from' * tick) = 1) (hst : st = s.objAt Key.monTimerStart (s.mon.from' * tick)) (hfrom : s.mon.from' ≤ st)
    (hdelay : s.objAt Key.monDelay (st * tick) = 0) (hgrid : st % 4 = 0) (hcome : st ≤ s.ticks) (hruns : s.mon.runs = []) (hlatched : s.mon.latched = false) (hpaused : s.monPaused = false) :
    Completes .monStartEvent s fun t => t.mon.from' = st + 1 ∧ t.mon.runs = [{ start := st, seq := monInputs (s.objAt Key.monSeq (st * tick)) }] ∧ t = { s with mon := t.mon } := by
  have hnext : s.nextStart s.mon.from' = some st := by
    unfold nextStart
    dsimp only
    rw [hsource, ← hst]
    exact congrArg some (if_pos hfrom)
  have hedge : monEdge (st + s.objAt Key.monDelay (st * tick)) = st := by
    rw [hdelay]
    unfold monEdge
    omega
  have hmoved : (s.withMon { s.mon with from' := st + 1 }).promoteStart st = s.withMon { s.mon with from' := st + 1 } :=
    promoteStart_of_unlatched (s := s.withMon { s.mon with from' := st + 1 }) hlatched st
  have hend : (s.withMon { s.mon with from' := st + 1 }).monEnd = 0 := by
    unfold monEnd
    rw [show (s.withMon { s.mon with from' := st + 1 }).mon.runs = [] from hruns]
    rfl
  have hexec : exec .monStartEvent s = .next ((s.withMon { s.mon with from' := st + 1 }).startRun st) := by
    rw [exec_monStartEvent, execMonStartEvent, hnext]
    dsimp only
    rw [hedge, if_neg (Nat.not_lt.mpr hcome), hmoved, hend]
    refine if_pos ⟨?_, Nat.zero_le _, ?_⟩
    · rw [show (s.withMon { s.mon with from' := st + 1 }).monPaused = s.monPaused from rfl, hpaused]
      rfl
    · rw [show (s.withMon { s.mon with from' := st + 1 }).mon.latched = s.mon.latched from rfl, hlatched]
      rfl
  refine ⟨_, hexec, rfl, ?_, rfl⟩
  show (s.mon.runs.filter fun r => r.next < r.seq.length) ++ _ = _
  rw [hruns]
  rfl

theorem monConversion_of_idle {s : State} (hruns : s.mon.runs = []) (hlatched : s.mon.latched = false) (input : Int) : exec (.monConversion input) s = .next s := by
  rw [exec_monConversion, execMonConversion, promoteStart_of_unlatched hlatched, hruns]
  rfl

theorem completes_monConversion {s : State} {r : MonRun} (input : Int) (hruns : s.mon.runs = [r]) (hlatched : s.mon.latched = false) (hleft : r.next < r.seq.length)
    (hcome : r.start + 4 * r.next ≤ s.ticks) (hpaused : s.monPaused = false) :
    Completes (.monConversion input) s fun t => ∃ c : MonCode, t.mon.codes = s.mon.codes ++ [c] ∧ c.edge = r.start + 4 * r.next ∧ c.input = r.seq.getD r.next 0 ∧
      c.ovr = (decide (input < 0) || decide (1048576 < input)) ∧ c.code ≤ 4095 ∧ (0 ≤ input → input < 1048448 → c.code = ((input + 128) / 256).toNat) ∧ (1048448 ≤ input → c.code = 4095) ∧
      t.obj Key.monConversions = (s.obj Key.monConversions + 1) % 2 ^ 64 ∧ KeepsObjects [Key.monConversions] s t := by
  have hexec : exec (.monConversion input) s = .next (s.convert r input) := by
    rw [exec_monConversion, execMonConversion, promoteStart_of_unlatched hlatched, hruns, List.find?_cons_of_pos (p := fun r : MonRun => decide (r.next < r.seq.length)) (decide_eq_true hleft)]
    exact if_neg (by rw [hpaused]; simp; omega)
  refine ⟨_, hexec, _, rfl, rfl, rfl, rfl, Nat.min_le_left _ _, fun hlo hhi => ?_, fun hhi => ?_, ?_, fun k hk => ?_⟩
  · exact Nat.min_eq_right (by omega)
  · exact Nat.min_eq_left (by omega)
  · rw [convert, obj_bump, if_pos rfl, lenOf_monConversions]
    show (s.obj Key.monConversions + 1) % 256 ^ 8 = _
    norm_num
  · rw [convert, obj_bump, if_neg (by simpa using hk)]
    rfl

/-- A comparator that is off takes nothing. -/
theorem compare_of_off {s : State} {c : MonCode} {w : Nat} (h : s.flagAt (Key.cmpEnable w) (c.edge * tick) = false) : s.compare c w = s := by
  unfold State.compare
  exact if_pos (by simp [h])

theorem setWatermarks_changes (l : List Nat) (t : KTime) (s : State) : ∃ x, l.foldl (fun y w => y.setWatermark (0x4000 + w) t) s = s.withTrig x := by
  induction l generalizing s with
  | nil => exact ⟨s.trig, rfl⟩
  | cons w l ih =>
    obtain ⟨x, h⟩ := ih (s.setWatermark (0x4000 + w) t)
    exact ⟨x, h⟩

theorem completes_monCodeReady {s : State} {c : MonCode} {rest : List MonCode} (hcodes : s.mon.codes = c :: rest) (hready : c.edge + 32 ≤ s.ticks) (hinput : c.input < 16) (hcode : c.code < 4096)
    (hedge : c.edge < 2 ^ 64) (hoff : ∀ w < 16, s.flagAt (Key.cmpEnable w) (c.edge * tick) = false) :
    Completes .monCodeReady s fun t => t.mon.codes = rest ∧ t.obj (Key.monTime c.input) = c.edge * tick ∧
      t.obj (Key.monValue c.input) = c.code + (if c.ovr then 4096 else 0) + (if c.settling then 8192 else 0) + 32768 ∧
      ∀ i < 16, i ≠ c.input → t.obj (Key.monValue i) = s.obj (Key.monValue i) := by
  obtain ⟨u, hu⟩ : ∃ u, u = ((s.withMon { s.mon with codes := rest }).setObj (Key.monValue c.input) (State.valueWord c)).setObj (Key.monTime c.input) (c.edge * tick) := ⟨_, rfl⟩
  have hobj : ∀ k, u.obj k = if k = Key.monTime c.input then c.edge * tick % 256 ^ 10 else if k = Key.monValue c.input then State.valueWord c % 256 ^ 4 else s.obj k := fun k => by
    rw [hu, obj_setObj, obj_setObj, lenOf_monTime _ hinput, lenOf_monValue _ hinput]
    rfl
  have hcompare : (List.range 16).foldl (fun x w => x.compare c w) u = u := by
    refine foldl_eq_self _ fun w hw => compare_of_off ?_
    have hflag : u.flagAt (Key.cmpEnable w) (c.edge * tick) = s.flagAt (Key.cmpEnable w) (c.edge * tick) := by
      have hk : u.obj (Key.cmpEnable w) = s.obj (Key.cmpEnable w) := by
        have hw' := List.mem_range.mp hw
        rw [hobj, if_neg (by unfold Key.cmpEnable Key.monTime; omega), if_neg (by unfold Key.cmpEnable Key.monValue; omega)]
      unfold flagAt objAt
      rw [hk, hu]
      rfl
    rw [hflag, hoff w (List.mem_range.mp hw)]
  obtain ⟨x, hmarks⟩ := setWatermarks_changes (List.range 16) (c.edge * tick) u
  have hexec : exec .monCodeReady s = .next (u.withTrig x) := by
    rw [exec_monCodeReady, execMonCodeReady, hcodes]
    dsimp only
    rw [if_neg (Nat.not_lt.mpr hready), ← hu, hcompare, hmarks]
  refine ⟨_, hexec, by rw [hu]; rfl, ?_, ?_, fun i hi hne => ?_⟩
  · rw [obj_withTrig, hobj, if_pos rfl]
    exact Nat.mod_eq_of_lt (by unfold tick; omega)
  · rw [obj_withTrig, hobj, if_neg (by unfold Key.monTime Key.monValue; omega), if_pos rfl]
    unfold valueWord b2n
    cases c.ovr <;> cases c.settling <;> simp <;> omega
  · rw [obj_withTrig, hobj, if_neg (by unfold Key.monTime Key.monValue; omega), if_neg (by unfold Key.monValue; omega)]

theorem cmpSide_spec {low high : Nat} (code : Nat) (h : low ≤ high) :
    (cmpSide low high code = 1 ↔ low ≤ code ∧ code ≤ high) ∧ (cmpSide low high code = 2 ↔ high < code) ∧ (cmpSide low high code = 3 ↔ code < low) := by
  unfold cmpSide
  split
  · omega
  · split <;> omega

/-- Settles O58: the Tollhouse's slot part by part, the readings sensor by sensor, the calibration items and the monitor converter by the case of each command's `exec`. -/
theorem powerAndCalibration : Obligations.PowerAndCalibration := by
  unfold Obligations.PowerAndCalibration
  refine ⟨⟨?_, ?_, ?_, ?_, ?_⟩, ⟨?_, ?_, ?_, ?_, ?_⟩, ⟨?_, ?_, ?_, ?_, ?_, ?_, ?_, ?_, ?_⟩, ?_, ?_, ?_, ?_, ?_, ?_, ?_⟩
  · intro s r ok rails mv rd hwait
    rw [exec_tollhouseSlot, execTollhouseSlot]
    refine if_pos (.inr ?_)
    rcases hwait with h | h | h
    · exact .inr (.inl h)
    · exact .inr (.inr h)
    · exact .inl h
  · exact fun s r ok rails mv v rd hreleased hstage hdue hnew hretries hv hlt => completes_tollhouseSlot r ok rails mv rd hreleased hstage hdue hnew hretries hv hlt
  · exact fun s r rails mv rd hreleased hstage hdue hnew hretries hstate hread => completes_tollhouseFault r rails mv rd hreleased hstage hdue hnew hretries hstate hread
  · intro s hboost hquiet hdue
    rw [exec_boostRemoval, execBoostRemoval]
    exact if_neg (by rintro (h | h | h); exacts [hboost h, by simp [hquiet] at h, Nat.not_lt.mpr hdue h])
  · intro s hwait
    rw [exec_boostRemoval, execBoostRemoval]
    exact if_pos (.inr hwait)
  · exact fun s rs hreleased hlen hrange hrun => completes_tempRead hreleased hlen hrange hrun
  · intro s hearly
    rw [exec_derateStep, execDerateStep]
    exact if_pos (.inr hearly)
  · intro s hst
    rw [exec_derateStep, execDerateStep]
    exact if_pos (.inl (by omega))
  · exact fun s hst hdue hhot => completes_derateFall hst hdue hhot
  · exact fun s hst hdue => completes_derateRise hst hdue
  · intro s hbusy
    rw [exec_calItemStart, execCalItemStart]
    exact if_pos (hbusy.imp_right .inl)
  · exact fun s u i hrun hfull hswap hstage hfailed hnext hu hlt hi hmon => completes_calItemStart hrun hfull hswap hstage hfailed hnext hu hlt hi hmon
  · intro s l hrun
    rw [exec_calItemDone, execCalItemDone, hrun]
  · exact fun s c o hrun hfull hstart hcodes hwait htime => completes_calItemDone hrun hfull hstart hcodes hwait htime
  · intro s u i hearly
    rw [exec_calAgeTimeout, execCalAgeTimeout]
    exact if_pos (.inr (.inr (.inr (.inl hearly))))
  · exact fun s u i h0 h2 hi hstage hfresh hdue => completes_calAgeTimeout h0 h2 hi hstage hfresh hdue
  · intro s hnone
    rw [exec_calFull, execCalFull]
    refine if_pos (.inl ?_)
    rw [List.any_eq_false.mpr fun d hd => by simpa using hnone d hd]
    rfl
  · exact fun s T hdue hswap => completes_calFull hdue hswap
  · exact fun s u T hdue => completes_calRun hdue
  · exact fun s hoff => monStartEvent_of_off hoff
  · exact fun s st hsource hst hfrom hdelay hgrid hcome hruns hlatched hpaused => completes_monStartEvent hsource hst hfrom hdelay hgrid hcome hruns hlatched hpaused
  · exact fun s input hruns hlatched => monConversion_of_idle hruns hlatched input
  · exact fun s r input hruns hlatched hleft hcome hpaused => completes_monConversion input hruns hlatched hleft hcome hpaused
  · intro s c rest hcodes hearly
    rw [exec_monCodeReady, execMonCodeReady, hcodes]
    exact if_pos hearly
  · exact fun s c rest hcodes hready hinput hcode hedge hoff => completes_monCodeReady hcodes hready hinput hcode hedge hoff
  · exact fun low high code h => cmpSide_spec code h

end Sys2Proof.Machine
end

section
/-! Firmware replacement, attestation, keys and memories on the die (18 R483 to R491), and the settling of O59. -/

namespace Sys2Proof.Machine

open State

namespace State

/-! ### Reading an object after writes to others -/

theorem obj_setObj_of_ne (s : State) {k j : Nat} (v : Nat) (h : j ≠ k) : (s.setObj k v).obj j = s.obj j := (obj_setObj s k v j).trans (if_neg h)

theorem obj_setObj_same (s : State) (k v : Nat) : (s.setObj k v).obj k = v % 256 ^ lenOf k := (obj_setObj s k v k).trans (if_pos rfl)

/-- Where only the dictionary had changed, a write of an object leaves it at that. -/
theorem dictOnly_setObj {u x : State} (h : ∃ d, x = u.withDict d) (k v : Nat) : ∃ d, x.setObj k v = u.withDict d := by
  obtain ⟨d, rfl⟩ := h
  exact ⟨_, rfl⟩

/-- A value that fits into its object's one byte is read back. -/
theorem obj_setObj_byte (s : State) {k v : Nat} (hlen : lenOf k = 1) (hv : v < 256) : (s.setObj k v).obj k = v := by
  rw [obj_setObj_same, hlen]
  exact Nat.mod_eq_of_lt hv

/-! ### The events of the firmware and of the dictionary port -/

theorem raiseEvent_count_of_ne (s : State) {n m : Nat} (h : m ≠ n) : tabGet 0 (s.raiseEvent n).pev.evtCount m = tabGet 0 s.pev.evtCount m := by
  simp only [raiseEvent]
  split <;> simp [pendVector, tabUpd, tabGet_tabSet, h]

/-- An unknown operation that ends leaves all but the port and its event. -/
theorem endBadOp_changes (s : State) : (∃ p q, s.endBadOp = (s.withPcie p).withPev q) ∧ tabGet 0 s.endBadOp.pev.evtCount 15 = tabGet 0 s.pev.evtCount 15 := by
  unfold endBadOp
  split
  · obtain ⟨-, ⟨q, hq⟩, -⟩ := endDc_spec s Res.range
    exact ⟨⟨_, q, hq⟩, raiseEvent_count_of_ne _ (by decide)⟩
  · exact ⟨⟨s.pcie, s.pev, rfl⟩, rfl⟩

theorem obj_endBadOp (s : State) (k : Nat) : s.endBadOp.obj k = s.obj k := by
  obtain ⟨⟨p, q, h⟩, -⟩ := endBadOp_changes s
  rw [h]
  rfl

theorem sec_endBadOp (s : State) : s.endBadOp.sec = s.sec := by
  obtain ⟨⟨p, q, h⟩, -⟩ := endBadOp_changes s
  rw [h]
  rfl

end State

/-! ### Loads (18 R477, R485) -/

theorem loadBusy_iff (s : State) : s.loadBusy = true ↔ s.obj Key.fwLoadState = 1 ∨ s.obj Key.fwLoadState = 2 ∨ s.obj Key.fwSwapState ≠ 0 := by
  simp [loadBusy, or_assoc]

theorem loadBusy_eq_false {s : State} (h1 : s.obj Key.fwLoadState ≠ 1) (h2 : s.obj Key.fwLoadState ≠ 2) (h0 : s.obj Key.fwSwapState = 0) : s.loadBusy = false := by
  simp [loadBusy, h1, h2, h0]

theorem inFixed_iff (s : State) (a n : Nat) : s.inFixed a n = true ↔ a + n ≤ s.fixedEnd := by simp [inFixed]

theorem exec_fwLoad_of_ready {s t : State} {a n c : Nat} (hready : s.ready = true) (h : s.immFwLoad a n = (c, t)) : exec (.fwLoad a n) s = .next (t.withResult c) := by
  rw [exec_fwLoad, execFwLoad, act_of_ready hready h]

theorem fwLoad_of_busy {s : State} (a n : Nat) (hready : s.ready = true) (h : s.obj Key.fwLoadState = 1 ∨ s.obj Key.fwLoadState = 2 ∨ s.obj Key.fwSwapState ≠ 0) :
    exec (.fwLoad a n) s = .next (s.withResult Res.busy) :=
  exec_fwLoad_of_ready hready (if_pos ((loadBusy_iff s).mpr h))

theorem fwLoad_of_range {s : State} {a n : Nat} (hready : s.ready = true) (hbusy : s.loadBusy = false) (h : s.fixedEnd < a + n ∨ n < 273 ∨ 12582912 < n) :
    exec (.fwLoad a n) s = .next (s.withResult Res.range) := by
  refine exec_fwLoad_of_ready hready ((if_neg (by simp [hbusy])).trans (if_pos ?_))
  rcases h with h | h
  · exact .inl (by simp [inFixed]; omega)
  · exact .inr h

theorem completes_fwLoad {s : State} {a n : Nat} (hready : s.ready = true) (hbusy : s.loadBusy = false) (hfixed : a + n ≤ s.fixedEnd) (hlow : 273 ≤ n) (hhigh : n ≤ 12582912) :
    Completes (.fwLoad a n) s fun t => t.result = Res.deferred ∧ t.obj Key.fwLoadState = 1 ∧ t.sec = { s.sec with load := some (a, n) } ∧ t.obj Key.fwActive = s.obj Key.fwActive ∧
      t.mem.cells = s.mem.cells := by
  obtain ⟨u, hu⟩ : ∃ u, u = (s.withSec { s.sec with load := some (a, n) }).setObj Key.fwLoadState 1 := ⟨_, rfl⟩
  have hact : s.immFwLoad a n = (Res.deferred, u.memRead .firmware 3 a n) := by
    rw [hu]
    refine (if_neg (by simp [hbusy])).trans (if_neg ?_)
    rw [(inFixed_iff s a n).mpr hfixed]
    simp only [Bool.not_true, Bool.false_eq_true, false_or]
    omega
  obtain ⟨⟨d, m, hm, hcells⟩, hobj, -⟩ := onlyRequests_memRead u .firmware 3 a n
  have hkept : ∀ k, ¬isMemCounter k → (u.memRead .firmware 3 a n).obj k = ((s.withSec { s.sec with load := some (a, n) }).setObj Key.fwLoadState 1).obj k := fun k hk => (hobj k hk).trans (by rw [hu])
  refine ⟨_, exec_fwLoad_of_ready hready hact, rfl, ?_, ?_, ?_, ?_⟩
  · exact (hkept _ (by unfold isMemCounter; unfold Key.memchInorder Key.fwLoadState; simp [Key.memLostWrites, Key.memLostReads]; omega)).trans (obj_setObj_byte _ (lenOf_fwLoadState ..) (by decide))
  · rw [hm, hu]
    rfl
  · exact (hkept _ (by unfold isMemCounter; unfold Key.memchInorder Key.fwActive; simp [Key.memLostWrites, Key.memLostReads]; omega)).trans (obj_setObj_of_ne _ _ (by decide))
  · rw [hm, hu]
    rw [hu] at hcells
    exact hcells

/-- An image that fails its check is answered with its code, and nothing else of the load changes. -/
theorem endLoad_spec (s : State) {st : Nat} (c : Nat) (hst : st < 256) :
    (s.endLoad st c).obj Key.fwLoadState = st ∧ (s.endLoad st c).obj Key.fwLoadResult = c % 256 ∧ (s.endLoad st c).sec = { s.sec with load := none } ∧
      (s.endLoad st c).obj Key.fwActive = s.obj Key.fwActive ∧ (s.endLoad st c).mem = s.mem := by
  unfold endLoad
  refine ⟨?_, ?_, rfl, ?_, rfl⟩
  · rw [obj_setObj_of_ne _ _ (by decide), obj_setObj_byte _ (lenOf_fwLoadState ..) hst]
  · rw [obj_setObj_same, lenOf_fwLoadResult]
    rfl
  · rw [obj_setObj_of_ne _ _ (by decide), obj_setObj_of_ne _ _ (by decide)]
    rfl

theorem takeRead_changes (s : State) (o : Owner) (a n : Nat) : ∃ x, (s.takeRead o a n).2 = s.withMem { s.mem with arrived := x } := ⟨_, rfl⟩

theorem fwLoadChecked_of_outstanding {s : State} (h : s.outstanding .firmware = true) : exec .fwLoadChecked s = .next s := by
  rw [exec_fwLoadChecked, execFwLoadChecked]
  cases hload : s.sec.load with
  | none => rfl
  | some x => exact if_pos (.inr h)

theorem fwLoadChecked_of_state {s : State} (h : s.obj Key.fwLoadState ≠ 1) : exec .fwLoadChecked s = .next s := by
  rw [exec_fwLoadChecked, execFwLoadChecked]
  cases hload : s.sec.load with
  | none => rfl
  | some x => exact if_pos (.inl h)

theorem completes_fwLoadChecked {s : State} {a n : Nat} {c : Code} (hload : s.sec.load = some (a, n)) (hstate : s.obj Key.fwLoadState = 1) (hdone : s.outstanding .firmware = false)
    (hcheck : checkImage (natLE 48 (s.obj Key.secRootHash)) (s.obj Key.secSvn) (s.takeRead .firmware a n).1.1 = c) :
    Completes .fwLoadChecked s fun t => (c ≠ Res.done → t.obj Key.fwLoadState = 4 ∧ t.obj Key.fwLoadResult = c % 256 ∧ t.sec.load = none ∧ t.sec.verified = s.sec.verified) ∧
      (c = Res.done → t.obj Key.fwLoadState = 2 ∧ t.sec.loading = imageOf (s.takeRead .firmware a n).1.1) ∧ t.mem.cells = s.mem.cells := by
  obtain ⟨x, hx⟩ := takeRead_changes s .firmware a n
  have hpair : s.takeRead .firmware a n = (((s.takeRead .firmware a n).1.1, (s.takeRead .firmware a n).1.2), s.withMem { s.mem with arrived := x }) := by rw [← hx]
  have hexec : ∃ v f, exec .fwLoadChecked s = .next (if c ≠ Res.done then (s.withMem { s.mem with arrived := x }).endLoad 4 c else
      ((s.withMem { s.mem with arrived := x }).withSec { s.sec with loading := imageOf (s.takeRead .firmware a n).1.1, loadKind := leNat (((s.takeRead .firmware a n).1.1.drop 6).take 1), verified := v, flash := f }).setObj Key.fwLoadState 2) := by
    rw [exec_fwLoadChecked, execFwLoadChecked, hload]
    dsimp only
    rw [if_neg (by simp [hstate, hdone]), hpair]
    dsimp only
    rw [show checkImage (natLE 48 ((s.withMem { s.mem with arrived := x }).obj Key.secRootHash)) ((s.withMem { s.mem with arrived := x }).obj Key.secSvn) (s.takeRead .firmware a n).1.1 = c from hcheck]
    by_cases hc : c ≠ Res.done
    · exact ⟨{}, [], (if_pos hc).trans (by rw [if_pos hc])⟩
    · refine ⟨_, _, (if_neg hc).trans (by rw [if_neg hc]; rfl)⟩
  obtain ⟨v, f, hexec⟩ := hexec
  refine ⟨_, hexec, fun hc => ?_, fun hc => ?_, ?_⟩
  · rw [if_pos hc]
    obtain ⟨h1, h2, h3, -⟩ := endLoad_spec (s.withMem { s.mem with arrived := x }) (st := 4) c (by decide)
    exact ⟨h1, h2, by rw [h3], by rw [h3]; rfl⟩
  · rw [if_neg (not_not.mpr hc)]
    exact ⟨obj_setObj_byte _ (lenOf_fwLoadState ..) (by decide), rfl⟩
  · split
    · obtain ⟨-, -, -, -, h5⟩ := endLoad_spec (s.withMem { s.mem with arrived := x }) (st := 4) c (by decide)
      rw [h5]
      rfl
    · rfl

/-- An image whose SVN is below c never passes (18 R477, R478). -/
theorem checkImage_of_svn_lt {b : Bytes} (h : Bytes) {c : Nat} (hlt : leNat ((b.drop 7).take 1) < c) : checkImage h c b ≠ Res.done := by
  unfold checkImage
  extract_lets num kind len region body key
  split
  · decide
  · split
    · decide
    · decide

theorem completes_fwLoadVerified {s : State} (hstate : s.obj Key.fwLoadState = 2) (hkind : s.sec.loadKind = 2) :
    (Completes (.fwLoadVerified true) s fun t => t.obj Key.fwLoadState = 3 ∧ t.obj Key.fwLoadResult = Res.done ∧ t.sec.verified = s.sec.loading ∧ t.obj Key.fwActive = s.obj Key.fwActive) ∧
      Completes (.fwLoadVerified false) s fun t => t.obj Key.fwLoadState = 4 ∧ t.sec.verified = s.sec.verified := by
  have hexec (ok : Bool) : exec (.fwLoadVerified ok) s = .next (if ok then
      (s.withSec { s.sec with verified := s.sec.loading, flash := tabSet none s.sec.flash (3 - s.obj Key.fwActive) (some s.sec.loading) }).endLoad 3 Res.done else s.endLoad 4 Res.auth) := by
    rw [exec_fwLoadVerified, execFwLoadVerified, if_neg (by simp [hstate]), if_neg (by rw [hkind]; decide)]
    cases ok <;> rfl
  constructor
  · obtain ⟨h1, h2, h3, h4, -⟩ := endLoad_spec (s.withSec { s.sec with verified := s.sec.loading, flash := tabSet none s.sec.flash (3 - s.obj Key.fwActive) (some s.sec.loading) }) (st := 3) Res.done (by decide)
    exact ⟨_, hexec true, h1, h2, by rw [if_pos rfl, h3]; rfl, h4⟩
  · obtain ⟨h1, -, h3, -⟩ := endLoad_spec s (st := 4) Res.auth (by decide)
    exact ⟨_, hexec false, h1, by rw [if_neg (by decide), h3]⟩

/-! ### Swaps (18 R486) -/

theorem fwSwap_of_ready {s : State} (hready : s.ready = true) : exec .fwSwap s = .next (if s.obj Key.fwSwapState ≠ 0 then s.withResult Res.busy else if s.obj Key.fwLoadState ≠ 3 then s.withResult Res.state
    else (s.setObj Key.fwSwapState 1).withResult Res.done) := by
  rw [exec_fwSwap, execFwSwap]
  refine congrArg Host.Outcome.next ?_
  by_cases h0 : s.obj Key.fwSwapState ≠ 0
  · rw [if_pos h0, act_of_ready hready (if_pos h0)]
  · by_cases h3 : s.obj Key.fwLoadState ≠ 3
    · rw [if_neg h0, if_pos h3, act_of_ready hready ((if_neg h0).trans (if_pos h3))]
    · rw [if_neg h0, if_neg h3, act_of_ready hready ((if_neg h0).trans (if_neg h3))]

/-- The code of a swap that fails is neither DONE nor DEFERRED. -/
theorem swapCode_spec {n : Nat} (h : n < 17) : (if n + 1 < Res.deferred then n + 1 else n + 2) % 256 ≠ Res.done := by
  have hdone : Res.done = 0 := rfl
  by_cases hlow : n + 1 < Res.deferred
  · rw [if_pos hlow, hdone]
    omega
  · rw [if_neg hlow, hdone]
    omega

theorem swapFails_spec (s : State) : s.swapFails.obj Key.fwSwapState = 0 ∧ s.swapFails.obj Key.fwLoadState = 4 ∧ s.swapFails.obj Key.fwActive = s.obj Key.fwActive ∧ s.swapFails.sec = s.sec ∧
    s.swapFails.obj Key.fwSwapResult ≠ Res.done := by
  obtain ⟨n, s1, hdraw, hn, hs1⟩ : ∃ n s1, s.drawNat 17 = (n, s1) ∧ n < 17 ∧ s1 = s.withFree (s.free + 1) := ⟨_, _, rfl, Nat.mod_lt _ (by decide), rfl⟩
  have hfails : s.swapFails = (((s1.setObj Key.fwSwapState 0).setObj Key.fwSwapResult (if n + 1 < Res.deferred then n + 1 else n + 2)).setObj Key.fwLoadState 4).endBadOp := by
    unfold swapFails
    rw [hdraw]
  have hcode := swapCode_spec hn
  generalize (if n + 1 < Res.deferred then n + 1 else n + 2) = c at hfails hcode
  rw [hfails]
  simp only [obj_endBadOp, sec_endBadOp]
  refine ⟨?_, obj_setObj_byte _ (lenOf_fwLoadState ..) (by decide), ?_, by rw [hs1]; rfl, ?_⟩
  · rw [obj_setObj_of_ne _ _ (by decide), obj_setObj_of_ne _ _ (by decide), obj_setObj_byte _ (lenOf_fwSwapState ..) (by decide)]
  · rw [obj_setObj_of_ne _ _ (by decide), obj_setObj_of_ne _ _ (by decide), obj_setObj_of_ne _ _ (by decide), hs1]
    rfl
  · rw [obj_setObj_of_ne _ _ (by decide), obj_setObj_same, lenOf_fwSwapResult]
    exact hcode

theorem completes_fwPrepareDone {s : State} (hstate : s.obj Key.fwSwapState = 1) :
    (Completes (.fwPrepareDone true) s fun t => t.obj Key.fwSwapState = 2 ∧ t.sec.swapAt = s.wall ∧ t.fwReady = false ∧ KeepsObjects [Key.fwSwapState] s t) ∧
      Completes (.fwPrepareDone false) s fun t => t.obj Key.fwSwapState = 0 ∧ t.obj Key.fwLoadState = 4 ∧ t.obj Key.fwActive = s.obj Key.fwActive ∧ t.sec = s.sec ∧
        t.obj Key.fwSwapResult ≠ Res.done := by
  have htwo : ((s.withSec { s.sec with swapAt := s.wall }).setObj Key.fwSwapState 2).obj Key.fwSwapState = 2 := obj_setObj_byte _ (lenOf_fwSwapState ..) (by decide)
  constructor
  · refine ⟨_, ?_, htwo, rfl, ?_, fun k hk => ?_⟩
    · rw [exec_fwPrepareDone, execFwPrepareDone, if_neg (by simp [hstate])]
      exact if_neg (by decide)
    · unfold fwReady
      rw [htwo]
      simp
    · rw [obj_setObj_of_ne _ _ (by simpa using hk)]
      rfl
  · refine ⟨_, ?_, swapFails_spec s⟩
    rw [exec_fwPrepareDone, execFwPrepareDone, if_neg (by simp [hstate])]
    exact if_pos rfl

/-- The objects that the new firmware writes as it begins to serve. -/
def handoverObjects (u : State) (active : Nat) (x : Image) (took : Nat) : State :=
  ((((((u.setObj Key.fwActive active).setObj Key.fwVersion x.version).setObj Key.fwSvn x.svn).setObj Key.fwHandover took).setObj Key.fwSwapState 0).setObj Key.fwSwapResult Res.done).setObj Key.fwLoadState 0

theorem handoverObjects_spec (u : State) {active : Nat} (x : Image) (took : Nat) (h : active < 256) :
    (handoverObjects u active x took).obj Key.fwSwapState = 0 ∧ (handoverObjects u active x took).obj Key.fwActive = active ∧ (handoverObjects u active x took).obj Key.fwSvn = x.svn % 256 ∧
      (handoverObjects u active x took).obj Key.fwHandover = took % 2 ^ 32 ∧ (handoverObjects u active x took).obj Key.fwSwapResult = Res.done := by
  unfold handoverObjects
  refine ⟨?_, ?_, ?_, ?_, ?_⟩
  · rw [obj_setObj_of_ne _ _ (by decide), obj_setObj_of_ne _ _ (by decide), obj_setObj_byte _ (lenOf_fwSwapState ..) (by decide)]
  · rw [obj_setObj_of_ne _ _ (by decide), obj_setObj_of_ne _ _ (by decide), obj_setObj_of_ne _ _ (by decide), obj_setObj_of_ne _ _ (by decide), obj_setObj_of_ne _ _ (by decide),
      obj_setObj_of_ne _ _ (by decide), obj_setObj_byte _ (lenOf_fwActive ..) h]
  · rw [obj_setObj_of_ne _ _ (by decide), obj_setObj_of_ne _ _ (by decide), obj_setObj_of_ne _ _ (by decide), obj_setObj_of_ne _ _ (by decide), obj_setObj_same, lenOf_fwSvn]
    rfl
  · rw [obj_setObj_of_ne _ _ (by decide), obj_setObj_of_ne _ _ (by decide), obj_setObj_of_ne _ _ (by decide), obj_setObj_same, lenOf_fwHandover]
    rfl
  · rw [obj_setObj_of_ne _ _ (by decide), obj_setObj_byte _ (lenOf_fwSwapResult ..) (by decide)]

theorem handoverObjects_changes (u : State) (active : Nat) (x : Image) (took : Nat) : ∃ d, handoverObjects u active x took = u.withDict d := by
  unfold handoverObjects
  exact dictOnly_setObj (dictOnly_setObj (dictOnly_setObj (dictOnly_setObj (dictOnly_setObj (dictOnly_setObj (setObj_changes u _ _) _ _) _ _) _ _) _ _) _ _) _ _

theorem fwHandoverDone_of_handover {s : State} (hstate : s.obj Key.fwSwapState = 2) :
    exec .fwHandoverDone s = .next (handoverObjects (s.withSec { s.sec with firmware := s.sec.verified, verified := {}, bootSeq := (s.sec.bootSeq + 1) % 2 ^ 32, record := some (1 - s.obj Key.fwActive) })
      (1 - s.obj Key.fwActive) s.sec.verified (s.wall - s.sec.swapAt)).firmwareEvent.endBadOp := by
  rw [exec_fwHandoverDone, execFwHandoverDone]
  exact if_neg (not_not.mpr hstate)

theorem completes_fwHandoverDone {s : State} (hstate : s.obj Key.fwSwapState = 2) (hactive : s.obj Key.fwActive ≤ 1) :
    Completes .fwHandoverDone s fun t => t.obj Key.fwSwapState = 0 ∧ t.obj Key.fwActive = 1 - s.obj Key.fwActive ∧ t.sec.firmware = s.sec.verified ∧
      t.obj Key.fwSvn = s.sec.verified.svn % 256 ∧ t.obj Key.fwHandover = (s.wall - s.sec.swapAt) % 2 ^ 32 ∧ t.sec.bootSeq = (s.sec.bootSeq + 1) % 2 ^ 32 ∧ t.obj Key.fwSwapResult = Res.done ∧
      t.pel = s.pel ∧ t.groups = s.groups ∧ tabGet 0 t.pev.evtCount 15 = (tabGet 0 s.pev.evtCount 15 + 1) % 2 ^ 32 := by
  have hexec := fwHandoverDone_of_handover hstate
  generalize hy : { s.sec with firmware := s.sec.verified, verified := {}, bootSeq := (s.sec.bootSeq + 1) % 2 ^ 32, record := some (1 - s.obj Key.fwActive) } = y at hexec
  obtain ⟨hswap, hact, hsvn, htook, hres⟩ := handoverObjects_spec (s.withSec y) s.sec.verified (s.wall - s.sec.swapAt) (active := 1 - s.obj Key.fwActive) (by omega)
  obtain ⟨d, hd⟩ := handoverObjects_changes (s.withSec y) (1 - s.obj Key.fwActive) s.sec.verified (s.wall - s.sec.swapAt)
  generalize handoverObjects (s.withSec y) (1 - s.obj Key.fwActive) s.sec.verified (s.wall - s.sec.swapAt) = u at hexec hswap hact hsvn htook hres hd
  have hobj (k : Nat) : u.firmwareEvent.endBadOp.obj k = u.obj k := (obj_endBadOp _ k).trans (obj_raiseEvent u 15 k)
  obtain ⟨⟨p, q, hform⟩, hcount⟩ := endBadOp_changes u.firmwareEvent
  have hsec : u.firmwareEvent.endBadOp.sec = y := by
    rw [sec_endBadOp, firmwareEvent, raiseEvent_eq, hd]
    rfl
  refine ⟨_, hexec, (hobj _).trans hswap, (hobj _).trans hact, by rw [hsec, ← hy], (hobj _).trans hsvn, (hobj _).trans htook, by rw [hsec, ← hy], (hobj _).trans hres, ?_, ?_, ?_⟩
  · rw [hform, firmwareEvent, raiseEvent_eq, hd]
    rfl
  · rw [hform, firmwareEvent, raiseEvent_eq, hd]
    rfl
  · rw [hcount, firmwareEvent, raiseEvent_count, hd]
    rfl

theorem completes_fwHandoverTimeout {s : State} (hstate : s.obj Key.fwSwapState = 2) (hlate : s.sec.swapAt + 200000 ≤ s.wall) :
    Completes .fwHandoverTimeout s fun t => t.obj Key.fwSwapState = 0 ∧ t.obj Key.fwActive = s.obj Key.fwActive ∧ t.sec = s.sec ∧ t.obj Key.fwLoadState = 4 := by
  obtain ⟨h1, h2, h3, h4, -⟩ := swapFails_spec (s.setObj Key.fwHandover (s.wall - s.sec.swapAt))
  refine ⟨_, ?_, h1, h3.trans (obj_setObj_of_ne _ _ (by decide)), h4, h2⟩
  rw [exec_fwHandoverTimeout, execFwHandoverTimeout]
  exact if_neg (by simp only [hstate, ne_eq, not_true, false_or]; omega)

theorem fwHandoverTimeout_of_early {s : State} (h : s.wall < s.sec.swapAt + 200000) : exec .fwHandoverTimeout s = .next s := by
  rw [exec_fwHandoverTimeout, execFwHandoverTimeout]
  exact if_pos (.inr h)

/-! ### Rollback (18 R488) -/

theorem exec_fwConfirm_of_ready {s t : State} {c : Nat} (hready : s.ready = true) (h : s.immFwConfirm = (c, t)) : exec .fwConfirm s = .next (t.withResult c) := by
  rw [exec_fwConfirm, execFwConfirm, act_of_ready hready h]

theorem completes_fwConfirm {s : State} (hready : s.ready = true) (hlow : s.obj Key.fwSvn ≤ 127) (hne : s.obj Key.secSvn ≠ s.obj Key.fwSvn) (h1 : s.obj Key.fwSvn ≤ s.sec.svns.1)
    (h2 : s.obj Key.fwSvn ≤ s.sec.svns.2) :
    Completes .fwConfirm s fun t => t.result = Res.done ∧ t.obj Key.secSvn = s.obj Key.fwSvn ∧ t.obj Key.secSvnLeft = 127 - s.obj Key.fwSvn ∧ KeepsObjects [Key.secSvn, Key.secSvnLeft] s t := by
  refine ⟨_, exec_fwConfirm_of_ready hready ((if_neg hne).trans (if_neg (by omega))), rfl, ?_, ?_, fun k hk => ?_⟩
  · rw [obj_withResult, obj_setObj_of_ne _ _ (by decide), obj_setObj_byte _ (lenOf_secSvn ..) (by omega)]
  · rw [obj_withResult, obj_setObj_byte _ (lenOf_secSvnLeft ..) (by omega)]
  · simp only [List.mem_cons, List.not_mem_nil, or_false, not_or] at hk
    rw [obj_withResult, obj_setObj_of_ne _ _ hk.2, obj_setObj_of_ne _ _ hk.1]

end Sys2Proof.Machine
end

section
/-! Attestation, the owner key and the memories on the die (18 R481 to R484, R490, R491), and the settling of O59. -/

namespace Sys2Proof.Machine

open State

/-! ### Attestation (18 R483) -/

theorem attNonce_of_busy {s : State} (n : Bytes) (hready : s.ready = true) (h : s.obj Key.attState = 1) : exec (.attNonce n) s = .next (s.withResult Res.busy) := by
  rw [exec_attNonce, execAttNonce, act_of_ready hready (if_pos h)]

/-- A nonce of 32 bytes needs no padding. -/
theorem padTo_take {n : Bytes} (h : n.length = 32) : padTo 32 (n.take 32) = n := by
  rw [List.take_of_length_le h.le, padTo, h]
  exact List.append_nil n

/-- MAGIC, VERSION, NODE and TIME, 14 bytes, the nonce and the rest (18 Table 18-3). -/
theorem reportBody_eq (s : State) {n : Bytes} (h : n.length = 32) :
    ∃ mid rest : Bytes, mid.length = 14 ∧ s.reportBody n = (natLE 4 0x4D415431 ++ natLE 2 1 ++ natLE 2 (s.obj Key.spanNode) ++ natLE 10 s.time) ++ (mid ++ (n ++ rest)) := by
  unfold reportBody
  extract_lets flags
  rw [padTo_take h]
  refine ⟨natLE 1 (s.obj Key.secSvn) ++ (natLE 1 flags ++ (natLE 4 (s.obj Key.fwVersion) ++ (natLE 4 (s.obj Key.fwStage1Version) ++ natLE 4 (s.obj Key.trLibVersion)))), ?_, by simp only [List.length_append, length_natLE], ?_⟩
  rotate_left
  · simp only [List.append_assoc]
    rfl

theorem reportBody_spec (s : State) {n : Bytes} (h : n.length = 32) :
    (s.reportBody n).take 18 = natLE 4 0x4D415431 ++ natLE 2 1 ++ natLE 2 (s.obj Key.spanNode) ++ natLE 10 s.time ∧ ((s.reportBody n).drop 32).take 32 = n := by
  obtain ⟨mid, rest, hmid, heq⟩ := reportBody_eq s h
  have hhead : (natLE 4 0x4D415431 ++ natLE 2 1 ++ natLE 2 (s.obj Key.spanNode) ++ natLE 10 s.time).length = 18 := by simp only [List.length_append, length_natLE]
  generalize natLE 4 0x4D415431 ++ natLE 2 1 ++ natLE 2 (s.obj Key.spanNode) ++ natLE 10 s.time = head at heq hhead
  rw [heq]
  refine ⟨List.take_left' hhead, ?_⟩
  rw [← List.append_assoc, List.drop_left' (by rw [List.length_append, hhead, hmid])]
  exact List.take_left' h

theorem completes_attNonce {s : State} {n : Bytes} (hready : s.ready = true) (hidle : s.obj Key.attState ≠ 1) (h : n.length = 32) :
    Completes (.attNonce n) s fun t => t.result = Res.done ∧ t.obj Key.attState = 1 ∧
      t.sec.report.take 18 = natLE 4 0x4D415431 ++ natLE 2 1 ++ natLE 2 (s.obj Key.spanNode) ++ natLE 10 s.time ∧ (t.sec.report.drop 32).take 32 = n ∧ KeepsObjects [Key.attState] s t := by
  obtain ⟨htake, hdrop⟩ := reportBody_spec s h
  have hexec : exec (.attNonce n) s =
      .next (((s.withSec { s.sec with report := s.reportBody n, signAfter := (s.recd.segments.filter fun x => x.stage == 1).map (·.id) }).setObj Key.attState 1).withResult Res.done) := by
    rw [exec_attNonce, execAttNonce, act_of_ready hready (if_neg hidle)]
  refine ⟨_, hexec, rfl, ?_, htake, hdrop, fun k hk => ?_⟩
  · rw [obj_withResult, obj_setObj_byte _ (lenOf_attState ..) (by decide)]
  · rw [obj_withResult, obj_setObj_of_ne _ _ (by simpa using hk)]
    rfl

theorem any_signAfter_iff (s : State) :
    (s.recd.segments.any fun x => x.stage == 1 && s.sec.signAfter.contains x.id) = true ↔ ∃ x ∈ s.recd.segments, x.stage = 1 ∧ x.id ∈ s.sec.signAfter := by
  simp

theorem attReportReady_of_not {s : State} (h : s.obj Key.attState ≠ 1 ∨ ∃ x ∈ s.recd.segments, x.stage = 1 ∧ x.id ∈ s.sec.signAfter) : exec .attReportReady s = .next s := by
  rw [exec_attReportReady, execAttReportReady]
  exact if_pos (h.imp_right (any_signAfter_iff s).mpr)

theorem leNat_append_mod {a : Bytes} {n : Nat} (b : Bytes) (h : a.length = n) : leNat (a ++ b) % 256 ^ n = leNat a := by
  rw [leNat_append, h, Nat.add_mul_mod_self_left, Nat.mod_eq_of_lt (h ▸ leNat_lt a)]

theorem completes_attReportReady {s : State} (hstate : s.obj Key.attState = 1) (hlen : s.sec.report.length = 400) (hfree : ∀ x ∈ s.recd.segments, x.stage = 1 → x.id ∉ s.sec.signAfter) :
    Completes .attReportReady s fun t => t.obj Key.attState = 2 ∧ t.obj Key.attReport % 256 ^ 400 = leNat s.sec.report ∧ KeepsObjects [Key.attState, Key.attReport] s t := by
  have hno : ¬∃ x ∈ s.recd.segments, x.stage = 1 ∧ x.id ∈ s.sec.signAfter := fun ⟨x, hx, hst, hid⟩ => hfree x hx hst hid
  have hexec : ∃ sig, exec .attReportReady s = .next (((s.withFree (s.free + 1)).setObj Key.attReport (leNat (s.sec.report ++ sig))).setObj Key.attState 2) := by
    rw [exec_attReportReady, execAttReportReady]
    exact ⟨_, if_neg (not_or.mpr ⟨not_not.mpr hstate, fun h => hno ((any_signAfter_iff s).mp h)⟩)⟩
  obtain ⟨sig, hexec⟩ := hexec
  refine ⟨_, hexec, obj_setObj_byte _ (lenOf_attState ..) (by decide), ?_, fun k hk => ?_⟩
  · rw [obj_setObj_of_ne _ _ (by decide), obj_setObj_same, lenOf_attReport, Nat.mod_mod_of_dvd _ (pow_dvd_pow 256 (show 400 ≤ 496 by decide)), leNat_append_mod sig hlen]
  · simp only [List.mem_cons, List.not_mem_nil, or_false, not_or] at hk
    rw [obj_setObj_of_ne _ _ hk.1, obj_setObj_of_ne _ _ hk.2]
    rfl

/-! ### The owner key (18 R484) -/

theorem secOwnerKey_of_ready {s : State} (k : Bytes) (hready : s.ready = true) :
    exec (.secOwnerKey k) s = .next (if s.obj Key.secOwnerHash ≠ 0 then s.withResult Res.locked else if pointOf k = none then s.withResult Res.range
      else ((s.setObj Key.secOwnerKey (leNat k)).setObj Key.secOwnerHash (leNat (sha384 k))).withResult Res.done) := by
  rw [exec_secOwnerKey, execSecOwnerKey]
  refine congrArg Host.Outcome.next ?_
  by_cases hset : s.obj Key.secOwnerHash ≠ 0
  · rw [if_pos hset, act_of_ready hready (if_pos hset)]
  · by_cases hpoint : pointOf k = none
    · rw [if_neg hset, if_pos hpoint, act_of_ready hready ((if_neg hset).trans (if_pos (by rw [hpoint]; rfl)))]
    · rw [if_neg hset, if_neg hpoint, act_of_ready hready ((if_neg hset).trans (if_neg (by rw [Option.isNone_iff_eq_none]; exact hpoint)))]

/-! ### Memories on the die (18 R490, R491) -/

theorem configScrub_of_early {s : State} (c u : Nat) (h : s.wall < s.sec.scrubAt + 400000000) : exec (.configScrub c u) s = .next s := by
  rw [exec_configScrub, execConfigScrub]
  exact if_pos h

theorem completes_configScrub {s : State} (c u : Nat) (h : s.sec.scrubAt + 400000000 ≤ s.wall) :
    Completes (.configScrub c u) s fun t => t.obj Key.svcSramCe = (s.obj Key.svcSramCe + c) % 2 ^ 64 ∧ t.obj Key.svcSramUe = (s.obj Key.svcSramUe + u) % 2 ^ 64 ∧
      t.sec = { s.sec with restoring := s.sec.restoring || u != 0, scrubAt := s.wall } ∧ KeepsObjects [Key.svcSramCe, Key.svcSramUe] s t := by
  have hexec : exec (.configScrub c u) s =
      .next (((s.addObj Key.svcSramCe c).addObj Key.svcSramUe u).withSec { s.sec with restoring := s.sec.restoring || u != 0, scrubAt := s.wall }) := by
    rw [exec_configScrub, execConfigScrub]
    exact if_neg (Nat.not_lt.mpr h)
  refine ⟨_, hexec, ?_, ?_, rfl, fun k hk => ?_⟩
  · rw [obj_withSec, obj_addObj, if_neg (by decide), obj_addObj, if_pos rfl, lenOf_svcSramCe]
    rfl
  · rw [obj_withSec, obj_addObj, if_pos rfl, obj_addObj, if_neg (by decide), lenOf_svcSramUe]
    rfl
  · simp only [List.mem_cons, List.not_mem_nil, or_false, not_or] at hk
    rw [obj_withSec, obj_addObj, if_neg hk.2, obj_addObj, if_neg hk.1]

theorem cond_noteCauses (s : State) : s.noteCauses.cond = { s.cond with log := s.noteCauses.cond.log } := by
  unfold noteCauses
  extract_lets c o
  split <;> rfl

/-- Beyond the promise, the check of the conditions notes causes only (17 R449). -/
theorem cond_refreshConditions (s : State) : s.refreshConditions.cond = { s.cond with log := s.refreshConditions.cond.log } := by
  unfold refreshConditions
  obtain ⟨d, p, h⟩ := setPromise_changes s 2 (s.cond.supplies && s.cond.temperature && s.cond.timebase && s.cond.excursionUntil.isNone)
  rw [h]
  exact cond_noteCauses _

theorem bit_refreshConditions (s : State) :
    bit (s.refreshConditions.obj Key.statusPromise) 2 = (s.cond.supplies && s.cond.temperature && s.cond.timebase && s.cond.excursionUntil.isNone) := by
  rw [refreshConditions, obj_noteCauses, bit_obj_setPromise s (by decide), if_pos rfl]

theorem ueExcursionEnd_of_early {s : State} {w : Nat} (hw : s.cond.excursionUntil = some w) (h : s.wall < w) : exec .ueExcursionEnd s = .next s := by
  rw [exec_ueExcursionEnd, execUeExcursionEnd, hw]
  exact if_pos h

theorem completes_ueExcursionEnd {s : State} {w : Nat} (hw : s.cond.excursionUntil = some w) (h : w ≤ s.wall) :
    Completes .ueExcursionEnd s fun t => t.cond = { s.cond with excursionUntil := none, log := t.cond.log } ∧
      bit (t.obj Key.statusPromise) 2 = (s.cond.supplies && s.cond.temperature && s.cond.timebase) ∧ KeepsObjects [Key.statusPromise] s t := by
  have hexec : exec .ueExcursionEnd s = .next (s.withCond { s.cond with excursionUntil := none }).refreshConditions := by
    rw [exec_ueExcursionEnd, execUeExcursionEnd, hw]
    exact if_neg (Nat.not_lt.mpr h)
  refine ⟨_, hexec, cond_refreshConditions _, ?_, fun k hk => ?_⟩
  · rw [bit_refreshConditions]
    exact Bool.and_true _
  · exact obj_refreshConditions_of_ne _ (by simpa using hk)

/-- Settles O59, command by command: loads, swaps and rollback; the report, the owner key, the scrubbing and the excursions. -/
theorem securityCommands : Obligations.SecurityCommands := by
  unfold Obligations.SecurityCommands
  refine ⟨⟨?_, ?_, ?_, ?_, ?_, ?_, ?_, ?_, ?_, ?_, ?_, ?_⟩, ?_, ?_, ?_, ?_, ?_, ?_, ?_, ?_, ?_, ?_⟩
  · exact fun s a n hready => ⟨fwLoad_of_busy a n hready, fun h1 h2 h0 => fwLoad_of_range hready (loadBusy_eq_false h1 h2 h0),
      fun h1 h2 h0 => completes_fwLoad hready (loadBusy_eq_false h1 h2 h0)⟩
  · exact fun s h => fwLoadChecked_of_outstanding h
  · exact fun s a n c hload hstate hdone hcheck => completes_fwLoadChecked hload hstate hdone hcheck
  · exact fun s h => fwLoadChecked_of_state h
  · exact fun b h c hlt => checkImage_of_svn_lt h hlt
  · exact fun s hstate hkind => completes_fwLoadVerified hstate hkind
  · exact fun s hready => fwSwap_of_ready hready
  · exact fun s hstate => completes_fwPrepareDone hstate
  · exact fun s hstate hactive => completes_fwHandoverDone hstate hactive
  · exact fun s hstate hlate => completes_fwHandoverTimeout hstate hlate
  · exact fun s h => fwHandoverTimeout_of_early h
  · exact fun s hready hlow => ⟨fun h => exec_fwConfirm_of_ready hready (if_pos h), fun hne h => exec_fwConfirm_of_ready hready ((if_neg hne).trans (if_pos h)), completes_fwConfirm hready hlow⟩
  · exact fun s n hready h => attNonce_of_busy n hready h
  · exact fun s n hready hidle h => completes_attNonce hready hidle h
  · exact fun s h => attReportReady_of_not h
  · exact fun s hstate hlen hfree => completes_attReportReady hstate hlen hfree
  · exact fun s k hready => secOwnerKey_of_ready k hready
  · exact fun s c u h => configScrub_of_early c u h
  · exact fun s c u h => completes_configScrub c u h
  · exact fun s => by rw [exec_configRestoreDone, execConfigRestoreDone]
  · exact fun s w hw h => ueExcursionEnd_of_early hw h
  · exact fun s w hw h => completes_ueExcursionEnd hw h

end Sys2Proof.Machine
end

section
/-! Power-on reset, the release of PERST_L and the boot (13 R354; 18 R475 to R479, R484; 19 R497 to R501). -/

namespace Sys2Proof.Machine

open State

/-! ### Power-on reset (19 R497) -/

/-- The four objects that fuses hold. -/
def fusedKeys : List Nat := [Key.secSvn, Key.secSvnLeft, Key.secOwnerKey, Key.secOwnerHash]

/-- The fused objects of a state copied into another. -/
def keepFused (s u : State) : State := fusedKeys.foldl (fun y k => y.setObj k (s.obj k)) u

theorem keepFused_changes (s u : State) : ∃ d, keepFused s u = u.withDict d := by
  unfold keepFused fusedKeys
  exact dictOnly_setObj (dictOnly_setObj (dictOnly_setObj (setObj_changes u _ _) _ _) _ _) _ _

theorem obj_keepFused_of_not_mem (s u : State) {k : Nat} (hk : k ∉ fusedKeys) : (keepFused s u).obj k = u.obj k := by
  unfold fusedKeys at hk
  simp only [List.mem_cons, List.not_mem_nil, or_false, not_or] at hk
  obtain ⟨h1, h2, h3, h4⟩ := hk
  show ((((u.setObj _ _).setObj _ _).setObj _ _).setObj _ _).obj k = _
  rw [obj_setObj_of_ne _ _ h4, obj_setObj_of_ne _ _ h3, obj_setObj_of_ne _ _ h2, obj_setObj_of_ne _ _ h1]

theorem secSvn_keepFused (s u : State) : (keepFused s u).obj Key.secSvn = s.obj Key.secSvn % 256 := by
  show ((((u.setObj _ _).setObj _ _).setObj _ _).setObj _ _).obj Key.secSvn = _
  rw [obj_setObj_of_ne _ _ (by decide), obj_setObj_of_ne _ _ (by decide), obj_setObj_of_ne _ _ (by decide), obj_setObj_same, lenOf_secSvn]
  rfl

theorem defaultOf_suStage : defaultOf Key.suStage = 0 := by decide

theorem defaultOf_ksState : defaultOf Key.ksState = 0 := by decide

/-- What a power-on reset leaves beside the fused objects: the queue, the free values, what was sent, the drives, and the flash. -/
def resetBut (s : State) : State :=
  ((((State.reset.withPending s.pending).withFree s.free).withOutbox s.outbox).withRecd { stored := s.recd.stored }).withSec
    { bootSeq := s.sec.bootSeq, flash := s.sec.flash, record := s.sec.record }

theorem powerOnReset_eq (s : State) : exec .powerOnReset s = .next (keepFused s (resetBut s)) := rfl

theorem obj_resetBut (s : State) (k : Nat) : (resetBut s).obj k = defaultOf k := rfl

theorem completes_powerOnReset (s : State) : Completes .powerOnReset s fun t => t.time = 0 ∧ t.obj Key.suStage = 0 ∧ t.obj Key.ksState = 0 ∧ t.groups = [] ∧ t.due = [] ∧ t.mem = {} ∧ t.acq = {} ∧
    t.pel = {} ∧ t.pcie = {} ∧ t.span = {} ∧ t.cores = [] ∧ t.movers = [] ∧ t.sec.boardLock = false ∧ t.sec.keysLock = false ∧ t.start.released = false ∧ t.pending = s.pending ∧ t.outbox = s.outbox ∧
    t.recd.stored = s.recd.stored ∧ t.sec.bootSeq = s.sec.bootSeq ∧ t.sec.flash = s.sec.flash ∧ t.sec.record = s.sec.record ∧ (s.obj Key.secSvn < 256 → t.obj Key.secSvn = s.obj Key.secSvn) ∧
    (∀ k, k ∉ [Key.secSvn, Key.secSvnLeft, Key.secOwnerKey, Key.secOwnerHash] → t.obj k = defaultOf k) := by
  have hobj (k : Nat) (hk : k ∉ fusedKeys) : (keepFused s (resetBut s)).obj k = defaultOf k := (obj_keepFused_of_not_mem s _ hk).trans (obj_resetBut s k)
  have hstage := (hobj _ (by decide)).trans defaultOf_suStage
  have hks := (hobj _ (by decide)).trans defaultOf_ksState
  have hsvn := secSvn_keepFused s (resetBut s)
  have hexec := powerOnReset_eq s
  obtain ⟨d, hd⟩ := keepFused_changes s (resetBut s)
  rw [hd] at hobj hstage hks hsvn hexec
  exact ⟨_, hexec, rfl, hstage, hks, rfl, rfl, rfl, rfl, rfl, rfl, rfl, rfl, rfl, rfl, rfl, rfl, rfl, rfl, rfl, rfl, rfl, rfl,
    fun h => hsvn.trans (Nat.mod_eq_of_lt h), hobj⟩

/-! ### The release of PERST_L (19 R501; 15 R400) -/

theorem perstRelease_of_released {s : State} (x : Straps) (h : s.start.released = true) : exec (.perstRelease x) s = .next s := by
  rw [exec_perstRelease, execPerstRelease]
  exact if_pos h

/-- A node outside the span that the straps describe. -/
def OutsideSpan (x : Straps) : Prop := x.spanX.val + 1 ≤ x.nodeId.val % 8 ∨ x.spanY.val + 1 ≤ x.nodeId.val / 8 ∨ x.spanCount.val + 1 ≤ x.spanId.val

theorem neighbourOf_of_strapError {s : State} (h : s.obj Key.spanState = 3) (p : Nat) : s.neighbourOf p = none := by
  unfold neighbourOf
  exact if_pos h

theorem completes_perstRelease {s : State} (x : Straps) (h : s.start.released = false) :
    Completes (.perstRelease x) s fun t => t.start.released = true ∧ t.start.releaseAt = s.wall ∧
      t.obj Key.spanNode = x.spanId.val * 64 + x.nodeId.val ∧ t.obj Key.spanX = x.spanX.val + 1 ∧ t.obj Key.spanY = x.spanY.val + 1 ∧ t.obj Key.spanCount = x.spanCount.val + 1 ∧
      (t.obj Key.spanState = 3 ↔ OutsideSpan x) ∧ (OutsideSpan x → ∀ p, t.neighbourOf p = none) := by
  obtain ⟨bad, hbad⟩ : ∃ b, b = (decide (x.spanX.val + 1 ≤ x.nodeId.val % 8) || decide (x.spanY.val + 1 ≤ x.nodeId.val / 8) || decide (x.spanCount.val + 1 ≤ x.spanId.val)) := ⟨_, rfl⟩
  have hiff : bad = true ↔ OutsideSpan x := by
    rw [hbad]
    simp only [OutsideSpan, Bool.or_eq_true, decide_eq_true_eq, or_assoc]
  obtain ⟨u, hu⟩ : ∃ u, u = (((s.withStart { s.start with released := true, releaseAt := s.wall }).setObj Key.spanNode (x.spanId.val * 64 + x.nodeId.val)).setObj Key.spanX (x.spanX.val + 1)).setObj
    Key.spanY (x.spanY.val + 1) := ⟨_, rfl⟩
  have hexec : exec (.perstRelease x) s = .next ((u.setObj Key.spanCount (x.spanCount.val + 1)).setObj Key.spanState (if bad then 3 else 0)) := by
    rw [exec_perstRelease, execPerstRelease, hu, hbad]
    exact if_neg (by simp [h])
  have hstart : u.start = { s.start with released := true, releaseAt := s.wall } := by
    rw [hu]
    rfl
  have hstate : ((u.setObj Key.spanCount (x.spanCount.val + 1)).setObj Key.spanState (if bad then 3 else 0)).obj Key.spanState = 3 ↔ OutsideSpan x := by
    rw [← hiff, obj_setObj_byte _ (lenOf_spanState ..) (by split <;> decide)]
    cases bad <;> decide
  refine ⟨_, hexec, congrArg (·.released) hstart, congrArg (·.releaseAt) hstart, ?_, ?_, ?_, ?_, hstate, fun hout p => neighbourOf_of_strapError (hstate.mpr hout) p⟩
  · rw [obj_setObj_of_ne _ _ (by decide), obj_setObj_of_ne _ _ (by decide), hu, obj_setObj_of_ne _ _ (by decide), obj_setObj_of_ne _ _ (by decide), obj_setObj_same, lenOf_spanNode]
    exact Nat.mod_eq_of_lt (by omega)
  · rw [obj_setObj_of_ne _ _ (by decide), obj_setObj_of_ne _ _ (by decide), hu, obj_setObj_of_ne _ _ (by decide), obj_setObj_byte _ (lenOf_spanX ..) (by omega)]
  · rw [obj_setObj_of_ne _ _ (by decide), obj_setObj_of_ne _ _ (by decide), hu, obj_setObj_byte _ (lenOf_spanY ..) (by omega)]
  · rw [obj_setObj_of_ne _ _ (by decide), obj_setObj_byte _ (lenOf_spanCount ..) (by omega)]

/-! ### The boot (18 R478; 19 R501) -/

theorem bootPasses_of_svn_lt {s : State} {r : BootReport} {p : Nat} (h : (s.flashImage r p).svn < s.obj Key.secSvn) : s.bootPasses r p = false := by
  unfold bootPasses
  rw [decide_eq_false (Nat.not_le.mpr h), Bool.and_false]

theorem flashImage_of_written {s : State} (r : BootReport) {p : Nat} {i : Image} (h : tabGet none s.sec.flash p = some i) : (s.flashImage r p).svn = i.svn := by
  unfold flashImage
  rw [h]

theorem bootDone_of_not {s : State} (r : BootReport) (b : Bytes) (h : s.start.stopped = true ∨ s.obj Key.suStage ≠ 0 ∨ s.obj Key.ksState = 0) : exec (.bootDone r b) s = .next s := by
  rw [exec_bootDone, execBootDone]
  exact if_pos (.inr h)

/-- The record names one of the two slots. -/
theorem bootRecord_lt (s : State) (r : BootReport) : (s.bootRecord r).1.getD 0 < 2 := by
  unfold bootRecord
  cases s.sec.record with
  | some a => exact Nat.mod_lt _ (by decide)
  | none =>
    dsimp only
    split
    · exact r.recordActive.isLt
    · decide

/-- The status bits of the record and of the slot. -/
theorem bootSlot_spec (s : State) (r : BootReport) : ∃ fell ≤ 1,
    bootSlot s r = ((if (s.bootRecord r).1.getD 0 = 0 then (if s.bootPasses r 2 then some 0 else if s.bootPasses r 3 then some 1 else none)
      else if s.bootPasses r 3 then some 1 else if s.bootPasses r 2 then some 0 else none), (if (s.bootRecord r).1.isNone then 4 else 0) + 2 * fell) := by
  unfold bootSlot
  extract_lets named active ok bits
  have hlt : active < 2 := bootRecord_lt s r
  have hbits : bits = if (s.bootRecord r).1.isNone then 4 else 0 := by
    show (if (s.bootRecord r).1.isSome then 0 else 4) = _
    cases (s.bootRecord r).1 <;> rfl
  rw [← hbits]
  rcases (show active = 0 ∨ active = 1 by omega) with h | h
  all_goals
    rw [show (s.bootRecord r).1.getD 0 = active from rfl, h]
    cases h2 : s.bootPasses r 2 <;> cases h3 : s.bootPasses r 3
    all_goals simp [ok, h2, h3]

end Sys2Proof.Machine
end

section
/-! How the boot stops and how it goes on (18 R478; 19 R501). -/

namespace Sys2Proof.Machine

open State

/-- The status bits of a boot: copy 0 failed, the other slot was taken or neither passed, the record is none (18 R478). -/
def bootBits (p n : Bool) (fell : Nat) : Nat := b2n (!p) + ((if n then 4 else 0) + 2 * fell)

theorem bootBits_lt (p n : Bool) {fell : Nat} (h : fell ≤ 1) : bootBits p n fell < 8 := by
  unfold bootBits
  cases p <;> cases n <;> simp [b2n] <;> omega

theorem bit_bootBits (p n : Bool) {fell : Nat} (h : fell ≤ 1) :
    bit (bootBits p n fell) 0 = !p ∧ bit (bootBits p n fell) 2 = n ∧ bit (bootBits p n fell) 7 = false ∧ bit (bootBits p n fell + 128) 0 = !p ∧ bit (bootBits p n fell + 128) 7 = true := by
  rcases (show fell = 0 ∨ fell = 1 by omega) with rfl | rfl <;> revert p n <;> decide

/-- Booting stops with the bits and bit 7. -/
def bootStop (y : State) (bits : Nat) : State := (y.setObj Key.fwBootStatus (bits + 128)).withStart { y.start with stopped := true }

theorem bootStop_spec {s y : State} {r : BootReport} {n : Bool} {fell : Nat} (hfell : fell ≤ 1) (hstage : y.obj Key.suStage = 0) :
    (bootStop y (bootBits (s.bootPasses r 0) n fell)).start.stopped = true ∧ bit ((bootStop y (bootBits (s.bootPasses r 0) n fell)).obj Key.fwBootStatus) 7 = true ∧
      bit ((bootStop y (bootBits (s.bootPasses r 0) n fell)).obj Key.fwBootStatus) 0 = (!s.bootPasses r 0) ∧ (bootStop y (bootBits (s.bootPasses r 0) n fell)).obj Key.suStage = 0 ∧
      (bootStop y (bootBits (s.bootPasses r 0) n fell)).fwReady = false := by
  obtain ⟨-, -, -, h0, h7⟩ := bit_bootBits (s.bootPasses r 0) n hfell
  have hlt := bootBits_lt (s.bootPasses r 0) n hfell
  generalize bootBits (s.bootPasses r 0) n fell = bits at *
  have hstatus : (bootStop y bits).obj Key.fwBootStatus = bits + 128 := obj_setObj_byte y (lenOf_fwBootStatus ..) (by omega)
  have hkept : (bootStop y bits).obj Key.suStage = 0 := (obj_setObj_of_ne y _ (by decide)).trans hstage
  refine ⟨rfl, by rw [hstatus, h7], by rw [hstatus, h0], hkept, ?_⟩
  unfold fwReady
  rw [hkept]
  rfl

theorem bootSlot_of_none {s : State} {r : BootReport} (h2 : s.bootPasses r 2 = false) (h3 : s.bootPasses r 3 = false) :
    ∃ fell ≤ 1, b2n (!s.bootPasses r 0) + (bootSlot s r).2 = bootBits (s.bootPasses r 0) (s.bootRecord r).1.isNone fell ∧ (bootSlot s r).1 = none := by
  obtain ⟨fell, hfell, h⟩ := bootSlot_spec s r
  rw [h2, h3] at h
  exact ⟨fell, hfell, by rw [h]; rfl, by rw [h]; simp⟩

theorem completes_bootStops {s : State} {r : BootReport} (b : Bytes) (hreleased : s.start.released = true) (hstopped : s.start.stopped = false) (hstage : s.obj Key.suStage = 0)
    (hks : s.obj Key.ksState ≠ 0) (hfail : s.bootPasses r 0 = false ∧ s.bootPasses r 1 = false ∨ s.bootPasses r 2 = false ∧ s.bootPasses r 3 = false) :
    Completes (.bootDone r b) s fun t => t.start.stopped = true ∧ bit (t.obj Key.fwBootStatus) 7 = true ∧ bit (t.obj Key.fwBootStatus) 0 = (!s.bootPasses r 0) ∧ t.obj Key.suStage = 0 ∧
      t.fwReady = false := by
  have hgo : ¬((!s.start.released) = true ∨ s.start.stopped = true ∨ s.obj Key.suStage ≠ 0 ∨ s.obj Key.ksState = 0) := by simp [hreleased, hstopped, hstage, hks]
  by_cases hcopies : (!s.bootPasses r 0) = true ∧ (!s.bootPasses r 1) = true
  · have hexec : exec (.bootDone r b) s = .next (bootStop s (bootBits (s.bootPasses r 0) false 0)) := by
      rw [exec_bootDone, execBootDone]
      exact (if_neg hgo).trans (if_pos hcopies)
    exact ⟨_, hexec, bootStop_spec (by decide) hstage⟩
  · have hslots : s.bootPasses r 2 = false ∧ s.bootPasses r 3 = false := hfail.resolve_left fun h => hcopies (by simp [h])
    obtain ⟨fell, hfell, hbits, hnone⟩ := bootSlot_of_none (s := s) hslots.1 hslots.2
    have hpair : bootSlot s r = (none, (bootSlot s r).2) := by rw [← hnone]
    have hexec : ∃ v, exec (.bootDone r b) s = .next (bootStop (s.setObj Key.fwStage1Version v) (bootBits (s.bootPasses r 0) (s.bootRecord r).1.isNone fell)) := by
      refine ⟨(s.flashImage r (b2n (!s.bootPasses r 0))).version, ?_⟩
      rw [exec_bootDone, execBootDone, ← hbits]
      refine (if_neg hgo).trans ((if_neg hcopies).trans ?_)
      rw [hpair]
      rfl
    obtain ⟨v, hexec⟩ := hexec
    exact ⟨_, hexec, bootStop_spec hfell ((obj_setObj_of_ne _ _ (by decide)).trans hstage)⟩

/-! ### The boot that goes on -/

/-- The firmware of a slot is entered: what serves, the SVNs and the boot record, and the firmware's objects. -/
def bootFirmware (u : State) (sec : Security) (bits slot : Nat) (fw : FlashImage) : State :=
  ((((u.withSec sec).setObj Key.fwBootStatus bits).setObj Key.fwActive slot).setObj Key.fwVersion fw.version).setObj Key.fwSvn fw.svn

theorem bootFirmware_spec (u : State) (sec : Security) {bits slot : Nat} (fw : FlashImage) (hbits : bits < 256) (hslot : slot < 256) :
    (bootFirmware u sec bits slot fw).obj Key.fwBootStatus = bits ∧ (bootFirmware u sec bits slot fw).obj Key.fwActive = slot ∧ (bootFirmware u sec bits slot fw).obj Key.fwSvn = fw.svn % 256 := by
  unfold bootFirmware
  refine ⟨?_, ?_, ?_⟩
  · rw [obj_setObj_of_ne _ _ (by decide), obj_setObj_of_ne _ _ (by decide), obj_setObj_of_ne _ _ (by decide), obj_setObj_byte _ (lenOf_fwBootStatus ..) hbits]
  · rw [obj_setObj_of_ne _ _ (by decide), obj_setObj_of_ne _ _ (by decide), obj_setObj_byte _ (lenOf_fwActive ..) hslot]
  · rw [obj_setObj_same, lenOf_fwSvn]
    rfl

/-- An object that board data, the stages and power leave alone after the firmware was entered. -/
def isFirmwareKey (k : Nat) : Prop := k = Key.fwBootStatus ∨ k = Key.fwActive ∨ k = Key.fwSvn

theorem applyBoard_of_empty (s : State) {b : Bytes} (h : leNat (b.take 4) = 0xFFFFFFFF) : s.applyBoard b = s.setObj Key.suBoard 0 := by
  unfold applyBoard
  exact if_pos h

theorem applyBoard_of_magic (s : State) {b : Bytes} (h : leNat (b.take 4) ≠ 0xFFFFFFFF) (hm : leNat (b.take 4) ≠ 0x4F424431) : s.applyBoard b = (s.setObj Key.suBoard 2).setObj Key.suBoardError 0 := by
  unfold applyBoard
  exact (if_neg h).trans (if_pos hm)

/-- TAI holdover where a source is set, then CALIBRATING with every girder out and the slot's first settings (17 R446, R450; 19 R501). -/
def beginCalibrating (sb : State) : State :=
  (((((List.range 68).foldl (fun y g => y.setObj (Key.girderState g) girderCalibrating) ((if sb.obj Key.taiSource = 0 then sb else sb.enterTai 1).enterStage 1)).setObj Key.tolVset 750).setObj
    Key.tolAvsState 1).setObj Key.calState 2).refreshPower.endBadOp

theorem obj_enterStage (s : State) (st k : Nat) : (s.enterStage st).obj k = ((s.setObj Key.suStage st).setObj Key.suStageTime s.time).obj k := obj_raiseEvent _ 15 k

/-- The keys that the start of calibration writes beside the stage and the set point. -/
def isCalibratingKey (k : Nat) : Prop := k = Key.taiState ∨ k = Key.suStageTime ∨ k = Key.tolAvsState ∨ k = Key.calState ∨ k = Key.tolEff ∨ k = Key.tolVop ∨ (0x101801 ≤ k ∧ k < 0x101A00)

theorem beginCalibrating_spec (sb : State) : (beginCalibrating sb).obj Key.suStage = 1 ∧ (beginCalibrating sb).obj Key.tolVset = 750 ∧
    KeepsBut (fun k => isCalibratingKey k ∨ k = Key.suStage ∨ k = Key.tolVset) sb (beginCalibrating sb) := by
  have htai : KeepsBut isCalibratingKey sb (if sb.obj Key.taiSource = 0 then sb else sb.enterTai 1) := by
    split
    · exact .refl sb
    · unfold enterTai
      split
      · exact .refl sb
      · exact (keepsBut_setObj (.inl rfl) sb 1).trans (keepsBut_raiseEvent _ 8)
  unfold beginCalibrating
  generalize (if sb.obj Key.taiSource = 0 then sb else sb.enterTai 1) = u at *
  have hstage : (u.enterStage 1).obj Key.suStage = 1 := by
    rw [obj_enterStage, obj_setObj_of_ne _ _ (by decide), obj_setObj_byte _ (lenOf_suStage ..) (by decide)]
  have hbut : KeepsBut (fun k => isCalibratingKey k ∨ k = Key.suStage) u (u.enterStage 1) := fun k hk => by
    rw [obj_enterStage, obj_setObj_of_ne _ _ (fun h => hk (.inl (.inr (.inl h)))), obj_setObj_of_ne _ _ (fun h => hk (.inr h))]
  generalize u.enterStage 1 = v at *
  have hgirders : KeepsBut isCalibratingKey v ((List.range 68).foldl (fun y g => y.setObj (Key.girderState g) girderCalibrating) v) :=
    keepsBut_foldl_of_mem _ _ (fun y g hg => keepsBut_setObj (by have := List.mem_range.mp hg; unfold isCalibratingKey Key.girderState; omega) y _) v
  generalize (List.range 68).foldl (fun y g => y.setObj (Key.girderState g) girderCalibrating) v = w at *
  have hpower : KeepsBut isCalibratingKey (w.setObj Key.tolVset 750) (((w.setObj Key.tolVset 750).setObj Key.tolAvsState 1).setObj Key.calState 2).refreshPower.endBadOp := fun k hk => by
    simp only [isCalibratingKey, not_or] at hk
    obtain ⟨-, -, havs, hcal, heff, hvop, -⟩ := hk
    rw [obj_endBadOp, refreshPower, obj_setObj_of_ne _ _ hvop, obj_setObj_of_ne _ _ heff, obj_setObj_of_ne _ _ hcal, obj_setObj_of_ne _ _ havs]
  have hnot1 : ¬isCalibratingKey Key.suStage := by unfold isCalibratingKey; decide
  have hnot2 : ¬isCalibratingKey Key.tolVset := by unfold isCalibratingKey; decide
  refine ⟨?_, ?_, fun k hk => ?_⟩
  · rw [hpower _ hnot1, obj_setObj_of_ne _ _ (by decide), hgirders _ hnot1, hstage]
  · rw [hpower _ hnot2, obj_setObj_same, lenOf_tolVset]
    rfl
  · simp only [not_or] at hk
    obtain ⟨hk, hstage, hvset⟩ := hk
    rw [hpower _ hk, obj_setObj_of_ne _ _ hvset, hgirders _ hk, hbut _ (not_or.mpr ⟨hk, hstage⟩), htai _ hk]

theorem bootSlot_of_some {s : State} {r : BootReport} (h : s.bootPasses r 2 = true ∨ s.bootPasses r 3 = true) :
    ∃ slot fell, slot < 2 ∧ fell ≤ 1 ∧ (bootSlot s r).1 = some slot ∧ b2n (!s.bootPasses r 0) + (bootSlot s r).2 = bootBits (s.bootPasses r 0) (s.bootRecord r).1.isNone fell ∧
      slot = if (s.bootRecord r).1.getD 0 = 0 then (if s.bootPasses r 2 then 0 else 1) else if s.bootPasses r 3 then 1 else 0 := by
  obtain ⟨fell, hfell, hslot⟩ := bootSlot_spec s r
  refine ⟨if (s.bootRecord r).1.getD 0 = 0 then (if s.bootPasses r 2 then 0 else 1) else if s.bootPasses r 3 then 1 else 0, fell, ?_, hfell, ?_, by rw [hslot]; rfl, rfl⟩
  · split <;> split <;> decide
  · rw [hslot]
    dsimp only
    by_cases h0 : (s.bootRecord r).1.getD 0 = 0
    · rw [if_pos h0, if_pos h0]
      cases h2 : s.bootPasses r 2 with
      | true => rfl
      | false => rw [h.resolve_left (by simp [h2])]; rfl
    · rw [if_neg h0, if_neg h0]
      cases h3 : s.bootPasses r 3 with
      | true => rfl
      | false => rw [h.resolve_right (by simp [h3])]; rfl

theorem completes_bootGoes {s : State} {r : BootReport} {b : Bytes} (hreleased : s.start.released = true) (hstopped : s.start.stopped = false) (hstage : s.obj Key.suStage = 0)
    (hks : s.obj Key.ksState ≠ 0) (hcopies : s.bootPasses r 0 = true ∨ s.bootPasses r 1 = true) (hslots : s.bootPasses r 2 = true ∨ s.bootPasses r 3 = true) (hboard : leNat (b.take 4) = 0xFFFFFFFF) :
    Completes (.bootDone r b) s fun t => t.obj Key.suStage = 1 ∧ t.obj Key.suBoard = 0 ∧
      t.obj Key.fwActive = (if (s.bootRecord r).1.getD 0 = 0 then (if s.bootPasses r 2 then 0 else 1) else (if s.bootPasses r 3 then 1 else 0)) ∧
      bit (t.obj Key.fwBootStatus) 0 = (!s.bootPasses r 0) ∧ bit (t.obj Key.fwBootStatus) 2 = (s.bootRecord r).1.isNone ∧ bit (t.obj Key.fwBootStatus) 7 = false ∧
      t.obj Key.fwSvn = (s.flashImage r (2 + t.obj Key.fwActive)).svn % 256 ∧ t.obj Key.tolVset = 750 := by
  have hgo : ¬((!s.start.released) = true ∨ s.start.stopped = true ∨ s.obj Key.suStage ≠ 0 ∨ s.obj Key.ksState = 0) := by simp [hreleased, hstopped, hstage, hks]
  have hcopy : ¬((!s.bootPasses r 0) = true ∧ (!s.bootPasses r 1) = true) := by
    rintro ⟨h0, h1⟩
    rcases hcopies with h | h
    · rw [h] at h0
      exact absurd h0 (by decide)
    · rw [h] at h1
      exact absurd h1 (by decide)
  obtain ⟨slot, fell, hslot, hfell, hsome, hbits, hactive⟩ := bootSlot_of_some hslots
  have hpair : bootSlot s r = (some slot, (bootSlot s r).2) := by rw [← hsome]
  have hexec : ∃ u sec, exec (.bootDone r b) s =
      .next (beginCalibrating ((bootFirmware u sec (bootBits (s.bootPasses r 0) (s.bootRecord r).1.isNone fell) slot (s.flashImage r (2 + slot))).applyBoard b)) := by
    refine ⟨s.setObj Key.fwStage1Version (s.flashImage r (b2n (!s.bootPasses r 0))).version, ?_, ?_⟩
    rotate_left
    · rw [exec_bootDone, execBootDone, ← hbits]
      refine (if_neg hgo).trans ((if_neg hcopy).trans ?_)
      rw [hpair]
      rfl
  obtain ⟨u, sec, hexec⟩ := hexec
  obtain ⟨hb0, hb2, hb7, -, -⟩ := bit_bootBits (s.bootPasses r 0) (s.bootRecord r).1.isNone hfell
  have hlt := bootBits_lt (s.bootPasses r 0) (s.bootRecord r).1.isNone hfell
  generalize bootBits (s.bootPasses r 0) (s.bootRecord r).1.isNone fell = bits at *
  obtain ⟨hstatus, hact, hsvn⟩ := bootFirmware_spec u sec (bits := bits) (s.flashImage r (2 + slot)) (by omega) (slot := slot) (by omega)
  rw [applyBoard_of_empty _ hboard] at hexec
  generalize bootFirmware u sec bits slot (s.flashImage r (2 + slot)) = v at *
  obtain ⟨hone, hvset, hkeep⟩ := beginCalibrating_spec (v.setObj Key.suBoard 0)
  have hkept {k : Nat} (hk : isFirmwareKey k) : (beginCalibrating (v.setObj Key.suBoard 0)).obj k = v.obj k := by
    have hne : k ≠ Key.suBoard := by rcases hk with rfl | rfl | rfl <;> decide
    refine (hkeep k ?_).trans (obj_setObj_of_ne _ _ hne)
    rcases hk with rfl | rfl | rfl <;> unfold isCalibratingKey <;> decide
  have hboard0 : (beginCalibrating (v.setObj Key.suBoard 0)).obj Key.suBoard = 0 :=
    (hkeep _ (by unfold isCalibratingKey; decide)).trans (obj_setObj_byte _ (lenOf_suBoard ..) (by decide))
  have hact' := (hkept (.inr (.inl rfl))).trans hact
  have hstatus' := (hkept (.inl rfl)).trans hstatus
  refine ⟨_, hexec, hone, hboard0, hact'.trans hactive, ?_, ?_, ?_, ?_, hvset⟩
  · rw [hstatus', hb0]
  · rw [hstatus', hb2]
  · rw [hstatus', hb7]
  · rw [hact', hkept (.inr (.inr rfl)), hsvn]

end Sys2Proof.Machine
end

section
/-! The end of the start-up calibration (17 R462, R464; 19 R503). -/

namespace Sys2Proof.Machine

open State

namespace State

/-! ### Objects of a family written in one pass -/

/-- A pass that writes one object of a family for each number of a list. -/
theorem obj_foldl_setObj {g : State → Nat → State} {key val : Nat → Nat} (hg : ∀ y k j, (g y k).obj j = y.obj j) (hinj : Function.Injective key) (l : List Nat) (s : State) (j : Nat) :
    (l.foldl (fun y k => (g y k).setObj (key k) (val k)) s).obj (key j) = if j ∈ l then val j % 256 ^ lenOf (key j) else s.obj (key j) := by
  induction l generalizing s with
  | nil => rfl
  | cons k l ih =>
    rw [List.foldl_cons, ih]
    by_cases hmem : j ∈ l
    · rw [if_pos hmem, if_pos (List.mem_cons_of_mem k hmem)]
    · rw [if_neg hmem]
      by_cases hjk : j = k
      · rw [hjk, if_pos List.mem_cons_self, obj_setObj_same]
      · rw [if_neg (by simp [hjk, hmem]), obj_setObj_of_ne _ _ fun h => hjk (hinj h), hg]

theorem memchState_injective : Function.Injective Key.memchState := fun i j h => by
  unfold Key.memchState at h
  omega

theorem girderState_injective : Function.Injective Key.girderState := fun i j h => by
  unfold Key.girderState at h
  omega

/-! ### What the sets of start-up leave alone -/

/-- Memory and the time stand, and of the objects those of calibration change only. -/
structure StartsItems (s t : State) : Prop where
  mem : t.mem = s.mem
  time : t.time = s.time
  keeps : KeepsBut isCalKey s t

theorem StartsItems.refl (s : State) : StartsItems s s := ⟨rfl, rfl, .refl s⟩

theorem StartsItems.trans {s t u : State} (h : StartsItems s t) (h' : StartsItems t u) : StartsItems s u := ⟨h'.mem.trans h.mem, h'.time.trans h.time, h.keeps.trans h'.keeps⟩

theorem startsItems_foldl_of_mem {α : Type} (l : List α) (f : State → α → State) (h : ∀ s, ∀ x ∈ l, StartsItems s (f s x)) (s : State) : StartsItems s (l.foldl f s) := by
  induction l generalizing s with
  | nil => exact .refl s
  | cons x l ih => exact (h s x List.mem_cons_self).trans (ih (fun s y hy => h s y (List.mem_cons_of_mem x hy)) _)

theorem drawCodes_changes (bits n : Nat) (s : State) : ∃ f, (s.drawCodes bits n).2 = s.withFree f := by
  induction n generalizing s with
  | zero => exact ⟨s.free, rfl⟩
  | succ n ih =>
    obtain ⟨f, hf⟩ := ih (s.drawNat (2 ^ bits)).2
    exact ⟨f, hf⟩

theorem startsItems_applyCal (s : State) {unit : Nat} (hu : unit < 6) (item : Nat) : StartsItems s (s.applyCal unit item) := by
  obtain ⟨⟨d, p, c, x, h⟩, hkeep⟩ := applyCal_changes s unit item
  refine ⟨by rw [h], by rw [h], fun k hk => hkeep k fun hk' => hk ?_⟩
  unfold isCalKey
  rcases hk' with rfl | rfl | rfl
  · unfold Key.calLast
    omega
  · unfold Key.calStaleItems
    omega
  · decide

theorem startsItems_startItem (s : State) {unit : Nat} (hu : unit < 6) (item : Nat) : StartsItems s (s.startItem false unit item) := by
  obtain ⟨n, bits, z, hshape⟩ : ∃ n bits z, calShape unit = (n, bits, z) := ⟨_, _, _, rfl⟩
  obtain ⟨raw, s1, hdraw⟩ : ∃ raw s1, s.drawCodes bits n = (raw, s1) := ⟨_, _, rfl⟩
  have heq : ∃ x, s.startItem false unit item = (s1.putCalItem unit item x).applyCal unit item := by
    unfold startItem
    rw [hshape]
    dsimp only
    rw [hdraw]
    exact ⟨_, rfl⟩
  obtain ⟨x, heq⟩ := heq
  obtain ⟨f, hf⟩ := drawCodes_changes bits n s
  have hput : StartsItems s (s1.putCalItem unit item x) := by
    rw [show s1 = s.withFree f by rw [← hf, hdraw]]
    exact ⟨rfl, rfl, keepsBut_of_dict rfl⟩
  rw [heq]
  exact hput.trans (startsItems_applyCal _ hu item)

theorem lt_of_mem_calAll {x : Nat × Nat} (h : x ∈ calAll) : x.1 < 6 := by
  unfold calAll at h
  simp only [List.mem_flatMap, List.mem_map, List.mem_range] at h
  obtain ⟨u, hu, i, -, rfl⟩ := h
  exact hu

/-! ### The girders come into service (17 R462) -/

theorem zipIdx_range (n : Nat) : (List.range n).zipIdx = (List.range n).map fun i => (i, i) := by
  induction n with
  | zero => rfl
  | succ n ih => rw [List.range_succ, List.zipIdx_append, ih, List.map_append, List.length_range]; simp

/-- The keys of girders and of their counts. -/
def isGirderKey (k : Nat) : Prop := 0x101801 ≤ k ∧ k < 0x101B00

theorem returnAll_spec {s : State} (hout : ∀ g < 68, s.obj (Key.girderState g) = girderCalibrating) :
    s.returnAll.mem = s.mem ∧ s.returnAll.time = s.time ∧ KeepsBut isGirderKey s s.returnAll ∧
      ∀ g < 68, s.returnAll.obj (Key.girderState g) = if g < 64 then girderInService else girderSpare := by
  have hall : ((List.range 68).filter fun g => s.obj (Key.girderState g) == girderCalibrating) = List.range 68 := by
    rw [List.filter_eq_self]
    intro g hg
    rw [hout g (List.mem_range.mp hg)]
    rfl
  have heq : s.returnAll = ((List.range 68).foldl (fun x g => (x.putGirder g { x.girder g with coming := false }).setObj (Key.girderState g) (if g < 64 then girderInService else girderSpare)) s).countGirders := by
    unfold returnAll
    extract_lets gs
    rw [show gs = List.range 68 from hall, zipIdx_range, List.foldl_map]
  have hform (l : List Nat) (y : State) : ∃ d x, l.foldl (fun x g => (x.putGirder g { x.girder g with coming := false }).setObj (Key.girderState g) (if g < 64 then girderInService else girderSpare)) y =
      (y.withDict d).withGirders x := by
    induction l generalizing y with
    | nil => exact ⟨y.dict, y.girders, rfl⟩
    | cons g l ih =>
      obtain ⟨d, x, h⟩ := ih ((y.putGirder g { y.girder g with coming := false }).setObj (Key.girderState g) (if g < 64 then girderInService else girderSpare))
      exact ⟨d, x, by rw [List.foldl_cons, h]; rfl⟩
  have hobj := obj_foldl_setObj (g := fun x g => x.putGirder g { x.girder g with coming := false }) (key := Key.girderState) (val := fun g => if g < 64 then girderInService else girderSpare)
    (fun y k j => rfl) girderState_injective (List.range 68) s
  have hkeep : KeepsBut isGirderKey s ((List.range 68).foldl (fun x g => (x.putGirder g { x.girder g with coming := false }).setObj (Key.girderState g) (if g < 64 then girderInService else girderSpare)) s) :=
    keepsBut_foldl_of_mem _ _ (fun y g hg => (keepsBut_of_dict (t := y.putGirder g { y.girder g with coming := false }) rfl).trans
      (keepsBut_setObj (by have := List.mem_range.mp hg; unfold isGirderKey Key.girderState; omega) _ _)) s
  obtain ⟨d, x, hfold⟩ := hform (List.range 68) s
  rw [heq]
  generalize (List.range 68).foldl (fun x g => (x.putGirder g { x.girder g with coming := false }).setObj (Key.girderState g) (if g < 64 then girderInService else girderSpare)) s = u at *
  obtain ⟨d2, h2⟩ := countGirders_changes u
  refine ⟨by rw [h2, hfold]; rfl, by rw [h2, hfold]; rfl, fun k hk => ?_, fun g hg => ?_⟩
  · rw [obj_countGirders_of_ne u (fun h => hk (by rw [h]; unfold isGirderKey; decide)) (fun h => hk (by rw [h]; unfold isGirderKey; decide)), hkeep k hk]
  · rw [obj_countGirders_of_ne u (by unfold Key.girderState Key.deckGirdersService; omega) (by unfold Key.girderState Key.deckSparesFree; omega), hobj, if_pos (List.mem_range.mpr hg),
      lenOf_girderState g hg]
    split <;> rfl

theorem isNewsKey_cases {k : Nat} (h : isNewsKey k) :
    k = 0x190010 ∨ k = 0x190011 ∨ (0x198000 ≤ k ∧ k % 256 = 13) ∨ k = 0x160007 ∨ k = 0x160005 ∨ k = 0x101401 ∨ (0x1640 ≤ k / 256 ∧ k / 256 < 0x1660) := by
  unfold isNewsKey isMemCounter Key.memLostWrites Key.memLostReads Key.memchInorder Key.spanLost Key.spanState Key.statusPromise at h
  rcases h with (h | h | ⟨n, hn, h⟩) | h | h | h | h <;> omega

end State

/-! ### The end of CALIBRATING (19 R501, R503) -/

theorem startupCalibrationDone_of_not {s : State} (f : List (Fin 6 × Fin 128)) (w : BitVec 16) (h : s.obj Key.suStage ≠ 1) : exec (.startupCalibrationDone ⟨f, w⟩) s = .next s := by
  rw [exec_startupCalibrationDone, execStartupCalibrationDone]
  exact if_pos h

/-- TRAINING begins: calibration is idle, the populated channels train. -/
def beginTraining (s : State) (w : BitVec 16) : State :=
  (((((List.range 16).filter fun k => w.getLsbD k).foldl (fun y k => y.setObj (Key.memchState k) 2) s).setObj Key.calState 0).refreshSpares).enterStage 2

theorem beginTraining_spec (s : State) (w : BitVec 16) : (beginTraining s w).obj Key.suStage = 2 ∧ (beginTraining s w).obj Key.calState = 0 ∧
    (∀ k < 16, (beginTraining s w).obj (Key.memchState k) = if w.getLsbD k = true then 2 else s.obj (Key.memchState k)) ∧
    (∀ g < 68, (beginTraining s w).obj (Key.girderState g) = s.obj (Key.girderState g)) ∧ (beginTraining s w).mem = s.mem ∧ (beginTraining s w).time = s.time := by
  have hobj := obj_foldl_setObj (g := fun x _ => x) (key := Key.memchState) (val := fun _ => 2) (fun y k j => rfl) memchState_injective ((List.range 16).filter fun k => w.getLsbD k) s
  have hkeep : KeepsBut (fun k => 0x198000 ≤ k) s (((List.range 16).filter fun k => w.getLsbD k).foldl (fun y k => y.setObj (Key.memchState k) 2) s) :=
    keepsBut_foldl _ _ (fun y k => keepsBut_setObj (by unfold Key.memchState; omega) y 2) s
  obtain ⟨d, hd⟩ := foldl_setObj_changes ((List.range 16).filter fun k => w.getLsbD k) Key.memchState (fun _ _ => 2) s
  unfold beginTraining
  generalize ((List.range 16).filter fun k => w.getLsbD k).foldl (fun y k => y.setObj (Key.memchState k) 2) s = u at *
  have hform : (u.setObj Key.calState 0).refreshSpares.mem = s.mem ∧ (u.setObj Key.calState 0).refreshSpares.time = s.time := by
    unfold refreshSpares
    obtain ⟨d2, p2, h2⟩ := setPromise_changes (u.setObj Key.calState 0) 3 ((u.setObj Key.calState 0).obj Key.deckGirdersService == 64 && decide ((u.setObj Key.calState 0).obj Key.memFreezes ≤ 2) &&
      decide (memLoadOf (u.setObj Key.calState 0).obj ((u.setObj Key.calState 0).obj Key.spanNode) ≤ ((u.setObj Key.calState 0).memLimit : Nat)) && (u.setObj Key.calState 0).trussCovers)
    rw [h2, hd]
    exact ⟨rfl, rfl⟩
  have hspares : KeepsBut isNewsKey (u.setObj Key.calState 0) (u.setObj Key.calState 0).refreshSpares := keepsBut_refreshSpares _
  have hafter {k : Nat} (hn : ¬isNewsKey k) (h1 : k ≠ Key.suStage) (h2 : k ≠ Key.suStageTime) : ((u.setObj Key.calState 0).refreshSpares.enterStage 2).obj k = (u.setObj Key.calState 0).obj k := by
    rw [obj_enterStage, obj_setObj_of_ne _ _ h2, obj_setObj_of_ne _ _ h1, hspares k hn]
  refine ⟨?_, ?_, fun k hk => ?_, fun g hg => ?_, ?_, ?_⟩
  · rw [obj_enterStage, obj_setObj_of_ne _ _ (by decide), obj_setObj_byte _ (lenOf_suStage ..) (by decide)]
  · rw [hafter (fun h => by have := isNewsKey_cases h; unfold Key.calState at this; omega) (by decide) (by decide), obj_setObj_byte _ (lenOf_calState ..) (by decide)]
  · rw [hafter (fun h => by have := isNewsKey_cases h; unfold Key.memchState at this; omega) (by unfold Key.memchState Key.suStage; omega) (by unfold Key.memchState Key.suStageTime; omega),
      obj_setObj_of_ne _ _ (by unfold Key.memchState Key.calState; omega), hobj, lenOf_memchState k hk]
    simp [hk]
  · rw [hafter (fun h => by have := isNewsKey_cases h; unfold Key.girderState at this; omega) (by unfold Key.girderState Key.suStage; omega) (by unfold Key.girderState Key.suStageTime; omega),
      obj_setObj_of_ne _ _ (by unfold Key.girderState Key.calState; omega), hkeep _ (by unfold Key.girderState; omega)]
  · unfold enterStage
    rw [mem_raiseEvent]
    exact hform.1
  · unfold enterStage
    rw [raiseEvent_eq]
    exact hform.2

theorem completes_startupCalibrationDone {s : State} (w : BitVec 16) (hstage : s.obj Key.suStage = 1) (hout : ∀ g < 68, s.obj (Key.girderState g) = girderCalibrating) :
    Completes (.startupCalibrationDone ⟨[], w⟩) s fun t => t.obj Key.suStage = 2 ∧ t.obj Key.calState = 0 ∧ (∀ k < 16, t.obj (Key.memchState k) = if w.getLsbD k = true then 2 else s.obj (Key.memchState k)) ∧
      (∀ g < 68, t.obj (Key.girderState g) = if g < 64 then girderInService else girderSpare) ∧ t.mem = s.mem ∧ t.time = s.time := by
  have hitems : StartsItems s (calAll.foldl (fun y x => y.startItem false x.1 x.2) s) := startsItems_foldl_of_mem _ _ (fun y x hx => startsItems_startItem y (lt_of_mem_calAll hx) x.2) s
  have hexec : exec (.startupCalibrationDone ⟨[], w⟩) s = .next (beginTraining (calAll.foldl (fun y x => y.startItem false x.1 x.2) s).returnAll w) := by
    rw [exec_startupCalibrationDone, execStartupCalibrationDone]
    refine (if_neg (not_not.mpr hstage)).trans ?_
    have hnone : (calAll.filter fun x : Nat × Nat => ([] : List (Fin 6 × Fin 128)).any fun f => f.1.val == x.1 && f.2.val == x.2) = [] := List.filter_eq_nil_iff.mpr fun x _ => by simp
    dsimp only
    rw [hnone]
    rfl
  generalize calAll.foldl (fun y x => y.startItem false x.1 x.2) s = u at hitems hexec
  have hgirder (g : Nat) (hg : g < 68) : u.obj (Key.girderState g) = girderCalibrating :=
    (hitems.keeps _ (by unfold isCalKey Key.girderState; omega)).trans (hout g hg)
  obtain ⟨hmem, htime, hkeep, hback⟩ := returnAll_spec hgirder
  obtain ⟨hstage2, hcal, hchan, hgirders, hmem2, htime2⟩ := beginTraining_spec u.returnAll w
  refine ⟨_, hexec, hstage2, hcal, fun k hk => ?_, fun g hg => (hgirders g hg).trans (hback g hg), (hmem2.trans hmem).trans hitems.mem, (htime2.trans htime).trans hitems.time⟩
  rw [hchan k hk, hkeep _ (by unfold isGirderKey Key.memchState; omega), hitems.keeps _ (by unfold isCalKey Key.memchState; omega)]

end Sys2Proof.Machine
end

section
/-! Training at start-up, the LINKS stage (10 R288; 19 R501 to R503), and the settling of O60. -/

namespace Sys2Proof.Machine

open State

namespace State

/-! ### The objects that training settles -/

/-- The stage, the size of DRAM, the channels in service, and each channel's state and lane. -/
def isTrainingKey (k : Nat) : Prop := k = 0x100201 ∨ k = 0x190003 ∨ k = 0x190005 ∨ (0x198000 ≤ k ∧ k < 0x199000 ∧ (k % 256 = 1 ∨ k % 256 = 2))

/-- What training settled stands. -/
def KeepsTraining (s t : State) : Prop := KeepsBut (fun k => ¬isTrainingKey k) s t

variable {s t u : State}

theorem KeepsTraining.refl (s : State) : KeepsTraining s s := KeepsBut.refl s

theorem KeepsTraining.trans (h : KeepsTraining s t) (h' : KeepsTraining t u) : KeepsTraining s u := KeepsBut.trans h h'

theorem KeepsTraining.obj (h : KeepsTraining s t) {k : Nat} (hk : isTrainingKey k) : t.obj k = s.obj k := h k (not_not.mpr hk)

theorem keepsTraining_of_dict (h : t.dict = s.dict) : KeepsTraining s t := keepsBut_of_dict h

theorem keepsTraining_setObj {k : Nat} (hk : ¬isTrainingKey k) (s : State) (v : Nat) : KeepsTraining s (s.setObj k v) := keepsBut_setObj (P := fun k => ¬isTrainingKey k) hk s v

theorem keepsTraining_foldl_of_mem {α : Type} (l : List α) (f : State → α → State) (h : ∀ s, ∀ x ∈ l, KeepsTraining s (f s x)) (s : State) : KeepsTraining s (l.foldl f s) :=
  keepsBut_foldl_of_mem l f h s

theorem keepsTraining_of {P : Nat → Prop} (h : KeepsBut P s t) (hP : ∀ k, P k → ¬isTrainingKey k) : KeepsTraining s t := h.mono hP

theorem keepsTraining_setPromise (s : State) (b : Nat) (x : Bool) : KeepsTraining s (s.setPromise b x) := keepsBut_setPromise (P := fun k => ¬isTrainingKey k) (by unfold isTrainingKey; decide) s b x

theorem keepsTraining_refreshSpares (s : State) : KeepsTraining s s.refreshSpares := keepsTraining_setPromise s _ _

theorem keepsTraining_refreshLoads (s : State) : KeepsTraining s s.refreshLoads := by
  have hset : ∀ {k : Nat}, ¬isTrainingKey k → ∀ (v : Nat) {u : State}, KeepsTraining s u → KeepsTraining s (u.setObj k v) := fun hk v u hu => hu.trans (keepsTraining_setObj hk u v)
  unfold refreshLoads
  extract_lets b views shown s1 s2
  split
  next ds dl as al _ =>
    extract_lets s3
    have h1 : KeepsTraining s s1 := keepsTraining_foldl_of_mem shown _ (fun x w _ => keepsTraining_setObj (by unfold isTrainingKey Key.viewCost; omega) x _) s
    clear_value s1
    have h2 : KeepsTraining s s2 :=
      hset (by unfold isTrainingKey; decide) _ (hset (by unfold isTrainingKey; decide) _ (hset (by unfold isTrainingKey; decide) _ h1))
    clear_value s2
    have h3 : KeepsTraining s s3 :=
      hset (by unfold isTrainingKey; decide) _ (hset (by unfold isTrainingKey; decide) _ (hset (by unfold isTrainingKey; decide) _ (hset (by unfold isTrainingKey; decide) _ h2)))
    clear_value s3
    exact hset (by unfold isTrainingKey; decide) _ (hset (by unfold isTrainingKey; decide) _ h3)

theorem keepsTraining_refreshAdmitted (s : State) : KeepsTraining s s.refreshAdmitted := (keepsTraining_refreshLoads s).trans (keepsTraining_setPromise _ _ _)

theorem keepsTraining_refreshRingAvail (s : State) : KeepsTraining s s.refreshRingAvail := by
  have havail : ¬isTrainingKey Key.memRingAvail := by unfold isTrainingKey; decide
  have hredirected : ¬isTrainingKey Key.memRedirected := by unfold isTrainingKey; decide
  unfold refreshRingAvail
  split
  · exact (keepsTraining_setObj havail _ _).trans (keepsTraining_setObj hredirected _ _)
  · exact (keepsTraining_setObj havail _ _).trans (keepsTraining_setObj hredirected _ _)

/-! ### What bringing up the links leaves alone (19 R501) -/

theorem keepsTraining_refreshLanes (s : State) (p : Nat) (hp : p < 4) : KeepsTraining s (s.refreshLanes p) := by
  unfold refreshLanes
  extract_lets ls s1
  have h1 : KeepsTraining s s1 := (keepsTraining_setObj (by unfold isTrainingKey Key.trussMap; omega) s _).trans (keepsTraining_setObj (by unfold isTrainingKey Key.trussLanes; omega) _ _)
  cases ls with
  | nil => exact h1
  | cons l ls =>
    dsimp only
    split
    · exact h1.trans (keepsTraining_setObj (by unfold isTrainingKey Key.trussLaneState; omega) _ _)
    · exact h1

theorem keepsTraining_startPll (s : State) {n : Nat} (hn : n < 22) (rate : Nat) : KeepsTraining s (s.startPll n rate) :=
  keepsTraining_of (keepsBut_startPll s n rate) fun k hk => by
    unfold isTrainingKey
    unfold Key.lanepllState at hk
    omega

theorem keepsTraining_stopPll (s : State) {n : Nat} (hn : n < 22) : KeepsTraining s (s.stopPll n) :=
  keepsTraining_of (keepsBut_stopPll s n) fun k hk => by
    unfold isTrainingKey
    unfold Key.lanepllState at hk
    omega

theorem keepsTraining_bringUp (s : State) {p : Nat} (hp : p < 4) : KeepsTraining s (s.bringUp p) := by
  have hstate : ¬isTrainingKey (Key.trussState p) := by unfold isTrainingKey Key.trussState; omega
  have hlanes : ¬isTrainingKey (Key.trussLaneState p) := by unfold isTrainingKey Key.trussLaneState; omega
  have hneighbour : ¬isTrainingKey (Key.trussNeighbour p) := by unfold isTrainingKey Key.trussNeighbour; omega
  unfold bringUp
  extract_lets s1 off
  have h1 : KeepsTraining s s1 := keepsTraining_of_dict rfl
  have hoff (lanes : Nat) : KeepsTraining s (off lanes) :=
    ((((h1.trans (keepsTraining_setObj hstate _ _)).trans (keepsTraining_setObj hlanes _ _))).trans (keepsTraining_stopPll _ (by omega))).trans (keepsTraining_refreshLanes _ p hp)
  split
  · exact hoff 0
  · split
    · exact hoff 0x0303030303
    · exact ((((h1.trans (keepsTraining_setObj hstate _ _)).trans (keepsTraining_setObj hneighbour _ _)).trans (keepsTraining_setObj hlanes _ _)).trans (keepsTraining_startPll _ (by omega) _)).trans
        (keepsTraining_refreshLanes _ p hp)

theorem keepsTraining_refreshSpan (s : State) : KeepsTraining s s.refreshSpan :=
  keepsTraining_of (keepsBut_refreshSpan s) fun k hk ht => by
    have := isNewsKey_cases hk
    unfold isTrainingKey at ht
    omega

theorem keepsTraining_restartIface (s : State) {i : Nat} (hi : i < 8) : KeepsTraining s (s.restartIface i) := by
  unfold restartIface
  extract_lets s1
  have h1 : KeepsTraining s s1 := by
    show KeepsTraining s (if s.ifaceUp i then s.discardQueued i else s)
    split
    · refine keepsTraining_of (keepsBut_discardQueued s i) fun k hk => ?_
      unfold isTrainingKey
      unfold Key.netTxDropped at hk
      omega
    · exact .refl s
  refine (h1.trans (keepsTraining_setObj (by unfold isTrainingKey Key.netState; omega) _ _)).trans (keepsTraining_of (keepsBut_ethPll _ _) fun k hk => ?_)
  unfold isTrainingKey
  unfold Key.lanepllState at hk
  omega

theorem keepsTraining_startLinks (s : State) : KeepsTraining s s.startLinks := by
  unfold startLinks
  split
  · exact .refl s
  · extract_lets s1 s2
    have h1 : KeepsTraining s s1 := (keepsTraining_foldl_of_mem (List.range 4) _ (fun y p hp => keepsTraining_bringUp y (List.mem_range.mp hp)) s).trans (keepsTraining_refreshSpan _)
    have h2 : KeepsTraining s1 s2 := keepsTraining_foldl_of_mem (List.range 8) _ (fun y i hi => keepsTraining_restartIface y (List.mem_range.mp hi)) s1
    refine ((h1.trans h2).trans (keepsTraining_foldl_of_mem (List.range 4) _ (fun y d hd => keepsTraining_setObj ?_ y _) s2)).trans (keepsTraining_refreshSpares _)
    have := List.mem_range.mp hd
    unfold isTrainingKey Key.recDriveState
    omega

end State

/-! ### Training (10 R288) -/

/-- The channel reports of the DIMMs found, in the order of the channels. -/
def foundReports (report : List ChanReport) : List ChanReport := (List.range 16).filterMap fun k => report.find? fun r => r.chan.val == k && r.dimms != 0

theorem filterMap_range_single {α : Type} (x : α) (c n : Nat) : ((List.range n).filterMap fun k => if c = k then some x else none) = if c < n then [x] else [] := by
  induction n with
  | zero => rfl
  | succ n ih =>
    rw [List.range_succ, List.filterMap_append, ih]
    by_cases hc : c = n
    · rw [if_neg (by omega), if_pos (by omega)]
      simp [hc]
    · by_cases hlt : c < n
      · rw [if_pos hlt, if_pos (by omega)]
        simp [hc]
      · rw [if_neg hlt, if_neg (by omega)]
        simp [hc]

theorem foundReports_single {r : ChanReport} (h : 1 ≤ r.dimms) : foundReports [r] = [r] := by
  have hfind : (fun k => [r].find? fun r => r.chan.val == k && r.dimms != 0) = fun k => if r.chan.val = k then some r else none := by
    funext k
    have hd : (r.dimms != 0) = true := by
      simp only [bne_iff_ne]
      omega
    by_cases hk : r.chan.val = k
    · simp [List.find?, hd, hk]
    · have hne : (r.chan.val == k) = false := beq_eq_false_iff_ne.mpr hk
      simp [List.find?, hne, hk]
  rw [foundReports, hfind, filterMap_range_single, if_pos r.chan.isLt]

/-- What training settles in the end: lanes, channels in service, size, rate and capacity, then the stage. -/
def settleTraining (u : State) (n cap rate st : Nat) : State :=
  let s3 := ((((u.setObj Key.memLanes n).setObj Key.memService n).setObj Key.memSize (n * cap)).setObj Key.memSpeed rate).setObj Key.memFreezes 0
  ((s3.withMem { s3.mem with capacity := cap }).refreshRingAvail.refreshAdmitted.refreshSpares).enterStage st

theorem settleTraining_spec (u : State) {n cap st : Nat} (rate : Nat) (hst : st < 256) (hn : n < 256) (hcap : n * cap < 256 ^ 8) :
    (settleTraining u n cap rate st).obj Key.suStage = st ∧ (settleTraining u n cap rate st).obj Key.memService = n ∧ (settleTraining u n cap rate st).obj Key.memSize = n * cap ∧
      ∀ k, 0x198000 ≤ k → isTrainingKey k → (settleTraining u n cap rate st).obj k = u.obj k := by
  unfold settleTraining
  extract_lets s3
  have hservice : s3.obj Key.memService = n := by
    show (((((u.setObj _ _).setObj _ _).setObj _ _).setObj _ _).setObj _ _).obj Key.memService = n
    rw [obj_setObj_of_ne _ _ (by decide), obj_setObj_of_ne _ _ (by decide), obj_setObj_of_ne _ _ (by decide), obj_setObj_byte _ (lenOf_memService ..) hn]
  have hsize : s3.obj Key.memSize = n * cap := by
    show (((((u.setObj _ _).setObj _ _).setObj _ _).setObj _ _).setObj _ _).obj Key.memSize = n * cap
    rw [obj_setObj_of_ne _ _ (by decide), obj_setObj_of_ne _ _ (by decide), obj_setObj_same, lenOf_memSize]
    exact Nat.mod_eq_of_lt hcap
  have hchan : KeepsBut (· < 0x198000) u s3 :=
    ((((keepsBut_setObj (by decide) u n).trans (keepsBut_setObj (by decide) _ n)).trans (keepsBut_setObj (by decide) _ (n * cap))).trans (keepsBut_setObj (by decide) _ rate)).trans
      (keepsBut_setObj (by decide) _ 0)
  clear_value s3
  have hmem : KeepsTraining s3 (s3.withMem { s3.mem with capacity := cap }) := keepsTraining_of_dict rfl
  generalize s3.withMem { s3.mem with capacity := cap } = v at *
  have hkeep : KeepsTraining s3 v.refreshRingAvail.refreshAdmitted.refreshSpares :=
    ((hmem.trans (keepsTraining_refreshRingAvail v)).trans (keepsTraining_refreshAdmitted v.refreshRingAvail)).trans (keepsTraining_refreshSpares v.refreshRingAvail.refreshAdmitted)
  generalize v.refreshRingAvail.refreshAdmitted.refreshSpares = w at *
  have hstage (k : Nat) (h1 : k ≠ Key.suStage) (h2 : k ≠ Key.suStageTime) (hk : isTrainingKey k) : (w.enterStage st).obj k = s3.obj k := by
    rw [obj_enterStage, obj_setObj_of_ne _ _ h2, obj_setObj_of_ne _ _ h1, hkeep.obj hk]
  refine ⟨?_, ?_, ?_, fun k hk ht => ?_⟩
  · rw [obj_enterStage, obj_setObj_of_ne _ _ (by decide), obj_setObj_byte _ (lenOf_suStage ..) hst]
  · rw [hstage _ (by decide) (by decide) (by unfold isTrainingKey; decide), hservice]
  · rw [hstage _ (by decide) (by decide) (by unfold isTrainingKey; decide), hsize]
  · rw [hstage k (by unfold Key.suStage; omega) (by unfold Key.suStageTime; omega) ht, hchan k (by omega)]

/-- The start of training: no channel is known, and the last request of each is now. -/
def clearChannels (s : State) : State :=
  (List.range 16).foldl (fun y k => ((((y.setObj (Key.memchState k) 0).setObj (Key.memchLane k) 0xFF).setObj (Key.memchDimms k) 0).setObj (Key.memchRanks k) 0).putMemChan k { lastRequest := y.wall }) s

/-- No channel works: the start-up has failed (19 R501). -/
theorem trainAtStart_nil (s : State) : ∃ rate, trainAtStart s [] = settleTraining (clearChannels s) 0 0 rate 6 := by
  have hfound : ((List.range 16).filterMap fun k => ([] : List ChanReport).find? fun r => r.chan.val == k && r.dimms != 0) = [] := rfl
  have href : referencePop (([] : List ChanReport).filter supportedPop) = none := rfl
  unfold trainAtStart
  rw [hfound]
  dsimp only
  rw [href]
  simp only [List.filter_nil, List.foldl_nil, List.zipIdx_nil, List.length_nil, List.isEmpty_nil, if_true]
  exact ⟨_, rfl⟩

/-- The objects of a channel that works, as its report gives them. -/
def enterChannel (u : State) (r : ChanReport) : State :=
  ((((u.setObj (Key.memchDimms r.chan.val) (min 2 r.dimms)).setObj (Key.memchRanks r.chan.val) (min 2 r.ranks)).setObj (Key.memchTrainTime r.chan.val) (r.ticks / 1024)).setObj
    (Key.memchState r.chan.val) 3).setObj (Key.memchTemp r.chan.val) r.temp.toNat

/-- A supported channel that works is the reference of the population, and in service with lane 0 (10 R288). -/
theorem trainAtStart_single (s : State) {r : ChanReport} (hworks : r.works = true) (hdimms : 1 ≤ r.dimms) (hsupported : supportedPop r = true) :
    ∃ rate, trainAtStart s [r] = settleTraining ((enterChannel (clearChannels s) r).setObj (Key.memchLane r.chan.val) 0) 1 r.capacity rate 3 := by
  have hfound : ((List.range 16).filterMap fun k => [r].find? fun r => r.chan.val == k && r.dimms != 0) = [r] := foundReports_single hdimms
  have href : referencePop ([r].filter supportedPop) = some (chanPopulation r) := by
    rw [List.filter_cons_of_pos hsupported]
    rfl
  have hstate : (if (!supportedPop r) = true ∨ some (chanPopulation r) ≠ some (chanPopulation r) then 1 else if r.works = true then 3 else 5) = 3 := by
    rw [if_neg (by simp [hsupported]), if_pos hworks]
  have hok : ([r].filter fun r' => (if (!supportedPop r') = true ∨ some (chanPopulation r') ≠ some (chanPopulation r) then 1 else if r'.works = true then 3 else 5) == 3) = [r] :=
    List.filter_cons_of_pos (by rw [hstate]; rfl)
  unfold trainAtStart
  rw [hfound]
  dsimp only
  rw [href, hok]
  simp only [List.foldl_cons, List.foldl_nil, hstate]
  exact ⟨_, rfl⟩

theorem trainingComplete_of_training {s : State} (report : List ChanReport) (h : s.obj Key.suStage = 2) : exec (.trainingComplete report) s = .next (trainAtStart s report).startLinks := by
  rw [exec_trainingComplete, execTrainingComplete]
  exact if_pos h

theorem isTrainingKey_suStage : isTrainingKey Key.suStage := .inl rfl

theorem isTrainingKey_memSize : isTrainingKey Key.memSize := .inr (.inl rfl)

theorem isTrainingKey_memService : isTrainingKey Key.memService := .inr (.inr (.inl rfl))

theorem isTrainingKey_memchState {c : Nat} (h : c < 16) : isTrainingKey (Key.memchState c) := by
  unfold isTrainingKey Key.memchState
  omega

theorem isTrainingKey_memchLane {c : Nat} (h : c < 16) : isTrainingKey (Key.memchLane c) := by
  unfold isTrainingKey Key.memchLane
  omega

theorem completes_trainingComplete_nil {s : State} (hstage : s.obj Key.suStage = 2) :
    Completes (.trainingComplete []) s fun t => t.obj Key.suStage = 6 ∧ t.obj Key.memService = 0 ∧ t.obj Key.memSize = 0 := by
  have hexec := trainingComplete_of_training [] hstage
  obtain ⟨rate, h⟩ := trainAtStart_nil s
  obtain ⟨h1, h2, h3, -⟩ := settleTraining_spec (clearChannels s) (n := 0) (cap := 0) (st := 6) rate (by decide) (by decide) (by decide)
  rw [h] at hexec
  generalize settleTraining (clearChannels s) 0 0 rate 6 = u at *
  have hkeep := keepsTraining_startLinks u
  exact ⟨_, hexec, (hkeep.obj isTrainingKey_suStage).trans h1, (hkeep.obj isTrainingKey_memService).trans h2, (hkeep.obj isTrainingKey_memSize).trans h3⟩

theorem supportedPop_of {r : ChanReport} (h1 : 1 ≤ r.dimms) (h2 : r.dimms ≤ 2) (h3 : 1 ≤ r.ranks) (h4 : r.ranks ≤ 2) (hcap : r.capacity = r.dimms * r.ranks * 2 ^ 35) : supportedPop r = true := by
  unfold supportedPop
  rw [hcap]
  simp [h1, h2, h3, h4]

/-- Two DIMMs of two ranks are the most a channel holds. -/
theorem capacity_lt {r : ChanReport} (h2 : r.dimms ≤ 2) (h4 : r.ranks ≤ 2) (hcap : r.capacity = r.dimms * r.ranks * 2 ^ 35) : 1 * r.capacity < 256 ^ 8 := by
  have h : r.dimms * r.ranks ≤ 2 * 2 := Nat.mul_le_mul h2 h4
  omega

theorem completes_trainingComplete_single {s : State} {r : ChanReport} (hstage : s.obj Key.suStage = 2) (hworks : r.works = true) (h1 : 1 ≤ r.dimms) (h2 : r.dimms ≤ 2) (h3 : 1 ≤ r.ranks) (h4 : r.ranks ≤ 2)
    (hcap : r.capacity = r.dimms * r.ranks * 2 ^ 35) :
    Completes (.trainingComplete [r]) s fun t => t.obj Key.suStage = 3 ∧ t.obj Key.memService = 1 ∧ t.obj (Key.memchState r.chan.val) = 3 ∧ t.obj (Key.memchLane r.chan.val) = 0 ∧
      t.obj Key.memSize = r.capacity := by
  have hexec := trainingComplete_of_training [r] hstage
  have hc := r.chan.isLt
  obtain ⟨rate, h⟩ := trainAtStart_single s hworks h1 (supportedPop_of h1 h2 h3 h4 hcap)
  obtain ⟨hst, hservice, hsize, hrest⟩ := settleTraining_spec ((enterChannel (clearChannels s) r).setObj (Key.memchLane r.chan.val) 0) (n := 1) (cap := r.capacity) (st := 3) rate (by decide) (by decide)
    (capacity_lt h2 h4 hcap)
  have hstate : ((enterChannel (clearChannels s) r).setObj (Key.memchLane r.chan.val) 0).obj (Key.memchState r.chan.val) = 3 := by
    unfold enterChannel
    rw [obj_setObj_of_ne _ _ (by unfold Key.memchState Key.memchLane; omega), obj_setObj_of_ne _ _ (by unfold Key.memchState Key.memchTemp; omega),
      obj_setObj_byte _ (lenOf_memchState _ hc) (by decide)]
  have hlane : ((enterChannel (clearChannels s) r).setObj (Key.memchLane r.chan.val) 0).obj (Key.memchLane r.chan.val) = 0 := obj_setObj_byte _ (lenOf_memchLane _ hc) (by decide)
  rw [h] at hexec
  generalize settleTraining ((enterChannel (clearChannels s) r).setObj (Key.memchLane r.chan.val) 0) 1 r.capacity rate 3 = u at *
  have hkeep := keepsTraining_startLinks u
  refine ⟨_, hexec, (hkeep.obj isTrainingKey_suStage).trans hst, (hkeep.obj isTrainingKey_memService).trans hservice, ?_, ?_, ?_⟩
  · rw [hkeep.obj (isTrainingKey_memchState hc), hrest _ (by unfold Key.memchState; omega) (isTrainingKey_memchState hc), hstate]
  · rw [hkeep.obj (isTrainingKey_memchLane hc), hrest _ (by unfold Key.memchLane; omega) (isTrainingKey_memchLane hc), hlane]
  · rw [hkeep.obj isTrainingKey_memSize, hsize, Nat.one_mul]

/-! ### The LINKS stage (19 R502) -/

theorem linksStageEnd_of_not {s : State} (h : s.obj Key.suStage ≠ 3) : exec .linksStageEnd s = .next s := by
  rw [exec_linksStageEnd, execLinksStageEnd]
  exact if_pos h

theorem completes_linksStageEnd {s : State} (hstage : s.obj Key.suStage = 3) (hbound : s.obj Key.suStageTime + 200000000 * tick ≤ s.time) (htime : s.time < 2 ^ 80) :
    Completes .linksStageEnd s fun t => t.obj Key.suStage = 4 ∧ t.obj Key.suStageTime = s.time ∧ t.obj Key.suElapsed = ((s.wall - s.start.releaseAt) / 1024) % 2 ^ 32 ∧
      KeepsObjects [Key.suStage, Key.suStageTime, Key.suElapsed] s t := by
  have hexec : exec .linksStageEnd s = .next ((s.setObj Key.suElapsed ((s.wall - s.start.releaseAt) / 1024)).enterStage 4) := by
    rw [exec_linksStageEnd, execLinksStageEnd]
    exact (if_neg (not_not.mpr hstage)).trans (if_pos (.inr hbound))
  refine ⟨_, hexec, ?_, ?_, ?_, fun k hk => ?_⟩
  · rw [obj_enterStage, obj_setObj_of_ne _ _ (by decide), obj_setObj_byte _ (lenOf_suStage ..) (by decide)]
  · rw [obj_enterStage, obj_setObj_same, lenOf_suStageTime]
    exact Nat.mod_eq_of_lt htime
  · rw [obj_enterStage, obj_setObj_of_ne _ _ (by decide), obj_setObj_of_ne _ _ (by decide), obj_setObj_same, lenOf_suElapsed]
    rfl
  · simp only [List.mem_cons, List.not_mem_nil, or_false, not_or] at hk
    obtain ⟨h1, h2, h3⟩ := hk
    rw [obj_enterStage, obj_setObj_of_ne _ _ h2, obj_setObj_of_ne _ _ h1, obj_setObj_of_ne _ _ h3]

/-- Settles O60, stage by stage: the reset, the release and the boot, then calibration, training and the links. -/
theorem startUp : Obligations.StartUp := by
  unfold Obligations.StartUp
  refine ⟨completes_powerOnReset, ⟨?_, ?_, ?_, ?_, ?_, ?_, ?_, ?_⟩, ?_, ?_, ?_, ?_, ?_, ?_⟩
  · exact fun s x h => perstRelease_of_released x h
  · exact fun s x h => completes_perstRelease x h
  · exact fun s r b h => bootDone_of_not r b h
  · exact fun s r b hreleased hstopped hstage hks hfail => completes_bootStops b hreleased hstopped hstage hks hfail
  · exact fun s r b hreleased hstopped hstage hks hcopies hslots hboard => completes_bootGoes hreleased hstopped hstage hks hcopies hslots hboard
  · exact fun s r p h => bootPasses_of_svn_lt h
  · exact fun s r p i h => flashImage_of_written r h
  · exact fun s b h hm => applyBoard_of_magic s h hm
  · exact fun s f w h => startupCalibrationDone_of_not f w h
  · exact fun s w hstage hout => completes_startupCalibrationDone w hstage hout
  · exact fun s hstage => completes_trainingComplete_nil hstage
  · exact fun s r hstage hworks h1 h2 h3 h4 hcap => completes_trainingComplete_single hstage hworks h1 h2 h3 h4 hcap
  · exact fun s h => linksStageEnd_of_not h
  · exact fun s hstage hbound htime => completes_linksStageEnd hstage hbound htime

end Sys2Proof.Machine
end
